-- ==== Sys2Proof/Word.lean ====
section
/-! DEFINITION. The words of the module: a register is 32 bits wide (R6), a memory cell one byte, a cue entry
128 bits (R41). -/

namespace Sys2Proof

/-- A 32-bit register word. -/
abbrev Word := BitVec 32

/-- One byte of a memory. -/
abbrev Byte := BitVec 8

/-- A cue entry, bits 127:0 (R41). -/
abbrev CueWord := BitVec 128

end Sys2Proof
end

