-- ==== Sys2Proof/Syntax.lean ====
section
/-! DEFINITION. The commands of the block: one constructor for each row of spec/opcode_table.json, in its order, with
the operands the row's rules name. A command is a register access by a bus master, an action that a cue fires, or an
event inside or outside the module; the operands of an event are what the module observes at it. -/

namespace Sys2Proof

/-- The attributes of a bus transaction (R554). -/
structure Attr where
  secure : Bool
  mid : BitVec 8
  vmid : BitVec 10
  spec : Bool := false
deriving DecidableEq, Repr

/-- A cue that reaches one of its instants: the index of its entry. -/
structure CueRef where
  idx : Fin 4096
deriving DecidableEq, Repr

/-- A value that a source or a measurement gives as a fraction: `num / den` (a `den` of 0 stands for 1). -/
structure Ratio where
  num : Nat
  den : Nat := 1
deriving DecidableEq, Repr

/-- What a measurement of a slot's source shows (R25, R26, R28, R730): the source's value in units of 2^−24 tick with the rate
learned so far in units of 2^−32; or an edge of an encoder and its direction. -/
inductive Measure where
  | source (src : Ratio) (rate : Int)
  | edge (fwd : Bool)
deriving DecidableEq, Repr

/-- What a source that qualifies has shown (R24): the tick's length in ns, and the figures that its criteria judge. -/
structure Sighting where
  tickNs : Nat
  seen : List Nat
deriving DecidableEq, Repr

/-- Where a master reads: a module address, and how many bytes from it. -/
structure ReadAt where
  addr : Nat
  width : Nat
deriving DecidableEq, Repr

/-- An error that a block detects: its code, the bus address and the transaction's attributes (Table 00.9). -/
structure ErrEvent where
  code : BitVec 16
  addr : BitVec 40
  attr : Attr
deriving DecidableEq, Repr

/-- What the ECC of a memory finds at an access: no error, a corrected one, or an uncorrectable one (R103, R117, R118). -/
inductive Ecc where
  | clean
  | corrected
  | uncorrectable
deriving DecidableEq, Repr

/-- The row NOP names two things: the NOP cue (R44), and the NOP instruction of an engine (Table 03.4). -/
inductive NopKind where
  | cue (c : CueRef)
  | insn (e : Fin 18) (fetch : Ecc)
deriving DecidableEq, Repr

/-- What 1 ms of a power channel shows (R208, R222): the mean of the squared current in mA², the mean current in units of
10 mA, the junction temperature in °C plus 50, and whether the channel is regulating at its limit. -/
structure ChanSample where
  i2 : Nat
  current : BitVec 16
  die : BitVec 8
  limiting : Bool
deriving DecidableEq, Repr

/-- An on-part of a channel that regulates (R211; a static channel has one): for how long, in ns, and whether it ends regulating or
still regulates. -/
structure LimPulse where
  ns : Nat
  ended : Bool
deriving DecidableEq, Repr

/-- A channel's regulation (R211): the channel, the current that the load would draw in units of 10 mA, and the on-parts so far. -/
structure LimRun where
  chan : Fin 72
  load : BitVec 16
  parts : List LimPulse
deriving DecidableEq, Repr

/-- A transmit opportunity on a 10BASE-T1S segment (R328): the port on the segment, and the node whose opportunity it is. -/
structure Opportunity where
  port : Fin 36
  node : BitVec 8
deriving DecidableEq, Repr

/-- Destination and source address of an Ethernet frame. -/
structure MacPair where
  dst : BitVec 48
  src : BitVec 48
deriving DecidableEq, Repr

/-- A CAN frame (Table 09.2): the identifier in the layout of word 0 (a base or XL identifier in bits 28:18), the format
(0 classical, 1 FD, 2 XL), the DLC (XL: the data length less 1), the data and the XL fields. -/
structure CanFrame where
  ide : Bool := false
  id : BitVec 29
  fmt : Fin 3 := 0
  brs : Bool := false
  esi : Bool := false
  rtr : Bool := false
  dlc : BitVec 11
  data : List Byte
  sdt : BitVec 8 := 0
  vcid : BitVec 8 := 0
  sec : Bool := false
  af : Word := 0
deriving DecidableEq, Repr

/-- The happenings that move a CAN error counter (Table 09.4, R391). `found`: the controller finds an error (1 stuff, 2 form,
3 acknowledgement, 4 recessive bit read dominant, 5 dominant bit read recessive, 6 CRC); `inFlag`: a bit error inside its
own active error flag or overload flag; `waived`: a stuff error of case (b), or no dominant bit during the passive flag of
case (a); `xlData`: in the data phase of an XL frame. -/
inductive CanHap where
  | found (err : Fin 7) (waived : Bool) (xlData : Bool)
  | firstDominant
  | inFlag
  | dominant14
  | dominant8
  | furtherDominant8
  | pex
deriving DecidableEq, Repr

/-- What a LIN channel sees of a response: the bytes received, checksum included, a framing or parity error, and a bit read
back different from the one sent. -/
structure LinSeen where
  bytes : List Byte
  framing : Bool := false
  readBack : Bool := false
deriving DecidableEq, Repr

/-- What the ECC finds when the LOFT reads a frame back (R292). -/
inductive LoftRead where
  | good
  | frameError
  | headerError
deriving DecidableEq, Repr

/-- How a move of a T1 unit ends (R505, R507): it is made, abandoned because more than 64 lines stay dirty, or abandoned at an
uncorrectable error at a byte offset of the unit. -/
inductive MoveEnd where
  | done
  | dirty
  | ecc (ofs : BitVec 16)
deriving DecidableEq, Repr

/-- How a completion from the Span link ends a request (Table 12.4): successfully, with the bytes read; Unsupported Request;
Completer Abort; poisoned, or with an ECRC error. -/
inductive SpanCpl where
  | success (d : List Byte)
  | unsupported
  | abort
  | poisoned
deriving DecidableEq, Repr

/-- An inbound request of the link partner (R476, R477, R487, R553): a read or a write in a BAR of the physical function (or at a
PCIe address of the root port), a read or a write in the BAR of a virtual function, a write of the physical function's MSI-X
table, a poisoned request or one with an ECRC error, an error or INTx message. -/
inductive SpanIn where
  | read (bar : Fin 3) (addr : BitVec 64) (n : Fin 513)
  | write (bar : Fin 3) (addr : BitVec 64) (d : List Byte)
  | vfRead (v : Fin 256) (addr : BitVec 16)
  | vfWrite (v : Fin 256) (addr : BitVec 16) (x : Word) (far : List (Nat × Byte))
  | msix (vec : Fin 32) (w : Fin 4) (x : Word)
  | poisoned (write : Bool) (addr : BitVec 64)
  | message
deriving DecidableEq, Repr


/-- How an engine comes out of the tests at power-up (R618 to R620): difference patterns detected, the signature, whether every
pattern injected during the self-test was detected, and whether its un-injected compare was equal. -/
structure EngineTest where
  patterns : Fin 65
  sig : BitVec 16
  detected : Bool
  equal : Bool
deriving DecidableEq, Repr

/-- What makes a module declare itself faulty (R639): a write of `TWN_DECLARE`, or a condition of `HLT_DECLARE_EN` that arises
(bit 0 a task of `CRIT` 3 UNPLACED, 1 SPARE_EMPTY, 2 TC0 in FREERUN with a source other than LOC, 3 LOCKSTEP_BROKEN, 4 an
uncorrectable pool ECC error). -/
inductive DeclareBy where
  | write (v : Word) (a : Attr)
  | condition (k : Fin 5)
deriving DecidableEq, Repr

/-- How a completion from the Span link ends an access of a DMA channel. -/
inductive SpanEnd where
  | success
  | unsupported
  | abort
  | poisoned
  | timeout
deriving DecidableEq, Repr

/-- What a burst of a DMA channel meets on one side: the bytes that the Span link brings it, and at its access `k` what the ECC
finds and how the link answers (the accesses before it are clean). -/
structure DmaSeen where
  data : List Byte := []
  k : Fin 4 := 0
  ecc : Ecc := .clean
  fin : SpanEnd := .success
deriving DecidableEq, Repr

/-- The commands. -/
inductive Instr where
  /-- REGISTER_WRITE (R10): A bus write of `width` bytes at a module address. -/
  | registerWrite (addr : Nat) (width : Nat) (v : Word) (a : Attr)
  /-- LOWER_REGISTER_READ (R8): A read, the lower register of a pair. -/
  | lowerRegisterRead (r : ReadAt) (a : Attr)
  /-- UPPER_REGISTER_READ (R8): A read, the upper register of a pair. -/
  | upperRegisterRead (r : ReadAt) (a : Attr)
  /-- EVT_CLR_WRITE (R14): A write of `EVT_CLR` of group `g`; `again` are the bits whose condition recurs in the same cycle (R11). -/
  | evtClrWrite (page : Fin 1024) (g : Fin 3) (v : Word) (again : Word) (a : Attr)
  /-- EVT_SET_WRITE (R15): A write of `EVT_SET` of group `g`. -/
  | evtSetWrite (page : Fin 1024) (g : Fin 3) (v : Word) (a : Attr)
  /-- ERR_CAP_CLEAR (R17): A write of `ERR_CAP0`; `fresh` is an error of the page that falls in the same cycle (R17). -/
  | errCapClear (page : Fin 1024) (v : Word) (fresh : Option ErrEvent) (a : Attr)
  /-- LOCK_WRITE (R12): A write of `LOCK`. -/
  | lockWrite (page : Fin 1024) (v : Word) (a : Attr)
  /-- WORLD_WRITE (R562): A write of a page's `WORLD` register. -/
  | worldWrite (page : Fin 1024) (v : Word) (a : Attr)
  /-- TCU_BASE_TICK_WRITE (R22): A write of `TCU_BASE_TICK`. -/
  | tcuBaseTickWrite (v : Word) (a : Attr)
  /-- TCU_SRC_WRITE (R31): A write of `TCU_SRCn`. -/
  | tcuSrcWrite (n : Fin 4) (v : Word) (a : Attr)
  /-- SOURCE_QUALIFIED (R24): The source of a slot meets its criteria: its value in units of 2^−24 tick, the rate learned in units of 2^−32, the tick length measured, and what it has shown (ANG: the edges of each revolution since the index was seen; MNS: the phase error of each cycle in hundredths of a degree). -/
  | sourceQualified (n : Fin 4) (src : Ratio) (rate : Int) (x : Sighting)
  /-- SOURCE_LOST (R27): The source of a slot meets a loss criterion; `fault` when it is one of those that raise SOURCE_FAULT (R61). -/
  | sourceLost (n : Fin 4) (fault : Bool)
  /-- HOLD_LIMIT_EXPIRY (R27): `TCU_HOLD_LIMITn` ms have passed in HOLDOVER. -/
  | holdLimitExpiry (n : Fin 4)
  /-- ANG_STALL (R25): No encoder edge arrives for the stall time. -/
  | angStall (n : Fin 4)
  /-- CORRECTION_MEASURED (R730): A slot is compared with its source; `ns` is the tick's length, or at an edge the interval since the edge before. -/
  | correctionMeasured (n : Fin 4) (m : Measure) (ns : Nat)
  /-- SLEW_DONE (R33): The correction being slewed is used up. -/
  | slewDone (n : Fin 4)
  /-- TIMECODE_STEP (R35): The slot reaches the tick boundary at which a pending step is due. -/
  | timecodeStep (n : Fin 4)
  /-- CUE_IDX_WRITE (R49): A write of `CUE_IDX`. -/
  | cueIdxWrite (v : Word) (a : Attr)
  /-- CUE_W3_WRITE (R49): A write of `CUE_W3`. -/
  | cueW3Write (v : Word) (a : Attr)
  /-- CUE_SWAP_REQUEST (R50): A write of `CUE_SWAP`. -/
  | cueSwapRequest (v : Word) (a : Attr)
  /-- SWAP_DONE (R51): The slot of the pending swap reaches the swap boundary. -/
  | swapDone
  /-- CUE_COPY (R52): A write of `CUE_COPY`. -/
  | cueCopy (v : Word) (a : Attr)
  /-- COPY_DONE (R52): The copy of 4,096 entries ends. -/
  | copyDone
  /-- CUE_CNT_CLR (R62): A write of `CUE_CNT_CLR`. -/
  | cueCntClr (v : Word) (a : Attr)
  /-- NOP (R44): A NOP cue fires, or an engine executes a NOP instruction. -/
  | nop (k : NopKind)
  /-- LATCH (R69): A LATCH cue fires: the input cue of a cadence. -/
  | latch (c : CueRef)
  /-- IMAGE_READY (R75): A cadence's image has been copied and its input forces applied. -/
  | imageReady (c : Fin 64)
  /-- COMMIT (R84): A COMMIT cue fires: the commit cue of a cadence. -/
  | commit (c : CueRef)
  /-- DRAIN_END (R84): The drain of a cadence's commit ends. -/
  | drainEnd (c : Fin 64)
  /-- RERUN_START (R96): The spare assigned to a mismatched task starts its rerun. -/
  | rerunStart (t : Fin 512)
  /-- RETRY_WINDOW_END (R96): The retry window of a task's rerun ends. -/
  | retryWindowEnd (t : Fin 512)
  /-- ENGINE_SELFTEST (R97): The tick boundary after a mismatch: a suspect engine goes to its self-test. -/
  | engineSelftest (e : Fin 18)
  /-- SELFTEST_DONE (R620): A signature self-test ends: signature, every injected pattern detected, un-injected compare equal. -/
  | selftestDone (e : Fin 18) (sig : BitVec 16) (detected equal : Bool)
  /-- PLACEMENT (R107): A tick boundary of TC0 at which the Reeve places, with the placement it prefers. -/
  | placement (p : List (Fin 512 × Fin 18))
  /-- CEA_REPLACE (R107): A write of CEA_REPLACE. -/
  | ceaReplace (v : Word) (a : Attr)
  /-- BG_COMMIT (R110): The tick boundary at which a background task commits. -/
  | bgCommit (t : Fin 512)
  /-- BG_RIPE (R112): A background task's age reaches RIPEN. -/
  | bgRipe (t : Fin 512)
  /-- CEA_TASK_RESTART (R103): A write of CEA_TASK_RESTART. -/
  | ceaTaskRestart (v : Word) (a : Attr)
  /-- CADENCE_ENABLE (R74): A write of word 0 of a cadence entry. -/
  | cadenceEnable (c : Fin 64) (v : Word) (a : Attr)
  /-- PDU_FRAME_RX (R90): A frame reaches the CEA through port P38 (without its check sequence). -/
  | pduFrameRx (b : List Byte)
  /-- PDU_STORE (R90): A matched PDU frame is stored. -/
  | pduStore (u : Fin 256)
  /-- PDU_SEND (R92): A released transmit PDU is handed to port P38. -/
  | pduSend
  /-- PDU_ENTRY_WRITE (R93): A write of a word of a PDU entry. -/
  | pduEntryWrite (u : Fin 256) (w : Fin 8) (v : Word) (a : Attr)
  /-- BANK_WRITE (R156): A write of PGM_TASKt_BANKn. -/
  | bankWrite (t : Fin 512) (n : Fin 2) (v : Word) (a : Attr)
  /-- ALU (R143): An engine executes its current run's ALU instruction. -/
  | alu (e : Fin 18) (fetch : Ecc)
  /-- LOGIC (R143): An engine executes its current run's LOGIC instruction. -/
  | logic (e : Fin 18) (fetch : Ecc)
  /-- CMP (R143): An engine executes its current run's CMP instruction. -/
  | cmp (e : Fin 18) (fetch : Ecc)
  /-- CVT (R143): An engine executes its current run's CVT instruction. -/
  | cvt (e : Fin 18) (fetch : Ecc)
  /-- RND (R143): An engine executes its current run's RND instruction. -/
  | rnd (e : Fin 18) (fetch : Ecc)
  /-- BOOL (R143): An engine executes its current run's BOOL instruction. -/
  | bool (e : Fin 18) (fetch : Ecc)
  /-- SEL (R143): An engine executes its current run's SEL instruction. -/
  | sel (e : Fin 18) (fetch : Ecc)
  /-- BTST (R143): An engine executes its current run's BTST instruction. -/
  | btst (e : Fin 18) (fetch : Ecc)
  /-- BINS (R143): An engine executes its current run's BINS instruction. -/
  | bins (e : Fin 18) (fetch : Ecc)
  /-- LI (R143): An engine executes its current run's LI instruction. -/
  | li (e : Fin 18) (fetch : Ecc)
  /-- LIH (R143): An engine executes its current run's LIH instruction. -/
  | lih (e : Fin 18) (fetch : Ecc)
  /-- ADDI (R143): An engine executes its current run's ADDI instruction. -/
  | addi (e : Fin 18) (fetch : Ecc)
  /-- LD (R81): An engine executes its current run's LD instruction; `load` is what the pool's ECC finds. -/
  | ld (e : Fin 18) (fetch : Ecc) (load : Ecc)
  /-- ST (R79): An engine executes its current run's ST instruction. -/
  | st (e : Fin 18) (fetch : Ecc)
  /-- LDX (R135): An engine executes its current run's LDX instruction; `load` is what the pool's ECC finds. -/
  | ldx (e : Fin 18) (fetch : Ecc) (load : Ecc)
  /-- STX (R135): An engine executes its current run's STX instruction. -/
  | stx (e : Fin 18) (fetch : Ecc)
  /-- LDB (R121): An engine executes its current run's LDB instruction; `load` is what the pool's ECC finds. -/
  | ldb (e : Fin 18) (fetch : Ecc) (load : Ecc)
  /-- STB (R143): An engine executes its current run's STB instruction. -/
  | stb (e : Fin 18) (fetch : Ecc)
  /-- TCV (R143): An engine executes its current run's TCV instruction. -/
  | tcv (e : Fin 18) (fetch : Ecc)
  /-- BR (R142): An engine executes its current run's BR instruction. -/
  | br (e : Fin 18) (fetch : Ecc)
  /-- BRK (R144): An engine executes its current run's BRK instruction. -/
  | brk (e : Fin 18) (fetch : Ecc)
  /-- LOOP (R144): An engine executes its current run's LOOP instruction. -/
  | loop (e : Fin 18) (fetch : Ecc)
  /-- CALL (R143): An engine executes its current run's CALL instruction. -/
  | call (e : Fin 18) (fetch : Ecc)
  /-- RET (R132): An engine executes its current run's RET instruction. -/
  | ret (e : Fin 18) (fetch : Ecc)
  /-- END (R132): An engine executes its current run's END instruction. -/
  | endRun (e : Fin 18) (fetch : Ecc)
  /-- TRAP (R143): An engine executes its current run's TRAP instruction. -/
  | trap (e : Fin 18) (fetch : Ecc)
  /-- PRIM (R147): An engine executes its current run's PRIM instruction; `load` is what the pool's ECC finds. -/
  | prim (e : Fin 18) (fetch : Ecc) (load : Ecc)
  /-- CHG_ARM (R162): A write of FRC_CHG_CTRL with ARM set. -/
  | chgArm (v : Word) (a : Attr)
  /-- CHG_CANCEL (R163): A write of FRC_CHG_CTRL with CANCEL set. -/
  | chgCancel (v : Word) (a : Attr)
  /-- FORCE_WRITE (R175): A write of word 1 of a force entry. -/
  | forceWrite (f : Fin 1024) (v : Word) (a : Attr)
  /-- FRC_PERMIT_WRITE (R183): A write of FRC_PERMIT. -/
  | frcPermitWrite (v : Word) (a : Attr)
  /-- AUTH_EXPIRED (R184): The seconds of FRC_AUTH run out. -/
  | authExpired
  /-- DBG_ATTACH (R187): A write of DBG_ATTACH with REQ set. -/
  | dbgAttach (v : Word) (a : Attr)
  /-- DBG_DETACH (R193): A write of DBG_ATTACH with DETACH set. -/
  | dbgDetach (v : Word) (a : Attr)
  /-- DBG_HALT (R188): A write of DBG_HALT with GO set. -/
  | dbgHalt (v : Word) (a : Attr)
  /-- DBG_RESUME (R189): A write of DBG_HALT with RESUME set. -/
  | dbgResume (v : Word) (a : Attr)
  /-- DBG_STEP (R188): A write of DBG_HALT with STEP set. -/
  | dbgStep (v : Word) (a : Attr)
  /-- DBG_REGISTER_WRITE (R192): A write of DBG_GLOn (n below 32), DBG_GHI (32) or DBG_B (33). -/
  | dbgRegisterWrite (n : Fin 34) (v : Word) (a : Attr)
  /-- PCH_CMD_WRITE (R207): A direct write of `PCH_CMDk` of a channel. -/
  | pchCmdWrite (c : Fin 72) (v : Word) (a : Attr)
  /-- PWM_PERIOD_START (R228): A period of the channel's pulse generator starts. -/
  | pwmPeriodStart (c : Fin 72)
  /-- PWM_ALIGN (R229): A PWM_ALIGN cue fires. -/
  | pwmAlign (c : CueRef)
  /-- SHORT_TRIP (R212): The channel's current rises above its short threshold. -/
  | shortTrip (c : Fin 72)
  /-- LIM_DWELL_EXPIRY (R211): A channel has regulated at its limit; `x` is its regulation so far. -/
  | limDwellExpiry (x : LimRun)
  /-- OVERTEMP_SHUTDOWN (R221): The channel's junction reaches the shutdown threshold. -/
  | overtempShutdown (c : Fin 72)
  /-- TEMP_RESTART (R221): The channel's junction falls to the restart threshold. -/
  | tempRestart (c : Fin 72)
  /-- RETRY_RESET (R221): The channel has been driven for 1 s without a temperature trip. -/
  | retryReset (c : Fin 72)
  /-- WIRE_MODEL_UPDATE (R222): 1 ms of the channel's current has been sampled. -/
  | wireModelUpdate (c : Fin 72) (m : ChanSample)
  /-- WINDOW_END (R213): The channel's boost or profile window reaches its end. -/
  | windowEnd (c : Fin 72)
  /-- BUS_DIP (R215): A busbar (0 IN12A, 1 IN12B, 2 IN48) falls below its dip threshold. -/
  | busDip (b : Fin 3)
  /-- BUS_DIP_END (R215): A busbar recovers; the length of the dip in µs. -/
  | busDipEnd (b : Fin 3) (us : BitVec 32)
  /-- BUS_OVERLOAD (R199): A busbar's 1 s average is taken: current in 100 mA, voltage in 10 mV. -/
  | busOverload (b : Fin 3) (cur volt : BitVec 16)
  /-- REARM (R217): A write of `PCH_CLRk` of a channel. -/
  | rearm (c : Fin 72) (v : Word) (a : Attr)
  /-- PCH_CNT_CLR (R239): A write of `PCH_CLRk` of a channel. -/
  | pchCntClr (c : Fin 72) (v : Word) (a : Attr)
  /-- OL_ON_DETECT (R235): The samples of the open-load test over 10 ms, in units of 10 mA. -/
  | olOnDetect (c : Fin 72) (cur : List (BitVec 16))
  /-- OFF_TEST_PHASE (R236): A 10 ms phase of the tests while off ends: pull-up on or off, and whether the output was high. -/
  | offTestPhase (c : Fin 72) (pullUp high : Bool)
  /-- AMBIENT_SAMPLE (R225): The 10 ms sample of an ambient source. -/
  | ambientSample (n : Fin 4)
  /-- AMB_FALLBACK (R225): An ambient source has received no fresh value for 100 ms. -/
  | ambFallback (n : Fin 4)
  /-- PROFILE_WRITE (R219): A write of a word of `LPM_PROFp`. -/
  | profileWrite (p : Fin 8) (w : Fin 32) (v : Word) (a : Attr)
  /-- PWM_CONFIG_WRITE (R227): A write of `PCH_PWMk` of a channel. -/
  | pwmConfigWrite (c : Fin 72) (v : Word) (a : Attr)
  /-- PSS_HB (R247): A write of `PSS_HB`. -/
  | pssHb (v : Word) (a : Attr)
  /-- PSS_WATCHDOG_EXPIRY (R248): `WD_TIMEOUT` ms have passed since the last accepted heartbeat. -/
  | pssWatchdogExpiry
  /-- PSS_RELEASE (R248): A write of `PSS_RELEASE`. -/
  | pssRelease (v : Word) (a : Attr)
  /-- PSS_RESTART (R250): The PSS controller's own watchdog expires. -/
  | pssRestart
  /-- PSS_START (R246): The PSS controller has started, after VBAT power-on or its own restart. -/
  | pssStart
  /-- HOLD_WINDOW_END (R252): The hold window ends. -/
  | holdWindowEnd
  /-- LH_SAMPLE (R257): The 1 ms sample of a limp-home pin. -/
  | lhSample (p : Fin 16) (level : Bool)
  /-- MAP_PROG (R264): A write of `PSS_MAP_PROG`. -/
  | mapProg (v : Word) (a : Attr)
  /-- MAP_PROG_DONE (R264): The OTP slot has been written and read back. -/
  | mapProgDone (good : Bool)
  /-- PSS_TAKE_WRITE (R266): A write of `PSS_TAKEc`. -/
  | pssTakeWrite (c : Fin 72) (v : Word) (a : Attr)
  /-- TAKEOVER (R267): A write of `PSS_TAKE_CTRL`. -/
  | takeover (v : Word) (a : Attr)
  /-- TAKE_CLR (R266): A write of `PSS_TAKE_CTRL`. -/
  | takeClr (v : Word) (a : Attr)
  /-- FRAME_RX (R274): A frame has been received whole on a port: on P0 to P35 from the destination address to the FCS, on P36 to P39 what the block hands over, without FCS; the fragments it came in, and whether putting them together failed. -/
  | frameRx (p : Fin 40) (b : List Byte) (frags : BitVec 8) (broken : Bool)
  /-- LOFT_WRITE_DONE (R286): Row R286. -/
  | loftWriteDone
  /-- LOFT_STAGE (R291): The LOFT stages the oldest frame of the queue's run; what the ECC finds. -/
  | loftStage (q : Fin 320) (e : LoftRead)
  /-- EGRESS_SELECT (R294): The port selects; what the ECC finds in the cells of the frame selected. -/
  | egressSelect (p : Fin 40) (e : Ecc)
  /-- FRAME_TX_DONE (R297): The port's frame on the wire ends. -/
  | frameTxDone (p : Fin 40)
  /-- LINK_DOWN (R298): The port reports its link down. -/
  | linkDown (p : Fin 40)
  /-- LINK_UP (R299): The port reports its link up. -/
  | linkUp (p : Fin 40)
  /-- GRACE_EXPIRY (R300): The grace time of the port passes. -/
  | graceExpiry (p : Fin 40)
  /-- LAG_REMAP (R303): No frame of the bucket is queued on its old member any more. -/
  | lagRemap (g : Fin 8) (b : Fin 64)
  /-- FDB_AGEING (R306): Row R306. -/
  | fdbAgeing
  /-- FDB_READ (R316): A write of `FDB_CMD` with OP 1. -/
  | fdbRead (v : Word) (a : Attr)
  /-- FDB_WRITE (R316): A write of `FDB_CMD` with OP 2. -/
  | fdbWrite (v : Word) (a : Attr)
  /-- FDB_LOOKUP (R316): A write of `FDB_CMD` with OP 3. -/
  | fdbLookup (v : Word) (a : Attr)
  /-- FDB_DELETE (R316): A write of `FDB_CMD` with OP 4. -/
  | fdbDelete (v : Word) (a : Attr)
  /-- FDB_FLUSH_FID (R316): A write of `FDB_CMD` with OP 5. -/
  | fdbFlushFid (v : Word) (a : Attr)
  /-- FDB_FLUSH_PORT (R316): A write of `FDB_CMD` with OP 6. -/
  | fdbFlushPort (v : Word) (a : Attr)
  /-- STRM_READ (R316): A write of `STRM_CMD` with OP 1. -/
  | strmRead (v : Word) (a : Attr)
  /-- STRM_WRITE (R316): A write of `STRM_CMD` with OP 2. -/
  | strmWrite (v : Word) (a : Attr)
  /-- STRM_LOOKUP (R316): A write of `STRM_CMD` with OP 3. -/
  | strmLookup (v : Word) (a : Attr)
  /-- STRM_DELETE (R316): A write of `STRM_CMD` with OP 4. -/
  | strmDelete (v : Word) (a : Attr)
  /-- SEQ_RECOVERY_RESET (R311): The reset time of a sequence function passes. -/
  | seqRecoveryReset (n : Fin 1024)
  /-- SWC_CNT_CLR (R312): A write of `SWC_CNT_CLR`. -/
  | swcCntClr (v : Word) (a : Attr)
  /-- GRN_CNT_CLR (R314): A write of `GRN_CNT_CLR`. -/
  | grnCntClr (v : Word) (a : Attr)
  /-- LOFT_CNT_CLR (R315): A write of `LOFT_CNT_CLR`. -/
  | loftCntClr (v : Word) (a : Attr)
  /-- MDIO_FRAME (R323): A write of `ETH_MDIO` with `GO` set. -/
  | mdioFrame (p : Fin 36) (v : Word) (a : Attr)
  /-- MDIO_DONE (R323): The MDIO frame of the port ends, with the data read. -/
  | mdioDone (p : Fin 36) (data : BitVec 16)
  /-- CABLE_GO (R326): A write of `ETH_PHY` with `CABLE_GO` set. -/
  | cableGo (p : Fin 36) (v : Word) (a : Attr)
  /-- CABLE_TEST_DONE (R326): The cable test ends: result and distance. -/
  | cableTestDone (p : Fin 36) (res : Fin 4) (dist : BitVec 8)
  /-- SQI_REPORT (R325): The PHY reports its signal quality index. -/
  | sqiReport (p : Fin 36) (sqi : Fin 8)
  /-- TRANSMIT_OPPORTUNITY (R329): A transmit opportunity begins. -/
  | transmitOpportunity (x : Opportunity)
  /-- PLCA_COLLISION (R330): The frame on the wire meets a collision. -/
  | plcaCollision (p : Fin 36)
  /-- GATE (R331): A GATE cue fires. -/
  | gate (c : CueRef)
  /-- HOLD (R342): A HOLD cue fires. -/
  | hold (c : CueRef)
  /-- VERIFY_TIMEOUT (R341): A verify frame has gone unanswered for `VERIFY_TIME`. -/
  | verifyTimeout (p : Fin 36)
  /-- MSEC_READ (R346): A write of `MSEC_CMD` with OP 1. -/
  | msecRead (v : Word) (a : Attr)
  /-- MSEC_WRITE (R347): A write of `MSEC_CMD` with OP 2. -/
  | msecWrite (v : Word) (a : Attr)
  /-- MSEC_DELETE (R346): A write of `MSEC_CMD` with OP 4. -/
  | msecDelete (v : Word) (a : Attr)
  /-- PTP_INSTANCE_ENABLE (R353): A write of `ETH_PTPI_CFGi`. -/
  | ptpInstanceEnable (i : Fin 4) (v : Word) (a : Attr)
  /-- SYNC_RX (R354): A Sync message: offset in ns, the grandmaster's time at this instant in ns, the correction field in 2^−16 ns. -/
  | syncRx (i : Fin 4) (offset : Int) (time corr : Nat)
  /-- SYNC_INTERVAL (R354): A sync interval passes; the rate ratio measured. -/
  | syncInterval (i : Fin 4) (ratio : Ratio)
  /-- SYNC_RECEIPT_TIMEOUT (R24): Three sync intervals pass without a Sync message. -/
  | syncReceiptTimeout (i : Fin 4)
  /-- PDELAY_EXCHANGE (R352): A pdelay exchange ends: the link delay in ns. -/
  | pdelayExchange (p : Fin 36) (delay : Nat)
  /-- TC10_SLEEP_REQUEST (R358): The port requests TC10 sleep. -/
  | tc10SleepRequest (p : Fin 36)
  /-- TC10_SLEEP_NAK (R358): `SLEEP_TO` passes without an acknowledgement. -/
  | tc10SleepNak (p : Fin 36)
  /-- TC10_PARTNER_SLEEP (R358): The partner requests sleep. -/
  | tc10PartnerSleep (p : Fin 36)
  /-- TC10_WAKE (R359): A WUP or WUR is detected on the port. -/
  | tc10Wake (p : Fin 36)
  /-- ETH_CNT_CLR (R360): A write of `ETH_CNT_CLR`. -/
  | ethCntClr (p : Fin 36) (v : Word) (a : Attr)
  /-- CAN_FRAME_END (R371): A frame of another node ends on the controller's bus, free of error. -/
  | canFrameEnd (n : Fin 16) (f : CanFrame)
  /-- FRAME_STORE (R372): The oldest matched frame of the controller is stored. -/
  | frameStore (n : Fin 16)
  /-- CAN_TX (R378): A CAN_TX cue fires. -/
  | canTx (c : CueRef)
  /-- CAN_TXREQ (R378): A write of `CAN_TXREQ`. -/
  | canTxreq (n : Fin 16) (v : Word) (a : Attr)
  /-- MAC_READY (R393): The MAC of a pending object is ready. -/
  | macReady (n : Fin 16) (o : Fin 128)
  /-- ARBITRATION_START (R379): Arbitration starts on the controller's bus; whether the controller wins it if it takes part. -/
  | arbitrationStart (n : Fin 16) (won : Bool)
  /-- TX_OK (R383): The controller's frame on the bus ends free of error. -/
  | txOk (n : Fin 16)
  /-- ERROR_DETECTED (R384): The controller observes a happening of Table 09.4, in its role as sender or receiver. -/
  | errorDetected (n : Fin 16) (sending : Bool) (e : CanHap)
  /-- RECESSIVE_SEQUENCE (R388): 11 consecutive recessive bits have passed on the controller's bus. -/
  | recessiveSequence (n : Fin 16)
  /-- CAN_RECOV (R388): A write of `CAN_RECOV`. -/
  | canRecov (n : Fin 16) (v : Word) (a : Attr)
  /-- AGE_DROP (R382): `AGE_LIM` ms have passed since the object became pending. -/
  | ageDrop (n : Fin 16) (o : Fin 128)
  /-- CAN_DISABLE (R406): A write of `CAN_CTRL`; whether a frame is being sent or received. -/
  | canDisable (n : Fin 16) (v : Word) (busy : Bool) (a : Attr)
  /-- CAN_ENABLE (R405): A write of `CAN_CTRL`. -/
  | canEnable (n : Fin 16) (v : Word) (a : Attr)
  /-- CAN_OBJECT_WRITE (R369): A write of a word of `CAN_OBJo`. -/
  | canObjectWrite (n : Fin 16) (o : Fin 128) (w : Fin 16) (v : Word) (a : Attr)
  /-- CAN_CNT_CLR (R407): A write of `CAN_CNT_CLR`. -/
  | canCntClr (n : Fin 16) (v : Word) (a : Attr)
  /-- LIN_SLOT (R398): A LIN_SLOT cue fires. -/
  | linSlot (c : CueRef)
  /-- LIN_HEADER_RX (R403): A responder channel receives a header. -/
  | linHeaderRx (l : Fin 8) (fid : Fin 64)
  /-- LIN_RESPONSE_END (R400): The response of the frame in progress ends or times out. -/
  | linResponseEnd (l : Fin 8) (r : LinSeen)
  /-- SHEAF_RX (R411): A sheaf arrives on P38: its addresses, and the bytes that follow the EtherType. -/
  | sheafRx (m : MacPair) (b : List Byte)
  /-- SEGMENT_RX (R420): A CAN FD segment has been stored in the station's `OBJ_RX`. -/
  | segmentRx (s : Fin 256)
  /-- RIO_POLL (R422): A RIO_POLL cue fires. -/
  | rioPoll (c : CueRef)
  /-- RIO_SEND (R423): A RIO_SEND cue fires. -/
  | rioSend (c : CueRef)
  /-- SHEAF_SEND (R424): The station's released output sheaf goes out. -/
  | sheafSend (s : Fin 256)
  /-- SEGMENT_SEND (R421): The station's next segment may go out. -/
  | segmentSend (s : Fin 256)
  /-- STATION_ENABLE (R428): A write of `RIO_STNs_W0`. -/
  | stationEnable (s : Fin 256) (v : Word) (a : Attr)
  /-- RIO_CNT_CLR (R444): A write of `RIO_CNT_CLR`. -/
  | rioCntClr (v : Word) (a : Attr)
  /-- TUNNEL_SEND (R438): `HOLD` µs have passed since the route's first message. -/
  | tunnelSend (r : Fin 256)
  /-- NTSCF_RX (R440): An NTSCF frame arrives on P39: the bytes that follow the EtherType. -/
  | ntscfRx (b : List Byte)
  /-- PRESENTATION_TIME (R441): TC0 reaches the presentation time of the message loaded into an object. -/
  | presentationTime (r : Fin 256) (o : Fin 128)
  /-- TUN_CNT_CLR (R445): A write of `TUN_CNT_CLR`. -/
  | tunCntClr (v : Word) (a : Attr)
  /-- NM_CHANNEL_ENABLE (R447): A write of `NMU_CHc_W0`. -/
  | nmChannelEnable (c : Fin 24) (v : Word) (a : Attr)
  /-- NMU_VOTE_WRITE (R447): A write of `NMU_VOTE`. -/
  | nmuVoteWrite (v : Word) (a : Attr)
  /-- NM_FRAME_RX (R448): An NM frame of the channel is received: its NM data. -/
  | nmFrameRx (c : Fin 24) (data : List Byte)
  /-- NM_FRAME_SEND (R450): The channel's NM frame that is due goes out. -/
  | nmFrameSend (c : Fin 24)
  /-- REPEAT_TIME_EXPIRY (R447): `REPEAT_TIME` has passed since entry to REPEAT. -/
  | repeatTimeExpiry (c : Fin 24)
  /-- NM_TIMEOUT (R447): `NM_TIMEOUT` has passed without an NM frame. -/
  | nmTimeout (c : Fin 24)
  /-- PN_TIMEOUT (R447): `PN_TIMEOUT` has passed without a received request for a cluster of interest. -/
  | pnTimeout (c : Fin 24)
  /-- WAIT_SLEEP_EXPIRY (R447): `WAIT_SLEEP` has passed since entry to PREPARE. -/
  | waitSleepExpiry (c : Fin 24)
  /-- COMMIT_WINDOW_END (R454): `COMMIT` ms have passed since entry to COMMIT. -/
  | commitWindowEnd (c : Fin 24)
  /-- WAKE (R452): A wake of Table 11.3: its code, and its channel, port, LIN channel or input. -/
  | wake (code : Fin 10) (unit : BitVec 8)
  /-- WAKE_SEQUENCE (R455): The full wake sequence of the channel ends. -/
  | wakeSequence (c : Fin 24)
  /-- WAKE_INPUT (R458): A wake input (8: `WAKE_IO`) has stood at its active level for the filter time. -/
  | wakeInput (n : Fin 9)
  /-- SELECTIVE_WAKE_FRAME (R460): A frame that the filter of a channel decodes; none for an erroneous frame. -/
  | selectiveWakeFrame (n : Fin 12) (f : Option CanFrame)
  /-- KEEP_AWAKE (R463): The sleep attempt of the channel has lasted `NMU_KA_LIMIT` s. -/
  | keepAwake (c : Fin 24)
  /-- SPAN_LINK_ENABLE (R467): A write of `SPN_CFG`. -/
  | spanLinkEnable (v : Word) (a : Attr)
  /-- SPAN_LINK_UP (R467): Training ends: the speed code less 1, and the lanes as a power of 2. -/
  | spanLinkUp (speed : Fin 4) (lanes : Fin 3)
  /-- OUTBOUND_ACCESS (R469): An access at an offset of the outbound region: a write of bytes, or a read of `n`; whether posted writes may go, and the tag taken. -/
  | outboundAccess (o : BitVec 32) (n : Fin 65) (data : Option (List Byte)) (credit : Bool) (tag : Fin 64) (a : Attr)
  /-- SPN_FLUSH (R474): A write of `SPN_FLUSHw`. -/
  | spnFlush (w : Fin 16) (credit : Bool) (tag : Fin 64) (a : Attr)
  /-- COMPLETION_RX (R483): A completion arrives. -/
  | completionRx (tag : Fin 256) (c : SpanCpl) (credit : Bool)
  /-- COMPLETION_TIMEOUT (R485): The completion timeout of an open request passes. -/
  | completionTimeout (tag : Fin 64) (credit : Bool)
  /-- INBOUND_REQUEST (R476): a request of the link partner: the address where its BAR stands (0 in the root-port role), its requester ID and its tag -/
  | inboundRequest (q : SpanIn) (base : BitVec 64) (rid : BitVec 16) (tag : BitVec 8)
  /-- SPAN_LINK_DOWN (R486): The link goes down. -/
  | spanLinkDown
  /-- FLR (R490): The partner resets a virtual function. -/
  | flr (v : Fin 256)
  /-- VF_CHANGE (R490): The partner writes VF Enable and NumVFs. -/
  | vfChange (en : Bool) (num : Fin 257)
  /-- MSIX_SEND (R491): The event line of vector `v` of the physical function rises. -/
  | msixSend (v : Fin 32)
  /-- SPN_ELOG_RD_WRITE (R484): A write of `SPN_ELOG_RD`. -/
  | spnElogRdWrite (v : Word) (a : Attr)
  /-- EPOCH_END (R502): A Reeve epoch ends: accesses counted to each frame (a T0 unit), sampled accesses to T1 units, T1 utilisation in %. -/
  | epochEnd (heat : List (Fin 512 × Nat)) (samples : List (BitVec 18 × Nat)) (util : Fin 101)
  /-- UNIT_MOVE (R505): The next move of the queue is carried out; the frame (a T0 unit) that a promotion takes, and how it ends. -/
  | unitMove (frame : Fin 512) (o : MoveEnd)
  /-- T0_POOL_WRITE (R503): A write of `RVE_T0_POOL`. -/
  | t0PoolWrite (v : Word) (a : Attr)
  /-- SCRUB (R497): A pass over T1 ends: how many errors it corrected, and the T1 offsets of uncorrectable ones. -/
  | scrub (ce : BitVec 16) (ue : List (BitVec 34))
  /-- MEMC_CNT_CLR (R529): A write of `MEMC_CNT_CLR`. -/
  | memcCntClr (v : Word) (a : Attr)
  /-- IMP_CNT_CLR (R117): A write of IMP_CNT_CLR. -/
  | impCntClr (v : Word) (a : Attr)
  /-- XLT_INVALIDATE (R513): A write of `XLT_INV`. -/
  | xltInvalidate (v : Word) (a : Attr)
  /-- INV_DONE (R513): The drain of bursts ends. -/
  | invDone
  /-- DMA_GO (R514): A write of `DMA_CTRLc` with `GO`. -/
  | dmaGo (d : Fin 4) (c : Fin 32) (a : Attr)
  /-- DMA_TRIG (R514): A DMA_TRIG cue fires. -/
  | dmaTrig (c : CueRef)
  /-- DMA_EVENT_TRIGGER (R514): Event line `e` rises. -/
  | dmaEventTrigger (e : Fin 2048)
  /-- BURST_GRANT (R519): A controller grants a burst: what each burst read now meets (the first, and those read ahead), and what its write meets. -/
  | burstGrant (d : Fin 4) (rds : List DmaSeen) (w : DmaSeen)
  /-- DESCRIPTOR_DONE (R515): The descriptor of a channel is complete; what its write-back meets. -/
  | descriptorDone (d : Fin 4) (c : Fin 32) (w : DmaSeen)
  /-- DMA_PARK (R521): The outstanding bursts of a channel with a fault have completed. -/
  | dmaPark (d : Fin 4) (c : Fin 32)
  /-- DMA_RESUME (R522): A write of `DMA_CTRLc` with `RESUME`. -/
  | dmaResume (d : Fin 4) (c : Fin 32) (a : Attr)
  /-- DMA_ABORT (R523): A write of `DMA_CTRLc` with `ABORT`. -/
  | dmaAbort (d : Fin 4) (c : Fin 32) (a : Attr)
  /-- TX_DOORBELL (R536): A write of `VPT_TXDBn`. -/
  | txDoorbell (n : Fin 1024) (v : Word) (a : Attr)
  /-- RX_DOORBELL (R536): A write of `VPT_RXDBn`; the bytes of the link partner's memory that a function port reads (function × 2^48 + address). -/
  | rxDoorbell (n : Fin 1024) (v : Word) (far : List (Nat × Byte)) (a : Attr)
  /-- VP_FRAME_GATHERED (R537): The VPT gathers the next frame of a port. -/
  | vpFrameGathered (n : Fin 1024) (far : List (Nat × Byte))
  /-- VP_DELIVER (R539): The switch core gives a frame (without FCS) to P36 or P37. -/
  | vpDeliver (host : Fin 2) (b : List Byte) (far : List (Nat × Byte))
  /-- VP_NOTIFY (R542): The coalescing time of a port ends. -/
  | vpNotify (n : Fin 1024)
  /-- PORT_ENABLE (R545): A write of `VPT_E0`: word 0 of the entry of the selected port. -/
  | portEnable (v : Word) (a : Attr)
  /-- PORT_REMOVED (R545): The removal of a port ends. -/
  | portRemoved (n : Fin 1024) (far : List (Nat × Byte))
  /-- VP_FAULT (R548): A ring or buffer access of a port faults. -/
  | vpFault (n : Fin 1024) (side : Fin 4) (addr : BitVec 48)
  /-- FREEZE (R547): A write of `VPT_CMD` with OP 1; whether a frame is being gathered. -/
  | freeze (v : Word) (gathering : Bool) (far : List (Nat × Byte)) (a : Attr)
  /-- THAW (R548): A write of `VPT_CMD` with OP 2. -/
  | thaw (v : Word) (far : List (Nat × Byte)) (a : Attr)
  /-- SAVE (R550): A write of `VPT_CMD` with OP 3. -/
  | save (v : Word) (a : Attr)
  /-- RESTORE (R551): A write of `VPT_CMD` with OP 4. -/
  | restore (v : Word) (a : Attr)
  /-- CLEAR_COUNTERS (R552): A write of `VPT_CMD` with OP 5. -/
  | clearCounters (v : Word) (a : Attr)
  /-- VP_RING_RESIZE (R546): A write of `VPT_Ew`: a word of the entry of the selected port. -/
  | vpRingResize (w : Fin 16) (v : Word) (a : Attr)
  /-- WGT_LOCK_ALL (R563): A write of `WGT_LOCK` with `ALL` set. -/
  | wgtLockAll (v : Word) (a : Attr)
  /-- HOLD_MARK_WRITE (R573): A write of `WGT_HOLD_PD` (none) or `WGT_HOLD_PAGEm`. -/
  | holdMarkWrite (m : Option (Fin 32)) (v : Word) (a : Attr)
  /-- HOLD_TIMEOUT (R573): `WGT_HOLD_TO` ms have passed for a held request. -/
  | holdTimeout (clk : Bool) (target : Fin 1024)
  /-- WGT_DENY (R573): A write of `WGT_DENY`; `timeout` when the request times out in the same cycle (R574). -/
  | wgtDeny (v : Word) (timeout : Bool) (a : Attr)
  /-- MWORLD_WRITE (R568): a core writes its `mworld` CSR; the mode it is in is M or not, and the lines that its L1 data cache has to write back, by address -/
  | mworldWrite (core : Fin 12) (v : Word) (mMode : Bool) (dirty : List (BitVec 40 × List Byte))
  /-- GENERATE (R588): A write of `KEY_CMD` with OP 1. -/
  | generate (v : Word) (a : Attr)
  /-- DERIVE (R589): A write of `KEY_CMD` with OP 2. -/
  | derive (v : Word) (a : Attr)
  /-- IMPORT (R585): A write of `KEY_CMD` with OP 3. -/
  | keyImport (v : Word) (a : Attr)
  /-- EXPORT (R585): A write of `KEY_CMD` with OP 4. -/
  | keyExport (v : Word) (a : Attr)
  /-- CLEAR (R593): A write of `KEY_CMD` with OP 5. -/
  | clear (v : Word) (a : Attr)
  /-- REVOKE (R593): A write of `KEY_CMD` with OP 6. -/
  | revoke (v : Word) (a : Attr)
  /-- NARROW (R587): A write of `KEY_CMD` with OP 7. -/
  | narrow (v : Word) (a : Attr)
  /-- PUBKEY (R585): A write of `KEY_CMD` with OP 8. -/
  | pubkey (v : Word) (a : Attr)
  /-- PERSIST_SAVE (R599): A write of `KEY_CMD` with OP 9. -/
  | persistSave (v : Word) (a : Attr)
  /-- PERSIST_LOAD (R601): A write of `KEY_CMD` with OP 10. -/
  | persistLoad (v : Word) (a : Attr)
  /-- PERSIST_CHECK (R600): A write of `KEY_CMD` with OP 11. -/
  | persistCheck (v : Word) (a : Attr)
  /-- CHALLENGE (R585): A write of `KEY_CMD` with OP 12. -/
  | challenge (v : Word) (a : Attr)
  /-- ENROL (R595): A write of `KEY_CMD` with OP 13. -/
  | enrol (v : Word) (a : Attr)
  /-- ROOT_RECONSTRUCT (R591): The root is reconstructed at power-up of PD2: whether it succeeds; whether the digest of the authoriser's key is unprogrammed. -/
  | rootReconstruct (ok pkBad : Bool)
  /-- REMASK (R594): 31.25 µs pass: the next slot gets a fresh mask. -/
  | remask
  /-- RNG_FAIL (R596): A health test fails: the adaptive proportion test, or the repetition count test. -/
  | rngFail (apt : Bool)
  /-- RNG_RESTART (R596): A write of `KEY_RNG_HEALTH`. -/
  | rngRestart (v : Word) (a : Attr)
  /-- KEY_RNG_READ (R597): A read of `KEY_RNG`; whether an output is ready within 2 µs. -/
  | keyRngRead (ready : Bool) (a : Attr)
  /-- LCS_ADVANCE (R603): A write of `KEY_LCS_ADV`. -/
  | lcsAdvance (v : Word) (a : Attr)
  /-- JOB_SUBMIT (R606): A write of `CRY_SUBMITq`. -/
  | jobSubmit (q : Fin 16) (v : Word) (a : Attr)
  /-- CRY_AES (R607): The AES job at the front of the queue runs. -/
  | cryAes (q : Fin 16)
  /-- CRY_SHA (R607): The SHA job at the front of the queue runs. -/
  | crySha (q : Fin 16)
  /-- CRY_HMAC (R607): The HMAC job at the front of the queue runs. -/
  | cryHmac (q : Fin 16)
  /-- CRY_CMAC (R607): The CMAC job at the front of the queue runs. -/
  | cryCmac (q : Fin 16)
  /-- ECDSA_SIGN (R607): The ECDSA sign job at the front of the queue runs. -/
  | ecdsaSign (q : Fin 16)
  /-- ECDSA_VERIFY (R607): The ECDSA verify job at the front of the queue runs. -/
  | ecdsaVerify (q : Fin 16)
  /-- ED25519_SIGN (R607): The Ed25519 sign job at the front of the queue runs. -/
  | ed25519Sign (q : Fin 16)
  /-- ED25519_VERIFY (R607): The Ed25519 verify job at the front of the queue runs. -/
  | ed25519Verify (q : Fin 16)
  /-- CVU_CFG_WRITE (R609): A write of `CVU_CFG` of unit n. -/
  | cvuCfgWrite (n : Fin 8) (v : Word) (a : Attr)
  /-- CVU_START (R610): A write of `CVU_START`. -/
  | cvuStart (n : Fin 8) (v : Word) (a : Attr)
  /-- CVU_DATA (R611): A write of `CVU_DATA8`, `CVU_DATA16` or `CVU_DATA32` (w = 0, 1, 2). -/
  | cvuData (n : Fin 8) (w : Fin 3) (v : Word) (a : Attr)
  /-- CVU_EXPECT (R612): A write of `CVU_EXPECT_LO`. -/
  | cvuExpect (n : Fin 8) (v : Word) (a : Attr)
  /-- CVU_ALIVE_IN (R614): A write of `CVU_ALIVE_IN`. -/
  | cvuAliveIn (n : Fin 8) (v : Word) (a : Attr)
  /-- TWN_ENABLE (R629): A write of TWN_CFG. -/
  | twnEnable (v : Word) (a : Attr)
  /-- HELLO_SEND (R631): A HELLO frame is due. -/
  | helloSend
  /-- HELLO_RX (R630): A HELLO frame of the partner arrives (header, payload, CRC). -/
  | helloRx (b : List Byte)
  /-- ALONE_TIMEOUT (R630): ALONE_TO passes without a HELLO of the partner. -/
  | aloneTimeout
  /-- HEARTBEAT_SEND (R637): A tick boundary of TC0 at which the heartbeat goes out. -/
  | heartbeatSend
  /-- HEARTBEAT_RX (R637): A heartbeat of the partner arrives, on either path. -/
  | heartbeatRx (b : List Byte)
  /-- HEARTBEAT_MISS (R637): The later deadline for a heartbeat passes without one. -/
  | heartbeatMiss
  /-- IMAGE_SEGMENT_RX (R634): An IMAGE frame of the partner arrives. -/
  | imageSegmentRx (b : List Byte)
  /-- IMAGE_TIMEOUT (R635): IMG_TO passes after a cadence's input cue. -/
  | imageTimeout (c : Fin 64)
  /-- SIGNATURE_SEND (R636): A cadence's signature is due. -/
  | signatureSend (c : Fin 64)
  /-- SIGNATURE_RX (R636): A SIGNATURE frame of the partner arrives. -/
  | signatureRx (b : List Byte)
  /-- STATE_RX (R633): A STATE or DRAIN frame of the partner arrives. -/
  | stateRx (b : List Byte)
  /-- TWN_DECLARE (R639): A write of TWN_DECLARE, or a condition for self-declaration arises. -/
  | twnDeclare (d : DeclareBy)
  /-- DECLARE_RX (R639): A DECLARE frame of the partner arrives, on either path. -/
  | declareRx (b : List Byte)
  /-- ACK_RX (R639): An ACK frame of the partner arrives. -/
  | ackRx (b : List Byte)
  /-- DECLARE_DEADLINE (R640): The deadline for an answer to a declaration passes. -/
  | declareDeadline
  /-- TWN_RESYNC (R630): A write of TWN_RESYNC. -/
  | twnResync (v : Word) (a : Attr)
  /-- EXREX_LANE_LOSS (R625): A lane of the Exrex link gains or loses block lock. -/
  | exrexLaneLoss (lane : Fin 2) (locked : Bool)
  /-- TWN_CNT_CLR (R647): A write of TWN_CNT_CLR. -/
  | twnCntClr (v : Word) (a : Attr)
  /-- SPARE_ROTA (R622): The turn of the spare rota, every 500 ms. -/
  | spareRota
  /-- STARTUP_TEST (R618): The engines of PD7 or PD8 have been tested at power-up. -/
  | startupTest (pd8 : Bool) (res : List EngineTest)
  /-- DAILIES (R644): A whole second: Dailies are published. -/
  | dailies
  /-- SLATE (R649): A tick boundary of TC0. -/
  | slate
  /-- GAP (R655): Room returns in the Reel's queue after a loss. -/
  | gap
  /-- SNAPSHOT (R656): A snapshot interval passes, or the moment at which a wanted copy can begin. -/
  | snapshot
  /-- SNAP_END (R656): The snapshot copy ends. -/
  | snapEnd
  /-- TRIGGER (R658): Event lines rise in one cue clock cycle. -/
  | trigger (lines : List (Fin 2048))
  /-- REL_TRIG_SW (R658): A write of REL_TRIG_SW. -/
  | relTrigSw (v : Word) (a : Attr)
  /-- POST_END (R660): The window after the trigger ends. -/
  | postEnd
  /-- REL_REARM (R662): A write of REL_REARM. -/
  | relRearm (v : Word) (a : Attr)
  /-- REL_ENABLE (R663): A write of REL_CTRL. -/
  | relEnable (v : Word) (a : Attr)
  /-- DUMP (R664): A write of REL_DUMP. -/
  | dump (v : Word) (a : Attr)
  /-- DUMP_DONE (R664): The dump stream ends. -/
  | dumpDone
  /-- TAKE_GO (R667): A write of REL_TAKE_CTRL. -/
  | takeGo (v : Word) (a : Attr)
  /-- TAKE_CYCLE (R668): The Take goes on by one cycle begun, or by one record. -/
  | takeCycle
  /-- TAKE_END (R669): The Take stands at the last record or at a GAP. -/
  | takeEnd
  /-- STAGE_ROM (R674): Boot stage 0 ends. -/
  | stageRom
  /-- LOADER_CHECK (R677): Boot stage 1 ends. -/
  | loaderCheck
  /-- IMAGE_CHECK (R677): Boot stage 2 ends. -/
  | imageCheck
  /-- UNIT_RELOAD (R675): Boot stage 3 ends. -/
  | unitReload
  /-- RECOVERY_ENTRY (R681): The loader or the ROM enters recovery mode. -/
  | recoveryEntry
  /-- FLASH_ERASE (R672): A write of BOOT_FL_CMD with OP 1. -/
  | flashErase (v : Word) (a : Attr)
  /-- FLASH_PROGRAM (R672): A write of BOOT_FL_CMD with OP 2. -/
  | flashProgram (v : Word) (a : Attr)
  /-- FLASH_VERIFY (R672): A write of BOOT_FL_CMD with OP 3. -/
  | flashVerify (v : Word) (a : Attr)
  /-- FL_DONE (R673): The flash device ends an operation: without an error or with one; how many page programs have ended. -/
  | flDone (ok : Bool) (pages : BitVec 17)
  /-- UPDATE_GO (R684): A write of BOOT_UPD_CTRL. -/
  | updateGo (v : Word) (a : Attr)
  /-- UPD_DONE (R684): Writing and read-back of an update end, without a device error or with one. -/
  | updDone (ok : Bool)
  /-- ACT_ARM (R685): A write of BOOT_ACT. -/
  | actArm (v : Word) (a : Attr)
  /-- ACTIVATE (R686): An ACTIVATE cue. -/
  | activate (c : CueRef)
  /-- BOOT_RECOVER (R681): A write of BOOT_RECOVER. -/
  | bootRecover (v : Word) (a : Attr)
  /-- BOOT_PK_REV (R680): A write of BOOT_PK_REV. -/
  | bootPkRev (v : Word) (a : Attr)
  /-- QUERY (R683): A QUERY frame (without its FCS) arrives on a backbone port. -/
  | query (p : Fin 4) (b : List Byte)
  /-- DATA (R683): A DATA frame (without its FCS) arrives on a backbone port. -/
  | data (p : Fin 4) (b : List Byte)
  /-- RECOVERY_COMMIT (R683): A COMMIT frame (without its FCS) arrives on a backbone port; whether writing and read-back succeed. -/
  | recoveryCommit (p : Fin 4) (b : List Byte) (ok : Bool)
  /-- BOOT_RCV_COMMIT (R682): A write of BOOT_RCV_COMMIT; whether writing and read-back succeed. -/
  | bootRcvCommit (v : Word) (a : Attr) (ok : Bool)
  /-- HOLD_ENTER (R694): VBAT has stayed below the warning threshold for the entry filter time; its value in mV. -/
  | holdEnter (mv : BitVec 16)
  /-- HOLD_EXIT (R695): VBAT has stayed at or above the exit level for 1 ms; its value in mV; whether a deferred write of a recovery image succeeds. -/
  | holdExit (mv : BitVec 16) (ok : Bool)
  /-- VBAT_HIGH (R691): VBAT crosses 18.5 V: its value in mV. -/
  | vbatHigh (mv : BitVec 16)
  /-- IN48_FAULT (R692): IN48 leaves its limits or returns to them: the undervoltage and overvoltage comparators, and its value in units of 10 mV. -/
  | in48Fault (uv ov : Bool) (tens : BitVec 16)
  /-- VBAT_POWER_ON (R697): VBAT rises from below 3.0 V. -/
  | vbatPowerOn (mv : BitVec 16)
  /-- MAIN_LOGIC_RESET (R698): VBAT falls below the reset threshold for the reset filter time. -/
  | mainLogicReset (mv : BitVec 16)
  /-- RESET_N (R697): RESET_N has been low for at least 1 µs, or rises. -/
  | resetN (low : Bool)
  /-- RESET_RELEASE (R718): 200 µs after every cause has ended; the levels of the straps. -/
  | resetRelease (bootMode : BitVec 3) (twinRole spanRole : Bool)
  /-- SYS_RESET_REQ (R699): A write of `SYS_RESET_REQ`. -/
  | sysResetReq (v : Word) (a : Attr)
  /-- SYS_WDOG (R700): A write of `SYS_WDOG`. -/
  | sysWdog (v : Word) (a : Attr)
  /-- SYS_WDOG_EXPIRY (R700): `TIMEOUT` ms have passed since the last accepted watchdog write. -/
  | sysWdogExpiry
  /-- PWR_ON (R703): A write of `PWR_ON`. -/
  | pwrOn (v : Word) (a : Attr)
  /-- PWR_OFF (R703): A write of `PWR_OFF`. -/
  | pwrOff (v : Word) (a : Attr)
  /-- PWR_CLK_OFF (R703): A write of `PWR_CLK_OFFm`. -/
  | pwrClkOff (m : Fin 32) (v : Word) (a : Attr)
  /-- PWR_CLK_ON (R703): A write of `PWR_CLK_ONm`. -/
  | pwrClkOn (m : Fin 32) (v : Word) (a : Attr)
  /-- PD_DONE (R702): The domain being sequenced finishes. -/
  | pdDone
  /-- MODULE_SLEEP (R705): Every channel sleeps and no vote is set (ALL_ASLEEP). -/
  | moduleSleep
  /-- MODULE_WAKE (R705): The NMU has latched a wake while the module sleeps. -/
  | moduleWake
  /-- SUP_CNT_CLR (R709): A write of `SUP_CNT_CLR`. -/
  | supCntClr (v : Word) (a : Attr)
  /-- EVR_ROUTE_WRITE (R706): A write of `EVR_ROUTEe`. -/
  | evrRouteWrite (e : Fin 2048) (v : Word) (a : Attr)
  /-- EVENT_DELIVERY (R729): The EVR serves a rising edge of event line `e`. -/
  | eventDelivery (e : Fin 2048)
  /-- EVT_PULSE (R44): An EVT_PULSE cue fires. -/
  | evtPulse (c : CueRef)
  /-- TC_CAPTURE (R44): A TC_CAPTURE cue fires. -/
  | tcCapture (c : CueRef)
  /-- SWAP (R50): A SWAP cue fires. -/
  | swap (c : CueRef)
  /-- ADC_BURST (R708): An ADC_BURST cue fires. -/
  | adcBurst (c : CueRef)
  /-- BURST_COMPLETE (R708): The last input of a burst is sampled: the selected inputs' voltages in mV in ascending order, and VBAT in mV. -/
  | burstComplete (b : Fin 16) (mv : List (BitVec 16)) (vbat : BitVec 16)
  /-- TEMP_INPUT_SAMPLE (R707): A temperature input is sampled between bursts. -/
  | tempInputSample (i : Fin 48) (mv vbat : BitVec 16)
  /-- VBAT_LOSS (R691): VBAT falls below 3.0 V. -/
  | vbatLoss
  /-- VERIFY_RESPONSE_RX (R341): A respond frame arrives. -/
  | verifyResponseRx (p : Fin 36)
  /-- TC10_SLEEP_ACK (R358): The partner acknowledges the port's sleep request. -/
  | tc10SleepAck (p : Fin 36)
  /-- SPAN_PERST_N_CHANGE (R467): The level that `SPAN_PERST_N` takes. -/
  | spanPerstNChange (level : Bool)
  /-- TX_BUCKET_HOLDS_LENGTH (R541): The transmit bucket of a port fills to the length of the frame that waits. -/
  | txBucketHoldsLength (n : Fin 1024) (far : List (Nat × Byte))
  /-- REFRESH_RATE_CHANGE (R529): The multiplier becomes 2 to the power `m`. -/
  | refreshRateChange (m : Fin 3)
deriving DecidableEq, Repr

end Sys2Proof
end

