-- ==== Sys2Proof/Machine/Bits.lean ====
section
/-! DEFINITION. Bit fields, byte orders and sparse tables: the plain helpers every block uses.
A sparse table is a list of (key, value) pairs in one canonical form: keys strictly rising, and no entry equal to
what an unlisted key reads as. -/

namespace Sys2Proof.Machine

/-- The field `hi:lo` of a number. -/
def fld (v hi lo : Nat) : Nat := (v >>> lo) % 2 ^ (hi + 1 - lo)

/-- The number with its field `hi:lo` replaced by `x` (only the field's own bits of `x` are used). -/
def setFld (v hi lo x : Nat) : Nat :=
  v % 2 ^ lo + ((x % 2 ^ (hi + 1 - lo)) <<< lo) + ((v >>> (hi + 1)) <<< (hi + 1))

/-- The number with bit `k` set to `b`. -/
def setBit (v k : Nat) (b : Bool) : Nat := setFld v k k (if b then 1 else 0)

/-- Saturating 32-bit increment by `n`. -/
def satAdd (v n : Nat) : Nat := if v + n > 0xFFFF_FFFF then 0xFFFF_FFFF else v + n

/-- A number read as a signed number of `w` bits. -/
def sgn (w v : Nat) : Int :=
  let u := v % 2 ^ w
  if u < 2 ^ (w - 1) then (u : Int) else (u : Int) - (2 ^ w : Nat)

/-- A signed number written in `w` bits (two's complement). -/
def unsgn (w : Nat) (i : Int) : Nat := (i % (2 ^ w : Nat)).toNat

/-- Integer division rounded toward zero. -/
def divZ (a : Int) (b : Nat) : Int := if a < 0 then -(((-a).toNat / b : Nat) : Int) else ((a.toNat / b : Nat) : Int)

/-- Little-endian value of a byte list. -/
def leNat : List Byte → Nat
  | [] => 0
  | b :: t => b.toNat + 256 * leNat t

/-- Big-endian value of a byte list. -/
def beNat (l : List Byte) : Nat := l.foldl (fun a b => 256 * a + b.toNat) 0

/-- `n` bytes of a number, least significant first. -/
def leBytes : Nat → Nat → List Byte
  | 0, _ => []
  | n + 1, v => BitVec.ofNat 8 v :: leBytes n (v / 256)

/-- `n` bytes of a number, most significant first. -/
def beBytes (n v : Nat) : List Byte := (leBytes n v).reverse

/-- The bytes `lo, …, lo + n − 1` of a list, absent ones read as 0. -/
def slice (l : List Byte) (lo n : Nat) : List Byte :=
  let t := (l.drop lo).take n
  t ++ List.replicate (n - t.length) 0

/-- Value of key `k`; an unlisted key reads as `d k`. -/
def lookup {α : Type} (d : Nat → α) : List (Nat × α) → Nat → α
  | [], k => d k
  | (j, v) :: t, k => if j = k then v else lookup d t k

/-- Give key `k` the value `v`, keeping the canonical form. -/
def store {α : Type} [DecidableEq α] (d : Nat → α) : List (Nat × α) → Nat → α → List (Nat × α)
  | [], k, v => if v = d k then [] else [(k, v)]
  | (j, w) :: t, k, v =>
    if k < j then (if v = d k then (j, w) :: t else (k, v) :: (j, w) :: t)
    else if k = j then (if v = d k then t else (k, v) :: t)
    else (j, w) :: store d t k v

/-- The canonical form: keys strictly rising from `lo`, no entry equal to the default. -/
def canonFrom {α : Type} [DecidableEq α] (d : Nat → α) : Nat → List (Nat × α) → Bool
  | _, [] => true
  | lo, (j, v) :: t => decide (lo ≤ j) && decide (v ≠ d j) && canonFrom d (j + 1) t

/-- The canonical form of a sparse table. -/
def canon {α : Type} [DecidableEq α] (d : Nat → α) (l : List (Nat × α)) : Bool := canonFrom d 0 l

/-- Forget every entry whose key satisfies `p`: those keys read as the default again. -/
def forget {α : Type} (p : Nat → Bool) (l : List (Nat × α)) : List (Nat × α) := l.filter (fun e => !p e.1)

/-- A byte memory: unlisted bytes read as 0. -/
abbrev Mem := List (Nat × Byte)

/-- What an unlisted byte of a memory reads as. -/
def zeroByte (_ : Nat) : Byte := 0

/-- The canonical form of a byte memory. -/
def Mem.wf (m : Mem) : Bool := canon zeroByte m

/-- One byte of a memory. -/
def Mem.get (m : Mem) (a : Nat) : Byte := lookup zeroByte m a

/-- Store one byte. -/
def Mem.set (m : Mem) (a : Nat) (b : Byte) : Mem := store zeroByte m a b

/-- The `n` bytes from address `a`. -/
def Mem.read (m : Mem) (a : Nat) : Nat → List Byte
  | 0 => []
  | n + 1 => m.get a :: Mem.read m (a + 1) n

/-- Store a list of bytes from address `a`. -/
def Mem.write (m : Mem) (a : Nat) : List Byte → Mem
  | [] => m
  | b :: t => Mem.write (m.set a b) (a + 1) t

/-- Little-endian value of `n` bytes. -/
def Mem.le (m : Mem) (a n : Nat) : Nat := leNat (m.read a n)

/-- A table of numbers, unlisted entries 0 (counters and the like). -/
abbrev Tab := List (Nat × Nat)

/-- What an unlisted entry of a number table reads as. -/
def zeroNat (_ : Nat) : Nat := 0

/-- One entry of a number table. -/
def Tab.get (t : Tab) (k : Nat) : Nat := lookup zeroNat t k

/-- Set one entry of a number table. -/
def Tab.set (t : Tab) (k v : Nat) : Tab := store zeroNat t k v

/-- Add to one entry of a number table, wrapping at 2^64 (the 64-bit counters). -/
def Tab.bump (t : Tab) (k n : Nat) : Tab := t.set k ((t.get k + n) % 2 ^ 64)

/-- Replace the element at an index of a list. -/
def setAt {α : Type} : List α → Nat → α → List α
  | [], _, _ => []
  | _ :: t, 0, x => x :: t
  | a :: t, i + 1, x => a :: setAt t i x

/-- A record of a presence list: the value filed under a key. -/
def find? {α : Type} : List (Nat × α) → Nat → Option α
  | [], _ => none
  | (j, v) :: t, k => if j = k then some v else find? t k

/-- File a value under a key of a presence list (keys rising). -/
def file {α : Type} : List (Nat × α) → Nat → α → List (Nat × α)
  | [], k, v => [(k, v)]
  | (j, w) :: t, k, v =>
    if k < j then (k, v) :: (j, w) :: t else if k = j then (k, v) :: t else (j, w) :: file t k v

/-- Remove a key of a presence list. -/
def unfile {α : Type} (l : List (Nat × α)) (k : Nat) : List (Nat × α) := l.filter (fun e => e.1 != k)

/-- Apply `f` for each number `0, …, n − 1` in order. -/
def each {σ : Type} (n : Nat) (f : Nat → σ → σ) (s : σ) : σ := (List.range n).foldl (fun s i => f i s) s

end Sys2Proof.Machine
end

