-- ==== Sys2Proof/Machine/Parts/Boot.lean ====
section
/-! DEFINITION. State of the boot, flash and update blocks that their registers do not show (R671 to R686). -/

namespace Sys2Proof.Machine

/-- A command of the flash programmer under way: 1 erase, 2 program, 3 verify; its offset, length and source, and the bytes
done. -/
structure FlashOp where
  op : Nat
  ofs : Nat
  len : Nat
  src : Nat
  done : Nat := 0
deriving DecidableEq, Repr

/-- BOOT: the programmer's command under way; whether Hold has found a page program under way (R673); the length of the
resident loader that passed the COMMIT check of this recovery session (R672); source and length of an update under way; the
reset release in cue clock cycles; the reason of a firmware request that the next start takes up (R681); a reason for
recovery mode that the loader or the ROM has found and not yet acted on; the key that signed the running image (R680);
length of the checked image in T1; firmware sections loaded into units (type, unit, CRC; R675); recovery answers that have
gone out (port, frame); the restart after a recovery COMMIT (R683), in cue clock cycles. -/
structure BootSt where
  busy : Option FlashOp := none
  page : Bool := false
  loader : Option Nat := none
  update : Option (Nat × Nat) := none
  released : Nat := 0
  reason : Option Nat := none
  enter : Option Nat := none
  key : Nat := 0
  image : Option Nat := none
  loaded : List (Nat × Nat × Nat) := []
  answers : List (Nat × List Byte) := []
  restartAt : Option Nat := none
deriving DecidableEq, Repr

end Sys2Proof.Machine
end

