-- ==== Sys2Proof/Machine/Parts/Crypto.lean ====
section
/-! DEFINITION. State of the KEY, the CRY and the check-value units that their registers do not show. -/

namespace Sys2Proof.Machine

/-- The KEY: the key in each slot that holds one, and the mask of its two shares (R594); the slot that the next masking
serves; whether helper data is enrolled in OTP (R592, R595); whether PERSIST_LOAD may still be accepted (R601); the
life-cycle state burnt for the next main-logic reset (R603); whether the start of R591 is over since PD2 was powered; and when
the last slot got a fresh mask (R594). -/
structure KeySt where
  keys : List (Nat × List Byte) := []
  masks : List (Nat × List Byte) := []
  maskAt : Nat := 0
  helper : Bool := true
  fresh : Bool := true
  lcsNext : Option Nat := none
  started : Bool := false
  remaskAt : Nat := 0
deriving DecidableEq, Repr

/-- A job in a queue (R606): the descriptor's address and the attributes of its submission. -/
structure Job where
  addr : Nat
  secure : Bool
  mid : Nat
  vmid : Nat
deriving DecidableEq, Repr

/-- The CRY: the queues, oldest job first, and `CRY_SUBMIT_HI` as each master wrote it. -/
structure CrySt where
  queues : List (Nat × List Job) := []
  hi : Tab := []
deriving DecidableEq, Repr

/-- A check-value unit: its register, the expected alive counter (`first` before the first value), and the generation
that has started. -/
structure CvuSt where
  reg : Nat := 0xFFFF_FFFF
  expected : Nat := 0
  first : Bool := true
deriving DecidableEq, Repr

end Sys2Proof.Machine
end

