-- ==== Sys2Proof/Machine/Parts/Engine.lean ====
section
/-! DEFINITION. State of the cycle engine array, the instance pool, the program memory, the forces and the debug unit
that their registers do not show. -/

namespace Sys2Proof.Machine

/-- An entry of a write buffer (R79): 8 bytes, which of them have been stored, and the visited bit. -/
structure BufEnt where
  data : BitVec 64 := 0
  mask : BitVec 8 := 0
  visited : Bool := false
deriving DecidableEq, Repr

/-- A write buffer: entries by pool word (pool byte offset divided by 8), rising. -/
abbrev WBuf := List (Nat × BufEnt)

/-- An active LOOP (R144): first word of the body, the word after it, the repeat count, the iteration and the register
that counts. -/
structure LoopSt where
  start : Nat
  stop : Nat
  n : Nat
  i : Nat
  reg : Nat
deriving DecidableEq, Repr

/-- A call in progress: the return address and the loops active in the caller. -/
structure Frame where
  ret : Nat
  loops : List LoopSt
deriving DecidableEq, Repr

/-- The two runs of a task (R78). -/
inductive RunPhase where
  | primary
  | mirror
deriving DecidableEq, Repr

/-- How a run ended (R132): trap code (0 none), instructions retired, stores made. -/
structure RunEnd where
  trap : Nat
  icount : Nat
  stores : Nat
deriving DecidableEq, Repr

/-- A run in progress on an engine. -/
structure Run where
  /-- The engine. -/
  engine : Nat
  /-- A background run (R109). -/
  bg : Bool := false
  /-- A rerun on a spare (R96). -/
  rerun : Bool := false
  /-- The pool sequence number as of which it reads (R81, R109). -/
  seq : Nat := 0
  /-- The value of TC0 at the last tick boundary before a background run started (R137). -/
  tc0 : Nat := 0
  /-- A background run that has executed an instruction. -/
  begun : Bool := false
  phase : RunPhase := .primary
  /-- General registers, unlisted ones 0 (R123, R131). -/
  g : List (Nat × BitVec 33) := []
  /-- Boolean registers. -/
  b : BitVec 16 := 0
  pc : Nat := 0
  frames : List Frame := []
  loops : List LoopSt := []
  icount : Nat := 0
  stores : Nat := 0
  buf : WBuf := []
  /-- How the primary run ended. -/
  first : Option RunEnd := none
  /-- A mirror store did not match (R80). -/
  differs : Bool := false
  /-- The run has halted in the debugger (R189): it skips its mirror run and its compare. -/
  halted : Bool := false
  /-- The run stands halted now (R188). -/
  stopped : Bool := false
  /-- The breakpoint at the present instruction is passed once (after a resume or a step). -/
  passBp : Bool := false
  /-- Halt again after one instruction (R188). -/
  stepping : Bool := false
  /-- The trap at which the run stands halted (R188). -/
  pendTrap : Option Nat := none
  /-- The image of its cycle, as latched and forced, and its length (R81, R189). -/
  img : Mem := []
  imgLen : Nat := 0
  /-- The `SEQ` of each station's data sheaf as of the input cue of its cycle (R424). -/
  refs : List (Nat × Nat) := []
deriving DecidableEq, Repr

/-- An output entry staged for release: its map entry and its bytes (R84), and for a station the `REF` of its cycle (R424). -/
structure OutRec where
  entry : Nat
  bytes : List Byte
  ref : Nat := 0
deriving DecidableEq, Repr

/-- Where a task's cycle stands between its release and its commit. -/
inductive Outcome where
  | idle
  | running
  | equal
  | mismatch
  | trapped
deriving DecidableEq, Repr

/-- A rerun of a mismatched task (R96): the spare assigned, whether it has started, whether it compared equal, whether
it failed, and whether the commit at which the outputs were withheld has passed. -/
structure Rerun where
  engine : Nat
  suspect : Nat
  started : Bool := false
  equal : Bool := false
  failed : Bool := false
  opened : Bool := false
  /-- The cue clock cycle at which its retry window opened. -/
  openAt : Nat := 0
  /-- The image the cycle was latched with, and its length. -/
  img : Mem := []
  imgLen : Nat := 0
  refs : List (Nat × Nat) := []
  seq : Nat := 0
deriving DecidableEq, Repr

/-- What the task table does not show of a task. -/
structure TaskSt where
  outcome : Outcome := .idle
  buf : WBuf := []
  outs : List OutRec := []
  /-- The staged results carry UNCHECKED (R189). -/
  unchecked : Bool := false
  retry : Option Rerun := none
  /-- Consecutive overruns (R94). -/
  ovr : Nat := 0
  /-- Safe values go out at the next commit (R94, R103, R108). -/
  safeNext : Bool := false
  /-- A restart has been asked for (R103). -/
  restart : Bool := false
  /-- Trap code and instruction count of the last run that trapped (R132). -/
  lastTrap : Nat := 0
  lastCount : Nat := 0
  /-- The cue clock cycle of the last compare, and for a background task the tick of TC0 (R87, R110). -/
  doneAt : Option Nat := none
  doneTick : Nat := 0
  /-- The tick of TC0 in which a background task last ran, or was enabled; when it is ripe, the tick after which it has its one grant
  of idle time; and the engine cycles it has taken of that grant (R112). -/
  ranAt : Nat := 0
  ripe : Option Nat := none
  spent : Nat := 0
deriving DecidableEq, Repr

/-- What the cadence table does not show of a cadence. -/
structure CadSt where
  /-- An input cue has fired since the previous commit (R99, R100). -/
  latched : Bool := false
  /-- The image is in the image region (R75). -/
  ready : Bool := false
  /-- The pool sequence number of the input cue (R81). -/
  seq : Nat := 0
  /-- The latched image, by offset from its header, and its length. -/
  img : Mem := []
  imgLen : Nat := 0
  /-- The `SEQ` of the data sheaf latched last for each station that its outputs name (R424). -/
  refs : List (Nat × Nat) := []
  /-- The slot's value at the last input cue (R75). -/
  last : Nat := 0
  /-- A step of the slot since the last input cue, and input cues skipped by steps (Table 02.5). -/
  stepped : Bool := false
  skipped : Nat := 0
  /-- Results were discarded since the previous commit (R100). -/
  lost : Bool := false
  /-- Suspended by the check of R69 (R102). -/
  suspended : Bool := false
  /-- What the period that began at the last input cue is for the lock-step flag (R194): 0 none, 1 one that may clear it, 2 one
  at whose commit the task compared equal. -/
  judged : Nat := 0
deriving DecidableEq, Repr

/-- What the CE page does not show of an engine. -/
structure EngSt where
  /-- A mismatch makes it suspect (R97); the spare that takes its tasks, if one was found. -/
  suspect : Bool := false
  heir : Option Nat := none
  /-- The signature self-test under way follows a mismatch (R97) and not the rota or the start (R620, R622). -/
  afterMismatch : Bool := false
  /-- The cue clock cycle of the last instruction (Table 02.12). -/
  ranAt : Option Nat := none
deriving DecidableEq, Repr

/-- A superseded pool word in retention (R81): its word number, the sequence number of the write that superseded it,
the bytes it held. -/
structure Kept where
  word : Nat
  seq : Nat
  data : BitVec 64
deriving DecidableEq, Repr

/-- A drain under way (R84): its cadence, the pool words in ascending order, the cue clock cycle of the commit, TC0 at the
commit as the Reel records it, the image the tasks read with its length (none where the commit found no input cue), and the
payload of the COMMIT record. -/
structure Drain where
  cad : Nat
  words : WBuf
  at_ : Nat := 0
  instant : List Byte := []
  img : Option (Mem × Nat) := none
  commit : List Byte := []
deriving DecidableEq, Repr

/-- What the PDU table does not show of an entry: the current half, whether an input cue has latched the current data,
the FLAGS of the last frame, and whether a frame was stored since the entry was enabled (R90, R91). -/
structure PduSt where
  half : Nat := 0
  fresh : Bool := false
  flags : Nat := 0
  stored : Bool := false
deriving DecidableEq, Repr

/-- A PDU frame on its way: entry, SEQ, FLAGS, data. -/
structure PduMsg where
  entry : Nat
  seq : Nat
  flags : Nat
  data : List Byte
deriving DecidableEq, Repr

/-- The cycle engine array. -/
structure Cea where
  /-- The instance pool, 16 MiB (R65). -/
  pool : Mem := []
  /-- Program memory, 8 MiB (R65). -/
  prog : Mem := []
  /-- PDU buffer RAM, 128 KiB (R89). -/
  pduRam : Mem := []
  /-- Retention SRAM (R65, R81), oldest first. -/
  kept : List Kept := []
  /-- Pool sequence number: writes that supersede pool contents so far. -/
  seq : Nat := 0
  drains : List Drain := []
  cads : List (Nat × CadSt) := []
  tasks : List (Nat × TaskSt) := []
  runs : List (Nat × Run) := []
  engs : List (Nat × EngSt) := []
  pdus : List (Nat × PduSt) := []
  pduIn : List PduMsg := []
  pduOut : List PduMsg := []
  /-- The WCET that each valid bank gave when it was written, bank `n` of task `t` at 2 `t` + `n` (R156). -/
  wcets : List (Nat × Nat) := []
  /-- A placement is asked for at the next tick boundary (R107, R108). -/
  replace : Bool := false
  /-- The cue clock cycle of the last commit with outputs, and what the registers held before it that an input cue of the same
  cycle may latch (R57). -/
  outAt : Nat := 0
  before : List (Nat × Nat) := []
deriving DecidableEq, Repr

/-- A force in effect (R176): the pool bytes or image bytes it covers and their values. -/
structure Applied where
  image : Bool
  owner : Nat
  ofs : Nat
  bytes : List Byte
deriving DecidableEq, Repr

/-- A force entry as accepted at the last write of its word 1 (R175): state 1 active, 2 suspended. -/
structure ForceEnt where
  sym : Nat
  state : Nat
  image : Bool
  ty : Nat
  owner : Nat
  elem : Nat
  ofs : Nat
  value : Nat
  newTy : Nat := 0
deriving DecidableEq, Repr

/-- FRC: the accepted entries that are not free, the forces in effect, and the cadence whose job migrates after the drain
of its commit. -/
structure Frc where
  entries : List (Nat × ForceEnt) := []
  applied : List (Nat × Applied) := []
  migrate : Option Nat := none
  /-- Cue clock cycle at which `FRC_AUTH` was written (R184). -/
  authAt : Nat := 0
deriving DecidableEq, Repr

/-- DBG: the task whose attachment is asked for and not yet made, a detachment under way, a halt asked for. -/
structure Dbg where
  want : Option Nat := none
  leaving : Bool := false
  haltReq : Bool := false
  /-- The lock-step flag awaits its clearing after a detachment: the task that was attached (R194). -/
  clearing : Option Nat := none
deriving DecidableEq, Repr

end Sys2Proof.Machine
end

