-- ==== Sys2Proof/Machine/Parts/Memory.lean ====
section
/-! DEFINITION. State of the memories, the Reeve, the XLT and the DMA that their registers do not show. -/

namespace Sys2Proof.Machine

/-- What an erased flash byte reads as. -/
def erasedByte (_ : Nat) : Byte := 0xFF

/-- A queued move of the Reeve (R502, R505): a T1 unit, promoted or demoted, with its reason code. -/
structure Move where
  promote : Bool
  unit : Nat
  reason : Nat
  /-- Epochs it has waited (R508). -/
  age : Nat := 0
deriving DecidableEq, Repr

/-- A cached translation (R513): VMID, virtual page, the page it maps to, size in bits, and what it permits. -/
structure Xlat where
  vmid : Nat
  page : Nat
  bits : Nat
  phys : Nat
  rd : Bool
  wr : Bool
deriving DecidableEq, Repr

/-- A fault of a channel (Table 13.6): cause, side, address before translation. -/
structure DmaFault where
  cause : Nat
  side : Nat
  addr : Nat
deriving DecidableEq, Repr

/-- A DMA channel: the descriptor in progress (its eight words; none before its fetch), the bytes of the bursts read and not
yet written, those of a burst whose read has faulted part way, a fault that waits for the park, the age of R519 in ns, and
when it was last brought up to date. -/
structure DmaCh where
  desc : Option (List Nat) := none
  ahead : List (List Byte) := []
  part : List Byte := []
  fault : Option DmaFault := none
  age : Nat := 0
  since : Nat := 0
deriving DecidableEq, Repr

/-- The memories: T0 and T1 by offset, the flash device (unlisted bytes are erased, 0xFF), the Granary's cells; the T1
unit that each placement frame holds; queued moves; the log entries since the last LOG_HALF; cached translations and
their invalidation; the DMA channels. -/
structure MemSt where
  t0 : Mem := []
  t1 : Mem := []
  flash : List (Nat × Byte) := []
  cells : Mem := []
  frames : List (Nat × Nat) := []
  moves : List Move := []
  /-- Moves made in this epoch (R505). -/
  moved : Nat := 0
  /-- The cue clock cycle in which the present epoch began (R502), and that in which the present pass of the scrubber did (R497). -/
  epochAt : Nat := 0
  scrubAt : Nat := 0
  logSince : Nat := 0
  xlat : List Xlat := []
  dma : List (Nat × DmaCh) := []
deriving DecidableEq, Repr

end Sys2Proof.Machine
end

