-- ==== Sys2Proof/Machine/Parts/Nmu.lean ====
section
/-! DEFINITION. State of the network management unit that its registers do not show. -/

namespace Sys2Proof.Machine

/-- What a sleep attempt knows of a source (R462): the cycle of its previous frame, the cycles credited, its frames, its last
control byte, and whether it lies beyond the 256 accumulators. -/
structure KaSource where
  src : Nat
  last : Nat
  credit : Nat := 0
  frames : Nat := 0
  cbv : Nat := 0
  beyond : Bool := false
deriving DecidableEq, Repr

/-- A sleep attempt (R462, R463): TC0 tick and cycle at its start, sources in the order of their first frames, cycles credited to sources
beyond the accumulators, and whether it has been reported. -/
structure Attempt where
  start : Nat
  at_ : Nat := 0
  sources : List KaSource := []
  other : Nat := 0
  reported : Bool := false
deriving DecidableEq, Repr

/-- A channel: whether its REPEAT was caused by a wake of code 6, 7 or 8 (R450), whether a frame is due, input cues since the last
frame, the code of the wake whose full wake sequence runs (R455), and its sleep attempt. -/
structure NmCh where
  active : Bool := false
  due : Bool := false
  cues : Nat := 0
  waking : Option Nat := none
  attempt : Option Attempt := none
  /-- The cycles of its entry to the present state, from which `NM_TIMEOUT` runs (R450), and from which `PN_TIMEOUT` runs. -/
  at_ : Nat := 0
  nmAt : Nat := 0
  pnAt : Nat := 0
deriving DecidableEq, Repr

/-- The NMU: channels, wakes held until PD17 is up (code and channel), the frame error counters of the selective wake filters,
the sleeping LIN channels, and whether the condition of ALL_ASLEEP holds. -/
structure Nmu where
  chs : List (Nat × NmCh) := []
  held : List (Nat × Nat) := []
  swfErr : Tab := []
  linAsleep : List Nat := []
  asleep : Bool := false
  /-- A wake was latched since the module began to go to sleep (R705). -/
  woke : Bool := false
  /-- The cycle of each port's open sleep request (R358). -/
  asked : List (Nat × Nat) := []
  /-- `ETH_TC10` and `ETH_TC10_FWD` of the ports with TC10 on whose domain is off: their wakes are still latched (R359). -/
  tc10 : List (Nat × (Nat × Nat)) := []
  /-- What the ports have sent on their links, counted under port × 8 + kind: 0 WUP, 1 WUR, 2 sleep request, 3 acknowledgement, 4
  refusal (R357 to R359); and the LIN channels `l`, under (64 + `l`) × 8 + kind: 0 go-to-sleep command, 1 wake-up signal (R454, R455). -/
  calls : Tab := []
  /-- The cycle at which the module last ended its drive of `WAKE_IO` (R459). -/
  ioEnd : Option Nat := none
deriving DecidableEq, Repr

end Sys2Proof.Machine
end

