-- ==== Sys2Proof/Machine/Parts/Reel.lean ====
section
/-! DEFINITION. State of the Reel that its registers do not show (R649 to R669). -/

namespace Sys2Proof.Machine

/-- A record in the ring: kind, sub, its number since the enable, TC0 tick, place and size with padding, the payload's first
two words, and the word at payload offset 8. -/
structure RelRec where
  kind : Nat
  sub : Nat
  no : Nat
  tick : Nat
  ofs : Nat
  size : Nat
  w0 : Nat := 0
  w1 : Nat := 0
  w2 : Nat := 0
deriving DecidableEq, Repr

/-- A Take in progress (R666 to R669): the bus address of the dump's record area, the records still to be reached, and the
start point as an instant of TC0 in units of 2^−24 tick. -/
structure TakeSt where
  base : Nat
  left : List RelRec
  start : Nat
deriving DecidableEq, Repr

/-- The Reel: records in the ring, oldest first; the offset of the next write; the number of records since the enable;
records and bytes dropped since the last GAP; bytes in the queue and the cycle they stand at; a snapshot wanted, one in
progress (its buffer), the number of snapshots begun, the newest complete buffer and the complete ones; the number of the
first protected record; the tick of the last Slate; the steps of slots since it; whether the dump under way has failed; a
Take. -/
structure RelSt where
  recs : List RelRec := []
  wr : Nat := 0x40
  no : Nat := 0
  gapRecs : Nat := 0
  gapBytes : Nat := 0
  queued : Nat := 0
  queuedAt : Nat := 0
  snapWanted : Bool := false
  snap : Option Nat := none
  snapNo : Nat := 0
  newest : Option Nat := none
  complete : List Nat := []
  protect : Option Nat := none
  lastSlate : Nat := 0
  stepped : List Nat := []
  dumpBad : Bool := false
  /-- The TC0 tick of the last Slate command carried out, and the cycle in which the last snapshot fell due (R649, R656). -/
  slateTick : Option Nat := none
  snapAt : Nat := 0
  take : Option TakeSt := none
deriving DecidableEq, Repr

end Sys2Proof.Machine
end

