-- ==== Sys2Proof/Machine/Parts/Span.lean ====
section
/-! DEFINITION. State of the Span bridge that its registers do not show (R465 to R491, R553). -/

namespace Sys2Proof.Machine

/-- A packet on the Span link. `op`: 0 memory write, 1 memory read, 2 configuration write, 3 configuration read, 4 completion
of an inbound read, 5 message. `fn` is the function whose routing ID it carries: 0 the physical function, `v` + 1 virtual
function `v`. `status` of a completion: 0 successful, 1 Unsupported Request, 4 Completer Abort. -/
structure Tlp where
  op : Nat
  addr : Nat := 0
  len : Nat := 0
  data : List Byte := []
  tag : Nat := 0
  fn : Nat := 0
  relaxed : Bool := false
  noSnoop : Bool := false
  tc : Nat := 0
  typ1 : Bool := false
  status : Nat := 0
deriving DecidableEq, Repr

/-- Who waits for an outbound transaction: its module address, its attributes and the bytes it asked for. -/
structure SpanUser where
  addr : Nat
  attr : Attr
  len : Nat := 0
deriving DecidableEq, Repr

/-- A request that waits for credits, room or a tag (R471, R481): its window, the packet, and who waits for it (none for a
posted write). -/
structure SpanWait where
  win : Nat
  tlp : Tlp
  user : Option SpanUser := none
deriving DecidableEq, Repr

/-- An open transaction (R483), and the cue clock cycle in which its request went out (R485). -/
structure SpanOpen where
  tag : Nat
  win : Nat
  user : SpanUser
  sentAt : Nat := 0
deriving DecidableEq, Repr

/-- The answer to the last outbound transaction that ended. -/
structure SpanAns where
  user : SpanUser
  err : Bool
  data : List Byte := []
deriving DecidableEq, Repr

/-- The Span bridge: requests waiting, open transactions, the answer to the last one, packets sent and not yet taken by the
link partner, the level of `SPAN_PERST_N`, Function Level Resets under way with the cycle of their start, the MSI-X tables
(function × 2^16 + vector × 16 + byte offset of a word, unlisted words 0) with the vectors unmasked and the bits pending
(function × 32 + vector). -/
structure SpanSt where
  wait : List SpanWait := []
  open_ : List SpanOpen := []
  ans : Option SpanAns := none
  out : List Tlp := []
  perst : Bool := true
  flr : List (Nat × Nat) := []
  msix : Tab := []
  unmasked : List Nat := []
  pend : List Nat := []
deriving DecidableEq, Repr

end Sys2Proof.Machine
end

