-- ==== Sys2Proof/Machine/Parts/Stage.lean ====
section
/-! DEFINITION. State of the power stage and its supervisor that their registers do not show. -/

namespace Sys2Proof.Machine

/-- What a channel's gate does: off, on, on for the on-part of each PWM period, or driven in PWM with its on-part omitted (R230). -/
inductive Gate where
  | off
  | on
  | pulse
  | blank
deriving DecidableEq, Repr

/-- Who commands a channel: firmware, the hold window, the limp-home map, or the OFF policy (R251). -/
inductive Ctl where
  | command
  | hold
  | limp
  | off
deriving DecidableEq, Repr

/-- A power channel: its gate, whether its pulse generator runs (a standing PWM command, R206), the duty that the generator carries
out, a command that waits for a period start and the cue clock cycle of the last command (R204), who commands it, the wire
temperature in units of 2^−32 °C (R222), a junction still above the restart threshold (R221), the anchor of its period starts in
units of 2^−24 tick (R228), its slot's value and the cycle at the start of the period in progress, whether the generator has started
it on the PSS clock (R231, R232), and the cycle of the last PWM_ALIGN (R58); the cycles of its last turn-on, of the last command that
switched it off, of its last trip (R210) and of the opening of its window, and how long the window has stood still (R215). -/
structure Chan where
  gate : Gate := .off
  gen : Bool := false
  duty : Nat := 0
  next : Option Nat := none
  sent : Nat := 0
  ctl : Ctl := .limp
  theta : Int := 100 * 2 ^ 32
  hot : Bool := false
  anchor : Nat := 0
  startVal : Nat := 0
  startAt : Nat := 0
  own : Bool := false
  alignAt : Option Nat := none
  onAt : Nat := 0
  offAt : Option Nat := none
  tripAt : Option Nat := none
  openAt : Nat := 0
  stood : Nat := 0
deriving DecidableEq, Repr

/-- An LH pin: its last sample and how many equal ones came in a row (R257). -/
structure Pin where
  level : Bool := false
  same : Nat := 0
deriving DecidableEq, Repr

/-- The PSS and the LPM: whether the controller runs, whether its next start follows a loss of VBAT, the consecutive
discarded heartbeats, whether a command has been discarded since the last change of charge state, the start of the hold
window in cue clock cycles, the pins, the OTP map words (slot × 20 + word) and the slots written, the slot and the record
being programmed, the busbars below their dip threshold with the cycle since when (R215), the cycle of each ambient source's last
fresh value (R225), and the cycle at which the heartbeat timer started (R247). -/
structure Stage where
  chans : List (Nat × Chan) := []
  running : Bool := false
  fromVbat : Bool := true
  bad : Nat := 0
  discarded : Bool := false
  holdAt : Nat := 0
  pins : List (Nat × Pin) := []
  otp : List (Nat × Nat) := []
  used : List Nat := []
  prog : Option Nat := none
  record : List Nat := []
  dips : List (Nat × Nat) := []
  amb : List (Nat × Nat) := []
  beatAt : Nat := 0
deriving DecidableEq, Repr

end Sys2Proof.Machine
end

