-- ==== Sys2Proof/Machine/Parts/Switch.lean ====
section
/-! DEFINITION. State of the switch core, the Granary, the Loft, the ports and the MACsec unit that their registers do not
show. -/

namespace Sys2Proof.Machine

/-- A frame in a Loft block (Table 07.3): its length, class, admission, stream and where its record lies; `written` says
that its write has completed. -/
structure LoftFrame where
  block : Nat
  ofs : Nat
  len : Nat
  vid : Nat
  pcp : Nat
  entered : Nat
  at_ : Nat
  written : Bool := false
  stream : Option Nat := none
  bucket : Nat := 0
  recovered : Bool := false
  /-- Headroom cells that hold it until it is written. -/
  cells : List Nat := []
deriving DecidableEq, Repr

/-- A frame descriptor (Table 07.2): type (0 in the Granary, 1 Loft run, 2 staged from the Loft), length, cells, stream
entry, class, whether its cells are shared, remaining links, admission time, the cue clock cycle of admission, VLAN and
priority for its egress, flow bucket, and for a Loft run its blocks and frames. -/
structure Desc where
  typ : Nat
  len : Nat := 0
  cells : List Nat := []
  stream : Option Nat := none
  cls : Nat := 0
  shr : Bool := false
  ref : Nat := 1
  entered : Nat := 0
  at_ : Nat := 0
  vid : Nat := 0
  pcp : Nat := 0
  bucket : Nat := 0
  blocks : List Nat := []
  frames : List LoftFrame := []
  /-- A recovery function has passed it: its R-TAG goes on only towards ports that keep it (R311). -/
  recovered : Bool := false
  /-- A PTP message of the port, which goes out untagged as it stands (Table 08.5). -/
  own : Bool := false
deriving DecidableEq, Repr

/-- A queue: its descriptors in order, and the reserved and shared cells it counts. -/
structure Queue where
  links : List Nat := []
  rsv : Nat := 0
  shr : Nat := 0
deriving DecidableEq, Repr

/-- A frame on the wire: its descriptor, class, the bytes sent, the cycle of its start, the bytes of it already sent in
earlier fragments, and the collisions it met. -/
structure TxFrame where
  desc : Nat
  cls : Nat
  wire : List Byte
  start : Nat
  done : Nat := 0
  fragments : Nat := 0
  tries : Nat := 0
  /-- The SA that protects it (R345). -/
  sa : Option Nat := none
deriving DecidableEq, Repr

/-- A port: the frame on the wire, a preempted frame, HOLD, the cycle of the last gate close of each class, the shaper
credits of CL4 and CL5 in units of 1/6,000,000 bit with the cycle they stand at, the ages of CL0 to CL5 in cycles and the
cycle since which a class has been eligible, frames left in the PLCA transmit opportunity, the cycle of the last
collision, verify frames sent, low SQI reports in a row, a link delay measurement and the good ones in a row. -/
structure PortSt where
  tx : Option TxFrame := none
  pre : Option TxFrame := none
  hold : Bool := false
  closed : List (Nat × Nat) := []
  credit4 : Int := 0
  credit5 : Int := 0
  creditAt : Nat := 0
  age : Tab := []
  since : List (Nat × Nat) := []
  turn : Nat := 0
  lastColl : Option Nat := none
  verify : Nat := 0
  lowSqi : Nat := 0
  pdelay : Nat := 0
  pdelayGood : Nat := 0
  /-- The horizons of the classes (R332): slot and instant. -/
  horizon : List (Nat × (Nat × Nat)) := []
  /-- The cycle from which the wire is free again after the gap (R320), and the last cycle at which a frame of the present transmit
  opportunity may start (R329). -/
  freeAt : Nat := 0
  turnEnd : Nat := 0
  /-- The node whose transmit opportunity comes next on the segment of a coordinator, and the BEACONs it has sent (R328). -/
  plca : Nat := 0
  beacons : Nat := 0
  /-- The cycles of the last verify frame (R341), of the last SQI report (R325), and at which the link was reported down (R300). -/
  verifyAt : Nat := 0
  sqiAt : Nat := 0
  downAt : Nat := 0
deriving DecidableEq, Repr

/-- A flow meter's buckets in units of 1/125,000 byte, and the ns they stand at (R310). -/
structure Meter where
  c : Nat := 0
  e : Nat := 0
  at_ : Nat := 0
deriving DecidableEq, Repr

/-- A PTP instance: its time in ns at a cue clock cycle, the correction field (2^−16 ns) of the last Sync received and of
the last one sent, the consecutive sync intervals with an offset of at most 100 ns (up to 8, R24), whether a Sync came in the
present interval, the cycle of a grandmaster's last Sync, and the sequence number of the next one. -/
structure PtpSt where
  time : Nat := 0
  at_ : Nat := 0
  corr : Nat := 0
  sent : Nat := 0
  good : Nat := 0
  seen : Bool := false
  sentAt : Option Nat := none
  seq : Nat := 0
deriving DecidableEq, Repr

/-- The switch core and the ports. Tables by key: `fdb` and `strm` hold entry words under table × 2^18 + index × 4 + word,
`busy` the cycle until which the table operation of a command register goes on (R316); `msec` under table × 2^16 + index × 8 + word; `cnt` counters under space × 2^24 + index × 2^8 + number; `eth` port counters
under port × 32 + number; `lag` the member (plus 1) that a bucket (group × 64 + bucket) has adopted. -/
structure Sw where
  descs : List (Nat × Desc) := []
  queues : List (Nat × Queue) := []
  ports : List (Nat × PortSt) := []
  /-- Cells in use, ascending. -/
  cells : List Nat := []
  shared : Nat := 0
  head : Nat := 0
  refill : Nat := 0
  blocks : List Nat := []
  loftQ : List Nat := []
  fdb : Tab := []
  busy : List (Nat × Nat) := []
  strm : Tab := []
  meters : List (Nat × Meter) := []
  cnt : Tab := []
  lag : Tab := []
  eth : Tab := []
  msec : Tab := []
  ptp : List (Nat × PtpSt) := []
deriving DecidableEq, Repr

end Sys2Proof.Machine
end

