-- ==== Sys2Proof/Machine/Parts/System.lean ====
section
/-! DEFINITION. State of the system blocks that their registers do not show: requests under way in the PWR, requests
held by the WGT, resets in force, interrupt files, cores and analog inputs. -/

namespace Sys2Proof.Machine

/-- The answer to the last register access: an error response or not, and the data of a read. -/
structure Resp where
  err : Bool := false
  data : Word := 0
deriving DecidableEq, Repr

/-- One request for a power domain or for the clock of a page (R703). -/
structure PwrReq where
  on : Bool
  clk : Bool
  target : Nat
  secure : Bool
  mid : Nat
  vmid : Nat
  /-- When the WGT took it up, while it is held (R573). -/
  heldAt : Nat := 0
deriving DecidableEq, Repr

/-- PWR: requests accepted and not yet carried out, the one being sequenced, and the module-sleep sequence (R703,
R705). -/
structure Pwr where
  queue : List PwrReq := []
  active : Option PwrReq := none
  sleepSeq : Bool := false
  asleep : Bool := false
  refresh : Bool := false
  slept : List Nat := []
deriving DecidableEq, Repr

/-- An operation that Hold defers (R694, R695): a programmer command, KEY commands and life-cycle advance, the burn of an
anti-rollback counter (`MAIN` or `LDR`) or of key revocations, map programming, a Reel dump to flash, an activation, the
writing of an update, and the writing of a recovery image (its kind and length; port, address and number for the answer). -/
inductive Deferred where
  | flash (op ofs len src : Nat)
  | persistCheck (secure : Bool) (mid vmid : Nat)
  | enrol
  | lcsAdvance (target : Nat)
  | arbAdvance (main : Bool) (svn : Nat)
  | pkRev (keys : Nat)
  | mapProg
  | relDump
  | activate
  | updateWrite
  | recovery (kind len : Nat) (answer : Option (Nat × Nat × Nat))
deriving DecidableEq, Repr

/-- SYS and SUP: the reset causes in force, whether the main logic is in reset, the start of the present Hold in cue
clock cycles, the operations that Hold defers in their order, and the consecutive bad system watchdog writes; when the watchdog
last started or took a heartbeat (R700), and when the reset causes in force last changed (R718). -/
structure Sys where
  causes : List Nat := []
  inReset : Bool := false
  holdSince : Nat := 0
  deferred : List Deferred := []
  wdogBad : Nat := 0
  vbatOff : Bool := false
  resetNLow : Bool := false
  wdogAt : Nat := 0
  resetAt : Nat := 0
deriving DecidableEq, Repr

/-- An application core as the worlds chapter describes it (R567): bit 0 of its `mworld`, 1 for Secure. What its caches
hold comes with the command that empties them. -/
structure CoreSt where
  world : Bool := true
deriving DecidableEq, Repr

/-- An interrupt pending in an interrupt file (R570): core, file (0 machine, 1 supervisor, 2 to 8 guest), EIID. -/
structure IntPend where
  core : Nat
  file : Nat
  eiid : Nat
deriving DecidableEq, Repr

/-- A rising edge that the EVR delivers (R706, R729): the line, the cue clock cycle of the edge, and what the route held then
writes. -/
structure EvEdge where
  line : Nat
  at_ : Nat
  dest : IntPend
deriving DecidableEq, Repr

/-- A running analog burst (R708): the tick of its cue, and the cue clock cycle of its start. -/
structure Burst where
  tick : Nat
  at_ : Nat := 0
deriving DecidableEq, Repr

/-- AIN: running bursts by number, the last temperature samples (in °C plus 50) by input, the cue clock cycles of these samples,
and those of the last samples between bursts (R707). -/
structure Ain where
  running : List (Nat × Burst) := []
  temp : List (Nat × Nat) := []
  tempAt : List (Nat × Nat) := []
  polledAt : List (Nat × Nat) := []
deriving DecidableEq, Repr

end Sys2Proof.Machine
end

