-- ==== Sys2Proof/Machine/Parts/Time.lean ====
section
/-! DEFINITION. State of the TCU and the CUE that their registers do not show. -/

namespace Sys2Proof.Machine

/-- A timecode slot (R20): its value `val` in units of 2^−24 tick at the cue clock cycle `stamp`, whether it has a
value (R31), whether it advances, the correction still to be slewed in the same units and the slew rate in ppm, the
last measured tick length in ns (ANG, MNS), a step that waits for the boundary `fst` with the correction `snd`, and the
cycle of entry to holdover and of the entry that its limit counts from; the first value that the cue sheet has not passed; the value at
its last discontinuity, a step or the end of ACQUIRING (R231); and for
a LOCKED slot on ANG the shaft's position at its last edge, the direction of that edge, its cycle, and the edge interval in ns (R25,
R26). -/
structure TcuSlot where
  val : Nat := 0
  stamp : Nat := 0
  hasVal : Bool := false
  run : Bool := false
  corr : Int := 0
  ppm : Nat := 0
  tickNs : Nat := 0
  step : Option (Nat × Int) := none
  holdAt : Nat := 0
  limAt : Nat := 0
  mark : Nat := 0
  jump : Nat := 0
  pos : Nat := 0
  fwd : Bool := true
  edgeAt : Nat := 0
  edgeNs : Nat := 0
deriving DecidableEq, Repr

/-- A cue that its cycle had no room for (R54): its index, its instant and its entry. -/
structure LateCue where
  idx : Nat
  val : Nat
  word : CueWord
deriving DecidableEq, Repr

/-- The cue sheet: two halves of 4,096 entries (unlisted entries are 0, not VALID), a pending swap by slot and boundary
(in units of 2^−24 tick), whether a copy runs and since which cycle; the cue clock cycle that last fired a cue, how many it has
fired, the entries it has fired by command and the index that the next of them must reach (R54, R56); and the deferred cues,
in firing order. -/
structure Cue where
  half0 : List (Nat × CueWord) := []
  half1 : List (Nat × CueWord) := []
  swap : Option (Nat × Nat) := none
  copying : Bool := false
  copyAt : Nat := 0
  cycle : Nat := 0
  fired : Nat := 0
  done : List Nat := []
  next : Nat := 0
  late : List LateCue := []
deriving DecidableEq, Repr

end Sys2Proof.Machine
end

