-- ==== Sys2Proof/Machine/Parts/Twin.lean ====
section
/-! DEFINITION. State of the twin and of engine health that their registers do not show (R618 to R646). -/

namespace Sys2Proof.Machine

/-- An Exrex frame (Table 17.3) without its CRC: type, sub, number, part, tick, epoch, flags, state, payload. -/
structure Exrex where
  typ : Nat
  sub : Nat := 0
  seq : Nat := 0
  part : Nat := 0
  tick : Nat := 0
  epoch : Nat := 0
  flags : Nat := 0
  state : Nat := 0
  payload : List Byte := []
deriving DecidableEq, Repr

/-- What the twin holds for a cadence: the own signature of the last commit with its cycle number, the partner's, whether the
cycle is unpaired, mismatches in a row, the signature still to be sent (tick, cycle number, signature), image segments received with the tick of their cycle, whether the cadence waits for
the partner's image, and whether it has started since the end of SYNC. Signatures stand with the input cue tick of their
cycle. -/
structure TwinCad where
  own : Option (Nat × Nat) := none
  peer : Option (Nat × Nat) := none
  unpaired : Bool := false
  bad : Nat := 0
  toSend : Option (Nat × Nat × Nat) := none
  segTick : Nat := 0
  segs : List (Nat × List Byte) := []
  lastSeg : Option Nat := none
  waiting : Bool := false
  started : Bool := false
  /-- The cycle of the last input cue, from which `IMG_TO` runs (R634). -/
  cueAt : Nat := 0
deriving DecidableEq, Repr

/-- The twin: frames that have gone out and are not yet taken by the link or by P38 (`ALT`), the next `SEQ`, the partner's
epoch, whether authority is to be taken or yielded at the next commit cue of a twinned cadence with its cause, the earliest
instant for a take after an ACK in cue clock cycles, a declaration that waits for its answer (its `SEQ`), whether the module
has declared itself faulty, `UNSYNCED`, the next STATE segment to send, whether sending has begun, the next one to receive, whether all have been applied,
and the cadences. -/
structure TwnSt where
  out : List Exrex := []
  seq : Nat := 0
  take : Option Nat := none
  takeAt : Nat := 0
  yield : Option Nat := none
  declared : Option Nat := none
  faulty : Bool := false
  unsynced : Bool := false
  sendSeg : Option Nat := none
  sending : Bool := false
  nextSeg : Nat := 0
  synced : Bool := false
  /-- When the last HELLO went out (R631), and when `ALONE_TO` began to run (R630). -/
  helloAt : Option Nat := none
  heardAt : Nat := 0
  /-- The tick whose heartbeat went out last, and the last tick whose partner heartbeat has been heard in time or judged missed; none
  before any was to be expected (R637). -/
  hbSent : Option Nat := none
  hbTick : Option Nat := none
  /-- When the declaration that waits went out (R640). -/
  declaredAt : Nat := 0
  cads : List (Nat × TwinCad) := []
deriving DecidableEq, Repr

/-- HLT: the spare under the rota's test, whether the rota passed over a lone spare last time, and what the last second brought:
reruns equal, mismatches, safe-value releases, overruns, highest and lowest `VBAT` in units of 10 mV, the highest junction
temperature, corrected T1 errors, lowest `GRN_FREE`, an uncorrectable error, a Hold entered; and since the reset Hold entries,
T1 and T0 uncorrectable errors, transients. -/
structure HltSt where
  testing : Option Nat := none
  passed : Bool := false
  reruns : Nat := 0
  mismatches : Nat := 0
  safe : Nat := 0
  overruns : Nat := 0
  vmax : Nat := 0
  vmin : Nat := 0xFFFF
  junction : Nat := 0
  ce : Nat := 0
  free : Nat := 0xFFFF_FFFF
  ue : Bool := false
  hold : Bool := false
  holds : Nat := 0
  t1ue : Nat := 0
  t0ue : Nat := 0
  transients : Nat := 0
  /-- When the rota last took its turn (R622), and when and at which tick the Dailies were last published (R644). -/
  rotaAt : Nat := 0
  dailyAt : Nat := 0
  dailyTick : Option Nat := none
deriving DecidableEq, Repr

end Sys2Proof.Machine
end

