-- ==== Sys2Proof/Machine/Parts/Vpt.lean ====
section
/-! DEFINITION. State of the virtual ports that the VPT's windows show through `VPT_SEL`, and what they do not show (R530 to
R553). -/

namespace Sys2Proof.Machine

/-- A frame held in the share (R540): its bytes after stripping, the stripped tag, its cells. -/
structure HeldFrame where
  bytes : List Byte
  tci : Option Nat := none
  cells : Nat
deriving DecidableEq, Repr

/-- A gathered frame that waits for its token bucket (R541): its bytes and its descriptors. -/
structure TxWait where
  bytes : List Byte
  descs : Nat
  irq : Bool
deriving DecidableEq, Repr

/-- A virtual port: state (Table 14.7), cause, side and address of a fault, whether its removal is under way (R545), frames
held, the cells guaranteed now, its peak use in the epoch, tokens of the two buckets in units of 1/9,600 byte with the cycle
they stand at, a completion not yet notified (R542), a frame that waits for tokens, and its counters (Table 14.6). -/
structure VpSt where
  /-- When the first completion not yet notified came (R542). -/
  irqAt : Nat := 0
  /-- The `RING` of a port that is being removed by a `RING` of 0: its frame in progress ends on that ring (R545). -/
  oldRing : Option Nat := none
  /-- Word 10 as it stood when it was written while a gathered frame waits: the frame still leaves under it (R544). -/
  oldTx : Option Nat := none
  state : Nat := 0
  cause : Nat := 0
  side : Nat := 0
  fault : Nat := 0
  leaving : Bool := false
  held : List HeldFrame := []
  share : Nat := 0
  peak : Nat := 0
  txTok : Int := 0
  rxTok : Int := 0
  tokAt : Nat := 0
  irq : Bool := false
  wait : Option TxWait := none
  cnt : Tab := []
deriving DecidableEq, Repr

/-- The VPT: ports not at their reset state, entry words (port × 16 + word), and the shares that the last epoch's end set and
that the Reeve has still to apply after its moves, with the epochs they have waited (R508, R543). -/
structure VptSt where
  ports : List (Nat × VpSt) := []
  words : Tab := []
  shares : List (Nat × Nat) := []
  sharesAge : Nat := 0
deriving DecidableEq, Repr

end Sys2Proof.Machine
end

