-- ==== Sys2Proof/Machine/Parts/Zone.lean ====
section
/-! DEFINITION. State of the CAN controllers, the LIN channels, the RIO and the TUN that their registers do not show. -/

namespace Sys2Proof.Machine

/-- A received frame matched to an object and not yet stored (R372): the object, the frame, the tick at its end, and the
freshness value that verified. -/
structure RxFrame where
  obj : Nat
  frame : CanFrame
  ts : Nat
  fv : Option Nat := none
deriving DecidableEq, Repr

/-- A CAN controller: its data RAM, the object on the bus with the frame latched at the start of arbitration, an object
triggered again meanwhile (R378), objects whose MAC is ready (R393), objects whose age limit expired on the bus (R382),
frames to be stored, whether bus-off recovery counts (R388), whether it waits for 11 recessive bits (R390, R391, R405),
whether it is finishing a frame after it was disabled and the cycle by which it stops (R406), the cycle at which each object became
pending (R382), whether partial mode makes it ignore frames (R386), and its
counters. -/
structure CanSt where
  ram : Mem := []
  tx : Option (Nat × CanFrame) := none
  again : Bool := false
  ready : List Nat := []
  aged : List Nat := []
  rx : List RxFrame := []
  counting : Bool := false
  waiting : Bool := false
  stopping : Bool := false
  stopBy : Nat := 0
  pendAt : List (Nat × Nat) := []
  ignore : Bool := false
  cnt : Tab := []
deriving DecidableEq, Repr

/-- A LIN frame in progress: the buffer, the response length, whether this node publishes it, the checksum kind, the
entry's type, the frame identifier, the data latched for a published response, and the cycle at which the response starts (R398). -/
structure LinFrame where
  buf : Nat
  len : Nat
  pub : Bool
  enh : Bool
  typ : Nat
  fid : Nat
  data : List Byte
  respAt : Nat := 0
deriving DecidableEq, Repr

/-- An output sheaf released and not yet sent (R424). -/
structure OutSheaf where
  payload : List Byte
  seq : Nat
  ref : Nat
  alive : Nat
  safe : Bool
  unchecked : Bool
deriving DecidableEq, Repr

/-- A remote station (R412 to R434): sheaf heard since the last deadline, the stored data and its `SEQ`, the last `ALIVE`
and how often it came in a row, a RESYNC accepted since the last deadline, the newest output sheaf not yet sent, whether
the next output carries RESYNC, the output `ALIVE`, the `SEQ` latched at the last input cue, the partial sheaf from CAN
segments with the next segment number, segments still to send, the sheaf that waits behind them, and whether the commit
released results since the last RIO_SEND of a station without outputs (R427). -/
structure StnSt where
  heard : Bool := false
  hasData : Bool := false
  data : List Byte := []
  seq : Nat := 0
  alive : Nat := 0
  aliveRun : Nat := 0
  resync : Bool := false
  out : Option OutSheaf := none
  fresh : Bool := true
  aliveOut : Nat := 0
  latched : Nat := 0
  part : Option (Nat × List Byte) := none
  segs : List (List Byte) := []
  next : Option (List Byte) := none
  /-- Its state before its last deadline, and the cycle of that deadline (R430). -/
  was : Nat := 0
  cueAt : Option Nat := none
  /-- The stamp of the stored data with all 40 bits of its tick (R415). -/
  stamp : Nat := 0
deriving DecidableEq, Repr

/-- A partial XL frame of a direction 1 route (R443): the first fragment's header fields and data. -/
structure XlPart where
  head : List Byte
  data : List Byte
deriving DecidableEq, Repr

/-- A tunnel route: messages of the frame under assembly, the sequence numbers sent and received, the partial XL frame,
and the objects loaded that wait for their presentation time. -/
structure RouteSt where
  msgs : List (List Byte) := []
  /-- The cycle of the first message of the frame under assembly (R438). -/
  since : Nat := 0
  seqTx : Nat := 0
  seqRx : Option Nat := none
  part : Option XlPart := none
  sched : List (Nat × Nat) := []
  /-- The least `FMT` of the route's objects when the route was enabled (R442). -/
  fmt : Nat := 0
deriving DecidableEq, Repr

/-- CAN, LIN, RIO and TUN. -/
structure Zone where
  cans : List (Nat × CanSt) := []
  lins : List (Nat × LinFrame) := []
  /-- The frame identifier of the last reception of each LIN buffer (R376), under channel × 64 + buffer. -/
  linRx : Tab := []
  stns : List (Nat × StnSt) := []
  rioCnt : Tab := []
  routes : List (Nat × RouteSt) := []
  tunCnt : Tab := []
  /-- Frames that a block has handed to an internal port of the switch and that the switch has not received yet. -/
  handed : List (Nat × List Byte) := []
deriving DecidableEq, Repr

end Sys2Proof.Machine
end

