-- ==== Sys2Proof/Machine/Crc.lean ====
section
/-! DEFINITION. CRC-32 with polynomial 0xF4ACFB13: initial value and final XOR 0xFFFF_FFFF, input and output reflected
(R410). -/

namespace Sys2Proof.Machine

/-- One bit of a reflected CRC with the reflected polynomial `p`. -/
def crcBit (p c : Nat) : Nat := if c % 2 = 1 then (c / 2) ^^^ p else c / 2

/-- `n` bits of a reflected CRC. -/
def crcBits (p : Nat) : Nat → Nat → Nat
  | 0, c => c
  | n + 1, c => crcBits p n (crcBit p c)

/-- The polynomial 0xF4ACFB13 with its bits reversed. -/
abbrev crcPoly : Nat := 0xC8DF352F

/-- CRC-32 of R410 over bytes. -/
def crc32 (l : List Byte) : Nat := (l.foldl (fun c b => crcBits crcPoly 8 (c ^^^ b.toNat)) 0xFFFF_FFFF) ^^^ 0xFFFF_FFFF

/-- Bytes of a list of 32-bit words, each little-endian. -/
def wordBytes (ws : List Nat) : List Byte := ws.flatMap (leBytes 4)

end Sys2Proof.Machine
end

