-- ==== Sys2Proof/Config.lean ====
section
/-! DEFINITION. What an implementation fixes and the spec does not state: constants with no body, so that no
statement can rest on a value of theirs. A free value is one of these applied to the counter `State.hw.free`, which
every use advances (assumption log, entry 4), or to the operands it depends on. -/

namespace Sys2Proof.Config

/-- `VERSION.BLOCK_REV` of a page (Table 00.6: "Per block"). -/
opaque blockRev : Nat → BitVec 8

/-- The UID in OTP, words 0 and 1 (Table 16.11: "Per module"). -/
opaque uid : Nat → Word

/-- The digest of the authoriser's public key in OTP (Table 16.11: "Per module"). -/
opaque authPk : Nat → Word

/-- The digests of the image signing keys in OTP, 48 words (Table 19.7). -/
opaque bootPk : Nat → Word

/-- The anti-rollback counters and the revocations in OTP (`BOOT_ARB`, Table 19.7: "Per module"). -/
opaque bootArb : Word

/-- Cue clock cycles that a Function Level Reset takes (R490: within 100 ms). -/
opaque flrCycles : Nat

/-- The secondary bus number of the root port (R472), which the spec neither states nor lets a register give. -/
opaque secondaryBus : BitVec 8

/-- A value of a word that the spec leaves open. -/
opaque freeWord : Nat → Word

/-- A byte that the spec leaves open (what the TRNG delivers, what a PUF answers, padding that no rule fixes). -/
opaque freeByte : Nat → Byte

/-- Which way an inexact result is rounded where the spec names no rounding. -/
opaque roundUp : Nat → Bool

/-- A relation of two reals of which one is a NaN, by its function code and the two patterns (Table 03.7 gives none;
assumption log, entry 42). -/
opaque nanRel : Nat → Nat → Nat → Bool

/-- Bus address of the instance pool (the spec names the range and gives no address). -/
opaque poolBase : Nat

/-- Bus address of the program memory (the spec names the range and gives no address). -/
opaque progBase : Nat

/-- The root secret that the physical-unclonable region of the module yields (R591). -/
opaque root : Nat → Byte

/-- MAC address (6 bytes) and port identity (10 bytes) that a port's PTP messages carry, under port × 16 + byte. -/
opaque ptpIdentity : Nat → Byte

/-- Offset in T1 of the image that boot stage 2 copies there (R674), which the spec does not give. -/
opaque imageAt : Nat

end Sys2Proof.Config
end

