-- ==== Sys2Proof/Machine/RegTable.lean ====
section
/-! DEFINITION. The register maps of the spec as data: every register's place, reset value and access code
(Table 00.3). A row says: offset, number of places, stride, reset value, the bits a write stores, the bits that
writing 1 clears, the bits that writing 1 sets, and whether `LOCK.CFG` locks it (RWL). -/

namespace Sys2Proof.Machine

/-- One row of a register map. -/
structure RegRow where
  off : Nat
  count : Nat
  stride : Nat
  reset : Nat
  rw : Nat
  w1c : Nat
  w1s : Nat
  rwl : Bool
deriving DecidableEq, Repr

/-- A block kind: one for each row of Table 22.1. -/
inductive Blk where
  | sys | pwr | sup | evr | boot | hlt | tcu | cue | cea | ce | imp | pgm | frc | swc | grn | loft | fdb | strm | eth | msec | can | lin | nmu | rio | tun | spn | twn | pss | pch | lpm | ain | rve | xlt | dma | memc | wgt | key | cry | cvu | vpt | rel | dbg
deriving DecidableEq, Repr

/-- The register map of SYS. -/
def rowsSYS : List RegRow := [
  ⟨0x100, 1, 0x0, 0x0, 0x0, 0x0, 0x0, false⟩,
  ⟨0x104, 1, 0x0, 0x0, 0x0, 0x0, 0x0, false⟩,
  ⟨0x108, 1, 0x0, 0x0, 0x800003FF, 0x0, 0x0, true⟩,
  ⟨0x10C, 1, 0x0, 0x0, 0x0, 0x0, 0x0, false⟩,
  ⟨0x110, 1, 0x0, 0x0, 0x0, 0x0, 0x0, false⟩]

/-- The register map of PWR. -/
def rowsPWR : List RegRow := [
  ⟨0x100, 1, 0x0, 0x0, 0x0, 0x0, 0x0, false⟩,
  ⟨0x104, 1, 0x0, 0x0, 0x0, 0x0, 0x0, false⟩,
  ⟨0x108, 1, 0x0, 0x0, 0x0, 0x0, 0x0, false⟩,
  ⟨0x10C, 1, 0x0, 0x0, 0x0, 0x0, 0x0, false⟩,
  ⟨0x110, 1, 0x0, 0x0, 0x0, 0x0, 0x0, false⟩,
  ⟨0x114, 1, 0x0, 0x0, 0x0, 0x0, 0x0, false⟩,
  ⟨0x118, 1, 0x0, 0x0, 0xC0FFFFFF, 0x0, 0x0, false⟩,
  ⟨0x140, 32, 0x4, 0x0, 0x0, 0x0, 0x0, false⟩,
  ⟨0x1C0, 32, 0x4, 0x0, 0x0, 0x0, 0x0, false⟩,
  ⟨0x240, 32, 0x4, 0xFFFFFFFF, 0x0, 0x0, 0x0, false⟩]

/-- The register map of SUP. -/
def rowsSUP : List RegRow := [
  ⟨0x100, 1, 0x0, 0x1770, 0xFFFF, 0x0, 0x0, true⟩,
  ⟨0x104, 1, 0x0, 0x0, 0x0, 0x0, 0x0, false⟩,
  ⟨0x108, 1, 0x0, 0x0, 0x0, 0x0, 0x0, false⟩,
  ⟨0x10C, 1, 0x0, 0xFFFF, 0x0, 0x0, 0x0, false⟩,
  ⟨0x110, 1, 0x0, 0x0, 0x0, 0x0, 0x0, false⟩,
  ⟨0x114, 1, 0x0, 0x0, 0x0, 0x0, 0x0, false⟩,
  ⟨0x118, 1, 0x0, 0x0, 0x0, 0x0, 0x0, false⟩,
  ⟨0x11C, 1, 0x0, 0x0, 0x0, 0x0, 0x0, false⟩]

/-- The register map of EVR. -/
def rowsEVR : List RegRow := [
  ⟨0x1000, 2048, 0x4, 0x0, 0x8F0F07FF, 0x0, 0x0, false⟩]

/-- The register map of BOOT. -/
def rowsBOOT : List RegRow := [
  ⟨0x100, 1, 0x0, 0x0, 0x0, 0x0, 0x0, false⟩,
  ⟨0x104, 1, 0x0, 0x0, 0x0, 0x0, 0x0, false⟩,
  ⟨0x108, 1, 0x0, 0x0, 0x0, 0x0, 0x0, false⟩,
  ⟨0x10C, 1, 0x0, 0x0, 0x0, 0x0, 0x0, false⟩,
  ⟨0x110, 4, 0x4, 0x0, 0x0, 0x0, 0x0, false⟩,
  ⟨0x120, 1, 0x0, 0x0, 0x0, 0x0, 0x0, false⟩,
  ⟨0x130, 48, 0x4, 0x0, 0x0, 0x0, 0x0, false⟩,
  ⟨0x200, 1, 0x0, 0x0, 0xF0000000, 0x0, 0x0, false⟩,
  ⟨0x204, 1, 0x0, 0x0, 0x3FFFFFFF, 0x0, 0x0, false⟩,
  ⟨0x208, 1, 0x0, 0x0, 0xFFFFFFFF, 0x0, 0x0, false⟩,
  ⟨0x20C, 1, 0x0, 0x0, 0xFF, 0x0, 0x0, false⟩,
  ⟨0x210, 1, 0x0, 0x0, 0x1FFFFFF, 0x0, 0x0, false⟩,
  ⟨0x214, 1, 0x0, 0x0, 0x0, 0x0, 0x0, false⟩,
  ⟨0x300, 1, 0x0, 0x0, 0xFFFFFFFF, 0x0, 0x0, false⟩,
  ⟨0x304, 1, 0x0, 0x0, 0xFF, 0x0, 0x0, false⟩,
  ⟨0x308, 1, 0x0, 0x0, 0xFFFFFFFF, 0x0, 0x0, false⟩,
  ⟨0x30C, 1, 0x0, 0x0, 0x0, 0x0, 0x80000000, false⟩,
  ⟨0x310, 1, 0x0, 0x0, 0x80000000, 0x0, 0x0, false⟩,
  ⟨0x400, 1, 0x0, 0x88BA, 0xFFFF, 0x0, 0x0, false⟩,
  ⟨0x404, 1, 0x0, 0x0, 0x0, 0x0, 0x0, false⟩]

/-- The register map of HLT. -/
def rowsHLT : List RegRow := [
  ⟨0x100, 1, 0x0, 0x50000000, 0xF0000000, 0x0, 0x0, false⟩,
  ⟨0x104, 1, 0x0, 0x88B7, 0xFFFF, 0x0, 0x0, false⟩,
  ⟨0x108, 1, 0x0, 0x0, 0xFFFFFFFF, 0x0, 0x0, false⟩,
  ⟨0x10C, 1, 0x0, 0x0, 0xFFFF, 0x0, 0x0, false⟩,
  ⟨0x110, 1, 0x0, 0x0, 0x0, 0x0, 0x0, false⟩,
  ⟨0x114, 1, 0x0, 0x0, 0x0, 0x0, 0x0, false⟩,
  ⟨0x118, 1, 0x0, 0x0, 0x0, 0x0, 0x0, false⟩,
  ⟨0x11C, 1, 0x0, 0x7, 0x1F, 0x0, 0x0, false⟩,
  ⟨0x120, 1, 0x0, 0x0, 0x0, 0x0, 0x0, false⟩,
  ⟨0x124, 1, 0x0, 0x0, 0xFFFF, 0x0, 0x0, false⟩,
  ⟨0x200, 30, 0x4, 0x0, 0xFFFFFFFF, 0x0, 0x0, false⟩,
  ⟨0x1000, 64, 0x4, 0x0, 0x0, 0x0, 0x0, false⟩]

/-- The register map of TCU. -/
def rowsTCU : List RegRow := [
  ⟨0x100, 1, 0x0, 0x186A0, 0xFFFFFFFF, 0x0, 0x0, false⟩,
  ⟨0x200, 4, 0x40, 0x0, 0x800000F7, 0x0, 0x0, false⟩,
  ⟨0x204, 4, 0x40, 0x320400, 0xFFFFFF, 0x0, 0x0, false⟩,
  ⟨0x208, 4, 0x40, 0x0, 0x0, 0x0, 0x0, false⟩,
  ⟨0x20C, 4, 0x40, 0x0, 0x0, 0x0, 0x0, false⟩,
  ⟨0x210, 4, 0x40, 0x0, 0x0, 0x0, 0x0, false⟩,
  ⟨0x214, 4, 0x40, 0x2710, 0xFFFFFFFF, 0x0, 0x0, false⟩,
  ⟨0x218, 4, 0x40, 0x1F4, 0x1FF, 0x0, 0x0, false⟩,
  ⟨0x21C, 4, 0x40, 0x0, 0x0, 0x0, 0x0, false⟩,
  ⟨0x220, 4, 0x40, 0x0, 0x0, 0x0, 0x0, false⟩,
  ⟨0x224, 4, 0x40, 0x0, 0x0, 0x0, 0x0, false⟩,
  ⟨0x400, 8, 0x8, 0x0, 0x0, 0x0, 0x0, false⟩,
  ⟨0x404, 8, 0x8, 0x0, 0x0, 0x0, 0x0, false⟩]

/-- The register map of CUE. -/
def rowsCUE : List RegRow := [
  ⟨0x100, 1, 0x0, 0x0, 0x0, 0x0, 0x0, false⟩,
  ⟨0x104, 1, 0x0, 0x0, 0x80000FFF, 0x0, 0x0, false⟩,
  ⟨0x108, 1, 0x0, 0x0, 0xFFFFFFFF, 0x0, 0x0, false⟩,
  ⟨0x10C, 1, 0x0, 0x0, 0xFFFFFFFF, 0x0, 0x0, false⟩,
  ⟨0x110, 1, 0x0, 0x0, 0xFFFFFFFF, 0x0, 0x0, false⟩,
  ⟨0x114, 1, 0x0, 0x0, 0xFFFFFFFF, 0x0, 0x0, false⟩,
  ⟨0x120, 1, 0x0, 0x0, 0xFFFFFFFF, 0x0, 0x0, false⟩,
  ⟨0x124, 1, 0x0, 0x0, 0x300000FF, 0x0, 0x80000000, false⟩,
  ⟨0x128, 1, 0x0, 0x0, 0x0, 0x0, 0x0, false⟩,
  ⟨0x130, 1, 0x0, 0x0, 0x0, 0x0, 0x0, false⟩,
  ⟨0x134, 1, 0x0, 0x0, 0x0, 0x0, 0x0, false⟩,
  ⟨0x138, 1, 0x0, 0x0, 0x0, 0x0, 0x0, false⟩,
  ⟨0x13C, 1, 0x0, 0x0, 0x0, 0x0, 0x0, false⟩,
  ⟨0x140, 1, 0x0, 0x0, 0x0, 0x0, 0x0, false⟩]

/-- The register map of CEA. -/
def rowsCEA : List RegRow := [
  ⟨0x100, 1, 0x0, 0x0, 0x0, 0x0, 0x0, false⟩,
  ⟨0x104, 1, 0x0, 0x0, 0x0, 0x0, 0x0, false⟩,
  ⟨0x108, 1, 0x0, 0x0, 0x0, 0x0, 0x0, false⟩,
  ⟨0x10C, 1, 0x0, 0x0, 0x0, 0x0, 0x0, false⟩,
  ⟨0x110, 1, 0x0, 0x0, 0x0, 0x0, 0x0, false⟩,
  ⟨0x120, 1, 0x0, 0x0, 0x0, 0x0, 0x0, false⟩,
  ⟨0x124, 1, 0x0, 0x0, 0x0, 0x0, 0x0, false⟩,
  ⟨0x128, 1, 0x0, 0x88BB, 0xFFFF, 0x0, 0x0, false⟩,
  ⟨0x12C, 1, 0x0, 0x0, 0x0, 0x0, 0x0, false⟩,
  ⟨0x130, 1, 0x0, 0x0, 0x0, 0x0, 0x0, false⟩,
  ⟨0x5000, 256, 0x20, 0x0, 0xF7000FFF, 0x0, 0x0, false⟩,
  ⟨0x5004, 256, 0x20, 0x0, 0xFFFF07FF, 0x0, 0x0, false⟩,
  ⟨0x5008, 256, 0x20, 0x0, 0xFFFFFFFF, 0x0, 0x0, false⟩,
  ⟨0x500C, 256, 0x20, 0x0, 0xFFFF, 0x0, 0x0, false⟩,
  ⟨0x5010, 256, 0x20, 0x0, 0x1FFFF, 0x0, 0x0, false⟩,
  ⟨0x5014, 256, 0x20, 0x0, 0x0, 0x0, 0x0, false⟩,
  ⟨0x5018, 256, 0x20, 0x0, 0x0, 0x0, 0x0, false⟩,
  ⟨0x501C, 256, 0x20, 0x0, 0x0, 0x3, 0x0, false⟩,
  ⟨0x1000, 64, 0x20, 0x0, 0xBFFF0FFF, 0x0, 0x0, false⟩,
  ⟨0x1004, 64, 0x20, 0x0, 0x7FFFF, 0x0, 0x0, false⟩,
  ⟨0x1008, 64, 0x20, 0x0, 0xFFFFFF, 0x0, 0x0, false⟩,
  ⟨0x100C, 64, 0x20, 0x0, 0xFFF0FFF, 0x0, 0x0, false⟩,
  ⟨0x1010, 64, 0x20, 0x0, 0xFFF0FFF, 0x0, 0x0, false⟩,
  ⟨0x1014, 64, 0x20, 0x0, 0x0, 0x0, 0x0, false⟩,
  ⟨0x1018, 64, 0x20, 0x0, 0x0, 0x0, 0x0, false⟩,
  ⟨0x101C, 64, 0x20, 0x0, 0x0, 0x0, 0x0, false⟩,
  ⟨0x2000, 512, 0x10, 0x40000, 0xFFFC0000, 0x0, 0x0, false⟩,
  ⟨0x2004, 512, 0x10, 0x0, 0xFFFFFF, 0x0, 0x0, false⟩,
  ⟨0x2008, 512, 0x10, 0x0, 0x1FFFFFFF, 0x0, 0x0, false⟩,
  ⟨0x200C, 512, 0x10, 0x0, 0xFFFFFFFF, 0x0, 0x0, false⟩,
  ⟨0x4000, 512, 0x4, 0x1F000000, 0x0, 0x0, 0x0, false⟩,
  ⟨0x8000, 4096, 0x8, 0x0, 0xFFFFFFFF, 0x0, 0x0, false⟩,
  ⟨0x8004, 4096, 0x8, 0x0, 0xFFFFFFCF, 0x0, 0x0, false⟩]

/-- The register map of CE. -/
def rowsCE : List RegRow := [
  ⟨0x100, 1, 0x0, 0x0, 0x0, 0x0, 0x0, false⟩,
  ⟨0x104, 1, 0x0, 0x0, 0x0, 0x0, 0x0, false⟩,
  ⟨0x108, 1, 0x0, 0x0, 0x0, 0x0, 0x0, false⟩,
  ⟨0x10C, 1, 0x0, 0x0, 0x0, 0x0, 0x0, false⟩,
  ⟨0x110, 1, 0x0, 0x0, 0x0, 0x0, 0x0, false⟩,
  ⟨0x114, 1, 0x0, 0x0, 0x0, 0x0, 0x0, false⟩,
  ⟨0x118, 1, 0x0, 0x0, 0x0, 0x0, 0x0, false⟩]

/-- The register map of IMP. -/
def rowsIMP : List RegRow := [
  ⟨0x100, 1, 0x0, 0x0, 0x0, 0x0, 0x0, false⟩,
  ⟨0x104, 1, 0x0, 0x0, 0x0, 0x0, 0x0, false⟩,
  ⟨0x108, 1, 0x0, 0x0, 0x0, 0x0, 0x0, false⟩,
  ⟨0x10C, 1, 0x0, 0x0, 0x0, 0x0, 0x0, false⟩,
  ⟨0x110, 1, 0x0, 0x0, 0x0, 0x0, 0x0, false⟩,
  ⟨0x114, 1, 0x0, 0x0, 0x0, 0x0, 0x0, false⟩,
  ⟨0x118, 1, 0x0, 0x0, 0x0, 0x0, 0x0, false⟩,
  ⟨0x11C, 1, 0x0, 0x0, 0x0, 0x0, 0x0, false⟩]

/-- The register map of PGM. -/
def rowsPGM : List RegRow := [
  ⟨0x100, 1, 0x0, 0x0, 0x0, 0x0, 0x0, false⟩,
  ⟨0x104, 1, 0x0, 0x0, 0x0, 0x0, 0x0, false⟩,
  ⟨0x108, 1, 0x0, 0x0, 0x0, 0x0, 0x0, false⟩,
  ⟨0x1000, 512, 0x10, 0x0, 0x1FFFF, 0x0, 0x0, false⟩,
  ⟨0x1004, 512, 0x10, 0x0, 0x1FFFF, 0x0, 0x0, false⟩,
  ⟨0x1008, 512, 0x10, 0x0, 0x0, 0x0, 0x0, false⟩,
  ⟨0x100C, 512, 0x10, 0x0, 0x0, 0x0, 0x0, false⟩]

/-- The register map of FRC. -/
def rowsFRC : List RegRow := [
  ⟨0x100, 1, 0x0, 0x0, 0x7, 0x0, 0x0, false⟩,
  ⟨0x104, 1, 0x0, 0x0, 0xFFFF, 0x0, 0x0, false⟩,
  ⟨0x110, 1, 0x0, 0x0, 0x0, 0x0, 0x0, false⟩,
  ⟨0x114, 1, 0x0, 0x0, 0x0, 0x0, 0x0, false⟩,
  ⟨0x118, 1, 0x0, 0x0, 0x0, 0x0, 0x0, false⟩,
  ⟨0x200, 1, 0x0, 0x8, 0x13FFF, 0x0, 0xC0000000, false⟩,
  ⟨0x204, 1, 0x0, 0x0, 0x0, 0x0, 0x0, false⟩,
  ⟨0x208, 1, 0x0, 0x0, 0xFFFFFFFF, 0x0, 0x0, false⟩,
  ⟨0x20C, 1, 0x0, 0x0, 0xFFFFFF, 0x0, 0x0, false⟩,
  ⟨0x210, 1, 0x0, 0x0, 0xFFF, 0x0, 0x0, false⟩,
  ⟨0x214, 1, 0x0, 0x0, 0x0, 0x0, 0x0, false⟩,
  ⟨0x218, 1, 0x0, 0x0, 0x0, 0x0, 0x0, false⟩,
  ⟨0x300, 16, 0x10, 0x0, 0x800001FF, 0x0, 0x0, false⟩,
  ⟨0x304, 16, 0x10, 0x0, 0xFFFFFF, 0x0, 0x0, false⟩,
  ⟨0x308, 16, 0x10, 0x0, 0xFFFFFFFF, 0x0, 0x0, false⟩,
  ⟨0x8000, 1024, 0x20, 0x0, 0xFFFFFFFF, 0x0, 0x0, false⟩,
  ⟨0x8004, 1024, 0x20, 0x0, 0xFFFFFFFF, 0x0, 0x0, false⟩,
  ⟨0x8008, 1024, 0x20, 0x0, 0xFFFFFF, 0x0, 0x0, false⟩,
  ⟨0x800C, 1024, 0x20, 0x0, 0xF, 0x0, 0x0, false⟩,
  ⟨0x8010, 1024, 0x20, 0x0, 0xFFFFFFFF, 0x0, 0x0, false⟩,
  ⟨0x8014, 1024, 0x20, 0x0, 0xFFFFFFFF, 0x0, 0x0, false⟩,
  ⟨0x8018, 1024, 0x20, 0x0, 0x0, 0x0, 0x0, false⟩,
  ⟨0x801C, 1024, 0x20, 0x0, 0x0, 0x0, 0x0, false⟩]

/-- The register map of SWC. -/
def rowsSWC : List RegRow := [
  ⟨0x100, 1, 0x0, 0x5F2, 0x3FFF, 0x0, 0x0, false⟩,
  ⟨0x104, 1, 0x0, 0x7F, 0x7F, 0x0, 0x0, false⟩,
  ⟨0x108, 1, 0x0, 0x0, 0x0, 0x0, 0x0, false⟩,
  ⟨0x110, 1, 0x0, 0x0, 0xFFFF00FF, 0x0, 0x0, false⟩,
  ⟨0x114, 1, 0x0, 0x0, 0x0, 0x0, 0x0, false⟩,
  ⟨0x118, 1, 0x0, 0x0, 0x0, 0x0, 0x0, false⟩,
  ⟨0x11C, 1, 0x0, 0x0, 0x0, 0x0, 0x0, false⟩,
  ⟨0x200, 40, 0x10, 0x40000001, 0xFFF80FFF, 0x0, 0x0, false⟩,
  ⟨0x204, 40, 0x10, 0xFAC688, 0xFFFFFF, 0x0, 0x0, false⟩,
  ⟨0x208, 40, 0x10, 0x14C000, 0x1FFFF00, 0x0, 0x0, false⟩,
  ⟨0x500, 6, 0x4, 0x0, 0xFFFF, 0x0, 0x0, false⟩,
  ⟨0x520, 8, 0x4, 0x0, 0xFFFF, 0x0, 0x0, false⟩,
  ⟨0x540, 8, 0x4, 0x0, 0x0, 0x0, 0x0, false⟩]

/-- The register map of GRN. -/
def rowsGRN : List RegRow := [
  ⟨0x100, 1, 0x0, 0x800, 0xFFFF, 0x0, 0x0, false⟩,
  ⟨0x104, 1, 0x0, 0x400, 0xFFFF, 0x0, 0x0, false⟩,
  ⟨0x108, 1, 0x0, 0x800, 0x7FFF, 0x0, 0x0, false⟩,
  ⟨0x110, 1, 0x0, 0xE280, 0x0, 0x0, 0x0, false⟩,
  ⟨0x114, 1, 0x0, 0x8000, 0x0, 0x0, 0x0, false⟩,
  ⟨0x118, 1, 0x0, 0xE280, 0x0, 0x0, 0x0, false⟩,
  ⟨0x11C, 1, 0x0, 0x0, 0x0, 0x0, 0x0, false⟩,
  ⟨0x120, 1, 0x0, 0x0, 0x0, 0x0, 0x0, false⟩,
  ⟨0x124, 1, 0x0, 0x0, 0x0, 0x0, 0x0, false⟩,
  ⟨0x130, 1, 0x0, 0x0, 0x1FF, 0x0, 0x0, false⟩,
  ⟨0x134, 1, 0x0, 0x0, 0x0, 0x0, 0x0, false⟩,
  ⟨0x138, 1, 0x0, 0x0, 0x0, 0x0, 0x0, false⟩,
  ⟨0x200, 8, 0x4, 0x0, 0x30F0FFF, 0x0, 0x0, false⟩]

/-- The register map of LOFT. -/
def rowsLOFT : List RegRow := [
  ⟨0x100, 1, 0x0, 0x0, 0xFFFF0000, 0x0, 0x0, false⟩,
  ⟨0x104, 1, 0x0, 0x8, 0xFF, 0x0, 0x0, false⟩,
  ⟨0x108, 1, 0x0, 0x0, 0x1FFF, 0x0, 0x0, false⟩,
  ⟨0x10C, 1, 0x0, 0x100, 0x1FFF, 0x0, 0x0, false⟩,
  ⟨0x110, 1, 0x0, 0x14, 0xFF, 0x0, 0x0, false⟩,
  ⟨0x114, 1, 0x0, 0x14, 0x0, 0x0, 0x0, false⟩,
  ⟨0x118, 1, 0x0, 0x0, 0x0, 0x0, 0x0, false⟩,
  ⟨0x11C, 1, 0x0, 0x0, 0x0, 0x0, 0x0, false⟩,
  ⟨0x120, 1, 0x0, 0x0, 0x0, 0x0, 0x0, false⟩,
  ⟨0x124, 1, 0x0, 0x0, 0x0, 0x0, 0x0, false⟩]

/-- The register map of FDB. -/
def rowsFDB : List RegRow := [
  ⟨0x100, 1, 0x0, 0x0, 0xF0C03FFF, 0x0, 0x0, false⟩,
  ⟨0x104, 4, 0x4, 0x0, 0xFFFFFFFF, 0x0, 0x0, false⟩,
  ⟨0x120, 1, 0x0, 0x12C, 0xFFFF, 0x0, 0x0, false⟩,
  ⟨0x124, 1, 0x0, 0x0, 0x0, 0x0, 0x0, false⟩]

/-- The register map of STRM. -/
def rowsSTRM : List RegRow := [
  ⟨0x100, 1, 0x0, 0x0, 0xF0C03FFF, 0x0, 0x0, false⟩,
  ⟨0x104, 4, 0x4, 0x0, 0xFFFFFFFF, 0x0, 0x0, false⟩]

/-- The register map of ETH. -/
def rowsETH : List RegRow := [
  ⟨0x100, 1, 0x0, 0x0, 0x87030000, 0x0, 0x0, false⟩,
  ⟨0x104, 1, 0x0, 0x300000, 0xF8F00000, 0x0, 0x4000000, false⟩,
  ⟨0x108, 1, 0x0, 0x0, 0x0, 0x0, 0x0, false⟩,
  ⟨0x10C, 1, 0x0, 0x0, 0x870FFFFF, 0x0, 0x0, false⟩,
  ⟨0x110, 1, 0x0, 0xFF, 0x0, 0x0, 0x0, false⟩,
  ⟨0x114, 1, 0x0, 0x40, 0xFFFF, 0x0, 0x0, false⟩,
  ⟨0x120, 2, 0x4, 0x0, 0x80FFFFFF, 0x0, 0x0, false⟩,
  ⟨0x128, 2, 0x4, 0x0, 0x0, 0x0, 0x0, false⟩,
  ⟨0x130, 1, 0x0, 0x0, 0xC3FF00FF, 0x0, 0x0, false⟩,
  ⟨0x140, 1, 0x0, 0x0, 0x110FF, 0x0, 0x0, false⟩,
  ⟨0x144, 1, 0x0, 0x0, 0xFFFFFFFF, 0x0, 0x0, false⟩,
  ⟨0x148, 1, 0x0, 0x0, 0xFFFF, 0x0, 0x0, false⟩,
  ⟨0x150, 1, 0x0, 0x0, 0xC000FF00, 0x0, 0x0, false⟩,
  ⟨0x154, 1, 0x0, 0x0, 0xFFFFFF, 0x0, 0x0, false⟩,
  ⟨0x160, 1, 0x0, 0x0, 0x33FFFFFF, 0x0, 0x80000000, false⟩,
  ⟨0x170, 1, 0x0, 0x0, 0x1F, 0x0, 0x0, false⟩,
  ⟨0x174, 1, 0x0, 0x0, 0x0, 0x0, 0x0, false⟩,
  ⟨0x178, 1, 0x0, 0x0, 0x0, 0x0, 0x0, false⟩,
  ⟨0x17C, 1, 0x0, 0x0, 0x0, 0x0, 0x0, false⟩,
  ⟨0x800, 4, 0x20, 0xFD00, 0xC0FFFFFF, 0x0, 0x0, false⟩,
  ⟨0x804, 4, 0x20, 0x0, 0x0, 0x0, 0x0, false⟩,
  ⟨0x808, 4, 0x20, 0x3F000000, 0x0, 0x0, 0x0, false⟩]

/-- The register map of MSEC. -/
def rowsMSEC : List RegRow := [
  ⟨0x100, 1, 0x0, 0x0, 0xF0C03FFF, 0x0, 0x0, false⟩,
  ⟨0x104, 8, 0x4, 0x0, 0xFFFFFFFF, 0x0, 0x0, false⟩,
  ⟨0x180, 1, 0x0, 0x88F7888E, 0xFFFFFFFF, 0x0, 0x0, false⟩,
  ⟨0x200, 12, 0x4, 0x20000040, 0xF8FFFFFF, 0x0, 0x0, false⟩]

/-- The register map of CAN. -/
def rowsCAN : List RegRow := [
  ⟨0x100, 1, 0x0, 0x70000000, 0xFF130000, 0x0, 0x0, false⟩,
  ⟨0x104, 1, 0x0, 0x3E7E1F01, 0xFEFF7F1F, 0x0, 0x0, false⟩,
  ⟨0x108, 1, 0x0, 0x71E0701, 0xF3F0F1F, 0x0, 0x0, false⟩,
  ⟨0x10C, 1, 0x0, 0x30D0400, 0xF3F0F1F, 0x0, 0x0, false⟩,
  ⟨0x110, 1, 0x0, 0x80000040, 0x8000007F, 0x0, 0x0, false⟩,
  ⟨0x114, 1, 0x0, 0x0, 0x3F3F3F, 0x0, 0x0, false⟩,
  ⟨0x118, 1, 0x0, 0x0, 0x0, 0x0, 0x0, false⟩,
  ⟨0x11C, 1, 0x0, 0x0, 0x0, 0x0, 0x0, false⟩,
  ⟨0x120, 1, 0x0, 0x100, 0xFFFF, 0x0, 0x0, false⟩,
  ⟨0x124, 1, 0x0, 0x0, 0x0, 0x0, 0x0, false⟩,
  ⟨0x128, 4, 0x4, 0x0, 0x0, 0x0, 0x0, false⟩,
  ⟨0x140, 1, 0x0, 0x0, 0x1F, 0x0, 0x0, false⟩,
  ⟨0x144, 1, 0x0, 0x0, 0x0, 0x0, 0x0, false⟩,
  ⟨0x148, 1, 0x0, 0x0, 0x0, 0x0, 0x0, false⟩,
  ⟨0x14C, 1, 0x0, 0x0, 0x0, 0x0, 0x0, false⟩,
  ⟨0x1000, 128, 0x40, 0x0, 0xFFFFFFFF, 0x0, 0x0, false⟩,
  ⟨0x1004, 128, 0x40, 0x0, 0xFF0007FF, 0x0, 0x0, false⟩,
  ⟨0x1008, 128, 0x40, 0x0, 0x9FFFFFFF, 0x0, 0x0, false⟩,
  ⟨0x100C, 128, 0x40, 0x0, 0xFFFFFF01, 0x0, 0x0, false⟩,
  ⟨0x1010, 128, 0x40, 0x0, 0xFFFFFFFF, 0x0, 0x0, false⟩,
  ⟨0x1014, 128, 0x40, 0x0, 0xFFFF0FFF, 0x0, 0x0, false⟩,
  ⟨0x1018, 128, 0x40, 0x0, 0x0, 0x7F800000, 0x0, false⟩,
  ⟨0x101C, 128, 0x40, 0x0, 0x0, 0x0, 0x0, false⟩,
  ⟨0x1020, 128, 0x40, 0x0, 0x0, 0x0, 0x0, false⟩,
  ⟨0x1024, 128, 0x40, 0x0, 0xFFFFFFFF, 0x0, 0x0, false⟩,
  ⟨0x1028, 128, 0x40, 0x0, 0xFFFFFFFF, 0x0, 0x0, false⟩,
  ⟨0x102C, 128, 0x40, 0x0, 0x0, 0x0, 0x0, false⟩,
  ⟨0x1030, 128, 0x40, 0x0, 0x0, 0x0, 0x0, false⟩,
  ⟨0x1034, 128, 0x40, 0x0, 0x0, 0x0, 0x0, false⟩,
  ⟨0x1038, 128, 0x40, 0x0, 0x0, 0x0, 0x0, false⟩,
  ⟨0x103C, 128, 0x40, 0x0, 0x0, 0x0, 0x0, false⟩,
  ⟨0x8000, 8192, 0x4, 0x0, 0xFFFFFFFF, 0x0, 0x0, false⟩]

/-- The register map of LIN. -/
def rowsLIN : List RegRow := [
  ⟨0x100, 1, 0x0, 0x8D004B00, 0xDF00FFFF, 0x0, 0x0, false⟩,
  ⟨0x104, 1, 0x0, 0x0, 0x0, 0x0, 0x0, false⟩,
  ⟨0x108, 1, 0x0, 0x0, 0x0, 0x0, 0x0, false⟩,
  ⟨0x10C, 1, 0x0, 0x0, 0x0, 0x0, 0x0, false⟩,
  ⟨0x1000, 256, 0x4, 0x0, 0xFC3FF03F, 0x0, 0x0, false⟩,
  ⟨0x2000, 64, 0x4, 0x0, 0xFC3FF03F, 0x0, 0x0, false⟩,
  ⟨0x3000, 64, 0x10, 0x0, 0x0, 0xF8000000, 0x0, false⟩,
  ⟨0x3004, 64, 0x10, 0x0, 0xFFFFFFFF, 0x0, 0x0, false⟩,
  ⟨0x3008, 64, 0x10, 0x0, 0xFFFFFFFF, 0x0, 0x0, false⟩]

/-- The register map of NMU. -/
def rowsNMU : List RegRow := [
  ⟨0x100, 1, 0x0, 0x0, 0xFFFFFF, 0x0, 0x0, false⟩,
  ⟨0x104, 3, 0x4, 0x0, 0x0, 0x0, 0x0, false⟩,
  ⟨0x110, 1, 0x0, 0x5, 0x1F, 0x0, 0x0, false⟩,
  ⟨0x114, 1, 0x0, 0x258, 0xFFFF, 0x0, 0x0, false⟩,
  ⟨0x118, 1, 0x0, 0x0, 0x0, 0x3FE, 0x0, false⟩,
  ⟨0x11C, 1, 0x0, 0x0, 0x0, 0x0, 0x0, false⟩,
  ⟨0x120, 1, 0x0, 0x88B6, 0xFFFF, 0x0, 0x0, false⟩,
  ⟨0x124, 1, 0x0, 0x0, 0xFFFFFFFF, 0x0, 0x0, false⟩,
  ⟨0x128, 1, 0x0, 0x0, 0xFFFF, 0x0, 0x0, false⟩,
  ⟨0x140, 9, 0x8, 0x4000000A, 0xF00000FF, 0x0, 0x0, false⟩,
  ⟨0x144, 9, 0x8, 0x0, 0xFFFFFF, 0x0, 0x0, false⟩,
  ⟨0x1000, 24, 0x20, 0x100, 0xC03FFFFF, 0x0, 0x0, false⟩,
  ⟨0x1004, 24, 0x20, 0x10000, 0xFF77777F, 0x0, 0x0, false⟩,
  ⟨0x1008, 24, 0x20, 0x0, 0x3FFFFFFF, 0x0, 0x0, false⟩,
  ⟨0x100C, 24, 0x20, 0x0, 0x1FFFFFFF, 0x0, 0x0, false⟩,
  ⟨0x1010, 24, 0x20, 0x7D005DC, 0xFFFFFFFF, 0x0, 0x0, false⟩,
  ⟨0x1014, 24, 0x20, 0x5DC0FA0, 0xFFFFFFFF, 0x0, 0x0, false⟩,
  ⟨0x1018, 24, 0x20, 0x0, 0xFFFFFFFF, 0x0, 0x0, false⟩,
  ⟨0x101C, 24, 0x20, 0x0, 0xFFFFFFFF, 0x0, 0x0, false⟩,
  ⟨0x1400, 24, 0x8, 0x0, 0xFFFFFFFF, 0x0, 0x0, false⟩,
  ⟨0x1404, 24, 0x8, 0x0, 0xFFFFFFFF, 0x0, 0x0, false⟩,
  ⟨0x2000, 12, 0x20, 0x0, 0xBFFFFFFF, 0x0, 0x0, false⟩,
  ⟨0x2004, 12, 0x20, 0x0, 0x1FFFFFFF, 0x0, 0x0, false⟩,
  ⟨0x2008, 12, 0x20, 0x40002000, 0xC000FF0F, 0x0, 0x0, false⟩,
  ⟨0x200C, 12, 0x20, 0x0, 0xFFFFFFFF, 0x0, 0x0, false⟩,
  ⟨0x2010, 12, 0x20, 0x0, 0xFFFFFFFF, 0x0, 0x0, false⟩,
  ⟨0x3000, 1, 0x0, 0x0, 0x0, 0x80000000, 0x0, false⟩,
  ⟨0x3004, 1, 0x0, 0x0, 0x0, 0x0, 0x0, false⟩,
  ⟨0x3008, 1, 0x0, 0x0, 0x0, 0x0, 0x0, false⟩,
  ⟨0x300C, 1, 0x0, 0x0, 0x0, 0x0, 0x0, false⟩,
  ⟨0x3010, 1, 0x0, 0x0, 0x0, 0x0, 0x0, false⟩,
  ⟨0x3014, 1, 0x0, 0x0, 0x0, 0x0, 0x0, false⟩,
  ⟨0x3018, 1, 0x0, 0x0, 0x0, 0x0, 0x0, false⟩,
  ⟨0x301C, 1, 0x0, 0x0, 0x0, 0x0, 0x0, false⟩,
  ⟨0x3020, 1, 0x0, 0x0, 0x0, 0x0, 0x0, false⟩,
  ⟨0x3024, 1, 0x0, 0x0, 0x0, 0x0, 0x0, false⟩,
  ⟨0x3028, 1, 0x0, 0x0, 0x0, 0x0, 0x0, false⟩,
  ⟨0x302C, 1, 0x0, 0x0, 0x0, 0x0, 0x0, false⟩,
  ⟨0x3030, 1, 0x0, 0x0, 0x0, 0x0, 0x0, false⟩,
  ⟨0x3034, 1, 0x0, 0x0, 0x0, 0x0, 0x0, false⟩]
  ++ [
  ⟨0x3038, 1, 0x0, 0x0, 0x0, 0x0, 0x0, false⟩,
  ⟨0x303C, 1, 0x0, 0x0, 0x0, 0x0, 0x0, false⟩,
  ⟨0x3040, 1, 0x0, 0x0, 0x0, 0x0, 0x0, false⟩,
  ⟨0x3044, 1, 0x0, 0x0, 0x0, 0x0, 0x0, false⟩,
  ⟨0x3048, 1, 0x0, 0x0, 0x0, 0x0, 0x0, false⟩,
  ⟨0x304C, 1, 0x0, 0x0, 0x0, 0x0, 0x0, false⟩]

/-- The register map of RIO. -/
def rowsRIO : List RegRow := [
  ⟨0x100, 1, 0x0, 0x88B5, 0xFFFF, 0x0, 0x0, false⟩,
  ⟨0x104, 1, 0x0, 0x0, 0xFFFFFFFF, 0x0, 0x0, false⟩,
  ⟨0x108, 1, 0x0, 0x0, 0xFFFF, 0x0, 0x0, false⟩,
  ⟨0x10C, 1, 0x0, 0x0, 0x0, 0x0, 0x0, false⟩,
  ⟨0x110, 8, 0x4, 0x0, 0x0, 0x0, 0x0, false⟩,
  ⟨0x130, 1, 0x0, 0x0, 0x0, 0x0, 0x0, false⟩,
  ⟨0x140, 1, 0x0, 0x0, 0xFF001F, 0x0, 0x0, false⟩,
  ⟨0x144, 1, 0x0, 0x0, 0x0, 0x0, 0x0, false⟩,
  ⟨0x148, 1, 0x0, 0x0, 0x0, 0x0, 0x0, false⟩,
  ⟨0x14C, 1, 0x0, 0x0, 0x0, 0x0, 0x0, false⟩,
  ⟨0x1000, 256, 0x20, 0x300, 0xF83F0FFF, 0x0, 0x0, false⟩,
  ⟨0x1004, 256, 0x20, 0x0, 0x7FF07FF, 0x0, 0x0, false⟩,
  ⟨0x1008, 256, 0x20, 0x0, 0xFFFFFFFF, 0x0, 0x0, false⟩,
  ⟨0x100C, 256, 0x20, 0x0, 0xFFFFFFFF, 0x0, 0x0, false⟩,
  ⟨0x1010, 256, 0x20, 0x0, 0xF7F7F00, 0x0, 0x0, false⟩,
  ⟨0x1014, 256, 0x20, 0x0, 0x0, 0x0, 0x0, false⟩,
  ⟨0x1018, 256, 0x20, 0x0, 0x0, 0x0, 0x0, false⟩,
  ⟨0x101C, 256, 0x20, 0x0, 0x0, 0x0, 0x0, false⟩,
  ⟨0x4000, 256, 0x10, 0x0, 0x0, 0x0, 0x0, false⟩,
  ⟨0x4004, 256, 0x10, 0x0, 0x0, 0x0, 0x0, false⟩,
  ⟨0x4008, 256, 0x10, 0x0, 0x0, 0x0, 0x0, false⟩,
  ⟨0x400C, 256, 0x10, 0x0, 0x0, 0x0, 0x0, false⟩]

/-- The register map of TUN. -/
def rowsTUN : List RegRow := [
  ⟨0x100, 1, 0x0, 0x0, 0xFFFFFFFF, 0x0, 0x0, false⟩,
  ⟨0x104, 1, 0x0, 0x0, 0xFFFF, 0x0, 0x0, false⟩,
  ⟨0x108, 1, 0x0, 0x0, 0x0, 0x0, 0x0, false⟩,
  ⟨0x110, 1, 0x0, 0x0, 0xFF000F, 0x0, 0x0, false⟩,
  ⟨0x114, 1, 0x0, 0x0, 0x0, 0x0, 0x0, false⟩,
  ⟨0x118, 1, 0x0, 0x0, 0x0, 0x0, 0x0, false⟩,
  ⟨0x11C, 1, 0x0, 0x0, 0x0, 0x0, 0x0, false⟩,
  ⟨0x1000, 256, 0x20, 0x0, 0xF00F1F00, 0x0, 0x0, false⟩,
  ⟨0x1004, 256, 0x20, 0x0, 0xBFFFFFFF, 0x0, 0x0, false⟩,
  ⟨0x1008, 256, 0x20, 0x0, 0x1FFFFFFF, 0x0, 0x0, false⟩,
  ⟨0x100C, 256, 0x20, 0x0, 0xFFFFFFFF, 0x0, 0x0, false⟩,
  ⟨0x1010, 256, 0x20, 0x0, 0xFFFFFFFF, 0x0, 0x0, false⟩,
  ⟨0x1014, 256, 0x20, 0x0, 0xFFFFFFFF, 0x0, 0x0, false⟩,
  ⟨0x1018, 256, 0x20, 0x0, 0xFFFFFFFF, 0x0, 0x0, false⟩,
  ⟨0x101C, 256, 0x20, 0x0, 0xFFFFFFFF, 0x0, 0x0, false⟩]

/-- The register map of SPN. -/
def rowsSPN : List RegRow := [
  ⟨0x100, 1, 0x0, 0x404000A, 0x870703FF, 0x0, 0x0, false⟩,
  ⟨0x104, 1, 0x0, 0x0, 0x0, 0x0, 0x0, false⟩,
  ⟨0x108, 1, 0x0, 0x0, 0x0, 0x0, 0x0, false⟩,
  ⟨0x110, 3, 0x4, 0x0, 0x13F, 0x0, 0x0, false⟩,
  ⟨0x120, 1, 0x0, 0x0, 0x0, 0x0, 0x0, false⟩,
  ⟨0x124, 1, 0x0, 0x0, 0xFFFF, 0x0, 0x0, false⟩,
  ⟨0x128, 1, 0x0, 0x0, 0x0, 0x0, 0x0, false⟩,
  ⟨0x12C, 1, 0x0, 0x0, 0x0, 0x0, 0x0, false⟩,
  ⟨0x180, 16, 0x4, 0x0, 0x0, 0x0, 0x0, false⟩,
  ⟨0x1000, 16, 0x10, 0x0, 0xFC3F0007, 0x0, 0x0, false⟩,
  ⟨0x1004, 16, 0x10, 0x0, 0xFFFFF000, 0x0, 0x0, false⟩,
  ⟨0x1008, 16, 0x10, 0x0, 0xFFFFF000, 0x0, 0x0, false⟩,
  ⟨0x100C, 16, 0x10, 0x0, 0xFFFFFFFF, 0x0, 0x0, false⟩,
  ⟨0x1200, 16, 0x10, 0x0, 0xF33F03FF, 0x0, 0x0, false⟩,
  ⟨0x1204, 16, 0x10, 0x0, 0xFFFFF000, 0x0, 0x0, false⟩,
  ⟨0x1208, 16, 0x10, 0x0, 0xFFFFFFFF, 0x0, 0x0, false⟩,
  ⟨0x120C, 16, 0x10, 0x0, 0xFFFFFFF, 0x0, 0x0, false⟩,
  ⟨0x1400, 32, 0x4, 0x0, 0x800007FF, 0x0, 0x0, false⟩,
  ⟨0x2000, 256, 0x4, 0x0, 0x3FF07FF, 0x0, 0x0, false⟩,
  ⟨0x3000, 32, 0x10, 0x0, 0x0, 0x0, 0x0, false⟩,
  ⟨0x3004, 32, 0x10, 0x0, 0x0, 0x0, 0x0, false⟩,
  ⟨0x3008, 32, 0x10, 0x0, 0x0, 0x0, 0x0, false⟩,
  ⟨0x300C, 32, 0x10, 0x0, 0x0, 0x0, 0x0, false⟩]

/-- The register map of TWN. -/
def rowsTWN : List RegRow := [
  ⟨0x100, 1, 0x0, 0x31432, 0xC0FFFFFF, 0x0, 0x0, false⟩,
  ⟨0x104, 1, 0x0, 0x32000A, 0xFFFFFFFF, 0x0, 0x0, false⟩,
  ⟨0x108, 2, 0x4, 0x0, 0xFFFFFFFF, 0x0, 0x0, false⟩,
  ⟨0x110, 1, 0x0, 0x0, 0x0, 0x0, 0x0, false⟩,
  ⟨0x114, 1, 0x0, 0x0, 0x0, 0x0, 0x0, false⟩,
  ⟨0x118, 1, 0x0, 0x0, 0x0, 0x0, 0x0, false⟩,
  ⟨0x11C, 1, 0x0, 0x0, 0x0, 0x0, 0x0, false⟩,
  ⟨0x120, 1, 0x0, 0x0, 0x0, 0x0, 0x0, false⟩,
  ⟨0x124, 1, 0x0, 0x0, 0xFFFFFFFF, 0x0, 0x0, false⟩,
  ⟨0x128, 1, 0x0, 0x0, 0xFFFF, 0x0, 0x0, false⟩,
  ⟨0x12C, 1, 0x0, 0x88B8, 0xFFFF, 0x0, 0x0, false⟩,
  ⟨0x130, 1, 0x0, 0x0, 0x0, 0x0, 0x0, false⟩,
  ⟨0x140, 1, 0x0, 0x0, 0x0, 0x0, 0x0, false⟩,
  ⟨0x144, 1, 0x0, 0x0, 0x0, 0x0, 0x0, false⟩,
  ⟨0x148, 1, 0x0, 0x0, 0x0, 0x0, 0x0, false⟩,
  ⟨0x14C, 1, 0x0, 0x0, 0x0, 0x0, 0x0, false⟩,
  ⟨0x150, 1, 0x0, 0x0, 0x0, 0x0, 0x0, false⟩,
  ⟨0x200, 8, 0x4, 0x0, 0xFFFFFFFF, 0x0, 0x0, false⟩]

/-- The register map of PSS. -/
def rowsPSS : List RegRow := [
  ⟨0x100, 1, 0x0, 0x19000A, 0xFF00FF, 0x0, 0x0, true⟩,
  ⟨0x104, 1, 0x0, 0x0, 0x0, 0x0, 0x0, false⟩,
  ⟨0x108, 1, 0x0, 0x0, 0x0, 0x0, 0x0, false⟩,
  ⟨0x10C, 1, 0x0, 0x0, 0x0, 0x0, 0x0, false⟩,
  ⟨0x110, 1, 0x0, 0x0, 0x0, 0x0, 0x0, false⟩,
  ⟨0x114, 1, 0x0, 0x0, 0x0, 0x0, 0x0, false⟩,
  ⟨0x118, 1, 0x0, 0x0, 0x0, 0x0, 0x0, false⟩,
  ⟨0x11C, 1, 0x0, 0x0, 0x0, 0x0, 0x0, false⟩,
  ⟨0x120, 1, 0x0, 0x0, 0x0, 0x0, 0x0, false⟩,
  ⟨0x140, 4, 0x4, 0x0, 0xFFFFFFFF, 0x0, 0x0, true⟩,
  ⟨0x150, 1, 0x0, 0x0, 0x0000FFFF, 0x0, 0x0, true⟩,
  ⟨0x200, 1, 0x0, 0x0, 0x0, 0x0, 0x0, false⟩,
  ⟨0x204, 3, 0x4, 0x0, 0x0, 0x0, 0x0, false⟩,
  ⟨0x400, 72, 0x4, 0x0, 0xC0003FFF, 0x0, 0x0, false⟩,
  ⟨0x600, 18, 0x4, 0x0, 0xFFFFFFFF, 0x0, 0x0, false⟩,
  ⟨0x680, 1, 0x0, 0x0, 0x0, 0x0, 0x0, false⟩,
  ⟨0x684, 1, 0x0, 0x0, 0x0, 0x0, 0x0, false⟩,
  ⟨0x700, 18, 0x4, 0x0, 0x0, 0x0, 0x0, false⟩]

/-- The register map of PCH. -/
def rowsPCH : List RegRow := [
  ⟨0x100, 8, 0x40, 0x0, 0xFC00FF0F, 0x0, 0x0, false⟩,
  ⟨0x104, 8, 0x40, 0x0, 0xFFFFFF00, 0x0, 0x0, false⟩,
  ⟨0x108, 8, 0x40, 0x0, 0xFFFF03FF, 0x0, 0x0, false⟩,
  ⟨0x10C, 8, 0x40, 0x10100, 0xC0FFFFFF, 0x0, 0x0, false⟩,
  ⟨0x110, 8, 0x40, 0x0, 0xC000FFFF, 0x0, 0x0, false⟩,
  ⟨0x114, 8, 0x40, 0x0, 0xC0003FFF, 0x0, 0x0, false⟩,
  ⟨0x118, 8, 0x40, 0x0, 0x0, 0x0, 0x0, false⟩,
  ⟨0x11C, 8, 0x40, 0x0, 0x0, 0x0, 0x0, false⟩,
  ⟨0x120, 8, 0x40, 0x0, 0x0, 0x0, 0x0, false⟩,
  ⟨0x124, 8, 0x40, 0x0, 0x0, 0x0, 0x0, false⟩]

/-- The register map of LPM. -/
def rowsLPM : List RegRow := [
  ⟨0x100, 4, 0x4, 0x7800, 0xBF00FF00, 0x0, 0x0, false⟩,
  ⟨0x110, 4, 0x4, 0x0, 0x0, 0x0, 0x0, false⟩,
  ⟨0x120, 1, 0x0, 0x0, 0x0, 0x0, 0x0, false⟩,
  ⟨0x124, 1, 0x0, 0x0, 0x0, 0x0, 0x0, false⟩,
  ⟨0x128, 1, 0x0, 0x0, 0x0, 0x0, 0x0, false⟩,
  ⟨0x130, 1, 0x0, 0x1800, 0xFF00, 0x0, 0x0, false⟩,
  ⟨0x134, 1, 0x0, 0x0, 0x0, 0x0, 0x0, false⟩,
  ⟨0x138, 1, 0x0, 0x0, 0x0, 0x0, 0x0, false⟩,
  ⟨0x140, 1, 0x0, 0x1E, 0xFF, 0x0, 0x0, false⟩,
  ⟨0x150, 1, 0x0, 0xFF, 0x0, 0x0, 0x0, false⟩,
  ⟨0x1000, 8, 0x80, 0x0, 0xFF0001FF, 0x0, 0x0, false⟩,
  ⟨0x1004, 8, 0x80, 0x0, 0xFFFFFFFF, 0x0, 0x0, false⟩,
  ⟨0x1008, 8, 0x80, 0x0, 0xFFFFFFFF, 0x0, 0x0, false⟩,
  ⟨0x100C, 8, 0x80, 0x0, 0xFFFFFFFF, 0x0, 0x0, false⟩,
  ⟨0x1010, 8, 0x80, 0x0, 0xFFFFFFFF, 0x0, 0x0, false⟩,
  ⟨0x1014, 8, 0x80, 0x0, 0xFFFFFFFF, 0x0, 0x0, false⟩,
  ⟨0x1018, 8, 0x80, 0x0, 0xFFFFFFFF, 0x0, 0x0, false⟩,
  ⟨0x101C, 8, 0x80, 0x0, 0xFFFFFFFF, 0x0, 0x0, false⟩,
  ⟨0x1020, 8, 0x80, 0x0, 0xFFFFFFFF, 0x0, 0x0, false⟩,
  ⟨0x1024, 8, 0x80, 0x0, 0xFFFFFFFF, 0x0, 0x0, false⟩,
  ⟨0x1028, 8, 0x80, 0x0, 0xFFFFFFFF, 0x0, 0x0, false⟩,
  ⟨0x102C, 8, 0x80, 0x0, 0xFFFFFFFF, 0x0, 0x0, false⟩,
  ⟨0x1030, 8, 0x80, 0x0, 0xFFFFFFFF, 0x0, 0x0, false⟩,
  ⟨0x1034, 8, 0x80, 0x0, 0xFFFFFFFF, 0x0, 0x0, false⟩,
  ⟨0x1038, 8, 0x80, 0x0, 0xFFFFFFFF, 0x0, 0x0, false⟩,
  ⟨0x103C, 8, 0x80, 0x0, 0xFFFFFFFF, 0x0, 0x0, false⟩,
  ⟨0x1040, 8, 0x80, 0x0, 0xFFFFFFFF, 0x0, 0x0, false⟩,
  ⟨0x1044, 8, 0x80, 0x0, 0xFFFFFFFF, 0x0, 0x0, false⟩,
  ⟨0x1048, 8, 0x80, 0x0, 0x0, 0x0, 0x0, false⟩,
  ⟨0x104C, 8, 0x80, 0x0, 0x0, 0x0, 0x0, false⟩,
  ⟨0x1050, 8, 0x80, 0x0, 0x0, 0x0, 0x0, false⟩,
  ⟨0x1054, 8, 0x80, 0x0, 0x0, 0x0, 0x0, false⟩,
  ⟨0x1058, 8, 0x80, 0x0, 0x0, 0x0, 0x0, false⟩,
  ⟨0x105C, 8, 0x80, 0x0, 0x0, 0x0, 0x0, false⟩,
  ⟨0x1060, 8, 0x80, 0x0, 0x0, 0x0, 0x0, false⟩,
  ⟨0x1064, 8, 0x80, 0x0, 0x0, 0x0, 0x0, false⟩,
  ⟨0x1068, 8, 0x80, 0x0, 0x0, 0x0, 0x0, false⟩,
  ⟨0x106C, 8, 0x80, 0x0, 0x0, 0x0, 0x0, false⟩,
  ⟨0x1070, 8, 0x80, 0x0, 0x0, 0x0, 0x0, false⟩,
  ⟨0x1074, 8, 0x80, 0x0, 0x0, 0x0, 0x0, false⟩]
  ++ [
  ⟨0x1078, 8, 0x80, 0x0, 0x0, 0x0, 0x0, false⟩,
  ⟨0x107C, 8, 0x80, 0x0, 0x0, 0x0, 0x0, false⟩]

/-- The register map of AIN. -/
def rowsAIN : List RegRow := [
  ⟨0x100, 48, 0x4, 0x800, 0xF0000FFF, 0x0, 0x0, false⟩,
  ⟨0x200, 16, 0x8, 0x0, 0xFFFFFFFF, 0x0, 0x0, false⟩,
  ⟨0x204, 16, 0x8, 0x0, 0x8000FFFF, 0x0, 0x0, false⟩,
  ⟨0x300, 16, 0x4, 0x0, 0xFFF00FF, 0x0, 0x0, false⟩,
  ⟨0x340, 1, 0x0, 0x0, 0x0, 0x0, 0x0, false⟩,
  ⟨0x344, 1, 0x0, 0x0, 0x0, 0x0, 0x0, false⟩,
  ⟨0x348, 1, 0x0, 0x0, 0x0, 0x0, 0x0, false⟩,
  ⟨0x1000, 16, 0x80, 0x0, 0x0, 0x0, 0x0, false⟩,
  ⟨0x1004, 16, 0x80, 0x0, 0x0, 0x0, 0x0, false⟩,
  ⟨0x1008, 16, 0x80, 0x0, 0x0, 0x0, 0x0, false⟩,
  ⟨0x100C, 16, 0x80, 0x0, 0x0, 0x0, 0x0, false⟩,
  ⟨0x1010, 16, 0x80, 0x0, 0x0, 0x0, 0x0, false⟩,
  ⟨0x1014, 16, 0x80, 0x0, 0x0, 0x0, 0x0, false⟩,
  ⟨0x1018, 16, 0x80, 0x0, 0x0, 0x0, 0x0, false⟩,
  ⟨0x101C, 16, 0x80, 0x0, 0x0, 0x0, 0x0, false⟩,
  ⟨0x1020, 16, 0x80, 0x0, 0x0, 0x0, 0x0, false⟩,
  ⟨0x1024, 16, 0x80, 0x0, 0x0, 0x0, 0x0, false⟩,
  ⟨0x1028, 16, 0x80, 0x0, 0x0, 0x0, 0x0, false⟩,
  ⟨0x102C, 16, 0x80, 0x0, 0x0, 0x0, 0x0, false⟩,
  ⟨0x1030, 16, 0x80, 0x0, 0x0, 0x0, 0x0, false⟩,
  ⟨0x1034, 16, 0x80, 0x0, 0x0, 0x0, 0x0, false⟩,
  ⟨0x1038, 16, 0x80, 0x0, 0x0, 0x0, 0x0, false⟩,
  ⟨0x103C, 16, 0x80, 0x0, 0x0, 0x0, 0x0, false⟩,
  ⟨0x1040, 16, 0x80, 0x0, 0x0, 0x0, 0x0, false⟩,
  ⟨0x1044, 16, 0x80, 0x0, 0x0, 0x0, 0x0, false⟩,
  ⟨0x1048, 16, 0x80, 0x0, 0x0, 0x0, 0x0, false⟩,
  ⟨0x104C, 16, 0x80, 0x0, 0x0, 0x0, 0x0, false⟩,
  ⟨0x1050, 16, 0x80, 0x0, 0x0, 0x0, 0x0, false⟩,
  ⟨0x1054, 16, 0x80, 0x0, 0x0, 0x0, 0x0, false⟩,
  ⟨0x1058, 16, 0x80, 0x0, 0x0, 0x0, 0x0, false⟩,
  ⟨0x105C, 16, 0x80, 0x0, 0x0, 0x0, 0x0, false⟩,
  ⟨0x1060, 16, 0x80, 0x0, 0x0, 0x0, 0x0, false⟩,
  ⟨0x1064, 16, 0x80, 0x0, 0x0, 0x0, 0x0, false⟩,
  ⟨0x1068, 16, 0x80, 0x0, 0x0, 0x0, 0x0, false⟩,
  ⟨0x106C, 16, 0x80, 0x0, 0x0, 0x0, 0x0, false⟩,
  ⟨0x1070, 16, 0x80, 0x0, 0x0, 0x0, 0x0, false⟩,
  ⟨0x1074, 16, 0x80, 0x0, 0x0, 0x0, 0x0, false⟩,
  ⟨0x1078, 16, 0x80, 0x0, 0x0, 0x0, 0x0, false⟩,
  ⟨0x107C, 16, 0x80, 0x0, 0x0, 0x0, 0x0, false⟩]

/-- The register map of RVE. -/
def rowsRVE : List RegRow := [
  ⟨0x100, 1, 0x0, 0xA500100, 0xFF7FFFFF, 0x0, 0x0, false⟩,
  ⟨0x104, 1, 0x0, 0x100, 0x3FF, 0x0, 0x0, false⟩,
  ⟨0x108, 1, 0x0, 0x10, 0xFF, 0x0, 0x0, false⟩,
  ⟨0x10C, 1, 0x0, 0x4, 0xFF, 0x0, 0x0, false⟩,
  ⟨0x110, 1, 0x0, 0x0, 0x0, 0x0, 0x0, false⟩,
  ⟨0x114, 1, 0x0, 0x0, 0x0, 0x0, 0x0, false⟩,
  ⟨0x120, 1, 0x0, 0x0, 0x0, 0x0, 0x0, false⟩,
  ⟨0x140, 16, 0x4, 0x2000000, 0x3FF0000, 0x0, 0x0, false⟩,
  ⟨0x1000, 64, 0x10, 0x0, 0xB30F0000, 0x0, 0x0, false⟩,
  ⟨0x1004, 64, 0x10, 0x0, 0x3FFFF, 0x0, 0x0, false⟩,
  ⟨0x1008, 64, 0x10, 0x0, 0x7FFFF, 0x0, 0x0, false⟩,
  ⟨0x100C, 64, 0x10, 0x0, 0x0, 0x0, 0x0, false⟩,
  ⟨0x2000, 256, 0x10, 0x0, 0x0, 0x0, 0x0, false⟩,
  ⟨0x2004, 256, 0x10, 0x0, 0x0, 0x0, 0x0, false⟩,
  ⟨0x2008, 256, 0x10, 0x0, 0x0, 0x0, 0x0, false⟩,
  ⟨0x200C, 256, 0x10, 0x0, 0x0, 0x0, 0x0, false⟩]

/-- The register map of XLT. -/
def rowsXLT : List RegRow := [
  ⟨0x100, 1, 0x0, 0x0, 0xFFFF8000, 0x0, 0x0, true⟩,
  ⟨0x104, 1, 0x0, 0x0, 0xFF, 0x0, 0x0, true⟩,
  ⟨0x110, 1, 0x0, 0x0, 0x33FF0000, 0x0, 0x80000000, false⟩,
  ⟨0x114, 1, 0x0, 0x0, 0xFFFFF000, 0x0, 0x0, false⟩,
  ⟨0x118, 1, 0x0, 0x0, 0xFFFF, 0x0, 0x0, false⟩,
  ⟨0x120, 1, 0x0, 0x0, 0x0, 0x0, 0x0, false⟩,
  ⟨0x124, 1, 0x0, 0x0, 0x0, 0x0, 0x0, false⟩]

/-- The register map of DMA. -/
def rowsDMA : List RegRow := [
  ⟨0x100, 1, 0x0, 0x0, 0x0, 0x0, 0x0, false⟩,
  ⟨0x104, 1, 0x0, 0x0, 0x0, 0x0, 0x0, false⟩,
  ⟨0x1000, 32, 0x40, 0x1000000, 0xFF3007FF, 0x0, 0x0, false⟩,
  ⟨0x1004, 32, 0x40, 0x0, 0x3FFFFFF, 0x0, 0x0, false⟩,
  ⟨0x1008, 32, 0x40, 0x0, 0x0, 0x0, 0x0, false⟩,
  ⟨0x100C, 32, 0x40, 0x0, 0x0, 0x0, 0x0, false⟩,
  ⟨0x1010, 32, 0x40, 0x0, 0xFFFFFFE0, 0x0, 0x0, false⟩,
  ⟨0x1014, 32, 0x40, 0x0, 0xFFFF, 0x0, 0x0, false⟩,
  ⟨0x1018, 32, 0x40, 0x0, 0x0, 0x0, 0x0, false⟩,
  ⟨0x101C, 32, 0x40, 0x0, 0x0, 0x0, 0x0, false⟩,
  ⟨0x1020, 32, 0x40, 0x0, 0x0, 0x0, 0x0, false⟩,
  ⟨0x1024, 32, 0x40, 0x0, 0x0, 0x0, 0x0, false⟩,
  ⟨0x1028, 32, 0x40, 0x0, 0x0, 0x0, 0x0, false⟩,
  ⟨0x102C, 32, 0x40, 0x0, 0x0, 0x0, 0x0, false⟩,
  ⟨0x1030, 32, 0x40, 0x0, 0x0, 0x0, 0x0, false⟩,
  ⟨0x1034, 32, 0x40, 0x0, 0x0, 0x0, 0x0, false⟩]

/-- The register map of MEMC. -/
def rowsMEMC : List RegRow := [
  ⟨0x100, 1, 0x0, 0x0, 0x0, 0x0, 0x0, false⟩,
  ⟨0x104, 1, 0x0, 0x0, 0x0, 0x0, 0x0, false⟩,
  ⟨0x108, 1, 0x0, 0x0, 0x0, 0x0, 0x0, false⟩,
  ⟨0x10C, 1, 0x0, 0x0, 0x0, 0x0, 0x0, false⟩,
  ⟨0x110, 1, 0x0, 0x0, 0x0, 0x0, 0x0, false⟩,
  ⟨0x114, 1, 0x0, 0x0, 0x0, 0x0, 0x0, false⟩,
  ⟨0x118, 1, 0x0, 0x0, 0x0, 0x0, 0x0, false⟩,
  ⟨0x120, 1, 0x0, 0x18, 0xFF, 0x0, 0x0, false⟩,
  ⟨0x124, 1, 0x0, 0x0, 0x0, 0x0, 0x0, false⟩,
  ⟨0x128, 1, 0x0, 0x0, 0x3, 0x0, 0x0, true⟩,
  ⟨0x12C, 1, 0x0, 0x1, 0x0, 0x0, 0x0, false⟩,
  ⟨0x130, 1, 0x0, 0x0, 0x0, 0x0, 0x0, false⟩]

/-- The register map of WGT. -/
def rowsWGT : List RegRow := [
  ⟨0x100, 1, 0x0, 0x2, 0xF, 0x0, 0x0, true⟩,
  ⟨0x104, 1, 0x0, 0x64, 0x3FFF, 0x0, 0x0, false⟩,
  ⟨0x108, 1, 0x0, 0x0, 0xFFFFFF, 0x0, 0x0, false⟩,
  ⟨0x10C, 1, 0x0, 0x0, 0x0, 0x0, 0x0, false⟩,
  ⟨0x110, 1, 0x0, 0x0, 0x0, 0x0, 0x0, false⟩,
  ⟨0x114, 1, 0x0, 0x0, 0x0, 0x0, 0x0, false⟩,
  ⟨0x118, 1, 0x0, 0x0, 0x0, 0x0, 0x0, false⟩,
  ⟨0x180, 32, 0x4, 0x0, 0xFFFFFFFF, 0x0, 0x0, false⟩,
  ⟨0x200, 32, 0x4, 0x0, 0x0, 0x0, 0x0, false⟩,
  ⟨0x400, 64, 0x4, 0xFFFFFFFF, 0xFFFFFFFF, 0x0, 0x0, true⟩,
  ⟨0x1000, 1024, 0x4, 0x0, 0x800003FF, 0x0, 0x0, true⟩,
  ⟨0x2000, 64, 0x10, 0x0, 0xF800FF00, 0x0, 0x0, true⟩,
  ⟨0x2004, 64, 0x10, 0x0, 0xFFFFFF, 0x0, 0x0, true⟩,
  ⟨0x2008, 64, 0x10, 0x0, 0x7FFFF, 0x0, 0x0, true⟩,
  ⟨0x200C, 64, 0x10, 0x0, 0x3FF, 0x0, 0x0, true⟩,
  ⟨0x3000, 16, 0x8, 0x0, 0x0, 0x0, 0x0, false⟩,
  ⟨0x3004, 16, 0x8, 0x0, 0x0, 0x0, 0x0, false⟩]

/-- The register map of KEY. -/
def rowsKEY : List RegRow := [
  ⟨0x100, 1, 0x0, 0x0, 0xFFFFFFFF, 0x0, 0x0, false⟩,
  ⟨0x104, 1, 0x0, 0x0, 0xFFFFFFFF, 0x0, 0x0, false⟩,
  ⟨0x108, 1, 0x0, 0x0, 0xFFFFFFFF, 0x0, 0x0, false⟩,
  ⟨0x10C, 1, 0x0, 0x0, 0xFF, 0x0, 0x0, false⟩,
  ⟨0x110, 1, 0x0, 0x0, 0xFFFFFFFF, 0x0, 0x0, false⟩,
  ⟨0x114, 1, 0x0, 0x0, 0xFF, 0x0, 0x0, false⟩,
  ⟨0x118, 1, 0x0, 0x0, 0x1FFF, 0x0, 0x0, false⟩,
  ⟨0x120, 1, 0x0, 0x0, 0x0, 0x0, 0x0, false⟩,
  ⟨0x124, 1, 0x0, 0x0, 0x0, 0x0, 0x0, false⟩,
  ⟨0x128, 1, 0x0, 0x0, 0x0, 0x0, 0x0, false⟩,
  ⟨0x12C, 1, 0x0, 0x0, 0x0, 0x0, 0x0, false⟩,
  ⟨0x130, 1, 0x0, 0x0, 0x0, 0x0, 0x80000000, false⟩,
  ⟨0x134, 1, 0x0, 0x0, 0x0, 0x0, 0x0, false⟩,
  ⟨0x138, 1, 0x0, 0x0, 0x0, 0x0, 0x0, false⟩,
  ⟨0x140, 4, 0x4, 0x0, 0x0, 0x0, 0x0, false⟩,
  ⟨0x150, 2, 0x4, 0x0, 0x0, 0x0, 0x0, false⟩,
  ⟨0x160, 8, 0x4, 0x0, 0x0, 0x0, 0x0, false⟩,
  ⟨0x1000, 256, 0x8, 0x0, 0x0, 0x0, 0x0, false⟩,
  ⟨0x1004, 256, 0x8, 0x0, 0x0, 0x0, 0x0, false⟩,
  ⟨0x180, 1, 0x0, 0x0, 0x0, 0x0, 0x0, false⟩,
  ⟨0x184, 4, 0x4, 0x0, 0x0, 0x0, 0x0, false⟩,
  ⟨0x194, 1, 0x0, 0x0, 0x0, 0x0, 0x0, false⟩]

/-- The register map of CRY. -/
def rowsCRY : List RegRow := [
  ⟨0x100, 16, 0x8, 0x0, 0x0, 0x0, 0x0, false⟩,
  ⟨0x104, 16, 0x8, 0x0, 0x0, 0x0, 0x0, false⟩,
  ⟨0x200, 1, 0x0, 0x0, 0xFF, 0x0, 0x0, false⟩,
  ⟨0x204, 1, 0x0, 0x0, 0x0, 0x0, 0x0, false⟩]

/-- The register map of CVU. -/
def rowsCVU : List RegRow := [
  ⟨0x100, 1, 0x0, 0x1030103, 0xFF330107, 0x0, 0x0, false⟩,
  ⟨0x104, 1, 0x0, 0x0, 0x0, 0x0, 0x0, false⟩,
  ⟨0x108, 1, 0x0, 0xFFFFFFFF, 0xFFFFFFFF, 0x0, 0x0, false⟩,
  ⟨0x10C, 1, 0x0, 0x0, 0xFFFFFFFF, 0x0, 0x0, false⟩,
  ⟨0x110, 1, 0x0, 0xFFFFFFFF, 0xFFFFFFFF, 0x0, 0x0, false⟩,
  ⟨0x114, 1, 0x0, 0x0, 0xFFFFFFFF, 0x0, 0x0, false⟩,
  ⟨0x120, 1, 0x0, 0x0, 0x0, 0x0, 0x0, false⟩,
  ⟨0x124, 1, 0x0, 0x0, 0x0, 0x0, 0x0, false⟩,
  ⟨0x128, 1, 0x0, 0x0, 0x0, 0x0, 0x0, false⟩,
  ⟨0x12C, 1, 0x0, 0x0, 0x0, 0x0, 0x0, false⟩,
  ⟨0x130, 1, 0x0, 0x0, 0x0, 0x0, 0x0, false⟩,
  ⟨0x134, 1, 0x0, 0x0, 0x0, 0x0, 0x0, false⟩,
  ⟨0x138, 1, 0x0, 0x0, 0xFFFFFFFF, 0x0, 0x0, false⟩,
  ⟨0x13C, 1, 0x0, 0x0, 0xFFFFFFFF, 0x0, 0x0, false⟩,
  ⟨0x140, 1, 0x0, 0x0, 0x0, 0x0, 0x0, false⟩,
  ⟨0x150, 1, 0x0, 0x0, 0xFFFF, 0x0, 0x0, false⟩,
  ⟨0x154, 1, 0x0, 0x0, 0x0, 0x0, 0x0, false⟩,
  ⟨0x158, 1, 0x0, 0x0, 0x0, 0x0, 0x0, false⟩]

/-- The register map of VPT. -/
def rowsVPT : List RegRow := [
  ⟨0x100, 1, 0x0, 0x0, 0xF00003FF, 0x0, 0x0, false⟩,
  ⟨0x104, 1, 0x0, 0x0, 0xFFFFFFC0, 0x0, 0x0, false⟩,
  ⟨0x108, 1, 0x0, 0x0, 0xFF, 0x0, 0x0, false⟩,
  ⟨0x10C, 1, 0x0, 0x0, 0x0, 0x0, 0x0, false⟩,
  ⟨0x110, 2, 0x4, 0x0, 0x0, 0x0, 0x0, false⟩,
  ⟨0x118, 1, 0x0, 0x0, 0x0, 0x0, 0x0, false⟩,
  ⟨0x11C, 1, 0x0, 0x4000, 0x0, 0x0, 0x0, false⟩,
  ⟨0x120, 1, 0x0, 0x0, 0x3FF, 0x0, 0x0, false⟩,
  ⟨0x124, 1, 0x0, 0x0, 0x0, 0x0, 0x0, false⟩,
  ⟨0x128, 1, 0x0, 0x0, 0x0, 0x0, 0x0, false⟩,
  ⟨0x130, 1, 0x0, 0x0, 0x7, 0x0, 0x0, false⟩,
  ⟨0x134, 1, 0x0, 0x0, 0x0, 0x0, 0x0, false⟩,
  ⟨0x138, 1, 0x0, 0x0, 0x0, 0x0, 0x0, false⟩,
  ⟨0x200, 16, 0x4, 0x0, 0x0, 0x0, 0x0, false⟩,
  ⟨0x8000, 1024, 0x8, 0x0, 0xFFFF, 0x0, 0x0, false⟩,
  ⟨0x8004, 1024, 0x8, 0x0, 0xFFFF, 0x0, 0x0, false⟩]

/-- The register map of REL. -/
def rowsREL : List RegRow := [
  ⟨0x100, 1, 0x0, 0x0, 0xFFFF0000, 0x0, 0x0, false⟩,
  ⟨0x104, 1, 0x0, 0x8, 0xFF, 0x0, 0x0, false⟩,
  ⟨0x108, 1, 0x0, 0x400, 0x1FFF, 0x0, 0x0, false⟩,
  ⟨0x10C, 1, 0x0, 0x0, 0xFFFF0000, 0x0, 0x0, false⟩,
  ⟨0x110, 1, 0x0, 0x8, 0xFF, 0x0, 0x0, false⟩,
  ⟨0x114, 1, 0x0, 0xA, 0xFF, 0x0, 0x0, false⟩,
  ⟨0x118, 1, 0x0, 0x27101388, 0xFFFFFFFF, 0x0, 0x0, false⟩,
  ⟨0x11C, 2, 0x4, 0xFFFFFFFF, 0xFFFFFFFF, 0x0, 0x0, false⟩,
  ⟨0x124, 4, 0x4, 0x0, 0x800007FF, 0x0, 0x0, false⟩,
  ⟨0x134, 1, 0x0, 0x0, 0x0, 0x0, 0x0, false⟩,
  ⟨0x138, 1, 0x0, 0x0, 0x0, 0x0, 0x0, false⟩,
  ⟨0x13C, 1, 0x0, 0x0, 0x0, 0x0, 0x0, false⟩,
  ⟨0x140, 1, 0x0, 0x0, 0x0, 0x0, 0x0, false⟩,
  ⟨0x144, 1, 0x0, 0x0, 0x0, 0x0, 0x0, false⟩,
  ⟨0x148, 1, 0x0, 0x0, 0x0, 0x0, 0x0, false⟩,
  ⟨0x14C, 1, 0x0, 0x0, 0x0, 0x0, 0x0, false⟩,
  ⟨0x150, 1, 0x0, 0x0, 0x0, 0x0, 0x0, false⟩,
  ⟨0x154, 1, 0x0, 0x0, 0x0, 0x0, 0x0, false⟩,
  ⟨0x160, 1, 0x0, 0x0, 0x3FFFF, 0x0, 0x80000000, false⟩,
  ⟨0x164, 1, 0x0, 0x0, 0x0, 0x0, 0x0, false⟩,
  ⟨0x168, 1, 0x0, 0x0, 0xFFFFFFFF, 0x0, 0x0, false⟩,
  ⟨0x16C, 1, 0x0, 0x0, 0xFFFF, 0x0, 0x0, false⟩,
  ⟨0x170, 1, 0x0, 0x88B9, 0xFFFF, 0x0, 0x0, false⟩,
  ⟨0x174, 1, 0x0, 0x0, 0xFFFF0000, 0x0, 0x0, false⟩,
  ⟨0x180, 1, 0x0, 0x0, 0xFFFF0000, 0x0, 0x0, false⟩,
  ⟨0x184, 1, 0x0, 0x8, 0xFF, 0x0, 0x0, false⟩,
  ⟨0x188, 1, 0x0, 0x0, 0xFFFFFFFF, 0x0, 0x0, false⟩,
  ⟨0x18C, 1, 0x0, 0x100, 0x100, 0x0, 0x1, false⟩,
  ⟨0x190, 1, 0x0, 0x0, 0x0, 0x0, 0x0, false⟩,
  ⟨0x194, 1, 0x0, 0x0, 0x0, 0x0, 0x0, false⟩,
  ⟨0x198, 1, 0x0, 0x0, 0x0, 0x0, 0x0, false⟩]

/-- The register map of DBG. -/
def rowsDBG : List RegRow := [
  ⟨0x100, 1, 0x0, 0x0, 0xC00001FF, 0x0, 0x0, false⟩,
  ⟨0x104, 1, 0x0, 0x0, 0x0, 0x0, 0x0, false⟩,
  ⟨0x108, 1, 0x0, 0x0, 0x0, 0x0, 0x0, false⟩,
  ⟨0x10C, 1, 0x0, 0x0, 0x0, 0x0, 0x0, false⟩,
  ⟨0x110, 1, 0x0, 0x0, 0x0, 0x0, 0x0, false⟩,
  ⟨0x120, 8, 0x4, 0x0, 0x803FFFFF, 0x0, 0x0, false⟩,
  ⟨0x200, 32, 0x4, 0x0, 0xFFFFFFFF, 0x0, 0x0, false⟩,
  ⟨0x280, 1, 0x0, 0x0, 0xFFFFFFFF, 0x0, 0x0, false⟩,
  ⟨0x284, 1, 0x0, 0x0, 0xFFFF, 0x0, 0x0, false⟩]

/-- The register map of a block kind. -/
def rowsOf : Blk → List RegRow
  | .sys => rowsSYS
  | .pwr => rowsPWR
  | .sup => rowsSUP
  | .evr => rowsEVR
  | .boot => rowsBOOT
  | .hlt => rowsHLT
  | .tcu => rowsTCU
  | .cue => rowsCUE
  | .cea => rowsCEA
  | .ce => rowsCE
  | .imp => rowsIMP
  | .pgm => rowsPGM
  | .frc => rowsFRC
  | .swc => rowsSWC
  | .grn => rowsGRN
  | .loft => rowsLOFT
  | .fdb => rowsFDB
  | .strm => rowsSTRM
  | .eth => rowsETH
  | .msec => rowsMSEC
  | .can => rowsCAN
  | .lin => rowsLIN
  | .nmu => rowsNMU
  | .rio => rowsRIO
  | .tun => rowsTUN
  | .spn => rowsSPN
  | .twn => rowsTWN
  | .pss => rowsPSS
  | .pch => rowsPCH
  | .lpm => rowsLPM
  | .ain => rowsAIN
  | .rve => rowsRVE
  | .xlt => rowsXLT
  | .dma => rowsDMA
  | .memc => rowsMEMC
  | .wgt => rowsWGT
  | .key => rowsKEY
  | .cry => rowsCRY
  | .cvu => rowsCVU
  | .vpt => rowsVPT
  | .rel => rowsREL
  | .dbg => rowsDBG

/-- The bits of the header's `CTRL` that the block defines; the rest are reserved. -/
def ctrlMask : Blk → Nat
  | .cue => 0x1
  | .cea => 0x1
  | .dbg => 0x2
  | .can => 0x1
  | .lin => 0x1
  | .rio => 0x1
  | .tun => 0x1
  | .xlt => 0x1
  | .dma => 0x1
  | .swc => 0x1
  | .loft => 0x1
  | .vpt => 0x1
  | .rel => 0x7
  | _ => 0

end Sys2Proof.Machine
end

