-- ==== Sys2Proof/Machine/Regs.lean ====
section
/-! DEFINITION. The addresses of the registers, named as the register maps of the spec name them (Tables 01.11 to
20.12). An address here is page × 0x1_0000 + offset (R5); `n`, `k`, `t`, … is the index of the map, `p` the instance
of a block that has several, `w` the word of an entry of several words. -/

namespace Sys2Proof.Machine

/-- Address of an offset in a page. -/
abbrev at_ (page off : Nat) : Nat := page * 0x10000 + off

/-! The common page header (Table 00.4), by page. -/

/-- `ID` of a page. -/
abbrev ID (page : Nat) : Nat := at_ page 0x0
/-- `CAPS` of a page. -/
abbrev CAPS (page : Nat) : Nat := at_ page 0x4
/-- `VERSION` of a page. -/
abbrev VERSION (page : Nat) : Nat := at_ page 0x8
/-- `WORLD` of a page. -/
abbrev WORLD (page : Nat) : Nat := at_ page 0xc
/-- `CTRL` of a page. -/
abbrev CTRL (page : Nat) : Nat := at_ page 0x10
/-- `STATUS` of a page. -/
abbrev STATUS (page : Nat) : Nat := at_ page 0x14
/-- `EVT_RAW` of a page. -/
abbrev EVT_RAW (page : Nat) : Nat := at_ page 0x20
/-- `EVT_EN` of a page. -/
abbrev EVT_EN (page : Nat) : Nat := at_ page 0x24
/-- `EVT_CLR` of a page. -/
abbrev EVT_CLR (page : Nat) : Nat := at_ page 0x28
/-- `EVT_SET` of a page. -/
abbrev EVT_SET (page : Nat) : Nat := at_ page 0x2c
/-- `ERR_CAP0` of a page. -/
abbrev ERR_CAP0 (page : Nat) : Nat := at_ page 0x40
/-- `ERR_CAP1` of a page. -/
abbrev ERR_CAP1 (page : Nat) : Nat := at_ page 0x44
/-- `ERR_CAP2` of a page. -/
abbrev ERR_CAP2 (page : Nat) : Nat := at_ page 0x48
/-- `ERR_CAP3` of a page. -/
abbrev ERR_CAP3 (page : Nat) : Nat := at_ page 0x4c
/-- `LOCK` of a page. -/
abbrev LOCK (page : Nat) : Nat := at_ page 0x80

/-! Block SYS, page 0x000. -/

/-- The page of SYS. -/
abbrev pgSYS : Nat := 0x000
/-- `SYS_RESET_CAUSE` (RO): STARTS[31:16] since power-on, wrapping. -/
abbrev SYS_RESET_CAUSE : Nat := at_ pgSYS (0x0100)
/-- `SYS_RESET_REQ` (WO): Key in bits 31:16, GO[0], under R699. -/
abbrev SYS_RESET_REQ : Nat := at_ pgSYS (0x0104)
/-- `SYS_WDOG_CFG` (RWL): EN[31], TIMEOUT[9:0] in ms, 1 to 1,000. -/
abbrev SYS_WDOG_CFG : Nat := at_ pgSYS (0x0108)
/-- `SYS_WDOG` (WO): Watchdog write under R700. -/
abbrev SYS_WDOG : Nat := at_ pgSYS (0x010C)
/-- `SYS_WDOG_NEXT` (RO): Expected sequence, bits 15:0. -/
abbrev SYS_WDOG_NEXT : Nat := at_ pgSYS (0x0110)

/-! Block PWR, page 0x001. -/

/-- The page of PWR. -/
abbrev pgPWR : Nat := 0x001
/-- `PWR_STATE` (RO): Bit d: PDd powered. -/
abbrev PWR_STATE : Nat := at_ pgPWR (0x0100)
/-- `PWR_ON` (WO): Bit d: on request. -/
abbrev PWR_ON : Nat := at_ pgPWR (0x0104)
/-- `PWR_OFF` (WO): Bit d: off request. -/
abbrev PWR_OFF : Nat := at_ pgPWR (0x0108)
/-- `PWR_BUSY` (RO): Bit d: sequencing or pending. -/
abbrev PWR_BUSY : Nat := at_ pgPWR (0x010C)
/-- `PWR_LAST` (RO): KIND[31:30] (1 power, 2 clock), RESULT[26:24] (0 done, 1 held, 2 refused after hold, 3 nee. -/
abbrev PWR_LAST : Nat := at_ pgPWR (0x0110)
/-- `PWR_CUE_LOST` (RO): Cues without effect under R704, saturating. -/
abbrev PWR_CUE_LOST : Nat := at_ pgPWR (0x0114)
/-- `PWR_SLEEP` (RW): EN[31], KEEP_T1[30], KEEP_MASK[23:0]. -/
abbrev PWR_SLEEP : Nat := at_ pgPWR (0x0118)
/-- `PWR_CLK_OFF` (WO): Bit j: stop the clock of page 32m + j. -/
abbrev PWR_CLK_OFF (n : Nat) : Nat := at_ pgPWR (0x0140 + 0x4 * n)
/-- `PWR_CLK_ON` (WO): Bit j: run the clock of page 32m + j. -/
abbrev PWR_CLK_ON (n : Nat) : Nat := at_ pgPWR (0x01C0 + 0x4 * n)
/-- `PWR_CLK_STATE` (RO): Bit j: clock of page 32m + j running. -/
abbrev PWR_CLK_STATE (n : Nat) : Nat := at_ pgPWR (0x0240 + 0x4 * n)

/-! Block SUP, page 0x002. -/

/-- The page of SUP. -/
abbrev pgSUP : Nat := 0x002
/-- `SUP_CFG` (RWL): WARN[15:0]: warning threshold in mV. -/
abbrev SUP_CFG : Nat := at_ pgSUP (0x0100)
/-- `SUP_STATE` (RO): HOLD[31], DEFER[23:16], IN48_OV[3], IN48_UV[2], VBAT_HIGH[1]. -/
abbrev SUP_STATE : Nat := at_ pgSUP (0x0104)
/-- `SUP_VOLT` (RO): IN48 in units of 10 mV in bits 31:16, VBAT in mV in bits 15:0. -/
abbrev SUP_VOLT : Nat := at_ pgSUP (0x0108)
/-- `SUP_VBAT_MIN` (RO): Lowest VBAT in mV since cleared. -/
abbrev SUP_VBAT_MIN : Nat := at_ pgSUP (0x010C)
/-- `SUP_VBAT_MAX` (RO): Highest VBAT in mV since cleared. -/
abbrev SUP_VBAT_MAX : Nat := at_ pgSUP (0x0110)
/-- `SUP_HOLD_CNT` (RO): Hold entries, saturating. -/
abbrev SUP_HOLD_CNT : Nat := at_ pgSUP (0x0114)
/-- `SUP_HOLD_LAST` (RO): Length of the last Hold in µs, saturating. -/
abbrev SUP_HOLD_LAST : Nat := at_ pgSUP (0x0118)
/-- `SUP_CNT_CLR` (WO): Bits 0 to 3 clear the four registers above, in order. -/
abbrev SUP_CNT_CLR : Nat := at_ pgSUP (0x011C)

/-! Block EVR, page 0x003. -/

/-- The page of EVR. -/
abbrev pgEVR : Nat := 0x003
/-- `EVR_ROUTE` (RW): EN[31], CORE[27:24], FILE[19:16], EIID[10:0], under R706. -/
abbrev EVR_ROUTE (n : Nat) : Nat := at_ pgEVR (0x1000 + 0x4 * n)

/-! Block BOOT, page 0x004. -/

/-- The page of BOOT. -/
abbrev pgBOOT : Nat := 0x004
/-- `BOOT_STAGE` (RO): Table 19.8. -/
abbrev BOOT_STAGE : Nat := at_ pgBOOT (0x0100)
/-- `BOOT_ARB` (RO): PK_REV[27:24], LDR[21:16], MAIN[7:0]. -/
abbrev BOOT_ARB : Nat := at_ pgBOOT (0x0104)
/-- `BOOT_IMG_SVN` (RO): SVN of the running image, bits 7:0. -/
abbrev BOOT_IMG_SVN : Nat := at_ pgBOOT (0x0108)
/-- `BOOT_PK_REV` (WO): Revocation under R680. -/
abbrev BOOT_PK_REV : Nat := at_ pgBOOT (0x010C)
/-- `BOOT_STAMP` (RO): µs from the release of reset to the entry into stage k + 1, for k = 0 to 3. -/
abbrev BOOT_STAMP (n : Nat) : Nat := at_ pgBOOT (0x0110 + 0x4 * n)
/-- `BOOT_RECOVER` (WO): REASON[11:8], GO[0]: restarts into recovery mode with the reason given, 7 or 9. -/
abbrev BOOT_RECOVER : Nat := at_ pgBOOT (0x0120)
/-- `BOOT_PK` (RO): Forty-eight words of SHA-384 digests from OTP, twelve words per key. -/
abbrev BOOT_PK (n : Nat) : Nat := at_ pgBOOT (0x0130 + 0x4 * n)
/-- `BOOT_FL_CMD` (RW): OP[31:28] (1 erase 64 KiB, 2 program, 3 verify), BUSY[27] RO, RESULT[26:24] RO (0 done, 1 . -/
abbrev BOOT_FL_CMD : Nat := at_ pgBOOT (0x0200)
/-- `BOOT_FL_OFS` (RW): Flash offset, bits 29:0, aligned to 64 KiB for erase and to 256 bytes otherwise. -/
abbrev BOOT_FL_OFS : Nat := at_ pgBOOT (0x0204)
/-- `BOOT_FL_SRC_LO` (RW): Source address bits 31:0. -/
abbrev BOOT_FL_SRC_LO : Nat := at_ pgBOOT (0x0208)
/-- `BOOT_FL_SRC_HI` (RW): Bits 39:32, in bits 7:0. -/
abbrev BOOT_FL_SRC_HI : Nat := at_ pgBOOT (0x020C)
/-- `BOOT_FL_LEN` (RW): Bytes, a multiple of 256, 256 to 16 MiB. -/
abbrev BOOT_FL_LEN : Nat := at_ pgBOOT (0x0210)
/-- `BOOT_FL_DONE` (RO): Bytes done by the current command. -/
abbrev BOOT_FL_DONE : Nat := at_ pgBOOT (0x0214)
/-- `BOOT_UPD_SRC_LO` (RW): Image address bits 31:0. -/
abbrev BOOT_UPD_SRC_LO : Nat := at_ pgBOOT (0x0300)
/-- `BOOT_UPD_SRC_HI` (RW): Bits 39:32, in bits 7:0. -/
abbrev BOOT_UPD_SRC_HI : Nat := at_ pgBOOT (0x0304)
/-- `BOOT_UPD_LEN` (RW): Image bytes. -/
abbrev BOOT_UPD_LEN : Nat := at_ pgBOOT (0x0308)
/-- `BOOT_UPD_CTRL` (RW): GO[31] W1S, REASON[11:8] RO (reasons of R684), STATE[2:0] RO (0 idle, 1 writing, 2 written. -/
abbrev BOOT_UPD_CTRL : Nat := at_ pgBOOT (0x030C)
/-- `BOOT_ACT` (RW): ARM[31] under R685, FIRED[0] RO: the last reset was an activation. -/
abbrev BOOT_ACT : Nat := at_ pgBOOT (0x0310)
/-- `BOOT_RCV_ETYPE` (RW): Recovery EtherType, bits 15:0. -/
abbrev BOOT_RCV_ETYPE : Nat := at_ pgBOOT (0x0400)
/-- `BOOT_RCV_COMMIT` (WO): Staged image length for strap code 2. -/
abbrev BOOT_RCV_COMMIT : Nat := at_ pgBOOT (0x0404)

/-! Block HLT, page 0x005. -/

/-- The page of HLT. -/
abbrev pgHLT : Nat := 0x005
/-- `HLT_CFG` (RW): FRAME_EN[31], PCP[30:28]. -/
abbrev HLT_CFG : Nat := at_ pgHLT (0x0100)
/-- `HLT_ETYPE` (RW): Dailies EtherType, bits 15:0. -/
abbrev HLT_ETYPE : Nat := at_ pgHLT (0x0104)
/-- `HLT_DEST_LO` (RW): Destination bits 31:0. -/
abbrev HLT_DEST_LO : Nat := at_ pgHLT (0x0108)
/-- `HLT_DEST_HI` (RW): Bits 47:32, in bits 15:0. -/
abbrev HLT_DEST_HI : Nat := at_ pgHLT (0x010C)
/-- `HLT_DSEQ` (RO): Publications since reset, wrapping. -/
abbrev HLT_DSEQ : Nat := at_ pgHLT (0x0110)
/-- `HLT_RETIRED` (RO): Bit n: CEn retired, bits 17:0. -/
abbrev HLT_RETIRED : Nat := at_ pgHLT (0x0114)
/-- `HLT_ROTA` (RO): LAST[20:16]: engine last tested, ABANDON_CNT[15:0] saturating. -/
abbrev HLT_ROTA : Nat := at_ pgHLT (0x0118)
/-- `HLT_DECLARE_EN` (RW): Conditions for self-declaration: bit 0 a task of CRIT 3 UNPLACED, bit 1 SPARE_EMPTY, bit 2. -/
abbrev HLT_DECLARE_EN : Nat := at_ pgHLT (0x011C)
/-- `HLT_DECLARED` (RO): Conditions met since reset, bits as HLT_DECLARE_EN. -/
abbrev HLT_DECLARED : Nat := at_ pgHLT (0x0120)
/-- `HLT_FW_FLAGS` (RW): Bits 15:0, copied to FLAGS bits 31:16. -/
abbrev HLT_FW_FLAGS : Nat := at_ pgHLT (0x0124)
/-- `HLT_FW` (RW): Firmware words 0 to 29 of the record. -/
abbrev HLT_FW (n : Nat) : Nat := at_ pgHLT (0x0200 + 0x4 * n)
/-- `HLT_DAILY` (RO): Record word w, 0 to 63, Table 17.9. -/
abbrev HLT_DAILY (n : Nat) : Nat := at_ pgHLT (0x1000 + 0x4 * n)

/-! Block TCU, page 0x010. -/

/-- The page of TCU. -/
abbrev pgTCU : Nat := 0x010
/-- `TCU_BASE_TICK` (RW): Base tick in ns, under R22. -/
abbrev TCU_BASE_TICK : Nat := at_ pgTCU (0x0100)
/-- `TCU_SRC` (RW): Source of slot n. -/
abbrev TCU_SRC (n : Nat) : Nat := at_ pgTCU (0x0200 + 0x40 * n)
/-- `TCU_SRCCFG` (RW): Encoder parameters. -/
abbrev TCU_SRCCFG (n : Nat) : Nat := at_ pgTCU (0x0204 + 0x40 * n)
/-- `TCU_NOW_LO` (RO): Tick bits 31:0. -/
abbrev TCU_NOW_LO (n : Nat) : Nat := at_ pgTCU (0x0208 + 0x40 * n)
/-- `TCU_NOW_HI` (RO): PHASE[31:8], tick bits 39:32 in [7:0]. -/
abbrev TCU_NOW_HI (n : Nat) : Nat := at_ pgTCU (0x020C + 0x40 * n)
/-- `TCU_QUAL` (RO): Quality and counters. -/
abbrev TCU_QUAL (n : Nat) : Nat := at_ pgTCU (0x0210 + 0x40 * n)
/-- `TCU_HOLD_LIMIT` (RW): Holdover limit in ms, 1 to 65,535. -/
abbrev TCU_HOLD_LIMIT (n : Nat) : Nat := at_ pgTCU (0x0214 + 0x40 * n)
/-- `TCU_SLEW` (RW): MAX_PPM[8:0], 1 to 500. -/
abbrev TCU_SLEW (n : Nat) : Nat := at_ pgTCU (0x0218 + 0x40 * n)
/-- `TCU_CORR` (RO): Signed remaining slew correction: ns for NET and LOC, 2^−24 tick for ANG and MNS. -/
abbrev TCU_CORR (n : Nat) : Nat := at_ pgTCU (0x021C + 0x40 * n)
/-- `TCU_RATE` (RO): Signed learned rate offset in units of 2^−32. -/
abbrev TCU_RATE (n : Nat) : Nat := at_ pgTCU (0x0220 + 0x40 * n)
/-- `TCU_HOLD_AGE` (RO): ms since the slot last entered HOLDOVER or FREERUN from OFF, ACQUIRING or LOCKED, saturati. -/
abbrev TCU_HOLD_AGE (n : Nat) : Nat := at_ pgTCU (0x0224 + 0x40 * n)
/-- `TCU_CAP_LO` (RO): Capture k, tick bits 31:0. -/
abbrev TCU_CAP_LO (n : Nat) : Nat := at_ pgTCU (0x0400 + 0x8 * n)
/-- `TCU_CAP_HI` (RO): Capture k, same layout as TCU_NOW_HIn. -/
abbrev TCU_CAP_HI (n : Nat) : Nat := at_ pgTCU (0x0404 + 0x8 * n)

/-! Block CUE, page 0x011. -/

/-- The page of CUE. -/
abbrev pgCUE : Nat := 0x011
/-- `CUE_ACTIVE` (RO): HALF[0]: number of the active half. -/
abbrev CUE_ACTIVE : Nat := at_ pgCUE (0x0100)
/-- `CUE_IDX` (RW): ACTIVE[31] (1 reads the active half), IDX[11:0]. -/
abbrev CUE_IDX : Nat := at_ pgCUE (0x0104)
/-- `CUE_W0` (RW): Entry bits 31:0. -/
abbrev CUE_W0 : Nat := at_ pgCUE (0x0108)
/-- `CUE_W1` (RW): Entry bits 63:32. -/
abbrev CUE_W1 : Nat := at_ pgCUE (0x010C)
/-- `CUE_W2` (RW): Entry bits 95:64. -/
abbrev CUE_W2 : Nat := at_ pgCUE (0x0110)
/-- `CUE_W3` (RW): Entry bits 127:96. -/
abbrev CUE_W3 : Nat := at_ pgCUE (0x0114)
/-- `CUE_SWAP_AT_LO` (RW): Swap tick bits 31:0. -/
abbrev CUE_SWAP_AT_LO : Nat := at_ pgCUE (0x0120)
/-- `CUE_SWAP` (RW): Swap request. -/
abbrev CUE_SWAP : Nat := at_ pgCUE (0x0124)
/-- `CUE_COPY` (WO): GO[0]: writing 1 copies the active half into the shadow. -/
abbrev CUE_COPY : Nat := at_ pgCUE (0x0128)
/-- `CUE_SKIP_CNT` (RO): Skipped instants, saturating. -/
abbrev CUE_SKIP_CNT : Nat := at_ pgCUE (0x0130)
/-- `CUE_CROWD_CNT` (RO): Deferred cues, saturating. -/
abbrev CUE_CROWD_CNT : Nat := at_ pgCUE (0x0134)
/-- `CUE_REFUSE_CNT` (RO): Refused actions, saturating. -/
abbrev CUE_REFUSE_CNT : Nat := at_ pgCUE (0x0138)
/-- `CUE_CNT_CLR` (WO): Bits 2:0 clear the three counters above, in order. -/
abbrev CUE_CNT_CLR : Nat := at_ pgCUE (0x013C)
/-- `CUE_LAST_SKIP` (RO): IDX[11:0] of the last entry that lost an instant. -/
abbrev CUE_LAST_SKIP : Nat := at_ pgCUE (0x0140)

/-! Block CEA, page 0x020. -/

/-- The page of CEA. -/
abbrev pgCEA : Nat := 0x020
/-- `CEA_ENG_STATE0` (RO): States of CE0 to CE7, 4 bits each, CEn at bits 4n + 3:4n. -/
abbrev CEA_ENG_STATE0 : Nat := at_ pgCEA (0x0100)
/-- `CEA_ENG_STATE1` (RO): States of CE8 to CE15. -/
abbrev CEA_ENG_STATE1 : Nat := at_ pgCEA (0x0104)
/-- `CEA_ENG_STATE2` (RO): States of CE16 and CE17 in bits 7:0. -/
abbrev CEA_ENG_STATE2 : Nat := at_ pgCEA (0x0108)
/-- `CEA_POOL` (RO): ACTIVE[20:16], RETIRED[12:8], SPARES[1:0]. -/
abbrev CEA_POOL : Nat := at_ pgCEA (0x010C)
/-- `CEA_RERUN` (RO): Last rerun: RESULT[31:30] (1 equal, 2 mismatch, 3 window expired), ENGINE[20:16], TASK[8:0. -/
abbrev CEA_RERUN : Nat := at_ pgCEA (0x0110)
/-- `CEA_TASK_RESTART` (WO): TASK[8:0]: restarts a HALTED task at its next input cue. -/
abbrev CEA_TASK_RESTART : Nat := at_ pgCEA (0x0120)
/-- `CEA_REPLACE` (WO): GO[0]: asks the Reeve to place again at the next tick boundary. -/
abbrev CEA_REPLACE : Nat := at_ pgCEA (0x0124)
/-- `CEA_PDU_ETYPE` (RW): PDU EtherType, bits 15:0, under R90. -/
abbrev CEA_PDU_ETYPE : Nat := at_ pgCEA (0x0128)
/-- `CEA_PDU_NOMATCH` (RO): PDU frames that no entry took, saturating. -/
abbrev CEA_PDU_NOMATCH : Nat := at_ pgCEA (0x012C)
/-- `CEA_PDU_BAD` (RO): PDU frames discarded under R90, saturating. -/
abbrev CEA_PDU_BAD : Nat := at_ pgCEA (0x0130)
/-- `CEA_PDU` (RW, RO, W1C): PDU entry, Table 02.15, for u = 0 to 255. -/
abbrev CEA_PDU (n w : Nat) : Nat := at_ pgCEA (0x5000 + 0x20 * n + 4 * w)
/-- `CEA_CAD` (RW, RO): Cadence entry, Table 02.1. -/
abbrev CEA_CAD (n w : Nat) : Nat := at_ pgCEA (0x1000 + 0x20 * n + 4 * w)
/-- `CEA_TASK` (RW): Task entry, Table 02.2. -/
abbrev CEA_TASK (n w : Nat) : Nat := at_ pgCEA (0x2000 + 0x10 * n + 4 * w)
/-- `CEA_TSTAT` (RO): Task state, Table 02.11. -/
abbrev CEA_TSTAT (n : Nat) : Nat := at_ pgCEA (0x4000 + 0x4 * n)
/-- `CEA_MAP` (RW): Map entry: bits 31:0 at +0, bits 63:32 at +4. -/
abbrev CEA_MAP (n w : Nat) : Nat := at_ pgCEA (0x8000 + 0x8 * n + 4 * w)

/-! Block CE, page 0x021. -/

/-- The page of CE. -/
abbrev pgCE (p : Nat) : Nat := 0x021 + p
/-- `CE_STATE` (RO): STATE[31:28] (Table 02.10), TASK[24:16], PHASE[2:0] (0 idle, 1 primary, 2 mirror, 3 compar. -/
abbrev CE_STATE (p : Nat) : Nat := at_ (pgCE p) (0x0100)
/-- `CE_RUNS` (RO): Compared runs, wrapping. -/
abbrev CE_RUNS (p : Nat) : Nat := at_ (pgCE p) (0x0104)
/-- `CE_BUSY` (RO): Busy cycles in the last second. -/
abbrev CE_BUSY (p : Nat) : Nat := at_ (pgCE p) (0x0108)
/-- `CE_MISMATCH_CNT` (RO): Mismatches on this engine, saturating. -/
abbrev CE_MISMATCH_CNT (p : Nat) : Nat := at_ (pgCE p) (0x010C)
/-- `CE_TRANSIENT_CNT` (RO): Self-tests passed after a mismatch, saturating. -/
abbrev CE_TRANSIENT_CNT (p : Nat) : Nat := at_ (pgCE p) (0x0110)
/-- `CE_SELFTEST` (RO): PASS[31], SIGNATURE[15:0] of the last self-test. -/
abbrev CE_SELFTEST (p : Nat) : Nat := at_ (pgCE p) (0x0114)
/-- `CE_CMP_TEST` (RO): PASS[31], DETECTED[6:0]: start-up difference patterns detected, 64 required. -/
abbrev CE_CMP_TEST (p : Nat) : Nat := at_ (pgCE p) (0x0118)

/-! Block IMP, page 0x033. -/

/-- The page of IMP. -/
abbrev pgIMP : Nat := 0x033
/-- `IMP_RET_USE` (RO): Retention bytes in use, bits 21:0. -/
abbrev IMP_RET_USE : Nat := at_ pgIMP (0x0100)
/-- `IMP_RET_PEAK` (RO): Highest IMP_RET_USE since cleared. -/
abbrev IMP_RET_PEAK : Nat := at_ pgIMP (0x0104)
/-- `IMP_DRAIN_MAX` (RO): Longest drain in ns since cleared. -/
abbrev IMP_DRAIN_MAX : Nat := at_ pgIMP (0x0108)
/-- `IMP_ECC_CE` (RO): Corrected errors, saturating. -/
abbrev IMP_ECC_CE : Nat := at_ pgIMP (0x010C)
/-- `IMP_ECC_UE` (RO): Uncorrectable errors, saturating. -/
abbrev IMP_ECC_UE : Nat := at_ pgIMP (0x0110)
/-- `IMP_ECC_ADDR` (RO): Pool offset of the last uncorrectable error, bits 23:0. -/
abbrev IMP_ECC_ADDR : Nat := at_ pgIMP (0x0114)
/-- `IMP_BG_RESTART_CNT` (RO): Background runs restarted, saturating. -/
abbrev IMP_BG_RESTART_CNT : Nat := at_ pgIMP (0x0118)
/-- `IMP_CNT_CLR` (WO): Bits 0 to 4 clear IMP_RET_PEAK, IMP_DRAIN_MAX, IMP_ECC_CE, IMP_ECC_UE and IMP_BG_RESTART_C. -/
abbrev IMP_CNT_CLR : Nat := at_ pgIMP (0x011C)

/-! Block PGM, page 0x034. -/

/-- The page of PGM. -/
abbrev pgPGM : Nat := 0x034
/-- `PGM_ECC_CE` (RO): Corrected errors, saturating. -/
abbrev PGM_ECC_CE : Nat := at_ pgPGM (0x0100)
/-- `PGM_ECC_UE` (RO): Uncorrectable errors, saturating. -/
abbrev PGM_ECC_UE : Nat := at_ pgPGM (0x0104)
/-- `PGM_ECC_ADDR` (RO): Offset of the last uncorrectable error, bits 22:0. -/
abbrev PGM_ECC_ADDR : Nat := at_ pgPGM (0x0108)
/-- `PGM_TASK_BANK0` (RW): Bank 0 start in units of 64 bytes, bits 16:0. -/
abbrev PGM_TASK_BANK0 (n : Nat) : Nat := at_ pgPGM (0x1000 + 0x10 * n)
/-- `PGM_TASK_BANK1` (RW): Bank 1 start in units of 64 bytes, bits 16:0. -/
abbrev PGM_TASK_BANK1 (n : Nat) : Nat := at_ pgPGM (0x1004 + 0x10 * n)
/-- `PGM_TASK_WCET` (RO): Worst-case cycles of one run, as the loader computed them for the active bank. -/
abbrev PGM_TASK_WCET (n : Nat) : Nat := at_ pgPGM (0x1008 + 0x10 * n)
/-- `PGM_TASK_SEL` (RO): VALID1[9], VALID0[8], ACT[0]: the active bank. -/
abbrev PGM_TASK_SEL (n : Nat) : Nat := at_ pgPGM (0x100C + 0x10 * n)

/-! Block FRC, page 0x035. -/

/-- The page of FRC. -/
abbrev pgFRC : Nat := 0x035
/-- `FRC_PERMIT` (RW): DEBUG[2], FORCE_OUT[1], FORCE[0], under R183. -/
abbrev FRC_PERMIT : Nat := at_ pgFRC (0x0100)
/-- `FRC_AUTH` (RW): Seconds of service authorisation remaining, bits 15:0. -/
abbrev FRC_AUTH : Nat := at_ pgFRC (0x0104)
/-- `FRC_ACTIVE_CNT` (RO): Active forces, bits 10:0. -/
abbrev FRC_ACTIVE_CNT : Nat := at_ pgFRC (0x0110)
/-- `FRC_SUSP_CNT` (RO): Suspended forces, bits 10:0. -/
abbrev FRC_SUSP_CNT : Nat := at_ pgFRC (0x0114)
/-- `FRC_REPORT` (RO): REASON[31:28] (1 removed, 2 element removed, 3 suspended, 4 released at expiry), IDX[9:0]. -/
abbrev FRC_REPORT : Nat := at_ pgFRC (0x0118)
/-- `FRC_CHG_CTRL` (RW): Table 04.8. -/
abbrev FRC_CHG_CTRL : Nat := at_ pgFRC (0x0200)
/-- `FRC_CHG_STATUS` (RO): POSTPONED[23:16], REASON[11:8], STATE[2:0] (0 idle, 1 armed, 2 migrating, 3 done, 4 refuse. -/
abbrev FRC_CHG_STATUS : Nat := at_ pgFRC (0x0204)
/-- `FRC_CHG_OUT` (RW): New cadence word 4, in the layout of Table 02.1. -/
abbrev FRC_CHG_OUT : Nat := at_ pgFRC (0x0208)
/-- `FRC_CHG_MIG` (RW): Migration list pool offset, bits 23:0. -/
abbrev FRC_CHG_MIG : Nat := at_ pgFRC (0x020C)
/-- `FRC_CHG_MIG_CNT` (RW): Entries, bits 11:0. -/
abbrev FRC_CHG_MIG_CNT : Nat := at_ pgFRC (0x0210)
/-- `FRC_CHG_TIME` (RO): Predicted migration time in ns. -/
abbrev FRC_CHG_TIME : Nat := at_ pgFRC (0x0214)
/-- `FRC_CHG_CLIP` (RO): Elements left at INIT under R170. -/
abbrev FRC_CHG_CLIP : Nat := at_ pgFRC (0x0218)
/-- `FRC_CHG_T_W0` (RW): EN[31], TASK[8:0]. -/
abbrev FRC_CHG_T_W0 (n : Nat) : Nat := at_ pgFRC (0x0300 + 0x10 * n)
/-- `FRC_CHG_T_W1` (RW): New INST_BASE, bits 23:0. -/
abbrev FRC_CHG_T_W1 (n : Nat) : Nat := at_ pgFRC (0x0304 + 0x10 * n)
/-- `FRC_CHG_T_W2` (RW): New task word 2, in the layout of Table 02.2. -/
abbrev FRC_CHG_T_W2 (n : Nat) : Nat := at_ pgFRC (0x0308 + 0x10 * n)
/-- `FRC_FORCE` (RW): Force entry, Table 04.4. -/
abbrev FRC_FORCE (n w : Nat) : Nat := at_ pgFRC (0x8000 + 0x20 * n + 4 * w)

/-! Block SWC, page 0x040. -/

/-- The page of SWC. -/
abbrev pgSWC : Nat := 0x040
/-- `SWC_MAX_FRAME` (RW): Bits 13:0: maximum frame length, 64 to 9,216 bytes. -/
abbrev SWC_MAX_FRAME : Nat := at_ pgSWC (0x0100)
/-- `SWC_HASH_SEL` (RW): Bits 0 to 6 select, in order, the destination address, source address, VID, EtherType, IP . -/
abbrev SWC_HASH_SEL : Nat := at_ pgSWC (0x0104)
/-- `SWC_TIME` (RO): Microsecond counter under R281. -/
abbrev SWC_TIME : Nat := at_ pgSWC (0x0108)
/-- `SWC_CNT_SEL` (RW): SPACE[31:28], INDEX[27:16], CNT[7:0]. -/
abbrev SWC_CNT_SEL : Nat := at_ pgSWC (0x0110)
/-- `SWC_CNT_LO` (RO): Bits 31:0. -/
abbrev SWC_CNT_LO : Nat := at_ pgSWC (0x0114)
/-- `SWC_CNT_HI` (RO): Bits 63:32. -/
abbrev SWC_CNT_HI : Nat := at_ pgSWC (0x0118)
/-- `SWC_CNT_CLR` (WO): Layout of SWC_CNT_SEL. -/
abbrev SWC_CNT_CLR : Nat := at_ pgSWC (0x011C)
/-- `SWC_PORT` (RW): Table 07.9. -/
abbrev SWC_PORT (n : Nat) : Nat := at_ pgSWC (0x0200 + 0x10 * n)
/-- `SWC_PCP` (RW): Class for PCP k in bits 3k + 2:3k. -/
abbrev SWC_PCP (n : Nat) : Nat := at_ pgSWC (0x0204 + 0x10 * n)
/-- `SWC_LINK` (RW, RO): Table 07.10. -/
abbrev SWC_LINK (n : Nat) : Nat := at_ pgSWC (0x0208 + 0x10 * n)
/-- `SWC_RIPEN` (RW): Bits 15:0: ripening limit in µs, for c = 0 to 5. -/
abbrev SWC_RIPEN (n : Nat) : Nat := at_ pgSWC (0x0500 + 0x4 * n)
/-- `SWC_RES` (RW): Bits 15:0: maximum residence in units of 10 µs. -/
abbrev SWC_RES (n : Nat) : Nat := at_ pgSWC (0x0520 + 0x4 * n)
/-- `SWC_LAG` (RO): COUNT[3:0]: members in service. -/
abbrev SWC_LAG (n : Nat) : Nat := at_ pgSWC (0x0540 + 0x4 * n)

/-! Block GRN, page 0x041. -/

/-- The page of GRN. -/
abbrev pgGRN : Nat := 0x041
/-- `GRN_HEADROOM` (RW): Headroom cells, bits 15:0, at least 36. -/
abbrev GRN_HEADROOM : Nat := at_ pgGRN (0x0100)
/-- `GRN_REFILL` (RW): Refill cells, bits 15:0, at least 64. -/
abbrev GRN_REFILL : Nat := at_ pgGRN (0x0104)
/-- `GRN_DESC_FLOOR` (RW): Descriptor floor, bits 14:0. -/
abbrev GRN_DESC_FLOOR : Nat := at_ pgGRN (0x0108)
/-- `GRN_FREE` (RO): Free shared cells. -/
abbrev GRN_FREE : Nat := at_ pgGRN (0x0110)
/-- `GRN_FREE_DESC` (RO): Free descriptors. -/
abbrev GRN_FREE_DESC : Nat := at_ pgGRN (0x0114)
/-- `GRN_FREE_MIN` (RO): Lowest GRN_FREE since cleared. -/
abbrev GRN_FREE_MIN : Nat := at_ pgGRN (0x0118)
/-- `GRN_CNT_CLR` (WO): Bits 0 to 2 clear GRN_FREE_MIN, GRN_PUSH_CNT and GRN_ADMIT_DROP, in order. -/
abbrev GRN_CNT_CLR : Nat := at_ pgGRN (0x011C)
/-- `GRN_PUSH_CNT` (RO): Frames pushed out, saturating. -/
abbrev GRN_PUSH_CNT : Nat := at_ pgGRN (0x0120)
/-- `GRN_ADMIT_DROP` (RO): Frames dropped for ADMIT or DESC, saturating. -/
abbrev GRN_ADMIT_DROP : Nat := at_ pgGRN (0x0124)
/-- `GRN_QSEL` (RW): QUEUE[8:0]. -/
abbrev GRN_QSEL : Nat := at_ pgGRN (0x0130)
/-- `GRN_QDATA0` (RO): Selected queue: SHR[31:16], RSV[15:0] cells. -/
abbrev GRN_QDATA0 : Nat := at_ pgGRN (0x0134)
/-- `GRN_QDATA1` (RO): Selected queue: Loft frames in bits 31:16, Granary frames in bits 15:0. -/
abbrev GRN_QDATA1 : Nat := at_ pgGRN (0x0138)
/-- `GRN_CLS` (RW): Class settings. -/
abbrev GRN_CLS (n : Nat) : Nat := at_ pgGRN (0x0200 + 0x4 * n)

/-! Block LOFT, page 0x042. -/

/-- The page of LOFT. -/
abbrev pgLOFT : Nat := 0x042
/-- `LOFT_BASE_LO` (RW): Address bits 31:16 in bits 31:16. -/
abbrev LOFT_BASE_LO : Nat := at_ pgLOFT (0x0100)
/-- `LOFT_BASE_HI` (RW): Address bits 39:32 in bits 7:0. -/
abbrev LOFT_BASE_HI : Nat := at_ pgLOFT (0x0104)
/-- `LOFT_SIZE` (RW): Blocks, 0 to 4,096. -/
abbrev LOFT_SIZE : Nat := at_ pgLOFT (0x0108)
/-- `LOFT_QMAX` (RW): Blocks per queue, 1 to 4,096. -/
abbrev LOFT_QMAX : Nat := at_ pgLOFT (0x010C)
/-- `LOFT_BW` (RW): Write ceiling in units of 100 MB/s, 1 to 255. -/
abbrev LOFT_BW : Nat := at_ pgLOFT (0x0110)
/-- `LOFT_BW_NOW` (RO): Write rate allowed by the Reeve, same units. -/
abbrev LOFT_BW_NOW : Nat := at_ pgLOFT (0x0114)
/-- `LOFT_USED` (RO): Blocks in use. -/
abbrev LOFT_USED : Nat := at_ pgLOFT (0x0118)
/-- `LOFT_PEAK` (RO): Highest LOFT_USED since cleared. -/
abbrev LOFT_PEAK : Nat := at_ pgLOFT (0x011C)
/-- `LOFT_RUNS` (RO): Runs queued. -/
abbrev LOFT_RUNS : Nat := at_ pgLOFT (0x0120)
/-- `LOFT_CNT_CLR` (WO): PEAK[0] clears LOFT_PEAK. -/
abbrev LOFT_CNT_CLR : Nat := at_ pgLOFT (0x0124)

/-! Block FDB, page 0x043. -/

/-- The page of FDB. -/
abbrev pgFDB : Nat := 0x043
/-- `FDB_CMD` (RW): Command, Table 07.14. -/
abbrev FDB_CMD : Nat := at_ pgFDB (0x0100)
/-- `FDB_DATA` (RW): Entry word. -/
abbrev FDB_DATA (n : Nat) : Nat := at_ pgFDB (0x0104 + 0x4 * n)
/-- `FDB_AGE` (RW): Ageing time in seconds. -/
abbrev FDB_AGE : Nat := at_ pgFDB (0x0120)
/-- `FDB_USED` (RO): Valid entries. -/
abbrev FDB_USED : Nat := at_ pgFDB (0x0124)

/-! Block STRM, page 0x044. -/

/-- The page of STRM. -/
abbrev pgSTRM : Nat := 0x044
/-- `STRM_CMD` (RW): Command, Table 07.14. -/
abbrev STRM_CMD : Nat := at_ pgSTRM (0x0100)
/-- `STRM_DATA` (RW): Entry word. -/
abbrev STRM_DATA (n : Nat) : Nat := at_ pgSTRM (0x0104 + 0x4 * n)

/-! Block ETH, page 0x048. -/

/-- The page of ETH. -/
abbrev pgETH (p : Nat) : Nat := 0x048 + p
/-- `ETH_CFG` (RW): Port enable and interface. -/
abbrev ETH_CFG (p : Nat) : Nat := at_ (pgETH p) (0x0100)
/-- `ETH_PHY` (RW): PHY role, tests and SQI threshold. -/
abbrev ETH_PHY (p : Nat) : Nat := at_ (pgETH p) (0x0104)
/-- `ETH_PHY_STAT` (RO): PHY status. -/
abbrev ETH_PHY_STAT (p : Nat) : Nat := at_ (pgETH p) (0x0108)
/-- `ETH_PLCA` (RW): PLCA settings. -/
abbrev ETH_PLCA (p : Nat) : Nat := at_ (pgETH p) (0x010C)
/-- `ETH_GATE` (RO): Gate states. -/
abbrev ETH_GATE (p : Nat) : Nat := at_ (pgETH p) (0x0110)
/-- `ETH_GUARD` (RW): Guard of R333 in ns, bits 15:0, 0 to 1,000. -/
abbrev ETH_GUARD (p : Nat) : Nat := at_ (pgETH p) (0x0114)
/-- `ETH_CBS` (RW): Shaper of CL4 or CL5. -/
abbrev ETH_CBS (p n : Nat) : Nat := at_ (pgETH p) (0x0120 + 0x4 * n)
/-- `ETH_CREDIT` (RO): Credit in bits, signed. -/
abbrev ETH_CREDIT (p n : Nat) : Nat := at_ (pgETH p) (0x0128 + 0x4 * n)
/-- `ETH_PMAC` (RW): Preemption. -/
abbrev ETH_PMAC (p : Nat) : Nat := at_ (pgETH p) (0x0130)
/-- `ETH_PTP` (RW): PTP roles. -/
abbrev ETH_PTP (p : Nat) : Nat := at_ (pgETH p) (0x0140)
/-- `ETH_PTP_LAT` (RW): TX_LAT[31:16] and RX_LAT[15:0] in ns, P0 to P3. -/
abbrev ETH_PTP_LAT (p : Nat) : Nat := at_ (pgETH p) (0x0144)
/-- `ETH_PTP_DELAY` (RW): Static link delay in ns, bits 15:0. -/
abbrev ETH_PTP_DELAY (p : Nat) : Nat := at_ (pgETH p) (0x0148)
/-- `ETH_TC10` (RW): TC10. -/
abbrev ETH_TC10 (p : Nat) : Nat := at_ (pgETH p) (0x0150)
/-- `ETH_TC10_FWD` (RW): Bit p − 4 forwards wakes to Pp, bits 23:0. -/
abbrev ETH_TC10_FWD (p : Nat) : Nat := at_ (pgETH p) (0x0154)
/-- `ETH_MDIO` (RW): MDIO frame, P0 to P3. -/
abbrev ETH_MDIO (p : Nat) : Nat := at_ (pgETH p) (0x0160)
/-- `ETH_CNT_SEL` (RW): CNT[4:0]: counter number of Table 08.9. -/
abbrev ETH_CNT_SEL (p : Nat) : Nat := at_ (pgETH p) (0x0170)
/-- `ETH_CNT_LO` (RO): Bits 31:0. -/
abbrev ETH_CNT_LO (p : Nat) : Nat := at_ (pgETH p) (0x0174)
/-- `ETH_CNT_HI` (RO): Bits 63:32. -/
abbrev ETH_CNT_HI (p : Nat) : Nat := at_ (pgETH p) (0x0178)
/-- `ETH_CNT_CLR` (WO): Clears the counter named by CNT[4:0]. -/
abbrev ETH_CNT_CLR (p : Nat) : Nat := at_ (pgETH p) (0x017C)
/-- `ETH_PTPI_CFG` (RW): Instance i, ETH0 only. -/
abbrev ETH_PTPI_CFG (p n : Nat) : Nat := at_ (pgETH p) (0x0800 + 0x20 * n)
/-- `ETH_PTPI_OFS` (RO): Last offset from the grandmaster in ns, signed, saturating. -/
abbrev ETH_PTPI_OFS (p n : Nat) : Nat := at_ (pgETH p) (0x0804 + 0x20 * n)
/-- `ETH_PTPI_STAT` (RO): Instance status, ETH0 only. -/
abbrev ETH_PTPI_STAT (p n : Nat) : Nat := at_ (pgETH p) (0x0808 + 0x20 * n)

/-! Block MSEC, page 0x06C. -/

/-- The page of MSEC. -/
abbrev pgMSEC : Nat := 0x06C
/-- `MSEC_CMD` (RW): Command, layout of Table 07.14. -/
abbrev MSEC_CMD : Nat := at_ pgMSEC (0x0100)
/-- `MSEC_DATA` (RW): Entry word w, 0 to 7, Table 08.4. -/
abbrev MSEC_DATA (n : Nat) : Nat := at_ pgMSEC (0x0104 + 0x4 * n)
/-- `MSEC_BYPASS` (RW): Two bypass EtherTypes, bits 31:16 and 15:0. -/
abbrev MSEC_BYPASS : Nat := at_ pgMSEC (0x0180)
/-- `MSEC_PORT` (RW): EN[31], VALIDATE[30:29] (0 Disabled, 1 Check, 2 Strict), CONF[28] (encrypt), SCI_INCL[27],. -/
abbrev MSEC_PORT (n : Nat) : Nat := at_ pgMSEC (0x0200 + 0x4 * n)

/-! Block CAN, page 0x070. -/

/-- The page of CAN. -/
abbrev pgCAN (p : Nat) : Nat := 0x070 + p
/-- `CAN_CFG` (RW): Protocol and modes. -/
abbrev CAN_CFG (p : Nat) : Nat := at_ (pgCAN p) (0x0100)
/-- `CAN_NBT` (RW): Nominal bit timing, 500 kbit/s at an 80 % sample point. -/
abbrev CAN_NBT (p : Nat) : Nat := at_ (pgCAN p) (0x0104)
/-- `CAN_DBT` (RW): FD data bit timing, 2 Mbit/s at 80 %. -/
abbrev CAN_DBT (p : Nat) : Nat := at_ (pgCAN p) (0x0108)
/-- `CAN_XBT` (RW): XL data bit timing, 8 Mbit/s at 75 %. -/
abbrev CAN_XBT (p : Nat) : Nat := at_ (pgCAN p) (0x010C)
/-- `CAN_TDC` (RW): EN[31], TDC_MEAS[23:16] RO, TDCO[6:0]. -/
abbrev CAN_TDC (p : Nat) : Nat := at_ (pgCAN p) (0x0110)
/-- `CAN_XPWM` (RW): PWMS[21:16], PWML[13:8], PWMO[5:0] in clock cycles. -/
abbrev CAN_XPWM (p : Nat) : Nat := at_ (pgCAN p) (0x0114)
/-- `CAN_ERR` (RO): Error state. -/
abbrev CAN_ERR (p : Nat) : Nat := at_ (pgCAN p) (0x0118)
/-- `CAN_RECOV` (RW): GO[31] W1S, SEQ[7:0] RO. -/
abbrev CAN_RECOV (p : Nat) : Nat := at_ (pgCAN p) (0x011C)
/-- `CAN_ALONE` (RW): ACK_RUN[31:16] RO (consecutive acknowledgement errors, saturating), LIM[15:0]. -/
abbrev CAN_ALONE (p : Nat) : Nat := at_ (pgCAN p) (0x0120)
/-- `CAN_TXREQ` (WO): OBJ[6:0]: trigger under R378. -/
abbrev CAN_TXREQ (p : Nat) : Nat := at_ (pgCAN p) (0x0124)
/-- `CAN_PENDING` (RO): Bit j: object 32m + j pending, m = 0 to 3. -/
abbrev CAN_PENDING (p n : Nat) : Nat := at_ (pgCAN p) (0x0128 + 0x4 * n)
/-- `CAN_CNT_SEL` (RW): CNT[4:0]: counter of Table 09.10. -/
abbrev CAN_CNT_SEL (p : Nat) : Nat := at_ (pgCAN p) (0x0140)
/-- `CAN_CNT_LO` (RO): Bits 31:0. -/
abbrev CAN_CNT_LO (p : Nat) : Nat := at_ (pgCAN p) (0x0144)
/-- `CAN_CNT_HI` (RO): Bits 63:32. -/
abbrev CAN_CNT_HI (p : Nat) : Nat := at_ (pgCAN p) (0x0148)
/-- `CAN_CNT_CLR` (WO): Clears the counter named by CNT[4:0]. -/
abbrev CAN_CNT_CLR (p : Nat) : Nat := at_ (pgCAN p) (0x014C)
/-- `CAN_OBJ` (RW, RO, W1C): Object, Table 09.2. -/
abbrev CAN_OBJ (p n w : Nat) : Nat := at_ (pgCAN p) (0x1000 + 0x40 * n + 4 * w)
/-- `CAN_RAM` (RW): 8 KiB on CAN0 to CAN11 and 32 KiB on CAN12 to CAN15. -/
abbrev CAN_RAM (p n : Nat) : Nat := at_ (pgCAN p) (0x8000 + 0x4 * n)

/-! Block LIN, page 0x080. -/

/-- The page of LIN. -/
abbrev pgLIN (p : Nat) : Nat := 0x080 + p
/-- `LIN_CFG` (RW): ROLE[31] (1 commander), TERM[30] (commander termination of 1 kΩ), BREAK[28:24] (13 to 26 b. -/
abbrev LIN_CFG (p : Nat) : Nat := at_ (pgLIN p) (0x0100)
/-- `LIN_STAT` (RO): BUSY[31], LAST_ENTRY[7:0]. -/
abbrev LIN_STAT (p : Nat) : Nat := at_ (pgLIN p) (0x0104)
/-- `LIN_CUE_IGN` (RO): Ignored cues, saturating. -/
abbrev LIN_CUE_IGN (p : Nat) : Nat := at_ (pgLIN p) (0x0108)
/-- `LIN_OVERRUN_CNT` (RO): Overrun cues, saturating. -/
abbrev LIN_OVERRUN_CNT (p : Nat) : Nat := at_ (pgLIN p) (0x010C)
/-- `LIN_SCH` (RW): Schedule entry, Table 09.7. -/
abbrev LIN_SCH (p n : Nat) : Nat := at_ (pgLIN p) (0x1000 + 0x4 * n)
/-- `LIN_RSP` (RW): Response entry, Table 09.7, f = 0 to 63. -/
abbrev LIN_RSP (p n : Nat) : Nat := at_ (pgLIN p) (0x2000 + 0x4 * n)
/-- `LIN_BUF_ST` (RO, W1C): Status under R404. -/
abbrev LIN_BUF_ST (p n : Nat) : Nat := at_ (pgLIN p) (0x3000 + 0x10 * n)
/-- `LIN_BUF_DLO` (RW): Data bytes 0 to 3. -/
abbrev LIN_BUF_DLO (p n : Nat) : Nat := at_ (pgLIN p) (0x3004 + 0x10 * n)
/-- `LIN_BUF_DHI` (RW): Data bytes 4 to 7. -/
abbrev LIN_BUF_DHI (p n : Nat) : Nat := at_ (pgLIN p) (0x3008 + 0x10 * n)

/-! Block NMU, page 0x088. -/

/-- The page of NMU. -/
abbrev pgNMU : Nat := 0x088
/-- `NMU_VOTE` (RW): Bit c: local vote of channel c, bits 23:0. -/
abbrev NMU_VOTE : Nat := at_ pgNMU (0x0100)
/-- `NMU_STATE` (RO): Channel 8r + j in bits 4j + 3:4j, r = 0 to 2. -/
abbrev NMU_STATE (n : Nat) : Nat := at_ pgNMU (0x0104 + 0x4 * n)
/-- `NMU_CFG` (RW): COMMIT[4:0]: commit window in ms, 1 to 20. -/
abbrev NMU_CFG : Nat := at_ pgNMU (0x0110)
/-- `NMU_KA_LIMIT` (RW): Keep-awake limit in s, bits 15:0, 10 to 65,535. -/
abbrev NMU_KA_LIMIT : Nat := at_ pgNMU (0x0114)
/-- `NMU_WAKE_PEND` (W1C): Bit n: a wake of code n was latched, bits 9:1. -/
abbrev NMU_WAKE_PEND : Nat := at_ pgNMU (0x0118)
/-- `NMU_WAKE_LAST` (RO): CODE[31:28], CH[20:16], DETAIL[7:0] (input, port or LIN channel). -/
abbrev NMU_WAKE_LAST : Nat := at_ pgNMU (0x011C)
/-- `NMU_ETYPE` (RW): NM EtherType, bits 15:0. -/
abbrev NMU_ETYPE : Nat := at_ pgNMU (0x0120)
/-- `NMU_DEST_LO` (RW): Destination bits 31:0. -/
abbrev NMU_DEST_LO : Nat := at_ pgNMU (0x0124)
/-- `NMU_DEST_HI` (RW): Destination bits 47:32, in bits 15:0. -/
abbrev NMU_DEST_HI : Nat := at_ pgNMU (0x0128)
/-- `NMU_WIN_CFG` (RW): EN[31], LEVEL[30], DRIVE[29:28] (n = 8 only), FILT[7:0]; n = 0 to 8. -/
abbrev NMU_WIN_CFG (n : Nat) : Nat := at_ pgNMU (0x0140 + 0x8 * n)
/-- `NMU_WIN_MAP` (RW): Channels woken, bits 23:0. -/
abbrev NMU_WIN_MAP (n : Nat) : Nat := at_ pgNMU (0x0144 + 0x8 * n)
/-- `NMU_CH` (RW): Channel entry. -/
abbrev NMU_CH (n w : Nat) : Nat := at_ pgNMU (0x1000 + 0x20 * n + 4 * w)
/-- `NMU_TXD` (RW): Own NM data, bytes 0 to 3 and 4 to 7. -/
abbrev NMU_TXD (n w : Nat) : Nat := at_ pgNMU (0x1400 + 0x8 * n + 4 * w)
/-- `NMU_SWF` (RW): Filter of CANn, n = 0 to 11. -/
abbrev NMU_SWF (n w : Nat) : Nat := at_ pgNMU (0x2000 + 0x20 * n + 4 * w)
/-- `NMU_KA_REP` (RO, W1C): Report, Table 11.6. -/
abbrev NMU_KA_REP (w : Nat) : Nat := at_ pgNMU (0x3000 + 4 * w)

/-! Block RIO, page 0x089. -/

/-- The page of RIO. -/
abbrev pgRIO : Nat := 0x089
/-- `RIO_ETYPE` (RW): Sheaf EtherType, bits 15:0. -/
abbrev RIO_ETYPE : Nat := at_ pgRIO (0x0100)
/-- `RIO_MAC_LO` (RW): Module address bits 31:0. -/
abbrev RIO_MAC_LO : Nat := at_ pgRIO (0x0104)
/-- `RIO_MAC_HI` (RW): Module address bits 47:32, in bits 15:0. -/
abbrev RIO_MAC_HI : Nat := at_ pgRIO (0x0108)
/-- `RIO_CUE_IGN` (RO): Ignored cues, saturating. -/
abbrev RIO_CUE_IGN : Nat := at_ pgRIO (0x010C)
/-- `RIO_PRESENT` (RO): Bit j: station 32m + j is PRESENT, for m = 0 to 7. -/
abbrev RIO_PRESENT (n : Nat) : Nat := at_ pgRIO (0x0110 + 0x4 * n)
/-- `RIO_EVT_STN` (RO): PRESENT[15:8] and ABSENT[7:0]: stations of the last such events. -/
abbrev RIO_EVT_STN : Nat := at_ pgRIO (0x0130)
/-- `RIO_CNT_SEL` (RW): STN[23:16], CNT[4:0]: counter of Table 10.8. -/
abbrev RIO_CNT_SEL : Nat := at_ pgRIO (0x0140)
/-- `RIO_CNT_LO` (RO): Bits 31:0. -/
abbrev RIO_CNT_LO : Nat := at_ pgRIO (0x0144)
/-- `RIO_CNT_HI` (RO): Bits 63:32. -/
abbrev RIO_CNT_HI : Nat := at_ pgRIO (0x0148)
/-- `RIO_CNT_CLR` (WO): Clears the counter named in the layout of RIO_CNT_SEL. -/
abbrev RIO_CNT_CLR : Nat := at_ pgRIO (0x014C)
/-- `RIO_STN` (RW): Station entry, Table 10.7. -/
abbrev RIO_STN (n w : Nat) : Nat := at_ pgRIO (0x1000 + 0x20 * n + 4 * w)
/-- `RIO_ST` (RO): Station status, Table 10.7. -/
abbrev RIO_ST (n w : Nat) : Nat := at_ pgRIO (0x4000 + 0x10 * n + 4 * w)

/-! Block TUN, page 0x08A. -/

/-- The page of TUN. -/
abbrev pgTUN : Nat := 0x08A
/-- `TUN_MAC_LO` (RW): Source address bits 31:0. -/
abbrev TUN_MAC_LO : Nat := at_ pgTUN (0x0100)
/-- `TUN_MAC_HI` (RW): Source address bits 47:32, in bits 15:0. -/
abbrev TUN_MAC_HI : Nat := at_ pgTUN (0x0104)
/-- `TUN_NO_ROUTE` (RO): Messages without a route, saturating. -/
abbrev TUN_NO_ROUTE : Nat := at_ pgTUN (0x0108)
/-- `TUN_CNT_SEL` (RW): ROUTE[23:16], CNT[3:0]: 0 MESSAGES, 1 FRAMES, 2 LATE, 3 LATE_DROP, 4 TS_ERR, 5 OVERFLOW, 6. -/
abbrev TUN_CNT_SEL : Nat := at_ pgTUN (0x0110)
/-- `TUN_CNT_LO` (RO): Bits 31:0. -/
abbrev TUN_CNT_LO : Nat := at_ pgTUN (0x0114)
/-- `TUN_CNT_HI` (RO): Bits 63:32. -/
abbrev TUN_CNT_HI : Nat := at_ pgTUN (0x0118)
/-- `TUN_CNT_CLR` (WO): Clears the counter named in the layout of TUN_CNT_SEL. -/
abbrev TUN_CNT_CLR : Nat := at_ pgTUN (0x011C)
/-- `TUN_RT` (RW): Route entry, Table 10.10. -/
abbrev TUN_RT (n w : Nat) : Nat := at_ pgTUN (0x1000 + 0x20 * n + 4 * w)

/-! Block SPN, page 0x090. -/

/-- The page of SPN. -/
abbrev pgSPN : Nat := 0x090
/-- `SPN_CFG` (RW): Table 12.8. -/
abbrev SPN_CFG : Nat := at_ pgSPN (0x0100)
/-- `SPN_LINK` (RO): UP[31], ROLE[30], SPEED[26:24] (1 to 4 for 2.5 GT/s to 16 GT/s), WIDTH[18:16] (lanes), LTS. -/
abbrev SPN_LINK : Nat := at_ pgSPN (0x0104)
/-- `SPN_VF` (RO): VF_EN[31], NUM_VFS[24:16], FLR_LAST[7:0]. -/
abbrev SPN_VF : Nat := at_ pgSPN (0x0108)
/-- `SPN_BAR` (RW): PREF[8], SIZE[5:0], for b = 0 to 2, under R479. -/
abbrev SPN_BAR (n : Nat) : Nat := at_ pgSPN (0x0110 + 0x4 * n)
/-- `SPN_ELOG_WR` (RO): Entries written, bits 15:0, wrapping. -/
abbrev SPN_ELOG_WR : Nat := at_ pgSPN (0x0120)
/-- `SPN_ELOG_RD` (RW): Entries read, bits 15:0. -/
abbrev SPN_ELOG_RD : Nat := at_ pgSPN (0x0124)
/-- `SPN_OUT_OPEN` (RO): Open outbound non-posted requests, bits 6:0. -/
abbrev SPN_OUT_OPEN : Nat := at_ pgSPN (0x0128)
/-- `SPN_IN_USE` (RO): Inbound entries in use: POSTED[21:16], NONPOSTED[4:0]. -/
abbrev SPN_IN_USE : Nat := at_ pgSPN (0x012C)
/-- `SPN_FLUSH` (WO): Write of length 0 to window w, under R474. -/
abbrev SPN_FLUSH (n : Nat) : Nat := at_ pgSPN (0x0180 + 0x4 * n)
/-- `SPN_OW` (RW): Outbound window, Table 12.2. -/
abbrev SPN_OW (n w : Nat) : Nat := at_ pgSPN (0x1000 + 0x10 * n + 4 * w)
/-- `SPN_IW` (RW): Inbound window, Table 12.3. -/
abbrev SPN_IW (n w : Nat) : Nat := at_ pgSPN (0x1200 + 0x10 * n + 4 * w)
/-- `SPN_MSIX` (RW): EN[31], EVT[10:0], for v = 0 to 31. -/
abbrev SPN_MSIX (n : Nat) : Nat := at_ pgSPN (0x1400 + 0x4 * n)
/-- `SPN_VFMAP` (RW): FIRST_VP[25:16], COUNT[10:0] (0 to 1,024), for v = 0 to 255. -/
abbrev SPN_VFMAP (n : Nat) : Nat := at_ pgSPN (0x2000 + 0x4 * n)
/-- `SPN_ELOG` (RO): Log entry, Table 12.5, for e = 0 to 31. -/
abbrev SPN_ELOG (n w : Nat) : Nat := at_ pgSPN (0x3000 + 0x10 * n + 4 * w)

/-! Block TWN, page 0x091. -/

/-- The page of TWN. -/
abbrev pgTWN : Nat := 0x091
/-- `TWN_CFG` (RW): Table 17.11. -/
abbrev TWN_CFG : Nat := at_ pgTWN (0x0100)
/-- `TWN_DEADLINE` (RW): ALT[31:16] and HB[15:0] in µs, under R637. -/
abbrev TWN_DEADLINE : Nat := at_ pgTWN (0x0104)
/-- `TWN_CAD` (RW): Bit j: cadence 32m + j twinned, m = 0 and 1. -/
abbrev TWN_CAD (n : Nat) : Nat := at_ pgTWN (0x0108 + 0x4 * n)
/-- `TWN_STATE` (RO): Table 17.11. -/
abbrev TWN_STATE : Nat := at_ pgTWN (0x0110)
/-- `TWN_PEER` (RO): Partner's last EPOCH[31:16], STATE[10:8], FLAGS[5:0]. -/
abbrev TWN_PEER : Nat := at_ pgTWN (0x0114)
/-- `TWN_LAST_SWITCH` (RO): TC0 tick bits 31:0 of the last authority change. -/
abbrev TWN_LAST_SWITCH : Nat := at_ pgTWN (0x0118)
/-- `TWN_DECLARE` (WO): GO[0]: declaration under R639. -/
abbrev TWN_DECLARE : Nat := at_ pgTWN (0x011C)
/-- `TWN_RESYNC` (WO): GO[0]: under Table 17.6. -/
abbrev TWN_RESYNC : Nat := at_ pgTWN (0x0120)
/-- `TWN_ALT_LO` (RW): Partner address bits 31:0. -/
abbrev TWN_ALT_LO : Nat := at_ pgTWN (0x0124)
/-- `TWN_ALT_HI` (RW): Bits 47:32, in bits 15:0. -/
abbrev TWN_ALT_HI : Nat := at_ pgTWN (0x0128)
/-- `TWN_ETYPE` (RW): Ethernet path EtherType, bits 15:0. -/
abbrev TWN_ETYPE : Nat := at_ pgTWN (0x012C)
/-- `TWN_LINK` (RO): LANE1[1], LANE0[0]: lane locked. -/
abbrev TWN_LINK : Nat := at_ pgTWN (0x0130)
/-- `TWN_HB_MISS_CNT` (RO): Heartbeats missed, saturating. -/
abbrev TWN_HB_MISS_CNT : Nat := at_ pgTWN (0x0140)
/-- `TWN_SIG_MISMATCH_CNT` (RO): Signature mismatches, saturating. -/
abbrev TWN_SIG_MISMATCH_CNT : Nat := at_ pgTWN (0x0144)
/-- `TWN_UNPAIRED_CNT` (RO): Unpaired cycles, saturating. -/
abbrev TWN_UNPAIRED_CNT : Nat := at_ pgTWN (0x0148)
/-- `TWN_CRC_ERR_CNT` (RO): Discarded frames, saturating. -/
abbrev TWN_CRC_ERR_CNT : Nat := at_ pgTWN (0x014C)
/-- `TWN_CNT_CLR` (WO): Bits 0 to 3 clear the four counters above, in order. -/
abbrev TWN_CNT_CLR : Nat := at_ pgTWN (0x0150)
/-- `TWN_BUILD` (RW): Build words 0 to 7 for HELLO. -/
abbrev TWN_BUILD (n : Nat) : Nat := at_ pgTWN (0x0200 + 0x4 * n)

/-! Block PSS, page 0x0A0. -/

/-- The page of PSS. -/
abbrev pgPSS : Nat := 0x0A0
/-- `PSS_CFG` (RWL): Table 06.8. -/
abbrev PSS_CFG : Nat := at_ pgPSS (0x0100)
/-- `PSS_HB` (WO): Heartbeat under R247. -/
abbrev PSS_HB : Nat := at_ pgPSS (0x0104)
/-- `PSS_HB_NEXT` (RO): Expected sequence, bits 15:0. -/
abbrev PSS_HB_NEXT : Nat := at_ pgPSS (0x0108)
/-- `PSS_RELEASE` (WO): GO[0]: loss with cause 5. -/
abbrev PSS_RELEASE : Nat := at_ pgPSS (0x010C)
/-- `PSS_HOLD_LEFT` (RO): ms left in the hold window, bits 10:0. -/
abbrev PSS_HOLD_LEFT : Nat := at_ pgPSS (0x0110)
/-- `PSS_LH_IN` (RO): Filtered pin levels, bit p for LHp. -/
abbrev PSS_LH_IN : Nat := at_ pgPSS (0x0114)
/-- `PSS_DISCARD_CNT` (RO): Discarded commands, saturating. -/
abbrev PSS_DISCARD_CNT : Nat := at_ pgPSS (0x0118)
/-- `PSS_LOSS_CNT` (RO): Losses of the main logic, saturating. -/
abbrev PSS_LOSS_CNT : Nat := at_ pgPSS (0x011C)
/-- `PSS_RESTART_CNT` (RO): PSS restarts, saturating. -/
abbrev PSS_RESTART_CNT : Nat := at_ pgPSS (0x0120)
/-- `PSS_POLICY` (RWL): Channel 16r + j in bits 2j + 1:2j, for r = 0 to 4. -/
abbrev PSS_POLICY (n : Nat) : Nat := at_ pgPSS (0x0140 + 0x4 * n)
/-- `PSS_TAKE_CTRL` (WO): CLR[1] clears the mask bits. -/
abbrev PSS_TAKE_CTRL : Nat := at_ pgPSS (0x0200)
/-- `PSS_TAKE_MASK` (RO): For m = 0 to 2, bit j marks PSS_TAKE(32m + j) as written. -/
abbrev PSS_TAKE_MASK (n : Nat) : Nat := at_ pgPSS (0x0204 + 0x4 * n)
/-- `PSS_TAKE` (RW): Image word of channel c, Table 05.3. -/
abbrev PSS_TAKE (n : Nat) : Nat := at_ pgPSS (0x0400 + 0x4 * n)
/-- `PSS_MAP_STAGE` (RW): Staged map word w, 0 to 17. -/
abbrev PSS_MAP_STAGE (n : Nat) : Nat := at_ pgPSS (0x0600 + 0x4 * n)
/-- `PSS_MAP_PROG` (WO): Programming key under R264. -/
abbrev PSS_MAP_PROG : Nat := at_ pgPSS (0x0680)
/-- `PSS_MAP_STATUS` (RO): Table 06.10. -/
abbrev PSS_MAP_STATUS : Nat := at_ pgPSS (0x0684)
/-- `PSS_MAP` (RO): Map in use, word w, 0 to 17. -/
abbrev PSS_MAP (n : Nat) : Nat := at_ pgPSS (0x0700 + 0x4 * n)

/-! Block PCH, page 0x0A1. -/

/-- The page of PCH. -/
abbrev pgPCH (p : Nat) : Nat := 0x0A1 + p
/-- `PCH_CFG` (RW): Protection settings, Table 05.11. -/
abbrev PCH_CFG (p n : Nat) : Nat := at_ (pgPCH p) (0x0100 + 0x40 * n)
/-- `PCH_LIM` (RW): Limits, Table 05.12. -/
abbrev PCH_LIM (p n : Nat) : Nat := at_ (pgPCH p) (0x0104 + 0x40 * n)
/-- `PCH_WIRE` (RW): Wire model, Table 05.13. -/
abbrev PCH_WIRE (p n : Nat) : Nat := at_ (pgPCH p) (0x0108 + 0x40 * n)
/-- `PCH_PWM` (RW): PWM, Table 05.14. -/
abbrev PCH_PWM (p n : Nat) : Nat := at_ (pgPCH p) (0x010C + 0x40 * n)
/-- `PCH_DIAG` (RW): Diagnostics, Table 05.15. -/
abbrev PCH_DIAG (p n : Nat) : Nat := at_ (pgPCH p) (0x0110 + 0x40 * n)
/-- `PCH_CMD` (RW): Standing command, Table 05.3. -/
abbrev PCH_CMD (p n : Nat) : Nat := at_ (pgPCH p) (0x0114 + 0x40 * n)
/-- `PCH_MEAS` (RO): Measurements, Table 05.16. -/
abbrev PCH_MEAS (p n : Nat) : Nat := at_ (pgPCH p) (0x0118 + 0x40 * n)
/-- `PCH_STATE` (RO): State and flags, Table 05.17. -/
abbrev PCH_STATE (p n : Nat) : Nat := at_ (pgPCH p) (0x011C + 0x40 * n)
/-- `PCH_CNT` (RO): SHORT[31:24] (R211 and R212 trips), WIRE[23:16], TEMP[15:8], LOAD[7:0], each saturating. -/
abbrev PCH_CNT (p n : Nat) : Nat := at_ (pgPCH p) (0x0120 + 0x40 * n)
/-- `PCH_CLR` (WO): CNT_CLR[1] clears PCH_CNTk. -/
abbrev PCH_CLR (p n : Nat) : Nat := at_ (pgPCH p) (0x0124 + 0x40 * n)

/-! Block LPM, page 0x0AA. -/

/-- The page of LPM. -/
abbrev pgLPM : Nat := 0x0AA
/-- `LPM_AMB_CFG` (RW): Ambient source a, Table 05.19. -/
abbrev LPM_AMB_CFG (n : Nat) : Nat := at_ pgLPM (0x0100 + 0x4 * n)
/-- `LPM_AMB_VAL` (RO): FALLBACK_USED[31], value in °C plus 50 in bits 7:0. -/
abbrev LPM_AMB_VAL (n : Nat) : Nat := at_ pgLPM (0x0110 + 0x4 * n)
/-- `LPM_BUS12A` (RO): Current as a 1 s mean in units of 100 mA in bits 31:16, voltage in units of 10 mV in bits . -/
abbrev LPM_BUS12A : Nat := at_ pgLPM (0x0120)
/-- `LPM_BUS12B` (RO): As LPM_BUS12A. -/
abbrev LPM_BUS12B : Nat := at_ pgLPM (0x0124)
/-- `LPM_BUS48` (RO): As LPM_BUS12A. -/
abbrev LPM_BUS48 : Nat := at_ pgLPM (0x0128)
/-- `LPM_DIP_CFG` (RW): THR48[15:8]: IN48 dip threshold in V, 8 to 36. -/
abbrev LPM_DIP_CFG : Nat := at_ pgLPM (0x0130)
/-- `LPM_DIP_LAST` (RO): BUS[31:30] (0 IN12A, 1 IN12B, 2 IN48), dip length in µs in bits 23:0, saturating. -/
abbrev LPM_DIP_LAST : Nat := at_ pgLPM (0x0134)
/-- `LPM_DIP_CNT` (RO): Dips, saturating. -/
abbrev LPM_DIP_CNT : Nat := at_ pgLPM (0x0138)
/-- `LPM_WIRE_START` (RW): Start rise in K, bits 7:0, 0 to 100, under R224. -/
abbrev LPM_WIRE_START : Nat := at_ pgLPM (0x0140)
/-- `LPM_PROF_VALID` (RO): Bit p: profile p valid. -/
abbrev LPM_PROF_VALID : Nat := at_ pgLPM (0x0150)
/-- `LPM_PROF` (RW): Profile record, Table 05.5. -/
abbrev LPM_PROF (n w : Nat) : Nat := at_ pgLPM (0x1000 + 0x80 * n + 4 * w)

/-! Block AIN, page 0x0AB. -/

/-- The page of AIN. -/
abbrev pgAIN : Nat := 0x0AB
/-- `AIN_CFG` (RW): MODE[31:30], PULL[29:28] (0 none, 1 up, 2 down), THR[11:0]. -/
abbrev AIN_CFG (n : Nat) : Nat := at_ pgAIN (0x0100 + 0x4 * n)
/-- `AIN_BURST_W0` (RW): Bit i: input i selected, inputs 0 to 31. -/
abbrev AIN_BURST_W0 (n : Nat) : Nat := at_ pgAIN (0x0200 + 0x8 * n)
/-- `AIN_BURST_W1` (RW): EN[31]. -/
abbrev AIN_BURST_W1 (n : Nat) : Nat := at_ pgAIN (0x0204 + 0x8 * n)
/-- `AIN_NTC` (RW): RATIO[27:16], TEMP[7:0] in °C plus 50. -/
abbrev AIN_NTC (n : Nat) : Nat := at_ pgAIN (0x0300 + 0x4 * n)
/-- `AIN_DIN_LO` (RO): Present digital levels, inputs 0 to 31. -/
abbrev AIN_DIN_LO : Nat := at_ pgAIN (0x0340)
/-- `AIN_DIN_HI` (RO): Inputs 32 to 47, bits 15:0. -/
abbrev AIN_DIN_HI : Nat := at_ pgAIN (0x0344)
/-- `AIN_OVERRUN` (RO): Cues without effect under R708, saturating. -/
abbrev AIN_OVERRUN : Nat := at_ pgAIN (0x0348)
/-- `AIN_RES` (RO): Last completed record of burst b. -/
abbrev AIN_RES (n w : Nat) : Nat := at_ pgAIN (0x1000 + 0x80 * n + 4 * w)

/-! Block RVE, page 0x0B0. -/

/-- The page of RVE. -/
abbrev pgRVE : Nat := 0x0B0
/-- `RVE_POLICY` (RW): Table 13.10. -/
abbrev RVE_POLICY : Nat := at_ pgRVE (0x0100)
/-- `RVE_T0_POOL` (RW): IN_USE[25:16] RO, FRAMES[9:0] 0 to 512. -/
abbrev RVE_T0_POOL : Nat := at_ pgRVE (0x0104)
/-- `RVE_MIG_BW` (RW): Moves per epoch, bits 7:0, 1 to 255. -/
abbrev RVE_MIG_BW : Nat := at_ pgRVE (0x0108)
/-- `RVE_RIPEN` (RW): EPOCHS[7:0], 1 to 255. -/
abbrev RVE_RIPEN : Nat := at_ pgRVE (0x010C)
/-- `RVE_MOVES` (RO): Moves completed, wrapping. -/
abbrev RVE_MOVES : Nat := at_ pgRVE (0x0110)
/-- `RVE_ABANDONED` (RO): Moves abandoned, saturating. -/
abbrev RVE_ABANDONED : Nat := at_ pgRVE (0x0114)
/-- `RVE_LOG_WR` (RO): Log entries written, wrapping. -/
abbrev RVE_LOG_WR : Nat := at_ pgRVE (0x0120)
/-- `RVE_BUDGET` (RW): MAX[25:16] 0 to 512, USED[9:0] RO. -/
abbrev RVE_BUDGET (n : Nat) : Nat := at_ pgRVE (0x0140 + 0x4 * n)
/-- `RVE_PIN` (RW): Range, Table 13.2. -/
abbrev RVE_PIN (n w : Nat) : Nat := at_ pgRVE (0x1000 + 0x10 * n + 4 * w)
/-- `RVE_LOG` (RO): Log entry, Table 13.3. -/
abbrev RVE_LOG (n w : Nat) : Nat := at_ pgRVE (0x2000 + 0x10 * n + 4 * w)

/-! Block XLT, page 0x0B1. -/

/-- The page of XLT. -/
abbrev pgXLT : Nat := 0x0B1
/-- `XLT_CTX_BASE_LO` (RWL): Context table address bits 31:15. -/
abbrev XLT_CTX_BASE_LO : Nat := at_ pgXLT (0x0100)
/-- `XLT_CTX_BASE_HI` (RWL): Address bits 39:32, in bits 7:0. -/
abbrev XLT_CTX_BASE_HI : Nat := at_ pgXLT (0x0104)
/-- `XLT_INV` (RW): GO[31] W1S, SCOPE[29:28] (0 all, 1 VMID, 2 VMID and page), VMID[25:16]. -/
abbrev XLT_INV : Nat := at_ pgXLT (0x0110)
/-- `XLT_INV_ADDR_LO` (RW): Page address bits 31:12 in bits 31:12. -/
abbrev XLT_INV_ADDR_LO : Nat := at_ pgXLT (0x0114)
/-- `XLT_INV_ADDR_HI` (RW): Page address bits 47:32, in bits 15:0. -/
abbrev XLT_INV_ADDR_HI : Nat := at_ pgXLT (0x0118)
/-- `XLT_FAULT_CNT` (RO): Faults, saturating. -/
abbrev XLT_FAULT_CNT : Nat := at_ pgXLT (0x0120)
/-- `XLT_LAST_FAULT` (RO): CAUSE[31:28], MID[23:16], VMID[9:0]. -/
abbrev XLT_LAST_FAULT : Nat := at_ pgXLT (0x0124)

/-! Block DMA, page 0x0B2. -/

/-- The page of DMA. -/
abbrev pgDMA (p : Nat) : Nat := 0x0B2 + p
/-- `DMA_ACTIVE` (RO): Bit c: channel ACTIVE. -/
abbrev DMA_ACTIVE (p : Nat) : Nat := at_ (pgDMA p) (0x0100)
/-- `DMA_PARKED` (RO): Bit c: channel PARKED. -/
abbrev DMA_PARKED (p : Nat) : Nat := at_ (pgDMA p) (0x0104)
/-- `DMA_CFG` (RW): Table 13.13. -/
abbrev DMA_CFG (p n : Nat) : Nat := at_ (pgDMA p) (0x1000 + 0x40 * n)
/-- `DMA_CFG2` (RW): VMID[25:16], RIPEN[15:0] in µs, where 0 disables ripening. -/
abbrev DMA_CFG2 (p n : Nat) : Nat := at_ (pgDMA p) (0x1004 + 0x40 * n)
/-- `DMA_CTRL` (WO): ABORT[2], RESUME[1], GO[0]. -/
abbrev DMA_CTRL (p n : Nat) : Nat := at_ (pgDMA p) (0x1008 + 0x40 * n)
/-- `DMA_STATE` (RO): STATE[31:28] (0 IDLE, 1 ACTIVE, 2 PARKED, 3 ABORTED), CAUSE[27:24] (0 none, 1 translation . -/
abbrev DMA_STATE (p n : Nat) : Nat := at_ (pgDMA p) (0x100C + 0x40 * n)
/-- `DMA_HEAD_LO` (RW): First descriptor, bits 31:5. -/
abbrev DMA_HEAD_LO (p n : Nat) : Nat := at_ (pgDMA p) (0x1010 + 0x40 * n)
/-- `DMA_HEAD_HI` (RW): Bits 47:32, in bits 15:0. -/
abbrev DMA_HEAD_HI (p n : Nat) : Nat := at_ (pgDMA p) (0x1014 + 0x40 * n)
/-- `DMA_CUR_LO` (RO): Current descriptor, bits 31:0. -/
abbrev DMA_CUR_LO (p n : Nat) : Nat := at_ (pgDMA p) (0x1018 + 0x40 * n)
/-- `DMA_CUR_HI` (RO): Bits 47:32. -/
abbrev DMA_CUR_HI (p n : Nat) : Nat := at_ (pgDMA p) (0x101C + 0x40 * n)
/-- `DMA_DONE` (RO): Bytes of the current descriptor written, bits 23:0. -/
abbrev DMA_DONE (p n : Nat) : Nat := at_ (pgDMA p) (0x1020 + 0x40 * n)
/-- `DMA_FADDR_LO` (RO): Faulting address bits 31:0. -/
abbrev DMA_FADDR_LO (p n : Nat) : Nat := at_ (pgDMA p) (0x1024 + 0x40 * n)
/-- `DMA_FADDR_HI` (RO): Bits 47:32. -/
abbrev DMA_FADDR_HI (p n : Nat) : Nat := at_ (pgDMA p) (0x1028 + 0x40 * n)
/-- `DMA_UNDEL` (RO): ACC[31:29] 0 to 4, BYTES[23:0]. -/
abbrev DMA_UNDEL (p n : Nat) : Nat := at_ (pgDMA p) (0x102C + 0x40 * n)
/-- `DMA_TAG` (RO): TAG of the last completed descriptor. -/
abbrev DMA_TAG (p n : Nat) : Nat := at_ (pgDMA p) (0x1030 + 0x40 * n)
/-- `DMA_OVERRUN` (RO): Triggers ignored under R514, saturating. -/
abbrev DMA_OVERRUN (p n : Nat) : Nat := at_ (pgDMA p) (0x1034 + 0x40 * n)

/-! Block MEMC, page 0x0B6. -/

/-- The page of MEMC. -/
abbrev pgMEMC : Nat := 0x0B6
/-- `MEMC_T1_CE` (RO): T1 corrected errors, saturating. -/
abbrev MEMC_T1_CE : Nat := at_ pgMEMC (0x0100)
/-- `MEMC_T1_UE` (RO): T1 uncorrectable errors, saturating. -/
abbrev MEMC_T1_UE : Nat := at_ pgMEMC (0x0104)
/-- `MEMC_T1_ADDR_LO` (RO): Last uncorrectable address, bits 31:0. -/
abbrev MEMC_T1_ADDR_LO : Nat := at_ pgMEMC (0x0108)
/-- `MEMC_T1_ADDR_HI` (RO): Bits 39:32, in bits 7:0. -/
abbrev MEMC_T1_ADDR_HI : Nat := at_ pgMEMC (0x010C)
/-- `MEMC_T0_CE` (RO): T0 corrected errors, saturating. -/
abbrev MEMC_T0_CE : Nat := at_ pgMEMC (0x0110)
/-- `MEMC_T0_UE` (RO): T0 uncorrectable errors, saturating. -/
abbrev MEMC_T0_UE : Nat := at_ pgMEMC (0x0114)
/-- `MEMC_T0_ADDR` (RO): Offset of the last T0 uncorrectable error, bits 24:0. -/
abbrev MEMC_T0_ADDR : Nat := at_ pgMEMC (0x0118)
/-- `MEMC_SCRUB` (RW): HOURS[7:0]: full T1 pass, 1 to 255. -/
abbrev MEMC_SCRUB : Nat := at_ pgMEMC (0x0120)
/-- `MEMC_UTIL` (RO): T1 utilisation of the last epoch in %, bits 6:0. -/
abbrev MEMC_UTIL : Nat := at_ pgMEMC (0x0124)
/-- `MEMC_FLASH_BANK` (RWL): BANK[1:0], under R496. -/
abbrev MEMC_FLASH_BANK : Nat := at_ pgMEMC (0x0128)
/-- `MEMC_REFRESH` (RO): Refresh rate multiplier set by device temperature, 1, 2 or 4, bits 2:0. -/
abbrev MEMC_REFRESH : Nat := at_ pgMEMC (0x012C)
/-- `MEMC_CNT_CLR` (WO): Bits 0 to 3 clear MEMC_T1_CE, MEMC_T1_UE, MEMC_T0_CE and MEMC_T0_UE, in order. -/
abbrev MEMC_CNT_CLR : Nat := at_ pgMEMC (0x0130)

/-! Block WGT, page 0x0C0. -/

/-- The page of WGT. -/
abbrev pgWGT : Nat := 0x0C0
/-- `WGT_L3_PART` (RWL): SECURE_WAYS[3:0], 0 to 8. -/
abbrev WGT_L3_PART : Nat := at_ pgWGT (0x0100)
/-- `WGT_HOLD_TO` (RW): Hold timeout in ms, bits 13:0, 1 to 10,000. -/
abbrev WGT_HOLD_TO : Nat := at_ pgWGT (0x0104)
/-- `WGT_HOLD_PD` (RW): Bit d: PDd marked, bits 23:0. -/
abbrev WGT_HOLD_PD : Nat := at_ pgWGT (0x0108)
/-- `WGT_PEND_PD` (RO): Bit d: a request for PDd is held. -/
abbrev WGT_PEND_PD : Nat := at_ pgWGT (0x010C)
/-- `WGT_DENY` (WO): KIND[31:30] (1 power, 2 clock), TARGET[9:0] (domain or page). -/
abbrev WGT_DENY : Nat := at_ pgWGT (0x0110)
/-- `WGT_REFUSE_CNT` (RO): Gate refusals, saturating. -/
abbrev WGT_REFUSE_CNT : Nat := at_ pgWGT (0x0114)
/-- `WGT_LOG_WR` (RO): Log entries written, bits 15:0, wrapping. -/
abbrev WGT_LOG_WR : Nat := at_ pgWGT (0x0118)
/-- `WGT_HOLD_PAGE` (RW): Bit j: page 32m + j marked, m = 0 to 31. -/
abbrev WGT_HOLD_PAGE (n : Nat) : Nat := at_ pgWGT (0x0180 + 0x4 * n)
/-- `WGT_PEND_PAGE` (RO): Bit j: a clock request for page 32m + j is held. -/
abbrev WGT_PEND_PAGE (n : Nat) : Nat := at_ pgWGT (0x0200 + 0x4 * n)
/-- `WGT_EVT_WORLD` (RWL): Bit j: event E(32m + j) is Secure, m = 0 to 63. -/
abbrev WGT_EVT_WORLD (n : Nat) : Nat := at_ pgWGT (0x0400 + 0x4 * n)
/-- `WGT_PAGE_VMID` (RWL): EN[31], VMID[9:0], for page p, under R557. -/
abbrev WGT_PAGE_VMID (n : Nat) : Nat := at_ pgWGT (0x1000 + 0x4 * n)
/-- `WGT_REG` (RWL): Region, Table 15.4. -/
abbrev WGT_REG (n w : Nat) : Nat := at_ pgWGT (0x2000 + 0x10 * n + 4 * w)
/-- `WGT_LOG` (RO): Log entry, Table 15.6. -/
abbrev WGT_LOG (n w : Nat) : Nat := at_ pgWGT (0x3000 + 0x8 * n + 4 * w)

/-! Block KEY, page 0x0C1. -/

/-- The page of KEY. -/
abbrev pgKEY : Nat := 0x0C1
/-- `KEY_CMD` (RW): OP[31:28], BUSY[27] RO, RESULT[26:24] RO, DST[23:16], SRC[15:8], AUX[7:0]. -/
abbrev KEY_CMD : Nat := at_ pgKEY (0x0100)
/-- `KEY_STAGE` (RW): New word 0, layout of Table 16.1. -/
abbrev KEY_STAGE : Nat := at_ pgKEY (0x0104)
/-- `KEY_ADDR_LO` (RW): Memory operand address bits 31:0. -/
abbrev KEY_ADDR_LO : Nat := at_ pgKEY (0x0108)
/-- `KEY_ADDR_HI` (RW): Bits 39:32, in bits 7:0. -/
abbrev KEY_ADDR_HI : Nat := at_ pgKEY (0x010C)
/-- `KEY_ADDR2_LO` (RW): Second copy for PERSIST_LOAD, bits 31:0. -/
abbrev KEY_ADDR2_LO : Nat := at_ pgKEY (0x0110)
/-- `KEY_ADDR2_HI` (RW): Bits 39:32, in bits 7:0. -/
abbrev KEY_ADDR2_HI : Nat := at_ pgKEY (0x0114)
/-- `KEY_LEN` (RW): Operand length in bytes, bits 12:0. -/
abbrev KEY_LEN : Nat := at_ pgKEY (0x0118)
/-- `KEY_LCS` (RO): PENDING[8], RETURNS[7:4], STATE[2:0]. -/
abbrev KEY_LCS : Nat := at_ pgKEY (0x0120)
/-- `KEY_LCS_ADV` (WO): Advance under R603. -/
abbrev KEY_LCS_ADV : Nat := at_ pgKEY (0x0124)
/-- `KEY_REMASK` (RO): Re-masking rounds, wrapping. -/
abbrev KEY_REMASK : Nat := at_ pgKEY (0x0128)
/-- `KEY_RNG` (RC): 32 random bits under R597. -/
abbrev KEY_RNG : Nat := at_ pgKEY (0x012C)
/-- `KEY_RNG_HEALTH` (RW): RESTART[31] W1S, APT_FAIL[15:8] RO, RCT_FAIL[7:0] RO, both saturating. -/
abbrev KEY_RNG_HEALTH : Nat := at_ pgKEY (0x0130)
/-- `KEY_PERSIST_SEQ` (RO): Sequence of the current record. -/
abbrev KEY_PERSIST_SEQ : Nat := at_ pgKEY (0x0134)
/-- `KEY_PERSIST_SRC` (RO): COPY[0]: 0 at KEY_ADDR, 1 at KEY_ADDR2, as last loaded or checked. -/
abbrev KEY_PERSIST_SRC : Nat := at_ pgKEY (0x0138)
/-- `KEY_CHALLENGE` (RO): Challenge, word 0 holding bytes 0 to 3. -/
abbrev KEY_CHALLENGE (n : Nat) : Nat := at_ pgKEY (0x0140 + 0x4 * n)
/-- `KEY_UID` (RO): UID from OTP. -/
abbrev KEY_UID (n : Nat) : Nat := at_ pgKEY (0x0150 + 0x4 * n)
/-- `KEY_AUTH_PK` (RO): SHA-256 digest of the authoriser's public key, from OTP. -/
abbrev KEY_AUTH_PK (n : Nat) : Nat := at_ pgKEY (0x0160 + 0x4 * n)
/-- `KEY_ATTR_W0` (RO): Tables 16.1 and 16.2. -/
abbrev KEY_ATTR_W0 (n : Nat) : Nat := at_ pgKEY (0x1000 + 0x8 * n)
/-- `KEY_ATTR_W1` (RO): Table 16.2. -/
abbrev KEY_ATTR_W1 (n : Nat) : Nat := at_ pgKEY (0x1004 + 0x8 * n)
/-- `KEY_GLN_CNT` (RO): Pops of KEY_RNG, wrapping (Table 13.7). -/
abbrev KEY_GLN_CNT : Nat := at_ pgKEY (0x0180)
/-- `KEY_GLN` (RO): Last four words popped, 0 newest. -/
abbrev KEY_GLN (n : Nat) : Nat := at_ pgKEY (0x0184 + 0x4 * n)
/-- `KEY_GLN_MID` (RO): Master ID of the pop of word k in bits 8k + 7:8k. -/
abbrev KEY_GLN_MID : Nat := at_ pgKEY (0x0194)

/-! Block CRY, page 0x0C2. -/

/-- The page of CRY. -/
abbrev pgCRY : Nat := 0x0C2
/-- `CRY_SUBMIT` (WO): Descriptor address bits 31:6. -/
abbrev CRY_SUBMIT (n : Nat) : Nat := at_ pgCRY (0x0100 + 0x8 * n)
/-- `CRY_QSTAT` (RO): DONE_CNT[31:16] wrapping, QUEUED[4:0]. -/
abbrev CRY_QSTAT (n : Nat) : Nat := at_ pgCRY (0x0104 + 0x8 * n)
/-- `CRY_SUBMIT_HI` (RW): Address bits 39:32 for the next submission, bits 7:0. -/
abbrev CRY_SUBMIT_HI : Nat := at_ pgCRY (0x0200)
/-- `CRY_BUSY` (RO): PKE[6], HASH[5:4], AES[3:0]: engines busy. -/
abbrev CRY_BUSY : Nat := at_ pgCRY (0x0204)

/-! Block CVU, page 0x0C3. -/

/-- The page of CVU. -/
abbrev pgCVU (p : Nat) : Nat := 0x0C3 + p
/-- `CVU_CFG` (RW): Table 16.14. -/
abbrev CVU_CFG (p : Nat) : Nat := at_ (pgCVU p) (0x0100)
/-- `CVU_START` (WO): GO[0]: starts a run under R610. -/
abbrev CVU_START (p : Nat) : Nat := at_ (pgCVU p) (0x0104)
/-- `CVU_INIT_LO` (RW): INIT bits 31:0. -/
abbrev CVU_INIT_LO (p : Nat) : Nat := at_ (pgCVU p) (0x0108)
/-- `CVU_INIT_HI` (RW): INIT bits 63:32. -/
abbrev CVU_INIT_HI (p : Nat) : Nat := at_ (pgCVU p) (0x010C)
/-- `CVU_XOR_LO` (RW): XOR bits 31:0. -/
abbrev CVU_XOR_LO (p : Nat) : Nat := at_ (pgCVU p) (0x0110)
/-- `CVU_XOR_HI` (RW): XOR bits 63:32. -/
abbrev CVU_XOR_HI (p : Nat) : Nat := at_ (pgCVU p) (0x0114)
/-- `CVU_DATA8` (WO): One byte, under R611. -/
abbrev CVU_DATA8 (p : Nat) : Nat := at_ (pgCVU p) (0x0120)
/-- `CVU_DATA16` (WO): Two bytes. -/
abbrev CVU_DATA16 (p : Nat) : Nat := at_ (pgCVU p) (0x0124)
/-- `CVU_DATA32` (WO): Four bytes. -/
abbrev CVU_DATA32 (p : Nat) : Nat := at_ (pgCVU p) (0x0128)
/-- `CVU_LEN` (RO): Bytes since CVU_START. -/
abbrev CVU_LEN (p : Nat) : Nat := at_ (pgCVU p) (0x012C)
/-- `CVU_RES_LO` (RO): Result bits 31:0. -/
abbrev CVU_RES_LO (p : Nat) : Nat := at_ (pgCVU p) (0x0130)
/-- `CVU_RES_HI` (RO): Result bits 63:32. -/
abbrev CVU_RES_HI (p : Nat) : Nat := at_ (pgCVU p) (0x0134)
/-- `CVU_EXPECT_LO` (RW): Expected bits 31:0, under R612. -/
abbrev CVU_EXPECT_LO (p : Nat) : Nat := at_ (pgCVU p) (0x0138)
/-- `CVU_EXPECT_HI` (RW): Expected bits 63:32. -/
abbrev CVU_EXPECT_HI (p : Nat) : Nat := at_ (pgCVU p) (0x013C)
/-- `CVU_CMP` (RO): MATCH[0]. -/
abbrev CVU_CMP (p : Nat) : Nat := at_ (pgCVU p) (0x0140)
/-- `CVU_ALIVE_GEN` (RW): VALUE[15:0]. -/
abbrev CVU_ALIVE_GEN (p : Nat) : Nat := at_ (pgCVU p) (0x0150)
/-- `CVU_ALIVE_IN` (WO): Received counter, bits 15:0. -/
abbrev CVU_ALIVE_IN (p : Nat) : Nat := at_ (pgCVU p) (0x0154)
/-- `CVU_ALIVE_ST` (RO): OUTCOME[31:29] (0 FIRST, 1 OK, 2 REPEAT, 3 LOST, 4 ERROR), DELTA[15:0]. -/
abbrev CVU_ALIVE_ST (p : Nat) : Nat := at_ (pgCVU p) (0x0158)

/-! Block VPT, page 0x0D0. -/

/-- The page of VPT. -/
abbrev pgVPT : Nat := 0x0D0
/-- `VPT_CMD` (RW): OP[31:28] (1 FREEZE, 2 THAW, 3 SAVE, 4 RESTORE, 5 clear counters), BUSY[27] RO, RESULT[26:. -/
abbrev VPT_CMD : Nat := at_ pgVPT (0x0100)
/-- `VPT_BLK_LO` (RW): Block address bits 31:6 in bits 31:6. -/
abbrev VPT_BLK_LO : Nat := at_ pgVPT (0x0104)
/-- `VPT_BLK_HI` (RW): Bits 39:32, in bits 7:0. -/
abbrev VPT_BLK_HI : Nat := at_ pgVPT (0x0108)
/-- `VPT_LAST` (RO): EVT[18:16], VP[9:0]. -/
abbrev VPT_LAST : Nat := at_ pgVPT (0x010C)
/-- `VPT_NOMATCH` (RO): Unmatched frames on P36 (h = 0) and P37 (h = 1), saturating. -/
abbrev VPT_NOMATCH (n : Nat) : Nat := at_ pgVPT (0x0110 + 0x4 * n)
/-- `VPT_BAD_DB` (RO): Ignored doorbells, saturating. -/
abbrev VPT_BAD_DB : Nat := at_ pgVPT (0x0118)
/-- `VPT_FREE` (RO): Free receive cells, bits 14:0. -/
abbrev VPT_FREE : Nat := at_ pgVPT (0x011C)
/-- `VPT_SEL` (RW): VP[9:0]: port of the entry, status and counter windows. -/
abbrev VPT_SEL : Nat := at_ pgVPT (0x0120)
/-- `VPT_ST` (RO): Table 14.7. -/
abbrev VPT_ST : Nat := at_ pgVPT (0x0124)
/-- `VPT_SHARE_NOW` (RO): NOW[31:16], USE[15:0] in cells. -/
abbrev VPT_SHARE_NOW : Nat := at_ pgVPT (0x0128)
/-- `VPT_CNT_SEL` (RW): CNT[2:0]: counter of Table 14.6. -/
abbrev VPT_CNT_SEL : Nat := at_ pgVPT (0x0130)
/-- `VPT_CNT_LO` (RO): Bits 31:0. -/
abbrev VPT_CNT_LO : Nat := at_ pgVPT (0x0134)
/-- `VPT_CNT_HI` (RO): Bits 63:32. -/
abbrev VPT_CNT_HI : Nat := at_ pgVPT (0x0138)
/-- `VPT_E` (RW): Entry word w, 0 to 15, Table 14.1. -/
abbrev VPT_E (n : Nat) : Nat := at_ pgVPT (0x0200 + 0x4 * n)
/-- `VPT_TXDB` (RW): HEAD[31:16] RO, TAIL[15:0]. -/
abbrev VPT_TXDB (n : Nat) : Nat := at_ pgVPT (0x8000 + 0x8 * n)
/-- `VPT_RXDB` (RW): HEAD[31:16] RO, TAIL[15:0]. -/
abbrev VPT_RXDB (n : Nat) : Nat := at_ pgVPT (0x8004 + 0x8 * n)

/-! Block REL, page 0x0E0. -/

/-- The page of REL. -/
abbrev pgREL : Nat := 0x0E0
/-- `REL_BASE_LO` (RW): Ring address bits 31:16 in bits 31:16. -/
abbrev REL_BASE_LO : Nat := at_ pgREL (0x0100)
/-- `REL_BASE_HI` (RW): Bits 39:32, in bits 7:0. -/
abbrev REL_BASE_HI : Nat := at_ pgREL (0x0104)
/-- `REL_SIZE` (RW): Ring blocks of 64 KiB, 16 to 4,096. -/
abbrev REL_SIZE : Nat := at_ pgREL (0x0108)
/-- `REL_SNAP_LO` (RW): Snapshot area bits 31:16 in bits 31:16. -/
abbrev REL_SNAP_LO : Nat := at_ pgREL (0x010C)
/-- `REL_SNAP_HI` (RW): Bits 39:32, in bits 7:0. -/
abbrev REL_SNAP_HI : Nat := at_ pgREL (0x0110)
/-- `REL_SNAP_INT` (RW): Snapshot interval in s, bits 7:0, 1 to 255. -/
abbrev REL_SNAP_INT : Nat := at_ pgREL (0x0114)
/-- `REL_WIN` (RW): PRE[31:16] and POST[15:0] in ticks of TC0. -/
abbrev REL_WIN : Nat := at_ pgREL (0x0118)
/-- `REL_CAD` (RW): Bit j: cadence 32m + j recorded, m = 0 and 1. -/
abbrev REL_CAD (n : Nat) : Nat := at_ pgREL (0x011C + 0x4 * n)
/-- `REL_TRIG` (RW): EN[31], EVT[10:0], k = 0 to 3. -/
abbrev REL_TRIG (n : Nat) : Nat := at_ pgREL (0x0124 + 0x4 * n)
/-- `REL_TRIG_SW` (WO): GO[0]. -/
abbrev REL_TRIG_SW : Nat := at_ pgREL (0x0134)
/-- `REL_STATE` (RO): STATE[31:28], SHORT[27], SRC[21:16] of the first trigger. -/
abbrev REL_STATE : Nat := at_ pgREL (0x0138)
/-- `REL_SEQ` (RO): Records written, wrapping. -/
abbrev REL_SEQ : Nat := at_ pgREL (0x013C)
/-- `REL_TRIG_TICK` (RO): TC0 tick bits 31:0 of the trigger. -/
abbrev REL_TRIG_TICK : Nat := at_ pgREL (0x0140)
/-- `REL_FIRST_TICK` (RO): Earliest start point held. -/
abbrev REL_FIRST_TICK : Nat := at_ pgREL (0x0144)
/-- `REL_LAST_TICK` (RO): Last Slate held. -/
abbrev REL_LAST_TICK : Nat := at_ pgREL (0x0148)
/-- `REL_DROP_CNT` (RO): Records dropped, saturating. -/
abbrev REL_DROP_CNT : Nat := at_ pgREL (0x014C)
/-- `REL_TRIG_LOST` (RO): Triggers ignored, saturating. -/
abbrev REL_TRIG_LOST : Nat := at_ pgREL (0x0150)
/-- `REL_REARM` (WO): GO[0] under R662. -/
abbrev REL_REARM : Nat := at_ pgREL (0x0154)
/-- `REL_DUMP` (RW): GO[31] W1S, BUSY[30] RO, RESULT[26:24] RO (0 done, 1 access failed), TARGET[17:16], DUMP_I. -/
abbrev REL_DUMP : Nat := at_ pgREL (0x0160)
/-- `REL_DUMP_LEN` (RO): Stream bytes. -/
abbrev REL_DUMP_LEN : Nat := at_ pgREL (0x0164)
/-- `REL_DEST_LO` (RW): Destination bits 31:0. -/
abbrev REL_DEST_LO : Nat := at_ pgREL (0x0168)
/-- `REL_DEST_HI` (RW): Bits 47:32, in bits 15:0. -/
abbrev REL_DEST_HI : Nat := at_ pgREL (0x016C)
/-- `REL_ETYPE` (RW): Dump EtherType, bits 15:0. -/
abbrev REL_ETYPE : Nat := at_ pgREL (0x0170)
/-- `REL_FLASH_OFS` (RW): Flash byte offset bits 31:16 in bits 31:16. -/
abbrev REL_FLASH_OFS : Nat := at_ pgREL (0x0174)
/-- `REL_TAKE_BASE_LO` (RW): Dump address bits 31:16 in bits 31:16. -/
abbrev REL_TAKE_BASE_LO : Nat := at_ pgREL (0x0180)
/-- `REL_TAKE_BASE_HI` (RW): Bits 39:32, in bits 7:0. -/
abbrev REL_TAKE_BASE_HI : Nat := at_ pgREL (0x0184)
/-- `REL_TAKE_START` (RW): Start point, tick bits 31:0. -/
abbrev REL_TAKE_START : Nat := at_ pgREL (0x0188)
/-- `REL_TAKE_CTRL` (RW): HALT_ON_DIV[8], GO[0] W1S. -/
abbrev REL_TAKE_CTRL : Nat := at_ pgREL (0x018C)
/-- `REL_TAKE_STAT` (RO): RESULT[26:24], DIV_CNT[15:0] saturating. -/
abbrev REL_TAKE_STAT : Nat := at_ pgREL (0x0190)
/-- `REL_TAKE_DIV` (RO): First divergence: CAD[29:24], TASK[8:0], with 0x1FF when only the signature differed. -/
abbrev REL_TAKE_DIV : Nat := at_ pgREL (0x0194)
/-- `REL_TAKE_TICK` (RO): Input cue tick of the last cycle replayed. -/
abbrev REL_TAKE_TICK : Nat := at_ pgREL (0x0198)

/-! Block DBG, page 0x0E1. -/

/-- The page of DBG. -/
abbrev pgDBG : Nat := 0x0E1
/-- `DBG_ATTACH` (RW): REQ[31] W1S, DETACH[30] W1S, TASK[8:0]. -/
abbrev DBG_ATTACH : Nat := at_ pgDBG (0x0100)
/-- `DBG_STATE` (RO): ATTACHED[31], HALTED[30], CAUSE[27:24] (1 request, 2 breakpoint, 3 step, 4 trap), ENGINE[2. -/
abbrev DBG_STATE : Nat := at_ pgDBG (0x0104)
/-- `DBG_HALT` (WO): STEP[2], RESUME[1], GO[0]. -/
abbrev DBG_HALT : Nat := at_ pgDBG (0x0108)
/-- `DBG_PC` (RO): Word address of the next instruction, bits 21:0. -/
abbrev DBG_PC : Nat := at_ pgDBG (0x010C)
/-- `DBG_ICOUNT` (RO): Instructions retired in the current run. -/
abbrev DBG_ICOUNT : Nat := at_ pgDBG (0x0110)
/-- `DBG_BP` (RW): EN[31], ADDR[21:0]. -/
abbrev DBG_BP (n : Nat) : Nat := at_ pgDBG (0x0120 + 0x4 * n)
/-- `DBG_GLO` (RW): Bits 31:0 of gn. -/
abbrev DBG_GLO (n : Nat) : Nat := at_ pgDBG (0x0200 + 0x4 * n)
/-- `DBG_GHI` (RW): Bit n is bit 32 of gn. -/
abbrev DBG_GHI : Nat := at_ pgDBG (0x0280)
/-- `DBG_B` (RW): Bit n is bn, bits 15:0. -/
abbrev DBG_B : Nat := at_ pgDBG (0x0284)

end Sys2Proof.Machine
end

