-- ==== Sys2Proof/Machine/Pages.lean ====
section
/-! DEFINITION. Table 22.1: which block each page belongs to, its type code, its power domain and its event lines;
and the value every register holds after reset. -/

namespace Sys2Proof.Machine

/-- A row of Table 22.1: the pages `first … first + count − 1` of one block kind; instance `i` drives the event lines
from `evBase + evStride × i`, `evCount` of them, from bit 0 of `EVT_RAW`. -/
structure PageRow where
  first : Nat
  count : Nat
  blk : Blk
  typ : Nat
  evBase : Nat
  evStride : Nat
  evCount : Nat
deriving DecidableEq, Repr

/-- Table 22.1. -/
def pageTable : List PageRow := [
  ⟨0x000, 1, .sys, 0x0001, 0, 0, 0⟩,
  ⟨0x001, 1, .pwr, 0x0002, 8, 0, 5⟩,
  ⟨0x002, 1, .sup, 0x0003, 0, 0, 6⟩,
  ⟨0x003, 1, .evr, 0x0004, 0, 0, 0⟩,
  ⟨0x004, 1, .boot, 0x0005, 1888, 0, 8⟩,
  ⟨0x005, 1, .hlt, 0x0006, 1856, 0, 5⟩,
  ⟨0x010, 1, .tcu, 0x0010, 64, 0, 24⟩,
  ⟨0x011, 1, .cue, 0x0011, 96, 0, 6⟩,
  ⟨0x020, 1, .cea, 0x0020, 128, 0, 14⟩,
  ⟨0x021, 18, .ce, 0x0021, 224, 4, 4⟩,
  ⟨0x033, 1, .imp, 0x0022, 296, 0, 4⟩,
  ⟨0x034, 1, .pgm, 0x0023, 304, 0, 3⟩,
  ⟨0x035, 1, .frc, 0x0024, 320, 0, 9⟩,
  ⟨0x040, 1, .swc, 0x0040, 352, 0, 7⟩,
  ⟨0x041, 1, .grn, 0x0041, 384, 0, 7⟩,
  ⟨0x042, 1, .loft, 0x0042, 416, 0, 4⟩,
  ⟨0x043, 1, .fdb, 0x0043, 432, 0, 3⟩,
  ⟨0x044, 1, .strm, 0x0044, 448, 0, 5⟩,
  ⟨0x048, 36, .eth, 0x0048, 480, 8, 8⟩,
  ⟨0x06C, 1, .msec, 0x0049, 768, 0, 5⟩,
  ⟨0x070, 16, .can, 0x0070, 800, 8, 8⟩,
  ⟨0x080, 8, .lin, 0x0071, 928, 4, 4⟩,
  ⟨0x088, 1, .nmu, 0x0072, 960, 0, 7⟩,
  ⟨0x089, 1, .rio, 0x0073, 1344, 0, 8⟩,
  ⟨0x08A, 1, .tun, 0x0074, 1376, 0, 6⟩,
  ⟨0x090, 1, .spn, 0x0090, 1408, 0, 8⟩,
  ⟨0x091, 1, .twn, 0x0091, 1824, 0, 12⟩,
  ⟨0x0A0, 1, .pss, 0x00A0, 992, 0, 10⟩,
  ⟨0x0A1, 9, .pch, 0x00A1, 1024, 32, 32⟩,
  ⟨0x0AA, 1, .lpm, 0x00A2, 1312, 0, 4⟩,
  ⟨0x0AB, 1, .ain, 0x00A3, 1984, 0, 2⟩,
  ⟨0x0B0, 1, .rve, 0x00B0, 1440, 0, 4⟩,
  ⟨0x0B1, 1, .xlt, 0x00B1, 1472, 0, 2⟩,
  ⟨0x0B2, 4, .dma, 0x00B2, 1504, 32, 32⟩,
  ⟨0x0B6, 1, .memc, 0x00B3, 1632, 0, 5⟩,
  ⟨0x0C0, 1, .wgt, 0x00C0, 1696, 0, 5⟩,
  ⟨0x0C1, 1, .key, 0x00C1, 1728, 0, 8⟩,
  ⟨0x0C2, 1, .cry, 0x00C2, 1760, 0, 17⟩,
  ⟨0x0C3, 8, .cvu, 0x00C3, 1792, 4, 4⟩,
  ⟨0x0D0, 1, .vpt, 0x00D0, 1664, 0, 8⟩,
  ⟨0x0E0, 1, .rel, 0x00E0, 1920, 0, 8⟩,
  ⟨0x0E1, 1, .dbg, 0x00E1, 1952, 0, 4⟩]

/-- The row of Table 22.1 that holds a page; none where the page belongs to no block (R724). -/
def pageRow (page : Nat) : Option PageRow :=
  pageTable.find? (fun r => decide (r.first ≤ page) && decide (page < r.first + r.count))

/-- The power domain of a page (Table 22.1). -/
def domainOf (page : Nat) : Nat :=
  if page ≤ 0x005 then 0
  else if page ≤ 0x011 then 10
  else if page = 0x020 then 9
  else if page ≤ 0x029 then 7
  else if page ≤ 0x032 then 8
  else if page ≤ 0x035 then 9
  else if page ≤ 0x044 then 11
  else if page ≤ 0x04B then 12
  else if page ≤ 0x053 then 13
  else if page ≤ 0x05B then 14
  else if page ≤ 0x063 then 15
  else if page ≤ 0x06B then 16
  else if page = 0x06C then 19
  else if page ≤ 0x087 then 17
  else if page = 0x088 then 0
  else if page ≤ 0x08A then 11
  else if page = 0x090 then 20
  else if page = 0x091 then 21
  else if page ≤ 0x0AA then 1
  else if page = 0x0AB then 22
  else if page ≤ 0x0B5 then 6
  else if page = 0x0B6 then 18
  else if page ≤ 0x0C1 then 2
  else if page ≤ 0x0CA then 19
  else if page = 0x0D0 then 11
  else 23

/-- The event line of bit `bit` of group `g` of a page's `EVT_RAW`; none for a reserved line (R13, R16, R726).
Only the CEA has further groups: E160 to E223 in groups 1 and 2. -/
def eventLine (page g bit : Nat) : Option Nat :=
  match pageRow page with
  | none => none
  | some r =>
    if g = 0 then (if bit < r.evCount then some (r.evBase + r.evStride * (page - r.first) + bit) else none)
    else if page = pgCEA ∧ g ≤ 2 ∧ bit < 32 then some (128 + 32 * g + bit) else none

/-- The page, group and bit that drive an event line; none for a reserved line (R726). -/
def lineSource (e : Nat) : Option (Nat × Nat × Nat) :=
  if 160 ≤ e ∧ e < 224 then some (pgCEA, (e - 128) / 32, e % 32)
  else
    match pageTable.find? (fun r =>
        decide (0 < r.evCount) && decide (r.evBase ≤ e) &&
          decide (e < r.evBase + (if r.evStride = 0 then r.evCount else r.evStride * r.count))) with
    | none => none
    | some r =>
      let s := if r.evStride = 0 then 1000000 else r.evStride
      if (e - r.evBase) % s < r.evCount then some (r.first + (e - r.evBase) / s, 0, (e - r.evBase) % s) else none

/-- Address of the raw event register of a group: group 0 in the header, groups 1 and 2 of the CEA at 0x0180 and
0x0190. -/
def evRaw (page g : Nat) : Nat := if g = 0 then EVT_RAW page else at_ page (0x170 + 0x10 * g)

/-- Address of the event enable register of a group. -/
def evEn (page g : Nat) : Nat := evRaw page g + 4

/-- The bits of a raw event register that name a line; the rest are reserved (R726). -/
def evMask (page g : Nat) : Nat :=
  match pageRow page with
  | none => 0
  | some r => if g = 0 then 2 ^ r.evCount - 1 else if page = pgCEA ∧ g ≤ 2 then 2 ^ 32 - 1 else 0

/-- `CAPS` of a page: the values the chapters give. SYS, PWR, SUP, EVR, LIN's siblings and the others whose chapter
gives none read 0 (assumption log, entry 11). -/
def capsOf (page : Nat) : Nat :=
  match pageRow page with
  | none => 0
  | some r =>
    let i := page - r.first
    match r.blk with
    | .tcu => 0x0000_0044
    | .cue => 0x0040_1000
    | .cea => 0x4040_1012
    | .ce => 0x0000_0040
    | .imp => 0x0800_4000
    | .pgm => 0x0040_2000
    | .frc => 0x0010_0400
    | .dbg => 0x0000_0008
    | .pch => (if i < 2 then 0 else if i < 3 then 1 else if i < 5 then 2 else 3) * 0x1_0000 + 8 * i * 0x100 + 8
    | .lpm => 0x0000_0408
    | .pss => 0x0004_1048
    | .swc => 0x0008_0828
    | .grn => 0x0800_1000
    | .loft => 0x0000_1000
    | .fdb => 0x0400_4000
    | .strm => 0x0400_1000
    | .eth =>
      i * 0x100 + (if i < 4 then 0x30 else if i < 12 then 0x71 else if i < 28 then 0x42 else 0x83)
    | .msec => 0x01B0_D80C
    | .can => if i < 12 then 0x0108_0880 else 0x0014_2080
    | .lin => 0x0040_0100
    | .rio => 0x0400_0100
    | .tun => 0x0000_0100
    | .nmu => 0x000C_0818
    | .spn => 0x0100_1010
    | .rve => 0x1040_0200
    | .xlt => 0x0200_0400
    | .dma => 0x0000_1020
    | .memc => 0x0010_2010
    | .vpt => 0x0400_0400
    | .wgt => 0x0018_1040
    | .key => 0x0040_0100
    | .cry => 0x0001_2410
    | .cvu => 0x0000_0006
    | .twn => 0x0000_1902
    | .hlt => 0x0000_0100
    | .rel => 0x0004_1000
    | .boot => 0x0000_0100
    | .ain => 0x0010_0030
    | _ => 0

end Sys2Proof.Machine
end

