-- ==== Sys2Proof/Machine/RegReset.lean ====
section
/-! DEFINITION. The value of every register after reset: the "Reset" columns of the register maps, with the values
that differ by page or by index given in `specialReset`. -/

namespace Sys2Proof.Machine

/-- The row of a register map that holds an offset. -/
def findRow (rows : List RegRow) (off : Nat) : Option RegRow :=
  rows.find? (fun r =>
    decide (r.off ≤ off) &&
      (if r.stride = 0 then decide (off = r.off)
       else decide ((off - r.off) % r.stride = 0) && decide ((off - r.off) / r.stride < r.count)))

/-- Table 05.6: the percentage points of the profiles loaded at start, as (time in ms, limit in %) pairs. -/
def profilePoints : Nat → List (Nat × Nat)
  | 0 => [(0, 250), (2, 250), (5, 200)]
  | 1 => [(0, 500), (10, 500), (60, 200)]
  | 2 => [(0, 400), (50, 400), (200, 250), (300, 200)]
  | 3 => [(0, 300), (300, 300), (1000, 200)]
  | 4 => [(0, 500), (2, 500), (20, 300), (40, 200)]
  | 5 => [(0, 350), (500, 350), (3000, 200)]
  | 6 => [(0, 350), (100, 350), (500, 250), (600, 200)]
  | 7 => [(0, 450), (5, 450), (50, 250), (80, 200)]
  | _ => []

/-- Word `w` of profile `p` as loaded at start, the CRC apart (Tables 05.5 and 05.6; the label is the profile's number, as
in the profile 1 that the text gives). -/
def profileWord (p w : Nat) : Nat :=
  let pts := profilePoints p
  if w = 0 then pts.length * 0x100_0000 + p
  else
    match pts[w - 2]? with
    | some (t, l) => if w < 2 then 0 else t * 10 * 0x1_0000 + l
    | none => 0

/-- The CRC of a profile record: over word 0 and words 2 to 17 (Table 05.5). -/
def profileCrc (f : Nat → Nat) : Nat := crc32 (wordBytes (f 0 :: (List.range 16).map (fun k => f (k + 2))))

/-- Reset values of channel registers by class: 0 V, 1 A, 2 B, 3 C (Table 05.10). -/
def pchReset (cls f : Nat) : Option Nat :=
  match f with
  | 0x00 => some (if cls ≤ 1 then 0x0C00_0A08 else 0x0C00_0A00)
  | 0x04 => some (if cls ≤ 1 then 0x0000_1400 else 0x1428_1400)
  | 0x08 => some (if cls = 0 then 0x7260_000F else if cls = 1 then 0x8260_000F else if cls = 2 then 0x5260_000F else 0x2260_000F)
  | 0x10 => some (if cls ≤ 1 then 0xC000_000A else if cls = 2 then 0xC000_0005 else 0xC000_0002)
  | _ => none

/-- The class of the channels of page PCHi (Table 05.1). -/
def pageClass (i : Nat) : Nat := if i < 2 then 0 else if i < 3 then 1 else if i < 5 then 2 else 3

/-- Word `w` of the ROM default map (Table 06.2). -/
def romMap (w : Nat) : Nat := if 4 ≤ w ∧ w < 8 then leNat ((List.range 4).map (fun i => BitVec.ofNat 8 (0x80 + 4 * (w - 4) + i))) else 0

/-- Reset values that the register maps give by page or by index in words. -/
def specialReset (blk : Blk) (i off : Nat) : Option Nat :=
  match blk with
  | .evr =>
    if 0x1000 ≤ off ∧ off < 0x3000 ∧ off % 4 = 0 then
      let e := (off - 0x1000) / 4
      some (if (lineSource e).isSome then 0x8000_0000 + (e + 1) else 0)
    else none
  | .sys => if off = 0x100 then some 0x0001_0001 else none
  | .pwr =>
    if off = 0x100 then some 0x00FF_FFFF else if 0x240 ≤ off ∧ off < 0x2C0 then some 0xFFFF_FFFF else none
  | .key =>
    if off = 0x120 then some 2
    else if off = 0x150 ∨ off = 0x154 then some (Config.uid ((off - 0x150) / 4)).toNat
    else if 0x160 ≤ off ∧ off < 0x180 then some (Config.authPk ((off - 0x160) / 4)).toNat
    else none
  | .pch => if 0x100 ≤ off ∧ off < 0x300 then pchReset (pageClass i) ((off - 0x100) % 0x40) else none
  | .lpm =>
    if 0x1000 ≤ off ∧ off < 0x1400 ∧ off % 4 = 0 then
      let p := (off - 0x1000) / 0x80
      let w := (off - 0x1000) % 0x80 / 4
      some (if w = 1 then profileCrc (profileWord p) else profileWord p w)
    else none
  | .swc =>
    if 0x500 ≤ off ∧ off < 0x518 ∧ off % 4 = 0 then some (if off < 0x510 then 0x7D0 else 0x1F4)
    else if 0x520 ≤ off ∧ off < 0x540 ∧ off % 4 = 0 then some (if off < 0x530 then 0x3E8 else if off < 0x538 then 0xC8 else 0)
    else none
  | .grn =>
    if 0x200 ≤ off ∧ off < 0x220 ∧ off % 4 = 0 then
      let c := (off - 0x200) / 4
      some (if c < 3 then 0x0202_0004 else if c = 3 then 0x0002_0004 else if c < 6 then 0x0104_0010 else 0x0105_0020)
    else none
  | .eth =>
    if off = 0x104 then some (if i < 4 then 0 else if i < 28 then 0x0030_0000 else 0)
    else if off = 0x10C then some (if 28 ≤ i then 0x8008_2000 else 0)
    else if off = 0x130 then some (if i < 12 then 0x000A_003F else 0)
    else if off = 0x150 then some (if 4 ≤ i ∧ i < 28 then 0x1000 else 0)
    else if 0x800 ≤ off ∧ i ≠ 0 then some 0
    else none
  | .boot =>
    if off = 0x104 then some (Config.bootArb.toNat &&& 0x0F3F_00FF)
    else if 0x130 ≤ off ∧ off < 0x1F0 ∧ off % 4 = 0 then some (Config.bootPk ((off - 0x130) / 4)).toNat
    else none
  | .can => if off = 0x114 then some (if 12 ≤ i then 0x0005_0F0A else 0) else none
  | .pss => if 0x700 ≤ off ∧ off < 0x748 ∧ off % 4 = 0 then some (romMap ((off - 0x700) / 4)) else none
  | _ => none

/-- Value of a register after reset. An offset that no map lists reads as 0 (R9). -/
def regReset (k : Nat) : Word :=
  let page := k / 0x10000
  let off := k % 0x10000
  match pageRow page with
  | none => 0
  | some r =>
    let i := page - r.first
    if off < 0x100 then
      if off = 0x00 then BitVec.ofNat 32 (r.typ * 0x10000 + i * 0x400 + page)
      else if off = 0x04 then BitVec.ofNat 32 (capsOf page)
      else if off = 0x08 then BitVec.ofNat 32 (0x0100_0000 + (Config.blockRev page).toNat * 0x10000)
      else if off = 0x0C then 1
      else if r.blk = .pss ∧ off = 0x14 then 0x0000_0100
      else 0
    else
      match specialReset r.blk i off with
      | some v => BitVec.ofNat 32 v
      | none =>
        match findRow (rowsOf r.blk) off with
        | some row => BitVec.ofNat 32 row.reset
        | none => 0

end Sys2Proof.Machine
end

