-- ==== Sys2Proof/Machine/State.lean ====
section
/-! DEFINITION. The state of the block: everything the spec gives the module, as plain data. Registers stand in one
sparse table under their addresses (an unlisted register holds its reset value); what the registers do not show stands
in one structure per block; the commands that wait stand in the queue. -/

namespace Sys2Proof.Machine

/-- Everything but the queue of commands. -/
structure Hw where
  /-- Registers by address, in canonical form: an unlisted one holds its reset value. -/
  regs : List (Nat × Word) := []
  /-- The answer to the last register access. -/
  resp : Resp := {}
  /-- Shadows of upper registers, by address, each until its next read (R8). -/
  shadow : List (Nat × Word) := []
  /-- Rising edges that the EVR has still to deliver: in order of rise, those of one cycle by line number (R729). -/
  edges : List EvEdge := []
  /-- Event lines that have risen in the present cue clock cycle (R729). -/
  rose : List Nat := []
  /-- Destinations that have already taken an edge of the present cycle: the kind (0 an MSI-X vector, 1 the DMA triggers, 2 the
  Reel) and the vector or line. -/
  took : List (Nat × Nat) := []
  /-- The model's own counter of free values used (assumption log, entry 4). -/
  free : Nat := 0
  /-- Cue clock cycles since power-on. -/
  now : Nat := 0
  /-- Pending interrupts, oldest first (R570). -/
  ints : List IntPend := []
  /-- The application cores (R567). -/
  cores : List CoreSt := List.replicate 12 {}
  pwr : Pwr := {}
  /-- Requests held by the WGT, oldest first (R573). -/
  held : List PwrReq := []
  sys : Sys := {}
  ain : Ain := {}
  tcu0 : TcuSlot := {}
  tcu1 : TcuSlot := {}
  tcu2 : TcuSlot := {}
  tcu3 : TcuSlot := {}
  cue : Cue := {}
  cea : Cea := {}
  frc : Frc := {}
  dbg : Dbg := {}
  stage : Stage := {}
  mem : MemSt := {}
  zone : Zone := {}
  sw : Sw := {}
  nmu : Nmu := {}
  key : KeySt := {}
  cry : CrySt := {}
  cvus : List (Nat × CvuSt) := []
  span : SpanSt := {}
  vpt : VptSt := {}
  rel : RelSt := {}
  twn : TwnSt := {}
  hlt : HltSt := {}
  boot : BootSt := {}
deriving DecidableEq, Repr

/-- The state: the module, and the commands that wait, first in, first out. -/
structure State where
  hw : Hw := {}
  pending : List Instr := []
deriving DecidableEq, Repr

/-- No command of this block stops the machine with a fault: an access that the spec refuses gets an error response
and is captured (R17), and the machine goes on. -/
inductive Fault where
deriving DecidableEq, Repr

/-- Why a command has no next state. -/
inductive Refusal where
  /-- The command has no meaning yet (raised by `exec`; safe: the machine stops). -/
  | notModelled (mnemonic : String)
deriving DecidableEq, Repr

/-- The module right after a start at `VBAT` power-on with every domain powered (R697, R702), no command waiting. -/
def State.reset : State := {}

/-- The outcome of a command that changes the module by `f`. -/
def State.run (s : State) (f : Hw → Hw) : Host.Outcome State Fault Refusal := .next { s with hw := f s.hw }

end Sys2Proof.Machine
end

