-- ==== Sys2Proof/Machine/Ops.lean ====
section
/-! DEFINITION. The operations every block shares: reading and writing registers and their fields, counting, raising an
event, capturing an error, the gates a register access passes, and drawing a free value. -/

namespace Sys2Proof.Machine

/-- Value of a register. -/
def Hw.rd (h : Hw) (k : Nat) : Nat := (lookup regReset h.regs k).toNat

/-- Give a register a value (its low 32 bits). -/
def Hw.wr (h : Hw) (k v : Nat) : Hw := { h with regs := store regReset h.regs k (BitVec.ofNat 32 v) }

/-- The field `hi:lo` of a register. -/
def Hw.get (h : Hw) (k hi lo : Nat) : Nat := fld (h.rd k) hi lo

/-- Write the field `hi:lo` of a register. -/
def Hw.put (h : Hw) (k hi lo x : Nat) : Hw := h.wr k (setFld (h.rd k) hi lo x)

/-- A bit of a register. -/
def Hw.bit (h : Hw) (k b : Nat) : Bool := decide (h.get k b b = 1)

/-- Write a bit of a register. -/
def Hw.putBit (h : Hw) (k b : Nat) (x : Bool) : Hw := h.put k b b (if x then 1 else 0)

/-- Add to a saturating 32-bit counter. -/
def Hw.sat (h : Hw) (k : Nat) (n : Nat := 1) : Hw := h.wr k (satAdd (h.rd k) n)

/-- Add to a wrapping 32-bit counter. -/
def Hw.inc (h : Hw) (k : Nat) (n : Nat := 1) : Hw := h.wr k (h.rd k + n)

/-- Add 1 to a saturating counter that is a field of a register. -/
def Hw.satF (h : Hw) (k hi lo : Nat) : Hw :=
  h.put k hi lo (if h.get k hi lo + 1 ≥ 2 ^ (hi + 1 - lo) then h.get k hi lo else h.get k hi lo + 1)

/-- Add 1 to a wrapping counter that is a field of a register. -/
def Hw.incF (h : Hw) (k hi lo : Nat) : Hw := h.put k hi lo (h.get k hi lo + 1)

/-- Write a 64-bit value to a register pair, lower register first. -/
def Hw.wrPair (h : Hw) (lo hi v : Nat) : Hw := (h.wr lo (v % 2 ^ 32)).wr hi (v / 2 ^ 32)

/-- Value of a register pair. -/
def Hw.rdPair (h : Hw) (lo hi : Nat) : Nat := h.rd lo + 2 ^ 32 * h.rd hi

/-- The bus address of a register. -/
def busAddr (k : Nat) : Nat := 0x00_F000_0000 + k

/-- Power domain `d` is on (`PWR_STATE`). -/
def Hw.pdOn (h : Hw) (d : Nat) : Bool := h.bit PWR_STATE d

/-- The clock of a page runs (`PWR_CLK_STATEm`). -/
def Hw.clkOn (h : Hw) (page : Nat) : Bool := h.bit (PWR_CLK_STATE (page / 32)) (page % 32)

/-- The page's domain is on and its clock runs (R704). -/
def Hw.live (h : Hw) (page : Nat) : Bool := h.pdOn (domainOf page) && h.clkOn page

/-- Put an event line into the list of risen lines, ascending. -/
def insertLine : List Nat → Nat → List Nat
  | [], e => [e]
  | j :: t, e => if e < j then e :: j :: t else if e = j then j :: t else j :: insertLine t e

/-- An event line is high: its raw bit and its enable are both 1 (R13). -/
def Hw.lineHigh (h : Hw) (e : Nat) : Bool :=
  match lineSource e with
  | none => false
  | some (page, g, b) => h.bit (evRaw page g) b && h.bit (evEn page g) b

/-- An event line is Secure (R565, R577). -/
def Hw.lineSecure (h : Hw) (e : Nat) : Bool :=
  h.bit (WGT_EVT_WORLD (e / 32)) (e % 32) || (decide (1696 ≤ e) && decide (e ≤ 1700))

/-- Put an edge after those of earlier cycles and of lower lines of its own cycle (R729). -/
def insertEdge : List EvEdge → EvEdge → List EvEdge
  | [], e => [e]
  | x :: t, e => if x.at_ = e.at_ ∧ e.line ≤ x.line then e :: x :: t else x :: insertEdge t e

/-- The edge that the EVR takes of a line for delivery under the route and the world it finds (R729): none without a route, and
none of a Secure line towards a file other than machine-level (R565, R706). -/
def Hw.routed (h : Hw) (e : Nat) : Option EvEdge :=
  let k := EVR_ROUTE e
  if h.bit k 31 && !(h.lineSecure e && h.get k 19 16 != 0) then
    some { line := e, at_ := h.now, dest := { core := h.get k 27 24, file := h.get k 19 16, eiid := h.get k 10 0 } }
  else none

/-- The EVR takes an edge of a line for delivery. -/
def Hw.deliver (h : Hw) (e : Nat) : Hw :=
  { h with edges := match h.routed e with | some x => insertEdge h.edges x | none => h.edges }

/-- A line rises: its edge is seen in this cue clock cycle, and the EVR takes it for delivery. -/
def Hw.edge (h : Hw) (e : Nat) : Hw := { h.deliver e with rose := insertLine h.rose e }

/-- A destination (`kind` and number as in `Hw.took`) sees an edge of a line in the cycle of the edge, once (R729). -/
def Hw.seesEdge (h : Hw) (kind n e : Nat) : Bool := h.rose.contains e && !h.took.contains (kind, n)

/-- Set bit `b` of a page's raw event register of group `g`; the line rises if it was low and is enabled (R13, R14). -/
def Hw.raiseG (h : Hw) (page g b : Nat) : Hw :=
  match eventLine page g b with
  | none => h
  | some e =>
    let was := h.lineHigh e
    let h := h.putBit (evRaw page g) b true
    if !was && h.lineHigh e then h.edge e else h

/-- Raise event bit `b` of a page. -/
def Hw.raise (h : Hw) (page b : Nat) : Hw := h.raiseG page 0 b

/-- Raise an event when a condition holds. -/
def Hw.raiseIf (h : Hw) (c : Bool) (page b : Nat) : Hw := if c then h.raise page b else h

/-- Lines that a change of a page's raw or enable register makes rise. -/
def Hw.newEdges (old new : Hw) (page g : Nat) : Hw :=
  each 32 (fun b h =>
    match eventLine page g b with
    | none => h
    | some e => if !old.lineHigh e && new.lineHigh e then h.edge e else h) new

/-- The access is answered with data. -/
def Hw.answer (h : Hw) (v : Nat) : Hw := { h with resp := { err := false, data := BitVec.ofNat 32 v } }

/-- The access receives an error response. -/
def Hw.errResp (h : Hw) : Hw := { h with resp := { err := true, data := 0 } }

/-- Capture an error of a page (R17): the first one is kept, later ones set `MULTI` only. -/
def Hw.capture (h : Hw) (page code addr : Nat) (a : Attr) (detail : Nat := 0) : Hw :=
  if h.bit (ERR_CAP0 page) 31 then h.putBit (ERR_CAP0 page) 30 true
  else
    (((h.wr (ERR_CAP0 page) (0x8000_0000 + code % 0x10000)).wr (ERR_CAP1 page) (addr % 2 ^ 32)).wr (ERR_CAP2 page)
      ((if a.secure then 2 ^ 26 else 0) + a.vmid.toNat * 0x10000 + a.mid.toNat * 0x100 + addr / 2 ^ 32 % 256)).wr
      (ERR_CAP3 page) detail

/-- A register access that the block refuses: error response and capture on the page. -/
def Hw.refuse (h : Hw) (k code : Nat) (a : Attr) : Hw := (h.capture (k / 0x10000) code (busAddr k) a).errResp

/-- The world gate of a register page (R557, R562: the WGT page is always Secure). -/
def Hw.gateOpen (h : Hw) (page : Nat) (a : Attr) : Bool :=
  a.secure ||
    (!h.bit (WORLD page) 0 && page != pgWGT &&
      (!h.bit (WGT_PAGE_VMID page) 31 || a.vmid == 0 || decide (h.get (WGT_PAGE_VMID page) 9 0 = a.vmid.toNat)))

/-- A transaction with the debugger's master ID that the JTAG lands do not carry (R716): they are dead in FIELD and END, and a
debugger on them issues Secure transactions only. -/
def Hw.jtagShut (h : Hw) (a : Attr) : Bool :=
  a.mid == 0x58 && (!a.secure || decide (h.get KEY_LCS 2 0 = 2) || decide (4 ≤ h.get KEY_LCS 2 0))

/-- An access to register `k` passes the JTAG lands where it comes over them (R716), the page's existence (R7, R724), its power and clock (R704) and its world gate
(R557); then `f` is what the access does. -/
def Hw.access (h : Hw) (k : Nat) (a : Attr) (f : Hw → Hw) : Hw :=
  let page := k / 0x10000
  if h.jtagShut a then h
  else if (pageRow page).isNone then h.errResp
  else if !h.live page then (h.capture pgPWR 0x0102 (busAddr k) a).errResp
  else if !h.gateOpen page a then h.refuse k 0x0002 a
  else f (h.answer 0)

/-- The row of the register map that holds register `k`: `CTRL` of the header, whose fields the block's chapter gives
(Table 00.4), or a register of the block. -/
def rowAt (k : Nat) : Option RegRow :=
  match pageRow (k / 0x10000) with
  | none => none
  | some r =>
    if k % 0x10000 = 0x10 then some ⟨0x10, 1, 0, 0, ctrlMask r.blk, 0, 0, false⟩
    else findRow (rowsOf r.blk) (k % 0x10000)

/-- The register is locked: an RWL register of a page whose `LOCK.CFG` is set (R10, Table 00.8). -/
def Hw.locked (h : Hw) (k : Nat) : Bool :=
  match rowAt k with
  | none => false
  | some row => row.rwl && h.bit (LOCK (k / 0x10000)) 1

/-- A write to register `k`: the gates of `access`, and the lock of an RWL register (code 0x0003). -/
def Hw.busWrite (h : Hw) (k : Nat) (a : Attr) (f : Hw → Hw) : Hw :=
  h.access k a (fun h => if h.locked k then h.refuse k 0x0003 a else f h)

/-- What a write stores under the register's access code (R10). -/
def Hw.storeReg (h : Hw) (k v : Nat) : Hw :=
  match rowAt k with
  | none => h
  | some row =>
    let old := h.rd k
    h.wr k ((((old &&& (0xFFFF_FFFF - row.rw)) ||| (v &&& row.rw)) ||| (v &&& row.w1s)) &&&
      (0xFFFF_FFFF - (v &&& row.w1c)))

/-- Attributes of the module's own Secure masters (R555). -/
def ownAttr (mid : Nat) : Attr := { secure := true, mid := BitVec.ofNat 8 mid, vmid := 0 }

/-- Draw a free word. -/
def Hw.freeWord (h : Hw) : Nat × Hw := ((Config.freeWord h.free).toNat, { h with free := h.free + 1 })

/-- Draw a free byte. -/
def Hw.freeByte (h : Hw) : Byte × Hw := (Config.freeByte h.free, { h with free := h.free + 1 })

/-- Draw `n` free bytes. -/
def Hw.freeBytes (h : Hw) : Nat → List Byte × Hw
  | 0 => ([], h)
  | n + 1 =>
    let (b, h) := h.freeByte
    let (t, h) := Hw.freeBytes h n
    (b :: t, h)

/-- A quotient whose rounding the spec does not name: the floor, or one more where the division is inexact and the free
choice says so. -/
def Hw.freeDiv (h : Hw) (a b : Nat) : Nat × Hw :=
  if a % b = 0 then (a / b, h)
  else (a / b + (if Config.roundUp h.free then 1 else 0), { h with free := h.free + 1 })

/-- Nanoseconds since power-on (a cue clock cycle is 5/6 ns). -/
def Hw.ns (h : Hw) : Nat := h.now * 5 / 6

/-- Microseconds since power-on. -/
def Hw.us (h : Hw) : Nat := h.now / 1200

end Sys2Proof.Machine
end

