-- ==== Sys2Proof/Machine/Timecode.lean ====
section
/-! DEFINITION. The timecode unit (R20 to R40, R60, R61, R730). A slot's value advances lazily: it is kept at a cue clock
cycle and worked out from there, so a read, a rate change and a tick agree. -/

namespace Sys2Proof.Machine

/-- One tick in units of 2^−24 tick. -/
abbrev tickUnit : Nat := 2 ^ 24

/-- A timecode slot. -/
def Hw.slot (h : Hw) (n : Nat) : TcuSlot :=
  if n = 0 then h.tcu0 else if n = 1 then h.tcu1 else if n = 2 then h.tcu2 else h.tcu3

/-- Replace a timecode slot. -/
def Hw.setSlot (h : Hw) (n : Nat) (t : TcuSlot) : Hw :=
  if n = 0 then { h with tcu0 := t } else if n = 1 then { h with tcu1 := t }
  else if n = 2 then { h with tcu2 := t } else { h with tcu3 := t }

/-- Source code of a slot (Table 01.12). -/
def Hw.tcuSource (h : Hw) (n : Nat) : Nat := h.get (TCU_SRC n) 2 0

/-- Quality state of a slot (Table 01.2). -/
def Hw.tcuState (h : Hw) (n : Nat) : Nat := h.get (TCU_QUAL n) 2 0

/-- Cues of the slot fire: LOCKED, HOLDOVER and FREERUN (Table 01.2). -/
def Hw.slotFires (h : Hw) (n : Nat) : Bool := decide (2 ≤ h.tcuState n)

/-- The length of a tick of the slot in ns: the base tick, or for ANG and MNS the last measured tick length (R27). -/
def Hw.tickNs (h : Hw) (n : Nat) : Nat :=
  if h.tcuSource n = 2 ∨ h.tcuSource n = 3 then (h.slot n).tickNs else h.rd TCU_BASE_TICK

/-- What the slot advances in `d` cue clock cycles at its learned rate (R27), in units of 2^−24 tick. The part of a unit is dropped
whenever the kept value is brought to the present; a slot on LOC, too, keeps the rate it has learned (R31; assumption log, entry
136). -/
def Hw.nominal (h : Hw) (n d : Nat) : Nat :=
  let b := h.tickNs n
  if b = 0 then 0
  else (d * 5 * tickUnit * (((2 ^ 32 : Nat) : Int) + sgn 32 (h.rd (TCU_RATE n))).toNat) / (6 * b * 2 ^ 32)

/-- A slot on ANG that follows its shaft. -/
def Hw.onShaft (h : Hw) (n : Nat) : Bool := decide (h.tcuSource n = 2) && decide (h.tcuState n = 2)

/-- Quadrature edges of a revolution (Table 01.13). -/
def Hw.angLines (h : Hw) (n : Nat) : Nat := h.get (TCU_SRCCFG n) 15 0

/-- The edges before a position, and the position of an edge, rounded up to a unit of 2^−24 revolution. -/
def edgeNo (lines p : Nat) : Nat := p / tickUnit * lines + p % tickUnit * lines / tickUnit
def edgePos (lines k : Nat) : Nat := k / lines * tickUnit + (k % lines * tickUnit + lines - 1) / lines

/-- Where the shaft stands: from its last edge on with the last edge interval, never past the position of the next expected
edge (R26). Of a shaft that turns backward only the edges are known. -/
def Hw.shaft (h : Hw) (n : Nat) : Nat :=
  let t := h.slot n
  let l := h.angLines n
  if t.run && t.fwd && t.edgeNs != 0 then
    min (edgePos l (edgeNo l t.pos + 1)) (t.pos + (h.now - t.edgeAt) * 5 * tickUnit / (6 * t.edgeNs * l))
  else t.pos

/-- What of the correction is slewed while the slot advances by `a` (R33, R34, Table 01.5). -/
def slewed (t : TcuSlot) (a : Nat) : Int :=
  let m := min t.corr.natAbs (a * t.ppm / 1_000_000)
  if t.corr < 0 then -(m : Int) else (m : Int)

/-- The advance of a slot since its stamp. -/
def Hw.advance (h : Hw) (n : Nat) : Nat := if (h.slot n).run then h.nominal n (h.now - (h.slot n).stamp) else 0

/-- Present value of a slot in units of 2^−24 tick: 40 bits of tick, 24 bits of phase (R20). A slot on ANG follows its shaft forward
only, and stands while the shaft is behind its value (R25, R40). -/
def Hw.slotVal (h : Hw) (n : Nat) : Nat :=
  if h.onShaft n then max (h.slot n).val (h.shaft n) % 2 ^ 64
  else (((h.slot n).val + h.advance n : Int) + slewed (h.slot n) (h.advance n)).toNat % 2 ^ 64

/-- Remaining correction of a slot in units of 2^−24 tick. -/
def Hw.slotCorr (h : Hw) (n : Nat) : Int :=
  let c := (h.slot n).corr
  if h.onShaft n then (if c < 0 then -(min c.natAbs (h.slotVal n - h.shaft n) : Nat) else 0)
  else c - slewed (h.slot n) (h.advance n)

/-- Bring the kept value of a slot to the present. -/
def Hw.rebase (h : Hw) (n : Nat) : Hw :=
  h.setSlot n { h.slot n with val := h.slotVal n, corr := h.slotCorr n, stamp := h.now }

/-- Present tick of a slot, bits 31:0. -/
def Hw.tick32 (h : Hw) (n : Nat) : Nat := h.slotVal n / tickUnit % 2 ^ 32

/-- The slot reaches a tick boundary in this cycle. -/
def Hw.tickBoundary (h : Hw) (n : Nat) : Bool := decide ((h.slot n).mark ≤ h.slotVal n / tickUnit * tickUnit)

/-- Low register of a timecode value. -/
def nowLo (v : Nat) : Nat := v / tickUnit % 2 ^ 32

/-- High register of a timecode value: `PHASE[31:8]`, tick bits 39:32 in 7:0. -/
def nowHi (v : Nat) : Nat := v % tickUnit * 0x100 + v / tickUnit / 2 ^ 32 % 256

/-- `TCU_CORRn` (R730): ns rounded toward zero for NET and LOC, 2^−24 tick for ANG and MNS. -/
def Hw.corrReg (h : Hw) (n : Nat) : Nat :=
  let c := h.slotCorr n
  if h.tcuSource n = 2 ∨ h.tcuSource n = 3 then unsgn 32 c
  else unsgn 32 (divZ (c * (h.rd TCU_BASE_TICK : Int)) tickUnit)

/-- `TCU_HOLD_AGEn`: ms since the slot entered HOLDOVER or FREERUN; 0 in the other states. -/
def Hw.holdAge (h : Hw) (n : Nat) : Nat :=
  if 3 ≤ h.tcuState n then min 0xFFFF_FFFF ((h.now - (h.slot n).holdAt) / 1_200_000) else 0

/-- Raise event `m` of a slot (R61). -/
def Hw.tcuEvent (h : Hw) (n m : Nat) : Hw := h.raise pgTCU (6 * n + m)

/-- A PTP instance. -/
def Hw.ptp (h : Hw) (i : Nat) : PtpSt := (find? h.sw.ptp i).getD {}

/-- Replace a PTP instance. -/
def Hw.setPtp (h : Hw) (i : Nat) (x : PtpSt) : Hw := { h with sw := { h.sw with ptp := file h.sw.ptp i x } }

/-- An instance is enabled. -/
def Hw.ptpOn (h : Hw) (i : Nat) : Bool := decide (i < 4) && h.bit (ETH_PTPI_CFG 0 i) 31

/-- Time of an instance in ns since the PTP epoch (R354). -/
def Hw.ptpTime (h : Hw) (i : Nat) : Nat := (h.ptp i).time + (h.now - (h.ptp i).at_) * 5 / 6

/-- What an instance presents to a NET slot, in units of 2^−24 tick (R355). -/
def Hw.ptpPresents (h : Hw) (i : Nat) : Nat :=
  let b := h.rd TCU_BASE_TICK
  if b = 0 then 0 else (h.ptpTime i / b % 2 ^ 40) * tickUnit + h.ptpTime i % b * tickUnit / b

/-- The sync interval of an instance in cue clock cycles: `LOG_SYNC` is −7 to 0 (Table 08.5). -/
def Hw.syncCycles (h : Hw) (i : Nat) : Nat := 1_200_000_000 / 2 ^ ((256 - h.get (ETH_PTPI_CFG 0 i) 15 8) % 256)

/-- An instance reports to the slots that follow it: it is enabled and its offsets are valid. -/
def Hw.ptpReports (h : Hw) (i : Nat) : Bool := h.ptpOn i && h.bit (ETH_PTPI_STAT 0 i) 31

/-- Three sync intervals have passed since a follower's last Sync (R24, Table 08.5). -/
def Hw.syncLate (h : Hw) (i : Nat) : Bool :=
  !h.bit (ETH_PTPI_CFG 0 i) 30 && decide ((h.ptp i).at_ + 3 * h.syncCycles i ≤ h.now)

/-- The PTP instance that a NET slot follows (R352). -/
def Hw.slotPtp (h : Hw) (n : Nat) : Nat := h.get (TCU_SRC n) 7 4

/-- The value of a slot's source: for a NET slot the instance's time (R355), else what the source shows. -/
def Hw.sourceValue (h : Hw) (n : Nat) (src : Ratio) : Ratio :=
  if h.tcuSource n = 1 then ⟨h.ptpPresents (h.slotPtp n), 1⟩ else src

/-- The source meets the criteria of Table 01.3. `seen` is what it has shown: for ANG the edges counted in each revolution since
the index was seen, for MNS the phase error of each cycle in hundredths of a degree. -/
def Hw.sourceGood (h : Hw) (n : Nat) (seen : List Nat) : Bool :=
  match h.tcuSource n with
  | 1 => h.ptpReports (h.slotPtp n) && decide (8 ≤ (h.ptp (h.slotPtp n)).good)
  | 2 => decide (4 ≤ h.angLines n) && decide (2 ≤ seen.length) && (seen.reverse.take 2).all (fun x => x == h.angLines n)
  | 3 => decide (4 ≤ seen.length) && (seen.reverse.take 4).all (fun x => decide (x ≤ 100))
  | _ => false

/-- A slot that was OFF or in ACQUIRING may pace the pulse generators from its present value on (R231). -/
def Hw.leaveAcquiring (h : Hw) (n old : Nat) : Hw :=
  if old ≤ 1 ∧ 2 ≤ h.tcuState n then h.setSlot n { h.slot n with jump := h.slotVal n } else h

/-- Enter a quality state; the entry to HOLDOVER or FREERUN from OFF, ACQUIRING or LOCKED starts the hold age. -/
def Hw.setTcuState (h : Hw) (n st : Nat) : Hw :=
  let old := h.tcuState n
  let h := if 3 ≤ st ∧ old ≤ 2 then h.setSlot n { h.slot n with holdAt := h.now } else h
  (h.put (TCU_QUAL n) 2 0 st).leaveAcquiring n old

/-- Enter HOLDOVER (R27, R31); its limit counts from here. -/
def Hw.enterHoldover (h : Hw) (n : Nat) : Hw :=
  let h := h.rebase n
  let h := h.setSlot n { h.slot n with run := true, limAt := h.now }
  (h.setTcuState n 3).tcuEvent n 1

/-- Enter FREERUN (R27, R30, R31). A slot on LOC that had no value has one from here on (assumption log, entry 136). -/
def Hw.enterFreerun (h : Hw) (n : Nat) : Hw :=
  let h := h.rebase n
  let t := h.slot n
  let h := h.setSlot n { t with run := true, hasVal := true, mark := if t.hasVal then t.mark else t.val }
  (h.setTcuState n 4).tcuEvent n 2

/-- End the slew of a slot and set none (R36). -/
def Hw.setCorr (h : Hw) (n : Nat) (c : Int) (ppm : Nat) : Hw :=
  let h := h.rebase n
  let h := h.setSlot n { h.slot n with corr := c, ppm := ppm, step := none }
  h.putBit (TCU_QUAL n) 3 (decide (c ≠ 0))

/-- Schedule a step by `c` at the first tick boundary strictly after the present instant (R35). -/
def Hw.planStep (h : Hw) (n : Nat) (c : Int) : Hw :=
  let h := h.setCorr n 0 0
  let b := (h.slotVal n / tickUnit + 1) * tickUnit
  h.setSlot n { h.slot n with step := some (b, c) }

/-- The difference between a source value and the slot, rounded to the nearest unit, a half toward zero (R730). -/
def measure (src : Ratio) (v : Nat) : Int :=
  let den := if src.den = 0 then 1 else src.den
  let d : Int := (src.num : Int) - (v * den : Nat)
  let q := d.natAbs / den
  let q := if 2 * (d.natAbs % den) > den then q + 1 else q
  if d < 0 then -(q : Int) else (q : Int)

/-- Judge a measured correction (R33 to R36, R40, Table 01.5, R730). A forward correction of an ANG slot becomes a step
at once: it is planned here with the present value as its boundary, and the caller carries it out. A slot on MNS that locks for the
first time on this source counts as one that relocks after loss (assumption log, entry 136). -/
def Hw.judge (h : Hw) (n : Nat) (d : Int) (relock : Bool) : Hw :=
  let src := h.tcuSource n
  if d = 0 then h.setCorr n 0 0
  else if src = 2 then
    if d < 0 then h.setCorr n d 0
    else
      let h := h.setCorr n 0 0
      h.setSlot n { h.slot n with step := some (h.slotVal n, d) }
  else if src = 3 then
    if relock && decide (d > 0) && decide (d.natAbs > tickUnit / 4) then h.planStep n d else h.setCorr n d 5000
  else if d < 0 ∨ d.natAbs * h.rd TCU_BASE_TICK ≤ 1_000_000 * tickUnit then
    h.setCorr n d (h.get (TCU_SLEW n) 8 0)
  else h.planStep n d

/-- A NET or LOC slot is enabled (R22). -/
def Hw.netOrLocEnabled (h : Hw) : Bool :=
  (List.range 4).any (fun n => h.bit (TCU_SRC n) 31 && (h.tcuSource n == 1 || h.tcuSource n == 4))

/-- TCU_BASE_TICK_WRITE (R22). A write that is refused for both reasons is captured with 0x0100 (assumption log, entry 136). -/
def execTcuBaseTickWrite (v : Word) (a : Attr) (s : State) : Host.Outcome State Fault Refusal :=
  s.run fun h => h.busWrite TCU_BASE_TICK a fun h =>
    if h.netOrLocEnabled then h.refuse TCU_BASE_TICK 0x0100 a
    else if v.toNat < 25_000 ∨ 10_000_000 < v.toNat then h.refuse TCU_BASE_TICK 0x0101 a
    else h.wr TCU_BASE_TICK v.toNat

/-- What follows a write of a slot's source that the TCU accepts (R30, R31): `old` is the former register, `len` the length of the
slot's tick until then, with which a slot that changes to ANG or MNS advances until a tick is measured. -/
def Hw.sourceChanged (h : Hw) (n old len : Nat) : Hw :=
  let en := h.bit (TCU_SRC n) 31
  let src := h.tcuSource n
  if h.rd (TCU_SRC n) = old then h
  else if !en || src == 0 then
    let h := h.setCorr n 0 0
    let h := h.setSlot n { h.slot n with run := false }
    (h.put (TCU_QUAL n) 2 0 0).putBit (TCU_QUAL n) 4 false
  else
    let h := (h.setCorr n 0 0).putBit (TCU_QUAL n) 4 false
    let h := if fld old 2 0 = src then h else h.setSlot n { h.slot n with tickNs := len }
    if src = 4 then h.enterFreerun n
    else if (h.slot n).hasVal then h.enterHoldover n
    else h.put (TCU_QUAL n) 2 0 1

/-- A LOCKED slot loses its source (R24, R27). A slew under way and a step that waits end with it (assumption log, entry 136). -/
def Hw.loseSource (h : Hw) (n : Nat) : Hw :=
  if h.tcuState n = 2 then
    let h := (h.setCorr n 0 0).putBit (TCU_QUAL n) 4 false
    (h.incF (TCU_QUAL n) 23 16).enterHoldover n
  else h

/-- The source of a slot may be lost (Table 01.3): a NET slot's instance no longer reports, ANG and MNS as the command says, LOC
never. -/
def Hw.sourceGone (h : Hw) (n : Nat) : Bool :=
  match h.tcuSource n with
  | 1 => !h.ptpReports (h.slotPtp n) || h.syncLate (h.slotPtp n)
  | 2 => true
  | 3 => true
  | _ => false

/-- SOURCE_LOST (R24, R27, R61). -/
def execSourceLost (n : Fin 4) (fault : Bool) (s : State) : Host.Outcome State Fault Refusal :=
  s.run fun h =>
    if !h.sourceGone n || h.tcuState n == 0 then h
    else (h.raiseIf (fault && h.tcuSource n != 1) pgTCU (6 * n + 5)).loseSource n

/-- HOLD_LIMIT_EXPIRY (R27): `TCU_HOLD_LIMITn` ms have passed in holdover. -/
def execHoldLimitExpiry (n : Fin 4) (s : State) : Host.Outcome State Fault Refusal :=
  s.run fun h =>
    if h.tcuState n = 3 ∧ (h.slot n).limAt + h.rd (TCU_HOLD_LIMIT n) * 1_200_000 ≤ h.now then h.enterFreerun n else h

/-- ANG_STALL (R25): no edge has come for `STALL` ms; the phase is held, the state stays LOCKED. -/
def execAngStall (n : Fin 4) (s : State) : Host.Outcome State Fault Refusal :=
  s.run fun h =>
    if h.onShaft n ∧ (h.slot n).edgeAt + h.get (TCU_SRCCFG n) 23 16 * 1_200_000 ≤ h.now then
      let h := h.rebase n
      let h := h.setSlot n { h.slot n with run := false }
      (h.putBit (TCU_QUAL n) 4 true).tcuEvent n 4
    else h

/-- SLEW_DONE (R33, R34): the correction is used up, and the slot returns to its normal rate. -/
def execSlewDone (n : Fin 4) (s : State) : Host.Outcome State Fault Refusal :=
  s.run fun h => if h.bit (TCU_QUAL n) 3 && decide (h.slotCorr n = 0) then h.setCorr n 0 0 else h

/-- A write of `TCU_SLEWn` bounds a slew under way (R33, R34). -/
def Hw.slewLimit (h : Hw) (n : Nat) : Hw :=
  if (h.slot n).corr ≠ 0 ∧ (h.tcuSource n = 1 ∨ h.tcuSource n = 4) then
    let h := h.rebase n
    h.setSlot n { h.slot n with ppm := h.get (TCU_SLEW n) 8 0 }
  else h

/-- The shaft of a slot on ANG that is LOCKED stands at a position at this instant, turning forward. -/
def Hw.shaftAt (h : Hw) (n p : Nat) : Hw :=
  let t := h.slot n
  if h.onShaft n then h.setSlot n { t with pos := p, fwd := true, edgeAt := h.now, edgeNs := t.tickNs / h.angLines n } else h

/-- An encoder edge (R25, R26), with the interval since the edge before in ns: a shaft that turns is not stalled. -/
def Hw.encoderEdge (h : Hw) (n : Nat) (fwd : Bool) (gapNs : Nat) : Hw :=
  let h := h.rebase n
  let t := h.slot n
  let k := edgeNo (h.angLines n) t.pos
  let p := edgePos (h.angLines n) (if fwd then k + 1 else k - 1)
  (h.setSlot n { t with pos := p, fwd := fwd, edgeAt := h.now, edgeNs := gapNs, run := true }).putBit (TCU_QUAL n) 4 false

/-- A source value in whole units of 2^−24 tick: a part of a unit is dropped (assumption log, entry 136). -/
def unitsOf (r : Ratio) : Nat := r.num / (if r.den = 0 then 1 else r.den) % 2 ^ 64

/-- The source of a slot is qualified (R24, R28, R30): the slot is LOCKED and takes the source value, or a correction.
The rate learned and the tick length come with it. -/
def Hw.qualify (h : Hw) (n : Nat) (src : Ratio) (rate : Int) (tickNs : Nat) (seen : List Nat) : Hw :=
  let st := h.tcuState n
  if st = 0 ∨ st = 2 ∨ !h.sourceGood n seen then h
  else
    let h := h.rebase n
    let src := h.sourceValue n src
    let h := h.wr (TCU_RATE n) (unsgn 32 rate)
    let h := h.setSlot n { h.slot n with tickNs := tickNs, run := true }
    let h := if h.tcuSource n = 2 then h.setSlot n { h.slot n with pos := (h.slot n).val, edgeNs := 0 } else h
    if (h.slot n).hasVal then
      let d := measure src (h.slotVal n)
      ((h.judge n d true).setTcuState n 2).tcuEvent n 0
    else
      let h := h.setSlot n { h.slot n with val := unitsOf src, stamp := h.now, hasVal := true, mark := unitsOf src }
      (h.setTcuState n 2).tcuEvent n 0

end Sys2Proof.Machine
end

