-- ==== Sys2Proof/Machine/CueSheet.lean ====
section
/-! DEFINITION. The cue sheet (R41 to R58, R62, R63): entries, the two halves, and what every cue passes before its
action acts. The actions themselves stand in the chapters' families. -/

namespace Sys2Proof.Machine

/-- What an unlisted entry of a half is: all zero, not VALID. -/
def zeroCue (_ : Nat) : CueWord := 0

/-- A field of a cue entry (Table 01.6). -/
def cueFld (e : CueWord) (hi lo : Nat) : Nat := fld e.toNat hi lo

/-- `ACTION` of an entry. -/
def cueAction (e : CueWord) : Nat := cueFld e 122 115

/-- `ARG` of an entry. -/
def cueArg (e : CueWord) : Nat := cueFld e 31 0

/-- `TC` of an entry. -/
def cueTc (e : CueWord) : Nat := cueFld e 125 124

/-- The first instant of an entry, in units of 2^−24 tick (R42). -/
def cueFirst (e : CueWord) : Nat := (2 ^ 32 * cueFld e 71 64 + cueFld e 63 32) * tickUnit + cueFld e 95 72

/-- Number of instants of an entry before `b` (R42). -/
def instantsBelow (e : CueWord) (b : Nat) : Nat :=
  let f := cueFirst e
  let p := cueFld e 114 96 * tickUnit
  if b ≤ f then 0 else if p = 0 then 1 else (b - f - 1) / p + 1

/-- Number of instants after `lo` and before `hi`. -/
def instantsBetween (e : CueWord) (lo hi : Nat) : Nat := instantsBelow e hi - instantsBelow e (lo + 1)

/-- The first instant after `lo`. -/
def nextInstant (e : CueWord) (lo : Nat) : Nat :=
  cueFirst e + instantsBelow e (lo + 1) * (cueFld e 114 96 * tickUnit)

/-- The entry has an instant at `b`. -/
def instantAt (e : CueWord) (b : Nat) : Bool := decide (instantsBelow e (b + 1) = instantsBelow e b + 1)

/-- Number of the active half. -/
def Hw.activeHalf (h : Hw) : Nat := h.get CUE_ACTIVE 0 0

/-- The entries of a half that are not all zero. -/
def Hw.half (h : Hw) (i : Nat) : List (Nat × CueWord) := if i = 0 then h.cue.half0 else h.cue.half1

/-- Replace a half. -/
def Hw.setHalf (h : Hw) (i : Nat) (l : List (Nat × CueWord)) : Hw :=
  if i = 0 then { h with cue := { h.cue with half0 := l } } else { h with cue := { h.cue with half1 := l } }

/-- An entry of a half. -/
def Hw.cueEntry (h : Hw) (half i : Nat) : CueWord := lookup zeroCue (h.half half) i

/-- The argument bits that Table 01.7 names for an action; none for a reserved action. -/
def argMask : Nat → Option Nat
  | 0x00 => some 0
  | 0x01 => some 0x3F
  | 0x02 => some 0x3F
  | 0x03 => some 0xF
  | 0x10 => some 0x3F00FF
  | 0x11 => some 0x3F0001
  | 0x18 => some 0x7F007F
  | 0x20 => some 0xF7F
  | 0x28 => some 0x7FF
  | 0x30 => some 0xFF
  | 0x31 => some 0xFF
  | 0x38 => some 0x7F
  | 0x40 => some 0x7FF
  | 0x48 => some 0x73
  | 0x50 => some 0
  | 0x58 => some 0
  | _ => none

/-- The argument lies in the ranges of Table 01.7. -/
def argInRange (act arg : Nat) : Bool :=
  match act with
  | 0x10 => decide (fld arg 21 16 ≤ 35)
  | 0x11 => decide (fld arg 21 16 ≤ 11)
  | 0x18 =>
    decide (fld arg 22 16 ≤ 71) && decide (1 ≤ fld arg 6 0) && decide (fld arg 22 16 + fld arg 6 0 ≤ 72)
  | _ => true

/-- The entry has a listed action, names no other argument bit, and its argument is in range (R44, R45). -/
def entryOk (e : CueWord) : Bool :=
  match argMask (cueAction e) with
  | none => false
  | some m => decide (cueArg e &&& m = cueArg e) && argInRange (cueAction e) (cueArg e)

/-- A swap or a copy is under way. -/
def Hw.swapOrCopy (h : Hw) : Bool := h.cue.swap.isSome || h.cue.copying

/-- CUE_IDX_WRITE (R49): the index is stored and the four words are loaded from the half chosen. -/
def execCueIdxWrite (v : Word) (a : Attr) (s : State) : Host.Outcome State Fault Refusal :=
  s.run fun h => h.busWrite CUE_IDX a fun h =>
    let h := h.storeReg CUE_IDX v.toNat
    let half := if h.bit CUE_IDX 31 then h.activeHalf else 1 - h.activeHalf
    let e := (h.cueEntry half (h.get CUE_IDX 11 0)).toNat
    (((h.wr CUE_W0 (fld e 31 0)).wr CUE_W1 (fld e 63 32)).wr CUE_W2 (fld e 95 64)).wr CUE_W3 (fld e 127 96)

/-- The index advances by one, wrapping from 4,095 to 0 (R49). -/
def Hw.cueIdxNext (h : Hw) : Hw := h.incF CUE_IDX 11 0

/-- CUE_W3_WRITE (R45, R46, R49, R52). An entry that R45 and R46 both discard is captured with 0x0102 (assumption log, entry
137). -/
def execCueW3Write (v : Word) (a : Attr) (s : State) : Host.Outcome State Fault Refusal :=
  s.run fun h => h.busWrite CUE_W3 a fun h =>
    if h.swapOrCopy then h.refuse CUE_W3 0x0103 a
    else
      let h := h.wr CUE_W3 v.toNat
      let e : CueWord := BitVec.ofNat 128
        (h.rd CUE_W0 + 2 ^ 32 * h.rd CUE_W1 + 2 ^ 64 * h.rd CUE_W2 + 2 ^ 96 * h.rd CUE_W3)
      let i := h.get CUE_IDX 11 0
      if !entryOk e then (h.refuse CUE_W3 0x0102 a).cueIdxNext
      else if cueFld e 123 123 = 1 && !a.secure then (h.refuse CUE_W3 0x0002 a).cueIdxNext
      else
        let sh := 1 - h.activeHalf
        (h.setHalf sh (store zeroCue (h.half sh) i e)).cueIdxNext

/-- A swap becomes pending at a boundary of a slot. -/
def Hw.swapPending (h : Hw) (tc b : Nat) : Hw :=
  let h := { h with cue := { h.cue with swap := some (tc, b) } }
  (h.putBit CUE_SWAP 30 true).putBit (STATUS pgCUE) 0 true

/-- CUE_SWAP_REQUEST (R50, R52): `TC` and `AT_HI` are stored; `REQ` requests the swap at the first tick boundary of the
slot at or after the tick given, or, when that tick has passed, at the next one. -/
def execCueSwapRequest (v : Word) (a : Attr) (s : State) : Host.Outcome State Fault Refusal :=
  s.run fun h => h.busWrite CUE_SWAP a fun h =>
    if !decide (fld v.toNat 31 31 = 1) then
      (h.put CUE_SWAP 29 28 (fld v.toNat 29 28)).put CUE_SWAP 7 0 (fld v.toNat 7 0)
    else if h.swapOrCopy then (h.refuse CUE_SWAP 0x0103 a).raise pgCUE 5
    else
      let h := ((h.put CUE_SWAP 29 28 (fld v.toNat 29 28)).put CUE_SWAP 7 0 (fld v.toNat 7 0)).putBit CUE_SWAP 31 true
      let tc := h.get CUE_SWAP 29 28
      let at_ := (2 ^ 32 * h.get CUE_SWAP 7 0 + h.rd CUE_SWAP_AT_LO) * tickUnit
      let now := h.slotVal tc
      h.swapPending tc (if at_ < now then (now / tickUnit + 1) * tickUnit else at_)

/-- The halves exchange (R51). -/
def Hw.swapHalves (h : Hw) : Hw :=
  let h := h.put CUE_ACTIVE 0 0 (1 - h.activeHalf)
  let h := { h with cue := { h.cue with swap := none } }
  (((h.putBit CUE_SWAP 30 false).putBit CUE_SWAP 31 false).putBit (STATUS pgCUE) 0 false).raise pgCUE 0

/-- CUE_COPY (R52). -/
def execCueCopy (v : Word) (a : Attr) (s : State) : Host.Outcome State Fault Refusal :=
  s.run fun h => h.busWrite CUE_COPY a fun h =>
    if h.swapOrCopy then h.refuse CUE_COPY 0x0103 a
    else if fld v.toNat 0 0 = 1 then
      { h with cue := { h.cue with copying := true, copyAt := h.now } }.putBit (STATUS pgCUE) 1 true
    else h

/-- COPY_DONE (R52): 4,096 cue clock cycles after `GO` the shadow half holds the active half. -/
def execCopyDone (s : State) : Host.Outcome State Fault Refusal :=
  s.run fun h =>
    if h.cue.copying && decide (h.cue.copyAt + 4096 ≤ h.now) then
      let h := h.setHalf (1 - h.activeHalf) (h.half h.activeHalf)
      { h with cue := { h.cue with copying := false } }.putBit (STATUS pgCUE) 1 false
    else h

/-- CUE_CNT_CLR (Table 01.15): bits 2:0 clear the three counters, in order. -/
def execCueCntClr (v : Word) (a : Attr) (s : State) : Host.Outcome State Fault Refusal :=
  s.run fun h => h.busWrite CUE_CNT_CLR a fun h =>
    let h := if fld v.toNat 0 0 = 1 then h.wr CUE_SKIP_CNT 0 else h
    let h := if fld v.toNat 1 1 = 1 then h.wr CUE_CROWD_CNT 0 else h
    if fld v.toNat 2 2 = 1 then h.wr CUE_REFUSE_CNT 0 else h

/-- The pages that an action acts on: its target under R47. -/
def cuePages (act arg : Nat) : List Nat :=
  match act with
  | 0x01 => [pgCEA]
  | 0x02 => [pgCEA]
  | 0x03 => [pgAIN]
  | 0x10 => [pgETH (fld arg 21 16)]
  | 0x11 => [pgETH (fld arg 21 16)]
  | 0x18 =>
    let lo := fld arg 22 16 / 8
    let hi := (fld arg 22 16 + fld arg 6 0 - 1) / 8
    (List.range (hi + 1 - lo)).map (fun i => pgPCH (lo + i))
  | 0x20 => [pgCAN (fld arg 11 8)]
  | 0x28 => [pgLIN (fld arg 10 8)]
  | 0x30 => [pgRIO]
  | 0x31 => [pgRIO]
  | 0x38 => [pgDMA (fld arg 6 0 / 32)]
  | 0x48 => [pgTCU]
  | 0x50 => [pgCUE]
  | 0x58 => [pgBOOT]
  | _ => []

/-- The cue's target belongs to the Secure world (R47; an EVT_PULSE is judged by its line, R565). -/
def Hw.cueTargetSecure (h : Hw) (act arg : Nat) : Bool :=
  if act = 0x40 then h.lineSecure (fld arg 10 0) else (cuePages act arg).any (fun p => h.bit (WORLD p) 0)

/-- An entry reaches an instant: it is refused when it is not Secure and its target is (R47), has no effect when its
target is off or stopped (R704), and else its action `eff` acts. -/
def Hw.fireChecked (h : Hw) (e : CueWord) (eff : Hw → Hw) : Hw :=
  if cueFld e 123 123 = 0 && h.cueTargetSecure (cueAction e) (cueArg e) then (h.sat CUE_REFUSE_CNT).raise pgCUE 3
  else if (cuePages (cueAction e) (cueArg e)).any (fun p => !h.live p) then h.sat PWR_CUE_LOST
  else eff h

/-- The cue sheet in the present cue clock cycle: what an earlier cycle fired no longer counts (R54). -/
def Hw.cueNow (h : Hw) : Hw :=
  if h.cue.cycle = h.now then h else { h with cue := { h.cue with cycle := h.now, fired := 0, done := [], next := 0 } }

/-- The instant of an entry that its slot reaches in the present cycle: it lies at or before the slot's value, and the cue sheet
has not passed it (R42, R43). -/
def Hw.cueDue (h : Hw) (e : CueWord) : Option Nat :=
  let k := instantsBelow e (h.slot (cueTc e)).mark
  if k < instantsBelow e (h.slotVal (cueTc e) + 1) then some (cueFirst e + k * (cueFld e 114 96 * tickUnit)) else none

/-- The instants of this cycle are passed. -/
def Hw.passMarks (h : Hw) : Hw := each 4 (fun n (h : Hw) => h.setSlot n { h.slot n with mark := h.slotVal n + 1 }) h

/-- A cue fires at an instant; past 64 of them in one cycle it is deferred and counted (R39, R54). -/
def Hw.fireAt (h : Hw) (i v : Nat) (e : CueWord) (eff : Hw → Hw) : Hw :=
  let h := h.cueNow
  if h.cue.fired < 64 then { h with cue := { h.cue with fired := h.cue.fired + 1 } }.fireChecked e eff
  else ({ h with cue := { h.cue with late := h.cue.late ++ [LateCue.mk i v e] } }.sat CUE_CROWD_CNT).raise pgCUE 2

/-- The entry has fired in this cycle; the next one to fire has a higher index (R56). -/
def Hw.cueTaken (h : Hw) (i : Nat) : Hw :=
  let h := h.cueNow
  { h with cue := { h.cue with done := h.cue.done ++ [i], next := i + 1 } }

/-- A cue of the active half reaches its instant outside a step: its entry must be VALID with the action `act`, the CUE
must be enabled, the slot must fire and reach an instant of the entry in this cycle, and the cues of one cycle come in ascending
index (R43, R56, R62, Table 01.2). `eff` is given the argument, the instant, the slot, and the entry's index. -/
def Hw.fireCue (h : Hw) (c : CueRef) (act : Nat) (eff : Nat → Nat → Nat → Nat → Hw → Hw) : Hw :=
  let e := h.cueEntry h.activeHalf c.idx
  if h.live pgCUE && h.bit (CTRL pgCUE) 0 && decide (cueFld e 127 127 = 1) && decide (cueAction e = act)
      && h.slotFires (cueTc e) && decide (h.cueNow.cue.next ≤ c.idx) then
    match h.cueDue e with
    | some v => (h.cueTaken c.idx).fireAt c.idx v e (eff (cueArg e) v (cueTc e) c.idx)
    | none => h
  else h

/-- EVT_PULSE (Table 01.7): the event line is pulsed; a line that is high does not rise. -/
def evtPulseEff (arg _v _tc _idx : Nat) (h : Hw) : Hw :=
  let e := fld arg 10 0
  if (lineSource e).isSome && !h.lineHigh e then h.edge e else h

/-- TC_CAPTURE (Table 01.7): a capture register takes the slot's value at this instant. For the entry's own slot that is
the instant itself; for another slot its present value. -/
def tcCaptureEff (arg v tc _idx : Nat) (h : Hw) : Hw :=
  let k := fld arg 6 4
  let n := fld arg 1 0
  let x := if n = tc then v else h.slotVal n
  (h.wr (TCU_CAP_LO k) (nowLo x)).wr (TCU_CAP_HI k) (nowHi x)

/-- SWAP (R50, R52): a swap is requested at the first tick boundary of the entry's slot strictly after the instant.
A request that is discarded is captured as the CUE's own: Secure, master 0, the address of `CUE_SWAP` (assumption log, entry
137). -/
def swapEff (_arg v tc _idx : Nat) (h : Hw) : Hw :=
  if h.swapOrCopy then (h.capture pgCUE 0x0103 (busAddr CUE_SWAP) (ownAttr 0)).raise pgCUE 5
  else h.swapPending tc ((v / tickUnit + 1) * tickUnit)

/-- EVT_PULSE cue. -/
def execEvtPulse (c : CueRef) (s : State) : Host.Outcome State Fault Refusal := s.run fun h => h.fireCue c 0x40 evtPulseEff

/-- TC_CAPTURE cue. -/
def execTcCapture (c : CueRef) (s : State) : Host.Outcome State Fault Refusal := s.run fun h => h.fireCue c 0x48 tcCaptureEff

/-- SWAP cue. -/
def execSwap (c : CueRef) (s : State) : Host.Outcome State Fault Refusal := s.run fun h => h.fireCue c 0x50 swapEff

end Sys2Proof.Machine
end

