-- ==== Sys2Proof/Machine/Array.lean ====
section
/-! DEFINITION. The cycle engine array as the other families see it (R64 to R73, R81, R104): the cadence and task tables,
the engines, the instance pool with its retention, and what of a run is current on an engine. -/

namespace Sys2Proof.Machine

/-- A cadence beside its table entry. -/
def Hw.cad (h : Hw) (c : Nat) : CadSt := lookup (fun _ => {}) h.cea.cads c

/-- Replace a cadence. -/
def Hw.setCad (h : Hw) (c : Nat) (x : CadSt) : Hw :=
  { h with cea := { h.cea with cads := store (fun _ => {}) h.cea.cads c x } }

/-- A task beside its table entry. -/
def Hw.task (h : Hw) (t : Nat) : TaskSt := lookup (fun _ => {}) h.cea.tasks t

/-- Replace a task. -/
def Hw.setTask (h : Hw) (t : Nat) (x : TaskSt) : Hw :=
  { h with cea := { h.cea with tasks := store (fun _ => {}) h.cea.tasks t x } }

/-- An engine beside its page. -/
def Hw.eng (h : Hw) (e : Nat) : EngSt := lookup (fun _ => {}) h.cea.engs e

/-- Replace an engine. -/
def Hw.setEng (h : Hw) (e : Nat) (x : EngSt) : Hw :=
  { h with cea := { h.cea with engs := store (fun _ => {}) h.cea.engs e x } }

/-- The run of a task. -/
def Hw.runOf (h : Hw) (t : Nat) : Option Run := find? h.cea.runs t

/-- File a run of a task. -/
def Hw.setRun (h : Hw) (t : Nat) (r : Run) : Hw := { h with cea := { h.cea with runs := file h.cea.runs t r } }

/-- Remove a task's run. -/
def Hw.dropRun (h : Hw) (t : Nat) : Hw := { h with cea := { h.cea with runs := unfile h.cea.runs t } }

/-- Engine state codes (Table 02.10). -/
abbrev engOff : Nat := 0
abbrev engActive : Nat := 1
abbrev engSpare : Nat := 2
abbrev engRerun : Nat := 3
abbrev engSelftest : Nat := 4
abbrev engRetired : Nat := 5
abbrev engHalted : Nat := 6

/-- The register that shows an engine's state. -/
def engStateReg (e : Nat) : Nat :=
  if e / 8 = 0 then CEA_ENG_STATE0 else if e / 8 = 1 then CEA_ENG_STATE1 else CEA_ENG_STATE2

/-- State of an engine. -/
def Hw.engState (h : Hw) (e : Nat) : Nat := h.get (engStateReg e) (4 * (e % 8) + 3) (4 * (e % 8))

/-- Number of engines in a state. -/
def Hw.engCount (h : Hw) (st : Nat) : Nat := ((List.range 18).filter (fun e => decide (h.engState e = st))).length

/-- Set the state of an engine; `CEA_POOL` follows. -/
def Hw.setEngState (h : Hw) (e st : Nat) : Hw :=
  let h := h.put (engStateReg e) (4 * (e % 8) + 3) (4 * (e % 8)) st
  let h := h.put (CE_STATE e) 31 28 st
  ((h.put CEA_POOL 20 16 (h.engCount engActive)).put CEA_POOL 12 8 (h.engCount engRetired)).put CEA_POOL 1 0
    (min 3 (h.engCount engSpare))

/-- The lowest-numbered engine in a state. -/
def Hw.firstEng (h : Hw) (st : Nat) : Option Nat := (List.range 18).find? (fun e => decide (h.engState e = st))

/-- An engine is suspect no longer. -/
def Hw.clearSuspect (h : Hw) (e : Nat) (testing : Bool := false) : Hw :=
  h.setEng e { h.eng e with suspect := false, heir := none, afterMismatch := testing }

/-- What a register held before the outputs of this cycle reached it (R57). -/
def Hw.inputRd (h : Hw) (k : Nat) : Nat := if h.cea.outAt = h.now then (find? h.cea.before k).getD (h.rd k) else h.rd k

/-- Outputs are about to reach registers that an input cue may latch (R57). -/
def Hw.beforeOut (h : Hw) (ks : List Nat) : Hw :=
  let l := if h.cea.outAt = h.now then h.cea.before else []
  { h with cea := { h.cea with outAt := h.now, before := l ++ (ks.filter (fun k => (find? l k).isNone)).map (fun k => (k, h.rd k)) } }

/-- The array is enabled (R113). -/
def Hw.ceaOn (h : Hw) : Bool := h.bit (CTRL pgCEA) 0

/-- Fields of a cadence entry (Table 02.1). -/
def Hw.cadEn (h : Hw) (c : Nat) : Bool := h.bit (CEA_CAD c 0) 31
def Hw.cadTc (h : Hw) (c : Nat) : Nat := h.get (CEA_CAD c 0) 29 28
def Hw.cadCommitIdx (h : Hw) (c : Nat) : Nat := h.get (CEA_CAD c 0) 27 16
def Hw.cadLatchIdx (h : Hw) (c : Nat) : Nat := h.get (CEA_CAD c 0) 11 0
def Hw.cadPeriod (h : Hw) (c : Nat) : Nat := h.get (CEA_CAD c 1) 18 0
def Hw.cadImgBase (h : Hw) (c : Nat) : Nat := h.get (CEA_CAD c 2) 23 0
def Hw.cadIns (h : Hw) (c : Nat) : List Nat :=
  (List.range (h.get (CEA_CAD c 3) 11 0)).map (· + h.get (CEA_CAD c 3) 27 16)
def Hw.cadOuts (h : Hw) (c : Nat) : List Nat :=
  (List.range (h.get (CEA_CAD c 4) 11 0)).map (· + h.get (CEA_CAD c 4) 27 16)

/-- Fields of a task entry (Table 02.2). -/
def Hw.taskEn (h : Hw) (t : Nat) : Bool := h.bit (CEA_TASK t 0) 31
def Hw.taskBg (h : Hw) (t : Nat) : Bool := h.bit (CEA_TASK t 0) 30
def Hw.taskCad (h : Hw) (t : Nat) : Nat := h.get (CEA_TASK t 0) 29 24
def Hw.taskCrit (h : Hw) (t : Nat) : Nat := h.get (CEA_TASK t 0) 23 22
def Hw.taskTol (h : Hw) (t : Nat) : Nat := h.get (CEA_TASK t 0) 21 18
def Hw.instBase (h : Hw) (t : Nat) : Nat := h.get (CEA_TASK t 1) 23 0
def Hw.taskBudget (h : Hw) (t : Nat) : Nat := h.get (CEA_TASK t 2) 28 18
def Hw.taskSafe (h : Hw) (t : Nat) : Nat := h.get (CEA_TASK t 2) 17 0 * 32
def Hw.taskPin (h : Hw) (t : Nat) : Nat := h.get (CEA_TASK t 3) 31 14

/-- The engine of a task, 0x1F when none (Table 02.11). -/
def Hw.taskEng (h : Hw) (t : Nat) : Nat := h.get (CEA_TSTAT t) 28 24

/-- State of a task (Table 02.11). -/
def Hw.taskState (h : Hw) (t : Nat) : Nat := h.get (CEA_TSTAT t) 31 29

/-- Set the state of a task. -/
def Hw.setTaskState (h : Hw) (t st : Nat) : Hw := h.put (CEA_TSTAT t) 31 29 st

/-- Set the last outcome of a task. -/
def Hw.setLast (h : Hw) (t x : Nat) : Hw := h.put (CEA_TSTAT t) 19 16 x

/-- The enabled cyclic tasks of a cadence, ascending. -/
def Hw.cadTasks (h : Hw) (c : Nat) : List Nat :=
  (List.range 512).filter (fun t => h.taskEn t && !h.taskBg t && decide (h.taskCad t = c))

/-- Fields of a map entry (Table 02.3). -/
def Hw.mapKind (h : Hw) (m : Nat) : Nat := h.get (CEA_MAP m 1) 31 28
def Hw.mapSrc (h : Hw) (m : Nat) : Nat := h.get (CEA_MAP m 1) 27 16
def Hw.mapTask (h : Hw) (m : Nat) : Nat := h.get (CEA_MAP m 1) 15 7
def Hw.mapAuth (h : Hw) (m : Nat) : Bool := h.bit (CEA_MAP m 1) 6
def Hw.mapLen (h : Hw) (m : Nat) : Nat := h.get (CEA_MAP m 1) 3 0 * 256 + h.get (CEA_MAP m 0) 31 24
def Hw.mapOfs (h : Hw) (m : Nat) : Nat := h.get (CEA_MAP m 0) 23 0

/-- The latch-to-commit window of a cadence in units of 2^−24 tick (R69, R104): from the cue entries of the active
half. -/
def Hw.cadWindow (h : Hw) (c : Nat) : Nat :=
  let l := cueFirst (h.cueEntry h.activeHalf (h.cadLatchIdx c))
  let m := cueFirst (h.cueEntry h.activeHalf (h.cadCommitIdx c))
  let p := h.cadPeriod c * tickUnit
  if p = 0 then 0 else (m + p - l % p) % p

/-- That window in time, in units of 2^−24 ns, for comparison across slots. -/
def Hw.cadWindowTime (h : Hw) (c : Nat) : Nat := h.cadWindow c * h.tickNs (h.cadTc c)

/-- The check of R69: both cues stand in a half of the cue sheet, on the slot, with the cadence's period, and the commit
follows the latch by more than 0 and less than one period. -/
def Hw.cadCuesOk (h : Hw) (half c : Nat) : Bool :=
  let l := h.cueEntry half (h.cadLatchIdx c)
  let m := h.cueEntry half (h.cadCommitIdx c)
  let p := h.cadPeriod c
  let ok := fun (e : CueWord) act =>
    decide (cueFld e 127 127 = 1) && decide (cueAction e = act) && decide (cueArg e = c) &&
      decide (cueTc e = h.cadTc c) && decide (cueFld e 114 96 = p)
  ok l 0x01 && ok m 0x02 && decide (p ≠ 0) &&
    decide ((cueFirst m + p * tickUnit - cueFirst l % (p * tickUnit)) % (p * tickUnit) ≠ 0)

/-- The bytes of a pool word with those a write buffer entry holds in their place. -/
def mergeEnt (old : BitVec 64) (e : BufEnt) : BitVec 64 :=
  BitVec.ofNat 64 (leNat ((List.range 8).map (fun i =>
    if fld e.mask.toNat i i = 1 then BitVec.ofNat 8 (e.data.toNat / 256 ^ i) else BitVec.ofNat 8 (old.toNat / 256 ^ i))))

/-- A word of the pool. A word that a drain has still to write is taken as drained: a load waits for it (R81). -/
def Hw.poolWord (h : Hw) (w : Nat) : BitVec 64 :=
  h.cea.drains.foldl (fun x d => match find? d.words w with | some e => mergeEnt x e | none => x)
    (BitVec.ofNat 64 (h.cea.pool.le (8 * w) 8))

/-- A word of the pool as of a sequence number: what retention holds of it, else the word itself (R81). -/
def Hw.poolWordAt (h : Hw) (seq w : Nat) : BitVec 64 :=
  match h.cea.kept.find? (fun k => decide (k.word = w) && decide (seq ≤ k.seq)) with
  | some k => k.data
  | none => h.poolWord w

/-- A byte of the pool. -/
def Hw.poolByte (h : Hw) (a : Nat) : Byte := BitVec.ofNat 8 ((h.poolWord (a / 8)).toNat / 256 ^ (a % 8))

/-- A byte of the pool as of a sequence number. -/
def Hw.poolByteAt (h : Hw) (seq a : Nat) : Byte := BitVec.ofNat 8 ((h.poolWordAt seq (a / 8)).toNat / 256 ^ (a % 8))

/-- Size of the instance pool in bytes (R65). -/
abbrev poolSize : Nat := 0x100_0000

/-- Sequence numbers that runs, reruns and cadences in progress still read as of (R81, R109). -/
def Hw.readers (h : Hw) : List Nat :=
  (h.cea.cads.filter (fun c => c.2.latched)).map (fun c => c.2.seq) ++
    (h.cea.runs.filter (fun r => r.2.begun || !r.2.bg)).map (fun r => r.2.seq) ++
    h.cea.tasks.filterMap (fun t => t.2.retry.map (fun x => x.seq))

/-- Bytes of retention in use (R117). -/
def Hw.retUse (h : Hw) : Nat := 8 * h.cea.kept.length

/-- Retention keeps what some reader may still need; its use, its peak and the 90 % event follow (R81, R117). -/
def Hw.trimKept (h : Hw) : Hw :=
  let rs := h.readers
  let h := { h with cea := { h.cea with kept := h.cea.kept.filter (fun k => rs.any (fun r => decide (r ≤ k.seq))) } }
  let u := h.retUse
  let was := h.rd IMP_RET_USE
  let h := h.put IMP_RET_USE 21 0 (min u (2 ^ 22 - 1))
  let h := if u > h.rd IMP_RET_PEAK then h.wr IMP_RET_PEAK u else h
  h.raiseIf (decide (10 * was ≤ 9 * 0x20_0000) && decide (10 * u > 9 * 0x20_0000)) pgIMP 2

/-- The pool words that a write supersedes go to retention under a sequence number. -/
def Hw.keep (h : Hw) (seq : Nat) (ws : List Nat) : Hw :=
  { h with cea := { h.cea with kept := h.cea.kept ++ ws.map (fun w => ⟨w, seq, h.poolWord w⟩) } }

/-- A list of bytes from a pool offset as write buffer entries. -/
def bytesBuf (a : Nat) (bs : List Byte) : WBuf :=
  (bs.foldl (fun (s : Nat × WBuf) b =>
    let w := s.1 / 8
    let e := (find? s.2 w).getD {}
    let i := s.1 % 8
    (s.1 + 1, file s.2 w { e with
      data := BitVec.ofNat 64 (setFld e.data.toNat (8 * i + 7) (8 * i) b.toNat), mask := e.mask ||| BitVec.ofNat 8 (2 ^ i) }))
    (a, [])).2

/-- Write buffer entries go into the pool memory. -/
def poolPut (m : Mem) (ws : WBuf) : Mem :=
  ws.foldl (fun m e => m.write (8 * e.1) (leBytes 8 (mergeEnt (BitVec.ofNat 64 (m.le (8 * e.1) 8)) e.2).toNat)) m

/-- A direct write to the pool under a sequence number: superseded words go to retention. -/
def Hw.poolWriteAt (h : Hw) (seq a : Nat) (bs : List Byte) : Hw :=
  let ws := bytesBuf a bs
  let full : WBuf := ws.map (fun e => (e.1, { data := mergeEnt (h.poolWord e.1) e.2, mask := 0xFF }))
  let h := h.keep seq (ws.map (·.1))
  let left : List Drain :=
    h.cea.drains.map (fun (d : Drain) => { d with words := d.words.filter (fun e => !ws.any (fun x => x.1 == e.1)) })
  { h with cea := { h.cea with pool := poolPut h.cea.pool full, drains := left } }.trimKept

/-- A direct write to the pool at the present moment (a migration, a bus master, the twin). -/
def Hw.poolWrite (h : Hw) (a : Nat) (bs : List Byte) : Hw :=
  { h with cea := { h.cea with seq := h.cea.seq + 1 } }.poolWriteAt h.cea.seq a bs

/-- A Take is on (R668): the gate releases nothing, and background tasks do not run. -/
def Hw.inTake (h : Hw) : Bool := h.rel.take.isSome

/-- Bank start of a task's active bank in program memory, in bytes (R160). -/
def Hw.bankBase (h : Hw) (t : Nat) : Nat :=
  (if h.bit (PGM_TASK_SEL t) 0 then h.get (PGM_TASK_BANK1 t) 16 0 else h.get (PGM_TASK_BANK0 t) 16 0) * 64

/-- The active bank is valid (R156). -/
def Hw.bankValid (h : Hw) (t : Nat) : Bool := h.bit (PGM_TASK_SEL t) (if h.bit (PGM_TASK_SEL t) 0 then 9 else 8)

/-- A 32-bit word of program memory. -/
def Hw.progWord (h : Hw) (a : Nat) : Nat := h.cea.prog.le a 4

/-- Forces in effect on a task's instance data (R178), lowest entry first: their pool offset and their bytes. -/
def Hw.taskForces (h : Hw) (t : Nat) : List (Nat × List Byte) :=
  h.frc.applied.filterMap (fun f =>
    if f.2.image || f.2.owner != t then none else some (h.instBase t + f.2.ofs, f.2.bytes))

/-- The forced value of a pool byte for the owner of the forces. -/
def forcedByte (fs : List (Nat × List Byte)) (a : Nat) : Option Byte :=
  match fs.find? (fun f => decide (f.1 ≤ a) && decide (a < f.1 + f.2.length)) with
  | some f => f.2[a - f.1]?
  | none => none

end Sys2Proof.Machine
end

