-- ==== Sys2Proof/Machine/Worlds.lean ====
section
/-! DEFINITION. The common page header (R11 to R17) and the world gates with the secure-hold marks (R554 to R577). -/

namespace Sys2Proof.Machine

/-- The pages of Table 22.1, ascending. -/
def allPages : List Nat := pageTable.flatMap (fun r => (List.range r.count).map (fun i => r.first + i))

/-- The life-cycle state (Table 16.6). -/
def Hw.lcs (h : Hw) : Nat := h.get KEY_LCS 2 0

/-- The group exists on the page: every page has group 0, the CEA also groups 1 and 2 (R16). -/
def groupExists (page g : Nat) : Bool := decide (g = 0) || (decide (page = pgCEA) && decide (g ≤ 2))

/-- EVT_CLR_WRITE (R11, R14): bits written 1 clear, but for those whose condition recurs in the same cycle; these give
no new edge (R729). -/
def execEvtClrWrite (page : Fin 1024) (g : Fin 3) (v again : Word) (a : Attr) (s : State) :
    Host.Outcome State Fault Refusal :=
  s.run fun h =>
    let k := evRaw page g + 8
    h.busWrite k a fun h =>
      if groupExists page g then
        let clr := v.toNat &&& (0xFFFF_FFFF - again.toNat)
        let set := again.toNat &&& evMask page g
        let h' := h.wr (evRaw page g) ((h.rd (evRaw page g) &&& (0xFFFF_FFFF - clr)) ||| set)
        h.newEdges h' page g
      else h

/-- EVT_SET_WRITE (R14, R15): honoured in BLANK, MANUFACTURE and RETURN only. -/
def execEvtSetWrite (page : Fin 1024) (g : Fin 3) (v : Word) (a : Attr) (s : State) :
    Host.Outcome State Fault Refusal :=
  s.run fun h =>
    let k := evRaw page g + 12
    h.busWrite k a fun h =>
      if groupExists page g && (h.lcs == 0 || h.lcs == 1 || h.lcs == 3) then
        let h' := h.wr (evRaw page g) (h.rd (evRaw page g) ||| (v.toNat &&& evMask page g))
        h.newEdges h' page g
      else h

/-- ERR_CAP_CLEAR (R11, R17): writing 1 to `VALID` clears all four registers; an error of the same cycle is then
captured as a first error. -/
def execErrCapClear (page : Fin 1024) (v : Word) (fresh : Option ErrEvent) (a : Attr) (s : State) :
    Host.Outcome State Fault Refusal :=
  s.run fun h => h.busWrite (ERR_CAP0 page) a fun h =>
    let h :=
      if fld v.toNat 31 31 = 1 then
        (((h.wr (ERR_CAP0 page) 0).wr (ERR_CAP1 page) 0).wr (ERR_CAP2 page) 0).wr (ERR_CAP3 page) 0
      else h
    match fresh with
    | none => h
    | some e => h.capture page e.code.toNat e.addr.toNat e.attr

/-- WGT_LOCK.ALL (R563). -/
def Hw.lockAll (h : Hw) : Hw :=
  let h := allPages.foldl (fun h p => h.putBit (LOCK p) 0 true) h
  let h := (h.putBit (LOCK pgWGT) 1 true).putBit (LOCK pgWGT) 2 true
  (h.putBit (STATUS pgWGT) 0 true).raise pgWGT 4

/-- The lock bits a page defines: `WORLD` and `CFG`, on the WGT page also `ALL` (Tables 00.8, 15.5). -/
def lockMask (page : Nat) : Nat := if page = pgWGT then 7 else 3

/-- What a write of `LOCK` does (R12, Table 00.8). -/
def Hw.lockWrite (h : Hw) (page v : Nat) : Hw :=
  let h := h.wr (LOCK page) (h.rd (LOCK page) ||| (v &&& lockMask page))
  if page = pgWGT ∧ fld v 2 2 = 1 then h.lockAll else h

/-- LOCK_WRITE (R12). -/
def execLockWrite (page : Fin 1024) (v : Word) (a : Attr) (s : State) : Host.Outcome State Fault Refusal :=
  s.run fun h => h.busWrite (LOCK page) a fun h => h.lockWrite page v.toNat

/-- WGT_LOCK_ALL (R563): the write of `WGT_LOCK` that has `ALL` set. -/
def execWgtLockAll (v : Word) (a : Attr) (s : State) : Host.Outcome State Fault Refusal :=
  s.run fun h => h.busWrite (LOCK pgWGT) a fun h =>
    let h := h.lockWrite pgWGT (setBit v.toNat 2 false)
    if fld v.toNat 2 2 = 1 then h.lockAll else h

/-- WORLD_WRITE (R562, Table 00.8): Secure transactions only; the WGT page stays Secure. -/
def execWorldWrite (page : Fin 1024) (v : Word) (a : Attr) (s : State) : Host.Outcome State Fault Refusal :=
  s.run fun h =>
    let k := WORLD page
    if !a.secure && (pageRow page).isSome && h.live page && !h.jtagShut a then h.refuse k 0x0002 a
    else h.access k a fun h =>
      if h.bit (LOCK page) 0 then h.refuse k 0x0003 a
      else if page.val = pgWGT then h
      else h.put k 0 0 (fld v.toNat 0 0)

/-- A request is covered by a secure-hold mark (R572). -/
def Hw.marked (h : Hw) (r : PwrReq) : Bool :=
  if r.on then false
  else if r.clk then
    h.bit (WGT_HOLD_PAGE (r.target / 32)) (r.target % 32) || h.bit WGT_HOLD_PD (domainOf r.target)
  else
    h.bit WGT_HOLD_PD r.target ||
      allPages.any (fun p => domainOf p == r.target && h.bit (WGT_HOLD_PAGE (p / 32)) (p % 32))

/-- The pending bit of a held request. -/
def Hw.putPend (h : Hw) (r : PwrReq) (x : Bool) : Hw :=
  if r.clk then h.putBit (WGT_PEND_PAGE (r.target / 32)) (r.target % 32) x else h.putBit WGT_PEND_PD r.target x

/-- A held request for a target, if any. -/
def Hw.heldFor (h : Hw) (clk : Bool) (target : Nat) : Option PwrReq :=
  h.held.find? (fun r => r.clk == clk && r.target == target)

/-- Take a held request off the list, with its pending bit. -/
def Hw.dropHeld (h : Hw) (r : PwrReq) : Hw :=
  { h with held := h.held.filter (fun x => !(x.clk == r.clk && x.target == r.target)) }.putPend r false

/-- `PWR_LAST` shows the outcome of a request (R703). -/
def Hw.pwrLast (h : Hw) (r : PwrReq) (result : Nat) : Hw :=
  h.wr PWR_LAST ((if r.clk then 2 else 1) * 2 ^ 30 + result * 2 ^ 24 + (if r.secure then 2 ^ 20 else 0) + r.target)

/-- The WGT refuses a held request (R573, R575): pending bit cleared, log entry written, HOLD_REFUSED raised. Cause 1
timeout, 2 denied. -/
def Hw.refuseHeld (h : Hw) (r : PwrReq) (cause tick : Nat) : Hw :=
  let h := h.dropHeld r
  let e := h.rd WGT_LOG_WR % 16
  let h := h.wr (WGT_LOG e 0)
    ((if r.clk then 2 else 1) * 2 ^ 30 + cause * 2 ^ 28 + r.mid * 2 ^ 20 + r.vmid * 2 ^ 10 + r.target)
  let h := (h.wr (WGT_LOG e 1) tick).incF WGT_LOG_WR 15 0
  ((h.pwrLast r 2).raise pgWGT 3).raise pgPWR 1

/-- A gate refusal of a memory access (R558, R571): counted, captured on the WGT page, GATE_REFUSED raised. -/
def Hw.gateRefused (h : Hw) (addr : Nat) (a : Attr) : Hw :=
  ((h.sat WGT_REFUSE_CNT).capture pgWGT 0x0002 addr a).raise pgWGT 0

end Sys2Proof.Machine
end

