-- ==== Sys2Proof/Machine/Memory.lean ====
section
/-! DEFINITION. The memories on the bus: where they lie (Table 13.1, R279, R467), the region gates (R556, R558), and a read
and a write of a memory by a master (R496 to R499, R506). -/

namespace Sys2Proof.Machine

/-- The ranges that the regions of R558 cover. -/
inductive Space where
  | t0 | t1 | flash | prog | pool | granary | span
deriving DecidableEq, Repr

/-- The range that an address lies in, and its offset there. -/
def spaceOf (a : Nat) : Option (Space × Nat) :=
  if 0x1000_0000 ≤ a ∧ a < 0x1200_0000 then some (.t0, a - 0x1000_0000)
  else if 0x08_0000_0000 ≤ a ∧ a < 0x0C_0000_0000 then some (.t1, a - 0x08_0000_0000)
  else if 0x4000_0000 ≤ a ∧ a < 0x5000_0000 then some (.flash, a - 0x4000_0000)
  else if 0x3000_0000 ≤ a ∧ a < 0x3100_0000 then some (.granary, a - 0x3000_0000)
  else if 0x01_0000_0000 ≤ a ∧ a < 0x02_0000_0000 then some (.span, a - 0x01_0000_0000)
  else if Config.progBase ≤ a ∧ a < Config.progBase + 0x80_0000 then some (.prog, a - Config.progBase)
  else if Config.poolBase ≤ a ∧ a < Config.poolBase + 0x100_0000 then some (.pool, a - Config.poolBase)
  else none

/-- The master group of a master ID (Table 15.1). -/
def groupOf (mid : Nat) : Option Nat :=
  if mid ≤ 2 then some 0
  else if 0x08 ≤ mid ∧ mid ≤ 0x13 then some 1
  else if mid = 0x18 ∨ mid = 0x19 then some 2
  else if mid = 0x20 then some 3
  else if 0x28 ≤ mid ∧ mid ≤ 0x37 then some 4
  else if 0x80 ≤ mid then some 5
  else if mid = 0x58 then some 7
  else if 0x40 ≤ mid ∧ mid ≤ 0x55 then some 6
  else none

/-- An enabled region covers an address. -/
def Hw.regionHas (h : Hw) (r a : Nat) : Bool :=
  h.bit (WGT_REG r 0) 31 && decide (0x1_0000 * h.get (WGT_REG r 1) 23 0 ≤ a) &&
    decide (a < (h.get (WGT_REG r 1) 23 0 + h.get (WGT_REG r 2) 18 0) * 0x1_0000)

/-- The judgement of R558. -/
def Hw.regionOk (h : Hw) (addr : Nat) (write : Bool) (a : Attr) : Bool :=
  match (List.range 64).find? (fun r => h.regionHas r addr) with
  | none => a.secure
  | some r =>
    let w := WGT_REG r 0
    h.bit w (if write then 28 else 29) &&
      (match groupOf a.mid.toNat with | some g => h.bit w (8 + g) | none => false) &&
      (a.secure ||
        (!h.bit w 30 && (!h.bit w 27 || a.vmid == 0 || decide (h.get (WGT_REG r 3) 9 0 = a.vmid.toNat))))

/-- A T0 unit is a placement frame (R498); one released by a smaller pool stays one until it is empty (R503). -/
def Hw.isFrame (h : Hw) (u : Nat) : Bool :=
  decide (512 - h.get RVE_T0_POOL 9 0 ≤ u) || h.mem.frames.any (fun f => f.1 == u)

/-- The frame that holds a T1 unit. -/
def Hw.frameOf (h : Hw) (u : Nat) : Option Nat := (h.mem.frames.find? (fun f => f.2 == u)).map (·.1)

/-- A byte of T1, from the frame of a promoted unit (R499). -/
def Hw.t1Byte (h : Hw) (o : Nat) : Byte :=
  match h.frameOf (o / 0x1_0000) with
  | some f => h.mem.t0.get (f * 0x1_0000 + o % 0x1_0000)
  | none => h.mem.t1.get o

/-- Store a byte of T1. -/
def Hw.setT1 (h : Hw) (o : Nat) (b : Byte) : Hw :=
  match h.frameOf (o / 0x1_0000) with
  | some f => { h with mem := { h.mem with t0 := h.mem.t0.set (f * 0x1_0000 + o % 0x1_0000) b } }
  | none => { h with mem := { h.mem with t1 := h.mem.t1.set o b } }

/-- A byte of the flash device. -/
def Hw.flashByte (h : Hw) (o : Nat) : Byte := lookup erasedByte h.mem.flash o

/-- A byte of a memory range. -/
def Hw.spaceByte (h : Hw) (sp : Space) (o : Nat) : Byte :=
  match sp with
  | .t0 => h.mem.t0.get o
  | .t1 => h.t1Byte o
  | .flash => h.flashByte (h.get MEMC_FLASH_BANK 1 0 * 0x1000_0000 + o)
  | .prog => h.cea.prog.get o
  | .pool => h.poolByte o
  | .granary => h.mem.cells.get o
  | .span => 0

/-- A range has its power (Table 20.6). -/
def Hw.spaceOn (h : Hw) (sp : Space) : Bool :=
  match sp with
  | .t1 => h.pdOn 18
  | .prog => h.pdOn 9
  | .pool => h.pdOn 9
  | .granary => h.pdOn 11
  | .span => h.pdOn 20
  | _ => true

/-- An access of at most one line passes the gate and the target's own refusals: regions (R558), placement frames (R498),
writes to the flash window (R496) and to the Granary window (R279). A refusal is captured. -/
def Hw.memGate (h : Hw) (addr : Nat) (write : Bool) (a : Attr) : Option (Space × Nat) × Hw :=
  match spaceOf addr with
  | none => (none, h)
  | some (sp, o) =>
    if !h.regionOk addr write a then (none, h.gateRefused addr a)
    else if !h.spaceOn sp then (none, h)
    else
      match sp with
      | .t0 => if h.isFrame (o / 0x1_0000) then (none, h.capture pgMEMC 0x0100 addr a) else (some (sp, o), h)
      | .flash => if write then (none, h.capture pgMEMC 0x0101 addr a) else (some (sp, o), h)
      | .granary => if write then (none, h.capture pgGRN 0x0101 addr a) else (some (sp, o), h)
      | .span => (none, h)
      | _ => (some (sp, o), h)

/-- The pieces of an access, one for each 64-byte line (R506): address and length. -/
def lines : Nat → Nat → Nat → List (Nat × Nat)
  | 0, _, _ => []
  | fuel + 1, a, n =>
    if n = 0 then []
    else
      let k := min n (64 - a % 64)
      (a, k) :: lines fuel (a + k) (n - k)

/-- The lines of an access. -/
def linesOf (a n : Nat) : List (Nat × Nat) := lines (n / 64 + 2) a n

/-- The lines of a read in turn, after the bytes `bs`. -/
def Hw.readLines (a : Attr) : List (Nat × Nat) → List Byte → Hw → Option (List Byte) × Hw
  | [], bs, h => (some bs, h)
  | l :: t, bs, h =>
    match h.memGate l.1 false a with
    | (none, h) => (none, h)
    | (some (sp, o), h) => Hw.readLines a t (bs ++ (List.range l.2).map (fun i => h.spaceByte sp (o + i))) h

/-- A read of memory by a master: none where some line is refused. -/
def Hw.memRead (h : Hw) (addr n : Nat) (a : Attr) : Option (List Byte) × Hw := Hw.readLines a (linesOf addr n) [] h

/-- Bytes stored in a memory range. -/
def Hw.spaceWrite (h : Hw) (sp : Space) (o : Nat) (bs : List Byte) : Hw :=
  match sp with
  | .t0 => { h with mem := { h.mem with t0 := h.mem.t0.write o bs } }
  | .t1 => (bs.foldl (fun (s : Nat × Hw) b => (s.1 + 1, s.2.setT1 s.1 b)) (o, h)).2
  | .prog => { h with cea := { h.cea with prog := h.cea.prog.write o bs } }
  | .pool => h.poolWrite o bs
  | _ => h

/-- The lines of a write in turn. -/
def Hw.writeLines (a : Attr) : List (Nat × Nat) → List Byte → Hw → Bool × Hw
  | [], _, h => (true, h)
  | l :: t, bs, h =>
    match h.memGate l.1 true a with
    | (none, h) => (false, h)
    | (some (sp, o), h) => Hw.writeLines a t (bs.drop l.2) (h.spaceWrite sp o (slice bs 0 l.2))

/-- A write of memory by a master: false where some line is refused; the lines before it are written. -/
def Hw.memWrite (h : Hw) (addr : Nat) (bs : List Byte) (a : Attr) : Bool × Hw := Hw.writeLines a (linesOf addr bs.length) bs h

/-- A little-endian word of memory read by a master. -/
def Hw.memWord (h : Hw) (addr n : Nat) (a : Attr) : Option Nat × Hw :=
  match h.memRead addr n a with
  | (none, h) => (none, h)
  | (some bs, h) => (some (leNat bs), h)

end Sys2Proof.Machine
end

