-- ==== Sys2Proof/Machine/Flash.lean ====
section
/-! DEFINITION. The flash device under its programmer (R671, R672, Table 19.7): what an erase, a program and a read leave. -/

namespace Sys2Proof.Machine

/-- Bytes of the flash device (`BOOT_CAPS` gives its size in MiB). -/
def Hw.flashBytes (h : Hw) : Nat := h.get (CAPS pgBOOT) 15 0 * 0x10_0000

/-- A range of the device is erased. -/
def Hw.flashErase (h : Hw) (o n : Nat) : Hw :=
  { h with mem := { h.mem with flash := h.mem.flash.filter (fun e => decide (e.1 < o) || decide (o + n ≤ e.1)) } }

/-- A byte is programmed: over an erased byte it takes its value; what programming leaves of another byte the spec does not
say, and is free. -/
def Hw.flashPut (h : Hw) (o : Nat) (b : Byte) : Hw :=
  let put := fun (h : Hw) x => { h with mem := { h.mem with flash := store erasedByte h.mem.flash o x } }
  let old := h.flashByte o
  if old = 0xFF ∨ old = b then put h b
  else
    let (x, h) := h.freeByte
    put h x

/-- Bytes are programmed. -/
def Hw.flashProgram (h : Hw) (o : Nat) (bs : List Byte) : Hw :=
  (bs.foldl (fun (s : Nat × Hw) b => (s.1 + 1, s.2.flashPut s.1 b)) (o, h)).2

/-- Bytes of the device. -/
def Hw.flashRead (h : Hw) (o n : Nat) : List Byte := (List.range n).map (fun i => h.flashByte (o + i))

/-- Bytes up to a whole number of erase blocks of 64 KiB. -/
def eraseSpan (n : Nat) : Nat := (n + 0xFFFF) / 0x1_0000 * 0x1_0000

/-- New contents for a range: its blocks are erased and then programmed. -/
def Hw.flashReplace (h : Hw) (o : Nat) (bs : List Byte) : Hw := (h.flashErase o (eraseSpan bs.length)).flashProgram o bs

end Sys2Proof.Machine
end

