-- ==== Sys2Proof/Machine/Aes.lean ====
section
/-! DEFINITION. AES and the modes the module uses: ECB, CBC, CTR, GCM, CMAC and key wrap. The spec names these
standards and does not print them (assumption log, entry 20): FIPS 197, NIST SP 800-38A, 38B, 38D and 38F. -/

namespace Sys2Proof.Machine

/-- The AES substitution table, entry 0 in the highest byte. -/
def aesTab : Nat :=
  0x637c777bf26b6fc53001672bfed7ab76ca82c97dfa5947f0add4a2af9ca472c0b7fd9326363ff7cc34a5e5f171d8311504c723c31896059a071280e2eb27b27509832c1a1b6e5aa0523bd6b329e32f8453d100ed20fcb15b6acbbe394a4c58cfd0efaafb434d338545f9027f503c9fa851a3408f929d38f5bcb6da2110fff3d2cd0c13ec5f974417c4a77e3d645d197360814fdc222a908846eeb814de5e0bdbe0323a0a4906245cc2d3ac629195e479e7c8376d8dd54ea96c56f4ea657aae08ba78252e1ca6b4c6e8dd741f4bbd8b8a703eb5664803f60e613557b986c11d9ee1f8981169d98e949b1e87e9ce5528df8ca1890dbfe6426841992d0fb054bb16

/-- The inverse substitution table. -/
def aesInvTab : Nat :=
  0x52096ad53036a538bf40a39e81f3d7fb7ce339829b2fff87348e4344c4dee9cb547b9432a6c2233dee4c950b42fac34e082ea16628d924b2765ba2496d8bd12572f8f66486689816d4a45ccc5d65b6926c704850fdedb9da5e154657a78d9d8490d8ab008cbcd30af7e45805b8b34506d02c1e8fca3f0f02c1afbd0301138a6b3a9111414f67dcea97f2cfcef0b4e67396ac7422e7ad3585e2f937e81c75df6e47f11a711d29c5896fb7620eaa18be1bfc563e4bc6d279209adbc0fe78cd5af41fdda8338807c731b11210592780ec5f60517fa919b54a0d2de57a9f93c99cefa0e03b4dae2af5b0c8ebbb3c83539961172b047eba77d626e169146355210c7d

/-- An entry of a table of 256 bytes. -/
def tabByte (t : Nat) (x : Byte) : Byte := BitVec.ofNat 8 (t >>> (8 * (255 - x.toNat)))

/-- Substitution. -/
def aesSub (x : Byte) : Byte := tabByte aesTab x

/-- Inverse substitution. -/
def aesInvSub (x : Byte) : Byte := tabByte aesInvTab x

/-- Multiplication by x in GF(2^8). -/
def xtime (b : Byte) : Byte := if b.toNat < 128 then b <<< 1 else (b <<< 1) ^^^ 0x1B#8

/-- Multiplication in GF(2^8) by a small constant, `n` bits of it. -/
def gfMul : Nat → Nat → Byte → Byte
  | 0, _, _ => 0
  | n + 1, k, b => (if k % 2 = 1 then b else 0) ^^^ gfMul n (k / 2) (xtime b)

/-- XOR of two byte lists, as long as the shorter one. -/
def xorBytes (a b : List Byte) : List Byte := (a.zip b).map (fun p => p.1 ^^^ p.2)

/-- The round constant of a key schedule step. -/
def aesRcon : Nat → Byte
  | 0 => 1
  | n + 1 => xtime (aesRcon n)

/-- The key schedule, newest word first: `n` more words, the next one having index `i`. -/
def aesExpand (nk : Nat) : Nat → Nat → List (List Byte) → List (List Byte)
  | 0, _, ws => ws
  | n + 1, i, ws =>
    let prev := ws.headD []
    let t :=
      if i % nk = 0 then
        xorBytes ((prev.drop 1 ++ prev.take 1).map aesSub) [aesRcon (i / nk - 1), 0, 0, 0]
      else if nk = 8 ∧ i % nk = 4 then prev.map aesSub
      else prev
    aesExpand nk n (i + 1) (xorBytes (ws.getD (nk - 1) []) t :: ws)

/-- A byte list cut into pieces of `k` bytes, at most `n` of them. -/
def chunks (k : Nat) : Nat → List Byte → List (List Byte)
  | 0, _ => []
  | n + 1, l => if l.isEmpty then [] else l.take k :: chunks k n (l.drop k)

/-- The round keys of a key of 16 or 32 bytes. -/
def aesKeys (key : List Byte) : List (List Byte) :=
  let nk := key.length / 4
  let ws := (aesExpand nk (4 * (nk + 7) - nk) nk ((chunks 4 nk key).reverse)).reverse
  chunks 16 (nk + 7) ws.flatten

/-- The state with its rows shifted by `f`. -/
def aesShift (f : Nat → Nat → Nat) (s : List Byte) : List Byte :=
  (List.range 16).map (fun i => s.getD (i % 4 + 4 * f (i / 4) (i % 4)) 0)

/-- One column mixed with the coefficients `m`. -/
def aesMixCol (m : List Nat) (c : List Byte) : List Byte :=
  (List.range 4).map (fun r =>
    (List.range 4).foldl (fun x i => x ^^^ gfMul 4 (m.getD ((i + 4 - r) % 4) 0) (c.getD i 0)) 0)

/-- All columns mixed. -/
def aesMix (m : List Nat) (s : List Byte) : List Byte := (chunks 4 4 s).flatMap (aesMixCol m)

/-- The rounds after the first key addition. -/
def aesRounds : List (List Byte) → List Byte → List Byte
  | [], s => s
  | [k], s => xorBytes (aesShift (fun c r => (c + r) % 4) (s.map aesSub)) k
  | k :: ks, s => aesRounds ks (xorBytes (aesMix [2, 3, 1, 1] (aesShift (fun c r => (c + r) % 4) (s.map aesSub))) k)

/-- Encrypt one block. -/
def aesEnc (key blk : List Byte) : List Byte :=
  let ks := aesKeys key
  aesRounds ks.tail (xorBytes blk (ks.headD []))

/-- The rounds of decryption, keys in reverse order. -/
def aesInvRounds : List (List Byte) → List Byte → List Byte
  | [], s => s
  | [k], s => xorBytes ((aesShift (fun c r => (c + 4 - r) % 4) s).map aesInvSub) k
  | k :: ks, s =>
    aesInvRounds ks (aesMix [14, 11, 13, 9] (xorBytes ((aesShift (fun c r => (c + 4 - r) % 4) s).map aesInvSub) k))

/-- Decrypt one block. -/
def aesDec (key blk : List Byte) : List Byte :=
  let ks := (aesKeys key).reverse
  aesInvRounds ks.tail (xorBytes blk (ks.headD []))

/-- The blocks of 16 bytes of a message. -/
def blocks16 (l : List Byte) : List (List Byte) := chunks 16 (l.length / 16 + 1) l

/-- ECB. -/
def aesEcb (enc : Bool) (key l : List Byte) : List Byte :=
  (blocks16 l).flatMap (if enc then aesEnc key else aesDec key)

/-- CBC encryption. -/
def aesCbcEnc (key : List Byte) : List Byte → List (List Byte) → List Byte
  | _, [] => []
  | iv, b :: t => let c := aesEnc key (xorBytes b iv); c ++ aesCbcEnc key c t

/-- CBC decryption. -/
def aesCbcDec (key : List Byte) : List Byte → List (List Byte) → List Byte
  | _, [] => []
  | iv, b :: t => xorBytes (aesDec key b) iv ++ aesCbcDec key b t

/-- A counter block incremented in its last `n` bytes. -/
def incBlock (n : Nat) (b : List Byte) : List Byte :=
  b.take (16 - n) ++ beBytes n ((beNat (b.drop (16 - n)) + 1) % 256 ^ n)

/-- Counter mode over blocks, with a counter of `n` bytes. -/
def aesCtrFrom (n : Nat) (key : List Byte) : List Byte → List (List Byte) → List Byte
  | _, [] => []
  | ctr, b :: t => xorBytes b (aesEnc key ctr) ++ aesCtrFrom n key (incBlock n ctr) t

/-- CTR mode: the whole block counts. -/
def aesCtr (key ctr l : List Byte) : List Byte := aesCtrFrom 16 key ctr (blocks16 l)

/-- One step of the product in GF(2^128) of GHASH: `x` is read from its most significant bit. -/
def ghashMul (x : Nat) : Nat → Nat → Nat → Nat
  | 0, _, z => z
  | n + 1, v, z =>
    let z := if fld x n n = 1 then z ^^^ v else z
    ghashMul x n (if v % 2 = 1 then (v / 2) ^^^ (0xE1 * 2 ^ 120) else v / 2) z

/-- A message padded with zeros to whole blocks. -/
def padBlock (l : List Byte) : List Byte := l ++ List.replicate ((16 - l.length % 16) % 16) 0

/-- GHASH under the hash subkey. -/
def ghash (hk : Nat) (l : List Byte) : Nat :=
  (blocks16 l).foldl (fun y b => ghashMul (y ^^^ beNat b) 128 hk 0) 0

/-- The GCM tag of additional data and ciphertext, with a 96-bit IV. -/
def gcmTag (key iv aad ct : List Byte) : List Byte :=
  let hk := beNat (aesEnc key (List.replicate 16 0))
  let s := ghash hk (padBlock aad ++ padBlock ct ++ beBytes 8 (8 * aad.length) ++ beBytes 8 (8 * ct.length))
  xorBytes (beBytes 16 s) (aesEnc key (iv ++ [0, 0, 0, 1]))

/-- GCM encryption and decryption of the data (the tag apart). -/
def gcmCrypt (key iv l : List Byte) : List Byte := aesCtrFrom 4 key (iv ++ [0, 0, 0, 2]) (blocks16 l)

/-- Doubling in GF(2^128) for the CMAC subkeys. -/
def cmacDbl (x : Nat) : Nat := if fld x 127 127 = 1 then (2 * x % 2 ^ 128) ^^^ 0x87 else 2 * x

/-- CMAC: the chain over the blocks, the last one masked with a subkey. -/
def cmacChain (key : List Byte) (k1 k2 : List Byte) : List Byte → List (List Byte) → List Byte
  | y, [] => aesEnc key (xorBytes y (xorBytes (0x80#8 :: List.replicate 15 0) k2))
  | y, [b] =>
    if b.length = 16 then aesEnc key (xorBytes y (xorBytes b k1))
    else aesEnc key (xorBytes y (xorBytes (slice (b ++ [0x80#8]) 0 16) k2))
  | y, b :: t => cmacChain key k1 k2 (aesEnc key (xorBytes y b)) t

/-- AES-CMAC, 16 bytes. -/
def cmac (key l : List Byte) : List Byte :=
  let z : List Byte := List.replicate 16 0
  let k1 := cmacDbl (beNat (aesEnc key z))
  cmacChain key (beBytes 16 k1) (beBytes 16 (cmacDbl k1)) z (blocks16 l)

/-- The steps of key wrap, of which step `t` is next: `a` is the check value, `r` the blocks of 8 bytes. -/
def kwSteps (key : List Byte) (n : Nat) : Nat → Nat → List Byte → List (List Byte) → List Byte × List (List Byte)
  | 0, _, a, r => (a, r)
  | k + 1, t, a, r =>
    let i := (t - 1) % n
    let b := aesEnc key (a ++ r.getD i [])
    kwSteps key n k (t + 1) (xorBytes (b.take 8) (beBytes 8 t)) (setAt r i (b.drop 8))

/-- The steps of key unwrap, of which step `t` is next. -/
def kwUnsteps (key : List Byte) (n : Nat) : Nat → List Byte → List (List Byte) → List Byte × List (List Byte)
  | 0, a, r => (a, r)
  | t + 1, a, r =>
    let i := t % n
    let b := aesDec key (xorBytes a (beBytes 8 (t + 1)) ++ r.getD i [])
    kwUnsteps key n t (b.take 8) (setAt r i (b.drop 8))

/-- AES key wrap (KW) of a key. -/
def keyWrap (kek l : List Byte) : List Byte :=
  let n := l.length / 8
  let (a, r) := kwSteps kek n (6 * n) 1 (List.replicate 8 0xA6) (chunks 8 n l)
  a ++ r.flatten

/-- AES key unwrap (KW): none when the check value is wrong. -/
def keyUnwrap (kek l : List Byte) : Option (List Byte) :=
  let n := l.length / 8 - 1
  if n < 2 ∨ l.length % 8 ≠ 0 then none
  else
    let (a, r) := kwUnsteps kek n (6 * n) (l.take 8) (chunks 8 n (l.drop 8))
    if a = List.replicate 8 0xA6 then some r.flatten else none

end Sys2Proof.Machine
end

