-- ==== Sys2Proof/Machine/Sha2.lean ====
section
/-! DEFINITION. SHA-256, SHA-384, SHA-512 and HMAC. The spec names these standards and does not print them (assumption
log, entry 20): FIPS 180-4 and FIPS 198-1. -/

namespace Sys2Proof.Machine

/-- The 80 round constants of SHA-512, constant 0 in the highest 64 bits; SHA-256 uses the high halves of the first 64. -/
def shaTab : Nat :=
  0x428a2f98d728ae227137449123ef65cdb5c0fbcfec4d3b2fe9b5dba58189dbbc3956c25bf348b53859f111f1b605d019923f82a4af194f9bab1c5ed5da6d8118d807aa98a303024212835b0145706fbe243185be4ee4b28c550c7dc3d5ffb4e272be5d74f27b896f80deb1fe3b1696b19bdc06a725c71235c19bf174cf692694e49b69c19ef14ad2efbe4786384f25e30fc19dc68b8cd5b5240ca1cc77ac9c652de92c6f592b02754a7484aa6ea6e4835cb0a9dcbd41fbd476f988da831153b5983e5152ee66dfaba831c66d2db43210b00327c898fb213fbf597fc7beef0ee4c6e00bf33da88fc2d5a79147930aa72506ca6351e003826f142929670a0e6e7027b70a8546d22ffc2e1b21385c26c9264d2c6dfc5ac42aed53380d139d95b3df650a73548baf63de766a0abb3c77b2a881c2c92e47edaee692722c851482353ba2bfe8a14cf10364a81a664bbc423001c24b8b70d0f89791c76c51a30654be30d192e819d6ef5218d69906245565a910f40e35855771202a106aa07032bbd1b819a4c116b8d2d0c81e376c085141ab532748774cdf8eeb9934b0bcb5e19b48a8391c0cb3c5c95a634ed8aa4ae3418acb5b9cca4f7763e373682e6ff3d6b2b8a3748f82ee5defb2fc78a5636f43172f6084c87814a1f0ab728cc702081a6439ec90befffa23631e28a4506cebde82bde9bef9a3f7b2c67915c67178f2e372532bca273eceea26619cd186b8c721c0c207eada7dd6cde0eb1ef57d4f7fee6ed17806f067aa72176fba0a637dc5a2c898a6113f9804bef90dae1b710b35131c471b28db77f523047d8432caab7b40c724933c9ebe0a15c9bebc431d67c49c100d4c4cc5d4becb3e42b6597f299cfc657e2a5fcb6fab3ad6faec6c44198c4a475817

/-- What tells SHA-256 from SHA-512: the word size, the rounds, and the rotation and shift counts of the four functions. -/
structure ShaKind where
  w : Nat
  rounds : Nat
  big0 : Nat × Nat × Nat
  big1 : Nat × Nat × Nat
  small0 : Nat × Nat × Nat
  small1 : Nat × Nat × Nat
deriving DecidableEq, Repr

/-- SHA-256. -/
def sha256Kind : ShaKind := ⟨32, 64, (2, 13, 22), (6, 11, 25), (7, 18, 3), (17, 19, 10)⟩

/-- SHA-384 and SHA-512. -/
def sha512Kind : ShaKind := ⟨64, 80, (28, 34, 39), (14, 18, 41), (1, 8, 7), (19, 61, 6)⟩

/-- Rotation to the right of a word of `w` bits. -/
def rotR (w x n : Nat) : Nat := (x >>> n) ||| ((x <<< (w - n)) % 2 ^ w)

/-- The functions that rotate three times. -/
def shaBig (w : Nat) (r : Nat × Nat × Nat) (x : Nat) : Nat := rotR w x r.1 ^^^ rotR w x r.2.1 ^^^ rotR w x r.2.2

/-- The functions that rotate twice and shift. -/
def shaSmall (w : Nat) (r : Nat × Nat × Nat) (x : Nat) : Nat := rotR w x r.1 ^^^ rotR w x r.2.1 ^^^ (x >>> r.2.2)

/-- A round constant. -/
def shaK (k : ShaKind) (i : Nat) : Nat := (shaTab >>> (64 * (79 - i))) % 2 ^ 64 / 2 ^ (64 - k.w)

/-- The message schedule, newest word first, `n` words to come. -/
def shaExpand (k : ShaKind) : Nat → List Nat → List Nat
  | 0, ws => ws
  | n + 1, ws =>
    let x := shaSmall k.w k.small1 (ws.getD 1 0) + ws.getD 6 0 + shaSmall k.w k.small0 (ws.getD 14 0) + ws.getD 15 0
    shaExpand k n (x % 2 ^ k.w :: ws)

/-- One round on the eight working words. -/
def shaRound (k : ShaKind) (s : List Nat) (kw : Nat) : List Nat :=
  match s with
  | [a, b, c, d, e, f, g, h] =>
    let m := 2 ^ k.w
    let ch := (e &&& f) ^^^ ((m - 1 - e) &&& g)
    let t1 := h + shaBig k.w k.big1 e + ch + kw
    let t2 := shaBig k.w k.big0 a + ((a &&& b) ^^^ (a &&& c) ^^^ (b &&& c))
    [(t1 + t2) % m, a, b, c, (d + t1) % m, e, f, g]
  | _ => s

/-- The compression of one block. -/
def shaBlock (k : ShaKind) (h : List Nat) (blk : List Byte) : List Nat :=
  let w0 := (List.range 16).map (fun i => beNat (slice blk (i * (k.w / 8)) (k.w / 8)))
  let ws := (shaExpand k (k.rounds - 16) w0.reverse).reverse
  let r := (ws.zip (List.range k.rounds)).foldl (fun s p => shaRound k s (p.1 + shaK k p.2)) h
  (h.zip r).map (fun p => (p.1 + p.2) % 2 ^ k.w)

/-- The blocks of a padded message, at most `n`. -/
def shaBlocks (sz : Nat) : Nat → List Byte → List (List Byte)
  | 0, _ => []
  | n + 1, l => if l.isEmpty then [] else l.take sz :: shaBlocks sz n (l.drop sz)

/-- The hash with the initial value `init`, as words. -/
def shaRun (k : ShaKind) (init : List Nat) (l : List Byte) : List Nat :=
  let sz := 2 * k.w
  let lenB := k.w / 4
  let zeros := (sz - (l.length + 1 + lenB) % sz) % sz
  let p := l ++ [0x80#8] ++ List.replicate zeros 0 ++ beBytes lenB (8 * l.length)
  (shaBlocks sz (p.length / sz) p).foldl (shaBlock k) init

/-- SHA-256. -/
def sha256 (l : List Byte) : List Byte :=
  (shaRun sha256Kind [0x6a09e667, 0xbb67ae85, 0x3c6ef372, 0xa54ff53a,
    0x510e527f, 0x9b05688c, 0x1f83d9ab, 0x5be0cd19] l).flatMap (beBytes 4)

/-- SHA-512. -/
def sha512 (l : List Byte) : List Byte :=
  (shaRun sha512Kind [0x6a09e667f3bcc908, 0xbb67ae8584caa73b, 0x3c6ef372fe94f82b, 0xa54ff53a5f1d36f1,
    0x510e527fade682d1, 0x9b05688c2b3e6c1f, 0x1f83d9abfb41bd6b, 0x5be0cd19137e2179] l).flatMap (beBytes 8)

/-- SHA-384. -/
def sha384 (l : List Byte) : List Byte :=
  ((shaRun sha512Kind [0xcbbb9d5dc1059ed8, 0x629a292a367cd507, 0x9159015a3070dd17, 0x152fecd8f70e5939,
    0x67332667ffc00b31, 0x8eb44a8768581511, 0xdb0c2e0d64f98fa7, 0x47b5481dbefa4fa4] l).flatMap (beBytes 8)).take 48

/-- HMAC over a hash with blocks of `b` bytes. -/
def hmac (hash : List Byte → List Byte) (b : Nat) (key l : List Byte) : List Byte :=
  let k := slice (if b < key.length then hash key else key) 0 b
  hash (k.map (· ^^^ 0x5C) ++ hash (k.map (· ^^^ 0x36) ++ l))

/-- HMAC-SHA-256. -/
def hmac256 (key l : List Byte) : List Byte := hmac sha256 64 key l

end Sys2Proof.Machine
end

