-- ==== Sys2Proof/Machine/KeyStore.lean ====
section
/-! DEFINITION. The key slots (R578 to R583): attributes, the permission to use a key, the derivation tree. -/

namespace Sys2Proof.Machine

/-- Key type of a slot (Table 16.1). -/
def Hw.keyType (h : Hw) (s : Nat) : Nat := h.get (KEY_ATTR_W0 s) 26 24

/-- The slot holds a key. -/
def Hw.keyValid (h : Hw) (s : Nat) : Bool := h.bit (KEY_ATTR_W0 s) 31

/-- The key may not be used. -/
def Hw.keyRevoked (h : Hw) (s : Nat) : Bool := h.bit (KEY_ATTR_W0 s) 30

/-- The odd slot of a P-384 key (R580). -/
def Hw.oddOfPair (h : Hw) (s : Nat) : Bool :=
  decide (s % 2 = 1) && h.keyValid (s - 1) && decide (h.keyType (s - 1) = 4)

/-- The key in a slot; none where the slot is empty. -/
def Hw.keyBytes (h : Hw) (s : Nat) : List Byte := (find? h.key.keys s).getD []

/-- The use of slot `s` is permitted (R581): usage bit, master group, world and life-cycle state. -/
def Hw.keyUse (h : Hw) (s usage : Nat) (group : Option Nat) (secure : Bool) : Bool :=
  let k := KEY_ATTR_W0 s
  h.keyValid s && !h.keyRevoked s && h.bit k usage && !h.oddOfPair s &&
    (match group with | some g => h.bit k (16 + g) | none => false) &&
    h.bit k (if secure then 15 else 14) && decide (h.lcs ≤ 4) && h.bit k (9 + h.lcs)

/-- Slot `c` is a child of slot `p` (R582). -/
def Hw.childOf (h : Hw) (c p : Nat) : Bool :=
  h.bit (KEY_ATTR_W1 c) 4 && decide (h.get (KEY_ATTR_W1 c) 31 24 = p) &&
    decide (h.get (KEY_ATTR_W1 c) 15 8 = h.get (KEY_ATTR_W1 p) 23 16)

/-- The slots of the last generations found and their children, `n` depths more (a depth is at most 7, R588). -/
def Hw.familyOf (h : Hw) : Nat → List Nat → List Nat
  | 0, l => l
  | n + 1, l =>
    Hw.familyOf h n (l ++ (List.range 256).filter (fun c => !l.contains c && l.any (fun p => c != p && h.childOf c p)))

/-- A slot and its descendants. -/
def Hw.family (h : Hw) (s : Nat) : List Nat := h.familyOf 8 [s]

/-- The key type's length in bytes (R588, R589). -/
def keyLen (ty : Nat) : Nat := if ty = 0 then 16 else if ty = 4 then 48 else 32

end Sys2Proof.Machine
end

