-- ==== Sys2Proof/Machine/Can.lean ====
section
/-! DEFINITION. The CAN controllers (R363 to R396, R405 to R407): message objects, transmission, error confinement, frame
authentication, and the checks of their registers. The end of a received or sent frame stands in CanFrames. -/

namespace Sys2Proof.Machine

/-- Internal state of a controller. -/
def Hw.can (h : Hw) (n : Nat) : CanSt := (find? h.zone.cans n).getD {}

/-- Replace it. -/
def Hw.setCan (h : Hw) (n : Nat) (c : CanSt) : Hw := { h with zone := { h.zone with cans := file h.zone.cans n c } }

/-- Count in a counter of Table 09.10. -/
def Hw.canCount (h : Hw) (n k : Nat) : Hw := h.setCan n { h.can n with cnt := (h.can n).cnt.bump k 1 }

/-- Data bytes that a DLC gives (R368): classical up to 8, FD by the ISO table, XL the DLC plus 1. -/
def canLen (fmt dlc : Nat) : Nat :=
  if fmt = 2 then dlc % 2048 + 1
  else
    let d := dlc % 16
    if d ≤ 8 then d
    else if fmt = 0 then 8
    else [12, 16, 20, 24, 32, 48, 64].getD (d - 9) 64

/-- The DLC of a data length: the smallest that holds it. -/
def canDlc (fmt len : Nat) : Nat :=
  if fmt = 2 then len - 1
  else if len ≤ 8 then len
  else if fmt = 0 then 8
  else ((List.range 16).find? (fun d => decide (len ≤ canLen 1 d))).getD 15

/-- Size of a controller's data RAM (Table 09.1). -/
def canRamSize (n : Nat) : Nat := if n < 12 then 0x2000 else 0x8000

/-- Capacity limit of an object (Table 09.1). -/
def canCapLim (n : Nat) : Nat := if n < 12 then 64 else 2048

/-- Fields of an object. -/
def Hw.objValid (h : Hw) (n o : Nat) : Bool := h.bit (CAN_OBJ n o 0) 31
def Hw.objTx (h : Hw) (n o : Nat) : Bool := h.bit (CAN_OBJ n o 0) 30
def Hw.objFmt (h : Hw) (n o : Nat) : Nat := h.get (CAN_OBJ n o 1) 31 30
def Hw.objAuth (h : Hw) (n o : Nat) : Bool := h.bit (CAN_OBJ n o 1) 28
def Hw.objDlc (h : Hw) (n o : Nat) : Nat := h.get (CAN_OBJ n o 1) 10 0
def Hw.objOfs (h : Hw) (n o : Nat) : Nat := h.get (CAN_OBJ n o 5) 31 16
def Hw.objCap (h : Hw) (n o : Nat) : Nat := h.get (CAN_OBJ n o 5) 11 0
def Hw.objPending (h : Hw) (n o : Nat) : Bool := h.bit (CAN_OBJ n o 6) 31

/-- Bytes of the MAC and of the freshness value sent (Table 09.2). -/
def Hw.objMacLen (h : Hw) (n o : Nat) : Nat := 4 * 2 ^ h.get (CAN_OBJ n o 1) 27 26
def Hw.objFvLen (h : Hw) (n o : Nat) : Nat := 2 ^ h.get (CAN_OBJ n o 1) 25 24

/-- Freshness value of an object. -/
def Hw.objFv (h : Hw) (n o : Nat) : Nat := h.rdPair (CAN_OBJ n o 9) (CAN_OBJ n o 10)

/-- The object's key may be used (R395): CMAC, by the CAN group, whose transactions are Secure (R555). -/
def Hw.objKeyOk (h : Hw) (n o : Nat) : Bool := h.keyUse (h.get (CAN_OBJ n o 3) 31 24) 2 (some 4) true

/-- The data area of an object. -/
def Hw.objData (h : Hw) (n o : Nat) : List Byte := (h.can n).ram.read (h.objOfs n o) (h.objCap n o)

/-- Store bytes in the data area, with zeros up to `upto` bytes. -/
def Hw.setObjData (h : Hw) (n o : Nat) (bs : List Byte) (upto : Nat) : Hw :=
  let l := slice bs 0 (max bs.length (min upto (h.objCap n o)))
  h.setCan n { h.can n with ram := (h.can n).ram.write (h.objOfs n o) (l.take (h.objCap n o)) }

/-- Set or clear `PENDING`, with its bit in `CAN_PENDINGm`. -/
def Hw.setPending (h : Hw) (n o : Nat) (x : Bool) : Hw :=
  (h.putBit (CAN_OBJ n o 6) 31 x).putBit (CAN_PENDING n (o / 32)) (o % 32) x

/-- Set a status bit of an object. -/
def Hw.objFlag (h : Hw) (n o b : Nat) : Hw := h.putBit (CAN_OBJ n o 6) b true

/-- The object is no longer pending; what was noted for it lapses. -/
def Hw.unpend (h : Hw) (n o : Nat) : Hw :=
  let c := h.can n
  (h.setCan n { c with ready := c.ready.filter (· != o), aged := c.aged.filter (· != o) }).setPending n o false

/-- The key slot of an object is revoked (R396): a pending object that is not on the bus is dropped. -/
def Hw.objRevoked (h : Hw) (n o : Nat) : Hw :=
  let h := if h.bit (CAN_OBJ n o 6) 22 then h else h.unpend n o
  (h.objFlag n o 24).raise (pgCAN n) 7

/-- The MAC input of R392: word 0 with bits 31:30 at 0, the freshness value, the payload. -/
def Hw.objMac (h : Hw) (n o fv : Nat) (payload : List Byte) : List Byte :=
  (cmac (h.keyBytes (h.get (CAN_OBJ n o 3) 31 24))
    (beBytes 4 (h.get (CAN_OBJ n o 0) 29 0) ++ beBytes 8 fv ++ payload)).take (h.objMacLen n o)

/-- The freshness bytes and the MAC at the end of a frame's data: their length. -/
def Hw.objTrailer (h : Hw) (n o : Nat) : Nat := h.objMacLen n o + h.objFvLen n o

/-- The data of the frame that an object sends (R375, R380, R392). -/
def Hw.objFrameData (h : Hw) (n o : Nat) : List Byte :=
  let len := canLen (h.objFmt n o) (h.objDlc n o)
  if h.objAuth n o then
    let p := slice (h.objData n o) 0 (len - h.objTrailer n o)
    let fv := h.objFv n o
    p ++ (beBytes 8 fv).drop (8 - h.objFvLen n o) ++ h.objMac n o fv p
  else slice (h.objData n o) 0 len

/-- The frame that an object sends. -/
def Hw.objFrame (h : Hw) (n o : Nat) : CanFrame where
  ide := h.bit (CAN_OBJ n o 0) 29
  id := BitVec.ofNat 29 (h.get (CAN_OBJ n o 0) 28 0)
  fmt := if h.objFmt n o = 2 then 2 else if h.objFmt n o = 1 then 1 else 0
  brs := h.bit (CAN_OBJ n o 1) 29
  esi := decide (h.get (CAN_ERR n) 31 30 = 1)
  dlc := BitVec.ofNat 11 (h.objDlc n o)
  data := h.objFrameData n o
  sdt := BitVec.ofNat 8 (h.get (CAN_OBJ n o 3) 23 16)
  vcid := BitVec.ofNat 8 (h.get (CAN_OBJ n o 3) 15 8)
  sec := h.bit (CAN_OBJ n o 3) 0
  af := BitVec.ofNat 32 (h.rd (CAN_OBJ n o 4))

/-- A transmit object becomes pending (R378, R382, R392, R393, R396). One whose length is above its capacity does not send: it sets
`UPD_BAD` (R369; assumption log, entry 144). -/
def Hw.makePending (h : Hw) (n o : Nat) : Hw :=
  let len := canLen (h.objFmt n o) (h.objDlc n o)
  let start := fun (h : Hw) =>
    let c := h.can n
    (h.setCan n { c with ready := c.ready.filter (· != o), pendAt := file c.pendAt o h.now }).setPending n o true
  if h.objAuth n o then
    if !h.objKeyOk n o then h.objRevoked n o
    else if h.objCap n o < len ∨ len < h.objTrailer n o then h.objFlag n o 23
    else start (h.wrPair (CAN_OBJ n o 9) (CAN_OBJ n o 10) ((h.objFv n o + 1) % 2 ^ 64))
  else if h.objCap n o < len then h.objFlag n o 23
  else start h

/-- A trigger of a valid transmit object (R378). `cue` says that a CAN_TX cue gave it. -/
def Hw.canTrigger (h : Hw) (n o : Nat) (cue : Bool) : Hw :=
  if h.bit (CAN_OBJ n o 6) 22 then h.setCan n { h.can n with again := true }
  else if h.objPending n o then
    let h := h.objFlag n o 27
    if cue then h.canCount n 15 else h
  else h.makePending n o

/-- A commit update of a transmit object (R375, R393). -/
def Hw.canUpdate (h : Hw) (n o : Nat) (send : Bool) (dlc : Nat) (bs : List Byte) : Hw :=
  let len := canLen (h.objFmt n o) dlc
  if h.objCap n o < len then h.objFlag n o 23
  else
    let h := (h.put (CAN_OBJ n o 1) 10 0 dlc).setObjData n o bs len
    let c := h.can n
    let h := h.setCan n { c with ready := c.ready.filter (· != o) }
    if send then h.canTrigger n o false else h

/-- CAN_TX (R378): a cue that names a receive object or an invalid one is counted. -/
def canTxEff (arg _v _tc _idx : Nat) (h : Hw) : Hw :=
  let n := fld arg 11 8
  let o := fld arg 6 0
  if h.objValid n o && h.objTx n o then h.canTrigger n o true else h.canCount n 16

/-- CAN_TX cue. -/
def execCanTx (c : CueRef) (s : State) : Host.Outcome State Fault Refusal := s.run fun h => h.fireCue c 0x20 canTxEff

/-- CAN_TXREQ (R378). -/
def execCanTxreq (n : Fin 16) (v : Word) (a : Attr) (s : State) : Host.Outcome State Fault Refusal :=
  s.run fun h => h.busWrite (CAN_TXREQ n) a fun h =>
    let o := fld v.toNat 6 0
    if h.objValid n o && h.objTx n o then h.canTrigger n o false else h.refuse (CAN_TXREQ n) 0x0101 a

/-- MAC_READY (R393). -/
def execMacReady (n : Fin 16) (o : Fin 128) (s : State) : Host.Outcome State Fault Refusal :=
  s.run fun h =>
    let c := h.can n
    if h.objPending n o && h.objAuth n o && !c.ready.contains o.val then h.setCan n { c with ready := c.ready ++ [o.val] }
    else h

/-- The arbitration key of an object (R379). -/
def Hw.objKey (h : Hw) (n o : Nat) : Nat :=
  h.get (CAN_OBJ n o 0) 28 18 * 2 ^ 19 + h.get (CAN_OBJ n o 0) 29 29 * 2 ^ 18 + h.get (CAN_OBJ n o 0) 17 0

/-- The object that arbitration offers: the lowest key among the pending objects whose MAC is ready, the lowest index on
ties. -/
def Hw.offered (h : Hw) (n : Nat) : Option Nat :=
  ((List.range 128).filter (fun o => h.objPending n o && h.objValid n o && h.objTx n o &&
    (!h.objAuth n o || (h.can n).ready.contains o))).foldl
      (fun best o => match best with | none => some o | some b => if h.objKey n o < h.objKey n b then some o else some b) none

/-- The controller takes part in the traffic of its bus: it has joined it, it is not bus-off, and it does not wait for
recessive bits. -/
def Hw.canOn (h : Hw) (n : Nat) : Bool :=
  h.bit (STATUS (pgCAN n)) 0 && decide (h.get (CAN_ERR n) 31 30 ≠ 2) && !(h.can n).waiting

/-- TEC and REC are frozen (R386). -/
def Hw.canFrozen (h : Hw) (n : Nat) : Bool := h.bit (CAN_CFG n) 20 || (h.can n).ignore

/-- The bit rate fields of a bit timing register: clock cycles a bit, and whether `SJW` exceeds `TSEG2`. -/
def bitTiming (nominal : Bool) (v : Nat) : Nat × Bool :=
  if nominal then ((fld v 4 0 + 1) * (1 + (fld v 23 16 + 1) + (fld v 14 8 + 1)), decide (fld v 14 8 < fld v 31 25))
  else ((fld v 4 0 + 1) * (1 + (fld v 21 16 + 1) + (fld v 11 8 + 1)), decide (fld v 11 8 < fld v 27 24))

/-- A frame has a data phase above 1 Mbit/s on a controller (R366): fewer than 160 clock cycles a bit. -/
def Hw.fastPhase (h : Hw) (n : Nat) (f : CanFrame) : Bool :=
  (decide (f.fmt = 1) && f.brs && decide ((bitTiming false (h.rd (CAN_DBT n))).1 < 160)) ||
    (decide (f.fmt = 2) && decide ((bitTiming false (h.rd (CAN_XBT n))).1 < 160))

/-- The controller measures its loop delay for a frame that it sends and reports it in `TDC_MEAS` (R366): the measured
number is a free value (assumption log, entry 131). -/
def Hw.loopDelay (h : Hw) (n : Nat) (f : CanFrame) : Hw :=
  if h.bit (CAN_TDC n) 31 && h.fastPhase n f then
    let (x, h) := h.freeByte
    h.put (CAN_TDC n) 23 16 x.toNat
  else h

/-- ARBITRATION_START (R366, R379, R380): the object offered goes on the bus with its data latched, or loses and stays pending.
Before it, objects whose key is no longer permitted are dropped (R396). -/
def execArbitrationStart (n : Fin 16) (won : Bool) (s : State) : Host.Outcome State Fault Refusal :=
  s.run fun h =>
    if !h.canOn n || !h.bit (CTRL (pgCAN n)) 0 || h.canFrozen n || (h.can n).tx.isSome then h
    else
      let bad := (List.range 128).filter (fun o => h.objPending n o && h.objAuth n o && !h.objKeyOk n o)
      let h := bad.foldl (fun (h : Hw) o => h.objRevoked n o) h
      match h.offered n with
      | none => h
      | some o =>
        if won then
          ((h.setCan n { h.can n with tx := some (o, h.objFrame n o), again := false }).objFlag n o 22).loopDelay n (h.objFrame n o)
        else h.canCount n 8

/-- A drop under R382. -/
def Hw.ageDrop (h : Hw) (n o : Nat) : Hw := (((h.unpend n o).objFlag n o 26).canCount n 10).raise (pgCAN n) 4

/-- AGE_DROP (R382): `AGE_LIM` ms have passed since the object became pending; on the bus it completes its attempt first. -/
def execAgeDrop (n : Fin 16) (o : Fin 128) (s : State) : Host.Outcome State Fault Refusal :=
  s.run fun h =>
    let lim := h.get (CAN_OBJ n o 2) 15 0
    let since := (find? (h.can n).pendAt o).getD 0
    if !h.objPending n o || lim = 0 || decide (h.now < since + 1_200_000 * lim) then h
    else if h.bit (CAN_OBJ n o 6) 22 then h.setCan n { h.can n with aged := (h.can n).aged ++ [o.val] }
    else h.ageDrop n o

/-- The frame on the bus ends: the object is no longer on it. -/
def Hw.offBus (h : Hw) (n : Nat) : Hw :=
  match (h.can n).tx with
  | none => h
  | some (o, _) => (h.setCan n { h.can n with tx := none }).putBit (CAN_OBJ n o 6) 22 false

/-- The attempt on the bus fails (R382): the object competes again, or is dropped if its age limit has expired or its key is
revoked. A trigger that came meanwhile makes a dropped object pending again (R378). -/
def Hw.attemptFails (h : Hw) (n : Nat) : Hw :=
  match (h.can n).tx with
  | none => h
  | some (o, _) =>
    let old := (h.can n).aged.contains o
    let again := (h.can n).again
    let h := (h.offBus n).setCan n { (h.offBus n).can n with again := false }
    if old then (if again then (h.ageDrop n o).makePending n o else h.ageDrop n o) else if h.objAuth n o && !h.objKeyOk n o then h.objRevoked n o else h

/-- After a frame or an error a controller that was disabled stops (R406). -/
def Hw.canStopNow (h : Hw) (n : Nat) : Hw :=
  if (h.can n).stopping then (h.setCan n { h.can n with stopping := false }).putBit (STATUS (pgCAN n)) 0 false else h

/-- `ALONE` clears and its count restarts (R387). -/
def Hw.notAlone (h : Hw) (n : Nat) : Hw := (h.putBit (CAN_ERR n) 29 false).put (CAN_ALONE n) 31 16 0

/-- Bus-off (R388). -/
def Hw.busOff (h : Hw) (n : Nat) : Hw :=
  let h := h.attemptFails n
  let h := h.setCan n { h.can n with counting := h.bit (CAN_CFG n) 29, waiting := false }
  (((h.put (CAN_ERR n) 31 30 2).put (CAN_RECOV n) 7 0 0).canCount n 9).raise (pgCAN n) 1

/-- The error state follows the counters (R385). -/
def Hw.canState (h : Hw) (n : Nat) : Hw :=
  let st := h.get (CAN_ERR n) 31 30
  if st = 2 then h
  else if 255 < h.get (CAN_ERR n) 8 0 then h.busOff n
  else if 127 < h.get (CAN_ERR n) 8 0 ∨ 127 < h.get (CAN_ERR n) 23 16 then
    (h.put (CAN_ERR n) 31 30 1).raiseIf (decide (st = 0)) (pgCAN n) 0
  else h.put (CAN_ERR n) 31 30 0

/-- TEC or REC rises (R384). -/
def Hw.errUp (h : Hw) (n : Nat) (tec : Bool) (k : Nat) : Hw :=
  if h.canFrozen n then h
  else if tec then h.put (CAN_ERR n) 8 0 (min 256 (h.get (CAN_ERR n) 8 0 + k))
  else h.put (CAN_ERR n) 23 16 (min 255 (h.get (CAN_ERR n) 23 16 + k))

/-- A frame sent ends free of error: TEC down by 1. -/
def Hw.tecDown (h : Hw) (n : Nat) : Hw :=
  if h.canFrozen n then h else (h.put (CAN_ERR n) 8 0 (h.get (CAN_ERR n) 8 0 - 1)).canState n

/-- A frame received ends free of error: REC down. -/
def Hw.recDown (h : Hw) (n : Nat) : Hw :=
  let r := h.get (CAN_ERR n) 23 16
  if h.canFrozen n then h else (h.put (CAN_ERR n) 23 16 (if 127 < r then 120 else r - 1)).canState n

/-- The controller finds an error (R384, R387, R390). -/
def Hw.errFound (h : Hw) (n : Nat) (sending : Bool) (err : Nat) (waived xlData : Bool) : Hw :=
  let h := h.put (CAN_ERR n) 26 24 err
  let k := if err = 1 then 5 else if err = 2 then 6 else if err = 3 then 3 else if err = 6 then 7 else 4
  let h := if err = 0 then h else h.canCount n k
  let passive := decide (h.get (CAN_ERR n) 31 30 = 1)
  let skip := sending && waived && ((err = 3 && passive) || err = 1)
  let h := if skip then h else h.errUp n sending (if sending then 8 else 1)
  let h :=
    if sending && err = 3 then
      let h := h.satF (CAN_ALONE n) 31 16
      if h.get (CAN_ALONE n) 15 0 ≤ h.get (CAN_ALONE n) 31 16 && !h.bit (CAN_ERR n) 29 then
        (h.putBit (CAN_ERR n) 29 true).raise (pgCAN n) 3
      else h
    else h
  let h := if xlData && h.bit (CAN_CFG n) 27 then h.setCan n { h.can n with waiting := true } else h
  let h := if sending then h.attemptFails n else h
  (h.canState n).canStopNow n

/-- A controller that was disabled stops 256 bit times of the nominal rate after the write, whatever is on the bus (R406). -/
def Hw.canLapse (h : Hw) (n : Nat) : Hw :=
  if (h.can n).stopping && decide ((h.can n).stopBy ≤ h.now) then (h.attemptFails n).canStopNow n else h

/-- What R391 finds: with `PEX` the controller waits without an error, else it is a form error. -/
def Hw.canPex (h : Hw) (n : Nat) (sending : Bool) : Hw :=
  if h.bit (CAN_CFG n) 28 then ((h.setCan n { h.can n with waiting := true }).canCount n 17).canStopNow n
  else h.errFound n sending 2 false false

/-- ERROR_DETECTED (Table 09.4, R390, R391). -/
def execErrorDetected (n : Fin 16) (sending : Bool) (e : CanHap) (s : State) : Host.Outcome State Fault Refusal :=
  s.run fun h =>
    let h := h.canLapse n
    if !h.bit (STATUS (pgCAN n)) 0 || h.get (CAN_ERR n) 31 30 = 2 then h
    else
      match e with
      | .found err waived xlData => h.errFound n sending err.val waived xlData
      | .pex => h.canPex n sending
      | .firstDominant => if sending then h else (h.errUp n false 8).canState n
      | .inFlag => (h.errUp n sending 8).canState n
      | .dominant14 => (h.errUp n sending 8).canState n
      | .dominant8 => (h.errUp n sending 8).canState n
      | .furtherDominant8 => (h.errUp n sending 8).canState n

/-- RECESSIVE_SEQUENCE (R388 to R391, R405): it counts toward recovery, or ends a wait. -/
def execRecessiveSequence (n : Fin 16) (s : State) : Host.Outcome State Fault Refusal :=
  s.run fun h =>
    if !h.bit (CTRL (pgCAN n)) 0 then h
    else if h.get (CAN_ERR n) 31 30 = 2 then
      if !(h.can n).counting then h
      else
        let h := h.put (CAN_RECOV n) 7 0 (h.get (CAN_RECOV n) 7 0 + 1)
        if h.get (CAN_RECOV n) 7 0 < 128 then h
        else
          let h := h.setCan n { h.can n with counting := false }
          let h := (((h.put (CAN_ERR n) 8 0 0).put (CAN_ERR n) 23 16 0).put (CAN_ERR n) 31 30 0).putBit (CAN_RECOV n) 31 false
          (h.putBit (STATUS (pgCAN n)) 0 true).raise (pgCAN n) 2
    else
      (h.setCan n { h.can n with waiting := false }).putBit (STATUS (pgCAN n)) 0 true

/-- CAN_RECOV (R388): `GO` reads 1 until the recovery ends or stops. -/
def execCanRecov (n : Fin 16) (v : Word) (a : Attr) (s : State) : Host.Outcome State Fault Refusal :=
  s.run fun h => h.busWrite (CAN_RECOV n) a fun h =>
    if fld v.toNat 31 31 = 0 then h
    else if h.get (CAN_ERR n) 31 30 ≠ 2 then h.refuse (CAN_RECOV n) 0x0103 a
    else if !h.bit (CTRL (pgCAN n)) 0 then h
    else if (h.can n).counting then h.putBit (CAN_RECOV n) 31 true
    else ((h.setCan n { h.can n with counting := true }).put (CAN_RECOV n) 7 0 0).putBit (CAN_RECOV n) 31 true

/-- A write of `CAN_CTRL` (R405, R406). `busy` says that a frame is being sent or received. -/
def Hw.canCtrl (h : Hw) (n v : Nat) (busy : Bool) (a : Attr) : Hw :=
  let h := h.canLapse n
  let on := decide (fld v 0 0 = 1)
  let was := h.bit (CTRL (pgCAN n)) 0
  if on == was then h
  else if on then
    if (List.range 128).any (fun o => h.objValid n o && decide (h.get (CAN_CFG n) 31 30 < h.objFmt n o)) then
      h.refuse (CTRL (pgCAN n)) 0x0101 a
    else
      let off := decide (h.get (CAN_ERR n) 31 30 = 2)
      let h := h.setCan n { h.can n with waiting := !off, stopping := false, counting := off && h.bit (CAN_CFG n) 29 }
      (h.put (CAN_RECOV n) 7 0 0).putBit (CTRL (pgCAN n)) 0 true
  else
    let h := ((h.putBit (CTRL (pgCAN n)) 0 false).put (CAN_RECOV n) 7 0 0).putBit (CAN_RECOV n) 31 false
    let by_ := h.now + 256 * (15 * (bitTiming true (h.rd (CAN_NBT n))).1 / 2)
    let go := (h.can n).tx.isSome || (busy && h.bit (STATUS (pgCAN n)) 0)
    let h := h.setCan n { h.can n with counting := false, waiting := false, stopping := go, stopBy := by_ }
    if go then h else h.putBit (STATUS (pgCAN n)) 0 false

/-- CAN_ENABLE (R405). -/
def execCanEnable (n : Fin 16) (v : Word) (a : Attr) (s : State) : Host.Outcome State Fault Refusal :=
  s.run fun h => h.busWrite (CTRL (pgCAN n)) a fun h => h.canCtrl n v.toNat false a

/-- CAN_DISABLE (R406). -/
def execCanDisable (n : Fin 16) (v : Word) (busy : Bool) (a : Attr) (s : State) : Host.Outcome State Fault Refusal :=
  s.run fun h => h.busWrite (CTRL (pgCAN n)) a fun h => h.canCtrl n v.toNat busy a

/-- A map entry of an enabled cadence names the object (R370). -/
def Hw.objMapped (h : Hw) (n o : Nat) : Bool :=
  (List.range 64).any (fun d => h.cadEn d && ((h.cadIns d ++ h.cadOuts d).any (fun m =>
    (decide (h.mapKind m = 3) || decide (h.mapKind m = 10)) && decide (h.mapSrc m = 128 * n + o))))

/-- The object as it stands is refused under R369 (or names a reserved code). -/
def Hw.objBad (h : Hw) (n o : Nat) : Bool :=
  let lo := h.objOfs n o
  let hi := lo + h.objCap n o
  decide (canRamSize n < hi) || decide (lo % 4 ≠ 0) || decide (canCapLim n < h.objCap n o) ||
    decide (h.objFmt n o = 2 ∧ h.bit (CAN_OBJ n o 0) 29 = true) || decide (h.get (CAN_CFG n) 31 30 < h.objFmt n o) ||
    decide (h.objFmt n o = 3) || decide (h.get (CAN_OBJ n o 1) 27 26 = 3) ||
    (List.range 128).any (fun p => p != o && h.objValid n p &&
      decide (max lo (h.objOfs n p) < min hi (h.objOfs n p + h.objCap n p)))

/-- The bits that Table 09.2 fixes at 0: below a base or XL identifier, and above the age limit of a transmit object. -/
def Hw.objTrim (h : Hw) (n o : Nat) : Hw :=
  let h := if h.bit (CAN_OBJ n o 0) 29 then h else h.put (CAN_OBJ n o 0) 17 0 0
  if h.objTx n o then h.put (CAN_OBJ n o 2) 31 16 0 else h

/-- CAN_OBJECT_WRITE (R368 to R370, R395). -/
def execCanObjectWrite (n : Fin 16) (o : Fin 128) (w : Fin 16) (v : Word) (a : Attr) (s : State) :
    Host.Outcome State Fault Refusal :=
  s.run fun h =>
    let k := CAN_OBJ n o w
    h.busWrite k a fun h =>
      if w.val ≤ 5 ∧ (h.objPending n o || h.objMapped n o) = true then h.refuse k 0x0100 a
      else
        let h' := (h.storeReg k v.toNat).objTrim n o
        if (w.val = 0 ∨ w.val = 1 ∨ w.val = 5) ∧ h'.objBad n o = true then h.refuse k 0x0101 a
        else if (w.val = 1 ∨ w.val = 3) ∧ (h'.objAuth n o && !h'.objKeyOk n o) = true then h.refuse k 0x0102 a
        else h'

/-- CAN_CNT_CLR (Table 09.8). -/
def execCanCntClr (n : Fin 16) (v : Word) (a : Attr) (s : State) : Host.Outcome State Fault Refusal :=
  s.run fun h => h.busWrite (CAN_CNT_CLR n) a fun h =>
    h.setCan n { h.can n with cnt := (h.can n).cnt.set (fld v.toNat 4 0) 0 }

/-- FRAME_STORE (R372, R394). -/
def execFrameStore (n : Fin 16) (s : State) : Host.Outcome State Fault Refusal :=
  s.run fun h =>
    match (h.can n).rx with
    | [] => h
    | r :: t =>
      let h := h.setCan n { h.can n with rx := t }
      let o := r.obj
      let f := r.frame
      let h := h.setObjData n o f.data (h.objCap n o)
      let h := ((h.put (CAN_OBJ n o 1) 31 30 f.fmt.val).putBit (CAN_OBJ n o 1) 29 f.brs).put (CAN_OBJ n o 1) 10 0 f.dlc.toNat
      let h := ((h.put (CAN_OBJ n o 3) 23 16 f.sdt.toNat).put (CAN_OBJ n o 3) 15 8 f.vcid.toNat).putBit (CAN_OBJ n o 3) 0 f.sec
      let h := (h.wr (CAN_OBJ n o 4) f.af.toNat).wr (CAN_OBJ n o 7) r.ts
      let h := h.wr (CAN_OBJ n o 8) ((if f.ide then 2 ^ 29 else 0) + f.id.toNat)
      let h := match r.fv with
        | none => h
        | some fv => h.wrPair (CAN_OBJ n o 9) (CAN_OBJ n o 10) fv
      let lost := h.bit (CAN_OBJ n o 6) 30
      let h := ((h.incF (CAN_OBJ n o 6) 15 0).objFlag n o 30).canCount n 2
      if lost then ((h.objFlag n o 29).canCount n 11).raise (pgCAN n) 5 else h

/-- The error code of a refused write of a controller's configuration (R365, R367, R370, R387, R405); `v` is the value
written. -/
def Hw.canRefuses (h : Hw) (n off v : Nat) : Option Nat :=
  let en := h.bit (CTRL (pgCAN n)) 0
  let lim := if n < 12 then 20 else 8
  let bad := fun nb db xb =>
    let (cn, jn) := bitTiming true nb
    let (cd, jd) := bitTiming false db
    let (cx, jx) := bitTiming false xb
    jn || jd || jx || decide (cn < 160) || decide (cd < lim) || decide (cx < lim) || decide (cn < cd) || decide (cn < cx)
  if off = 0x100 then
    if en then some 0x0100
    else if fld v 31 30 = 3 ∨ fld v 17 16 = 3 then some 0x0101
    else if 12 ≤ n ∧ fld v 26 26 = 1 ∧ (fld v 27 27 = 0 ∨
        h.get (CAN_XPWM n) 21 16 + h.get (CAN_XPWM n) 13 8 ≠ (bitTiming false (h.rd (CAN_XBT n))).1) then some 0x0101
    else none
  else if off = 0x104 then
    if en then some 0x0100 else if bad v (h.rd (CAN_DBT n)) (h.rd (CAN_XBT n)) then some 0x0101 else none
  else if off = 0x108 then
    if en then some 0x0100 else if bad (h.rd (CAN_NBT n)) v (h.rd (CAN_XBT n)) then some 0x0101 else none
  else if off = 0x10C then
    if en then some 0x0100 else if bad (h.rd (CAN_NBT n)) (h.rd (CAN_DBT n)) v then some 0x0101 else none
  else if off = 0x110 ∨ off = 0x114 then if en then some 0x0100 else none
  else if off = 0x120 then if fld v 15 0 = 0 then some 0x0101 else none
  else none

/-- What of a configuration write a controller keeps: `XL_PWM` and `CAN_XPWM` are fixed at 0 on CAN0 to CAN11. -/
def canKeep (n off v : Nat) : Nat :=
  if n < 12 ∧ off = 0x100 then setBit v 26 false else if n < 12 ∧ off = 0x114 then 0 else v

/-- A data RAM offset belongs to the data area of a pending transmit object (R370). -/
def Hw.canRamBusy (h : Hw) (n o : Nat) : Bool :=
  (List.range 128).any (fun p => h.objValid n p && h.objTx n p && h.objPending n p && decide (o < h.objOfs n p + h.objCap n p) &&
    decide (h.objOfs n p < o + 4))

/-- The keys of the slots in a list are revoked: pending objects that use them are dropped (R396, Table 16.4). -/
def Hw.canKeysRevoked (h : Hw) (slots : List Nat) : Hw :=
  each 16 (fun n h => each 128 (fun o h =>
    if h.objValid n o && h.objTx n o && h.objAuth n o && h.objPending n o && slots.contains (h.get (CAN_OBJ n o 3) 31 24) &&
        !h.bit (CAN_OBJ n o 6) 22 then h.objRevoked n o else h) h) h

end Sys2Proof.Machine
end

