-- ==== Sys2Proof/Machine/Curves.lean ====
section
/-! DEFINITION. ECDSA on P-256 and P-384, and Ed25519. The spec names these standards and does not print them
(assumption log, entry 20): FIPS 186-5, SEC 1 and RFC 8032. -/

namespace Sys2Proof.Machine

/-- Modular power by the `n` low bits of the exponent, from the highest. -/
def powModBits (m b e : Nat) : Nat → Nat → Nat
  | 0, r => r
  | n + 1, r =>
    let r := r * r % m
    powModBits m b e n (if fld e n n = 1 then r * b % m else r)

/-- Modular power, exponents below 2^521. -/
def powMod (m b e : Nat) : Nat := powModBits m (b % m) e 521 (1 % m)

/-- Inverse modulo a prime. -/
def invMod (p a : Nat) : Nat := powMod p a (p - 2)

/-- A short Weierstrass curve y² = x³ − 3x + b over the prime `p`, base point `(gx, gy)` of order `n`; `len` bytes a
coordinate. -/
structure Curve where
  p : Nat
  b : Nat
  gx : Nat
  gy : Nat
  n : Nat
  len : Nat
deriving DecidableEq, Repr

/-- NIST P-256. -/
def p256 : Curve where
  p := 0xffffffff00000001000000000000000000000000ffffffffffffffffffffffff
  b := 0x5ac635d8aa3a93e7b3ebbd55769886bc651d06b0cc53b0f63bce3c3e27d2604b
  gx := 0x6b17d1f2e12c4247f8bce6e563a440f277037d812deb33a0f4a13945d898c296
  gy := 0x4fe342e2fe1a7f9b8ee7eb4a7c0f9e162bce33576b315ececbb6406837bf51f5
  n := 0xffffffff00000000ffffffffffffffffbce6faada7179e84f3b9cac2fc632551
  len := 32

/-- NIST P-384. -/
def p384 : Curve where
  p := 0xfffffffffffffffffffffffffffffffffffffffffffffffffffffffffffffffeffffffff0000000000000000ffffffff
  b := 0xb3312fa7e23ee7e4988e056be3f82d19181d9c6efe8141120314088f5013875ac656398d8a2ed19d2a85c8edd3ec2aef
  gx := 0xaa87ca22be8b05378eb1c71ef320ad746e1d3b628ba79b9859f741e082542a385502f25dbf55296c3a545e3872760ab7
  gy := 0x3617de4a96262c6f5d9e98bf9292dc29f8f41dbd289a147ce9da3113b5f0b8c00a60b1ce1d7e819d7a431d7c90ea0e5f
  n := 0xffffffffffffffffffffffffffffffffffffffffffffffffc7634d81f4372ddf581a0db248b0a77aecec196accc52973
  len := 48

/-- A point of a curve; none is the point at infinity. -/
abbrev Point := Option (Nat × Nat)

/-- Sum of two points. -/
def Curve.add (c : Curve) (u v : Point) : Point :=
  match u, v with
  | none, w => w
  | w, none => w
  | some (x1, y1), some (x2, y2) =>
    if x1 = x2 ∧ (y1 + y2) % c.p = 0 then none
    else
      let l :=
        if x1 = x2 then (3 * x1 * x1 + 3 * (c.p - 1)) * invMod c.p (2 * y1) % c.p
        else (y2 + c.p - y1) * invMod c.p (x2 + c.p - x1) % c.p
      let x := (l * l + 2 * c.p - x1 - x2) % c.p
      some (x, (l * (x1 + c.p - x) + c.p - y1) % c.p)

/-- Multiple of a point by the low `n` bits of `k`, from the highest. -/
def Curve.mulBits (c : Curve) (k : Nat) (q : Point) : Nat → Point → Point
  | 0, r => r
  | n + 1, r =>
    let r := c.add r r
    Curve.mulBits c k q n (if fld k n n = 1 then c.add r q else r)

/-- Multiple of a point. -/
def Curve.mul (c : Curve) (k : Nat) (q : Point) : Point := c.mulBits k q (8 * c.len) none

/-- The base point. -/
def Curve.g (c : Curve) : Point := some (c.gx, c.gy)

/-- The point lies on the curve, and its coordinates are reduced. -/
def Curve.on (c : Curve) (x y : Nat) : Bool :=
  decide (x < c.p) && decide (y < c.p) && decide (y * y % c.p = (x * x * x + (c.p - 3) * x + c.b) % c.p)

/-- The public key of a private scalar, uncompressed: 0x04, x, y. -/
def Curve.pub (c : Curve) (d : Nat) : List Byte :=
  match c.mul d c.g with
  | none => List.replicate (2 * c.len + 1) 0
  | some (x, y) => 0x04#8 :: (beBytes c.len x ++ beBytes c.len y)

/-- An ECDSA signature r ‖ s of a digest with the nonce `k` (1 ≤ k < n). -/
def Curve.sign (c : Curve) (d k : Nat) (digest : List Byte) : List Byte :=
  let r := match c.mul k c.g with
    | none => 0
    | some (x, _) => x % c.n
  let s := invMod c.n k * (beNat digest + r * d) % c.n
  beBytes c.len r ++ beBytes c.len s

/-- An ECDSA signature verifies under an uncompressed public key. -/
def Curve.verify (c : Curve) (pk sig digest : List Byte) : Bool :=
  let x := beNat (slice pk 1 c.len)
  let y := beNat (slice pk (1 + c.len) c.len)
  let r := beNat (slice sig 0 c.len)
  let s := beNat (slice sig c.len c.len)
  if pk.headD 0 = 0x04 ∧ c.on x y = true ∧ 0 < r ∧ r < c.n ∧ 0 < s ∧ s < c.n then
    let w := invMod c.n s
    match c.add (c.mul (beNat digest * w % c.n) c.g) (c.mul (r * w % c.n) (some (x, y))) with
    | none => false
    | some (vx, _) => decide (vx % c.n = r)
  else false

/-- The prime of edwards25519. -/
abbrev edP : Nat := 2 ^ 255 - 19

/-- The order of its base point. -/
def edL : Nat := 2 ^ 252 + 27742317777372353535851937790883648493

/-- The curve constant d = −121665/121666. -/
def edD : Nat := 0x52036cee2b6ffe738cc740797779e89800700a4d4141d8ab75eb4dca135978a3

/-- Sum of two points of edwards25519. -/
def edAdd (u v : Nat × Nat) : Nat × Nat :=
  let t := edD * (u.1 * v.1 % edP) * (u.2 * v.2 % edP) % edP
  ((u.1 * v.2 + u.2 * v.1) % edP * invMod edP (1 + t) % edP,
    (u.2 * v.2 + u.1 * v.1) % edP * invMod edP (1 + edP - t) % edP)

/-- Multiple of a point by the low `n` bits of `k`. -/
def edMulBits (k : Nat) (q : Nat × Nat) : Nat → Nat × Nat → Nat × Nat
  | 0, r => r
  | n + 1, r =>
    let r := edAdd r r
    edMulBits k q n (if fld k n n = 1 then edAdd r q else r)

/-- Multiple of a point. -/
def edMul (k : Nat) (q : Nat × Nat) : Nat × Nat := edMulBits k q 256 (0, 1)

/-- The base point of edwards25519. -/
def edB : Nat × Nat :=
  (0x216936d3cd6e53fec0a4e231fdd6dc5c692cc7609525a7b2c9562d608f25d51a,
    0x6666666666666666666666666666666666666666666666666666666666666658)

/-- A point written in 32 bytes. -/
def edEnc (q : Nat × Nat) : List Byte := leBytes 32 (q.2 + q.1 % 2 * 2 ^ 255)

/-- A point read from 32 bytes. -/
def edDecode (l : List Byte) : Option (Nat × Nat) :=
  let v := leNat l
  let y := v % 2 ^ 255
  let sign := v / 2 ^ 255
  if edP ≤ y ∨ l.length ≠ 32 then none
  else
    let u := (y * y + edP - 1) % edP
    let w := (edD * (y * y % edP) + 1) % edP
    let x := u * powMod edP w 3 % edP * powMod edP (u * powMod edP w 7) ((edP - 5) / 8) % edP
    let x := if w * (x * x % edP) % edP = u then some x
      else if w * (x * x % edP) % edP = (edP - u) % edP then some (x * powMod edP 2 ((edP - 1) / 4) % edP)
      else none
    match x with
    | none => none
    | some x =>
      if x = 0 ∧ sign = 1 then none
      else some (if x % 2 = sign then x else edP - x, y)

/-- The secret scalar and the second half of the hash of a seed. -/
def edSecret (seed : List Byte) : Nat × List Byte :=
  let h := sha512 seed
  let a := leNat (h.take 32)
  (setFld (a % 2 ^ 254 / 8 * 8) 254 254 1, h.drop 32)

/-- The public key of a seed. -/
def edPub (seed : List Byte) : List Byte := edEnc (edMul (edSecret seed).1 edB)

/-- An Ed25519 signature. -/
def edSign (seed msg : List Byte) : List Byte :=
  let (a, pre) := edSecret seed
  let r := leNat (sha512 (pre ++ msg)) % edL
  let R := edEnc (edMul r edB)
  let k := leNat (sha512 (R ++ edPub seed ++ msg)) % edL
  R ++ leBytes 32 ((r + k * a) % edL)

/-- An Ed25519 signature verifies: 8·s·B = 8·R + 8·k·A. -/
def edVerify (pk sig msg : List Byte) : Bool :=
  match edDecode (pk.take 32), edDecode (sig.take 32) with
  | some A, some R =>
    let s := leNat (slice sig 32 32)
    let k := leNat (sha512 (sig.take 32 ++ pk.take 32 ++ msg)) % edL
    decide (s < edL) && decide (edMul 8 (edMul s edB) = edMul 8 (edAdd R (edMul k A)))
  | _, _ => false

end Sys2Proof.Machine
end

