-- ==== Sys2Proof/Machine/Tables.lean ====
section
/-! DEFINITION. The tables of the switch core (R305 to R308, R310, R311, R316 to R318) and its counters (R312, R314,
R315). -/

namespace Sys2Proof.Machine

/-- Key of a table word. -/
def tabKey (t i w : Nat) : Nat := t * 2 ^ 18 + i * 4 + w

/-- A word of an FDB table: 0 forwarding, 1 VLAN, 2 port map. -/
def Hw.fdb (h : Hw) (t i w : Nat) : Nat := h.sw.fdb.get (tabKey t i w)

/-- A word of a STRM table: 0 stream, 1 meter, 2 sequence function. -/
def Hw.strm (h : Hw) (t i w : Nat) : Nat := h.sw.strm.get (tabKey t i w)

/-- Set a word of an FDB table. -/
def Hw.setFdb (h : Hw) (t i w v : Nat) : Hw := { h with sw := { h.sw with fdb := h.sw.fdb.set (tabKey t i w) v } }

/-- Set a word of a STRM table. -/
def Hw.setStrm (h : Hw) (t i w v : Nat) : Hw := { h with sw := { h.sw with strm := h.sw.strm.set (tabKey t i w) v } }

/-- `FDB_USED` shows the valid forwarding entries (R317). -/
def Hw.fdbUsed (h : Hw) : Hw :=
  h.wr FDB_USED
    (h.sw.fdb.filter (fun e => decide (e.1 < 2 ^ 18) && decide (e.1 % 4 = 1) && decide (fld e.2 31 31 = 1))).length

/-- The bits that an FDB entry word has (Table 07.5, R307); the rest is 0. -/
def fdbMask (t w : Nat) : Nat :=
  match t, w with
  | 0, 0 => 0xFFFF_FFFF
  | 0, 1 => 0xFFFF_FFFF
  | 0, 2 => 0x8010_03FF
  | 1, 0 => 0xFFFF_FFFF
  | 1, 1 => 0xCFFF_00FF
  | 1, 2 => 0xFFFF_FFFF
  | 1, 3 => 0xFF
  | 2, 0 => 0xFFFF_FFFF
  | 2, 1 => 0xFF
  | _, _ => 0

/-- The bits that a STRM entry word has (Table 07.6, R310, R311). -/
def strmMask (t w : Nat) : Nat :=
  match t, w with
  | 0, 0 => 0xFFFF_FFFF
  | 0, 1 => 0xCFFF_FFFF
  | 0, 2 => 0xFFFF_83FF
  | 0, 3 => 0xC000_F3FF
  | 1, 0 => 0x80FF_FFFF
  | 1, _ => 0xFF_FFFF
  | 2, 0 => 0xDF00_FFFF
  | 2, 1 => 0xFFFF_FFFF
  | 2, 2 => 0xFFFF_FFFF
  | _, _ => 0

/-- Entries of an FDB table; none for the reserved table. -/
def fdbSize (t : Nat) : Nat := if t = 0 then 16384 else if t = 1 then 4096 else if t = 2 then 1024 else 0

/-- Entries of a STRM table. -/
def strmSize (t : Nat) : Nat := if t = 0 then 4096 else if t = 3 then 0 else 1024

/-- The XOR of the four 12-bit pieces of an address (R305). -/
def macFold (mac : Nat) : Nat := fld mac 11 0 ^^^ fld mac 23 12 ^^^ fld mac 35 24 ^^^ fld mac 47 36

/-- The forwarding entry of an address in a FID (R305). -/
def Hw.fdbFind (h : Hw) (mac fid : Nat) : Option Nat :=
  let set := (macFold mac ^^^ fid) % 4096
  ((List.range 4).map (· + 4 * set)).find? (fun i =>
    decide (h.fdb 0 i 0 = mac % 2 ^ 32) && decide (fld (h.fdb 0 i 1) 31 31 = 1) &&
      decide (fld (h.fdb 0 i 1) 15 0 = mac / 2 ^ 32) && decide (fld (h.fdb 0 i 1) 27 16 = fid))

/-- The stream entry of an address and a VID in a mode (R308). -/
def Hw.strmFind (h : Hw) (mode mac vid : Nat) : Option Nat :=
  let set := (macFold mac ^^^ vid) % 1024
  ((List.range 4).map (· + 4 * set)).find? (fun i =>
    decide (h.strm 0 i 0 = mac % 2 ^ 32) && decide (fld (h.strm 0 i 1) 31 31 = 1) &&
      decide (fld (h.strm 0 i 1) 30 30 = mode) && decide (fld (h.strm 0 i 1) 15 0 = mac / 2 ^ 32) &&
      decide (fld (h.strm 0 i 1) 27 16 = vid))

/-- The operation of a table's command register goes on (`BUSY`, Table 07.14). -/
def Hw.tableBusy (h : Hw) (k : Nat) : Bool := match find? h.sw.busy k with | some t => decide (h.now < t) | none => false

/-- An operation of a table begins: it ends within `limit` cue clock cycles, at a time that the spec leaves open (R316). -/
def Hw.tableWorks (h : Hw) (k limit : Nat) : Hw :=
  let r := h.freeWord
  { r.2 with sw := { r.2.sw with busy := file r.2.sw.busy k (r.2.now + r.1 % (limit + 1)) } }

/-- A table command (R316, Table 07.14): the command register takes the operation of the row, the table and the index, and
`f` gives the result code, the index shown and the state. The effect comes at once, and `BUSY` shows for up to 100 ns, or 20 µs for a
flush. -/
def Hw.tableCommand (h : Hw) (k op v : Nat) (a : Attr) (size : Nat → Nat) (f : Nat → Nat → Hw → Nat × Nat × Hw) : Hw :=
  h.busWrite k a fun h =>
    let t := fld v 23 22
    let i := fld v 13 0
    if h.tableBusy k then h.refuse k 0x0100 a
    else if size t ≤ i then h.refuse k 0x0101 a
    else
      let r := f t i h
      (r.2.2.wr k (op * 2 ^ 28 + r.1 * 2 ^ 24 + t * 2 ^ 22 + r.2.1)).tableWorks k (if 5 ≤ op then 24_000 else 120)

/-- A command of the FDB. -/
def Hw.fdbCommand (h : Hw) (op : Nat) (v : Word) (a : Attr) (f : Nat → Nat → Hw → Nat × Nat × Hw) : Hw :=
  h.tableCommand FDB_CMD op v.toNat a fdbSize f

/-- A command of the STRM. -/
def Hw.strmCommand (h : Hw) (op : Nat) (v : Word) (a : Attr) (f : Nat → Nat → Hw → Nat × Nat × Hw) : Hw :=
  h.tableCommand STRM_CMD op v.toNat a strmSize f

/-- The key that a lookup command gives: the address in `DATA0` and `DATA1[15:0]`. -/
def Hw.keyMac (h : Hw) (d0 d1 : Nat) : Nat := 2 ^ 32 * h.get d1 15 0 + h.rd d0

/-- FDB_READ (R316). -/
def execFdbRead (v : Word) (a : Attr) (s : State) : Host.Outcome State Fault Refusal :=
  s.run fun h => h.fdbCommand 1 v a fun t i h => (0, i, each 4 (fun w (h : Hw) => h.wr (FDB_DATA w) (h.fdb t i w)) h)

/-- FDB_WRITE (R316). -/
def execFdbWrite (v : Word) (a : Attr) (s : State) : Host.Outcome State Fault Refusal :=
  s.run fun h => h.fdbCommand 2 v a fun t i h =>
    (0, i, (each 4 (fun w (h : Hw) => h.setFdb t i w (h.rd (FDB_DATA w) &&& fdbMask t w)) h).fdbUsed)

/-- FDB_LOOKUP (R305, R316): the forwarding table alone has a key. -/
def execFdbLookup (v : Word) (a : Attr) (s : State) : Host.Outcome State Fault Refusal :=
  s.run fun h => h.fdbCommand 3 v a fun t i h =>
    match if t = 0 then h.fdbFind (h.keyMac (FDB_DATA 0) (FDB_DATA 1)) (h.get (FDB_DATA 1) 27 16) else none with
    | some j => (0, j, h)
    | none => (1, i, h)

/-- FDB_DELETE (R316). -/
def execFdbDelete (v : Word) (a : Attr) (s : State) : Host.Outcome State Fault Refusal :=
  s.run fun h => h.fdbCommand 4 v a fun t i h => (0, i, (each 4 (fun w (h : Hw) => h.setFdb t i w 0) h).fdbUsed)

/-- The forwarding entries in use. -/
def Hw.fdbEntries (h : Hw) : List Nat :=
  (h.sw.fdb.filter (fun e => decide (e.1 < 2 ^ 18) && decide (e.1 % 4 = 1) && decide (fld e.2 31 31 = 1))).map (fun e => e.1 / 4)

/-- A forwarding entry is cleared. -/
def Hw.fdbClear (h : Hw) (i : Nat) : Hw := each 4 (fun w (h : Hw) => h.setFdb 0 i w 0) h

/-- Every dynamic entry that satisfies `p` is cleared. -/
def Hw.fdbFlush (h : Hw) (p : Nat → Bool) : Hw :=
  ((h.fdbEntries.filter (fun i => decide (fld (h.fdb 0 i 1) 30 30 = 0) && p i)).foldl (fun h i => h.fdbClear i) h).fdbUsed

/-- FDB_FLUSH_FID (Table 07.14). -/
def execFdbFlushFid (v : Word) (a : Attr) (s : State) : Host.Outcome State Fault Refusal :=
  s.run fun h => h.fdbCommand 5 v a fun _ i h =>
    (0, i, h.fdbFlush (fun j => decide (fld (h.fdb 0 j 1) 27 16 = h.get (FDB_DATA 1) 27 16)))

/-- FDB_FLUSH_PORT (Table 07.14). -/
def execFdbFlushPort (v : Word) (a : Attr) (s : State) : Host.Outcome State Fault Refusal :=
  s.run fun h => h.fdbCommand 6 v a fun _ i h =>
    (0, i, h.fdbFlush (fun j =>
      decide (fld (h.fdb 0 j 2) 31 31 = 0) && decide (fld (h.fdb 0 j 2) 9 0 = h.get (FDB_DATA 2) 5 0)))

/-- FDB_AGEING (R306). -/
def execFdbAgeing (s : State) : Host.Outcome State Fault Refusal :=
  s.run fun h =>
    if !h.live pgFDB then h
    else
      ((h.fdbEntries.filter (fun i => decide (fld (h.fdb 0 i 1) 30 30 = 0))).foldl (fun (h : Hw) i =>
        let w := h.fdb 0 i 1
        if fld w 29 28 = 3 then h.fdbClear i else h.setFdb 0 i 1 (setFld w 29 28 (fld w 29 28 + 1))) h).fdbUsed

/-- STRM_READ (R316). -/
def execStrmRead (v : Word) (a : Attr) (s : State) : Host.Outcome State Fault Refusal :=
  s.run fun h => h.strmCommand 1 v a fun t i h => (0, i, each 4 (fun w (h : Hw) => h.wr (STRM_DATA w) (h.strm t i w)) h)

/-- STRM_WRITE (R316, R309, R311): `BLOCKED` is set by the STRM alone; a reset time of 0 is refused; a meter starts with
full buckets. -/
def execStrmWrite (v : Word) (a : Attr) (s : State) : Host.Outcome State Fault Refusal :=
  s.run fun h =>
    if fld v.toNat 23 22 = 2 ∧ h.get (STRM_DATA 0) 15 0 = 0 ∧ !h.tableBusy STRM_CMD then h.busWrite STRM_CMD a (fun h => h.refuse STRM_CMD 0x0101 a)
    else h.strmCommand 2 v a fun t i h =>
      let blocked := fld (h.strm 0 i 3) 30 30 * fld (h.rd (STRM_DATA 3)) 30 30
      let h := each 4 (fun w (h : Hw) => h.setStrm t i w (h.rd (STRM_DATA w) &&& strmMask t w)) h
      let h := if t = 0 then h.setStrm 0 i 3 (setFld (h.strm 0 i 3) 30 30 blocked) else h
      (0, i, if t = 1 then { h with sw := { h.sw with meters := unfile h.sw.meters i } } else h)

/-- STRM_LOOKUP (R308, R316): the stream table alone has a key. -/
def execStrmLookup (v : Word) (a : Attr) (s : State) : Host.Outcome State Fault Refusal :=
  s.run fun h => h.strmCommand 3 v a fun t i h =>
    match
      if t = 0 then
        h.strmFind (h.get (STRM_DATA 1) 30 30) (h.keyMac (STRM_DATA 0) (STRM_DATA 1)) (h.get (STRM_DATA 1) 27 16)
      else none with
    | some j => (0, j, h)
    | none => (1, i, h)

/-- STRM_DELETE (R316). -/
def execStrmDelete (v : Word) (a : Attr) (s : State) : Host.Outcome State Fault Refusal :=
  s.run fun h => h.strmCommand 4 v a fun t i h => (0, i, each 4 (fun w (h : Hw) => h.setStrm t i w 0) h)

/-- Add to a counter of Table 07.7. -/
def Hw.swCount (h : Hw) (space index num : Nat) (n : Nat := 1) : Hw :=
  { h with sw := { h.sw with cnt := h.sw.cnt.bump (space * 2 ^ 24 + index * 2 ^ 8 + num) n } }

/-- SEQ_RECOVERY_RESET (R311): word 1 holds the last number taken and, in bit 16, that one has been taken; word 2 holds the
history. -/
def execSeqRecoveryReset (n : Fin 1024) (s : State) : Host.Outcome State Fault Refusal :=
  s.run fun h =>
    if !h.live pgSTRM || fld (h.strm 2 n 0) 31 31 = 0 then h
    else (((h.setStrm 2 n 1 0).setStrm 2 n 2 0).swCount 3 n 5).raise pgSTRM 3

/-- A counter selection names a counter of Table 07.7. -/
def cntValid (v : Nat) : Bool :=
  match fld v 31 28 with
  | 0 => decide (fld v 27 16 < 40) && decide (fld v 7 0 ≤ 8)
  | 1 => decide (fld v 27 16 < 320) && decide (fld v 7 0 ≤ 12)
  | 2 => decide (fld v 7 0 ≤ 6)
  | 3 => decide (fld v 27 16 < 1024) && decide (fld v 7 0 ≤ 5)
  | _ => false

/-- Key of the counter that a selection names. -/
def cntKey (v : Nat) : Nat := fld v 31 28 * 2 ^ 24 + fld v 27 16 * 2 ^ 8 + fld v 7 0

/-- SWC_CNT_CLR (R312). -/
def execSwcCntClr (v : Word) (a : Attr) (s : State) : Host.Outcome State Fault Refusal :=
  s.run fun h => h.busWrite SWC_CNT_CLR a fun h =>
    if !cntValid v.toNat then h.refuse SWC_CNT_CLR 0x0101 a
    else { h with sw := { h.sw with cnt := h.sw.cnt.set (cntKey v.toNat) 0 } }

/-- GRN_CNT_CLR (Table 07.11): the lowest value starts again from the present one. -/
def execGrnCntClr (v : Word) (a : Attr) (s : State) : Host.Outcome State Fault Refusal :=
  s.run fun h => h.busWrite GRN_CNT_CLR a fun h =>
    let h := if fld v.toNat 0 0 = 1 then h.wr GRN_FREE_MIN (h.rd GRN_FREE) else h
    let h := if fld v.toNat 1 1 = 1 then h.wr GRN_PUSH_CNT 0 else h
    if fld v.toNat 2 2 = 1 then h.wr GRN_ADMIT_DROP 0 else h

/-- LOFT_CNT_CLR (Table 07.13): the peak starts again from the present use. -/
def execLoftCntClr (v : Word) (a : Attr) (s : State) : Host.Outcome State Fault Refusal :=
  s.run fun h => h.busWrite LOFT_CNT_CLR a fun h =>
    if fld v.toNat 0 0 = 1 then h.wr LOFT_PEAK (h.rd LOFT_USED) else h

end Sys2Proof.Machine
end

