-- ==== Sys2Proof/Machine/Granary.lean ====
section
/-! DEFINITION. The Granary and the Loft (R279 to R292, R297): cells, descriptors, queues, admission, push-out, spill,
staging, and the release of what a queue link held. -/

namespace Sys2Proof.Machine

/-- A queue. -/
def Hw.queue (h : Hw) (q : Nat) : Queue := (find? h.sw.queues q).getD {}

/-- Replace a queue. -/
def Hw.setQueue (h : Hw) (q : Nat) (x : Queue) : Hw := { h with sw := { h.sw with queues := file h.sw.queues q x } }

/-- A frame descriptor. -/
def Hw.desc (h : Hw) (d : Nat) : Desc := (find? h.sw.descs d).getD { typ := 0 }

/-- Replace a descriptor. -/
def Hw.setDesc (h : Hw) (d : Nat) (x : Desc) : Hw := { h with sw := { h.sw with descs := file h.sw.descs d x } }

/-- Cells of a frame of `n` bytes (R279). -/
def cellsOf (n : Nat) : Nat := (n + 255) / 256

/-- Reserved cells of each queue of a class. -/
def Hw.clsRsv (h : Hw) (c : Nat) : Nat := h.get (GRN_CLS c) 11 0

/-- Size of the shared pool (R282). -/
def Hw.sharedFull (h : Hw) : Nat :=
  65536 - h.get GRN_HEADROOM 15 0 - h.get GRN_REFILL 15 0 - 40 * ((List.range 8).map h.clsRsv).sum

/-- Free shared cells. -/
def Hw.sharedFree (h : Hw) : Nat := h.sharedFull - h.sw.shared

/-- Free descriptors and free queue links (R280). -/
def Hw.freeDescs (h : Hw) : Nat := 32768 - h.sw.descs.length
def Hw.freeLinks (h : Hw) : Nat := 65536 - (h.sw.queues.map (fun q => q.2.links.length)).sum

/-- Loft frames and Granary frames of a queue (`GRN_QDATA1`). -/
def Hw.queueFrames (h : Hw) (q : Nat) : Nat × Nat :=
  (h.queue q).links.foldl (fun (s : Nat × Nat) d =>
    let x := h.desc d
    if x.typ = 1 then (s.1 + x.frames.length, s.2) else (s.1, s.2 + 1)) (0, 0)

/-- Loft blocks that a queue holds. -/
def Hw.queueBlocks (h : Hw) (q : Nat) : Nat := ((h.queue q).links.map (fun d => (h.desc d).blocks.length)).sum

/-- The least number of free cells since the last Dailies record (R642). -/
def Hw.noteFree (h : Hw) (n : Nat) : Hw := { h with hlt := { h.hlt with free := min h.hlt.free n } }

/-- The registers that show the use of the Granary and the Loft follow it, with the events DESC_LOW and SHARED_LOW when their
condition arises (R314, Tables 07.11 and 07.13). -/
def Hw.grnSync (h : Hw) : Hw :=
  let full := h.sharedFull
  let free := h.sharedFree
  let descs := h.freeDescs
  let floor := h.get GRN_DESC_FLOOR 14 0
  let wasFree := h.rd GRN_FREE
  let wasDesc := h.rd GRN_FREE_DESC
  let h := (h.wr GRN_FREE free).wr GRN_FREE_DESC descs
  let h := if free < h.rd GRN_FREE_MIN then h.wr GRN_FREE_MIN free else h
  let h := h.noteFree free
  let h := h.raiseIf (decide (floor < wasDesc) && decide (descs ≤ floor)) pgGRN 2
  let h := h.raiseIf (decide (full ≤ 16 * wasFree) && decide (16 * free < full)) pgGRN 3
  let used := h.sw.blocks.length
  let h := (h.wr LOFT_USED used).wr LOFT_RUNS (h.sw.descs.filter (fun d => decide (d.2.typ = 1))).length
  if used > h.rd LOFT_PEAK then h.wr LOFT_PEAK used else h

/-- The headroom pool has no room for a frame of `len` bytes, or every cell of the Granary is in use (R279, R283, R284). -/
def Hw.headroomFull (h : Hw) (len : Nat) : Bool :=
  decide (h.get GRN_HEADROOM 15 0 < h.sw.head + cellsOf len) || decide (65536 < h.sw.cells.length + cellsOf len)

/-- The first `n` numbers from `k` on that an ascending list leaves out. -/
def takeFree : List Nat → Nat → Nat → List Nat
  | [], k, n => (List.range n).map (· + k)
  | u :: t, k, n =>
    if u - k ≥ n then (List.range n).map (· + k)
    else (List.range (u - k)).map (· + k) ++ takeFree t (u + 1) (n - (u - k))

/-- The lowest number that no entry of a presence list has. -/
def freeKey {α : Type} (l : List (Nat × α)) : Nat := (takeFree (l.map (·.1)) 0 1).headD 0

/-- Cells are taken and hold the bytes of a frame; the rest of the last cell is 0. -/
def Hw.storeCells (h : Hw) (cs : List Nat) (bs : List Byte) : Hw :=
  let m := (cs.foldl (fun (s : Nat × Mem) c => (s.1 + 256, s.2.write (256 * c) (slice bs s.1 256))) (0, h.mem.cells)).2
  { h with mem := { h.mem with cells := m }, sw := { h.sw with cells := cs.foldl insertLine h.sw.cells } }

/-- Cells are free again. -/
def Hw.freeCells (h : Hw) (cs : List Nat) : Hw :=
  { h with sw := { h.sw with cells := h.sw.cells.filter (fun c => !cs.contains c) } }

/-- The bytes of a frame in the Granary. -/
def Hw.frameBytes (h : Hw) (d : Desc) : List Byte := (d.cells.flatMap (fun c => h.mem.cells.read (256 * c) 256)).take d.len

/-- A frame is written to cells and gets a descriptor. -/
def Hw.newFrame (h : Hw) (f : Desc) (bs : List Byte) : Nat × Hw :=
  let d := freeKey h.sw.descs
  let cs := takeFree h.sw.cells 0 (cellsOf f.len)
  (d, (h.storeCells cs bs).setDesc d { f with cells := cs })

/-- A descriptor goes to the tail of a queue. -/
def Hw.link (h : Hw) (q d : Nat) : Hw := h.setQueue q { h.queue q with links := (h.queue q).links ++ [d] }

/-- What a run holds returns: its blocks, its frames that still wait to be written and their headroom cells. -/
def Hw.freeRun (h : Hw) (d : Nat) : Hw :=
  let x := h.desc d
  let cs := x.frames.flatMap (fun f => f.cells)
  let h := h.freeCells cs
  { h with sw := { h.sw with
      head := h.sw.head - cs.length, blocks := h.sw.blocks.filter (fun b => !x.blocks.contains b),
      loftQ := h.sw.loftQ.filter (fun y => y != d), descs := unfile h.sw.descs d } }

/-- A queue's link to a frame goes (R297): the queue's counts fall; with the last link the frame's cells and descriptor
return to where they came from. -/
def Hw.unlink (h : Hw) (q d : Nat) : Hw :=
  let x := h.desc d
  let n := x.cells.length
  let o := h.queue q
  let o := { o with links := o.links.filter (fun y => y != d) }
  if x.typ = 1 then (h.setQueue q o).freeRun d
  else
    let h := h.setQueue q (if x.typ = 2 then o else if x.shr then { o with shr := o.shr - n } else { o with rsv := o.rsv - n })
    if 1 < x.ref then h.setDesc d { x with ref := x.ref - 1 }
    else
      let h := h.freeCells x.cells
      let sw := { h.sw with descs := unfile h.sw.descs d }
      { h with sw :=
          if x.typ = 2 then { sw with refill := sw.refill - n }
          else if x.shr then { sw with shared := sw.shared - n } else sw }

/-- A queue's link is dropped for the reason of counter `k` (a run counts each of its frames). -/
def Hw.dropLink (h : Hw) (q d k : Nat) : Hw :=
  let x := h.desc d
  (h.swCount 1 q k (if x.typ = 1 then x.frames.length else 1)).unlink q d

/-- The shared test of R284, `alpha` being 2^(ALPHA − 4). -/
def Hw.fits (h : Hw) (q c n : Nat) : Bool :=
  let free := h.sharedFree
  decide (n ≤ free) && decide (16 * ((h.queue q).shr + n) ≤ 2 ^ h.get (GRN_CLS c) 19 16 * free)

/-- A queue of a class comes earlier in the search of R285: most shared cells first, the lowest number on ties. -/
def Hw.insertByShr (h : Hw) (q : Nat) : List Nat → List Nat
  | [] => [q]
  | r :: t => if (h.queue r).shr < (h.queue q).shr then q :: r :: t else r :: h.insertByShr q t

/-- The queues of class `k` with shared cells, in the order of R285. -/
def Hw.shrQueues (h : Hw) (k : Nat) : List Nat :=
  (((List.range 40).map (fun p => 8 * p + k)).filter (fun q => decide (0 < (h.queue q).shr))).foldl
    (fun l q => h.insertByShr q l) []

/-- The frames that may be victims, in the order of the search: queue and descriptor. -/
def Hw.victims (h : Hw) (c : Nat) : List (Nat × Nat) :=
  (List.range c).flatMap (fun k => (h.shrQueues k).flatMap (fun q =>
    (((h.queue q).links.drop 1).reverse.filter (fun d =>
      let x := h.desc d
      decide (x.typ = 0) && x.shr && decide (x.ref = 1))).map (fun d => (q, d))))

/-- The frames chosen: the first of the candidates that together free `x` cells, at most 8. -/
def Hw.choose (h : Hw) (x : Nat) : Nat → List (Nat × Nat) → Nat → Option (List (Nat × Nat))
  | 0, _, _ => none
  | _, [], _ => none
  | k + 1, v :: t, got =>
    let got := got + (h.desc v.2).cells.length
    if x ≤ got then some [v] else (h.choose x k t got).map (fun l => v :: l)

/-- Push-out (R285): none where it frees too little, and then nothing is removed. -/
def Hw.pushOut (h : Hw) (q c n : Nat) : Option Hw :=
  let free := h.sharedFree
  let al := 2 ^ h.get (GRN_CLS c) 19 16
  let x := max (n - free) ((16 * ((h.queue q).shr + n) + al - 1) / al - free)
  match h.choose x 8 (h.victims c) 0 with
  | none => none
  | some l =>
    let h := l.foldl (fun (h : Hw) v => h.dropLink v.1 v.2 8) h
    some ((h.sat GRN_PUSH_CNT l.length).raise pgGRN 0)

/-- Size of a Loft record (Table 07.3). -/
def recordSize (len : Nat) : Nat := (16 + len + 31) / 32 * 32

/-- Bytes in the Loft write queue. -/
def Hw.loftQueued (h : Hw) : Nat :=
  (h.sw.descs.map (fun d => ((d.2.frames.filter (fun f => !f.written)).map (fun f => recordSize f.len)).sum)).sum

/-- Where the next record of a run goes: in its last block behind its last frame; none where it has no room. -/
def runRoom (x : Desc) (size : Nat) : Option (Nat × Nat) :=
  match x.frames.getLast? with
  | none => none
  | some f => let o := f.ofs + recordSize f.len; if o + size ≤ 65536 then some (f.block, o) else none

/-- Spill (R286, R289): none where R286 refuses it. The frame stays in headroom cells until its record is written. -/
def Hw.spill (h : Hw) (q : Nat) (f : Desc) (bs : List Byte) : Option Hw :=
  let size := recordSize f.len
  let tail := ((h.queue q).links.getLast?).filter (fun d => decide ((h.desc d).typ = 1))
  let room := tail.bind (fun d => runRoom (h.desc d) size)
  let blk := (takeFree h.sw.blocks 0 1).headD 0
  if !h.bit (CTRL pgLOFT) 0 || decide (h.get LOFT_QMAX 12 0 ≤ h.queueBlocks q) || decide (h.loftQueued + size > 65536) ||
      (room.isNone && decide (h.get LOFT_SIZE 12 0 ≤ blk)) || (tail.isNone && (h.freeDescs == 0 || h.freeLinks == 0)) then none
  else
    let cs := takeFree h.sw.cells 0 (cellsOf f.len)
    let h := h.storeCells cs bs
    let h := { h with sw := { h.sw with head := h.sw.head + cs.length } }
    let (b, o) := room.getD (blk, 0x20)
    let h := if room.isNone then { h with sw := { h.sw with blocks := insertLine h.sw.blocks b } } else h
    let rec_ : LoftFrame := { block := b, ofs := o, len := f.len, vid := f.vid, pcp := f.pcp, entered := f.entered, at_ := f.at_, cells := cs }
    let d := tail.getD (freeKey h.sw.descs)
    let x : Desc := if tail.isSome then h.desc d else { typ := 1, cls := f.cls, entered := f.entered, at_ := f.at_ }
    let h := h.setDesc d { x with
      blocks := if room.isNone then x.blocks ++ [b] else x.blocks
      frames := x.frames ++ [{ rec_ with stream := f.stream, bucket := f.bucket, recovered := f.recovered }] }
    let h := if tail.isNone then h.link q d else h
    let h := { h with sw := { h.sw with loftQ := h.sw.loftQ ++ [d] } }
    some ((h.swCount 1 q 9).raise pgLOFT 0)

/-- A port is held or flushed (R284, R298): by its link, or P36 to P39 because their block is disabled. -/
def Hw.portHeld (h : Hw) (p : Nat) : Bool :=
  decide (h.get (SWC_LINK p) 1 0 ≠ 0) ||
    (if p = 36 ∨ p = 37 then !h.bit (CTRL pgVPT) 0
     else if p = 38 then !h.bit (CTRL pgCEA) 0 && !h.bit (CTRL pgRIO) 0
     else if p = 39 then !h.bit (CTRL pgTUN) 0 else false)

/-- A frame takes cells of its own kind and its place on a queue. -/
def Hw.place (h : Hw) (q : Nat) (f : Desc) (bs : List Byte) (shr : Bool) : Hw :=
  let n := cellsOf f.len
  let (d, h) := h.newFrame { f with typ := 0, shr := shr, ref := 1 } bs
  let o := h.queue q
  let h := h.setQueue q (if shr then { o with shr := o.shr + n } else { o with rsv := o.rsv + n })
  let h := if shr then { h with sw := { h.sw with shared := h.sw.shared + n } } else h
  h.link q d

/-- A frame is dropped at admission for ADMIT or DESC. -/
def Hw.admitDrop (h : Hw) : Hw := (h.sat GRN_ADMIT_DROP).raise pgGRN 1

/-- Admission to one queue (R284). -/
def Hw.admitOne (h : Hw) (q : Nat) (f : Desc) (bs : List Byte) : Hw :=
  let c := f.cls
  let n := cellsOf f.len
  if h.portHeld (q / 8) then h.swCount 1 q 4
  else if (h.queue q).rsv + n ≤ h.clsRsv c then h.place q f bs false
  else if h.fits q c n then h.place q f bs true
  else
    match if 4 ≤ c ∧ h.bit (GRN_CLS c) 24 then h.pushOut q c n else none with
    | some h => h.place q f bs true
    | none =>
      if c ≤ 2 ∧ h.bit (GRN_CLS c) 25 then
        match h.spill q f bs with
        | some h => h
        | none => ((h.raise pgLOFT 1).swCount 1 q 2).admitDrop
      else (h.swCount 1 q 2).admitDrop

/-- Admission to several queues (R284), all judged against the same free cells. -/
def Hw.admitMany (h : Hw) (qs : List Nat) (f : Desc) (bs : List Byte) : Hw :=
  let n := cellsOf f.len
  let live := qs.filter (fun q => !h.portHeld (q / 8))
  let good := live.filter (fun q => h.fits q f.cls n)
  let h' := (qs.filter (fun q => h.portHeld (q / 8))).foldl (fun (x : Hw) q => x.swCount 1 q 4) h
  let bad := live.filter (fun q => !h.fits q f.cls n)
  let h' := bad.foldl (fun (x : Hw) q => x.swCount 1 q 2) h'
  let h' := if bad.isEmpty then h' else h'.admitDrop
  if good.isEmpty then h'
  else
    let (d, h') := h'.newFrame { f with typ := 0, shr := true, ref := good.length } bs
    let h' := { h' with sw := { h'.sw with shared := h'.sw.shared + n } }
    good.foldl (fun (x : Hw) q => (x.setQueue q { x.queue q with shr := (x.queue q).shr + n }).link q d) h'

/-- Admission (R284) of a frame for the queues `qs`. -/
def Hw.entered (h : Hw) (qs : List Nat) (f : Desc) (bs : List Byte) : Hw :=
  let floor := h.get GRN_DESC_FLOOR 14 0
  if (decide (f.cls < 4) && (decide (h.freeDescs ≤ floor) || decide (h.freeLinks ≤ 2 * floor))) ||
      h.freeDescs == 0 || decide (h.freeLinks < qs.length) then
    (qs.foldl (fun (x : Hw) q => x.swCount 1 q 3) h).admitDrop
  else
    match qs with
    | [] => h
    | [q] => h.admitOne q f bs
    | qs => h.admitMany qs f bs

/-- The offset in T1 of a Loft block (R287). -/
def Hw.loftOfs (h : Hw) (b : Nat) : Nat :=
  2 ^ 32 * h.get LOFT_BASE_HI 7 0 + 0x1_0000 * h.get LOFT_BASE_LO 31 16 + b * 0x1_0000 - 0x08_0000_0000

/-- Bytes stored in T1. -/
def Hw.t1Write (h : Hw) (o : Nat) (bs : List Byte) : Hw := h.spaceWrite .t1 o bs

/-- A little-endian word of T1. -/
def Hw.t1Word (h : Hw) (o : Nat) : Nat := leNat ((List.range 4).map (fun i => h.t1Byte (o + i)))

/-- A Loft record and its block's header (Table 07.3); a first record also links the block before it. -/
def Hw.writeRecord (h : Hw) (q : Nat) (x : Desc) (f : LoftFrame) : Hw :=
  let bs := (f.cells.flatMap (fun c => h.mem.cells.read (256 * c) 256)).take f.len
  let base := h.loftOfs f.block
  let size := recordSize f.len
  let sw := match f.stream with | some e => 0x8000_0000 + e | none => 0
  let frames := if f.ofs = 0x20 then 1 else h.t1Word (base + 8) % 0x1_0000 + 1
  let next := if f.ofs = 0x20 then 0 else h.t1Word base
  let h := h.t1Write base (wordBytes [next, q, frames, f.ofs + size, 0, 0, 0, 0])
  let h := h.t1Write (base + f.ofs)
    (slice (wordBytes [x.cls * 0x1_0000 + f.len, f.entered, sw, 0] ++ bs) 0 size)
  match (x.blocks.takeWhile (fun b => b != f.block)).getLast? with
  | some p => if f.ofs = 0x20 then h.t1Write (h.loftOfs p) (leBytes 4 (0x8000_0000 + f.block)) else h
  | none => h

/-- The queue that a descriptor stands on. -/
def Hw.queueOf (h : Hw) (d : Nat) : Nat := ((h.sw.queues.find? (fun q => q.2.links.contains d)).map (·.1)).getD 0

/-- LOFT_WRITE_DONE (R286): the oldest frame of the write queue is in the Loft, its headroom cells return. -/
def execLoftWriteDone (s : State) : Host.Outcome State Fault Refusal :=
  s.run fun h =>
    match h.sw.loftQ with
    | [] => h
    | d :: t =>
      let x := h.desc d
      match x.frames.find? (fun f => !f.written) with
      | none => { h with sw := { h.sw with loftQ := t } }
      | some f =>
        let h := (h.writeRecord (h.queueOf d) x f).freeCells f.cells
        let fs := x.frames.map (fun (g : LoftFrame) =>
          if g.block = f.block ∧ g.ofs = f.ofs then { g with written := true, cells := [] } else g)
        let h := h.setDesc d { x with frames := fs }
        ({ h with sw := { h.sw with loftQ := t, head := h.sw.head - f.cells.length } }).grnSync

/-- The descriptors of a queue behind which staging may work: the first run with at most 2 other frames before it, staged
ones apart (R291). -/
def Hw.stageable (h : Hw) (q : Nat) : Option Nat :=
  let ls := (h.queue q).links
  let before := ls.takeWhile (fun d => decide ((h.desc d).typ ≠ 1))
  if (before.filter (fun d => decide ((h.desc d).typ = 0))).length ≤ 2 then ls[before.length]? else none

/-- A frame leaves a run, whose blocks without frames return; an empty run goes from its queue. -/
def Hw.runTake (h : Hw) (q d : Nat) (fs : List LoftFrame) : Hw :=
  let x := h.desc d
  let keep := x.blocks.filter (fun b => fs.any (fun f => decide (f.block = b)))
  let gone := x.blocks.filter (fun b => !keep.contains b)
  let h := { h with sw := { h.sw with blocks := h.sw.blocks.filter (fun b => !gone.contains b) } }
  let h := h.setDesc d { x with blocks := keep, frames := fs, entered := (fs.head?.map (·.entered)).getD x.entered, at_ := (fs.head?.map (·.at_)).getD x.at_ }
  if fs.isEmpty then h.unlink q d else h

/-- A link is put before another in a queue. -/
def insertBefore (d x : Nat) : List Nat → List Nat
  | [] => [x]
  | y :: t => if y = d then x :: y :: t else y :: insertBefore d x t

/-- What LOFT_STAGE does (R291, R292): the oldest frame of the queue's first run moves to refill cells, when it is written, when at
most 16 KiB of the queue is staged with it, and while refill cells are free. -/
def Hw.loftStage (h : Hw) (q : Nat) (e : LoftRead) : Hw :=
    match h.stageable q with
    | none => h
    | some d =>
      let x := h.desc d
      match x.frames with
      | [] => h
      | f :: t =>
        let n := cellsOf f.len
        let staged := ((h.queue q).links.map (fun y => if (h.desc y).typ = 2 then (h.desc y).len else 0)).sum
        if !f.written || decide (staged + f.len > 16384) || decide (h.get GRN_REFILL 15 0 < h.sw.refill + n) ||
            decide (65536 < h.sw.cells.length + n) || h.freeDescs == 0 || h.freeLinks == 0 then h
        else
          match e with
          | .frameError => (((h.swCount 1 q 12).raise pgLOFT 3).runTake q d t).grnSync
          | .headerError =>
            (((h.swCount 1 q 12 x.frames.length).raise pgLOFT 3).unlink q d).grnSync
          | .good =>
            let o := h.loftOfs f.block + f.ofs + 16
            let bs := (List.range f.len).map (fun i => h.t1Byte (o + i))
            let (y, h) := h.newFrame { typ := 2, len := f.len, stream := f.stream, cls := x.cls, entered := f.entered, at_ := f.at_, vid := f.vid, pcp := f.pcp, bucket := f.bucket, recovered := f.recovered } bs
            let h := h.setQueue q { h.queue q with links := insertBefore d y (h.queue q).links }
            let h := { h with sw := { h.sw with refill := h.sw.refill + n } }
            (h.runTake q d t).grnSync

end Sys2Proof.Machine
end

