-- ==== Sys2Proof/Machine/Msec.lean ====
section
/-! DEFINITION. MACsec on P0 to P11 (R344 to R351, R362): secure channels and associations, protection and validation of
frames with GCM-AES-256-XPN (IEEE 802.1AE). -/

namespace Sys2Proof.Machine

/-- Key of a word of an SC (table 0) or SA (table 1). -/
def secKey (t i w : Nat) : Nat := t * 2 ^ 16 + i * 8 + w

/-- A word of an SC or SA entry. -/
def Hw.sec (h : Hw) (t i w : Nat) : Nat := h.sw.msec.get (secKey t i w)

/-- Set a word of an SC or SA entry. -/
def Hw.setSec (h : Hw) (t i w v : Nat) : Hw := { h with sw := { h.sw with msec := h.sw.msec.set (secKey t i w) v } }

/-- Entries of a MACsec table. -/
def secSize (t : Nat) : Nat := if t = 0 then 216 else if t = 1 then 432 else 0

/-- The bits that an entry word takes from a write (Table 08.4). -/
def secMask (t w : Nat) : Nat :=
  if t = 0 then (if w < 2 then 0xFFFF_FFFF else if w = 2 then 0xF80F_0FFF else 0)
  else if w = 0 then 0xB0FF_00FF else if w < 7 then 0xFFFF_FFFF else 0

/-- The SCs in use, ascending, of a port and a direction. -/
def Hw.scsOf (h : Hw) (p dir : Nat) : List Nat :=
  (List.range 216).filter (fun i =>
    let w := h.sec 0 i 2
    decide (fld w 31 31 = 1) && decide (fld w 30 30 = dir) && decide (fld w 19 16 = p))

/-- The SAs in use of an SC. -/
def Hw.sasOf (h : Hw) (sc : Nat) : List Nat :=
  (List.range 432).filter (fun i => decide (fld (h.sec 1 i 0) 31 31 = 1) && decide (fld (h.sec 1 i 0) 7 0 = sc))

/-- The slot permits MACsec: an AES-256 key for GCM by the MSEC's group, in the Secure world of its master (R347, R555). -/
def Hw.sakOk (h : Hw) (slot : Nat) : Bool := h.keyUse slot 3 (some 3) true && decide (h.keyType slot = 1)

/-- The error code of a write of an SC or SA whose words `f` gives; none where it is accepted (R345 to R347). -/
def Hw.secRefuses (h : Hw) (t i : Nat) (f : Nat → Nat) : Option Nat :=
  if t = 0 then
    let w := f 2
    if fld w 31 31 = 0 then none
    else if 11 < fld w 19 16 then some 0x0103
    else
      let others := (h.scsOf (fld w 19 16) (fld w 30 30)).filter (fun j => j != i)
      if others.length ≥ (if fld w 30 30 = 1 then 2 else 16) then some 0x0103 else none
  else
    let w := f 0
    if !h.sakOk (fld w 23 16) then some 0x0102
    else if 215 < fld w 7 0 then some 0x0103
    else if fld w 31 31 = 0 then none
    else
      let others := (h.sasOf (fld w 7 0)).filter (fun j => j != i)
      if others.any (fun j => decide (fld (h.sec 1 j 0) 29 28 = fld w 29 28)) || decide (2 ≤ others.length) then some 0x0103
      else none

/-- A command of the MSEC (R362). -/
def Hw.msecCommand (h : Hw) (op : Nat) (v : Word) (a : Attr) (f : Nat → Nat → Hw → Nat × Nat × Hw) : Hw :=
  h.tableCommand MSEC_CMD op v.toNat a secSize f

/-- MSEC_READ (R346). -/
def execMsecRead (v : Word) (a : Attr) (s : State) : Host.Outcome State Fault Refusal :=
  s.run fun h => h.msecCommand 1 v a fun t i h => (0, i, each 8 (fun w (h : Hw) => h.wr (MSEC_DATA w) (h.sec t i w)) h)

/-- MSEC_WRITE (R346, R347): `REVOKED` and the two counts are the MSEC's own. -/
def execMsecWrite (v : Word) (a : Attr) (s : State) : Host.Outcome State Fault Refusal :=
  s.run fun h =>
    let t := fld v.toNat 23 22
    let i := fld v.toNat 13 0
    match if i < secSize t && !h.tableBusy MSEC_CMD then h.secRefuses t i (fun w => h.rd (MSEC_DATA w)) else none with
    | some e => h.busWrite MSEC_CMD a (fun h => h.refuse MSEC_CMD e a)
    | none =>
      h.msecCommand 2 v a fun t i h =>
        (0, i, each 7 (fun w (h : Hw) => h.setSec t i w (h.rd (MSEC_DATA w) &&& secMask t w)) h)

/-- MSEC_DELETE (R346). -/
def execMsecDelete (v : Word) (a : Attr) (s : State) : Host.Outcome State Fault Refusal :=
  s.run fun h => h.msecCommand 4 v a fun t i h => (0, i, each 8 (fun w (h : Hw) => h.setSec t i w 0) h)

/-- The SAs of revoked slots are marked (R348). -/
def Hw.msecKeysRevoked (h : Hw) (slots : List Nat) : Hw :=
  let l := (List.range 432).filter (fun i =>
    let w := h.sec 1 i 0
    decide (fld w 31 31 = 1) && decide (fld w 27 27 = 0) && slots.contains (fld w 23 16))
  if l.isEmpty then h
  else (l.foldl (fun (h : Hw) i => h.setSec 1 i 0 (setFld (h.sec 1 i 0) 27 27 1)) h).raise pgMSEC 4

/-- An SA protects and accepts: in use, not revoked, its key still permitted (R348). -/
def Hw.saUsable (h : Hw) (i : Nat) : Bool :=
  let w := h.sec 1 i 0
  decide (fld w 31 31 = 1) && decide (fld w 27 27 = 0) && h.sakOk (fld w 23 16)

/-- `PN` of an SA. -/
def Hw.saPn (h : Hw) (i : Nat) : Nat := h.sec 1 i 5 + 2 ^ 32 * h.sec 1 i 6

/-- Set `PN` of an SA. -/
def Hw.setSaPn (h : Hw) (i pn : Nat) : Hw := (h.setSec 1 i 5 (pn % 2 ^ 32)).setSec 1 i 6 (pn / 2 ^ 32 % 2 ^ 32)

/-- The SAK of an SA. -/
def Hw.sak (h : Hw) (i : Nat) : List Byte := h.keyBytes (fld (h.sec 1 i 0) 23 16)

/-- The initial value of GCM-AES-XPN: salt XOR (SSCI ‖ PN). -/
def Hw.xpnIv (h : Hw) (i pn : Nat) : List Byte :=
  xorBytes (beBytes 12 (h.sec 1 i 2 + 2 ^ 32 * h.sec 1 i 3 + 2 ^ 64 * h.sec 1 i 4)) (beBytes 4 (h.sec 1 i 1) ++ beBytes 8 pn)

/-- The port runs MACsec. -/
def Hw.msecOn (h : Hw) (p : Nat) : Bool := decide (p < 12) && h.bit (MSEC_PORT p) 31

/-- A frame's EtherType is a bypass EtherType (R350). -/
def Hw.msecBypass (h : Hw) (typ : Nat) : Bool :=
  let x := h.get MSEC_BYPASS 31 16
  let y := h.get MSEC_BYPASS 15 0
  (x != 0 && x == typ) || (y != 0 && y == typ)

/-- The SC that transmits a frame of a VID on a port (R345). -/
def Hw.txSc (h : Hw) (p vid : Nat) : Option Nat :=
  let l := h.scsOf p 1
  match l.find? (fun i => decide (fld (h.sec 0 i 2) 27 27 = 1) && decide (fld (h.sec 0 i 2) 11 0 = vid)) with
  | some i => some i
  | none => l.find? (fun i => decide (fld (h.sec 0 i 2) 27 27 = 0))

/-- The SA that transmits for an SC. -/
def Hw.txSa (h : Hw) (sc : Nat) : Option Nat :=
  (h.sasOf sc).find? (fun i => decide (fld (h.sec 1 i 0) 29 28 = fld (h.sec 0 sc 2) 29 28))

/-- The expansion `E` of R350 for a frame with EtherType `typ`. -/
def Hw.msecExpansion (h : Hw) (p typ : Nat) : Nat :=
  if !h.msecOn p || h.msecBypass typ then 0 else if h.bit (MSEC_PORT p) 27 then 32 else 24

/-- A frame (without FCS) protected for a port: none where it is dropped for want of an SA (R348, R349); else the bytes and
the SA used. `other` is the SA of a preempted frame whose PN is not yet counted. -/
def Hw.msecProtect (h : Hw) (p vid : Nat) (other : Option Nat) (b : List Byte) : Option (List Byte × Option Nat) :=
  if !h.msecOn p || h.msecBypass (beNat (slice b 12 2)) then some (b, none)
  else
    match (h.txSc p vid).bind (fun sc => (h.txSa sc).map (fun i => (sc, i))) with
    | none => none
    | some (sc, i) =>
      let pn := h.saPn i + (if other = some i then 1 else 0)
      if !h.saUsable i || decide (2 ^ 64 - 1 ≤ pn) then none
      else
        let conf := h.bit (MSEC_PORT p) 28
        let incl := h.bit (MSEC_PORT p) 27
        let tci := (if incl then 0x20 else 0) + (if conf then 0x0C else 0) + fld (h.sec 1 i 0) 29 28
        let data := b.drop 12
        let sl := if data.length < 48 then data.length else 0
        let tag := beBytes 2 0x88E5 ++ beBytes 1 tci ++ beBytes 1 sl ++ beBytes 4 pn ++
          (if incl then beBytes 4 (h.sec 0 sc 1) ++ beBytes 4 (h.sec 0 sc 0) else [])
        let head := b.take 12 ++ tag
        let iv := h.xpnIv i pn
        let key := h.sak i
        if conf then
          let ct := gcmCrypt key iv data
          some (head ++ ct ++ gcmTag key iv head ct, some i)
        else some (head ++ data ++ gcmTag key iv (head ++ data) [], some i)

/-- A frame protected by an SA has gone out: its PN is used (R349). -/
def Hw.pnUsed (h : Hw) (i : Nat) : Hw :=
  let pn := h.saPn i + 1
  if 2 ^ 64 ≤ pn then h
  else
    let h := h.setSaPn i pn
    let h := h.raiseIf (decide (pn = 0xC000_0000_0000_0000)) pgMSEC 0
    h.raiseIf (decide (pn = 0xFFFF_FFFF_FFFF_FFFF)) pgMSEC 1

/-- The upper half of a received PN, from the lowest acceptable one. -/
def xpnRecover (low pn32 : Nat) : Nat :=
  let up := low / 2 ^ 32
  (if fld low 31 31 = 1 ∧ fld pn32 31 31 = 0 then (up + 1) % 2 ^ 32 else up) * 2 ^ 32 + pn32

/-- The receive SC that a SecTAG names on a port: by its SCI, by the source address of an end station, or the only one. -/
def Hw.rxSc (h : Hw) (p tci : Nat) (b : List Byte) : Option Nat :=
  let l := h.scsOf p 0
  let is := fun (sci : Nat) (i : Nat) => decide (h.sec 0 i 0 + 2 ^ 32 * h.sec 0 i 1 = sci)
  if fld tci 5 5 = 1 then l.find? (is (beNat (slice b 20 8)))
  else if fld tci 6 6 = 1 then l.find? (is (beNat (slice b 6 6) * 0x1_0000 + 1))
  else l.head?

/-- Add 1 to a 16-bit saturating count in word 7 of an SA. -/
def Hw.saCount (h : Hw) (i hi lo : Nat) : Hw :=
  let w := h.sec 1 i 7
  h.setSec 1 i 7 (setFld w hi lo (min 0xFFFF (fld w hi lo + 1)))

/-- A frame (without FCS) validated on a port (R351): none where it is dropped, else what goes on. -/
def Hw.msecValidate (h : Hw) (p : Nat) (b : List Byte) : Option (List Byte) × Hw :=
  let mode := h.get (MSEC_PORT p) 30 29
  let typ := beNat (slice b 12 2)
  if !h.msecOn p || h.msecBypass typ then (some b, h)
  else if typ ≠ 0x88E5 then (if 2 ≤ mode then (none, h) else (some b, h))
  else
    let tci := (slice b 14 1).headD 0
    let hdr := if fld tci.toNat 5 5 = 1 then 28 else 20
    let sl := fld (beNat (slice b 15 1)) 5 0
    let rest := b.drop hdr
    let n := if sl = 0 then rest.length - 16 else sl
    let data := slice rest 0 n
    let icv := slice rest n 16
    let enc := decide (fld tci.toNat 3 3 = 1)
    let plain := if enc then none else some (b.take 12 ++ data)
    if fld tci.toNat 7 7 = 1 ∨ rest.length < 16 + n then (none, h)
    else if mode = 0 then (plain, h)
    else
      match (h.rxSc p tci.toNat b).bind (fun sc => (h.sasOf sc).find? (fun i => decide (fld (h.sec 1 i 0) 29 28 = fld tci.toNat 1 0))) with
      | none => (if 2 ≤ mode then none else plain, h)
      | some i =>
        if !h.saUsable i then (none, h)
        else
          let low := h.saPn i
          let pn := xpnRecover low (beNat (slice b 16 4))
          if pn < low then (none, (h.saCount i 31 16).raise pgMSEC 2)
          else
            let key := h.sak i
            let iv := h.xpnIv i pn
            let head := b.take hdr
            let tag := if enc then gcmTag key iv head data else gcmTag key iv (head ++ data) []
            if tag = icv then
              let win := h.get (MSEC_PORT p) 23 0
              let h := h.setSaPn i (max low (pn + 1 - win))
              (some (b.take 12 ++ (if enc then gcmCrypt key iv data else data)), h)
            else
              let h := h.saCount i 15 0
              if 2 ≤ mode then (none, h.raise pgMSEC 3) else (plain, h)

end Sys2Proof.Machine
end

