-- ==== Sys2Proof/Machine/Egress.lean ====
section
/-! DEFINITION. Egress (R293 to R297, R320, R328 to R343): gates and horizons, credit-based shapers, ripening, selection,
preemption, the transmit opportunity, and the end of a frame. -/

namespace Sys2Proof.Machine

/-- A port. -/
def Hw.port (h : Hw) (p : Nat) : PortSt := (find? h.sw.ports p).getD {}

/-- Replace a port. -/
def Hw.setPort (h : Hw) (p : Nat) (x : PortSt) : Hw := { h with sw := { h.sw with ports := file h.sw.ports p x } }

/-- Add to a counter of Table 08.9. -/
def Hw.ethCount (h : Hw) (p k : Nat) (n : Nat := 1) : Hw :=
  if p < 36 then { h with sw := { h.sw with eth := h.sw.eth.bump (p * 32 + k) n } } else h

/-- Rate of a port in kbit/s (Table 07.1; R339 for the reduced rates). -/
def Hw.portRate (h : Hw) (p : Nat) : Nat :=
  if p < 4 then
    (match h.get (ETH_CFG p) 26 24 with
      | 2 => 5_000_000
      | 3 => 2_500_000
      | _ => 10_000_000)
  else if p < 12 then 1_000_000
  else if p < 28 then 100_000
  else if p < 36 then 10_000
  else if p < 38 then 25_000_000
  else 10_000_000

/-- The gate of a class is open (R331; P36 to P39 have none). -/
def Hw.gateIsOpen (h : Hw) (p c : Nat) : Bool := decide (36 ≤ p) || h.bit (ETH_GATE p) c

/-- A class is scheduled (R294). -/
def Hw.scheduled (h : Hw) (p c : Nat) : Bool := h.bit (SWC_LINK p) (8 + c)

/-- A class is marked preemptable and not scheduled (R340). -/
def Hw.classMarked (h : Hw) (p c : Nat) : Bool := decide (p < 12) && h.bit (ETH_PMAC p) c && !h.scheduled p c

/-- Preemption is active (R341). -/
def Hw.preemptOn (h : Hw) (p : Nat) : Bool :=
  decide (p < 12) && h.bit (ETH_PMAC p) 31 && (h.get (ETH_PMAC p) 10 8 == 2 || h.get (ETH_PMAC p) 10 8 == 4)

/-- A class is preemptable (R340). -/
def Hw.preemptable (h : Hw) (p c : Nat) : Bool := h.preemptOn p && h.classMarked p c

/-- HOLD holds a class (R342). -/
def Hw.isHeldClass (h : Hw) (p c : Nat) : Bool := (h.port p).hold && h.classMarked p c

/-- The credit-based shaper of CL4 or CL5 is on. -/
def Hw.cbsOn (h : Hw) (p c : Nat) : Bool := decide (p < 36) && (c == 4 || c == 5) && h.bit (ETH_CBS p (c - 4)) 31

/-- Credit of a class. -/
def PortSt.credit (x : PortSt) (c : Nat) : Int := if c = 4 then x.credit4 else x.credit5

/-- A shaper's credit brought to the present (R337, R338). -/
def Hw.creditNow (h : Hw) (p c : Nat) : Int :=
  let x := h.port p
  let d : Int := ((h.now - x.creditAt : Nat) : Int)
  let cr := x.credit c
  let idle : Int := ((320 * h.get (ETH_CBS p (c - 4)) 23 0 : Nat) : Int)
  let sending := match x.tx with | some t => decide (t.cls = c) | none => false
  let waits := !(h.queue (8 * p + c)).links.isEmpty
  if !h.cbsOn p c then 0
  else if !h.gateIsOpen p c || h.isHeldClass p c then cr
  else if sending then cr + (idle - ((5 * h.portRate p : Nat) : Int)) * d
  else if waits && x.tx.isSome then cr + idle * d
  else if cr < 0 then min 0 (cr + idle * d) else cr

/-- The head frame of a class is in the Granary, or staged from the Loft (R291). -/
def Hw.staged (h : Hw) (p c : Nat) : Bool :=
  match (h.queue (8 * p + c)).links with
  | d :: _ => (h.desc d).typ != 1
  | [] => false

/-- A class among CL0 to CL7 is eligible (R293). -/
def Hw.eligible (h : Hw) (p c : Nat) : Bool :=
  h.staged p c && h.gateIsOpen p c && !h.portHeld p && (!h.cbsOn p c || decide (0 ≤ (h.port p).credit c))

/-- The cycles for which a shaped class that waited for its credit has been eligible since the port was last brought to the present
(R295, R337): from the cycle at which its credit has reached 0. -/
def Hw.creditWait (h : Hw) (p c : Nat) : Nat :=
  let x := h.port p
  let idle := 320 * h.get (ETH_CBS p (c - 4)) 23 0
  let sending := match x.tx with | some t => decide (t.cls = c) | none => false
  if !h.cbsOn p c || decide (0 ≤ x.credit c) || sending || !h.staged p c || !h.gateIsOpen p c || h.isHeldClass p c || h.portHeld p || idle == 0 then 0
  else h.now - x.creditAt - ((x.credit c).natAbs + idle - 1) / idle

/-- The credits and ages of a port are brought to the present. -/
def Hw.touch (h : Hw) (p : Nat) : Hw :=
  let x := h.port p
  let age := x.since.foldl (fun (t : Tab) e => t.set e.1 (t.get e.1 + (h.now - e.2))) x.age
  let age := [4, 5].foldl (fun (t : Tab) c => t.set c (t.get c + h.creditWait p c)) age
  let y := { x with credit4 := h.creditNow p 4, credit5 := h.creditNow p 5, creditAt := h.now, age := age, since := x.since.map (fun e => (e.1, h.now)) }
  let h := h.setPort p y
  if p < 36 then
    (h.wr (ETH_CREDIT p 0) (unsgn 32 (divZ y.credit4 6_000_000))).wr (ETH_CREDIT p 1) (unsgn 32 (divZ y.credit5 6_000_000))
  else h

/-- After a change of a port: a positive credit of an empty queue is 0 (R337), and the classes whose age counts are those
eligible and not being sent (R295). -/
def Hw.settle (h : Hw) (p : Nat) : Hw :=
  let x := h.port p
  let zero := fun (c : Nat) (cr : Int) => if (h.queue (8 * p + c)).links.isEmpty && decide (0 < cr) then 0 else cr
  let h := h.setPort p { x with credit4 := zero 4 x.credit4, credit5 := zero 5 x.credit5 }
  let cls := fun (c : Nat) => match x.tx with | some t => decide (t.cls = c) | none => false
  let l := ((List.range 6).filter (fun c => h.eligible p c && !cls c)).map (fun c => (c, h.now))
  h.setPort p { h.port p with since := l }

/-- A class is ripe (R295). -/
def Hw.ripe (h : Hw) (p c : Nat) : Bool :=
  decide (c < 6) && h.get (SWC_RIPEN c) 15 0 != 0 &&
    decide (1200 * h.get (SWC_RIPEN c) 15 0 ≤ (h.port p).age.get c)

/-- The slot's advance per ns at its present rate, slew included, as a fraction: units of 2^−24 tick. -/
def Hw.slotSpeed (h : Hw) (n : Nat) : Nat × Nat :=
  let t := h.slot n
  let ppm : Int := if h.slotCorr n = 0 then 0 else if h.slotCorr n < 0 then -(t.ppm : Int) else (t.ppm : Int)
  (tickUnit * (((2 ^ 32 : Nat) : Int) + sgn 32 (h.rd (TCU_RATE n))).toNat * (1_000_000 + ppm).toNat,
    h.tickNs n * 2 ^ 32 * 1_000_000)

/-- Time until a slot has advanced by `d`, in units of 2^−24 ns; none for a slot that stands. -/
def Hw.slotTime (h : Hw) (n d : Nat) : Option Nat :=
  let r := h.slotSpeed n
  if !(h.slot n).run || r.1 == 0 then none else some (d * r.2 * 2 ^ 24 / r.1)

/-- A GATE cue ahead: port, state, slot, instant, and the time until it in units of 2^−24 ns. -/
structure GateAhead where
  port : Nat
  state : Nat
  slot : Nat
  at_ : Nat
  time : Nat
deriving DecidableEq, Repr

/-- The first instant after the slot value `lo` of a GATE entry of a slot that fires. -/
def Hw.gateAhead (h : Hw) (e : CueWord) (lo : Nat) : Option GateAhead :=
  let n := cueTc e
  let i := nextInstant e lo
  if decide (cueFld e 127 127 = 1) && decide (cueAction e = 0x10) && h.slotFires n && decide (lo < i) then
    match h.slotTime n (i - h.slotVal n) with
    | some t => some { port := fld (cueArg e) 21 16, state := fld (cueArg e) 7 0, slot := n, at_ := i, time := t }
    | none => none
  else none

/-- The GATE cues of the next 10 ms (R332): the active half up to a pending swap boundary, the shadow half after it. -/
def Hw.gatesAhead (h : Hw) : List GateAhead :=
  let near := fun (g : GateAhead) => decide (g.time ≤ 10_000_000 * 2 ^ 24)
  let act := (h.half h.activeHalf).filterMap (fun e => h.gateAhead e.2 (h.slotVal (cueTc e.2)))
  match h.cue.swap with
  | none => act.filter near
  | some (tc, b) =>
    match h.slotTime tc (b - h.slotVal tc) with
    | none => act.filter near
    | some tb =>
      let sh := (h.half (1 - h.activeHalf)).filterMap (fun e =>
        let n := cueTc e.2
        let r := h.slotSpeed n
        let lo := if n = tc then b else h.slotVal n + (if r.2 = 0 then 0 else tb * r.1 / (r.2 * 2 ^ 24))
        h.gateAhead e.2 lo)
      ((act.filter (fun g => decide (g.time ≤ tb))) ++ sh).filter near

/-- The earliest GATE cue ahead that closes a class of a port. -/
def horizonOf (l : List GateAhead) (p c : Nat) : Option (Nat × Nat) :=
  ((l.filter (fun g => decide (g.port = p) && decide (fld g.state c c = 0))).foldl
    (fun (b : Option GateAhead) g => match b with
      | none => some g
      | some x => if g.time < x.time then some g else some x) none).map (fun g => (g.slot, g.at_))

/-- The horizons are renewed (R332), and `HORIZON_V` shows whether an open class has one. -/
def Hw.renewHorizons (h : Hw) : Hw :=
  let l := h.gatesAhead
  each 36 (fun p (h : Hw) =>
    let hz := (List.range 8).filterMap (fun c => (horizonOf l p c).map (fun x => (c, x)))
    if hz.isEmpty && (h.port p).horizon.isEmpty then h
    else (h.setPort p { h.port p with horizon := hz }).putBit (ETH_GATE p) 31 (hz.any (fun e => h.bit (ETH_GATE p) e.1))) h

/-- A frame of `bytes` on the wire, preamble and gap included, ends with its guard before the class's horizon (R333). -/
def Hw.beforeHorizon (h : Hw) (p c bytes : Nat) : Bool :=
  match find? (h.port p).horizon c with
  | none => true
  | some (n, i) =>
    let now := h.slotVal n
    let r := h.slotSpeed n
    if i ≤ now || !(h.slot n).run then true
    else
      let rate := h.portRate p
      decide ((bytes * 8 * 1_000_000 + h.get (ETH_GUARD p) 15 0 * rate) * r.1 ≤ (i - now) * r.2 * rate)

/-- The VLAN entry's untag set holds a port (R307). -/
def Hw.untags (h : Hw) (vid p : Nat) : Bool :=
  decide (fld (if p < 32 then h.fdb 1 vid 2 else h.fdb 1 vid 3) (p % 32) (p % 32) = 1)

/-- A frame's bytes without FCS as a port sends them (R277, R311): the stored tag goes, the R-TAG of a recovered stream goes
unless the port keeps it, and the VLAN's tag comes unless the port is in its untag set; a PTP message stays as it is; at least 60 bytes. -/
def Hw.egressBytes (h : Hw) (p : Nat) (d : Desc) (stored : List Byte) : List Byte :=
  let b := stored.take (d.len - 4)
  let tagged := decide (beNat (slice b 12 2) = 0x8100)
  let dei := if tagged then fld (beNat (slice b 14 2)) 12 12 else 0
  let rest := b.drop (if tagged then 16 else 12)
  let rest := if d.recovered && !h.bit (SWC_PORT p) 26 && decide (beNat (slice rest 0 2) = 0xF1C1) then rest.drop 6 else rest
  let tag := if h.untags d.vid p then [] else beBytes 2 0x8100 ++ beBytes 2 (d.pcp * 0x2000 + dei * 0x1000 + d.vid)
  let l := if d.own then b else b.take 12 ++ tag ++ rest
  l ++ List.replicate (60 - l.length) 0

/-- One bit of the Ethernet CRC-32 is that of `crcBit` with the reflected polynomial 0xEDB88320. -/
def fcs (b : List Byte) : List Byte :=
  leBytes 4 ((b.foldl (fun c x => crcBits 0xEDB88320 8 (c ^^^ x.toNat)) 0xFFFF_FFFF) ^^^ 0xFFFF_FFFF)

/-- Length of the minimum first fragment, preamble apart (R343). -/
def Hw.minFragment (h : Hw) (p : Nat) : Nat := 64 * (1 + h.get (ETH_PMAC p) 25 24)

/-- The port may start (or resume) the head of a class now. `express` asks for a class that passes a preemptable frame. -/
def Hw.mayStart (h : Hw) (p c : Nat) : Bool :=
  match (h.queue (8 * p + c)).links with
  | [] => false
  | d :: _ =>
    let x := h.desc d
    let b := h.egressBytes p x (h.frameBytes x)
    let len := b.length + 4 + h.msecExpansion p (beNat (slice b 12 2))
    let bytes := if h.preemptable p c then 8 + (h.minFragment p + 8) + 12 else 8 + len + 12
    h.gateIsOpen p c && (!h.cbsOn p c || decide (0 ≤ (h.port p).credit c)) && !h.isHeldClass p c &&
      (match (h.port p).pre with | some f => !h.preemptable p c || decide (f.cls = c) | none => true) &&
      (x.typ == 1 || decide (36 ≤ p) || h.beforeHorizon p c bytes)

/-- The class served among those that may start (R294): scheduled classes never yield to a ripe one. -/
def Hw.pickClass (h : Hw) (p : Nat) (l : List Nat) : Option Nat :=
  let ripe := l.filter (fun c => h.ripe p c && h.staged p c)
  if ripe.isEmpty then l.max?
  else
    let sched := l.filter (fun c => h.scheduled p c)
    if sched.isEmpty then ripe.max? else sched.max?

/-- The frame's age exceeds the class's residence limit (R296). -/
def Hw.overAge (h : Hw) (x : Desc) : Bool :=
  let r := h.get (SWC_RES x.cls) 15 0
  r != 0 && decide ((h.us + 2 ^ 32 - x.entered) % 2 ^ 32 > 10 * r)

/-- A frame starts on the wire; a ripe class is ripe for this one frame (R295). -/
def Hw.startFrame (h : Hw) (p c d : Nat) (wire : List Byte) (sa : Option Nat) : Hw :=
  let x := h.port p
  let age := if h.ripe p c then x.age.set c 0 else x.age
  h.setPort p { x with tx := some { desc := d, cls := c, wire := wire, start := h.now, sa := sa }, age := age, turn := x.turn - 1 }

/-- A preempted frame resumes. -/
def Hw.resumeFrame (h : Hw) (p : Nat) (f : TxFrame) : Hw :=
  let x := h.port p
  h.setPort p { x with tx := some { f with start := h.now }, pre := none }

/-- Selection on a free port (R293 to R296, R348): `skip` holds classes found not staged. Express frames pass a preempted one (R342). -/
def Hw.select (h : Hw) (p : Nat) (ecc : Ecc) : Nat → List Nat → Hw
  | 0, _ => h
  | n + 1, skip =>
    let l := (List.range 8).filter (fun c => !skip.contains c && h.mayStart p c)
    let express := l.filter (fun c => !h.preemptable p c)
    match h.pickClass p (if (h.port p).pre.isSome && !express.isEmpty then express else l) with
    | none => h
    | some c =>
      let q := 8 * p + c
      let d := (h.queue q).links.headD 0
      let x := h.desc d
      let resume := match (h.port p).pre with | some f => if f.cls = c then some f else none | none => none
      match resume with
      | some f => h.resumeFrame p f
      | none =>
        if x.typ = 1 then ((h.swCount 1 q 11).raise pgLOFT 2).select p ecc n (c :: skip)
        else if h.overAge x then ((h.dropLink q d 6).raise pgSWC 4).select p ecc n skip
        else if ecc = .uncorrectable then (h.dropLink q d 2).raise pgGRN 6
        else
          let h := h.raiseIf (ecc == .corrected) pgGRN 5
          let b := h.egressBytes p x (h.frameBytes x)
          match h.msecProtect p x.vid ((h.port p).pre.bind (fun f => f.sa)) b with
          | none => ((h.ethCount p 16).unlink q d).select p ecc n skip
          | some (w, sa) => h.startFrame p c d (if p < 36 then w ++ fcs w else w) sa

/-- Frames that stand on the queues of a port. -/
def Hw.portLinks (h : Hw) (p : Nat) : Nat := ((List.range 8).map (fun c => (h.queue (8 * p + c)).links.length)).sum

/-- Bytes of a frame on the wire that have been sent, with those of earlier fragments. -/
def Hw.sentBytes (h : Hw) (p : Nat) (f : TxFrame) : Nat :=
  f.done + ((h.now - f.start) * 5 * h.portRate p / 48_000_000 - 8)

/-- Cue clock cycles of `n` bytes on the wire of a port, rounded up. -/
def Hw.wireCycles (h : Hw) (p n : Nat) : Nat := (9_600_000 * n + h.portRate p - 1) / h.portRate p

/-- The frame on the wire is preempted at its next permitted point (R342, R343): it has sent a minimum fragment, and at least 64
bytes remain; otherwise it completes. The link is free when the fragment has ended with its mCRC and the gap. -/
def Hw.preempt (h : Hw) (p : Nat) : Bool × Hw :=
  match (h.port p).tx with
  | none => (false, h)
  | some f =>
    let done := max (h.sentBytes p f) (f.done + h.minFragment p - 4)
    if !h.preemptable p f.cls || decide (f.wire.length < done + 64) then (false, h)
    else
      let free := h.now + h.wireCycles p (done - h.sentBytes p f + 4 + 12)
      let h := h.setPort p { h.port p with tx := none, pre := some { f with done := done, fragments := f.fragments + 1 }, freeAt := free }
      (true, (h.ethCount p 9).ethCount p 7)

/-- The port can send: P0 to P35 when enabled, up, not held, after the gap (R320), and on 10BASE-T1S with PLCA in its transmit
opportunity (R322, R328, R329, R334); P36 to P39 when not held. -/
def Hw.canSend (h : Hw) (p : Nat) : Bool :=
  let x := h.port p
  h.live pgSWC && h.bit (CTRL pgSWC) 0 && !h.portHeld p &&
    (decide (36 ≤ p) ||
      (h.live (pgETH p) && h.bit (ETH_CFG p) 31 && h.bit (ETH_PHY_STAT p) 31 && (x.tx.isSome || decide (x.freeAt ≤ h.now)) &&
        (decide (p < 28) || !h.bit (ETH_PLCA p) 31 || (decide (0 < x.turn) && decide (h.now ≤ x.turnEnd)))))

/-- The last byte of a frame on the wire of P0 to P35 has been sent. -/
def Hw.txEnded (h : Hw) (p : Nat) (f : TxFrame) : Bool := decide (36 ≤ p) || decide (f.wire.length ≤ h.sentBytes p f)

/-- EGRESS_SELECT (R293 to R296): a free port selects; a preemptable frame on the wire yields to an express class, which starts once the
link is free (R340, R342, R343). A transmit opportunity that starts no frame ends (R329). -/
def execEgressSelect (p : Fin 40) (e : Ecc) (s : State) : Host.Outcome State Fault Refusal :=
  s.run fun h =>
    let p := p.val
    if !h.canSend p then h
    else
      let h := h.touch p
      let express := (List.range 8).any (fun c => !h.preemptable p c && h.staged p c && h.mayStart p c)
      let r := match (h.port p).tx with
        | none => (true, h)
        | some f => if h.preemptable p f.cls && express then h.preempt p else (false, h)
      if !r.1 || decide (h.now < (r.2.port p).freeAt) then r.2.settle p
      else
        let h := r.2.select p e (h.portLinks p + 9) []
        let h := if (h.port p).tx.isNone then h.setPort p { h.port p with turn := 0 } else h
        (h.settle p).grnSync

/-- FRAME_TX_DONE (R297, R349): the frame counts, its link goes, its PN is used. -/
def execFrameTxDone (p : Fin 40) (s : State) : Host.Outcome State Fault Refusal :=
  s.run fun h =>
    let p := p.val
    match (h.port p).tx with
    | none => h
    | some f =>
      if !h.txEnded p f then h
      else
      let h := h.touch p
      let q := 8 * p + f.cls
      let h := (h.swCount 1 q 0).swCount 1 q 1 (h.desc f.desc).len
      let h := (h.ethCount p 5).ethCount p 6 f.wire.length
      let h := if 0 < f.fragments then h.ethCount p 7 else h
      let h := match f.sa with | some i => h.pnUsed i | none => h
      let h := h.setPort p { h.port p with tx := none, freeAt := h.now + h.wireCycles p 12, turnEnd := h.now + 120 * 128 }
      ((h.unlink q f.desc).settle p).grnSync

/-- TRANSMIT_OPPORTUNITY (R328, R329, R334): the opportunity of a node begins on the segment. In its own a node may start one frame
within `TO_TIMER` bit times, and `BURST_CNT` further ones; with another node's, its own has ended. A coordinator gives the opportunities
in order, up to that of node `NODE_CNT` − 1, with a BEACON before that of node 0. -/
def execTransmitOpportunity (o : Opportunity) (s : State) : Host.Outcome State Fault Refusal :=
  s.run fun h =>
    let p := o.port.val
    let x := h.port p
    let own := h.get (ETH_PLCA p) 26 24
    let n := h.get (ETH_PLCA p) 19 16
    let id := o.node.toNat
    if p < 28 || !h.live (pgETH p) || !h.bit (ETH_CFG p) 31 || !h.bit (ETH_PLCA p) 31 then h
    else if own = 0 ∧ id ≠ x.plca then h
    else
      let x := if own = 0 then { x with plca := if id + 1 < n then id + 1 else 0, beacons := if id = 0 then x.beacons + 1 else x.beacons } else x
      h.setPort p
        (if id = own then { x with turn := 1 + h.get (ETH_PLCA p) 7 0, turnEnd := h.now + 120 * h.get (ETH_PLCA p) 15 8 } else { x with turn := 0 })

/-- PLCA_COLLISION (R330): the frame is retried up to 16 times, and then dropped. -/
def execPlcaCollision (p : Fin 36) (s : State) : Host.Outcome State Fault Refusal :=
  s.run fun h =>
    let p := p.val
    match (h.port p).tx with
    | none => h
    | some f =>
      if p < 28 then h
      else
        let h := h.touch p
        let x := h.port p
        let quiet := match x.lastColl with | some t => decide (120_000_000 ≤ h.now - t) | none => true
        let h := (h.ethCount p 12).raiseIf (h.bit (ETH_PLCA p) 31 && quiet) (pgETH p) 7
        let h := h.setPort p { h.port p with lastColl := some h.now }
        if f.tries < 16 then (h.setPort p { h.port p with tx := some { f with tries := f.tries + 1, start := h.now } }).settle p
        else
          let h := (h.ethCount p 13).setPort p { h.port p with tx := none }
          ((h.unlink (8 * p + f.cls) f.desc).settle p).grnSync

/-- What a GATE cue does (R331, R335): the gates take the state; a frame on the wire of a class that closes is preempted, or
completes and is counted; the horizons are renewed. -/
def gateEff (arg _v _tc _idx : Nat) (h : Hw) : Hw :=
  let p := fld arg 21 16
  let st := fld arg 7 0
  if 36 ≤ p then h
  else
    let h := h.touch p
    let closing := (List.range 8).filter (fun c => h.bit (ETH_GATE p) c && decide (fld st c c = 0))
    let h := h.put (ETH_GATE p) 7 0 st
    let h := h.setPort p { h.port p with closed := closing.foldl (fun l c => file l c h.now) (h.port p).closed }
    let h := match (h.port p).tx with
      | some f =>
        if closing.contains f.cls then
          let r := h.preempt p
          if r.1 then r.2 else (r.2.ethCount p 11).raise (pgETH p) 3
        else h
      | none => h
    (h.settle p).renewHorizons

/-- GATE cue. -/
def execGate (c : CueRef) (s : State) : Host.Outcome State Fault Refusal := s.run fun h => h.fireCue c 0x10 gateEff

/-- What a HOLD cue does (R342). -/
def holdEff (arg _v _tc _idx : Nat) (h : Hw) : Hw :=
  let p := fld arg 21 16
  if 12 ≤ p then h
  else
    let on := decide (fld arg 0 0 = 1)
    let h := h.touch p
    let h := h.setPort p { h.port p with hold := on }
    let h := match (h.port p).tx with
      | some f => if on && h.classMarked p f.cls then (h.preempt p).2 else h
      | none => h
    h.settle p

/-- HOLD cue. -/
def execHold (c : CueRef) (s : State) : Host.Outcome State Fault Refusal := s.run fun h => h.fireCue c 0x11 holdEff

end Sys2Proof.Machine
end

