-- ==== Sys2Proof/Machine/SwitchRx.lean ====
section
/-! DEFINITION. Ingress of the switch core (R273 to R278, R301 to R311, R321): what a received frame passes before it is
admitted. -/

namespace Sys2Proof.Machine

/-- CRC-16 of R302 over bytes: polynomial 0x1021, initial value 0xFFFF, not reflected. -/
def crc16 (l : List Byte) : Nat :=
  l.foldl (fun c b =>
    each 8 (fun _ c => if fld c 15 15 = 1 then (2 * c % 0x1_0000) ^^^ 0x1021 else 2 * c % 0x1_0000) (c ^^^ (b.toNat * 256))) 0xFFFF

/-- Members and FID of a VID (R307): a VID whose entry is not valid has no members. -/
def Hw.vlanValid (h : Hw) (vid : Nat) : Bool := decide (fld (h.fdb 1 vid 1) 30 30 = 1)
def Hw.vlanMember (h : Hw) (vid p : Nat) : Bool :=
  h.vlanValid vid && decide (fld (h.fdb 1 vid (p / 32)) (p % 32) (p % 32) = 1)
def Hw.vlanFid (h : Hw) (vid : Nat) : Nat := fld (h.fdb 1 vid 1) 27 16

/-- A port takes part in switching. -/
def Hw.portOn (h : Hw) (p : Nat) : Bool := h.bit (SWC_PORT p) 31

/-- The aggregation group of a port (R301). -/
def Hw.lagOf (h : Hw) (p : Nat) : Option Nat :=
  if p < 36 && h.bit (SWC_PORT p) 25 then some (h.get (SWC_PORT p) 24 22) else none

/-- The members in service of a group, in ascending order (R303, R304). -/
def Hw.lagMembers (h : Hw) (g : Nat) : List Nat :=
  (List.range 36).filter (fun p => h.portOn p && h.lagOf p == some g && h.get (SWC_LINK p) 1 0 != 2)

/-- `SWC_LAGg.COUNT` follows the members in service; a change raises LAG_REMAP (R303). -/
def Hw.lagSync (h : Hw) : Hw :=
  each 8 (fun g (h : Hw) =>
    let m := (h.lagMembers g).length
    if h.get (SWC_LAG g) 3 0 = m then h else (h.put (SWC_LAG g) 3 0 m).raise pgSWC 3) h

/-- The member that a bucket maps to (R303). -/
def Hw.lagTarget (h : Hw) (g b : Nat) : Option Nat :=
  let l := h.lagMembers g
  if l.isEmpty then none else l[b % l.length]?

/-- The member that a bucket's frames go to: the one it has adopted, and at its first frame the one it maps to. -/
def Hw.lagChoose (h : Hw) (g b : Nat) : Option Nat × Hw :=
  match h.sw.lag.get (g * 64 + b) with
  | 0 =>
    match h.lagTarget g b with
    | none => (none, h)
    | some p => (some p, { h with sw := { h.sw with lag := h.sw.lag.set (g * 64 + b) (p + 1) } })
  | p + 1 => (some p, h)

/-- LAG_REMAP (R303): the bucket adopts the member it maps to when no frame of it is queued on its old member. -/
def execLagRemap (g : Fin 8) (b : Fin 64) (s : State) : Host.Outcome State Fault Refusal :=
  s.run fun h =>
    let k := g.val * 64 + b.val
    match h.sw.lag.get k with
    | 0 => h
    | p + 1 =>
      let queued := (List.range 8).any (fun c => (h.queue (8 * p + c)).links.any (fun d =>
        let x := h.desc d
        if x.typ = 1 then x.frames.any (fun f => f.bucket == b.val) else x.bucket == b.val))
      match h.lagTarget g b with
      | some m => if queued then h else { h with sw := { h.sw with lag := h.sw.lag.set k (m + 1) } }
      | none => h

/-- The fields of the flow hash (R302) of a frame without FCS. -/
def flowFields (sel vid : Nat) (b : List Byte) : List Byte :=
  let o := if beNat (slice b 12 2) = 0x8100 then 16 else 12
  let o := if beNat (slice b o 2) = 0xF1C1 then o + 6 else o
  let typ := beNat (slice b o 2)
  let ip := o + 2
  let v4 := decide (typ = 0x0800)
  let v6 := decide (typ = 0x86DD)
  let proto := if v4 then slice b (ip + 9) 1 else slice b (ip + 6) 1
  let frag := v4 && decide (beNat (slice b (ip + 6) 2) % 0x4000 ≠ 0)
  let l4 := if v4 then ip + 4 * fld (beNat (slice b ip 1)) 3 0 else ip + 40
  let hasPorts := (v4 || v6) && !frag && (beNat proto == 6 || beNat proto == 17)
  let on := fun (i : Nat) (c : Bool) (l : List Byte) => if fld sel i i = 1 && c then l else []
  on 0 true (slice b 0 6) ++ on 1 true (slice b 6 6) ++ on 2 true (beBytes 2 vid) ++ on 3 true (slice b o 2) ++
    on 4 v4 (slice b (ip + 12) 8) ++ on 4 v6 (slice b (ip + 8) 32) ++ on 5 (v4 || v6) proto ++ on 6 hasPorts (slice b l4 4)

/-- The flow's bucket. -/
def Hw.flowBucket (h : Hw) (vid : Nat) (b : List Byte) : Nat := crc16 (flowFields (h.get SWC_HASH_SEL 6 0) vid b) % 64

/-- The colour that a flow meter gives a frame of `len` bytes (R310): 0 green, 1 yellow, 2 red. -/
def Hw.meterColour (h : Hw) (m len : Nat) : Nat × Hw :=
  let w := fun k => h.strm 1 m k
  let unit := 125_000
  let cbs := fld (w 1) 23 0 * unit
  let ebs := fld (w 3) 23 0 * unit
  let x := (find? h.sw.meters m).getD { c := cbs, e := ebs, at_ := h.ns }
  let dt := h.ns - x.at_
  let c := x.c + fld (w 0) 23 0 * dt
  let spill := if fld (w 0) 31 31 = 1 then c - cbs else 0
  let c := min cbs c
  let e := min ebs (x.e + fld (w 2) 23 0 * dt + spill)
  let n := len * unit
  let keep := fun (y : Meter) => { h with sw := { h.sw with meters := file h.sw.meters m y } }
  if n ≤ c then (0, keep { c := c - n, e := e, at_ := h.ns })
  else if n ≤ e then (1, keep { c := c, e := e - n, at_ := h.ns })
  else (2, keep { c := c, e := e, at_ := h.ns })

/-- The outcome of vector recovery (R311, IEEE 802.1CB 7.4.3.4) for a history of `n` bits: passed, out of order, lost, the new
number and history. -/
def vectorRecover (n last hist seq : Nat) : Bool × Bool × Nat × Nat × Nat :=
  let d := sgn 16 (seq + 0x1_0000 - last)
  if (n : Int) ≤ d ∨ d ≤ -(n : Int) then (false, false, 0, last, hist)
  else if d ≤ 0 then
    let i := d.natAbs
    if fld hist i i = 1 then (false, false, 0, last, hist) else (true, true, 0, last, setFld hist i i 1)
  else
    let k := d.natAbs
    let lost := ((List.range k).filter (fun j => decide (fld hist (n - 1 - j) (n - 1 - j) = 0))).length
    (true, decide (k ≠ 1), lost, seq, (hist * 2 ^ k + 1) % 2 ^ n)

/-- The sequence function of a stream (R311): the frame that goes on, and whether a recovery function passed it. A number ahead of the
next one is a sequence gap. -/
def Hw.seqFunction (h : Hw) (f : Nat) (b : List Byte) : Option (List Byte × Bool) × Hw :=
  let w0 := h.strm 2 f 0
  let w1 := h.strm 2 f 1
  let o := if beNat (slice b 12 2) = 0x8100 then 16 else 12
  match fld w0 31 30 with
  | 0 => (some (b, false), h)
  | 1 =>
    let n := fld w1 15 0
    (some (b.take o ++ beBytes 2 0xF1C1 ++ [0, 0] ++ beBytes 2 n ++ b.drop o, false),
      (h.setStrm 2 f 1 ((n + 1) % 0x1_0000)).swCount 3 f 0)
  | m =>
    if beNat (slice b o 2) ≠ 0xF1C1 then (none, h.swCount 3 f 4)
    else
      let seq := beNat (slice b (o + 4) 2)
      let taken := decide (fld w1 16 16 = 1)
      let last := fld w1 15 0
      let n := if fld w0 28 24 = 0 then 32 else fld w0 28 24
      let (pass, ooo, lost, last', hist) :=
        if !taken then (true, false, 0, seq, 1)
        else if m = 2 then vectorRecover n last (h.strm 2 f 2) seq
        else if seq = last then (false, false, 0, last, h.strm 2 f 2)
        else (true, decide (seq ≠ (last + 1) % 0x1_0000), 0, seq, h.strm 2 f 2)
      let h := if pass then (h.setStrm 2 f 1 (0x1_0000 + last')).setStrm 2 f 2 hist else h
      let h := if ooo then h.swCount 3 f 2 else h
      let h := if 0 < lost then h.swCount 3 f 3 lost else h
      let h := h.raiseIf (pass && taken && decide (1 < sgn 16 (seq + 0x1_0000 - last))) pgSTRM 4
      if pass then (some (b, true), h.swCount 3 f 0) else (none, h.swCount 3 f 1)

/-- The stream step (R308 to R311): the frame that goes on, its stream entry, and whether it was recovered; none where it is
dropped. -/
def Hw.streamStep (h : Hw) (vid : Nat) (b : List Byte) : Option (List Byte × Option Nat × Bool) × Hw :=
  let entry := match h.strmFind 0 (beNat (slice b 0 6)) vid with
    | some e => some e
    | none => h.strmFind 1 (beNat (slice b 6 6)) vid
  match entry with
  | none => (some (b, none, false), h)
  | some e =>
    let h := h.swCount 2 e 0
    let w2 := h.strm 0 e 2
    let w3 := h.strm 0 e 3
    let len := b.length + 4
    let max_ := fld w2 29 16
    if fld w3 30 30 = 1 then (none, h.swCount 2 e 4)
    else if max_ ≠ 0 ∧ max_ < len then
      let h := h.swCount 2 e 2
      (none, if fld w2 30 30 = 1 then (h.setStrm 0 e 3 (setFld w3 30 30 1)).raise pgSTRM 0 else h)
    else if fld w2 31 31 = 0 then (none, (h.swCount 2 e 3).raise pgSTRM 2)
    else
      let r := if fld w2 15 15 = 1 then h.meterColour (fld w2 9 0) len else (0, h)
      let h := r.2
      if r.1 = 2 then (none, (h.swCount 2 e 5).raise pgSTRM 1)
      else
        let h := if r.1 = 1 then h.swCount 2 e 6 else h
        let h := h.swCount 2 e 1
        if fld w3 31 31 = 1 then
          match h.seqFunction (fld w3 9 0) b with
          | (some (b, rec_), h) => (some (b, some e, rec_), h)
          | (none, h) => (none, h)
        else (some (b, some e, false), h)

/-- Learning (R278): the source address of a frame on a port, in a FID; a hit sets `AGE` to 0 (Table 07.5), but one that changes nothing. -/
def Hw.learn (h : Hw) (p mac fid : Nat) : Hw :=
  match h.fdbFind mac fid with
    | none =>
      let set := (macFold mac ^^^ fid) % 4096
      (match ((List.range 4).map (· + 4 * set)).find? (fun i => decide (fld (h.fdb 0 i 1) 31 31 = 0)) with
        | none => (h.swCount 0 p 8).raise pgFDB 0
        | some i =>
          ((((h.setFdb 0 i 0 (mac % 2 ^ 32)).setFdb 0 i 1 (0x8000_0000 + fid * 0x1_0000 + mac / 2 ^ 32)).setFdb 0 i 2 p).setFdb
            0 i 3 0).fdbUsed)
    | some i =>
      let w1 := h.fdb 0 i 1
      let w2 := h.fdb 0 i 2
      let same := decide (fld w2 31 31 = 0) && decide (fld w2 9 0 = p)
      let hit := h.setFdb 0 i 1 (setFld w1 29 28 0)
      if fld w1 30 30 = 1 then (if same then hit else h.raise pgFDB 2)
      else
        let h := hit
        if same then h else (h.setFdb 0 i 2 p).raise pgFDB 1

/-- The ports that the lookup gives (R277): none where the entry drops the frame; and whether the frame is flooded. -/
def Hw.lookupPorts (h : Hw) (dst fid vid : Nat) : Option (List Nat × Bool) :=
  let flood := ((List.range 40).filter (h.vlanMember vid), true)
  match if dst = 2 ^ 48 - 1 then none else h.fdbFind dst fid with
  | none => some flood
  | some i =>
    let w2 := h.fdb 0 i 2
    if fld w2 20 20 = 1 then none
    else if fld w2 31 31 = 1 then
      some ((List.range 40).filter (fun q => decide (fld (h.fdb 2 (fld w2 9 0) (q / 32)) (q % 32) (q % 32) = 1)), false)
    else some ([fld w2 9 0], false)

/-- The destinations of a frame (R277, R301): without the ingress port and its group, and without ports that are not members;
a group takes the frame on one member. -/
def Hw.destinations (h : Hw) (p vid bucket : Nat) (l : List Nat) : List Nat × Hw :=
  let ok := l.filter (fun q => decide (q < 40) && q != p && h.portOn q && h.vlanMember vid q &&
    !(h.lagOf q).any (fun g => h.lagOf p == some g))
  ok.foldl (fun (s : List Nat × Hw) q =>
    match s.2.lagOf q with
    | none => (s.1 ++ [q], s.2)
    | some g =>
      match s.2.lagChoose g bucket with
      | (some m, h) => (if s.1.contains m then s.1 else s.1 ++ [m], h)
      | (none, h) => (s.1, h)) ([], h)

/-- A frame (without FCS) in the switch core: R273, R274. -/
def Hw.swReceive (h : Hw) (p : Nat) (b : List Byte) : Hw :=
  if !h.live pgSWC || !h.bit (CTRL pgSWC) 0 || !h.portOn p then h
  else
    let len := b.length + 4
    let h := (h.swCount 0 p 0).swCount 0 p 1 len
    let maxLen := h.get SWC_MAX_FRAME 13 0
    if h.headroomFull len then (h.swCount 0 p 4).raise pgGRN 4
    else if maxLen < len then h.swCount 0 p 3
    else
      let tagged := decide (beNat (slice b 12 2) = 0x8100)
      let tci := beNat (slice b 14 2)
      let tagVid := if tagged then tci % 4096 else 0
      let vid := if tagVid = 0 then h.get (SWC_PORT p) 11 0 else tagVid
      let pcp := if tagged then tci / 0x2000 else h.get (SWC_PORT p) 21 19
      let accept := h.get (SWC_PORT p) 29 28
      if (accept == 1 && tagVid == 0) || (accept == 2 && tagVid != 0) || tagVid == 0xFFF ||
          (h.bit (SWC_PORT p) 27 && !h.vlanMember vid p) then h.swCount 0 p 2
      else
        match h.streamStep vid b with
        | (none, h) => h.swCount 0 p 5
        | (some (b, stream, rec_), h) =>
          let len := b.length + 4
          if maxLen < len then h.swCount 0 p 3
          else if h.headroomFull len then (h.swCount 0 p 4).raise pgGRN 4
          else
            let fid := h.vlanFid vid
            let h :=
              if h.bit (SWC_PORT p) 30 && h.vlanValid vid && decide (fld (h.fdb 1 vid 1) 31 31 = 1) then
                h.learn p (beNat (slice b 6 6)) fid else h
            match h.lookupPorts (beNat (slice b 0 6)) fid vid with
            | none => h
            | some (l, flood) =>
              let h := if flood then h.swCount 0 p 7 else h
              let bucket := h.flowBucket vid b
              let (dest, h) := h.destinations p vid bucket l
              if dest.isEmpty then h.swCount 0 p 6
              else
                let cls := match stream with
                  | some e => if fld (h.strm 0 e 3) 15 15 = 1 then fld (h.strm 0 e 3) 14 12 else h.get (SWC_PCP p) (3 * pcp + 2) (3 * pcp)
                  | none => h.get (SWC_PCP p) (3 * pcp + 2) (3 * pcp)
                let f : Desc := { typ := 0, len := len, stream := stream, cls := cls, entered := h.us % 2 ^ 32, at_ := h.now, vid := vid, pcp := pcp, bucket := bucket, recovered := rec_ }
                let h := dest.foldl (fun (h : Hw) q => h.touch q) h
                let h := h.entered (dest.map (fun q => 8 * q + cls)) f (b ++ fcs b)
                (dest.foldl (fun (h : Hw) q => h.settle q) h).grnSync

/-- A PTP message under Table 08.5. -/
def ptpFrame (b : List Byte) : Bool := decide (beNat (slice b 0 6) = 0x0180_C200_000E) && decide (beNat (slice b 12 2) = 0x88F7)

/-- FRAME_RX: on P0 to P35 the port's own checks come first (R321), with MACsec on P0 to P11 (R351); on P36 to P39 the frame
handed over is taken from its block. A PTP message ends at the port: an Announce is counted and ignored, and what another means comes
with its own row (R352; assumption log, entry 143). `frags` fragments of a preempted frame were put together, or `broken` says that this
failed. -/
def execFrameRx (p : Fin 40) (b : List Byte) (frags : BitVec 8) (broken : Bool) (s : State) :
    Host.Outcome State Fault Refusal :=
  s.run fun h =>
    let p := p.val
    if 36 ≤ p then
      let h := match h.zone.handed.find? (fun x => decide (x.1 = p)) with
        | some x =>
          if x.2 = b then { h with zone := { h.zone with handed := h.zone.handed.erase x } } else h
        | none => h
      h.swReceive p b
    else if !h.live (pgETH p) || !h.bit (ETH_CFG p) 31 || !h.bit (ETH_PHY_STAT p) 31 then h
    else
      let body := b.take (b.length - 4)
      let h := if p < 12 then h.ethCount p 8 frags.toNat else h
      if p < 12 && broken then h.ethCount p 10
      else if b.length < 4 || b.drop (b.length - 4) != fcs body then h.ethCount p 2
      else if b.length < 64 then h.ethCount p 3
      else if beNat (slice b 12 2) = 0x8808 then h.ethCount p 4
      else
        let h := (h.ethCount p 0).ethCount p 1 b.length
        match h.msecValidate p body with
        | (none, h) => h
        | (some x, h) => if ptpFrame x then h else h.swReceive p x

end Sys2Proof.Machine
end

