-- ==== Sys2Proof/Machine/Ports.lean ====
section
/-! DEFINITION. The Ethernet ports (R298 to R300, R304, R321 to R327, R331, R339, R341, R352 to R356, R360, R361): links, PHYs,
MDIO, verification, network time, and the writes of their registers. -/

namespace Sys2Proof.Machine

/-- LOFT_STAGE (R291, R292). -/
def execLoftStage (q : Fin 320) (e : LoftRead) (s : State) : Host.Outcome State Fault Refusal :=
  s.run fun h => if !h.live pgLOFT then h else ((h.touch (q / 8)).loftStage q e).settle (q / 8)

/-- Every queue of a port is flushed (R300). -/
def Hw.flushPort (h : Hw) (p : Nat) : Hw :=
  let h := each 8 (fun c (h : Hw) => (h.queue (8 * p + c)).links.foldl (fun (h : Hw) d => h.dropLink (8 * p + c) d 5) h) h
  let h := h.setPort p { h.port p with tx := none, pre := none }
  (((h.put (SWC_LINK p) 1 0 2).raise pgSWC 2).settle p).grnSync.lagSync

/-- A frame being sent is dropped (R298). -/
def Hw.abortFrame (h : Hw) (p : Nat) (f : TxFrame) : Hw :=
  let q := 8 * p + f.cls
  let h := match f.sa with | some i => h.pnUsed i | none => h
  ((h.swCount 1 q 10).raise pgSWC 6).unlink q f.desc

/-- The switch core learns that the link of a port is down (R298, R300). -/
def Hw.linkHeld (h : Hw) (p : Nat) : Hw :=
  if h.get (SWC_LINK p) 1 0 ≠ 0 then h
  else
    let h := h.touch p
    let x := h.port p
    let h := match x.tx with | some f => h.abortFrame p f | none => h
    let h := match x.pre with | some f => h.abortFrame p f | none => h
    let h := h.setPort p { h.port p with tx := none, pre := none, downAt := h.now }
    let h := ((((h.put (SWC_LINK p) 1 0 1).raise pgSWC 0).settle p)).grnSync
    if h.get (SWC_LINK p) 24 16 = 0 then h.flushPort p else h

/-- `ETH_PMAC.STATUS` follows `EN`, `VERIFY_DIS` and the link (R341). -/
def Hw.pmacSync (h : Hw) (p : Nat) : Hw :=
  if 12 ≤ p then h
  else
    let st := h.get (ETH_PMAC p) 10 8
    let put := fun (x : Nat) => h.put (ETH_PMAC p) 10 8 x
    if !h.bit (ETH_PMAC p) 31 then put 0
    else if h.bit (ETH_PMAC p) 30 then put 4
    else if !h.bit (ETH_PHY_STAT p) 31 then put 0
    else if st = 0 ∨ st = 4 then (put 1).setPort p { h.port p with verify := 1, verifyAt := h.now }
    else h

/-- A port reports its link down. -/
def Hw.linkDown (h : Hw) (p : Nat) : Hw :=
  let h :=
    if p < 36 ∧ h.bit (ETH_PHY_STAT p) 31 then
      let h := ((h.putBit (ETH_PHY_STAT p) 31 false).putBit (ETH_PHY_STAT p) 24 false).putBit (STATUS (pgETH p)) 0 false
      (h.raise (pgETH p) 1).pmacSync p
    else h
  h.linkHeld p

/-- LINK_DOWN (R298). -/
def execLinkDown (p : Fin 40) (s : State) : Host.Outcome State Fault Refusal := s.run fun h => h.linkDown p

/-- Frames of a queue admitted before a cycle are dropped as WINDOW (R299). -/
def Hw.windowDrop (h : Hw) (q before : Nat) : Hw :=
  let late := fun (d : Nat) => let x := h.desc d; if x.typ = 1 then x.frames.any (fun f => decide (f.at_ < before)) else decide (x.at_ < before)
  let h' := (h.queue q).links.foldl (fun (h : Hw) d =>
    let x := h.desc d
    if x.typ = 1 then
      let old := x.frames.filter (fun f => decide (f.at_ < before))
      if old.isEmpty then h
      else
        let cs := old.flatMap (fun f => f.cells)
        let pend := (old.filter (fun f => !f.written)).length
        let h := (h.swCount 1 q 7 old.length).freeCells cs
        let h := { h with sw := { h.sw with head := h.sw.head - cs.length, loftQ := (List.replicate pend d).foldl (fun (l : List Nat) y => l.erase y) h.sw.loftQ } }
        h.runTake q d (x.frames.filter (fun f => !decide (f.at_ < before)))
    else if x.at_ < before then h.dropLink q d 7 else h) h
  h'.raiseIf ((h.queue q).links.any late) pgSWC 5

/-- The grace time of a port has passed since its link went down (R299, R300). -/
def Hw.graceOver (h : Hw) (p : Nat) : Bool := decide (120_000 * h.get (SWC_LINK p) 24 16 < h.now - (h.port p).downAt)

/-- The switch core learns that the link of a port is up (R299, R300, R304): a return after the grace time finds the queues flushed. -/
def Hw.linkResumed (h : Hw) (p : Nat) : Hw :=
  let h := if h.get (SWC_LINK p) 1 0 = 1 ∧ h.graceOver p then h.flushPort p else h
  match h.get (SWC_LINK p) 1 0 with
  | 1 =>
    let h := h.touch p
    let h := each 8 (fun c (h : Hw) =>
      match find? (h.port p).closed c with
      | some t => if h.scheduled p c then h.windowDrop (8 * p + c) t else h
      | none => h) h
    (((h.put (SWC_LINK p) 1 0 0).raise pgSWC 1).settle p).grnSync
  | 2 => ((h.put (SWC_LINK p) 1 0 0).settle p).lagSync
  | _ => h

/-- LINK_UP (R299, R322, R327, R359): P0 to P35 report it when enabled and not in a test mode; a TC10 port is active. -/
def execLinkUp (p : Fin 40) (s : State) : Host.Outcome State Fault Refusal :=
  s.run fun h =>
    let p := p.val
    if 36 ≤ p then h.linkResumed p
    else if !h.live (pgETH p) || !h.bit (ETH_CFG p) 31 || h.get (ETH_PHY p) 29 27 != 0 then h
    else
      let was := h.bit (ETH_PHY_STAT p) 31
      let h := (h.putBit (ETH_PHY_STAT p) 31 true).putBit (STATUS (pgETH p)) 0 true
      let h := if 28 ≤ p then h.putBit (ETH_PHY_STAT p) 24 (h.bit (ETH_PLCA p) 31) else h
      let h := if 4 ≤ p ∧ p < 28 then h.put (ETH_TC10 p) 2 0 0 else h
      let h := h.setPort p { h.port p with sqiAt := h.now }
      ((h.raiseIf (!was) (pgETH p) 0).pmacSync p).linkResumed p

/-- GRACE_EXPIRY (R300): the grace time since the link went down has passed. -/
def execGraceExpiry (p : Fin 40) (s : State) : Host.Outcome State Fault Refusal :=
  s.run fun h =>
    if h.get (SWC_LINK p) 1 0 = 1 ∧ 120_000 * h.get (SWC_LINK p) 24 16 ≤ h.now - (h.port p).downAt then h.flushPort p else h

/-- The bits of an ETH register that a port's kind has (Table 08.8, R360); the rest read 0 and ignore writes. -/
def ethKeep (p o : Nat) : Nat :=
  match o with
  | 0x100 => if p < 4 then 0x8703_0000 else 0x8003_0000
  | 0x104 => if p < 4 then 0 else if p < 28 then 0xFCF0_0000 else 0x3C00_0000
  | 0x10C => if 28 ≤ p then 0x870F_FFFF else 0
  | 0x130 => if p < 12 then 0xC3FF_00FF else 0
  | 0x140 => if p < 12 then 0x0001_10FF else 0x0000_10FF
  | 0x144 => if p < 4 then 0xFFFF_FFFF else 0
  | 0x150 => if 4 ≤ p ∧ p < 28 then 0xC000_FF00 else 0
  | 0x154 => if 4 ≤ p ∧ p < 28 then 0xFF_FFFF else 0
  | 0x160 => if p < 4 then 0xB3FF_FFFF else 0
  | _ => 0xFFFF_FFFF

/-- The test modes that a PHY's clause defines: clauses 97, 96 and 147 (R327). -/
def testDefined (p t : Nat) : Bool :=
  if p < 12 then [0, 1, 2, 4, 5, 6, 7].contains t else if p < 28 then [0, 1, 2, 4, 5].contains t else decide (t ≤ 4)

/-- Role of an instance on a port (R353). -/
def Hw.ptpRole (h : Hw) (p i : Nat) : Nat := h.get (ETH_PTP p) (2 * i + 1) (2 * i)

/-- The ports with a role for an instance. -/
def Hw.ptpPorts (h : Hw) (i role : Nat) : List Nat := (List.range 36).filter (fun p => h.ptpRole p i == role)

/-- The ETH refuses a write of `v` at offset `o`: the error code (R324, R326, R327, R339, R353, R361). -/
def Hw.ethRefuses (h : Hw) (p o v0 : Nat) : Option Nat :=
  let v := v0 &&& ethKeep p o
  let old := h.rd (at_ (pgETH p) o)
  let en := h.bit (ETH_CFG p) 31
  let differs := fun hi lo => fld v hi lo != fld old hi lo
  if o = 0x100 then
    if en && differs 26 24 then some 0x0100
    else if 3 < fld v 26 24 ∨ 2 < fld v 17 16 then some 0x0101 else none
  else if o = 0x104 then
    if en && differs 31 30 then some 0x0100
    else if fld v 26 26 = 1 ∧ (en || h.bit (ETH_PHY_STAT p) 31) = true then some 0x0100
    else if 1 < fld v 31 30 ∨ 7 < fld v 23 20 then some 0x0101
    else if !testDefined p (fld v 29 27) then some 0x0102 else none
  else if o = 0x10C ∧ 28 ≤ p then
    if en then some 0x0100
    else if fld v 19 16 = 0 ∨ 8 < fld v 19 16 ∨ fld v 15 8 = 0 then some 0x0101 else none
  else if o = 0x114 then (if 1000 < fld v 15 0 then some 0x0101 else none)
  else if o = 0x120 ∨ o = 0x124 then
    let other := h.rd (at_ (pgETH p) (if o = 0x120 then 0x124 else 0x120))
    let slope := fun w => if fld w 31 31 = 1 then fld w 23 0 else 0
    let enables := fld v 31 31 = 1 ∧ fld old 31 31 = 0
    if (enables ∨ differs 23 0) ∧ 3 * h.portRate p < 4 * 64 * (slope v + slope other) then some 0x0103 else none
  else if o = 0x130 ∧ p < 12 then (if fld v 23 16 = 0 ∨ 128 < fld v 23 16 then some 0x0101 else none)
  else if o = 0x140 then
    if (List.range 4).any (fun i => h.ptpOn i && differs (2 * i + 1) (2 * i)) then some 0x0100
    else if (List.range 4).any (fun i => fld v (2 * i + 1) (2 * i) == 3) then some 0x0101 else none
  else if o = 0x150 ∧ 4 ≤ p ∧ p < 28 then (if fld v 15 8 = 0 then some 0x0101 else none)
  else if o = 0x160 ∧ p < 4 then (if h.bit (ETH_MDIO p) 31 then some 0x0100 else none)
  else if o = 0x170 ∨ o = 0x17C then (if 16 < fld v 4 0 then some 0x0101 else none)
  else none

/-- What follows an accepted write at an offset; `old` is the former value. -/
def Hw.ethAfter (h : Hw) (p o old : Nat) : Hw :=
  if o = 0x100 then
    let h := if fld old 31 31 = 0 ∧ h.bit (ETH_CFG p) 31 then (h.put (ETH_GATE p) 7 0 0xFF).setPort p { h.port p with plca := 0, turn := 0 } else h
    if fld old 31 31 = 1 ∧ !h.bit (ETH_CFG p) 31 then h.linkDown p else h
  else if o = 0x104 then
    let h := if h.bit (ETH_PHY p) 26 then h.putBit (ETH_PHY_STAT p) 30 true else h
    if h.get (ETH_PHY p) 29 27 ≠ 0 ∧ h.bit (ETH_PHY_STAT p) 31 then h.linkDown p else h
  else if o = 0x130 then h.pmacSync p
  else h

/-- A write of an ETH register (R360, R361). -/
def Hw.ethWrite (h : Hw) (p o v : Nat) (a : Attr) : Hw :=
  let k := at_ (pgETH p) o
  h.busWrite k a fun h =>
    match h.ethRefuses p o v with
    | some e => h.refuse k e a
    | none =>
      let old := h.rd k
      if o = 0x120 ∨ o = 0x124 ∨ o = 0x100 then (((h.touch p).storeReg k (v &&& ethKeep p o)).ethAfter p o old).settle p
      else (h.storeReg k (v &&& ethKeep p o)).ethAfter p o old

/-- MDIO_FRAME (R323): a write of `ETH_MDIO` with `GO`. -/
def execMdioFrame (p : Fin 36) (v : Word) (a : Attr) (s : State) : Host.Outcome State Fault Refusal :=
  s.run fun h => h.ethWrite p 0x160 (setFld v.toNat 31 31 1) a

/-- MDIO_DONE (R323): the frame ends; a read brings its data. -/
def execMdioDone (p : Fin 36) (data : BitVec 16) (s : State) : Host.Outcome State Fault Refusal :=
  s.run fun h =>
    if h.bit (ETH_MDIO p) 31 then
      let h := h.putBit (ETH_MDIO p) 31 false
      if 2 ≤ h.get (ETH_MDIO p) 29 28 then h.put (ETH_MDIO p) 15 0 data.toNat else h
    else h

/-- CABLE_GO (R326): a write of `ETH_PHY` with `CABLE_GO`. -/
def execCableGo (p : Fin 36) (v : Word) (a : Attr) (s : State) : Host.Outcome State Fault Refusal :=
  s.run fun h => h.ethWrite p 0x104 (setFld v.toNat 26 26 1) a

/-- CABLE_TEST_DONE (R326). -/
def execCableTestDone (p : Fin 36) (res : Fin 4) (dist : BitVec 8) (s : State) : Host.Outcome State Fault Refusal :=
  s.run fun h =>
    if h.bit (ETH_PHY_STAT p) 30 then
      (((h.putBit (ETH_PHY p) 26 false).putBit (ETH_PHY_STAT p) 30 false).put (ETH_PHY_STAT p) 29 28 res).put (ETH_PHY_STAT p) 23 16 dist.toNat
    else h

/-- SQI_REPORT (R325): P4 to P27 every 1 ms while the link is up. -/
def execSqiReport (p : Fin 36) (sqi : Fin 8) (s : State) : Host.Outcome State Fault Refusal :=
  s.run fun h =>
    let p := p.val
    if p < 4 ∨ 28 ≤ p ∨ !h.bit (ETH_PHY_STAT p) 31 ∨ h.now < (h.port p).sqiAt + 1_200_000 then h
    else
      let h := h.put (ETH_PHY_STAT p) 2 0 sqi
      let n := if sqi.val < h.get (ETH_PHY p) 23 20 then (h.port p).lowSqi + 1 else 0
      (h.setPort p { h.port p with lowSqi := n, sqiAt := h.now }).raiseIf (decide (n = 10)) (pgETH p) 4

/-- VERIFY_TIMEOUT (R341): `VERIFY_TIME` ms after a verify frame the next one goes out, or verification has failed. -/
def execVerifyTimeout (p : Fin 36) (s : State) : Host.Outcome State Fault Refusal :=
  s.run fun h =>
    let p := p.val
    let x := h.port p
    if 12 ≤ p ∨ h.get (ETH_PMAC p) 10 8 ≠ 1 ∨ h.now < x.verifyAt + 1_200_000 * h.get (ETH_PMAC p) 23 16 then h
    else if x.verify < 3 then h.setPort p { x with verify := x.verify + 1, verifyAt := h.now }
    else (h.put (ETH_PMAC p) 10 8 3).raise (pgETH p) 2

/-- VERIFY_RESPONSE_RX (R341). -/
def execVerifyResponseRx (p : Fin 36) (s : State) : Host.Outcome State Fault Refusal :=
  s.run fun h => if 12 ≤ p.val ∨ h.get (ETH_PMAC p) 10 8 ≠ 1 then h else h.put (ETH_PMAC p) 10 8 2

/-- ETH_CNT_CLR (Table 08.7). -/
def execEthCntClr (p : Fin 36) (v : Word) (a : Attr) (s : State) : Host.Outcome State Fault Refusal :=
  s.run fun h => h.busWrite (ETH_CNT_CLR p) a fun h =>
    match h.ethRefuses p 0x17C v.toNat with
    | some e => h.refuse (ETH_CNT_CLR p) e a
    | none => { h with sw := { h.sw with eth := h.sw.eth.set (p * 32 + fld v.toNat 4 0) 0 } }

/-- The NET slots that follow an instance lose it (R24). -/
def Hw.ptpLost (h : Hw) (i : Nat) : Hw :=
  each 4 (fun n (h : Hw) =>
    if h.bit (TCU_SRC n) 31 && h.tcuSource n == 1 && decide (h.get (TCU_SRC n) 7 4 = i) then h.loseSource n else h) h

/-- Link delay of a port in ns, and whether the port is asCapable (Table 08.5). -/
def Hw.linkDelay (h : Hw) (p : Nat) : Nat :=
  if h.bit (ETH_PTP p) 12 then h.get (ETH_PTP_DELAY p) 15 0 else (h.port p).pdelay
def Hw.asCapable (h : Hw) (p : Nat) : Bool := h.bit (ETH_PTP p) 12 || decide (2 ≤ (h.port p).pdelayGood)

/-- PTP_INSTANCE_ENABLE (R353): a write of `ETH_PTPI_CFGi`. -/
def execPtpInstanceEnable (i : Fin 4) (v : Word) (a : Attr) (s : State) : Host.Outcome State Fault Refusal :=
  s.run fun h =>
    let k := ETH_PTPI_CFG 0 i
    h.busWrite k a fun h =>
      let v := v.toNat
      let sync := fld v 15 8
      let pd := fld v 7 0
      let slaves := h.ptpPorts i 2
      let roles := (slaves.length == 1 && fld v 30 30 == 0) || (slaves.isEmpty && fld v 30 30 == 1)
      if 127 < fld v 23 16 ∨ ¬(sync = 0 ∨ 0xF9 ≤ sync) ∨ ¬(pd ≤ 3 ∨ 0xFD ≤ pd) then h.refuse k 0x0101 a
      else if fld v 31 31 = 1 ∧ !roles then h.refuse k 0x0101 a
      else
        let was := h.ptpOn i
        let st := ETH_PTPI_STAT 0 i
        let h := h.storeReg k v
        if fld v 31 31 = 1 then
          if was then h
          else
            let x := { h.ptp i with time := h.ptpTime i, at_ := h.now, good := 0, seen := false, sentAt := none }
            ((h.setPtp i x).put st 29 24 (slaves.headD 0x3F)).putBit st 31 false
        else
          let h := if was && h.get st 29 24 != 0x3F then h.ptpLost i else h
          (h.put st 29 24 0x3F).putBit st 31 false

/-- SYNC_RX (R354): a follower takes the grandmaster's time at this instant and reports its offset; intervals with an offset of at
most 100 ns count for R24. -/
def execSyncRx (i : Fin 4) (offset : Int) (time corr : Nat) (s : State) : Host.Outcome State Fault Refusal :=
  s.run fun h =>
    let st := ETH_PTPI_STAT 0 i
    let p := h.get st 29 24
    if !h.ptpOn i || p == 0x3F || !h.bit (ETH_PHY_STAT p) 31 || !h.asCapable p then h
    else
      let o : Int := max (-(2 ^ 31)) (min (2 ^ 31 - 1) offset)
      let x := h.ptp i
      let good := if offset.natAbs ≤ 100 then min 8 (x.good + 1) else 0
      let h := (h.ethCount p 14).setPtp i { x with time := time, at_ := h.now, corr := corr, good := good, seen := true }
      ((h.wr (ETH_PTPI_OFS 0 i) (unsgn 32 o)).incF st 15 0).putBit st 31 true

/-- A PTP timestamp: seconds and nanoseconds. -/
def ptpStamp (ns : Nat) : List Byte := beBytes 6 (ns / 10 ^ 9) ++ beBytes 4 (ns % 10 ^ 9)

/-- A PTP message of a port for an instance, without FCS (Table 08.5): `typ` 0 Sync or 8 Follow_Up; what follows the header is `body`
(assumption log, entry 143). -/
def Hw.ptpMessage (h : Hw) (p i typ flags corr : Nat) (body : List Byte) : List Byte :=
  let id := fun (o n : Nat) => (List.range n).map (fun j => Config.ptpIdentity (16 * p + o + j))
  beBytes 6 0x0180_C200_000E ++ id 0 6 ++ beBytes 2 0x88F7 ++
    beBytes 2 (0x1012 + 0x100 * typ) ++ beBytes 2 (34 + body.length) ++ beBytes 2 (0x100 * h.get (ETH_PTPI_CFG 0 i) 23 16) ++
    beBytes 2 flags ++ beBytes 8 corr ++ beBytes 4 0 ++ id 6 10 ++ beBytes 2 ((h.ptp i).seq) ++
    beBytes 2 (0x100 * (if typ = 0 then 0 else 2) + h.get (ETH_PTPI_CFG 0 i) 15 8) ++ body

/-- The Follow_Up information: the ratio of the grandmaster's rate to the internal reference less 1, in units of 2^−41. -/
def followUpInfo (ratio : Ratio) : List Byte :=
  let d : Int := ((ratio.num : Int) - ratio.den) * 2 ^ 41 / (max 1 ratio.den : Nat)
  beBytes 4 0x0003_001C ++ beBytes 6 0x0080_C200_0001 ++ beBytes 4 (unsgn 32 d) ++ List.replicate 18 0

/-- A PTP message goes to the queue of CL7 of its port (Table 08.5). -/
def Hw.sendPtp (h : Hw) (p : Nat) (b : List Byte) : Hw :=
  let b := b ++ List.replicate (60 - b.length) 0
  let f : Desc := { typ := 0, len := b.length + 4, cls := 7, entered := h.us % 2 ^ 32, at_ := h.now, own := true }
  if !h.live pgSWC then h else (((h.touch p).entered [8 * p + 7] f (b ++ fcs b)).settle p).grnSync

/-- A port sends Sync for an instance, with the time `origin` at the grandmaster and the correction field `corr` (2^−16 ns): one message
where P0 to P11 send one-step, else Sync and Follow_Up. -/
def Hw.sendSync (h : Hw) (p i origin corr : Nat) (ratio : Ratio) : Hw :=
  let h := h.ethCount p 15
  if p < 12 ∧ h.bit (ETH_PTP p) 16 then h.sendPtp p (h.ptpMessage p i 0 0x0008 corr (ptpStamp origin ++ followUpInfo ratio))
  else
    (h.sendPtp p (h.ptpMessage p i 0 0x0208 0 (List.replicate 10 0))).sendPtp p
      (h.ptpMessage p i 8 0x0008 corr (ptpStamp origin ++ followUpInfo ratio))

/-- An instance sends Sync on its MASTER ports whose link is up and which are asCapable (R354, Table 08.5). -/
def Hw.syncAll (h : Hw) (i origin corr : Nat) (ratio : Ratio) : Hw :=
  let h := (h.ptpPorts i 1).foldl (fun (h : Hw) p =>
    if h.bit (ETH_PHY_STAT p) 31 && h.asCapable p then h.sendSync p i origin corr ratio else h) h
  h.setPtp i { h.ptp i with sent := corr, seq := ((h.ptp i).seq + 1) % 0x1_0000 }

/-- SYNC_INTERVAL (R354, Table 08.5): a grandmaster sends Sync with its time at every sync interval and reports an offset of 0. A
follower relays the Sync of the interval, at most 1 ms after it: the correction field (2^−16 ns) is raised by the residence time and
the upstream link delay, scaled by the rate ratio; an interval without Sync breaks the row that R24 counts. -/
def execSyncInterval (i : Fin 4) (ratio : Ratio) (s : State) : Host.Outcome State Fault Refusal :=
  s.run fun h =>
    let st := ETH_PTPI_STAT 0 i
    let x := h.ptp i
    if !h.ptpOn i then h
    else if h.bit (ETH_PTPI_CFG 0 i) 30 then
      if x.sentAt.any (fun t => decide (h.now < t + h.syncCycles i)) then h
      else
        let h := h.setPtp i { x with sentAt := some h.now, good := min 8 (x.good + 1) }
        ((h.wr (ETH_PTPI_OFS 0 i) 0).putBit st 31 true).syncAll i (h.ptpTime i) 0 ratio
    else if !x.seen then
      if x.at_ + h.syncCycles i < h.now then h.setPtp i { x with good := 0 } else h
    else
      let h := h.setPtp i { x with seen := false }
      let link := h.linkDelay (h.get st 29 24)
      let stay := (h.now - x.at_) * 5 / 6
      if 1_000_000 < stay then h
      else h.syncAll i (x.time - link - x.corr / 2 ^ 16) (x.corr + (stay + link) * ratio.num * 2 ^ 16 / max 1 ratio.den) ratio

/-- SYNC_RECEIPT_TIMEOUT (R24, Table 08.5): three intervals without Sync: a follower's reports are no longer valid, and the slots that
follow it lose it. -/
def execSyncReceiptTimeout (i : Fin 4) (s : State) : Host.Outcome State Fault Refusal :=
  s.run fun h =>
    if !h.ptpOn i || !h.syncLate i then h
    else ((h.setPtp i { h.ptp i with good := 0, seen := false }).putBit (ETH_PTPI_STAT 0 i) 31 false).ptpLost i

/-- PDELAY_EXCHANGE (Table 08.5): the link delay measured, against the threshold of 800 ns. -/
def execPdelayExchange (p : Fin 36) (delay : Nat) (s : State) : Host.Outcome State Fault Refusal :=
  s.run fun h =>
    if !h.bit (ETH_PHY_STAT p) 31 || h.bit (ETH_PTP p) 12 then h
    else
      let x := h.port p
      h.setPort p { x with pdelay := delay, pdelayGood := if delay < 800 then min 2 (x.pdelayGood + 1) else 0 }

end Sys2Proof.Machine
end

