-- ==== Sys2Proof/Machine/Power.lean ====
section
/-! DEFINITION. Power and clock requests (R701 to R705, R572 to R574), event delivery (R706, R729, R570) and the analog
inputs (R707, R708). -/

namespace Sys2Proof.Machine

/-- The domains that a domain needs (Table 20.6). -/
def pdNeeds (d : Nat) : List Nat :=
  if d = 3 ∨ d = 4 ∨ d = 5 then [18, 6]
  else if d = 6 then [18]
  else if d = 7 ∨ d = 8 then [10, 9]
  else if 12 ≤ d ∧ d ≤ 16 then [11]
  else if d = 19 then [2]
  else if d = 23 then [18]
  else []

/-- The order of power-up (R702). -/
def pdOrder : List Nat := [10, 2, 18, 6, 3, 9, 7, 8, 11, 12, 21, 17, 22, 13, 14, 15, 16, 19, 20, 23, 4, 5]

/-- A request may power a domain off (Table 20.6): PD0 and PD1 never, PD2 and PD10 on Secure requests only. -/
def pdMayOff (d : Nat) (secure : Bool) : Bool := decide (2 ≤ d) && (secure || (d != 2 && d != 10))

/-- A powered domain needs domain `d`. -/
def Hw.pdNeeded (h : Hw) (d : Nat) : Bool := (List.range 24).any (fun x => h.pdOn x && (pdNeeds x).contains d)

/-- Same kind and target. -/
def PwrReq.same (r x : PwrReq) : Bool := r.clk == x.clk && r.target == x.target

/-- Once every request of the sleep sequence has ended the module sleeps, and MODULE_SLEEP is raised (R705). -/
def Hw.sleepCheck (h : Hw) : Hw :=
  if h.pwr.sleepSeq && h.pwr.active.isNone && h.pwr.queue.isEmpty && !(h.held.any (fun r => r.mid == 0 && !r.clk)) then
    { h with pwr := { h.pwr with sleepSeq := false, asleep := true } }.raise pgPWR 3
  else h

/-- The PWR takes up waiting requests one domain at a time (R703): one that changes nothing ends at once, an off request
for a domain that a powered domain needs is refused with `RESULT` 3. -/
def Hw.pwrStart : Nat → Hw → Hw
  | 0, h => h
  | fuel + 1, h =>
    if h.pwr.active.isSome then h
    else
      match h.pwr.queue with
      | [] => h
      | r :: t =>
        let h := { h with pwr := { h.pwr with queue := t } }
        if r.on == h.pdOn r.target then
          Hw.pwrStart fuel ((h.putBit PWR_BUSY r.target (t.any r.same)).pwrLast r 0)
        else if !r.on && h.pdNeeded r.target then
          Hw.pwrStart fuel (((h.putBit PWR_BUSY r.target (t.any r.same)).pwrLast r 3).raise pgPWR 1)
        else { h with pwr := { h.pwr with active := some r } }

/-- The PWR goes on with its queue. -/
def Hw.pwrGo (h : Hw) : Hw := (h.pwrStart (h.pwr.queue.length + 1)).sleepCheck

/-- A request joins the queue. -/
def Hw.pwrQueue (h : Hw) (r : PwrReq) : Hw :=
  { h with pwr := { h.pwr with queue := h.pwr.queue ++ [r] } }.putBit PWR_BUSY r.target true

/-- A pending request for the domain that the new request `r` undoes or repeats. -/
def Hw.pwrPendingFor (h : Hw) (r : PwrReq) : Option PwrReq :=
  match h.heldFor r.clk r.target with
  | some x => some x
  | none => h.pwr.queue.find? r.same

/-- A pending request is withdrawn with `RESULT` 5, without a log entry (R703, R574). -/
def Hw.pwrWithdraw (h : Hw) (x : PwrReq) : Hw :=
  let h := h.dropHeld x
  ({ h with pwr := { h.pwr with queue := h.pwr.queue.filter (fun y => !x.same y) } }.putBit PWR_BUSY x.target false).pwrLast x 5

/-- Carry out a clock request: it is immediate (R703). -/
def Hw.clkCarry (h : Hw) (r : PwrReq) : Hw :=
  (h.putBit (PWR_CLK_STATE (r.target / 32)) (r.target % 32) r.on).pwrLast r 0

/-- Carry out a request that nothing holds. -/
def Hw.pwrCarry (h : Hw) (r : PwrReq) : Hw :=
  if r.clk then h.clkCarry r
  else if r.on then
    let first := (pdNeeds r.target).filter (fun d => !h.pdOn d)
    let h := first.foldl (fun h d => h.pwrQueue { r with target := d }) h
    (h.pwrQueue r).pwrGo
  else (h.pwrQueue r).pwrGo

/-- One request (R703, R572): repeated, withdrawn, refused, held or carried out. `byCtl` marks the requests of the sleep
sequence, which Table 20.6 does not forbid. -/
def Hw.pwrRequest (h : Hw) (r : PwrReq) (byCtl : Bool := false) : Hw :=
  let now := if r.clk then h.clkOn r.target else h.pdOn r.target
  match h.pwrPendingFor r with
  | some x => if x.on == r.on then h else if r.on == now then h.pwrWithdraw x else h.pwrCarry r
  | none =>
    if !r.on && !byCtl && !(pdMayOff (if r.clk then domainOf r.target else r.target) r.secure) then
      (h.pwrLast r 4).raise pgPWR 1
    else if !r.on && !r.secure && now && h.marked r then
      ((({ h with held := h.held ++ [{ r with heldAt := h.now }] }.putPend r true).pwrLast r 1).raise pgWGT 1).raise pgPWR 2
    else h.pwrCarry r

/-- The requests of one write, in the order of R702 or its reverse. -/
def pwrTargets (on : Bool) (v : Nat) : List Nat :=
  let l := ([0, 1] ++ pdOrder).filter (fun d => decide (fld v d d = 1))
  if on then l else l.reverse

/-- The request that a bus write makes. -/
def reqOf (on clk : Bool) (target : Nat) (a : Attr) : PwrReq :=
  { on := on, clk := clk, target := target, secure := a.secure, mid := a.mid.toNat, vmid := a.vmid.toNat }

/-- PWR_ON (R703). -/
def execPwrOn (v : Word) (a : Attr) (s : State) : Host.Outcome State Fault Refusal :=
  s.run fun h => h.busWrite PWR_ON a fun h =>
    (pwrTargets true v.toNat).foldl (fun h d => h.pwrRequest (reqOf true false d a)) h

/-- PWR_OFF (R703). -/
def execPwrOff (v : Word) (a : Attr) (s : State) : Host.Outcome State Fault Refusal :=
  s.run fun h => h.busWrite PWR_OFF a fun h =>
    (pwrTargets false v.toNat).foldl (fun h d => h.pwrRequest (reqOf false false d a)) h

/-- The pages of one clock register that a write names and that exist. -/
def clkTargets (m v : Nat) : List Nat :=
  ((List.range 32).filter (fun j => decide (fld v j j = 1) && (pageRow (32 * m + j)).isSome)).map (fun j => 32 * m + j)

/-- PWR_CLK_OFF (R703). -/
def execPwrClkOff (m : Fin 32) (v : Word) (a : Attr) (s : State) : Host.Outcome State Fault Refusal :=
  s.run fun h => h.busWrite (PWR_CLK_OFF m) a fun h =>
    (clkTargets m v.toNat).foldl (fun h p => h.pwrRequest (reqOf false true p a)) h

/-- PWR_CLK_ON (R703). -/
def execPwrClkOn (m : Fin 32) (v : Word) (a : Attr) (s : State) : Host.Outcome State Fault Refusal :=
  s.run fun h => h.busWrite (PWR_CLK_ON m) a fun h =>
    (clkTargets m v.toNat).foldl (fun h p => h.pwrRequest (reqOf true true p a)) h

/-- Held requests that no mark covers any more are carried out (R573). -/
def Hw.releaseHeld (h : Hw) : Hw :=
  h.held.foldl (fun h r => if h.marked r then h else ((h.dropHeld r).raise pgWGT 2).pwrCarry r) h

/-- HOLD_MARK_WRITE (R572, R573). -/
def execHoldMarkWrite (m : Option (Fin 32)) (v : Word) (a : Attr) (s : State) : Host.Outcome State Fault Refusal :=
  s.run fun h =>
    let k := match m with
      | none => WGT_HOLD_PD
      | some m => WGT_HOLD_PAGE m
    h.busWrite k a fun h => (h.storeReg k v.toNat).releaseHeld

/-- HOLD_TIMEOUT (R573). -/
def execHoldTimeout (clk : Bool) (target : Fin 1024) (s : State) : Host.Outcome State Fault Refusal :=
  s.run fun h =>
    match h.heldFor clk target with
    | none => h
    | some r =>
      if decide (h.now < r.heldAt + h.rd WGT_HOLD_TO * 1_200_000) then h else (h.refuseHeld r 1 (h.tick32 0)).sleepCheck

/-- WGT_DENY (R573, R574): refuses a held request with cause 2; nothing pending is error 0x0103. -/
def execWgtDeny (v : Word) (_timeout : Bool) (a : Attr) (s : State) : Host.Outcome State Fault Refusal :=
  s.run fun h => h.busWrite WGT_DENY a fun h =>
    let kind := fld v.toNat 31 30
    if kind = 0 ∨ kind = 3 then h.refuse WGT_DENY 0x0100 a
    else
      match h.heldFor (kind == 2) (fld v.toNat 9 0) with
      | none => h.refuse WGT_DENY 0x0103 a
      | some r => (h.refuseHeld r 2 (h.tick32 0)).sleepCheck

/-- MODULE_SLEEP (R705): with `EN` set, while the NMU reports ALL_ASLEEP, off requests for every domain outside `KEEP_MASK` but PD0 and PD1;
with `KEEP_T1` PD18 goes to self-refresh instead. -/
def execModuleSleep (s : State) : Host.Outcome State Fault Refusal :=
  s.run fun h =>
    if !h.bit PWR_SLEEP 31 || !h.nmu.asleep || h.pwr.asleep || h.pwr.sleepSeq then h
    else
      let keep := h.get PWR_SLEEP 23 0
      let kt1 := h.bit PWR_SLEEP 30
      let l := (pdOrder.reverse).filter (fun d =>
        decide (fld keep d d = 0) && h.pdOn d && !(kt1 && d == 18))
      let p := { h.pwr with sleepSeq := true, slept := l, refresh := kt1 && decide (fld keep 18 18 = 0) }
      let h := { h with pwr := p, nmu := { h.nmu with woke := false } }
      (l.foldl (fun h d =>
        h.pwrRequest { on := false, clk := false, target := d, secure := false, mid := 0, vmid := 0 } true) h).sleepCheck

/-- EVR_ROUTE_WRITE (R706): a route that is enabled while its line is high delivers the line once (R729). -/
def execEvrRouteWrite (e : Fin 2048) (v : Word) (a : Attr) (s : State) : Host.Outcome State Fault Refusal :=
  s.run fun h =>
    let k := EVR_ROUTE e
    h.busWrite k a fun h =>
      if 11 < fld v.toNat 27 24 ∨ 8 < fld v.toNat 19 16 ∨ fld v.toNat 10 0 = 0 then h.refuse k 0x0101 a
      else if !a.secure && (h.lineSecure e || decide (fld v.toNat 19 16 = 0)) then h.refuse k 0x0002 a
      else
        let was := h.bit k 31
        let h := h.storeReg k v.toNat
        if !was && h.bit k 31 && h.lineHigh e then h.deliver e else h

/-- EVENT_DELIVERY (R706, R729, R565): the edge that the EVR has held longest is written into the file that its route named. -/
def execEventDelivery (e : Fin 2048) (s : State) : Host.Outcome State Fault Refusal :=
  s.run fun h =>
    match h.edges with
    | [] => h
    | x :: rest =>
      if x.line = e.val then { h with edges := rest, ints := if h.ints.contains x.dest then h.ints else h.ints ++ [x.dest] }
      else h

/-- An input is selected in a burst (Table 20.12). -/
def Hw.burstHas (h : Hw) (b i : Nat) : Bool :=
  if i < 32 then h.bit (AIN_BURST_W0 b) i else h.bit (AIN_BURST_W1 b) (i - 32)

/-- The inputs of a burst, ascending. -/
def Hw.burstInputs (h : Hw) (b : Nat) : List Nat := (List.range 48).filter (fun i => h.burstHas b i)

/-- The analog value of an input (R707): ⌊4096 × V / VBAT⌋, saturating at 4,095. -/
def analogValue (mv vbat : Nat) : Nat := min 4095 (4096 * mv / (if vbat = 0 then 1 else vbat))

/-- A temperature from the table of 16 points (R707), in °C plus 50: linear between points, clamped outside, where the
second component says that the table was left. Rounding is free (assumption log, entry 6). -/
def Hw.ntcTemp (h : Hw) (x : Nat) : Nat × Bool × Hw :=
  let r := fun k => h.get (AIN_NTC k) 27 16
  let t := fun k => h.get (AIN_NTC k) 7 0
  if r 0 ≤ x then (t 0, decide (r 0 < x), h)
  else if x ≤ r 15 then (t 15, decide (x < r 15), h)
  else
    match (List.range 15).find? (fun k => decide (r (k + 1) ≤ x) && decide (x ≤ r k) && decide (r (k + 1) < r k)) with
    | none => (t 15, false, h)
    | some k =>
      let num := t k * (x - r (k + 1)) + t (k + 1) * (r k - x)
      let (q, h) := h.freeDiv num (r k - r (k + 1))
      (q, false, h)

/-- The digital level of an input (R707): 1 at or above the threshold, 0 again 64 steps below it. -/
def digitalLevel (thr mv vbat : Nat) (old : Bool) : Bool :=
  if thr * vbat ≤ 4096 * mv then true else if 4096 * mv ≤ (thr - 64) * vbat then false else old

/-- One sample of an input, by its mode. -/
def Hw.sampleInput (h : Hw) (i mv vbat : Nat) : Nat × Hw :=
  let mode := h.get (AIN_CFG i) 31 30
  if mode = 0 then
    let k := if i < 32 then AIN_DIN_LO else AIN_DIN_HI
    let lvl := digitalLevel (h.get (AIN_CFG i) 11 0) mv vbat (h.bit k (i % 32))
    (if lvl then 1 else 0, h.putBit k (i % 32) lvl)
  else if mode = 2 then
    let (t, out, h) := h.ntcTemp (analogValue mv vbat)
    let h := { h with ain := { h.ain with temp := file h.ain.temp i t, tempAt := file h.ain.tempAt i h.now } }
    (t, h.raiseIf out pgAIN 1)
  else (analogValue mv vbat, h)

/-- Samples of several inputs, in order. -/
def Hw.sampleInputs (h : Hw) (vbat : Nat) : List Nat → List Nat → List Nat × Hw
  | i :: is, mv :: mvs =>
    let (v, h) := h.sampleInput i mv vbat
    let (t, h) := Hw.sampleInputs h vbat is mvs
    (v :: t, h)
  | _ :: is, [] =>
    let (t, h) := Hw.sampleInputs h vbat is []
    (0 :: t, h)
  | [], _ => ([], h)

/-- ADC_BURST (R708): the burst starts, or the cue is counted in `AIN_OVERRUN`. -/
def adcBurstEff (arg v _tc _idx : Nat) (h : Hw) : Hw :=
  let b := fld arg 3 0
  if (find? h.ain.running b).isSome || !h.bit (AIN_BURST_W1 b) 31 then (h.sat AIN_OVERRUN).raise pgAIN 0
  else { h with ain := { h.ain with running := file h.ain.running b { tick := nowLo v, at_ := h.now } } }

/-- ADC_BURST cue. -/
def execAdcBurst (c : CueRef) (s : State) : Host.Outcome State Fault Refusal := s.run fun h => h.fireCue c 0x03 adcBurstEff

/-- The last input of a burst has been sampled: the j-th one at the cue's effect + (j − 1) µs (R708). -/
def Hw.burstDone (h : Hw) (b : Nat) (r : Burst) : Bool := decide (r.at_ + ((h.burstInputs b).length - 1) * 1200 ≤ h.now)

/-- BURST_COMPLETE (R708): the record is updated in one step. -/
def execBurstComplete (b : Fin 16) (mv : List (BitVec 16)) (vbat : BitVec 16) (s : State) :
    Host.Outcome State Fault Refusal :=
  s.run fun h =>
    match find? h.ain.running b with
    | none => h
    | some r =>
      if !h.live pgAIN || !h.burstDone b r then h
      else
      let h := { h with ain := { h.ain with running := unfile h.ain.running b } }
      let (vals, h) := h.sampleInputs vbat.toNat (h.burstInputs b) (mv.map (·.toNat))
      let bytes := leBytes 4 r.tick ++ vals.flatMap (leBytes 2)
      each 32 (fun w h => if 4 * w < bytes.length then h.wr (AIN_RES b w) (leNat (slice bytes (4 * w) 4)) else h) h

/-- 10 ms have passed since the last sample of a temperature input between bursts (R707). -/
def Hw.pollDue (h : Hw) (i : Nat) : Bool :=
  h.live pgAIN && decide (h.get (AIN_CFG i) 31 30 = 2) &&
    (match find? h.ain.polledAt i with | some t => decide (t + 12_000_000 ≤ h.now) | none => true)

/-- TEMP_INPUT_SAMPLE (R707, R225). -/
def execTempInputSample (i : Fin 48) (mv vbat : BitVec 16) (s : State) : Host.Outcome State Fault Refusal :=
  s.run fun h =>
    if h.pollDue i then
      ({ h with ain := { h.ain with polledAt := file h.ain.polledAt i h.now } }.sampleInput i mv.toNat vbat.toNat).2
    else h

/-- The measured VBAT, its lowest and its highest value (Table 20.9). -/
def Hw.vbatMeasured (h : Hw) (mv : Nat) : Hw :=
  let h := { h.put SUP_VOLT 15 0 mv with hlt := { h.hlt with vmax := max h.hlt.vmax (mv / 10), vmin := min h.hlt.vmin (mv / 10) } }
  let h := if mv < h.rd SUP_VBAT_MIN then h.wr SUP_VBAT_MIN mv else h
  if h.rd SUP_VBAT_MAX < mv then h.wr SUP_VBAT_MAX mv else h

/-- A measured `VBAT` (±50 mV) that may lie below the warning threshold (±2 %, Table 20.2). -/
def Hw.belowWarn (h : Hw) (mv : Nat) : Bool := decide (100 * mv < 102 * h.get SUP_CFG 15 0 + 5000)

/-- A measured `VBAT` that may lie at the Hold exit level or above: 0.25 V to 0.35 V above the threshold (Table 20.2). -/
def Hw.atExitLevel (h : Hw) (mv : Nat) : Bool := decide (98 * h.get SUP_CFG 15 0 + 20_000 ≤ 100 * mv)

/-- HOLD_ENTER (R694, R673): `VBAT` has stayed below the warning threshold for the entry filter time. A page program that is under way may complete. -/
def execHoldEnter (mv : BitVec 16) (s : State) : Host.Outcome State Fault Refusal :=
  s.run fun h =>
    let h := h.vbatMeasured mv.toNat
    if h.bit SUP_STATE 31 || !h.belowWarn mv.toNat then h
    else
      let h := { h with sys := { h.sys with holdSince := h.now }, hlt := { h.hlt with hold := true, holds := h.hlt.holds + 1 } }
      let page := match h.boot.busy with | some o => o.op == 2 | none => false
      let h := { h with boot := { h.boot with page := page } }
      ((h.putBit SUP_STATE 31 true).sat SUP_HOLD_CNT).raise pgSUP 0

/-- VBAT_HIGH (R691, Table 20.1): set above 18.5 V. -/
def execVbatHigh (mv : BitVec 16) (s : State) : Host.Outcome State Fault Refusal :=
  s.run fun h =>
    let h := h.vbatMeasured mv.toNat
    let hi := decide (18_500 < mv.toNat)
    let was := h.bit SUP_STATE 1
    (h.putBit SUP_STATE 1 hi).raiseIf (hi && !was) pgSUP 2

/-- SUP_CNT_CLR (Table 20.9): bits 0 to 3 return the four registers to their reset values, in order. -/
def execSupCntClr (v : Word) (a : Attr) (s : State) : Host.Outcome State Fault Refusal :=
  s.run fun h => h.busWrite SUP_CNT_CLR a fun h =>
    let h := if fld v.toNat 0 0 = 1 then h.wr SUP_VBAT_MIN 0xFFFF else h
    let h := if fld v.toNat 1 1 = 1 then h.wr SUP_VBAT_MAX 0 else h
    let h := if fld v.toNat 2 2 = 1 then h.wr SUP_HOLD_CNT 0 else h
    if fld v.toNat 3 3 = 1 then h.wr SUP_HOLD_LAST 0 else h

/-- An operation is deferred by Hold and counted (R694). -/
def Hw.defer (h : Hw) (d : Deferred) : Hw :=
  let h := { h with sys := { h.sys with deferred := h.sys.deferred ++ [d] } }
  h.put SUP_STATE 23 16 (min 255 h.sys.deferred.length)

/-- The module is in Hold. -/
def Hw.inHold (h : Hw) : Bool := h.bit SUP_STATE 31

end Sys2Proof.Machine
end

