-- ==== Sys2Proof/Machine/Keys.lean ====
section
/-! DEFINITION. The KEY (R578 to R605, R615): its commands, the root, persistent records, random numbers, the life cycle. -/

namespace Sys2Proof.Machine

/-- The TRNG delivers (R596). -/
def Hw.rngOk (h : Hw) : Bool := h.bit (STATUS pgKEY) 1

/-- The root is in slot 0 (R592). -/
def Hw.rootOk (h : Hw) : Bool := h.bit (STATUS pgKEY) 0

/-- A slot is slot 0 or descends from it, looking `n` generations up (R592). -/
def Hw.fromRoot (h : Hw) : Nat → Nat → Bool
  | 0, _ => false
  | n + 1, s =>
    decide (s = 0) ||
      (h.bit (KEY_ATTR_W1 s) 4 && h.childOf s (h.get (KEY_ATTR_W1 s) 31 24) && h.fromRoot n (h.get (KEY_ATTR_W1 s) 31 24))

/-- A command that uses slot `s` finds its root unavailable. -/
def Hw.needsRoot (h : Hw) (s : Nat) : Bool := !h.rootOk && h.fromRoot 9 s

/-- A slot can be used as an operand: it holds a key that is not revoked, and is not the odd slot of a pair (R586). -/
def Hw.slotGood (h : Hw) (s : Nat) : Bool := h.keyValid s && !h.keyRevoked s && !h.oddOfPair s

/-- R581 without a usage bit, for commands whose permission is another one. -/
def Hw.keyAllowed (h : Hw) (s : Nat) (a : Attr) : Bool :=
  let k := KEY_ATTR_W0 s
  (match groupOf a.mid.toNat with | some g => h.bit k (16 + g) | none => false) &&
    h.bit k (if a.secure then 15 else 14) && decide (h.lcs ≤ 4) && h.bit k (9 + h.lcs)

/-- A slot may take a new key of a type (R586, R588). -/
def Hw.slotFree (h : Hw) (d ty : Nat) : Bool :=
  decide (d ≠ 0) && !h.keyValid d && !h.oddOfPair d && (decide (ty ≠ 4) || !h.keyValid (d + 1))

/-- Memory operands of a command. -/
def Hw.keyAddr (h : Hw) : Nat := 2 ^ 32 * h.get KEY_ADDR_HI 7 0 + h.rd KEY_ADDR_LO
def Hw.keyAddr2 (h : Hw) : Nat := 2 ^ 32 * h.get KEY_ADDR2_HI 7 0 + h.rd KEY_ADDR2_LO
def Hw.keyOpLen (h : Hw) : Nat := h.get KEY_LEN 12 0
def Hw.stageType (h : Hw) : Nat := h.get KEY_STAGE 26 24

/-- Attributes of the KEY's own accesses for a command: the world and VMID of its write (R586), the KEY as master. -/
def keyMaster (a : Attr) : Attr := { secure := a.secure, mid := 0x19, vmid := a.vmid }

/-- The attributes of a slot are shown by its odd partner as well (R580). -/
def Hw.mirrorOdd (h : Hw) (d : Nat) : Hw :=
  if h.keyType d = 4 ∧ d % 2 = 0 then
    (h.wr (KEY_ATTR_W0 (d + 1)) (h.rd (KEY_ATTR_W0 d))).wr (KEY_ATTR_W1 (d + 1)) (h.rd (KEY_ATTR_W1 d))
  else h

/-- A key is committed to a slot (R583, R585, R588, R594): attributes from `w0`, and a parent or none. -/
def Hw.commitKey (h : Hw) (d w0 : Nat) (key : List Byte) (parent : Option Nat) : Hw :=
  let gen := h.get (KEY_ATTR_W1 d) 23 16
  let gen := if gen = 255 then 1 else gen + 1
  let w1 := match parent with
    | some p => p * 2 ^ 24 + gen * 2 ^ 16 + h.get (KEY_ATTR_W1 p) 23 16 * 2 ^ 8 + (h.get (KEY_ATTR_W1 p) 7 5 + 1) * 2 ^ 5 + 16
    | none => gen * 2 ^ 16
  let (mask, h) := h.freeBytes key.length
  let h := { h with key := { h.key with keys := file h.key.keys d key, masks := file h.key.masks d mask, fresh := false } }
  ((h.wr (KEY_ATTR_W0 d) (0x8000_0000 + (w0 &&& 0x37FF_FFFF))).wr (KEY_ATTR_W1 d) w1).mirrorOdd d

/-- Key material of a type from a string (R590): for a curve the scalar that the string gives. -/
def keyFrom (ty : Nat) (v : List Byte) : List Byte :=
  if ty = 3 then beBytes 32 (beNat v % (p256.n - 1) + 1)
  else if ty = 4 then beBytes 48 (beNat v % (p384.n - 1) + 1) else v

/-- The counter-mode derivation of R589, iterations `i, …` of `n`: the concatenated results. -/
def kdf (prf : List Byte → List Byte) (data : List Byte) (bits : Nat) : Nat → Nat → List Byte
  | 0, _ => []
  | n + 1, i => prf (beBytes 4 i ++ data ++ beBytes 4 bits) ++ kdf prf data bits n (i + 1)

/-- A key derived under R589: `bits` bits with a PRF whose results have `size` bytes. -/
def derive (prf : List Byte → List Byte) (size : Nat) (data : List Byte) (len : Nat) : List Byte :=
  (kdf prf data (8 * len) ((len + size - 1) / size) 1).take len

/-- A command ends (R584). -/
def Hw.keyEnd (h : Hw) (r : Nat × Hw) : Hw :=
  let _ := h
  ((r.2.put KEY_CMD 26 24 r.1).putBit KEY_CMD 27 false).raise pgKEY 3

/-- A KEY command: a write of `KEY_CMD` with operation `op`, whose effect is `f` (its result code and the state). -/
def Hw.keyCommand (h : Hw) (op : Nat) (v : Word) (a : Attr) (f : Hw → Nat × Hw) : Hw :=
  h.busWrite KEY_CMD a fun h =>
    if h.bit KEY_CMD 27 then h.refuse KEY_CMD 0x0100 a
    else
      let h := h.wr KEY_CMD (op * 2 ^ 28 + v.toNat % 2 ^ 24)
      h.keyEnd (if h.lcs = 4 then (6, h) else f h)

/-- Operands of the command in `KEY_CMD`. -/
def Hw.cmdDst (h : Hw) : Nat := h.get KEY_CMD 23 16
def Hw.cmdSrc (h : Hw) : Nat := h.get KEY_CMD 15 8
def Hw.cmdAux (h : Hw) : Nat := h.get KEY_CMD 7 0

/-- The operand checks of a new slot (R588): a listed type, an even slot for P-384. -/
def Hw.stageOk (h : Hw) : Bool := h.stageType != 7 && (h.stageType != 4 || h.cmdDst % 2 == 0)

/-- GENERATE (Table 16.3, R588). -/
def execGenerate (v : Word) (a : Attr) (s : State) : Host.Outcome State Fault Refusal :=
  s.run fun h => h.keyCommand 1 v a fun h =>
    let ty := h.stageType
    if !h.stageOk then (7, h)
    else if !h.slotFree h.cmdDst ty then (2, h)
    else if !h.rngOk then (5, h)
    else
      let (k, h) := h.freeBytes (keyLen ty)
      (0, h.commitKey h.cmdDst (h.rd KEY_STAGE) (keyFrom ty k) none)

/-- DERIVE (Table 16.3, R588 to R590). -/
def execDerive (v : Word) (a : Attr) (s : State) : Host.Outcome State Fault Refusal :=
  s.run fun h => h.keyCommand 2 v a fun h =>
    let ty := h.stageType
    let p := h.cmdSrc
    let n := h.keyOpLen
    let byCmac := decide (h.cmdAux % 2 = 1)
    if !h.stageOk || n == 0 || decide (256 < n) then (7, h)
    else if h.needsRoot p then (6, h)
    else if !h.slotFree h.cmdDst ty || !h.slotGood p then (2, h)
    else if h.get (KEY_ATTR_W1 p) 7 5 = 7 ∨ (byCmac && (h.keyBytes p).length != 32) = true then (7, h)
    else if !h.keyUse p 5 (groupOf a.mid.toNat) a.secure then (1, h)
    else
      match h.memRead h.keyAddr n (keyMaster a) with
      | (none, h) => (4, h)
      | (some data, h) =>
        let k := h.keyBytes p
        let out := if byCmac then derive (cmac k) 16 data (keyLen ty) else derive (hmac256 k) 32 data (keyLen ty)
        (0, h.commitKey h.cmdDst (h.rd KEY_STAGE) (keyFrom ty out) (some p))

/-- IMPORT (Table 16.3, R588). -/
def execKeyImport (v : Word) (a : Attr) (s : State) : Host.Outcome State Fault Refusal :=
  s.run fun h => h.keyCommand 3 v a fun h =>
    let ty := h.stageType
    let p := h.cmdSrc
    if !h.stageOk || h.keyOpLen != keyLen ty + 8 then (7, h)
    else if h.needsRoot p then (6, h)
    else if !h.slotFree h.cmdDst ty || !h.slotGood p then (2, h)
    else if h.get (KEY_ATTR_W1 p) 7 5 = 7 ∨ 1 < h.keyType p then (7, h)
    else if !h.keyUse p 7 (groupOf a.mid.toNat) a.secure then (1, h)
    else
      match h.memRead h.keyAddr h.keyOpLen (keyMaster a) with
      | (none, h) => (4, h)
      | (some data, h) =>
        match keyUnwrap (h.keyBytes p) data with
        | none => (3, h)
        | some k => (0, h.commitKey h.cmdDst (h.rd KEY_STAGE) k (some p))

/-- The KEY writes bytes at `KEY_ADDR`. -/
def Hw.keyOut (h : Hw) (bs : List Byte) (a : Attr) : Nat × Hw :=
  let r := h.memWrite h.keyAddr bs (keyMaster a)
  (if r.1 then 0 else 4, r.2)

/-- EXPORT (Table 16.3). -/
def execKeyExport (v : Word) (a : Attr) (s : State) : Host.Outcome State Fault Refusal :=
  s.run fun h => h.keyCommand 4 v a fun h =>
    let x := h.cmdSrc
    let w := h.cmdAux
    if h.keyOpLen ≠ keyLen (h.keyType x) + 8 ∨ 1 < h.keyType w then (7, h)
    else if h.needsRoot x || h.needsRoot w then (6, h)
    else if !h.slotGood x || !h.slotGood w then (2, h)
    else if !h.bit (KEY_ATTR_W0 x) 28 || !h.keyAllowed x a || !h.keyUse w 6 (groupOf a.mid.toNat) a.secure then (1, h)
    else h.keyOut (keyWrap (h.keyBytes w) (h.keyBytes x)) a

/-- Slots are revoked (R593, R348, R396). -/
def Hw.revokeSlots (h : Hw) (l : List Nat) : Hw :=
  let l := l.filter (fun s => h.keyValid s)
  if l.isEmpty then h
  else
    let h := l.foldl (fun (h : Hw) s => (h.putBit (KEY_ATTR_W0 s) 30 true).mirrorOdd s) h
    ((h.raise pgKEY 2).canKeysRevoked l).msecKeysRevoked l

/-- CLEAR (Table 16.3, R593). -/
def execClear (v : Word) (a : Attr) (s : State) : Host.Outcome State Fault Refusal :=
  s.run fun h => h.keyCommand 5 v a fun h =>
    let d := h.cmdDst
    if d = 0 ∨ !h.keyValid d || h.oddOfPair d then (2, h)
    else
      let l := h.family d
      let two := decide (h.keyType d = 4)
      let h := h.revokeSlots (l.filter (fun s => s != d))
      let h := (h.canKeysRevoked [d]).msecKeysRevoked [d]
      let h := (h.putBit (KEY_ATTR_W0 d) 31 false).putBit (KEY_ATTR_W0 d) 30 false
      let h := if two then (h.putBit (KEY_ATTR_W0 (d + 1)) 31 false).putBit (KEY_ATTR_W0 (d + 1)) 30 false else h
      (0, { h with key := { h.key with keys := unfile h.key.keys d, masks := unfile h.key.masks d, fresh := false } })

/-- REVOKE (Table 16.3, R593). -/
def execRevoke (v : Word) (a : Attr) (s : State) : Host.Outcome State Fault Refusal :=
  s.run fun h => h.keyCommand 6 v a fun h =>
    let d := h.cmdDst
    if d = 0 ∨ !h.slotGood d then (2, h)
    else
      let h := h.revokeSlots (h.family d)
      (0, { h with key := { h.key with fresh := false } })

/-- NARROW (R587). -/
def execNarrow (v : Word) (a : Attr) (s : State) : Host.Outcome State Fault Refusal :=
  s.run fun h => h.keyCommand 7 v a fun h =>
    let d := h.cmdDst
    let old := h.rd (KEY_ATTR_W0 d)
    let new := h.rd KEY_STAGE
    if d = 0 ∨ !h.slotGood d then (2, h)
    else if new &&& old ≠ new ∨ fld new 31 30 ≠ fld old 31 30 ∨ fld new 26 24 ≠ fld old 26 24 then (7, h)
    else
      let h := (h.wr (KEY_ATTR_W0 d) new).mirrorOdd d
      (0, { h with key := { h.key with fresh := false } })

/-- PUBKEY (Table 16.3). -/
def execPubkey (v : Word) (a : Attr) (s : State) : Host.Outcome State Fault Refusal :=
  s.run fun h => h.keyCommand 8 v a fun h =>
    let x := h.cmdSrc
    let ty := h.keyType x
    if h.needsRoot x then (6, h)
    else if !h.slotGood x then (2, h)
    else if ty < 3 ∨ 5 < ty then (7, h)
    else if !h.keyAllowed x a then (1, h)
    else
      let k := h.keyBytes x
      h.keyOut (if ty = 3 then p256.pub (beNat k) else if ty = 4 then p384.pub (beNat k) else edPub k) a

/-- Bytes of the texts of R598. -/
def pkekText : List Byte := [0x5A, 0x4D, 0x38, 0x38, 0x30, 0x20, 0x50, 0x4B, 0x45, 0x4B]
def pmacText : List Byte := [0x5A, 0x4D, 0x38, 0x38, 0x30, 0x20, 0x50, 0x4D, 0x41, 0x43]

/-- The UID as bytes, least significant first. -/
def Hw.uidBytes (h : Hw) : List Byte := leBytes 4 (h.rd (KEY_UID 0)) ++ leBytes 4 (h.rd (KEY_UID 1))

/-- KEK and MAC key of the persistent record (R598). -/
def Hw.recordKey (h : Hw) (text : List Byte) : List Byte :=
  derive (hmac256 (h.keyBytes 0)) 32 (text ++ [0] ++ h.uidBytes) 32

/-- The slots that PERSIST_SAVE includes (R599). -/
def Hw.persistSlots (h : Hw) : List Nat :=
  (List.range 256).filter (fun s => h.keyValid s && !h.keyRevoked s && h.bit (KEY_ATTR_W0 s) 29 && !h.oddOfPair s)

/-- The record of Table 16.5. -/
def Hw.persistRecord (h : Hw) (l : List Nat) : List Byte :=
  let kek := h.recordKey pkekText
  let head := leBytes 4 0x5945_4B50 ++ leBytes 4 (l.length * 0x1_0000 + 1) ++ leBytes 4 (h.rd KEY_PERSIST_SEQ + 1) ++ h.uidBytes
  let ents := l.flatMap (fun s => slice (leBytes 4 s ++ leBytes 4 (h.rd (KEY_ATTR_W0 s)) ++ keyWrap kek (h.keyBytes s)) 0 64)
  let body := slice (slice head 0 32 ++ ents) 0 0x1020
  body ++ hmac256 (h.recordKey pmacText) body

/-- PERSIST_SAVE (R599). -/
def execPersistSave (v : Word) (a : Attr) (s : State) : Host.Outcome State Fault Refusal :=
  s.run fun h => h.keyCommand 9 v a fun h =>
    let l := h.persistSlots
    if 64 < l.length then (7, h) else if !h.rootOk then (6, h) else h.keyOut (h.persistRecord l) a

/-- Magic, UID and MAC of a record hold (R600). -/
def Hw.recordSound (h : Hw) (r : List Byte) : Bool :=
  decide (leNat (slice r 0 4) = 0x5945_4B50) && slice r 12 8 == h.uidBytes &&
    slice r 0x1020 32 == hmac256 (h.recordKey pmacText) (slice r 0 0x1020)

/-- The entries of a record: slot, word 0, key; none where an unwrap fails (R601). -/
def Hw.recordEntries (h : Hw) (r : List Byte) : Option (List (Nat × Nat × List Byte)) :=
  let kek := h.recordKey pkekText
  (List.range (fld (leNat (slice r 4 4)) 23 16)).foldr (fun k l =>
    match l with
    | none => none
    | some l =>
      let e := slice r (0x20 + 0x40 * k) 64
      let w0 := leNat (slice e 4 4)
      match keyUnwrap kek (slice e 8 (keyLen (fld w0 26 24) + 8)) with
      | none => none
      | some key => some ((leNat (slice e 0 4) % 256, w0, key) :: l)) (some [])

/-- A record is valid: sound, of format 1, at most 64 entries, every unwrap good. -/
def Hw.recordValid (h : Hw) (r : List Byte) : Option (List (Nat × Nat × List Byte)) :=
  let w := leNat (slice r 4 4)
  if h.recordSound r && decide (fld w 15 0 = 1) && decide (fld w 23 16 ≤ 64) then h.recordEntries r else none

/-- The record's sequence number. -/
def recordSeq (r : List Byte) : Nat := leNat (slice r 8 4)

/-- A valid record is loaded (R599, R601). -/
def Hw.loadRecord (h : Hw) (l : List (Nat × Nat × List Byte)) (seq copy : Nat) : Hw :=
  let h := l.foldl (fun (h : Hw) e => if e.1 = 0 then h else h.commitKey e.1 e.2.1 e.2.2 none) h
  (h.wr KEY_PERSIST_SEQ seq).wr KEY_PERSIST_SRC copy

/-- A record is loaded no more after this one (R601). -/
def Hw.notFresh (h : Hw) : Hw := { h with key := { h.key with fresh := false } }

/-- PERSIST_LOAD (R601). -/
def execPersistLoad (v : Word) (a : Attr) (s : State) : Host.Outcome State Fault Refusal :=
  s.run fun h => h.keyCommand 10 v a fun h =>
    if !h.rootOk then (6, h)
    else if !h.key.fresh then (2, h)
    else
      let h := h.notFresh
      match h.memRead h.keyAddr 4160 (keyMaster a) with
      | (none, h) => (4, h)
      | (some x, h) =>
        match h.memRead h.keyAddr2 4160 (keyMaster a) with
        | (none, h) => (4, h)
        | (some y, h) =>
          match h.recordValid x, h.recordValid y with
          | some l, some m =>
            (0, if recordSeq x < recordSeq y then h.loadRecord m (recordSeq y) 1 else h.loadRecord l (recordSeq x) 0)
          | some l, none => (0, (h.loadRecord l (recordSeq x) 0).raiseIf (decide (recordSeq x < recordSeq y)) pgKEY 4)
          | none, some m => (0, (h.loadRecord m (recordSeq y) 1).raiseIf (decide (recordSeq y < recordSeq x)) pgKEY 4)
          | none, none => (3, h.raise pgKEY 5)

/-- The check of a written copy (R600). -/
def Hw.persistCheck (h : Hw) (a : Attr) : Nat × Hw :=
  if !h.rootOk then (6, h)
  else
    match h.memRead h.keyAddr 4160 a with
    | (none, h) => (4, h)
    | (some r, h) =>
      if h.recordSound r ∧ recordSeq r = (h.rd KEY_PERSIST_SEQ + 1) % 2 ^ 32 then
        (0, (h.wr KEY_PERSIST_SEQ (recordSeq r)).wr KEY_PERSIST_SRC 0)
      else (3, h)

/-- A command that Hold defers (R602): `BUSY` stays 1 until Hold ends. -/
def Hw.keyDefers (h : Hw) (op : Nat) (v : Word) (a : Attr) (d : Deferred) (f : Hw → Nat × Hw) : Hw :=
  if h.inHold then
    h.busWrite KEY_CMD a fun h =>
      if h.bit KEY_CMD 27 then h.refuse KEY_CMD 0x0100 a
      else (h.wr KEY_CMD (op * 2 ^ 28 + 2 ^ 27 + v.toNat % 2 ^ 24)).defer d
  else h.keyCommand op v a f

/-- PERSIST_CHECK (R600, R602). -/
def execPersistCheck (v : Word) (a : Attr) (s : State) : Host.Outcome State Fault Refusal :=
  s.run fun h => h.keyDefers 11 v a (.persistCheck a.secure 0x19 a.vmid.toNat) fun h => h.persistCheck (keyMaster a)

/-- CHALLENGE (Table 16.3). -/
def execChallenge (v : Word) (a : Attr) (s : State) : Host.Outcome State Fault Refusal :=
  s.run fun h => h.keyCommand 12 v a fun h =>
    if !h.rngOk then (5, h)
    else
      let (b, h) := h.freeBytes 16
      (0, each 4 (fun k (h : Hw) => h.wr (KEY_CHALLENGE k) (leNat (slice b (4 * k) 4))) h)

/-- The root stands in slot 0 (R591). -/
def Hw.rootIn (h : Hw) : Hw :=
  let key := (List.range 32).map Config.root
  let (mask, h) := h.freeBytes 32
  let h := { h with key := { h.key with keys := file h.key.keys 0 key, masks := file h.key.masks 0 mask } }
  ((h.wr (KEY_ATTR_W0 0) 0x8602_9C20).wr (KEY_ATTR_W1 0) 0x0001_0000).putBit (STATUS pgKEY) 0 true

/-- Enrolment (R595). -/
def Hw.enrol (h : Hw) : Nat × Hw :=
  if h.lcs = 4 then (6, h)
  else if h.lcs ≠ 0 then (1, h)
  else if h.key.helper then (2, h)
  else (0, ({ h with key := { h.key with helper := true } }).rootIn)

/-- ENROL (R595, R602). -/
def execEnrol (v : Word) (a : Attr) (s : State) : Host.Outcome State Fault Refusal :=
  s.run fun h => h.keyDefers 13 v a .enrol Hw.enrol

/-- ROOT_RECONSTRUCT (R591, R592, R604): at power-up of PD2; whether the reconstruction succeeds, and whether the digest of
the authoriser's key is unprogrammed (R615). The random source delivers from here on (`RNG_OK`; assumption log, entry 150). -/
def execRootReconstruct (ok pkBad : Bool) (s : State) : Host.Outcome State Fault Refusal :=
  s.run fun h =>
    if !h.pdOn 2 || h.key.started then h
    else
      let h := { h with key := { h.key with started := true } }.putBit (STATUS pgKEY) 1 true
      let h := if ok && h.key.helper && h.lcs != 4 then h.rootIn else (h.putBit (STATUS pgKEY) 0 false).raise pgKEY 0
      h.raiseIf pkBad pgKEY 7

/-- The next slot is due for a fresh mask, 31.25 µs after the last one (R594). -/
def Hw.maskDue (h : Hw) : Bool := h.pdOn 2 && h.rngOk && decide (h.key.remaskAt + 37_500 ≤ h.now)

/-- REMASK (R594). -/
def execRemask (s : State) : Host.Outcome State Fault Refusal :=
  s.run fun h =>
    if !h.maskDue then h
    else
      let d := h.key.maskAt
      let h := match find? h.key.keys d with
        | some k =>
          let (mask, h) := h.freeBytes k.length
          { h with key := { h.key with masks := file h.key.masks d mask } }
        | none => h
      let h := { h with key := { h.key with maskAt := (d + 1) % 256, remaskAt := h.now } }
      if d = 255 then h.inc KEY_REMASK else h

/-- RNG_FAIL (R596): the repetition count test, or the adaptive proportion test. -/
def execRngFail (apt : Bool) (s : State) : Host.Outcome State Fault Refusal :=
  s.run fun h =>
    if !h.pdOn 2 then h
    else
      let h := if apt then h.satF KEY_RNG_HEALTH 15 8 else h.satF KEY_RNG_HEALTH 7 0
      (h.putBit (STATUS pgKEY) 1 false).raise pgKEY 1

/-- RNG_RESTART (R596): a write of `KEY_RNG_HEALTH`. -/
def execRngRestart (v : Word) (a : Attr) (s : State) : Host.Outcome State Fault Refusal :=
  s.run fun h => h.busWrite KEY_RNG_HEALTH a fun h =>
    if fld v.toNat 31 31 = 1 then h.putBit (STATUS pgKEY) 1 true else h

/-- A read of a read-sensitive register: refused when it is speculative (R10). -/
def Hw.sensitiveRead (h : Hw) (k : Nat) (a : Attr) (f : Hw → Hw) : Hw :=
  h.access k a (fun h => if a.spec then h.refuse k 0x0004 a else f h)

/-- A word popped by a master goes into the gleaning group of `KEY_RNG` (R525, Table 13.7). -/
def Hw.glean (h : Hw) (w mid : Nat) : Hw :=
  let h := h.inc KEY_GLN_CNT
  let h := ((h.wr (KEY_GLN 3) (h.rd (KEY_GLN 2))).wr (KEY_GLN 2) (h.rd (KEY_GLN 1))).wr (KEY_GLN 1) (h.rd (KEY_GLN 0))
  (h.wr (KEY_GLN 0) w).wr KEY_GLN_MID (h.rd KEY_GLN_MID % 2 ^ 24 * 256 + mid % 256)

/-- KEY_RNG_READ (R525, R597): whether an output is ready within 2 µs. -/
def execKeyRngRead (ready : Bool) (a : Attr) (s : State) : Host.Outcome State Fault Refusal :=
  s.run fun h => h.sensitiveRead KEY_RNG a fun h =>
    if !ready || !h.rngOk then h.refuse KEY_RNG 0x0101 a
    else
      let (w, h) := h.freeWord
      (h.glean w a.mid.toNat).answer w

/-- The life cycle may advance from a state to another (Table 16.6). -/
def Hw.lcsAllows (h : Hw) (t : Nat) : Bool :=
  match h.lcs, t with
  | 0, 1 => h.key.helper
  | 1, 2 => true
  | 2, 3 => decide (h.get KEY_LCS 7 4 < 7)
  | 3, 2 => true
  | x, 4 => decide (x ≤ 3)
  | _, _ => false

/-- An advance is burnt (R603). -/
def Hw.lcsBurn (h : Hw) (t : Nat) : Hw :=
  (({ h with key := { h.key with lcsNext := some t } }).putBit KEY_LCS 8 true).raise pgKEY 6

/-- LCS_ADVANCE (R602, R603). -/
def execLcsAdvance (v : Word) (a : Attr) (s : State) : Host.Outcome State Fault Refusal :=
  s.run fun h => h.busWrite KEY_LCS_ADV a fun h =>
    let t := fld v.toNat 2 0
    if !a.secure || fld v.toNat 31 16 != 0x4C43 || !h.lcsAllows t then h.refuse KEY_LCS_ADV 0x0102 a
    else if h.inHold then (h.putBit KEY_CMD 27 true).defer (.lcsAdvance t)
    else h.lcsBurn t

end Sys2Proof.Machine
end

