-- ==== Sys2Proof/Machine/Programmer.lean ====
section
/-! DEFINITION. The flash programmer and the update in place (R671 to R673, R684, R685, R680). -/

namespace Sys2Proof.Machine

/-- Resident loader copies A and B, and the main region (Table 19.1). -/
abbrev copyA : Nat := 0
abbrev copyB : Nat := 0x10_0000
abbrev mainAt : Nat := 0x100_0000
abbrev mainLen : Nat := 0x400_0000

/-- A range of flash lies wholly in ranges that Table 19.1 names. -/
def Hw.flashNamed (h : Hw) (o n : Nat) : Bool :=
  decide (o + n ≤ 0x24_0000) || (decide (0x40_0000 ≤ o) && decide (o + n ≤ 0x80_0000)) ||
    (decide (mainAt ≤ o) && decide (o + n ≤ h.flashBytes))

/-- The command works on the loader that passed the COMMIT check of this recovery session (R672): it erases for it, or writes
or verifies it from the staging buffer. -/
def Hw.renewsLoader (h : Hw) (op o n src : Nat) : Bool :=
  h.bit BOOT_STAGE 31 &&
    (match h.boot.loader with
    | none => false
    | some len =>
      let k := o % 0x10_0000
      decide (k + n ≤ eraseSpan len) && (op == 1 || decide (src = 0x08_0000_0000 + k)))

/-- The programmer refuses a command by its region (R672). -/
def Hw.regionRefused (h : Hw) (op o n src : Nat) : Bool :=
  !h.flashNamed o n ||
    (decide (o < 0x20_0000) && (h.lcs == 4 || (h.lcs == 2 && !h.renewsLoader op o n src)))

/-- A command of the programmer ends with a result (Table 19.7). -/
def Hw.flEnd (h : Hw) (result : Nat) : Hw :=
  let h := { h with boot := { h.boot with busy := none, page := false } }
  let h := ((h.putBit BOOT_FL_CMD 27 false).put BOOT_FL_CMD 26 24 result).putBit (STATUS pgBOOT) 0 false
  h.raise pgBOOT (if result = 0 then 5 else 6)

/-- A write of `BOOT_FL_CMD` (R672, R673, R690). -/
def Hw.flCommand (h : Hw) (v : Nat) (a : Attr) : Hw :=
  let op := fld v 31 28
  let o := h.get BOOT_FL_OFS 29 0
  let n := if op = 1 then 0x1_0000 else h.get BOOT_FL_LEN 24 0
  let src := 2 ^ 32 * h.get BOOT_FL_SRC_HI 7 0 + h.rd BOOT_FL_SRC_LO
  if !a.secure then h.refuse BOOT_FL_CMD 0x0002 a
  else if h.bit BOOT_FL_CMD 27 then h.refuse BOOT_FL_CMD 0x0100 a
  else if op = 0 ∨ 3 < op ∨ (op = 1 ∧ o % 0x1_0000 ≠ 0) ∨ o % 256 ≠ 0 ∨ n % 256 ≠ 0 ∨ n < 256 ∨ 0x100_0000 < n then
    h.refuse BOOT_FL_CMD 0x0101 a
  else
    let h := (h.wr BOOT_FL_CMD (op * 2 ^ 28 + 2 ^ 27)).wr BOOT_FL_DONE 0
    if h.regionRefused op o n src then h.flEnd 1
    else
      let h := h.putBit (STATUS pgBOOT) 0 true
      if h.inHold then h.defer (.flash op o n src)
      else { h with boot := { h.boot with busy := some { op := op, ofs := o, len := n, src := src } } }

/-- FLASH_ERASE. -/
def execFlashErase (v : Word) (a : Attr) (s : State) : Host.Outcome State Fault Refusal :=
  s.run fun h => h.busWrite BOOT_FL_CMD a fun h => h.flCommand (setFld v.toNat 31 28 1) a

/-- FLASH_PROGRAM. -/
def execFlashProgram (v : Word) (a : Attr) (s : State) : Host.Outcome State Fault Refusal :=
  s.run fun h => h.busWrite BOOT_FL_CMD a fun h => h.flCommand (setFld v.toNat 31 28 2) a

/-- FLASH_VERIFY. -/
def execFlashVerify (v : Word) (a : Attr) (s : State) : Host.Outcome State Fault Refusal :=
  s.run fun h => h.busWrite BOOT_FL_CMD a fun h => h.flCommand (setFld v.toNat 31 28 3) a

/-- One page of 256 bytes of a program command; the command ends with its last one. -/
def Hw.flPage (h : Hw) : Hw :=
  match h.boot.busy with
  | none => h
  | some o =>
    match h.memRead (o.src + o.done) 256 (ownAttr 0x02) with
    | (none, h) => h.flEnd 4
    | (some bs, h) =>
      let h := (h.flashProgram (o.ofs + o.done) bs).wr BOOT_FL_DONE (o.done + 256)
      if o.len ≤ o.done + 256 then h.flEnd 0
      else { h with boot := { h.boot with busy := some { o with done := o.done + 256 } } }

/-- A verify command compares flash with memory. -/
def Hw.flVerify (h : Hw) (o : FlashOp) : Hw :=
  match h.memRead o.src o.len (ownAttr 0x02) with
  | (none, h) => h.flEnd 4
  | (some bs, h) => (h.wr BOOT_FL_DONE o.len).flEnd (if h.flashRead o.ofs o.len == bs then 0 else 3)

/-- FL_DONE (R673): the device has ended an erase, a verify, or as many page programs as given; `ok` is false for a device error.
During Hold only the page program that Hold found under way ends. -/
def execFlDone (ok : Bool) (pages : BitVec 17) (s : State) : Host.Outcome State Fault Refusal :=
  s.run fun h =>
    match h.boot.busy with
    | none => h
    | some o =>
      if h.inHold && (o.op != 2 || !h.boot.page) then h
      else if !ok then h.flEnd 2
      else
        match o.op with
        | 1 => (({ h with boot := { h.boot with busy := some o } }.flashErase o.ofs 0x1_0000).wr BOOT_FL_DONE 0x1_0000).flEnd 0
        | 2 =>
          if h.inHold then
            let h := h.flPage
            { h with boot := { h.boot with page := false } }
          else each pages.toNat (fun _ (h : Hw) => h.flPage) h
        | _ => h.flVerify o

/-- The main region is erased for an update (R684). -/
def Hw.updErase (h : Hw) : Hw := h.flashErase mainAt mainLen

/-- Why an update is refused (R684). -/
def Hw.updRefuses (h : Hw) (head : List Byte) (len : Nat) : Option Nat :=
  let w := fun i => leNat (slice head (4 * i) 4)
  if head.length ≠ 256 ∨ w 0 ≠ 0x474D_495A ∨ fld (w 1) 15 0 ≠ 1 ∨ fld (w 1) 31 24 ≠ 1 then some 1
  else if mainLen < w 3 ∨ mainLen < len then some 2
  else if fld (w 2) 7 0 < h.get BOOT_ARB 7 0 then some 3
  else none

/-- UPDATE_GO (R684, R685): a write of `BOOT_UPD_CTRL`. -/
def execUpdateGo (v : Word) (a : Attr) (s : State) : Host.Outcome State Fault Refusal :=
  s.run fun h => h.busWrite BOOT_UPD_CTRL a fun h =>
    if !a.secure then h.refuse BOOT_UPD_CTRL 0x0002 a
    else if fld v.toNat 31 31 = 0 then h
    else if h.get BOOT_UPD_CTRL 2 0 = 1 then h.refuse BOOT_UPD_CTRL 0x0100 a
    else
      let src := 2 ^ 32 * h.get BOOT_UPD_SRC_HI 7 0 + h.rd BOOT_UPD_SRC_LO
      let len := h.rd BOOT_UPD_LEN
      let h := h.putBit BOOT_ACT 31 false
      let (r, h) := h.memRead src 256 (ownAttr 0x02)
      match h.updRefuses (r.getD []) len with
      | some why => h.wr BOOT_UPD_CTRL (why * 2 ^ 8 + 3)
      | none =>
        let h := { h.wr BOOT_UPD_CTRL (2 ^ 31 + 1) with boot := { h.boot with update := some (src, len) } }
        if h.inHold then h.defer .updateWrite else h.updErase

/-- UPD_DONE (R684): writing and read-back have ended; `ok` is false where the device failed. During Hold the write waits. -/
def execUpdDone (ok : Bool) (s : State) : Host.Outcome State Fault Refusal :=
  s.run fun h =>
    match h.boot.update with
    | none => h
    | some (src, len) =>
      if h.inHold then h
      else
        let h := { h with boot := { h.boot with update := none } }
        let fail := fun (h : Hw) => (h.wr BOOT_UPD_CTRL 4).raise pgBOOT 1
        match h.memRead src len (ownAttr 0x02) with
        | (none, h) => fail h
        | (some bs, h) => if ok then ((h.flashProgram mainAt bs).wr BOOT_UPD_CTRL 2).raise pgBOOT 0 else fail h

/-- ACT_ARM (R685): a write of `BOOT_ACT`. -/
def execActArm (v : Word) (a : Attr) (s : State) : Host.Outcome State Fault Refusal :=
  s.run fun h => h.busWrite BOOT_ACT a fun h =>
    if fld v.toNat 31 31 = 1 && (!a.secure || h.get BOOT_UPD_CTRL 2 0 != 2) then h.refuse BOOT_ACT 0x0103 a
    else h.putBit BOOT_ACT 31 (fld v.toNat 31 31 == 1)

/-- Keys are revoked in OTP (R680). -/
def Hw.pkRevoke (h : Hw) (keys : Nat) : Hw := h.put BOOT_ARB 27 24 (h.get BOOT_ARB 27 24 ||| keys)

/-- BOOT_PK_REV (R680, R694). -/
def execBootPkRev (v : Word) (a : Attr) (s : State) : Host.Outcome State Fault Refusal :=
  s.run fun h => h.busWrite BOOT_PK_REV a fun h =>
    let keys := fld v.toNat 3 0
    if fld v.toNat 31 16 ≠ 0x5245 then h.refuse BOOT_PK_REV 0x0101 a
    else if fld keys h.boot.key h.boot.key = 1 then h.refuse BOOT_PK_REV 0x0103 a
    else if h.inHold then h.defer (.pkRev keys)
    else h.pkRevoke keys

end Sys2Proof.Machine
end

