-- ==== Sys2Proof/Machine/Lin.lean ====
section
/-! DEFINITION. The LIN channels (R397 to R404, R408). -/

namespace Sys2Proof.Machine

/-- The frame in progress on a channel. -/
def Hw.linFrame (h : Hw) (l : Nat) : Option LinFrame := find? h.zone.lins l

/-- A frame starts. -/
def Hw.linStart (h : Hw) (l : Nat) (f : LinFrame) : Hw :=
  { h with zone := { h.zone with lins := file h.zone.lins l f } }.putBit (LIN_STAT l) 31 true

/-- The frame in progress is over. -/
def Hw.linEnd (h : Hw) (l : Nat) : Hw :=
  { h with zone := { h.zone with lins := unfile h.zone.lins l } }.putBit (LIN_STAT l) 31 false

/-- The data bytes of a buffer. -/
def Hw.linData (h : Hw) (l b : Nat) : List Byte := leBytes 4 (h.rd (LIN_BUF_DLO l b)) ++ leBytes 4 (h.rd (LIN_BUF_DHI l b))

/-- The protected identifier: two parity bits above the frame identifier. -/
def linPid (fid : Nat) : Nat :=
  let b := fun i => fld fid i i
  fid % 64 + 64 * ((b 0 + b 1 + b 2 + b 4) % 2) + 128 * (1 - (b 1 + b 3 + b 4 + b 5) % 2)

/-- The LIN checksum: the inverted sum with carry, over the data (classic) or over the protected identifier and the data
(enhanced). -/
def linChecksum (enh : Bool) (fid : Nat) (l : List Byte) : Nat :=
  255 - l.foldl (fun s b => let x := s + b.toNat; if 255 < x then x - 255 else x) (if enh then linPid fid else 0)

/-- The frame of an entry (Table 09.7, Table 09.6), whose response starts `bits` bit times from now. -/
def Hw.linEntry (h : Hw) (l k bits : Nat) : LinFrame where
  respAt := h.now + bits * 1_200_000_000 / max 1 (h.get (LIN_CFG l) 15 0)
  buf := h.get k 21 16
  len := h.get k 15 12
  pub := h.bit k 27
  enh := h.bit k 26 && decide (h.get k 30 28 < 2)
  typ := h.get k 30 28
  fid := if h.get k 30 28 = 2 then 0x3C else if h.get k 30 28 = 3 then 0x3D else h.get k 5 0
  data := if h.bit k 27 then (h.linData l (h.get k 21 16)).take (h.get k 15 12) else []

/-- A published response latches its buffer when it starts (R398): the data of a frame whose header is still on the bus follows the
buffer. -/
def Hw.linLatch (h : Hw) (l b : Nat) : Hw :=
  match h.linFrame l with
  | some f => if f.pub && decide (f.buf = b) && decide (h.now < f.respAt) then h.linStart l { f with data := (h.linData l b).take f.len } else h
  | none => h

/-- LIN_SLOT (R398, R402, R456): the header is `BREAK` bits, a delimiter, and two bytes of 10 bits. -/
def linSlotEff (arg _v _tc _idx : Nat) (h : Hw) : Hw :=
  let l := fld arg 10 8
  let e := fld arg 7 0
  if !h.bit (CTRL (pgLIN l)) 0 || !h.bit (LIN_CFG l) 31 || !h.bit (LIN_SCH l e) 31 || h.nmu.linAsleep.contains l then
    h.sat (LIN_CUE_IGN l)
  else if (h.linFrame l).isSome then (h.sat (LIN_OVERRUN_CNT l)).raise (pgLIN l) 3
  else (h.linStart l (h.linEntry l (LIN_SCH l e) (h.get (LIN_CFG l) 28 24 + 21))).put (LIN_STAT l) 7 0 e

/-- LIN_SLOT cue. -/
def execLinSlot (c : CueRef) (s : State) : Host.Outcome State Fault Refusal := s.run fun h => h.fireCue c 0x28 linSlotEff

/-- LIN_HEADER_RX (R403): the lowest-numbered valid response entry that matches. -/
def execLinHeaderRx (l : Fin 8) (fid : Fin 64) (s : State) : Host.Outcome State Fault Refusal :=
  s.run fun h =>
    if !h.bit (CTRL (pgLIN l)) 0 || h.bit (LIN_CFG l) 31 then h
    else
      match (List.range 64).find? (fun f => h.bit (LIN_RSP l f) 31 && decide (h.get (LIN_RSP l f) 5 0 = fid.val)) with
      | none => h
      | some f => h.linStart l (h.linEntry l (LIN_RSP l f) 0)

/-- The outcome of a frame in its buffer (R404): `LOST`, `NO_RESP`, `FRAME_ERR`, `COLL`, identifier and length. -/
def Hw.linStatus (h : Hw) (l : Nat) (f : LinFrame) (bits : Nat) : Hw :=
  let k := LIN_BUF_ST l f.buf
  ((h.put k 30 27 bits).put k 25 20 f.fid).put k 19 16 f.len

/-- LIN_RESPONSE_END (R400, R401, R404). -/
def execLinResponseEnd (l : Fin 8) (r : LinSeen) (s : State) : Host.Outcome State Fault Refusal :=
  s.run fun h =>
    match h.linFrame l with
    | none => h
    | some f =>
      let h := h.linEnd l
      let k := LIN_BUF_ST l f.buf
      if r.readBack then (h.linStatus l f 2).raise (pgLIN l) 1
      else if f.pub then h.linStatus l f 0
      else if r.bytes.isEmpty then (h.linStatus l f 4).raise (pgLIN l) 0
      else
        let d := r.bytes.take f.len
        let good := !r.framing && decide (r.bytes.length = f.len + 1) &&
          decide ((r.bytes.getD f.len 0).toNat = linChecksum f.enh f.fid d)
        if good then
          let h := h.linStatus l f (if h.bit k 31 then 8 else 0)
          let h := (h.wr (LIN_BUF_DLO l f.buf) (leNat (slice d 0 4))).wr (LIN_BUF_DHI l f.buf) (leNat (slice d 4 4))
          let h := { h with zone := { h.zone with linRx := h.zone.linRx.set (64 * l + f.buf) f.fid } }
          (h.incF k 15 0).putBit k 31 true
        else if f.typ = 1 then (h.linStatus l f 1).raise (pgLIN l) 2
        else (h.linStatus l f 2).raise (pgLIN l) 1

/-- The error code of a refused write of a channel (R399, R408). -/
def Hw.linRefuses (h : Hw) (l off v : Nat) : Option Nat :=
  let en := h.bit (CTRL (pgLIN l)) 0
  if off = 0x100 then
    if en then some 0x0100
    else if fld v 28 24 < 13 ∨ 26 < fld v 28 24 ∨ fld v 15 0 < 1000 ∨ 20_000 < fld v 15 0 then some 0x0101
    else none
  else if (0x1000 ≤ off ∧ off < 0x1400) ∨ (0x2000 ≤ off ∧ off < 0x2100) then
    let t := fld v 30 28
    if en then some 0x0100
    else if 3 < t ∨ (0x2000 ≤ off ∧ t ≠ 0) ∨ ((t = 1 ∨ t = 3) ∧ fld v 27 27 = 1) ∨ (t = 2 ∧ fld v 27 27 = 0) ∨
        (fld v 31 31 = 1 ∧ (fld v 15 12 = 0 ∨ 8 < fld v 15 12 ∨ (t < 2 ∧ 59 < fld v 5 0))) then some 0x0101
    else none
  else none

end Sys2Proof.Machine
end

