-- ==== Sys2Proof/Machine/Rio.lean ====
section
/-! DEFINITION. Remote I/O (R409 to R434, R444): sheaves, their transports, stations and their supervision. -/

namespace Sys2Proof.Machine

/-- Internal state of a station. -/
def Hw.stn (h : Hw) (s : Nat) : StnSt := (find? h.zone.stns s).getD {}

/-- Replace it. -/
def Hw.setStn (h : Hw) (s : Nat) (x : StnSt) : Hw := { h with zone := { h.zone with stns := file h.zone.stns s x } }

/-- Count in a station's counter (Table 10.8). -/
def Hw.rioCount (h : Hw) (s k : Nat) : Hw := { h with zone := { h.zone with rioCnt := h.zone.rioCnt.bump (32 * s + k) 1 } }

/-- Fields of a station entry and its status. -/
def Hw.stnEn (h : Hw) (s : Nat) : Bool := h.bit (RIO_STN s 0) 31
def Hw.stnState (h : Hw) (s : Nat) : Nat := h.get (RIO_ST s 0) 31 28
def Hw.stnCad (h : Hw) (s : Nat) : Nat := h.get (RIO_STN s 0) 21 16
def Hw.stnInLen (h : Hw) (s : Nat) : Nat := h.get (RIO_STN s 1) 26 16
def Hw.stnOutLen (h : Hw) (s : Nat) : Nat := h.get (RIO_STN s 1) 10 0
def Hw.stnCan (h : Hw) (s : Nat) : Bool := h.bit (RIO_STN s 0) 30

/-- The state that a commit sees: at the instant of an input cue the one before it (R430). -/
def Hw.stnAtCommit (h : Hw) (s : Nat) : Nat := if (h.stn s).cueAt = some h.now then (h.stn s).was else h.stnState s

/-- Enter a state (Table 10.2), with its bit in `RIO_PRESENTm`. -/
def Hw.setStnState (h : Hw) (s st : Nat) : Hw :=
  (h.put (RIO_ST s 0) 31 28 st).putBit (RIO_PRESENT (s / 32)) (s % 32) (decide (st = 2))

/-- A sheaf's bytes (Table 10.1, R410). -/
def sheafBytes (typ stn : Nat) (payload : List Byte) (seq ref alive flags : Nat) : List Byte :=
  let b := beBytes 1 (0x10 + typ) ++ beBytes 1 stn ++ beBytes 2 payload.length ++ beBytes 2 seq ++ beBytes 2 ref ++
    beBytes 1 alive ++ beBytes 1 flags ++ [0, 0] ++ payload
  b ++ leBytes 4 (crc32 b)

/-- A frame is handed to an internal port of the switch. -/
def Hw.hand (h : Hw) (port : Nat) (bytes : List Byte) : Hw :=
  { h with zone := { h.zone with handed := h.zone.handed ++ [(port, bytes)] } }

/-- An Ethernet header: destination, source, a VLAN tag or none, EtherType. -/
def etherHead (dest src : Nat) (tag : Option (Nat × Nat)) (typ : Nat) : List Byte :=
  beBytes 6 dest ++ beBytes 6 src ++
    (match tag with
      | some (pcp, vid) => beBytes 2 0x8100 ++ beBytes 2 (pcp * 0x2000 + vid)
      | none => []) ++ beBytes 2 typ

/-- A frame padded after its content to 60 bytes, which the MAC completes with its own check sequence to 64 (R416). -/
def padFrame (l : List Byte) : List Byte := l ++ List.replicate (60 - l.length) 0

/-- A sheaf to a station over Ethernet (R416, R424). -/
def Hw.stnEther (h : Hw) (s : Nat) (b : List Byte) : Hw :=
  let w3 := RIO_STN s 3
  let dest := 2 ^ 32 * h.get w3 15 0 + h.rd (RIO_STN s 2)
  let src := 2 ^ 32 * h.get RIO_MAC_HI 15 0 + h.rd RIO_MAC_LO
  let tag := if h.bit w3 31 then some (h.get w3 30 28, h.get w3 27 16) else none
  h.hand 38 (padFrame (etherHead dest src tag (h.get RIO_ETYPE 15 0) ++ b))

/-- The CAN FD segments of a sheaf (R419), from segment number `k`. -/
def segments : Nat → Nat → List Byte → List (List Byte)
  | 0, _, _ => []
  | n + 1, k, l =>
    let last := decide (l.length ≤ 63)
    let head := k % 64 + (if k = 0 then 0x80 else 0) + (if last then 0x40 else 0)
    let body := BitVec.ofNat 8 head :: l.take 63
    if last then [slice body 0 (canLen 1 (canDlc 1 body.length))] else body :: segments n (k + 1) (l.drop 63)

/-- All segments of a sheaf. -/
def segmentsOf (b : List Byte) : List (List Byte) := segments 18 0 b

/-- Send the next segment, if the previous one has been sent (R421). -/
def Hw.segSend (h : Hw) (s : Nat) : Hw :=
  let n := h.get (RIO_STN s 4) 27 24
  let o := h.get (RIO_STN s 4) 22 16
  if h.objPending n o then h
  else
    let x := h.stn s
    let x := match x.segs, x.next with
      | [], some b => { x with segs := segmentsOf b, next := none }
      | _, _ => x
    match x.segs with
    | [] => h.setStn s x
    | g :: t => (h.setStn s { x with segs := t }).canUpdate n o true (canDlc 1 g.length) g

/-- A sheaf to a station over CAN FD (R421): it waits behind one in transmission, and replaces one that waits. -/
def Hw.stnSegments (h : Hw) (s : Nat) (b : List Byte) : Hw :=
  let x := h.stn s
  let n := h.get (RIO_STN s 4) 27 24
  let o := h.get (RIO_STN s 4) 22 16
  if x.segs.isEmpty && !h.objPending n o then (h.setStn s { x with segs := segmentsOf b, next := none }).segSend s
  else
    let h := if x.next.isSome then h.rioCount s 14 else h
    h.setStn s { x with next := some b }

/-- A sheaf goes to a station over its transport. -/
def Hw.stnSend (h : Hw) (s : Nat) (b : List Byte) : Hw := if h.stnCan s then h.stnSegments s b else h.stnEther s b

/-- The next output `SEQ`; the register moves on. -/
def Hw.nextSeq (h : Hw) (s : Nat) : Nat × Hw := (h.get (RIO_ST s 1) 31 16, h.incF (RIO_ST s 1) 31 16)

/-- An output sheaf is sent (R424, R425). -/
def Hw.sendOut (h : Hw) (s : Nat) (o : OutSheaf) : Hw :=
  let x := h.stn s
  let flags := (if o.safe then 4 else 0) + (if o.unchecked then 2 else 0) + (if x.fresh then 1 else 0)
  let h := h.setStn s { x with fresh := false, out := none }
  let h := (h.put (RIO_ST s 1) 15 0 o.ref).rioCount s 8
  h.stnSend s (sheafBytes 2 s o.payload o.seq o.ref o.alive flags)

/-- A heartbeat is sent (R423): the `REF` of the last data sheaf sent, and a new `SEQ`. -/
def Hw.sendHeartbeat (h : Hw) (s : Nat) : Hw :=
  let x := h.stn s
  let (seq, h) := h.nextSeq s
  let h := (h.setStn s { x with fresh := false }).rioCount s 9
  h.stnSend s (sheafBytes 2 s [] seq (h.get (RIO_ST s 1) 15 0) x.aliveOut (if x.fresh then 1 else 0))

/-- An output sheaf is released at a commit (R424, R427). `ref` is the `SEQ` of the input the outputs were computed from. -/
def Hw.releaseSheaf (h : Hw) (s : Nat) (payload : List Byte) (ref : Nat) (safe unchecked : Bool) : Hw :=
  let (seq, h) := h.nextSeq s
  let x := h.stn s
  let a := (x.aliveOut + 1) % 256
  h.setStn s { x with aliveOut := a, out := some ⟨payload, seq, ref, a, safe, unchecked⟩ }

/-- SHEAF_SEND (R424): a sheaf of a station that does not wait for a RIO_SEND cue goes out. -/
def execSheafSend (s : Fin 256) (st : State) : Host.Outcome State Fault Refusal :=
  st.run fun h =>
    match (h.stn s).out with
    | none => h
    | some o => if h.bit (RIO_STN s 0) 28 || !h.stnEn s || !h.bit (CTRL pgRIO) 0 then h else h.sendOut s o

/-- SEGMENT_SEND (R421). -/
def execSegmentSend (s : Fin 256) (st : State) : Host.Outcome State Fault Refusal :=
  st.run fun h => if h.stnCan s then h.segSend s else h

/-- RIO_POLL (R422, R423). -/
def rioPollEff (arg _v _tc _idx : Nat) (h : Hw) : Hw :=
  let s := fld arg 7 0
  if !h.bit (CTRL pgRIO) 0 || !h.stnEn s || !h.bit (RIO_STN s 0) 29 then h.sat RIO_CUE_IGN
  else (h.rioCount s 10).stnSend s (sheafBytes 3 s [] 0 (h.get (RIO_ST s 0) 15 0) 0 0)

/-- RIO_SEND (R423, R432). -/
def rioSendEff (arg _v _tc _idx : Nat) (h : Hw) : Hw :=
  let s := fld arg 7 0
  if !h.bit (CTRL pgRIO) 0 || !h.stnEn s || !h.bit (RIO_STN s 0) 28 then h.sat RIO_CUE_IGN
  else if h.stnState s ≠ 2 then h
  else
    match (h.stn s).out with
    | some o => h.sendOut s o
    | none => h.sendHeartbeat s

/-- RIO_POLL cue. -/
def execRioPoll (c : CueRef) (s : State) : Host.Outcome State Fault Refusal := s.run fun h => h.fireCue c 0x30 rioPollEff

/-- RIO_SEND cue. -/
def execRioSend (c : CueRef) (s : State) : Host.Outcome State Fault Refusal := s.run fun h => h.fireCue c 0x31 rioSendEff

/-- A data sheaf is stored and stamped (R414, R415, R428). -/
def Hw.storeSheaf (h : Hw) (s : Nat) (seq alive : Nat) (payload : List Byte) : Hw :=
  let x := h.stn s
  let lim := h.get (RIO_STN s 0) 7 0
  let same := x.hasData && decide (x.alive = alive)
  let run := if same then x.aliveRun + 1 else 1
  let at_ := h.slotVal (h.cadTc (h.stnCad s)) / tickUnit
  let h := h.setStn s { x with hasData := true, data := payload, seq := seq, alive := alive, aliveRun := run, stamp := at_ }
  let h := h.wr (RIO_ST s 2) (h.tick32 (h.cadTc (h.stnCad s)))
  let stuck := h.bit (RIO_ST s 0) 25
  let h :=
    if !same then h.putBit (RIO_ST s 0) 25 false
    else if 0 < lim ∧ lim < run ∧ stuck = false then (h.putBit (RIO_ST s 0) 25 true).raise pgRIO 4
    else h
  let st := h.stnState s
  (if st = 1 ∨ st = 3 then h.setStnState s 4 else h).rioCount s 0

/-- A sheaf of a station whose transport delivered it: the checks of R411 to R413, then R414 and R415. -/
def Hw.takeSheaf (h : Hw) (s : Nat) (b : List Byte) : Hw :=
  let len := fld (beNat (slice b 2 2)) 10 0
  let inLen := h.stnInLen s
  if (b.getD 0 0).toNat ≠ 0x11 ∨ (b.getD 1 0).toNat ≠ s ∨ (len ≠ inLen ∧ len ≠ 0) ∨ b.length < 16 + len then h.rioCount s 3
  else if leNat (slice b (12 + len) 4) ≠ crc32 (b.take (12 + len)) then (h.rioCount s 2).raise pgRIO 2
  else
    let seq := beNat (slice b 4 2)
    let resync := fld (b.getD 9 0).toNat 0 0 = 1
    let d := (seq + 0x10000 - h.get (RIO_ST s 0) 15 0) % 0x10000
    let st := h.stnState s
    let any := decide resync || st == 1 || st == 3
    if !any && (d == 0 || decide (32_767 < d)) then h.rioCount s 4
    else
      let h := if !any && decide (1 < d) then (h.rioCount s 5).raise pgRIO 3 else h
      let h := h.put (RIO_ST s 0) 15 0 seq
      let h := if resync then ((h.setStn s { h.stn s with resync := true }).rioCount s 13).raise pgRIO 5 else h
      let h := h.setStn s { h.stn s with heard := true }
      if len = inLen then h.storeSheaf s seq (b.getD 8 0).toNat (slice b 12 len) else h.rioCount s 1

/-- SHEAF_RX (R411, R416): a sheaf addressed to `RIO_MAC`; the station is the one that `STN` names. -/
def execSheafRx (m : MacPair) (b : List Byte) (st : State) : Host.Outcome State Fault Refusal :=
  st.run fun h =>
    let s := (b.getD 1 0).toNat
    if !h.bit (CTRL pgRIO) 0 || !h.stnEn s || h.stnCan s || decide (m.dst.toNat ≠ 2 ^ 32 * h.get RIO_MAC_HI 15 0 + h.rd RIO_MAC_LO) then h
    else if h.bit (RIO_STN s 0) 27 && decide (m.src.toNat ≠ 2 ^ 32 * h.get (RIO_STN s 3) 15 0 + h.rd (RIO_STN s 2)) then
      (h.rioCount s 6).raise pgRIO 6
    else h.takeSheaf s b

/-- A segment error (R420). -/
def Hw.segErr (h : Hw) (s : Nat) : Hw :=
  ((h.setStn s { h.stn s with part := none }).rioCount s 7).raise pgRIO 7

/-- SEGMENT_RX (R420). -/
def execSegmentRx (s : Fin 256) (st : State) : Host.Outcome State Fault Refusal :=
  st.run fun h =>
    let n := h.get (RIO_STN s 4) 27 24
    let o := h.get (RIO_STN s 4) 14 8
    let k := CAN_OBJ n o 6
    if !h.bit (CTRL pgRIO) 0 || !h.stnEn s || !h.stnCan s || !h.bit k 30 then h
    else
      let lost := h.bit k 29
      let d := slice (h.objData n o) 0 (canLen (h.objFmt n o) (h.objDlc n o))
      let h := (h.putBit k 30 false).putBit k 29 false
      let b := (d.getD 0 0).toNat
      let num := fld b 5 0
      let first := decide (fld b 7 7 = 1)
      let step : Option (List Byte) :=
        if first then some (d.drop 1)
        else match (h.stn s).part with
          | some (next, l) => if num = next then some (l ++ d.drop 1) else none
          | none => none
      match step with
      | none => h.segErr s
      | some l =>
        if lost then h.segErr s
        else if fld b 6 6 = 1 then (h.setStn s { h.stn s with part := none }).takeSheaf s l
        else h.setStn s { h.stn s with part := some ((num + 1) % 64, l) }

/-- CAN objects of a station are unusable (R418): `w` is the entry's word 4. -/
def Hw.stnObjsBad (h : Hw) (w : Nat) : Bool :=
  let n := fld w 27 24
  let bad := fun o tx =>
    !h.objValid n o || h.objTx n o != tx || decide (h.objFmt n o ≠ 1) || decide (h.objCap n o ≠ 64)
  bad (fld w 22 16) true || bad (fld w 14 8) false

/-- The error code of a refused write of word `w` of a station entry (R418, R429, R444). -/
def Hw.rioRefuses (h : Hw) (s w v : Nat) : Option Nat :=
  if w = 0 then
    if fld v 11 8 = 0 then some 0x0101
    else if fld v 31 31 = 1 ∧ fld v 30 30 = 1 ∧ h.stnObjsBad (h.rd (RIO_STN s 4)) = true then some 0x0102
    else none
  else if h.stnEn s then some 0x0100
  else if w = 1 ∧ (1024 < fld v 26 16 ∨ 1024 < fld v 10 0) then some 0x0101
  else none

/-- STATION_ENABLE (R428, R431). -/
def execStationEnable (s : Fin 256) (v : Word) (a : Attr) (st : State) : Host.Outcome State Fault Refusal :=
  st.run fun h => h.busWrite (RIO_STN s 0) a fun h =>
    match h.rioRefuses s 0 v.toNat with
    | some code => h.refuse (RIO_STN s 0) code a
    | none =>
      let was := h.stnEn s
      let h := h.storeReg (RIO_STN s 0) v.toNat
      if h.stnEn s && !was then
        let x := h.stn s
        ((h.setStn s { x with heard := false }).setStnState s 1).put (RIO_ST s 0) 23 16 0
      else if !h.stnEn s && was then h.setStnState s 0
      else h

/-- A deadline of a station (R428, R429): the first act of an input cue of its supervising cadence. -/
def Hw.stationDeadline (h : Hw) (s : Nat) : Hw :=
  let x := h.stn s
  let st := h.stnState s
  let clear := fun (h : Hw) => h.put (RIO_ST s 0) 23 16 0
  let h :=
    if st = 4 then
      let h := (clear (h.setStnState s 2)).setStn s { h.stn s with fresh := true, out := none }
      (h.put RIO_EVT_STN 15 8 s).raise pgRIO 1
    else if x.heard then clear h
    else if st = 1 ∨ st = 2 ∨ st = 3 then
      let m := min 255 (h.get (RIO_ST s 0) 23 16 + 1)
      let h := (h.put (RIO_ST s 0) 23 16 m).rioCount s 11
      if st = 2 ∧ h.get (RIO_STN s 0) 11 8 ≤ m then
        (((h.setStnState s 3).rioCount s 12).put RIO_EVT_STN 7 0 s).raise pgRIO 0
      else h
    else h
  h.setStn s { h.stn s with heard := false, was := st, cueAt := some h.now }

/-- The quality word of a station at an input cue whose slot shows the 40-bit tick `tick` (R434), as 8 bytes. -/
def Hw.qualityWord (h : Hw) (s tick : Nat) : List Byte :=
  let x := h.stn s
  let st := h.stnState s
  let w0 := st * 2 ^ 28 + (if st = 2 then 0 else 2 ^ 27) + (if h.bit (RIO_ST s 0) 25 then 2 ^ 25 else 0) +
    (if x.resync then 2 ^ 24 else 0) + 2 ^ 16 * h.get (RIO_ST s 0) 23 16 + x.seq
  let age := if x.hasData then min 0xFFFF_FFFF ((tick + 2 ^ 40 - x.stamp) % 2 ^ 40) else 0xFFFF_FFFF
  leBytes 4 w0 ++ leBytes 4 age

/-- After the latch: the data sheaf latched at this cue is the one that outputs refer to (R424), and the RESYNC seen
lapses. -/
def Hw.stationLatched (h : Hw) (s : Nat) : Hw :=
  let x := h.stn s
  h.setStn s { x with latched := x.seq, resync := false }

/-- RIO_CNT_CLR (Table 10.6). -/
def execRioCntClr (v : Word) (a : Attr) (st : State) : Host.Outcome State Fault Refusal :=
  st.run fun h => h.busWrite RIO_CNT_CLR a fun h =>
    { h with zone := { h.zone with rioCnt := h.zone.rioCnt.set (32 * fld v.toNat 23 16 + fld v.toNat 4 0) 0 } }

end Sys2Proof.Machine
end

