-- ==== Sys2Proof/Machine/Boot.lean ====
section
/-! DEFINITION. Boot stages, images and recovery mode (R674 to R683, R687, R688). -/

namespace Sys2Proof.Machine

/-- The fields of an image that its checks use (Table 19.3). -/
def imgWord (b : List Byte) (i : Nat) : Nat := leNat (slice b (4 * i) 4)
def imgKind (b : List Byte) : Nat := fld (imgWord b 1) 31 24
def imgLevel (b : List Byte) : Nat := fld (imgWord b 1) 23 16
def imgSvn (b : List Byte) : Nat := fld (imgWord b 2) 7 0
def imgLen (b : List Byte) : Nat := imgWord b 3
def imgSections (b : List Byte) : Nat := fld (imgWord b 4) 7 0
def imgKey (b : List Byte) : Nat := fld (imgWord b 5) 1 0

/-- The digest of a signing key as OTP holds it. -/
def Hw.pkDigest (h : Hw) (k : Nat) : List Byte := (List.range 12).flatMap (fun w => leBytes 4 (h.rd (BOOT_PK (12 * k + w))))

/-- The anti-rollback counter for a kind of image (R679). -/
def Hw.arbOf (h : Hw) (kind : Nat) : Nat := if kind = 1 then h.get BOOT_ARB 7 0 else h.get BOOT_ARB 21 16

/-- The check of an image (R677): `b` holds at least the image, `room` is the length of its flash region. The reason of Table
19.8 for the first condition that fails. -/
def Hw.imageFails (h : Hw) (b : List Byte) (kind room : Nat) : Option Nat :=
  let n := imgLen b
  let sig := slice b (n - 256) 256
  let pk := sig.take 97
  let k := imgKey b
  if imgWord b 0 ≠ 0x474D_495A ∨ fld (imgWord b 1) 15 0 ≠ 1 ∨ imgKind b ≠ kind ∨ n % 256 ≠ 0 ∨ n < 512 ∨ room < n ∨
      imgSections b = 0 ∨ 64 < imgSections b then some 1
  else if h.bit BOOT_ARB (24 + k) || sha384 pk != h.pkDigest k || !p384.verify pk (slice sig 97 96) (sha384 (b.take 256)) then some 2
  else if sha384 (slice b 0x100 (n - 512)) != slice b 0x40 48 then some 3
  else if imgLevel b ≠ 1 then some 5
  else if imgSvn b < h.arbOf kind then some 4
  else none

/-- The section table (R678): type, unit, offset, length, CRC. -/
def imgTable (b : List Byte) : List (Nat × Nat × Nat × Nat × Nat) :=
  (List.range (imgSections b)).map (fun i =>
    let w := fun j => imgWord b (64 + 4 * i + j)
    (fld (w 0) 31 24, fld (w 0) 7 0, w 1, w 2, w 3))

/-- The sections of a main image are as R678 asks. -/
def sectionsOk (b : List Byte) : Bool :=
  let t := imgTable b
  let count := fun ty => (t.filter (fun e => e.1 == ty)).length
  let phy := fun u => (t.filter (fun e => e.1 == 4 && e.2.1 == u)).length
  t.all (fun e => decide (1 ≤ e.1) && decide (e.1 ≤ 7) && decide (e.2.2.1 + e.2.2.2.1 ≤ imgLen b) &&
      crc32 (slice b e.2.2.1 e.2.2.2.1) == e.2.2.2.2) &&
    [1, 2, 3, 5, 7].all (fun ty => count ty == 1) && [1, 2, 3].all (fun u => phy u == 1) && count 4 == 3

/-- Both checks of an image. -/
def Hw.imageReason (h : Hw) (b : List Byte) (kind room : Nat) : Option Nat :=
  match h.imageFails b kind room with
  | some r => some r
  | none => if kind = 1 ∧ sectionsOk b = false then some 8 else none

/-- A counter is burnt up to a security version (R679). -/
def Hw.arbBurn (h : Hw) (main : Bool) (svn : Nat) : Hw :=
  (if main then h.put BOOT_ARB 7 0 svn else h.put BOOT_ARB 21 16 svn).raise pgBOOT 4

/-- An image that has passed advances its counter; during Hold the burn waits (R679). -/
def Hw.arbAdvance (h : Hw) (kind svn : Nat) : Hw :=
  if svn ≤ h.arbOf kind then h
  else if h.inHold then h.defer (.arbAdvance (kind == 1) svn)
  else h.arbBurn (kind == 1) svn

/-- Entry into a boot stage, with its stamp (R674). -/
def Hw.bootStage (h : Hw) (st : Nat) : Hw :=
  (h.put BOOT_STAGE 2 0 st).wr (BOOT_STAMP (st - 1)) ((h.now - h.boot.released) / 1200)

/-- A boot stage runs: the reset is released, the stage is due, and recovery mode has not been entered or called for. -/
def Hw.bootAt (h : Hw) (st : Nat) : Bool :=
  !h.sys.inReset && !h.bit BOOT_STAGE 31 && h.boot.enter.isNone && h.get BOOT_STAGE 2 0 == st

/-- The loader or the ROM is to enter recovery mode. -/
def Hw.toRecovery (h : Hw) (reason : Nat) : Hw := { h with boot := { h.boot with enter := some reason } }

/-- STAGE_ROM (R674): stage 0 ends. -/
def execStageRom (s : State) : Host.Outcome State Fault Refusal :=
  s.run fun h => if h.bootAt 0 then h.bootStage 1 else h

/-- LOADER_CHECK (R674, R676, R677, R681): copy A, or else copy B. -/
def execLoaderCheck (s : State) : Host.Outcome State Fault Refusal :=
  s.run fun h =>
    if !h.bootAt 1 then h
    else
      let good := [copyA, copyB].map (fun o => h.flashRead o 0x10_0000) |>.find? (fun b => h.imageReason b 2 0x10_0000 == none)
      match good with
      | none => h.toRecovery 10
      | some b =>
        let h := (h.arbAdvance 2 (imgSvn b)).bootStage 2
        match h.boot.reason with
        | some r => h.toRecovery r
        | none => if h.get BOOT_STAGE 18 16 = 0 then h else h.toRecovery 6

/-- IMAGE_CHECK (R674, R677 to R679): the main image goes to T1 and is checked. -/
def execImageCheck (s : State) : Host.Outcome State Fault Refusal :=
  s.run fun h =>
    if !h.bootAt 2 then h
    else
      let n := min mainLen (leNat (h.flashRead (mainAt + 12) 4))
      let b := h.flashRead mainAt (max 512 n)
      let h := h.spaceWrite .t1 (Config.imageAt % 2 ^ 34) b
      match h.imageReason b 1 mainLen with
      | some r => h.toRecovery r
      | none =>
        let h := { h with boot := { h.boot with key := imgKey b, image := some n } }
        ((h.arbAdvance 1 (imgSvn b)).wr BOOT_IMG_SVN (imgSvn b)).bootStage 3

/-- The system controller loads the profiles of Table 05.6, all valid (R218): their registers return to what Table 05.18 gives. -/
def Hw.loadProfiles (h : Hw) : Hw :=
  { h with regs := h.regs.filter (fun e => !(decide (LPM_PROF 0 0 ≤ e.1) && decide (e.1 ≤ LPM_PROF 7 31)) && e.1 != LPM_PROF_VALID) }

/-- UNIT_RELOAD (R218, R675, R678, R698): the sections go into their units, in the order SERDES, SWITCH, PHY, PSS, SYSCTL; the cores'
firmware goes to the start of T1, and core 0 starts in the Secure world. -/
def execUnitReload (s : State) : Host.Outcome State Fault Refusal :=
  s.run fun h =>
    match (if h.bootAt 3 then h.boot.image else none) with
    | none => h
    | some n =>
      let b := (List.range n).map (fun i => h.t1Byte (Config.imageAt % 2 ^ 34 + i))
      let t := imgTable b
      let units := [7, 5, 4, 3, 1].flatMap (fun ty => (t.filter (fun e => e.1 == ty)).map (fun e => (e.1, e.2.1, e.2.2.2.2)))
      let h := { h.loadProfiles with boot := { h.boot with loaded := units } }
      let h := match t.find? (fun e => e.1 == 2) with
        | some e =>
          let h := h.spaceWrite .t1 0 (slice b e.2.2.1 e.2.2.2.1)
          { h with cores := h.cores.set 0 { world := true } }
        | none => h
      h.bootStage 4

/-- The fixed input "ZM880 BASE" (R688). -/
def baseText : List Byte := [0x5A, 0x4D, 0x38, 0x38, 0x30, 0x20, 0x42, 0x41, 0x53, 0x45]

/-- A copy of the baseline block is valid (R688). -/
def Hw.baseValid (h : Hw) (b : List Byte) : Bool :=
  imgWord b 0 == 0x4553_4142 && fld (imgWord b 1) 15 0 == 1 && slice b 12 8 == h.uidBytes && h.rootOk &&
    slice b 0xFE0 32 == hmac256 (h.recordKey baseText) (slice b 0 0xFE0)

/-- The valid copy with the higher sequence (R688). -/
def Hw.baseline (h : Hw) : Option (List Byte) :=
  (([0x22_0000, 0x23_0000].map (fun o => h.flashRead o 4096)).filter h.baseValid).foldl (fun best b =>
    match best with
    | none => some b
    | some x => if imgWord x 2 < imgWord b 2 then some b else some x) none

/-- The backbone settings of the baseline block (R681, Table 19.5). -/
def Hw.backbone (h : Hw) (b : List Byte) : Hw :=
  let h := h.wr (ETH_PTPI_CFG 0 0) (imgWord b 7)
  let h := each 4 (fun p (h : Hw) =>
    ((h.wr (ETH_PTP p) (imgWord b (8 + p))).wr (ETH_CFG p) (imgWord b (12 + p))).wr (ETH_PTP_LAT p) (imgWord b (16 + p))) h
  (h.wr RIO_MAC_LO (imgWord b 20)).wr RIO_MAC_HI (imgWord b 21 % 0x1_0000)

/-- The module's address without a baseline block (R682): 02-5A and bytes 3 to 0 of the UID. -/
def Hw.uidAddress (h : Hw) : Hw := (h.wr RIO_MAC_HI 0x025A).wr RIO_MAC_LO (h.rd (KEY_UID 0))

/-- P0 to P3 and P38 run with the baseline block, or with reset values (R681). -/
def Hw.withBase (h : Hw) : Option (List Byte) → Hw
  | some b => h.backbone b
  | none => h.uidAddress

/-- Inbound window 0 of the bridge maps BAR 0 of 64 MiB onto the staging buffer, in the endpoint role (R676, R682). -/
def Hw.stagingWindow (h : Hw) : Hw :=
  if h.bit SPN_LINK 30 then h
  else (((h.wr (SPN_BAR 0) 26).wr (SPN_IW 0 3) 0x8_0000).wr (SPN_IW 0 0) 0xF01A_0000).putBit SPN_CFG 31 true

/-- The module is in recovery mode with a reason (R681). -/
def Hw.inRecovery (h : Hw) (r : Nat) : Hw :=
  let h := { h with boot := { h.boot with enter := none, reason := none, loader := none } }
  ((h.putBit BOOT_STAGE 31 true).put BOOT_STAGE 27 24 r).putBit HLT_FW_FLAGS 1 true

/-- The settings of recovery mode (R681, R682). -/
def Hw.recoverySettings (h : Hw) : Hw :=
  let h := h.withBase h.baseline
  if h.get BOOT_STAGE 18 16 = 2 then h.stagingWindow else h

/-- RECOVERY_ENTRY (R681). -/
def execRecoveryEntry (s : State) : Host.Outcome State Fault Refusal :=
  s.run fun h =>
    match h.boot.enter with
    | none => h
    | some r => (h.inRecovery r).recoverySettings.raise pgBOOT 7

/-- The staging buffer is 64 MiB at the start of T1 (R682). -/
abbrev stagingAt : Nat := 0x08_0000_0000

/-- A recovery frame that is accepted (R682, R683): on P0 to P3, addressed to the module, of the recovery EtherType, with a
`LEN` in range and a right CRC: the sender's address and the frame's payload. -/
def Hw.recoveryFrame (h : Hw) (b : List Byte) (op : Nat) : Option (Nat × List Byte) :=
  let x := b.drop 14
  let n := leNat (slice x 8 2)
  let lenOk := if op = 2 then decide (1 ≤ n) && decide (n ≤ 1024) else if op = 3 then n == 4 else true
  if h.bit BOOT_STAGE 31 && beNat (slice b 0 6) == 2 ^ 32 * h.get RIO_MAC_HI 15 0 + h.rd RIO_MAC_LO &&
      beNat (slice b 12 2) == h.get BOOT_RCV_ETYPE 15 0 && leNat (slice x 0 2) == op && lenOk && decide (16 + n ≤ x.length) &&
      crc32 (x.take (12 + n)) == leNat (slice x (12 + n) 4)
  then some (beNat (slice b 6 6), x) else none

/-- An answer to a recovery frame (Table 19.4): STATUS or ACK. -/
def Hw.recoveryAnswer (h : Hw) (p host seq : Nat) (status : Bool) (result : Nat) : Hw :=
  let data := if status then wordBytes [h.rd BOOT_STAGE, h.rd BOOT_ARB, h.rd (KEY_UID 0), h.rd (KEY_UID 1)] else []
  let x := leBytes 2 (if status then 4 else 5) ++ leBytes 2 seq ++ leBytes 4 0 ++ leBytes 2 data.length ++ leBytes 2 result ++ data
  let src := 2 ^ 32 * h.get RIO_MAC_HI 15 0 + h.rd RIO_MAC_LO
  let f := padFrame (etherHead host src none (h.get BOOT_RCV_ETYPE 15 0) ++ x ++ leBytes 4 (crc32 x))
  { h with boot := { h.boot with answers := h.boot.answers ++ [(p, f)] } }

/-- QUERY (R683). -/
def execQuery (p : Fin 4) (b : List Byte) (s : State) : Host.Outcome State Fault Refusal :=
  s.run fun h =>
    match h.recoveryFrame b 1 with
    | none => h
    | some (host, x) => h.recoveryAnswer p host (leNat (slice x 2 2)) true 0

/-- DATA (R682, R683). -/
def execData (p : Fin 4) (b : List Byte) (s : State) : Host.Outcome State Fault Refusal :=
  s.run fun h =>
    match h.recoveryFrame b 2 with
    | none => h
    | some (host, x) =>
      let o := leNat (slice x 4 4)
      let n := leNat (slice x 8 2)
      let seq := leNat (slice x 2 2)
      if 0x400_0000 < o + n then h.recoveryAnswer p host seq false 1
      else (h.memWrite (stagingAt + o) (slice x 12 n) (ownAttr 0)).2.recoveryAnswer p host seq false 0

/-- The answer to a COMMIT, where one is due. -/
def Hw.commitAnswer (h : Hw) (answer : Option (Nat × Nat × Nat)) (result : Nat) : Hw :=
  match answer with
  | some (p, host, seq) => h.recoveryAnswer p host seq true result
  | none => h

/-- A checked image is written to flash and read back (R683); `ok` is false where the device failed. The module then answers and
restarts 100 ms later. -/
def Hw.recoveryWrite (h : Hw) (kind n : Nat) (ok : Bool) (answer : Option (Nat × Nat × Nat)) : Hw :=
  match h.memRead stagingAt n (ownAttr 0x02) with
  | (none, h) => h.commitAnswer answer 3
  | (some b, h) =>
    if !ok then h.commitAnswer answer 3
    else
      let h := if kind = 1 then (h.flashErase mainAt mainLen).flashProgram mainAt b
        else ((h.flashErase copyB 0x10_0000).flashProgram copyB b |>.flashErase copyA 0x10_0000).flashProgram copyA b
      let h := h.commitAnswer answer 0
      { h with boot := { h.boot with restartAt := some (h.now + 120_000_000) } }

/-- The COMMIT of a staged image of `n` bytes (R683): nothing is erased before the image has passed its checks. During Hold the
write waits. -/
def Hw.recoveryCommit (h : Hw) (n : Nat) (ok : Bool) (answer : Option (Nat × Nat × Nat)) : Hw :=
  match h.memRead stagingAt (min n 0x400_0000) (ownAttr 0x02) with
  | (none, h) => h.commitAnswer answer 2
  | (some b, h) =>
    let kind := imgKind b
    let room := if kind = 1 then mainLen else 0x10_0000
    if (kind ≠ 1 ∧ kind ≠ 2) ∨ imgLen b ≠ n ∨ (h.imageReason b kind room).isSome then h.commitAnswer answer 2
    else
      let h := if kind = 2 then { h with boot := { h.boot with loader := some n } } else h
      if h.inHold then h.defer (.recovery kind n answer) else h.recoveryWrite kind n ok answer

/-- RECOVERY_COMMIT (R683): `ok` is false where writing or read-back fails. -/
def execRecoveryCommit (p : Fin 4) (b : List Byte) (ok : Bool) (s : State) : Host.Outcome State Fault Refusal :=
  s.run fun h =>
    match h.recoveryFrame b 3 with
    | none => h
    | some (host, x) => h.recoveryCommit (leNat (slice x 12 4)) ok (some (p, host, leNat (slice x 2 2)))

/-- BOOT_RCV_COMMIT (R682): in recovery mode with strap code 2. -/
def execBootRcvCommit (v : Word) (a : Attr) (ok : Bool) (s : State) : Host.Outcome State Fault Refusal :=
  s.run fun h => h.busWrite BOOT_RCV_COMMIT a fun h =>
    if h.bit BOOT_STAGE 31 && h.get BOOT_STAGE 18 16 == 2 then h.recoveryCommit v.toNat ok none else h

end Sys2Proof.Machine
end

