-- ==== Sys2Proof/Machine/Tunnel.lean ====
section
/-! DEFINITION. CAN tunnels (R435 to R443, R445): routes, the messages of IEEE 1722-2016 (assumption log, entry 21) and the
Orelos XL message, presentation times. -/

namespace Sys2Proof.Machine

/-- Internal state of a route. -/
def Hw.route (h : Hw) (r : Nat) : RouteSt := (find? h.zone.routes r).getD {}

/-- Replace it. -/
def Hw.setRoute (h : Hw) (r : Nat) (x : RouteSt) : Hw := { h with zone := { h.zone with routes := file h.zone.routes r x } }

/-- Count in a route's counter: 0 MESSAGES, 1 FRAMES, 2 LATE, 3 LATE_DROP, 4 TS_ERR, 5 OVERFLOW, 6 SEQ_GAP, 7 XL_FRAG_ERR,
8 NO_TIME. -/
def Hw.tunCount (h : Hw) (r k : Nat) : Hw := { h with zone := { h.zone with tunCnt := h.zone.tunCnt.bump (16 * r + k) 1 } }

/-- Fields of a route. -/
def Hw.rtEn (h : Hw) (r : Nat) : Bool := h.bit (TUN_RT r 0) 31
def Hw.rtDir (h : Hw) (r : Nat) : Nat := h.get (TUN_RT r 0) 30 30
def Hw.rtCtl (h : Hw) (r : Nat) : Nat := h.get (TUN_RT r 0) 19 16
def Hw.rtBus (h : Hw) (r : Nat) : Nat := h.get (TUN_RT r 0) 12 8
def Hw.rtStream (h : Hw) (r : Nat) : Nat := h.rdPair (TUN_RT r 3) (TUN_RT r 4)

/-- An identifier matches under a mask (R371): every bit that the mask sets is equal, and `IDE` where it must match. -/
def idMatch (mask id fid : Nat) (mide ide fide : Bool) : Bool :=
  decide ((id ^^^ fid) &&& mask &&& 0x1FFF_FFFF = 0) && (!mide || ide == fide)

/-- A direction 0 route takes a frame (R437). -/
def Hw.rtTakes (h : Hw) (r n : Nat) (f : CanFrame) (sent : Bool) : Bool :=
  h.rtEn r && decide (h.rtDir r = 0) && decide (h.rtCtl r = n) && (!sent || h.bit (TUN_RT r 0) 28) &&
    idMatch (h.get (TUN_RT r 2) 28 0) (h.get (TUN_RT r 1) 28 0) f.id.toNat (h.bit (TUN_RT r 1) 31) (h.bit (TUN_RT r 1) 29) f.ide

/-- TC0 has a value to stamp with. -/
def Hw.tc0Timed (h : Hw) : Bool := decide (2 ≤ h.tcuState 0)

/-- TC0 as ns (R439). -/
def Hw.tc0Ns (h : Hw) : Nat :=
  let v := h.slotVal 0
  v / tickUnit * h.rd TCU_BASE_TICK + v % tickUnit * h.rd TCU_BASE_TICK / tickUnit

/-- Bytes padded with zeros to whole quadlets. -/
def padQuad (l : List Byte) : List Byte := l ++ List.replicate ((4 - l.length % 4) % 4) 0

/-- The 11-bit or 29-bit identifier of a frame, right-aligned. -/
def canIdent (f : CanFrame) : Nat := if f.ide then f.id.toNat else f.id.toNat / 2 ^ 18

/-- An ACF CAN message (R436). -/
def acfCan (f : CanFrame) (bus : Nat) (ts : Option Nat) : List Byte :=
  let p := padQuad f.data
  let b2 := (p.length - f.data.length) * 0x40 + (if ts.isSome then 0x20 else 0) + (if f.ide then 8 else 0) +
    (if f.brs then 4 else 0) + (if f.fmt = 1 then 2 else 0) + (if f.esi then 1 else 0)
  beBytes 2 (1 * 0x200 + (16 + p.length) / 4) ++ beBytes 1 b2 ++ beBytes 1 bus ++ beBytes 8 (ts.getD 0) ++
    beBytes 4 (canIdent f) ++ p

/-- A fragment of an XL message (Table 10.5). -/
def xlMsg (f : CanFrame) (bus : Nat) (ts : Option Nat) (frag : Nat) (last : Bool) (d : List Byte) : List Byte :=
  let p := padQuad d
  beBytes 2 (0x7A * 0x200 + (24 + p.length) / 4) ++
    beBytes 1 ((if ts.isSome then 0x80 else 0) + (if f.sec then 0x40 else 0) + bus) ++
    beBytes 1 ((if frag = 0 then 0x80 else 0) + (if last then 0x40 else 0) + frag) ++ beBytes 8 (ts.getD 0) ++
    beBytes 2 (f.id.toNat / 2 ^ 18) ++ beBytes 1 f.sdt.toNat ++ beBytes 1 f.vcid.toNat ++ beBytes 4 f.af.toNat ++
    beBytes 2 (f.data.length - 1) ++ beBytes 2 d.length ++ p

/-- The messages of a frame: one, or two fragments of an XL frame above 1,024 bytes. -/
def tunMsgs (f : CanFrame) (bus : Nat) (ts : Option Nat) : List (List Byte) :=
  if f.fmt = 2 then
    if f.data.length ≤ 1024 then [xlMsg f bus ts 0 true f.data]
    else [xlMsg f bus ts 0 false (f.data.take 1024), xlMsg f bus ts 1 true (f.data.drop 1024)]
  else [acfCan f bus ts]

/-- A route sends the frame under assembly (R436, R438). -/
def Hw.tunSend (h : Hw) (r : Nat) : Hw :=
  let x := h.route r
  if x.msgs.isEmpty then h
  else
    let body := x.msgs.flatten
    let w6 := TUN_RT r 6
    let tag := if h.bit w6 31 then some (h.get w6 30 28, h.get w6 27 16) else none
    let dest := 2 ^ 32 * h.get w6 15 0 + h.rd (TUN_RT r 5)
    let src := 2 ^ 32 * h.get TUN_MAC_HI 15 0 + h.rd TUN_MAC_LO
    let ntscf := beBytes 1 0x82 ++ beBytes 2 (0x8000 + body.length % 2048) ++ beBytes 1 x.seqTx ++ beBytes 8 (h.rtStream r)
    let h := h.setRoute r { x with msgs := [], seqTx := (x.seqTx + 1) % 256 }
    (h.tunCount r 1).hand 39 (padFrame (etherHead dest src tag 0x22F0 ++ ntscf ++ body))

/-- A message joins a route's frame (R438): the frame goes first where the message would not fit, and goes at once when it is
full or `HOLD` is 0. -/
def Hw.tunAdd (h : Hw) (r : Nat) (m : List Byte) : Hw :=
  let h := if 1500 < 12 + (h.route r).msgs.flatten.length + m.length then h.tunSend r else h
  let x := h.route r
  let h := (h.setRoute r { x with msgs := x.msgs ++ [m], since := if x.msgs.isEmpty then h.now else x.since }).tunCount r 0
  if h.get (TUN_RT r 7) 31 24 ≤ (h.route r).msgs.length ∨ h.get (TUN_RT r 7) 23 16 = 0 then h.tunSend r else h

/-- The first matching direction 0 route takes a frame of a controller (R437, R439). -/
def Hw.tunnelTake (h : Hw) (n : Nat) (f : CanFrame) (sent : Bool) : Hw :=
  if !h.bit (CTRL pgTUN) 0 then h
  else
    match (List.range 256).find? (fun r => h.rtTakes r n f sent) with
    | none => h
    | some r =>
      let ts := if h.bit (TUN_RT r 0) 29 && h.tc0Timed then
        some ((h.tc0Ns + h.get (TUN_RT r 7) 15 0 * 1000) % 2 ^ 64) else none
      (tunMsgs f (h.rtBus r) ts).foldl (fun h m => h.tunAdd r m) h

/-- TUNNEL_SEND (R438): `HOLD` has passed since the first message. -/
def execTunnelSend (r : Fin 256) (s : State) : Host.Outcome State Fault Refusal :=
  s.run fun h => if h.now < (h.route r).since + 1200 * h.get (TUN_RT r 7) 23 16 then h else h.tunSend r

/-- A message read from an NTSCF frame: the frame it carries, `rtr`, the timestamp if valid, the bus, and for an XL fragment
its number, whether it is the first and the last, and the frame's data length. -/
structure TunMsg where
  frame : CanFrame
  bus : Nat
  ts : Option Nat
  xl : Option (Nat × Bool × Bool × Nat) := none
deriving DecidableEq, Repr

/-- Read a message (R436, R440); none for a message type that the TUN does not use. -/
def readMsg (b : List Byte) : Option TunMsg :=
  let typ := (b.getD 0 0).toNat / 2
  let b2 := (b.getD 2 0).toNat
  let b3 := (b.getD 3 0).toNat
  if typ = 1 ∨ typ = 2 then
    let at_ := if typ = 1 then 12 else 4
    let ide := decide (fld b2 3 3 = 1)
    let id := fld (beNat (slice b at_ 4)) 28 0
    let d := (b.drop (at_ + 4)).take (b.length - (at_ + 4) - fld b2 7 6)
    let fmt : Fin 3 := if fld b2 1 1 = 1 then 1 else 0
    some { frame := { ide := ide, id := BitVec.ofNat 29 (if ide then id else id % 2048 * 2 ^ 18), fmt := fmt,
                      brs := decide (fld b2 2 2 = 1), esi := decide (fld b2 0 0 = 1), rtr := decide (fld b2 4 4 = 1),
                      dlc := BitVec.ofNat 11 (canDlc fmt.val d.length), data := d },
           bus := fld b3 4 0, ts := if typ = 1 ∧ fld b2 5 5 = 1 then some (beNat (slice b 4 8)) else none }
  else if typ = 0x7A then
    let dlen := fld (beNat (slice b 20 2)) 10 0 + 1
    let flen := fld (beNat (slice b 22 2)) 10 0
    some { frame := { id := BitVec.ofNat 29 (fld (beNat (slice b 12 2)) 10 0 * 2 ^ 18), fmt := 2, dlc := BitVec.ofNat 11 (dlen - 1),
                      data := (b.drop 24).take flen, sdt := b.getD 14 0, vcid := b.getD 15 0, sec := decide (fld b2 6 6 = 1),
                      af := BitVec.ofNat 32 (beNat (slice b 16 4)) },
           bus := fld b2 4 0, ts := if fld b2 7 7 = 1 then some (beNat (slice b 4 8)) else none,
           xl := some (fld b3 1 0, decide (fld b3 7 7 = 1), decide (fld b3 6 6 = 1), dlen) }
  else none

/-- The messages of an NTSCF payload, at most `n`. -/
def splitMsgs : Nat → List Byte → List (List Byte)
  | 0, _ => []
  | n + 1, l =>
    let k := 4 * fld (beNat (slice l 0 2)) 8 0
    if l.length < 4 ∨ k = 0 then [] else l.take k :: splitMsgs n (l.drop k)

/-- The lowest-numbered object of a route that is neither pending nor loaded for a presentation time (R441). -/
def Hw.rtFree (h : Hw) (r : Nat) : Option Nat :=
  let n := h.rtCtl r
  ((List.range (h.get (TUN_RT r 1) 7 0)).map (fun i => h.get (TUN_RT r 1) 22 16 + i)).find? (fun o =>
    decide (o < 128) && !h.objPending n o && !(h.route r).sched.any (fun e => e.1 == o))

/-- A frame goes into an object of a route, which becomes pending at once or at its time (R441). -/
def Hw.rtLoad (h : Hw) (r : Nat) (f : CanFrame) (time : Option Nat) : Hw :=
  let n := h.rtCtl r
  match h.rtFree r with
  | none => (h.tunCount r 5).raise pgTUN 1
  | some o =>
    if max (h.route r).fmt (h.objFmt n o) < f.fmt.val then h
    else
      let h := (h.putBit (CAN_OBJ n o 0) 29 f.ide).put (CAN_OBJ n o 0) 28 0 f.id.toNat
      let h := (h.put (CAN_OBJ n o 1) 31 30 f.fmt.val).putBit (CAN_OBJ n o 1) 29 f.brs
      let h := ((h.put (CAN_OBJ n o 3) 23 16 f.sdt.toNat).put (CAN_OBJ n o 3) 15 8 f.vcid.toNat).putBit (CAN_OBJ n o 3) 0 f.sec
      let h := if f.fmt = 2 then h.wr (CAN_OBJ n o 4) f.af.toNat else h
      let fits := decide (f.data.length ≤ h.objCap n o)
      let h := h.canUpdate n o time.isNone f.dlc.toNat f.data
      match time with
      | some t => if fits then h.setRoute r { h.route r with sched := (h.route r).sched ++ [(o, t)] } else h
      | none => h

/-- A message's frame is played out (R441). -/
def Hw.rtPlay (h : Hw) (r : Nat) (f : CanFrame) (ts : Option Nat) : Hw :=
  match ts with
  | none => h.rtLoad r f none
  | some t =>
    if !h.tc0Timed then (h.tunCount r 8).rtLoad r f none
    else
      let d := sgn 64 (t + 2 ^ 64 - h.tc0Ns % 2 ^ 64)
      if d < -((h.get (TUN_RT r 2) 15 0 * 1000 : Nat) : Int) then
        let h := (h.tunCount r 2).raise pgTUN 2
        if h.bit (TUN_RT r 0) 28 then h.tunCount r 3 else h.rtLoad r f none
      else if 100_000_000 < d then (h.tunCount r 4).raise pgTUN 3
      else h.rtLoad r f (if 0 < d then some t else none)

/-- A fragment error (R443): the whole frame is dropped. -/
def Hw.fragErr (h : Hw) (r : Nat) : Hw :=
  ((h.setRoute r { h.route r with part := none }).tunCount r 7).raise pgTUN 5

/-- A message that a route takes (R440, R443). `head` is what both fragments of a frame must share: bytes 2 and 4 to 21. -/
def Hw.rtMsg (h : Hw) (r : Nat) (m : TunMsg) (head : List Byte) : Hw :=
  let h := h.tunCount r 0
  match m.xl with
  | none => if m.frame.rtr then h else h.rtPlay r m.frame m.ts
  | some (frag, first, last, dlen) =>
    let old := (h.route r).part
    if first then
      let h := if old.isSome then h.fragErr r else h
      if frag ≠ 0 then h.fragErr r
      else if last then (if m.frame.data.length = dlen then h.rtPlay r m.frame m.ts else h.fragErr r)
      else h.setRoute r { h.route r with part := some ⟨head, m.frame.data⟩ }
    else
      match old with
      | none => h.fragErr r
      | some p =>
        let d := p.data ++ m.frame.data
        if frag = 1 ∧ last = true ∧ p.head = head ∧ d.length = dlen then
          (h.setRoute r { h.route r with part := none }).rtPlay r { m.frame with data := d } m.ts
        else h.fragErr r

/-- The sequence number of a frame with a route's stream (R440). -/
def Hw.rtSeq (h : Hw) (r seq : Nat) : Hw :=
  let x := h.route r
  let gap := match x.seqRx with
    | some p => decide ((p + 1) % 256 ≠ seq)
    | none => false
  let h := h.setRoute r { x with seqRx := some seq }
  if gap then (h.tunCount r 6).raise pgTUN 4 else h

/-- NTSCF_RX (R440, R441, R443). -/
def execNtscfRx (b : List Byte) (s : State) : Host.Outcome State Fault Refusal :=
  s.run fun h =>
    if !h.bit (CTRL pgTUN) 0 || decide ((b.getD 0 0).toNat ≠ 0x82) then h
    else
      let len := fld (beNat (slice b 1 2)) 10 0
      let stream := beNat (slice b 4 8)
      let rs := (List.range 256).filter (fun r => h.rtEn r && decide (h.rtDir r = 1) && decide (h.rtStream r = stream))
      let h := rs.foldl (fun (h : Hw) r => h.rtSeq r (b.getD 3 0).toNat) h
      (splitMsgs 400 ((b.drop 12).take len)).foldl (fun (h : Hw) raw =>
        match readMsg raw with
        | none => h
        | some m =>
          match rs.find? (fun r => h.rtBus r == m.bus) with
          | none => (h.sat TUN_NO_ROUTE).raise pgTUN 0
          | some r => h.rtMsg r m (slice raw 2 1 ++ slice raw 4 18)) h

/-- PRESENTATION_TIME (R441): TC0 has reached the time of an object, or has none. -/
def execPresentationTime (r : Fin 256) (o : Fin 128) (s : State) : Host.Outcome State Fault Refusal :=
  s.run fun h =>
    let x := h.route r
    if x.sched.any (fun e => e.1 == o.val && (!h.tc0Timed || decide (sgn 64 (e.2 + 2 ^ 64 - h.tc0Ns % 2 ^ 64) ≤ 0))) then
      (h.setRoute r { x with sched := x.sched.filter (fun e => e.1 != o.val) }).canTrigger (h.rtCtl r) o false
    else h

/-- TUN_CNT_CLR (Table 10.9). -/
def execTunCntClr (v : Word) (a : Attr) (s : State) : Host.Outcome State Fault Refusal :=
  s.run fun h => h.busWrite TUN_CNT_CLR a fun h =>
    { h with zone := { h.zone with tunCnt := h.zone.tunCnt.set (16 * fld v.toNat 23 16 + fld v.toNat 3 0) 0 } }

/-- The error code of a refused write of word `w` of a route (R439, R442, R445). -/
def Hw.tunRefuses (h : Hw) (r w v : Nat) : Option Nat :=
  let old := h.rd (TUN_RT r w)
  if h.rtEn r && !(w == 0 && decide (fld v 30 0 = fld old 30 0)) then some 0x0100
  else if w = 0 ∧ fld v 31 31 = 1 then
    let n := fld v 19 16
    if fld v 30 30 = 0 then
      if fld v 29 29 = 1 ∧ h.tcuSource 0 ≠ 1 ∧ h.tcuSource 0 ≠ 4 then some 0x0101
      else if h.get (TUN_RT r 7) 31 24 = 0 ∨ 64 < h.get (TUN_RT r 7) 31 24 then some 0x0101
      else none
    else
      let f := h.get (TUN_RT r 1) 22 16
      let c := h.get (TUN_RT r 1) 7 0
      if c = 0 ∨ 128 < c ∨ 128 < f + c then some 0x0101
      else if (List.range c).any (fun i => !h.objValid n (f + i) || !h.objTx n (f + i)) then some 0x0102
      else none
  else none

/-- Word `w` of a route has been written (R442): a direction 1 route that is enabled notes the least `FMT` of its objects,
since each message it loads then sets its object's `FMT` to its own format (assumption log, entry 133). -/
def Hw.routeStored (h : Hw) (r w : Nat) : Hw :=
  if w = 0 ∧ h.rtEn r = true ∧ h.rtDir r = 1 then
    let n := h.rtCtl r
    let f := h.get (TUN_RT r 1) 22 16
    h.setRoute r { h.route r with fmt := (List.range (h.get (TUN_RT r 1) 7 0)).foldl (fun x i => min x (h.objFmt n (f + i))) 2 }
  else h

end Sys2Proof.Machine
end

