-- ==== Sys2Proof/Machine/CanFrames.lean ====
section
/-! DEFINITION. What follows a frame on a CAN bus (R364, R371, R383, R387, R394, R437). -/

namespace Sys2Proof.Machine

/-- The lowest-numbered valid receive object that a frame matches (R371). -/
def Hw.rxObject (h : Hw) (n : Nat) (f : CanFrame) : Option Nat :=
  (List.range 128).find? (fun o => h.objValid n o && !h.objTx n o &&
    idMatch (h.get (CAN_OBJ n o 2) 28 0) (h.get (CAN_OBJ n o 0) 28 0) f.id.toNat (h.bit (CAN_OBJ n o 2) 31)
      (h.bit (CAN_OBJ n o 0) 29) f.ide)

/-- The smallest value above `fv` whose low `n` bytes are `low` (R394). -/
def rebuildFv (fv n low : Nat) : Nat :=
  let m := 256 ^ n
  let base := fv / m * m + low
  if fv < base then base else base + m

/-- A frame fails its verification (R394). -/
def Hw.authFail (h : Hw) (n o : Nat) : Hw := ((h.objFlag n o 25).canCount n 14).raise (pgCAN n) 6

/-- A frame matched to an object: too long, verified or not, or to be stored (R371, R394, R396). -/
def Hw.rxMatched (h : Hw) (n o : Nat) (f : CanFrame) : Hw :=
  let ts := h.tick32 (h.get (CAN_CFG n) 25 24)
  let queue := fun (h : Hw) fv =>
    h.setCan n { h.can n with rx := (h.can n).rx ++ [{ obj := o, frame := f, ts := ts, fv := fv }] }
  if h.objCap n o < f.data.length then (h.objFlag n o 28).canCount n 12
  else if h.objAuth n o then
    if !h.objKeyOk n o then (h.objFlag n o 24).raise (pgCAN n) 7
    else if f.data.length < h.objTrailer n o then h.authFail n o
    else
      let p := f.data.length - h.objTrailer n o
      let fv := rebuildFv (h.objFv n o) (h.objFvLen n o) (beNat (slice f.data p (h.objFvLen n o)))
      let mac := f.data.drop (p + h.objFvLen n o)
      if fv < 2 ^ 64 ∧ mac = h.objMac n o fv (f.data.take p) then queue h (some fv) else h.authFail n o
  else queue h none

/-- CAN_FRAME_END (R364, R371, R384, R387, R437): a controller in partial mode ignores frames (R386), and does not take a format that
`PROTO` does not admit (R391). -/
def execCanFrameEnd (n : Fin 16) (f : CanFrame) (s : State) : Host.Outcome State Fault Refusal :=
  s.run fun h =>
    let h := h.canLapse n
    if !h.canOn n || (h.can n).ignore then h
    else if h.get (CAN_CFG n) 31 30 < f.fmt then h.canPex n false
    else
      let h := ((h.recDown n).notAlone n).canCount n 1
      let h :=
        if f.rtr then h.canCount n 13
        else
          let h := match h.rxObject n f with
            | none => h
            | some o => h.rxMatched n o f
          h.tunnelTake n f false
      h.canStopNow n

/-- TX_OK (R378, R383, R384, R387, R396, R437). -/
def execTxOk (n : Fin 16) (s : State) : Host.Outcome State Fault Refusal :=
  s.run fun h =>
    let h := h.canLapse n
    match (h.can n).tx with
    | none => h
    | some (o, f) =>
      let again := (h.can n).again
      let h := (h.offBus n).unpend n o
      let h := h.wr (CAN_OBJ n o 7) (h.tick32 (h.get (CAN_CFG n) 25 24))
      let h := ((h.canCount n 0).tecDown n).notAlone n
      let h := h.setCan n { h.can n with again := false }
      let h :=
        if h.objAuth n o && !h.objKeyOk n o then (h.objFlag n o 24).raise (pgCAN n) 7
        else if again then h.makePending n o
        else h
      (h.tunnelTake n f true).canStopNow n

end Sys2Proof.Machine
end

