-- ==== Sys2Proof/Machine/Channels.lean ====
section
/-! DEFINITION. The power channels and the LPM (R197 to R242). -/

namespace Sys2Proof.Machine

/-- A channel beside its registers. -/
def Hw.chan (h : Hw) (c : Nat) : Chan := lookup (fun _ => {}) h.stage.chans c

/-- Replace a channel. -/
def Hw.setChan (h : Hw) (c : Nat) (x : Chan) : Hw :=
  { h with stage := { h.stage with chans := store (fun _ => {}) h.stage.chans c x } }

/-- Class of a channel: 0 V, 1 A, 2 B, 3 C (Table 05.1). -/
def chanClass (c : Nat) : Nat := pageClass (c / 8)

/-- Busbar of a channel: 0 `IN12A`, 1 `IN12B`, 2 `IN48` (R198). -/
def chanBus (c : Nat) : Nat := if c < 16 then 2 else c % 2

/-- Registers of a channel. -/
def cCfg (c : Nat) : Nat := PCH_CFG (c / 8) (c % 8)
def cLim (c : Nat) : Nat := PCH_LIM (c / 8) (c % 8)
def cWire (c : Nat) : Nat := PCH_WIRE (c / 8) (c % 8)
def cPwm (c : Nat) : Nat := PCH_PWM (c / 8) (c % 8)
def cDiag (c : Nat) : Nat := PCH_DIAG (c / 8) (c % 8)
def cCmd (c : Nat) : Nat := PCH_CMD (c / 8) (c % 8)
def cMeas (c : Nat) : Nat := PCH_MEAS (c / 8) (c % 8)
def cState (c : Nat) : Nat := PCH_STATE (c / 8) (c % 8)
def cCnt (c : Nat) : Nat := PCH_CNT (c / 8) (c % 8)

/-- State codes (Table 05.4). -/
abbrev stOff : Nat := 0
abbrev stOn : Nat := 1
abbrev stPwm : Nat := 2
abbrev stInrush : Nat := 3
abbrev stTripShort : Nat := 4
abbrev stTripLimit : Nat := 5
abbrev stTripWire : Nat := 6
abbrev stTempWait : Nat := 7
abbrev stTempLatch : Nat := 8
abbrev stHold : Nat := 9
abbrev stLimp : Nat := 10

/-- State of a channel. -/
def Hw.chState (h : Hw) (c : Nat) : Nat := h.get (cState c) 31 28

/-- The channel is in one of its trip states. -/
def Hw.tripped (h : Hw) (c : Nat) : Bool := decide (4 ≤ h.chState c) && decide (h.chState c ≤ 8)

/-- The channel is driven: ON, or PWM with a duty above 0, also where its on-part is omitted (R213, R230). -/
def Hw.driven (h : Hw) (c : Nat) : Bool := (h.chan c).gate != .off

/-- `DRIVEN` and `TRIPPED` of the page follow (R239). -/
def Hw.chStatus (h : Hw) (c : Nat) : Hw :=
  (h.putBit (STATUS (pgPCH (c / 8))) (8 + c % 8) (h.driven c)).putBit (STATUS (pgPCH (c / 8))) (c % 8) (h.tripped c)

/-- Set the state of a channel. -/
def Hw.setChState (h : Hw) (c st : Nat) : Hw := (h.put (cState c) 31 28 st).chStatus c

/-- Set the gate of a channel. -/
def Hw.setGate (h : Hw) (c : Nat) (g : Gate) : Hw := (h.setChan c { h.chan c with gate := g }).chStatus c

/-- A window is open (`WINDOW`). -/
def Hw.window (h : Hw) (c : Nat) : Bool := h.bit (cState c) 13

/-- The window closes: `WINDOW` and `STRETCHED` clear (R213 to R215). -/
def Hw.closeWindow (h : Hw) (c : Nat) : Hw := (h.putBit (cState c) 13 false).putBit (cState c) 14 false

/-- A turn-on opens a window (R213, R214): a boost window in classes B and C; in classes V and A with `PROF_EN` a profile
window, or `PROF_INVALID` when the profile is not valid. -/
def Hw.openWindow (h : Hw) (c : Nat) : Hw :=
  let h := h.setChan c { h.chan c with openAt := h.now, stood := 0 }
  if 2 ≤ chanClass c then (h.putBit (cState c) 13 true).putBit (cState c) 14 false
  else if h.bit (cCfg c) 3 then
    if h.bit LPM_PROF_VALID (h.get (cCfg c) 2 0) then
      ((h.putBit (cState c) 13 true).putBit (cState c) 14 false).putBit (cState c) 4 false
    else h.putBit (cState c) 4 true
  else h.putBit (cState c) 4 false

/-- `MODE` and `DUTY` of a command word. -/
def cmdMode (w : Nat) : Nat := fld w 31 30
def cmdDuty (w : Nat) : Nat := fld w 13 0

/-- A command that leaves the output off: OFF, or PWM with duty 0 (R206). -/
def cmdIdle (w : Nat) : Bool := decide (cmdMode w = 0) || (decide (cmdMode w = 2) && decide (cmdDuty w = 0))

/-- A command word as it is carried out (R205). -/
def cmdFixed (w : Nat) : Nat :=
  if cmdMode w = 3 then cmdDuty w else cmdMode w * 2 ^ 30 + min (cmdDuty w) (if cmdMode w = 2 then 10_000 else 0x3FFF)

/-- The flags of a correction (R205): each is set by its correction, and both clear at a command that needs none. -/
def Hw.cmdFlags (h : Hw) (c w : Nat) : Hw :=
  if cmdMode w = 3 then h.putBit (cState c) 8 true
  else if cmdMode w = 2 ∧ 10_000 < cmdDuty w then h.putBit (cState c) 9 true
  else (h.putBit (cState c) 8 false).putBit (cState c) 9 false

/-- The state that a driven channel shows: INRUSH while a window is open, else ON or PWM; HOLD while it is held. -/
def Hw.showDriven (h : Hw) (c : Nat) : Hw :=
  if (h.chan c).ctl = .hold then h.setChState c stHold
  else h.setChState c (if h.window c then stInrush else if (h.chan c).gen then stPwm else stOn)

/-- A channel stops driving: its gate goes off, and it regulates no more. -/
def Hw.undrive (h : Hw) (c : Nat) (gen : Bool) : Hw :=
  (h.setChan c { h.chan c with gate := .off, gen := gen, duty := 0, next := none }).putBit (cState c) 12 false

/-- Switch a channel off under its present command; the instant counts against a trip of the same one (R210). -/
def Hw.switchOff (h : Hw) (c : Nat) (gen : Bool) : Hw :=
  let h := if h.driven c then h.setChan c { h.chan c with offAt := some h.now } else h
  let h := (h.undrive c gen).closeWindow c
  h.setChState c (if (h.chan c).ctl = .hold then stHold else stOff)

/-- Drive a channel; from an undriven condition it is a turn-on (R213). -/
def Hw.drive (h : Hw) (c : Nat) (g : Gate) (wasDriven : Bool) : Hw :=
  let h := h.setGate c g
  let h := if wasDriven then h else (h.setChan c { h.chan c with onAt := h.now }).openWindow c
  h.showDriven c

/-- Minimum on-time and off-time in PWM in ns (Table 05.2). -/
def minPulse (cls : Nat) : Nat := if cls = 0 then 30_000 else if cls = 1 then 22_000 else if cls = 2 then 12_000 else 8_000

/-- Configured length of a channel's period in ns: `NUM` / `DEN` base ticks, kept within 40 µs to 10 ms (R227). -/
def Hw.pwmLen (h : Hw) (c : Nat) : Ratio :=
  let num := h.get (cPwm c) 23 16 * h.rd TCU_BASE_TICK
  let den := max 1 (h.get (cPwm c) 15 8)
  if num < 40_000 * den then ⟨40_000, 1⟩ else if 10_000_000 * den < num then ⟨10_000_000, 1⟩ else ⟨num, den⟩

/-- The gate of a PWM period (R206, R230): an on-part below the minimum is omitted, and so is an off-part. -/
def Hw.pwmGate (h : Hw) (c duty : Nat) : Gate :=
  let p := h.pwmLen c
  let m := minPulse (chanClass c) * 10_000 * p.den
  if duty = 0 then .off
  else if p.num * duty < m then .blank
  else if p.num * (10_000 - duty) < m then .on
  else .pulse

/-- The natural end of the period in progress has come (R229, R231). -/
def Hw.periodEnded (h : Hw) (c : Nat) : Bool :=
  let p := h.pwmLen c
  decide (6 * p.num ≤ (h.now - (h.chan c).startAt) * 5 * p.den)

/-- The output of a channel at this instant: within its on-part, and on throughout when nothing is off (R229, R230); a period that
has ended leaves the output off until the next one starts, but at full duty. -/
def Hw.outputOn (h : Hw) (c : Nat) : Bool :=
  let x := h.chan c
  let p := h.pwmLen c
  match x.gate with
  | .off => false
  | .blank => false
  | .on => !x.gen || decide (x.duty = 10_000) || !h.periodEnded c
  | .pulse => decide ((h.now - x.startAt) * 5 * 10_000 * p.den < 6 * p.num * x.duty)

/-- The cause of a trip has ended (R217, R221). -/
def Hw.causeEnded (h : Hw) (c : Nat) : Bool :=
  match h.chState c with
  | 4 => true
  | 5 => true
  | 6 => !h.bit (cState c) 10
  | 7 => !(h.chan c).hot
  | 8 => !(h.chan c).hot
  | _ => false

/-- The channel has tripped in the hold window, which leaves it in its trip state (R254). -/
def Hw.heldTrip (h : Hw) (c : Nat) : Bool :=
  decide ((h.chan c).ctl = .hold) && (match (h.chan c).tripAt with | some t => decide (h.stage.holdAt ≤ t) | none => false)

/-- The generator of a channel follows its slot's timecode: a source of NET or LOC, and the slot beyond ACQUIRING
(R231, R232). -/
def Hw.slotPaces (h : Hw) (n : Nat) : Bool :=
  (decide (h.tcuSource n = 1) || decide (h.tcuSource n = 4)) && decide (2 ≤ h.tcuState n)

/-- A slot that may pace a generator: NET or LOC (R227). -/
def Hw.slotPwmOk (h : Hw) (n : Nat) : Bool := decide (h.tcuSource n = 1) || decide (h.tcuSource n = 4)

/-- The latest start of a period under the channel's anchor, as a value of its slot: *A* + (*j* + `PHASE` / 256) periods (R228), rounded
up to a unit of 2^−24 tick. -/
def Hw.lastStart (h : Hw) (c : Nat) : Option Nat :=
  let p := h.pwmLen c
  let unit := 256 * p.den * h.rd TCU_BASE_TICK
  let a := (h.chan c).anchor
  let phase := h.get (cPwm c) 7 0
  let d := (h.slotVal (h.get (cPwm c) 31 30) + 2 ^ 64 - a) % 2 ^ 64
  if p.num = 0 ∨ unit = 0 then none
  else
    let q := d * unit / (p.num * tickUnit)
    if q < phase then none
    else
      let k := 256 * ((q - phase) / 256) + phase
      some ((a + (k * p.num * tickUnit + unit - 1) / unit) % 2 ^ 64)

/-- A value of a slot lies after another, both passed when the slot stands at `v`. -/
def liesAfter (v a b : Nat) : Bool := decide ((v + 2 ^ 64 - b) % 2 ^ 64 < (v + 2 ^ 64 - a) % 2 ^ 64)

/-- A start of the timecode has come that the generator has not taken: after the period in progress began, and after the last step
of the slot or its leaving of ACQUIRING (R228, R231). -/
def Hw.paceDue (h : Hw) (c : Nat) : Bool :=
  let n := h.get (cPwm c) 31 30
  h.slotPaces n &&
    (match h.lastStart c with
     | some s => liesAfter (h.slotVal n) (h.chan c).startVal s && liesAfter (h.slotVal n) (h.slot n).jump s
     | none => false)

/-- The generator runs on the PSS clock until it adopts a start of the timecode (R231, R232). -/
def Hw.ownClock (h : Hw) (c : Nat) : Bool := !h.slotPaces (h.get (cPwm c) 31 30) || (h.chan c).own

/-- A period of the channel starts now (R228, R231, R232). -/
def Hw.periodDue (h : Hw) (c : Nat) : Bool := h.paceDue c || (h.ownClock c && h.periodEnded c)

/-- The level of the pin that a channel is mapped to; none when it is unmapped (R255, Table 06.1). -/
def Hw.lhLevel (h : Hw) (c : Nat) : Bool :=
  let b := h.get (PSS_MAP (c / 4)) (8 * (c % 4) + 7) (8 * (c % 4))
  decide (fld b 7 7 = 1) && h.bit PSS_LH_IN (fld b 3 0)

/-- A channel in limp-home follows its pin (R255, R256, R258); on the hardware path a turn-on opens no window, because the
current limit there is the channel's `LIM` (R259). A tripped one whose cause has ended re-arms while the level
is low. -/
def Hw.limpFollow (h : Hw) (c : Nat) : Hw :=
  let l := h.lhLevel c
  if h.tripped c then
    if !l && h.causeEnded c then
      (((h.put (cState c) 23 20 0).putBit (cState c) 15 false).undrive c false).setChState c stLimp
    else h.undrive c false
  else if l then
    let was := h.driven c
    let h := (h.setChan c { h.chan c with gen := false, duty := 0, next := none }).setGate c .on
    let h := if was then h else h.setChan c { h.chan c with onAt := h.now }
    let h := if was || !h.stage.running then h else h.openWindow c
    h.setChState c stLimp
  else ((h.undrive c false).closeWindow c).setChState c stLimp

/-- The channel follows its standing command after re-arming or a restart (R217, R221). -/
def Hw.followStanding (h : Hw) (c : Nat) : Hw :=
  let w := h.rd (cCmd c)
  match (h.chan c).ctl with
  | .limp => (h.setChState c stLimp).limpFollow c
  | .off => h.switchOff c false
  | _ =>
    if cmdIdle w then h.switchOff c (decide (cmdMode w = 2))
    else if cmdMode w = 1 then
      (h.setChan c { h.chan c with gen := false, duty := 0, next := none }).drive c .on false
    else
      let h := h.setChState c (if (h.chan c).ctl = .hold then stHold else stOff)
      h.setChan c { h.chan c with gen := true, next := some w }

/-- Re-arm a tripped channel (R217): `RETRY` and `NEIGH_BOOST` clear, and it follows its standing command. -/
def Hw.rearm (h : Hw) (c : Nat) : Hw :=
  (((h.put (cState c) 23 20 0).putBit (cState c) 15 false).setChState c stOff).followStanding c

/-- A command takes effect on a static channel (R204). -/
def Hw.applyStatic (h : Hw) (c w : Nat) : Hw :=
  if cmdMode w = 0 then h.switchOff c false
  else
    let was := h.driven c
    (h.setChan c { h.chan c with gen := false, duty := 0, next := none }).drive c .on was

/-- The command that a period start applies: one that came before this instant, or at the instant of a PWM_ALIGN (R58, R204). -/
def Hw.nextCmd (h : Hw) (c : Nat) : Option Nat :=
  let x := h.chan c
  if x.sent = h.now ∧ x.alignAt ≠ some h.now then none else x.next

/-- What a period start does to a channel that firmware commands or the hold window keeps (R204, R206, R230). -/
def Hw.applyPeriod (h : Hw) (c : Nat) : Hw :=
  let x := h.chan c
  match h.nextCmd c with
  | some w =>
    if cmdMode w ≠ 2 then h.applyStatic c w
    else if cmdDuty w = 0 then h.switchOff c true
    else
      let was := h.driven c
      (h.setChan c { x with gen := true, duty := cmdDuty w, next := none }).drive c (h.pwmGate c (cmdDuty w)) was
  | none => if x.gen && x.duty != 0 then h.setGate c (h.pwmGate c x.duty) else h

/-- A period of a channel's generator begins (R228 to R232); at a start of the timecode the generator adopts it, and on a slot that
may not pace it `PWM_FREE` shows. -/
def Hw.beginPeriod (h : Hw) (c : Nat) : Hw :=
  let n := h.get (cPwm c) 31 30
  let paced := h.paceDue c
  let h := if paced then h.putBit (cState c) 3 false else if h.slotPwmOk n then h else h.putBit (cState c) 3 true
  let h := h.setChan c { h.chan c with startVal := h.slotVal n, startAt := h.now, own := !paced }
  if h.tripped c || !h.stage.running || ((h.chan c).ctl != .command && (h.chan c).ctl != .hold) then h else h.applyPeriod c

/-- A command reaches a channel that firmware commands (R204, R205, R210, R217). A trip of the same instant prevails. Inputs that
the instant's cues latch do not show its effect (R57); at the instant of a PWM_ALIGN that starts a period it applies from that
period (R58). -/
def Hw.command (h : Hw) (c raw : Nat) : Hw :=
  let w := cmdFixed raw
  let h := ((h.beforeOut [cMeas c, cState c]).cmdFlags c raw).wr (cCmd c) w
  let x := { h.chan c with sent := h.now }
  let h := h.setChan c x
  if h.chState c = stTempWait then h
  else if h.tripped c then
    (if cmdIdle w && h.causeEnded c && x.tripAt != some h.now then h.rearm c else h)
  else if x.gen || cmdMode w = 2 then
    let h := h.setChan c { x with next := some w }
    if x.alignAt = some h.now ∧ x.startAt = h.now then h.applyPeriod c else h
  else h.applyStatic c w

/-- Firmware commands the channels: the PSS is IN_CHARGE, and its controller runs (R244, R250). -/
def Hw.inCharge (h : Hw) : Bool := decide (h.get (STATUS pgPSS) 1 0 = 2) && h.stage.running

/-- A command released by a commit or written directly: carried out in IN_CHARGE, else discarded and counted (R245). -/
def Hw.channelCommand (h : Hw) (c w : Nat) : Hw :=
  if h.inCharge then h.command c w
  else
    let h := h.sat PSS_DISCARD_CNT
    let h := h.raiseIf (!h.stage.discarded) pgPSS 9
    { h with stage := { h.stage with discarded := true } }

/-- An enabled cadence maps the channel in a kind 8 entry (R203, R207). -/
def Hw.chanMapped (h : Hw) (c : Nat) : Bool :=
  (List.range 64).any (fun d => h.cadEn d && (h.cadOuts d).any (fun m =>
    decide (h.mapKind m = 8) && decide (h.mapSrc m ≤ c) && decide (c < h.mapSrc m + h.mapLen m / 4)))

/-- PCH_CMD_WRITE (R207, R245): refused while a cadence maps the channel or outside IN_CHARGE. -/
def execPchCmdWrite (c : Fin 72) (v : Word) (a : Attr) (s : State) : Host.Outcome State Fault Refusal :=
  s.run fun h => h.busWrite (cCmd c) a fun h =>
    if h.chanMapped c || !h.inCharge then h.refuse (cCmd c) 0x0101 a
    else h.command c (v.toNat &&& 0xC000_3FFF)

/-- PWM_PERIOD_START: taken when a period of the channel is due. -/
def execPwmPeriodStart (c : Fin 72) (s : State) : Host.Outcome State Fault Refusal :=
  s.run fun h => if h.periodDue c then h.beginPeriod c else h

/-- PWM_ALIGN (R58, R228, R229, R232): the instant becomes the anchor of the channels covered. Where the first period under it starts
at once, and on a generator that runs free (`PWM_FREE`), a period begins; else the next one begins at the first start to come. -/
def pwmAlignEff (arg v tc _idx : Nat) (h : Hw) : Hw :=
  each (fld arg 6 0) (fun i h =>
    let c := fld arg 22 16 + i
    let n := h.get (cPwm c) 31 30
    let h := h.setChan c { h.chan c with anchor := if n = tc then v else h.slotVal n, alignAt := some h.now }
    if h.paceDue c || h.bit (cState c) 3 || !h.slotPwmOk n then h.beginPeriod c else h) h

/-- PWM_ALIGN cue. -/
def execPwmAlign (c : CueRef) (s : State) : Host.Outcome State Fault Refusal := s.run fun h => h.fireCue c 0x18 pwmAlignEff

/-- A channel trips into a state with a cause (R211, R212, R223): off, its window closed. -/
def Hw.trip (h : Hw) (c st cause : Nat) : Hw :=
  let h := (h.undrive c false).closeWindow c
  let h := h.setChan c { h.chan c with tripAt := some h.now }
  (h.put (cState c) 27 24 cause).setChState c st

/-- A trip can take the channel: it is driven, or a command of this very instant has switched it off (R210). -/
def Hw.canTrip (h : Hw) (c : Nat) : Bool := h.driven c || decide ((h.chan c).offAt = some h.now)

/-- Another channel on the same busbar has a window open (R216). -/
def Hw.neighWindow (h : Hw) (c : Nat) : Bool :=
  (List.range 72).any (fun d => d != c && chanBus d == chanBus c && h.window d)

/-- A trip under R211 or R212 (R216, R241). -/
def Hw.tripOver (h : Hw) (c st cause : Nat) : Hw :=
  if !h.canTrip c then h
  else
    let n := h.neighWindow c
    let h := (h.trip c st cause).putBit (cState c) 15 n
    (h.satF (cCnt c) 31 24).raise (pgPCH (c / 8)) (4 * (c % 8))

/-- SHORT_TRIP (R212). -/
def execShortTrip (c : Fin 72) (s : State) : Host.Outcome State Fault Refusal := s.run fun h => h.tripOver c stTripShort 1

/-- A busbar's dip holds the clock of a window from here on: since when, in cue clock cycles (R215). -/
def Hw.dipSince (h : Hw) (c : Nat) : Option Nat :=
  match find? h.stage.dips (chanBus c) with
  | some t => some (max t (h.chan c).openAt)
  | none => none

/-- Set length of a channel's window in cue clock cycles: `BOOST_TIME`, or the time of the profile's last point (R213, R214). -/
def Hw.windowLen (h : Hw) (c : Nat) : Nat :=
  if 2 ≤ chanClass c then h.get (cLim c) 31 24 * 1_200_000
  else
    let p := h.get (cCfg c) 2 0
    h.get (LPM_PROF p (h.get (LPM_PROF p 0) 31 24 + 1)) 31 16 * 120_000

/-- How long a window has stood still, at most its set length (R215). -/
def Hw.windowStood (h : Hw) (c : Nat) : Nat :=
  min (h.windowLen c) ((h.chan c).stood + (match h.dipSince c with | some t => h.now - t | none => 0))

/-- The clock of a window since its turn-on (R213 to R215). -/
def Hw.windowTime (h : Hw) (c : Nat) : Nat := h.now - (h.chan c).openAt - h.windowStood c

/-- The envelope of a profile at a time in cue clock cycles, in % of the rated current (Table 05.5): linear between points, or with
`STEP` each point's limit until the next one. -/
def Hw.envelope (h : Hw) (p t : Nat) : Ratio :=
  let at_ := fun j => h.get (LPM_PROF p (j + 2)) 31 16 * 120_000
  let lim := fun j => h.get (LPM_PROF p (j + 2)) 15 0
  match ((List.range (h.get (LPM_PROF p 0) 31 24)).filter (fun j => decide (at_ j ≤ t))).getLast? with
  | none => ⟨0, 1⟩
  | some j =>
    if h.bit (LPM_PROF p 0) 8 ∨ at_ (j + 1) ≤ t then ⟨lim j, 1⟩
    else ⟨lim j * (at_ (j + 1) - t) + lim (j + 1) * (t - at_ j), at_ (j + 1) - at_ j⟩

/-- Rated current of a class in A (Table 05.1). -/
def ratedAmps (cls : Nat) : Nat := if cls = 0 then 25 else if cls = 1 then 30 else if cls = 2 then 15 else 6

/-- The window limit in % of the rated current: `BOOST_LIM`, or the profile's envelope (R213, R214); none without a window. -/
def Hw.windowLimit (h : Hw) (c : Nat) : Ratio :=
  if !h.window c then ⟨0, 1⟩
  else if 2 ≤ chanClass c then ⟨10 * h.get (cLim c) 23 16, 1⟩
  else h.envelope (h.get (cCfg c) 2 0) (h.windowTime c)

/-- The limit of a channel in units of 10 mA: the larger of `LIM` and the window limit (R211). -/
def Hw.chanLimit (h : Hw) (c : Nat) : Ratio :=
  let w := h.windowLimit c
  ⟨ratedAmps (chanClass c) * max (10 * h.get (cLim c) 15 8 * w.den) w.num, w.den⟩

/-- Time in regulation in ns: it adds up over consecutive pulses, and a pulse that ends without regulating takes it back to 0
(R211). -/
def regulated (ps : List LimPulse) : Nat := ps.foldl (fun n p => if p.ended then n + p.ns else 0) 0

/-- LIM_DWELL_EXPIRY (R211): the load draws more than the limit, and the channel has regulated for longer than `LIM_DWELL`. -/
def execLimDwellExpiry (x : LimRun) (s : State) : Host.Outcome State Fault Refusal :=
  s.run fun h =>
    let l := h.chanLimit x.chan
    if l.num < x.load.toNat * l.den ∧ h.get (cCfg x.chan) 15 8 * 100_000 < regulated x.parts then h.tripOver x.chan stTripLimit 2 else h

/-- OVERTEMP_SHUTDOWN (R221). -/
def execOvertempShutdown (c : Fin 72) (s : State) : Host.Outcome State Fault Refusal :=
  s.run fun h =>
    let h := h.setChan c { h.chan c with hot := true }
    if !h.canTrip c then h
    else
      let latch := h.get (cCfg c) 31 30 = 1 ∨ h.get (cState c) 23 20 = h.get (cCfg c) 29 26
      let h := h.trip c (if latch then stTempLatch else stTempWait) 4
      (h.satF (cCnt c) 15 8).raise (pgPCH (c / 8)) (4 * (c % 8) + 2)

/-- A restart after TEMP_WAIT (R221): it counts, and the channel follows its standing command. -/
def Hw.tempRestart (h : Hw) (c : Nat) : Hw :=
  ((h.put (cState c) 23 20 (min 15 (h.get (cState c) 23 20 + 1))).setChState c stOff).followStanding c

/-- TEMP_RESTART (R217, R221, R258); a channel that has tripped in the hold window stays in its trip state (R254). -/
def execTempRestart (c : Fin 72) (s : State) : Host.Outcome State Fault Refusal :=
  s.run fun h =>
    let h := h.setChan c { h.chan c with hot := false }
    if h.heldTrip c then h
    else if h.chState c = stTempWait then h.tempRestart c
    else if (h.chan c).ctl = .limp then h.limpFollow c
    else h

/-- RETRY_RESET (R221): driven for 1 s, and so without a trip. -/
def execRetryReset (c : Fin 72) (s : State) : Host.Outcome State Fault Refusal :=
  s.run fun h => if h.driven c && decide ((h.chan c).onAt + 1_200_000_000 ≤ h.now) then h.put (cState c) 23 20 0 else h

/-- Table 05.7: resistance in µΩ/m, thermal resistance in 0.1 K·m/W, time constant in s. -/
def wireRow : Nat → Nat × Nat × Nat
  | 1 => (51_030, 210, 15)
  | 2 => (35_720, 180, 20)
  | 3 => (23_810, 155, 28)
  | 4 => (17_860, 140, 36)
  | 5 => (11_910, 120, 52)
  | 6 => (7_144, 100, 85)
  | 7 => (4_465, 82, 130)
  | 8 => (2_977, 70, 180)
  | 9 => (1_786, 56, 290)
  | _ => (1_116, 46, 430)

/-- Trip temperature in °C (R223). -/
def tripTemp (insul : Nat) : Nat :=
  match insul with
  | 1 => 85
  | 2 => 100
  | 3 => 125
  | 4 => 150
  | _ => 175

/-- The temperature of an ambient source in °C plus 50 (R225). -/
def Hw.ambient (h : Hw) (a : Nat) : Nat :=
  if h.bit (LPM_AMB_CFG a) 31 && !h.bit (LPM_AMB_VAL a) 31 then h.get (LPM_AMB_VAL a) 7 0 else h.get (LPM_AMB_CFG a) 15 8

/-- One °C in the units of the wire temperature. -/
abbrev degree : Int := 2 ^ 32

/-- The next wire temperature after 1 ms (R222): one Euler step in integer arithmetic, `i2` in mA² (assumption log,
entry 12). -/
def wireStep (theta ambient : Int) (bundle section_ i2 : Nat) : Int :=
  let (rw, z, tau) := wireRow section_
  let g : Int := ((bundle * z * i2 * rw * 2 ^ 32 / (64 * 10 * 10 ^ 12) : Nat) : Int)
  let rise := g + g * (393 * (theta - 20 * degree)) / (100_000 * degree)
  theta + (ambient + rise - theta) / ((1000 * tau : Nat) : Int)

/-- `WIRE_T` of a wire temperature: °C plus 50, saturating at 0 and 255 (Table 05.16). -/
def wireT (theta : Int) : Nat := min 255 ((theta / degree + 50).toNat)

/-- WIRE_MODEL_UPDATE (R208, R222, R223, R217): the samples of 1 ms, and the model, with its warning and its trip. -/
def execWireModelUpdate (c : Fin 72) (m : ChanSample) (s : State) : Host.Outcome State Fault Refusal :=
  s.run fun h =>
    let k := cState c
    let h := { h with hlt := { h.hlt with junction := max h.hlt.junction m.die.toNat } }
    let h := (h.put (cMeas c) 23 16 m.die.toNat).put (cMeas c) 15 0 m.current.toNat
    let h := h.putBit k 12 (m.limiting && h.driven c)
    if !h.stage.running then h
    else
      let w := cWire c
      let amb := (((h.ambient (h.get w 9 8) : Nat) : Int) - 50) * degree
      let th := wireStep (h.chan c).theta amb (h.get w 23 16) (h.get w 31 28) m.i2
      let h := (h.setChan c { h.chan c with theta := th }).put (cMeas c) 31 24 (wireT th)
      let trip := ((tripTemp (h.get w 27 24) : Nat) : Int) * degree
      let warn := decide (th ≥ trip - ((h.get w 7 0 : Nat) : Int) * degree)
      let was := h.bit k 11
      let h := (h.putBit k 11 warn).raiseIf (warn && !was) (pgPCH (c / 8)) (4 * (c % 8) + 1)
      if h.canTrip c && decide (th ≥ trip) then
        let h := h.trip c stTripWire 3
        (h.putBit k 10 true).satF (cCnt c) 23 16
      else
        let h := h.putBit k 10 (decide (h.chState c = stTripWire) && decide (th > trip - 30 * degree))
        if (h.chan c).ctl = .limp && h.tripped c then h.limpFollow c else h

/-- WINDOW_END (R213 to R215): the window's clock has reached its set length, and the limit returns to `LIM`. -/
def execWindowEnd (c : Fin 72) (s : State) : Host.Outcome State Fault Refusal :=
  s.run fun h =>
    if !h.window c || decide (h.windowTime c < h.windowLen c) then h
    else
      let h := h.closeWindow c
      if h.chState c = stInrush then h.showDriven c else h

/-- BUS_DIP (R215): the clocks of the busbar's windows stand still from here on. -/
def execBusDip (b : Fin 3) (s : State) : Host.Outcome State Fault Refusal :=
  s.run fun h =>
    if (find? h.stage.dips b.val).isSome then h else { h with stage := { h.stage with dips := file h.stage.dips b h.now } }

/-- A window's clock runs on after a dip, and `STRETCHED` shows (R215). -/
def Hw.clockResumes (h : Hw) (c : Nat) : Hw :=
  (h.setChan c { h.chan c with stood := h.windowStood c }).putBit (cState c) 14 true

/-- BUS_DIP_END (R215). -/
def execBusDipEnd (b : Fin 3) (us : BitVec 32) (s : State) : Host.Outcome State Fault Refusal :=
  s.run fun h =>
    if (find? h.stage.dips b.val).isNone then h
    else
      let h := each 72 (fun c h => if chanBus c == b.val && h.window c then h.clockResumes c else h) h
      let h := { h with stage := { h.stage with dips := unfile h.stage.dips b.val } }
      let h := h.wr LPM_DIP_LAST (b.val * 2 ^ 30 + min 0xFF_FFFF us.toNat)
      (h.sat LPM_DIP_CNT).raise pgLPM 1

/-- The register of a busbar. -/
def busReg (b : Nat) : Nat := if b = 0 then LPM_BUS12A else if b = 1 then LPM_BUS12B else LPM_BUS48

/-- BUS_OVERLOAD (R199): the 1 s mean of a busbar in 100 mA and its voltage in 10 mV; above 100 A on a 12 V busbar, 160 A
on the 12 V group or 80 A on `IN48` the event is raised. -/
def execBusOverload (b : Fin 3) (cur volt : BitVec 16) (s : State) : Host.Outcome State Fault Refusal :=
  s.run fun h =>
    let h := h.wr (busReg b) (cur.toNat * 2 ^ 16 + volt.toNat)
    let overload := if b.val = 2 then decide (cur.toNat > 800)
      else decide (cur.toNat > 1000) || decide (h.get LPM_BUS12A 31 16 + h.get LPM_BUS12B 31 16 > 1600)
    h.raiseIf overload pgLPM 2

/-- A write of `PCH_CLRk` (R217, R239, R254). -/
def Hw.pchClrWrite (h : Hw) (c v : Nat) : Hw :=
  let h := if fld v 1 1 = 1 then h.wr (cCnt c) 0 else h
  if fld v 0 0 = 1 && h.tripped c && h.chState c != stTempWait && h.causeEnded c && !h.heldTrip c then h.rearm c else h

/-- REARM (R217). -/
def execRearm (c : Fin 72) (v : Word) (a : Attr) (s : State) : Host.Outcome State Fault Refusal :=
  s.run fun h => h.busWrite (PCH_CLR (c / 8) (c % 8)) a fun h => h.pchClrWrite c v.toNat

/-- PCH_CNT_CLR (Table 05.10). -/
def execPchCntClr (c : Fin 72) (v : Word) (a : Attr) (s : State) : Host.Outcome State Fault Refusal :=
  s.run fun h => h.busWrite (PCH_CLR (c / 8) (c % 8)) a fun h => h.pchClrWrite c v.toNat

/-- A diagnostic flag takes a value; its setting raises LOAD and counts (R238). -/
def Hw.loadFlag (h : Hw) (c b : Nat) (x : Bool) : Hw :=
  let was := h.bit (cState c) b
  let h := h.putBit (cState c) b x
  if x && !was then (h.satF (cCnt c) 7 0).raise (pgPCH (c / 8)) (4 * (c % 8) + 3) else h

/-- OL_ON_DETECT (R235, R238): samples of the current over 10 ms in which the channel was driven, in units of 10 mA. All below `OL_ON`
set the flag, all others clear it. In PWM only on-parts of at least 30 µs give a sample. -/
def execOlOnDetect (c : Fin 72) (cur : List (BitVec 16)) (s : State) : Host.Outcome State Fault Refusal :=
  s.run fun h =>
    let x := h.chan c
    let p := h.pwmLen c
    let sampled := x.gate != .blank && (!x.gen || decide (30_000 * 10_000 * p.den ≤ p.num * x.duty))
    let low := fun (i : BitVec 16) => decide (i.toNat < h.get (cDiag c) 15 0)
    if !h.driven c || !sampled || decide (h.now < x.onAt + 12_000_000) || cur.isEmpty then h
    else if cur.all low then h.loadFlag c 5 true
    else if cur.all (fun i => !low i) then h.loadFlag c 5 false
    else h

/-- The channel is off for the tests of R236: OFF, or the off-parts of periods of at least 10 ms; a channel that limp-home or the
hold window holds off counts as OFF (R255; assumption log, entry 141). -/
def Hw.offTested (h : Hw) (c : Nat) : Bool :=
  let x := h.chan c
  let p := h.pwmLen c
  h.stage.running && !h.tripped c &&
    (decide (x.gate = .off) || (decide (x.gate = .pulse ∨ x.gate = .blank) && decide (10_000_000 * p.den ≤ p.num)))

/-- OFF_TEST_PHASE (R236, R238): a phase with the pull-up on sets or clears `OL_OFF`, one with it off `SC_BAT`; a test that is not
enabled does neither. -/
def execOffTestPhase (c : Fin 72) (pullUp high : Bool) (s : State) : Host.Outcome State Fault Refusal :=
  s.run fun h =>
    if !h.offTested c then h
    else if pullUp then (if h.bit (cDiag c) 31 then h.loadFlag c 6 high else h)
    else if h.bit (cDiag c) 30 then h.loadFlag c 7 high
    else h

/-- The fresh value of an ambient source (R225): the last sample of its input, not older than the 10 ms of its sampling, while the
input is configured as a temperature input. -/
def Hw.ambFresh (h : Hw) (n : Nat) : Option Nat :=
  let i := h.get (LPM_AMB_CFG n) 29 24
  match find? h.ain.temp i, find? h.ain.tempAt i with
  | some t, some at_ => if h.get (AIN_CFG i) 31 30 = 2 ∧ h.now ≤ at_ + 12_000_000 then some t else none
  | _, _ => none

/-- An ambient source has a fresh value now. -/
def Hw.ambStamp (h : Hw) (n : Nat) : Hw := { h with stage := { h.stage with amb := file h.stage.amb n h.now } }

/-- AMBIENT_SAMPLE (R225): a fresh temperature of the source's analog input; without `AIN_EN` the value is `FIXED`. -/
def execAmbientSample (n : Fin 4) (s : State) : Host.Outcome State Fault Refusal :=
  s.run fun h =>
    if !h.bit (LPM_AMB_CFG n) 31 then h.wr (LPM_AMB_VAL n) (h.get (LPM_AMB_CFG n) 15 8)
    else
      match h.ambFresh n with
      | some t => (h.wr (LPM_AMB_VAL n) (min 255 t)).ambStamp n
      | none => h

/-- `LPM_AMB_CFGa` has been written (R225, R242): a source that uses `FIXED` shows the new one. Without `AIN_EN`, and with it until
the first fresh sample, the source uses `FIXED` (assumption log, entry 132). `was` is `AIN_EN` before the write. -/
def Hw.ambConfigured (h : Hw) (n : Nat) (was : Bool) : Hw :=
  let fixed := h.get (LPM_AMB_CFG n) 15 8
  if !was || !h.bit (LPM_AMB_CFG n) 31 then (h.wr (LPM_AMB_VAL n) fixed).ambStamp n
  else if h.bit (LPM_AMB_VAL n) 31 then h.wr (LPM_AMB_VAL n) (2 ^ 31 + fixed)
  else h

/-- AMB_FALLBACK (R225): no fresh value for 100 ms. -/
def execAmbFallback (n : Fin 4) (s : State) : Host.Outcome State Fault Refusal :=
  s.run fun h =>
    if h.bit (LPM_AMB_CFG n) 31 && !h.bit (LPM_AMB_VAL n) 31 && decide (((find? h.stage.amb n.val).getD 0) + 120_000_000 ≤ h.now) then
      (h.wr (LPM_AMB_VAL n) (2 ^ 31 + h.get (LPM_AMB_CFG n) 15 8)).raise pgLPM 3
    else h

/-- A profile record meets Table 05.5. -/
def Hw.profileOk (h : Hw) (p : Nat) : Bool :=
  let w := fun k => h.rd (LPM_PROF p k)
  let n := fld (w 0) 31 24
  let pt := fun j => w (j + 2)
  decide (2 ≤ n) && decide (n ≤ 16) && decide (fld (w 0) 23 9 = 0) && decide (fld (pt 0) 31 16 = 0) &&
    (List.range 16).all (fun j =>
      if j < n then
        decide (100 ≤ fld (pt j) 15 0) && decide (fld (pt j) 15 0 ≤ 500) &&
          (j == 0 || decide (fld (pt (j - 1)) 31 16 < fld (pt j) 31 16))
      else decide (pt j = 0)) &&
    (List.range 14).all (fun j => decide (w (j + 18) = 0)) && decide (w 1 = profileCrc w)

/-- Some channel uses a profile (R220). -/
def Hw.profileBusy (h : Hw) (p : Nat) : Bool :=
  (List.range 72).any (fun c => h.bit (cCfg c) 3 && decide (h.get (cCfg c) 2 0 = p) &&
    decide (1 ≤ h.chState c) && decide (h.chState c ≤ 3))

/-- PROFILE_WRITE (R219, R220): a write of any word of a profile. -/
def execProfileWrite (p : Fin 8) (w : Fin 32) (v : Word) (a : Attr) (s : State) : Host.Outcome State Fault Refusal :=
  s.run fun h => h.busWrite (LPM_PROF p w) a fun h =>
    if h.profileBusy p then h.refuse (LPM_PROF p w) 0x0100 a
    else
      let h := (h.storeReg (LPM_PROF p w) v.toNat).putBit LPM_PROF_VALID p false
      if w.val ≠ 1 then h
      else if h.profileOk p then h.putBit LPM_PROF_VALID p true
      else (h.capture pgLPM 0x0101 (busAddr (LPM_PROF p w)) a).raise pgLPM 0

/-- The channel is OFF or in a trip state: its configuration may be written (R240). -/
def Hw.cfgOpen (h : Hw) (c : Nat) : Bool := decide (h.chState c = stOff) || h.tripped c

/-- PWM_CONFIG_WRITE (R227, R240). On another slot the anchor is tick 0 again, since no PWM_ALIGN has named an instant of that
timecode (assumption log, entry 141). -/
def execPwmConfigWrite (c : Fin 72) (v : Word) (a : Attr) (s : State) : Host.Outcome State Fault Refusal :=
  s.run fun h => h.busWrite (cPwm c) a fun h =>
    let num := fld v.toNat 23 16
    let den := fld v.toNat 15 8
    let p := num * h.rd TCU_BASE_TICK
    if !h.cfgOpen c then h.refuse (cPwm c) 0x0100 a
    else if num = 0 ∨ den = 0 then h.refuse (cPwm c) 0x0102 a
    else if !h.slotPwmOk (fld v.toNat 31 30) || decide (p < 40_000 * den) || decide (p > 10_000_000 * den) then
      h.refuse (cPwm c) 0x0103 a
    else
      let new := fld v.toNat 31 30
      let h := if new = h.get (cPwm c) 31 30 then h else h.setChan c { h.chan c with anchor := 0 }
      (h.storeReg (cPwm c) v.toNat).putBit (cState c) 3 false

/-- What the PCH and the LPM refuse of a write to one of their other registers (R240, R241, R242), as an error code; `o`
is the offset in the page. -/
def Hw.pchRefuses (h : Hw) (page o v : Nat) : Option Nat :=
  if o < 0x100 ∨ 0x300 ≤ o then none
  else
    let c := 8 * (page - 0x0A1) + (o - 0x100) / 0x40
    let bc := decide (2 ≤ chanClass c)
    match (o - 0x100) % 0x40 with
    | 0x00 =>
      if !h.cfgOpen c then some 0x0100
      else if fld v 31 30 ≥ 2 ∨ fld v 15 8 = 0 ∨ fld v 15 8 > 100 then some 0x0102 else none
    | 0x04 =>
      if !h.cfgOpen c then some 0x0100
      else if fld v 15 8 < 10 ∨ fld v 15 8 > 20 ∨
          (bc ∧ (fld v 31 24 = 0 ∨ fld v 23 16 < 20 ∨ fld v 23 16 > 50)) then some 0x0102
      else none
    | 0x08 =>
      if !h.cfgOpen c then some 0x0100
      else if fld v 31 28 = 0 ∨ fld v 31 28 > 10 ∨ fld v 27 24 = 0 ∨ fld v 27 24 > 5 ∨ fld v 23 16 < 64 ∨ fld v 7 0 > 50 then some 0x0102
      else none
    | 0x10 => if !h.cfgOpen c then some 0x0100 else none
    | _ => none

/-- The bits of a channel register that a class holds at 0 (Tables 05.11 and 05.12). -/
def pchKeep (page o : Nat) : Nat :=
  let bc := decide (2 ≤ pageClass (page - 0x0A1))
  match (o - 0x100) % 0x40 with
  | 0x00 => if bc then 0x0000_0008 else 0
  | 0x04 => if bc then 0 else 0xFFFF_0000
  | _ => 0

/-- What the LPM refuses (R242, Tables 05.18 and 05.19). -/
def Hw.lpmRefuses (_h : Hw) (o v : Nat) : Option Nat :=
  if 0x100 ≤ o ∧ o < 0x110 then (if fld v 29 24 > 47 then some 0x0102 else none)
  else if o = 0x130 then (if fld v 15 8 < 8 ∨ fld v 15 8 > 36 then some 0x0102 else none)
  else if o = 0x140 then (if fld v 7 0 > 100 then some 0x0102 else none)
  else none

end Sys2Proof.Machine
end

