-- ==== Sys2Proof/Machine/CheckValue.lean ====
section
/-! DEFINITION. The check-value units (R609 to R614, R617). -/

namespace Sys2Proof.Machine

/-- A check-value unit. -/
def Hw.cvu (h : Hw) (n : Nat) : CvuSt := (find? h.cvus n).getD {}

/-- Replace a check-value unit. -/
def Hw.setCvu (h : Hw) (n : Nat) (x : CvuSt) : Hw := { h with cvus := file h.cvus n x }

/-- An algorithm of Table 16.10. -/
structure CrcAlg where
  poly : Nat
  width : Nat
  init : Nat
  ref : Bool
  xor : Nat
deriving DecidableEq, Repr

/-- Table 16.10. -/
def crcAlg : Nat → CrcAlg
  | 0 => ⟨0x1D, 8, 0xFF, false, 0xFF⟩
  | 1 => ⟨0x2F, 8, 0xFF, false, 0xFF⟩
  | 2 => ⟨0x1021, 16, 0xFFFF, false, 0⟩
  | 3 => ⟨0x04C1_1DB7, 32, 0xFFFF_FFFF, true, 0xFFFF_FFFF⟩
  | 4 => ⟨0xF4AC_FB13, 32, 0xFFFF_FFFF, true, 0xFFFF_FFFF⟩
  | _ => ⟨0x42F0_E1EB_A9EA_3693, 64, 0, false, 0⟩

/-- A number of `w` bits with its bits reversed. -/
def revBits (w v : Nat) : Nat := (List.range w).foldl (fun a i => 2 * a + fld v i i) 0

/-- One byte into a CRC register (R609). -/
def crcByte (x : CrcAlg) (ref : Bool) (r : Nat) (b : Nat) : Nat :=
  if ref then crcBits (revBits x.width x.poly) 8 (r ^^^ b)
  else
    each 8 (fun _ r => if fld r (x.width - 1) (x.width - 1) = 1 then (2 * r % 2 ^ x.width) ^^^ x.poly else 2 * r % 2 ^ x.width)
      (r ^^^ (b * 2 ^ (x.width - 8)))

/-- The algorithm that a unit runs. -/
def Hw.cvuAlg (h : Hw) (n : Nat) : CrcAlg := crcAlg (h.get (CVU_CFG n) 2 0)

/-- The result (R609): the register XOR `XOR`. -/
def Hw.cvuResult (h : Hw) (n : Nat) : Nat :=
  ((h.cvu n).reg ^^^ h.rdPair (CVU_XOR_LO n) (CVU_XOR_HI n)) % 2 ^ (h.cvuAlg n).width

/-- Modulus of the alive counter (R613). -/
def Hw.aliveMod (h : Hw) (n : Nat) : Nat :=
  match h.get (CVU_CFG n) 21 20 with | 0 => 16 | 1 => 256 | _ => 0x1_0000

/-- CVU_CFG_WRITE (R609, R614, Table 16.14): `INIT` and `XOR` are loaded; `REF` comes from the algorithm when the write
changes it, else from the write. -/
def execCvuCfgWrite (n : Fin 8) (v : Word) (a : Attr) (s : State) : Host.Outcome State Fault Refusal :=
  s.run fun h => h.busWrite (CVU_CFG n) a fun h =>
    let w := v.toNat
    let alg := fld w 2 0
    if 5 < alg ∨ fld w 21 20 = 3 ∨ fld w 17 16 = 3 ∨ fld w 31 24 = 0 then h.refuse (CVU_CFG n) 0x0101 a
    else
      let old := h.get (CVU_CFG n) 2 0
      let x := crcAlg alg
      let h := h.storeReg (CVU_CFG n) w
      let h := if alg = old then h else h.putBit (CVU_CFG n) 8 x.ref
      let h := (h.wrPair (CVU_INIT_LO n) (CVU_INIT_HI n) x.init).wrPair (CVU_XOR_LO n) (CVU_XOR_HI n) x.xor
      h.setCvu n { h.cvu n with first := true }

/-- CVU_START (R610, R613). -/
def execCvuStart (n : Fin 8) (v : Word) (a : Attr) (s : State) : Host.Outcome State Fault Refusal :=
  s.run fun h => h.busWrite (CVU_START n) a fun h =>
    if fld v.toNat 0 0 = 0 then h
    else
      let init := h.rdPair (CVU_INIT_LO n) (CVU_INIT_HI n) % 2 ^ (h.cvuAlg n).width
      let h := (h.setCvu n { h.cvu n with reg := init }).wr (CVU_LEN n) 0
      if h.get (CVU_CFG n) 17 16 = 1 then
        h.put (CVU_ALIVE_GEN n) 15 0 ((h.get (CVU_ALIVE_GEN n) 15 0 + 1) % h.aliveMod n)
      else h

/-- The data register of a width (0: 8 bits, 1: 16, 2: 32). -/
def cvuDataReg (n w : Nat) : Nat := if w = 0 then CVU_DATA8 n else if w = 1 then CVU_DATA16 n else CVU_DATA32 n

/-- CVU_DATA (R611). -/
def execCvuData (n : Fin 8) (w : Fin 3) (v : Word) (a : Attr) (s : State) : Host.Outcome State Fault Refusal :=
  s.run fun h => h.busWrite (cvuDataReg n w) a fun h =>
    let k := 2 ^ w.val
    let x := h.cvuAlg n
    let ref := h.bit (CVU_CFG n) 8
    let r := (leBytes k v.toNat).foldl (fun r b => crcByte x ref r b.toNat) (h.cvu n).reg
    (h.setCvu n { h.cvu n with reg := r }).inc (CVU_LEN n) k

/-- CVU_EXPECT (R612): a write of `CVU_EXPECT_LO`. -/
def execCvuExpect (n : Fin 8) (v : Word) (a : Attr) (s : State) : Host.Outcome State Fault Refusal :=
  s.run fun h => h.busWrite (CVU_EXPECT_LO n) a fun h =>
    let h := h.wr (CVU_EXPECT_LO n) v.toNat
    let ok := decide (h.rdPair (CVU_EXPECT_LO n) (CVU_EXPECT_HI n) = h.cvuResult n)
    (h.putBit (CVU_CMP n) 0 ok).raiseIf (!ok) (pgCVU n) 3

/-- CVU_ALIVE_IN (R614). -/
def execCvuAliveIn (n : Fin 8) (v : Word) (a : Attr) (s : State) : Host.Outcome State Fault Refusal :=
  s.run fun h => h.busWrite (CVU_ALIVE_IN n) a fun h =>
    if h.get (CVU_CFG n) 17 16 ≠ 2 then h
    else
      let m := h.aliveMod n
      let x := h.cvu n
      let rcv := fld v.toNat 15 0 % m
      let d := (rcv + m - x.expected % m) % m
      let out :=
        if x.first then 0 else if d = 1 then 1 else if d = 0 then 2 else if d ≤ h.get (CVU_CFG n) 31 24 then 3 else 4
      let h := h.setCvu n { x with expected := if out = 2 then x.expected else rcv, first := false }
      let h := h.wr (CVU_ALIVE_ST n) (out * 2 ^ 29 + d)
      h.raiseIf (decide (2 ≤ out)) (pgCVU n) (out - 2)

end Sys2Proof.Machine
end

