-- ==== Sys2Proof/Machine/Real32.lean ====
section
/-! DEFINITION. real32 arithmetic (R119, R128 to R130): exact values, rounded once to nearest with ties to even;
subnormal operands and results are +0, and no −0 exists. A bit pattern is a number below 2^32. -/

namespace Sys2Proof.Machine

/-- Why an instruction does not complete: a trap (Table 03.9), a mirror store that does not match (R80), or an
uncorrectable error on a pool load (R103). -/
inductive Stop where
  | trap (code : Nat)
  | differ
  | ecc
deriving DecidableEq, Repr

/-- What an operation of a run answers. -/
abbrev G := Except Stop

/-- Trap codes (Table 03.9). -/
abbrev tOvf : Nat := 0x01
abbrev tDiv0 : Nat := 0x02
abbrev tFpInvalid : Nat := 0x03
abbrev tFpOvf : Nat := 0x04
abbrev tBounds : Nat := 0x05
abbrev tBadBool : Nat := 0x06
abbrev tWbufFull : Nat := 0x07
abbrev tStoreRo : Nat := 0x08
abbrev tFetchEcc : Nat := 0x09
abbrev tIllegal : Nat := 0x0A
abbrev tUser : Nat := 0x0B
abbrev tDepth : Nat := 0x0C

/-- Trap with a code. -/
def trapG {α : Type} (code : Nat) : G α := .error (.trap code)

/-- Trap with a code when a condition holds. -/
def trapIf (c : Bool) (code : Nat) : G Unit := if c then trapG code else pure ()

/-- The magnitude bits of a pattern. -/
def fMag (b : Nat) : Nat := b % 2 ^ 31

/-- The sign bit. -/
def fNeg (b : Nat) : Bool := decide (b / 2 ^ 31 % 2 = 1)

/-- NaN. -/
def fIsNan (b : Nat) : Bool := decide (fMag b > 0x7F80_0000)

/-- Infinity. -/
def fIsInf (b : Nat) : Bool := decide (fMag b = 0x7F80_0000)

/-- An operand: subnormals and −0 are +0 (R129, R130). -/
def fNorm (b : Nat) : Nat := if fMag b < 0x0080_0000 then 0 else b % 2 ^ 32

/-- The negation of a pattern; every zero is +0. -/
def fFlip (b : Nat) : Nat :=
  let b := fNorm b
  if b = 0 then 0 else if fNeg b then b - 2 ^ 31 else b + 2 ^ 31

/-- A finite pattern as `m × 2^e`: the signed significand and the exponent. -/
def fVal (b : Nat) : Int × Int :=
  let b := fNorm b
  if b = 0 then (0, 0)
  else
    let m : Int := ((b % 2 ^ 23 + 2 ^ 23 : Nat) : Int)
    (if fNeg b then -m else m, (((b / 2 ^ 23 % 256 : Nat) : Int) - 150))

/-- The order of patterns that are not NaN. -/
def fKey (b : Nat) : Int :=
  let b := fNorm b
  if fNeg b then -((fMag b : Nat) : Int) else ((fMag b : Nat) : Int)

/-- Round `± (n + s) × 2^e` to binary32, where `0 ≤ s < 1` and `s ≠ 0` exactly when `sticky` (R128 to R130). `n` has at
least 26 bits when `sticky`. -/
def fRound (neg : Bool) (n : Nat) (e : Int) (sticky : Bool := false) : G Nat :=
  if n = 0 then pure 0
  else
    let q : Int := max (e + (Nat.log2 n : Int) - 23) (-149)
    let (m, q) : Nat × Int :=
      if q ≤ e then (n <<< (e - q).toNat, q)
      else
        let k := (q - e).toNat
        let r := n >>> k
        let t := n % 2 ^ k
        let half := 2 ^ (k - 1)
        (if t > half || (decide (t = half) && (sticky || decide (r % 2 = 1))) then r + 1 else r, q)
    let (m, q) : Nat × Int := if m = 2 ^ 24 then (2 ^ 23, q + 1) else (m, q)
    if m < 2 ^ 23 then pure 0
    else if q + 150 ≥ 255 then trapG tFpOvf
    else pure ((if neg then 2 ^ 31 else 0) + (q + 150).toNat * 2 ^ 23 + (m - 2 ^ 23))

/-- Round an exact value `v × 2^e`. -/
def fRoundInt (v e : Int) : G Nat := fRound (decide (v < 0)) v.natAbs e

/-- An operation with a NaN operand has a NaN result (R130). -/
def fNoNan (a b : Nat) : G Unit := trapIf (fIsNan a || fIsNan b) tFpInvalid

/-- Sum. -/
def fAdd (a b : Nat) : G Nat := do
  fNoNan a b
  if fIsInf a || fIsInf b then
    if fIsInf a && fIsInf b && fNeg a != fNeg b then trapG tFpInvalid else trapG tFpOvf
  else
    let x := fVal a
    let y := fVal b
    let e := if x.1 = 0 then y.2 else if y.1 = 0 then x.2 else min x.2 y.2
    fRoundInt (x.1 * 2 ^ (x.2 - e).toNat + y.1 * 2 ^ (y.2 - e).toNat) e

/-- Difference. -/
def fSub (a b : Nat) : G Nat := do
  fNoNan a b
  fAdd a (fFlip b)

/-- Product. -/
def fMul (a b : Nat) : G Nat := do
  fNoNan a b
  if fIsInf a || fIsInf b then
    if fNorm a = 0 || fNorm b = 0 then trapG tFpInvalid else trapG tFpOvf
  else fRoundInt ((fVal a).1 * (fVal b).1) ((fVal a).2 + (fVal b).2)

/-- Quotient. -/
def fDiv (a b : Nat) : G Nat := do
  fNoNan a b
  if (fIsInf a && fIsInf b) || (fNorm a = 0 && fNorm b = 0) then trapG tFpInvalid
  else if fNorm b = 0 then trapG tDiv0
  else if fIsInf a then trapG tFpOvf
  else if fIsInf b then pure 0
  else
    let x := fVal a
    let y := fVal b
    let n := (x.1.natAbs <<< 50) / y.1.natAbs
    fRound (fNeg (fNorm a) != fNeg b) n (x.2 - y.2 - 50) (decide ((x.1.natAbs <<< 50) % y.1.natAbs ≠ 0))

/-- Integer square root, `k` bits of result. -/
def isqrt : Nat → Nat → Nat → Nat
  | 0, _, r => r
  | k + 1, n, r => isqrt k n (if (r + 2 ^ k) * (r + 2 ^ k) ≤ n then r + 2 ^ k else r)

/-- Square root (Table 03.4, RND SQRT). -/
def fSqrt (a : Nat) : G Nat := do
  trapIf (fIsNan a || (fNeg a && fNorm a != 0)) tFpInvalid
  if fIsInf a then trapG tFpOvf
  else
    let x := fVal a
    let odd := decide (x.2 % 2 ≠ 0)
    let m := (if odd then 2 * x.1.natAbs else x.1.natAbs) <<< 54
    let e := (if odd then x.2 - 1 else x.2) / 2 - 27
    let r := isqrt 40 m 0
    fRound false r e (decide (r * r ≠ m))

/-- Smaller operand, larger operand. -/
def fPick (larger : Bool) (a b : Nat) : G Nat := do
  fNoNan a b
  let r := if decide (fKey a ≤ fKey b) != larger then fNorm a else fNorm b
  trapIf (fIsInf r) tFpOvf
  pure r

/-- Smaller operand. -/
def fMin (a b : Nat) : G Nat := fPick false a b

/-- Larger operand. -/
def fMax (a b : Nat) : G Nat := fPick true a b

/-- Negation and absolute value. -/
def fUnary (abs : Bool) (a : Nat) : G Nat := do
  trapIf (fIsNan a) tFpInvalid
  trapIf (fIsInf a) tFpOvf
  pure (if abs && !fNeg a then fNorm a else fFlip a)

/-- Floor of `v × 2^e`. -/
def floorPow (v e : Int) : Int := if 0 ≤ e then v * 2 ^ e.toNat else v.fdiv (2 ^ (-e).toNat)

/-- Round to an integer by the function code of RND: 0 FLOOR, 1 CEIL, 2 TRUNC, 3 RNE. -/
def roundPow (fn : Nat) (v e : Int) : Int :=
  let lo := floorPow v e
  let exact := decide (0 ≤ e) || decide (lo * 2 ^ (-e).toNat = v)
  if exact || fn = 0 then lo
  else if fn = 1 then lo + 1
  else if fn = 2 then (if v < 0 then lo + 1 else lo)
  else
    let twice := 2 * (v - lo * 2 ^ (-e).toNat)
    let one : Int := 2 ^ (-e).toNat
    if twice < one then lo else if one < twice then lo + 1 else if lo % 2 = 0 then lo else lo + 1

/-- RND (Table 03.4). -/
def fRnd (fn a : Nat) : G Nat := do
  if fn = 4 then fSqrt a
  else
    trapIf (fIsNan a) tFpInvalid
    trapIf (fIsInf a) tFpOvf
    fRoundInt (roundPow fn (fVal a).1 (fVal a).2) 0

/-- A relation of two patterns (Table 03.7); with a NaN the spec states none. -/
def fRel (fn a b : Nat) : Bool :=
  if fIsNan a || fIsNan b then Config.nanRel fn a b
  else
    match fn with
    | 0 => decide (fKey a = fKey b)
    | 1 => decide (fKey a ≠ fKey b)
    | 2 => decide (fKey a < fKey b)
    | 3 => decide (fKey a ≤ fKey b)
    | 4 => decide (fKey a > fKey b)
    | _ => decide (fKey a ≥ fKey b)

end Sys2Proof.Machine
end

