-- ==== Sys2Proof/Machine/GorpenCore.lean ====
section
/-! DEFINITION. What a Gorpen run reads and writes (R119 to R137, R79 to R83): registers in the primary and in the mirror
representation, the four spaces, and the write buffer. Values are primary values throughout: in the mirror run a register
is converted on every read and every write, which is the mirror rule of each instruction (R125, R126). -/

namespace Sys2Proof.Machine

/-- What a run is given: its task and cadence, the bank header (Table 03.13), the task entry, the image of its cycle (none for a
background task, R81, R137) and the forces in effect. -/
structure GCtx where
  task : Nat
  cad : Nat
  bank : Nat
  codeLen : Nat
  entry : Nat
  instLen : Nat
  constOfs : Nat
  constLen : Nat
  instBase : Nat
  budget : Nat
  img : Option (Mem × Nat)
  forces : List (Nat × List Byte)

/-- The context of a task's run. -/
def Hw.gCtx (h : Hw) (t : Nat) (r : Run) : GCtx :=
  let b := h.bankBase t
  let c := h.taskCad t
  let img := if r.bg then none else some (r.img, r.imgLen)
  { task := t, cad := c, bank := b, codeLen := h.progWord (b + 0x08), entry := h.progWord (b + 0x0C), instLen := fld (h.progWord (b + 0x10)) 23 0, constOfs := h.progWord (b + 0x14), constLen := h.progWord (b + 0x18), instBase := h.instBase t, budget := h.taskBudget t, img := img, forces := h.taskForces t }

/-- Sizes of the types in memory by `ty` code; 8 stands for bool (Table 03.1). -/
def tySize : Nat → Nat
  | 0 => 2
  | 1 => 4
  | 2 => 4
  | 3 => 4
  | 4 => 1
  | 5 => 2
  | 6 => 4
  | 7 => 8
  | _ => 1

/-- The integer types: int16, int32, uint32 and time64. -/
def tyInt (ty : Nat) : Bool := decide (ty ≤ 2) || decide (ty = 7)

/-- The word types: byte, word and dword. -/
def tyWord (ty : Nat) : Bool := decide (4 ≤ ty) && decide (ty ≤ 6)

/-- Width of an integer or word type in bits. -/
def tyBits (ty : Nat) : Nat := 8 * tySize ty

/-- Least value of an integer type. -/
def tyMin (ty : Nat) : Int := if ty = 2 then 0 else -(2 ^ (tyBits ty - 1) : Nat)

/-- Greatest value of an integer type. -/
def tyMax (ty : Nat) : Int := tyMin ty + ((2 ^ tyBits ty - 1 : Nat) : Int)

/-- Raw value of a general register, 33 bits (R123). -/
def Run.raw (r : Run) (i : Nat) : Nat := (lookup (fun _ => (0 : BitVec 33)) r.g i).toNat

/-- Set a general register. -/
def Run.setRaw (r : Run) (i v : Nat) : Run := { r with g := store (fun _ => (0 : BitVec 33)) r.g i (BitVec.ofNat 33 v) }

/-- The run is a mirror run. -/
def Run.isMirror (r : Run) : Bool := decide (r.phase = .mirror)

/-- Primary value of a general register read as a type (R124, R125); patterns of real32 and word types as numbers. -/
def Run.val (r : Run) (ty i : Nat) : Int :=
  if ty = 7 then
    let v := sgn 65 (r.raw i % 2 ^ 32 + 2 ^ 32 * r.raw (i + 1))
    if r.isMirror then -v else v
  else if ty = 3 then
    let b := r.raw i % 2 ^ 32
    ((if r.isMirror then fFlip b else fNorm b : Nat) : Int)
  else if tyWord ty then
    let b := r.raw i % 2 ^ tyBits ty
    ((if r.isMirror then 2 ^ tyBits ty - 1 - b else b : Nat) : Int)
  else
    let v := sgn 33 (r.raw i)
    if r.isMirror then -v else v

/-- Write a primary value to a general register as a type. -/
def Run.setVal (r : Run) (ty i : Nat) (v : Int) : Run :=
  if ty = 7 then
    let u := unsgn 65 (if r.isMirror then -v else v)
    (r.setRaw i (u % 2 ^ 32)).setRaw (i + 1) (u / 2 ^ 32)
  else if ty = 3 then
    r.setRaw i (if r.isMirror then fFlip v.toNat else v.toNat % 2 ^ 32)
  else if tyWord ty then
    let b := unsgn (tyBits ty) v
    r.setRaw i (if r.isMirror then 2 ^ tyBits ty - 1 - b else b)
  else r.setRaw i (unsgn 33 (if r.isMirror then -v else v))

/-- Primary value of a boolean register. -/
def Run.bool (r : Run) (i : Nat) : Bool := decide (fld r.b.toNat i i = 1) != r.isMirror

/-- Write a primary value to a boolean register. -/
def Run.setBool (r : Run) (i : Nat) (x : Bool) : Run :=
  { r with b := BitVec.ofNat 16 (setBit r.b.toNat i (x != r.isMirror)) }

/-- A register field of a type: a time64 pair starts at an even register (R140). -/
def pairOk (ty i : Nat) : G Unit := trapIf (decide (ty = 7) && decide (i % 2 = 1)) tIllegal

/-- A 5-bit field that names a boolean register has bit 4 at 0 (R140). -/
def boolOk (i : Nat) : G Unit := trapIf (decide (i ≥ 16)) tIllegal

/-- Extent of a space (Table 03.2); none for the image of a background task (R137). -/
def GCtx.extent (c : GCtx) (sp : Nat) : Option Nat :=
  match sp with
  | 0 => some c.instLen
  | 1 => c.img.map (·.2)
  | 2 => some c.constLen
  | _ => some poolSize

/-- The access lies wholly inside the space (R135). -/
def GCtx.inside (c : GCtx) (sp : Nat) (ofs : Int) (n : Nat) : Bool :=
  match c.extent sp with
  | none => false
  | some x =>
    decide (0 ≤ ofs) && decide (ofs.toNat + n ≤ x) &&
      (sp != 0 || decide (c.instBase + ofs.toNat + n ≤ poolSize))

/-- A byte of the pool as a run reads it: its own buffered store (in the mirror run once visited) before the word as of
the input cue, and a forced value before both (R81, R178). -/
def Hw.runByte (h : Hw) (c : GCtx) (r : Run) (a : Nat) : Byte :=
  match forcedByte c.forces a with
  | some b => b
  | none =>
    match find? r.buf (a / 8) with
    | some e =>
      if fld e.mask.toNat (a % 8) (a % 8) = 1 && (!r.isMirror || e.visited) then BitVec.ofNat 8 (e.data.toNat / 256 ^ (a % 8))
      else h.poolByteAt r.seq a
    | none => h.poolByteAt r.seq a

/-- The bytes of an access, in little-endian order (R120, R134 to R136). -/
def Hw.gBytes (h : Hw) (c : GCtx) (r : Run) (sp : Nat) (ofs : Int) (n : Nat) : G (List Byte) := do
  trapIf (!c.inside sp ofs n) tBounds
  let o := ofs.toNat
  match sp with
  | 1 => pure ((c.img.getD ([], 0)).1.read o n)
  | 2 => pure (h.cea.prog.read (c.bank + c.constOfs + o) n)
  | 0 => pure ((List.range n).map (fun i => h.runByte c r (c.instBase + o + i)))
  | _ => pure ((List.range n).map (fun i => h.runByte c r (o + i)))

/-- A typed load (R120, R121, R130); `ty` 8 is bool, its value 0 or 1. -/
def Hw.gLoad (h : Hw) (c : GCtx) (r : Run) (sp ty : Nat) (ofs : Int) : G Int := do
  let bs ← h.gBytes c r sp ofs (tySize ty)
  let v := leNat bs
  if ty = 8 then
    trapIf (decide (v > 1)) tBadBool
    pure (v : Int)
  else if ty = 3 then
    trapIf (fIsNan v || fIsInf v) tFpInvalid
    pure (fNorm v : Int)
  else if tyWord ty || ty = 2 then pure (v : Int)
  else pure (sgn (tyBits ty) v)

/-- A store may begin (R83, R135): inside the instance data, by a task with a write budget. -/
def GCtx.storeOk (c : GCtx) (ofs : Int) (n : Nat) : G Unit := do
  trapIf (!c.inside 0 ofs n) tBounds
  trapIf (decide (c.budget = 0)) tStoreRo

/-- A typed store (R79, R80, R83). In the mirror run it is checked against the buffer. A store at which the primary run
trapped with WBUF_FULL traps in the mirror run too. -/
def GCtx.store (c : GCtx) (r : Run) (ty : Nat) (ofs : Int) (v : Int) : G Run := do
  let n := tySize ty
  c.storeOk ofs n
  let a := c.instBase + ofs.toNat
  let new := unsgn (8 * n) v
  let full := decide (r.buf.length ≥ min c.budget 1024)
  let i := a % 8
  let m := (2 ^ n - 1) <<< i
  let old := find? r.buf (a / 8)
  match r.phase with
  | .primary =>
    trapIf (old.isNone && full) tWbufFull
    let e := old.getD {}
    let e := { e with data := BitVec.ofNat 64 (setFld e.data.toNat (8 * (i + n) - 1) (8 * i) new), mask := e.mask ||| BitVec.ofNat 8 m }
    pure { r with buf := file r.buf (a / 8) e, stores := r.stores + 1 }
  | .mirror =>
    match old with
    | none => if full then trapG tWbufFull else .error .differ
    | some e =>
      if e.mask.toNat &&& m = m ∧ fld e.data.toNat (8 * (i + n) - 1) (8 * i) = new then
        pure { r with buf := file r.buf (a / 8) { e with visited := true }, stores := r.stores + 1 }
      else .error .differ

/-- The image's timecodes and cycle number (Table 02.5), and TC0 for a background task (R137): NOW, PREV, DT, CYCLE. -/
def GCtx.time (c : GCtx) (r : Run) (which : Nat) : Int :=
  match c.img with
  | none => if which ≤ 1 then sgn 64 r.tc0 else 0
  | some (m, _) =>
    let tc := fun o => (m.le o 4 + 2 ^ 32 * (m.get (o + 4)).toNat) * tickUnit + m.le (o + 5) 3
    match which with
    | 0 => sgn 64 (tc 0)
    | 1 => sgn 64 (tc 0x10)
    | 2 => sgn 64 (unsgn 64 ((tc 0 : Int) - tc 0x10))
    | _ => (m.le 0x0C 4 : Int)

end Sys2Proof.Machine
end

