-- ==== Sys2Proof/Machine/Reel.lean ====
section
/-! DEFINITION. The Reel's ring and its records (R649 to R663): what a record holds, where it goes, what it overwrites, and
the snapshots. -/

namespace Sys2Proof.Machine

/-- State of the Reel (R658). -/
def Hw.relState (h : Hw) : Nat := h.get REL_STATE 31 28

/-- The Reel records: RECORDING or POST, with its domain on. -/
def Hw.recording (h : Hw) : Bool := h.live pgREL && (h.relState == 1 || h.relState == 2)

/-- Enter a state; `REL_STATUS.RECORDING` follows. -/
def Hw.setRelState (h : Hw) (x : Nat) : Hw :=
  (h.put REL_STATE 31 28 x).putBit (STATUS pgREL) 0 (x == 1 || x == 2)

/-- Ring base and length in bytes, and the base of the snapshot area. -/
def Hw.relBase (h : Hw) : Nat := 2 ^ 32 * h.get REL_BASE_HI 7 0 + 0x1_0000 * h.get REL_BASE_LO 31 16
def Hw.relBytes (h : Hw) : Nat := 0x1_0000 * h.get REL_SIZE 12 0
def Hw.relSnap (h : Hw) : Nat := 2 ^ 32 * h.get REL_SNAP_HI 7 0 + 0x1_0000 * h.get REL_SNAP_LO 31 16

/-- A write of the Reel's master. -/
def Hw.relWrite (h : Hw) (addr : Nat) (bs : List Byte) : Hw := (h.memWrite addr bs (ownAttr 0x54)).2

/-- A byte list padded with zeros to a multiple of 16. -/
def pad16 (bs : List Byte) : List Byte := bs ++ List.replicate ((16 - bs.length % 16) % 16) 0

/-- A record's bytes (Table 18.1). -/
def recordBytes (kind sub seq tick : Nat) (payload : List Byte) : List Byte :=
  let head := leBytes 4 (kind * 2 ^ 28 + sub % 64 * 2 ^ 20 + payload.length % 2 ^ 17) ++ leBytes 4 seq ++ leBytes 4 tick
  pad16 (head ++ leBytes 4 (crc32 (head ++ payload)) ++ payload)

/-- The records that the bytes from `lo` to `hi` of the ring hold. -/
def hits (l : List RelRec) (lo hi : Nat) : List RelRec := l.filter (fun r => decide (r.ofs < hi) && decide (lo < r.ofs + r.size))

/-- A SNAP_END lies before the input cue instant of an IMAGE record (R657): the record is older and its tick earlier. Records give
no more of the instant of a SNAP_END than its tick (assumption log, entry 152). -/
def RelRec.endsBefore (e r : RelRec) : Bool :=
  decide (e.no < r.no) && decide (0 < (r.w0 + 2 ^ 32 - e.tick) % 2 ^ 32) && decide ((r.w0 + 2 ^ 32 - e.tick) % 2 ^ 32 < 2 ^ 31)

/-- The start points that records hold (R657): the input cue ticks of IMAGE records after a SNAP_END, with no GAP from its
SNAP_START to the COMMIT of the cycle. -/
def startPoints (l : List RelRec) : List RelRec :=
  let gaps := l.filter (fun r => r.kind == 11)
  l.filter (fun r => r.kind == 2 &&
    l.any (fun e => e.kind == 9 && e.endsBefore r &&
      l.any (fun b => b.kind == 8 && b.w1 == e.w1 && decide (b.no < e.no) &&
        !gaps.any (fun g => decide (b.no < g.no) && decide (g.no < r.no)))) &&
    l.any (fun c => c.kind == 3 && c.sub == r.sub && c.w0 == r.w0 && decide (r.no < c.no) &&
      !gaps.any (fun g => decide (r.no < g.no) && decide (g.no < c.no))))

/-- The Reel holds its recording (R660). -/
def Hw.relHold (h : Hw) (short : Bool) : Hw :=
  let pts := (startPoints h.rel.recs).map (fun r => r.w0)
  let from_ := (h.rd REL_TRIG_TICK + 2 ^ 32 - h.get REL_WIN 31 16) % 2 ^ 32
  let late := pts.filter (fun t => decide ((t + 2 ^ 32 - from_) % 2 ^ 32 < 2 ^ 31))
  let first := (late ++ pts).headD 0
  let h := if short then h.putBit REL_STATE 27 true else h
  (((h.setRelState 3).wr REL_FIRST_TICK first).wr REL_LAST_TICK h.rel.lastSlate).raise pgREL 1

/-- The control block (R653). -/
def Hw.relControl (h : Hw) : Hw :=
  let old := match h.rel.recs with | r :: _ => r.ofs | [] => h.rel.wr
  let done := h.rel.complete.foldl (fun x b => setBit x b true) 0
  h.relWrite h.relBase (wordBytes [0x4C45_4552, 1, old, h.rel.wr, h.rd REL_SEQ, h.rel.lastSlate, h.rd REL_SNAP_LO,
    h.rel.newest.getD 0 + 256 * done, 0, 0, 0, 0, 0, 0, 0, 0])

/-- A record goes into the ring at the next place (R654); where it would overwrite a protected record, the Reel holds at once
instead (R660). -/
def Hw.relPut (h : Hw) (kind sub : Nat) (payload : List Byte) : Hw :=
  let tick := h.tick32 0
  let bs := recordBytes kind sub (h.rd REL_SEQ) tick payload
  let n := bs.length
  let wrap := decide (h.relBytes < h.rel.wr + n)
  let ofs := if wrap then 0x40 else h.rel.wr
  let lost := hits h.rel.recs ofs (ofs + n) ++ (if wrap then hits h.rel.recs h.rel.wr h.relBytes else [])
  if decide (h.relState = 2) && lost.any (fun r => match h.rel.protect with | some p => decide (p ≤ r.no) | none => false) then
    h.relHold true
  else
    let h := if wrap && decide (h.rel.wr < h.relBytes) then h.relWrite (h.relBase + h.rel.wr) (List.replicate 16 0) else h
    let h := h.relWrite (h.relBase + ofs) bs
    let w := fun i => leNat (slice payload i 4)
    let w0 := if kind = 3 then w 8 else w 0
    let x : RelRec := { kind := kind, sub := sub, no := h.rel.no, tick := tick, ofs := ofs, size := n, w0 := w0, w1 := w 4, w2 := w 8 }
    let keep := h.rel.recs.filter (fun r => !lost.any (fun l => l.no == r.no))
    { h.inc REL_SEQ with rel := { h.rel with recs := keep ++ [x], wr := ofs + n, no := h.rel.no + 1 } }

/-- Bytes that stand in the queue of 256 KiB now; it is emptied at 4 GB/s (R655). -/
def Hw.relQueued (h : Hw) : Nat := h.rel.queued - (h.now - h.rel.queuedAt) * 10 / 3

/-- Bytes enter the queue. -/
def Hw.relEnqueue (h : Hw) (n : Nat) : Hw :=
  { h with rel := { h.rel with queued := h.relQueued + n, queuedAt := h.now } }

/-- The GAP record that stands due (R655). -/
def Hw.relGap (h : Hw) : Hw :=
  if h.rel.gapRecs = 0 then h
  else
    let p := leBytes 4 h.rel.gapRecs ++ leBytes 4 h.rel.gapBytes
    let h := { h with rel := { h.rel with gapRecs := 0, gapBytes := 0 } }
    ((h.relEnqueue 32).relPut 11 0 p).raise pgREL 2

/-- A happening is recorded while the Reel records (R649, R655). -/
def Hw.record (h : Hw) (kind sub : Nat) (payload : List Byte) : Hw :=
  if !h.recording then h
  else
    let n := (pad16 payload).length + 16
    let need := n + (if h.rel.gapRecs = 0 then 0 else 32)
    if 0x4_0000 < h.relQueued + need then
      { h.sat REL_DROP_CNT with
        rel := { h.rel with gapRecs := satAdd h.rel.gapRecs 1, gapBytes := satAdd h.rel.gapBytes n } }
    else
      let h := h.relGap
      if h.recording then (h.relEnqueue n).relPut kind sub payload else h

/-- A cadence is recorded (R651). -/
def Hw.relCad (h : Hw) (c : Nat) : Bool := h.bit (REL_CAD (c / 32)) (c % 32)

/-- The value of TC0 as two words: tick, and the layout of `TCU_NOW_HIn`. -/
def Hw.tc0Words (h : Hw) : List Byte := leBytes 4 (nowLo (h.slotVal 0)) ++ leBytes 4 (nowHi (h.slotVal 0))

/-- Entries of a DRAIN record (Table 18.2): flags in bits 31:29, a pool word, the bytes written. -/
def drainEntry (flags word : Nat) (data : BitVec 64) : List Byte :=
  leBytes 4 (flags * 2 ^ 29 + 8 * word) ++ leBytes 8 data.toNat

/-- DRAIN records for the pool words a write changed: `flags` has `TWN` in bit 0, `MIG` in bit 1, `BG` in bit 2; `inst` is the
commit instant. A record holds at most 10,000 entries, so that its length fits `LEN`. -/
def Hw.recordDrain (h : Hw) (flags : Nat) (inst : List Byte) : Nat → List (Nat × BitVec 64) → Hw
  | 0, _ => h
  | fuel + 1, ws =>
    if ws.isEmpty then h
    else
      let h := h.record 4 0 (inst ++ (ws.take 10000).flatMap (fun w => drainEntry flags w.1 w.2))
      Hw.recordDrain h flags inst fuel (ws.drop 10000)

/-- Program bank in use by a task, with `ACT` (Table 18.2). -/
def Hw.bankWord (h : Hw) (t : Nat) : Nat := (if h.bit (PGM_TASK_SEL t) 0 then 2 ^ 16 else 0) + t

/-- The CRC of the active bank, from its header (R156). -/
def Hw.bankCrc (h : Hw) (t : Nat) : Nat := h.progWord (h.bankBase t + 0x20)

/-- Part of a byte memory takes the contents of part of another. -/
def Mem.splice (dst : Mem) (upTo n : Nat) (src : Mem) (fr : Nat) : Mem :=
  (dst.filter (fun e => decide (e.1 < upTo))) ++
    ((src.filter (fun e => decide (fr ≤ e.1) && decide (e.1 < fr + n))).map (fun e => (e.1 - fr + upTo, e.2))) ++
    (dst.filter (fun e => decide (upTo + n ≤ e.1)))

/-- A copy into T1, in the frames of promoted units too (R499). -/
def Hw.t1Splice (h : Hw) (o n : Nat) (src : Mem) : Hw :=
  let mem := { h.mem with t1 := h.mem.t1.splice o n src 0 }
  let mem := mem.frames.foldl (fun (m : MemSt) f =>
    let u := f.2 * 0x1_0000
    if o ≤ u ∧ u + 0x1_0000 ≤ o + n then { m with t0 := m.t0.splice (f.1 * 0x1_0000) 0x1_0000 src (u - o) } else m) mem
  { h with mem := mem }

/-- The pool as its words read now. -/
def Hw.poolNow (h : Hw) : Mem := h.cea.drains.foldl (fun m d => poolPut m d.words) h.cea.pool

/-- A snapshot that is wanted begins once no drain is in progress (R656); none begins after a trigger (R659). -/
def Hw.relSnapTry (h : Hw) : Hw :=
  if !h.rel.snapWanted || h.rel.snap.isSome || !h.cea.drains.isEmpty || !h.recording then h
  else if h.relState = 2 ∧ h.get REL_WIN 31 16 ≠ 0 then { h with rel := { h.rel with snapWanted := false } }
  else
    let b := match h.rel.newest with | some b => 1 - b | none => 0
    let no := h.rel.snapNo
    let tasks := (List.range 512).filter h.taskEn
    let p := leBytes 4 b ++ leBytes 4 no ++
      tasks.flatMap (fun t => leBytes 4 (h.bankWord t) ++ leBytes 4 (h.bankCrc t) ++ leBytes 4 (h.instBase t))
    let h := h.record 8 0 p
    let rel := { h.rel with snapWanted := false, snap := some b, snapNo := no + 1, complete := h.rel.complete.filter (fun x => x != b) }
    let h := { h with rel := rel }
    h.t1Splice (h.relSnap - 0x08_0000_0000 + b * 0x100_0000) 0x100_0000 h.poolNow

/-- An accepted trigger (R658, R659, R661): its sources, as bits. -/
def Hw.relTrigger (h : Hw) (src : Nat) : Hw :=
  if !h.live pgREL then h
  else if h.relState = 2 then h.record 10 0 (leBytes 4 src ++ leBytes 4 (nowHi (h.slotVal 0)))
  else if 3 ≤ h.relState then h.sat REL_TRIG_LOST
  else if h.relState ≠ 1 then h
  else
    let tick := h.tick32 0
    let pre := h.get REL_WIN 31 16
    let h := if pre = 0 then { h with rel := { h.rel with recs := [], snap := none, newest := none, complete := [] } } else h
    let h := h.record 10 0 (leBytes 4 src ++ leBytes 4 (nowHi (h.slotVal 0)))
    let from_ := (tick + 2 ^ 32 - pre) % 2 ^ 32
    let starts := h.rel.recs.filter (fun r => r.kind == 8)
    let good := starts.filter (fun b => h.rel.recs.any (fun e =>
      e.kind == 9 && e.w1 == b.w1 && decide (b.no < e.no) && decide ((from_ + 2 ^ 32 - e.tick) % 2 ^ 32 < 2 ^ 31)))
    let p := match good.getLast?, starts with
      | some b, _ => some b.no
      | none, b :: _ => some b.no
      | none, [] => h.rel.recs.head?.map (fun r => r.no)
    let h := { h with rel := { h.rel with protect := p, snapWanted := decide (pre = 0) } }
    ((((h.wr REL_TRIG_TICK tick).put REL_STATE 21 16 src).setRelState 2).raise pgREL 0).relSnapTry

end Sys2Proof.Machine
end

