-- ==== Sys2Proof/Machine/ForceTable.lean ====
section
/-! DEFINITION. Forces as the cycle sees them (R176 to R181): which entries are in effect, and when they come into effect
and leave it. -/

namespace Sys2Proof.Machine

/-- Symbol codes of Table 03.1 as `ty` codes; 8 is bool. -/
def symTy : Nat → Option Nat
  | 0x0 => some 8
  | 0x1 => some 0
  | 0x2 => some 1
  | 0x3 => some 2
  | 0x4 => some 3
  | 0x5 => some 4
  | 0x6 => some 5
  | 0x7 => some 6
  | 0x8 => some 7
  | _ => none

/-- Size of a symbol's type in memory. -/
def symSize (s : Nat) : Nat := match symTy s with | some t => tySize t | none => 0

/-- What an active entry puts in effect. -/
def ForceEnt.applied (f : ForceEnt) : Applied := ⟨f.image, f.owner, f.ofs, leBytes (symSize f.ty) f.value⟩

/-- Counts of active and suspended forces (Table 04.7). -/
def Hw.frcCounts (h : Hw) : Hw :=
  (h.wr FRC_ACTIVE_CNT (h.frc.entries.filter (fun f => f.2.state == 1)).length).wr FRC_SUSP_CNT
    (h.frc.entries.filter (fun f => f.2.state == 2)).length

/-- A force entry's bytes (Table 04.4), as the Reel records them (R649). -/
def ForceEnt.bytes (f : ForceEnt) : List Byte :=
  wordBytes [f.sym, f.state * 2 ^ 30 + (if f.image then 2 ^ 29 else 0) + f.ty * 2 ^ 25 + f.owner * 2 ^ 16 + f.elem, f.ofs, f.newTy,
    f.value % 2 ^ 32, f.value / 2 ^ 32, 0, 0]

/-- The forces of one owner come into effect as the table now holds them (R176); FORCE_ON and FORCE_OFF are raised for
those that begin and end, and the Reel records those that take effect (R649). -/
def Hw.applyForces (h : Hw) (image : Bool) (owner : Nat) : Hw :=
  let mine := fun (a : Applied) => a.image == image && a.owner == owner
  let new : List (Nat × Applied) := (h.frc.entries.filter (fun f => f.2.state == 1 && f.2.image == image && f.2.owner == owner)).map
    (fun (f : Nat × ForceEnt) => (f.1, f.2.applied))
  let old := h.frc.applied.filter (fun a => mine a.2)
  let rest := h.frc.applied.filter (fun a => !mine a.2)
  let h := { h with frc := { h.frc with applied := new.foldl (fun (l : List (Nat × Applied)) (a : Nat × Applied) => file l a.1 a.2) rest } }
  let h := h.raiseIf (new.any (fun a => (find? old a.1).isNone)) pgFRC 0
  let h := h.raiseIf (old.any (fun a => (find? new a.1).isNone)) pgFRC 1
  (new.filter (fun a => find? old a.1 != some a.2)).foldl (fun (h : Hw) a =>
    match find? h.frc.entries a.1 with | some f => h.record 6 0 f.bytes | none => h) h

/-- Some force in effect applies to a cadence: on its image or on one of its tasks (R181). -/
def Hw.anyForce (h : Hw) (c : Nat) : Bool :=
  h.frc.applied.any (fun a => if a.2.image then a.2.owner == c else !h.taskBg a.2.owner && h.taskCad a.2.owner == c)

/-- An image with its forces (R177). -/
def Hw.forceImage (h : Hw) (c : Nat) (m : Mem) : Mem :=
  h.frc.applied.foldl (fun m a => if a.2.image && a.2.owner == c then m.write a.2.ofs a.2.bytes else m) m

end Sys2Proof.Machine
end

