-- ==== Sys2Proof/Machine/Operands.lean ====
section
/-! DEFINITION. The operand forms of Gorpen (Table 03.3) and the value operations of Tables 03.5 to 03.8, on primary
values. -/

namespace Sys2Proof.Machine

/-- Fields of the formats (Table 03.3). -/
def gOp (w : Nat) : Nat := fld w 31 26
def gD (w : Nat) : Nat := fld w 25 21
def gA (w : Nat) : Nat := fld w 20 16
def gB (w : Nat) : Nat := fld w 15 11
def gTy (w : Nat) : Nat := fld w 10 8
def gFn (w : Nat) : Nat := fld w 7 0
def gImm (w : Nat) : Nat := fld w 15 0
def gMTy (w : Nat) : Nat := fld w 20 18
def gSp (w : Nat) : Nat := fld w 17 16
def gXOff (w : Nat) : Nat := fld w 10 0
def gC (w : Nat) : Nat := fld w 25 22
def gMode (w : Nat) : Nat := fld w 21 20
def gMax (w : Nat) : Nat := fld w 20 9
def gLen (w : Nat) : Nat := fld w 8 0
def gTgt (w : Nat) : Nat := fld w 21 0

/-- Integer results reduced to the primary range (R127). -/
def wrapTy (ty : Nat) (v : Int) : Int := (v - tyMin ty) % ((2 ^ tyBits ty : Nat) : Int) + tyMin ty

/-- Checked result (R126). -/
def checkTy (ty : Nat) (v : Int) : G Int := do
  trapIf (decide (v < tyMin ty) || decide (v > tyMax ty)) tOvf
  pure v

/-- Saturated result (R127). -/
def satTy (ty : Nat) (v : Int) : Int := max (tyMin ty) (min (tyMax ty) v)

/-- The types that Table 03.5 lists for an ALU function. -/
def aluTypes : Nat → List Nat
  | 0x00 => [0, 1, 2, 3, 4, 5, 6, 7]
  | 0x01 => [0, 1, 2, 3, 7]
  | 0x02 => [0, 1, 2, 3, 7]
  | 0x03 => [0, 1, 2, 3]
  | 0x04 => [0, 1, 2, 3]
  | 0x05 => [0, 1, 2]
  | 0x06 => [0, 1, 3, 7]
  | 0x07 => [0, 1, 3, 7]
  | 0x08 => [0, 1, 2, 3, 7]
  | 0x09 => [0, 1, 2, 3, 7]
  | 0x0A => [0, 1, 2, 7]
  | 0x0B => [0, 1, 2, 7]
  | 0x0C => [0, 1, 2]
  | 0x0D => [0, 1, 2, 7]
  | 0x0E => [0, 1, 2, 7]
  | 0x0F => [0, 1, 2]
  | _ => []

/-- ALU on real32 patterns (Table 03.5). -/
def aluReal (fn a b : Nat) : G Nat :=
  match fn with
  | 0x01 => fAdd a b
  | 0x02 => fSub a b
  | 0x03 => fMul a b
  | 0x04 => fDiv a b
  | 0x06 => fUnary false a
  | 0x07 => fUnary true a
  | 0x08 => fMin a b
  | _ => fMax a b

/-- ALU on integers (Table 03.5). -/
def aluInt (fn ty : Nat) (a b : Int) : G Int :=
  match fn with
  | 0x01 => pure (wrapTy ty (a + b))
  | 0x02 => pure (wrapTy ty (a - b))
  | 0x03 => pure (wrapTy ty (a * b))
  | 0x04 => do
    trapIf (decide (b = 0)) tDiv0
    checkTy ty (a.tdiv b)
  | 0x05 => do
    trapIf (decide (b = 0)) tDiv0
    pure (a.tmod b)
  | 0x06 => checkTy ty (-a)
  | 0x07 => checkTy ty (a.natAbs : Int)
  | 0x08 => pure (min a b)
  | 0x09 => pure (max a b)
  | 0x0A => checkTy ty (a + b)
  | 0x0B => checkTy ty (a - b)
  | 0x0C => checkTy ty (a * b)
  | 0x0D => pure (satTy ty (a + b))
  | 0x0E => pure (satTy ty (a - b))
  | _ => pure (satTy ty (a * b))

/-- ALU (Table 03.5). A pairing that the table does not list is ILLEGAL. -/
def aluVal (fn ty : Nat) (a b : Int) : G Int := do
  trapIf (!(aluTypes fn).contains ty) tIllegal
  if fn = 0 then pure a
  else if ty = 3 then
    let x ← aluReal fn a.toNat b.toNat
    pure (x : Int)
  else aluInt fn ty a b

/-- LOGIC on strings of `w` bits (Table 03.6); `n` is the shift count (R145). -/
def logicVal (fn w a b n : Nat) : Nat :=
  let m := 2 ^ w - 1
  match fn with
  | 0x00 => a &&& b
  | 0x01 => a ||| b
  | 0x02 => a ^^^ b
  | 0x03 => m - (a ^^^ b)
  | 0x04 => m - a
  | 0x05 => a &&& (m - b)
  | 0x06 => a ||| (m - b)
  | 0x07 => (a <<< n) % 2 ^ w
  | 0x08 => a >>> n
  | 0x09 => ((a <<< n) % 2 ^ w) ||| (a >>> (w - n))
  | _ => (a >>> n) ||| ((a <<< (w - n)) % 2 ^ w)

/-- A relation of two primary values of a type (Table 03.7). -/
def relVal (fn ty : Nat) (a b : Int) : Bool :=
  if ty = 3 then fRel fn a.toNat b.toNat
  else
    match fn with
    | 0 => decide (a = b)
    | 1 => decide (a ≠ b)
    | 2 => decide (a < b)
    | 3 => decide (a ≤ b)
    | 4 => decide (a > b)
    | _ => decide (a ≥ b)

/-- Conversion of a primary value (Table 03.8). -/
def cvtVal (src dst : Nat) (v : Int) : G Int :=
  if src = dst then pure v
  else if tyInt src && tyInt dst then checkTy dst v
  else if tyInt src && dst = 3 then do
    let b ← fRoundInt v 0
    pure (b : Int)
  else if src = 3 && tyInt dst then do
    trapIf (fIsNan v.toNat || fIsInf v.toNat) tOvf
    checkTy dst (roundPow 2 (fVal v.toNat).1 (fVal v.toNat).2)
  else if tyWord src && tyWord dst then pure (v % ((2 ^ tyBits dst : Nat) : Int))
  else if tyInt src && tyWord dst then pure (v % ((2 ^ tyBits dst : Nat) : Int))
  else if tyWord src && tyInt dst then
    if (src = 5 ∧ dst = 0) ∨ (src = 6 ∧ dst = 1) then pure (sgn (tyBits src) v.toNat) else checkTy dst v
  else trapG tIllegal

end Sys2Proof.Machine
end

