-- ==== Sys2Proof/Machine/Prim.lean ====
section
/-! DEFINITION. The primitive blocks (R147 to R150, R731 to R734): record layouts, registers used, and behaviour on
primary values. -/

namespace Sys2Proof.Machine

/-- Record bytes, general registers, a time64 pair among them, boolean registers, and the offsets of the state fields that
a block writes (Tables 03.10 and 03.17). -/
structure PrimRow where
  bytes : Nat
  gs : Nat
  pair : Bool
  bs : Nat
  state : List Nat

/-- Tables 03.10 and 03.17. -/
def primRow : Nat → Option PrimRow
  | 0x01 => some ⟨16, 2, true, 2, [0, 8]⟩
  | 0x02 => some ⟨16, 2, true, 2, [0, 8]⟩
  | 0x03 => some ⟨16, 2, true, 2, [0, 8, 9]⟩
  | 0x04 => some ⟨16, 1, false, 3, [0, 4]⟩
  | 0x05 => some ⟨16, 1, false, 3, [0, 4]⟩
  | 0x06 => some ⟨16, 0, false, 2, [0]⟩
  | 0x07 => some ⟨16, 0, false, 2, [0]⟩
  | 0x08 => some ⟨16, 0, false, 3, [0]⟩
  | 0x09 => some ⟨16, 0, false, 3, [0]⟩
  | 0x0A => some ⟨32, 3, false, 1, [16, 20, 24, 28]⟩
  | 0x0B => some ⟨0, 3, false, 0, []⟩
  | 0x0C => some ⟨16, 1, false, 0, [8]⟩
  | 0x0D => some ⟨16, 1, false, 0, [4]⟩
  | 0x0E => some ⟨16, 1, false, 1, [0, 4, 8]⟩
  | 0x0F => some ⟨16, 0, false, 2, [2, 4]⟩
  | 0x10 => some ⟨0, 3, false, 0, []⟩
  | 0x11 => some ⟨16, 1, false, 0, []⟩
  | _ => none

/-- Words of the write buffer that a PRIM's stores need and that it does not hold. -/
def primNeed (c : GCtx) (r : Run) (base : Nat) (fields : List Nat) : Nat :=
  (((fields.map (fun o => (c.instBase + base + o) / 8)).eraseDups).filter (fun w => (find? r.buf w).isNone)).length

/-- What a timer computes (R732): the new ET and Q. `q` and `prev` are the old Q and IN_PREV. -/
def timerVal (blk : Nat) (inp : Bool) (et pt dt : Int) (q prev : Bool) : Int × Bool :=
  let up := min (wrapTy 7 (et + dt)) pt
  if blk = 0x01 then
    let et := if inp then up else 0
    (et, inp && decide (et ≥ pt))
  else if blk = 0x02 then
    let et := if inp then 0 else up
    (et, inp || decide (et < pt))
  else
    let q := q || (inp && !prev)
    if q then (up, decide (up < pt))
    else if !inp then (0, false)
    else (et, false)

/-- Linear interpolation of TABLE (R733). -/
def tableVal (x : Nat) (pts : List (Nat × Nat)) : G Nat :=
  let n := pts.length
  match ((List.range n).filter (fun k => fRel 3 (pts.getD k (0, 0)).1 x)).getLast? with
  | none => pure (pts.getD 0 (0, 0)).2
  | some j =>
    let p := pts.getD j (0, 0)
    if j + 1 = n then pure p.2
    else do
      let q := pts.getD (j + 1) (0, 0)
      fAdd p.2 (← fDiv (← fMul (← fSub x p.1) (← fSub q.2 p.2)) (← fSub q.1 p.1))

/-- A real32 operation that traps with FP_INVALID. -/
def invalid : G Nat → Bool
  | .error (.trap c) => decide (c = tFpInvalid)
  | _ => false

/-- PID (R734): OUT, I and E_PREV. An input that is no number traps before a `TI` or `TS` of 0 (R146). -/
def pidVal (man : Bool) (sp pv mv kp ti td ts omin omax i ep : Nat) : G (Nat × Nat × Nat) := do
  let hand : G Nat := do fMax omin (← fMin mv omax)
  trapIf (invalid (fSub sp pv) || (man && invalid hand)) tFpInvalid
  trapIf (decide (ti = 0) || decide (ts = 0)) tDiv0
  let e ← fSub sp pv
  if man then
    let out ← hand
    let i ← fSub out (← fMul kp e)
    pure (out, i, e)
  else
    let di ← fMul (← fDiv (← fMul kp ts) ti) e
    let d ← fDiv (← fMul (← fMul kp td) (← fSub e ep)) ts
    let p ← fMul kp e
    let u ← fAdd (← fAdd p (← fAdd i di)) d
    if (fRel 4 u omax && fRel 4 di 0) || (fRel 2 u omin && fRel 2 di 0) then
      let u ← fAdd (← fAdd p i) d
      let out ← fMax omin (← fMin u omax)
      pure (out, i, e)
    else
      let i ← fAdd i di
      let out ← fMax omin (← fMin u omax)
      pure (out, i, e)

/-- PRIM (R147 to R150). -/
def Hw.prim (h : Hw) (c : GCtx) (r : Run) (w : Nat) : G Run := do
  let blk := gD w
  let a := gA w
  let bb := fld w 15 12
  let base := fld w 11 0 * 16
  match primRow blk with
  | none => trapG tIllegal
  | some row =>
    trapIf ((row.pair && decide (a % 2 = 1)) || decide (a + row.gs > 32) || decide (bb + row.bs > 16)) tIllegal
    trapIf (decide (row.bytes ≠ 0) && (decide (base + row.bytes > 0x1_0000) || !c.inside 0 base row.bytes)) tBounds
    trapIf (!row.state.isEmpty && decide (c.budget = 0)) tStoreRo
    let need := primNeed c r base row.state
    trapIf (decide (need ≠ 0) && decide (r.buf.length + need > min c.budget 1024)) tWbufFull
    let ld := fun ty o => h.gLoad c r 0 ty ((base + o : Nat) : Int)
    let st := fun (r : Run) ty (o : Nat) (v : Int) => c.store r ty ((base + o : Nat) : Int) v
    let b2 := fun (x : Bool) => if x then (1 : Int) else 0
    let real := fun i => (r.val 3 i).toNat
    match blk with
    | 0x04 =>
      let cv ← ld 1 0
      let prev ← ld 8 4
      let cv := if r.bool (bb + 1) then 0 else if r.bool bb && prev = 0 then satTy 1 (cv + 1) else cv
      let pv := r.val 1 a
      let cu := r.bool bb
      let r ← st r 1 0 cv
      let r ← st r 8 4 (b2 cu)
      pure ((r.setBool (bb + 2) (decide (cv ≥ pv))).setVal 1 a cv)
    | 0x05 =>
      let cv ← ld 1 0
      let prev ← ld 8 4
      let pv := r.val 1 a
      let cv := if r.bool (bb + 1) then pv else if r.bool bb && prev = 0 then satTy 1 (cv - 1) else cv
      let cd := r.bool bb
      let r ← st r 1 0 cv
      let r ← st r 8 4 (b2 cd)
      pure ((r.setBool (bb + 2) (decide (cv ≤ 0))).setVal 1 a cv)
    | 0x06 =>
      let prev ← ld 8 0
      let clk := r.bool bb
      let r ← st r 8 0 (b2 clk)
      pure (r.setBool (bb + 1) (clk && prev = 0))
    | 0x07 =>
      let prev ← ld 8 0
      let clk := r.bool bb
      let r ← st r 8 0 (b2 clk)
      pure (r.setBool (bb + 1) (!clk && prev = 1))
    | 0x08 =>
      let q ← ld 8 0
      let q := r.bool bb || (decide (q = 1) && !r.bool (bb + 1))
      let r ← st r 8 0 (b2 q)
      pure (r.setBool (bb + 2) q)
    | 0x09 =>
      let q ← ld 8 0
      let q := !r.bool (bb + 1) && (r.bool bb || decide (q = 1))
      let r ← st r 8 0 (b2 q)
      pure (r.setBool (bb + 2) q)
    | 0x0A =>
      let kp ← ld 3 0
      let ti ← ld 3 4
      let td ← ld 3 8
      let ts ← ld 3 12
      let omin ← ld 3 16
      let omax ← ld 3 20
      let i ← ld 3 24
      let ep ← ld 3 28
      let (out, i, e) ← pidVal (r.bool bb) (real a) (real (a + 1)) (real (a + 2)) kp.toNat ti.toNat td.toNat ts.toNat omin.toNat omax.toNat i.toNat ep.toNat
      let r ← st r 3 16 omin
      let r ← st r 3 20 omax
      let r ← st r 3 24 i
      let r ← st r 3 28 e
      pure (r.setVal 3 a out)
    | 0x0B =>
      let out ← fMax (real (a + 1)) (← fMin (real a) (real (a + 2)))
      pure (r.setVal 3 a out)
    | 0x0C =>
      let up ← ld 3 0
      let down ← ld 3 4
      let y ← ld 3 8
      let x := real a
      let y ←
        if fRel 4 x y.toNat then do fMin x (← fAdd y.toNat up.toNat)
        else if fRel 2 x y.toNat then do fMax x (← fSub y.toNat down.toNat)
        else pure y.toNat
      let r ← st r 3 8 y
      pure (r.setVal 3 a y)
    | 0x0D =>
      let k ← ld 3 0
      let y ← ld 3 4
      let y ← fAdd y.toNat (← fMul k.toNat (← fSub (real a) y.toNat))
      let r ← st r 3 4 y
      pure (r.setVal 3 a y)
    | 0x0E =>
      let q ← ld 8 8
      let on ← ld 3 0
      let off ← ld 3 4
      let x := real a
      let q := if fRel 3 x off.toNat then false else if fRel 5 x on.toNat then true else decide (q = 1)
      let r ← st r 3 0 on
      let r ← st r 3 4 off
      let r ← st r 8 8 (b2 q)
      pure (r.setBool bb q)
    | 0x0F =>
      let n ← ld 0 0
      let cnt ← ld 0 2
      let q ← ld 8 4
      let inp := r.bool bb
      let q := decide (q = 1)
      let cnt := if inp = q then 0 else satTy 0 (cnt + 1)
      let fire := inp != q && decide (cnt ≥ n)
      let q := if fire then inp else q
      let r ← st r 0 2 (if fire then 0 else cnt)
      let r ← st r 8 4 (b2 q)
      pure (r.setBool (bb + 1) q)
    | 0x10 =>
      let x := real a
      let y := real (a + 1)
      let z := real (a + 2)
      let out ← fMax (← fMin x y) (← fMin (← fMax x y) z)
      pure (r.setVal 3 a out)
    | 0x11 =>
      let ofs ← ld 2 0
      let n ← ld 2 4
      trapIf (decide (n < 2) || decide (n > 32) || decide (ofs % 4 ≠ 0) || !c.inside 2 ofs (8 * n.toNat)) tBounds
      let pts ← (List.range n.toNat).mapM (fun (k : Nat) => do
        let x ← h.gLoad c r 2 3 (ofs + 8 * (k : Int))
        let y ← h.gLoad c r 2 3 (ofs + 8 * (k : Int) + 4)
        pure (x.toNat, y.toNat))
      let out ← tableVal (real a) pts
      pure (r.setVal 3 a out)
    | _ =>
      let et ← ld 7 0
      let q ← ld 8 8
      let prev ← if blk = 0x03 then ld 8 9 else pure 0
      let inp := r.bool bb
      let (et, q) := timerVal blk inp et (r.val 7 a) (c.time r 2) (decide (q = 1)) (decide (prev = 1))
      let r ← st r 7 0 et
      let r ← st r 8 8 (b2 q)
      let r ← if blk = 0x03 then st r 8 9 (b2 inp) else pure r
      pure ((r.setBool (bb + 1) q).setVal 7 a et)

end Sys2Proof.Machine
end

