-- ==== Sys2Proof/Machine/Compare.lean ====
section
/-! DEFINITION. How a run starts, halts and ends, the compare of its two runs (R78, R82, R95 to R98), and what a compare
makes of the task. -/

namespace Sys2Proof.Machine

/-- The DBG is attached to a task. -/
def Hw.dbgOn (h : Hw) (t : Nat) : Bool := h.bit DBG_STATE 31 && decide (h.get DBG_STATE 8 0 = t)

/-- Bit `n` of a number is bit 32 of g`n` (`DBG_GHI`). -/
def ghiOf (r : Run) : Nat := (List.range 32).foldl (fun x n => x + (r.raw n / 2 ^ 32 % 2) * 2 ^ n) 0

/-- The attached run halts (R188): the engine shows HALTED, and the DBG shows the run's registers (R192). -/
def Hw.haltRun (h : Hw) (t : Nat) (r : Run) (cause : Nat) : Hw :=
  let r := { r with stopped := true, halted := true, stepping := false }
  let h := h.setRun t r
  let h := (h.putBit DBG_STATE 30 true).put DBG_STATE 27 24 cause
  let h := (h.wr DBG_PC r.pc).wr DBG_ICOUNT r.icount
  let h := each 32 (fun n h => h.wr (DBG_GLO n) (r.raw n)) h
  let h := (h.wr DBG_GHI (ghiOf r)).wr DBG_B r.b.toNat
  let h := h.setEngState r.engine engHalted
  let h := { h with dbg := { h.dbg with haltReq := false } }
  h.raise pgDBG 0

/-- A run of a task starts (R131). A halt that has been asked for takes effect before its first instruction (R188). -/
def Hw.startRun (h : Hw) (t : Nat) (r : Run) : Hw :=
  let r := { r with pc := h.progWord (h.bankBase t + 0x0C) }
  let h := h.setRun t r
  if h.dbgOn t && h.dbg.haltReq then h.haltRun t r 1 else h

/-- The mirror run starts after the primary run (R78, R131). -/
def Run.toMirror (r : Run) (entry : Nat) (e : RunEnd) : Run :=
  { r with phase := .mirror, g := [], b := 0, pc := entry, frames := [], loops := [], icount := 0, stores := 0, first := some e }

/-- The outputs of a task as its buffer, the committed data and the forces give them (R84, R178). -/
def Hw.outsOf (h : Hw) (t : Nat) (r : Run) : List OutRec :=
  let c := h.gCtx t r
  let r := { r with phase := .primary }
  ((h.cadOuts (h.taskCad t)).filter (fun m => h.mapTask m == t)).map
    (fun m => ⟨m, (List.range (h.mapLen m)).map (fun i => h.runByte c r (h.mapOfs m + i)), (find? r.refs (h.mapSrc m)).getD 0⟩)

/-- A mismatch of a task on an engine (R96, Table 02.1, 02.11, 02.12). -/
def Hw.noteMismatch (h : Hw) (t e : Nat) : Hw :=
  let h := (h.raise pgCEA 0).raise (pgCE e) 0
  let h := { h with hlt := { h.hlt with mismatches := satAdd h.hlt.mismatches 1 } }
  let h := (h.sat (CE_MISMATCH_CNT e)).satF (CEA_TSTAT t) 15 8
  let h := if h.taskBg t then h else h.satF (CEA_CAD (h.taskCad t) 6) 23 16
  h.setEng e { h.eng e with suspect := true }

/-- An overrun of a task (R94): counted in the task and in its cadence. -/
def Hw.noteOverrun (h : Hw) (t : Nat) : Hw :=
  let h := h.setTask t { h.task t with ovr := (h.task t).ovr + 1 }
  let h := (h.satF (CEA_TSTAT t) 7 0).satF (CEA_TSTAT t) 23 20
  let h := if h.taskBg t then h else h.satF (CEA_CAD (h.taskCad t) 6) 31 24
  { h with hlt := { h.hlt with overruns := satAdd h.hlt.overruns 1 } }.raise pgCEA 3

/-- The consecutive overruns go beyond `OVR_TOL` (R94). -/
def Hw.beyondTol (h : Hw) (t : Nat) : Bool := decide ((h.task t).ovr > h.taskTol t)

/-- A spare under the rota's test is given up to a request when no other spare is ready (R623). -/
def Hw.abandonRota (h : Hw) : Hw :=
  match h.hlt.testing with
  | none => h
  | some s =>
    if (h.firstEng engSpare).isSome then h
    else ({ h with hlt := { h.hlt with testing := none } }.satF HLT_ROTA 15 0).setEngState s engSpare

/-- The Reeve looks for a spare for a mismatched task (R96, R98, R623): the lowest-numbered ready cold spare, one whose test
in the rota is given up, else a spare that is running another rerun, else none, and SPARE_EMPTY is raised. -/
def Hw.assignSpare (h : Hw) (t : Nat) (r : Run) : Hw :=
  let h := h.abandonRota
  let e := r.engine
  let give := fun (h : Hw) s =>
    (h.setTask t { h.task t with retry := some { engine := s, suspect := e, img := r.img, imgLen := r.imgLen, refs := r.refs, seq := r.seq } }).setEng e
      { h.eng e with heir := some s }
  match h.firstEng engSpare with
  | some s => (give h s).setEngState s engRerun
  | none =>
    match h.firstEng engRerun with
    | some s => give h s
    | none => h.raise pgCEA 7

/-- A rerun has failed (R96): it is discarded and counts as an overrun. `result` is the code of `CEA_RERUN`. -/
def Hw.rerunFailed (h : Hw) (t result : Nat) : Hw :=
  match (h.task t).retry with
  | none => h
  | some x =>
    let h := h.dropRun t
    let h := h.wr CEA_RERUN (result * 2 ^ 30 + x.engine * 2 ^ 16 + t)
    let h := (h.raise pgCEA 2).setLast t 5
    let h := h.setTask t { h.task t with retry := some { x with failed := true, started := true }, buf := [], outs := [], outcome := .idle }
    let h := h.noteOverrun t
    let h := if h.beyondTol t then h.setTask t { h.task t with safeNext := true } else h
    h.trimKept

/-- A rerun has compared equal (R96). -/
def Hw.rerunEqual (h : Hw) (t : Nat) (r : Run) : Hw :=
  match (h.task t).retry with
  | none => h.dropRun t
  | some x =>
    let outs := h.outsOf t r
    let h := h.dropRun t
    let h := h.wr CEA_RERUN (2 ^ 30 + x.engine * 2 ^ 16 + t)
    let h := { h with hlt := { h.hlt with reruns := satAdd h.hlt.reruns 1 } }.raise pgCEA 1
    (h.setTask t { h.task t with retry := some { x with equal := true }, buf := r.buf, outs := outs, doneAt := some h.now }).trimKept

/-- A background run begins again from the committed state (R110, R111). -/
def Hw.restartBg (h : Hw) (t e : Nat) : Hw :=
  (h.setTask t { h.task t with outcome := .running, buf := [], outs := [] }).startRun t { engine := e, bg := true }

/-- The engine on which a background run begins again: the one its task is placed on by now (R107). -/
def Hw.bgEngine (h : Hw) (t : Nat) (r : Run) : Nat := if h.taskEng t < 18 then h.taskEng t else r.engine

/-- Pool words that a background run alone keeps in retention, in bytes (R111). -/
def Hw.bgNeed (h : Hw) (r : Run) : Nat :=
  let cyc := (h.cea.cads.filter (fun c => c.2.latched)).map (fun c => c.2.seq) ++
    (h.cea.runs.filter (fun x => !x.2.bg)).map (fun x => x.2.seq) ++ h.cea.tasks.filterMap (fun t => t.2.retry.map (fun x => x.seq))
  8 * (h.cea.kept.filter (fun k => decide (r.seq ≤ k.seq) && !cyc.any (fun s => decide (s ≤ k.seq)))).length

/-- Background runs that would need more than 256 KiB of retention are abandoned and restarted (R111): tested after a store, a
commit and an image. -/
def Hw.bgRestart (h : Hw) : Hw :=
  (h.cea.runs.filter (fun x => x.2.bg && x.2.begun && decide (h.bgNeed x.2 > 0x4_0000))).foldl
    (fun h x => ((h.restartBg x.1 (h.bgEngine x.1 x.2)).sat IMP_BG_RESTART_CNT).raise pgIMP 3) h |>.trimKept

/-- The two runs are the same (R82): stores, traps and instruction counts agree, every entry is visited, and no mirror
store differed. Outputs are what the buffer and the committed data give, so they agree with it. -/
def Run.same (r : Run) (e : RunEnd) : Bool :=
  match r.first with
  | none => false
  | some f => decide (f = e) && !r.differs && r.buf.all (fun x => x.2.visited)

/-- The compare of a task's two runs (R82, R95 to R98). -/
def Hw.compared (h : Hw) (t : Nat) (r : Run) (e : RunEnd) : Hw :=
  let h := h.inc (CE_RUNS r.engine)
  if !r.same e then
    let h := h.noteMismatch t r.engine
    if r.bg then (h.setLast t 2).restartBg t (h.bgEngine t r)
    else if r.rerun then h.rerunFailed t 2
    else ((h.dropRun t).setTask t { h.task t with outcome := .mismatch, buf := [], outs := [], doneAt := some h.now }).assignSpare t r
  else if e.trap ≠ 0 then
    let h := (h.raise pgCEA 5).raise (pgCE r.engine) 3
    let h := h.setTask t { h.task t with lastTrap := e.trap, lastCount := e.icount }
    if r.bg then (h.setLast t 3).restartBg t (h.bgEngine t r)
    else if r.rerun then h.rerunFailed t 2
    else (h.dropRun t).setTask t { h.task t with outcome := .trapped, buf := [], outs := [], doneAt := some h.now }
  else if r.rerun then h.rerunEqual t r
  else (h.dropRun t).setTask t { h.task t with outcome := .equal, buf := r.buf, outs := h.outsOf t r, unchecked := false, doneAt := some h.now, doneTick := h.tick32 0 }

/-- A run that has halted ends (R189): its results are staged UNCHECKED, without a mirror run; one that ended in a trap
has none and goes under R95. The lock-step is broken at the first such run (R194). -/
def Hw.endUnchecked (h : Hw) (t : Nat) (r : Run) (trap : Nat) : Hw :=
  let h := if h.bit (STATUS pgCEA) 1 then h else (h.putBit (STATUS pgCEA) 1 true).raise pgCEA 13
  if trap ≠ 0 then
    let h := (h.raise pgCEA 5).raise (pgCE r.engine) 3
    (h.dropRun t).setTask t { h.task t with outcome := .trapped, buf := [], outs := [], unchecked := true, doneAt := none, lastTrap := trap, lastCount := r.icount }
  else
    (h.dropRun t).setTask t { h.task t with outcome := .equal, buf := r.buf, outs := h.outsOf t r, unchecked := true, doneAt := none, doneTick := h.tick32 0 }

/-- A run ends at END, at RET at depth 0 or at a trap (R132): the mirror run follows the primary run, and the compare
the mirror run. -/
def Hw.endPhase (h : Hw) (t : Nat) (r : Run) (trap : Nat) : Hw :=
  let e : RunEnd := ⟨trap, r.icount, r.stores⟩
  let h := if h.dbgOn t then (h.wr DBG_PC r.pc).wr DBG_ICOUNT r.icount else h
  if r.halted then h.endUnchecked t r trap
  else
    match r.phase with
    | .primary => h.setRun t (r.toMirror (h.progWord (h.bankBase t + 0x0C)) e)
    | .mirror => h.compared t r e

/-- An uncorrectable error on a pool load stops the task (R103). -/
def Hw.poolEcc (h : Hw) (t a : Nat) : Hw :=
  let h := { h with hlt := { h.hlt with ue := true } }
  let h := ((h.sat IMP_ECC_UE).wr IMP_ECC_ADDR (a % 2 ^ 24)).raise pgIMP 1
  let h := (h.dropRun t).setTask t { h.task t with outcome := .idle, buf := [], outs := [], safeNext := true, retry := none }
  (h.setTaskState t 5).trimKept

end Sys2Proof.Machine
end

