-- ==== Sys2Proof/Machine/TwinCore.lean ====
section
/-! DEFINITION. What the cycle engine array needs of the twin (R629 to R641): who holds authority, which cadences are twinned,
frames to the partner, and what a commit cue does to authority. -/

namespace Sys2Proof.Machine

/-- Twin states (Table 17.5). -/
abbrev twOff : Nat := 0
abbrev twHello : Nat := 1
abbrev twSync : Nat := 2
abbrev twInStep : Nat := 3
abbrev twDiverged : Nat := 4
abbrev twAlone : Nat := 5

/-- The twin state. -/
def Hw.twState (h : Hw) : Nat := h.get TWN_STATE 2 0

/-- The module holds authority: in OFF alone, else as `AUTH` says (Table 17.5, R641). -/
def Hw.holdsAuthority (h : Hw) : Bool := h.twState == twOff || h.bit TWN_STATE 3

/-- The cadence is twinned. -/
def Hw.twinned (h : Hw) (c : Nat) : Bool := h.twState != twOff && h.bit (TWN_CAD (c / 32)) (c % 32)

/-- What the twin holds for a cadence. -/
def Hw.twinCad (h : Hw) (c : Nat) : TwinCad := (find? h.twn.cads c).getD {}

/-- Replace it. -/
def Hw.setTwinCad (h : Hw) (c : Nat) (x : TwinCad) : Hw := { h with twn := { h.twn with cads := file h.twn.cads c x } }

/-- `FLAGS` of the module's frames: `AUTH` and `FAULTY` (Table 17.3). -/
def Hw.exrexFlags (h : Hw) : Nat := (if h.bit TWN_STATE 3 then 1 else 0) + (if h.twn.faulty then 2 else 0)

/-- A frame of the module, with its number, epoch, state and flags (Table 17.3). -/
def Hw.exrexFrame (h : Hw) (typ sub part tick flags : Nat) (payload : List Byte) : Exrex :=
  { typ := typ, sub := sub, seq := h.twn.seq, part := part, tick := tick, epoch := h.get TWN_STATE 31 16,
    flags := h.exrexFlags ||| flags, state := h.twState, payload := payload }

/-- A frame goes out on the Exrex link, while it is up (R626, R647). -/
def Hw.exrexSend (h : Hw) (typ sub part tick flags : Nat) (payload : List Byte) : Hw :=
  if !h.bit (STATUS pgTWN) 0 then h
  else
    { h with twn := { h.twn with
        out := h.twn.out ++ [h.exrexFrame typ sub part tick flags payload], seq := (h.twn.seq + 1) % 0x1_0000 } }

/-- The module takes authority (R632). -/
def Hw.takeAuthority (h : Hw) (cause : Nat) : Hw :=
  let h := { h with twn := { h.twn with take := none } }
  let h := ((h.incF TWN_STATE 31 16).put TWN_STATE 14 12 cause).putBit TWN_STATE 3 true
  (h.wr TWN_LAST_SWITCH (h.tick32 0)).raise pgTWN 0

/-- The module yields authority (R632, R639). -/
def Hw.yieldAuthority (h : Hw) (cause : Nat) : Hw :=
  let h := { h with twn := { h.twn with yield := none } }
  let h := (h.put TWN_STATE 14 12 cause).putBit TWN_STATE 3 false
  (h.wr TWN_LAST_SWITCH (h.tick32 0)).raise pgTWN 1

/-- A commit cue of a twinned cadence: authority changes that wait for one take place (R632, R638, R639), and a signature that
the partner has not matched by now counts as unpaired (R636). -/
def Hw.twinCommitCue (h : Hw) (c : Nat) : Hw :=
  if !h.twinned c then h
  else
    let h := match h.twn.yield with | some cause => h.yieldAuthority cause | none => h
    let h := match h.twn.take with
      | some cause => if h.twn.takeAt ≤ h.now then h.takeAuthority cause else h
      | none => h
    let x := h.twinCad c
    match x.own with
    | some _ =>
      let h := h.setTwinCad c { x with own := none }
      if h.twState = twInStep then h.sat TWN_UNPAIRED_CNT else h
    | none => h

/-- A standby in SYNC does not run its twinned cadences until the pool is complete (Table 17.5, R633). -/
def Hw.twinWaits (h : Hw) (c : Nat) : Bool := h.twinned c && h.twState == twSync && !h.twn.synced

/-- An input cue of a twinned cadence: what the partner sent for another cycle lapses, and in SYNC the cadence has started; once
all have, the pair is in step (R633). -/
def Hw.twinLatchCue (h : Hw) (c tick : Nat) : Hw :=
  if !h.twinned c then h
  else
    let x := h.twinCad c
    let keep := x.segTick == tick
    let x := { x with waiting := false, unpaired := false, segTick := tick, segs := if keep then x.segs else [], lastSeg := if keep then x.lastSeg else none, started := true, cueAt := h.now }
    let h := h.setTwinCad c x
    if h.twState == twSync && (List.range 64).all (fun d => !h.cadEn d || !h.twinned d || (h.twinCad d).started) then
      (h.put TWN_STATE 2 0 twInStep).raise pgTWN 8
    else h

/-- Both signatures of a paired cycle are present (R636): they are compared, and `SIG_LIM` mismatches in a row part the twin. -/
def Hw.compareSigs (h : Hw) (c own peer : Nat) : Hw :=
  let x := { h.twinCad c with own := none, peer := none }
  if own = peer then h.setTwinCad c { x with bad := 0 }
  else
    let h := (h.setTwinCad c { x with bad := x.bad + 1 }).sat TWN_SIG_MISMATCH_CNT
    let h := h.raise pgTWN 6
    let lim := h.get TWN_CFG 23 16
    if lim ≠ 0 ∧ lim ≤ x.bad + 1 then ((h.put TWN_STATE 2 0 twDiverged).setTwinCad c { x with bad := 0 }).raise pgTWN 7 else h

/-- The own signature of a cycle, named by its input cue tick, is there (R635, R636). -/
def Hw.ownSig (h : Hw) (c tick sig : Nat) : Hw :=
  if !h.twinned c || h.twState != twInStep then h
  else if (h.twinCad c).unpaired then h.setTwinCad c { h.twinCad c with toSend := some (tick, h.rd (CEA_CAD c 5), sig) }
  else
    let h := h.setTwinCad c { h.twinCad c with toSend := some (tick, h.rd (CEA_CAD c 5), sig) }
    match (h.twinCad c).peer with
    | some (k, p) => if k = tick then h.compareSigs c sig p else h.setTwinCad c { h.twinCad c with own := some (tick, sig), peer := none }
    | none => h.setTwinCad c { h.twinCad c with own := some (tick, sig) }

/-- The bytes of a list in pieces of `n`. -/
def pieces (n : Nat) : Nat → List Byte → List (List Byte)
  | 0, _ => []
  | fuel + 1, l => if l.length ≤ n then [l] else l.take n :: pieces n fuel (l.drop n)

/-- The holder sends its latched image as IMAGE segments (R634). -/
def Hw.sendImage (h : Hw) (c tick : Nat) (img : List Byte) : Hw :=
  let ps := pieces 4096 17 img
  (List.range ps.length).foldl (fun (h : Hw) k =>
    h.exrexSend 3 c k tick (if k + 1 = ps.length then 0x10 else 0) (ps.getD k [])) h

/-- The received image is complete: every segment up to the last is there (R634). -/
def TwinCad.image (x : TwinCad) : Option (List Byte) :=
  match x.lastSeg with
  | none => none
  | some n =>
    if (List.range (n + 1)).all (fun k => (find? x.segs k).isSome) then
      some ((List.range (n + 1)).flatMap (fun k => (find? x.segs k).getD []))
    else none

/-- Pool words that a commit drained go to a partner in SYNC, once STATE segments have begun (R633). -/
def Hw.twinDrain (h : Hw) (ws : List (Nat × BitVec 64)) : Hw :=
  if h.twState == twInStep && h.bit TWN_STATE 3 && h.get TWN_PEER 10 8 == twSync && h.twn.sending then
    (pieces 4092 (ws.length + 1) (ws.flatMap (fun w => leBytes 4 (8 * w.1) ++ leBytes 8 w.2.toNat))).foldl
      (fun (h : Hw) p => if p.isEmpty then h else h.exrexSend 7 0 0 (h.tick32 0) 0 p) h
  else h

end Sys2Proof.Machine
end

