-- ==== Sys2Proof/Machine/Outputs.lean ====
section
/-! DEFINITION. The safe-output gate (R84 to R86, R94): what a commit releases, what the gate withholds, and where an output
goes; the signature of a commit (R636). -/

namespace Sys2Proof.Machine

/-- What a commit has for a map entry: its bytes, whether they are safe values or UNCHECKED, and the `REF` of a sheaf (R424). -/
structure Release where
  entry : Nat
  bytes : List Byte
  safe : Bool := false
  unchecked : Bool := false
  ref : Nat := 0
deriving DecidableEq, Repr

/-- The gate withholds an UNCHECKED output to a power channel or a remote station without debug permit (R86, R191). -/
def Hw.gateUnchecked (h : Hw) (x : Release) : Bool :=
  x.unchecked && (h.mapKind x.entry == 8 || h.mapKind x.entry == 9) && !h.bit FRC_PERMIT 2

/-- The gate withholds an authority-held output of a module without authority, and a sheaf for an absent station (R86). -/
def Hw.gateAway (h : Hw) (x : Release) : Bool :=
  (h.mapAuth x.entry && !h.holdsAuthority) || (h.mapKind x.entry == 9 && h.stnAtCommit (h.mapSrc x.entry) != 2)

/-- A PDU entry's fields (Table 02.15). -/
def Hw.pduEn (h : Hw) (u : Nat) : Bool := h.bit (CEA_PDU u 0) 31
def Hw.pduTx (h : Hw) (u : Nat) : Bool := h.bit (CEA_PDU u 0) 30
def Hw.pduLen (h : Hw) (u : Nat) : Nat := h.get (CEA_PDU u 1) 10 0
def Hw.pduBuf (h : Hw) (u : Nat) : Nat := h.get (CEA_PDU u 4) 16 0
def Hw.pduMac (h : Hw) (u : Nat) : Nat := 2 ^ 32 * h.get (CEA_PDU u 3) 15 0 + h.rd (CEA_PDU u 2)

/-- State of a PDU entry that its registers do not show. -/
def Hw.pdu (h : Hw) (u : Nat) : PduSt := lookup (fun _ => {}) h.cea.pdus u

/-- Replace it. -/
def Hw.setPdu (h : Hw) (u : Nat) (x : PduSt) : Hw :=
  { h with cea := { h.cea with pdus := store (fun _ => {}) h.cea.pdus u x } }

/-- Data bytes of a LIN buffer take the bytes of a kind 10 entry (R376). -/
def Hw.linUpdate (h : Hw) (l b : Nat) (bs : List Byte) : Hw :=
  let d := bs.take 8 ++ (h.linData l b).drop (min 8 bs.length)
  let h := h.beforeOut [LIN_BUF_DLO l b, LIN_BUF_DHI l b]
  ((h.wr (LIN_BUF_DLO l b) (leNat (slice d 0 4))).wr (LIN_BUF_DHI l b) (leNat (slice d 4 4))).linLatch l b

/-- A released output reaches its target (R84). -/
def Hw.releaseOut (h : Hw) (x : Release) : Hw :=
  let src := h.mapSrc x.entry
  match h.mapKind x.entry with
  | 8 => each (x.bytes.length / 4) (fun i h => h.channelCommand (src + i) (leNat (slice x.bytes (4 * i) 4))) h
  | 9 => h.releaseSheaf src x.bytes x.ref x.safe x.unchecked
  | 10 =>
    let w := leNat (slice x.bytes 0 4)
    let d := x.bytes.drop 4
    if src < 2048 then
      let n := src / 128
      let o := src % 128
      h.canUpdate n o (decide (fld w 31 31 = 1)) (fld w 10 0) d
    else h.linUpdate ((src - 2048) / 64) ((src - 2048) % 64) d
  | 11 =>
    let flags := (if x.safe then 4 else 0) + (if x.unchecked then 2 else 0)
    let m : PduMsg := { entry := src, seq := 0, flags := flags, data := x.bytes }
    { h with cea := { h.cea with pduRam := h.cea.pduRam.write (h.pduBuf src) x.bytes, pduOut := h.cea.pduOut ++ [m] } }
  | _ => h

/-- Outputs pass the gate, in map order. -/
def Hw.gate (h : Hw) (xs : List Release) : Hw :=
  if h.inTake then h
  else xs.foldl (fun (h : Hw) x => if h.gateUnchecked x || h.gateAway x then h else h.releaseOut x) h

/-- The CRC-64 of Table 16.10, ALG 5. -/
def crc64 (l : List Byte) : Nat := l.foldl (fun r b => crcByte (crcAlg 5) (crcAlg 5).ref r b.toNat) (crcAlg 5).init ^^^ (crcAlg 5).xor

/-- The signature of a commit (R636): over what the gate would release if it ignored authority and absent stations. -/
def Hw.signature (h : Hw) (xs : List Release) : Nat :=
  crc64 ((xs.filter (fun x => !h.gateUnchecked x)).flatMap (fun x => x.bytes))

/-- The output entries of a task, in map order. -/
def Hw.taskOuts (h : Hw) (t : Nat) : List Nat := (h.cadOuts (h.taskCad t)).filter (fun m => h.mapTask m == t)

/-- Pieces of a byte list by the lengths of map entries. -/
def Hw.dealOut (h : Hw) : List Nat → List Byte → List Release
  | [], _ => []
  | m :: ms, l => { entry := m, bytes := slice l 0 (h.mapLen m), safe := true, ref := (h.stn (h.mapSrc m)).latched } :: h.dealOut ms (l.drop (h.mapLen m))

/-- The safe values of a task (R94): from `SAFE_OFS`, the concatenation of its output entries in map order. -/
def Hw.safeValues (h : Hw) (t : Nat) : List Release :=
  let ms := h.taskOuts t
  h.dealOut ms (h.cea.prog.read (h.taskSafe t) ((ms.map h.mapLen).foldl (· + ·) 0))

/-- Outputs in the map order of a cadence. -/
def Hw.inMapOrder (h : Hw) (c : Nat) (xs : List Release) : List Release :=
  (h.cadOuts c).flatMap (fun m => xs.filter (fun x => x.entry == m))

/-- A task's safe values go out in place of its held outputs (R94, Table 02.11). -/
def Hw.noteSafe (h : Hw) (t : Nat) : Hw :=
  let h := h.setTask t { h.task t with safeNext := false }
  let h := { h with hlt := { h.hlt with safe := satAdd h.hlt.safe 1 } }
  (h.setLast t 6).raise pgCEA 4

end Sys2Proof.Machine
end

