-- ==== Sys2Proof/Machine/Fit.lean ====
section
/-! DEFINITION. Whether engines can carry their tasks (R105, R634) and retention the write budgets (R106), and the checks of an
output map (R74). -/

namespace Sys2Proof.Machine

/-- Bytes of the output entries of a task. -/
def Hw.outLen (h : Hw) (t : Nat) : Nat := ((h.taskOuts t).map h.mapLen).foldl (· + ·) 0

/-- The cost of a task's cycle in engine cycles (R105). -/
def taskCost (wcet out : Nat) : Nat := 2 * wcet + 24 + (out + 7) / 8

/-- The cost of a task with its active bank. -/
def Hw.cost (h : Hw) (t : Nat) : Nat := taskCost (h.rd (PGM_TASK_WCET t)) (h.outLen t)

/-- Period and window of a task's cadence in a unit of 1/5 × 2^−24 engine cycle (600 MHz). -/
def Hw.periodUnits (h : Hw) (t : Nat) : Nat := 3 * (h.cadPeriod (h.taskCad t) * tickUnit * h.tickNs (h.cadTc (h.taskCad t)))
def Hw.windowUnits (h : Hw) (t : Nat) : Nat := 3 * h.cadWindowTime (h.taskCad t)

/-- One engine cycle in that unit. -/
abbrev cycleUnits : Nat := 5 * 2 ^ 24

/-- Utilisation of a list of tasks as a fraction (R105). -/
def Hw.utilisation (h : Hw) (cost : Nat → Nat) (ts : List Nat) : Nat × Nat :=
  ts.foldl (fun (f : Nat × Nat) t => (f.1 * h.periodUnits t + cost t * cycleUnits * f.2, f.2 * h.periodUnits t)) (0, 1)

/-- What a task's window must leave free: the image bound, and for a twinned cadence the wait for the partner's image (R105,
R634). -/
def Hw.windowSlack (h : Hw) (t : Nat) : Nat := 1500 + (if h.twinned (h.taskCad t) then h.get TWN_CFG 15 8 * 600 else 0)

/-- Cyclic tasks fit on one engine (R105). -/
def Hw.engineFits (h : Hw) (cost : Nat → Nat) (ts : List Nat) : Bool :=
  let u := h.utilisation cost ts
  ts.all (fun t => decide (h.periodUnits t ≠ 0)) && decide (100 * u.1 ≤ 85 * u.2) &&
    ts.all (fun t =>
      let w := h.windowUnits t
      let first := ts.filter (fun x => decide (h.windowUnits x < w) || (decide (h.windowUnits x = w) && decide (x < t)))
      let busy := first.foldl (fun s x => s + cost x * ((w + h.periodUnits x - 1) / h.periodUnits x)) (cost t)
      decide ((busy + h.windowSlack t) * cycleUnits ≤ w))

/-- A task makes demands under R105: it is cyclic, and its cadence is enabled. -/
def Hw.demands (h : Hw) (t : Nat) : Bool := !h.taskBg t && h.cadEn (h.taskCad t)

/-- The tasks of an engine, ascending. -/
def Hw.engTasks (h : Hw) (e : Nat) : List Nat := (List.range 512).filter (fun t => h.taskEn t && h.taskEng t == e)

/-- A number of engine cycles lies below 5 % of an engine's idle reserve for a tick of TC0 (R112): the tick's length less the
cyclic demand, which R105 gives as utilisation. -/
def Hw.withinReserve (h : Hw) (e cycles : Nat) : Bool :=
  let u := h.utilisation h.cost ((h.engTasks e).filter h.demands)
  decide (1000 * cycles * u.2 < 30 * h.tickNs 0 * (u.2 - u.1))

/-- A ripe background task has its grant: in the tick of TC0 after the one in which it became ripe, until the grant is used up
(R112). -/
def Hw.isRipe (h : Hw) (t e : Nat) : Bool :=
  match (h.task t).ripe with
  | some k => decide (h.tick32 0 = (k + 1) % 2 ^ 32) && h.withinReserve e (h.task t).spent
  | none => false

/-- A run comes before another on an engine (R104, R109, R112): cyclic before background, then the shorter latch-to-commit
window, then the lower task number; among background runs a ripe task first. -/
def Hw.runBefore (h : Hw) (a b : Nat × Run) : Bool :=
  if a.2.bg != b.2.bg then b.2.bg
  else if a.2.bg then
    let x := h.isRipe a.1 a.2.engine
    if x != h.isRipe b.1 b.2.engine then x else decide (a.1 < b.1)
  else
    let x := h.cadWindowTime (h.taskCad a.1)
    let y := h.cadWindowTime (h.taskCad b.1)
    decide (x < y) || (decide (x = y) && decide (a.1 < b.1))

/-- The run an engine executes: the first of its runs that do not stand halted. -/
def Hw.current (h : Hw) (e : Nat) : Option (Nat × Run) :=
  (h.cea.runs.filter (fun r => decide (r.2.engine = e) && !r.2.stopped && !(r.2.bg && h.inTake))).foldl
    (fun best r => match best with | none => some r | some b => if h.runBefore r b then some r else some b) none

/-- The retry window of a cadence in units of 2^−24 ns (R70). -/
def Hw.retryWindow (h : Hw) (c : Nat) : Nat :=
  min (h.cadPeriod c * tickUnit * h.tickNs (h.cadTc c)) (2 * h.rd TCU_BASE_TICK * tickUnit)

/-- Retention need in bytes of a set of cadences (R106). -/
def Hw.retentionNeed (h : Hw) (budget : Nat → Nat) (cs : List Nat) : Nat :=
  let span := (cs.map (fun c => h.cadWindowTime c + h.retryWindow c)).foldl max 0
  cs.foldl (fun n c =>
    let p := h.cadPeriod c * tickUnit * h.tickNs (h.cadTc c)
    let b := ((h.cadTasks c).map (fun t => 8 * budget t)).foldl (· + ·) 0
    if p = 0 then n else n + b * ((span + p - 1) / p + 1)) 0

/-- The enabled cadences. -/
def Hw.cadsOn (h : Hw) : List Nat := (List.range 64).filter h.cadEn

/-- Retention serves the configuration (R106). -/
def Hw.retentionFits (h : Hw) (budget : Nat → Nat) (cs : List Nat) : Bool := decide (h.retentionNeed budget cs ≤ 1792 * 1024)

/-- `PIN` permits an engine (R71, R104). -/
def Hw.pinOk (h : Hw) (t e : Nat) : Bool := h.taskPin t == 0 || decide (fld (h.taskPin t) e e = 1)

/-- The engine of the attached task. -/
def Hw.dbgEngine (h : Hw) : Option Nat := if h.bit DBG_STATE 31 then some (h.get DBG_STATE 20 16) else none

/-- A task may stand on an engine beside those placed so far (R104, R105, R187). -/
def Hw.mayPlace (h : Hw) (cost : Nat → Nat) (done : List (Nat × Nat)) (t e : Nat) : Bool :=
  h.engState e == engActive && h.dbgEngine != some e && h.pinOk t e &&
    (!h.demands t || h.engineFits cost (t :: (done.filter (fun d => d.2 == e && h.demands d.1)).map (fun d => d.1)))

/-- Where a task goes: the engine proposed, its present one, or the lowest-numbered that takes it. -/
def Hw.placeFor (h : Hw) (cost : Nat → Nat) (p : List (Nat × Nat)) (done : List (Nat × Nat)) (t : Nat) : Option Nat :=
  let wish := match find? p t with | some e => [e] | none => []
  (wish ++ [h.taskEng t] ++ List.range 18).find? (fun e => decide (e < 18) && h.mayPlace cost done t e)

/-- Tasks in descending `CRIT`, then ascending number (R108). -/
def Hw.placeOrder (h : Hw) : List Nat :=
  let ts := (List.range 512).filter h.taskEn
  [3, 2, 1, 0].flatMap (fun c => ts.filter (fun t => h.taskCrit t == c))

/-- The tasks that the Reeve cannot place with these costs (R105, R108), of those with an engine and of `ts`. -/
def Hw.unplaceable (h : Hw) (cost : Nat → Nat) (ts : List Nat) : List Nat :=
  let order := h.placeOrder.filter (fun t => h.demands t && !h.dbgOn t)
  let done := order.foldl (fun (done : List (Nat × Nat)) t =>
    match h.placeFor cost [] done t with | some e => (t, e) :: done | none => done) []
  order.filter (fun t => (find? done t).isNone && (decide (h.taskEng t < 18) || ts.contains t))

/-- The code with which an output map is refused (R74): `ms` the entries, of cadence `c`. -/
def Hw.outMapRefuses (h : Hw) (c : Nat) (ms : List Nat) : Option Nat :=
  let others := ((h.cadsOn.filter (· != c)).flatMap h.cadOuts).map h.mapLen
  if ms.any (fun m => h.mapLen m == 0) || decide (0x4_0000 < ((ms.map h.mapLen) ++ others).foldl (· + ·) 0) then some 0x0101
  else if ms.any (fun m => !([8, 9, 10, 11].contains (h.mapKind m)) || h.taskBg (h.mapTask m) || h.taskCad (h.mapTask m) != c) then
    some 0x0102
  else none

/-- Bytes of an owner's output entries that an instance element covers: the element lies in an output map entry (R182). -/
def Hw.inOutput (h : Hw) (t a n : Nat) : Bool :=
  !h.taskBg t && (h.taskOuts t).any (fun m => decide (a < h.mapOfs m + h.mapLen m) && decide (h.mapOfs m < a + n))

end Sys2Proof.Machine
end

