-- ==== Sys2Proof/Machine/Change.lean ====
section
/-! DEFINITION. Online change (R159 to R172, R185): the job, its checks, the migration list and the switch. -/

namespace Sys2Proof.Machine

/-- State of the change job (Table 04.7). -/
def Hw.chgState (h : Hw) : Nat := h.get FRC_CHG_STATUS 2 0
def Hw.setChg (h : Hw) (st : Nat) : Hw := h.put FRC_CHG_STATUS 2 0 st

/-- A job is armed, or its migration is due. -/
def Hw.chgArmed (h : Hw) : Bool := h.chgState == 1 || h.chgState == 2

/-- A task of a job: task, new `INST_BASE`, new word 2. -/
structure JobTask where
  task : Nat
  base : Nat
  word2 : Nat
deriving DecidableEq, Repr

/-- The tasks of the job (R161). -/
def Hw.jobTasks (h : Hw) : List JobTask :=
  ((List.range 16).filter (fun k => h.bit (FRC_CHG_T_W0 k) 31)).map (fun k =>
    { task := h.get (FRC_CHG_T_W0 k) 8 0, base := h.get (FRC_CHG_T_W1 k) 23 0, word2 := h.rd (FRC_CHG_T_W2 k) })

/-- The job is a background job; its cadence. -/
def Hw.jobBg (h : Hw) : Bool := h.bit FRC_CHG_CTRL 16
def Hw.jobCad (h : Hw) : Nat := h.get FRC_CHG_CTRL 13 8

/-- The task is named in an armed job. -/
def Hw.inJob (h : Hw) (t : Nat) : Bool := h.chgArmed && h.jobTasks.any (fun j => j.task == t)

/-- Start of a task's inactive bank in program memory. -/
def Hw.newBank (h : Hw) (t : Nat) : Nat :=
  (if h.bit (PGM_TASK_SEL t) 0 then h.get (PGM_TASK_BANK0 t) 16 0 else h.get (PGM_TASK_BANK1 t) 16 0) * 64

/-- `INST_LEN` of a bank (Table 03.13). -/
def Hw.instLen (h : Hw) (bank : Nat) : Nat := fld (h.progWord (bank + 0x10)) 23 0

/-- A migration entry (Table 04.1). -/
structure MigEnt where
  op : Nat
  fr : Nat
  upTo : Nat
  count : Nat
  blk : Nat
  src : Nat
  dst : Nat
  sym : Nat
deriving DecidableEq, Repr

/-- Entry `i` of the list. -/
def Hw.migEnt (h : Hw) (i : Nat) : MigEnt :=
  let w := fun k => leNat ((List.range 4).map (fun b => h.poolByte (h.get FRC_CHG_MIG 23 0 + 16 * i + 4 * k + b)))
  { op := fld (w 0) 31 28, fr := fld (w 0) 27 24, upTo := fld (w 0) 23 20, count := fld (w 0) 15 0, blk := fld (w 1) 31 27,
    src := fld (w 1) 23 0, dst := fld (w 2) 23 0, sym := w 3 }

/-- The migration list. -/
def Hw.migList (h : Hw) : List MigEnt := (List.range (h.get FRC_CHG_MIG_CNT 11 0)).map h.migEnt

/-- Bytes of a record of a block (Table 03.17). -/
def migRecordSize (blk : Nat) : Nat := match primRow blk with | some r => r.bytes | none => 0

/-- State bytes of a record of a block, as offset and length: every field that is no parameter (R148, R731). -/
def recordState : Nat → List (Nat × Nat)
  | 0x01 => [(0, 9)]
  | 0x02 => [(0, 9)]
  | 0x03 => [(0, 10)]
  | 0x04 => [(0, 5)]
  | 0x05 => [(0, 5)]
  | 0x06 => [(0, 1)]
  | 0x07 => [(0, 1)]
  | 0x08 => [(0, 1)]
  | 0x09 => [(0, 1)]
  | 0x0A => [(16, 16)]
  | 0x0C => [(8, 4)]
  | 0x0D => [(4, 4)]
  | 0x0E => [(0, 9)]
  | 0x0F => [(2, 3)]
  | _ => []

/-- Size of an element of an entry, in the old and in the new region: RECORD carries records, whatever its symbol codes. -/
def MigEnt.size (e : MigEnt) (sym : Nat) : Nat := if e.op = 3 ∨ sym = 9 then migRecordSize e.blk else symSize sym

/-- Engine cycles of an entry (R172). -/
def MigEnt.cycles (e : MigEnt) : Nat :=
  8 + (match e.op with
    | 1 => (e.count * e.size e.upTo + 7) / 8
    | 2 => 2 * e.count
    | 3 => 2 * e.count
    | _ => 0)

/-- Predicted migration time in engine cycles (R172). -/
def Hw.migCycles (h : Hw) : Nat := h.migList.foldl (fun n e => n + e.cycles) 120

/-- A range lies inside a region. -/
def within (a n base len : Nat) : Bool := decide (base ≤ a) && decide (a + n ≤ base + len)

/-- The entry is sound (Table 04.3, reason 6): its elements lie in the old and in the new region of one job task. -/
def Hw.migOk (h : Hw) (js : List JobTask) (e : MigEnt) : Bool :=
  decide (1 ≤ e.op) && decide (e.op ≤ 4) && decide (e.count ≠ 0) && js.any (fun j =>
    within e.dst (e.count * e.size e.upTo) j.base (h.instLen (h.newBank j.task)) &&
      (e.op == 4 || within e.src (e.count * e.size e.fr) (h.instBase j.task) (h.instLen (h.bankBase j.task))))

/-- Two ranges overlap. -/
def overlap (a n b m : Nat) : Bool := decide (a < b + m) && decide (b < a + n)

/-- WCET of a task's inactive bank, as taken when the bank was written (R156). -/
def Hw.newWcet (h : Hw) (t : Nat) : Nat := (find? h.cea.wcets (2 * t + (1 - h.get (PGM_TASK_SEL t) 0 0))).getD 0

/-- A task's new cost in a job: WCET of the new bank, output bytes of the new map. -/
def Hw.jobCost (h : Hw) (js : List JobTask) (ms : List Nat) (t : Nat) : Nat :=
  if js.any (fun j => j.task == t) then
    taskCost (h.newWcet t) (((ms.filter (fun m => h.mapTask m == t)).map h.mapLen).foldl (· + ·) 0)
  else h.cost t

/-- The reason for which a job is refused (Table 04.3). -/
def Hw.jobRefuses (h : Hw) : Option Nat :=
  let js := h.jobTasks
  let ts := js.map (fun j => j.task)
  let ms := (List.range (h.get FRC_CHG_OUT 11 0)).map (· + h.get FRC_CHG_OUT 27 16)
  let budget := fun t => match js.find? (fun j => j.task == t) with | some j => fld j.word2 28 18 | none => h.taskBudget t
  if ts.any (fun t => !h.bit (PGM_TASK_SEL t) (if h.bit (PGM_TASK_SEL t) 0 then 8 else 9)) then some 1
  else if ts.any (fun t => !h.taskEn t || h.dbgOn t || h.dbg.want == some t || (if h.jobBg then !h.taskBg t else h.taskBg t || h.taskCad t != h.jobCad)) ||
      decide (ts.eraseDups.length ≠ ts.length) || (h.jobBg && decide (1 < ts.length)) then some 2
  else if js.any (fun j => (List.range 512).any (fun t => h.taskEn t &&
      overlap j.base (h.instLen (h.newBank j.task)) (h.instBase t) (h.instLen (h.bankBase t)))) then some 3
  else if !h.jobBg && (h.outMapRefuses h.jobCad ms).isSome then some 4
  else if !h.jobBg && (!(h.unplaceable (h.jobCost js ms) ts).isEmpty || !h.retentionFits budget h.cadsOn) then some 5
  else if h.migList.any (fun e => !h.migOk js e) then some 6
  else none

/-- The job is over, with a state; `ARM` reads 0 again. -/
def Hw.chgOver (h : Hw) (st : Nat) : Hw :=
  { (h.setChg st).putBit FRC_CHG_CTRL 31 false with frc := { h.frc with migrate := none } }

/-- A write of `FRC_CHG_CTRL` (R162, R163, Table 04.8). `ARM` reads 1 while the job is armed, and `CANCEL` from a cancellation to
the next arming (assumption log, entry 140). -/
def Hw.chgCtrlWrite (h : Hw) (v : Nat) (a : Attr) : Hw :=
  if h.chgArmed then
    if fld v 30 30 = 1 then (if h.chgState = 1 then (h.chgOver 5).putBit FRC_CHG_CTRL 30 true else h) else h.refuse FRC_CHG_CTRL 0x0103 a
  else
    let g := h.storeReg FRC_CHG_CTRL (setFld (v &&& 0x0001_3FFF) 30 30 (h.get FRC_CHG_CTRL 30 30))
    if fld v 31 31 = 0 then g
    else
      match g.jobRefuses with
      | some r => ((h.setChg 4).put FRC_CHG_STATUS 11 8 r).refuse FRC_CHG_CTRL 0x0102 a
      | none =>
        let (ns, g) := g.freeDiv (5 * g.migCycles) 3
        ((((g.setChg 1).put FRC_CHG_STATUS 23 8 0).wr FRC_CHG_TIME ns).wr FRC_CHG_CLIP 0).put FRC_CHG_CTRL 31 30 2

/-- CHG_ARM (R162). -/
def execChgArm (v : Word) (a : Attr) (s : State) : Host.Outcome State Fault Refusal :=
  s.run fun h => h.busWrite FRC_CHG_CTRL a fun h => h.chgCtrlWrite (v.toNat ||| 0x8000_0000) a

/-- CHG_CANCEL (R163). -/
def execChgCancel (v : Word) (a : Attr) (s : State) : Host.Outcome State Fault Refusal :=
  s.run fun h => h.busWrite FRC_CHG_CTRL a fun h => h.chgCtrlWrite (v.toNat ||| 0x4000_0000) a

/-- Time from a commit to the next input cue of its cadence, in units of 2^−24 ns; `v` is the slot's value at the commit. -/
def Hw.toNextLatch (h : Hw) (c v : Nat) : Nat :=
  (nextInstant (h.cueEntry h.activeHalf (h.cadLatchIdx c)) v - v) * h.tickNs (h.cadTc c)

/-- Units of 64 bytes that a drain writes (Table 02.4). -/
def drainUnits (ws : WBuf) : Nat := (8 * ws.length + 63) / 64

/-- The migration fits between the end of drains of so many units and an instant `t` (in 2^−24 ns) after the commit (R164). -/
def Hw.migFits (h : Hw) (units t : Nat) : Bool := decide (((units + h.migCycles) * 5 + 300) * 2 ^ 24 ≤ 3 * t)

/-- Units of the drains that end with that of a cadence: those ahead of it run first (R88). -/
def Hw.unitsTo (h : Hw) (c : Nat) : Nat :=
  ((h.cea.drains.reverse.dropWhile (fun d => d.cad != c)).map (fun d => drainUnits d.words)).foldl (· + ·) 0

/-- A commit cue at which the switch does not take place (R165). -/
def Hw.chgPostpone (h : Hw) : Hw :=
  let n := min 255 (h.get FRC_CHG_STATUS 23 16 + 1)
  let h := ({ h with frc := { h.frc with migrate := none } }.put FRC_CHG_STATUS 23 16 n).raise pgFRC 5
  if h.get FRC_CHG_CTRL 7 0 ≤ n then ((h.chgOver 4).put FRC_CHG_STATUS 11 8 7).raise pgFRC 6 else h

/-- The commit cue of a cadence, once its drain has begun (R164, R165): for the job's cadence the switch is due after the drain, or
it is postponed. `full` is a commit that carries results. The drain of another cadence that commits at the same instant and goes
first can still postpone it (R88). -/
def Hw.chgCommit (h : Hw) (c v : Nat) (good : List Nat) (full : Bool) : Hw :=
  if h.chgState ≠ 1 ∨ h.jobBg = true then h
  else if h.jobCad = c then
    if full && h.jobTasks.all (fun j => good.contains j.task) && h.migFits (h.unitsTo c) (h.toNextLatch c v) then
      { h with frc := { h.frc with migrate := some c } }
    else h.chgPostpone
  else if h.frc.migrate = some h.jobCad ∧
      h.migFits (h.unitsTo h.jobCad) (h.toNextLatch h.jobCad (h.slotVal (h.cadTc h.jobCad))) = false then h.chgPostpone
  else h

/-- The value of an element as CONVERT reads it (R130, Table 03.8). -/
def symRead (ty : Nat) (bs : List Byte) : Int :=
  let v := leNat bs
  if ty = 3 then (fNorm v : Int) else if tyWord ty || ty = 2 || ty = 8 then (v : Int) else sgn (tyBits ty) v

/-- What an entry writes, as pool offset and bytes, and the elements it leaves at INIT (R169, R170). `src` and `dst` are the
element's places. -/
def Hw.migElem (h : Hw) (e : MigEnt) (i : Nat) : List (Nat × List Byte) × Nat :=
  let rd := fun a n => (List.range n).map (fun k => h.poolByte (a + k))
  match e.op with
  | 1 => let n := e.size e.upTo; ([(e.dst + i * n, rd (e.src + i * n) n)], 0)
  | 2 =>
    match symTy e.fr, symTy e.upTo with
    | some x, some y =>
      match cvtVal x y (symRead x (rd (e.src + i * symSize e.fr) (symSize e.fr))) with
      | .ok v => ([(e.dst + i * symSize e.upTo, leBytes (symSize e.upTo) (unsgn (8 * symSize e.upTo) v))], 0)
      | .error _ => ([], 1)
    | _, _ => ([], 1)
  | 3 =>
    let n := migRecordSize e.blk
    ((recordState e.blk).map (fun f => (e.dst + i * n + f.1, rd (e.src + i * n + f.1) f.2)), 0)
  | _ => ([], 0)

/-- The migration list is carried out (R166, R168 to R170): the words it wrote, and the elements left at INIT. -/
def Hw.migrate (h : Hw) : List Nat × Nat × Hw :=
  let all := h.migList.flatMap (fun e => (List.range e.count).map (fun i => h.migElem e i))
  let clips := (all.map (fun x => x.2)).foldl (· + ·) 0
  let puts := all.flatMap (fun x => x.1)
  let ws := puts.foldl (fun (l : List Nat) p => (bytesBuf p.1 p.2).foldl (fun l w => insertLine l w.1) l) []
  (ws, clips, puts.foldl (fun (h : Hw) p => h.poolWrite p.1 p.2) h)

/-- The force table shows an entry's state, offset and new type. -/
def Hw.showForce (h : Hw) (f : Nat) (e : ForceEnt) : Hw :=
  ((h.put (FRC_FORCE f 1) 31 30 e.state).put (FRC_FORCE f 2) 23 0 e.ofs).put (FRC_FORCE f 3) 3 0 e.newTy

/-- A force of a job task across the switch (R185). -/
def Hw.rekey (h : Hw) (mig : List MigEnt) (base : Nat) (f : Nat) (e : ForceEnt) : Hw :=
  let report := fun (h : Hw) r => h.wr FRC_REPORT (r * 2 ^ 28 + f)
  match mig.find? (fun m => m.sym == e.sym) with
  | some m =>
    if e.elem < m.count then
      let e2 : ForceEnt :=
        if m.upTo = e.ty then { e with ofs := (m.dst + e.elem * symSize e.ty + poolSize - base) % poolSize }
        else { e with state := 2, newTy := m.upTo }
      let frc := { h.frc with
        entries := file h.frc.entries f e2
        applied := if e2.state = 1 then
            (match find? h.frc.applied f with | some _ => file h.frc.applied f e2.applied | none => h.frc.applied)
          else unfile h.frc.applied f }
      let h := ({ h with frc := frc }.showForce f e2).record 6 0 e2.bytes
      if m.upTo = e.ty then h else (report h 3).raise pgFRC 3
    else
      let h := { h with frc := { h.frc with entries := unfile h.frc.entries f, applied := unfile h.frc.applied f } }
      (report ((h.put (FRC_FORCE f 1) 31 30 0).record 6 0 { e with state := 0 }.bytes) 2).raise pgFRC 2
  | none =>
    let h := { h with frc := { h.frc with entries := unfile h.frc.entries f, applied := unfile h.frc.applied f } }
    (report ((h.put (FRC_FORCE f 1) 31 30 0).record 6 0 { e with state := 0 }.bytes) 1).raise pgFRC 2

/-- The BANK record of a switch (Table 18.2). -/
def Hw.bankRecord (h : Hw) (ts : List Nat) : Hw :=
  h.record 7 0 (ts.flatMap (fun t => leBytes 4 (h.bankWord t) ++ leBytes 4 (h.bankCrc t) ++ leBytes 4 (h.rd (PGM_TASK_WCET t))))

/-- The switch after the drain (R166, R167): migration, then in one cycle entries, banks, the output map and the forces. The Reeve
places again with the new costs (R105). -/
def Hw.chgSwitch (h : Hw) : Hw :=
  let js := h.jobTasks
  let mig := h.migList
  let bg := h.jobBg
  let c := h.jobCad
  let inst := h.tc0Words
  let (ws, clips, h) := h.migrate
  let h := h.recordDrain 2 inst (ws.length + 1) (ws.map (fun w => (w, h.poolWord w)))
  let h := if clips = 0 then h else (h.wr FRC_CHG_CLIP (satAdd (h.rd FRC_CHG_CLIP) clips)).raise pgFRC 7
  let h := js.foldl (fun (h : Hw) j =>
    let wcet := h.newWcet j.task
    let h := (h.wr (CEA_TASK j.task 1) j.base).wr (CEA_TASK j.task 2) (j.word2 &&& 0x1FFF_FFFF)
    (h.putBit (PGM_TASK_SEL j.task) 0 (!h.bit (PGM_TASK_SEL j.task) 0)).wr (PGM_TASK_WCET j.task) wcet) h
  let h := if bg then h else h.wr (CEA_CAD c 4) (h.rd FRC_CHG_OUT &&& 0x0FFF_0FFF)
  let h := h.bankRecord (js.map (fun j => j.task))
  let h := js.foldl (fun (h : Hw) j =>
    (h.frc.entries.filter (fun f => !f.2.image && f.2.owner == j.task)).foldl (fun (h : Hw) f => h.rekey mig j.base f.1 f.2) h) h
  let h := { h.frcCounts with cea := { h.cea with replace := true } }
  ((h.chgOver 3).raise pgFRC 4).raise pgPGM 2

end Sys2Proof.Machine
end

