-- ==== Sys2Proof/Machine/Nmu.lean ====
section
/-! DEFINITION. Network sleep and wake (R446 to R464) and the TC10 handshake of the ports (R357 to R359). -/

namespace Sys2Proof.Machine

/-- A channel beside its registers. -/
def Hw.nmCh (h : Hw) (c : Nat) : NmCh := (find? h.nmu.chs c).getD {}

/-- Replace it. -/
def Hw.setNmCh (h : Hw) (c : Nat) (x : NmCh) : Hw := { h with nmu := { h.nmu with chs := file h.nmu.chs c x } }

/-- State codes of a channel (Table 11.1). -/
abbrev nmOff : Nat := 0
abbrev nmSleep : Nat := 1
abbrev nmRepeat : Nat := 2
abbrev nmAwake : Nat := 3
abbrev nmReady : Nat := 4
abbrev nmPrepare : Nat := 5
abbrev nmCommit : Nat := 6
abbrev nmPartial : Nat := 7

/-- State of a channel. -/
def Hw.nmState (h : Hw) (c : Nat) : Nat := h.get (NMU_STATE (c / 8)) (4 * (c % 8) + 3) (4 * (c % 8))

/-- Local vote of a channel. -/
def Hw.nmVote (h : Hw) (c : Nat) : Bool := h.bit NMU_VOTE c

/-- A channel runs on a CAN controller (R446). -/
def nmOnCan (c : Nat) : Bool := decide (c < 16)

/-- The condition of ALL_ASLEEP (R457) is watched: it raises the event when it comes true. -/
def Hw.nmAllAsleep (h : Hw) : Hw :=
  let now := h.get NMU_VOTE 23 0 == 0 && (List.range 24).any (fun c => h.nmState c != nmOff) &&
    (List.range 24).all (fun c => [nmOff, nmSleep, nmPartial].contains (h.nmState c))
  let was := h.nmu.asleep
  ({ h with nmu := { h.nmu with asleep := now } }).raiseIf (now && !was) pgNMU 3

/-- The module drives `WAKE_IO` (R459). -/
def Hw.wakeIoDriven (h : Hw) : Bool :=
  match h.get (NMU_WIN_CFG 8) 29 28 with
  | 1 => (List.range 24).any (fun c => h.nmState c == nmRepeat)
  | 2 => (List.range 24).any (fun c => decide (2 ≤ h.nmState c) && decide (h.nmState c ≤ 6))
  | _ => false

/-- The end of the module's drive of `WAKE_IO` is noted (R459); `was` says whether it drove the line before a change. -/
def Hw.wakeIoEnds (h : Hw) (was : Bool) : Hw := if was && !h.wakeIoDriven then { h with nmu := { h.nmu with ioEnd := some h.now } } else h

/-- `WAKE_IO` is sensed: not while the module drives it, and again 1 ms after the drive ends (R459). -/
def Hw.wakeIoSensed (h : Hw) : Bool := !h.wakeIoDriven && h.nmu.ioEnd.all (fun t => decide (t + 1_200_000 ≤ h.now))

/-- A channel enters a state (R447): a sleep attempt begins or ends with it (R462), REPEAT makes a frame due (R450), and a CAN
controller ignores its bus in SLEEP and PARTIAL (R454, R461). The timeouts run on through it, but from OFF, SLEEP and PARTIAL. -/
def Hw.nmEnter (h : Hw) (c st : Nat) : Hw :=
  let old := h.nmState c
  let drove := h.wakeIoDriven
  let h := h.put (NMU_STATE (c / 8)) (4 * (c % 8) + 3) (4 * (c % 8)) st
  let x := h.nmCh c
  let attempt :=
    if st = nmReady ∧ (old = nmRepeat ∨ old = nmAwake) ∧ !h.nmVote c then some { start := h.tick32 0, at_ := h.now }
    else if [nmOff, nmSleep, nmPartial, nmRepeat, nmAwake].contains st then none else x.attempt
  let h := h.setNmCh c { x with
    attempt := attempt, due := st == nmRepeat || (x.due && st == nmAwake),
    cues := if st = nmRepeat then 0 else x.cues, active := if st = nmRepeat then x.active else false,
    waking := if st = nmSleep then x.waking else none, at_ := h.now,
    nmAt := if [nmOff, nmSleep, nmPartial].contains old then h.now else x.nmAt,
    pnAt := if [nmOff, nmSleep, nmPartial].contains old then h.now else x.pnAt }
  let h :=
    if nmOnCan c then
      let y := h.can c
      let quiet := st == nmSleep || st == nmPartial
      h.setCan c { y with ignore := quiet, waiting := y.waiting || (old == nmSleep && !quiet && h.bit (STATUS (pgCAN c)) 0) }
    else h
  let noCad := (st == nmRepeat || st == nmAwake) && !h.cadEn (h.get (NMU_CH c 0) 21 16)
  (((h.raiseIf noCad pgNMU 5).raiseIf (decide (st = nmPartial)) pgNMU 6).nmAllAsleep).wakeIoEnds drove

/-- The object that a CAN channel sends through is usable (R451). -/
def Hw.nmObjOk (h : Hw) (c : Nat) : Bool :=
  let o := h.get (NMU_CH c 1) 6 0
  h.objValid c o && h.objTx c o && decide (h.objFmt c o ≤ 1) && decide (8 ≤ h.objCap c o)

/-- NM_CHANNEL_ENABLE (R447, R451, R461): a write of word 0 of a channel entry. -/
def execNmChannelEnable (c : Fin 24) (v : Word) (a : Attr) (s : State) : Host.Outcome State Fault Refusal :=
  s.run fun h =>
    let k := NMU_CH c 0
    h.busWrite k a fun h =>
      let v := v.toNat
      if fld v 15 8 = 0 then h.refuse k 0x0101 a
      else if (fld v 30 30 = 1 ∧ 11 < c.val) ∨ (fld v 31 31 = 1 ∧ nmOnCan c ∧ !h.nmObjOk c) then h.refuse k 0x0102 a
      else
        let was := h.bit k 31
        let cad := h.get k 21 16
        let h := h.storeReg k v
        let moved := h.get k 21 16 != cad && !h.cadEn (h.get k 21 16) && [nmRepeat, nmAwake].contains (h.nmState c)
        let h := h.raiseIf (was && h.bit k 31 && moved) pgNMU 5
        if !was && h.bit k 31 then h.nmEnter c nmReady
        else if was && !h.bit k 31 then h.nmEnter c nmOff else h

/-- The domains that a channel's media need (R446, R455). -/
def Hw.nmDomains (h : Hw) (c : Nat) : List Nat :=
  let w7 := h.rd (NMU_CH c 7)
  17 :: (if (List.range 8).any (fun i => decide (fld w7 i i = 1)) then [13] else []) ++
    (if (List.range 8).any (fun i => decide (fld w7 (i + 8) (i + 8) = 1)) then [14] else []) ++
    (if (List.range 8).any (fun i => decide (fld w7 (i + 16) (i + 16) = 1)) then [15] else []) ++
    (if fld w7 31 24 ≠ 0 then [16] else [])

/-- The full wake sequence of a channel starts: its domains are asked for (R455). -/
def Hw.nmStartWake (h : Hw) (c code : Nat) : Hw :=
  let h := h.setNmCh c { h.nmCh c with waking := some code }
  (h.nmDomains c).foldl (fun (h : Hw) d => if h.pdOn d then h else h.pwrRequest (reqOf true false d (ownAttr 0))) h

/-- A wake reaches a channel (Table 11.2). -/
def Hw.nmApply (h : Hw) (code c : Nat) : Hw :=
  let st := h.nmState c
  let rep := fun (h : Hw) => (h.setNmCh c { h.nmCh c with active := decide (6 ≤ code ∧ code ≤ 8) }).nmEnter c nmRepeat
  if st = nmSleep then (if (h.nmCh c).waking.isSome then h else h.nmStartWake c code)
  else if st = nmPartial ∧ (code = 2 ∨ code = 3) then h.nmEnter c nmReady
  else if st = nmPrepare ∨ st = nmPartial then rep h
  else if st = nmCommit then (rep h).raise pgNMU 1
  else h

/-- A wake (R452): latched, logged, raised, and applied to its channels, or held until PD17 is up. -/
def Hw.nmWake (h : Hw) (code : Nat) (chs : List Nat) (detail : Nat) : Hw :=
  let h := (h.putBit NMU_WAKE_PEND code true).wr NMU_WAKE_LAST (code * 2 ^ 28 + chs.headD 0 * 2 ^ 16 + detail)
  let h := { h with nmu := { h.nmu with woke := true } }.raise pgNMU 0
  if h.pdOn 17 then chs.foldl (fun (h : Hw) c => h.nmApply code c) h
  else
    let h := { h with nmu := { h.nmu with held := h.nmu.held ++ chs.map (fun c => (code, c)) } }
    if h.pwr.asleep || h.pwr.sleepSeq then h else h.pwrRequest (reqOf true false 17 (ownAttr 0))

/-- PD17 is up: the wakes held are applied (R452). -/
def Hw.nmuPd17Up (h : Hw) : Hw :=
  let l := h.nmu.held
  l.foldl (fun (h : Hw) w => h.nmApply w.1 w.2) { h with nmu := { h.nmu with held := [] } }

/-- Channels of a map. -/
def chsOf (m : Nat) : List Nat := (List.range 24).filter (fun c => decide (fld m c c = 1))

/-- The channel that a TC10 port or a LIN channel is attached to. -/
def Hw.chOfTc10 (h : Hw) (p : Nat) : List Nat := (List.range 24).filter (fun c => decide (4 ≤ p) && h.bit (NMU_CH c 7) (p - 4))
def Hw.chOfLin (h : Hw) (l : Nat) : List Nat := (List.range 24).filter (fun c => h.bit (NMU_CH c 0) l)

/-- An enabled wake input has been active for its filter time (R458); `WAKE_IO` (8) is not sensed while the module drives it (R459). -/
def Hw.wakeIn (h : Hw) (n : Nat) : Hw :=
  if 9 ≤ n ∨ !h.bit (NMU_WIN_CFG n) 31 ∨ (n = 8 ∧ !h.wakeIoSensed) then h
  else h.nmWake (if n = 8 then 7 else 6) (chsOf (h.get (NMU_WIN_MAP n) 23 0)) n

/-- WAKE (R452, Table 11.3): `code` names the source, `unit` its channel, port, LIN channel or input. A wake-up pattern wakes where the
channel's filter is disabled, a match or the error counter where it is enabled, and a frame (9) in COMMIT. -/
def execWake (code : Fin 10) (unit : BitVec 8) (s : State) : Host.Outcome State Fault Refusal :=
  s.run fun h =>
    let u := unit.toNat
    let filtered := decide (u < 12) && h.bit (NMU_SWF u 0) 31
    match code.val with
    | 0 => h
    | 1 => if 16 ≤ u ∨ filtered then h else h.nmWake 1 [u] u
    | 2 => if filtered then h.nmWake 2 [u] u else h
    | 3 => if filtered then h.nmWake 3 [u] u else h
    | 4 => h.nmWake 4 (h.chOfTc10 u) u
    | 5 => if 8 ≤ u then h else h.nmWake 5 (h.chOfLin u) u
    | 6 => if 8 ≤ u then h else h.wakeIn u
    | 7 => h.wakeIn 8
    | 8 => if 24 ≤ u ∨ !h.nmVote u then h else h.nmWake 8 [u] u
    | _ => if 24 ≤ u ∨ h.nmState u ≠ nmCommit then h else h.nmWake 9 [u] u

/-- WAKE_INPUT (R458, R459). -/
def execWakeInput (n : Fin 9) (s : State) : Host.Outcome State Fault Refusal := s.run fun h => h.wakeIn n

/-- A vote bit changes (Table 11.2). -/
def Hw.voteChange (h : Hw) (c : Nat) (on : Bool) : Hw :=
  let h := h.putBit NMU_VOTE c on
  let st := h.nmState c
  if on then
    if st = nmOff then h
    else
      let h := h.nmWake 8 [c] c
      if st = nmReady then h.nmEnter c nmAwake else h
  else if st = nmAwake then h.nmEnter c nmReady else h.nmAllAsleep

/-- NMU_VOTE_WRITE (R447, R452). -/
def execNmuVoteWrite (v : Word) (a : Attr) (s : State) : Host.Outcome State Fault Refusal :=
  s.run fun h => h.busWrite NMU_VOTE a fun h =>
    each 24 (fun c (h : Hw) =>
      let on := decide (fld v.toNat c c = 1)
      if h.nmVote c == on then h else h.voteChange c on) h

/-- A received NM frame credits its source (R462). -/
def Hw.kaCredit (h : Hw) (c src cbv : Nat) : Hw :=
  let x := h.nmCh c
  match x.attempt with
  | none => h
  | some t =>
    let held := (h.nmu.chs.map (fun e => match e.2.attempt with | some y => (y.sources.filter (fun z => !z.beyond)).length | none => 0)).sum
    let t :=
      match t.sources.find? (fun z => z.src == src) with
      | none => { t with sources := t.sources ++ [{ src := src, last := h.now, frames := 1, cbv := cbv, beyond := decide (256 ≤ held) }] }
      | some z =>
        let d := min (h.now - z.last) (h.get (NMU_CH c 4) 31 16 * 1_200_000)
        let z' := { z with last := h.now, frames := min 0xFFFF (z.frames + 1), cbv := cbv, credit := if z.beyond then 0 else z.credit + d }
        { t with sources := t.sources.map (fun y => if y.src == src then z' else y), other := if z.beyond then t.other + d else t.other }
    h.setNmCh c { x with attempt := some t }

/-- An NM frame requests a cluster of interest of a channel (R449). -/
def Hw.pnRequest (h : Hw) (c : Nat) (data : List Byte) : Bool :=
  let w1 := h.rd (NMU_CH c 1)
  decide (fld ((data.getD (fld w1 18 16) 0).toNat) 6 6 = 1) &&
    decide (leNat (slice data (fld w1 14 12) (fld w1 10 8)) &&& h.rd (NMU_CH c 6) ≠ 0)

/-- The timeouts of a channel restart at an NM frame (R447, R450). -/
def Hw.nmRestart (h : Hw) (c : Nat) (request : Bool) : Hw :=
  let x := h.nmCh c
  h.setNmCh c { x with nmAt := h.now, pnAt := if request then h.now else x.pnAt }

/-- NM_FRAME_RX (R447 to R449, R453, R462). -/
def execNmFrameRx (c : Fin 24) (data : List Byte) (s : State) : Host.Outcome State Fault Refusal :=
  s.run fun h =>
    let w1 := h.rd (NMU_CH c 1)
    let src := fld w1 22 20
    let cbvPos := fld w1 18 16
    let need := max (max (src + 1) (cbvPos + 1)) (if fld w1 10 8 = 0 then 0 else fld w1 14 12 + fld w1 10 8)
    let st := h.nmState c
    if !h.pdOn 17 || [nmOff, nmSleep, nmPartial].contains st || decide (data.length < need) then h
    else
      let cbv := (data.getD cbvPos 0).toNat
      let h := (h.kaCredit c (data.getD src 0).toNat cbv).nmRestart c (h.pnRequest c data)
      if st = nmCommit then h.nmWake 9 [c.val] c
      else if fld cbv 0 0 = 1 ∧ (st = nmAwake ∨ st = nmReady ∨ st = nmPrepare) then h.nmEnter c nmRepeat
      else if st = nmPrepare then h.nmEnter c nmReady else h

/-- The NM data of a channel (R450). -/
def Hw.nmData (h : Hw) (c : Nat) : List Byte :=
  let w1 := h.rd (NMU_CH c 1)
  let x := h.nmCh c
  let l := leBytes 4 (h.rd (NMU_TXD c 0)) ++ leBytes 4 (h.rd (NMU_TXD c 1))
  let l := setAt l (fld w1 22 20) (BitVec.ofNat 8 (fld w1 31 24))
  let b := ((l.getD (fld w1 18 16) 0).toNat)
  let b := if h.nmState c = nmRepeat ∧ x.active then setFld b 4 4 1 else b
  let b := if fld w1 10 8 ≠ 0 then setFld b 6 6 1 else b
  setAt l (fld w1 18 16) (BitVec.ofNat 8 b)

/-- NM_FRAME_SEND (R450, R451): the frame that is due goes out. -/
def execNmFrameSend (c : Fin 24) (s : State) : Host.Outcome State Fault Refusal :=
  s.run fun h =>
    let x := h.nmCh c
    let st := h.nmState c
    if !x.due || !h.pdOn 17 || (st != nmRepeat && st != nmAwake) then h
    else
      let d := h.nmData c
      let h := h.setNmCh c { x with due := false, nmAt := h.now }
      if nmOnCan c then h.canUpdate c (h.get (NMU_CH c 1) 6 0) true 8 d
      else
        let dest := 2 ^ 32 * h.get NMU_DEST_HI 15 0 + h.rd NMU_DEST_LO
        let src := 2 ^ 32 * h.get RIO_MAC_HI 15 0 + h.rd RIO_MAC_LO
        h.hand 38 (padFrame (etherHead dest src (some (6, h.get (NMU_CH c 2) 11 0)) (h.get NMU_ETYPE 15 0) ++ d))

/-- An input cue of a cadence: channels that send with it count it, and at every `EVERY`-th one a frame is due (R450). -/
def Hw.nmLatch (h : Hw) (cad : Nat) : Hw :=
  each 24 (fun c (h : Hw) =>
    let st := h.nmState c
    if (st = nmRepeat ∨ st = nmAwake) ∧ h.get (NMU_CH c 0) 21 16 = cad then
      let x := h.nmCh c
      let every := h.get (NMU_CH c 0) 15 8
      h.setNmCh c (if every ≤ x.cues + 1 then { x with cues := 0, due := true } else { x with cues := x.cues + 1 })
    else h) h

/-- `ms` milliseconds have passed since a cycle. -/
def Hw.msSince (h : Hw) (t ms : Nat) : Bool := decide (t + 1_200_000 * ms ≤ h.now)

/-- REPEAT_TIME_EXPIRY (R447): `REPEAT_TIME` since entry. -/
def execRepeatTimeExpiry (c : Fin 24) (s : State) : Host.Outcome State Fault Refusal :=
  s.run fun h =>
    if h.nmState c = nmRepeat ∧ h.msSince (h.nmCh c).at_ (h.get (NMU_CH c 4) 15 0) then
      h.nmEnter c (if h.nmVote c then nmAwake else nmReady)
    else h

/-- NM_TIMEOUT (R447, R450): no NM frame for `NM_TIMEOUT`. -/
def execNmTimeout (c : Fin 24) (s : State) : Host.Outcome State Fault Refusal :=
  s.run fun h =>
    if h.nmState c = nmReady ∧ h.msSince (h.nmCh c).nmAt (h.get (NMU_CH c 4) 31 16) then h.nmEnter c nmPrepare else h

/-- PN_TIMEOUT (R447): no request for a cluster of interest for `PN_TIMEOUT`. -/
def execPnTimeout (c : Fin 24) (s : State) : Host.Outcome State Fault Refusal :=
  s.run fun h =>
    if h.nmState c = nmReady ∧ h.bit (NMU_CH c 0) 30 ∧ !h.nmVote c ∧ h.msSince (h.nmCh c).pnAt (h.get (NMU_CH c 5) 15 0) then
      h.nmEnter c nmPartial
    else h

/-- WAIT_SLEEP_EXPIRY (R447): `WAIT_SLEEP` since entry. -/
def execWaitSleepExpiry (c : Fin 24) (s : State) : Host.Outcome State Fault Refusal :=
  s.run fun h =>
    if h.nmState c = nmPrepare ∧ h.msSince (h.nmCh c).at_ (h.get (NMU_CH c 5) 31 16) then h.nmEnter c nmCommit else h

/-- What a port has sent on its link besides frames is counted: 0 WUP, 1 WUR, 2 sleep request, 3 acknowledgement, 4 refusal; for LIN
channel `l`, as unit 64 + `l`, 0 the go-to-sleep command and 1 the wake-up signal. -/
def Hw.calls (h : Hw) (p kind : Nat) : Hw := { h with nmu := { h.nmu with calls := h.nmu.calls.bump (8 * p + kind) 1 } }

/-- A LIN channel is an enabled commander. -/
def Hw.linCommander (h : Hw) (l : Nat) : Bool := h.bit (CTRL (pgLIN l)) 0 && h.bit (LIN_CFG l) 31

/-- A port requests TC10 sleep (R358). -/
def Hw.askSleep (h : Hw) (p : Nat) : Hw :=
  let h := (h.put (ETH_TC10 p) 2 0 1).calls p 2
  { h with nmu := { h.nmu with asked := file h.nmu.asked p h.now } }

/-- A port wakes its link: a WUP on a sleeping one, which is then waking; a WUR on an active one (R357). -/
def Hw.wakeLink (h : Hw) (p : Nat) : Hw :=
  if h.live (pgETH p) then
    if !h.bit (ETH_TC10 p) 31 then h
    else if h.get (ETH_TC10 p) 2 0 = 2 then (h.put (ETH_TC10 p) 2 0 3).calls p 0
    else if h.get (ETH_TC10 p) 2 0 = 3 then h
    else h.calls p 1
  else if (find? h.nmu.tc10 p).isSome then h.calls p 0 else h

/-- COMMIT_WINDOW_END (R454): the channel's media go to sleep: the CAN controller, the LIN channels (a commander with its
go-to-sleep command), the TC10 ports with a request, the 10BASE-T1S PHYs. -/
def execCommitWindowEnd (c : Fin 24) (s : State) : Host.Outcome State Fault Refusal :=
  s.run fun h =>
    if h.nmState c ≠ nmCommit ∨ !h.msSince (h.nmCh c).at_ (h.get NMU_CFG 4 0) then h
    else
      let h := (h.nmEnter c nmSleep).raise pgNMU 2
      let lins := (List.range 8).filter (fun l => h.bit (NMU_CH c 0) l)
      let h := { h with nmu := { h.nmu with linAsleep := lins.foldl insertLine h.nmu.linAsleep } }
      let h := (lins.filter h.linCommander).foldl (fun (h : Hw) l => h.calls (64 + l) 0) h
      let h := each 24 (fun i (h : Hw) =>
        let k := ETH_TC10 (i + 4)
        if h.bit (NMU_CH c 7) i && h.bit k 31 && h.get k 2 0 == 0 then h.askSleep (i + 4) else h) h
      each 8 (fun i (h : Hw) => if h.bit (NMU_CH c 7) (24 + i) then h.linkDown (28 + i) else h) h

/-- WAKE_SEQUENCE (R455): the domains and media are up and the channel enters REPEAT. -/
def execWakeSequence (c : Fin 24) (s : State) : Host.Outcome State Fault Refusal :=
  s.run fun h =>
    match (h.nmCh c).waking with
    | none => h
    | some code =>
      if h.nmState c ≠ nmSleep ∨ !(h.nmDomains c).all h.pdOn then h
      else
        let lins := (List.range 8).filter (fun l => h.bit (NMU_CH c 0) l)
        let h := { h with nmu := { h.nmu with linAsleep := h.nmu.linAsleep.filter (fun l => !lins.contains l) } }
        let h := (lins.filter h.linCommander).foldl (fun (h : Hw) l => h.calls (64 + l) 1) h
        let h := each 24 (fun i (h : Hw) =>
          if h.bit (NMU_CH c 7) i && h.get (ETH_TC10 (i + 4)) 2 0 == 2 then h.wakeLink (i + 4) else h) h
        (h.setNmCh c { h.nmCh c with active := decide (6 ≤ code ∧ code ≤ 8) }).nmEnter c nmRepeat

/-- A classical frame matches a selective wake filter (R460). -/
def Hw.swfMatch (h : Hw) (n : Nat) (f : CanFrame) : Bool :=
  let m := h.get (NMU_SWF n 1) 28 0
  let dmask := leBytes 4 (h.rd (NMU_SWF n 3)) ++ leBytes 4 (h.rd (NMU_SWF n 4))
  let data := slice (f.data.take (canLen 0 f.dlc.toNat)) 0 8
  f.ide == h.bit (NMU_SWF n 0) 29 && decide (f.id.toNat &&& m = h.get (NMU_SWF n 0) 28 0 &&& m) &&
    decide (f.dlc.toNat = h.get (NMU_SWF n 2) 3 0) &&
    (!h.bit (NMU_SWF n 2) 31 || (dmask.zip data).any (fun x => decide (x.1 &&& x.2 ≠ 0)))

/-- SELECTIVE_WAKE_FRAME (R460): a frame on the bus of a channel in SLEEP or PARTIAL; none for an erroneous one. -/
def execSelectiveWakeFrame (n : Fin 12) (f : Option CanFrame) (s : State) : Host.Outcome State Fault Refusal :=
  s.run fun h =>
    let n := n.val
    let st := h.nmState n
    if !h.bit (NMU_SWF n 0) 31 || (st != nmSleep && st != nmPartial) then h
    else
      let setErr := fun (h : Hw) (e : Nat) => { h with nmu := { h.nmu with swfErr := h.nmu.swfErr.set n e } }
      let err := h.nmu.swfErr.get n
      let bad := match f with | none => true | some f => f.fmt != 0
      let fd := match f with | none => false | some f => f.fmt != 0
      if fd && h.bit (NMU_SWF n 2) 30 then h
      else if bad then
        let h := setErr h (err + 1)
        if h.get (NMU_SWF n 2) 15 8 < err + 1 then h.nmWake 3 [n] n else h
      else
        let h := setErr h (err - 1)
        match f with
        | some f => if h.swfMatch n f then h.nmWake 2 [n] n else h
        | none => h

/-- A source comes before another in the report (R463). -/
def kaBefore (x y : KaSource) : Bool :=
  let m := fun (z : KaSource) => z.credit / 1_200_000
  decide (m y < m x) || (decide (m x = m y) && decide (x.src < y.src))

/-- Insert a source into the ordered list of the report. -/
def kaInsert (x : KaSource) : List KaSource → List KaSource
  | [] => [x]
  | y :: t => if kaBefore x y then x :: y :: t else y :: kaInsert x t

/-- KEEP_AWAKE (R463, Table 11.6). -/
def execKeepAwake (c : Fin 24) (s : State) : Host.Outcome State Fault Refusal :=
  s.run fun h =>
    let x := h.nmCh c
    match x.attempt with
    | none => h
    | some t =>
      if t.reported || !h.msSince t.at_ (1000 * h.get NMU_KA_LIMIT 15 0) then h
      else
        let h := h.setNmCh c { x with attempt := some { t with reported := true } }
        let top := ((t.sources.filter (fun z => !z.beyond)).foldl (fun l z => kaInsert z l) []).take 8
        let reports := (h.get (NMU_KA_REP 0) 15 0 + 1) % 0x1_0000
        let h := h.wr (NMU_KA_REP 0) (2 ^ 31 + c.val * 2 ^ 24 + min 255 t.sources.length * 2 ^ 16 + reports)
        let h := ((h.wr (NMU_KA_REP 1) t.start).wr (NMU_KA_REP 2) (min 0xFFFF_FFFF (t.other / 1_200_000))).wr (NMU_KA_REP 3) 0
        let h := each 8 (fun k (h : Hw) =>
          match top[k]? with
          | some z =>
            (h.wr (NMU_KA_REP (4 + 2 * k)) (z.src * 2 ^ 24 + z.cbv * 2 ^ 16 + z.frames)).wr (NMU_KA_REP (5 + 2 * k))
              (min 0xFFFF_FFFF (z.credit / 1_200_000))
          | none => (h.wr (NMU_KA_REP (4 + 2 * k)) 0).wr (NMU_KA_REP (5 + 2 * k)) 0) h
        h.raise pgNMU 4

/-- The NMU refuses a write at an offset: the error code (R460, R464). -/
def Hw.nmuRefuses (h : Hw) (o v : Nat) : Option Nat :=
  if o = 0x110 then (if fld v 4 0 = 0 ∨ 20 < fld v 4 0 then some 0x0101 else none)
  else if o = 0x114 then (if fld v 15 0 < 10 then some 0x0101 else none)
  else if 0x140 ≤ o ∧ o < 0x188 ∧ o % 8 = 0 then (if fld v 7 0 = 0 ∨ fld v 29 28 = 3 then some 0x0101 else none)
  else if 0x1000 ≤ o ∧ o < 0x1300 then
    let c := (o - 0x1000) / 0x20
    let w := (o - 0x1000) % 0x20 / 4
    if w = 0 then none
    else if h.bit (NMU_CH c 0) 31 then some 0x0100
    else if (w = 1 ∧ (4 < fld v 10 8 ∨ (fld v 10 8 ≠ 0 ∧ 8 < fld v 14 12 + fld v 10 8))) ∨ (w = 4 ∧ fld v 31 16 < 100) ∨
        (w = 5 ∧ fld v 15 0 < 100) then some 0x0101
    else none
  else if 0x2000 ≤ o ∧ o < 0x2180 then
    let n := (o - 0x2000) / 0x20
    let w := (o - 0x2000) % 0x20 / 4
    if [nmCommit, nmSleep, nmPartial].contains (h.nmState n) then some 0x0100
    else if w = 2 ∧ (fld v 15 8 = 0 ∨ 8 < fld v 3 0) then some 0x0101 else none
  else none

/-- `DRIVE` belongs to input 8 alone. -/
def nmuKeep (o : Nat) : Nat := if 0x140 ≤ o ∧ o < 0x180 ∧ o % 8 = 0 then 0xC000_00FF else 0xFFFF_FFFF

/-- The NMU permits sleep on a port: the channel it is attached to is in COMMIT or SLEEP (R357, R358). -/
def Hw.sleepPermitted (h : Hw) (p : Nat) : Bool :=
  (h.chOfTc10 p).any (fun c => h.nmState c == nmCommit || h.nmState c == nmSleep)

/-- TC10 is on for a port in a state. -/
def Hw.tc10In (h : Hw) (p st : Nat) : Bool :=
  decide (4 ≤ p) && decide (p < 28) && h.bit (ETH_TC10 p) 31 && h.get (ETH_TC10 p) 2 0 == st

/-- A port's open sleep request is answered within `SLEEP_TO` (R358). -/
def Hw.sleepWaits (h : Hw) (p : Nat) : Bool :=
  match find? h.nmu.asked p with
  | some t => decide (h.now < t + 1_200_000 * h.get (ETH_TC10 p) 15 8)
  | none => false

/-- TC10_SLEEP_REQUEST (R358): the port requests sleep where the NMU has it sleep. -/
def execTc10SleepRequest (p : Fin 36) (s : State) : Host.Outcome State Fault Refusal :=
  s.run fun h => if h.tc10In p 0 && h.sleepPermitted p then h.askSleep p else h

/-- TC10_SLEEP_ACK (R358): the partner acknowledges in time and the port sleeps. -/
def execTc10SleepAck (p : Fin 36) (s : State) : Host.Outcome State Fault Refusal :=
  s.run fun h => if h.tc10In p 1 && h.sleepWaits p then (h.put (ETH_TC10 p) 2 0 2).linkDown p else h

/-- TC10_SLEEP_NAK (R358): `SLEEP_TO` has passed without the acknowledgement. -/
def execTc10SleepNak (p : Fin 36) (s : State) : Host.Outcome State Fault Refusal :=
  s.run fun h => if h.tc10In p 1 && !h.sleepWaits p then (h.put (ETH_TC10 p) 2 0 0).raise (pgETH p) 6 else h

/-- TC10_PARTNER_SLEEP (R358): acknowledged only while the NMU permits sleep on the port, else refused. -/
def execTc10PartnerSleep (p : Fin 36) (s : State) : Host.Outcome State Fault Refusal :=
  s.run fun h =>
    if !(h.tc10In p 0 || h.tc10In p 1) then h
    else if h.sleepPermitted p then ((h.put (ETH_TC10 p) 2 0 2).calls p 3).linkDown p
    else h.calls p 4

/-- TC10_WAKE (R359): a WUP or WUR on a port is latched and delivered, also while its domain is off; it ends a handshake, and is
forwarded. -/
def execTc10Wake (p : Fin 36) (s : State) : Host.Outcome State Fault Refusal :=
  s.run fun h =>
    let p := p.val
    let cfg := if h.live (pgETH p) then some (h.rd (ETH_TC10 p), h.rd (ETH_TC10_FWD p)) else find? h.nmu.tc10 p
    match cfg with
    | none => h
    | some (w, fwd) =>
      if p < 4 ∨ 28 ≤ p ∨ fld w 31 31 = 0 then h
      else
        let st := fld w 2 0
        let h := if !h.live (pgETH p) then h else
          (if st = 1 then h.put (ETH_TC10 p) 2 0 0 else if st = 2 then h.put (ETH_TC10 p) 2 0 3 else h).raise (pgETH p) 5
        let h := h.nmWake 4 (h.chOfTc10 p) p
        if fld w 30 30 = 1 then each 24 (fun i (h : Hw) => if fld fwd i i = 1 then h.wakeLink (i + 4) else h) h else h

end Sys2Proof.Machine
end

