-- ==== Sys2Proof/Machine/Image.lean ====
section
/-! DEFINITION. The input side of a cycle (R75 to R77, R91, R99 to R101): the input cue and the image. -/

namespace Sys2Proof.Machine

/-- The image header (Table 02.5): `v` is the slot's value at the input cue. -/
def Hw.imageHeader (h : Hw) (c v : Nat) : List Byte :=
  let x := h.cad c
  wordBytes [nowLo v, nowHi v, h.tcuState (h.cadTc c) + (if x.stepped then 0x100 else 0) + min x.skipped 0xFFFF * 0x1_0000,
    h.rd (CEA_CAD c 5), nowLo x.last, nowHi x.last,
    (if h.anyForce c then 1 else 0) + (if h.bit (STATUS pgCEA) 1 then 2 else 0), 0]

/-- The record of a CAN object (Table 09.3). -/
def Hw.canRecord (h : Hw) (n o : Nat) : List Byte :=
  let w1 := CAN_OBJ n o 1
  let w6 := CAN_OBJ n o 6
  let b := fun (k i upTo : Nat) => if h.bit k i then 2 ^ upTo else 0
  leBytes 4 (h.rd (CAN_OBJ n o 8)) ++
    leBytes 4 (h.objFmt n o * 2 ^ 30 + b w1 29 29 + b w6 29 28 + b w6 28 27 + h.objDlc n o * 2 ^ 16 + h.get w6 15 0) ++
    leBytes 4 (h.rd (CAN_OBJ n o 7)) ++ h.objData n o

/-- The record of a LIN buffer (R376); the spec names no content for its bytes 8 to 11. -/
def Hw.linRecord (h : Hw) (l b : Nat) : List Byte × Hw :=
  let st := LIN_BUF_ST l b
  let (x, h) := h.freeWord
  (leBytes 4 (h.zone.linRx.get (64 * l + b)) ++
    leBytes 4 ((if h.bit st 30 then 2 ^ 28 else 0) + (if h.bit st 29 || h.bit st 28 then 2 ^ 27 else 0) +
      2 ^ 16 * h.get st 19 16 + h.get st 15 0) ++ leBytes 4 x ++ h.linData l b, h)

/-- The record of a receive PDU (R91); its current data count as latched. -/
def Hw.pduRecord (h : Hw) (u : Nat) : List Byte × Hw :=
  let x := h.pdu u
  let len := h.pduLen u
  let half := (len + 7) / 8 * 8
  let data := if x.stored then h.cea.pduRam.read (h.pduBuf u + x.half * half) len else List.replicate len 0
  let cnt := if x.stored then h.get (CEA_PDU u 5) 15 0 else 0
  (leBytes 4 (h.rd (CEA_PDU u 6)) ++ leBytes 2 cnt ++ leBytes 2 (h.get (CEA_PDU u 5) 31 16) ++ leBytes 1 x.flags ++
    leBytes 1 (h.get (CEA_PDU u 7) 1 1) ++ [0, 0] ++ data, h.setPdu u { x with fresh := false })

/-- The bytes that an input map entry latches, without the effect of outputs committed at the same instant (R57, R73, R208, R374, R376, R434, R708): each entry as one unit (R77). -/
def Hw.latchEntry (h : Hw) (c v m : Nat) : List Byte × Hw :=
  let src := h.mapSrc m
  let n := h.mapLen m
  let (bs, h) := match h.mapKind m with
    | 1 => ((List.range 32).flatMap (fun w => leBytes 4 (h.rd (AIN_RES (src % 16) w))), h)
    | 2 => ((h.stn src).data, h)
    | 3 => if src < 2048 then (h.canRecord (src / 128) (src % 128), h) else h.linRecord ((src - 2048) / 64) ((src - 2048) % 64)
    | 4 => h.pduRecord src
    | 5 => ((List.range (n / 8)).flatMap (fun i => leBytes 4 (h.inputRd (cMeas (src + i))) ++ leBytes 4 (h.inputRd (cState (src + i)))), h)
    | 6 => (h.qualityWord src (v / tickUnit % 2 ^ 40), h)
    | _ => ([], h)
  (slice bs 0 n, h)

/-- Length of a cadence's image: the header and the input data (R649). -/
def Hw.imageLen (h : Hw) (c : Nat) : Nat := 32 + ((h.cadIns c).map h.mapLen).foldl (· + ·) 0

/-- Bytes of an entry that lie in the image, by offset from its header. -/
def putImage (base len : Nat) (m : Mem) (ofs : Nat) (bs : List Byte) : Mem :=
  (List.range bs.length).foldl (fun (m : Mem) i =>
    if base ≤ ofs + i ∧ ofs + i < base + len then m.set (ofs + i - base) (bs.getD i 0) else m) m

/-- The image as latched: header and entries, over what the image region held. -/
def Hw.buildImage (h : Hw) (c v : Nat) : Mem × Hw :=
  let base := h.cadImgBase c
  let len := h.imageLen c
  let start := (Mem.splice [] 0 len h.poolNow base).write 0 (h.imageHeader c v)
  (h.cadIns c).foldl (fun (s : Mem × Hw) m =>
    let (bs, h) := s.2.latchEntry c v m
    (putImage base len s.1 (h.mapOfs m) bs, h)) (start, h)

/-- An input cue finds a previous cycle without a commit (R100): its results are discarded, its runs abandoned. A run that has
halted in the debugger, its results (R189) and a rerun whose window has opened stand. -/
def Hw.lostCommit (h : Hw) (c : Nat) : Hw :=
  let h := (h.satF (CEA_CAD c 6) 7 0).raise pgCEA 10
  let h := h.setCad c { h.cad c with lost := true }
  (h.cadTasks c).foldl (fun (h : Hw) t =>
    let x := h.task t
    let kept := x.unchecked || (match h.runOf t with | some r => r.halted | none => false) ||
      (match x.retry with | some r => r.opened | none => false)
    if kept then h
    else (h.dropRun t).setTask t { x with outcome := .idle, buf := [], outs := [], retry := none }) h

/-- The lock-step flag clears at the end of a full period after the detachment (R194). -/
def Hw.lockstepPeriod (h : Hw) (c : Nat) : Hw :=
  match h.dbg.clearing with
  | none => h
  | some t =>
    if h.taskBg t || h.taskCad t != c then h
    else if (h.cad c).judged = 2 then
      let h := { h with dbg := { h.dbg with clearing := none } }
      ((h.putBit (STATUS pgCEA) 1 false).setCad c { h.cad c with judged := 0 }).raise pgDBG 3
    else h.setCad c { h.cad c with judged := 1 }

/-- A task at an input cue of its cadence: it takes part in the cycle, with the forces in effect from here on (R176), or it shows
SKIP (R96, R189), HALTED (R103) or UNPLACED (R108). -/
def Hw.taskLatch (h : Hw) (t : Nat) : Hw :=
  let x := h.task t
  let h := if h.taskState t = 5 && x.restart then (h.setTask t { x with restart := false }).setTaskState t 1 else h
  let x := h.task t
  let held := x.unchecked || x.retry.isSome || (match h.runOf t with | some r => r.halted | none => false)
  if h.taskState t = 5 ∨ h.taskState t = 6 ∨ h.taskEng t = 0x1F then h.applyForces false t
  else if held then h.setTaskState t 4
  else
    let h := h.applyForces false t
    let h := h.setTask t { h.task t with outcome := .running, buf := [], outs := [] }
    if h.taskState t = 3 then h else h.setTaskState t 1

/-- Stations whose supervision follows a cadence (R428). -/
def Hw.cadStations (h : Hw) (c : Nat) : List Nat :=
  if h.live pgRIO && h.bit (CTRL pgRIO) 0 then (List.range 256).filter (fun s => h.stnEn s && h.stnCad s == c) else []

/-- The `SEQ` of the data sheaf latched last for each station that a cadence's outputs name (R424). -/
def Hw.sheafRefs (h : Hw) (c : Nat) : List (Nat × Nat) :=
  ((h.cadOuts c).filter (fun m => h.mapKind m == 9)).foldl (fun l m => file l (h.mapSrc m) (h.stn (h.mapSrc m)).latched) []

/-- The input cue of a cadence (R69, R75 to R77, R100): every source freezes what it presents. -/
def Hw.latchCue (h : Hw) (c v : Nat) : Hw :=
  let h := if (h.cad c).latched then h.lostCommit c else h
  let h := h.lockstepPeriod c
  let h := h.twinLatchCue c (nowLo v)
  let h := (h.cadStations c).foldl (fun (h : Hw) s => h.stationDeadline s) h
  let h := if h.live pgNMU then h.nmLatch c else h
  let h := (h.cadTasks c).foldl (fun (h : Hw) t => h.taskLatch t) (h.applyForces true c)
  let (img, h) := h.buildImage c v
  let h := (h.cadStations c).foldl (fun (h : Hw) s => h.stationLatched s) h
  let x := { h.cad c with latched := true, ready := false, seq := h.cea.seq + 1, img := img, imgLen := h.imageLen c, refs := h.sheafRefs c, last := v, stepped := false, skipped := 0 }
  let h := { h with cea := { h.cea with seq := h.cea.seq + 1 } }
  ((h.setCad c x).wr (CEA_CAD c 7) (nowLo v)).trimKept

/-- A LATCH or COMMIT cue reaches its cadence (R101, R102, R113): refused from another index than `idx0`, ignored where the
cadence is disabled, suspended, or waits for the twin. -/
def Hw.cadCue (h : Hw) (c idx idx0 : Nat) (f : Hw → Hw) : Hw :=
  if !h.ceaOn || !h.cadEn c then h
  else if idx ≠ idx0 then h.raise pgCEA 11
  else if (h.cad c).suspended || h.twinWaits c then h
  else f h

/-- LATCH (R69, R75, R101). -/
def latchEff (arg v _tc idx : Nat) (h : Hw) : Hw :=
  let c := fld arg 5 0
  h.cadCue c idx (h.cadLatchIdx c) (fun h => h.latchCue c v)

/-- LATCH cue. -/
def execLatch (c : CueRef) (s : State) : Host.Outcome State Fault Refusal := s.run fun h => h.fireCue c 0x01 latchEff

/-- The cadence's tasks are released to their engines (Table 02.4). -/
def Hw.releaseTasks (h : Hw) (c : Nat) : Hw :=
  (h.cadTasks c).foldl (fun (h : Hw) t =>
    if (h.task t).outcome = .running ∧ (h.runOf t).isNone ∧ h.taskEng t < 18 then
      h.startRun t { engine := h.taskEng t, seq := (h.cad c).seq, img := (h.cad c).img, imgLen := (h.cad c).imgLen, refs := (h.cad c).refs }
    else h) h

/-- The image goes into the image region, with its forces (R75, R177): to the cadence's own reads as of the input cue it is
there, to those of other cycles under way it is not (R81). -/
def Hw.placeImage (h : Hw) (c : Nat) (img : Mem) : Hw :=
  let img := h.forceImage c img
  let x := h.cad c
  let h := (h.poolWriteAt (x.seq - 1) (h.cadImgBase c) (img.read 0 x.imgLen)).bgRestart
  h.setCad c { h.cad c with img := img, ready := true }

/-- IMAGE_READY (R75, Table 02.4): a standby in step waits for the holder's image, unless it is complete (R634). -/
def execImageReady (c : Fin 64) (s : State) : Host.Outcome State Fault Refusal :=
  s.run fun h =>
    let x := h.cad c
    if !h.live pgCEA || !x.latched || x.ready then h
    else
      let paired := h.twinned c && h.twState == twInStep
      if paired && !h.bit TWN_STATE 3 then
        let h := h.placeImage c x.img
        match (h.twinCad c).image with
        | some bs => (h.placeImage c (Mem.write [] 0 (bs.take x.imgLen))).releaseTasks c
        | none => h.setTwinCad c { h.twinCad c with waiting := true }
      else
        let h := h.placeImage c x.img
        let h := if paired then h.sendImage c (nowLo x.last) (((h.cad c).img).read 0 x.imgLen) else h
        h.releaseTasks c

/-- CEA_TASK_RESTART (R103, Table 02.9). A background task has no input cue: it restarts at the next placement (assumption log, entry
138). -/
def execCeaTaskRestart (v : Word) (a : Attr) (s : State) : Host.Outcome State Fault Refusal :=
  s.run fun h => h.busWrite CEA_TASK_RESTART a fun h =>
    let t := fld v.toNat 8 0
    if h.taskState t = 5 then h.setTask t { h.task t with restart := true } else h

/-- IMP_CNT_CLR (Table 02.13). -/
def execImpCntClr (v : Word) (a : Attr) (s : State) : Host.Outcome State Fault Refusal :=
  s.run fun h => h.busWrite IMP_CNT_CLR a fun h =>
    let regs := [IMP_RET_PEAK, IMP_DRAIN_MAX, IMP_ECC_CE, IMP_ECC_UE, IMP_BG_RESTART_CNT]
    each 5 (fun i h => if fld v.toNat i i = 1 then h.wr (regs.getD i 0) 0 else h) h

end Sys2Proof.Machine
end

