-- ==== Sys2Proof/Machine/Commit.lean ====
section
/-! DEFINITION. The output side of a cycle (R84 to R88, R94 to R100, R110): the commit cue, the drain and its end, background
commits. -/

namespace Sys2Proof.Machine

/-- Write buffers merged, the second over the first. -/
def mergeBuf (x y : WBuf) : WBuf :=
  y.foldl (fun (l : WBuf) e =>
    file l e.1 (match find? l e.1 with
      | some o => { data := mergeEnt o.data e.2, mask := o.mask ||| e.2.mask }
      | none => { e.2 with visited := false })) x

/-- What a task drains (R84): its write buffer, with the forced values in place of its own stores (R178). -/
def Hw.drainOf (h : Hw) (t : Nat) : WBuf :=
  (h.taskForces t).foldl (fun ws f => mergeBuf ws (bytesBuf f.1 f.2)) (mergeBuf [] (h.task t).buf)

/-- A commit while its tasks are gone through: the outputs it releases, the words it drains, the tasks that compared equal. -/
structure CommitAcc where
  hw : Hw
  outs : List Release := []
  words : WBuf := []
  good : List Nat := []

/-- The safe values of a task go out at this commit. -/
def CommitAcc.safe (x : CommitAcc) (t : Nat) : CommitAcc :=
  { x with hw := x.hw.noteSafe t, outs := x.outs ++ x.hw.safeValues t }

/-- A task commits its results, with a code of `LAST` (Table 02.11). -/
def CommitAcc.commit (x : CommitAcc) (t last : Nat) : CommitAcc :=
  let ts := x.hw.task t
  let outs := ts.outs.map (fun o => { entry := o.entry, bytes := o.bytes, unchecked := ts.unchecked, ref := o.ref : Release })
  let words := mergeBuf x.words (x.hw.drainOf t)
  let h := x.hw.setTask t { ts with outcome := .idle, buf := [], outs := [], unchecked := false, retry := none, safeNext := false, ovr := if ts.unchecked then ts.ovr else 0 }
  let h := if ts.unchecked then h else h.put (CEA_TSTAT t) 23 20 0
  { hw := (h.setLast t last).setTaskState t 1, outs := x.outs ++ outs, words := words, good := if ts.unchecked then x.good else x.good ++ [t] }

/-- An overrun of a task at its commit cue (R94, R95, R98): it is stopped, its buffer discarded, its outputs held, or beyond the
tolerance replaced by its safe values. -/
def CommitAcc.overrun (x : CommitAcc) (t last : Nat) : CommitAcc :=
  let h := x.hw.dropRun t
  let h := h.setTask t { h.task t with outcome := .idle, buf := [], outs := [], unchecked := false }
  let h := (h.noteOverrun t).setLast t last
  if h.beyondTol t then { x with hw := h.setTaskState t 3 }.safe t else { x with hw := h }

/-- One task at a commit cue that carries results (R84, R94 to R98, R103, R108, R189, R190). A compare that ended in this cue
clock cycle is late (R87), one that found a mismatch too (assumption log, entry 138). -/
def CommitAcc.task (x : CommitAcc) (t : Nat) : CommitAcc :=
  let h := x.hw
  let ts := h.task t
  let late := ts.doneAt == some h.now
  let halted := match h.runOf t with | some r => r.halted | none => false
  if h.taskState t = 5 ∨ h.taskState t = 6 then (if ts.safeNext then x.safe t else x)
  else if halted then { x with hw := h.setLast t 7 }
  else
    match ts.retry with
    | some r =>
      if !r.opened && late then { x with hw := (h.dropRun t).setTask t { ts with retry := none } }.overrun t 1
      else if !r.opened then
        let h := ((h.setTask t { ts with outcome := .idle, retry := some { r with opened := true, openAt := h.now } }).setLast t 2).setTaskState t 2
        if ts.safeNext then { x with hw := h }.safe t else { x with hw := h }
      else if r.equal && !late then x.commit t 4
      else
        let h := if r.failed then h else h.rerunFailed t 3
        let h := h.setTask t { h.task t with retry := none }
        if (h.task t).safeNext then { x with hw := h.setTaskState t 3 }.safe t else { x with hw := h }
    | none =>
      match (if late && ts.outcome != .idle then .running else ts.outcome) with
      | .equal => x.commit t 0
      | .running => x.overrun t 1
      | .mismatch => x.overrun t 1
      | .trapped => x.overrun t 3
      | .idle => if ts.safeNext then { x with hw := h.setTaskState t 3 }.safe t else x

/-- The payload of a COMMIT record (Table 18.2). -/
def Hw.commitRecord (h : Hw) (c sig : Nat) (empty lost unpaired : Bool) (unchecked : List Nat) : List Byte :=
  let b := fun (x : Bool) (n : Nat) => if x then n else 0
  leBytes 8 sig ++ leBytes 4 (nowLo (h.cad c).last) ++ leBytes 4 (b empty 1 + b lost 2 + b unpaired 4) ++
    (h.cadTasks c).flatMap (fun t =>
      leBytes 4 (b (unchecked.contains t) (2 ^ 31) + h.get (CEA_TSTAT t) 19 16 * 2 ^ 24 + h.taskEng t * 2 ^ 16 + t))

/-- A drain begins (R84): the words it supersedes go to retention. Drains of commits at one instant run in cadence order
(R88). -/
def Hw.beginDrain (h : Hw) (d : Drain) : Hw :=
  let h := h.keep h.cea.seq (d.words.map (fun w => w.1))
  let before := h.cea.drains.filter (fun x => !(x.at_ == d.at_ && decide (d.cad < x.cad)))
  let after := h.cea.drains.filter (fun x => x.at_ == d.at_ && decide (d.cad < x.cad))
  { h with cea := { h.cea with seq := h.cea.seq + 1, drains := before ++ d :: after } }

/-- Stations without outputs get an empty sheaf at each commit of their cadence that carries results (R427). -/
def Hw.emptySheaves (h : Hw) (c : Nat) : Hw :=
  if h.inTake then h
  else
    ((h.cadStations c).filter (fun s => h.stnOutLen s == 0 && h.stnAtCommit s == 2)).foldl
      (fun (h : Hw) s => h.releaseSheaf s [] (h.stn s).latched false false) h

/-- The commit's part in clearing the lock-step flag (R194). -/
def Hw.lockstepCommit (h : Hw) (c : Nat) (good : List Nat) : Hw :=
  match h.dbg.clearing with
  | some t =>
    if !h.taskBg t && h.taskCad t == c then
      h.setCad c { h.cad c with judged := if (h.cad c).judged = 1 ∧ good.contains t = true then 2 else 0 }
    else h
  | none => h

/-- A commit cue that finds no input cue since the previous commit (R99). -/
def Hw.emptyCommit (h : Hw) (c v : Nat) : Hw :=
  let h := h.satF (CEA_CAD c 6) 15 8
  let h := h.lockstepCommit c []
  let p := h.commitRecord c (crc64 []) true (h.cad c).lost false []
  let h := h.setCad c { h.cad c with lost := false }
  (h.beginDrain { cad := c, words := [], at_ := h.now, instant := h.tc0Words, commit := p }).chgCommit c v [] false

/-- A commit cue that carries results (R84 to R86). -/
def Hw.fullCommit (h : Hw) (c v : Nat) : Hw :=
  let unchecked := (h.cadTasks c).filter (fun t => (h.task t).unchecked)
  let x := (h.cadTasks c).foldl CommitAcc.task { hw := h : CommitAcc }
  let h := x.hw
  let outs := h.inMapOrder c x.outs
  let sig := h.signature outs
  let h := (h.gate outs).emptySheaves c
  let good := x.good.filter (fun t => h.get (CEA_TSTAT t) 19 16 == 0)
  let h := (h.inc (CEA_CAD c 5)).lockstepCommit c good
  let h := h.ownSig c (nowLo (h.cad c).last) sig
  let k := h.cad c
  let p := h.commitRecord c sig false k.lost (h.twinned c && (h.twinCad c).unpaired) unchecked
  let h := h.setCad c { k with latched := false, ready := false, lost := false }
  let h := h.beginDrain { cad := c, words := x.words, at_ := h.now, instant := h.tc0Words, img := some (k.img, k.imgLen), commit := p }
  (h.chgCommit c v x.good true).trimKept.bgRestart

/-- The commit cue of a cadence. -/
def Hw.commitCue (h : Hw) (c v : Nat) : Hw :=
  let h := h.twinCommitCue c
  if (h.cad c).latched then h.fullCommit c v else h.emptyCommit c v

/-- COMMIT (R84, R99, R101). -/
def commitEff (arg v _tc idx : Nat) (h : Hw) : Hw :=
  let c := fld arg 5 0
  h.cadCue c idx (h.cadCommitIdx c) (fun h => h.commitCue c v)

/-- COMMIT cue. -/
def execCommit (c : CueRef) (s : State) : Host.Outcome State Fault Refusal := s.run fun h => h.fireCue c 0x02 commitEff

/-- Longest drain in ns: 1 engine cycle for each unit of 64 bytes (Table 02.4, Table 02.13). -/
def Hw.drainTime (h : Hw) (ws : WBuf) : Hw :=
  let (ns, h) := h.freeDiv (5 * drainUnits ws) 3
  if h.rd IMP_DRAIN_MAX < ns then h.wr IMP_DRAIN_MAX ns else h

/-- Words that a drain writes, as they then stand. -/
def Hw.drained (h : Hw) (ws : WBuf) : List (Nat × BitVec 64) :=
  ws.map (fun e => (e.1, mergeEnt (BitVec.ofNat 64 (h.cea.pool.le (8 * e.1) 8)) e.2))

/-- The end of a drain (Table 02.4, R650): the pool holds the words, COMMIT_DONE is raised, the Reel records, and a change that
is due takes place (R166). -/
def Hw.drainEnd (h : Hw) (d : Drain) (rest : List Drain) : Hw :=
  let ws := h.drained d.words
  let h := { h with cea := { h.cea with pool := poolPut h.cea.pool d.words, drains := rest } }
  let h := (h.drainTime d.words).raiseG pgCEA (1 + d.cad / 32) (d.cad % 32)
  let h := (h.twinDrain ws).recordDrain 0 d.instant (ws.length + 1) ws
  let h := match d.img with
    | some (m, n) => if h.relCad d.cad then h.record 2 d.cad (m.read 0 n) else h
    | none => h
  let h := if h.relCad d.cad then h.record 3 d.cad d.commit else h
  let h := if h.frc.migrate = some d.cad then h.chgSwitch else h
  h.relSnapTry

/-- DRAIN_END (R84, R88): drains run one after the other. -/
def execDrainEnd (c : Fin 64) (s : State) : Host.Outcome State Fault Refusal :=
  s.run fun h =>
    match h.cea.drains with
    | d :: rest => if d.cad = c.val then h.drainEnd d rest else h
    | [] => h

/-- Time from a tick boundary of TC0 to the next, in 2^−24 ns. -/
def Hw.tickTime (h : Hw) : Nat := h.tickNs 0 * 2 ^ 24

/-- BG_COMMIT (R110): at a tick boundary of TC0 a background task that compared equal in an earlier tick commits; the next run begins
from the committed state. A background change job switches here (R164). -/
def execBgCommit (t : Fin 512) (s : State) : Host.Outcome State Fault Refusal :=
  s.run fun h =>
    let x := h.task t
    if !h.live pgCEA || !h.taskBg t || x.outcome != .equal || !h.tickBoundary 0 || x.doneTick == h.tick32 0 then h
    else
      let buf := h.drainOf t
      let h := buf.foldl (fun (h : Hw) e => h.poolWrite (8 * e.1) (leBytes 8 (mergeEnt (h.poolWord e.1) e.2).toNat)) h
      let ws := buf.map (fun e => (e.1, h.poolWord e.1))
      let h := ((h.drainTime buf).twinDrain ws).recordDrain 4 h.tc0Words (ws.length + 1) ws
      let clear := h.dbg.clearing == some t.val && !x.unchecked
      let h := if clear then ({ h with dbg := { h.dbg with clearing := none } }.putBit (STATUS pgCEA) 1 false).raise pgDBG 3 else h
      let h := h.setLast t 0
      let sw := h.chgState == 1 && h.jobBg && h.jobTasks.any (fun j => j.task == t.val) && h.migFits (drainUnits buf + (h.cea.drains.map (fun d => drainUnits d.words)).foldl (· + ·) 0) h.tickTime
      let h := if sw then h.chgSwitch else h
      let h := h.setTask t { h.task t with outcome := .idle, buf := [], outs := [], unchecked := false }
      let h := if h.taskEn t && decide (h.taskEng t < 18) then h.restartBg t (h.taskEng t) else h
      h.bgRestart.relSnapTry

/-- BG_RIPE (R112): `RIPEN` ticks of TC0 have passed since the background task last ran. Its age counts anew from its grant on. -/
def execBgRipe (t : Fin 512) (s : State) : Host.Outcome State Fault Refusal :=
  s.run fun h =>
    let x := h.task t
    let limit := h.get (CEA_TASK t 3) 13 0
    let now := h.tick32 0
    if !h.live pgCEA || !h.taskEn t || !h.taskBg t || limit = 0 || x.ripe == some now || (now + 2 ^ 32 - x.ranAt) % 2 ^ 32 < limit then h
    else (h.setTask t { x with ripe := some now, ranAt := (now + 1) % 2 ^ 32, spent := 0 }).raise pgCEA 12

end Sys2Proof.Machine
end

