-- ==== Sys2Proof/Machine/Cores.lean ====
section
/-! DEFINITION. The application cores as the worlds see them: the `mworld` CSR (R567, R568). -/

namespace Sys2Proof.Machine

/-- The world a core issues its transactions in (R555). -/
def Hw.coreWorld (h : Hw) (c : Nat) : Bool := (h.cores.getD c {}).world

/-- The attributes of a core's own transactions outside a guest (R555). -/
def Hw.coreAttr (h : Hw) (c : Nat) : Attr := { secure := h.coreWorld c, mid := BitVec.ofNat 8 (8 + c), vmid := 0 }

/-- A core writes back the lines of its L1 data cache, in the world in which it filled them. -/
def Hw.writeBack (h : Hw) (c : Nat) (dirty : List (BitVec 40 × List Byte)) : Hw :=
  let a := h.coreAttr c
  dirty.foldl (fun h l => (h.memWrite l.1.toNat l.2 a).2) h

/-- What a write of `mworld` does in mode M: a change of the world comes after the L1 caches are written back and
invalidated (R568); a write that changes nothing needs no flush. -/
def Hw.mworldWrite (h : Hw) (c v : Nat) (dirty : List (BitVec 40 × List Byte)) : Hw :=
  let w := fld v 0 0 == 1
  if w == h.coreWorld c then h
  else
    let h := h.writeBack c dirty
    { h with cores := setAt h.cores c { world := w } }

/-- MWORLD_WRITE (R567, R568): the core's outstanding transactions are the commands before this one. From any other mode
the core takes an illegal-instruction exception, and a core whose domain is off executes nothing. -/
def execMworldWrite (core : Fin 12) (v : Word) (mMode : Bool) (dirty : List (BitVec 40 × List Byte)) (s : State) :
    Host.Outcome State Fault Refusal :=
  s.run fun h =>
    if mMode && h.pdOn (3 + core.val / 4) then (h.mworldWrite core.val v.toNat dirty).answer 0 else h.errResp

end Sys2Proof.Machine
end

