-- ==== Sys2Proof/Machine/Translate.lean ====
section
/-! DEFINITION. The XLT (R510 to R513, R527): walking the tables, what faults, the cache of translations, invalidation. -/

namespace Sys2Proof.Machine

/-- The parts of a stage: levels of the tree, extra bits of its root index. -/
def stageLevels (mode : Nat) : Nat := if mode = 8 then 3 else 4

/-- Attributes of the XLT's reads: the world of the context's owner (R512). -/
def xltAttr (secure : Bool) (vmid : Nat) : Attr := { secure := secure, mid := 0x51, vmid := BitVec.ofNat 10 vmid }

/-- A leaf: its physical page with the low bits of the input, the size in bits, and what it permits. -/
structure Leaf where
  phys : Nat
  bits : Nat
  rd : Bool
  wr : Bool
  user : Bool
deriving DecidableEq, Repr

/-- Bits of a PTE that are reserved: PBMT and bits 60:54; `N` needs a level 0 leaf of 64 KiB (R510). -/
def pteBad (p : Nat) (level : Nat) (leaf : Bool) : Bool :=
  fld p 62 54 != 0 || (fld p 2 1 == 2) ||
    (if leaf then
      fld p 63 63 == 1 && (level != 0 || fld p 13 10 != 8) || (level == 1 && fld p 18 10 != 0)
    else fld p 63 63 != 0 || fld p 7 6 != 0 || fld p 4 4 != 0)

/-- A walk from a table at `root` (R511, R512). `entry` finds the bus address of a table entry: the entry's own address, or what
the second stage makes of it. The answer is a leaf or the cause of a fault. -/
def Hw.walk (h : Hw) (a : Attr) (va : Nat) (rootBits : Nat) (write : Bool)
    (entry : Hw → Nat → Except Nat Nat × Hw) : Nat → Nat → Except Nat Leaf × Hw
  | 0, _ => (.error 1, h)
  | level + 1, table =>
    let top := if rootBits = 0 then 9 else 9 + rootBits
    let idx := (va / 2 ^ (12 + 9 * level)) % 2 ^ top
    match entry h (table + 8 * idx) with
    | (.error c, h) => (.error c, h)
    | (.ok pa, h) =>
      if 0xFF_FFFF_FFFF < pa then (.error 1, h)
      else
        match h.memWord pa 8 a with
        | (none, h) => (.error 1, h)
        | (some p, h) =>
          let leaf := fld p 1 1 == 1 || fld p 3 3 == 1
          if fld p 0 0 = 0 || pteBad p level leaf then (.error 1, h)
          else if !leaf then Hw.walk h a va 0 write entry level (fld p 53 10 * 0x1000)
          else if 2 ≤ level then (.error 1, h)
          else
            let bits := if fld p 63 63 = 1 then 16 else 12 + 9 * level
            let base := fld p 53 10 * 0x1000
            let x : Leaf := { phys := base / 2 ^ bits * 2 ^ bits + va % 2 ^ bits, bits := bits, rd := fld p 1 1 == 1, wr := fld p 2 2 == 1 && fld p 7 7 == 1, user := fld p 4 4 == 1 }
            if fld p 6 6 = 0 || (write && !x.wr) || (!write && !x.rd) then (.error 2, h) else (.ok x, h)

/-- The second stage (or none) of a context for a guest physical address. -/
def Hw.stage2 (h : Hw) (a : Attr) (mode root gpa : Nat) (write : Bool) : Except Nat Leaf × Hw :=
  if mode = 0 then (.ok { phys := gpa, bits := 64, rd := true, wr := true, user := true }, h)
  else if 2 ^ (9 * stageLevels mode + 14) ≤ gpa then (.error 1, h)
  else h.walk a gpa 2 write (fun h x => (.ok x, h)) (stageLevels mode) root

/-- Both stages of a context (Table 13.4) for an input address. -/
def Hw.translateWalk (h : Hw) (a : Attr) (vmid va : Nat) (write : Bool) : Except Nat Leaf × Hw :=
  let base := 2 ^ 32 * h.get XLT_CTX_BASE_HI 7 0 + h.rd XLT_CTX_BASE_LO + 32 * vmid
  match h.memRead base 32 a with
  | (none, h) => (.error 1, h)
  | (some c, h) =>
    let w := fun i => leNat (slice c (4 * i) 4)
    let m1 := fld (w 0) 27 24
    let m2 := fld (w 0) 23 20
    let s1 := fld (w 0) 30 30 == 1
    let root1 := (w 1 + 2 ^ 32 * fld (w 2) 11 0) * 0x1000
    let root2 := (w 3 + 2 ^ 32 * fld (w 4) 11 0) * 0x1000
    if fld (w 0) 31 31 = 0 || (s1 && m1 != 8 && m1 != 9) || (m2 != 0 && m2 != 8 && m2 != 9) ||
        (m2 != 0 && root2 % 0x4000 != 0) then (.error 1, h)
    else if !s1 then h.stage2 a m2 root2 va write
    else
      let top := va / 2 ^ 38
      if m1 = 8 && top != 0 && top != 0x3FF then (.error 1, h)
      else
        match h.walk a va 0 write (fun h x =>
            match h.stage2 a m2 root2 x false with
            | (.error c, h) => (.error c, h)
            | (.ok y, h) => (.ok y.phys, h)) (stageLevels m1) root1 with
        | (.error c, h) => (.error c, h)
        | (.ok x, h) =>
          if !x.user then (.error 2, h)
          else
            match h.stage2 a m2 root2 x.phys write with
            | (.error c, h) => (.error c, h)
            | (.ok y, h) =>
              (.ok { phys := y.phys, bits := min x.bits y.bits, rd := x.rd && y.rd, wr := x.wr && y.wr, user := true }, h)

/-- A translation fault is counted, shown and raised (R512, R527). -/
def Hw.xltFault (h : Hw) (cause mid vmid : Nat) : Hw :=
  ((h.sat XLT_FAULT_CNT).wr XLT_LAST_FAULT (cause * 2 ^ 28 + mid % 256 * 0x10000 + vmid % 1024)).raise pgXLT 0

/-- A cached translation serves an access. -/
def Xlat.serves (x : Xlat) (vmid va : Nat) (write : Bool) : Bool :=
  x.vmid == vmid && x.page == va / 2 ^ x.bits && (if write then x.wr else x.rd)

/-- Translation of an access of a master (R511 to R513): the bus address, or the cause of the fault. -/
def Hw.translate (h : Hw) (secure : Bool) (mid vmid va : Nat) (write : Bool) : Except Nat Nat × Hw :=
  if !h.live pgXLT || !h.bit (CTRL pgXLT) 0 then (.error 1, h.xltFault 1 mid vmid)
  else
    match h.mem.xlat.find? (fun x => x.serves vmid va write) with
    | some x => (.ok (x.phys * 2 ^ x.bits + va % 2 ^ x.bits), h)
    | none =>
      match h.translateWalk (xltAttr secure vmid) vmid va write with
      | (.error c, h) => (.error c, h.xltFault c mid vmid)
      | (.ok l, h) =>
        if 0xFF_FFFF_FFFF < l.phys then (.error 1, h.xltFault 1 mid vmid)
        else
          let b := min l.bits 21
          let x : Xlat := { vmid := vmid, page := va / 2 ^ b, bits := b, phys := l.phys / 2 ^ b, rd := l.rd, wr := l.wr }
          let kept := if h.mem.xlat.length < 512 then h.mem.xlat else h.mem.xlat.drop 1
          (.ok l.phys, { h with mem := { h.mem with xlat := kept ++ [x] } })

/-- Translations that a write of `XLT_INV` drops (R513). -/
def Hw.xltInScope (h : Hw) (x : Xlat) : Bool :=
  let page := 2 ^ 32 * h.get XLT_INV_ADDR_HI 15 0 + 0x1000 * h.get XLT_INV_ADDR_LO 31 12
  match h.get XLT_INV 29 28 with
  | 0 => true
  | 1 => x.vmid == h.get XLT_INV 25 16
  | 2 => x.vmid == h.get XLT_INV 25 16 && x.page == page / 2 ^ x.bits
  | _ => false

/-- XLT_INVALIDATE (R513): a write of `XLT_INV`. -/
def execXltInvalidate (v : Word) (a : Attr) (s : State) : Host.Outcome State Fault Refusal :=
  s.run fun h => h.busWrite XLT_INV a fun h =>
    if fld v.toNat 31 31 = 1 && h.bit (STATUS pgXLT) 0 then h.refuse XLT_INV 0x0100 a
    else
      let h := h.storeReg XLT_INV v.toNat
      if h.bit XLT_INV 31 then
        let kept := h.mem.xlat.filter (fun x => !h.xltInScope x)
        { h with mem := { h.mem with xlat := kept } }.putBit (STATUS pgXLT) 0 true
      else h

/-- INV_DONE (R513): no burst that used a dropped translation is in flight, since a burst is one step. -/
def execInvDone (s : State) : Host.Outcome State Fault Refusal :=
  s.run fun h =>
    if h.bit (STATUS pgXLT) 0 then ((h.putBit (STATUS pgXLT) 0 false).putBit XLT_INV 31 false).raise pgXLT 1 else h

/-- The error code of a refused XLT configuration write, and of the MEMC and Reeve ones (R526, R527, R529). -/
def Hw.xltRefuses (h : Hw) (k v : Nat) : Option Nat :=
  let hi := if k = XLT_CTX_BASE_HI then v else h.rd XLT_CTX_BASE_HI
  let lo := if k = XLT_CTX_BASE_LO then v else h.rd XLT_CTX_BASE_LO
  let base := 2 ^ 32 * (hi % 256) + lo
  if k = XLT_CTX_BASE_HI ∨ k = XLT_CTX_BASE_LO then
    if base % 0x8000 ≠ 0 then some 0x0101
    else match spaceOf base with | some (.t0, _) => none | some (.t1, _) => none | _ => some 0x0101
  else none

/-- The MEMC finds an error when it reads T0 or T1 (R497): it is counted; an uncorrectable one shows its place. -/
def Hw.memcError (h : Hw) (sp : Space) (ofs : Nat) (e : Ecc) : Hw :=
  match e, sp with
  | .corrected, .t1 => ({ h with hlt := { h.hlt with ce := h.hlt.ce + 1 } }.sat MEMC_T1_CE).raise pgMEMC 0
  | .corrected, .t0 => (h.sat MEMC_T0_CE).raise pgMEMC 0
  | .uncorrectable, .t1 =>
    (({ h with hlt := { h.hlt with ue := true, t1ue := h.hlt.t1ue + 1 } }.sat MEMC_T1_UE).wrPair MEMC_T1_ADDR_LO MEMC_T1_ADDR_HI (0x08_0000_0000 + ofs)).raise pgMEMC 1
  | .uncorrectable, .t0 => (({ h with hlt := { h.hlt with ue := true, t0ue := h.hlt.t0ue + 1 } }.sat MEMC_T0_UE).wr MEMC_T0_ADDR ofs).raise pgMEMC 4
  | _, _ => h

/-- SCRUB (R497): a full pass over T1, which takes `MEMC_SCRUB.HOURS` hours, has found errors: how many it corrected, and where
uncorrectable ones lie. -/
def execScrub (ce : BitVec 16) (ue : List (BitVec 34)) (s : State) : Host.Outcome State Fault Refusal :=
  s.run fun h =>
    if !h.live pgMEMC || decide (h.now < h.mem.scrubAt + h.get MEMC_SCRUB 7 0 * 4_320_000_000_000) then h
    else
      let h := { h with mem := { h.mem with scrubAt := h.now } }
      let h := { h with hlt := { h.hlt with ce := h.hlt.ce + ce.toNat } }
      let h := (h.sat MEMC_T1_CE ce.toNat).raiseIf (decide (ce ≠ 0)) pgMEMC 0
      let h := ue.foldl (fun (h : Hw) o => h.memcError .t1 o.toNat .uncorrectable) h
      h.raise pgMEMC 2

/-- MEMC_CNT_CLR (R529). -/
def execMemcCntClr (v : Word) (a : Attr) (s : State) : Host.Outcome State Fault Refusal :=
  s.run fun h => h.busWrite MEMC_CNT_CLR a fun h =>
    [MEMC_T1_CE, MEMC_T1_UE, MEMC_T0_CE, MEMC_T0_UE].zipIdx.foldl (fun (h : Hw) x =>
      if fld v.toNat x.2 x.2 = 1 then h.wr x.1 0 else h) h

/-- REFRESH_RATE_CHANGE (R529): the multiplier is 2 to the power `m`; REFRESH_HOT is raised when the temperature raises it. -/
def execRefreshRateChange (m : Fin 3) (s : State) : Host.Outcome State Fault Refusal :=
  s.run fun h =>
    if h.live pgMEMC then (h.wr MEMC_REFRESH (2 ^ m.val)).raiseIf (decide (h.rd MEMC_REFRESH < 2 ^ m.val)) pgMEMC 3 else h

/-- The error code of a refused MEMC write. -/
def memcRefuses (k v : Nat) : Option Nat := if k = MEMC_SCRUB ∧ v % 256 = 0 then some 0x0102 else none

end Sys2Proof.Machine
end

