-- ==== Sys2Proof/Machine/Reeve.lean ====
section
/-! DEFINITION. The Reeve (R498 to R509, R526): its log, the placement frames, the plan at the end of an epoch and the moves
of units. -/

namespace Sys2Proof.Machine

/-- An entry of the decision log (R509, Table 13.3); the Reel records it (R649). -/
def Hw.reeveLog (h : Hw) (kind reason subject fr upTo : Nat) : Hw :=
  let e := h.rd RVE_LOG_WR % 256
  let w0 := kind * 2 ^ 28 + reason * 2 ^ 24 + subject % 2 ^ 24
  let tick := h.tick32 0
  let h := (((h.wr (RVE_LOG e 0) w0).wr (RVE_LOG e 1) fr).wr (RVE_LOG e 2) upTo).wr (RVE_LOG e 3) tick
  let h := h.inc RVE_LOG_WR
  let n := h.mem.logSince + 1
  let h := { h with mem := { h.mem with logSince := n % 128 } }
  let h := h.raiseIf (decide (n = 128)) pgRVE 3
  h.record 5 0 (wordBytes [w0, fr, upTo, tick])

/-- What T1 stands for in `FROM` and `TO`. -/
abbrev inT1 : Nat := 0xFFFF_FFFF

/-- The constraint range that holds a unit (R500). -/
def Hw.pinOf (h : Hw) (u : Nat) : Option Nat :=
  (List.range 64).find? (fun r => h.bit (RVE_PIN r 0) 31 && decide (h.get (RVE_PIN r 1) 17 0 ≤ u) &&
    decide (u < h.get (RVE_PIN r 1) 17 0 + h.get (RVE_PIN r 2) 18 0))

/-- A unit lies in a region of T1 that the Reel pins (R652) or in the Loft (R288). -/
def Hw.heldInT1 (h : Hw) (u : Nat) : Bool :=
  let a := 0x08_0000_0000 + u * 0x1_0000
  let loft := 2 ^ 32 * h.get LOFT_BASE_HI 7 0 + h.rd LOFT_BASE_LO
  (h.bit (CTRL pgREL) 0 &&
    ((decide (h.relBase ≤ a) && decide (a < h.relBase + h.relBytes)) ||
      (decide (h.relSnap ≤ a) && decide (a < h.relSnap + 0x200_0000)))) ||
    (h.bit (CTRL pgLOFT) 0 && decide (loft ≤ a) && decide (a < loft + 0x1_0000 * h.get LOFT_SIZE 12 0))

/-- Mode, criticality and budget group of a unit (R500). -/
def Hw.unitMode (h : Hw) (u : Nat) : Nat :=
  if h.heldInT1 u then 1 else match h.pinOf u with | some r => h.get (RVE_PIN r 0) 29 28 | none => 0
def Hw.unitCrit (h : Hw) (u : Nat) : Nat := match h.pinOf u with | some r => h.get (RVE_PIN r 0) 25 24 | none => 0
def Hw.unitGroup (h : Hw) (u : Nat) : Nat := match h.pinOf u with | some r => h.get (RVE_PIN r 0) 19 16 | none => 0

/-- `IN_USE` and the `USED` fields follow the frames. -/
def Hw.rveSync (h : Hw) : Hw :=
  let h := h.put RVE_T0_POOL 25 16 h.mem.frames.length
  each 16 (fun g h => h.put (RVE_BUDGET g) 9 0 (h.mem.frames.filter (fun f => h.unitGroup f.2 == g)).length) h

/-- T0_POOL_WRITE (R498, R503). -/
def execT0PoolWrite (v : Word) (a : Attr) (s : State) : Host.Outcome State Fault Refusal :=
  s.run fun h => h.busWrite RVE_T0_POOL a fun h =>
    if 512 < fld v.toNat 9 0 then h.refuse RVE_T0_POOL 0x0100 a else (h.put RVE_T0_POOL 9 0 (fld v.toNat 9 0)).rveSync

/-- The plan while an epoch's end is worked out: what will be promoted once the queue is served, free frames, and how many
moves the heat queued. -/
structure Plan where
  held : List Nat
  free : Nat
  queued : Nat := 0
  go : Bool := true
deriving DecidableEq, Repr

/-- The plan as the frames and the queue stand. -/
def Hw.plan (h : Hw) : Plan :=
  let frames := h.get RVE_T0_POOL 9 0
  let gone := h.mem.moves.filter (fun m => !m.promote)
  let come := (h.mem.moves.filter (fun m => m.promote)).map (fun m => m.unit)
  let stay := (h.mem.frames.map (fun f => f.2)).filter (fun u => !gone.any (fun m => m.unit == u))
  let held := stay ++ come
  { held := held, free := frames - held.length }

/-- Queue a move. -/
def Hw.queueMove (h : Hw) (promote : Bool) (u reason : Nat) : Hw :=
  { h with mem := { h.mem with moves := h.mem.moves ++ [{ promote := promote, unit := u, reason := reason }] } }

/-- Heat of a promoted unit: its frame's count. -/
def Hw.frameHeat (h : Hw) (heat : List (Nat × Nat)) (u : Nat) : Nat :=
  match h.frameOf u with
  | some f => (find? heat f).getD 0
  | none => 0

/-- The unit that a promotion would displace (R502). -/
def Hw.displaced (h : Hw) (p : Plan) (heat : List (Nat × Nat)) : Option Nat :=
  (p.held.filter (fun u => h.unitMode u != 2 && !h.heldInT1 u && (h.frameOf u).isSome)).foldl (fun best u =>
    match best with
    | none => some u
    | some v =>
      let cu := h.unitCrit u
      let cv := h.unitCrit v
      let hu := h.frameHeat heat u
      let hv := h.frameHeat heat v
      if cu < cv ∨ (cu = cv ∧ (hu < hv ∨ (hu = hv ∧ u < v))) then some u else some v) none

/-- The budget group of a unit is full (R501). -/
def Hw.budgetFull (h : Hw) (p : Plan) (u : Nat) : Bool :=
  let g := h.unitGroup u
  decide (h.get (RVE_BUDGET g) 25 16 ≤ (p.held.filter (fun x => h.unitGroup x == g)).length)

/-- A unit that could not be placed goes into the log (R502). -/
def Hw.notPlaced (h : Hw) (u reason : Nat) : Hw :=
  (h.reeveLog 8 reason u inT1 inT1).raiseIf (reason == 3) pgRVE 2

/-- A MODE 2 unit is promoted at once (R500 to R502). -/
def Hw.planPinned (h : Hw) (heat : List (Nat × Nat)) (u : Nat) : Hw :=
  let p := h.plan
  if h.budgetFull p u then h.notPlaced u 3
  else if 0 < p.free then h.queueMove true u 1
  else
    match h.displaced p heat with
    | none => h.notPlaced u 4
    | some v => if h.unitCrit u < h.unitCrit v then h.notPlaced u 4 else (h.queueMove false v 1).queueMove true u 1

/-- One unit of the sampled table (R502): false where the walk stops. -/
def Hw.planHot (h : Hw) (heat : List (Nat × Nat)) (n : Nat) (u hot : Nat) : Bool × Nat × Hw :=
  if h.get RVE_MIG_BW 7 0 ≤ n || decide (hot < h.get RVE_POLICY 11 0) then (false, n, h)
  else
    let p := h.plan
    if h.budgetFull p u then (true, n, h.notPlaced u 3)
    else if 0 < p.free then (true, n + 1, h.queueMove true u 0)
    else
      match h.displaced p heat with
      | none => (false, n, h)
      | some v =>
        if h.unitCrit u < h.unitCrit v then (false, n, h)
        else if h.frameHeat heat v * (8 + h.get RVE_POLICY 15 12) ≤ hot * 8 then
          (true, n + 1, (h.queueMove false v 0).queueMove true u 0)
        else (false, n, h)

/-- Insert a unit by falling heat, the lower unit first on ties. -/
def byHeat (x : Nat × Nat) : List (Nat × Nat) → List (Nat × Nat)
  | [] => [x]
  | y :: t => if y.2 < x.2 ∨ (y.2 = x.2 ∧ x.1 < y.1) then x :: y :: t else y :: byHeat x t

/-- The units of MODE 2, ascending, those apart that a pinned region of T1 holds (R288, R652). -/
def Hw.pinnedUnits (h : Hw) : List Nat :=
  (((List.range 64).filter (fun r => h.bit (RVE_PIN r 0) 31 && decide (h.get (RVE_PIN r 0) 29 28 = 2))).flatMap (fun r =>
    (List.range (h.get (RVE_PIN r 2) 18 0)).map (fun i => h.get (RVE_PIN r 1) 17 0 + i))).foldl
      (fun l u => if h.heldInT1 u then l else insertLine l u) []

/-- The Reeve at the end of an epoch (R502 to R504): `heat` counts each frame's accesses, `samples` the sampled accesses of T1
units, `util` is the T1 utilisation in %. -/
def Hw.epochPlan (h : Hw) (heat samples : List (Nat × Nat)) (util : Nat) : Hw :=
  let aged := h.mem.moves.map (fun (m : Move) => { m with age := m.age + 1 })
  let h := { h with mem := { h.mem with moves := aged, moved := 0 } }
  let h := h.pinnedUnits.foldl (fun (h : Hw) u => if h.plan.held.contains u then h else h.planPinned heat u) h
  let bw := h.get RVE_MIG_BW 7 0
  let low := 512 - h.get RVE_T0_POOL 9 0
  let out := ((h.mem.frames.filter (fun f => decide (f.1 < low))).reverse.filter (fun f =>
    !h.heldInT1 f.2 && !h.mem.moves.any (fun m => !m.promote && m.unit == f.2))).take bw
  let h := out.foldl (fun (h : Hw) f => h.queueMove false f.2 2) h
  let hot := (samples.map (fun x => (x.1, 16 * x.2))).foldl (fun l x => byHeat x l) []
  let r := hot.foldl (fun (s : Bool × Nat × Hw) x =>
    if !s.1 || s.2.2.unitMode x.1 == 1 || s.2.2.plan.held.contains x.1 then s
    else s.2.2.planHot heat s.2.1 x.1 x.2) (true, out.length, h)
  let h := r.2.2.put MEMC_UTIL 6 0 util
  let now := h.rd LOFT_BW_NOW
  let high := h.get RVE_POLICY 22 16
  let next := min (h.get LOFT_BW 7 0)
    (if high < util then max 1 (now / 2) else if util + 10 < high then 2 * now else now)
  if next = now then h else (h.wr LOFT_BW_NOW next).reeveLog 7 0 0 now next

/-- The next move to serve (R508): a ripe one, else the front of the queue. -/
def Hw.nextMove (h : Hw) : Option Move :=
  match h.mem.moves.find? (fun m => decide (h.get RVE_RIPEN 7 0 ≤ m.age)) with
  | some m => some m
  | none => h.mem.moves.head?

/-- A move comes off the queue, with its log entry. -/
def Hw.moveEnds (h : Hw) (m : Move) (kind fr upTo : Nat) : Hw :=
  let h := { h with mem := { h.mem with moves := h.mem.moves.erase m, moved := h.mem.moved + 1 } }
  h.reeveLog kind m.reason m.unit fr upTo

/-- Some frame of the pool holds no unit. -/
def Hw.frameFree (h : Hw) : Bool :=
  let n := h.get RVE_T0_POOL 9 0
  (List.range n).any (fun i => !h.mem.frames.any (fun x => x.1 == 512 - n + i))

/-- A move (R288, R505 to R507, R652): the next one copies its unit; `frame` is the frame that the Reeve gives a promotion. A promotion
that finds every frame taken, since the demotion before it was abandoned, is not placed (assumption log, entry 134). A move of a
unit that has come to stand still falls away: one in a region pinned since it was queued, or one already where it should go. -/
def Hw.unitMove (h : Hw) (frame : Fin 512) (o : MoveEnd) : Hw :=
    match h.nextMove with
    | none => h
    | some m =>
      if h.get RVE_MIG_BW 7 0 ≤ h.mem.moved then h
      else
        let held := h.frameOf m.unit
        let f := frame.val
        let fits := decide (512 - h.get RVE_T0_POOL 9 0 ≤ f) && !h.mem.frames.any (fun x => x.1 == f)
        if m.promote && held.isSome || !m.promote && held.isNone || h.heldInT1 m.unit then
          { h with mem := { h.mem with moves := h.mem.moves.erase m } }
        else if m.promote && !fits then (if h.frameFree then h else { h with mem := { h.mem with moves := h.mem.moves.erase m } }.notPlaced m.unit 4)
        else
          let f := held.getD f
          let fr := if m.promote then inT1 else f
          let upTo := if m.promote then f else inT1
          let abandon := fun (h : Hw) => ((h.moveEnds m 3 fr upTo).sat RVE_ABANDONED).raise pgRVE 0
          match o with
          | .dirty => abandon h
          | .ecc ofs =>
            let h := if m.promote then h.memcError .t1 (m.unit * 0x1_0000 + ofs.toNat) .uncorrectable
              else h.memcError .t0 (f * 0x1_0000 + ofs.toNat) .uncorrectable
            (abandon h).raise pgRVE 1
          | .done =>
            let mem := h.mem
            let mem :=
              if m.promote then
                { mem with t0 := mem.t0.splice (f * 0x1_0000) 0x1_0000 mem.t1 (m.unit * 0x1_0000), frames := file mem.frames f m.unit }
              else
                { mem with t1 := mem.t1.splice (m.unit * 0x1_0000) 0x1_0000 mem.t0 (f * 0x1_0000), frames := unfile mem.frames f }
            (({ h with mem := mem }.moveEnds m (if m.promote then 1 else 2) fr upTo).inc RVE_MOVES).rveSync

/-- The error code of a refused Reeve write (R500, R526): word `w` of range `r`. -/
def Hw.pinRefuses (h : Hw) (r w v : Nat) : Option Nat :=
  let g := fun i => if i = w then v else h.rd (RVE_PIN r i)
  let base := fld (g 1) 17 0
  let n := fld (g 2) 18 0
  if h.bit (RVE_PIN r 0) 31 && (w != 0 || setFld v 31 31 0 != setFld (h.rd (RVE_PIN r 0)) 31 31 0) then some 0x0101
  else if (w = 0 ∧ fld v 29 28 = 3) ∨ (w = 2 ∧ 262144 < n) then some 0x0100
  else if fld (g 0) 31 31 = 1 then
    if n = 0 ∨ 262144 < n then some 0x0100
    else if 262144 < base + n then some 0x0102
    else if (List.range 64).any (fun x => x != r && h.bit (RVE_PIN x 0) 31 &&
        decide (h.get (RVE_PIN x 1) 17 0 < base + n) &&
        decide (base < h.get (RVE_PIN x 1) 17 0 + h.get (RVE_PIN x 2) 18 0)) then some 0x0102
    else none
  else none

/-- The error code of a refused write of another Reeve register (R526, Tables 13.9 and 13.10). -/
def rveRefuses (k v : Nat) : Option Nat :=
  if k = RVE_POLICY then
    if fld v 31 24 = 0 ∨ fld v 22 16 < 20 ∨ 100 < fld v 22 16 ∨ fld v 11 0 = 0 then some 0x0100 else none
  else if k = RVE_MIG_BW ∨ k = RVE_RIPEN then (if v % 256 = 0 then some 0x0100 else none)
  else if RVE_BUDGET 0 ≤ k ∧ k ≤ RVE_BUDGET 15 then (if 512 < fld v 25 16 then some 0x0100 else none)
  else none

end Sys2Proof.Machine
end

