-- ==== Sys2Proof/Machine/Messages.lean ====
section
/-! DEFINITION. Message-signalled interrupts: writes into interrupt files (R570, R571), and the MSI-X vectors of the Span
functions (R489, R491, R553). -/

namespace Sys2Proof.Machine

/-- An address in the interrupt files: core, file, byte offset in the file. -/
def fileAt (addr : Nat) : Option (Nat × Nat × Nat) :=
  let o := addr - 0x0800_0000
  let c := o / 0x1_0000
  let f := o / 0x1000 % 16
  if 0x0800_0000 ≤ addr ∧ c < 12 ∧ f ≤ 8 then some (c, f, o % 0x1000) else none

/-- An identity becomes pending in an interrupt file. -/
def Hw.intPend (h : Hw) (c f eiid : Nat) : Hw :=
  let i : IntPend := { core := c, file := f, eiid := eiid }
  if h.ints.contains i then h else { h with ints := h.ints ++ [i] }

/-- A 32-bit write into an interrupt file: the word at offset 0 sets the pending bit of the identity written; a machine-level
file takes Secure writes only, and a refused one is dropped, counted and captured (R571). -/
def Hw.fileWrite (h : Hw) (addr v : Nat) (a : Attr) : Bool × Hw :=
  match fileAt addr with
  | none => (false, h)
  | some (c, f, o) =>
    if f = 0 && !a.secure then (true, h.gateRefused addr a)
    else if o = 0 ∧ 1 ≤ v ∧ v < 2048 then (true, h.intPend c f v)
    else (true, h)

/-- A 32-bit message write of a master: into an interrupt file or memory; false on an error response. -/
def Hw.msgWrite (h : Hw) (addr v : Nat) (a : Attr) : Bool × Hw :=
  if (fileAt addr).isSome then h.fileWrite addr v a else h.memWrite addr (leBytes 4 v) a

/-- The link is up. -/
def Hw.spanUp (h : Hw) : Bool := h.live pgSPN && h.bit SPN_LINK 31

/-- The bridge is a root port (R465). -/
def Hw.spanRoot (h : Hw) : Bool := h.bit SPN_LINK 30

/-- Packets go out on the link. -/
def Hw.spanOut (h : Hw) (l : List Tlp) : Hw := { h with span := { h.span with out := h.span.out ++ l } }

/-- A word of an MSI-X table entry: function (0 physical, `v` + 1 virtual), vector, byte offset. -/
def Hw.msixWord (h : Hw) (f vec o : Nat) : Nat := h.span.msix.get (f * 2 ^ 16 + vec * 16 + o)

/-- Send a vector's message. -/
def Hw.msixSend (h : Hw) (f vec : Nat) : Hw :=
  h.spanOut [{ op := 0, addr := h.msixWord f vec 0 + 2 ^ 32 * h.msixWord f vec 4, len := 4, data := leBytes 4 (h.msixWord f vec 8), fn := f }]

/-- A vector fires: its message goes out, or its Pending Bit is set while it is masked (R491). -/
def Hw.msixFire (h : Hw) (f vec : Nat) : Hw :=
  let k := f * 32 + vec
  if h.span.unmasked.contains k then (if h.spanUp then h.msixSend f vec else h)
  else { h with span := { h.span with pend := insertLine h.span.pend k } }

/-- A word of an MSI-X table entry is written: the last word's bit 0 is the mask; unmasking a vector with its Pending Bit set
sends its message. -/
def Hw.msixWrite (h : Hw) (f vec o v : Nat) : Hw :=
  let k := f * 32 + vec
  if o = 12 then
    let rest := h.span.unmasked.filter (fun x => x != k)
    if fld v 0 0 = 1 then { h with span := { h.span with unmasked := rest } }
    else
      let was := h.span.pend.contains k
      let pend := h.span.pend.filter (fun x => x != k)
      let h := { h with span := { h.span with unmasked := insertLine rest k, pend := pend } }
      if was then h.msixFire f vec else h
  else { h with span := { h.span with msix := h.span.msix.set (f * 2 ^ 16 + vec * 16 + o) (v % 2 ^ 32) } }

/-- MSIX_SEND (R491, R565, R729): the event line of a vector of the physical function has risen in this cycle. No vector is
Secure, so a Secure line reaches none. -/
def execMsixSend (v : Fin 32) (s : State) : Host.Outcome State Fault Refusal :=
  s.run fun h =>
    let e := h.get (SPN_MSIX v) 10 0
    if h.live pgSPN && !h.spanRoot && h.bit (SPN_MSIX v) 31 && h.seesEdge 0 v e && !h.lineSecure e then
      { h with took := (0, v.val) :: h.took }.msixFire 0 v
    else h

end Sys2Proof.Machine
end

