-- ==== Sys2Proof/Machine/VirtualPort.lean ====
section
/-! DEFINITION. Virtual ports (R530 to R546): entries, memory accesses, notification, transmission and reception. The memory
of the link partner, which a function port reads, is an operand: a list of bytes under function × 2^48 + address (an unlisted
byte is 0). -/

namespace Sys2Proof.Machine

/-- A virtual port, and a word of its entry. -/
def Hw.vp (h : Hw) (n : Nat) : VpSt := (find? h.vpt.ports n).getD {}
def Hw.setVp (h : Hw) (n : Nat) (x : VpSt) : Hw := { h with vpt := { h.vpt with ports := file h.vpt.ports n x } }
def Hw.vpWord (h : Hw) (n w : Nat) : Nat := h.vpt.words.get (16 * n + w)
def Hw.vpBit (h : Hw) (n b : Nat) : Bool := decide (fld (h.vpWord n 0) b b = 1)

/-- Fields of the entry (Table 14.1). -/
def Hw.vpRing (h : Hw) (n : Nat) : Nat := (h.vp n).oldRing.getD (fld (h.vpWord n 0) 19 16)
def Hw.vpVmid (h : Hw) (n : Nat) : Nat := fld (h.vpWord n 0) 9 0
def Hw.vpVid (h : Hw) (n : Nat) : Nat := fld (h.vpWord n 1) 27 16
def Hw.vpAddr (h : Hw) (n w : Nat) : Nat := h.vpWord n w + 2 ^ 32 * fld (h.vpWord n (w + 1)) 15 0

/-- The host port of a port (R530). -/
def vpHost (n : Nat) : Nat := if n < 512 then 36 else 37

/-- The virtual function that a port belongs to (R531). -/
def Hw.vpFunction (h : Hw) (n : Nat) : Option Nat :=
  (List.range 256).find? (fun v => decide (h.get (SPN_VFMAP v) 25 16 ≤ n) &&
    decide (n < h.get (SPN_VFMAP v) 25 16 + h.get (SPN_VFMAP v) 10 0))

/-- The VPT works: its domain is on and it is enabled. -/
def Hw.vptOn (h : Hw) : Bool := h.live pgVPT && h.bit (CTRL pgVPT) 0

/-- A port's event: raised and named in `VPT_LAST`. -/
def Hw.vpEvent (h : Hw) (n e : Nat) : Hw := (h.wr VPT_LAST (e * 0x1_0000 + n)).raise pgVPT e

/-- A port's counter (Table 14.6). -/
def Hw.vpCount (h : Hw) (n k : Nat) (x : Nat := 1) : Hw := h.setVp n { h.vp n with cnt := (h.vp n).cnt.bump k x }

/-- Attributes of a local port's accesses (R531). -/
def Hw.vpAttr (h : Hw) (n : Nat) : Attr := { secure := false, mid := 0x50, vmid := BitVec.ofNat 10 (h.vpVmid n) }

/-- Bus address of a local port's access: translated where the entry says so. -/
def Hw.vpBus (h : Hw) (n addr : Nat) (write : Bool) : Option Nat × Hw :=
  if h.vpBit n 24 then
    match h.translate false 0x50 (h.vpVmid n) addr write with
    | (.ok pa, h) => (some pa, h)
    | (.error _, h) => (none, h)
  else (some addr, h)

/-- A read of a port: the bytes, or the address that faulted. -/
def Hw.vpRead (h : Hw) (n addr len : Nat) (far : List (Nat × Byte)) : Except Nat (List Byte) × Hw :=
  match h.vpFunction n with
  | some v =>
    if h.spanUp then (.ok ((List.range len).map (fun i => (find? far (v * 2 ^ 48 + addr + i)).getD 0)), h) else (.error addr, h)
  | none =>
    (linesOf addr len).foldl (fun (s : Except Nat (List Byte) × Hw) l =>
      match s.1 with
      | .error _ => s
      | .ok bs =>
        match s.2.vpBus n l.1 false with
        | (none, h) => (.error l.1, h)
        | (some pa, h) =>
          match h.memRead pa l.2 (h.vpAttr n) with
          | (none, h) => (.error l.1, h)
          | (some x, h) => (.ok (bs ++ x), h)) (.ok [], h)

/-- A write of a port: the address that faulted, if one did. A function port's write leaves in packets of at most 256 bytes. -/
def Hw.vpWrite (h : Hw) (n addr : Nat) (bs : List Byte) : Option Nat × Hw :=
  match h.vpFunction n with
  | some v =>
    if h.spanUp then
      (none, h.spanOut ((List.range ((bs.length + 255) / 256)).map (fun i =>
        let d := (bs.drop (256 * i)).take 256
        { op := 0, addr := addr + 256 * i, len := d.length, data := d, fn := v + 1 })))
    else (some addr, h)
  | none =>
    let r := (linesOf addr bs.length).foldl (fun (s : Option Nat × Nat × Hw) l =>
      if s.1.isSome then s
      else
        match s.2.2.vpBus n l.1 true with
        | (none, h) => (some l.1, s.2.1, h)
        | (some pa, h) =>
          match h.memWrite pa (slice bs s.2.1 l.2) (h.vpAttr n) with
          | (false, h) => (some l.1, s.2.1, h)
          | (true, h) => (none, s.2.1 + l.2, h)) (none, 0, h)
    (r.1, r.2.2)

/-- The entry word that meters a direction, 10 for transmission and 11 for reception: a frame that waits leaves under the word it
found (R544). -/
def Hw.vpMeter (h : Hw) (n w : Nat) : Nat := if w = 10 then (h.vp n).oldTx.getD (h.vpWord n 10) else h.vpWord n w

/-- Tokens of a bucket now (R541): a cue clock cycle brings the rate in units of 1/9,600 byte. -/
def Hw.vpTokens (h : Hw) (n w : Nat) : Int :=
  let x := h.vp n
  let t := if w = 10 then x.txTok else x.rxTok
  min ((fld (h.vpMeter n w) 15 0 * 1024 * 9600 : Nat) : Int) (t + ((h.now - x.tokAt) * fld (h.vpMeter n w) 31 16 : Nat))

/-- What a frame takes from a bucket: nothing where the rate is not limited. -/
def Hw.vpPrice (h : Hw) (n w len : Nat) : Nat := if fld (h.vpMeter n w) 31 16 = 0 then 0 else len * 9600

/-- The buckets brought to the present, `tx` and `rx` bytes taken. -/
def Hw.vpTake (h : Hw) (n tx rx : Nat) : Hw :=
  h.setVp n { h.vp n with txTok := h.vpTokens n 10 - h.vpPrice n 10 tx, rxTok := h.vpTokens n 11 - h.vpPrice n 11 rx, tokAt := h.now }

/-- A direction's rate is not limited, or its bucket holds a length. -/
def Hw.vpHolds (h : Hw) (n w len : Nat) : Bool :=
  decide (fld (h.vpMeter n w) 31 16 = 0) || decide (((len * 9600 : Nat) : Int) ≤ h.vpTokens n w)

/-- A port that waits no longer: the frame gathered is gone, and word 10 as it stands applies. -/
def Hw.vpUnwait (h : Hw) (n : Nat) : Hw :=
  let h := h.vpTake n 0 0
  h.setVp n { h.vp n with wait := none, oldTx := none }

/-- A fault on a ring or buffer access (R548). -/
def Hw.vpFault (h : Hw) (n side addr : Nat) : Hw :=
  let h := h.vpUnwait n
  (h.setVp n { h.vp n with state := 3, cause := 1, side := side, fault := addr }).vpEvent n 1

/-- The port's notification goes out (R542). -/
def Hw.vpNotify (h : Hw) (n : Nat) : Hw :=
  let h := h.setVp n { h.vp n with irq := false }
  match h.vpFunction n with
  | some v => h.msixFire (v + 1) (fld (h.vpWord n 14) 18 16)
  | none => (h.msgWrite (h.vpAddr n 13) (h.vpWord n 15) (h.vpAttr n)).2

/-- A completion that is to be notified (R542): at once without coalescing; held while the port does not run (R547). -/
def Hw.vpCompleted (h : Hw) (n : Nat) : Hw :=
  if fld (h.vpWord n 1) 15 0 = 0 ∧ (h.vp n).state = 1 then h.vpNotify n
  else
    let x := h.vp n
    h.setVp n { x with irq := true, irqAt := if x.irq then x.irqAt else h.now }

/-- Descriptors of a ring from its head: numbers counted from the head, the four words of each; or the address that faulted. -/
def Hw.vpDescs (h : Hw) (n base head : Nat) (far : List (Nat × Byte)) (stop : List (List Nat) → Bool) :
    Nat → List (List Nat) → Except Nat (List (List Nat)) × Hw
  | 0, l => (.ok l, h)
  | fuel + 1, l =>
    if stop l then (.ok l, h)
    else
      let i := (head + l.length) % 2 ^ h.vpRing n
      match h.vpRead n (base + 16 * i) 16 far with
      | (.error x, h) => (.error x, h)
      | (.ok b, h) => Hw.vpDescs h n base head far stop fuel (l ++ [(List.range 4).map (fun w => leNat (slice b (4 * w) 4))])

/-- Fields of a descriptor (Table 14.2). -/
def dscAddr (d : List Nat) : Nat := d.getD 0 0 + 2 ^ 32 * fld (d.getD 1 0) 15 0
def dscLen (d : List Nat) : Nat := fld (d.getD 2 0) 13 0

/-- Cells in use by a port. -/
def VpSt.use (x : VpSt) : Nat := (x.held.map (fun f => f.cells)).sum

/-- A held frame leaves: its cells return. -/
def Hw.vpDropHeld (h : Hw) (n : Nat) (f : HeldFrame) : Hw :=
  (h.setVp n { h.vp n with held := (h.vp n).held.erase f }).wr VPT_FREE (h.rd VPT_FREE + f.cells)

/-- A frame goes into receive buffers `l` in ring order (R540); the answer is the side and address of a fault. -/
def Hw.vpFill (h : Hw) (n head : Nat) (f : HeldFrame) : Nat → List (List Nat) → List Byte → Option (Nat × Nat) × Hw
  | _, [], _ => (none, h)
  | i, d :: t, bs =>
    let part := bs.take (dscLen d)
    let rest := bs.drop (dscLen d)
    let at_ := h.vpAddr n 4 + 16 * ((head + i) % 2 ^ h.vpRing n)
    match h.vpWrite n (dscAddr d) part with
    | (some x, h) => (some (3, x), h)
    | (none, h) =>
      let w2 := dscLen d + f.tci.getD 0 * 0x1_0000
      let w3 := 2 ^ 31 + (if t.isEmpty then 2 ^ 30 else 0) + (if f.tci.isSome then 2 ^ 29 else 0) + part.length
      match h.vpWrite n (at_ + 8) (leBytes 4 w2 ++ leBytes 4 w3) with
      | (some x, h) => (some (2, x), h)
      | (none, h) => Hw.vpFill h n head f (i + 1) t rest

/-- Held frames go into the receive ring in arrival order while the port runs and descriptors for the whole frame are there
(R540). -/
def Hw.vpDrain (h : Hw) (n : Nat) (far : List (Nat × Byte)) : Nat → Hw
  | 0 => h
  | fuel + 1 =>
    match (h.vp n).held with
    | [] => h
    | f :: _ =>
      if (h.vp n).state ≠ 1 then h
      else
        let head := h.get (VPT_RXDB n) 31 16
        let room := (h.get (VPT_RXDB n) 15 0 + 0x1_0000 - head) % 0x1_0000
        let enough := fun (l : List (List Nat)) => decide (f.bytes.length ≤ (l.map dscLen).sum) && !l.isEmpty
        match h.vpDescs n (h.vpAddr n 4) head far enough room [] with
        | (.error x, h) => h.vpFault n 2 x
        | (.ok l, h) =>
          if !enough l then h
          else
            match h.vpFill n head f 0 l f.bytes with
            | (some (side, x), h) => h.vpFault n side x
            | (none, h) =>
              let h := (h.put (VPT_RXDB n) 31 16 (head + l.length)).vpDropHeld n f
              let h := (h.vpCount n 2).vpCount n 3 (f.bytes.length + 4)
              (h.vpCompleted n).vpDrain n far fuel

/-- VLAN of a frame (without FCS): its tag, if any, and its VID, an untagged one having the host port's (R539). -/
def Hw.vpVidOf (h : Hw) (host : Nat) (b : List Byte) : Option Nat × Nat :=
  if beNat (slice b 12 2) = 0x8100 then
    let tci := beNat (slice b 14 2)
    (some tci, if tci % 4096 = 0 then h.get (SWC_PORT host) 11 0 else tci % 4096)
  else (none, h.get (SWC_PORT host) 11 0)

/-- A port's filter matches a frame (R539). -/
def Hw.vpMatches (h : Hw) (n : Nat) (b : List Byte) : Bool :=
  let dst := beNat (slice b 0 6)
  let vid := (h.vpVidOf (vpHost n) b).2
  let bc := decide (dst = 2 ^ 48 - 1)
  let mc := decide (dst / 2 ^ 40 % 2 = 1) && !bc
  (h.vp n).state != 0 && !(h.vp n).leaving && (h.vpVid n == vid || h.vpBit n 30) &&
    (decide (dst = h.vpAddr n 6) || (decide (h.vpAddr n 8 ≠ 0) && decide (dst = h.vpAddr n 8)) ||
      (bc && h.vpBit n 26) || (mc && h.vpBit n 27) || h.vpBit n 28)

/-- The ports of a host port whose filter matches a frame. -/
def Hw.vpTakers (h : Hw) (host : Nat) (b : List Byte) : List Nat :=
  (h.vpt.ports.map (fun p => p.1)).filter (fun n => decide (vpHost n = host) && h.vpMatches n b)

/-- A frame reaches a port (R539 to R541). -/
def Hw.vpDeliver (h : Hw) (n : Nat) (b : List Byte) (far : List (Nat × Byte)) : Hw :=
  let tag := (h.vpVidOf (vpHost n) b).1
  let strip := h.vpBit n 29 && (match tag with | some t => decide (t % 4096 = h.vpVid n) | none => false)
  let bytes := if strip then b.take 12 ++ b.drop 16 else b
  let c := cellsOf bytes.length
  let len := b.length + 4
  if !h.vpHolds n 11 len then h.vpCount n 5
  else if (h.vp n).share < (h.vp n).use + c ∨ h.rd VPT_FREE < c then (h.vpCount n 4).vpEvent n 5
  else
    let h := (h.vpTake n 0 len).wr VPT_FREE (h.rd VPT_FREE - c)
    let f : HeldFrame := { bytes := bytes, tci := if strip then tag else none, cells := c }
    let x := { h.vp n with held := (h.vp n).held ++ [f] }
    let h := h.setVp n { x with peak := max x.peak x.use }
    h.vpDrain n far (x.held.length)

/-- A frame of a host port to the ports that take it; `none` where no port does. -/
def Hw.vpDeliverAll (h : Hw) (l : List Nat) (b : List Byte) (far : List (Nat × Byte)) : Hw :=
  l.foldl (fun (h : Hw) n => h.vpDeliver n b far) h

/-- `DONE` and the status go back to the descriptors of a transmit frame: the address that faulted, if one did (R537). -/
def Hw.vpTxBack (h : Hw) (n descs status : Nat) : Option Nat × Hw :=
  let head := h.get (VPT_TXDB n) 31 16
  (List.range descs).foldl (fun (s : Option Nat × Hw) i =>
    if s.1.isSome then s
    else s.2.vpWrite n (s.2.vpAddr n 2 + 16 * ((head + i) % 2 ^ s.2.vpRing n) + 12) (leBytes 4 (2 ^ 31 + status * 2 ^ 28)))
    (none, h)

/-- The head passes the descriptors of a transmit frame, which complete. -/
def Hw.vpTxPast (h : Hw) (n descs : Nat) (irq : Bool) : Hw :=
  let h := h.put (VPT_TXDB n) 31 16 (h.get (VPT_TXDB n) 31 16 + descs)
  if irq then h.vpCompleted n else h

/-- The descriptors of a refused transmit frame complete with a status (R537). -/
def Hw.vpTxDone (h : Hw) (n descs status : Nat) (irq : Bool) : Hw :=
  match h.vpTxBack n descs status with
  | (some x, h) => h.vpFault n 0 x
  | (none, h) => h.vpTxPast n descs irq

/-- A gathered frame is handed on (R538): to the other ports of its host port that take it, and to the switch core unless it
is a unicast frame so delivered. Its descriptors are written back first: no byte has left the module when that write faults
(R548). -/
def Hw.vpHandOn (h : Hw) (n : Nat) (w : TxWait) (far : List (Nat × Byte)) : Hw :=
  match h.vpTxBack n w.descs 0 with
  | (some x, h) => h.vpFault n 0 x
  | (none, h) =>
    let len := w.bytes.length + 4
    let h := ((((h.vpTake n len 0).vpUnwait n).vpCount n 0).vpCount n 1 len)
    let l := (h.vpTakers (vpHost n) w.bytes).filter (fun x => x != n)
    let group := decide (beNat (slice w.bytes 0 1) % 2 = 1)
    let h := if l.isEmpty then h else h.vpCount n 7
    let h := h.vpDeliverAll l w.bytes far
    let h := if l.isEmpty || group then h.hand (vpHost n) w.bytes else h
    h.vpTxPast n w.descs w.irq

/-- The next transmit frame is gathered and checked (R537, R538); `now` hands it on whatever its bucket holds (R547). -/
def Hw.vpGather (h : Hw) (n : Nat) (far : List (Nat × Byte)) (now : Bool) : Hw :=
  let head := h.get (VPT_TXDB n) 31 16
  let room := (h.get (VPT_TXDB n) 15 0 + 0x1_0000 - head) % 0x1_0000
  let eop := fun (l : List (List Nat)) => match l.getLast? with | some d => decide (fld (d.getD 2 0) 16 16 = 1) | none => false
  match h.vpDescs n (h.vpAddr n 2) head far eop room [] with
  | (.error x, h) => h.vpFault n 0 x
  | (.ok l, h) =>
    if !eop l then h
    else
      let irq := l.any (fun d => fld (d.getD 2 0) 17 17 == 1)
      let total := (l.map dscLen).sum
      if total = 0 then h.vpTxDone n l.length 4 irq
      else if h.get SWC_MAX_FRAME 13 0 < max total 60 + 4 then h.vpTxDone n l.length 3 irq
      else
        let r := l.foldl (fun (s : Except Nat (List Byte) × Hw) d =>
          match s.1 with
          | .error _ => s
          | .ok bs =>
            match s.2.vpRead n (dscAddr d) (dscLen d) far with
            | (.error x, h) => (.error x, h)
            | (.ok x, h) => (.ok (bs ++ x), h)) (.ok [], h)
        match r with
        | (.error x, h) => h.vpFault n 1 x
        | (.ok bs, h) =>
          let bs := padFrame bs
          let src := beNat (slice bs 6 6)
          let tagged := decide (beNat (slice bs 12 2) = 0x8100)
          if h.vpBit n 25 && src != h.vpAddr n 6 && (src != h.vpAddr n 8 || h.vpAddr n 8 == 0) then
            ((h.vpCount n 6).vpEvent n 6).vpTxDone n l.length 1 irq
          else if tagged && !h.vpBit n 30 then h.vpTxDone n l.length 2 irq
          else
            let bs :=
              if h.vpBit n 29 && !tagged then
                bs.take 12 ++ beBytes 2 0x8100 ++ beBytes 2 (fld (h.vpWord n 1) 30 28 * 0x2000 + h.vpVid n) ++ bs.drop 12
              else bs
            let w : TxWait := { bytes := bs, descs := l.length, irq := irq }
            if now || h.vpHolds n 10 (bs.length + 4) then h.vpHandOn n w far else h.setVp n { h.vp n with wait := some w }

end Sys2Proof.Machine
end

