-- ==== Sys2Proof/Machine/VirtualPorts.lean ====
section
/-! DEFINITION. The commands of the virtual ports (R534 to R553) and the end of the Reeve's epoch (R502, R504, R543). -/

namespace Sys2Proof.Machine

/-- A tail write of a port (R536): refused as bad where it would leave the ring. -/
def Hw.vpDoorbell (h : Hw) (n : Nat) (tx : Bool) (v : Nat) (far : List (Nat × Byte)) : Hw :=
  let k := if tx then VPT_TXDB n else VPT_RXDB n
  let size := if h.vpRing n = 0 then 0 else 2 ^ h.vpRing n
  if size < (v % 0x1_0000 + 0x1_0000 - h.get k 31 16) % 0x1_0000 then (h.sat VPT_BAD_DB).vpEvent n 7
  else
    let h := h.put k 15 0 v
    if tx || !h.vptOn then h else h.vpDrain n far (h.vp n).held.length

/-- TX_DOORBELL (R536). -/
def execTxDoorbell (n : Fin 1024) (v : Word) (a : Attr) (s : State) : Host.Outcome State Fault Refusal :=
  s.run fun h => h.busWrite (VPT_TXDB n) a fun h => h.vpDoorbell n true v.toNat []

/-- RX_DOORBELL (R536, R540): frames that waited for buffers are written. -/
def execRxDoorbell (n : Fin 1024) (v : Word) (far : List (Nat × Byte)) (a : Attr) (s : State) :
    Host.Outcome State Fault Refusal :=
  s.run fun h => h.busWrite (VPT_RXDB n) a fun h => h.vpDoorbell n false v.toNat far

/-- VP_FRAME_GATHERED (R537, R538, R541): the next frame of a running port. -/
def execVpFrameGathered (n : Fin 1024) (far : List (Nat × Byte)) (s : State) : Host.Outcome State Fault Refusal :=
  s.run fun h =>
    if !h.vptOn || (h.vp n).state != 1 || (h.vp n).leaving || (h.vp n).wait.isSome then h
    else h.vpGather n far false

/-- TX_BUCKET_HOLDS_LENGTH (R541): the bucket holds the length of the frame that waited, and the frame is handed on. -/
def execTxBucketHoldsLength (n : Fin 1024) (far : List (Nat × Byte)) (s : State) : Host.Outcome State Fault Refusal :=
  s.run fun h =>
    match (h.vp n).wait with
    | none => h
    | some w => if h.vptOn && h.vpHolds n 10 (w.bytes.length + 4) then h.vpHandOn n w far else h

/-- VP_DELIVER (R539, R540): a frame from the switch core on P36 or P37 (`host` 0 or 1), without FCS. -/
def execVpDeliver (host : Fin 2) (b : List Byte) (far : List (Nat × Byte)) (s : State) : Host.Outcome State Fault Refusal :=
  s.run fun h =>
    if !h.vptOn then h
    else
      let l := h.vpTakers (36 + host) b
      if l.isEmpty then h.sat (VPT_NOMATCH host) else h.vpDeliverAll l b far

/-- The coalescing time of a held notification is over (R542). -/
def Hw.vpRings (h : Hw) (n : Nat) : Bool :=
  (h.vp n).irq && (h.vp n).state == 1 && decide ((h.vp n).irqAt + fld (h.vpWord n 1) 15 0 * 1200 ≤ h.now)

/-- VP_NOTIFY (R542): the coalescing time of a running port ends. -/
def execVpNotify (n : Fin 1024) (s : State) : Host.Outcome State Fault Refusal :=
  s.run fun h => if h.vptOn && h.vpRings n then h.vpNotify n else h

/-- Sum of `SHARE_MIN` over enabled ports other than `n` (R534). -/
def Hw.vpGuaranteed (h : Hw) (n : Nat) : Nat :=
  ((h.vpt.ports.filter (fun p => p.1 != n && p.2.state != 0)).map (fun p => fld (h.vpWord p.1 12) 31 16)).sum

/-- Bits that an entry word defines (Table 14.1). -/
def vpWordMask (w : Nat) : Nat :=
  match w with
  | 0 => 0xFF0F_03FF
  | 1 => 0x7FFF_FFFF
  | 3 => 0xFFFF
  | 5 => 0xFFFF
  | 7 => 0xFFFF
  | 9 => 0xFFFF
  | 14 => 0x7_FFFF
  | _ => 0xFFFF_FFFF

/-- Both rings start anew (R546, R549). -/
def Hw.vpRingsZero (h : Hw) (n : Nat) : Hw := (h.wr (VPT_TXDB n) 0).wr (VPT_RXDB n) 0

/-- The error code of a refused write of entry word `w` (R534, R535, R546). -/
def Hw.vpRefuses (h : Hw) (n w v : Nat) : Option Nat :=
  let x := h.vp n
  let old := h.vpWord n w
  let still := x.state == 2 || x.state == 3
  let off := x.state == 0
  let empty := decide (h.get (VPT_TXDB n) 31 16 = h.get (VPT_TXDB n) 15 0)
  let hostOnly :=
    if w = 0 then setFld (setFld (setFld v 31 31 0) 19 16 0) 9 0 0 != setFld (setFld (setFld old 31 31 0) 19 16 0) 9 0 0
    else w == 1 || (6 ≤ w && w ≤ 9)
  let ringOnly := if w = 0 then fld v 19 16 != fld old 19 16 || fld v 9 0 != fld old 9 0 else (2 ≤ w && w ≤ 5) || 13 ≤ w
  let resize := if w = 0 then fld v 19 16 != fld old 19 16 && fld v 19 16 != 0 else 2 ≤ w && w ≤ 5
  let rate := w == 10 || w == 11
  if (w = 0 ∧ (fld v 19 16 = 1 ∨ fld v 19 16 = 2)) ∨ (w = 1 ∧ (fld v 27 16 = 0 ∨ fld v 27 16 = 4095)) ∨
      ((w = 2 ∨ w = 4) ∧ v % 64 ≠ 0) ∨
      (rate = true ∧ (1024 < fld v 15 0 ∨ (fld v 15 0 = 0 ∧ fld v 31 16 ≠ 0))) ∨
      (w = 12 ∧ fld v 15 0 < fld v 31 16) then some 0x0101
  else if !off && (x.leaving || hostOnly || (ringOnly && !still && !(w == 0 && fld v 19 16 == 0))) then some 0x0100
  else if !off && resize && !empty then some 0x0100
  else
    let starts := w == 0 && off && fld v 31 31 == 1 && fld v 19 16 != 0
    let min_ := if w = 12 then fld v 31 16 else fld (h.vpWord n 12) 31 16
    let grows := starts || (w == 12 && !off && fld old 31 16 < min_)
    if grows && 15360 < h.vpGuaranteed n + min_ then some 0x0102 else none

/-- A write of entry word `w` of the selected port (R533 to R535, R544 to R546). A new `SHARE_MIN` or `SHARE_MAX` bounds the
present share at once (R544; assumption log, entry 160). -/
def Hw.vpWrite_ (h : Hw) (w v : Nat) (a : Attr) : Hw :=
  let n := h.get VPT_SEL 9 0
  let v := v &&& vpWordMask w
  match h.vpRefuses n w v with
  | some c => h.refuse (VPT_E w) c a
  | none =>
    let old := h.vpWord n w
    let h := if w = 10 ∨ w = 11 then h.vpTake n 0 0 else h
    let x := h.vp n
    let h := if w = 10 ∧ x.wait.isSome then h.setVp n { x with oldTx := some (x.oldTx.getD old) } else h
    let h := { h with vpt := { h.vpt with words := h.vpt.words.set (16 * n + w) v } }
    let x := h.vp n
    let on := fld v 31 31 = 1 ∧ fld v 19 16 ≠ 0
    if w = 0 then
      if x.state = 0 then
        if on then
          let full := fun i => ((fld (h.vpWord n i) 15 0 * 1024 * 9600 : Nat) : Int)
          let y : VpSt := { x with state := 1, cause := 0, side := 0, share := fld (h.vpWord n 12) 31 16, txTok := full 10, rxTok := full 11, tokAt := h.now }
          h.setVp n y
        else h
      else if !on then h.setVp n { x with leaving := true, oldRing := some (fld old 19 16) }
      else if fld v 19 16 ≠ fld old 19 16 then h.vpRingsZero n
      else h
    else if 2 ≤ w ∧ w ≤ 5 ∧ x.state ≠ 0 then h.vpRingsZero n
    else if w = 12 ∧ x.state ≠ 0 then h.setVp n { x with share := max (fld v 31 16) (min (fld v 15 0) x.share) }
    else h

/-- PORT_ENABLE (R545): a write of entry word 0. -/
def execPortEnable (v : Word) (a : Attr) (s : State) : Host.Outcome State Fault Refusal :=
  s.run fun h => h.busWrite (VPT_E 0) a fun h => h.vpWrite_ 0 v.toNat a

/-- VP_RING_RESIZE (R546): a write of entry word 0 or of a ring base, words 2 to 5. -/
def execVpRingResize (w : Fin 16) (v : Word) (a : Attr) (s : State) : Host.Outcome State Fault Refusal :=
  s.run fun h => h.busWrite (VPT_E w) a fun h => h.vpWrite_ w v.toNat a

/-- A port's held frames are discarded and their cells return. -/
def Hw.vpDiscard (h : Hw) (n : Nat) : Hw := (h.vp n).held.foldl (fun (h : Hw) f => h.vpDropHeld n f) h

/-- PORT_REMOVED (R545). -/
def execPortRemoved (n : Fin 1024) (far : List (Nat × Byte)) (s : State) : Host.Outcome State Fault Refusal :=
  s.run fun h =>
    if !(h.vp n).leaving then h
    else
      let h := match (h.vp n).wait with | some w => h.vpHandOn n w far | none => h
      let h := h.vpDiscard n
      let h := if (h.vp n).irq then h.vpNotify n else h
      let x := h.vp n
      (h.setVp n { x with state := 0, cause := 0, side := 0, leaving := false, oldRing := none, oldTx := none, share := 0, peak := 0, wait := none }).vpEvent n 4

/-- VP_FAULT (R548): an access of a port faults: the side (Table 14.7) and the address. -/
def execVpFault (n : Fin 1024) (side : Fin 4) (addr : BitVec 48) (s : State) : Host.Outcome State Fault Refusal :=
  s.run fun h => if (h.vp n).state = 1 then h.vpFault n side addr.toNat else h

/-- A command of `VPT_CMD` (Table 14.5): `f` answers the result. -/
def Hw.vpCommand (h : Hw) (op : Nat) (v : Word) (a : Attr) (f : Nat → Hw → Nat × Hw) : Hw :=
  h.busWrite VPT_CMD a fun h =>
    if h.bit VPT_CMD 27 then h.refuse VPT_CMD 0x0103 a
    else
      let n := fld v.toNat 9 0
      let r := f n (h.wr VPT_CMD (op * 2 ^ 28 + n))
      r.2.put VPT_CMD 26 24 r.1

/-- FREEZE (R547): `gathering` says that a frame is being gathered when the command arrives; it still goes out. -/
def execFreeze (v : Word) (gathering : Bool) (far : List (Nat × Byte)) (a : Attr) (s : State) :
    Host.Outcome State Fault Refusal :=
  s.run fun h => h.vpCommand 1 v a fun n h =>
    if (h.vp n).state ≠ 1 ∨ (h.vp n).leaving = true then (1, h)
    else
      let h := match (h.vp n).wait with
        | some w => h.vpHandOn n w far
        | none => if gathering then h.vpGather n far true else h
      if (h.vp n).state ≠ 1 then (1, h) else (0, (h.setVp n { h.vp n with state := 2, cause := 0 }).vpEvent n 0)

/-- THAW (R548): the held notification goes out first, then held frames go into the ring. -/
def execThaw (v : Word) (far : List (Nat × Byte)) (a : Attr) (s : State) : Host.Outcome State Fault Refusal :=
  s.run fun h => h.vpCommand 2 v a fun n h =>
    if ((h.vp n).state ≠ 2 ∧ (h.vp n).state ≠ 3) ∨ (h.vp n).leaving = true then (1, h)
    else
      let h := h.setVp n { h.vp n with state := 1, cause := 0, side := 0 }
      let h := if (h.vp n).irq then h.vpNotify n else h
      (0, h.vpDrain n far (h.vp n).held.length)

/-- Whole bytes of a bucket, as a signed number of 32 bits. -/
def tokenWord (t : Int) : Nat := unsgn 32 (t / 9600)

/-- The state block of a port (Table 14.3). -/
def Hw.vpBlock (h : Hw) (n : Nat) : List Byte :=
  let x := h.vp n
  let rings := fun k => leBytes 2 (h.get k 31 16) ++ leBytes 2 (h.get k 15 0)
  let body := leBytes 4 0x4253_5056 ++ leBytes 4 0x0001_0001 ++ leBytes 4 n ++ leBytes 4 0 ++
    (List.range 16).flatMap (fun w => leBytes 4 (h.vpWord n w)) ++ rings (VPT_TXDB n) ++ rings (VPT_RXDB n) ++
    leBytes 4 (tokenWord (h.vpTokens n 10)) ++ leBytes 4 (tokenWord (h.vpTokens n 11)) ++
    (List.range 8).flatMap (fun k => leBytes 8 (x.cnt.get k)) ++ leBytes 4 (if x.irq then 1 else 0) ++ List.replicate 88 0
  body ++ leBytes 4 (crc32 body)

/-- Address of the state block. -/
def Hw.vpBlockAddr (h : Hw) : Nat := 2 ^ 32 * h.get VPT_BLK_HI 7 0 + h.rd VPT_BLK_LO

/-- Attributes of a block access: the world of the command write (R550). -/
def vpBlockAttr (a : Attr) : Attr := { secure := a.secure, mid := 0x50, vmid := a.vmid }

/-- SAVE (R550). -/
def execSave (v : Word) (a : Attr) (s : State) : Host.Outcome State Fault Refusal :=
  s.run fun h => h.vpCommand 3 v a fun n h =>
    if (h.vp n).state ≠ 2 then (1, h)
    else
      match h.memWrite h.vpBlockAddr (h.vpBlock n) (vpBlockAttr a) with
      | (false, h) => (3, h)
      | (true, h) => (0, h.vpEvent n 2)

/-- A saved block `b` taken into port `n` (R551, Table 14.3): the entry words, the ring positions, the tokens, the counters and
the held notification. With a `RING` of 0 the port is DISABLED (R19, R534). -/
def Hw.vpRestored (h : Hw) (n : Nat) (b : List Byte) : Hw :=
  let w := fun o => leNat (slice b o 4)
  let word := fun i => w (0x10 + 4 * i) &&& vpWordMask i
  let words := (List.range 16).foldl (fun (t : Tab) i => t.set (16 * n + i) (if i = 0 then setBit (word 0) 31 true else word i)) h.vpt.words
  let cnt := (List.range 8).foldl (fun (t : Tab) k => t.set k (leNat (slice b (0x60 + 8 * k) 8))) []
  let x : VpSt := { state := if fld (word 0) 19 16 = 0 then 0 else 2, irqAt := h.now, cause := 0, share := fld (word 12) 31 16, txTok := sgn 32 (w 0x58) * 9600, rxTok := sgn 32 (w 0x5C) * 9600, tokAt := h.now, irq := fld (w 0xA0) 0 0 == 1, cnt := cnt }
  let h := { h with vpt := { h.vpt with words := words } }.setVp n x
  let ring := fun o => fld (w o) 15 0 * 0x1_0000 + fld (w o) 31 16
  (h.wr (VPT_TXDB n) (ring 0x50)).wr (VPT_RXDB n) (ring 0x54)

/-- RESTORE (R551). -/
def execRestore (v : Word) (a : Attr) (s : State) : Host.Outcome State Fault Refusal :=
  s.run fun h => h.vpCommand 4 v a fun n h =>
    if (h.vp n).state ≠ 0 then (1, h)
    else
      match h.memRead h.vpBlockAddr 256 (vpBlockAttr a) with
      | (none, h) => (3, h)
      | (some b, h) =>
        let w := fun o => leNat (slice b o 4)
        if w 0 ≠ 0x4253_5056 ∨ fld (w 4) 15 0 ≠ 1 ∨ w 0xFC ≠ crc32 (b.take 0xFC) then (2, h)
        else if 15360 < h.vpGuaranteed n + fld (w 0x40 &&& vpWordMask 12) 31 16 then (2, h)
        else (0, (h.vpRestored n b).vpEvent n 3)

/-- CLEAR_COUNTERS (R552, Table 14.5). -/
def execClearCounters (v : Word) (a : Attr) (s : State) : Host.Outcome State Fault Refusal :=
  s.run fun h => h.vpCommand 5 v a fun n h => (0, h.setVp n { h.vp n with cnt := [] })

/-- A Function Level Reset on a function's ports (R549). -/
def Hw.vpFlr (h : Hw) (v : Nat) : Hw :=
  (h.vpt.ports.map (fun p => p.1)).foldl (fun (h : Hw) n =>
    if (h.vp n).state = 0 ∨ h.vpFunction n ≠ some v then h
    else
      let h := (h.vpDiscard n).vpUnwait n
      let h := (h.setVp n { h.vp n with state := 2, cause := 2, irq := false }).vpRingsZero n
      h.vpEvent n 0) h

/-- The share of a port at the end of an epoch (R543): `on` are the enabled ports, `busy` those whose peak exceeded their
guarantee, `rest` the cells guaranteed to none. -/
def Hw.vpShareOf (h : Hw) (busy : List Nat) (rest n : Nat) : Nat :=
  let all := (busy.map (fun m => (h.vp m).peak)).sum
  let extra := if busy.contains n && all != 0 then rest * (h.vp n).peak / all else 0
  min (fld (h.vpWord n 12) 15 0) (fld (h.vpWord n 12) 31 16 + extra)

/-- Shares of the receive buffer at the end of an epoch (R543): the changes join the Reeve's queue. -/
def Hw.vpShares (h : Hw) : Hw :=
  let on := (h.vpt.ports.filter (fun p => p.2.state != 0)).map (fun p => p.1)
  let min_ := fun n => fld (h.vpWord n 12) 31 16
  let rest := 16384 - (on.map min_).sum
  let busy := on.filter (fun n => decide (min_ n < (h.vp n).peak))
  let shares := (on.map (fun n => (n, h.vpShareOf busy rest n))).filter (fun x => x.2 != (h.vp x.1).share)
  let age := if h.vpt.shares.isEmpty then 0 else h.vpt.sharesAge + 1
  on.foldl (fun (s : Hw) n => s.setVp n { s.vp n with peak := (s.vp n).use }) { h with vpt := { h.vpt with shares := shares, sharesAge := age } }

/-- One share change goes into effect and into the log (R509, R543), within the bounds that word 12 now gives. -/
def Hw.vpShareTaken (h : Hw) (n new : Nat) : Hw :=
  let x := h.vp n
  let new := max (fld (h.vpWord n 12) 31 16) (min (fld (h.vpWord n 12) 15 0) new)
  if x.state = 0 ∨ new = x.share then h else (h.setVp n { x with share := new }).reeveLog 6 7 n x.share new

/-- Share changes are served after the moves: when no move can be served in this epoch, or when they are ripe (R508). -/
def Hw.serveShares (h : Hw) : Hw :=
  let idle := h.nextMove.isNone || decide (h.get RVE_MIG_BW 7 0 ≤ h.mem.moved)
  if idle || decide (h.get RVE_RIPEN 7 0 ≤ h.vpt.sharesAge) then
    h.vpt.shares.foldl (fun (h : Hw) x => h.vpShareTaken x.1 x.2) { h with vpt := { h.vpt with shares := [], sharesAge := 0 } }
  else h

/-- UNIT_MOVE (R505 to R508): the next move, after which share changes may be served. -/
def execUnitMove (frame : Fin 512) (o : MoveEnd) (s : State) : Host.Outcome State Fault Refusal :=
  s.run fun h => if h.live pgRVE then (h.unitMove frame o).serveShares else h

/-- The present epoch is over (R502). -/
def Hw.epochOver (h : Hw) : Bool := h.live pgRVE && decide (h.mem.epochAt + h.get RVE_POLICY 31 24 * 1_200_000 ≤ h.now)

/-- EPOCH_END (R502, R504, R543): accesses counted to each frame, sampled accesses to T1 units, T1 utilisation in %. -/
def execEpochEnd (heat : List (Fin 512 × Nat)) (samples : List (BitVec 18 × Nat)) (util : Fin 101) (s : State) :
    Host.Outcome State Fault Refusal :=
  s.run fun h =>
    if !h.epochOver then h
    else
      let h := { h with mem := { h.mem with epochAt := h.now } }
      let h := h.epochPlan (heat.map (fun x => (x.1.val, x.2))) (samples.map (fun x => (x.1.toNat, x.2))) util
      (if h.live pgVPT then h.vpShares.serveShares else h).rveSync

end Sys2Proof.Machine
end

