-- ==== Sys2Proof/Machine/Span.lean ====
section
/-! DEFINITION. The Span bridge (R465 to R474, R481 to R491): the link, outbound windows, the error log, functions and their
resets. Inbound requests stand in a later file, since they reach every register page. -/

namespace Sys2Proof.Machine

/-- Fields of an outbound window (Table 12.2). -/
def Hw.owEn (h : Hw) (w : Nat) : Bool := h.bit (SPN_OW w 0) 31 && decide (h.get (SPN_OW w 0) 21 16 ≠ 0)
def Hw.owSize (h : Hw) (w : Nat) : Nat := 2 ^ h.get (SPN_OW w 0) 21 16
def Hw.owLocal (h : Hw) (w : Nat) : Nat := 0x1000 * h.get (SPN_OW w 1) 31 12
def Hw.owPci (h : Hw) (w : Nat) : Nat := 0x1000 * h.get (SPN_OW w 2) 31 12 + 2 ^ 32 * h.rd (SPN_OW w 3)

/-- The window of an outbound offset (R469). -/
def Hw.owOf (h : Hw) (o : Nat) : Option Nat :=
  (List.range 16).find? (fun w => h.owEn w && decide (h.owLocal w ≤ o) && decide (o < h.owLocal w + h.owSize w))

/-- `SPN_OUT_OPEN` follows the open transactions. -/
def Hw.spanSync (h : Hw) : Hw := h.put SPN_OUT_OPEN 6 0 h.span.open_.length

/-- An outbound transaction ends. -/
def Hw.spanAnswer (h : Hw) (u : SpanUser) (err : Bool) (data : List Byte) : Hw :=
  let h := { h with span := { h.span with ans := some { user := u, err := err, data := data } } }
  if err then h.errResp else h.answer (leNat (data.take 4))

/-- An error reaches the partner as an error message in the endpoint role (R487); the spec gives the message no contents. -/
def Hw.spanReport (h : Hw) : Hw := if h.spanRoot || !h.spanUp then h else h.spanOut [{ op := 5 }]

/-- An open transaction fails (R483). -/
def Hw.spanFails (h : Hw) (x : SpanOpen) (code : Nat) : Hw :=
  ((h.capture pgSPN code x.user.addr x.user.attr (x.win * 2 ^ 24 + x.tag % 256)).raise pgSPN 2).spanAnswer x.user true []

/-- An entry of the error log (R484, Table 12.5). -/
def Hw.spanLog (h : Hw) (inbound : Bool) (win count code addr rid tag : Nat) : Hw :=
  let e := h.get SPN_ELOG_WR 15 0
  let unread := (e + 0x1_0000 - h.get SPN_ELOG_RD 15 0) % 0x1_0000
  let i := e % 32
  let h := h.wr (SPN_ELOG i 0) ((if inbound then 2 ^ 31 else 0) + win * 2 ^ 24 + min count 255 * 2 ^ 16 + code)
  let h := ((h.wr (SPN_ELOG i 1) (addr % 2 ^ 32)).wr (SPN_ELOG i 2) (addr / 2 ^ 32)).wr (SPN_ELOG i 3) (rid * 0x1_0000 + tag)
  ((h.incF SPN_ELOG_WR 15 0).raise pgSPN 3).raiseIf (decide (32 ≤ unread)) pgSPN 4

/-- A tag that no open transaction holds: the one proposed, else the next one up (R466: 64 of them). -/
def Hw.spanTag (h : Hw) (t : Nat) : Option Nat :=
  ((List.range 64).map (fun i => (t + i) % 64)).find? (fun t => !h.span.open_.any (fun x => x.tag == t))

/-- Waiting requests that may go (R471, R481): a posted write needs the partner's credits; a request that is answered needs
a tag, stays behind every posted write, and nothing passes an earlier request of its window that waits. -/
def Hw.spanPump (h : Hw) (credit : Bool) (tag : Nat) : Hw :=
  let r := h.span.wait.foldl (fun (s : List SpanWait × Hw) x =>
    let behind := s.1.any (fun y => y.win == x.win)
    match x.user with
    | none => if credit && !behind then (s.1, s.2.spanOut [x.tlp]) else (s.1 ++ [x], s.2)
    | some u =>
      if behind || s.1.any (fun y => y.user.isNone) then (s.1 ++ [x], s.2)
      else
        match s.2.spanTag tag with
        | none => (s.1 ++ [x], s.2)
        | some t =>
          let h := s.2.spanOut [{ x.tlp with tag := t }]
          (s.1, { h with span := { h.span with open_ := h.span.open_ ++ [{ tag := t, win := x.win, user := u, sentAt := h.now }] } })) ([], h)
  { r.2 with span := { r.2.span with wait := r.1 } }.spanSync

/-- A zero-length read (R473, R474). -/
def Hw.owFlush (h : Hw) (w addr : Nat) : Tlp :=
  { op := 1, addr := addr, relaxed := h.bit (SPN_OW w 0) 27, noSnoop := h.bit (SPN_OW w 0) 26, tc := h.get (SPN_OW w 0) 2 0 }

/-- An access of the outbound region after the region gate (R469 to R474): `o` its offset, a write's bytes or `none` for a
read of `n`. -/
def Hw.outbound (h : Hw) (addr : Nat) (o n : Nat) (data : Option (List Byte)) (a : Attr) (credit : Bool) (tag : Nat) : Hw :=
  let u : SpanUser := { addr := addr, attr := a, len := n }
  match h.owOf o with
  | none => ((h.capture pgSPN 0x0103 addr a).spanAnswer u true [])
  | some w =>
    if a.spec && !h.bit (SPN_OW w 0) 29 then (h.capture pgSPN 0x0004 addr a).spanAnswer u true []
    else if !h.spanUp then h.spanFails { tag := 0, win := w, user := u } 0x0113
    else
      let at_ := h.owPci w + (o - h.owLocal w)
      let base : Tlp := { op := 0, addr := at_, len := n, relaxed := h.bit (SPN_OW w 0) 27, noSnoop := h.bit (SPN_OW w 0) 26, tc := h.get (SPN_OW w 0) 2 0 }
      let cfg := h.bit (SPN_OW w 0) 28
      let dev := o - h.owLocal w
      let typ1 := decide (fld dev 27 20 ≠ Config.secondaryBus.toNat)
      let new : List SpanWait :=
        match data with
        | none => [{ win := w, tlp := if cfg then { base with op := 3, addr := dev, typ1 := typ1 } else { base with op := 1 }, user := some u }]
        | some [] => [{ win := w, tlp := h.owFlush w (h.owPci w), user := some u }]
        | some bs =>
          if cfg then [{ win := w, tlp := { base with op := 2, addr := dev, data := bs, typ1 := typ1 }, user := some u }]
          else
            let wr : SpanWait := { win := w, tlp := { base with data := bs } }
            if h.bit (SPN_OW w 0) 30 then [wr, { win := w, tlp := h.owFlush w at_, user := some u }] else [wr]
      let posted := new.all (fun x => x.user.isNone)
      let h := { h with span := { h.span with wait := h.span.wait ++ new } }
      let h := if posted then h.spanAnswer u false [] else h
      h.spanPump credit tag

/-- OUTBOUND_ACCESS (R469 to R474, R558): a read or a write within one 64-byte line. `credit` says that the partner's credits let
posted writes go; `tag` is the tag the bridge takes. -/
def execOutboundAccess (o : BitVec 32) (n : Fin 65) (data : Option (List Byte)) (credit : Bool) (tag : Fin 64) (a : Attr)
    (s : State) : Host.Outcome State Fault Refusal :=
  s.run fun h =>
    let addr := 0x01_0000_0000 + o.toNat
    if !h.regionOk addr data.isSome a then (h.gateRefused addr a).errResp
    else if !h.live pgSPN then (h.capture pgPWR 0x0102 addr a).errResp
    else h.outbound addr o.toNat n data a credit tag

/-- SPN_FLUSH (R474): a write of length 0 to window `w`. -/
def execSpnFlush (w : Fin 16) (credit : Bool) (tag : Fin 64) (a : Attr) (s : State) : Host.Outcome State Fault Refusal :=
  s.run fun h => h.busWrite (SPN_FLUSH w) a fun h =>
    let addr := 0x01_0000_0000 + h.owLocal w
    if h.owEn w then h.outbound addr (h.owLocal w) 0 (some []) a credit tag
    else (h.capture pgSPN 0x0103 addr a).errResp

/-- The completion timeout of an open transaction has passed (R485). -/
def Hw.cplLate (h : Hw) (x : SpanOpen) : Bool := decide (x.sentAt + h.get SPN_CFG 7 0 * 1_200_000 ≤ h.now)

/-- An open transaction fails for want of a completion (R485, R487). -/
def Hw.cplTimeout (h : Hw) (x : SpanOpen) : Hw := (h.spanFails x 0x0112).spanReport

/-- COMPLETION_RX (R473, R483): a completion for a tag; one for no open request is discarded (R485, R490), and one that comes
after the timeout finds its request failed. -/
def execCompletionRx (tag : Fin 256) (c : SpanCpl) (credit : Bool) (s : State) : Host.Outcome State Fault Refusal :=
  s.run fun h =>
    match h.span.open_.find? (fun x => x.tag == tag.val) with
    | none => h
    | some x =>
      let late := h.cplLate x
      let h := { h with span := { h.span with open_ := h.span.open_.erase x } }.spanSync
      let h :=
        if late then h.cplTimeout x
        else match c with
          | .success d => h.spanAnswer x.user false (slice d 0 x.user.len)
          | .unsupported => h.spanFails x 0x0110
          | .abort => h.spanFails x 0x0111
          | .poisoned => (h.spanFails x 0x0114).spanReport
      h.spanPump credit x.tag

/-- COMPLETION_TIMEOUT (R485): an open request has waited for `CPL_TO` milliseconds. -/
def execCompletionTimeout (tag : Fin 64) (credit : Bool) (s : State) : Host.Outcome State Fault Refusal :=
  s.run fun h =>
    match h.span.open_.find? (fun x => x.tag == tag.val) with
    | none => h
    | some x =>
      if h.cplLate x then
        ({ h with span := { h.span with open_ := h.span.open_.erase x } }.spanSync.cplTimeout x).spanPump credit x.tag
      else h

/-- The link goes down (R486); the spec does not say which state `LTSSM` then shows: a free one. -/
def Hw.spanDown (h : Hw) : Hw :=
  if !h.bit SPN_LINK 31 then h
  else
    let opens := h.span.open_
    let waits := h.span.wait
    let posted := (waits.filter (fun x => x.user.isNone)).length
    let first := (waits.find? (fun x => x.user.isNone))
    let h := { h with span := { h.span with open_ := [], wait := [] } }.spanSync
    let h := ((h.putBit SPN_LINK 31 false).putBit (STATUS pgSPN) 0 false)
    let r := h.freeWord
    let h := (r.2.put SPN_LINK 26 0 0).put SPN_LINK 5 0 r.1
    let h := opens.foldl (fun (h : Hw) x => h.spanFails x 0x0113) h
    let h := waits.foldl (fun (h : Hw) x => match x.user with | some u => h.spanFails { tag := 0, win := x.win, user := u } 0x0113 | none => h) h
    let h := match first with | some x => h.spanLog false x.win posted 0x0119 x.tlp.addr 0 0 | none => h
    h.raise pgSPN 1

/-- SPAN_LINK_DOWN (R486). -/
def execSpanLinkDown (s : State) : Host.Outcome State Fault Refusal := s.run fun h => h.spanDown

/-- The error code of a refused write of `SPN_CFG` (R467, Table 12.8). -/
def Hw.spanCfgRefuses (h : Hw) (v : Nat) : Option Nat :=
  let old := h.rd SPN_CFG
  let v := v &&& 0x8707_03FF
  let w := fld v 18 16
  if fld old 31 31 = 1 ∧ fld v 30 0 ≠ fld old 30 0 then some 0x0100
  else if fld v 26 24 = 0 ∨ 4 < fld v 26 24 ∨ (w ≠ 1 ∧ w ≠ 2 ∧ w ≠ 4) ∨ fld v 7 0 = 0 ∨ 64 < fld v 7 0 then some 0x0101
  else none

/-- What a write of `SPN_CFG` does: without `LINK_EN` no link stays up. -/
def Hw.spanCfgWrite (h : Hw) (v : Nat) (a : Attr) : Hw :=
  match h.spanCfgRefuses v with
  | some c => h.refuse SPN_CFG c a
  | none =>
    let h := h.storeReg SPN_CFG v
    if h.bit SPN_CFG 31 then h else h.spanDown

/-- SPAN_LINK_ENABLE (R467). -/
def execSpanLinkEnable (v : Word) (a : Attr) (s : State) : Host.Outcome State Fault Refusal :=
  s.run fun h => h.busWrite SPN_CFG a fun h => h.spanCfgWrite v.toNat a

/-- The link may train (R467). -/
def Hw.spanTrains (h : Hw) : Bool := h.live pgSPN && h.bit SPN_CFG 31 && (h.spanRoot || h.span.perst)

/-- SPAN_LINK_UP (R467): training ends at a speed (code less 1) and 2^`lanes` lanes within the limits of `SPN_CFG`. -/
def execSpanLinkUp (speed : Fin 4) (lanes : Fin 3) (s : State) : Host.Outcome State Fault Refusal :=
  s.run fun h =>
    if !h.spanTrains || h.bit SPN_LINK 31 || decide (h.get SPN_CFG 26 24 < speed.val + 1) || decide (h.get SPN_CFG 18 16 < 2 ^ lanes.val) then h
    else
      let r := h.freeWord
      let h := ((r.2.putBit SPN_LINK 31 true).put SPN_LINK 26 24 (speed.val + 1)).put SPN_LINK 18 16 (2 ^ lanes.val)
      ((h.put SPN_LINK 5 0 r.1).putBit (STATUS pgSPN) 0 true).raise pgSPN 0

/-- SPAN_PERST_N_CHANGE (R467): the land's level; a rise lets training start, a fall leaves no link up in the endpoint role. -/
def execSpanPerstNChange (level : Bool) (s : State) : Host.Outcome State Fault Refusal :=
  s.run fun h =>
    let h := { h with span := { h.span with perst := level } }
    if level || h.spanRoot then h else h.spanDown

/-- A function's ports are frozen and it refuses requests (R490). -/
def Hw.spanFlr (h : Hw) (v : Nat) : Hw :=
  let h := { h with span := { h.span with flr := file h.span.flr v h.now } }
  ((h.vpFlr v).put SPN_VF 7 0 v).raise pgSPN 6

/-- A Function Level Reset of a function is under way (R490: it ends within 100 ms). -/
def Hw.flrNow (h : Hw) (v : Nat) : Bool :=
  match find? h.span.flr v with
  | some t => decide (h.now < t + min Config.flrCycles 120_000_000)
  | none => false

/-- FLR (R490). -/
def execFlr (v : Fin 256) (s : State) : Host.Outcome State Fault Refusal :=
  s.run fun h =>
    if h.live pgSPN && !h.spanRoot && h.bit SPN_VF 31 && decide (v.val < h.get SPN_VF 24 16) then h.spanFlr v else h

/-- VF_CHANGE (R488, R490): the partner sets VF Enable and NumVFs; clearing VF Enable resets every function there was. -/
def execVfChange (en : Bool) (num : Fin 257) (s : State) : Host.Outcome State Fault Refusal :=
  s.run fun h =>
    if !h.live pgSPN || h.spanRoot then h
    else
      let was := h.bit SPN_VF 31
      let n := h.get SPN_VF 24 16
      let h := (h.putBit SPN_VF 31 en).put SPN_VF 24 16 num.val
      let h := if was && !en then each n (fun v h => h.spanFlr v) h else h
      h.raiseIf (was != en || n != num.val) pgSPN 7

/-- SPN_ELOG_RD_WRITE (R484). -/
def execSpnElogRdWrite (v : Word) (a : Attr) (s : State) : Host.Outcome State Fault Refusal :=
  s.run fun h => h.busWrite SPN_ELOG_RD a fun h => h.storeReg SPN_ELOG_RD v.toNat

/-- Two ranges share an element. -/
def overlaps (a n b m : Nat) : Bool := decide (a < b + m) && decide (b < a + n)

/-- The error code of a refused write of word `w` of outbound window `i` (R468). -/
def Hw.owRefuses (h : Hw) (i w v : Nat) : Option Nat :=
  let v := v &&& (match w with | 0 => 0xFC3F_0007 | 3 => 0xFFFF_FFFF | _ => 0xFFFF_F000)
  let old := h.rd (SPN_OW i w)
  let g := fun k => if k = w then v else h.rd (SPN_OW i k)
  let size := fld (g 0) 21 16
  let lo := fld (g 1) 31 12 * 0x1000
  let pci := fld (g 2) 31 12 * 0x1000 + 2 ^ 32 * g 3
  if h.owEn i && (if w = 0 then fld v 30 0 != fld old 30 0 else v != old) then some 0x0100
  else if size ≠ 0 ∧ (size < 12 ∨ 32 < size) then some 0x0101
  else if size ≠ 0 ∧ (lo % 2 ^ size ≠ 0 ∨ pci % 2 ^ size ≠ 0) then some 0x0101
  else if fld (g 0) 28 28 = 1 && !h.spanRoot then some 0x0101
  else if fld (g 0) 31 31 = 1 && size != 0 &&
      (List.range 16).any (fun x => x != i && h.owEn x && overlaps lo (2 ^ size) (h.owLocal x) (h.owSize x)) then some 0x0102
  else none

/-- Fields of an inbound window (Table 12.3). -/
def Hw.iwEn (h : Hw) (w : Nat) : Bool := h.bit (SPN_IW w 0) 31 && decide (h.get (SPN_IW w 0) 21 16 ≠ 0)
def Hw.iwSize (h : Hw) (w : Nat) : Nat := 2 ^ h.get (SPN_IW w 0) 21 16
def Hw.iwPci (h : Hw) (w : Nat) : Nat := 0x1000 * h.get (SPN_IW w 1) 31 12 + 2 ^ 32 * h.rd (SPN_IW w 2)
def Hw.iwTarget (h : Hw) (w : Nat) : Nat := 0x1000 * h.get (SPN_IW w 3) 27 0
def Hw.iwBar (h : Hw) (w : Nat) : Nat := h.get (SPN_IW w 0) 25 24

/-- The error code of a refused write of word `w` of inbound window `i` (R475, R476). -/
def Hw.iwRefuses (h : Hw) (i w v : Nat) (a : Attr) : Option Nat :=
  let v := v &&& (match w with | 0 => 0xF33F_03FF | 1 => 0xFFFF_F000 | 3 => 0x0FFF_FFFF | _ => 0xFFFF_FFFF)
  let old := h.rd (SPN_IW i w)
  let g := fun k => if k = w then v else h.rd (SPN_IW i k)
  let size := fld (g 0) 21 16
  let pci := fld (g 1) 31 12 * 0x1000 + 2 ^ 32 * g 2
  let target := fld (g 3) 27 0 * 0x1000
  let bar := fld (g 0) 25 24
  if w = 0 ∧ fld v 30 30 = 1 ∧ a.secure = false then some 0x0002
  else if h.iwEn i && (if w = 0 then setFld v 31 31 0 != setFld old 31 31 0 else v != old) then some 0x0100
  else if size ≠ 0 ∧ (size < 12 ∨ 36 < size) then some 0x0101
  else if size ≠ 0 ∧ (pci % 2 ^ size ≠ 0 ∨ target % 2 ^ size ≠ 0) then some 0x0101
  else if !h.spanRoot && (bar == 3 || (size != 0 && decide (2 ^ h.get (SPN_BAR bar) 5 0 < pci + 2 ^ size))) then some 0x0101
  else if size != 0 && overlaps target (2 ^ size) 0x01_0000_0000 0x1_0000_0000 then some 0x0101
  else if fld (g 0) 31 31 = 1 && size != 0 &&
      (List.range 16).any (fun x => x != i && h.iwEn x && (h.spanRoot || h.iwBar x == bar) &&
        overlaps pci (2 ^ size) (h.iwPci x) (h.iwSize x)) then some 0x0102
  else none

/-- The error code of a refused write of `SPN_BARb` or `SPN_VFMAPv` (R467, R479, R489). -/
def Hw.spanMapRefuses (h : Hw) (k v : Nat) : Option Nat :=
  if SPN_BAR 0 ≤ k ∧ k ≤ SPN_BAR 2 then
    if h.bit SPN_CFG 31 then some 0x0100
    else if fld v 5 0 ≠ 0 ∧ (fld v 5 0 < 12 ∨ 36 < fld v 5 0) then some 0x0101
    else none
  else if SPN_VFMAP 0 ≤ k ∧ k ≤ SPN_VFMAP 255 then
    let i := (k - SPN_VFMAP 0) / 4
    let f := fld v 25 16
    let n := fld v 10 0
    if h.bit SPN_VF 31 then some 0x0100
    else if 1024 < f + n then some 0x0101
    else if (List.range 256).any (fun x => x != i && n != 0 && decide (h.get (SPN_VFMAP x) 10 0 ≠ 0) &&
        overlaps f n (h.get (SPN_VFMAP x) 25 16) (h.get (SPN_VFMAP x) 10 0)) then some 0x0102
    else none
  else none

end Sys2Proof.Machine
end

