-- ==== Sys2Proof/Machine/DmaCore.lean ====
section
/-! DEFINITION. The DMA channels apart from their bursts (R514, R521 to R523, R528): triggers, parking, resuming, aborting. -/

namespace Sys2Proof.Machine

/-- A DMA channel: channel `c` of controller `d`. -/
def Hw.dma (h : Hw) (d c : Nat) : DmaCh := (find? h.mem.dma (32 * d + c)).getD {}

/-- Replace a DMA channel. -/
def Hw.setDma (h : Hw) (d c : Nat) (x : DmaCh) : Hw := { h with mem := { h.mem with dma := file h.mem.dma (32 * d + c) x } }

/-- `STATE` of a channel: 0 IDLE, 1 ACTIVE, 2 PARKED, 3 ABORTED. -/
def Hw.dmaState (h : Hw) (d c : Nat) : Nat := h.get (DMA_STATE d c) 31 28

/-- Address of the descriptor in progress. -/
def Hw.dmaCur (h : Hw) (d c : Nat) : Nat := h.rdPair (DMA_CUR_LO d c) (DMA_CUR_HI d c)

/-- The controller runs. -/
def Hw.dmaOn (h : Hw) (d : Nat) : Bool := h.live (pgDMA d) && h.bit (CTRL (pgDMA d)) 0

/-- `DMA_STATUS.ACTIVE_ANY` follows the channels. -/
def Hw.dmaSync (h : Hw) (d : Nat) : Hw :=
  h.putBit (STATUS (pgDMA d)) 0 ((List.range 32).any (fun c => h.dmaState d c == 1))

/-- A channel takes a state, with cause and side (Table 13.12). -/
def Hw.dmaEnter (h : Hw) (d c st cause side : Nat) : Hw :=
  (h.wr (DMA_STATE d c) (st * 2 ^ 28 + cause % 16 * 2 ^ 24 + side % 4 * 2 ^ 20)).dmaSync d

/-- A channel starts its chain at `DMA_HEADc` (R514). -/
def Hw.dmaStart (h : Hw) (d c : Nat) : Hw :=
  let h := (h.wr (DMA_CUR_LO d c) (h.rd (DMA_HEAD_LO d c))).wr (DMA_CUR_HI d c) (h.rd (DMA_HEAD_HI d c))
  ((h.wr (DMA_DONE d c) 0).setDma d c { since := h.ns }).dmaEnter d c 1 0 0

/-- A trigger reaches a channel (R514). -/
def Hw.dmaTrigger (h : Hw) (d c : Nat) : Hw :=
  if h.dmaState d c = 1 ∨ h.dmaState d c = 2 then h.sat (DMA_OVERRUN d c)
  else h.dmaStart d c

/-- DMA_TRIG (R44, R514): the cue's channel, when a cue is its trigger. -/
def dmaTrigEff (arg _v _tc _idx : Nat) (h : Hw) : Hw :=
  let d := fld arg 6 0 / 32
  let c := fld arg 6 0 % 32
  if h.dmaOn d && decide (h.get (DMA_CFG d c) 21 20 = 1) then h.dmaTrigger d c else h

/-- DMA_TRIG cue. -/
def execDmaTrig (c : CueRef) (s : State) : Host.Outcome State Fault Refusal := s.run fun h => h.fireCue c 0x38 dmaTrigEff

/-- DMA_EVENT_TRIGGER (R514, R565, R729): a line that rises in this cycle starts the channels that it triggers, a Secure line the
Secure channels only. -/
def execDmaEventTrigger (e : Fin 2048) (s : State) : Host.Outcome State Fault Refusal :=
  s.run fun h =>
    if h.seesEdge 1 e e then
      each 128 (fun k (h : Hw) =>
        let d := k / 32
        let c := k % 32
        if h.dmaOn d && decide (h.get (DMA_CFG d c) 21 20 = 2) && decide (h.get (DMA_CFG d c) 10 0 = e.val) &&
            (!h.lineSecure e || h.bit (DMA_CFG d c) 25) then h.dmaTrigger d c
        else h) { h with took := (1, e.val) :: h.took }
    else h

/-- DMA_GO (R514, R523): a write of `DMA_CTRLc` with `GO`. -/
def Hw.dmaGo (h : Hw) (d c : Nat) (a : Attr) : Hw :=
  if !h.bit (CTRL (pgDMA d)) 0 then h.refuse (DMA_CTRL d c) 0x0102 a
  else if h.get (DMA_CFG d c) 21 20 = 0 then h.dmaTrigger d c
  else h

/-- DMA_RESUME (R522): a write of `DMA_CTRLc` with `RESUME`; the next burst of the channel is the retry. -/
def Hw.dmaResume (h : Hw) (d c : Nat) (a : Attr) : Hw :=
  if h.dmaState d c = 2 then
    (h.setDma d c { h.dma d c with fault := none, since := h.ns }).dmaEnter d c 1 0 0
  else h.refuse (DMA_CTRL d c) 0x0102 a

/-- A channel enters ABORTED with what it had read and not delivered (R523, Table 13.6). -/
def Hw.dmaAborted (h : Hw) (d c cause side addr : Nat) : Hw :=
  let x := h.dma d c
  let bytes := (x.ahead.map List.length).sum + x.part.length
  let acc := match x.desc with
    | some w => if fld (w.getD 0 0) 26 25 = 0 then 0 else (bytes + 2 ^ fld (w.getD 0 0) 30 29 - 1) / 2 ^ fld (w.getD 0 0) 30 29
    | none => 0
  let h := (h.wrPair (DMA_FADDR_LO d c) (DMA_FADDR_HI d c) addr).wr (DMA_UNDEL d c) (min acc 7 * 2 ^ 29 + bytes)
  ((h.setDma d c {}).dmaEnter d c 3 cause side).raise (pgDMA d) c

/-- DMA_ABORT (R523): a write of `DMA_CTRLc` with `ABORT`. The side that cause 6 shows is not stated: a free one. -/
def Hw.dmaAbort (h : Hw) (d c : Nat) (a : Attr) : Hw :=
  if h.dmaState d c = 1 ∨ h.dmaState d c = 2 then
    let r := h.freeWord
    r.2.dmaAborted d c 6 r.1 0
  else h.refuse (DMA_CTRL d c) 0x0102 a

/-- What a write of `DMA_CTRLc` does: an abort goes before a resume, a resume before a start. -/
def Hw.dmaCtrl (h : Hw) (d c v : Nat) (a : Attr) : Hw :=
  if fld v 2 2 = 1 then h.dmaAbort d c a
  else if fld v 1 1 = 1 then h.dmaResume d c a
  else if fld v 0 0 = 1 then h.dmaGo d c a
  else h

/-- DMA_GO row: a write of `DMA_CTRLc`. -/
def execDmaGo (d : Fin 4) (c : Fin 32) (a : Attr) (s : State) : Host.Outcome State Fault Refusal :=
  s.run fun h => h.busWrite (DMA_CTRL d c) a fun h => h.dmaGo d c a

/-- DMA_RESUME row. -/
def execDmaResume (d : Fin 4) (c : Fin 32) (a : Attr) (s : State) : Host.Outcome State Fault Refusal :=
  s.run fun h => h.busWrite (DMA_CTRL d c) a fun h => h.dmaResume d c a

/-- DMA_ABORT row. -/
def execDmaAbort (d : Fin 4) (c : Fin 32) (a : Attr) (s : State) : Host.Outcome State Fault Refusal :=
  s.run fun h => h.busWrite (DMA_CTRL d c) a fun h => h.dmaAbort d c a

/-- A fault reaches a channel: the fault waits for the park, or with `PARK_EN` 0 aborts the channel (R521, R523). -/
def Hw.dmaFault (h : Hw) (d c cause side addr : Nat) : Hw :=
  if h.bit (DMA_CFG d c) 24 then h.setDma d c { h.dma d c with fault := some { cause := cause, side := side, addr := addr } }
  else h.dmaAborted d c cause side addr

/-- The earlier bursts of a channel with a fault have completed: all of them are written, or it is a write that faulted. -/
def DmaCh.settled (x : DmaCh) : Bool :=
  match x.fault with
  | none => false
  | some f => f.side != 0 || x.ahead.isEmpty

/-- DMA_PARK (R521, Table 13.6): the earlier bursts have completed and the channel parks. -/
def execDmaPark (d : Fin 4) (c : Fin 32) (s : State) : Host.Outcome State Fault Refusal :=
  s.run fun h =>
    let x := h.dma d c
    match x.fault with
    | none => h
    | some f =>
      if h.dmaState d c = 1 && x.settled then
        let h := (h.wrPair (DMA_FADDR_LO d c) (DMA_FADDR_HI d c) f.addr).wr (DMA_UNDEL d c) 0
        (h.dmaEnter d c 2 f.cause f.side).raise (pgDMA d) c
      else h

/-- The error code of a refused configuration write of a DMA channel (R528). -/
def Hw.dmaRefuses (h : Hw) (d c k v : Nat) (a : Attr) : Option Nat :=
  if k = DMA_CFG d c ∨ k = DMA_CFG2 d c ∨ k = DMA_HEAD_LO d c ∨ k = DMA_HEAD_HI d c then
    if k = DMA_CFG d c ∧ fld v 25 25 = 1 ∧ a.secure = false then some 0x0002
    else if h.dmaState d c = 1 ∨ h.dmaState d c = 2 then some 0x0100
    else if k = DMA_CFG d c ∧ fld v 21 20 = 3 then some 0x0101
    else if k = DMA_HEAD_LO d c ∧ v % 32 ≠ 0 then some 0x0101
    else none
  else none

end Sys2Proof.Machine
end

