-- ==== Sys2Proof/Machine/Recorder.lean ====
section
/-! DEFINITION. The Reel's commands (R649 to R665): Slates, snapshots, triggers, holding, adoption and dumping. -/

namespace Sys2Proof.Machine

/-- The payload of a Slate (Table 18.2). -/
def Hw.slatePayload (h : Hw) : List Byte :=
  let st := (List.range 4).foldl (fun x n => x + h.tcuState n % 8 * 2 ^ (4 * n) + (if h.rel.stepped.contains n then 2 ^ (16 + n) else 0)) 0
  (List.range 4).flatMap (fun n => leBytes 4 (nowLo (h.slotVal n)) ++ leBytes 4 (nowHi (h.slotVal n))) ++
    wordBytes [st, h.rd CUE_SKIP_CNT, h.rd CUE_CROWD_CNT, h.rd REL_DROP_CNT]

/-- A Slate that has gone into the ring: `no` records had been written before it. -/
def Hw.slated (h : Hw) (no : Nat) : Hw :=
  if h.recording && decide (no < h.rel.no) then { h with rel := { h.rel with lastSlate := h.tick32 0 } }.relControl else h

/-- SLATE (R649, R653): a tick boundary of TC0, once for each tick. -/
def execSlate (s : State) : Host.Outcome State Fault Refusal :=
  s.run fun h =>
    let k := h.slotVal 0 / tickUnit
    if !h.tickBoundary 0 || h.rel.slateTick == some k then h
    else
      let h := (h.record 1 0 h.slatePayload).slated h.rel.no
      { h with rel := { h.rel with stepped := [], slateTick := some k } }

/-- GAP (R655): the queue has room for the record again. -/
def execGap (s : State) : Host.Outcome State Fault Refusal :=
  s.run fun h => if h.recording && decide (h.relQueued + 32 ≤ 0x4_0000) then h.relGap else h

/-- A snapshot falls due, `REL_SNAP_INT` seconds after the last one; none does after a trigger (R656, R659). -/
def Hw.snapDue (h : Hw) : Bool :=
  h.live pgREL && h.relState == 1 && decide (h.rel.snapAt + h.get REL_SNAP_INT 7 0 * 1_200_000_000 ≤ h.now)

/-- SNAPSHOT (R656): a snapshot is due, or the one that the enable or R661 asks for can begin. -/
def execSnapshot (s : State) : Host.Outcome State Fault Refusal :=
  s.run fun h => if h.snapDue then { h with rel := { h.rel with snapWanted := true, snapAt := h.now } }.relSnapTry else h.relSnapTry

/-- SNAP_END (R656): the copy ends. A copy that ends when the Reel no longer records leaves no complete snapshot. -/
def execSnapEnd (s : State) : Host.Outcome State Fault Refusal :=
  s.run fun h =>
    match h.rel.snap with
    | none => h
    | some b =>
      if !h.recording then { h with rel := { h.rel with snap := none } }
      else
        let h := h.record 9 0 (leBytes 4 b ++ leBytes 4 (h.rel.snapNo - 1))
        let rel := { h.rel with snap := none, newest := some b, complete := insertLine h.rel.complete b }
        ({ h with rel := rel }.raise pgREL 3).relSnapTry

/-- TRIGGER (R658, R565, R729): the Reel takes lines that rise in this cue clock cycle. The Reel is not Secure, so a Secure line
does not reach it. -/
def execTrigger (lines : List (Fin 2048)) (s : State) : Host.Outcome State Fault Refusal :=
  s.run fun h =>
    let es := (lines.map Fin.val).filter (fun e => h.seesEdge 2 e e && !h.lineSecure e)
    let hit := fun k => h.bit (REL_TRIG k) 31 && es.contains (h.get (REL_TRIG k) 10 0)
    let src := (List.range 4).foldl (fun x k => if hit k then x + 2 ^ k else x) 0
    let h := { h with took := es.map (fun e => (2, e)) ++ h.took }
    if src = 0 then h else h.relTrigger src

/-- REL_TRIG_SW (R658). -/
def execRelTrigSw (v : Word) (a : Attr) (s : State) : Host.Outcome State Fault Refusal :=
  s.run fun h => h.busWrite REL_TRIG_SW a fun h => if fld v.toNat 0 0 = 1 then h.relTrigger 0x10 else h

/-- The recording after a trigger is over: `POST` ticks of TC0 have passed (R660). -/
def Hw.postOver (h : Hw) : Bool :=
  h.live pgREL && h.relState == 2 && decide (h.get REL_WIN 15 0 ≤ (h.tick32 0 + 2 ^ 32 - h.rd REL_TRIG_TICK) % 2 ^ 32)

/-- POST_END (R660). -/
def execPostEnd (s : State) : Host.Outcome State Fault Refusal :=
  s.run fun h => if h.postOver then h.relHold false else h

/-- Recording begins with an empty ring and a new snapshot (R656, R662). -/
def Hw.relBegin (h : Hw) (x : RelSt) : Hw :=
  let h := { h with rel := { x with recs := [], wr := 0x40, snap := none, snapWanted := true, protect := none, slateTick := h.rel.slateTick, snapAt := h.now } }
  (((h.putBit REL_STATE 27 false).put REL_STATE 21 16 0).setRelState 1).relSnapTry

/-- REL_REARM (R662). -/
def execRelRearm (v : Word) (a : Attr) (s : State) : Host.Outcome State Fault Refusal :=
  s.run fun h => h.busWrite REL_REARM a fun h =>
    if fld v.toNat 0 0 = 0 then h
    else if h.relState ≠ 3 then h.refuse REL_REARM 0x0103 a
    else h.relBegin h.rel

/-- Bytes the Reel reads; 0 where an access is refused. -/
def Hw.relRead (h : Hw) (addr n : Nat) : List Byte := ((h.memRead addr n (ownAttr 0x54)).1).getD []
def Hw.relWord (h : Hw) (addr : Nat) : Nat := leNat (h.relRead addr 4)

/-- The records of an area of `len` bytes at `base`, from offset `ofs` up to offset `stop`; after the end of the area or a
filler the next one stands at `back` (R654). -/
def Hw.parseRecs (h : Hw) (base len back stop : Nat) : Nat → Nat → Nat → List RelRec
  | 0, _, _ => []
  | fuel + 1, ofs, no =>
    let ofs := if len ≤ ofs ∨ fld (h.relWord (base + ofs)) 31 28 = 0 then back else ofs
    if ofs = stop ∧ no ≠ 0 then []
    else
      let w := fun i => h.relWord (base + ofs + 4 * i)
      let kind := fld (w 0) 31 28
      let n := 16 + (fld (w 0) 16 0 + 15) / 16 * 16
      let w0 := if kind = 3 then w 6 else w 4
      let r : RelRec := { kind := kind, sub := fld (w 0) 25 20, no := no, tick := w 2, ofs := ofs, size := n, w0 := w0, w1 := w 5, w2 := w 6 }
      if kind = 0 then [] else r :: Hw.parseRecs h base len back stop fuel (ofs + n) (no + 1)

/-- The Reel's regions (R652): aligned by their registers, wholly in T1, of a size in range, and without overlap with each
other and the Loft. -/
def Hw.relRegionsOk (h : Hw) : Bool :=
  let inT1 := fun a n => decide (0x08_0000_0000 ≤ a) && decide (a + n ≤ 0x0C_0000_0000)
  let apart := fun a n b m => decide (a + n ≤ b) || decide (b + m ≤ a)
  let loft := 2 ^ 32 * h.get LOFT_BASE_HI 7 0 + 0x1_0000 * h.get LOFT_BASE_LO 31 16
  let loftN := 0x1_0000 * h.get LOFT_SIZE 12 0
  let snapN := 0x200_0000
  decide (16 ≤ h.get REL_SIZE 12 0) && decide (h.get REL_SIZE 12 0 ≤ 4096) && inT1 h.relBase h.relBytes && inT1 h.relSnap snapN &&
    apart h.relBase h.relBytes h.relSnap snapN &&
    (decide (loftN = 0) || (apart h.relBase h.relBytes loft loftN && apart h.relSnap snapN loft loftN))

/-- The ring of the last recording is adopted where its control block is valid (R663): the Reel enters HELD and writes nothing. -/
def Hw.relAdopt (h : Hw) : Option Hw :=
  let w := fun i => h.relWord (h.relBase + 4 * i)
  if w 0 ≠ 0x4C45_4552 ∨ w 1 ≠ 1 ∨ w 6 ≠ h.rd REL_SNAP_LO then none
  else
    let l := h.parseRecs h.relBase h.relBytes 0x40 (w 3) (h.relBytes / 16) (w 2) 0
    let done := (List.range 2).filter (fun b => decide (fld (w 7) (8 + b) (8 + b) = 1))
    let newest := if done.isEmpty then none else some (fld (w 7) 0 0)
    let rel : RelSt := { recs := l, wr := w 3, no := l.length, newest := newest, complete := done, lastSlate := w 5 }
    let h := { h with rel := rel }
    let h := ((h.wr REL_SEQ (w 4)).wr REL_TRIG_TICK (w 5)).putBit REL_STATE 27 false
    some ((h.put REL_STATE 21 16 0x20).relHold false)

/-- The Reel is enabled (R663): with `KEEP` a ring of the last recording is held, else a fresh recording begins. For a Take it
waits for its `GO`. -/
def Hw.relStart (h : Hw) : Hw :=
  if h.bit (CTRL pgREL) 1 then { h.setRelState 0 with rel := {} }
  else
    let kept := if h.bit (CTRL pgREL) 2 then h.relAdopt else none
    match kept with
    | some h => h
    | none => (h.wr REL_SEQ 0).relBegin {}

/-- The Reel stops. -/
def Hw.relStop (h : Hw) : Hw := { h.setRelState 0 with rel := {} }

/-- REL_ENABLE (R649, R652, R663, R670): a write of `REL_CTRL`. -/
def execRelEnable (v : Word) (a : Attr) (s : State) : Host.Outcome State Fault Refusal :=
  s.run fun h => h.busWrite (CTRL pgREL) a fun h =>
    let was := h.bit (CTRL pgREL) 0
    let on := decide (fld v.toNat 0 0 = 1)
    if was && decide (fld v.toNat 1 1 ≠ h.get (CTRL pgREL) 1 1) then h.refuse (CTRL pgREL) 0x0100 a
    else if !was && on && !h.relRegionsOk then h.refuse (CTRL pgREL) 0x0101 a
    else
      let h := h.wr (CTRL pgREL) (fld v.toNat 2 0)
      if !was && on then h.relStart else if was && !on then h.relStop else h

/-- Bytes of the records held. -/
def Hw.relHeldBytes (h : Hw) : Nat := (h.rel.recs.map (fun r => r.size)).foldl (· + ·) 0

/-- The dump header (Table 18.3). -/
def Hw.dumpHeader (h : Hw) : List Byte :=
  let flags := h.get REL_STATE 27 27 + h.get REL_STATE 21 16 * 0x100 + h.rel.newest.getD 0 * 0x1_0000
  let b := wordBytes [0x504D_4452, 0x0001_0001, h.rd (KEY_UID 0), h.rd (KEY_UID 1), h.get REL_DUMP 15 0, h.rd REL_TRIG_TICK,
    h.rd REL_FIRST_TICK, h.rd REL_LAST_TICK, h.relHeldBytes, h.rel.recs.length, flags, h.rd TCU_BASE_TICK, 0, 0, 0]
  b ++ leBytes 4 (crc32 b)

/-- Byte lists read one after the other; none where an access fails. -/
def Hw.readAll (h : Hw) : List (Nat × Nat) → Option (List Byte) × Hw
  | [] => (some [], h)
  | (addr, n) :: t =>
    match h.memRead addr n (ownAttr 0x54) with
    | (none, h) => (none, h)
    | (some x, h) =>
      match Hw.readAll h t with
      | (none, h) => (none, h)
      | (some y, h) => (some (x ++ y), h)

/-- The dump stream (R664). -/
def Hw.dumpStream (h : Hw) : Option (List Byte) × Hw :=
  let head := h.dumpHeader
  match h.readAll ((h.relSnap, 0x200_0000) :: h.rel.recs.map (fun r => (h.relBase + r.ofs, r.size))) with
  | (none, h) => (none, h)
  | (some l, h) => (some (head ++ l), h)

/-- Length of the stream. -/
def Hw.dumpLen (h : Hw) : Nat := 64 + 0x200_0000 + h.relHeldBytes

/-- The stream leaves through P38 in frames (R665). -/
def Hw.dumpFrames (h : Hw) (l : List Byte) : Hw :=
  let src := 2 ^ 32 * h.get RIO_MAC_HI 15 0 + h.rd RIO_MAC_LO
  let dest := 2 ^ 32 * h.get REL_DEST_HI 15 0 + h.rd REL_DEST_LO
  let head := etherHead dest src (some (1, 0)) (h.get REL_ETYPE 15 0)
  each ((l.length + 1487) / 1488) (fun i (h : Hw) =>
    h.hand 38 (padFrame (head ++ leBytes 2 (h.get REL_DUMP 15 0) ++ [0, 0] ++ leBytes 4 (1488 * i) ++ leBytes 4 l.length ++
      slice l (1488 * i) 1488))) h

/-- The dump goes out (R664, R665). -/
def Hw.dumpGo (h : Hw) : Hw :=
  match h.dumpStream with
  | (none, h) => { h with rel := { h.rel with dumpBad := true } }
  | (some l, h) => if h.get REL_DUMP 17 16 = 1 then h.dumpFrames l else h.flashReplace (0x1_0000 * h.get REL_FLASH_OFS 31 16) l

/-- The Reel area of the flash has room for the dump (R665, Table 19.1). -/
def Hw.dumpFits (h : Hw) : Bool :=
  let o := 0x1_0000 * h.get REL_FLASH_OFS 31 16
  decide (0x0500_0000 ≤ o) && decide (o + eraseSpan h.dumpLen ≤ h.flashBytes)

/-- DUMP (R664, R665): a write of `REL_DUMP`. -/
def execDump (v : Word) (a : Attr) (s : State) : Host.Outcome State Fault Refusal :=
  s.run fun h => h.busWrite REL_DUMP a fun h =>
    let target := fld v.toNat 17 16
    if fld v.toNat 31 31 = 0 then h.put REL_DUMP 17 0 (fld v.toNat 17 0)
    else if h.relState ≠ 3 then h.refuse REL_DUMP 0x0103 a
    else if target = 0 ∨ target = 3 ∨ (target = 2 ∧ h.dumpFits = false) then h.refuse REL_DUMP 0x0101 a
    else
      let h := (h.wr REL_DUMP (0xC000_0000 + fld v.toNat 17 0)).setRelState 4
      let h := { h.wr REL_DUMP_LEN h.dumpLen with rel := { h.rel with dumpBad := false } }
      if target = 2 && h.inHold then h.defer .relDump else h.dumpGo

/-- DUMP_DONE (R664): the stream has ended; a dump to flash waits in Hold (R665). -/
def execDumpDone (s : State) : Host.Outcome State Fault Refusal :=
  s.run fun h =>
    if !h.live pgREL || h.relState != 4 || h.sys.deferred.contains .relDump then h
    else ((h.wr REL_DUMP ((if h.rel.dumpBad then 0x0100_0000 else 0) + h.get REL_DUMP 17 0)).setRelState 3).raise pgREL 4

end Sys2Proof.Machine
end

