-- ==== Sys2Proof/Machine/Supervisor.lean ====
section
/-! DEFINITION. The power stage supervisor (R243 to R270). -/

namespace Sys2Proof.Machine

/-- Charge state: 0 LIMP, 1 HOLD, 2 IN_CHARGE (R244). -/
def Hw.charge (h : Hw) : Nat := h.get (STATUS pgPSS) 1 0

/-- Enter a charge state; the next discarded command raises its event again (R245). -/
def Hw.setCharge (h : Hw) (x : Nat) : Hw :=
  { h.put (STATUS pgPSS) 1 0 x with stage := { h.stage with discarded := if x = h.charge then h.stage.discarded else false } }

/-- Policy of a channel: 0 HOLD, 1 LIMP, 2 OFF (R251). -/
def Hw.policy (h : Hw) (c : Nat) : Nat := h.get (PSS_POLICY (c / 16)) (2 * (c % 16) + 1) (2 * (c % 16))

/-- A channel goes to limp-home (R255, R256, R258). -/
def Hw.toLimp (h : Hw) (c : Nat) : Hw := (h.setChan c { h.chan c with ctl := .limp }).limpFollow c

/-- A channel goes to hold (R251): what it does stays as it is. -/
def Hw.toHold (h : Hw) (c : Nat) : Hw :=
  let h := h.setChan c { h.chan c with ctl := .hold }
  if h.tripped c then h else h.setChState c stHold

/-- A channel goes off until takeover (R251). -/
def Hw.toOff (h : Hw) (c : Nat) : Hw :=
  let h := h.setChan c { h.chan c with ctl := .off }
  if h.tripped c then h.setChan c { h.chan c with gen := false, next := none } else h.switchOff c false

/-- The PSS declares the main logic lost (R248, R251, R253). -/
def Hw.logicLost (h : Hw) (cause : Nat) : Hw :=
  let h := ((h.put (STATUS pgPSS) 11 8 cause).sat PSS_LOSS_CNT).raise pgPSS 0
  if h.charge ≠ 2 then h
  else
    let hold := (List.range 72).any (fun c => h.policy c == 0) && decide (h.get PSS_CFG 23 16 ≠ 0)
    let h := each 72 (fun c h =>
      match h.policy c with
      | 0 => if hold then h.toHold c else h.toLimp c
      | 1 => h.toLimp c
      | _ => h.toOff c) h
    if hold then
      let h := { h.setCharge 1 with stage := { (h.setCharge 1).stage with holdAt := h.now } }
      h.raise pgPSS 2
    else (h.setCharge 0).raise pgPSS 3

/-- PSS_HB (R247 to R249). -/
def execPssHb (v : Word) (a : Attr) (s : State) : Host.Outcome State Fault Refusal :=
  s.run fun h => h.busWrite PSS_HB a fun h =>
    if !h.stage.running then h
    else
      let n := h.get PSS_HB_NEXT 15 0
      if fld v.toNat 15 0 = n ∧ fld v.toNat 31 16 = 0xFFFF - n then
        { h.put PSS_HB_NEXT 15 0 (n + 1) with stage := { h.stage with bad := 0, beatAt := h.now } }
      else
        let h := h.raise pgPSS 1
        if h.charge ≠ 2 then h
        else if h.stage.bad + 1 ≥ 2 then { h with stage := { h.stage with bad := 0 } }.logicLost 4
        else { h with stage := { h.stage with bad := h.stage.bad + 1 } }

/-- PSS_WATCHDOG_EXPIRY (R247 to R249): only in IN_CHARGE does the timer run; `WD_TIMEOUT` ms have passed since the takeover or the
last accepted heartbeat. -/
def execPssWatchdogExpiry (s : State) : Host.Outcome State Fault Refusal :=
  s.run fun h =>
    if h.inCharge && decide (h.stage.beatAt + h.get PSS_CFG 7 0 * 1_200_000 ≤ h.now) then h.logicLost 3 else h

/-- PSS_RELEASE (R248). -/
def execPssRelease (v : Word) (a : Attr) (s : State) : Host.Outcome State Fault Refusal :=
  s.run fun h => h.busWrite PSS_RELEASE a fun h =>
    if fld v.toNat 0 0 = 1 && h.stage.running then h.logicLost 5 else h

/-- Every channel on the hardware path: static, from its mapped pin, without a window while the controller does not run
(R259). -/
def Hw.hardwarePath (h : Hw) : Hw :=
  each 72 (fun c h => if h.stage.running then h.toLimp c else (h.closeWindow c).toLimp c) h

/-- PSS_RESTART (R250, R259): the pins command the channels from here on, so the PSS is not IN_CHARGE. -/
def execPssRestart (s : State) : Host.Outcome State Fault Refusal :=
  s.run fun h =>
    if !h.stage.running then h
    else
      let h := ((h.sat PSS_RESTART_CNT).raise pgPSS 8).setCharge 0
      { h with stage := { h.stage with running := false, fromVbat := false } }.hardwarePath

/-- Word `w` of OTP slot `n` (R262). -/
def Hw.otpMap (h : Hw) (n w : Nat) : Nat := lookup zeroNat h.stage.otp (20 * n + w)

/-- A map byte meets Table 06.1. -/
def mapByteOk (b : Nat) : Bool := decide (fld b 6 4 = 0) && (decide (fld b 7 7 = 1) || decide (fld b 3 0 = 0))

/-- The map bytes of a word are good. -/
def mapWordOk (w : Nat) : Bool := (List.range 4).all (fun i => mapByteOk (fld w (8 * i + 7) (8 * i)))

/-- The record of an OTP slot holds (R262, R263). -/
def Hw.otpOk (h : Hw) (n : Nat) : Bool :=
  decide (h.otpMap n 0 = 0x4C48_0001) && (List.range 18).all (fun w => mapWordOk (h.otpMap n (w + 1))) &&
    decide (h.otpMap n 19 = crc32 (wordBytes ((List.range 19).map (h.otpMap n))))

/-- The map in use: that of the highest-numbered good slot, else the ROM default (R263). -/
def Hw.takeMap (h : Hw) : Hw :=
  match (h.stage.used.filter (fun n => h.otpOk n)).getLast? with
  | some n =>
    let h := each 18 (fun w (h : Hw) => h.wr (PSS_MAP w) (h.otpMap n (w + 1))) h
    (h.put PSS_MAP_STATUS 1 0 n).putBit (STATUS pgPSS) 16 true
  | none => ((each 18 (fun w (h : Hw) => h.wr (PSS_MAP w) (romMap w)) h).put PSS_MAP_STATUS 1 0 0).putBit (STATUS pgPSS) 16 false

/-- At VBAT power-on the hardware path reads the map, and the pins drive the channels (R259). -/
def Hw.stagePower (h : Hw) : Hw := h.takeMap.hardwarePath

/-- The wires after a loss of VBAT: their ambient plus `LPM_WIRE_START` (R224). -/
def Hw.wiresStart (h : Hw) : Hw :=
  each 72 (fun c h =>
    h.setChan c { h.chan c with theta := (((h.ambient (h.get (cWire c) 9 8) + h.get LPM_WIRE_START 7 0 : Nat) : Int) - 50) * degree }) h

/-- PSS_START (R224, R246, R263): the map is taken, every channel goes to limp-home, and after a loss of VBAT the wires start
afresh. -/
def execPssStart (s : State) : Host.Outcome State Fault Refusal :=
  s.run fun h =>
    if h.stage.running || h.sys.vbatOff then h
    else
      let bad := h.stage.used.filter (fun n => !h.otpOk n)
      let h := h.wr PSS_MAP_STATUS (h.stage.used.foldl (fun x n => x + 2 ^ (4 + n)) 0 + bad.foldl (fun x n => x + 2 ^ (8 + n)) 0)
      let h := (h.raiseIf (!bad.isEmpty) pgPSS 7).takeMap
      let vb := h.stage.fromVbat
      let h := { h with stage := { h.stage with running := true, bad := 0, prog := none } }
      let h := (h.put (STATUS pgPSS) 11 8 (if vb then 1 else 6)).setCharge 0
      (if vb then h.wiresStart else h).hardwarePath

/-- HOLD_WINDOW_END (R252): `HOLD_WIN` × 10 ms after the loss. -/
def execHoldWindowEnd (s : State) : Host.Outcome State Fault Refusal :=
  s.run fun h =>
    if h.charge ≠ 1 ∨ h.now < h.stage.holdAt + h.get PSS_CFG 23 16 * 12_000_000 then h
    else
      let h := each 72 (fun c h => if (h.chan c).ctl = .hold then h.toLimp c else h) h
      (h.setCharge 0).raise pgPSS 3

/-- LH_SAMPLE (R257, R721): a new level is accepted after 3 equal samples, on the hardware path too. -/
def execLhSample (p : Fin 16) (level : Bool) (s : State) : Host.Outcome State Fault Refusal :=
  s.run fun h =>
    let x := (find? h.stage.pins p).getD {}
    let n := if x.level = level then min 3 (x.same + 1) else 1
    let h := { h with stage := { h.stage with pins := file h.stage.pins p { level := level, same := n } } }
    if n < 3 || h.bit PSS_LH_IN p == level || h.sys.vbatOff then h
    else
      let h := h.putBit PSS_LH_IN p level
      each 72 (fun c h => if (h.chan c).ctl = .limp then h.limpFollow c else h) h

/-- MAP_PROG (R264). -/
def execMapProg (v : Word) (a : Attr) (s : State) : Host.Outcome State Fault Refusal :=
  s.run fun h => h.busWrite PSS_MAP_PROG a fun h =>
    let l := h.lcs
    if !a.secure || !(l = 0 || l = 1 || l = 3) then h.refuse PSS_MAP_PROG 0x0102 a
    else if v.toNat ≠ 0x4C48_4D50 then h.refuse PSS_MAP_PROG 0x0105 a
    else if !(List.range 18).all (fun w => mapWordOk (h.rd (PSS_MAP_STAGE w))) then h.refuse PSS_MAP_PROG 0x0104 a
    else if h.stage.prog.isSome || !h.stage.running then h
    else
      match (List.range 4).find? (fun n => !h.stage.used.contains n) with
      | none => h.refuse PSS_MAP_PROG 0x0103 a
      | some n =>
        let ws := 0x4C48_0001 :: (List.range 18).map (fun w => h.rd (PSS_MAP_STAGE w))
        let h := { h with stage := { h.stage with prog := some n, record := ws ++ [crc32 (wordBytes ws)] } }
        let h := h.putBit PSS_MAP_STATUS 16 true
        if h.inHold then h.defer .mapProg else h

/-- MAP_PROG_DONE (R264): the slot is written and read back; `good` says whether the read-back holds. During Hold the
programming waits. -/
def execMapProgDone (good : Bool) (s : State) : Host.Outcome State Fault Refusal :=
  s.run fun h =>
    match h.stage.prog with
    | none => h
    | some n =>
      if h.inHold then h
      else
        let ws := h.stage.record
        let otp := (List.range 20).foldl (fun l w => store zeroNat l (20 * n + w) (if good then ws.getD w 0 else 0)) h.stage.otp
        let h := { h with stage := { h.stage with otp := otp, used := h.stage.used ++ [n], prog := none, record := [] } }
        let h := (h.putBit PSS_MAP_STATUS 16 false).putBit PSS_MAP_STATUS (4 + n) true
        if good then (h.putBit PSS_MAP_STATUS 3 true).raise pgPSS 6
        else ((h.putBit PSS_MAP_STATUS (8 + n) true).capture pgPSS 0x0106 (busAddr PSS_MAP_PROG) (ownAttr 0)).raise pgPSS 7

/-- PSS_TAKE_WRITE (R266). -/
def execPssTakeWrite (c : Fin 72) (v : Word) (a : Attr) (s : State) : Host.Outcome State Fault Refusal :=
  s.run fun h => h.busWrite (PSS_TAKE c) a fun h =>
    (h.storeReg (PSS_TAKE c) v.toNat).putBit (PSS_TAKE_MASK (c / 32)) (c % 32) true

/-- One channel at takeover (R205, R267, R268, Table 06.4). A channel in TEMP_WAIT waits for its restart, which comes at once if its
junction has cooled already. -/
def Hw.takeChannel (h : Hw) (c : Nat) : Hw :=
  let raw := h.rd (PSS_TAKE c)
  let w := cmdFixed raw
  let x := h.chan c
  let held := decide (x.ctl = .hold) && x.gen
  let x := { x with ctl := .command, sent := h.now }
  let h := ((h.setChan c x).cmdFlags c raw).wr (cCmd c) w
  if h.chState c = stTempWait then (if x.hot then h else h.tempRestart c)
  else if h.tripped c then (if cmdIdle w && h.causeEnded c then h.rearm c else h)
  else if held then
    let h := h.setChan c { x with next := some w }
    if h.driven c then h.showDriven c else h.setChState c stOff
  else if h.driven c then
    if cmdMode w = 0 then h.switchOff c false
    else if cmdMode w = 1 then (h.setChan c { x with gen := false, duty := 0, next := none }).showDriven c
    else (h.setChan c { x with next := some w }).showDriven c
  else if cmdIdle w then
    (h.setChan c { x with gen := decide (cmdMode w = 2), next := none }).setChState c stOff
  else if cmdMode w = 1 then (h.setChan c { x with gen := false, duty := 0, next := none }).drive c .on false
  else (h.setChan c { x with next := some w }).setChState c stOff

/-- All 72 bits of the mask are set (R266). -/
def Hw.takeComplete (h : Hw) : Bool :=
  decide (h.rd (PSS_TAKE_MASK 0) = 0xFFFF_FFFF) && decide (h.rd (PSS_TAKE_MASK 1) = 0xFFFF_FFFF) &&
    decide (h.rd (PSS_TAKE_MASK 2) = 0xFF)

/-- The mask bits clear. -/
def Hw.takeClear (h : Hw) : Hw := each 3 (fun m h => h.wr (PSS_TAKE_MASK m) 0) h

/-- GO (R266, R267). -/
def Hw.takeover (h : Hw) (a : Attr) : Hw :=
  if !h.stage.running then h
  else if h.charge = 2 then (h.refuse PSS_TAKE_CTRL 0x0101 a).raise pgPSS 5
  else if !h.takeComplete then (h.refuse PSS_TAKE_CTRL 0x0100 a).raise pgPSS 5
  else
    let h := each 72 (fun c h => h.takeChannel c) h
    let h := (h.setCharge 2).takeClear
    { h with stage := { h.stage with bad := 0, beatAt := h.now } }.raise pgPSS 4

/-- A write of `PSS_TAKE_CTRL`. -/
def Hw.takeCtrlWrite (h : Hw) (v : Nat) (a : Attr) : Hw :=
  let h := if fld v 0 0 = 1 then h.takeover a else h
  if fld v 1 1 = 1 then h.takeClear else h

/-- TAKEOVER (R266 to R268). -/
def execTakeover (v : Word) (a : Attr) (s : State) : Host.Outcome State Fault Refusal :=
  s.run fun h => h.busWrite PSS_TAKE_CTRL a fun h => h.takeCtrlWrite v.toNat a

/-- TAKE_CLR (R266, Table 06.7). -/
def execTakeClr (v : Word) (a : Attr) (s : State) : Host.Outcome State Fault Refusal :=
  s.run fun h => h.busWrite PSS_TAKE_CTRL a fun h => h.takeCtrlWrite v.toNat a

/-- What the PSS refuses of a write to one of its other registers (R270, Table 06.8). -/
def Hw.pssRefuses (_h : Hw) (o v : Nat) : Option Nat :=
  if o = 0x100 then (if fld v 23 16 > 200 ∨ fld v 7 0 = 0 ∨ fld v 7 0 > 100 then some 0x0107 else none)
  else if 0x140 ≤ o ∧ o < 0x154 then
    (if (List.range (if o = 0x150 then 8 else 16)).any (fun j => decide (fld v (2 * j + 1) (2 * j) = 3)) then some 0x0107 else none)
  else none

/-- `PSS_HOLD_LEFT`: the milliseconds that remain of the hold window (R252). -/
def Hw.holdLeft (h : Hw) : Nat × Hw :=
  if h.charge ≠ 1 then (0, h)
  else h.freeDiv (h.get PSS_CFG 23 16 * 12_000_000 - (h.now - h.stage.holdAt)) 1_200_000

end Sys2Proof.Machine
end

