-- ==== Sys2Proof/Machine/Place.lean ====
section
/-! DEFINITION. Engines and tasks (R96 to R98, R104 to R108, R187, R193, R618 to R624): reruns, self-tests, placement. -/

namespace Sys2Proof.Machine

/-- An engine has a run that it must finish: a cyclic one, or a background run that has begun (R97, R107). -/
def Hw.engBusy (h : Hw) (e : Nat) : Bool :=
  h.cea.runs.any (fun r => decide (r.2.engine = e) && (!r.2.bg || r.2.begun))

/-- RERUN_START (R96, R98): of the tasks that wait for one spare the one of the highest `CRIT`, then the lowest number. -/
def execRerunStart (t : Fin 512) (s : State) : Host.Outcome State Fault Refusal :=
  s.run fun h =>
    match (h.task t).retry with
    | none => h
    | some x =>
      let rivals := (List.range 512).filter (fun u => u != t.val && (match (h.task u).retry with
        | some y => y.engine == x.engine && !y.started && !y.failed &&
            (decide (h.taskCrit t < h.taskCrit u) || (h.taskCrit u == h.taskCrit t && decide (u < t.val)))
        | none => false))
      if !h.live pgCEA || x.started || h.cea.runs.any (fun r => r.2.engine == x.engine && r.2.rerun) || !rivals.isEmpty then h
      else
        (h.setTask t { h.task t with retry := some { x with started := true } }).startRun t
          { engine := x.engine, rerun := true, seq := x.seq, img := x.img, imgLen := x.imgLen, refs := x.refs }

/-- The retry window of a task that waits has passed (R70, R96). -/
def Hw.windowOver (h : Hw) (t : Nat) (x : Rerun) : Bool :=
  x.opened && decide (6 * h.retryWindow (h.taskCad t) ≤ (h.now - x.openAt) * 5 * tickUnit)

/-- RETRY_WINDOW_END (R96): a rerun that has not compared equal by now is discarded. -/
def execRetryWindowEnd (t : Fin 512) (s : State) : Host.Outcome State Fault Refusal :=
  s.run fun h =>
    match (h.task t).retry with
    | none => h
    | some x =>
      if !h.live pgCEA || x.equal || !h.windowOver t x then h
      else
        let h := if x.failed then h else h.rerunFailed t 3
        h.setTask t { h.task t with retry := none }

/-- A task moves to an engine; the Reeve logs it (R107, R509). A background run that has not begun moves with it. -/
def Hw.moveTask (h : Hw) (t e reason : Nat) : Hw :=
  let old := h.taskEng t
  if old = e then h
  else
    let h := (h.put (CEA_TSTAT t) 28 24 e).reeveLog 4 reason t old e
    match h.runOf t with
    | some r => if r.bg && !r.begun then h.setRun t { r with engine := e } else h
    | none => h

/-- An engine becomes spare or active; the Reeve logs it. -/
def Hw.engBecomes (h : Hw) (e st reason : Nat) : Hw := (h.setEngState e st).reeveLog 5 reason e (h.engState e) st

/-- A task that no engine takes (R108). One that stands HALTED stays so (R103). -/
def Hw.unplace (h : Hw) (t : Nat) : Hw :=
  let halted := h.taskState t = 5
  if h.taskState t = 6 ∨ (halted ∧ h.taskEng t = 0x1F) then h
  else
    let h := if h.taskBg t then h.dropRun t else h
    let h := (h.put (CEA_TSTAT t) 28 24 0x1F).setTaskState t (if halted then 5 else 6)
    (h.setTask t { h.task t with safeNext := true }).raise pgCEA 8

/-- The engine that takes a suspect's tasks (R97): the spare that ran the rerun, or where that one is suspect too, under test or
retired another spare. -/
def Hw.heirOf (h : Hw) (x : EngSt) : Option Nat :=
  match x.heir with
  | some k => if (h.eng k).suspect || !([engActive, engSpare, engRerun].contains (h.engState k)) then h.firstEng engSpare else some k
  | none => none

/-- ENGINE_SELFTEST (R97): at a tick boundary of TC0 a suspect engine without a run to finish gives its tasks to the spare that
ran the rerun, and tests itself. Where no spare was found it stays in service (R98). -/
def execEngineSelftest (e : Fin 18) (s : State) : Host.Outcome State Fault Refusal :=
  s.run fun h =>
    let x := h.eng e
    let st := h.engState e
    if !h.live pgCEA || !h.tickBoundary 0 || !x.suspect || h.engBusy e || !(st == engActive || st == engRerun) then h
    else if st = engActive ∧ x.heir = none then h.clearSuspect e
    else
      let home := h.heirOf x
      let h := match home with
        | some k =>
          let h := if h.engState k = engActive then h else h.engBecomes k engActive 5
          (h.engTasks e).foldl (fun (h : Hw) t => h.moveTask t k 5) h
        | none => { (h.engTasks e).foldl (fun (h : Hw) t => h.unplace t) h with cea := { h.cea with replace := true } }
      (h.setEngState e engSelftest).clearSuspect e true

/-- An engine is retired (R621, R624). -/
def Hw.retireEngine (h : Hw) (e : Nat) : Hw :=
  let h := (h.setEngState e engRetired).clearSuspect e
  let h := ((h.raise pgCEA 6).raise (pgCE e) 2).putBit HLT_RETIRED e true
  h.raiseIf (decide (18 - h.engCount engRetired - h.engCount engOff = 17)) pgHLT 3

/-- SELFTEST_DONE (R97, R620 to R622): the signature, whether every injected pattern was detected, and whether the compare
without one was equal. -/
def execSelftestDone (e : Fin 18) (sig : BitVec 16) (detected equal : Bool) (s : State) : Host.Outcome State Fault Refusal :=
  s.run fun h =>
    if !h.live (pgCE e) || h.engState e ≠ engSelftest then h
    else
      let pass := sig == 0xC3A5 && detected && equal
      let h := h.wr (CE_SELFTEST e) ((if pass then 2 ^ 31 else 0) + sig.toNat)
      let rota := h.hlt.testing == some e.val
      let h := if rota then { h with hlt := { h.hlt with testing := none } } else h
      if pass then
        let after := (h.eng e).afterMismatch
        let h := if after then
            { h.sat (CE_TRANSIENT_CNT e) with hlt := { h.hlt with transients := satAdd h.hlt.transients 1 } }
          else h
        let h := h.clearSuspect e
        if rota then h.setEngState e engSpare else h.engBecomes e engSpare 5
      else ((h.raise (pgCE e) 1).raise pgHLT 2).retireEngine e

/-- The attachment that waits is made on a ready spare (R187), of the task that was asked for, while the permit stands and no armed
job names the task. -/
def Hw.attachNow (h : Hw) : Hw :=
  match h.dbg.want with
  | none => h
  | some t =>
    let gone := { h with dbg := { h.dbg with want := none } }.putBit DBG_ATTACH 31 false
    if !h.bit FRC_PERMIT 2 || h.inJob t then gone
    else
      match h.abandonRota.firstEng engSpare with
      | none => h
      | some e => (((((gone.abandonRota.engBecomes e engActive 6).moveTask t e 6).putBit DBG_STATE 31 true).put DBG_STATE 20 16 e).put DBG_STATE 8 0 t)

/-- The detachment completes after the UNCHECKED commit (R193, R194). -/
def Hw.detachNow (h : Hw) : Hw :=
  match h.dbgEngine with
  | none => h
  | some e =>
    let t := h.get DBG_STATE 8 0
    let open_ := (h.task t).unchecked || (match h.runOf t with | some r => r.halted | none => false)
    if !h.dbg.leaving || open_ || h.engBusy e then h
    else
      let h := { h with dbg := { h.dbg with leaving := false, haltReq := false, clearing := if h.bit (STATUS pgCEA) 1 then some t else h.dbg.clearing } }
      let h := ((h.wr DBG_STATE 0).putBit DBG_ATTACH 30 false).put (CEA_TSTAT t) 28 24 0x1F
      (h.engBecomes e engSpare 6).raise pgDBG 2

/-- Spares become active while fewer than 16 engines are (R624). -/
def Hw.keepSixteen : Nat → Hw → Hw
  | 0, h => h
  | n + 1, h =>
    let mine := match h.dbgEngine with | some _ => 1 | none => 0
    if 16 + mine ≤ h.engCount engActive + h.engCount engRerun + h.engCount engHalted then h
    else match h.firstEng engSpare with
      | some e => Hw.keepSixteen n (h.engBecomes e engActive 5)
      | none => h

/-- A task placed on an engine. One that stands HALTED stays so (R103); a background task that is to restart does so here
(assumption log, entry 138). -/
def Hw.placeTask (h : Hw) (t e reason : Nat) : Hw :=
  let h := h.moveTask t e reason
  let again := h.taskBg t && h.taskState t == 5 && (h.task t).restart
  let h := if h.taskState t = 0 ∨ h.taskState t = 6 ∨ again then
      (h.setTask t { h.task t with safeNext := false, restart := false }).setTaskState t 1
    else h
  if h.taskBg t && h.taskState t != 5 && (h.runOf t).isNone && (h.task t).outcome != .equal then h.restartBg t e else h

/-- A cadence that is enabled brings its demands (R105): on an engine that cannot carry them beside its other tasks, its tasks
are taken off, and the Reeve places again (assumption log, entry 138). -/
def Hw.fitCadence (h : Hw) (c : Nat) : Hw :=
  each 18 (fun e (h : Hw) =>
    let ts := (h.engTasks e).filter h.demands
    let mine := ts.filter (fun t => h.taskCad t == c)
    if mine.isEmpty || h.engineFits h.cost ts then h
    else { mine.foldl (fun (h : Hw) t => h.unplace t) h with cea := { h.cea with replace := true } }) h

/-- PLACEMENT (R104 to R108, R187, R193): at a tick boundary of TC0, with the placement the Reeve prefers. -/
def execPlacement (p : List (Fin 512 × Fin 18)) (s : State) : Host.Outcome State Fault Refusal :=
  s.run fun h =>
    if !h.live pgCEA || !h.tickBoundary 0 then h
    else
      let reason := if h.cea.replace then 6 else 5
      let h := Hw.keepSixteen 18 h.detachNow.attachNow
      let wish := p.map (fun x => (x.1.val, x.2.val))
      let h := h.placeOrder.foldl (fun (x : Hw × List (Nat × Nat)) t =>
        if x.1.dbgOn t then x
        else match x.1.placeFor x.1.cost wish x.2 t with
          | some e => (x.1.placeTask t e reason, (t, e) :: x.2)
          | none => (x.1.unplace t, x.2)) (h, []) |>.1
      { h with cea := { h.cea with replace := false } }

/-- CEA_REPLACE (R107, Table 02.9). -/
def execCeaReplace (v : Word) (a : Attr) (s : State) : Host.Outcome State Fault Refusal :=
  s.run fun h => h.busWrite CEA_REPLACE a fun h =>
    if fld v.toNat 0 0 = 1 then { h with cea := { h.cea with replace := true } } else h

end Sys2Proof.Machine
end

