-- ==== Sys2Proof/Machine/Pdu.lean ====
section
/-! DEFINITION. Process data units (R89 to R93), the checks that enable a cadence (R69, R74, R93, R106, R203, R377, R426, R708),
and code banks (R156, R160). -/

namespace Sys2Proof.Machine

/-- Size of a PDU's data half. -/
def Hw.pduHalf (h : Hw) (u : Nat) : Nat := (h.pduLen u + 7) / 8 * 8

/-- Extent of a PDU's data area: one half for a transmit PDU, two for a receive PDU (Table 02.15). -/
def Hw.pduArea (h : Hw) (u : Nat) : Nat := if h.pduTx u then h.pduHalf u else 2 * h.pduHalf u

/-- The entry whose `PID` a frame carries with another `LEN`: its `BAD` is set (R90). -/
def Hw.pduBad (h : Hw) (pid len : Nat) : Option Nat :=
  let us := (List.range 256).filter (fun u => h.pduEn u && !h.pduTx u && decide (h.get (CEA_PDU u 1) 31 16 = pid))
  if us.any (fun u => h.pduLen u == len) then none else us.head?

/-- A PDU frame discarded (R90). -/
def Hw.pduDiscard (h : Hw) : Hw := h.sat CEA_PDU_BAD

/-- PDU_FRAME_RX (R90): a frame at port P38, from its destination address to its last data byte. -/
def execPduFrameRx (b : List Byte) (s : State) : Host.Outcome State Fault Refusal :=
  s.run fun h =>
    let tagged := decide (beNat (slice b 12 2) = 0x8100)
    let o := if tagged then 16 else 12
    if !h.live pgCEA || !h.ceaOn || beNat (slice b o 2) ≠ h.get CEA_PDU_ETYPE 15 0 then h
    else
      let vid := beNat (slice b 14 2) % 0x1000
      let src := beNat (slice b 6 6)
      let p := b.drop (o + 2)
      let f := fun i => (p.getD i 0).toNat
      let pid := beNat (slice p 0 2)
      let seq := beNat (slice p 2 2)
      let len := beNat (slice p 6 2)
      if p.length < 12 + len ∨ leNat (slice p (8 + len) 4) ≠ crc32 (p.take (8 + len)) then h.pduDiscard
      else if f 5 ≠ 0 ∨ f 4 &&& 0xF9 ≠ 0 then h.pduDiscard
      else
        match h.pduBad pid len with
        | some u => (h.putBit (CEA_PDU u 7) 0 true).pduDiscard
        | none =>
          let fits := fun u => h.pduEn u && !h.pduTx u && decide (h.get (CEA_PDU u 1) 31 16 = pid) && decide (h.pduLen u = len) &&
            (!h.bit (CEA_PDU u 0) 29 || (tagged && decide (vid = h.get (CEA_PDU u 0) 11 0))) &&
            (!h.bit (CEA_PDU u 0) 28 || decide (src = h.pduMac u))
          match (List.range 256).find? fits with
          | none => h.sat CEA_PDU_NOMATCH
          | some u =>
            let m : PduMsg := { entry := u, seq := seq, flags := f 4, data := slice p 8 len }
            { h with cea := { h.cea with pduIn := h.cea.pduIn ++ [m] } }

/-- PDU_STORE (R90): the oldest matched frame of an entry goes into the half that is not current, which becomes current. -/
def execPduStore (u : Fin 256) (s : State) : Host.Outcome State Fault Refusal :=
  s.run fun h =>
    match h.cea.pduIn.find? (fun m => m.entry == u.val) with
    | none => h
    | some m =>
      let h := { h with cea := { h.cea with pduIn := h.cea.pduIn.erase m } }
      let x := h.pdu u
      let half := 1 - x.half
      let lost := x.stored && x.fresh
      let ram := h.cea.pduRam.write (h.pduBuf u + half * h.pduHalf u) m.data
      let h := { h with cea := { h.cea with pduRam := ram } }
      let h := h.setPdu u { half := half, fresh := true, flags := m.flags, stored := true }
      let h := ((h.put (CEA_PDU u 5) 31 16 m.seq).put (CEA_PDU u 5) 15 0 (h.get (CEA_PDU u 5) 15 0 + 1)).wr (CEA_PDU u 6) (h.tick32 0)
      if lost then h.putBit (CEA_PDU u 7) 1 true else h

/-- PDU_SEND (R92): the oldest released transmit PDU is handed to port P38. -/
def execPduSend (s : State) : Host.Outcome State Fault Refusal :=
  s.run fun h =>
    match h.cea.pduOut with
    | [] => h
    | m :: rest =>
      let u := m.entry
      let h := { h with cea := { h.cea with pduOut := rest } }
      let src := 2 ^ 32 * h.get RIO_MAC_HI 15 0 + h.rd RIO_MAC_LO
      let tag := if h.bit (CEA_PDU u 0) 29 then some (h.get (CEA_PDU u 0) 26 24, h.get (CEA_PDU u 0) 11 0) else none
      let body := beBytes 2 (h.get (CEA_PDU u 1) 31 16) ++ beBytes 2 (h.get (CEA_PDU u 5) 31 16) ++ beBytes 1 m.flags ++ [0] ++
        beBytes 2 m.data.length ++ m.data
      let h := h.hand 38 (padFrame (etherHead (h.pduMac u) src tag (h.get CEA_PDU_ETYPE 15 0) ++ body ++ leBytes 4 (crc32 body)))
      (h.put (CEA_PDU u 5) 31 16 (h.get (CEA_PDU u 5) 31 16 + 1)).put (CEA_PDU u 5) 15 0 (h.get (CEA_PDU u 5) 15 0 + 1)

/-- An enabled cadence maps a PDU (R93). -/
def Hw.pduMapped (h : Hw) (u : Nat) : Bool :=
  h.cadsOn.any (fun c => (h.cadIns c).any (fun m => h.mapKind m == 4 && h.mapSrc m == u) ||
    (h.cadOuts c).any (fun m => h.mapKind m == 11 && h.mapSrc m == u))

/-- The data area of an entry passes the end of the RAM or overlaps that of another enabled PDU (R93). -/
def Hw.pduAreaBad (h : Hw) (u : Nat) : Bool :=
  let b := h.pduBuf u
  let n := h.pduArea u
  decide (0x2_0000 < b + n) || (decide (n ≠ 0) && (List.range 256).any (fun x => x != u && h.pduEn x && overlap b n (h.pduBuf x) (h.pduArea x)))

/-- An entry that is enabled is unsound (R93, Table 02.15): `LEN`, `VID` or `BUF` out of range, or its data area. -/
def Hw.pduUnsound (h : Hw) (u : Nat) : Bool :=
  decide (h.pduLen u = 0) || decide (1024 < h.pduLen u) || decide (h.pduBuf u % 8 ≠ 0) ||
    (h.bit (CEA_PDU u 0) 29 && (h.get (CEA_PDU u 0) 11 0 == 0 || h.get (CEA_PDU u 0) 11 0 == 0xFFF)) || h.pduAreaBad u

/-- A write of word `w` makes an entry, enabled or not, one that R93 refuses: `LEN` out of range where the write gives it, or the data
area where the write may change it. An entry that is disabled and has no `LEN` yet has no data area (assumption log, entry 138). -/
def Hw.pduRefuses (h : Hw) (u w : Nat) : Bool :=
  (w == 1 && (h.pduLen u == 0 || decide (1024 < h.pduLen u))) || ([0, 1, 4].contains w && h.pduAreaBad u) ||
    (h.pduEn u && decide (w ≤ 4) && h.pduUnsound u)

/-- PDU_ENTRY_WRITE (R91, R93): a word of a PDU entry. Enabling it starts its count anew (R91). -/
def execPduEntryWrite (u : Fin 256) (w : Fin 8) (v : Word) (a : Attr) (s : State) : Host.Outcome State Fault Refusal :=
  s.run fun h =>
    let k := CEA_PDU u w
    h.busWrite k a fun h =>
      if w.val ≤ 4 && h.pduMapped u then h.refuse k 0x0100 a
      else
        let g := h.storeReg k v.toNat
        if g.pduRefuses u w then h.refuse k 0x0101 a
        else if w.val = 0 && g.pduEn u && !h.pduEn u then (g.setPdu u {}).put (CEA_PDU u 5) 15 0 0
        else g

/-- An input map entry is out of range (R91, R93, R203, R377, R426, R708). -/
def Hw.inEntryBad (h : Hw) (m : Nat) : Bool :=
  let src := h.mapSrc m
  let n := h.mapLen m
  match h.mapKind m with
  | 1 => decide (15 < src) || decide (n ≠ 4 + 2 * (h.burstInputs src).length)
  | 2 => decide (255 < src) || !h.stnEn src || decide (n ≠ h.stnInLen src)
  | 3 =>
    if src < 2048 then h.objTx (src / 128) (src % 128) || decide (12 + h.objCap (src / 128) (src % 128) < n)
    else decide (2559 < src) || decide (20 < n)
  | 4 => decide (255 < src) || !h.pduEn src || h.pduTx src || decide (n ≠ 12 + h.pduLen src)
  | 5 => decide (n % 8 ≠ 0) || decide (72 < src + n / 8)
  | 6 => decide (255 < src) || !h.stnEn src || decide (n ≠ 8)
  | _ => false

/-- An output map entry is out of range, or names a target that another enabled cadence names (R93, R203, R377, R426). -/
def Hw.outEntryBad (h : Hw) (c m : Nat) : Bool :=
  let src := h.mapSrc m
  let n := h.mapLen m
  let k := h.mapKind m
  let others := (h.cadsOn.filter (· != c)).flatMap (fun d => (h.cadOuts d).filter (fun x => h.mapKind x == k))
  let taken := others.any (fun x => h.mapSrc x == src)
  match k with
  | 8 => decide (n % 4 ≠ 0) || decide (72 < src + n / 4) ||
      others.any (fun x => overlap src (n / 4) (h.mapSrc x) (h.mapLen x / 4))
  | 9 => decide (255 < src) || !h.stnEn src || decide (n ≠ h.stnOutLen src) || taken
  | 10 =>
    taken || (if src < 2048 then !h.objTx (src / 128) (src % 128) || decide (4 + h.objCap (src / 128) (src % 128) < n)
      else decide (2559 < src) || decide (12 < n))
  | 11 => decide (255 < src) || !h.pduEn src || !h.pduTx src || decide (n ≠ h.pduLen src) || taken
  | _ => false

/-- The code with which the enabling of a cadence is refused. R69 names none for the check of its cues: the model takes 0x0101 (assumption
log, entry 138). -/
def Hw.cadRefuses (h : Hw) (c : Nat) : Option Nat :=
  let ins := h.cadIns c
  let outs := h.cadOuts c
  if h.cadPeriod c = 0 ∨ h.cadImgBase c % 8 ≠ 0 ∨ !h.cadCuesOk h.activeHalf c = true then some 0x0101
  else if (ins ++ outs).any (fun m => decide (4096 ≤ m)) || ins.any (fun m => h.mapLen m == 0) || decide (65_504 + 32 < h.imageLen c) then
    some 0x0101
  else if ins.any (fun m => decide (h.mapKind m = 0) || decide (6 < h.mapKind m)) then some 0x0102
  else
    match h.outMapRefuses c outs with
    | some x => some x
    | none =>
      if ins.any h.inEntryBad || outs.any (h.outEntryBad c) || !h.retentionFits h.taskBudget (c :: h.cadsOn.filter (· != c)) then
        some 0x0101
      else none

/-- A cadence leaves service: what its cycle held is dropped. -/
def Hw.cadOff (h : Hw) (c : Nat) : Hw :=
  let h := (h.cadTasks c).foldl (fun (h : Hw) t =>
    (h.dropRun t).setTask t { h.task t with outcome := .idle, buf := [], outs := [], retry := none, unchecked := false }) h
  (h.setCad c {}).trimKept

/-- A channel of the NMU that sends NM frames with a cadence misses it (R450): NO_CADENCE. -/
def Hw.nmMisses (h : Hw) (c : Nat) : Hw :=
  let sends := fun (n : Nat) => let st := h.get (NMU_STATE (n / 8)) (4 * (n % 8) + 3) (4 * (n % 8)); st == 2 || st == 3
  h.raiseIf ((List.range 24).any (fun n => sends n && decide (h.get (NMU_CH n 0) 21 16 = c))) pgNMU 5

/-- CADENCE_ENABLE (R69, R72, R74): a write of word 0 of a cadence entry. -/
def execCadenceEnable (c : Fin 64) (v : Word) (a : Attr) (s : State) : Host.Outcome State Fault Refusal :=
  s.run fun h =>
    let k := CEA_CAD c 0
    h.busWrite k a fun h =>
      let g := h.storeReg k v.toNat
      if h.cadEn c then
        if h.get k 29 0 ≠ g.get k 29 0 then h.refuse k 0x0100 a
        else if g.cadEn c then h
        else ((h.cadOff c).putBit k 31 false).nmMisses c
      else if !g.cadEn c then g
      else
        match g.cadRefuses c with
        | some code => h.refuse k code a
        | none => (g.setCad c {}).fitCadence c

/-- The bank's magic and task number; its CRC (R156, Table 03.13). -/
def Hw.bankHeadOk (h : Hw) (t b : Nat) : Bool :=
  decide (h.progWord b = 0x4B4E_4247) && decide (fld (h.progWord (b + 4)) 8 0 = t)
def Hw.bankCrcOk (h : Hw) (b : Nat) : Bool :=
  decide (crc32 (h.cea.prog.read (b + 0x40) (4 * h.progWord (b + 8)) ++
    h.cea.prog.read (b + h.progWord (b + 0x14)) (h.progWord (b + 0x18))) = h.progWord (b + 0x20))

/-- BANK_WRITE (R156, R160): the register takes the value; a failed check shows in `VALIDn` and in the capture only. A bank that
reaches past program memory has no CRC that holds. -/
def execBankWrite (t : Fin 512) (n : Fin 2) (v : Word) (a : Attr) (s : State) : Host.Outcome State Fault Refusal :=
  s.run fun h =>
    let k := if n.val = 0 then PGM_TASK_BANK0 t else PGM_TASK_BANK1 t
    h.busWrite k a fun h =>
      let act := h.get (PGM_TASK_SEL t) 0 0
      if act == n.val && (h.taskEn t || h.inJob t) then h.refuse k 0x0102 a
      else
        let h := h.storeReg k v.toNat
        let b := h.get k 16 0 * 64
        let w := fun i => h.progWord (b + i)
        let inside := decide (b + 0x40 + 4 * w 0x08 ≤ 0x80_0000) && decide (b + w 0x14 + w 0x18 ≤ 0x80_0000)
        let ok := fun (h : Hw) x => h.putBit (PGM_TASK_SEL t) (8 + n) x
        if !h.bankHeadOk t b then (ok h false).capture pgPGM 0x0100 (busAddr k) a
        else if !inside || !h.bankCrcOk b then (ok h false).capture pgPGM 0x0101 (busAddr k) a
        else
          let h := { ok h true with cea := { h.cea with wcets := file h.cea.wcets (2 * t + n) (w 0x1C) } }
          if act = n.val then h.wr (PGM_TASK_WCET t) (w 0x1C) else h

end Sys2Proof.Machine
end

