-- ==== Sys2Proof/Machine/Forces.lean ====
section
/-! DEFINITION. Forces as firmware writes them (R173 to R186) and service authorisation (R183, R184). -/

namespace Sys2Proof.Machine

/-- Seconds of service authorisation left (R184): `FRC_AUTH` as written, less the seconds since. -/
def Hw.authLeft (h : Hw) : Nat := h.get FRC_AUTH 15 0 - (h.now - h.frc.authAt) / 1_200_000_000

/-- The life-cycle state grants permits of itself (R183): MANUFACTURE or RETURN. -/
def Hw.lcsOpen (h : Hw) : Bool := h.lcs == 1 || h.lcs == 3

/-- FRC_PERMIT_WRITE (R183): a write that sets a bit needs the Secure world and a permitted state. -/
def execFrcPermitWrite (v : Word) (a : Attr) (s : State) : Host.Outcome State Fault Refusal :=
  s.run fun h => h.busWrite FRC_PERMIT a fun h =>
    let new := fld v.toNat 2 0
    let sets := decide (new &&& (7 - h.get FRC_PERMIT 2 0) ≠ 0)
    let may := a.secure && (h.lcsOpen || ((h.lcs == 0 || h.lcs == 2) && decide (h.authLeft ≠ 0)))
    if sets && !may then h.refuse FRC_PERMIT 0x0100 a else h.put FRC_PERMIT 2 0 new

/-- A force entry as its words stand (Table 04.4). -/
def Hw.forceWords (h : Hw) (f : Nat) : ForceEnt :=
  let w := fun i => FRC_FORCE f i
  { sym := h.rd (w 0), state := h.get (w 1) 31 30, image := h.bit (w 1) 29, ty := h.get (w 1) 28 25, owner := h.get (w 1) 24 16,
    elem := h.get (w 1) 15 0, ofs := h.get (w 2) 23 0, value := h.rdPair (w 4) (w 5), newTy := h.get (w 3) 3 0 }

/-- The value of a force is one its type holds (R175). -/
def forceValueOk (ty v : Nat) : Bool :=
  decide (v < 2 ^ (8 * symSize ty)) && (ty != 0 || decide (v ≤ 1)) &&
    (symTy ty != some 3 || (fNorm v == v && !fIsNan v && !fIsInf v))

/-- The owner is enabled, and the element lies in its data, naturally aligned (R175). -/
def Hw.forcePlaceOk (h : Hw) (e : ForceEnt) : Bool :=
  let n := symSize e.ty
  let len := if e.image then h.imageLen (e.owner % 64) else h.instLen (h.bankBase e.owner)
  (if e.image then h.cadEn (e.owner % 64) else h.taskEn e.owner) && decide (e.ofs + n ≤ len) && decide (e.ofs % n = 0)

/-- Where an entry's element lies: image of a cadence or pool, and its first byte. -/
def Hw.forceAt (h : Hw) (e : ForceEnt) : Nat := if e.image then e.owner % 64 * 2 ^ 24 + e.ofs else h.instBase e.owner + e.ofs

/-- The element overlaps that of another active or suspended force (R175). -/
def Hw.forceOverlaps (h : Hw) (f : Nat) (e : ForceEnt) : Bool :=
  h.frc.entries.any (fun x => x.1 != f && x.2.image == e.image &&
    overlap (h.forceAt e) (symSize e.ty) (h.forceAt x.2) (symSize x.2.ty))

/-- The permit that a force needs is absent (R182). -/
def Hw.forceForbidden (h : Hw) (e : ForceEnt) : Bool :=
  !h.bit FRC_PERMIT 0 ||
    (!e.image && h.inOutput e.owner (h.instBase e.owner + e.ofs) (symSize e.ty) && !h.bit FRC_PERMIT 1)

/-- FORCE_WRITE (R175, R182, R186): a write of word 1 of a force entry. -/
def execForceWrite (f : Fin 1024) (v : Word) (a : Attr) (s : State) : Host.Outcome State Fault Refusal :=
  s.run fun h =>
    let k := FRC_FORCE f 1
    h.busWrite k a fun h =>
      let g := h.wr k v.toNat
      let e := g.forceWords f
      let e : ForceEnt := if e.image then { e with owner := e.owner % 64 } else e
      if e.state = 0 then { g with frc := { g.frc with entries := unfile g.frc.entries f } }.frcCounts
      else
        let suspended := match find? h.frc.entries f with | some x => x.state == 2 && e.ty != x.newTy | none => false
        if e.state ≠ 1 ∨ (symTy e.ty).isNone ∨ !g.forcePlaceOk e ∨ !forceValueOk e.ty e.value ∨ suspended = true then
          h.refuse k 0x0101 a
        else if g.forceForbidden e then h.refuse k 0x0100 a
        else if g.forceOverlaps f e then h.refuse k 0x0104 a
        else { g with frc := { g.frc with entries := file g.frc.entries f { e with newTy := 0 } } }.frcCounts

end Sys2Proof.Machine
end

