-- ==== Sys2Proof/Machine/Gorpen.lean ====
section
/-! DEFINITION. The Gorpen instructions (R139 to R146): an engine fetches the word at its current run's program counter;
the command names the opcode it executes. A word of another opcode leaves the command without effect; a word of no
opcode, a word beyond the code and a fetch error trap whatever the command. -/

namespace Sys2Proof.Machine

/-- The opcodes of Table 03.4. -/
def gOpcodes : List Nat :=
  [0x00, 0x01, 0x02, 0x03, 0x04, 0x05, 0x06, 0x07, 0x08, 0x09, 0x10, 0x11, 0x12, 0x18, 0x19, 0x1A, 0x1B, 0x1C, 0x1D, 0x1E, 0x20, 0x21, 0x22, 0x23, 0x24, 0x25, 0x26, 0x28]

/-- What an instruction does: the run goes on, or it ends at END or at RET at depth 0 (R132). -/
inductive GDone where
  | go (r : Run)
  | ended
deriving DecidableEq, Repr

/-- Go on with the next instruction. -/
def Run.next (r : Run) : GDone := .go { r with pc := r.pc + 1 }

/-- At the end of a loop body the next iteration starts, or the loop is left (R144). -/
def loopEnds : Nat → Run → Run
  | 0, r => r
  | k + 1, r =>
    match r.loops with
    | [] => r
    | l :: t =>
      if r.pc ≠ l.stop then r
      else if l.i + 1 < l.n then { r with pc := l.start, loops := { l with i := l.i + 1 } :: t }.setVal 1 l.reg ((l.i + 1 : Nat) : Int)
      else loopEnds k ({ r with loops := t }.setVal 1 l.reg (l.n : Int))

/-- A condition of format B (R142). -/
def gCond (r : Run) (w : Nat) : G Bool :=
  match gMode w with
  | 0 => pure true
  | 1 => pure (r.bool (gC w))
  | 2 => pure (!r.bool (gC w))
  | _ => trapG tIllegal

/-- ALU. -/
def gAlu (r : Run) (w : Nat) : G GDone := do
  let ty := gTy w
  let fn := gFn w
  trapIf (!(aluTypes fn).contains ty) tIllegal
  pairOk ty (gD w)
  pairOk ty (gA w)
  let two := !(fn = 0 || fn = 6 || fn = 7)
  if two then pairOk ty (gB w) else pure ()
  let v ← aluVal fn ty (r.val ty (gA w)) (if two then r.val ty (gB w) else 0)
  pure (r.setVal ty (gD w) v).next

/-- LOGIC. -/
def gLogic (r : Run) (w : Nat) : G GDone := do
  let ty := gTy w
  trapIf (!tyWord ty || decide (gFn w > 0x0A)) tIllegal
  let n := ((r.val 1 (gB w)) % ((tyBits ty : Nat) : Int)).toNat
  let v := logicVal (gFn w) (tyBits ty) (r.val ty (gA w)).toNat (r.val ty (gB w)).toNat n
  pure (r.setVal ty (gD w) (v : Int)).next

/-- CMP. -/
def gCmp (r : Run) (w : Nat) : G GDone := do
  let ty := gTy w
  trapIf (decide (gFn w > 5)) tIllegal
  boolOk (gD w)
  pairOk ty (gA w)
  pairOk ty (gB w)
  pure (r.setBool (gD w) (relVal (gFn w) ty (r.val ty (gA w)) (r.val ty (gB w)))).next

/-- CVT: the target type stands in `fn[2:0]`, `fn[7:3]` is 0, and a pairing that does not exist is ILLEGAL. -/
def gCvt (r : Run) (w : Nat) : G GDone := do
  let src := gTy w
  let dst := gFn w
  trapIf (decide (dst > 7) || (decide (src = 3) && tyWord dst) || (tyWord src && decide (dst = 3))) tIllegal
  pairOk dst (gD w)
  pairOk src (gA w)
  let v ← cvtVal src dst (r.val src (gA w))
  pure (r.setVal dst (gD w) v).next

/-- RND. -/
def gRnd (r : Run) (w : Nat) : G GDone := do
  trapIf (decide (gTy w ≠ 3) || decide (gFn w > 4)) tIllegal
  let v ← fRnd (gFn w) (r.val 3 (gA w)).toNat
  pure (r.setVal 3 (gD w) (v : Int)).next

/-- BOOL. -/
def gBool (r : Run) (w : Nat) : G GDone := do
  let fn := gFn w
  trapIf (decide (fn > 7)) tIllegal
  boolOk (gD w)
  if fn ≤ 5 then boolOk (gA w) else pure ()
  if fn ≤ 3 then boolOk (gB w) else pure ()
  let x := r.bool (gA w % 16)
  let y := r.bool (gB w % 16)
  let v :=
    match fn with
    | 0 => x && y
    | 1 => x || y
    | 2 => x != y
    | 3 => x == y
    | 4 => !x
    | 5 => x
    | 6 => true
    | _ => false
  pure (r.setBool (gD w) v).next

/-- SEL: `fn[3:0]` names the boolean register. -/
def gSel (r : Run) (w : Nat) : G GDone := do
  let ty := gTy w
  trapIf (decide (gFn w > 15)) tIllegal
  pairOk ty (gD w)
  pairOk ty (gA w)
  pairOk ty (gB w)
  pure (r.setVal ty (gD w) (r.val ty (if r.bool (gFn w) then gA w else gB w))).next

/-- BTST: the bit is copied as it stands, in both runs. -/
def gBtst (r : Run) (w : Nat) : G GDone := do
  boolOk (gD w)
  let k := fld w 4 0
  pure { r with b := BitVec.ofNat 16 (setBit r.b.toNat (gD w) (decide (fld (r.raw (gA w)) k k = 1))) }.next

/-- BINS: the boolean is inserted as it stands, in both runs. -/
def gBins (r : Run) (w : Nat) : G GDone := do
  boolOk (gA w)
  let k := fld w 4 0
  pure (r.setRaw (gD w) (setFld (r.raw (gD w)) k k (fld r.b.toNat (gA w) (gA w)))).next

/-- LI. -/
def gLi (r : Run) (w : Nat) : G GDone := do
  let ty := gMTy w
  trapIf (decide (fld w 17 16 ≠ 0)) tIllegal
  pairOk ty (gD w)
  let imm := gImm w
  let v : Int :=
    if ty = 3 then ((imm * 2 ^ 16 : Nat) : Int)
    else if ty = 0 || ty = 1 || ty = 7 then sgn 16 imm
    else (imm : Int)
  pure (r.setVal ty (gD w) v).next

/-- LIH. On real32 bits 15:0 are replaced as they stand, in both runs. -/
def gLih (r : Run) (w : Nat) : G GDone := do
  let ty := gMTy w
  trapIf (decide (fld w 17 16 ≠ 2)) tIllegal
  pairOk ty (gD w)
  let d := gD w
  let imm := gImm w
  if ty = 3 then pure (r.setRaw d (setFld (r.raw d % 2 ^ 32) 15 0 imm)).next
  else if tyWord ty then pure (r.setVal ty d ((((r.val ty d).toNat ||| imm * 2 ^ 16 : Nat)) : Int)).next
  else pure (r.setVal ty d (wrapTy ty (r.val ty d + ((imm * 2 ^ 16 : Nat) : Int)))).next

/-- ADDI. -/
def gAddi (r : Run) (w : Nat) : G GDone :=
  pure (r.setVal 1 (gD w) (wrapTy 1 (r.val 1 (gA w) + sgn 16 (gImm w)))).next

/-- A typed load into a register: LD, LDX and, with `ty` 8, LDB (R135). -/
def Hw.gLd (h : Hw) (c : GCtx) (r : Run) (sp ty d : Nat) (k : Int) : G GDone := do
  let v ← h.gLoad c r sp ty (k * (tySize ty : Int))
  pure (if ty = 8 then r.setBool d (decide (v = 1)) else r.setVal ty d v).next

/-- LD. -/
def Hw.gLoadI (h : Hw) (c : GCtx) (r : Run) (w : Nat) : G GDone := do
  pairOk (gMTy w) (gD w)
  h.gLd c r (gSp w) (gMTy w) (gD w) (gImm w : Int)

/-- LDX. -/
def Hw.gLoadX (h : Hw) (c : GCtx) (r : Run) (w : Nat) : G GDone := do
  pairOk (gMTy w) (gD w)
  h.gLd c r (gSp w) (gMTy w) (gD w) ((gXOff w : Int) + r.val 1 (gB w))

/-- LDB. -/
def Hw.gLoadB (h : Hw) (c : GCtx) (r : Run) (w : Nat) : G GDone := do
  trapIf (decide (gMTy w ≠ 0)) tIllegal
  boolOk (gD w)
  h.gLd c r (gSp w) 8 (gD w) (gImm w : Int)

/-- ST. -/
def gStore (c : GCtx) (r : Run) (w : Nat) : G GDone := do
  let ty := gMTy w
  trapIf (decide (gSp w ≠ 0)) tIllegal
  pairOk ty (gD w)
  let r ← c.store r ty ((gImm w : Int) * (tySize ty : Int)) (r.val ty (gD w))
  pure r.next

/-- STX. -/
def gStoreX (c : GCtx) (r : Run) (w : Nat) : G GDone := do
  let ty := gMTy w
  trapIf (decide (gSp w ≠ 0)) tIllegal
  pairOk ty (gD w)
  let r ← c.store r ty (((gXOff w : Int) + r.val 1 (gB w)) * (tySize ty : Int)) (r.val ty (gD w))
  pure r.next

/-- STB. -/
def gStoreB (c : GCtx) (r : Run) (w : Nat) : G GDone := do
  trapIf (decide (gMTy w ≠ 0) || decide (gSp w ≠ 0)) tIllegal
  boolOk (gD w)
  let r ← c.store r 8 (gImm w : Int) (if r.bool (gD w) then 1 else 0)
  pure r.next

/-- TCV (R76, R137). -/
def gTcv (c : GCtx) (r : Run) (w : Nat) : G GDone := do
  trapIf (decide (gA w ≠ 0)) tIllegal
  let s := fld w 1 0
  if s = 3 then pure (r.setVal 2 (gD w) (c.time r 3)).next
  else do
    pairOk 7 (gD w)
    pure (r.setVal 7 (gD w) (c.time r s)).next

/-- BR (R142). -/
def gBr (r : Run) (w : Nat) : G GDone := do
  trapIf (decide (fld w 19 16 ≠ 0) || decide (gImm w = 0)) tIllegal
  let b ← gCond r w
  pure (.go { r with pc := if b then r.pc + gImm w else r.pc + 1 })

/-- BRK (R144). -/
def gBrk (r : Run) (w : Nat) : G GDone := do
  trapIf (decide (fld w 19 16 ≠ 0) || decide (gImm w ≠ 0)) tIllegal
  let b ← gCond r w
  if b then
    match r.loops with
    | [] => trapG tIllegal
    | l :: t => pure (.go ({ r with pc := l.stop, loops := t }.setVal 1 l.reg (l.i : Int)))
  else pure r.next

/-- LOOP (R144). -/
def gLoop (r : Run) (w : Nat) : G GDone := do
  trapIf (decide (gMax w = 0) || decide (gLen w = 0)) tIllegal
  trapIf (decide (r.loops.length + (r.frames.map (fun f => f.loops.length)).foldl (· + ·) 0 ≥ 4)) tDepth
  let n := min (r.val 1 (gD w)).toNat (gMax w)
  let r := r.setVal 1 (gD w) 0
  if n = 0 then pure (.go { r with pc := r.pc + gLen w + 1 })
  else pure (.go { r with pc := r.pc + 1, loops := ⟨r.pc + 1, r.pc + gLen w + 1, n, 0, gD w⟩ :: r.loops })

/-- CALL. -/
def gCall (r : Run) (w : Nat) : G GDone := do
  trapIf (decide (fld w 25 22 ≠ 0)) tIllegal
  trapIf (decide (r.frames.length ≥ 8)) tDepth
  pure (.go { r with pc := gTgt w, frames := ⟨r.pc + 1, r.loops⟩ :: r.frames, loops := [] })

/-- RET (R132). -/
def gRet (r : Run) (w : Nat) : G GDone := do
  trapIf (decide (fld w 25 0 ≠ 0)) tIllegal
  match r.frames with
  | [] => pure .ended
  | f :: t => pure (.go { r with pc := f.ret, frames := t, loops := f.loops })

/-- END. -/
def gEnd (w : Nat) : G GDone := do
  trapIf (decide (fld w 25 0 ≠ 0)) tIllegal
  pure .ended

/-- NOP. -/
def gNop (r : Run) (w : Nat) : G GDone := do
  trapIf (decide (fld w 25 0 ≠ 0)) tIllegal
  pure r.next

/-- TRAP. -/
def gTrap (r : Run) (w : Nat) : G GDone := do
  trapIf (decide (fld w 19 16 ≠ 0) || decide (gImm w ≠ 0)) tIllegal
  let b ← gCond r w
  trapIf b tUser
  pure r.next

/-- PRIM. -/
def Hw.gPrim (h : Hw) (c : GCtx) (r : Run) (w : Nat) : G GDone := do
  let r ← h.prim c r w
  pure r.next

/-- A load that meets an uncorrectable error (R103): the traps of the instruction's own forms come first. One from CONST
traps as a program fetch does (assumption log, entry 139). -/
def gEcc (const : Bool) (load : Ecc) (x : G GDone) : G GDone :=
  let bad : G GDone := if const then trapG tFetchEcc else .error .ecc
  match load, x with
  | .uncorrectable, .ok _ => bad
  | .uncorrectable, .error (.trap c) => if c = tIllegal ∨ c = tBounds ∨ c = tStoreRo ∨ c = tWbufFull then x else bad
  | _, _ => x

/-- A load from CONST reads program memory and not the pool (R136). -/
def gConst (w : Nat) : Bool := (gOp w = 0x18 || gOp w = 0x1A || gOp w = 0x1C) && decide (gSp w = 2)

/-- Offset of an access, in the pool or in program memory, for the report of an error (Tables 02.13 and 02.14). -/
def Hw.loadAddr (h : Hw) (c : GCtx) (r : Run) (w : Nat) : Nat :=
  if gOp w = 0x28 then (c.instBase + fld w 11 0 * 16) % poolSize
  else
    let n := if gOp w = 0x1C then 1 else tySize (gMTy w)
    let k : Int := if gOp w = 0x1A then (gXOff w : Int) + r.val 1 (gB w) else (gImm w : Int)
    let o := (k * (n : Int)).toNat
    match gSp w with
    | 0 => (c.instBase + o) % poolSize
    | 1 => (h.cadImgBase c.cad + o) % poolSize
    | 2 => c.bank + c.constOfs + o
    | _ => o % poolSize

/-- The DBG's breakpoints match a primary-run address (R188). -/
def Hw.atBreak (h : Hw) (pc : Nat) : Bool :=
  (List.range 8).any (fun k => h.bit (DBG_BP k) 31 && decide (h.get (DBG_BP k) 21 0 = pc))

/-- A trap of the current run: the attached run halts at it where `HALT_ON_TRAP` says so (R188), else the run ends. -/
def Hw.takeTrap (h : Hw) (t : Nat) (r : Run) (code : Nat) : Hw :=
  if h.dbgOn t && decide (r.phase = .primary) && h.bit (CTRL pgDBG) 1 then h.haltRun t { r with pendTrap := some code } 4
  else h.endPhase t r code

/-- What an executed instruction makes of the run (R132, R144, R188, R80, R103). -/
def Hw.retire (h : Hw) (t : Nat) (r : Run) (addr : Nat) (x : G GDone) : Hw :=
  match x with
  | .ok (.go r') =>
    let r' := loopEnds 4 r'
    if r.stepping then h.haltRun t r' 3 else h.setRun t r'
  | .ok .ended => h.endPhase t r 0
  | .error (.trap c) => h.takeTrap t r c
  | .error .differ => h.endPhase t { r with differs := true } 0
  | .error .ecc => h.poolEcc t addr

/-- A background run begins (R109, R137, R176). -/
def Hw.beginBg (h : Hw) (t : Nat) (r : Run) : Hw × Run :=
  if r.bg && !r.begun then
    let h := h.applyForces false t
    (h, { r with begun := true, seq := h.cea.seq, tc0 := h.slotVal 0 / tickUnit * tickUnit })
  else (h, r)

/-- Engine cycles of an instruction with its code line in the cache (Tables 03.4 to 03.10): a BR or BRK counts as taken, a TABLE with
its most points. -/
def gCycles (w : Nat) : Nat :=
  let ty := fld w 10 8
  let long := if ty = 7 then 2 else 1
  match gOp w with
  | 0x01 =>
    let fn := fld w 7 0
    if fn = 3 ∨ fn = 0x0C ∨ fn = 0x0F then (if ty = 3 then 3 else 2)
    else if fn = 4 then (if ty = 3 then 14 else 18)
    else if fn = 5 then 18
    else if (fn = 1 ∨ fn = 2) ∧ ty = 3 then 3
    else long
  | 0x03 => if ty = 3 then 2 else long
  | 0x04 => if ty = 3 ∨ fld w 2 0 = 3 then 3 else 2
  | 0x05 => if fld w 7 0 = 4 then 14 else 2
  | 0x07 => long
  | 0x18 => if gMTy w = 7 then 5 else 4
  | 0x19 => if gMTy w = 7 then 3 else 2
  | 0x1A => if gMTy w = 7 then 5 else 4
  | 0x1B => if gMTy w = 7 then 3 else 2
  | 0x1C => 4
  | 0x1D => 2
  | 0x1E => 2
  | 0x20 => 3
  | 0x21 => 3
  | 0x22 => 2
  | 0x23 => 4
  | 0x24 => 4
  | 0x25 => 4
  | 0x28 => [0, 12, 12, 12, 8, 8, 4, 4, 4, 4, 40, 4, 8, 6, 6, 6, 6, 72].getD (gD w) 1
  | _ => 1

/-- The engine has executed an instruction `w` of a task (Table 02.12): the age of a background task counts from here, and a ripe one
takes from its grant (R112). -/
def Hw.ranNow (h : Hw) (t : Nat) (r : Run) (w : Nat) : Hw :=
  let h := h.setEng r.engine { h.eng r.engine with ranAt := some h.now }
  let x := h.task t
  if !r.bg || x.ripe == some (h.tick32 0) then h
  else h.setTask t { x with ranAt := h.tick32 0, spent := x.spent + gCycles w }

/-- Correctable errors that a fetch and a load have met are counted where the memory stands (Tables 02.13 and 02.14), and an
uncorrectable one of a load from CONST, at offset `a` of program memory. -/
def Hw.loadEcc (h : Hw) (fetch load : Ecc) (const : Bool) (a : Nat) : Hw :=
  let h := if fetch = .corrected then (h.sat PGM_ECC_CE).raise pgPGM 0 else h
  match load, const with
  | .corrected, true => (h.sat PGM_ECC_CE).raise pgPGM 0
  | .corrected, false => (h.sat IMP_ECC_CE).raise pgIMP 0
  | .uncorrectable, true => (({ h with hlt := { h.hlt with ue := true } }.sat PGM_ECC_UE).wr PGM_ECC_ADDR (a % 2 ^ 23)).raise pgPGM 1
  | _, _ => h

/-- An engine executes one instruction of its current run, of opcode `op`; `f` is what the instruction does. -/
def Hw.engineStep (h0 : Hw) (e : Nat) (fetch : Ecc) (op : Nat) (f : Hw → GCtx → Run → Nat → G GDone)
    (load : Ecc := .clean) : Hw :=
  match (if h0.live pgCEA && h0.live (pgCE e) then h0.current e else none) with
  | none => h0
  | some (t, r) =>
    let (h, r) := h0.beginBg t r
    let c := h.gCtx t r
    let addr := c.bank + 0x40 + 4 * r.pc
    if h.dbgOn t && decide (r.phase = .primary) && !r.passBp && h.atBreak r.pc then h.haltRun t r 2
    else
      let r1 := { r with icount := r.icount + 1, passBp := false }
      let again : Bool := match r.first with | some x => decide (x.trap = tFetchEcc) && decide (x.icount = r1.icount) | none => false
      let w := h.progWord addr
      if fetch = .uncorrectable ∨ again then
        let h := if fetch = .uncorrectable then (({ h with hlt := { h.hlt with ue := true } }.sat PGM_ECC_UE).wr PGM_ECC_ADDR (addr % 2 ^ 23)).raise pgPGM 1 else h
        (h.takeTrap t r1 tFetchEcc).ranNow t r1 w
      else if r.pc ≥ c.codeLen then (h.takeTrap t r1 tIllegal).ranNow t r1 0
      else if !gOpcodes.contains (gOp w) then (h.takeTrap t r1 tIllegal).ranNow t r1 w
      else if gOp w ≠ op then h0
      else
        let a := h.loadAddr c r1 w
        let h := h.loadEcc fetch load (gConst w) a
        (h.retire t r1 a (gEcc (gConst w) load (f h c r1 w))).ranNow t r1 w

/-- NOP: a cue with no effect (R44), or the instruction. -/
def execNop (k : NopKind) (s : State) : Host.Outcome State Fault Refusal :=
  s.run fun h =>
    match k with
    | .cue c => h.fireCue c 0x00 (fun _ _ _ _ h => h)
    | .insn e fetch => h.engineStep e fetch 0x00 (fun _ _ r w => gNop r w)

def execAlu (e : Fin 18) (fetch : Ecc) (s : State) : Host.Outcome State Fault Refusal :=
  s.run fun h => h.engineStep e fetch 0x01 (fun _ _ r w => gAlu r w)

def execLogic (e : Fin 18) (fetch : Ecc) (s : State) : Host.Outcome State Fault Refusal :=
  s.run fun h => h.engineStep e fetch 0x02 (fun _ _ r w => gLogic r w)

def execCmp (e : Fin 18) (fetch : Ecc) (s : State) : Host.Outcome State Fault Refusal :=
  s.run fun h => h.engineStep e fetch 0x03 (fun _ _ r w => gCmp r w)

def execCvt (e : Fin 18) (fetch : Ecc) (s : State) : Host.Outcome State Fault Refusal :=
  s.run fun h => h.engineStep e fetch 0x04 (fun _ _ r w => gCvt r w)

def execRnd (e : Fin 18) (fetch : Ecc) (s : State) : Host.Outcome State Fault Refusal :=
  s.run fun h => h.engineStep e fetch 0x05 (fun _ _ r w => gRnd r w)

def execBool (e : Fin 18) (fetch : Ecc) (s : State) : Host.Outcome State Fault Refusal :=
  s.run fun h => h.engineStep e fetch 0x06 (fun _ _ r w => gBool r w)

def execSel (e : Fin 18) (fetch : Ecc) (s : State) : Host.Outcome State Fault Refusal :=
  s.run fun h => h.engineStep e fetch 0x07 (fun _ _ r w => gSel r w)

def execBtst (e : Fin 18) (fetch : Ecc) (s : State) : Host.Outcome State Fault Refusal :=
  s.run fun h => h.engineStep e fetch 0x08 (fun _ _ r w => gBtst r w)

def execBins (e : Fin 18) (fetch : Ecc) (s : State) : Host.Outcome State Fault Refusal :=
  s.run fun h => h.engineStep e fetch 0x09 (fun _ _ r w => gBins r w)

def execLi (e : Fin 18) (fetch : Ecc) (s : State) : Host.Outcome State Fault Refusal :=
  s.run fun h => h.engineStep e fetch 0x10 (fun _ _ r w => gLi r w)

def execLih (e : Fin 18) (fetch : Ecc) (s : State) : Host.Outcome State Fault Refusal :=
  s.run fun h => h.engineStep e fetch 0x11 (fun _ _ r w => gLih r w)

def execAddi (e : Fin 18) (fetch : Ecc) (s : State) : Host.Outcome State Fault Refusal :=
  s.run fun h => h.engineStep e fetch 0x12 (fun _ _ r w => gAddi r w)

def execLd (e : Fin 18) (fetch : Ecc) (load : Ecc) (s : State) : Host.Outcome State Fault Refusal :=
  s.run fun h => h.engineStep e fetch 0x18 (fun h c r w => h.gLoadI c r w) load

def execSt (e : Fin 18) (fetch : Ecc) (s : State) : Host.Outcome State Fault Refusal :=
  s.run fun h => (h.engineStep e fetch 0x19 (fun _ c r w => gStore c r w)).bgRestart

def execLdx (e : Fin 18) (fetch : Ecc) (load : Ecc) (s : State) : Host.Outcome State Fault Refusal :=
  s.run fun h => h.engineStep e fetch 0x1A (fun h c r w => h.gLoadX c r w) load

def execStx (e : Fin 18) (fetch : Ecc) (s : State) : Host.Outcome State Fault Refusal :=
  s.run fun h => (h.engineStep e fetch 0x1B (fun _ c r w => gStoreX c r w)).bgRestart

def execLdb (e : Fin 18) (fetch : Ecc) (load : Ecc) (s : State) : Host.Outcome State Fault Refusal :=
  s.run fun h => h.engineStep e fetch 0x1C (fun h c r w => h.gLoadB c r w) load

def execStb (e : Fin 18) (fetch : Ecc) (s : State) : Host.Outcome State Fault Refusal :=
  s.run fun h => (h.engineStep e fetch 0x1D (fun _ c r w => gStoreB c r w)).bgRestart

def execTcv (e : Fin 18) (fetch : Ecc) (s : State) : Host.Outcome State Fault Refusal :=
  s.run fun h => h.engineStep e fetch 0x1E (fun _ c r w => gTcv c r w)

def execBr (e : Fin 18) (fetch : Ecc) (s : State) : Host.Outcome State Fault Refusal :=
  s.run fun h => h.engineStep e fetch 0x20 (fun _ _ r w => gBr r w)

def execBrk (e : Fin 18) (fetch : Ecc) (s : State) : Host.Outcome State Fault Refusal :=
  s.run fun h => h.engineStep e fetch 0x21 (fun _ _ r w => gBrk r w)

def execLoop (e : Fin 18) (fetch : Ecc) (s : State) : Host.Outcome State Fault Refusal :=
  s.run fun h => h.engineStep e fetch 0x22 (fun _ _ r w => gLoop r w)

def execCall (e : Fin 18) (fetch : Ecc) (s : State) : Host.Outcome State Fault Refusal :=
  s.run fun h => h.engineStep e fetch 0x23 (fun _ _ r w => gCall r w)

def execRet (e : Fin 18) (fetch : Ecc) (s : State) : Host.Outcome State Fault Refusal :=
  s.run fun h => h.engineStep e fetch 0x24 (fun _ _ r w => gRet r w)

def execEndRun (e : Fin 18) (fetch : Ecc) (s : State) : Host.Outcome State Fault Refusal :=
  s.run fun h => h.engineStep e fetch 0x25 (fun _ _ _ w => gEnd w)

def execTrap (e : Fin 18) (fetch : Ecc) (s : State) : Host.Outcome State Fault Refusal :=
  s.run fun h => h.engineStep e fetch 0x26 (fun _ _ r w => gTrap r w)

def execPrim (e : Fin 18) (fetch : Ecc) (load : Ecc) (s : State) : Host.Outcome State Fault Refusal :=
  s.run fun h => h.engineStep e fetch 0x28 (fun h c r w => h.gPrim c r w) load

end Sys2Proof.Machine
end

