-- ==== Sys2Proof/Machine/Debug.lean ====
section
/-! DEFINITION. Debug halting (R187 to R194), and the end of a service authorisation (R184). -/

namespace Sys2Proof.Machine

/-- The attached task and its run, while that run stands halted. -/
def Hw.haltedRun (h : Hw) : Option (Nat × Run) :=
  if !h.bit DBG_STATE 31 then none
  else
    match h.runOf (h.get DBG_STATE 8 0) with
    | some r => if r.stopped then some (h.get DBG_STATE 8 0, r) else none
    | none => none

/-- A halted run goes on: to its end, or for one instruction. One that stood halted at a trap ends in it (R188, R189). -/
def Hw.goOn (h : Hw) (step : Bool) : Hw :=
  match h.haltedRun with
  | none => h
  | some (t, r) =>
    let h := (h.putBit DBG_STATE 30 false).setEngState r.engine engActive
    match r.pendTrap with
    | some c => h.endPhase t { r with stopped := false, pendTrap := none } c
    | none => h.setRun t { r with stopped := false, stepping := step, passBp := true }

/-- A halt is asked for (R188): at once where the primary run executes, else before the next primary run. -/
def Hw.askHalt (h : Hw) : Hw :=
  if !h.bit DBG_STATE 31 then h
  else
    let t := h.get DBG_STATE 8 0
    match h.runOf t with
    | some r =>
      if r.stopped then h
      else if r.phase = .primary then h.haltRun t r 1
      else { h with dbg := { h.dbg with haltReq := true } }
    | none => { h with dbg := { h.dbg with haltReq := true } }

/-- A write of `DBG_HALT` (Table 04.9): `GO`, `RESUME` and `STEP`. -/
def Hw.dbgHaltWrite (h : Hw) (v : Nat) : Hw :=
  if fld v 1 1 = 1 then (if h.haltedRun.isSome then (h.goOn false).raise pgDBG 1 else h)
  else if fld v 2 2 = 1 then h.goOn true
  else if fld v 0 0 = 1 then h.askHalt
  else h

/-- DBG_HALT (R188): the write with `GO` set. -/
def execDbgHalt (v : Word) (a : Attr) (s : State) : Host.Outcome State Fault Refusal :=
  s.run fun h => h.busWrite DBG_HALT a fun h => h.dbgHaltWrite (v.toNat ||| 1)

/-- DBG_RESUME (R189): the write with `RESUME` set. -/
def execDbgResume (v : Word) (a : Attr) (s : State) : Host.Outcome State Fault Refusal :=
  s.run fun h => h.busWrite DBG_HALT a fun h => h.dbgHaltWrite (v.toNat ||| 2)

/-- DBG_STEP (R188): the write with `STEP` set. -/
def execDbgStep (v : Word) (a : Attr) (s : State) : Host.Outcome State Fault Refusal :=
  s.run fun h => h.busWrite DBG_HALT a fun h => h.dbgHaltWrite (v.toNat ||| 4)

/-- The attached task is let go (R193): a halted run resumes; the move back waits for the UNCHECKED commit. -/
def Hw.detach (h : Hw) : Hw :=
  let h := { h with dbg := { h.dbg with want := none, haltReq := false } }.putBit DBG_ATTACH 31 false
  if !h.bit DBG_STATE 31 then h
  else
    let h := if h.haltedRun.isSome then (h.goOn false).raise pgDBG 1 else h
    { h with dbg := { h.dbg with leaving := true } }

/-- A write of `DBG_ATTACH` (R187, R193). `REQ` reads 1 until the attachment is made, `DETACH` until the detachment is complete
(assumption log, entry 140). -/
def Hw.dbgAttachWrite (h : Hw) (v : Nat) (a : Attr) : Hw :=
  let t := fld v 8 0
  if fld v 31 31 = 1 then
    if !h.bit FRC_PERMIT 2 then h.refuse DBG_ATTACH 0x0100 a
    else if h.bit DBG_STATE 31 || h.dbg.want.isSome || (h.abandonRota.firstEng engSpare).isNone || h.inJob t then
      h.refuse DBG_ATTACH 0x0101 a
    else { (h.abandonRota.put DBG_ATTACH 8 0 t).putBit DBG_ATTACH 31 true with dbg := { h.dbg with want := some t, leaving := false } }
  else
    let h := h.put DBG_ATTACH 8 0 t
    if fld v 30 30 = 0 then h
    else
      let h := h.detach
      h.putBit DBG_ATTACH 30 h.dbg.leaving

/-- DBG_ATTACH (R187): the write with `REQ` set. -/
def execDbgAttach (v : Word) (a : Attr) (s : State) : Host.Outcome State Fault Refusal :=
  s.run fun h => h.busWrite DBG_ATTACH a fun h => h.dbgAttachWrite (v.toNat ||| 0x8000_0000) a

/-- DBG_DETACH (R193): the write with `DETACH` set. -/
def execDbgDetach (v : Word) (a : Attr) (s : State) : Host.Outcome State Fault Refusal :=
  s.run fun h => h.busWrite DBG_ATTACH a fun h => h.dbgAttachWrite (v.toNat &&& 0x7FFF_FFFF ||| 0x4000_0000) a

/-- The register of a DBG register write: `DBG_GLO0` to `31`, then `DBG_GHI`, then `DBG_B`. -/
def dbgReg (n : Nat) : Nat := if n < 32 then DBG_GLO n else if n = 32 then DBG_GHI else DBG_B

/-- DBG_REGISTER_WRITE (R192). -/
def execDbgRegisterWrite (n : Fin 34) (v : Word) (a : Attr) (s : State) : Host.Outcome State Fault Refusal :=
  s.run fun h =>
    let k := dbgReg n
    h.busWrite k a fun h =>
      match h.haltedRun with
      | none => h.refuse k 0x0102 a
      | some (t, r) =>
        let h := h.storeReg k v.toNat
        let r :=
          if n.val < 32 then r.setRaw n (r.raw n / 2 ^ 32 * 2 ^ 32 + v.toNat)
          else if n.val = 32 then (List.range 32).foldl (fun (r : Run) i => r.setRaw i (r.raw i % 2 ^ 32 + fld v.toNat i i * 2 ^ 32)) r
          else { r with b := BitVec.ofNat 16 v.toNat }
        h.setRun t r

/-- AUTH_EXPIRED (R184): the seconds granted have run out. -/
def execAuthExpired (s : State) : Host.Outcome State Fault Refusal :=
  s.run fun h =>
    if !h.live pgFRC || h.get FRC_AUTH 15 0 = 0 || h.authLeft ≠ 0 then h
    else
      let h := h.put FRC_AUTH 15 0 0
      if h.lcsOpen then h
      else
        let active := h.frc.entries.filter (fun f => f.2.state == 1)
        let h := active.foldl (fun (h : Hw) f => (h.put (FRC_FORCE f.1 1) 31 30 0).wr FRC_REPORT (4 * 2 ^ 28 + f.1))
          { h.put FRC_PERMIT 2 0 0 with frc := { h.frc with entries := h.frc.entries.filter (fun f => f.2.state != 1) } }
        (h.frcCounts.detach).raise pgFRC 8

end Sys2Proof.Machine
end

