-- ==== Sys2Proof/Machine/Twin.lean ====
section
/-! DEFINITION. The twin (R625 to R642): frames, states, authority, images, signatures and declarations. -/

namespace Sys2Proof.Machine

/-- The bytes of an Exrex frame (R626, Table 17.3). -/
def Exrex.bytes (f : Exrex) : List Byte :=
  let b := leBytes 1 (0x10 + f.typ) ++ leBytes 1 f.sub ++ leBytes 2 f.seq ++ leBytes 2 f.payload.length ++ leBytes 2 f.part ++
    leBytes 4 f.tick ++ leBytes 2 f.epoch ++ leBytes 1 f.flags ++ leBytes 1 f.state ++ f.payload
  b ++ leBytes 4 (crc32 b)

/-- A received frame (R626): none where its CRC is wrong, its `VER` is not 1, its `TYPE` is reserved, or it is cut short. -/
def exrexParse (b : List Byte) : Option Exrex :=
  let n := b.length
  let w := fun o k => leNat (slice b o k)
  let len := fld (w 4 2) 12 0
  let typ := fld (w 0 1) 3 0
  if n < 20 + len ∨ leNat (slice b (16 + len) 4) ≠ crc32 (b.take (16 + len)) ∨ fld (w 0 1) 7 4 ≠ 1 ∨ typ = 0 ∨ 8 < typ then none
  else some { typ := typ, sub := w 1 1, seq := w 2 2, part := w 6 2, tick := w 8 4, epoch := w 12 2, flags := fld (w 14 1) 5 0, state := fld (w 15 1) 2 0, payload := slice b 16 len }

/-- A frame goes out on the Ethernet path too (R628): through port P38, with PCP 7 and `ALT`. -/
def Hw.altSend (h : Hw) (typ sub tick flags : Nat) (payload : List Byte) : Hw :=
  if !h.bit TWN_CFG 30 then h
  else
    let f := h.exrexFrame typ sub 0 tick (flags ||| 8) payload
    let src := 2 ^ 32 * h.get RIO_MAC_HI 15 0 + h.rd RIO_MAC_LO
    let dest := 2 ^ 32 * h.get TWN_ALT_HI 15 0 + h.rd TWN_ALT_LO
    h.hand 38 (padFrame (etherHead dest src (some (7, 0)) (h.get TWN_ETYPE 15 0) ++ f.bytes))

/-- Two modules hold authority and hear each other (R632, R642): the higher epoch keeps it, with equal epochs the primary. -/
def Hw.dualAuthority (h : Hw) (f : Exrex) (was : Bool) : Hw :=
  if !h.bit TWN_STATE 3 || fld f.flags 0 0 = 0 then h
  else
    let own := h.get TWN_STATE 31 16
    let keep := decide (f.epoch < own) || (decide (f.epoch = own) && !h.bit TWN_STATE 5)
    let h := h.raiseIf (!was) pgTWN 9
    if keep then h else { h with twn := { h.twn with yield := some 4 } }

/-- What every frame of the partner shows (Tables 17.10 and 17.11). -/
def Hw.peerSeen (h : Hw) (f : Exrex) : Hw :=
  let was := h.bit TWN_STATE 4
  let h := h.wr TWN_PEER (f.epoch * 2 ^ 16 + f.state * 2 ^ 8 + f.flags)
  (h.putBit TWN_STATE 4 (decide (fld f.flags 0 0 = 1))).dualAuthority f was

/-- A frame of type `typ` arrives (R626, R628): one that is discarded is counted and `bad` acts. -/
def Hw.exrexRx (h : Hw) (b : List Byte) (ok : Nat → Bool) (bad : Hw → Hw) (f : Exrex → Hw → Hw) : Hw :=
  if !h.live pgTWN || h.twState == twOff then h
  else
    match exrexParse b with
    | none => bad (h.sat TWN_CRC_ERR_CNT)
    | some x => if ok x.typ then f x (h.peerSeen x) else h

/-- The authority holder, as the twin's states take it: one that must yield counts no more. -/
def Hw.keepsAuthority (h : Hw) : Bool := h.bit TWN_STATE 3 && h.twn.yield.isNone

/-- Enter a twin state. -/
def Hw.setTw (h : Hw) (st : Nat) : Hw := h.put TWN_STATE 2 0 st

/-- From the partner's HELLO or its first heartbeat on, heartbeats are expected (R637; assumption log, entry 151). -/
def Hw.expectBeats (h : Hw) : Hw := { h with twn := { h.twn with hbTick := some (h.twn.hbTick.getD (h.tick32 0)) } }

/-- Enter HELLO: `ALONE_TO` runs, and no heartbeat is expected yet. -/
def Hw.enterHello (h : Hw) : Hw := { h.setTw twHello with twn := { h.twn with heardAt := h.now, hbTick := none } }

/-- The standby enters SYNC (R633). -/
def Hw.enterSync (h : Hw) : Hw := { h.setTw twSync with twn := { h.twn with synced := false, nextSeg := 0, cads := [] } }

/-- The holder enters IN_STEP and begins to send its pool (R633). -/
def Hw.enterHolder (h : Hw) : Hw :=
  { h.setTw twInStep with twn := { h.twn with sendSeg := some 0, sending := true, cads := [] } }.raise pgTWN 8

/-- `TWN_CFG` holds values in range (Table 17.11). -/
def twnCfgOk (v : Nat) : Bool := decide (5 ≤ fld v 15 8) && decide (fld v 15 8 ≤ 200) && decide (1 ≤ fld v 7 0)

/-- The conditions of R629 for `EN`. -/
def Hw.twnMayEnable (h : Hw) : Bool :=
  let ok := fun us => decide (5 ≤ us) && decide (us * 1000 ≤ h.rd TCU_BASE_TICK)
  h.bit (TCU_SRC 0) 31 && h.tcuSource 0 == 1 && ok (h.get TWN_DEADLINE 15 0) && ok (h.get TWN_DEADLINE 31 16) &&
    (List.range 64).all (fun c => !h.bit (TWN_CAD (c / 32)) (c % 32) || h.cadTc c == 0)

/-- TWN_ENABLE (R629, R630, R632): a write of `TWN_CFG`. -/
def execTwnEnable (v : Word) (a : Attr) (s : State) : Host.Outcome State Fault Refusal :=
  s.run fun h => h.busWrite TWN_CFG a fun h =>
    let was := h.bit TWN_CFG 31
    let g := h.storeReg TWN_CFG v.toNat
    if was && decide (fld (h.rd TWN_CFG) 30 0 ≠ fld (g.rd TWN_CFG) 30 0) then h.refuse TWN_CFG 0x0100 a
    else if !twnCfgOk (g.rd TWN_CFG) then h.refuse TWN_CFG 0x0101 a
    else if g.bit TWN_CFG 31 && !was then
      if !h.twnMayEnable then h.refuse TWN_CFG 0x0101 a
      else
        let g := { g with twn := { seq := g.twn.seq, faulty := g.twn.faulty } }.enterHello.put TWN_STATE 11 8 0
        if g.bit TWN_STATE 5 then g else g.takeAuthority 3
    else if was && !g.bit TWN_CFG 31 then
      let g := { g with twn := { seq := g.twn.seq, faulty := g.twn.faulty } }
      ((g.setTw twOff).putBit TWN_STATE 3 false).putBit TWN_STATE 4 false
    else g

/-- HELLO_SEND (R631): once per millisecond. -/
def execHelloSend (s : State) : Host.Outcome State Fault Refusal :=
  s.run fun h =>
    let due := match h.twn.helloAt with | some t => decide (t + 1_200_000 ≤ h.now) | none => true
    if !h.live pgTWN || h.twState == twOff || !due then h
    else
      let p := leBytes 4 (Config.uid 0).toNat ++ leBytes 4 (Config.uid 1).toNat ++
        (List.range 8).flatMap (fun w => leBytes 4 (h.rd (TWN_BUILD w)))
      { h with twn := { h.twn with helloAt := some h.now } }.exrexSend 1 0 0 (h.tick32 0) 0 p

/-- HELLO_RX (R630, Table 17.6). -/
def execHelloRx (b : List Byte) (s : State) : Host.Outcome State Fault Refusal :=
  s.run fun h => h.exrexRx b (· == 1) id fun f h =>
    if h.twState == twHello then
      let same := (List.range 8).all (fun w => leNat (slice f.payload (8 + 4 * w) 4) == h.rd (TWN_BUILD w))
      let h := { h with twn := { h.twn with heardAt := h.now } }
      if !same then h.raise pgTWN 10
      else if h.keepsAuthority then h.expectBeats.enterHolder else h.expectBeats.enterSync
    else if h.twState == twAlone then h.enterHello
    else h

/-- ALONE_TIMEOUT (R630, R632): `ALONE_TO` ms without a partner HELLO. -/
def execAloneTimeout (s : State) : Host.Outcome State Fault Refusal :=
  s.run fun h =>
    if !h.live pgTWN || h.twState != twHello || decide (h.now < h.twn.heardAt + h.get TWN_CFG 7 0 * 1_200_000) then h
    else
      let h := h.setTw twAlone
      if h.bit TWN_STATE 3 then h else h.takeAuthority 3

/-- Engines that are spares: ready, or under the rota's test, or running a rerun. -/
def Hw.spareCount (h : Hw) : Nat := h.engCount engSpare + h.engCount engRerun + (if h.hlt.testing.isSome then 1 else 0)

/-- The hardware's flags of the Dailies (R646). -/
def Hw.dailyFlags (h : Hw) : Nat :=
  let b := fun (i : Nat) (x : Bool) => if x then 2 ^ i else 0
  let tested := decide (h.engCount engOff < 18)
  let cmpBad := (List.range 18).any (fun e => h.engState e != engOff && !h.bit (CE_CMP_TEST e) 31)
  b 0 (h.bit (STATUS pgCEA) 1) + b 1 (tested && h.spareCount == 0) + b 2 (tested && h.spareCount == 1) + b 3 cmpBad + b 4 h.hlt.hold +
    b 5 (h.twState == twDiverged) + b 6 (h.twState == twAlone) + b 7 h.twn.unsynced + b 8 h.twn.faulty + b 9 (decide (3 ≤ h.tcuState 0)) +
    b 10 (decide (h.charge ≠ 2)) + b 11 h.hlt.ue + b 12 (h.frc.applied != []) + b 13 (h.bit FRC_PERMIT 2) +
    2 ^ 16 * h.get HLT_FW_FLAGS 15 0

/-- HEARTBEAT_SEND (R628, R637): at a boundary of TC0, once for each tick. -/
def execHeartbeatSend (s : State) : Host.Outcome State Fault Refusal :=
  s.run fun h =>
    let k := h.tick32 0
    if !h.live pgTWN || h.twState == twOff || !h.tickBoundary 0 || h.twn.hbSent == some k then h
    else
      let p := leBytes 4 (h.engCount engActive + h.spareCount * 0x100) ++ leBytes 4 h.dailyFlags ++
        leBytes 4 (h.get TWN_STATE 11 8) ++ leBytes 4 (h.rd HLT_DSEQ)
      ({ h with twn := { h.twn with hbSent := some k } }.altSend 2 0 k 0 p).exrexSend 2 0 0 k 0 p

/-- Nanoseconds of TC0 since its last boundary. -/
def Hw.sinceTick (h : Hw) : Nat := h.slotVal 0 % tickUnit * h.rd TCU_BASE_TICK / tickUnit

/-- A partner heartbeat arrives by the deadline of its path (R637, R642): `HB` on the Exrex link, `ALT` on the Ethernet path. -/
def Hw.beatInTime (h : Hw) (f : Exrex) : Bool :=
  let alt := fld f.flags 3 3 == 1
  let d := 1000 * (if alt then h.get TWN_DEADLINE 31 16 else h.get TWN_DEADLINE 15 0)
  let k := h.tick32 0
  (!alt || h.bit TWN_CFG 30) &&
    (decide (f.tick = k ∧ h.sinceTick ≤ d) ||
      (decide ((f.tick + 1) % 2 ^ 32 = k ∧ h.rd TCU_BASE_TICK ≤ d) && h.tickBoundary 0))

/-- HEARTBEAT_RX (R637), on either path: any heartbeat sets `MISS` to 0, one in time is not missed. -/
def execHeartbeatRx (b : List Byte) (s : State) : Host.Outcome State Fault Refusal :=
  s.run fun h => h.exrexRx b (· == 2) id fun f h =>
    let h := (h.put TWN_STATE 11 8 0).expectBeats
    if h.beatInTime f then { h with twn := { h.twn with hbTick := some f.tick } } else h

/-- The partner is lost (R638). -/
def Hw.peerLost (h : Hw) : Hw :=
  if h.twState == twAlone then h
  else
    let from_ := h.twState
    let h := (h.setTw twAlone).raise pgTWN 3
    let h := { h with twn := { h.twn with yield := none, sendSeg := none, sending := false, synced := true, unsynced := h.twn.unsynced || (from_ == twSync && !h.bit TWN_STATE 3) } }
    if h.bit TWN_STATE 3 then h
    else if from_ == twHello then h.takeAuthority 3
    else { h with twn := { h.twn with take := some 1, takeAt := h.now + 1 } }

/-- The newest tick whose heartbeat is judged by now: its later deadline lies behind (R637). A heartbeat in the cycle of the
deadline still counts as arrived (R642). -/
def Hw.judgedTick (h : Hw) : Nat :=
  let d := 1000 * max (h.get TWN_DEADLINE 15 0) (if h.bit TWN_CFG 30 then h.get TWN_DEADLINE 31 16 else 0)
  let back := if d < h.sinceTick then 0 else if h.tickBoundary 0 && decide (h.rd TCU_BASE_TICK ≤ d) then 2 else 1
  (h.tick32 0 + 2 ^ 32 - back) % 2 ^ 32

/-- The first tick after the last one heard or judged, where its later deadline lies behind. -/
def Hw.missedTick (h : Hw) : Option Nat :=
  match h.twn.hbTick with
  | none => none
  | some j =>
    let n := (h.judgedTick + 2 ^ 32 - j) % 2 ^ 32
    if 0 < n ∧ n < 2 ^ 31 then some ((j + 1) % 2 ^ 32) else none

/-- HEARTBEAT_MISS (R637, R638): the later deadline has passed without a heartbeat; each tick is judged once. -/
def execHeartbeatMiss (s : State) : Host.Outcome State Fault Refusal :=
  s.run fun h =>
    if !h.live pgTWN || h.twState == twOff then h
    else
      match h.missedTick with
      | none => h
      | some k =>
        let h := { h with twn := { h.twn with hbTick := some k } }
        let h := ((h.sat TWN_HB_MISS_CNT).satF TWN_STATE 11 8).raise pgTWN 2
        if 2 ≤ h.get TWN_STATE 11 8 then h.peerLost else h

/-- A segment of the partner's image is kept (R634); one of another cycle starts a new collection. -/
def TwinCad.segment (x : TwinCad) (f : Exrex) : TwinCad :=
  let segs := if x.segTick = f.tick then x.segs else []
  let last := if fld f.flags 4 4 = 1 then some f.part else if x.segTick = f.tick then x.lastSeg else none
  { x with segTick := f.tick, segs := file segs f.part f.payload, lastSeg := last }

/-- IMAGE_SEGMENT_RX (R634): the last segment replaces the standby's image and releases its tasks. -/
def execImageSegmentRx (b : List Byte) (s : State) : Host.Outcome State Fault Refusal :=
  s.run fun h => h.exrexRx b (· == 3) id fun f h =>
    let c := f.sub % 64
    if h.twState != twInStep || h.bit TWN_STATE 3 || !h.twinned c then h
    else
      let x := h.twinCad c
      let k := h.cad c
      if k.latched && nowLo k.last != f.tick then h
      else
        let x := x.segment f
        let h := h.setTwinCad c x
        match x.waiting, x.image with
        | true, some bs =>
          let h := h.setTwinCad c { x with waiting := false }
          (h.placeImage c (Mem.write [] 0 (bs.take k.imgLen))).releaseTasks c
        | _, _ => h

/-- IMAGE_TIMEOUT (R634, R635): `IMG_TO` µs after the input cue. -/
def execImageTimeout (c : Fin 64) (s : State) : Host.Outcome State Fault Refusal :=
  s.run fun h =>
    let x := h.twinCad c
    if !h.live pgTWN || !x.waiting || decide (h.now < x.cueAt + h.get TWN_CFG 15 8 * 1200) then h
    else ((h.setTwinCad c { x with waiting := false, unpaired := true }).sat TWN_UNPAIRED_CNT).releaseTasks c

/-- SIGNATURE_SEND (R636). -/
def execSignatureSend (c : Fin 64) (s : State) : Host.Outcome State Fault Refusal :=
  s.run fun h =>
    let x := h.twinCad c
    match x.toSend with
    | none => h
    | some (tick, cycle, sig) =>
      let h := h.setTwinCad c { x with toSend := none }
      h.exrexSend 4 c 0 tick (if x.unpaired then 4 else 0) (leBytes 4 cycle ++ leBytes 8 sig ++ [0, 0, 0, 0])

/-- SIGNATURE_RX (R635, R636). -/
def execSignatureRx (b : List Byte) (s : State) : Host.Outcome State Fault Refusal :=
  s.run fun h => h.exrexRx b (· == 4) id fun f h =>
    let c := f.sub % 64
    let x := h.twinCad c
    let sig := leNat (slice f.payload 4 8)
    if h.twState != twInStep || !h.twinned c || x.unpaired then h
    else if fld f.flags 2 2 = 1 then (h.setTwinCad c { x with own := none, peer := none }).sat TWN_UNPAIRED_CNT
    else
      match x.own with
      | some (tick, own) => if tick = f.tick then h.compareSigs c own sig else h
      | none => h.setTwinCad c { x with peer := some (f.tick, sig) }

/-- Pool bytes that the twin applies; the Reel records them (R633, R649). -/
def Hw.twinWrite (h : Hw) (ofs : Nat) (bs : List Byte) : Hw :=
  let inst := h.tc0Words
  let h := h.poolWrite ofs bs
  let ws := (bytesBuf ofs bs).map (fun e => (e.1, h.poolWord e.1))
  h.recordDrain 1 inst (ws.length + 1) ws

/-- The records of a DRAIN frame (Table 17.4). -/
def drainRecords : Nat → List Byte → List (Nat × List Byte)
  | 0, _ => []
  | n + 1, l => if l.length < 12 then [] else (fld (leNat (slice l 0 4)) 23 0, slice l 4 8) :: drainRecords n (l.drop 12)

/-- STATE_RX (R633): STATE and DRAIN frames in the order they arrive; a discarded one restarts SYNC. A standby that had diverged
enters SYNC with the holder's first segment (Table 17.6). -/
def execStateRx (b : List Byte) (s : State) : Host.Outcome State Fault Refusal :=
  s.run fun h =>
    h.exrexRx b (fun t => t == 6 || t == 7)
      (fun h => if h.twState == twSync then h.enterSync else h)
      (fun f h =>
        let h := if h.twState == twDiverged && !h.bit TWN_STATE 3 && f.typ == 6 && f.part == 0 && fld f.flags 0 0 == 1 then h.enterSync
          else h
        if h.twState != twSync then h
        else if f.typ = 7 then (drainRecords 342 f.payload).foldl (fun (h : Hw) r => h.twinWrite r.1 r.2) h
        else if f.part ≠ h.twn.nextSeg ∨ h.twn.synced = true then h
        else
          let h := h.twinWrite (f.part * 4096 % poolSize) f.payload
          { h with twn := { h.twn with nextSeg := h.twn.nextSeg + 1, synced := decide (fld f.flags 4 4 = 1) } })

/-- A declaration has no answer that helps (R639, R640). -/
def Hw.declareRefused (h : Hw) : Hw := { h with twn := { h.twn with declared := none } }.raise pgTWN 11

/-- A module declares itself faulty (R639, R640): whether the declaration went out or waits, and what follows. `cause` is its bit
of `HLT_DECLARED`. -/
def Hw.declareFaulty (h : Hw) (cause : Nat) : Bool × Hw :=
  let h := { h.putBit HLT_DECLARED cause true with twn := { h.twn with faulty := true } }.raise pgHLT 4
  let peer := h.get TWN_PEER 10 8
  if h.twn.declared.isSome then (true, h)
  else if !h.live pgTWN then (false, h)
  else if (h.twState == twInStep || h.twState == twDiverged) && h.bit TWN_STATE 3 && (peer == twInStep || peer == twDiverged) then
    let p := leBytes 4 (h.rd HLT_DECLARED)
    let sub := h.rd HLT_DECLARED % 256
    let h := { h with twn := { h.twn with declared := some h.twn.seq, declaredAt := h.now } }
    (true, (h.altSend 5 sub (h.tick32 0) 0 p).exrexSend 5 sub 0 (h.tick32 0) 0 p)
  else (false, h.declareRefused)

/-- TWN_DECLARE (R639). -/
def execTwnDeclare (d : DeclareBy) (s : State) : Host.Outcome State Fault Refusal :=
  s.run fun h =>
    match d with
    | .write v a =>
      h.busWrite TWN_DECLARE a fun h =>
        if fld v.toNat 0 0 = 0 then h
        else
          match h.declareFaulty 31 with
          | (true, h) => h
          | (false, h) => h.refuse TWN_DECLARE 0x0102 a
    | .condition k =>
      let h := h.putBit HLT_DECLARED k true
      if h.bit HLT_DECLARE_EN k then (h.declareFaulty k).2 else h

/-- DECLARE_RX (R639, R642): ACK from a partner in IN_STEP or DIVERGED, else an ACK that refuses. -/
def execDeclareRx (b : List Byte) (s : State) : Host.Outcome State Fault Refusal :=
  s.run fun h => h.exrexRx b (· == 5) id fun f h =>
    let good := h.twState == twInStep || h.twState == twDiverged
    let h := h.exrexSend 8 0 0 (h.tick32 0) (if good then 0 else 0x20) (leBytes 4 (f.seq + 5 * 2 ^ 16))
    if good && !h.bit TWN_STATE 3 && h.twn.take.isNone then
      { h with twn := { h.twn with take := some 2, takeAt := h.now + 6000 } }
    else h

/-- ACK_RX (R639, R640). -/
def execAckRx (b : List Byte) (s : State) : Host.Outcome State Fault Refusal :=
  s.run fun h => h.exrexRx b (· == 8) id fun f h =>
    let w := leNat (slice f.payload 0 4)
    match h.twn.declared with
    | none => h
    | some q =>
      if fld w 15 0 ≠ q ∨ fld w 19 16 ≠ 5 then h
      else if fld f.flags 5 5 = 1 then h.declareRefused
      else { h with twn := { h.twn with declared := none, yield := some 5 } }

/-- A sent declaration has had no answer for one base tick and the larger deadline (R640). -/
def Hw.declareOver (h : Hw) : Bool :=
  let d := max (h.get TWN_DEADLINE 15 0) (if h.bit TWN_CFG 30 then h.get TWN_DEADLINE 31 16 else 0)
  h.twn.declared.isSome && decide (5 * h.twn.declaredAt + 6 * (h.rd TCU_BASE_TICK + 1000 * d) ≤ 5 * h.now)

/-- DECLARE_DEADLINE (R640). -/
def execDeclareDeadline (s : State) : Host.Outcome State Fault Refusal :=
  s.run fun h => if h.live pgTWN && h.declareOver then h.declareRefused else h

/-- TWN_RESYNC (R630, R647). -/
def execTwnResync (v : Word) (a : Attr) (s : State) : Host.Outcome State Fault Refusal :=
  s.run fun h => h.busWrite TWN_RESYNC a fun h =>
    if fld v.toNat 0 0 = 0 then h
    else if h.twState != twDiverged || !h.bit TWN_STATE 3 then h.refuse TWN_RESYNC 0x0103 a
    else h.enterHolder

/-- EXREX_LANE_LOSS (R625, R630): a lane gains or loses block lock. -/
def execExrexLaneLoss (lane : Fin 2) (locked : Bool) (s : State) : Host.Outcome State Fault Refusal :=
  s.run fun h =>
    if !h.live pgTWN then h
    else
      let was := h.bit (STATUS pgTWN) 0
      let h := h.putBit TWN_LINK lane locked
      let up := h.bit TWN_LINK 0 || h.bit TWN_LINK 1
      let h := h.putBit (STATUS pgTWN) 0 up
      if up && !was then h.raise pgTWN 5
      else if !up && was then
        let h := { h with twn := { h.twn with out := [], sendSeg := none } }.raise pgTWN 4
        let heard := h.bit TWN_CFG 30 && h.get TWN_STATE 11 8 == 0
        if heard && (h.twState == twInStep || h.twState == twSync) then
          { h.setTw twDiverged with twn := { h.twn with sending := false } }
        else h
      else h

/-- TWN_CNT_CLR (Table 17.10). -/
def execTwnCntClr (v : Word) (a : Attr) (s : State) : Host.Outcome State Fault Refusal :=
  s.run fun h => h.busWrite TWN_CNT_CLR a fun h =>
    let regs := [TWN_HB_MISS_CNT, TWN_SIG_MISMATCH_CNT, TWN_UNPAIRED_CNT, TWN_CRC_ERR_CNT]
    each 4 (fun i h => if fld v.toNat i i = 1 then h.wr (regs.getD i 0) 0 else h) h

/-- The link takes what has been sent, and the holder offers the next STATE segment (R627, R633): what passes with time. -/
def Hw.twinTick (h : Hw) : Hw :=
  let h := { h with twn := { h.twn with out := [] } }
  match h.twn.sendSeg with
  | none => h
  | some k =>
    let last := decide (k = 4095)
    let p := (List.range 4096).map (fun i => h.poolByte (4096 * k + i))
    let h := { h with twn := { h.twn with sendSeg := if last then none else some (k + 1) } }
    h.exrexSend 6 0 k (h.tick32 0) (if last then 0x10 else 0) p

end Sys2Proof.Machine
end

