-- ==== Sys2Proof/Machine/Reset.lean ====
section
/-! DEFINITION. Supply, resets and power domains (R29, R674, R691 to R702, R704, R705, R717, R718): what a domain loses, what a
main-logic reset does, and the commands that power up, power down, reset and start the module. -/

namespace Sys2Proof.Machine

/-- The OTP life-cycle state and return count outlive the KEY's power. -/
def Hw.keepLcs (h : Hw) (f : Hw → Hw) : Hw :=
  let x := h.rd KEY_LCS
  (f h).wr KEY_LCS x

/-- Slots that keep running in PD0 (R29). -/
def Hw.slotsOn (h : Hw) : List Nat := (List.range 4).filter (fun n => h.bit (TCU_SRC n) 31)

/-- Configuration and learned rate of the enabled slots, as PD0 keeps them (R29). -/
def Hw.tcuKept (h : Hw) : List (Nat × Nat) :=
  if h.slotsOn.isEmpty then []
  else
    (TCU_BASE_TICK, h.rd TCU_BASE_TICK) ::
      h.slotsOn.flatMap (fun n => [TCU_SRC n, TCU_SRCCFG n, TCU_HOLD_LIMIT n, TCU_SLEW n, TCU_RATE n].map (fun k => (k, h.rd k)))

/-- The registers of a domain return to their reset values (R704). -/
def Hw.dropRegs (h : Hw) (d : Nat) : Hw :=
  { h with regs := h.regs.filter (fun e => domainOf (e.1 / 0x10000) != d), shadow := h.shadow.filter (fun e => domainOf (e.1 / 0x10000) != d) }

/-- PD10: the CUE loses its sheet; the TCU keeps the enabled slots in PD0 (R29), brought to the present and without a
correction. -/
def Hw.loseTime (h : Hw) : Hw :=
  let h := each 4 (fun n (h : Hw) => h.setCorr n 0 0) h
  let kept := h.tcuKept
  let h := { h.dropRegs 10 with cue := {} }
  kept.foldl (fun (h : Hw) e => h.wr e.1 e.2) h

/-- PD2: the key slots, the held requests and everything else of KEY and WGT but what OTP holds. -/
def Hw.loseSecurity (h : Hw) : Hw :=
  let key := { h.key with keys := [], masks := [], maskAt := 0, started := false, remaskAt := h.now }
  h.keepLcs fun h => { h.dropRegs 2 with key := key, held := [] }

/-- Placed units return to T1 when the Reeve loses its placement. -/
def Hw.unplaceAll (h : Hw) : Hw :=
  let t1 := h.mem.frames.foldl (fun m f => m.splice (f.2 * 0x1_0000) 0x1_0000 h.mem.t0 (f.1 * 0x1_0000)) h.mem.t1
  { h with mem := { h.mem with t1 := t1, frames := [] } }

/-- PD6: the Reeve, the XLT and the DMA. -/
def Hw.loseL3 (h : Hw) : Hw :=
  let h := h.unplaceAll.dropRegs 6
  { h with mem := { h.mem with moves := [], moved := 0, logSince := 0, xlat := [], dma := [] } }

/-- Engines of a powered-off domain are OFF, and their runs are lost. -/
def Hw.loseEngines (h : Hw) (d : Nat) : Hw :=
  let mine := fun e => if d = 7 then decide (e < 9) else decide (9 ≤ e)
  let h := h.dropRegs d
  let h := each 18 (fun e (h : Hw) => if mine e then (h.setEngState e engOff).putBit HLT_RETIRED e false else h) h
  { h with cea := { h.cea with runs := h.cea.runs.filter (fun r => !mine r.2.engine), engs := h.cea.engs.filter (fun e => !mine e.1), replace := true } }

/-- PD9: program memory, the instance pool, the retention SRAM, the PDU buffer RAM, and the CEA, IMP, PGM and FRC (R698). -/
def Hw.loseArray (h : Hw) : Hw := { h.dropRegs 9 with cea := {}, frc := {} }

/-- PD11: the switch core, the Granary, RIO, TUN and the VPT. -/
def Hw.loseSwitch (h : Hw) : Hw :=
  let h := { h.dropRegs 11 with sw := { msec := h.sw.msec }, vpt := {} }
  { h with zone := { h.zone with stns := [], rioCnt := [], routes := [], tunCnt := [], handed := [] }, mem := { h.mem with cells := [] } }

/-- The ports of a PHY group. -/
def groupPorts (d : Nat) : List Nat := (List.range 36).filter (fun p => domainOf (pgETH p) == d)

/-- PD12 to PD16: the links of the group go down, and its ports are lost; the wakes of TC10 stay in PD0 (R359). -/
def Hw.losePorts (h : Hw) (d : Nat) : Hw :=
  let ps := groupPorts d
  let on := ps.filter (fun p => h.live (pgETH p) && decide (4 ≤ p) && decide (p < 28) && h.bit (ETH_TC10 p) 31)
  let kept := on.foldl (fun l p => file l p (h.rd (ETH_TC10 p), h.rd (ETH_TC10_FWD p))) h.nmu.tc10
  let h := { h with nmu := { h.nmu with tc10 := kept } }
  let h := if h.pdOn 11 then ps.foldl (fun (h : Hw) p => h.linkHeld p) h else h
  let h := h.dropRegs d
  { h with sw := { h.sw with
    ports := h.sw.ports.filter (fun e => !ps.contains e.1), eth := h.sw.eth.filter (fun e => !ps.contains (e.1 / 32)), ptp := if d = 12 then [] else h.sw.ptp } }

/-- PD18: T1, unless it stays in self-refresh. -/
def Hw.loseT1 (h : Hw) (refresh : Bool) : Hw :=
  let h := h.dropRegs 18
  if refresh then h else { h with mem := { h.mem with t1 := [], frames := [] } }

/-- What a domain loses when its power or its reset takes it (R698, R704). -/
def Hw.domainLost (h : Hw) (d : Nat) (refresh : Bool) : Hw :=
  match d with
  | 2 => h.loseSecurity
  | 6 => h.loseL3
  | 7 => h.loseEngines 7
  | 8 => h.loseEngines 8
  | 9 => h.loseArray
  | 10 => h.loseTime
  | 11 => h.loseSwitch
  | 12 => h.losePorts 12
  | 13 => h.losePorts 13
  | 14 => h.losePorts 14
  | 15 => h.losePorts 15
  | 16 => h.losePorts 16
  | 17 => { h.dropRegs 17 with zone := { h.zone with cans := [], lins := [], linRx := [] } }
  | 18 => h.loseT1 refresh
  | 19 => { h.dropRegs 19 with cry := {}, cvus := [], sw := { h.sw with msec := [] } }
  | 20 => { h.dropRegs 20 with span := { perst := h.span.perst } }
  | 21 => { h.dropRegs 21 with twn := {} }
  | 22 => { h.dropRegs 22 with ain := {} }
  | 23 => { h.dropRegs 23 with dbg := {}, rel := {} }
  | _ => h

/-- Cores of a domain that has lost its power. -/
def Hw.coresLost (h : Hw) (d : Nat) : Hw :=
  let mine := fun c => d == 3 + c / 4
  { h with cores := (List.range 12).map (fun c => if mine c then {} else h.cores.getD c {}), ints := h.ints.filter (fun i => !mine i.core) }

/-- A domain goes off: its bit in `PWR_STATE`, and what it loses. -/
def Hw.domainOff (h : Hw) (d : Nat) (refresh : Bool) : Hw := ((h.domainLost d refresh).coresLost d).putBit PWR_STATE d false

/-- A slot resumes from the PD0 count (R29): in HOLDOVER, in FREERUN without an event on LOC, and in ACQUIRING where it has never
had a value (R31). -/
def Hw.slotResume (h : Hw) (n : Nat) : Hw :=
  if h.tcuSource n = 4 then (h.setTcuState n 4).setSlot n { (h.setTcuState n 4).slot n with run := true }
  else if h.tcuSource n = 0 then h
  else if (h.slot n).hasVal then h.enterHoldover n
  else h.put (TCU_QUAL n) 2 0 1

/-- A domain is up. -/
def Hw.domainUp (h : Hw) (d : Nat) : Hw :=
  let h := h.putBit PWR_STATE d true
  if d = 10 then h.slotsOn.foldl (fun (h : Hw) n => h.slotResume n) h
  else if d = 6 then { h with mem := { h.mem with epochAt := h.now } }
  else if d = 17 then h.nmuPd17Up
  else if d = 18 then { h with mem := { h.mem with scrubAt := h.now } }
  else { h with nmu := { h.nmu with tc10 := h.nmu.tc10.filter (fun e => domainOf (pgETH e.1) != d) } }

/-- PD_DONE (R702 to R704): the PWR's present request ends, and the next one is taken up. -/
def execPdDone (s : State) : Host.Outcome State Fault Refusal :=
  s.run fun h =>
    match h.pwr.active with
    | none => h
    | some r =>
      let h := { h with pwr := { h.pwr with active := none } }
      let h := if r.on then h.domainUp r.target else h.domainOff r.target (r.target == 18 && h.pwr.refresh)
      let h := h.putBit PWR_BUSY r.target (h.pwr.queue.any r.same)
      ((h.pwrLast r 0).raise pgPWR 0).pwrGo

/-- The system controller's requests for domains, in the order of R702. -/
def Hw.powerInOrder (h : Hw) (ds : List Nat) : Hw :=
  ((pdOrder.filter (fun d => ds.contains d)).foldl (fun (h : Hw) d =>
    h.pwrQueue { on := true, clk := false, target := d, secure := true, mid := 0, vmid := 0 }) h).pwrGo

/-- The PWR at a main-logic reset: nothing pending, every clock running. -/
def Hw.pwrReset (h : Hw) : Hw :=
  let h := each 32 (fun m (h : Hw) => h.wr (PWR_CLK_STATE m) 0xFFFF_FFFF) (h.wr PWR_BUSY 0)
  { h with pwr := {} }

/-- BOOT at a main-logic reset (R673, R685, R690): a page program under way has completed on the hold-up. -/
def Hw.bootReset (h : Hw) (fired : Bool) : Hw :=
  let o := h.boot
  let h := { h with boot := { released := o.released, reason := o.reason, key := o.key } }
  let h := (h.put BOOT_FL_CMD 27 24 0).putBit (STATUS pgBOOT) 0 false
  let h := ((h.wr BOOT_ACT (if fired then 1 else 0)).wr BOOT_UPD_CTRL 0).wr BOOT_IMG_SVN 0
  each 4 (fun k (h : Hw) => h.wr (BOOT_STAMP k) 0) (h.put BOOT_STAGE 2 0 0 |>.putBit BOOT_STAGE 31 false |>.put BOOT_STAGE 27 24 0)

/-- The page program under way completes (R696, R719). -/
def Hw.lastPage (h : Hw) : Hw := match h.boot.busy with | some o => if o.op = 2 then h.flPage else h | none => h

/-- The life-cycle state that OTP holds takes effect (R603): a return is counted, and END erases the helper data. -/
def Hw.lcsTakes (h : Hw) : Hw :=
  match h.key.lcsNext with
  | none => h
  | some t =>
    let h := if t = 3 then h.put KEY_LCS 7 4 (h.get KEY_LCS 7 4 + 1) else h
    let h := (h.put KEY_LCS 2 0 t).putBit KEY_LCS 8 false
    { h with key := { h.key with lcsNext := none, helper := h.key.helper && t != 4 } }

/-- The event lines whose blocks keep their state through a main-logic reset (PD0 and PD1). -/
def lineKept (e : Nat) : Bool :=
  match lineSource e with
  | some x => decide (domainOf x.1 ≤ 1)
  | none => false

/-- What counts since the main-logic reset starts afresh. -/
def Hw.sinceReset (h : Hw) : Hw :=
  let hlt := { h.hlt with testing := none, holds := 0, t1ue := 0, t0ue := 0, transients := 0 }
  { h with hlt := hlt, key := { h.key with fresh := true }, edges := h.edges.filter (fun x => lineKept x.line), rose := h.rose.filter lineKept }

/-- A main-logic reset (R697, R698): PD2 to PD23 are reset, T1 stays in self-refresh, deferred operations are discarded (R696),
and the PSS is signalled (R248). -/
def Hw.mainReset (h : Hw) (cause : Nat) : Hw :=
  let h := { h with sys := { h.sys with causes := insertLine h.sys.causes cause, inReset := true, deferred := [], wdogBad := 0, resetAt := h.now } }
  let h := h.put SUP_STATE 23 16 0
  let h := if h.stage.running then h.logicLost 2 else h
  let h := h.lastPage
  let h := (pdOrder.reverse).foldl (fun (h : Hw) d => h.domainOff d true) h
  let h := { h with nmu := { h.nmu with tc10 := [], asked := [] } }
  (((h.bootReset (cause == 6)).lcsTakes).pwrReset).sinceReset

/-- MAIN_LOGIC_RESET (R691, R696, R697): `VBAT` has stayed below the reset threshold; `mv` is its measured value. A reset during
Hold is logged. -/
def execMainLogicReset (mv : BitVec 16) (s : State) : Host.Outcome State Fault Refusal :=
  s.run fun h =>
    let h := h.vbatMeasured mv.toNat
    if 4550 < mv.toNat then h else (h.raiseIf h.inHold pgSUP 5).mainReset 2

/-- RESET_N (R697, R718): the pin has been low for 1 µs, or it rises. -/
def execResetN (low : Bool) (s : State) : Host.Outcome State Fault Refusal :=
  s.run fun h =>
    let h := { h with sys := { h.sys with resetNLow := low, resetAt := h.now } }
    if low then h.mainReset 3 else h

/-- SYS_RESET_REQ (R699). -/
def execSysResetReq (v : Word) (a : Attr) (s : State) : Host.Outcome State Fault Refusal :=
  s.run fun h => h.busWrite SYS_RESET_REQ a fun h =>
    if !a.secure || fld v.toNat 31 16 != 0x5253 || fld v.toNat 0 0 != 1 then h.refuse SYS_RESET_REQ 0x0100 a
    else h.mainReset 5

/-- SYS_WDOG (R700, R247). -/
def execSysWdog (v : Word) (a : Attr) (s : State) : Host.Outcome State Fault Refusal :=
  s.run fun h => h.busWrite SYS_WDOG a fun h =>
    let n := h.get SYS_WDOG_NEXT 15 0
    if fld v.toNat 15 0 = n ∧ fld v.toNat 31 16 = 0xFFFF - n then
      { h.put SYS_WDOG_NEXT 15 0 (n + 1) with sys := { h.sys with wdogBad := 0, wdogAt := h.now } }
    else if !h.bit SYS_WDOG_CFG 31 then h
    else if 1 ≤ h.sys.wdogBad then h.mainReset 4
    else { h with sys := { h.sys with wdogBad := 1 } }

/-- The system watchdog has had no heartbeat for `TIMEOUT` ms (R700). -/
def Hw.wdogOver (h : Hw) : Bool :=
  h.bit SYS_WDOG_CFG 31 && !h.sys.inReset && decide (h.sys.wdogAt + h.get SYS_WDOG_CFG 9 0 * 1_200_000 ≤ h.now)

/-- SYS_WDOG_EXPIRY (R700). -/
def execSysWdogExpiry (s : State) : Host.Outcome State Fault Refusal :=
  s.run fun h => if h.wdogOver then h.mainReset 4 else h

/-- BOOT_RECOVER (R681, Table 19.7). -/
def execBootRecover (v : Word) (a : Attr) (s : State) : Host.Outcome State Fault Refusal :=
  s.run fun h => h.busWrite BOOT_RECOVER a fun h =>
    let r := fld v.toNat 11 8
    if fld v.toNat 0 0 = 0 then h
    else if r ≠ 0 ∧ r ≠ 7 ∧ r ≠ 9 then h.refuse BOOT_RECOVER 0x0101 a
    else { h with boot := { h.boot with reason := some (if r = 0 then 9 else r) } }.mainReset 7

/-- The activation restarts the module (R686). -/
def Hw.activateNow (h : Hw) : Hw := (h.raise pgBOOT 2).mainReset 6

/-- ACTIVATE (R686): without `ARM` it has no effect; during Hold it is deferred. -/
def activateEff (_arg _v _tc _idx : Nat) (h : Hw) : Hw :=
  if !h.bit BOOT_ACT 31 then h
  else if h.inHold then (h.defer .activate).raise pgBOOT 3
  else h.activateNow

/-- ACTIVATE cue. -/
def execActivate (c : CueRef) (s : State) : Host.Outcome State Fault Refusal := s.run fun h => h.fireCue c 0x58 activateEff

/-- The straps as sampled at release (R717). -/
def Hw.straps (h : Hw) (mode : Nat) (root secondary : Bool) : Hw :=
  ((h.put BOOT_STAGE 18 16 mode).putBit SPN_LINK 30 root).putBit TWN_STATE 5 secondary

/-- 200 µs have passed since the causes in force ended; a `VBAT` cause (1 and 2) ends when `VBAT` has been back for 1 ms (R718). -/
def Hw.releaseDue (h : Hw) : Bool :=
  let vbat := h.sys.causes.any (fun c => c == 1 || c == 2)
  h.sys.inReset && !h.sys.resetNLow && !h.sys.vbatOff && decide (h.sys.resetAt + (if vbat then 1_440_000 else 240_000) ≤ h.now)

/-- RESET_RELEASE (R697, R702, R717, R718): 200 µs after every cause has ended. The start is counted, and the domains power up. -/
def execResetRelease (bootMode : BitVec 3) (twinRole spanRole : Bool) (s : State) : Host.Outcome State Fault Refusal :=
  s.run fun h =>
    if !h.releaseDue then h
    else
      let cause := h.sys.causes.headD 0
      let h := { h with sys := { h.sys with causes := [], inReset := false }, boot := { h.boot with released := h.now } }
      let h := (h.put SYS_RESET_CAUSE 3 0 cause).incF SYS_RESET_CAUSE 31 16
      (h.straps bootMode.toNat spanRole twinRole).powerInOrder pdOrder

/-- Below 3.0 V everything is off; flash and OTP keep what they hold (R30, R265, R691). -/
def Hw.vbatLost (h : Hw) : Hw :=
  let lcs := h.rd KEY_LCS
  let arb := h.rd BOOT_ARB
  let key : KeySt := { helper := h.key.helper, lcsNext := h.key.lcsNext }
  let stage : Stage := { otp := h.stage.otp, used := h.stage.used }
  let x : Hw := { free := h.free, now := h.now, key := key, stage := stage, mem := { flash := h.mem.flash }, sys := { vbatOff := true, inReset := true } }
  (((x.wr KEY_LCS lcs).wr BOOT_ARB arb).wr PWR_STATE 0).wr SYS_RESET_CAUSE 0

/-- VBAT_LOSS (R691). -/
def execVbatLoss (s : State) : Host.Outcome State Fault Refusal := s.run fun h => h.vbatLost

/-- VBAT_POWER_ON (R259, R697): PD0 and PD1 are up, and the start has cause 1; the pins drive the channels. -/
def execVbatPowerOn (mv : BitVec 16) (s : State) : Host.Outcome State Fault Refusal :=
  s.run fun h =>
    if !h.sys.vbatOff then h
    else
      let h := { h with sys := { h.sys with vbatOff := false, inReset := true, causes := [1], resetAt := h.now } }
      (h.lcsTakes.wr PWR_STATE 3).stagePower.vbatMeasured mv.toNat

/-- The sleep sequence has powered a domain off, or its request to do so has not ended yet (R705). -/
def Hw.wentOff (h : Hw) (d : Nat) : Bool :=
  let off := fun (r : PwrReq) => !r.on && !r.clk && r.target == d
  h.pwr.slept.contains d && (!h.pdOn d || h.held.any off || h.pwr.queue.any off || (match h.pwr.active with | some r => off r | none => false))

/-- Off requests of the sleep sequence that have not begun are withdrawn (R703). -/
def Hw.sleepWithdrawn (h : Hw) (ds : List Nat) : Hw :=
  ds.foldl (fun (h : Hw) d =>
    match h.pwrPendingFor { on := true, clk := false, target := d, secure := true, mid := 0, vmid := 0 } with
    | some x => if x.on then h else h.pwrWithdraw x
    | none => h) h

/-- MODULE_WAKE (R705): the NMU has latched a wake. -/
def execModuleWake (s : State) : Host.Outcome State Fault Refusal :=
  s.run fun h =>
    if (!h.pwr.asleep && !h.pwr.sleepSeq) || !h.nmu.woke then h
    else
      let l := h.pwr.slept
      let cold := h.wentOff 3 || h.wentOff 6 || (h.wentOff 18 && !h.pwr.refresh)
      let h := { h with pwr := { h.pwr with asleep := false, sleepSeq := false, refresh := false, slept := [] } }
      if cold then h.mainReset 8 else ((h.sleepWithdrawn l).powerInOrder l).raise pgPWR 4

/-- One deferred operation runs (R695); `ok` is the device's answer to the write of a recovery image. -/
def Hw.runDeferred (h : Hw) (ok : Bool) (d : Deferred) : Hw :=
  if h.sys.inReset then h
  else
    match d with
    | .flash op ofs len src => { h with boot := { h.boot with busy := some { op := op, ofs := ofs, len := len, src := src } } }
    | .persistCheck sec mid vmid => h.keyEnd (h.persistCheck { secure := sec, mid := BitVec.ofNat 8 mid, vmid := BitVec.ofNat 10 vmid })
    | .enrol => h.keyEnd h.enrol
    | .lcsAdvance t => (h.lcsBurn t).putBit KEY_CMD 27 false
    | .arbAdvance main svn => h.arbBurn main svn
    | .pkRev keys => h.pkRevoke keys
    | .mapProg => h
    | .relDump => h.dumpGo
    | .activate => h.activateNow
    | .updateWrite => h.updErase
    | .recovery kind n answer => h.recoveryWrite kind n ok answer

/-- HOLD_EXIT (R695): `VBAT` has stayed at the exit level for 1 ms. -/
def execHoldExit (mv : BitVec 16) (ok : Bool) (s : State) : Host.Outcome State Fault Refusal :=
  s.run fun h =>
    let h := h.vbatMeasured mv.toNat
    if !h.inHold || !h.atExitLevel mv.toNat || decide (h.now < h.sys.holdSince + 1_200_000) then h
    else
      let l := h.sys.deferred
      let h := { h with sys := { h.sys with deferred := [] }, boot := { h.boot with page := false } }
      let h := (h.putBit SUP_STATE 31 false).put SUP_STATE 23 16 0
      let h := (h.wr SUP_HOLD_LAST (min 0xFFFF_FFFF ((h.now - h.sys.holdSince) / 1200))).raise pgSUP 1
      l.foldl (fun (h : Hw) d => h.runDeferred ok d) h

/-- `IN48` is outside its limits. -/
def Hw.in48Bad (h : Hw) : Bool := h.bit SUP_STATE 2 || h.bit SUP_STATE 3

/-- What the gate of a channel does: those of channels 0 to 15 are held off while `IN48` is outside its limits (R692). -/
def Hw.gateNow (h : Hw) (c : Nat) : Gate := if c < 16 ∧ h.in48Bad = true then .off else (h.chan c).gate

/-- Whether the output of a channel is on (R229, R230, R692). -/
def Hw.outputNow (h : Hw) (c : Nat) : Bool := h.gateNow c != .off && h.outputOn c

/-- A class V channel that is commanded on turns on as `IN48` returns (R214, R692). -/
def Hw.in48Back (h : Hw) (c : Nat) : Hw :=
  if !h.driven c then h
  else
    let h := h.openWindow c
    if (h.chan c).ctl = .limp then h else h.showDriven c

/-- IN48_FAULT (R692, R214): `IN48` (in units of 10 mV) goes under or over its limits, or returns. -/
def execIn48Fault (uv ov : Bool) (tens : BitVec 16) (s : State) : Host.Outcome State Fault Refusal :=
  s.run fun h =>
    let was := h.in48Bad
    let h := (h.put SUP_VOLT 31 16 tens.toNat).raiseIf (uv && !h.bit SUP_STATE 2) pgSUP 3
    let h := h.raiseIf (ov && !h.bit SUP_STATE 3) pgSUP 4
    let h := (h.putBit SUP_STATE 2 uv).putBit SUP_STATE 3 ov
    if was && !uv && !ov then each 16 (fun c (h : Hw) => h.in48Back c) h else h

end Sys2Proof.Machine
end

