-- ==== Sys2Proof/Machine/CueFire.lean ====
section
/-! DEFINITION. Cues in groups (R35 to R39, R44, R51, R53, R54): the action table, a step of a slot, the swap of the halves. -/

namespace Sys2Proof.Machine

/-- What an action does (Table 01.7), given the argument, the slot's value, the slot and the entry's index. -/
def cueEff (act : Nat) : Nat → Nat → Nat → Nat → Hw → Hw :=
  match act with
  | 0x01 => latchEff
  | 0x02 => commitEff
  | 0x03 => adcBurstEff
  | 0x10 => gateEff
  | 0x11 => holdEff
  | 0x18 => pwmAlignEff
  | 0x20 => canTxEff
  | 0x28 => linSlotEff
  | 0x30 => rioPollEff
  | 0x31 => rioSendEff
  | 0x38 => dmaTrigEff
  | 0x40 => evtPulseEff
  | 0x48 => tcCaptureEff
  | 0x50 => swapEff
  | 0x58 => activateEff
  | _ => fun _ _ _ _ h => h

/-- An entry fires with a value of its slot (R54). -/
def Hw.fireEntry (h : Hw) (i v : Nat) (e : CueWord) : Hw := h.fireAt i v e (cueEff (cueAction e) (cueArg e) v (cueTc e) i)

/-- The entries of a half that take part on a slot, in index order. -/
def Hw.slotCues (h : Hw) (half n : Nat) : List (Nat × CueWord) :=
  (h.half half).filter (fun x => cueFld x.2 127 127 == 1 && cueTc x.2 == n)

/-- Cues of the active half that are due at a value of their slot and have not fired yet in this cycle fire, in index order. -/
def Hw.fireDue (h : Hw) (n v : Nat) : Hw :=
  ((h.slotCues h.activeHalf n).filter (fun c => instantAt c.2 v && !h.cueNow.cue.done.contains c.1)).foldl
    (fun (h : Hw) c => h.fireEntry c.1 v c.2) h

/-- Put a must-fire cue into its place: earliest passed instant first, then the entry index (R39). -/
def insertMust (at_ i : Nat) (e : CueWord) : List (Nat × Nat × CueWord) → List (Nat × Nat × CueWord)
  | [] => [(at_, i, e)]
  | y :: t => if at_ < y.1 ∨ (at_ = y.1 ∧ i ≤ y.2.1) then (at_, i, e) :: y :: t else y :: insertMust at_ i e t

/-- The must-fire cues of a half with an instant after `lo` and before `hi`, in firing order. -/
def Hw.mustFire (h : Hw) (half n lo hi : Nat) : List (Nat × Nat × CueWord) :=
  ((h.slotCues half n).filter (fun c => cueFld c.2 126 126 == 1 && decide (0 < instantsBetween c.2 lo hi))).foldl
    (fun l c => insertMust (nextInstant c.2 lo) c.1 c.2 l) []

/-- The must-fire cues of the active half fire, with the value after the step (R38). -/
def Hw.fireMust (h : Hw) (n lo hi v : Nat) : Hw :=
  let l := h.mustFire h.activeHalf n lo hi
  (l.foldl (fun (h : Hw) c => h.fireEntry c.2.1 v c.2.2) h).raiseIf (!l.isEmpty) pgCUE 4

/-- Instants that an entry loses between two values (R37, R38). -/
def lostInstants (e : CueWord) (lo hi : Nat) : Nat :=
  instantsBetween e lo hi - (if cueFld e 126 126 = 1 then 1 else 0)

/-- A skipped input cue counts for its cadence's next image (Table 02.5). -/
def Hw.latchSkipped (h : Hw) (i k : Nat) (e : CueWord) : Hw :=
  let c := cueFld e 5 0
  if cueAction e = 1 && h.cadEn c && h.cadLatchIdx c == i then h.setCad c { h.cad c with skipped := (h.cad c).skipped + k } else h

/-- The instants of a half after `lo` and before `hi` are passed: the lost ones count (R37, R38); `SKIP` is raised. -/
def Hw.skipSpan (h : Hw) (half n lo hi : Nat) : Hw :=
  let cs := (h.slotCues half n).filter (fun c => decide (0 < instantsBetween c.2 lo hi))
  let h := cs.foldl (fun (h : Hw) c =>
    let k := lostInstants c.2 lo hi
    if k = 0 then h else (h.sat CUE_SKIP_CNT k).latchSkipped c.1 k c.2) h
  h.raiseIf (!cs.isEmpty) pgCUE 1

/-- Entries of a half that lose an instant after `lo` and before `hi`: the highest index. -/
def Hw.lastSkip (h : Hw) (half n lo hi : Nat) : Option Nat :=
  (((h.slotCues half n).filter (fun c => decide (0 < lostInstants c.2 lo hi))).getLast?).map (·.1)

/-- `CUE_LAST_SKIP` takes the highest of the entries that lost an instant at a step. -/
def Hw.noteSkips (h : Hw) (a b : Option Nat) : Hw :=
  match a, b with
  | none, none => h
  | some i, none => h.wr CUE_LAST_SKIP i
  | none, some j => h.wr CUE_LAST_SKIP j
  | some i, some j => h.wr CUE_LAST_SKIP (max i j)

/-- The check of R69 at a swap of an enabled cadence (R102): it is suspended, and the gate releases the safe values of all its
tasks; or it resumes. -/
def Hw.swapCheck (h : Hw) (c : Nat) : Hw :=
  if h.cadCuesOk h.activeHalf c then
    if (h.cad c).suspended then h.setCad c { h.cad c with suspended := false } else h
  else if (h.cad c).suspended then h
  else
    let h := (h.setCad c { h.cad c with suspended := true }).raise pgCEA 9
    let ts := h.cadTasks c
    let outs := h.inMapOrder c (ts.flatMap (fun t => h.safeValues t))
    let h := ts.foldl (fun (h : Hw) t =>
      let h := h.noteSafe t
      if h.taskState t = 0 ∨ 5 ≤ h.taskState t then h else h.setTaskState t 3) h
    h.gate outs

/-- The halves exchange (R51), and the cadences are checked (R69, R102). Instants of this cycle belong to the old half: those of
the new half fire from the next cycle on (R43). -/
def Hw.carrySwap (h : Hw) : Hw :=
  let h := h.swapHalves.passMarks
  if h.live pgCEA then ((List.range 64).filter (fun c => h.cadEn c)).foldl (fun (h : Hw) c => h.swapCheck c) h else h

/-- The boundary of a swap that waits on a slot. -/
def Hw.swapOn (h : Hw) (n : Nat) : Option Nat :=
  match h.cue.swap with
  | some (tc, b) => if tc = n then some b else none
  | none => none

/-- The cadences of a slot, and the Reel, learn of a step (Table 02.5). -/
def Hw.noteStep (h : Hw) (n : Nat) : Hw :=
  let h := ((List.range 64).filter (fun c => h.cadEn c && h.cadTc c == n)).foldl
    (fun (h : Hw) c => h.setCad c { h.cad c with stepped := true }) h
  { h with rel := { h.rel with stepped := if h.rel.stepped.contains n then h.rel.stepped else h.rel.stepped ++ [n] } }

/-- The slot takes the value after a step (R35). -/
def Hw.takeStep (h : Hw) (n upTo : Nat) : Hw :=
  let h := h.setSlot n { h.slot n with val := upTo % 2 ^ 64, stamp := h.now, corr := 0, ppm := 0, step := none, mark := upTo + 1, jump := upTo % 2 ^ 64 }
  ((h.putBit (TCU_QUAL n) 3 false).incF (TCU_QUAL n) 31 24).tcuEvent n 3

/-- A step that passes no swap boundary, from the cues due at B on (R37 to R39). -/
def Hw.passWhole (h : Hw) (n b upTo : Nat) : Hw :=
  let h := (h.noteSkips (h.lastSkip h.activeHalf n b upTo) none).skipSpan h.activeHalf n b upTo
  (h.fireMust n b upTo upTo).fireDue n upTo

/-- The part of a step that follows the cues due at B (R37 to R39, R53): `swap` is the boundary of a pending swap on the slot. -/
def Hw.passed (h : Hw) (n b upTo : Nat) (swap : Option Nat) : Hw :=
  let old := h.activeHalf
  match swap with
  | none => h.passWhole n b upTo
  | some s =>
    if s ≤ b then h.carrySwap.passWhole n b upTo
    else if s < upTo then
      let h := h.noteSkips (h.lastSkip old n b (s + 1)) (h.lastSkip (1 - old) n s upTo)
      let h := (h.skipSpan old n b (s + 1)).skipSpan (1 - old) n s upTo
      let h := h.fireMust n b (s + 1) upTo
      (h.carrySwap.fireMust n s upTo upTo).fireDue n upTo
    else
      let h := h.passWhole n b upTo
      if s = upTo then h.carrySwap else h

/-- The cues of a slot fire: the CUE is on and enabled, and the slot's state lets them (R62, Table 01.2). -/
def Hw.cuesFire (h : Hw) (n : Nat) : Bool := h.live pgCUE && h.bit (CTRL pgCUE) 0 && h.slotFires n

/-- A step of a slot at boundary `b` by `d` (R35 to R39, R53). -/
def Hw.stepSlot (h : Hw) (n b d : Nat) : Hw :=
  let fires := h.cuesFire n
  let upTo := b + d
  let h := h.setSlot n { h.slot n with val := b, stamp := h.now }
  let h := if fires then h.fireDue n b else h
  let swap := h.swapOn n
  let h := (h.takeStep n upTo).noteStep n
  let h := if fires then h.passed n b upTo swap
    else match swap with | some s => if s ≤ upTo then h.carrySwap else h | none => h
  h.renewHorizons

/-- TIMECODE_STEP: the slot reaches the boundary of a pending step. -/
def execTimecodeStep (n : Fin 4) (s : State) : Host.Outcome State Fault Refusal :=
  s.run fun h =>
    match (h.slot n).step with
    | some (b, d) => if b ≤ h.slotVal n then h.stepSlot n b d.toNat else h
    | none => h

/-- SWAP_DONE (R51): the slot reaches the swap boundary; the cues due at it fire, and the halves exchange. -/
def execSwapDone (s : State) : Host.Outcome State Fault Refusal :=
  s.run fun h =>
    match h.cue.swap with
    | some (n, b) => if h.slotVal n < b then h else ((if h.cuesFire n then h.fireDue n b else h).carrySwap).renewHorizons
    | none => h

/-- The deferred cues fire, ahead of the cues newly due in the cycle, up to 64 of them (R54). -/
def Hw.fireLate (h : Hw) : Hw :=
  if h.cue.late.isEmpty || !h.live pgCUE || !h.bit (CTRL pgCUE) 0 then h
  else
    let h := h.cueNow
    let l := h.cue.late.take 64
    let h := { h with cue := { h.cue with late := h.cue.late.drop 64, fired := l.length } }
    l.foldl (fun (h : Hw) c => h.fireChecked c.word (cueEff (cueAction c.word) (cueArg c.word) c.val (cueTc c.word) c.idx)) h

/-- A forward correction of an ANG slot is carried out at once (R40). -/
def Hw.stepNow (h : Hw) (n : Nat) : Hw :=
  match (h.slot n).step with
  | some (b, d) => if h.tcuSource n = 2 then h.stepSlot n b d.toNat else h
  | none => h

/-- SOURCE_QUALIFIED (R24, R28, R30): a NET slot's value is its instance's time (R352). -/
def execSourceQualified (n : Fin 4) (src : Ratio) (rate : Int) (x : Sighting) (s : State) :
    Host.Outcome State Fault Refusal :=
  s.run fun h =>
    if !h.live pgTCU || h.tcuState n == 2 then h
    else ((h.qualify n src rate x.tickNs x.seen).stepNow n).shaftAt n (unitsOf src)

/-- A difference between the source and a LOCKED slot is measured (R33 to R36, R40, R730); the rate learned so far and, for ANG
and MNS, the tick's length come with it (R28). An ANG shaft that moves is not stalled. -/
def Hw.measured (h : Hw) (n : Nat) (src : Ratio) (rate : Int) (tickNs : Nat) : Hw :=
  if h.tcuSource n = 1 ∧ !h.ptpReports (h.slotPtp n) then h
  else
    let h := h.rebase n
    let src := h.sourceValue n src
    let h := h.wr (TCU_RATE n) (unsgn 32 rate)
    let h := h.setSlot n { h.slot n with tickNs := tickNs, run := true }
    let h := h.putBit (TCU_QUAL n) 4 false
    ((h.judge n (measure src (h.slotVal n)) false).stepNow n).shaftAt n (unitsOf src)

/-- CORRECTION_MEASURED: the source is compared with the slot, or an encoder edge shows where the shaft stands. -/
def execCorrectionMeasured (n : Fin 4) (m : Measure) (ns : Nat) (s : State) : Host.Outcome State Fault Refusal :=
  s.run fun h =>
    if !h.live pgTCU || h.tcuState n != 2 then h
    else
      match m with
      | .source src rate => h.measured n src rate ns
      | .edge fwd => if h.onShaft n then h.encoderEdge n fwd ns else h

/-- The generators of a slot that leaves NET and LOC run free (R232). -/
def Hw.pwmFree (h : Hw) (n : Nat) : Hw :=
  each 72 (fun c (h : Hw) =>
    if h.live (pgPCH (c / 8)) && h.get (cPwm c) 31 30 == n && decide (h.get (cPwm c) 27 0 ≠ 0) then h.putBit (cState c) 3 true else h) h

/-- TCU_SRC_WRITE (R21, R30, R31, R232). -/
def execTcuSrcWrite (n : Fin 4) (v : Word) (a : Attr) (s : State) : Host.Outcome State Fault Refusal :=
  s.run fun h => h.busWrite (TCU_SRC n) a fun h =>
    if 5 ≤ fld v.toNat 2 0 then h.refuse (TCU_SRC n) 0x0101 a
    else
      let old := h.rd (TCU_SRC n)
      let was := h.tcuSource n
      let len := h.tickNs n
      let h := (h.rebase n).storeReg (TCU_SRC n) v.toNat
      let src := h.tcuSource n
      let h := h.sourceChanged n old len
      if (was = 1 ∨ was = 4) ∧ src ≠ 1 ∧ src ≠ 4 then h.pwmFree n else h

end Sys2Proof.Machine
end

