-- ==== Sys2Proof/Machine/Health.lean ====
section
/-! DEFINITION. Engine health and Dailies (R618 to R624, R644 to R646, R648). -/

namespace Sys2Proof.Machine

/-- The Reeve's part of an engine that has passed: active while fewer than 16 are, else spare (R64, R624). -/
def Hw.engineReady (h : Hw) (e : Nat) : Hw := h.engBecomes e (if h.engCount engActive < 16 then engActive else engSpare) 5

/-- An engine that is off is judged by its start-up tests (R618 to R621): it is retired, or ready. -/
def Hw.judged (h : Hw) (e : Nat) (r : EngineTest) : Hw :=
  if h.engState e ≠ engOff then h
  else
    let cmp := decide (r.patterns.val = 64)
    let self := r.sig == 0xC3A5 && r.detected && r.equal
    let h := h.wr (CE_CMP_TEST e) ((if cmp then 2 ^ 31 else 0) + r.patterns.val)
    if !cmp then (h.raise pgHLT 1).retireEngine e
    else
      let h := h.wr (CE_SELFTEST e) ((if self then 2 ^ 31 else 0) + r.sig.toNat)
      if self then h.engineReady e else ((h.raise (pgCE e) 1).raise pgHLT 2).retireEngine e

/-- STARTUP_TEST (R618 to R621): the engines of PD7 (CE0 to CE8) or of PD8 (CE9 to CE17) are judged; an engine without a result
has not passed. -/
def execStartupTest (pd8 : Bool) (res : List EngineTest) (s : State) : Host.Outcome State Fault Refusal :=
  s.run fun h =>
    if !h.pdOn (if pd8 then 8 else 7) || !h.live pgCEA then h
    else
      let base := if pd8 then 9 else 0
      let h := each 9 (fun i (h : Hw) => h.judged (base + i) (res.getD i ⟨0, 0, false, false⟩)) h
      h.putBit (STATUS pgCEA) 2 (h.engCount engOff == 0)

/-- The spare whose turn it is (R622): the one after the last engine tested, in ascending engine number. -/
def Hw.rotaNext (h : Hw) : Option Nat :=
  let spares := (List.range 18).filter (fun e => h.engState e == engSpare)
  match spares.find? (fun e => decide (h.get HLT_ROTA 20 16 < e)) with
  | some e => some e
  | none => spares.head?

/-- SPARE_ROTA (R622): every 500 ms the next spare is tested; one spare alone at every second turn. -/
def execSpareRota (s : State) : Host.Outcome State Fault Refusal :=
  s.run fun h =>
    if !h.live pgHLT || decide (h.now < h.hlt.rotaAt + 600_000_000) then h
    else
      let h := { h with hlt := { h.hlt with rotaAt := h.now } }
      match h.rotaNext with
      | none => h
      | some e =>
        if h.hlt.testing.isSome then h
        else if e = h.get HLT_ROTA 20 16 ∧ h.hlt.passed = false then { h with hlt := { h.hlt with passed := true } }
        else
          let h := { h with hlt := { h.hlt with testing := some e, passed := false } }
          (h.setEngState e engSelftest).put HLT_ROTA 20 16 e

/-- Two numbers of 16 bits in a word, each saturating. -/
def twoHalves (hi lo : Nat) : Nat := min hi 0xFFFF * 2 ^ 16 + min lo 0xFFFF

/-- The Dailies record without its CRC, as words (Table 17.9). -/
def Hw.dailyWords (h : Hw) : List Nat :=
  let x := h.hlt
  let v := h.slotVal 0
  let volt := h.get SUP_VOLT 15 0 / 10
  let vmax := if x.vmax < x.vmin then volt else x.vmax
  let vmin := if x.vmax < x.vmin then volt else x.vmin
  let tripped := ((List.range 72).filter h.tripped).length
  [0x594C_4144, 0x0001_0001, h.rd HLT_DSEQ, (h.now - h.boot.released) / 1_200_000_000 % 2 ^ 32, (Config.uid 0).toNat, (Config.uid 1).toNat,
    nowLo v, v / tickUnit / 2 ^ 32 % 256 * 256 + h.tcuState 0, h.dailyFlags, h.rd CEA_ENG_STATE0, h.rd CEA_ENG_STATE1, h.rd CEA_ENG_STATE2,
    twoHalves x.reruns x.mismatches, twoHalves x.safe x.overruns,
    min 3 h.spareCount * 2 ^ 24 + h.engCount engRetired * 2 ^ 16 + min x.transients 0xFFFF, h.rd TWN_STATE, h.rd TWN_SIG_MISMATCH_CNT,
    h.rd TWN_HB_MISS_CNT, twoHalves vmax vmin, min x.holds 0xFFFF, tripped * 2 ^ 16 + h.charge * 2 ^ 8 + x.junction % 256, x.ce % 2 ^ 32,
    twoHalves x.t1ue x.t0ue, min x.free (h.rd GRN_FREE)] ++
    List.replicate 8 0 ++ (List.range 30).map (fun w => h.rd (HLT_FW w)) ++ [0]

/-- The Dailies are due (R644): at a boundary of TC0 whose instant is a whole second, once; while TC0 is OFF or ACQUIRING, a second
after the last ones. -/
def Hw.dailyDue (h : Hw) : Bool :=
  let k := h.slotVal 0 / tickUnit
  h.live pgHLT &&
    (if h.tcuState 0 ≤ 1 then decide (h.hlt.dailyAt + 1_200_000_000 ≤ h.now)
     else h.tickBoundary 0 && decide (k * h.rd TCU_BASE_TICK % 10 ^ 9 = 0) && h.hlt.dailyTick != some k)

/-- DAILIES (R644): the record is published in one cycle, and sent where `FRAME_EN` says so. -/
def execDailies (s : State) : Host.Outcome State Fault Refusal :=
  s.run fun h =>
    if !h.dailyDue then h
    else
    let h := h.inc HLT_DSEQ
    let ws := h.dailyWords
    let ws := ws ++ [crc32 (wordBytes ws)]
    let h := each 64 (fun w h => h.wr (HLT_DAILY w) (ws.getD w 0)) h
    let x := h.hlt
    let h := { h with hlt := { testing := x.testing, passed := x.passed, holds := x.holds, t1ue := x.t1ue, t0ue := x.t0ue, transients := x.transients, rotaAt := x.rotaAt, dailyAt := h.now, dailyTick := some (h.slotVal 0 / tickUnit) } }
    let h := h.raise pgHLT 0
    if h.bit HLT_CFG 31 then
      let src := 2 ^ 32 * h.get RIO_MAC_HI 15 0 + h.rd RIO_MAC_LO
      let dest := 2 ^ 32 * h.get HLT_DEST_HI 15 0 + h.rd HLT_DEST_LO
      h.hand 38 (padFrame (etherHead dest src (some (h.get HLT_CFG 30 28, 0)) (h.get HLT_ETYPE 15 0) ++ wordBytes ws))
    else h

end Sys2Proof.Machine
end

