-- ==== Sys2Proof/Machine/Jobs.lean ====
section
/-! DEFINITION. The cryptographic engines (R606 to R608, R616). A job runs to its end within its command. -/

namespace Sys2Proof.Machine

/-- Jobs of a queue, oldest first. -/
def Hw.jobs (h : Hw) (q : Nat) : List Job := (find? h.cry.queues q).getD []

/-- Replace the jobs of a queue; `QUEUED` follows. -/
def Hw.setJobs (h : Hw) (q : Nat) (l : List Job) : Hw :=
  ({ h with cry := { h.cry with queues := file h.cry.queues q l } }).put (CRY_QSTAT q) 4 0 l.length

/-- JOB_SUBMIT (R606, Table 16.12). -/
def execJobSubmit (q : Fin 16) (v : Word) (a : Attr) (s : State) : Host.Outcome State Fault Refusal :=
  s.run fun h => h.busWrite (CRY_SUBMIT q) a fun h =>
    if fld v.toNat 5 0 ≠ 0 then h.refuse (CRY_SUBMIT q) 0x0101 a
    else if 16 ≤ (h.jobs q).length then h.refuse (CRY_SUBMIT q) 0x0100 a
    else
      let addr := 2 ^ 32 * h.cry.hi.get a.mid.toNat + v.toNat
      h.setJobs q (h.jobs q ++ [{ addr := addr, secure := a.secure, mid := a.mid.toNat, vmid := a.vmid.toNat }])

/-- Attributes of a job's accesses. -/
def Job.attr (j : Job) : Attr := { secure := j.secure, mid := BitVec.ofNat 8 j.mid, vmid := BitVec.ofNat 10 j.vmid }

/-- Fields of a job descriptor (Table 16.8) given as its 64 bytes. -/
def dWord (d : List Byte) (w : Nat) : Nat := leNat (slice d (4 * w) 4)
def dAddr (d : List Byte) (w : Nat) : Nat := dWord d w + 2 ^ 32 * fld (dWord d (w + 1)) 15 0
def dOp (d : List Byte) : Nat := fld (dWord d 0) 31 24
def dMode (d : List Byte) : Nat := fld (dWord d 0) 23 20
def dEnc (d : List Byte) : Bool := decide (fld (dWord d 0) 19 19 = 1)
def dSlot (d : List Byte) : Nat := fld (dWord d 0) 15 8
def dSrc (d : List Byte) : Nat := dAddr d 2
def dDst (d : List Byte) : Nat := dAddr d 4
def dLen (d : List Byte) : Nat := dWord d 6
def dAux (d : List Byte) : Nat := dAddr d 8

/-- The front job of a queue completes with a code (R606, R608). -/
def Hw.jobDone (h : Hw) (q : Nat) (j : Job) (d : List Byte) (code : Nat) : Hw :=
  let h := (h.memWrite (j.addr + 4) (leBytes 4 (0x8000_0000 + code * 2 ^ 24)) j.attr).2
  let h := (h.setJobs q ((h.jobs q).drop 1)).incF (CRY_QSTAT q) 31 16
  h.raiseIf (decide (fld (dWord d 0) 18 18 = 1)) pgCRY q

/-- The front job of a queue runs, when it is one of operation `op` (or of a reserved operation, which is an invalid
descriptor): `f` gives its code and the state. A descriptor that cannot be read ends the job. -/
def Hw.runJob (h : Hw) (q op : Nat) (f : List Byte → Job → Hw → Nat × Hw) : Hw :=
  if !h.live pgCRY then h
  else
    match h.jobs q with
    | [] => h
    | j :: _ =>
      match h.memRead j.addr 64 j.attr with
      | (none, h) => (h.setJobs q ((h.jobs q).drop 1)).incF (CRY_QSTAT q) 31 16
      | (some d, h) =>
        if dOp d = 0 ∨ 8 < dOp d then h.jobDone q j d 6
        else if dOp d ≠ op then h
        else
          let r := f d j h
          r.2.jobDone q j d r.1

/-- The code that a key check gives (R581, R608); none where the key may be used. -/
def Hw.jobKey (h : Hw) (d : List Byte) (j : Job) (usage : Nat) (types : List Nat) : Option Nat :=
  let k := dSlot d
  if h.keyValid k && h.keyRevoked k then some 2
  else if !h.keyUse k usage (groupOf j.mid) j.secure then some 1
  else if !types.contains (h.keyType k) then some 7 else none

/-- Output of a job: code 0, or 4 where memory refuses it. -/
def Hw.jobOut (h : Hw) (addr : Nat) (bs : List Byte) (j : Job) : Nat × Hw :=
  let r := h.memWrite addr bs j.attr
  (if r.1 then 0 else 4, r.2)

/-- Read of a job; `f` goes on with the bytes. -/
def Hw.jobIn (h : Hw) (addr n : Nat) (j : Job) (f : List Byte → Hw → Nat × Hw) : Nat × Hw :=
  match h.memRead addr n j.attr with
  | (none, h) => (4, h)
  | (some bs, h) => f bs h

/-- CRY_AES (R607): ECB, CBC with the IV at `AUX`, CTR with the counter block there, GCM with the IV and then the tag there. -/
def execCryAes (q : Fin 16) (s : State) : Host.Outcome State Fault Refusal :=
  s.run fun h => h.runJob q 1 fun d j h =>
    let n := dLen d
    let mode := dMode d
    if 3 < mode ∨ (mode ≠ 3 ∧ n = 0) ∨ (mode < 2 ∧ n % 16 ≠ 0) then (6, h)
    else
      match h.jobKey d j (if mode = 3 then 3 else if dEnc d then 0 else 1) [0, 1] with
      | some c => (c, h)
      | none =>
        let key := h.keyBytes (dSlot d)
        let aad := if mode = 3 then dWord d 7 else 0
        h.jobIn (dSrc d) (aad + n) j fun src h =>
          let x := src.drop aad
          if mode = 0 then h.jobOut (dDst d) (aesEcb (dEnc d) key x) j
          else
            h.jobIn (dAux d) (if mode = 3 then 28 else 16) j fun aux h =>
              if mode = 1 then
                h.jobOut (dDst d) (if dEnc d then aesCbcEnc key aux (blocks16 x) else aesCbcDec key aux (blocks16 x)) j
              else if mode = 2 then h.jobOut (dDst d) (aesCtr key aux x) j
              else
                let iv := slice aux 0 12
                let y := gcmCrypt key iv x
                if dEnc d then
                  let r := h.jobOut (dDst d) y j
                  if r.1 = 0 then r.2.jobOut (dAux d + 12) (gcmTag key iv (src.take aad) y) j else r
                else if gcmTag key iv (src.take aad) x = slice aux 12 16 then h.jobOut (dDst d) y j
                else
                  let r := h.jobOut (dDst d) (List.replicate n 0) j
                  (if r.1 = 0 then 3 else 4, r.2)

/-- CRY_SHA (R607): the digest goes to `AUX`. -/
def execCrySha (q : Fin 16) (s : State) : Host.Outcome State Fault Refusal :=
  s.run fun h => h.runJob q 2 fun d j h =>
    if 2 < dMode d then (6, h)
    else h.jobIn (dSrc d) (dLen d) j fun x h =>
      h.jobOut (dAux d) (if dMode d = 0 then sha256 x else if dMode d = 1 then sha384 x else sha512 x) j

/-- CRY_HMAC (R607). -/
def execCryHmac (q : Fin 16) (s : State) : Host.Outcome State Fault Refusal :=
  s.run fun h => h.runJob q 3 fun d j h =>
    if 2 < dMode d then (6, h)
    else
      match h.jobKey d j 4 [2] with
      | some c => (c, h)
      | none =>
        let key := h.keyBytes (dSlot d)
        h.jobIn (dSrc d) (dLen d) j fun x h =>
          h.jobOut (dAux d)
            (if dMode d = 0 then hmac256 key x else if dMode d = 1 then hmac sha384 128 key x else hmac sha512 128 key x) j

/-- CRY_CMAC (R607): the tag is written to `AUX`, or checked against it. -/
def execCryCmac (q : Fin 16) (s : State) : Host.Outcome State Fault Refusal :=
  s.run fun h => h.runJob q 4 fun d j h =>
    match h.jobKey d j 2 [0, 1] with
    | some c => (c, h)
    | none =>
      let key := h.keyBytes (dSlot d)
      h.jobIn (dSrc d) (dLen d) j fun x h =>
        if dEnc d then h.jobOut (dAux d) (cmac key x) j
        else h.jobIn (dAux d) 16 j fun t h => (if t = cmac key x then 0 else 3, h)

/-- ECDSA_SIGN (R607): the nonce from the TRNG. -/
def execEcdsaSign (q : Fin 16) (s : State) : Host.Outcome State Fault Refusal :=
  s.run fun h => h.runJob q 5 fun d j h =>
    let c := if dMode d = 0 then p256 else p384
    if 1 < dMode d ∨ dLen d ≠ c.len then (6, h)
    else
      match h.jobKey d j 8 [if dMode d = 0 then 3 else 4] with
      | some e => (e, h)
      | none =>
        if !h.rngOk then (5, h)
        else
          let key := beNat (h.keyBytes (dSlot d))
          h.jobIn (dSrc d) (dLen d) j fun x h =>
            let (r, h) := h.freeBytes c.len
            h.jobOut (dAux d) (c.sign key (beNat r % (c.n - 1) + 1) x) j

/-- ECDSA_VERIFY (R607): signature and public key at `AUX`. -/
def execEcdsaVerify (q : Fin 16) (s : State) : Host.Outcome State Fault Refusal :=
  s.run fun h => h.runJob q 6 fun d j h =>
    let c := if dMode d = 0 then p256 else p384
    if 1 < dMode d ∨ dLen d ≠ c.len then (6, h)
    else
      h.jobIn (dSrc d) (dLen d) j fun x h =>
        h.jobIn (dAux d) (4 * c.len + 1) j fun aux h =>
          (if c.verify (aux.drop (2 * c.len)) (aux.take (2 * c.len)) x then 0 else 3, h)

/-- ED25519_SIGN (R607, R596). -/
def execEd25519Sign (q : Fin 16) (s : State) : Host.Outcome State Fault Refusal :=
  s.run fun h => h.runJob q 7 fun d j h =>
    if dLen d = 0 then (6, h)
    else
      match h.jobKey d j 8 [5] with
      | some c => (c, h)
      | none =>
        if !h.rngOk then (5, h)
        else
          let key := h.keyBytes (dSlot d)
          h.jobIn (dSrc d) (dLen d) j fun x h => h.jobOut (dAux d) (edSign key x) j

/-- ED25519_VERIFY (R607). -/
def execEd25519Verify (q : Fin 16) (s : State) : Host.Outcome State Fault Refusal :=
  s.run fun h => h.runJob q 8 fun d j h =>
    if dLen d = 0 then (6, h)
    else
      h.jobIn (dSrc d) (dLen d) j fun x h =>
        h.jobIn (dAux d) 96 j fun aux h => (if edVerify (aux.drop 64) (aux.take 64) x then 0 else 3, h)

end Sys2Proof.Machine
end

