-- ==== Sys2Proof/Machine/Takes.lean ====
section
/-! DEFINITION. Takes (R666 to R669): the checks before a Take, the cycles it replays from their images, and what stops it. -/

namespace Sys2Proof.Machine

/-- A timecode value from its two words (the layout of `TCU_NOW_HIn`). -/
def instantOf (lo hi : Nat) : Nat := (2 ^ 32 * fld hi 7 0 + lo) * tickUnit + fld hi 31 8

/-- The instant of an IMAGE or DRAIN record: its payload's first two words. -/
def RelRec.instant (r : RelRec) : Nat := instantOf r.w0 r.w1

/-- The payload of a record of the dump. -/
def Hw.takePayload (h : Hw) (base : Nat) (r : RelRec) : List Byte :=
  h.relRead (base + r.ofs + 16) (fld (h.relWord (base + r.ofs)) 16 0)

/-- The record's CRC holds (R667). -/
def Hw.takeCrcOk (h : Hw) (base : Nat) (r : RelRec) : Bool :=
  crc32 (h.relRead (base + r.ofs) 12 ++ h.takePayload base r) == h.relWord (base + r.ofs + 12)

/-- Pieces of 12 bytes of a list of `n` bytes, from its offset `o`. -/
def pieces12 (l : List Byte) (o : Nat) : List (List Byte) := (List.range ((l.length - o) / 12)).map (fun i => slice l (o + 12 * i) 12)

/-- A DRAIN record goes into the pool: of its entries those that `which` picks by flags. -/
def Hw.takeDrain (h : Hw) (p : List Byte) (which : Nat → Bool) : Hw :=
  (pieces12 p 8).foldl (fun (h : Hw) e =>
    let w := leNat (slice e 0 4)
    if which (fld w 31 29) then h.poolWrite (fld w 23 0) (slice e 4 8) else h) h

/-- A snapshot record's program words agree with the PGM and the task entries (R667). -/
def Hw.takeSame (h : Hw) (p : List Byte) : Bool :=
  (pieces12 p 8).all (fun e =>
    let t := fld (leNat (slice e 0 4)) 8 0
    leNat (slice e 4 4) == h.bankCrc t && leNat (slice e 8 4) == h.instBase t)

/-- The Take's state machine starts: the pool from the snapshot and the drains up to the start point (R667). -/
def Hw.takeLoad (h : Hw) (base area : Nat) (snap : RelRec) (l : List RelRec) (start : Nat) : Hw :=
  let img := h.relRead (base + 64 + fld snap.w0 0 0 * 0x100_0000) 0x100_0000
  let h := { h with cea := { h.cea with pool := Mem.write [] 0 img, drains := [], kept := [] } }
  let left := l.filter (fun r => decide (snap.no < r.no))
  let early := fun (r : RelRec) => r.kind == 4 && decide (r.instant < start)
  let h := (left.filter early).foldl (fun (h : Hw) r => h.takeDrain (h.takePayload area r) (fun _ => true)) h
  { h.setRelState 5 with rel := { h.rel with take := some { base := area, left := left.filter (fun r => !early r), start := start } } }

/-- The checks of R667, and the start. -/
def Hw.takeStart (h : Hw) : Hw :=
  let base := 2 ^ 32 * h.get REL_TAKE_BASE_HI 7 0 + 0x1_0000 * h.get REL_TAKE_BASE_LO 31 16
  let head := h.relRead base 64
  let w := fun i => leNat (slice head (4 * i) 4)
  let result := fun (h : Hw) x => h.put REL_TAKE_STAT 26 24 x
  if head.length ≠ 64 ∨ w 0 ≠ 0x504D_4452 ∨ fld (w 1) 23 0 ≠ 0x1_0001 ∨ crc32 (head.take 60) ≠ w 15 ∨ w 8 = 0 then result h 1
  else
    let area := base + 64 + 0x200_0000
    let l := h.parseRecs area (w 8) (w 8) (w 8) (w 9 + 1) 0 0
    match (startPoints l).find? (fun r => r.w0 == h.rd REL_TAKE_START) with
    | none => result h 2
    | some i =>
      let ended := fun (b : RelRec) => l.any (fun e => e.kind == 9 && e.w1 == b.w1 && decide (b.no < e.no) && e.endsBefore i)
      match (l.filter (fun b => b.kind == 8 && ended b)).getLast? with
      | none => result h 2
      | some b =>
        if h.takeSame (h.takePayload area b) then (result h 0).takeLoad base area b l i.instant else result h 3

/-- TAKE_GO (R666, R667): a write of `REL_TAKE_CTRL`. -/
def execTakeGo (v : Word) (a : Attr) (s : State) : Host.Outcome State Fault Refusal :=
  s.run fun h => h.busWrite REL_TAKE_CTRL a fun h =>
    let keep := fun (h : Hw) => h.putBit REL_TAKE_CTRL 8 (fld v.toNat 8 8 == 1)
    if fld v.toNat 0 0 = 0 then keep h
    else if !h.lcsOpen || h.bit (CTRL pgCUE) 0 then h.refuse REL_TAKE_CTRL 0x0102 a
    else if h.get (CTRL pgREL) 1 0 ≠ 3 ∨ h.relState = 5 then h.refuse REL_TAKE_CTRL 0x0103 a
    else (keep h).takeStart

/-- What a COMMIT record says of a task: `UNCHECKED`, `LAST`, `ENGINE`, `TASK`. -/
def commitTasks (p : List Byte) : List (Nat × Nat × Nat × Bool) :=
  (List.range ((p.length - 16) / 4)).map (fun i =>
    let w := leNat (slice p (16 + 4 * i) 4)
    (fld w 8 0, fld w 27 24, fld w 20 16, decide (fld w 31 31 = 1)))

/-- The COMMIT record of the cycle whose IMAGE record is `i`. -/
def TakeSt.commitOf (x : TakeSt) (i : RelRec) : Option RelRec :=
  x.left.find? (fun r => r.kind == 3 && r.sub == i.sub && r.w0 == i.w0 && decide (i.no < r.no))

/-- A task takes part in a replayed cycle: on the recorded engine, or on the Reeve's choice where that one is retired. -/
def Hw.takeTask (h : Hw) (eng : Nat) (seq t : Nat) : Hw :=
  let x := h.task t
  if x.retry.isSome || x.unchecked then h.setTaskState t 4
  else
    let e := if eng < 18 ∧ h.engState eng ≠ engRetired ∧ h.engState eng ≠ engOff then eng else h.taskEng t
    let h := (h.dropRun t).setTask t { x with outcome := .running, buf := [], outs := [] }
    if e < 18 then h.startRun t { engine := e, seq := seq, img := (h.cad (h.taskCad t)).img, imgLen := (h.cad (h.taskCad t)).imgLen } else h

/-- A recorded image in place of a latch (R668). -/
def Hw.takeLatch (h : Hw) (x : TakeSt) (r : RelRec) : Hw :=
  let c := r.sub
  let p := h.takePayload x.base r
  let words := match x.commitOf r with | some k => commitTasks (h.takePayload x.base k) | none => []
  let engOf := fun t => match words.find? (fun w => w.1 == t) with | some w => w.2.2.1 | none => 31
  let h := (h.cadTasks c).foldl (fun (h : Hw) t => h.applyForces false t) h
  let seq := h.cea.seq + 1
  let h := { h with cea := { h.cea with seq := seq } }
  let h := h.setCad c { h.cad c with latched := true, ready := true, seq := seq, img := Mem.write [] 0 p, imgLen := p.length, last := r.instant }
  let h := (h.poolWriteAt (seq - 1) (h.cadImgBase c) p).wr (CEA_CAD c 7) r.w0
  (h.cadTasks c).foldl (fun (h : Hw) t => h.takeTask (engOf t) seq t) h

/-- The first cycle that can start: its image lies ahead at or after the start point, its cadence is free, and every commit
before its input cue has been applied (R668). -/
def Hw.takeNext (h : Hw) (x : TakeSt) : Option RelRec :=
  x.left.find? (fun r =>
    r.kind == 2 && decide (x.start ≤ r.instant) && !(h.cad r.sub).latched &&
      !x.left.any (fun q => q.kind == 2 && q.sub == r.sub && decide (q.no < r.no)) &&
      !x.left.any (fun q => q.kind == 4 && decide (q.instant < r.instant)))

/-- A divergence (R669). -/
def Hw.takeDiverge (h : Hw) (c t : Nat) : Hw :=
  let h := if h.get REL_TAKE_STAT 15 0 = 0 then h.wr REL_TAKE_DIV (c * 2 ^ 24 + t) else h
  (h.satF REL_TAKE_STAT 15 0).raise pgREL 6

/-- The Take stops; cycles under way are given up. -/
def Hw.takeStop (h : Hw) : Hw :=
  let cs := (List.range 64).filter (fun c => (h.cad c).latched)
  let h := cs.foldl (fun (h : Hw) c =>
    let h := (h.cadTasks c).foldl (fun (h : Hw) t =>
      (h.dropRun t).setTask t { h.task t with outcome := .idle, buf := [], outs := [], retry := none }) h
    h.setCad c { h.cad c with latched := false, ready := false }) h
  { (h.putBit REL_TAKE_CTRL 0 false).setRelState 6 with rel := { h.rel with take := none } }.trimKept

/-- A task at a replayed commit: the recorded outcome is imposed (R668). `LAST` 2 holds its results for its retry. -/
def CommitAcc.take (x : CommitAcc) (w : Nat × Nat × Nat × Bool) : CommitAcc :=
  let (t, last, eng, unchecked) := w
  let h := x.hw
  let ts := h.task t
  let equal := ts.outcome = .equal ∨ (match ts.retry with | some r => r.equal | none => false) = true
  if (last = 0 ∨ last = 4) ∧ equal then
    let y := { x with hw := h.setTask t { ts with unchecked := unchecked } }.commit t last
    { y with good := y.good ++ [t] }
  else if last = 2 then
    let r : Rerun := { engine := eng, suspect := eng, started := true, equal := decide (ts.outcome = .equal), opened := true }
    { x with hw := ((h.setTask t { ts with outcome := .idle, retry := some r }).setLast t 2).setTaskState t 2 }
  else
    let h := (h.dropRun t).setTask t { ts with outcome := .idle, buf := [], outs := [], unchecked := false, retry := none }
    if last = 6 then { x with hw := h.setTaskState t 3 }.safe t else { x with hw := h.setLast t last }

/-- A COMMIT record of a replayed cycle (R668, R669). -/
def Hw.takeCommit (h : Hw) (c : Nat) (p : List Byte) : Hw :=
  let ws := commitTasks p
  let x := ws.foldl CommitAcc.take { hw := h : CommitAcc }
  let h := x.hw
  let outs := h.inMapOrder c x.outs
  let sig := h.signature outs
  let bad := ws.filter (fun w => (w.2.1 == 0 || w.2.1 == 4) && !x.good.contains w.1)
  let h := x.words.foldl (fun (h : Hw) e => h.poolWrite (8 * e.1) (leBytes 8 (mergeEnt (h.poolWord e.1) e.2).toNat)) h
  let h := ((h.inc (CEA_CAD c 5)).raiseG pgCEA (1 + c / 32) (c % 32)).wr REL_TAKE_TICK (nowLo (h.cad c).last)
  let h := h.setCad c { h.cad c with latched := false, ready := false }
  let h := h.trimKept
  if bad.isEmpty && sig == leNat (slice p 0 8) then h
  else
    let h := h.takeDiverge c (match bad with | w :: _ => w.1 | [] => 0x1FF)
    if h.bit REL_TAKE_CTRL 8 then h.takeStop else h

/-- A FORCE record goes into the force table (R668): the entry of the same place and element, or the first free one. -/
def Hw.takeForce (h : Hw) (p : List Byte) : Hw :=
  let w := fun i => leNat (slice p (4 * i) 4)
  let e : ForceEnt :=
    { sym := w 0, state := fld (w 1) 31 30, image := decide (fld (w 1) 29 29 = 1), ty := fld (w 1) 28 25, owner := fld (w 1) 24 16,
      elem := fld (w 1) 15 0, ofs := fld (w 2) 23 0, newTy := fld (w 3) 3 0, value := w 4 + 2 ^ 32 * w 5 }
  let same := h.frc.entries.find? (fun f => f.2.image == e.image && f.2.owner == e.owner && f.2.sym == e.sym && f.2.elem == e.elem)
  let f := match same with
    | some x => x.1
    | none => ((List.range 1024).find? (fun i => (find? h.frc.entries i).isNone)).getD 0
  let h := each 6 (fun i (h : Hw) => h.wr (FRC_FORCE f i) (w i)) h
  let l := if e.state = 0 then unfile h.frc.entries f else file h.frc.entries f e
  { h with frc := { h.frc with entries := l } }.frcCounts

/-- A BANK record switches banks (R668). -/
def Hw.takeBank (h : Hw) (p : List Byte) : Hw :=
  (pieces12 p 0).foldl (fun (h : Hw) e =>
    let w := leNat (slice e 0 4)
    let t := fld w 8 0
    (h.putBit (PGM_TASK_SEL t) 0 (fld w 16 16 == 1)).wr (PGM_TASK_WCET t) (leNat (slice e 8 4))) h

/-- The commit that a DRAIN record belongs to: the COMMIT that follows it after records of the same commit only. -/
def drainOwner (r : RelRec) : List RelRec → Option RelRec
  | [] => none
  | q :: t =>
    if q.kind = 3 then some q
    else if q.kind = 2 ∨ (q.kind = 4 ∧ q.w0 = r.w0 ∧ q.w1 = r.w1) then drainOwner r t
    else none

/-- A cycle is being replayed whose COMMIT is this record. -/
def Hw.takeReplays (h : Hw) (k : RelRec) : Bool := (h.cad k.sub).latched && nowLo (h.cad k.sub).last == k.w0

/-- Runs of the cadence's tasks are still to end. -/
def Hw.takeBusy (h : Hw) (c : Nat) : Bool := (h.cadTasks c).any (fun t => (h.runOf t).isSome && (h.task t).outcome == .running)

/-- The record that the Take stands at is carried out (R667 to R669); the others need nothing. -/
def Hw.takeRecord (h : Hw) (x : TakeSt) (r : RelRec) (rest : List RelRec) : Hw :=
  let p := h.takePayload x.base r
  if !h.takeCrcOk x.base r then (h.put REL_TAKE_STAT 26 24 1).takeStop
  else if r.kind = 3 && h.takeReplays r && h.takeBusy r.sub then h
  else
    let h := { h with rel := { h.rel with take := some { x with left := rest } } }
    match r.kind with
    | 3 => if h.takeReplays r then h.takeCommit r.sub p else h
    | 4 =>
      let owned := match drainOwner r rest with | some k => h.takeReplays k | none => false
      h.takeDrain p (fun f => f != 0 || !owned)
    | 6 => h.takeForce p
    | 7 => h.takeBank p
    | _ => h

/-- TAKE_CYCLE (R668): a cycle starts once every commit recorded before its input cue has been applied; until none can, the Take
goes on in record order. -/
def execTakeCycle (s : State) : Host.Outcome State Fault Refusal :=
  s.run fun h =>
    match (if h.live pgREL && h.live pgCEA then h.rel.take else none) with
    | none => h
    | some x =>
      match h.takeNext x with
      | some r => h.takeLatch x r
      | none =>
        match x.left with
        | [] => h
        | r :: rest => if r.kind = 11 then h else h.takeRecord x r rest

/-- TAKE_END (R669): at the last record, or at a GAP. -/
def execTakeEnd (s : State) : Host.Outcome State Fault Refusal :=
  s.run fun h =>
    match (if h.live pgREL then h.rel.take else none) with
    | none => h
    | some x =>
      match x.left with
      | [] => h.takeStop.raise pgREL 5
      | r :: _ => if r.kind = 11 then h.takeStop.raise pgREL 7 else h

end Sys2Proof.Machine
end

