-- ==== Sys2Proof/Machine/RegRead.lean ====
section
/-! DEFINITION. Reading a register (R6 to R10, R14): the value it shows, the pairs with their shadows, the side effects. -/

namespace Sys2Proof.Machine

/-- Index of a place in a repeated group of registers: base, stride, count. -/
def placeOf (o base stride count : Nat) : Option Nat :=
  if base ≤ o ∧ o < base + stride * count then some ((o - base) / stride) else none

/-- The registers that are the lower one of a pair (R8): every value that the maps give in two registers, the upper one at the
next place: those named `LO` and `HI`, and the 64-bit words, addresses and instants of the entries. -/
def pairLower (blk : Blk) (o : Nat) : Bool :=
  o == 0x44 ||
  match blk with
  | .cue => o == 0x10C || o == 0x120
  | .cea => (0x5000 ≤ o && o < 0x7000 && o % 0x20 == 8) || (0x8000 ≤ o && o % 8 == 0)
  | .frc => 0x8000 ≤ o && o % 0x20 == 0x10
  | .fdb | .strm => o == 0x104
  | .msec => o == 0x104 || o == 0x118
  | .spn => (0x1000 ≤ o && o < 0x1100 && o % 0x10 == 8) || (0x1200 ≤ o && o < 0x1300 && o % 0x10 == 4) ||
      (0x3000 ≤ o && o < 0x3200 && o % 0x10 == 4)
  | .boot => o == 0x208 || o == 0x300
  | .hlt => o == 0x108
  | .tcu => (0x200 ≤ o && o < 0x300 && o % 0x40 == 8) || (0x400 ≤ o && o < 0x440 && o % 8 == 0)
  | .swc => o == 0x114
  | .loft => o == 0x100
  | .eth => o == 0x174
  | .can => o == 0x144 || (0x1000 ≤ o && o < 0x3000 && o % 0x40 == 0x24)
  | .lin => 0x3000 ≤ o && o < 0x3400 && o % 0x10 == 4
  | .nmu => o == 0x124 || (0x1400 ≤ o && o < 0x14C0 && o % 8 == 0) || (0x2000 ≤ o && o < 0x2180 && o % 0x20 == 0xC)
  | .rio => o == 0x104 || o == 0x144 || (0x1000 ≤ o && o < 0x3000 && o % 0x20 == 8)
  | .tun => o == 0x100 || o == 0x114 || (0x1000 ≤ o && o < 0x3000 && (o % 0x20 == 0xC || o % 0x20 == 0x14))
  | .twn => o == 0x124
  | .ain => o == 0x340
  | .xlt => o == 0x100 || o == 0x114
  | .dma => 0x1000 ≤ o && o < 0x1800 && (o % 0x40 == 0x10 || o % 0x40 == 0x18 || o % 0x40 == 0x24)
  | .memc => o == 0x108
  | .key => o == 0x108 || o == 0x110 || o == 0x150
  | .cvu => o == 0x108 || o == 0x110 || o == 0x130 || o == 0x138
  | .vpt => o == 0x104 || o == 0x134 || [0x208, 0x210, 0x218, 0x220, 0x234].contains o
  | .rel => o == 0x100 || o == 0x10C || o == 0x168 || o == 0x180
  | _ => false

/-- The half `i` of a 64-bit counter. -/
def halfOf (v i : Nat) : Nat := v / 2 ^ (32 * i) % 2 ^ 32

/-- What a timecode slot's registers show (Table 01.11). -/
def Hw.tcuShows (h : Hw) (o k : Nat) : Nat :=
  match placeOf o 0x200 0x40 4 with
  | none => h.rd k
  | some n =>
    match o % 0x40 with
    | 0x08 => nowLo (h.slotVal n)
    | 0x0C => nowHi (h.slotVal n)
    | 0x1C => h.corrReg n
    | 0x24 => h.holdAge n
    | _ => h.rd k

/-- `CE_STATE` (Table 02.12): the engine's state, and the task and phase of its run; 0 where it has none. -/
def Hw.ceShows (h : Hw) (e : Nat) : Nat :=
  let run := match h.current e with
    | some r => some r
    | none => h.cea.runs.find? (fun r => decide (r.2.engine = e))
  h.engState e * 2 ^ 28 + (match run with
    | none => 0
    | some (t, r) => t * 0x1_0000 + (if r.bg then 4 else match r.phase with | .primary => 1 | .mirror => 2))

/-- `CE_BUSY` (Table 02.12): 0 for an engine that has executed nothing in the last second and is under no test, else a free value, since
the cycles of an instruction depend on the code cache (R143; assumption log, entry 43). -/
def Hw.ceBusy (h : Hw) (e : Nat) : Nat × Hw :=
  let ran := match (h.eng e).ranAt with | some t => decide (h.now ≤ t + 1_200_000_000) | none => false
  if ran || h.engState e == engSelftest then h.freeWord else (0, h)

/-- `VPT_ST` of a port (Table 14.7). -/
def Hw.vpStatus (h : Hw) (n : Nat) : Nat :=
  let x := h.vp n
  x.state * 2 ^ 28 + x.cause % 4 * 2 ^ 26 + x.side % 4 * 2 ^ 24 + (if x.irq then 2 ^ 23 else 0) + x.held.length

/-- What the virtual port windows show (Tables 14.1, 14.5 to 14.7). -/
def Hw.vptShows (h : Hw) (o k : Nat) : Nat :=
  let n := h.get VPT_SEL 9 0
  let x := h.vp n
  match o with
  | 0x124 => h.vpStatus n
  | 0x128 => (if x.state = 0 then 0 else x.share) * 0x1_0000 + x.use
  | 0x134 => halfOf (x.cnt.get (h.get VPT_CNT_SEL 2 0)) 0
  | 0x138 => halfOf (x.cnt.get (h.get VPT_CNT_SEL 2 0)) 1
  | _ => match placeOf o 0x200 4 16 with | some w => h.vpWord n w | none => h.rd k

/-- What the selected queue shows (Table 07.11). -/
def Hw.grnShows (h : Hw) (o k : Nat) : Nat :=
  let q := h.get GRN_QSEL 8 0
  match o with
  | 0x134 => (h.queue q).shr * 0x1_0000 + (h.queue q).rsv
  | 0x138 => (h.queueFrames q).1 * 0x1_0000 + (h.queueFrames q).2
  | _ => h.rd k

/-- What a CAN register shows. -/
def Hw.canShows (h : Hw) (n o k : Nat) : Nat :=
  let c := (h.can n).cnt.get (h.get (CAN_CNT_SEL n) 4 0)
  if o = 0x14 then (if (h.can n).stopping && decide ((h.can n).stopBy ≤ h.now) then setBit (h.rd k) 0 false else h.rd k)
  else if o = 0x118 then setFld (h.rd k) 28 28 (if h.canFrozen n then 1 else 0)
  else if o = 0x144 then halfOf c 0
  else if o = 0x148 then halfOf c 1
  else if 0x8000 ≤ o ∧ o < 0x8000 + canRamSize n then (h.can n).ram.le (o - 0x8000) 4
  else h.rd k

/-- What an ETH register shows: counters and credits. -/
def Hw.ethShows (h : Hw) (p o k : Nat) : Nat :=
  let c := h.sw.eth.get (p * 32 + h.get (ETH_CNT_SEL p) 4 0)
  match o with
  | 0x128 => unsgn 32 (divZ (h.creditNow p 4) 6_000_000)
  | 0x12C => unsgn 32 (divZ (h.creditNow p 5) 6_000_000)
  | 0x174 => halfOf c 0
  | 0x178 => halfOf c 1
  | _ => h.rd k

/-- What a register shows to a read of a master, the free ones apart. -/
def Hw.shows (h : Hw) (blk : Blk) (i o k : Nat) (a : Attr) : Nat :=
  match blk with
  | .tcu => h.tcuShows o k
  | .ce => if o = 0x100 then h.ceShows i else h.rd k
  | .frc => if o = 0x104 then h.authLeft else h.rd k
  | .dbg =>
    match (if h.bit DBG_STATE 31 then h.runOf (h.get DBG_STATE 8 0) else none) with
    | some r => if o = 0x10C then r.pc % 2 ^ 22 else if o = 0x110 then r.icount % 2 ^ 32 else h.rd k
    | none => h.rd k
  | .swc =>
    let c := h.sw.cnt.get (cntKey (h.rd SWC_CNT_SEL))
    if o = 0x108 then h.us % 2 ^ 32 else if o = 0x114 then halfOf c 0 else if o = 0x118 then halfOf c 1 else h.rd k
  | .grn => h.grnShows o k
  | .fdb | .strm | .msec => if o = 0x100 then setBit (h.rd k) 27 (h.tableBusy k) else h.rd k
  | .eth => h.ethShows i o k
  | .can => h.canShows i o k
  | .rio =>
    let c := h.zone.rioCnt.get (32 * h.get RIO_CNT_SEL 23 16 + h.get RIO_CNT_SEL 4 0)
    if o = 0x144 then halfOf c 0 else if o = 0x148 then halfOf c 1 else h.rd k
  | .tun =>
    let c := h.zone.tunCnt.get (16 * h.get TUN_CNT_SEL 23 16 + h.get TUN_CNT_SEL 3 0)
    if o = 0x114 then halfOf c 0 else if o = 0x118 then halfOf c 1 else h.rd k
  | .dma =>
    let mask := fun st => ((List.range 32).map (fun c => if h.dmaState i c = st then 2 ^ c else 0)).sum
    if o = 0x100 then mask 1 else if o = 0x104 then mask 2 else h.rd k
  | .cry => if o = 0x200 then h.cry.hi.get a.mid.toNat else h.rd k
  | .cvu => if o = 0x130 then halfOf (h.cvuResult i) 0 else if o = 0x134 then halfOf (h.cvuResult i) 1 else h.rd k
  | .vpt => h.vptShows o k
  | _ => h.rd k

/-- The value of a register as a read returns it. `EVT_CLR` and `EVT_SET` show the raw bits (R14). -/
def Hw.readValue (h : Hw) (k : Nat) (a : Attr) : Nat × Hw :=
  let page := k / 0x10000
  let o := k % 0x10000
  match pageRow page with
  | none => (0, h)
  | some r =>
    if o = 0x28 ∨ o = 0x2C then (h.rd (EVT_RAW page), h)
    else if page = pgCEA ∧ (o = 0x188 ∨ o = 0x18C) then (h.rd (evRaw page 1), h)
    else if page = pgCEA ∧ (o = 0x198 ∨ o = 0x19C) then (h.rd (evRaw page 2), h)
    else if r.blk = .pss ∧ o = 0x110 then h.holdLeft
    else if r.blk = .ce ∧ o = 0x108 then h.ceBusy (page - r.first)
    else (h.shows r.blk (page - r.first) o k a, h)

/-- The register is the lower one of a pair. -/
def isLower (k : Nat) : Bool := match pageRow (k / 0x10000) with | some r => pairLower r.blk (k % 0x10000) | none => false

/-- What a read of a register does once its page has let it pass (R8): the lower register of a pair latches the upper one;
the upper one is served from its shadow once. The rule speaks of one shadow of a register; the model keeps one for all masters
together, so a read by another master takes it (assumption log, entry 135). -/
def Hw.readAt (h : Hw) (k : Nat) (a : Attr) : Hw :=
  if isLower k then
    let (v, h) := h.readValue k a
    let (u, h) := h.readValue (k + 4) a
    { h with shadow := file h.shadow (k + 4) (BitVec.ofNat 32 u) }.answer v
  else
    match if isLower (k - 4) then find? h.shadow k else none with
    | some u => { h with shadow := unfile h.shadow k }.answer u.toNat
    | none =>
      let (v, h) := h.readValue k a
      h.answer v

/-- The outcome of a meaning, as the module it leaves. -/
def Hw.asHw (h : Hw) (f : State → Host.Outcome State Fault Refusal) : Hw :=
  match f { hw := h } with
  | .next s => s.hw
  | _ => h

/-- The register that a module address of the register pages names (R5). -/
def regAt (addr : Nat) : Option Nat :=
  if 0xF000_0000 ≤ addr ∧ addr < 0xF400_0000 then some (addr - 0xF000_0000) else none

/-- An access of `width` bytes to a register page: only naturally aligned 32-bit accesses pass (R6). The
width is checked before the world gate (assumption log, entry 13). -/
def Hw.regAccess (h : Hw) (addr width : Nat) (a : Attr) (f : Nat → Hw → Hw) : Hw :=
  match regAt addr with
  | none => h.errResp
  | some k =>
    if width = 4 ∧ addr % 4 = 0 then f k h
    else if h.jtagShut a then h
    else if (pageRow (k / 0x10000)).isNone then h.errResp
    else if !h.live (k / 0x10000) then (h.capture pgPWR 0x0102 addr a).errResp
    else (h.capture (k / 0x10000) 0x0001 addr a).errResp

/-- A read of the register pages by a master. -/
def Hw.regRead (h : Hw) (addr width : Nat) (a : Attr) : Hw :=
  h.regAccess addr width a fun k h =>
    if k = KEY_RNG then h.asHw (execKeyRngRead true a) else h.access k a (fun h => h.readAt k a)

/-- LOWER_REGISTER_READ (R8). -/
def execLowerRegisterRead (r : ReadAt) (a : Attr) (s : State) : Host.Outcome State Fault Refusal :=
  s.run fun h => h.regRead r.addr r.width a

/-- UPPER_REGISTER_READ (R8). -/
def execUpperRegisterRead (r : ReadAt) (a : Attr) (s : State) : Host.Outcome State Fault Refusal :=
  s.run fun h => h.regRead r.addr r.width a

end Sys2Proof.Machine
end

