-- ==== Sys2Proof/Machine/RegWrite.lean ====
section
/-! DEFINITION. Writing a register (R6 to R17): the access code of the register, what its block refuses, and, for a register
whose write has a row of its own, that row's meaning. -/

namespace Sys2Proof.Machine

/-- A write that the register's access code alone decides. -/
def Hw.plain (h : Hw) (k : Nat) (v : Word) (a : Attr) : Hw := h.busWrite k a fun h => h.storeReg k v.toNat

/-- A write that the block checks: the code of the refusal, and what follows once the value is stored. -/
def Hw.checked (h : Hw) (k : Nat) (v : Word) (a : Attr) (code : Hw → Option Nat) (after : Hw → Hw := id) : Hw :=
  h.busWrite k a fun h =>
    match code h with
    | some c => h.refuse k c a
    | none => after (h.storeReg k v.toNat)

/-- A refusal code when a condition holds. -/
def when_ (c : Bool) (code : Nat) : Option Nat := if c then some code else none

/-- A field lies between two bounds. -/
def between (x lo hi : Nat) : Bool := decide (lo ≤ x) && decide (x ≤ hi)

/-- What follows a change of `CTRL` of a block whose unit stands behind an internal port of the switch: its links come up
with the unit and are held with it (R299, R322). -/
def Hw.unitPorts (was now : Hw) : Hw :=
  let up := fun (h : Hw) p =>
    if p < 38 then h.bit (CTRL pgVPT) 0
    else if p = 38 then h.bit (CTRL pgCEA) 0 || h.bit (CTRL pgRIO) 0
    else h.bit (CTRL pgTUN) 0
  [36, 37, 38, 39].foldl (fun (h : Hw) p =>
    if !up was p && up now p then h.linkResumed p else if up was p && !up now p then h.linkHeld p else h) now

/-- A write of the header of a page (Table 00.4). `CEA_STATUS.RUN` follows `CEA_CTRL.EN` (assumption log, entry 138). -/
def Hw.headerWrite (h : Hw) (page o : Nat) (v : Word) (a : Attr) : Hw :=
  let p : Fin 1024 := Fin.ofNat 1024 page
  let k := at_ page o
  match o with
  | 0x0C => h.asHw (execWorldWrite p v a)
  | 0x10 =>
    if 0x070 ≤ page ∧ page < 0x080 then h.asHw (execCanEnable (Fin.ofNat 16 (page - 0x070)) v a)
    else if page = pgREL then h.asHw (execRelEnable v a)
    else h.busWrite k a fun h =>
      let h := h.unitPorts (h.storeReg k v.toNat)
      if page = pgCEA then h.putBit (STATUS pgCEA) 0 h.ceaOn else h
  | 0x24 => h.busWrite k a fun h => h.newEdges (h.wr k (v.toNat &&& evMask page 0)) page 0
  | 0x28 => h.asHw (execEvtClrWrite p 0 v 0 a)
  | 0x2C => h.asHw (execEvtSetWrite p 0 v a)
  | 0x40 => h.asHw (execErrCapClear p v none a)
  | 0x80 => h.asHw (execLockWrite p v a)
  | _ => h.plain k v a

/-- SYS, PWR, SUP and EVR (R699, R703, R696, R729). -/
def Hw.systemWrite (h : Hw) (blk : Blk) (k o : Nat) (v : Word) (a : Attr) : Hw :=
  match blk with
  | .sys =>
    if k = SYS_RESET_REQ then h.asHw (execSysResetReq v a)
    else if k = SYS_WDOG then h.asHw (execSysWdog v a)
    else if k = SYS_WDOG_CFG then h.checked k v a (fun _ => when_ (!between (fld v.toNat 9 0) 1 1000) 0x0101)
      (fun g => if g.bit k 31 && !h.bit k 31 then { g with sys := { g.sys with wdogAt := g.now, wdogBad := 0 } } else g)
    else h.plain k v a
  | .pwr =>
    if k = PWR_ON then h.asHw (execPwrOn v a)
    else if k = PWR_OFF then h.asHw (execPwrOff v a)
    else match placeOf o 0x140 4 32 with
      | some m => h.asHw (execPwrClkOff (Fin.ofNat 32 m) v a)
      | none => match placeOf o 0x1C0 4 32 with
        | some m => h.asHw (execPwrClkOn (Fin.ofNat 32 m) v a)
        | none => h.plain k v a
  | .sup =>
    if k = SUP_CFG then h.checked k v a (fun _ => when_ (!between (fld v.toNat 15 0) 5500 8000) 0x0101)
    else if k = SUP_CNT_CLR then h.asHw (execSupCntClr v a)
    else h.plain k v a
  | _ =>
    match placeOf o 0x1000 4 2048 with
    | some e => h.asHw (execEvrRouteWrite (Fin.ofNat 2048 e) v a)
    | none => h.plain k v a

/-- BOOT (R690). -/
def Hw.bootWrite (h : Hw) (k : Nat) (v : Word) (a : Attr) : Hw :=
  if k = BOOT_PK_REV then h.asHw (execBootPkRev v a)
  else if k = BOOT_RECOVER then h.asHw (execBootRecover v a)
  else if k = BOOT_FL_CMD then h.busWrite k a (fun h => h.flCommand v.toNat a)
  else if k = BOOT_UPD_CTRL then h.asHw (execUpdateGo v a)
  else if k = BOOT_ACT then h.asHw (execActArm v a)
  else if k = BOOT_RCV_COMMIT then h.asHw (execBootRcvCommit v a true)
  else h.checked k v a (fun _ => when_ (!a.secure) 0x0002)

/-- TWN (R644, R647). -/
def Hw.twnWrite (h : Hw) (k o : Nat) (v : Word) (a : Attr) : Hw :=
  if k = TWN_CFG then h.asHw (execTwnEnable v a)
  else if k = TWN_DECLARE then h.asHw (execTwnDeclare (.write v a))
  else if k = TWN_RESYNC then h.asHw (execTwnResync v a)
  else if k = TWN_CNT_CLR then h.asHw (execTwnCntClr v a)
  else
    let config := between o 0x104 0x10C || between o 0x124 0x12C || between o 0x200 0x2FC
    h.checked k v a (fun h => when_ (config && h.bit TWN_CFG 31) 0x0100)

/-- TCU (R22, R60, R62). `INPUT` outside its range and a `STALL` of 0 are stored as written (assumption log, entry 136). -/
def Hw.tcuWrite (h : Hw) (k o : Nat) (v : Word) (a : Attr) : Hw :=
  if k = TCU_BASE_TICK then h.asHw (execTcuBaseTickWrite v a)
  else match placeOf o 0x200 0x40 4 with
    | none => h.plain k v a
    | some n =>
      match o % 0x40 with
      | 0x00 => h.asHw (execTcuSrcWrite (Fin.ofNat 4 n) v a)
      | 0x14 => h.checked k v a (fun _ => when_ (!between v.toNat 1 65_535) 0x0101)
      | 0x18 => h.checked k v a (fun _ => when_ (!between v.toNat 1 500) 0x0101) (fun h => h.slewLimit n)
      | _ => h.plain k v a

/-- CUE (R62). -/
def Hw.cueWrite (h : Hw) (k : Nat) (v : Word) (a : Attr) : Hw :=
  if k = CUE_IDX then h.asHw (execCueIdxWrite v a)
  else if k = CUE_W3 then h.asHw (execCueW3Write v a)
  else if k = CUE_SWAP then h.asHw (execCueSwapRequest v a)
  else if k = CUE_COPY then h.asHw (execCueCopy v a)
  else if k = CUE_CNT_CLR then h.asHw (execCueCntClr v a)
  else h.plain k v a

/-- A task leaves service: its run is dropped and it has no engine. -/
def Hw.taskOff (h : Hw) (t : Nat) : Hw :=
  (((h.dropRun t).setTask t {}).put (CEA_TSTAT t) 28 24 0x1F).setTaskState t 0

/-- A write of word `w` of a task entry (R71, R72). A task whose write budget would overload retention is refused (R106) with
0x0101 (assumption log, entry 138). -/
def Hw.taskWrite (h : Hw) (t w : Nat) (v : Word) (a : Attr) : Hw :=
  let k := CEA_TASK t w
  h.busWrite k a fun h =>
    let g := h.storeReg k v.toNat
    if h.taskEn t && (w != 0 || h.get k 30 0 != g.get k 30 0) then h.refuse k 0x0100 a
    else if (w == 1 && decide (g.instBase t % 8 ≠ 0)) || (w == 2 && decide (1024 < g.taskBudget t)) then h.refuse k 0x0101 a
    else if h.taskEn t && !g.taskEn t then (h.taskOff t).putBit k 31 false
    else if g.taskEn t && !h.taskEn t then
      if g.demands t && !g.retentionFits g.taskBudget g.cadsOn then h.refuse k 0x0101 a
      else g.setTask t { g.task t with ranAt := g.tick32 0 }
    else g

/-- CEA, IMP and PGM (R72, R93, R113 to R116, R156). -/
def Hw.ceaWrite (h : Hw) (k o : Nat) (v : Word) (a : Attr) : Hw :=
  if k = CEA_TASK_RESTART then h.asHw (execCeaTaskRestart v a)
  else if k = CEA_REPLACE then h.asHw (execCeaReplace v a)
  else if o = 0x184 ∨ o = 0x194 then
    let g := (o - 0x174) / 0x10
    h.busWrite k a fun h => h.newEdges (h.wr k v.toNat) pgCEA g
  else if o = 0x188 ∨ o = 0x198 then h.asHw (execEvtClrWrite (Fin.ofNat 1024 pgCEA) (Fin.ofNat 3 ((o - 0x178) / 0x10)) v 0 a)
  else if o = 0x18C ∨ o = 0x19C then h.asHw (execEvtSetWrite (Fin.ofNat 1024 pgCEA) (Fin.ofNat 3 ((o - 0x17C) / 0x10)) v a)
  else match placeOf o 0x1000 0x20 64 with
    | some c =>
      if o % 0x20 = 0 then h.asHw (execCadenceEnable (Fin.ofNat 64 c) v a)
      else h.checked k v a (fun h => when_ (h.cadEn c && decide (o % 0x20 ≤ 0x10)) 0x0100)
    | none => match placeOf o 0x2000 0x10 512 with
      | some t => h.taskWrite t (o % 0x10 / 4) v a
      | none => match placeOf o 0x5000 0x20 256 with
        | some u => h.asHw (execPduEntryWrite (Fin.ofNat 256 u) (Fin.ofNat 8 (o % 0x20 / 4)) v a)
        | none => h.plain k v a

/-- PGM: the banks of a task. -/
def Hw.pgmWrite (h : Hw) (k o : Nat) (v : Word) (a : Attr) : Hw :=
  match placeOf o 0x1000 0x10 512 with
  | some t => if o % 0x10 < 8 then h.asHw (execBankWrite (Fin.ofNat 512 t) (Fin.ofNat 2 (o % 0x10 / 4)) v a) else h.plain k v a
  | none => h.plain k v a

/-- FRC (R162 to R185). -/
def Hw.frcWrite (h : Hw) (k o : Nat) (v : Word) (a : Attr) : Hw :=
  if k = FRC_PERMIT then h.asHw (execFrcPermitWrite v a)
  else if k = FRC_AUTH then
    h.busWrite k a fun h => let h := h.storeReg k v.toNat; { h with frc := { h.frc with authAt := h.now } }
  else if k = FRC_CHG_CTRL then h.busWrite k a (fun h => h.chgCtrlWrite v.toNat a)
  else if between o 0x208 0x210 || between o 0x300 0x3FC then h.checked k v a (fun h => when_ h.chgArmed 0x0103)
  else match placeOf o 0x8000 0x20 1024 with
    | some f => if o % 0x20 = 4 then h.asHw (execForceWrite (Fin.ofNat 1024 f) v a) else h.plain k v a
    | none => h.plain k v a

/-- DBG (R187 to R193). -/
def Hw.dbgWrite (h : Hw) (k o : Nat) (v : Word) (a : Attr) : Hw :=
  if k = DBG_ATTACH then h.busWrite k a (fun h => h.dbgAttachWrite v.toNat a)
  else if k = DBG_HALT then h.busWrite k a (fun h => h.dbgHaltWrite v.toNat)
  else match placeOf o 0x200 4 34 with
    | some n => h.asHw (execDbgRegisterWrite (Fin.ofNat 34 n) v a)
    | none => h.plain k v a

/-- SWC (R313, Tables 07.8 to 07.10). -/
def Hw.swcWrite (h : Hw) (k o : Nat) (v : Word) (a : Attr) : Hw :=
  let x := v.toNat
  if k = SWC_CNT_CLR then h.asHw (execSwcCntClr v a)
  else if k = SWC_CNT_SEL then h.checked k v a (fun _ => when_ (!cntValid x) 0x0101)
  else if k = SWC_MAX_FRAME then h.checked k v a (fun _ => when_ (!between (fld x 15 0) 64 9216) 0x0100)
  else match placeOf o 0x200 0x10 40 with
    | some p =>
      match o % 0x10 with
      | 0 => h.checked k v a (fun _ => when_ (fld x 29 28 == 3 || !between (fld x 11 0) 1 4094) 0x0100) Hw.lagSync
      | 8 => h.busWrite k a fun h =>
          if 500 < fld x 24 16 then h.refuse k 0x0100 a else ((h.touch p).storeReg k x).settle p
      | _ => h.plain k v a
    | none => h.plain k v a

/-- GRN (R283, R314). -/
def Hw.grnWrite (h : Hw) (k o : Nat) (v : Word) (a : Attr) : Hw :=
  let x := v.toNat
  if k = GRN_CNT_CLR then h.asHw (execGrnCntClr v a)
  else if o = 0x100 ∨ o = 0x104 ∨ (0x200 ≤ o ∧ o < 0x220) then
    let c := (o - 0x200) / 4
    let y := if o < 0x200 then x else (if 2 < c then setBit (if c < 4 then setBit x 24 false else x) 25 false else setBit x 24 false)
    h.busWrite k a fun h =>
      let g := h.storeReg k y
      if (o == 0x100 && decide (fld x 15 0 < 36)) || (o == 0x104 && decide (fld x 15 0 < 64)) ||
          (decide (0x200 ≤ o) && decide (8 < fld x 19 16)) || decide (g.sharedFull < 4096) then h.refuse k 0x0100 a
      else g.grnSync
  else if k = GRN_DESC_FLOOR then
    h.busWrite k a fun h =>
      let g := (h.storeReg k x).grnSync
      g.raiseIf (decide (h.get k 14 0 < g.freeDescs) && decide (g.freeDescs ≤ g.get k 14 0)) pgGRN 2
  else h.plain k v a

/-- LOFT (R287, R315). -/
def Hw.loftWrite (h : Hw) (k o : Nat) (v : Word) (a : Attr) : Hw :=
  let x := v.toNat
  if k = LOFT_CNT_CLR then h.asHw (execLoftCntClr v a)
  else if o ≤ 0x108 then
    h.busWrite k a fun h =>
      let g := h.storeReg k x
      let base := 2 ^ 32 * g.get LOFT_BASE_HI 7 0 + 0x1_0000 * g.get LOFT_BASE_LO 31 16
      if h.bit (CTRL pgLOFT) 0 then h.refuse k 0x0101 a
      else if o = 0x108 ∧ 4096 < x then h.refuse k 0x0102 a
      else if (o = 0x100 ∧ x % 0x1_0000 ≠ 0) ∨ base < 0x08_0000_0000 ∨ 0x0C_0000_0000 < base + 0x1_0000 * g.get LOFT_SIZE 12 0 then
        h.refuse k 0x0100 a
      else g
  else if k = LOFT_QMAX then h.checked k v a (fun _ => when_ (!between x 1 4096) 0x0102)
  else if k = LOFT_BW then h.checked k v a (fun _ => when_ (!between x 1 255) 0x0102)
  else h.plain k v a

/-- FDB, STRM and MSEC (R316, R317, R346). -/
def Hw.tableWrite (h : Hw) (k : Nat) (v : Word) (a : Attr) : Hw :=
  let op := fld v.toNat 31 28
  if k = FDB_CMD then
    match op with
    | 1 => h.asHw (execFdbRead v a)
    | 2 => h.asHw (execFdbWrite v a)
    | 3 => h.asHw (execFdbLookup v a)
    | 4 => h.asHw (execFdbDelete v a)
    | 5 => h.asHw (execFdbFlushFid v a)
    | 6 => h.asHw (execFdbFlushPort v a)
    | _ => h.busWrite k a (fun h => h.refuse k 0x0101 a)
  else if k = STRM_CMD then
    match op with
    | 1 => h.asHw (execStrmRead v a)
    | 2 => h.asHw (execStrmWrite v a)
    | 3 => h.asHw (execStrmLookup v a)
    | 4 => h.asHw (execStrmDelete v a)
    | _ => h.busWrite k a (fun h => h.refuse k 0x0101 a)
  else if k = MSEC_CMD then
    match op with
    | 1 => h.asHw (execMsecRead v a)
    | 2 => h.asHw (execMsecWrite v a)
    | 4 => h.asHw (execMsecDelete v a)
    | _ => h.busWrite k a (fun h => h.refuse k (if h.tableBusy k then 0x0100 else 0x0103) a)
  else if k = FDB_AGE then h.checked k v a (fun _ => when_ (decide (fld v.toNat 15 0 < 4)) 0x0101)
  else if MSEC_PORT 0 ≤ k ∧ k ≤ MSEC_PORT 11 then h.checked k v a (fun _ => when_ (fld v.toNat 30 29 == 3) 0x0103)
  else h.plain k v a

/-- ETH (R360, R361). -/
def Hw.ethPageWrite (h : Hw) (p o : Nat) (v : Word) (a : Attr) : Hw :=
  if o = 0x17C then h.asHw (execEthCntClr (Fin.ofNat 36 p) v a)
  else if p ≠ 0 ∧ 0x800 ≤ o then h.busWrite (at_ (pgETH p) o) a id
  else match if p = 0 then placeOf o 0x800 0x20 4 else none with
    | some i => if o % 0x20 = 0 then h.asHw (execPtpInstanceEnable (Fin.ofNat 4 i) v a) else h.plain (at_ (pgETH p) o) v a
    | none => h.ethWrite p o v.toNat a

/-- CAN (R365 to R370, R405). -/
def Hw.canPageWrite (h : Hw) (n o : Nat) (v : Word) (a : Attr) : Hw :=
  let k := at_ (pgCAN n) o
  let i : Fin 16 := Fin.ofNat 16 n
  if o = 0x11C then h.asHw (execCanRecov i v a)
  else if o = 0x124 then h.asHw (execCanTxreq i v a)
  else if o = 0x14C then h.asHw (execCanCntClr i v a)
  else match placeOf o 0x1000 0x40 128 with
    | some x => h.asHw (execCanObjectWrite i (Fin.ofNat 128 x) (Fin.ofNat 16 (o % 0x40 / 4)) v a)
    | none =>
      if 0x8000 ≤ o ∧ o < 0x8000 + canRamSize n then
        h.busWrite k a fun h =>
          if h.canRamBusy n (o - 0x8000) then h.refuse k 0x0100 a
          else h.setCan n { h.can n with ram := (h.can n).ram.write (o - 0x8000) (leBytes 4 v.toNat) }
      else
        if 0x8000 ≤ o then h.busWrite k a id
        else h.busWrite k a fun h =>
          match h.canRefuses n o v.toNat with
          | some c => h.refuse k c a
          | none => h.storeReg k (canKeep n o v.toNat)

/-- RIO and TUN (R418, R428, R444, R445). -/
def Hw.zoneWrite (h : Hw) (k o : Nat) (v : Word) (a : Attr) : Hw :=
  if k = RIO_CNT_CLR then h.asHw (execRioCntClr v a)
  else if k = TUN_CNT_CLR then h.asHw (execTunCntClr v a)
  else match placeOf o 0x1000 0x20 256 with
    | none => h.plain k v a
    | some s =>
      let w := o % 0x20 / 4
      if k / 0x10000 = pgTUN then h.checked k v a (fun h => h.tunRefuses s w v.toNat) (fun h => h.routeStored s w)
      else if w = 0 then h.asHw (execStationEnable (Fin.ofNat 256 s) v a)
      else h.checked k v a (fun h => h.rioRefuses s w v.toNat)

/-- NMU (R460, R464). -/
def Hw.nmuWrite (h : Hw) (k o : Nat) (v : Word) (a : Attr) : Hw :=
  if k = NMU_VOTE then h.asHw (execNmuVoteWrite v a)
  else match placeOf o 0x1000 0x20 24 with
    | some c =>
      if o % 0x20 = 0 then h.asHw (execNmChannelEnable (Fin.ofNat 24 c) v a)
      else h.checked k v a (fun h => h.nmuRefuses o v.toNat)
    | none => h.busWrite k a fun h =>
      match h.nmuRefuses o v.toNat with
      | some c => h.refuse k c a
      | none => (h.storeReg k (v.toNat &&& nmuKeep o)).wakeIoEnds h.wakeIoDriven

/-- SPN (R467 to R489). -/
def Hw.spnWrite (h : Hw) (k o : Nat) (v : Word) (a : Attr) : Hw :=
  if k = SPN_CFG then h.asHw (execSpanLinkEnable v a)
  else if k = SPN_ELOG_RD then h.asHw (execSpnElogRdWrite v a)
  else match placeOf o 0x180 4 16 with
    | some w => h.asHw (execSpnFlush (Fin.ofNat 16 w) true 0 a)
    | none => match placeOf o 0x1000 0x10 16 with
      | some i => h.checked k v a (fun h => h.owRefuses i (o % 0x10 / 4) v.toNat)
      | none => match placeOf o 0x1200 0x10 16 with
        | some i => h.checked k v a (fun h => h.iwRefuses i (o % 0x10 / 4) v.toNat a)
        | none => h.checked k v a (fun h => h.spanMapRefuses k v.toNat)

/-- PSS (R250 to R270). -/
def Hw.pssWrite (h : Hw) (k o : Nat) (v : Word) (a : Attr) : Hw :=
  if k = PSS_HB then h.asHw (execPssHb v a)
  else if k = PSS_RELEASE then h.asHw (execPssRelease v a)
  else if k = PSS_MAP_PROG then h.asHw (execMapProg v a)
  else if k = PSS_TAKE_CTRL then h.busWrite k a (fun h => h.takeCtrlWrite v.toNat a)
  else match placeOf o 0x400 4 72 with
    | some c => h.asHw (execPssTakeWrite (Fin.ofNat 72 c) v a)
    | none => h.checked k v a (fun h => h.pssRefuses o v.toNat)

/-- PCH, LPM and AIN (R240 to R242, R706, R708). -/
def Hw.channelWrite (h : Hw) (blk : Blk) (i k o : Nat) (v : Word) (a : Attr) : Hw :=
  match blk with
  | .pch =>
    match placeOf o 0x100 0x40 8 with
    | none => h.plain k v a
    | some n =>
      let c : Fin 72 := Fin.ofNat 72 (8 * i + n)
      match (o - 0x100) % 0x40 with
      | 0x0C => h.asHw (execPwmConfigWrite c v a)
      | 0x14 => h.asHw (execPchCmdWrite c v a)
      | 0x24 => h.asHw (execRearm c v a)
      | _ => h.busWrite k a fun h =>
        match h.pchRefuses (0x0A1 + i) o v.toNat with
        | some e => h.refuse k e a
        | none => h.storeReg k (v.toNat &&& (0xFFFF_FFFF - pchKeep (0x0A1 + i) o))
  | .lpm =>
    match placeOf o 0x1000 0x80 8 with
    | some p => h.asHw (execProfileWrite (Fin.ofNat 8 p) (Fin.ofNat 32 (o % 0x80 / 4)) v a)
    | none =>
      if 0x100 ≤ o ∧ o < 0x110 then
        let x := (o - 0x100) / 4
        let was := h.bit (LPM_AMB_CFG x) 31
        h.checked k v a (fun h => h.lpmRefuses o v.toNat) (fun h => h.ambConfigured x was)
      else h.checked k v a (fun h => h.lpmRefuses o v.toNat)
  | _ =>
    match placeOf o 0x200 8 16 with
    | some b => h.checked k v a (fun h =>
        when_ (o % 8 == 4 && fld v.toNat 31 31 == 1 && h.rd (AIN_BURST_W0 b) == 0 && fld v.toNat 15 0 == 0) 0x0101)
    | none => h.plain k v a

/-- RVE, XLT, DMA and MEMC (R513, R526 to R529). -/
def Hw.memoryWrite (h : Hw) (blk : Blk) (i k o : Nat) (v : Word) (a : Attr) : Hw :=
  match blk with
  | .rve =>
    if k = RVE_T0_POOL then h.asHw (execT0PoolWrite v a)
    else match placeOf o 0x1000 0x10 64 with
      | some r => h.checked k v a (fun h => h.pinRefuses r (o % 0x10 / 4) v.toNat) Hw.rveSync
      | none => h.checked k v a (fun _ => rveRefuses k v.toNat) Hw.rveSync
  | .xlt => if k = XLT_INV then h.asHw (execXltInvalidate v a) else h.checked k v a (fun h => h.xltRefuses k v.toNat)
  | .dma =>
    match placeOf o 0x1000 0x40 32 with
    | none => h.plain k v a
    | some c =>
      if k = DMA_CTRL i c then h.busWrite k a (fun h => h.dmaCtrl i c v.toNat a)
      else h.checked k v a (fun h => h.dmaRefuses i c k v.toNat a)
  | _ => if k = MEMC_CNT_CLR then h.asHw (execMemcCntClr v a) else h.checked k v a (fun _ => memcRefuses k v.toNat)

/-- The ranges that regions may cover (R558). -/
def gatedRanges : List (Nat × Nat) :=
  [(0x1000_0000, 0x200_0000), (0x08_0000_0000, 0x4_0000_0000), (0x4000_0000, 0x1000_0000), (Config.progBase, 0x80_0000),
    (Config.poolBase, 0x100_0000), (0x3000_0000, 0x100_0000), (0x01_0000_0000, 0x1_0000_0000)]

/-- The error code of a refused write of word `w` of region `r` (R560, R577). -/
def Hw.regionRefuses (h : Hw) (r w v : Nat) : Option Nat :=
  let g := fun x j => if x = r ∧ j = w then v else h.rd (WGT_REG x j)
  let lo := fun x => fld (g x 1) 23 0 * 0x1_0000
  let n := fun x => fld (g x 2) 18 0 * 0x1_0000
  if fld (g r 0) 31 31 = 0 then when_ (w == 2 && decide (262_144 < fld v 18 0)) 0x0100
  else if !between (fld (g r 2) 18 0) 1 262_144 then some 0x0100
  else if !gatedRanges.any (fun x => decide (x.1 ≤ lo r) && decide (lo r + n r ≤ x.1 + x.2)) then some 0x0101
  else when_ ((List.range 64).any (fun x => x != r && h.bit (WGT_REG x 0) 31 && overlaps (lo r) (n r) (lo x) (n x))) 0x0102

/-- WGT (R560 to R577). -/
def Hw.wgtWrite (h : Hw) (k o : Nat) (v : Word) (a : Attr) : Hw :=
  let x := v.toNat
  if k = WGT_DENY then h.asHw (execWgtDeny v false a)
  else if k = WGT_HOLD_PD then h.asHw (execHoldMarkWrite none v a)
  else if k = WGT_L3_PART then h.checked k v a (fun _ => when_ (decide (8 < fld x 3 0)) 0x0100)
  else if k = WGT_HOLD_TO then h.checked k v a (fun _ => when_ (!between (fld x 13 0) 1 10_000) 0x0100)
  else match placeOf o 0x180 4 32 with
    | some m => h.asHw (execHoldMarkWrite (some (Fin.ofNat 32 m)) v a)
    | none => match placeOf o 0x2000 0x10 64 with
      | some r => h.checked k v a (fun h => h.regionRefuses r (o % 0x10 / 4) x)
      | none => h.plain k v a

/-- KEY (R584 to R603). An operation that Table 16.3 does not list ends with result 7. -/
def Hw.keyWrite (h : Hw) (k : Nat) (v : Word) (a : Attr) : Hw :=
  if k = KEY_CMD then
    match fld v.toNat 31 28 with
    | 1 => h.asHw (execGenerate v a)
    | 2 => h.asHw (execDerive v a)
    | 3 => h.asHw (execKeyImport v a)
    | 4 => h.asHw (execKeyExport v a)
    | 5 => h.asHw (execClear v a)
    | 6 => h.asHw (execRevoke v a)
    | 7 => h.asHw (execNarrow v a)
    | 8 => h.asHw (execPubkey v a)
    | 9 => h.asHw (execPersistSave v a)
    | 10 => h.asHw (execPersistLoad v a)
    | 11 => h.asHw (execPersistCheck v a)
    | 12 => h.asHw (execChallenge v a)
    | 13 => h.asHw (execEnrol v a)
    | op => h.keyCommand op v a (fun h => (7, h))
  else if k = KEY_LCS_ADV then h.asHw (execLcsAdvance v a)
  else if k = KEY_RNG_HEALTH then h.asHw (execRngRestart v a)
  else h.plain k v a

/-- CRY and the CVUs (R604, R617). -/
def Hw.cryptoWrite (h : Hw) (blk : Blk) (i k o : Nat) (v : Word) (a : Attr) : Hw :=
  match blk with
  | .cry =>
    if k = CRY_SUBMIT_HI then
      h.busWrite k a fun h => { h with cry := { h.cry with hi := h.cry.hi.set a.mid.toNat (fld v.toNat 7 0) } }
    else match placeOf o 0x100 8 16 with
      | some q => if o % 8 = 0 then h.asHw (execJobSubmit (Fin.ofNat 16 q) v a) else h.plain k v a
      | none => h.plain k v a
  | _ =>
    let n : Fin 8 := Fin.ofNat 8 i
    match o with
    | 0x100 => h.asHw (execCvuCfgWrite n v a)
    | 0x104 => h.asHw (execCvuStart n v a)
    | 0x120 => h.asHw (execCvuData n 0 v a)
    | 0x124 => h.asHw (execCvuData n 1 v a)
    | 0x128 => h.asHw (execCvuData n 2 v a)
    | 0x138 => h.asHw (execCvuExpect n v a)
    | 0x154 => h.asHw (execCvuAliveIn n v a)
    | _ => h.plain k v a

/-- VPT (R535 to R552). An operation that Table 14.5 does not list is out of range. -/
def Hw.vptWrite (h : Hw) (k o : Nat) (v : Word) (a : Attr) : Hw :=
  if k = VPT_CMD then
    match fld v.toNat 31 28 with
    | 1 => h.asHw (execFreeze v false [] a)
    | 2 => h.asHw (execThaw v [] a)
    | 3 => h.asHw (execSave v a)
    | 4 => h.asHw (execRestore v a)
    | 5 => h.asHw (execClearCounters v a)
    | _ => h.busWrite k a (fun h => h.refuse k 0x0101 a)
  else match placeOf o 0x200 4 16 with
    | some w => h.busWrite k a (fun h => h.vpWrite_ w v.toNat a)
    | none => match placeOf o 0x8000 8 1024 with
      | some n =>
        if o % 8 = 0 then h.asHw (execTxDoorbell (Fin.ofNat 1024 n) v a) else h.asHw (execRxDoorbell (Fin.ofNat 1024 n) v [] a)
      | none => h.plain k v a

/-- REL (R652, R670). -/
def Hw.relPageWrite (h : Hw) (k o : Nat) (v : Word) (a : Attr) : Hw :=
  if k = REL_TRIG_SW then h.asHw (execRelTrigSw v a)
  else if k = REL_REARM then h.asHw (execRelRearm v a)
  else if k = REL_DUMP then h.asHw (execDump v a)
  else if k = REL_TAKE_CTRL then h.asHw (execTakeGo v a)
  else if k = REL_SNAP_INT then h.checked k v a (fun _ => when_ (decide (fld v.toNat 7 0 = 0)) 0x0101)
  else if between o 0x100 0x110 then
    h.busWrite k a fun h =>
      let g := h.storeReg k v.toNat
      if h.bit (CTRL pgREL) 0 then h.refuse k 0x0100 a
      else if ((k = REL_BASE_LO ∨ k = REL_SNAP_LO) ∧ v.toNat % 0x1_0000 ≠ 0) ∨ g.relRegionsOk = false then h.refuse k 0x0101 a
      else g
  else h.plain k v a

/-- A write of the register `k` by a master. -/
def Hw.writeAt (h : Hw) (k : Nat) (v : Word) (a : Attr) : Hw :=
  let page := k / 0x10000
  let o := k % 0x10000
  match pageRow page with
  | none => h.access k a id
  | some r =>
    if o < 0x100 then h.headerWrite page o v a
    else
      let i := page - r.first
      match r.blk with
      | .sys | .pwr | .sup | .evr => h.systemWrite r.blk k o v a
      | .boot => h.bootWrite k v a
      | .hlt | .ce => h.plain k v a
      | .twn => h.twnWrite k o v a
      | .tcu => h.tcuWrite k o v a
      | .cue => h.cueWrite k v a
      | .cea => h.ceaWrite k o v a
      | .imp => if k = IMP_CNT_CLR then h.asHw (execImpCntClr v a) else h.plain k v a
      | .pgm => h.pgmWrite k o v a
      | .frc => h.frcWrite k o v a
      | .dbg => h.dbgWrite k o v a
      | .swc => h.swcWrite k o v a
      | .grn => h.grnWrite k o v a
      | .loft => h.loftWrite k o v a
      | .fdb | .strm | .msec => h.tableWrite k v a
      | .eth => h.ethPageWrite i o v a
      | .can => h.canPageWrite i o v a
      | .lin => h.checked k v a (fun h => h.linRefuses i o v.toNat) (fun h => if o < 0x3000 then h else h.linLatch i ((o - 0x3000) / 0x10))
      | .nmu => h.nmuWrite k o v a
      | .rio | .tun => h.zoneWrite k o v a
      | .spn => h.spnWrite k o v a
      | .pss => h.pssWrite k o v a
      | .pch | .lpm | .ain => h.channelWrite r.blk i k o v a
      | .rve | .xlt | .dma | .memc => h.memoryWrite r.blk i k o v a
      | .wgt => h.wgtWrite k o v a
      | .key => h.keyWrite k v a
      | .cry | .cvu => h.cryptoWrite r.blk i k o v a
      | .vpt => h.vptWrite k o v a
      | .rel => h.relPageWrite k o v a

/-- A write of the register pages by a master (R6). -/
def Hw.regWrite (h : Hw) (addr width : Nat) (v : Word) (a : Attr) : Hw := h.regAccess addr width a fun k h => h.writeAt k v a

/-- REGISTER_WRITE (R10). -/
def execRegisterWrite (addr width : Nat) (v : Word) (a : Attr) (s : State) : Host.Outcome State Fault Refusal :=
  s.run fun h => h.regWrite addr width v a

end Sys2Proof.Machine
end

