-- ==== Sys2Proof/Machine/Dma.lean ====
section
/-! DEFINITION. The bursts of the DMA channels (R515 to R520): granting, reading, writing, and the end of a descriptor; with
the accesses of a master that may reach every target. -/

namespace Sys2Proof.Machine

/-- Keep the answer that the last register access gave: accesses of the module's own masters answer to them alone. -/
def Hw.quiet (h g : Hw) : Hw := { g with resp := h.resp, span := { g.span with ans := h.span.ans } }

/-- An access of a Span window by a DMA channel, from its request to its completion (R469 to R473, R483): the bytes read, or
none where it fails. -/
def Hw.spanTrip (h : Hw) (addr o n : Nat) (data : Option (List Byte)) (a : Attr) (got : List Byte) (fin : SpanEnd) :
    Option (List Byte) × Hw :=
  let g := h.outbound addr o n data a true 0
  let ends := fun (g : Hw) (x : SpanOpen) =>
    match fin with
    | .success => (some (slice got 0 n), g)
    | .unsupported => (none, g.spanFails x 0x0110)
    | .abort => (none, g.spanFails x 0x0111)
    | .poisoned => (none, g.spanFails x 0x0114)
    | .timeout => (none, g.spanFails x 0x0112)
  match g.span.open_.find? (fun x => !h.span.open_.contains x) with
  | some x => ends { g with span := { g.span with open_ := g.span.open_.erase x } }.spanSync x
  | none =>
    match if h.span.wait.length < g.span.wait.length then g.span.wait.getLast? else none with
    | some w =>
      match w.user with
      | some u =>
        let g := { g with span := { g.span with wait := g.span.wait.dropLast } }.spanOut [w.tlp]
        ends g { tag := 0, win := w.win, user := u }
      | none => (some [], g)
    | none => if g.resp.err then (none, g) else (some [], g)

/-- A read of `n` bytes by a master that may reach every target: the bytes, or the cause of Table 13.12 (3 an error response, 4
an uncorrectable ECC error). -/
def Hw.reach (h : Hw) (addr n : Nat) (a : Attr) (ecc : Ecc) (got : List Byte) (fin : SpanEnd) : Except Nat (List Byte) × Hw :=
  if (regAt addr).isSome then
    let g := h.regRead addr n a
    (if g.resp.err then .error 3 else .ok (leBytes n g.resp.data.toNat), h.quiet g)
  else
    match spaceOf addr with
    | some (.span, o) =>
      if !h.regionOk addr false a then (.error 3, h.gateRefused addr a)
      else if !h.live pgSPN then (.error 3, h)
      else match h.spanTrip addr o n none a got fin with
        | (some bs, g) => (.ok bs, h.quiet g)
        | (none, g) => (.error 3, h.quiet g)
    | some (sp, o) =>
      match h.memRead addr n a with
      | (none, g) => (.error 3, g)
      | (some bs, g) =>
        let dram := sp == .t0 || sp == .t1
        let g := if dram then g.memcError sp o ecc else g
        (if dram && ecc == .uncorrectable then .error 4 else .ok bs, g)
    | none => (.error 3, h)

/-- A write by a master that may reach every target: none, or the cause of the fault. -/
def Hw.put_ (h : Hw) (addr : Nat) (bs : List Byte) (a : Attr) (fin : SpanEnd) : Option Nat × Hw :=
  if (regAt addr).isSome then
    let g := h.regWrite addr bs.length (BitVec.ofNat 32 (leNat bs)) a
    (if g.resp.err then some 3 else none, h.quiet g)
  else if (fileAt addr).isSome then
    if bs.length = 4 ∧ addr % 4 = 0 then
      let r := h.fileWrite addr (leNat bs) a
      (if r.1 then none else some 3, r.2)
    else (some 3, h)
  else
    match spaceOf addr with
    | some (.span, o) =>
      if !h.regionOk addr true a then (some 3, h.gateRefused addr a)
      else if !h.live pgSPN then (some 3, h)
      else match h.spanTrip addr o bs.length (some bs) a [] fin with
        | (some _, g) => (none, h.quiet g)
        | (none, g) => (some 3, h.quiet g)
    | _ =>
      let r := h.memWrite addr bs a
      (if r.1 then none else some 3, r.2)

/-- Fields of a descriptor (Table 13.5) given as its eight words. -/
def descLen (w : List Nat) : Nat := fld (w.getD 0 0) 23 0
def descMode (w : List Nat) (dst : Bool) : Nat := if dst then fld (w.getD 0 0) 28 27 else fld (w.getD 0 0) 26 25
def descWidth (w : List Nat) : Nat := 2 ^ fld (w.getD 0 0) 30 29
def descAddr (w : List Nat) (dst : Bool) : Nat :=
  let i := if dst then 3 else 1
  w.getD i 0 + 2 ^ 32 * fld (w.getD (i + 1) 0) 15 0
def descNext (w : List Nat) : Nat := fld (w.getD 5 0) 31 5 * 32 + 2 ^ 32 * fld (w.getD 6 0) 15 0

/-- A descriptor is invalid (R516). -/
def descBad (w : List Nat) : Bool :=
  let side := fun dst =>
    descMode w dst == 3 || (descMode w dst != 0 && (descAddr w dst % descWidth w != 0 || descLen w % descWidth w != 0))
  side false || side true

/-- The attributes of a channel's accesses (R555). -/
def Hw.dmaAttr (h : Hw) (d c : Nat) : Attr :=
  { secure := h.bit (DMA_CFG d c) 25, mid := BitVec.ofNat 8 (0x80 + 32 * d + c), vmid := BitVec.ofNat 10 (h.get (DMA_CFG2 d c) 25 16) }

/-- The bus address of a channel's access (R511, R515), or the cause of the fault. -/
def Hw.dmaBus (h : Hw) (d c va : Nat) (write : Bool) : Except Nat Nat × Hw :=
  if h.bit (DMA_CFG d c) 26 then
    h.translate (h.bit (DMA_CFG d c) 25) (0x80 + 32 * d + c) (h.get (DMA_CFG2 d c) 25 16) va write
  else if 0xFF_FFFF_FFFF < va then (.error 1, h)
  else (.ok va, h)

/-- One read of a channel. -/
def Hw.dmaRead (h : Hw) (d c va n : Nat) (ecc : Ecc) (got : List Byte) (fin : SpanEnd) : Except Nat (List Byte) × Hw :=
  match h.dmaBus d c va false with
  | (.error e, h) => (.error e, h)
  | (.ok pa, h) => h.reach pa n (h.dmaAttr d c) ecc got fin

/-- One write of a channel: none, or the cause of the fault. -/
def Hw.dmaWrite (h : Hw) (d c va : Nat) (bs : List Byte) (fin : SpanEnd) : Option Nat × Hw :=
  match h.dmaBus d c va true with
  | (.error e, h) => (some e, h)
  | (.ok pa, h) => h.put_ pa bs (h.dmaAttr d c) fin

/-- The accesses of one side for the `n` bytes at position `p` of a descriptor (R518): an incrementing side makes one for each
64-byte line, a fixed or cycling side one for each `WIDTH`. -/
def sideAccesses (w : List Nat) (dst : Bool) (p n : Nat) : List (Nat × Nat) :=
  let a := descAddr w dst
  let k := descWidth w
  match descMode w dst with
  | 0 => linesOf (a + p) n
  | 1 => List.replicate (n / k) (a, k)
  | _ => (List.range (n / k)).map (fun i => (a + (p + i * k) % 16, k))

/-- The bytes of the burst at position `p` (R518). Where the line of an incrementing side leaves less room than one access of
the other side's `WIDTH`, the burst is one such access. -/
def burstSize (w : List Nat) (p : Nat) : Nat :=
  let k := descWidth w
  let lim := fun dst => if descMode w dst = 0 then 64 - (descAddr w dst + p) % 64 else 4 * k
  let n := min (descLen w - p) (min (lim false) (lim true))
  if descMode w false = 0 ∧ descMode w true = 0 then n else max k (n / k * k)

/-- The reads of a burst: what they brought, and the cause and address of a fault. -/
def Hw.burstReads (h : Hw) (d c : Nat) (seen : DmaSeen) (l : List (Nat × Nat)) (start : Nat) :
    List Byte × Option (Nat × Nat) × Hw :=
  let r := l.foldl (fun (s : List Byte × Option (Nat × Nat) × Nat × Hw) x =>
    let (bs, f, i, h) := s
    match f with
    | some _ => s
    | none =>
      let hit := decide (i = seen.k.val)
      match h.dmaRead d c x.1 x.2 (if hit then seen.ecc else .clean) (seen.data.drop (start + bs.length)) (if hit then seen.fin else .success) with
      | (.ok b, h) => (bs ++ b, none, i + 1, h)
      | (.error e, h) => (bs, some (e, x.1), i, h)) ([], none, 0, h)
  (r.1, r.2.1, r.2.2.2)

/-- The writes of a burst: how many bytes went, and the cause and address of a fault. -/
def Hw.burstWrites (h : Hw) (d c : Nat) (seen : DmaSeen) (l : List (Nat × Nat)) (bs : List Byte) :
    Nat × Option (Nat × Nat) × Hw :=
  let r := l.foldl (fun (s : Nat × Option (Nat × Nat) × Nat × Hw) x =>
    let (n, f, i, h) := s
    match f with
    | some _ => s
    | none =>
      match h.dmaWrite d c x.1 (slice bs n x.2) (if i = seen.k.val then seen.fin else .success) with
      | (none, h) => (n + x.2, none, i + 1, h)
      | (some e, h) => (n, some (e, x.1), i, h)) (0, none, 0, h)
  (r.1, r.2.1, r.2.2.2)

/-- Position up to which a channel has read its source, the burst under way apart. -/
def Hw.dmaReadPos (h : Hw) (d c : Nat) : Nat := h.rd (DMA_DONE d c) + ((h.dma d c).ahead.map List.length).sum

/-- A channel reads its next burst; bytes that it kept of that burst are not read again (R522). -/
def Hw.dmaReadBurst (h : Hw) (d c : Nat) (w : List Nat) (seen : DmaSeen) : Hw :=
  let x := h.dma d c
  let p := h.dmaReadPos d c
  let n := burstSize w p
  let kept := x.part.length
  let (bs, f, h) := h.burstReads d c seen (sideAccesses w false (p + kept) (n - kept)) kept
  if h.dmaState d c ≠ 1 then h
  else match f with
  | none => h.setDma d c { x with ahead := x.ahead ++ [x.part ++ bs], part := [] }
  | some (e, a) => (h.setDma d c { x with part := x.part ++ bs }).dmaFault d c e 0 a

/-- A channel writes the burst it read first; what a fault leaves unwritten is kept (R521). -/
def Hw.dmaWriteBurst (h : Hw) (d c : Nat) (w : List Nat) (seen : DmaSeen) : Hw :=
  let x := h.dma d c
  match x.ahead with
  | [] => h
  | bs :: rest =>
    let p := h.rd (DMA_DONE d c)
    let (n, f, h) := h.burstWrites d c seen (sideAccesses w true p bs.length) bs
    let h := h.wr (DMA_DONE d c) (p + n)
    if h.dmaState d c ≠ 1 then h
    else match f with
    | none => h.setDma d c { x with ahead := rest }
    | some (e, a) => (h.setDma d c { x with ahead := bs.drop n :: rest }).dmaFault d c e 1 a

/-- Bytes that the channels of a controller hold (R520: 4 KiB). -/
def Hw.dmaHeld (h : Hw) (d : Nat) : Nat :=
  ((List.range 32).map (fun c => ((h.dma d c).ahead.map List.length).sum + (h.dma d c).part.length)).sum

/-- Order of grant among channels: the highest `PRIO`, the lowest number on ties. -/
def Hw.dmaBest (h : Hw) (d : Nat) : List Nat → Option Nat
  | [] => none
  | c :: t =>
    match Hw.dmaBest h d t with
    | none => some c
    | some b => if h.get (DMA_CFG d c) 31 28 ≥ h.get (DMA_CFG d b) 31 28 then some c else some b

/-- Room for a burst of channel `c`: while there is none, read-ahead data of another incrementing channel is discarded, the one
that is granted last first (R520). -/
def Hw.dmaRoom (h : Hw) (d c : Nat) : Nat → Hw
  | 0 => h
  | fuel + 1 =>
    if h.dmaHeld d + 64 ≤ 4096 then h
    else
      let l := (List.range 32).filter (fun k =>
        let x := h.dma d k
        k != c && !x.ahead.isEmpty && x.fault.isNone && h.dmaState d k == 1 &&
          (match x.desc with | some w => descMode w false == 0 | none => false))
      let key := fun k => h.get (DMA_CFG d k) 31 28
      match l.foldl (fun (b : Option Nat) k =>
          match b with
          | none => some k
          | some j => if key k ≤ key j then some k else some j) none with
      | none => h
      | some k => Hw.dmaRoom (h.setDma d k { h.dma d k with ahead := [], part := [] }) d c fuel

/-- Further reads of an incrementing source, up to 4 bursts ahead of its writes and as far as the buffer has room (R520). -/
def Hw.dmaAhead (h : Hw) (d c : Nat) (w : List Nat) : List DmaSeen → Hw
  | [] => h
  | s :: t =>
    let x := h.dma d c
    if descMode w false = 0 && x.fault.isNone && h.dmaState d c == 1 && decide (x.ahead.length < 4) &&
        decide (h.dmaReadPos d c < descLen w) && decide (h.dmaHeld d + 64 ≤ 4096) then
      Hw.dmaAhead (h.dmaReadBurst d c w s) d c w t
    else h

/-- The fetch of a descriptor (R515, R516). -/
def Hw.dmaFetch (h : Hw) (d c : Nat) (seen : DmaSeen) : Hw :=
  let a := h.dmaCur d c
  match h.dmaRead d c a 32 seen.ecc seen.data seen.fin with
  | (.error e, h) => h.dmaFault d c e 2 a
  | (.ok bs, h) =>
    let w := (List.range 8).map (fun i => leNat (slice bs (4 * i) 4))
    if descBad w then h.dmaAborted d c 5 2 a
    else (h.setDma d c { h.dma d c with desc := some w }).wr (DMA_DONE d c) 0

/-- A channel has a burst ready to start (R519): its descriptor's fetch, the next burst of its data, or, before a park, the
write of a burst read before the fault. -/
def Hw.dmaReady (h : Hw) (d c : Nat) : Bool :=
  let x := h.dma d c
  h.dmaState d c == 1 &&
    (match x.desc, x.fault with
      | none, none => true
      | some w, none => decide (h.rd (DMA_DONE d c) < descLen w)
      | some _, some f => f.side == 0 && !x.ahead.isEmpty
      | none, some _ => false)

/-- A channel is ripe (R519). -/
def Hw.dmaRipe (h : Hw) (d c : Nat) : Bool :=
  h.get (DMA_CFG2 d c) 15 0 != 0 && decide (1000 * h.get (DMA_CFG2 d c) 15 0 ≤ (h.dma d c).age)

/-- The channel that a controller grants, and whether it was granted as a ripe one (R519). -/
def Hw.dmaPick (h : Hw) (d : Nat) : Option (Nat × Bool) :=
  let ready := (List.range 32).filter (h.dmaReady d)
  match h.dmaBest d (ready.filter (fun c => h.bit (DMA_CFG d c) 27)) with
  | some c => some (c, false)
  | none =>
    match h.dmaBest d (ready.filter (h.dmaRipe d)) with
    | some c => some (c, true)
    | none => (h.dmaBest d ready).map (fun c => (c, false))

/-- The ages at a grant (R519): every ready channel not granted has waited since the last grant. -/
def Hw.dmaAges (h : Hw) (d c : Nat) (ripe : Bool) : Hw :=
  each 32 (fun k (g : Hw) =>
    let x := g.dma d k
    if h.dmaState d k ≠ 1 then g
    else if k = c then g.setDma d k { x with age := if ripe then 0 else x.age, since := h.ns }
    else if h.dmaReady d k then g.setDma d k { x with age := x.age + (h.ns - x.since), since := h.ns }
    else g.setDma d k { x with since := h.ns }) h

/-- One burst of a channel (R515 to R522). -/
def Hw.dmaBurst (h : Hw) (d c : Nat) (rds : List DmaSeen) (w : DmaSeen) : Hw :=
  match (h.dma d c).desc with
  | none => h.dmaFetch d c (rds.headD {})
  | some ws =>
    let first := (h.dma d c).ahead.isEmpty
    let h := if first then (h.dmaRoom d c 32).dmaReadBurst d c ws (rds.headD {}) else h
    if h.dmaState d c ≠ 1 then h
    else
      let h := h.dmaWriteBurst d c ws w
      h.dmaAhead d c ws (if first then rds.drop 1 else rds)

/-- BURST_GRANT (R518 to R522): the next burst of controller `d`: `rds` is what its reads meet, in order (more than one where
the channel reads ahead), `w` what its write meets. -/
def execBurstGrant (d : Fin 4) (rds : List DmaSeen) (w : DmaSeen) (s : State) : Host.Outcome State Fault Refusal :=
  s.run fun h =>
    if !h.dmaOn d then h
    else
      match h.dmaPick d with
      | none => h
      | some (c, ripe) => (h.dmaAges d c ripe).dmaBurst d c rds w

/-- What follows the last byte of a descriptor (R514, R515, R517). -/
def Hw.dmaNext (h : Hw) (d c : Nat) (w : List Nat) : Hw :=
  let h := h.wr (DMA_TAG d c) (w.getD 7 0)
  let h := h.raiseIf (fld (w.getD 0 0) 24 24 == 1) (pgDMA d) c
  if fld (w.getD 6 0) 31 31 = 1 then (h.setDma d c {}).dmaEnter d c 0 0 0
  else
    ((h.wrPair (DMA_CUR_LO d c) (DMA_CUR_HI d c) (descNext w)).wr (DMA_DONE d c) 0).setDma d c { h.dma d c with desc := none, ahead := [], part := [] }

/-- DESCRIPTOR_DONE (R514, R515, R517): word 0 is written back with `DONE`; `w` is what that write meets. -/
def execDescriptorDone (d : Fin 4) (c : Fin 32) (w : DmaSeen) (s : State) : Host.Outcome State Fault Refusal :=
  s.run fun h =>
    let x := h.dma d c
    match x.desc, x.fault with
    | some ws, none =>
      if !h.dmaOn d || h.dmaState d c != 1 || h.rd (DMA_DONE d c) != descLen ws then h
      else
        let a := h.dmaCur d c
        match h.dmaWrite d c a (leBytes 4 (setBit (ws.getD 0 0) 31 true)) w.fin with
        | (some e, h) => h.dmaFault d c e 2 a
        | (none, h) => h.dmaNext d c ws
    | _, _ => h

end Sys2Proof.Machine
end

