-- ==== Sys2Proof/Machine/SpanIn.lean ====
section
/-! DEFINITION. Inbound requests of the Span link (R475 to R479, R482, R487, R490, R553). -/

namespace Sys2Proof.Machine

/-- The enabled window that an address lies in: of a BAR in the endpoint role, of the PCIe space in the root-port role (R475). -/
def Hw.iwOf (h : Hw) (bar addr : Nat) : Option Nat :=
  (List.range 16).find? (fun w =>
    h.iwEn w && (h.spanRoot || h.iwBar w == bar) && decide (h.iwPci w ≤ addr) && decide (addr < h.iwPci w + h.iwSize w))

/-- The attributes that a window gives its transactions (R476, Table 15.1). -/
def Hw.iwAttr (h : Hw) (w : Nat) : Attr :=
  { secure := h.bit (SPN_IW w 0) 30, mid := 0x52, vmid := BitVec.ofNat 10 (h.get (SPN_IW w 0) 9 0) }

/-- The completion of an inbound read; none goes out once the link is down (R486). -/
def Hw.inCompletion (h : Hw) (tag fn status : Nat) (d : List Byte) : Hw :=
  if h.spanUp then h.spanOut [{ op := 4, len := d.length, data := d, tag := tag, fn := fn, status := status }] else h

/-- A request to a function that takes none (R490): a read receives Unsupported Request, a write is dropped. -/
def Hw.vfRefused (h : Hw) (read : Bool) (tag fn : Nat) : Hw := if read then h.inCompletion tag fn 1 [] else h

/-- A request that no window takes, or not in its direction (R477): a read receives Unsupported Request. -/
def Hw.inRefused (h : Hw) (win : Nat) (read : Bool) (addr rid tag fn : Nat) : Hw :=
  let h := ((h.spanLog true win 1 0x0115 addr rid (if read then tag else 0)).raise pgSPN 5).spanReport
  if read then h.inCompletion tag fn 1 [] else h

/-- A request that its target refuses (Table 12.4): a read receives Completer Abort. -/
def Hw.inGated (h : Hw) (win : Nat) (read : Bool) (addr rid tag : Nat) : Hw :=
  let h := (h.spanLog true win 1 0x0116 addr rid (if read then tag else 0)).spanReport
  if read then h.inCompletion tag 0 4 [] else h

/-- A read in a window (R476, R478). -/
def Hw.inRead (h : Hw) (bar addr n base rid tag : Nat) : Hw :=
  match h.iwOf bar addr with
  | none => h.inRefused 0x1F true (base + addr) rid tag 0
  | some w =>
    if !h.bit (SPN_IW w 0) 29 then h.inRefused w true (base + addr) rid tag 0
    else
      match h.reach (h.iwTarget w + (addr - h.iwPci w)) n (h.iwAttr w) .clean [] .success with
      | (.ok d, h) => h.inCompletion tag 0 0 d
      | (.error _, h) => h.inGated w true (base + addr) rid tag

/-- A write in a window (R476, R478). -/
def Hw.inWrite (h : Hw) (bar addr : Nat) (d : List Byte) (base rid : Nat) : Hw :=
  match h.iwOf bar addr with
  | none => h.inRefused 0x1F false (base + addr) rid 0 0
  | some w =>
    if !h.bit (SPN_IW w 0) 28 then h.inRefused w false (base + addr) rid 0 0
    else
      match h.put_ (h.iwTarget w + (addr - h.iwPci w)) d (h.iwAttr w) .success with
      | (none, h) => h
      | (some _, h) => h.inGated w false (base + addr) rid 0

/-- A virtual function takes requests: it is enabled and no reset of it is under way (R488, R490). -/
def Hw.vfTakes (h : Hw) (v : Nat) : Bool := !h.spanRoot && h.bit SPN_VF 31 && decide (v < h.get SPN_VF 24 16) && !h.flrNow v

/-- The virtual port that an offset below 0x8000 of a function's BAR belongs to (R489, R553). -/
def Hw.vfPort (h : Hw) (v o : Nat) : Option Nat :=
  if o < 0x8000 ∧ o / 0x20 < h.get (SPN_VFMAP v) 10 0 then some (h.get (SPN_VFMAP v) 25 16 + o / 0x20) else none

/-- The word at an offset of a function's BAR (R553): doorbells and status of its ports, its 8 MSI-X vectors, their Pending Bits. -/
def Hw.vfWord (h : Hw) (v o : Nat) : Nat :=
  match h.vfPort v o with
  | some n =>
    match o % 0x20 with
    | 0 => h.rd (VPT_TXDB n)
    | 4 => h.rd (VPT_RXDB n)
    | 8 => h.vpStatus n
    | _ => 0
  | none =>
    if 0x8000 ≤ o ∧ o < 0x8080 then
      let vec := (o - 0x8000) / 16
      if o % 16 = 12 then (if h.span.unmasked.contains ((v + 1) * 32 + vec) then 0 else 1)
      else h.msixWord (v + 1) vec (o % 16)
    else if o = 0x9000 then
      ((List.range 8).map (fun i => if h.span.pend.contains ((v + 1) * 32 + i) then 2 ^ i else 0)).sum
    else 0

/-- A 32-bit write at an offset of a function's BAR (R553). -/
def Hw.vfStore (h : Hw) (v o x : Nat) (far : List (Nat × Byte)) : Hw :=
  match h.vfPort v o with
  | some n =>
    if !h.live pgVPT then h
    else
      match o % 0x20 with
      | 0 => h.vpDoorbell n true x []
      | 4 => h.vpDoorbell n false x far
      | _ => h
  | none => if 0x8000 ≤ o ∧ o < 0x8080 then h.msixWrite (v + 1) ((o - 0x8000) / 16) (o % 16 / 4 * 4) x else h

/-- INBOUND_REQUEST (R475 to R479, Table 12.4): nothing arrives while the link is down. -/
def execInboundRequest (q : SpanIn) (base : BitVec 64) (rid : BitVec 16) (tag : BitVec 8) (s : State) :
    Host.Outcome State Fault Refusal :=
  s.run fun h =>
    let b := base.toNat
    let r := rid.toNat
    let t := tag.toNat
    if !h.spanUp then h
    else
      match q with
      | .read bar addr n => h.inRead bar addr.toNat n b r t
      | .write bar addr d => h.inWrite bar addr.toNat d b r
      | .vfRead v addr =>
        if h.vfTakes v then h.inCompletion t (v + 1) 0 (leBytes 4 (h.vfWord v (addr.toNat / 4 * 4)))
        else h.vfRefused true t (v + 1)
      | .vfWrite v addr x far =>
        if h.vfTakes v then h.vfStore v (addr.toNat / 4 * 4) x.toNat far
        else h.vfRefused false t (v + 1)
      | .msix vec w x =>
        if h.spanRoot then h.inRefused 0x1F false b r 0 0 else h.msixWrite 0 vec (4 * w.val) x.toNat
      | .poisoned write addr =>
        let h := (h.spanLog true 0x1F 1 0x0117 (b + addr.toNat) r (if write then 0 else t)).spanReport
        if write then h else h.inCompletion t 0 1 []
      | .message => if h.spanRoot then h.spanLog true 0x1F 1 0x0118 0 r 0 else h

end Sys2Proof.Machine
end

