-- ==== Sys2Proof/Machine/Dispatch.lean ====
section
/-! DEFINITION. One arm for each command: a direct call of its meaning. -/

namespace Sys2Proof.Machine

/-- The effect of a command on the state (R5 to R734; spec/95_what_each_step_holds.md). -/
def exec (i : Instr) (s : State) : Host.Outcome State Fault Refusal :=
  match i with
  | .registerWrite addr width v a => Sys2Proof.Machine.execRegisterWrite addr width v a s
  | .lowerRegisterRead r a => Sys2Proof.Machine.execLowerRegisterRead r a s
  | .upperRegisterRead r a => Sys2Proof.Machine.execUpperRegisterRead r a s
  | .evtClrWrite page g v again a => Sys2Proof.Machine.execEvtClrWrite page g v again a s
  | .evtSetWrite page g v a => Sys2Proof.Machine.execEvtSetWrite page g v a s
  | .errCapClear page v fresh a => Sys2Proof.Machine.execErrCapClear page v fresh a s
  | .lockWrite page v a => Sys2Proof.Machine.execLockWrite page v a s
  | .worldWrite page v a => Sys2Proof.Machine.execWorldWrite page v a s
  | .tcuBaseTickWrite v a => Sys2Proof.Machine.execTcuBaseTickWrite v a s
  | .tcuSrcWrite n v a => Sys2Proof.Machine.execTcuSrcWrite n v a s
  | .sourceQualified n src rate x => Sys2Proof.Machine.execSourceQualified n src rate x s
  | .sourceLost n fault => Sys2Proof.Machine.execSourceLost n fault s
  | .holdLimitExpiry n => Sys2Proof.Machine.execHoldLimitExpiry n s
  | .angStall n => Sys2Proof.Machine.execAngStall n s
  | .correctionMeasured n m ns => Sys2Proof.Machine.execCorrectionMeasured n m ns s
  | .slewDone n => Sys2Proof.Machine.execSlewDone n s
  | .timecodeStep n => Sys2Proof.Machine.execTimecodeStep n s
  | .cueIdxWrite v a => Sys2Proof.Machine.execCueIdxWrite v a s
  | .cueW3Write v a => Sys2Proof.Machine.execCueW3Write v a s
  | .cueSwapRequest v a => Sys2Proof.Machine.execCueSwapRequest v a s
  | .swapDone => Sys2Proof.Machine.execSwapDone s
  | .cueCopy v a => Sys2Proof.Machine.execCueCopy v a s
  | .copyDone => Sys2Proof.Machine.execCopyDone s
  | .cueCntClr v a => Sys2Proof.Machine.execCueCntClr v a s
  | .nop k => Sys2Proof.Machine.execNop k s
  | .latch c => Sys2Proof.Machine.execLatch c s
  | .imageReady c => Sys2Proof.Machine.execImageReady c s
  | .commit c => Sys2Proof.Machine.execCommit c s
  | .drainEnd c => Sys2Proof.Machine.execDrainEnd c s
  | .rerunStart t => Sys2Proof.Machine.execRerunStart t s
  | .retryWindowEnd t => Sys2Proof.Machine.execRetryWindowEnd t s
  | .engineSelftest e => Sys2Proof.Machine.execEngineSelftest e s
  | .selftestDone e sig detected equal => Sys2Proof.Machine.execSelftestDone e sig detected equal s
  | .placement p => Sys2Proof.Machine.execPlacement p s
  | .ceaReplace v a => Sys2Proof.Machine.execCeaReplace v a s
  | .bgCommit t => Sys2Proof.Machine.execBgCommit t s
  | .bgRipe t => Sys2Proof.Machine.execBgRipe t s
  | .ceaTaskRestart v a => Sys2Proof.Machine.execCeaTaskRestart v a s
  | .cadenceEnable c v a => Sys2Proof.Machine.execCadenceEnable c v a s
  | .pduFrameRx b => Sys2Proof.Machine.execPduFrameRx b s
  | .pduStore u => Sys2Proof.Machine.execPduStore u s
  | .pduSend => Sys2Proof.Machine.execPduSend s
  | .pduEntryWrite u w v a => Sys2Proof.Machine.execPduEntryWrite u w v a s
  | .bankWrite t n v a => Sys2Proof.Machine.execBankWrite t n v a s
  | .alu e fetch => Sys2Proof.Machine.execAlu e fetch s
  | .logic e fetch => Sys2Proof.Machine.execLogic e fetch s
  | .cmp e fetch => Sys2Proof.Machine.execCmp e fetch s
  | .cvt e fetch => Sys2Proof.Machine.execCvt e fetch s
  | .rnd e fetch => Sys2Proof.Machine.execRnd e fetch s
  | .bool e fetch => Sys2Proof.Machine.execBool e fetch s
  | .sel e fetch => Sys2Proof.Machine.execSel e fetch s
  | .btst e fetch => Sys2Proof.Machine.execBtst e fetch s
  | .bins e fetch => Sys2Proof.Machine.execBins e fetch s
  | .li e fetch => Sys2Proof.Machine.execLi e fetch s
  | .lih e fetch => Sys2Proof.Machine.execLih e fetch s
  | .addi e fetch => Sys2Proof.Machine.execAddi e fetch s
  | .ld e fetch load => Sys2Proof.Machine.execLd e fetch load s
  | .st e fetch => Sys2Proof.Machine.execSt e fetch s
  | .ldx e fetch load => Sys2Proof.Machine.execLdx e fetch load s
  | .stx e fetch => Sys2Proof.Machine.execStx e fetch s
  | .ldb e fetch load => Sys2Proof.Machine.execLdb e fetch load s
  | .stb e fetch => Sys2Proof.Machine.execStb e fetch s
  | .tcv e fetch => Sys2Proof.Machine.execTcv e fetch s
  | .br e fetch => Sys2Proof.Machine.execBr e fetch s
  | .brk e fetch => Sys2Proof.Machine.execBrk e fetch s
  | .loop e fetch => Sys2Proof.Machine.execLoop e fetch s
  | .call e fetch => Sys2Proof.Machine.execCall e fetch s
  | .ret e fetch => Sys2Proof.Machine.execRet e fetch s
  | .endRun e fetch => Sys2Proof.Machine.execEndRun e fetch s
  | .trap e fetch => Sys2Proof.Machine.execTrap e fetch s
  | .prim e fetch load => Sys2Proof.Machine.execPrim e fetch load s
  | .chgArm v a => Sys2Proof.Machine.execChgArm v a s
  | .chgCancel v a => Sys2Proof.Machine.execChgCancel v a s
  | .forceWrite f v a => Sys2Proof.Machine.execForceWrite f v a s
  | .frcPermitWrite v a => Sys2Proof.Machine.execFrcPermitWrite v a s
  | .authExpired => Sys2Proof.Machine.execAuthExpired s
  | .dbgAttach v a => Sys2Proof.Machine.execDbgAttach v a s
  | .dbgDetach v a => Sys2Proof.Machine.execDbgDetach v a s
  | .dbgHalt v a => Sys2Proof.Machine.execDbgHalt v a s
  | .dbgResume v a => Sys2Proof.Machine.execDbgResume v a s
  | .dbgStep v a => Sys2Proof.Machine.execDbgStep v a s
  | .dbgRegisterWrite n v a => Sys2Proof.Machine.execDbgRegisterWrite n v a s
  | .pchCmdWrite c v a => Sys2Proof.Machine.execPchCmdWrite c v a s
  | .pwmPeriodStart c => Sys2Proof.Machine.execPwmPeriodStart c s
  | .pwmAlign c => Sys2Proof.Machine.execPwmAlign c s
  | .shortTrip c => Sys2Proof.Machine.execShortTrip c s
  | .limDwellExpiry x => Sys2Proof.Machine.execLimDwellExpiry x s
  | .overtempShutdown c => Sys2Proof.Machine.execOvertempShutdown c s
  | .tempRestart c => Sys2Proof.Machine.execTempRestart c s
  | .retryReset c => Sys2Proof.Machine.execRetryReset c s
  | .wireModelUpdate c m => Sys2Proof.Machine.execWireModelUpdate c m s
  | .windowEnd c => Sys2Proof.Machine.execWindowEnd c s
  | .busDip b => Sys2Proof.Machine.execBusDip b s
  | .busDipEnd b us => Sys2Proof.Machine.execBusDipEnd b us s
  | .busOverload b cur volt => Sys2Proof.Machine.execBusOverload b cur volt s
  | .rearm c v a => Sys2Proof.Machine.execRearm c v a s
  | .pchCntClr c v a => Sys2Proof.Machine.execPchCntClr c v a s
  | .olOnDetect c cur => Sys2Proof.Machine.execOlOnDetect c cur s
  | .offTestPhase c pullUp high => Sys2Proof.Machine.execOffTestPhase c pullUp high s
  | .ambientSample n => Sys2Proof.Machine.execAmbientSample n s
  | .ambFallback n => Sys2Proof.Machine.execAmbFallback n s
  | .profileWrite p w v a => Sys2Proof.Machine.execProfileWrite p w v a s
  | .pwmConfigWrite c v a => Sys2Proof.Machine.execPwmConfigWrite c v a s
  | .pssHb v a => Sys2Proof.Machine.execPssHb v a s
  | .pssWatchdogExpiry => Sys2Proof.Machine.execPssWatchdogExpiry s
  | .pssRelease v a => Sys2Proof.Machine.execPssRelease v a s
  | .pssRestart => Sys2Proof.Machine.execPssRestart s
  | .pssStart => Sys2Proof.Machine.execPssStart s
  | .holdWindowEnd => Sys2Proof.Machine.execHoldWindowEnd s
  | .lhSample p level => Sys2Proof.Machine.execLhSample p level s
  | .mapProg v a => Sys2Proof.Machine.execMapProg v a s
  | .mapProgDone good => Sys2Proof.Machine.execMapProgDone good s
  | .pssTakeWrite c v a => Sys2Proof.Machine.execPssTakeWrite c v a s
  | .takeover v a => Sys2Proof.Machine.execTakeover v a s
  | .takeClr v a => Sys2Proof.Machine.execTakeClr v a s
  | .frameRx p b frags broken => Sys2Proof.Machine.execFrameRx p b frags broken s
  | .loftWriteDone => Sys2Proof.Machine.execLoftWriteDone s
  | .loftStage q e => Sys2Proof.Machine.execLoftStage q e s
  | .egressSelect p e => Sys2Proof.Machine.execEgressSelect p e s
  | .frameTxDone p => Sys2Proof.Machine.execFrameTxDone p s
  | .linkDown p => Sys2Proof.Machine.execLinkDown p s
  | .linkUp p => Sys2Proof.Machine.execLinkUp p s
  | .graceExpiry p => Sys2Proof.Machine.execGraceExpiry p s
  | .lagRemap g b => Sys2Proof.Machine.execLagRemap g b s
  | .fdbAgeing => Sys2Proof.Machine.execFdbAgeing s
  | .fdbRead v a => Sys2Proof.Machine.execFdbRead v a s
  | .fdbWrite v a => Sys2Proof.Machine.execFdbWrite v a s
  | .fdbLookup v a => Sys2Proof.Machine.execFdbLookup v a s
  | .fdbDelete v a => Sys2Proof.Machine.execFdbDelete v a s
  | .fdbFlushFid v a => Sys2Proof.Machine.execFdbFlushFid v a s
  | .fdbFlushPort v a => Sys2Proof.Machine.execFdbFlushPort v a s
  | .strmRead v a => Sys2Proof.Machine.execStrmRead v a s
  | .strmWrite v a => Sys2Proof.Machine.execStrmWrite v a s
  | .strmLookup v a => Sys2Proof.Machine.execStrmLookup v a s
  | .strmDelete v a => Sys2Proof.Machine.execStrmDelete v a s
  | .seqRecoveryReset n => Sys2Proof.Machine.execSeqRecoveryReset n s
  | .swcCntClr v a => Sys2Proof.Machine.execSwcCntClr v a s
  | .grnCntClr v a => Sys2Proof.Machine.execGrnCntClr v a s
  | .loftCntClr v a => Sys2Proof.Machine.execLoftCntClr v a s
  | .mdioFrame p v a => Sys2Proof.Machine.execMdioFrame p v a s
  | .mdioDone p data => Sys2Proof.Machine.execMdioDone p data s
  | .cableGo p v a => Sys2Proof.Machine.execCableGo p v a s
  | .cableTestDone p res dist => Sys2Proof.Machine.execCableTestDone p res dist s
  | .sqiReport p sqi => Sys2Proof.Machine.execSqiReport p sqi s
  | .transmitOpportunity x => Sys2Proof.Machine.execTransmitOpportunity x s
  | .plcaCollision p => Sys2Proof.Machine.execPlcaCollision p s
  | .gate c => Sys2Proof.Machine.execGate c s
  | .hold c => Sys2Proof.Machine.execHold c s
  | .verifyTimeout p => Sys2Proof.Machine.execVerifyTimeout p s
  | .msecRead v a => Sys2Proof.Machine.execMsecRead v a s
  | .msecWrite v a => Sys2Proof.Machine.execMsecWrite v a s
  | .msecDelete v a => Sys2Proof.Machine.execMsecDelete v a s
  | .ptpInstanceEnable inst v a => Sys2Proof.Machine.execPtpInstanceEnable inst v a s
  | .syncRx inst offset time corr => Sys2Proof.Machine.execSyncRx inst offset time corr s
  | .syncInterval inst ratio => Sys2Proof.Machine.execSyncInterval inst ratio s
  | .syncReceiptTimeout inst => Sys2Proof.Machine.execSyncReceiptTimeout inst s
  | .pdelayExchange p delay => Sys2Proof.Machine.execPdelayExchange p delay s
  | .tc10SleepRequest p => Sys2Proof.Machine.execTc10SleepRequest p s
  | .tc10SleepNak p => Sys2Proof.Machine.execTc10SleepNak p s
  | .tc10PartnerSleep p => Sys2Proof.Machine.execTc10PartnerSleep p s
  | .tc10Wake p => Sys2Proof.Machine.execTc10Wake p s
  | .ethCntClr p v a => Sys2Proof.Machine.execEthCntClr p v a s
  | .canFrameEnd n f => Sys2Proof.Machine.execCanFrameEnd n f s
  | .frameStore n => Sys2Proof.Machine.execFrameStore n s
  | .canTx c => Sys2Proof.Machine.execCanTx c s
  | .canTxreq n v a => Sys2Proof.Machine.execCanTxreq n v a s
  | .macReady n o => Sys2Proof.Machine.execMacReady n o s
  | .arbitrationStart n won => Sys2Proof.Machine.execArbitrationStart n won s
  | .txOk n => Sys2Proof.Machine.execTxOk n s
  | .errorDetected n sending e => Sys2Proof.Machine.execErrorDetected n sending e s
  | .recessiveSequence n => Sys2Proof.Machine.execRecessiveSequence n s
  | .canRecov n v a => Sys2Proof.Machine.execCanRecov n v a s
  | .ageDrop n o => Sys2Proof.Machine.execAgeDrop n o s
  | .canDisable n v busy a => Sys2Proof.Machine.execCanDisable n v busy a s
  | .canEnable n v a => Sys2Proof.Machine.execCanEnable n v a s
  | .canObjectWrite n o w v a => Sys2Proof.Machine.execCanObjectWrite n o w v a s
  | .canCntClr n v a => Sys2Proof.Machine.execCanCntClr n v a s
  | .linSlot c => Sys2Proof.Machine.execLinSlot c s
  | .linHeaderRx l fid => Sys2Proof.Machine.execLinHeaderRx l fid s
  | .linResponseEnd l r => Sys2Proof.Machine.execLinResponseEnd l r s
  | .sheafRx m b => Sys2Proof.Machine.execSheafRx m b s
  | .segmentRx sn => Sys2Proof.Machine.execSegmentRx sn s
  | .rioPoll c => Sys2Proof.Machine.execRioPoll c s
  | .rioSend c => Sys2Proof.Machine.execRioSend c s
  | .sheafSend sn => Sys2Proof.Machine.execSheafSend sn s
  | .segmentSend sn => Sys2Proof.Machine.execSegmentSend sn s
  | .stationEnable sn v a => Sys2Proof.Machine.execStationEnable sn v a s
  | .rioCntClr v a => Sys2Proof.Machine.execRioCntClr v a s
  | .tunnelSend r => Sys2Proof.Machine.execTunnelSend r s
  | .ntscfRx b => Sys2Proof.Machine.execNtscfRx b s
  | .presentationTime r o => Sys2Proof.Machine.execPresentationTime r o s
  | .tunCntClr v a => Sys2Proof.Machine.execTunCntClr v a s
  | .nmChannelEnable c v a => Sys2Proof.Machine.execNmChannelEnable c v a s
  | .nmuVoteWrite v a => Sys2Proof.Machine.execNmuVoteWrite v a s
  | .nmFrameRx c data => Sys2Proof.Machine.execNmFrameRx c data s
  | .nmFrameSend c => Sys2Proof.Machine.execNmFrameSend c s
  | .repeatTimeExpiry c => Sys2Proof.Machine.execRepeatTimeExpiry c s
  | .nmTimeout c => Sys2Proof.Machine.execNmTimeout c s
  | .pnTimeout c => Sys2Proof.Machine.execPnTimeout c s
  | .waitSleepExpiry c => Sys2Proof.Machine.execWaitSleepExpiry c s
  | .commitWindowEnd c => Sys2Proof.Machine.execCommitWindowEnd c s
  | .wake code unit => Sys2Proof.Machine.execWake code unit s
  | .wakeSequence c => Sys2Proof.Machine.execWakeSequence c s
  | .wakeInput n => Sys2Proof.Machine.execWakeInput n s
  | .selectiveWakeFrame n f => Sys2Proof.Machine.execSelectiveWakeFrame n f s
  | .keepAwake c => Sys2Proof.Machine.execKeepAwake c s
  | .spanLinkEnable v a => Sys2Proof.Machine.execSpanLinkEnable v a s
  | .spanLinkUp speed lanes => Sys2Proof.Machine.execSpanLinkUp speed lanes s
  | .outboundAccess o n data credit tag a => Sys2Proof.Machine.execOutboundAccess o n data credit tag a s
  | .spnFlush w credit tag a => Sys2Proof.Machine.execSpnFlush w credit tag a s
  | .completionRx tag c credit => Sys2Proof.Machine.execCompletionRx tag c credit s
  | .completionTimeout tag credit => Sys2Proof.Machine.execCompletionTimeout tag credit s
  | .inboundRequest q base rid tag => Sys2Proof.Machine.execInboundRequest q base rid tag s
  | .spanLinkDown => Sys2Proof.Machine.execSpanLinkDown s
  | .flr v => Sys2Proof.Machine.execFlr v s
  | .vfChange en num => Sys2Proof.Machine.execVfChange en num s
  | .msixSend v => Sys2Proof.Machine.execMsixSend v s
  | .spnElogRdWrite v a => Sys2Proof.Machine.execSpnElogRdWrite v a s
  | .epochEnd heat samples util => Sys2Proof.Machine.execEpochEnd heat samples util s
  | .unitMove frame o => Sys2Proof.Machine.execUnitMove frame o s
  | .t0PoolWrite v a => Sys2Proof.Machine.execT0PoolWrite v a s
  | .scrub ce ue => Sys2Proof.Machine.execScrub ce ue s
  | .memcCntClr v a => Sys2Proof.Machine.execMemcCntClr v a s
  | .impCntClr v a => Sys2Proof.Machine.execImpCntClr v a s
  | .xltInvalidate v a => Sys2Proof.Machine.execXltInvalidate v a s
  | .invDone => Sys2Proof.Machine.execInvDone s
  | .dmaGo d c a => Sys2Proof.Machine.execDmaGo d c a s
  | .dmaTrig c => Sys2Proof.Machine.execDmaTrig c s
  | .dmaEventTrigger e => Sys2Proof.Machine.execDmaEventTrigger e s
  | .burstGrant d rds w => Sys2Proof.Machine.execBurstGrant d rds w s
  | .descriptorDone d c w => Sys2Proof.Machine.execDescriptorDone d c w s
  | .dmaPark d c => Sys2Proof.Machine.execDmaPark d c s
  | .dmaResume d c a => Sys2Proof.Machine.execDmaResume d c a s
  | .dmaAbort d c a => Sys2Proof.Machine.execDmaAbort d c a s
  | .txDoorbell n v a => Sys2Proof.Machine.execTxDoorbell n v a s
  | .rxDoorbell n v far a => Sys2Proof.Machine.execRxDoorbell n v far a s
  | .vpFrameGathered n far => Sys2Proof.Machine.execVpFrameGathered n far s
  | .vpDeliver host b far => Sys2Proof.Machine.execVpDeliver host b far s
  | .vpNotify n => Sys2Proof.Machine.execVpNotify n s
  | .portEnable v a => Sys2Proof.Machine.execPortEnable v a s
  | .portRemoved n far => Sys2Proof.Machine.execPortRemoved n far s
  | .vpFault n side addr => Sys2Proof.Machine.execVpFault n side addr s
  | .freeze v gathering far a => Sys2Proof.Machine.execFreeze v gathering far a s
  | .thaw v far a => Sys2Proof.Machine.execThaw v far a s
  | .save v a => Sys2Proof.Machine.execSave v a s
  | .restore v a => Sys2Proof.Machine.execRestore v a s
  | .clearCounters v a => Sys2Proof.Machine.execClearCounters v a s
  | .vpRingResize w v a => Sys2Proof.Machine.execVpRingResize w v a s
  | .wgtLockAll v a => Sys2Proof.Machine.execWgtLockAll v a s
  | .holdMarkWrite m v a => Sys2Proof.Machine.execHoldMarkWrite m v a s
  | .holdTimeout clk target => Sys2Proof.Machine.execHoldTimeout clk target s
  | .wgtDeny v timeout a => Sys2Proof.Machine.execWgtDeny v timeout a s
  | .mworldWrite core v mMode dirty => Sys2Proof.Machine.execMworldWrite core v mMode dirty s
  | .generate v a => Sys2Proof.Machine.execGenerate v a s
  | .derive v a => Sys2Proof.Machine.execDerive v a s
  | .keyImport v a => Sys2Proof.Machine.execKeyImport v a s
  | .keyExport v a => Sys2Proof.Machine.execKeyExport v a s
  | .clear v a => Sys2Proof.Machine.execClear v a s
  | .revoke v a => Sys2Proof.Machine.execRevoke v a s
  | .narrow v a => Sys2Proof.Machine.execNarrow v a s
  | .pubkey v a => Sys2Proof.Machine.execPubkey v a s
  | .persistSave v a => Sys2Proof.Machine.execPersistSave v a s
  | .persistLoad v a => Sys2Proof.Machine.execPersistLoad v a s
  | .persistCheck v a => Sys2Proof.Machine.execPersistCheck v a s
  | .challenge v a => Sys2Proof.Machine.execChallenge v a s
  | .enrol v a => Sys2Proof.Machine.execEnrol v a s
  | .rootReconstruct ok pkBad => Sys2Proof.Machine.execRootReconstruct ok pkBad s
  | .remask => Sys2Proof.Machine.execRemask s
  | .rngFail apt => Sys2Proof.Machine.execRngFail apt s
  | .rngRestart v a => Sys2Proof.Machine.execRngRestart v a s
  | .keyRngRead ready a => Sys2Proof.Machine.execKeyRngRead ready a s
  | .lcsAdvance v a => Sys2Proof.Machine.execLcsAdvance v a s
  | .jobSubmit q v a => Sys2Proof.Machine.execJobSubmit q v a s
  | .cryAes q => Sys2Proof.Machine.execCryAes q s
  | .crySha q => Sys2Proof.Machine.execCrySha q s
  | .cryHmac q => Sys2Proof.Machine.execCryHmac q s
  | .cryCmac q => Sys2Proof.Machine.execCryCmac q s
  | .ecdsaSign q => Sys2Proof.Machine.execEcdsaSign q s
  | .ecdsaVerify q => Sys2Proof.Machine.execEcdsaVerify q s
  | .ed25519Sign q => Sys2Proof.Machine.execEd25519Sign q s
  | .ed25519Verify q => Sys2Proof.Machine.execEd25519Verify q s
  | .cvuCfgWrite n v a => Sys2Proof.Machine.execCvuCfgWrite n v a s
  | .cvuStart n v a => Sys2Proof.Machine.execCvuStart n v a s
  | .cvuData n w v a => Sys2Proof.Machine.execCvuData n w v a s
  | .cvuExpect n v a => Sys2Proof.Machine.execCvuExpect n v a s
  | .cvuAliveIn n v a => Sys2Proof.Machine.execCvuAliveIn n v a s
  | .twnEnable v a => Sys2Proof.Machine.execTwnEnable v a s
  | .helloSend => Sys2Proof.Machine.execHelloSend s
  | .helloRx b => Sys2Proof.Machine.execHelloRx b s
  | .aloneTimeout => Sys2Proof.Machine.execAloneTimeout s
  | .heartbeatSend => Sys2Proof.Machine.execHeartbeatSend s
  | .heartbeatRx b => Sys2Proof.Machine.execHeartbeatRx b s
  | .heartbeatMiss => Sys2Proof.Machine.execHeartbeatMiss s
  | .imageSegmentRx b => Sys2Proof.Machine.execImageSegmentRx b s
  | .imageTimeout c => Sys2Proof.Machine.execImageTimeout c s
  | .signatureSend c => Sys2Proof.Machine.execSignatureSend c s
  | .signatureRx b => Sys2Proof.Machine.execSignatureRx b s
  | .stateRx b => Sys2Proof.Machine.execStateRx b s
  | .twnDeclare d => Sys2Proof.Machine.execTwnDeclare d s
  | .declareRx b => Sys2Proof.Machine.execDeclareRx b s
  | .ackRx b => Sys2Proof.Machine.execAckRx b s
  | .declareDeadline => Sys2Proof.Machine.execDeclareDeadline s
  | .twnResync v a => Sys2Proof.Machine.execTwnResync v a s
  | .exrexLaneLoss lane locked => Sys2Proof.Machine.execExrexLaneLoss lane locked s
  | .twnCntClr v a => Sys2Proof.Machine.execTwnCntClr v a s
  | .spareRota => Sys2Proof.Machine.execSpareRota s
  | .startupTest pd8 res => Sys2Proof.Machine.execStartupTest pd8 res s
  | .dailies => Sys2Proof.Machine.execDailies s
  | .slate => Sys2Proof.Machine.execSlate s
  | .gap => Sys2Proof.Machine.execGap s
  | .snapshot => Sys2Proof.Machine.execSnapshot s
  | .snapEnd => Sys2Proof.Machine.execSnapEnd s
  | .trigger lines => Sys2Proof.Machine.execTrigger lines s
  | .relTrigSw v a => Sys2Proof.Machine.execRelTrigSw v a s
  | .postEnd => Sys2Proof.Machine.execPostEnd s
  | .relRearm v a => Sys2Proof.Machine.execRelRearm v a s
  | .relEnable v a => Sys2Proof.Machine.execRelEnable v a s
  | .dump v a => Sys2Proof.Machine.execDump v a s
  | .dumpDone => Sys2Proof.Machine.execDumpDone s
  | .takeGo v a => Sys2Proof.Machine.execTakeGo v a s
  | .takeCycle => Sys2Proof.Machine.execTakeCycle s
  | .takeEnd => Sys2Proof.Machine.execTakeEnd s
  | .stageRom => Sys2Proof.Machine.execStageRom s
  | .loaderCheck => Sys2Proof.Machine.execLoaderCheck s
  | .imageCheck => Sys2Proof.Machine.execImageCheck s
  | .unitReload => Sys2Proof.Machine.execUnitReload s
  | .recoveryEntry => Sys2Proof.Machine.execRecoveryEntry s
  | .flashErase v a => Sys2Proof.Machine.execFlashErase v a s
  | .flashProgram v a => Sys2Proof.Machine.execFlashProgram v a s
  | .flashVerify v a => Sys2Proof.Machine.execFlashVerify v a s
  | .flDone ok pages => Sys2Proof.Machine.execFlDone ok pages s
  | .updateGo v a => Sys2Proof.Machine.execUpdateGo v a s
  | .updDone ok => Sys2Proof.Machine.execUpdDone ok s
  | .actArm v a => Sys2Proof.Machine.execActArm v a s
  | .activate c => Sys2Proof.Machine.execActivate c s
  | .bootRecover v a => Sys2Proof.Machine.execBootRecover v a s
  | .bootPkRev v a => Sys2Proof.Machine.execBootPkRev v a s
  | .query p b => Sys2Proof.Machine.execQuery p b s
  | .data p b => Sys2Proof.Machine.execData p b s
  | .recoveryCommit p b ok => Sys2Proof.Machine.execRecoveryCommit p b ok s
  | .bootRcvCommit v a ok => Sys2Proof.Machine.execBootRcvCommit v a ok s
  | .holdEnter mv => Sys2Proof.Machine.execHoldEnter mv s
  | .holdExit mv ok => Sys2Proof.Machine.execHoldExit mv ok s
  | .vbatHigh mv => Sys2Proof.Machine.execVbatHigh mv s
  | .in48Fault uv ov tens => Sys2Proof.Machine.execIn48Fault uv ov tens s
  | .vbatPowerOn mv => Sys2Proof.Machine.execVbatPowerOn mv s
  | .mainLogicReset mv => Sys2Proof.Machine.execMainLogicReset mv s
  | .resetN low => Sys2Proof.Machine.execResetN low s
  | .resetRelease bootMode twinRole spanRole => Sys2Proof.Machine.execResetRelease bootMode twinRole spanRole s
  | .sysResetReq v a => Sys2Proof.Machine.execSysResetReq v a s
  | .sysWdog v a => Sys2Proof.Machine.execSysWdog v a s
  | .sysWdogExpiry => Sys2Proof.Machine.execSysWdogExpiry s
  | .pwrOn v a => Sys2Proof.Machine.execPwrOn v a s
  | .pwrOff v a => Sys2Proof.Machine.execPwrOff v a s
  | .pwrClkOff m v a => Sys2Proof.Machine.execPwrClkOff m v a s
  | .pwrClkOn m v a => Sys2Proof.Machine.execPwrClkOn m v a s
  | .pdDone => Sys2Proof.Machine.execPdDone s
  | .moduleSleep => Sys2Proof.Machine.execModuleSleep s
  | .moduleWake => Sys2Proof.Machine.execModuleWake s
  | .supCntClr v a => Sys2Proof.Machine.execSupCntClr v a s
  | .evrRouteWrite e v a => Sys2Proof.Machine.execEvrRouteWrite e v a s
  | .eventDelivery e => Sys2Proof.Machine.execEventDelivery e s
  | .evtPulse c => Sys2Proof.Machine.execEvtPulse c s
  | .tcCapture c => Sys2Proof.Machine.execTcCapture c s
  | .swap c => Sys2Proof.Machine.execSwap c s
  | .adcBurst c => Sys2Proof.Machine.execAdcBurst c s
  | .burstComplete b mv vbat => Sys2Proof.Machine.execBurstComplete b mv vbat s
  | .tempInputSample inst mv vbat => Sys2Proof.Machine.execTempInputSample inst mv vbat s
  | .vbatLoss => Sys2Proof.Machine.execVbatLoss s
  | .verifyResponseRx p => Sys2Proof.Machine.execVerifyResponseRx p s
  | .tc10SleepAck p => Sys2Proof.Machine.execTc10SleepAck p s
  | .spanPerstNChange level => Sys2Proof.Machine.execSpanPerstNChange level s
  | .txBucketHoldsLength n far => Sys2Proof.Machine.execTxBucketHoldsLength n far s
  | .refreshRateChange m => Sys2Proof.Machine.execRefreshRateChange m s

end Sys2Proof.Machine
end

