-- ==== Sys2Proof/Machine/Tick.lean ====
section
/-! DEFINITION. What one cue clock cycle does when no command waits (the model's own step in place of idling; assumption log,
entry 2). -/

namespace Sys2Proof.Machine

/-- The restart that follows a recovery image (R683). The spec names no reset cause for it: a free one among those of Table 20.5 that reset the main logic. -/
def Hw.restartDue (h : Hw) : Hw :=
  match h.boot.restartAt with
  | some t =>
    if t ≤ h.now then
      let r := h.freeWord
      { r.2 with boot := { r.2.boot with restartAt := none } }.mainReset (2 + r.1 % 7)
    else h
  | none => h

/-- One cue clock cycle passes: the cue sheet passes the instants of the cycle that ends, and fires the cues deferred from it; what the module sent on the Span link and in recovery mode has been taken, the twin may send a
segment, and a restart that is due comes. -/
def Hw.tick (h : Hw) : Hw :=
  let h := h.passMarks
  let h := { h with now := h.now + 1, rose := [], took := [], span := { h.span with out := [] }, boot := { h.boot with answers := [] } }
  h.fireLate.twinTick.restartDue

end Sys2Proof.Machine
end

