-- ==== Sys2Proof/WellFormed.lean ====
section
/-! DEFINITION. Which commands are well formed: the operands that an observer of the module can give. -/

namespace Sys2Proof

/-- An address of the module: 40 bits (R5). -/
def busAddress (a : Nat) : Bool := decide (a < 2 ^ 40)

/-- A fraction has a denominator. -/
def Ratio.ok (r : Ratio) : Bool := decide (0 < r.den)

/-- The data length of a CAN frame agrees with its format and its DLC (Table 09.2). -/
def CanFrame.ok (f : CanFrame) : Bool :=
  let n := f.dlc.toNat
  match f.fmt.val with
  | 0 => decide (f.data.length = if f.rtr then 0 else min n 8)
  | 1 => decide (n < 16) && decide (f.data.length = [0, 1, 2, 3, 4, 5, 6, 7, 8, 12, 16, 20, 24, 32, 48, 64].getD n 0)
  | _ => decide (f.data.length = n + 1)

/-- A request of the link partner has at most 256 bytes of data, and a read asks for some (R480). -/
def SpanIn.ok : SpanIn → Bool
  | .read _ _ n => decide (0 < n.val)
  | .write _ _ d => decide (d.length ≤ 256)
  | .vfRead _ addr => decide (addr.toNat % 4 = 0)
  | .vfWrite _ addr _ far => decide (addr.toNat % 4 = 0) && far.all (fun e => decide (e.1 < 2 ^ 58))
  | .msix _ _ _ => true
  | .poisoned _ _ => true
  | .message => true

/-- A burst brings at most 64 bytes (R518). -/
def DmaSeen.ok (x : DmaSeen) : Bool := decide (x.data.length ≤ 64)

/-- Bytes of the link partner's memory: a virtual function and a 48-bit address. -/
def far48 (far : List (Nat × Byte)) : Bool := far.all (fun e => decide (e.1 < 2 ^ 58))

/-- The command is well formed. -/
def Instr.wellFormed : Instr → Bool
  | .registerWrite addr width _ _ => busAddress addr && [1, 2, 4, 8].contains width
  | .lowerRegisterRead r _ => busAddress r.addr && [1, 2, 4, 8].contains r.width
  | .upperRegisterRead r _ => busAddress r.addr && [1, 2, 4, 8].contains r.width
  | .evtClrWrite _ _ _ _ _ => true
  | .evtSetWrite _ _ _ _ => true
  | .errCapClear _ _ _ _ => true
  | .lockWrite _ _ _ => true
  | .worldWrite _ _ _ => true
  | .tcuBaseTickWrite _ _ => true
  | .tcuSrcWrite _ _ _ => true
  | .sourceQualified _ src _ x => src.ok && decide (0 < x.tickNs)
  | .sourceLost _ _ => true
  | .holdLimitExpiry _ => true
  | .angStall _ => true
  | .correctionMeasured _ m ns => decide (0 < ns) && match m with | .source src _ => src.ok | .edge _ => true
  | .slewDone _ => true
  | .timecodeStep _ => true
  | .cueIdxWrite _ _ => true
  | .cueW3Write _ _ => true
  | .cueSwapRequest _ _ => true
  | .swapDone => true
  | .cueCopy _ _ => true
  | .copyDone => true
  | .cueCntClr _ _ => true
  | .nop _ => true
  | .latch _ => true
  | .imageReady _ => true
  | .commit _ => true
  | .drainEnd _ => true
  | .rerunStart _ => true
  | .retryWindowEnd _ => true
  | .engineSelftest _ => true
  | .selftestDone _ _ _ _ => true
  | .placement p => (p.map (fun e => e.1)).Nodup
  | .ceaReplace _ _ => true
  | .bgCommit _ => true
  | .bgRipe _ => true
  | .ceaTaskRestart _ _ => true
  | .cadenceEnable _ _ _ => true
  | .pduFrameRx _ => true
  | .pduStore _ => true
  | .pduSend => true
  | .pduEntryWrite _ _ _ _ => true
  | .bankWrite _ _ _ _ => true
  | .alu _ _ => true
  | .logic _ _ => true
  | .cmp _ _ => true
  | .cvt _ _ => true
  | .rnd _ _ => true
  | .bool _ _ => true
  | .sel _ _ => true
  | .btst _ _ => true
  | .bins _ _ => true
  | .li _ _ => true
  | .lih _ _ => true
  | .addi _ _ => true
  | .ld _ _ _ => true
  | .st _ _ => true
  | .ldx _ _ _ => true
  | .stx _ _ => true
  | .ldb _ _ _ => true
  | .stb _ _ => true
  | .tcv _ _ => true
  | .br _ _ => true
  | .brk _ _ => true
  | .loop _ _ => true
  | .call _ _ => true
  | .ret _ _ => true
  | .endRun _ _ => true
  | .trap _ _ => true
  | .prim _ _ _ => true
  | .chgArm _ _ => true
  | .chgCancel _ _ => true
  | .forceWrite _ _ _ => true
  | .frcPermitWrite _ _ => true
  | .authExpired => true
  | .dbgAttach _ _ => true
  | .dbgDetach _ _ => true
  | .dbgHalt _ _ => true
  | .dbgResume _ _ => true
  | .dbgStep _ _ => true
  | .dbgRegisterWrite _ _ _ => true
  | .pchCmdWrite _ _ _ => true
  | .pwmPeriodStart _ => true
  | .pwmAlign _ => true
  | .shortTrip _ => true
  | .limDwellExpiry _ => true
  | .overtempShutdown _ => true
  | .tempRestart _ => true
  | .retryReset _ => true
  | .wireModelUpdate _ _ => true
  | .windowEnd _ => true
  | .busDip _ => true
  | .busDipEnd _ _ => true
  | .busOverload _ _ _ => true
  | .rearm _ _ _ => true
  | .pchCntClr _ _ _ => true
  | .olOnDetect _ _ => true
  | .offTestPhase _ _ _ => true
  | .ambientSample _ => true
  | .ambFallback _ => true
  | .profileWrite _ _ _ _ => true
  | .pwmConfigWrite _ _ _ => true
  | .pssHb _ _ => true
  | .pssWatchdogExpiry => true
  | .pssRelease _ _ => true
  | .pssRestart => true
  | .pssStart => true
  | .holdWindowEnd => true
  | .lhSample _ _ => true
  | .mapProg _ _ => true
  | .mapProgDone _ => true
  | .pssTakeWrite _ _ _ => true
  | .takeover _ _ => true
  | .takeClr _ _ => true
  | .frameRx _ _ _ _ => true
  | .loftWriteDone => true
  | .loftStage _ _ => true
  | .egressSelect _ _ => true
  | .frameTxDone _ => true
  | .linkDown _ => true
  | .linkUp _ => true
  | .graceExpiry _ => true
  | .lagRemap _ _ => true
  | .fdbAgeing => true
  | .fdbRead _ _ => true
  | .fdbWrite _ _ => true
  | .fdbLookup _ _ => true
  | .fdbDelete _ _ => true
  | .fdbFlushFid _ _ => true
  | .fdbFlushPort _ _ => true
  | .strmRead _ _ => true
  | .strmWrite _ _ => true
  | .strmLookup _ _ => true
  | .strmDelete _ _ => true
  | .seqRecoveryReset _ => true
  | .swcCntClr _ _ => true
  | .grnCntClr _ _ => true
  | .loftCntClr _ _ => true
  | .mdioFrame _ _ _ => true
  | .mdioDone _ _ => true
  | .cableGo _ _ _ => true
  | .cableTestDone _ _ _ => true
  | .sqiReport _ _ => true
  | .transmitOpportunity _ => true
  | .plcaCollision _ => true
  | .gate _ => true
  | .hold _ => true
  | .verifyTimeout _ => true
  | .msecRead _ _ => true
  | .msecWrite _ _ => true
  | .msecDelete _ _ => true
  | .ptpInstanceEnable _ _ _ => true
  | .syncRx _ _ _ _ => true
  | .syncInterval _ ratio => ratio.ok
  | .syncReceiptTimeout _ => true
  | .pdelayExchange _ _ => true
  | .tc10SleepRequest _ => true
  | .tc10SleepNak _ => true
  | .tc10PartnerSleep _ => true
  | .tc10Wake _ => true
  | .ethCntClr _ _ _ => true
  | .canFrameEnd _ f => f.ok
  | .frameStore _ => true
  | .canTx _ => true
  | .canTxreq _ _ _ => true
  | .macReady _ _ => true
  | .arbitrationStart _ _ => true
  | .txOk _ => true
  | .errorDetected _ _ _ => true
  | .recessiveSequence _ => true
  | .canRecov _ _ _ => true
  | .ageDrop _ _ => true
  | .canDisable _ _ _ _ => true
  | .canEnable _ _ _ => true
  | .canObjectWrite _ _ _ _ _ => true
  | .canCntClr _ _ _ => true
  | .linSlot _ => true
  | .linHeaderRx _ _ => true
  | .linResponseEnd _ r => decide (r.bytes.length ≤ 9)
  | .sheafRx _ _ => true
  | .segmentRx _ => true
  | .rioPoll _ => true
  | .rioSend _ => true
  | .sheafSend _ => true
  | .segmentSend _ => true
  | .stationEnable _ _ _ => true
  | .rioCntClr _ _ => true
  | .tunnelSend _ => true
  | .ntscfRx _ => true
  | .presentationTime _ _ => true
  | .tunCntClr _ _ => true
  | .nmChannelEnable _ _ _ => true
  | .nmuVoteWrite _ _ => true
  | .nmFrameRx _ _ => true
  | .nmFrameSend _ => true
  | .repeatTimeExpiry _ => true
  | .nmTimeout _ => true
  | .pnTimeout _ => true
  | .waitSleepExpiry _ => true
  | .commitWindowEnd _ => true
  | .wake _ _ => true
  | .wakeSequence _ => true
  | .wakeInput _ => true
  | .selectiveWakeFrame _ f => match f with | some f => f.ok | none => true
  | .keepAwake _ => true
  | .spanLinkEnable _ _ => true
  | .spanLinkUp _ _ => true
  | .outboundAccess o n bytes _ _ _ => decide (o.toNat % 64 + n.val ≤ 64) && (match bytes with | some d => decide (d.length = n.val) | none => decide (0 < n.val))
  | .spnFlush _ _ _ _ => true
  | .completionRx _ c _ => match c with | .success d => decide (d.length ≤ 64) | _ => true
  | .completionTimeout _ _ => true
  | .inboundRequest q _ _ _ => q.ok
  | .spanLinkDown => true
  | .flr _ => true
  | .vfChange _ _ => true
  | .msixSend _ => true
  | .spnElogRdWrite _ _ => true
  | .epochEnd heat samples _ => (heat.map (fun e => e.1)).Nodup && (samples.map (fun e => e.1)).Nodup
  | .unitMove _ _ => true
  | .t0PoolWrite _ _ => true
  | .scrub _ _ => true
  | .memcCntClr _ _ => true
  | .impCntClr _ _ => true
  | .xltInvalidate _ _ => true
  | .invDone => true
  | .dmaGo _ _ _ => true
  | .dmaTrig _ => true
  | .dmaEventTrigger _ => true
  | .burstGrant _ rds w => decide (rds.length ≤ 5) && (w :: rds).all DmaSeen.ok
  | .descriptorDone _ _ w => w.ok
  | .dmaPark _ _ => true
  | .dmaResume _ _ _ => true
  | .dmaAbort _ _ _ => true
  | .txDoorbell _ _ _ => true
  | .rxDoorbell _ _ far _ => far48 far
  | .vpFrameGathered _ far => far48 far
  | .vpDeliver _ _ far => far48 far
  | .vpNotify _ => true
  | .portEnable _ _ => true
  | .portRemoved _ far => far48 far
  | .vpFault _ _ _ => true
  | .freeze _ _ far _ => far48 far
  | .thaw _ far _ => far48 far
  | .save _ _ => true
  | .restore _ _ => true
  | .clearCounters _ _ => true
  | .vpRingResize _ _ _ => true
  | .wgtLockAll _ _ => true
  | .holdMarkWrite _ _ _ => true
  | .holdTimeout clk target => clk || decide (target.val < 24)
  | .wgtDeny _ _ _ => true
  | .mworldWrite _ _ _ dirty => dirty.all (fun l => decide (l.1.toNat % 64 = 0) && decide (l.2.length = 64))
  | .generate _ _ => true
  | .derive _ _ => true
  | .keyImport _ _ => true
  | .keyExport _ _ => true
  | .clear _ _ => true
  | .revoke _ _ => true
  | .narrow _ _ => true
  | .pubkey _ _ => true
  | .persistSave _ _ => true
  | .persistLoad _ _ => true
  | .persistCheck _ _ => true
  | .challenge _ _ => true
  | .enrol _ _ => true
  | .rootReconstruct _ _ => true
  | .remask => true
  | .rngFail _ => true
  | .rngRestart _ _ => true
  | .keyRngRead _ _ => true
  | .lcsAdvance _ _ => true
  | .jobSubmit _ _ _ => true
  | .cryAes _ => true
  | .crySha _ => true
  | .cryHmac _ => true
  | .cryCmac _ => true
  | .ecdsaSign _ => true
  | .ecdsaVerify _ => true
  | .ed25519Sign _ => true
  | .ed25519Verify _ => true
  | .cvuCfgWrite _ _ _ => true
  | .cvuStart _ _ _ => true
  | .cvuData _ _ _ _ => true
  | .cvuExpect _ _ _ => true
  | .cvuAliveIn _ _ _ => true
  | .twnEnable _ _ => true
  | .helloSend => true
  | .helloRx _ => true
  | .aloneTimeout => true
  | .heartbeatSend => true
  | .heartbeatRx _ => true
  | .heartbeatMiss => true
  | .imageSegmentRx _ => true
  | .imageTimeout _ => true
  | .signatureSend _ => true
  | .signatureRx _ => true
  | .stateRx _ => true
  | .twnDeclare _ => true
  | .declareRx _ => true
  | .ackRx _ => true
  | .declareDeadline => true
  | .twnResync _ _ => true
  | .exrexLaneLoss _ _ => true
  | .twnCntClr _ _ => true
  | .spareRota => true
  | .startupTest _ res => decide (res.length = 9)
  | .dailies => true
  | .slate => true
  | .gap => true
  | .snapshot => true
  | .snapEnd => true
  | .trigger _ => true
  | .relTrigSw _ _ => true
  | .postEnd => true
  | .relRearm _ _ => true
  | .relEnable _ _ => true
  | .dump _ _ => true
  | .dumpDone => true
  | .takeGo _ _ => true
  | .takeCycle => true
  | .takeEnd => true
  | .stageRom => true
  | .loaderCheck => true
  | .imageCheck => true
  | .unitReload => true
  | .recoveryEntry => true
  | .flashErase _ _ => true
  | .flashProgram _ _ => true
  | .flashVerify _ _ => true
  | .flDone _ _ => true
  | .updateGo _ _ => true
  | .updDone _ => true
  | .actArm _ _ => true
  | .activate _ => true
  | .bootRecover _ _ => true
  | .bootPkRev _ _ => true
  | .query _ _ => true
  | .data _ _ => true
  | .recoveryCommit _ _ _ => true
  | .bootRcvCommit _ _ _ => true
  | .holdEnter _ => true
  | .holdExit _ _ => true
  | .vbatHigh _ => true
  | .in48Fault _ _ _ => true
  | .vbatPowerOn _ => true
  | .mainLogicReset _ => true
  | .resetN _ => true
  | .resetRelease _ _ _ => true
  | .sysResetReq _ _ => true
  | .sysWdog _ _ => true
  | .sysWdogExpiry => true
  | .pwrOn _ _ => true
  | .pwrOff _ _ => true
  | .pwrClkOff _ _ _ => true
  | .pwrClkOn _ _ _ => true
  | .pdDone => true
  | .moduleSleep => true
  | .moduleWake => true
  | .supCntClr _ _ => true
  | .evrRouteWrite _ _ _ => true
  | .eventDelivery _ => true
  | .evtPulse _ => true
  | .tcCapture _ => true
  | .swap _ => true
  | .adcBurst _ => true
  | .burstComplete _ mv _ => decide (mv.length ≤ 48)
  | .tempInputSample _ _ _ => true
  | .vbatLoss => true
  | .verifyResponseRx _ => true
  | .tc10SleepAck _ => true
  | .spanPerstNChange _ => true
  | .txBucketHoldsLength _ far => far48 far
  | .refreshRateChange _ => true

end Sys2Proof
end

