-- ==== Sys2Proof/Safety.lean ====
section
/-! DEFINITION. What the statements call safe: a step that answers, a state in canonical form, a queue of well-formed commands. -/

namespace Sys2Proof.Machine

/-- Every register that is listed holds a value other than its reset value, and each is listed once, in order. -/
def Hw.regsOk (h : Hw) : Bool := canon regReset h.regs

/-- Every memory is in its canonical form: T0, T1, the flash device, the Granary's cells, program memory, the instance pool,
the PDU RAM and the data RAMs of the CAN controllers. -/
def Hw.memsOk (h : Hw) : Bool :=
  h.mem.t0.wf && h.mem.t1.wf && canon erasedByte h.mem.flash && h.mem.cells.wf && h.cea.prog.wf && h.cea.pool.wf && h.cea.pduRam.wf &&
    h.zone.cans.all (fun c => c.2.ram.wf)

/-- The gates of an access to register `k` are open: its page exists (R7), has power and a clock (R704), and lets the
transaction's world in (R557); and the transaction exists (R716). -/
def Hw.opens (h : Hw) (k : Nat) (a : Attr) : Bool :=
  (pageRow (k / 0x10000)).isSome && h.live (k / 0x10000) && h.gateOpen (k / 0x10000) a && !h.jtagShut a

/-- A write to register `k` reaches it: the gates are open and the register is not locked (R10). -/
def Hw.takes (h : Hw) (k : Nat) (a : Attr) : Bool := h.opens k a && !h.locked k

/-- The entry of a cue. -/
def Hw.cueOf (h : Hw) (c : CueRef) : CueWord := h.cueEntry h.activeHalf c.idx

/-- A cue reaches the instant `v` of its slot in this cycle, in index order and among the first 64, and acts with the action `act`
(R42, R43, R47, R54, R56, R62, R704, Table 01.2). -/
def Hw.cueActs (h : Hw) (c : CueRef) (act v : Nat) : Bool :=
  h.live pgCUE && h.bit (CTRL pgCUE) 0 && decide (cueFld (h.cueOf c) 127 127 = 1) && decide (cueAction (h.cueOf c) = act) &&
    h.slotFires (cueTc (h.cueOf c)) && decide (h.cueNow.cue.next ≤ c.idx) && decide (h.cueDue (h.cueOf c) = some v) &&
    decide (h.cueNow.cue.fired < 64) && !(decide (cueFld (h.cueOf c) 123 123 = 0) && h.cueTargetSecure act (cueArg (h.cueOf c))) &&
    (cuePages act (cueArg (h.cueOf c))).all (fun p => h.live p)

/-- The module once the cue sheet has fired the entry: nothing but the cue sheet's account of the cycle has changed. -/
def Hw.cueFired (h : Hw) (i : Nat) : Hw :=
  let h := h.cueTaken i
  { h with cue := { h.cue with fired := h.cue.fired + 1 } }

/-- A run whose next instruction counts as retired (R132), past its breakpoint. -/
def Run.counted (r : Run) : Run := { r with icount := r.icount + 1, passBp := false }

/-- Engine `e` executes the word `w` next, in run `r` of task `t`: a run that has begun, at no breakpoint, inside its code, at
no word that trapped with FETCH_ECC in the primary run (R131, R132, R139, R188). -/
def Hw.executes (h : Hw) (e t : Nat) (r : Run) (w : Nat) : Bool :=
  h.live pgCEA && h.live (pgCE e) && decide (h.current e = some (t, r)) && (!r.bg || r.begun) &&
    !(h.dbgOn t && decide (r.phase = .primary) && !r.passBp && h.atBreak r.pc) &&
    (match r.first with | some x => !(decide (x.trap = tFetchEcc) && decide (x.icount = r.counted.icount)) | none => true) &&
    decide (r.pc < (h.gCtx t r).codeLen) && decide (h.progWord ((h.gCtx t r).bank + 0x40 + 4 * r.pc) = w) && gOpcodes.contains (gOp w)

/-- The module once the errors that the fetch and the load of run `r`'s next word `w` have met are counted (R103). -/
abbrev Hw.eccSeen (h : Hw) (fetch load : Ecc) (t : Nat) (r : Run) (w : Nat) : Hw :=
  h.loadEcc fetch load (gConst w) (h.loadAddr (h.gCtx t r) r.counted w)

/-- A run of a task goes on as `x`: through the ends of loop bodies (R144), and to the debugger after a single step (R188). -/
def Hw.goesOn (h : Hw) (t : Nat) (r x : Run) : Hw :=
  if r.stepping then h.haltRun t (loopEnds 4 x) 3 else h.setRun t (loopEnds 4 x)

/-- At the next instruction. -/
def Run.after (r : Run) : Run := { r with pc := r.pc + 1 }

/-- A queue's front job `j` is of operation `op`: the crypto accelerator has power and a clock, and the descriptor `d` is read
(R606), which leaves the module at `x`. -/
abbrev Hw.jobRuns (h : Hw) (q op : Nat) (j : Job) (d : List Byte) (x : Hw) : Prop :=
  h.live pgCRY = true ∧ (h.jobs q).head? = some j ∧ h.memRead j.addr 64 j.attr = (some d, x) ∧ dOp d = op

/-- The twin takes a received frame `b` (R626, R628), which reads as `f`. -/
abbrev Hw.exrexTakes (h : Hw) (b : List Byte) (f : Exrex) : Prop :=
  h.live pgTWN = true ∧ (h.twState == twOff) = false ∧ exrexParse b = some f

/-- What a command does to the module. -/
def effect (c : Instr) (h : Hw) : Hw :=
  match exec c { hw := h } with
  | .next s => s.hw
  | _ => h

/-- The module after commands in order. -/
def Hw.after (q : List Instr) (h : Hw) : Hw := q.foldl (fun h c => effect c h) h

/-- The register that a command writes, whatever the value, and the attributes of the write. (The rows that name their register
themselves, `REGISTER_WRITE` and the two reads, are not among these commands.) -/
def registerOf : Instr → Option (Nat × Attr)
  | .evtClrWrite page g _ _ a => some (evRaw page g + 8, a)
  | .evtSetWrite page g _ a => some (evRaw page g + 12, a)
  | .errCapClear page _ _ a => some (ERR_CAP0 page, a)
  | .lockWrite page _ a => some (LOCK page, a)
  | .tcuBaseTickWrite _ a => some (TCU_BASE_TICK, a)
  | .tcuSrcWrite n _ a => some (TCU_SRC n, a)
  | .cueIdxWrite _ a => some (CUE_IDX, a)
  | .cueW3Write _ a => some (CUE_W3, a)
  | .cueSwapRequest _ a => some (CUE_SWAP, a)
  | .cueCopy _ a => some (CUE_COPY, a)
  | .cueCntClr _ a => some (CUE_CNT_CLR, a)
  | .ceaReplace _ a => some (CEA_REPLACE, a)
  | .ceaTaskRestart _ a => some (CEA_TASK_RESTART, a)
  | .cadenceEnable c _ a => some (CEA_CAD c 0, a)
  | .pduEntryWrite u w _ a => some (CEA_PDU u w, a)
  | .bankWrite t n _ a => some (if n.val = 0 then PGM_TASK_BANK0 t else PGM_TASK_BANK1 t, a)
  | .chgArm _ a => some (FRC_CHG_CTRL, a)
  | .chgCancel _ a => some (FRC_CHG_CTRL, a)
  | .forceWrite f _ a => some (FRC_FORCE f 1, a)
  | .frcPermitWrite _ a => some (FRC_PERMIT, a)
  | .dbgAttach _ a => some (DBG_ATTACH, a)
  | .dbgDetach _ a => some (DBG_ATTACH, a)
  | .dbgHalt _ a => some (DBG_HALT, a)
  | .dbgResume _ a => some (DBG_HALT, a)
  | .dbgStep _ a => some (DBG_HALT, a)
  | .dbgRegisterWrite n _ a => some (dbgReg n, a)
  | .pchCmdWrite c _ a => some (cCmd c, a)
  | .rearm c _ a => some (PCH_CLR (c / 8) (c % 8), a)
  | .pchCntClr c _ a => some (PCH_CLR (c / 8) (c % 8), a)
  | .profileWrite p w _ a => some (LPM_PROF p w, a)
  | .pwmConfigWrite c _ a => some (cPwm c, a)
  | .pssHb _ a => some (PSS_HB, a)
  | .pssRelease _ a => some (PSS_RELEASE, a)
  | .mapProg _ a => some (PSS_MAP_PROG, a)
  | .pssTakeWrite c _ a => some (PSS_TAKE c, a)
  | .takeover _ a => some (PSS_TAKE_CTRL, a)
  | .takeClr _ a => some (PSS_TAKE_CTRL, a)
  | .fdbRead _ a => some (FDB_CMD, a)
  | .fdbWrite _ a => some (FDB_CMD, a)
  | .fdbLookup _ a => some (FDB_CMD, a)
  | .fdbDelete _ a => some (FDB_CMD, a)
  | .fdbFlushFid _ a => some (FDB_CMD, a)
  | .fdbFlushPort _ a => some (FDB_CMD, a)
  | .strmRead _ a => some (STRM_CMD, a)
  | .strmWrite _ a => some (STRM_CMD, a)
  | .strmLookup _ a => some (STRM_CMD, a)
  | .strmDelete _ a => some (STRM_CMD, a)
  | .swcCntClr _ a => some (SWC_CNT_CLR, a)
  | .grnCntClr _ a => some (GRN_CNT_CLR, a)
  | .loftCntClr _ a => some (LOFT_CNT_CLR, a)
  | .mdioFrame p _ a => some (at_ (pgETH p) 0x160, a)
  | .cableGo p _ a => some (at_ (pgETH p) 0x104, a)
  | .msecRead _ a => some (MSEC_CMD, a)
  | .msecWrite _ a => some (MSEC_CMD, a)
  | .msecDelete _ a => some (MSEC_CMD, a)
  | .ptpInstanceEnable i _ a => some (ETH_PTPI_CFG 0 i, a)
  | .ethCntClr p _ a => some (ETH_CNT_CLR p, a)
  | .canTxreq n _ a => some (CAN_TXREQ n, a)
  | .canRecov n _ a => some (CAN_RECOV n, a)
  | .canDisable n _ _ a => some (CTRL (pgCAN n), a)
  | .canEnable n _ a => some (CTRL (pgCAN n), a)
  | .canObjectWrite n o w _ a => some (CAN_OBJ n o w, a)
  | .canCntClr n _ a => some (CAN_CNT_CLR n, a)
  | .stationEnable s _ a => some (RIO_STN s 0, a)
  | .rioCntClr _ a => some (RIO_CNT_CLR, a)
  | .tunCntClr _ a => some (TUN_CNT_CLR, a)
  | .nmChannelEnable c _ a => some (NMU_CH c 0, a)
  | .nmuVoteWrite _ a => some (NMU_VOTE, a)
  | .spanLinkEnable _ a => some (SPN_CFG, a)
  | .spnFlush w _ _ a => some (SPN_FLUSH w, a)
  | .spnElogRdWrite _ a => some (SPN_ELOG_RD, a)
  | .t0PoolWrite _ a => some (RVE_T0_POOL, a)
  | .memcCntClr _ a => some (MEMC_CNT_CLR, a)
  | .impCntClr _ a => some (IMP_CNT_CLR, a)
  | .xltInvalidate _ a => some (XLT_INV, a)
  | .dmaGo d c a => some (DMA_CTRL d c, a)
  | .dmaResume d c a => some (DMA_CTRL d c, a)
  | .dmaAbort d c a => some (DMA_CTRL d c, a)
  | .txDoorbell n _ a => some (VPT_TXDB n, a)
  | .rxDoorbell n _ _ a => some (VPT_RXDB n, a)
  | .portEnable _ a => some (VPT_E 0, a)
  | .freeze _ _ _ a => some (VPT_CMD, a)
  | .thaw _ _ a => some (VPT_CMD, a)
  | .save _ a => some (VPT_CMD, a)
  | .restore _ a => some (VPT_CMD, a)
  | .clearCounters _ a => some (VPT_CMD, a)
  | .vpRingResize w _ a => some (VPT_E w, a)
  | .wgtLockAll _ a => some (LOCK pgWGT, a)
  | .holdMarkWrite m _ a => some (match m with | none => WGT_HOLD_PD | some m => WGT_HOLD_PAGE m, a)
  | .wgtDeny _ _ a => some (WGT_DENY, a)
  | .generate _ a => some (KEY_CMD, a)
  | .derive _ a => some (KEY_CMD, a)
  | .keyImport _ a => some (KEY_CMD, a)
  | .keyExport _ a => some (KEY_CMD, a)
  | .clear _ a => some (KEY_CMD, a)
  | .revoke _ a => some (KEY_CMD, a)
  | .narrow _ a => some (KEY_CMD, a)
  | .pubkey _ a => some (KEY_CMD, a)
  | .persistSave _ a => some (KEY_CMD, a)
  | .persistLoad _ a => some (KEY_CMD, a)
  | .persistCheck _ a => some (KEY_CMD, a)
  | .challenge _ a => some (KEY_CMD, a)
  | .enrol _ a => some (KEY_CMD, a)
  | .rngRestart _ a => some (KEY_RNG_HEALTH, a)
  | .lcsAdvance _ a => some (KEY_LCS_ADV, a)
  | .jobSubmit q _ a => some (CRY_SUBMIT q, a)
  | .cvuCfgWrite n _ a => some (CVU_CFG n, a)
  | .cvuStart n _ a => some (CVU_START n, a)
  | .cvuData n w _ a => some (cvuDataReg n w, a)
  | .cvuExpect n _ a => some (CVU_EXPECT_LO n, a)
  | .cvuAliveIn n _ a => some (CVU_ALIVE_IN n, a)
  | .twnEnable _ a => some (TWN_CFG, a)
  | .twnResync _ a => some (TWN_RESYNC, a)
  | .twnCntClr _ a => some (TWN_CNT_CLR, a)
  | .relTrigSw _ a => some (REL_TRIG_SW, a)
  | .relRearm _ a => some (REL_REARM, a)
  | .relEnable _ a => some (CTRL pgREL, a)
  | .dump _ a => some (REL_DUMP, a)
  | .takeGo _ a => some (REL_TAKE_CTRL, a)
  | .flashErase _ a => some (BOOT_FL_CMD, a)
  | .flashProgram _ a => some (BOOT_FL_CMD, a)
  | .flashVerify _ a => some (BOOT_FL_CMD, a)
  | .updateGo _ a => some (BOOT_UPD_CTRL, a)
  | .actArm _ a => some (BOOT_ACT, a)
  | .bootRecover _ a => some (BOOT_RECOVER, a)
  | .bootPkRev _ a => some (BOOT_PK_REV, a)
  | .bootRcvCommit _ a _ => some (BOOT_RCV_COMMIT, a)
  | .sysResetReq _ a => some (SYS_RESET_REQ, a)
  | .sysWdog _ a => some (SYS_WDOG, a)
  | .pwrOn _ a => some (PWR_ON, a)
  | .pwrOff _ a => some (PWR_OFF, a)
  | .pwrClkOff m _ a => some (PWR_CLK_OFF m, a)
  | .pwrClkOn m _ a => some (PWR_CLK_ON m, a)
  | .supCntClr _ a => some (SUP_CNT_CLR, a)
  | .evrRouteWrite e _ a => some (EVR_ROUTE e, a)
  | .worldWrite page _ a => some (WORLD page, a)
  | .twnDeclare (.write _ a) => some (TWN_DECLARE, a)
  | _ => none

/-- The canonical form of a state: equal contents are equal data. -/
def State.Inv (s : State) : Prop := s.hw.regsOk = true ∧ s.hw.memsOk = true

/-- The state with another module and the same queue. -/
abbrev State.withHw (s : State) (h : Hw) : State := { s with hw := h }

/-- Every waiting command is well formed. -/
def State.QueueOk (s : State) : Prop := ∀ c ∈ s.pending, c.wellFormed = true

/-- A step that answers a next state: no fault, no refusal. -/
def Answers (o : Host.Outcome State Fault Refusal) : Prop := ∃ t, o = .next t

end Sys2Proof.Machine
end

