-- ==== Sys2Proof/Certificates/Slice0/Obligations.lean ====
section
/-! DEFINITION. The statements about this model, for the provers: one definition of type `Prop` for each obligation of
OBLIGATIONS.json. The statements of completion give, for each row of the command table, the whole state a command leaves
(so its frame as well) under conditions on the state and the operands alone; a clause carries the name of its command.
Names used: `Hw.takes k a`, the write of register `k` with the attributes `a` passes every gate and lock; `Hw.answer d`, the
module with the answer `d` of the access and no error; `Hw.cueActs`, the enabled CUE entry starts the event source it names. -/
open Sys2Proof Sys2Proof.Machine
set_option maxRecDepth 4000

/-- Register accesses and the header commands of a page complete with their effect.
Derived from R8, R10, R11, R12, R14, R15, R17, R562 of the spec. For a Secure or Normal master whose access the page
lets in (page present, powered and clocked, world gate open, register not locked): a write of a HLT or CE register
takes the value under its access code; a read of a lower register of a pair answers its value and shadows the upper
one; a read of an upper register that has a shadow answers the shadow and drops it; EVT_CLR clears the raw bits
written 1 but for those that recur; EVT_SET sets raw bits in the life-cycle states BLANK, MANUFACTURE and RETURN;
ERR_CAP_CLEAR clears the four capture registers; LOCK_WRITE sets lock bits; a Secure WORLD_WRITE writes the world bit
of an unlocked page other than the WGT. In each case the command answers the next state given, and nothing outside it
changes. -/
def Obligations.PageHeaderCommandsComplete : Prop :=
  -- registerWrite
  (∀ (s : State) (h : Hw) (k : Nat) (r : PageRow) (v : Word) (a : Attr),
      s.hw.takes (k) a = true →
      h = s.hw.answer 0 →
      pageRow (k / 0x10000) = some r →
      (r.blk = .hlt ∨ r.blk = .ce) →
      k < 0x400_0000 →
      k % 4 = 0 →
      0x100 ≤ k % 0x10000 →
      exec (.registerWrite (0xF000_0000 + k) 4 v a) s = .next (s.withHw (h.storeReg k v.toNat))) ∧
  -- lowerRegisterRead
  (∀ (s : State) (h g : Hw) (a : Attr) (k x y : Nat), s.hw.opens k a = true → h = s.hw.answer 0 → k < 0x400_0000 → k % 4 = 0 → isLower k = true →
      h.readValue k a = (x, g) → g.readValue (k + 4) a = (y, g) →
      exec (.lowerRegisterRead ⟨0xF000_0000 + k, 4⟩ a) s = .next (s.withHw (({ g with shadow := file g.shadow (k + 4) (BitVec.ofNat 32 y) } : Hw).answer x))) ∧
  -- upperRegisterRead
  (∀ (s : State) (h : Hw) (a : Attr) (k : Nat) (u : Word), s.hw.opens k a = true → h = s.hw.answer 0 → k < 0x400_0000 → k % 4 = 0 → isLower k = false →
      isLower (k - 4) = true → find? h.shadow k = some u →
      exec (.upperRegisterRead ⟨0xF000_0000 + k, 4⟩ a) s = .next (s.withHw (({ h with shadow := unfile h.shadow k } : Hw).answer u.toNat))) ∧
  -- evtClrWrite
  (∀ (s : State) (h : Hw) (page : Fin 1024) (g : Fin 3) (v again : Word) (a : Attr),
      s.hw.takes (evRaw page g + 8) a = true →
      h = s.hw.answer 0 →
      groupExists page g = true →
      exec (.evtClrWrite page g v again a) s = .next (s.withHw (h.newEdges (h.wr (evRaw page g)
          ((h.rd (evRaw page g) &&& (0xFFFF_FFFF - (v.toNat &&& (0xFFFF_FFFF - again.toNat)))) ||| (again.toNat &&& evMask page g))) page g))) ∧
  -- evtSetWrite
  (∀ (s : State) (h : Hw) (page : Fin 1024) (g : Fin 3) (v : Word) (a : Attr),
      s.hw.takes (evRaw page g + 12) a = true →
      h = s.hw.answer 0 →
      groupExists page g = true →
      (h.lcs = 0 ∨ h.lcs = 1 ∨ h.lcs = 3) →
      exec (.evtSetWrite page g v a) s = .next (s.withHw (h.newEdges (h.wr (evRaw page g) (h.rd (evRaw page g) ||| (v.toNat &&& evMask page g))) page g))) ∧
  -- errCapClear
  (∀ (s : State) (h : Hw) (page : Fin 1024) (v : Word) (a : Attr),
      s.hw.takes (ERR_CAP0 page) a = true →
      h = s.hw.answer 0 →
      fld v.toNat 31 31 = 1 →
      exec (.errCapClear page v none a) s = .next (s.withHw ((((h.wr (ERR_CAP0 page) 0).wr (ERR_CAP1 page) 0).wr (ERR_CAP2 page) 0).wr (ERR_CAP3 page) 0))) ∧
  -- lockWrite
  (∀ (s : State) (h : Hw) (page : Fin 1024) (v : Word) (a : Attr),
      s.hw.takes (LOCK page) a = true →
      h = s.hw.answer 0 →
      page.val ≠ pgWGT →
      exec (.lockWrite page v a) s = .next (s.withHw (h.wr (LOCK page) (h.rd (LOCK page) ||| (v.toNat &&& 3))))) ∧
  -- worldWrite
  (∀ (s : State) (h : Hw) (page : Fin 1024) (v : Word) (a : Attr), s.hw.opens (WORLD page) a = true → h = s.hw.answer 0 → a.secure = true →
      h.bit (LOCK page) 0 = false → page.val ≠ pgWGT →
      exec (.worldWrite page v a) s = .next (s.withHw (h.put (WORLD page) 0 0 (fld v.toNat 0 0))))

/-- The commands of the timecode unit complete with their effect.
Derived from R21, R22, R24, R25, R27, R30, R31, R33, R34, R35, R40, R730 of the spec. A permitted TCU_BASE_TICK is
stored while no NET or LOC slot is enabled; an accepted source write brings the slot to the present, stores the
register and changes the quality as the new source demands; a qualified source makes an ACQUIRING or holding slot take
its value or a correction; a lost source takes a LOCKED slot to HOLDOVER and counts the loss; the hold limit takes
HOLDOVER to FREERUN; an ANG stall holds the phase, shows it and raises the event; a measured correction of a LOCKED
slot is judged and a forward ANG correction stepped at once; SLEW_DONE ends the correction; TIMECODE_STEP carries out
the step that waits; TC_CAPTURE copies the slot's value into a capture pair. The next state is the one given; the rest
of the module is unchanged. -/
def Obligations.TimecodeCommandsComplete : Prop :=
  -- tcuBaseTickWrite
  (∀ (s : State) (h : Hw) (v : Word) (a : Attr),
      s.hw.takes (TCU_BASE_TICK) a = true →
      h = s.hw.answer 0 →
      h.netOrLocEnabled = false →
      25_000 ≤ v.toNat →
      v.toNat ≤ 10_000_000 →
      exec (.tcuBaseTickWrite v a) s = .next (s.withHw (h.wr TCU_BASE_TICK v.toNat))) ∧
  -- tcuSrcWrite
  (∀ (s : State) (h : Hw) (n : Fin 4) (v : Word) (a : Attr),
      s.hw.takes (TCU_SRC n) a = true →
      h = s.hw.answer 0 →
      fld v.toNat 2 0 < 5 →
      h.tcuSource n ≠ 1 →
      h.tcuSource n ≠ 4 →
      exec (.tcuSrcWrite n v a) s = .next (s.withHw (((h.rebase n).storeReg (TCU_SRC n) v.toNat).sourceChanged n (h.rd (TCU_SRC n)) (h.tickNs n)))) ∧
  -- sourceQualified
  (∀ (s : State) (h : Hw) (n : Fin 4) (src : Ratio) (rate : Int) (tickNs : Nat) (seen : List Nat) (k : Hw) (g : Hw) (x : Nat),
      h = s.hw →
      k = ((h.rebase n).wr (TCU_RATE n) (unsgn 32 rate)).setSlot n { ((h.rebase n).wr (TCU_RATE n) (unsgn 32 rate)).slot n with tickNs := tickNs, run := true } →
      (g = if k.tcuSource n = 2 then k.setSlot n { k.slot n with pos := (k.slot n).val, edgeNs := 0 } else k) →
      x = unitsOf ((h.rebase n).sourceValue n src) →
      h.live pgTCU = true →
      h.tcuState n = 1 →
      h.sourceGood n seen = true →
      (g.slot n).hasVal = false →
      exec (.sourceQualified n src rate ⟨tickNs, seen⟩) s = .next (s.withHw (((((g.setSlot n { g.slot n with val := x, stamp := g.now, hasVal := true, mark := x }).setTcuState n 2).tcuEvent n 0).stepNow n).shaftAt n (unitsOf src)))) ∧
  -- sourceLost
  (∀ (s : State) (h : Hw) (n : Fin 4) (fault : Bool) (g : Hw),
      h = s.hw →
      g = h.raiseIf (fault && h.tcuSource n != 1) pgTCU (6 * n + 5) →
      h.sourceGone n = true →
      h.tcuState n ≠ 0 →
      g.tcuState n = 2 →
      exec (.sourceLost n fault) s = .next (s.withHw (((((g.setCorr n 0 0).putBit (TCU_QUAL n) 4 false).incF (TCU_QUAL n) 23 16).enterHoldover n)))) ∧
  -- holdLimitExpiry
  (∀ (s : State) (h : Hw) (n : Fin 4),
      h = s.hw →
      h.tcuState n = 3 →
      (h.slot n).limAt + h.rd (TCU_HOLD_LIMIT n) * 1_200_000 ≤ h.now →
      exec (.holdLimitExpiry n) s = .next (s.withHw (h.enterFreerun n))) ∧
  -- angStall
  (∀ (s : State) (h : Hw) (n : Fin 4),
      h = s.hw →
      h.onShaft n = true →
      (h.slot n).edgeAt + h.get (TCU_SRCCFG n) 23 16 * 1_200_000 ≤ h.now →
      exec (.angStall n) s = .next (s.withHw (((((h.rebase n).setSlot n { (h.rebase n).slot n with run := false }).putBit (TCU_QUAL n) 4 true).tcuEvent n 4)))) ∧
  -- correctionMeasured
  (∀ (s : State) (h : Hw) (n : Fin 4) (src : Ratio) (rate : Int) (tickNs : Nat) (k : Hw) (g : Hw) (x : Ratio),
      h = s.hw →
      k = (h.rebase n).wr (TCU_RATE n) (unsgn 32 rate) →
      g = (k.setSlot n { k.slot n with tickNs := tickNs, run := true }).putBit (TCU_QUAL n) 4 false →
      x = (h.rebase n).sourceValue n src →
      h.live pgTCU = true →
      h.tcuState n = 2 →
      (h.tcuSource n ≠ 1 ∨ h.ptpReports (h.slotPtp n) = true) →
      exec (.correctionMeasured n (.source src rate) tickNs) s = .next (s.withHw (((g.judge n (measure x (g.slotVal n)) false).stepNow n).shaftAt n (unitsOf x)))) ∧
  -- correctionMeasured_edge
  (∀ (s : State) (h : Hw) (n : Fin 4) (fwd : Bool) (gapNs : Nat) (g : Hw) (k : Nat),
      h = s.hw →
      g = h.rebase n →
      k = edgeNo (g.angLines n) (g.slot n).pos →
      h.live pgTCU = true →
      h.onShaft n = true →
      exec (.correctionMeasured n (.edge fwd) gapNs) s = .next (s.withHw ((g.setSlot n { g.slot n with pos := edgePos (g.angLines n) (if fwd then k + 1 else k - 1), fwd := fwd, edgeAt := g.now, edgeNs := gapNs, run := true }).putBit (TCU_QUAL n) 4 false))) ∧
  -- slewDone
  (∀ (s : State) (h : Hw) (n : Fin 4),
      h = s.hw →
      h.bit (TCU_QUAL n) 3 = true →
      h.slotCorr n = 0 →
      exec (.slewDone n) s = .next (s.withHw (h.setCorr n 0 0))) ∧
  -- timecodeStep
  (∀ (s : State) (h : Hw) (n : Fin 4) (b : Nat) (d : Int),
      h = s.hw →
      (h.slot n).step = some (b, d) →
      b ≤ h.slotVal n →
      exec (.timecodeStep n) s = .next (s.withHw (h.stepSlot n b d.toNat))) ∧
  -- tcCapture
  (∀ (s : State) (h : Hw) (x : Nat) (c : CueRef) (v : Nat),
      s.hw.cueActs c 0x48 v = true →
      h = s.hw.cueFired c.idx →
      (x = if fld (cueArg (h.cueOf c)) 1 0 = cueTc (h.cueOf c) then v else h.slotVal (fld (cueArg (h.cueOf c)) 1 0)) →
      exec (.tcCapture c) s = .next (s.withHw ((h.wr (TCU_CAP_LO (fld (cueArg (h.cueOf c)) 6 4)) (nowLo x)).wr (TCU_CAP_HI (fld (cueArg (h.cueOf c)) 6 4)) (nowHi x))))

/-- The commands of the cue sheet, and the cues that act on no other block, complete with their effect.
Derived from R43, R44, R45, R46, R47, R49, R50, R51, R52 of the spec. CUE_IDX loads the entry's four words; CUE_W3
files a listed entry in the shadow half and advances the index; a swap request becomes pending at the first boundary
at or after its tick; SWAP_DONE exchanges the halves; CUE_COPY starts a copy and COPY_DONE makes the shadow half the
active one; CUE_CNT_CLR clears the counters named; a NOP cue changes nothing; an EVT_PULSE cue pulses its event line;
a SWAP cue makes a swap pending at the first boundary after its instant. Conditions: the access is let in, or the cue
acts (R43, R47, R62, R704), and no swap or copy is under way where the rule asks it. The rest of the module is
unchanged. -/
def Obligations.CueSheetCommandsComplete : Prop :=
  -- cueIdxWrite
  (∀ (s : State) (h g : Hw) (v : Word) (a : Attr) (e : Nat), s.hw.takes CUE_IDX a = true → h = s.hw.answer 0 → g = h.storeReg CUE_IDX v.toNat →
      e = (g.cueEntry (if g.bit CUE_IDX 31 then g.activeHalf else 1 - g.activeHalf) (g.get CUE_IDX 11 0)).toNat →
      exec (.cueIdxWrite v a) s = .next (s.withHw
        ((((g.wr CUE_W0 (fld e 31 0)).wr CUE_W1 (fld e 63 32)).wr CUE_W2 (fld e 95 64)).wr CUE_W3 (fld e 127 96)))) ∧
  -- cueW3Write
  (∀ (s : State) (h g : Hw) (v : Word) (a : Attr) (e : CueWord), s.hw.takes CUE_W3 a = true → h = s.hw.answer 0 → h.swapOrCopy = false →
      g = h.wr CUE_W3 v.toNat →
      e = BitVec.ofNat 128 (g.rd CUE_W0 + 2 ^ 32 * g.rd CUE_W1 + 2 ^ 64 * g.rd CUE_W2 + 2 ^ 96 * g.rd CUE_W3) →
      entryOk e = true → (cueFld e 123 123 = 1 → a.secure = true) →
      exec (.cueW3Write v a) s = .next (s.withHw
        ((g.setHalf (1 - g.activeHalf) (store zeroCue (g.half (1 - g.activeHalf)) (g.get CUE_IDX 11 0) e)).cueIdxNext))) ∧
  -- cueSwapRequest
  (∀ (s : State) (h g : Hw) (v : Word) (a : Attr) (b : Nat), s.hw.takes CUE_SWAP a = true → h = s.hw.answer 0 → h.swapOrCopy = false → fld v.toNat 31 31 = 1 →
      g = ((h.put CUE_SWAP 29 28 (fld v.toNat 29 28)).put CUE_SWAP 7 0 (fld v.toNat 7 0)).putBit CUE_SWAP 31 true →
      b = (2 ^ 32 * g.get CUE_SWAP 7 0 + g.rd CUE_SWAP_AT_LO) * tickUnit → g.slotVal (g.get CUE_SWAP 29 28) ≤ b →
      exec (.cueSwapRequest v a) s = .next (s.withHw (g.swapPending (g.get CUE_SWAP 29 28) b))) ∧
  -- swapDone
  (∀ (s : State) (h : Hw) (n b : Nat),
      h = s.hw →
      h.cue.swap = some (n, b) →
      b ≤ h.slotVal n →
      exec (.swapDone) s = .next (s.withHw (((if h.cuesFire n then h.fireDue n b else h).carrySwap).renewHorizons))) ∧
  -- cueCopy
  (∀ (s : State) (h : Hw) (v : Word) (a : Attr),
      s.hw.takes (CUE_COPY) a = true →
      h = s.hw.answer 0 →
      h.swapOrCopy = false →
      fld v.toNat 0 0 = 1 →
      exec (.cueCopy v a) s = .next (s.withHw (({ h with cue := { h.cue with copying := true, copyAt := h.now } } : Hw).putBit (STATUS pgCUE) 1 true))) ∧
  -- copyDone
  (∀ (s : State) (h : Hw),
      h = s.hw →
      h.cue.copying = true →
      h.cue.copyAt + 4096 ≤ h.now →
      exec (.copyDone) s = .next (s.withHw (({ h.setHalf (1 - h.activeHalf) (h.half h.activeHalf) with
          cue := { (h.setHalf (1 - h.activeHalf) (h.half h.activeHalf)).cue with copying := false } } : Hw).putBit (STATUS pgCUE) 1 false))) ∧
  -- cueCntClr
  (∀ (s : State) (h : Hw) (v : Word) (a : Attr),
      s.hw.takes (CUE_CNT_CLR) a = true →
      h = s.hw.answer 0 →
      fld v.toNat 0 0 = 1 →
      fld v.toNat 1 1 = 1 →
      fld v.toNat 2 2 = 1 →
      exec (.cueCntClr v a) s = .next (s.withHw (((h.wr CUE_SKIP_CNT 0).wr CUE_CROWD_CNT 0).wr CUE_REFUSE_CNT 0))) ∧
  -- nop
  (∀ (s : State) (h : Hw) (c : CueRef) (v : Nat),
      s.hw.cueActs c 0x00 v = true →
      h = s.hw.cueFired c.idx →
      exec (.nop (.cue c)) s = .next (s.withHw (h))) ∧
  -- evtPulse
  (∀ (s : State) (h : Hw) (c : CueRef) (v : Nat),
      s.hw.cueActs c 0x40 v = true →
      h = s.hw.cueFired c.idx →
      (lineSource (fld (cueArg (h.cueOf c)) 10 0)).isSome = true →
      exec (.evtPulse c) s = .next (s.withHw (if h.lineHigh (fld (cueArg (h.cueOf c)) 10 0) then h else h.edge (fld (cueArg (h.cueOf c)) 10 0)))) ∧
  -- swap
  (∀ (s : State) (h : Hw) (c : CueRef) (v : Nat),
      s.hw.cueActs c 0x50 v = true →
      h = s.hw.cueFired c.idx →
      h.swapOrCopy = false →
      exec (.swap c) s = .next (s.withHw (h.swapPending (cueTc (h.cueOf c)) ((v / tickUnit + 1) * tickUnit))))

/-- The commands of the cycle engine array complete with their effect.
Derived from R69, R75, R84, R88, R96, R97, R101, R103, R104, R107, R110, R112 of the spec. LATCH and COMMIT cues from
their cadence's own entries run the input cue and the commit; IMAGE_READY places the image and releases the tasks;
DRAIN_END ends the drain in front; RERUN_START starts the rerun without rival; RETRY_WINDOW_END drops a failed rerun;
ENGINE_SELFTEST of a suspect engine with an heir gives its tasks away and starts the test; SELFTEST_DONE with the
right signature returns the engine; PLACEMENT places the tasks; CEA_REPLACE, CEA_TASK_RESTART and BG_RIPE note the
request; BG_COMMIT commits an equal background run. The next state is the one given; the rest of the module is
unchanged. -/
def Obligations.ArrayCommandsComplete : Prop :=
  -- latch
  (∀ (s : State) (h : Hw) (k : Nat) (c : CueRef) (v : Nat),
      s.hw.cueActs c 0x01 v = true →
      h = s.hw.cueFired c.idx →
      k = fld (cueArg (h.cueOf c)) 5 0 →
      h.ceaOn = true →
      h.cadEn k = true →
      h.cadLatchIdx k = c.idx →
      (h.cad k).suspended = false →
      h.twinWaits k = false →
      exec (.latch c) s = .next (s.withHw (h.latchCue k v))) ∧
  -- commit
  (∀ (s : State) (h : Hw) (k : Nat) (c : CueRef) (v : Nat),
      s.hw.cueActs c 0x02 v = true →
      h = s.hw.cueFired c.idx →
      k = fld (cueArg (h.cueOf c)) 5 0 →
      h.ceaOn = true →
      h.cadEn k = true →
      h.cadCommitIdx k = c.idx →
      (h.cad k).suspended = false →
      h.twinWaits k = false →
      exec (.commit c) s = .next (s.withHw (h.commitCue k v))) ∧
  -- imageReady
  (∀ (s : State) (h : Hw) (c : Fin 64),
      h = s.hw →
      h.live pgCEA = true →
      (h.cad c).latched = true →
      (h.cad c).ready = false →
      h.twinned c = false →
      exec (.imageReady c) s = .next (s.withHw ((h.placeImage c (h.cad c).img).releaseTasks c))) ∧
  -- drainEnd
  (∀ (s : State) (h : Hw) (d : Drain) (rest : List Drain) (c : Fin 64),
      h = s.hw →
      h.cea.drains = d :: rest →
      d.cad = c.val →
      exec (.drainEnd c) s = .next (s.withHw (h.drainEnd d rest))) ∧
  -- rerunStart
  (∀ (s : State) (h : Hw) (t : Fin 512) (x : Rerun),
      h = s.hw →
      h.live pgCEA = true →
      (h.task t).retry = some x →
      x.started = false →
      (h.cea.runs.any (fun r => r.2.engine == x.engine && r.2.rerun) = false) →
      (∀ u < 512, ∀ y, (h.task u).retry = some y → y.engine = x.engine → y.started = false → y.failed = false → h.taskCrit u < h.taskCrit t ∨ h.taskCrit u = h.taskCrit t ∧ t.val ≤ u) →
      exec (.rerunStart t) s = .next (s.withHw ((h.setTask t { h.task t with retry := some { x with started := true } }).startRun t { engine := x.engine, rerun := true, seq := x.seq, img := x.img, imgLen := x.imgLen, refs := x.refs }))) ∧
  -- retryWindowEnd
  (∀ (s : State) (h : Hw) (t : Fin 512) (x : Rerun),
      h = s.hw →
      (h.task t).retry = some x →
      h.live pgCEA = true →
      x.equal = false →
      h.windowOver t x = true →
      exec (.retryWindowEnd t) s = .next (s.withHw (let g := if x.failed then h else h.rerunFailed t 3
      g.setTask t { g.task t with retry := none }))) ∧
  -- engineSelftest
  (∀ (s : State) (h : Hw) (e : Fin 18) (k : Nat) (g : Hw),
      h = s.hw →
      (g = if h.engState k = engActive then h else h.engBecomes k engActive 5) →
      h.live pgCEA = true →
      h.tickBoundary 0 = true →
      (h.eng e).suspect = true →
      h.engBusy e = false →
      (h.engState e = engActive ∨ h.engState e = engRerun) →
      h.heirOf (h.eng e) = some k →
      exec (.engineSelftest e) s = .next (s.withHw ((((g.engTasks e).foldl (fun (h : Hw) t => h.moveTask t k 5) g).setEngState e engSelftest).clearSuspect e true))) ∧
  -- selftestDone
  (∀ (s : State) (h : Hw) (e : Fin 18) (g : Hw) (r : Hw) (t : Hw),
      h = s.hw →
      g = h.wr (CE_SELFTEST e) (2 ^ 31 + 0xC3A5) →
      (r = if h.hlt.testing = some e.val then { g with hlt := { g.hlt with testing := none } } else g) →
      (t = if (r.eng e).afterMismatch then { r.sat (CE_TRANSIENT_CNT e) with hlt := { r.hlt with transients := satAdd r.hlt.transients 1 } } else r) →
      h.live (pgCE e) = true →
      h.engState e = engSelftest →
      exec (.selftestDone e 0xC3A5 true true) s = .next (s.withHw (if h.hlt.testing = some e.val then (t.clearSuspect e).setEngState e engSpare else (t.clearSuspect e).engBecomes e engSpare 5))) ∧
  -- placement
  (∀ (s : State) (h : Hw) (p : List (Fin 512 × Fin 18)) (g : Hw) (w : List (Nat × Nat)),
      h = s.hw →
      g = Hw.keepSixteen 18 h.detachNow.attachNow →
      (w = p.map (fun x => (x.1.val, x.2.val))) →
      h.live pgCEA = true →
      h.tickBoundary 0 = true →
      exec (.placement p) s = .next (s.withHw (let m := (g.placeOrder.foldl (fun (x : Hw × List (Nat × Nat)) t =>
          if x.1.dbgOn t then x
          else match x.1.placeFor x.1.cost w x.2 t with
            | some e => (x.1.placeTask t e (if h.cea.replace then 6 else 5), (t, e) :: x.2)
            | none => (x.1.unplace t, x.2)) (g, [])).1
      { m with cea := { m.cea with replace := false } }))) ∧
  -- ceaReplace
  (∀ (s : State) (h : Hw) (v : Word) (a : Attr),
      s.hw.takes (CEA_REPLACE) a = true →
      h = s.hw.answer 0 →
      fld v.toNat 0 0 = 1 →
      exec (.ceaReplace v a) s = .next (s.withHw ({ h with cea := { h.cea with replace := true } }))) ∧
  -- bgCommit
  (∀ (s : State) (h : Hw) (t : Fin 512) (buf : WBuf) (g : Hw) (ws : List (Nat × BitVec 64)),
      h = s.hw →
      buf = h.drainOf t →
      (g = buf.foldl (fun (h : Hw) e => h.poolWrite (8 * e.1) (leBytes 8 (mergeEnt (h.poolWord e.1) e.2).toNat)) h) →
      (ws = buf.map (fun e => (e.1, g.poolWord e.1))) →
      h.live pgCEA = true →
      h.tickBoundary 0 = true →
      h.taskBg t = true →
      (h.task t).outcome = .equal →
      (h.task t).doneTick ≠ h.tick32 0 →
      exec (.bgCommit t) s = .next (s.withHw (let r := ((g.drainTime buf).twinDrain ws).recordDrain 4 g.tc0Words (ws.length + 1) ws
      let m := if r.dbg.clearing = some t.val ∧ (h.task t).unchecked = false then
          ({ r with dbg := { r.dbg with clearing := none } }.putBit (STATUS pgCEA) 1 false).raise pgDBG 3 else r
      let l := m.setLast t 0
      let x := if l.chgState = 1 ∧ l.jobBg ∧ l.jobTasks.any (fun j => j.task == t.val) ∧
          l.migFits (drainUnits buf + (l.cea.drains.map (fun d => drainUnits d.words)).foldl (· + ·) 0) l.tickTime then l.chgSwitch else l
      let y := x.setTask t { x.task t with outcome := .idle, buf := [], outs := [], unchecked := false }
      (if y.taskEn t && decide (y.taskEng t < 18) then y.restartBg t (y.taskEng t) else y).bgRestart.relSnapTry))) ∧
  -- bgRipe
  (∀ (s : State) (h : Hw) (t : Fin 512),
      h = s.hw →
      h.live pgCEA = true →
      h.taskEn t = true →
      h.taskBg t = true →
      h.get (CEA_TASK t 3) 13 0 ≠ 0 →
      (h.task t).ripe ≠ some (h.tick32 0) →
      h.get (CEA_TASK t 3) 13 0 ≤ (h.tick32 0 + 2 ^ 32 - (h.task t).ranAt) % 2 ^ 32 →
      exec (.bgRipe t) s = .next (s.withHw ((h.setTask t { h.task t with ripe := some (h.tick32 0), ranAt := (h.tick32 0 + 1) % 2 ^ 32, spent := 0 }).raise pgCEA 12))) ∧
  -- ceaTaskRestart
  (∀ (s : State) (h : Hw) (v : Word) (a : Attr),
      s.hw.takes (CEA_TASK_RESTART) a = true →
      h = s.hw.answer 0 →
      h.taskState (fld v.toNat 8 0) = 5 →
      exec (.ceaTaskRestart v a) s = .next (s.withHw (h.setTask (fld v.toNat 8 0) { h.task (fld v.toNat 8 0) with restart := true })))

/-- The commands of cadences, PDUs and program banks complete with their effect.
Derived from R69, R74, R90, R91, R92, R93, R117, R156, R160 of the spec. Word 0 of a cadence that passes the checks is
stored and the cadence starts anew; a PDU frame with a right CRC that an entry takes is queued, stored into the half
that is not current, and a released PDU goes out at P38 with its sequence number advanced; a sound PDU entry word is
stored; a bank whose header and CRC hold is VALID. The rest of the module is unchanged. -/
def Obligations.CadenceAndPduCommandsComplete : Prop :=
  -- cadenceEnable
  (∀ (s : State) (h : Hw) (k : Fin 64) (v : Word) (g : Hw) (a : Attr),
      s.hw.takes (CEA_CAD k 0) a = true →
      h = s.hw.answer 0 →
      g = h.storeReg (CEA_CAD k 0) v.toNat →
      h.cadEn k = false →
      g.cadEn k = true →
      g.cadRefuses k = none →
      exec (.cadenceEnable k v a) s = .next (s.withHw ((g.setCad k {}).fitCadence k))) ∧
  -- pduFrameRx
  (∀ (s : State) (h : Hw) (b p : List Byte) (o vid src len u : Nat), h = s.hw → h.live pgCEA = true → h.ceaOn = true →
      o = (if beNat (slice b 12 2) = 0x8100 then 16 else 12) → beNat (slice b o 2) = h.get CEA_PDU_ETYPE 15 0 →
      vid = beNat (slice b 14 2) % 0x1000 → src = beNat (slice b 6 6) → p = b.drop (o + 2) → len = beNat (slice p 6 2) →
      12 + len ≤ p.length → leNat (slice p (8 + len) 4) = crc32 (p.take (8 + len)) →
      (p.getD 5 0).toNat = 0 → (p.getD 4 0).toNat &&& 0xF9 = 0 → h.pduBad (beNat (slice p 0 2)) len = none →
      (List.range 256).find? (fun u => h.pduEn u && !h.pduTx u && decide (h.get (CEA_PDU u 1) 31 16 = beNat (slice p 0 2)) && decide (h.pduLen u = len) &&
            (!h.bit (CEA_PDU u 0) 29 || (decide (beNat (slice b 12 2) = 0x8100) && decide (vid = h.get (CEA_PDU u 0) 11 0))) &&
            (!h.bit (CEA_PDU u 0) 28 || decide (src = h.pduMac u))) = some u →
      exec (.pduFrameRx b) s = .next (s.withHw { h with cea := { h.cea with
        pduIn := h.cea.pduIn ++ [{ entry := u, seq := beNat (slice p 2 2), flags := (p.getD 4 0).toNat, data := slice p 8 len }] } })) ∧
  -- pduStore
  (∀ (s : State) (h : Hw) (u : Fin 256) (m : PduMsg) (g : Hw) (r : Hw),
      h = s.hw →
      g = { h with cea := { h.cea with pduIn := h.cea.pduIn.erase m, pduRam := h.cea.pduRam.write (h.pduBuf u + (1 - (h.pdu u).half) * h.pduHalf u) m.data } } →
      r = (((g.setPdu u { half := 1 - (h.pdu u).half, fresh := true, flags := m.flags, stored := true }).put (CEA_PDU u 5) 31 16 m.seq).put (CEA_PDU u 5) 15 0 (h.get (CEA_PDU u 5) 15 0 + 1)).wr (CEA_PDU u 6) (h.tick32 0) →
      (h.cea.pduIn.find? (fun m => m.entry == u.val) = some m) →
      exec (.pduStore u) s = .next (s.withHw (if (h.pdu u).stored && (h.pdu u).fresh then r.putBit (CEA_PDU u 7) 1 true else r))) ∧
  -- pduSend
  (∀ (s : State) (h : Hw) (m : PduMsg) (rest : List PduMsg) (g : Hw) (body : List Byte) (tag : Option (Nat × Nat)) (f : List Byte),
      h = s.hw →
      g = { h with cea := { h.cea with pduOut := rest } } →
      body = beBytes 2 (g.get (CEA_PDU m.entry 1) 31 16) ++ beBytes 2 (g.get (CEA_PDU m.entry 5) 31 16) ++ beBytes 1 m.flags ++ [0] ++ beBytes 2 m.data.length ++ m.data →
      (tag = if g.bit (CEA_PDU m.entry 0) 29 then some (g.get (CEA_PDU m.entry 0) 26 24, g.get (CEA_PDU m.entry 0) 11 0) else none) →
      f = padFrame (etherHead (g.pduMac m.entry) (2 ^ 32 * g.get RIO_MAC_HI 15 0 + g.rd RIO_MAC_LO) tag (g.get CEA_PDU_ETYPE 15 0) ++ body ++ leBytes 4 (crc32 body)) →
      h.cea.pduOut = m :: rest →
      exec (.pduSend) s = .next (s.withHw ((((g.hand 38 f).put (CEA_PDU m.entry 5) 31 16 ((g.hand 38 f).get (CEA_PDU m.entry 5) 31 16 + 1)).put (CEA_PDU m.entry 5) 15 0 ((g.hand 38 f).get (CEA_PDU m.entry 5) 15 0 + 1))))) ∧
  -- pduEntryWrite
  (∀ (s : State) (h : Hw) (u : Fin 256) (w : Fin 8) (v : Word) (g : Hw) (a : Attr),
      s.hw.takes (CEA_PDU u w) a = true →
      h = s.hw.answer 0 →
      g = h.storeReg (CEA_PDU u w) v.toNat →
      (w.val ≤ 4 → h.pduMapped u = false) →
      g.pduRefuses u w = false →
      exec (.pduEntryWrite u w v a) s = .next (s.withHw (if w.val = 0 ∧ g.pduEn u = true ∧ h.pduEn u = false then (g.setPdu u {}).put (CEA_PDU u 5) 15 0 0 else g))) ∧
  -- bankWrite
  (∀ (s : State) (h : Hw) (t : Fin 512) (n : Fin 2) (v : Word) (k : Nat) (g : Hw) (b : Nat) (m : Hw) (x : Hw) (a : Attr),
      s.hw.takes (k) a = true →
      h = s.hw.answer 0 →
      (k = if n.val = 0 then PGM_TASK_BANK0 t else PGM_TASK_BANK1 t) →
      g = h.storeReg k v.toNat →
      b = g.get k 16 0 * 64 →
      m = g.putBit (PGM_TASK_SEL t) (8 + n.val) true →
      x = { m with cea := { m.cea with wcets := file m.cea.wcets (2 * t + n) (g.progWord (b + 0x1C)) } } →
      (h.get (PGM_TASK_SEL t) 0 0 = n.val → h.taskEn t = false ∧ h.inJob t = false) →
      b + 0x40 + 4 * g.progWord (b + 0x08) ≤ 0x80_0000 →
      b + g.progWord (b + 0x14) + g.progWord (b + 0x18) ≤ 0x80_0000 →
      g.bankHeadOk t b = true →
      g.bankCrcOk b = true →
      exec (.bankWrite t n v a) s = .next (s.withHw (if h.get (PGM_TASK_SEL t) 0 0 = n.val then x.wr (PGM_TASK_WCET t) (g.progWord (b + 0x1C)) else x)))

/-- Every Gorpen instruction completes: the register, the boolean, the write buffer and the place its rule gives.
Derived from R119, R120, R123, R124, R132, R139, R140, R141, R142, R143, R144, R145 of the spec. Where an engine
executes a word of the instruction's opcode, without an uncorrectable error, and its fields are those the format
allows, the run goes on with what the instruction computes from the run's primary values: a register or boolean set, a
store in the write buffer, a branch, a loop, a call or a return taken; END, RET at depth 0 and a TRAP that is taken
end the run. Every other part of the run is as it was, and of the module only the run, the counters of a corrected
error and the debugger's registers after a single step change. -/
def Obligations.GorpenInstructionsComplete : Prop :=
  -- nop_insn
  (∀ (s : State) (h : Hw) (e : Fin 18) (fetch : Ecc) (t : Nat) (r : Run) (w : Nat) (q : Run) (g : Hw),
      h = s.hw →
      h.executes e t r w = true →
      gOp w = 0x00 →
      fetch ≠ .uncorrectable →
      q = r.counted →
      g = h.eccSeen fetch .clean t r w →
      fld w 25 0 = 0 →
      exec (.nop (.insn e fetch)) s = .next (s.withHw ((g.goesOn t r q.after).ranNow t q w))) ∧
  -- alu
  (∀ (s : State) (h : Hw) (e : Fin 18) (fetch : Ecc) (t : Nat) (r : Run) (w : Nat) (q : Run) (g : Hw) (v : Int),
      h = s.hw →
      h.executes e t r w = true →
      gOp w = 0x01 →
      fetch ≠ .uncorrectable →
      q = r.counted →
      g = h.eccSeen fetch .clean t r w →
      (aluTypes (gFn w)).contains (gTy w) = true →
      (gTy w = 7 → gD w % 2 = 0) →
      (gTy w = 7 → gA w % 2 = 0) →
      (gTy w = 7 → gFn w ≠ 0 ∧ gFn w ≠ 6 ∧ gFn w ≠ 7 → gB w % 2 = 0) →
      (aluVal (gFn w) (gTy w) (q.val (gTy w) (gA w)) (if gFn w = 0 ∨ gFn w = 6 ∨ gFn w = 7 then 0 else q.val (gTy w) (gB w)) = .ok v) →
      exec (.alu e fetch) s = .next (s.withHw ((g.goesOn t r (q.setVal (gTy w) (gD w) v).after).ranNow t q w))) ∧
  -- logic
  (∀ (s : State) (h : Hw) (e : Fin 18) (fetch : Ecc) (t : Nat) (r : Run) (w : Nat) (q : Run) (g : Hw) (n : Nat),
      h = s.hw →
      h.executes e t r w = true →
      gOp w = 0x02 →
      fetch ≠ .uncorrectable →
      q = r.counted →
      g = h.eccSeen fetch .clean t r w →
      tyWord (gTy w) = true →
      gFn w ≤ 0x0A →
      n = ((q.val 1 (gB w)) % ((tyBits (gTy w) : Nat) : Int)).toNat →
      exec (.logic e fetch) s = .next (s.withHw ((g.goesOn t r (q.setVal (gTy w) (gD w) (logicVal (gFn w) (tyBits (gTy w)) (q.val (gTy w) (gA w)).toNat (q.val (gTy w) (gB w)).toNat n : Nat)).after).ranNow t q w))) ∧
  -- cmp
  (∀ (s : State) (h : Hw) (e : Fin 18) (fetch : Ecc) (t : Nat) (r : Run) (w : Nat) (q : Run) (g : Hw),
      h = s.hw →
      h.executes e t r w = true →
      gOp w = 0x03 →
      fetch ≠ .uncorrectable →
      q = r.counted →
      g = h.eccSeen fetch .clean t r w →
      gFn w ≤ 5 →
      gD w < 16 →
      (gTy w = 7 → gA w % 2 = 0) →
      (gTy w = 7 → gB w % 2 = 0) →
      exec (.cmp e fetch) s = .next (s.withHw ((g.goesOn t r (q.setBool (gD w) (relVal (gFn w) (gTy w) (q.val (gTy w) (gA w)) (q.val (gTy w) (gB w)))).after).ranNow t q w))) ∧
  -- cvt
  (∀ (s : State) (h : Hw) (e : Fin 18) (fetch : Ecc) (t : Nat) (r : Run) (w : Nat) (q : Run) (g : Hw) (v : Int),
      h = s.hw →
      h.executes e t r w = true →
      gOp w = 0x04 →
      fetch ≠ .uncorrectable →
      q = r.counted →
      g = h.eccSeen fetch .clean t r w →
      gFn w ≤ 7 →
      (¬ (gTy w = 3 ∧ tyWord (gFn w) = true)) →
      (¬ (tyWord (gTy w) = true ∧ gFn w = 3)) →
      (gFn w = 7 → gD w % 2 = 0) →
      (gTy w = 7 → gA w % 2 = 0) →
      cvtVal (gTy w) (gFn w) (q.val (gTy w) (gA w)) = .ok v →
      exec (.cvt e fetch) s = .next (s.withHw ((g.goesOn t r (q.setVal (gFn w) (gD w) v).after).ranNow t q w))) ∧
  -- rnd
  (∀ (s : State) (h : Hw) (e : Fin 18) (fetch : Ecc) (t : Nat) (r : Run) (w : Nat) (q : Run) (g : Hw) (v : Nat),
      h = s.hw →
      h.executes e t r w = true →
      gOp w = 0x05 →
      fetch ≠ .uncorrectable →
      q = r.counted →
      g = h.eccSeen fetch .clean t r w →
      gTy w = 3 →
      gFn w ≤ 4 →
      fRnd (gFn w) (q.val 3 (gA w)).toNat = .ok v →
      exec (.rnd e fetch) s = .next (s.withHw ((g.goesOn t r (q.setVal 3 (gD w) (v : Int)).after).ranNow t q w))) ∧
  -- bool
  (∀ (s : State) (h : Hw) (e : Fin 18) (fetch : Ecc) (t : Nat) (r : Run) (w : Nat) (q : Run) (g : Hw) (x y v : Bool),
      h = s.hw →
      h.executes e t r w = true →
      gOp w = 0x06 →
      fetch ≠ .uncorrectable →
      q = r.counted →
      g = h.eccSeen fetch .clean t r w →
      gFn w ≤ 7 →
      gD w < 16 →
      (gFn w ≤ 5 → gA w < 16) →
      (gFn w ≤ 3 → gB w < 16) →
      x = q.bool (gA w % 16) →
      y = q.bool (gB w % 16) →
      v = [x && y, x || y, x != y, x == y, !x, x, true, false].getD (gFn w) false →
      exec (.bool e fetch) s = .next (s.withHw ((g.goesOn t r (q.setBool (gD w) v).after).ranNow t q w))) ∧
  -- sel
  (∀ (s : State) (h : Hw) (e : Fin 18) (fetch : Ecc) (t : Nat) (r : Run) (w : Nat) (q : Run) (g : Hw),
      h = s.hw →
      h.executes e t r w = true →
      gOp w = 0x07 →
      fetch ≠ .uncorrectable →
      q = r.counted →
      g = h.eccSeen fetch .clean t r w →
      gFn w ≤ 15 →
      (gTy w = 7 → gD w % 2 = 0) →
      (gTy w = 7 → gA w % 2 = 0) →
      (gTy w = 7 → gB w % 2 = 0) →
      exec (.sel e fetch) s = .next (s.withHw ((g.goesOn t r (q.setVal (gTy w) (gD w) (q.val (gTy w) (if q.bool (gFn w) then gA w else gB w))).after).ranNow t q w))) ∧
  -- btst
  (∀ (s : State) (h : Hw) (e : Fin 18) (fetch : Ecc) (t : Nat) (r : Run) (w : Nat) (q : Run) (g : Hw),
      h = s.hw →
      h.executes e t r w = true →
      gOp w = 0x08 →
      fetch ≠ .uncorrectable →
      q = r.counted →
      g = h.eccSeen fetch .clean t r w →
      gD w < 16 →
      exec (.btst e fetch) s = .next (s.withHw ((g.goesOn t r ({ q with b := BitVec.ofNat 16 (setBit q.b.toNat (gD w) (decide (fld (q.raw (gA w)) (fld w 4 0) (fld w 4 0) = 1))) } : Run).after).ranNow t q w))) ∧
  -- bins
  (∀ (s : State) (h : Hw) (e : Fin 18) (fetch : Ecc) (t : Nat) (r : Run) (w : Nat) (q : Run) (g : Hw),
      h = s.hw →
      h.executes e t r w = true →
      gOp w = 0x09 →
      fetch ≠ .uncorrectable →
      q = r.counted →
      g = h.eccSeen fetch .clean t r w →
      gA w < 16 →
      exec (.bins e fetch) s = .next (s.withHw ((g.goesOn t r (q.setRaw (gD w) (setFld (q.raw (gD w)) (fld w 4 0) (fld w 4 0) (fld q.b.toNat (gA w) (gA w)))).after).ranNow t q w))) ∧
  -- li
  (∀ (s : State) (h : Hw) (e : Fin 18) (fetch : Ecc) (t : Nat) (r : Run) (w : Nat) (q : Run) (g : Hw) (v : Int),
      h = s.hw →
      h.executes e t r w = true →
      gOp w = 0x10 →
      fetch ≠ .uncorrectable →
      q = r.counted →
      g = h.eccSeen fetch .clean t r w →
      fld w 17 16 = 0 →
      (gMTy w = 7 → gD w % 2 = 0) →
      (v = if gMTy w = 3 then ((gImm w * 2 ^ 16 : Nat) : Int) else if gMTy w = 0 ∨ gMTy w = 1 ∨ gMTy w = 7 then sgn 16 (gImm w) else (gImm w : Int)) →
      exec (.li e fetch) s = .next (s.withHw ((g.goesOn t r (q.setVal (gMTy w) (gD w) v).after).ranNow t q w))) ∧
  -- lih
  (∀ (s : State) (h : Hw) (e : Fin 18) (fetch : Ecc) (t : Nat) (r : Run) (w : Nat) (q : Run) (g : Hw) (x : Run),
      h = s.hw →
      h.executes e t r w = true →
      gOp w = 0x11 →
      fetch ≠ .uncorrectable →
      q = r.counted →
      g = h.eccSeen fetch .clean t r w →
      fld w 17 16 = 2 →
      (gMTy w = 7 → gD w % 2 = 0) →
      (x = if gMTy w = 3 then q.setRaw (gD w) (setFld (q.raw (gD w) % 2 ^ 32) 15 0 (gImm w)) else if tyWord (gMTy w) then q.setVal (gMTy w) (gD w) (((q.val (gMTy w) (gD w)).toNat ||| gImm w * 2 ^ 16 : Nat) : Int) else q.setVal (gMTy w) (gD w) (wrapTy (gMTy w) (q.val (gMTy w) (gD w) + ((gImm w * 2 ^ 16 : Nat) : Int)))) →
      exec (.lih e fetch) s = .next (s.withHw ((g.goesOn t r x.after).ranNow t q w))) ∧
  -- addi
  (∀ (s : State) (h : Hw) (e : Fin 18) (fetch : Ecc) (t : Nat) (r : Run) (w : Nat) (q : Run) (g : Hw),
      h = s.hw →
      h.executes e t r w = true →
      gOp w = 0x12 →
      fetch ≠ .uncorrectable →
      q = r.counted →
      g = h.eccSeen fetch .clean t r w →
      exec (.addi e fetch) s = .next (s.withHw ((g.goesOn t r (q.setVal 1 (gD w) (wrapTy 1 (q.val 1 (gA w) + sgn 16 (gImm w)))).after).ranNow t q w))) ∧
  -- ld
  (∀ (s : State) (h : Hw) (e : Fin 18) (fetch load : Ecc) (t : Nat) (r : Run) (w : Nat) (q : Run) (g : Hw) (v : Int) (c : GCtx),
      h = s.hw →
      h.executes e t r w = true →
      gOp w = 0x18 →
      fetch ≠ .uncorrectable →
      load ≠ .uncorrectable →
      q = r.counted →
      g = h.eccSeen fetch load t r w →
      c = h.gCtx t r →
      (gMTy w = 7 → gD w % 2 = 0) →
      g.gLoad c q (gSp w) (gMTy w) ((gImm w : Int) * (tySize (gMTy w) : Int)) = .ok v →
      exec (.ld e fetch load) s = .next (s.withHw ((g.goesOn t r (q.setVal (gMTy w) (gD w) v).after).ranNow t q w))) ∧
  -- st
  (∀ (s : State) (h : Hw) (e : Fin 18) (fetch : Ecc) (t : Nat) (r : Run) (w : Nat) (q : Run) (g : Hw) (x : Run) (c : GCtx),
      h = s.hw →
      h.executes e t r w = true →
      gOp w = 0x19 →
      fetch ≠ .uncorrectable →
      q = r.counted →
      g = h.eccSeen fetch .clean t r w →
      c = h.gCtx t r →
      gSp w = 0 →
      (gMTy w = 7 → gD w % 2 = 0) →
      c.store q (gMTy w) ((gImm w : Int) * (tySize (gMTy w) : Int)) (q.val (gMTy w) (gD w)) = .ok x →
      exec (.st e fetch) s = .next (s.withHw ((((g.goesOn t r x.after)).ranNow t q w).bgRestart))) ∧
  -- ldx
  (∀ (s : State) (h : Hw) (e : Fin 18) (fetch load : Ecc) (t : Nat) (r : Run) (w : Nat) (q : Run) (g : Hw) (v : Int) (c : GCtx),
      h = s.hw →
      h.executes e t r w = true →
      gOp w = 0x1A →
      fetch ≠ .uncorrectable →
      load ≠ .uncorrectable →
      q = r.counted →
      g = h.eccSeen fetch load t r w →
      c = h.gCtx t r →
      (gMTy w = 7 → gD w % 2 = 0) →
      g.gLoad c q (gSp w) (gMTy w) (((gXOff w : Int) + q.val 1 (gB w)) * (tySize (gMTy w) : Int)) = .ok v →
      exec (.ldx e fetch load) s = .next (s.withHw ((g.goesOn t r (q.setVal (gMTy w) (gD w) v).after).ranNow t q w))) ∧
  -- stx
  (∀ (s : State) (h : Hw) (e : Fin 18) (fetch : Ecc) (t : Nat) (r : Run) (w : Nat) (q : Run) (g : Hw) (x : Run) (c : GCtx),
      h = s.hw →
      h.executes e t r w = true →
      gOp w = 0x1B →
      fetch ≠ .uncorrectable →
      q = r.counted →
      g = h.eccSeen fetch .clean t r w →
      c = h.gCtx t r →
      gSp w = 0 →
      (gMTy w = 7 → gD w % 2 = 0) →
      c.store q (gMTy w) (((gXOff w : Int) + q.val 1 (gB w)) * (tySize (gMTy w) : Int)) (q.val (gMTy w) (gD w)) = .ok x →
      exec (.stx e fetch) s = .next (s.withHw ((((g.goesOn t r x.after)).ranNow t q w).bgRestart))) ∧
  -- ldb
  (∀ (s : State) (h : Hw) (e : Fin 18) (fetch load : Ecc) (t : Nat) (r : Run) (w : Nat) (q : Run) (g : Hw) (v : Int) (c : GCtx),
      h = s.hw →
      h.executes e t r w = true →
      gOp w = 0x1C →
      fetch ≠ .uncorrectable →
      load ≠ .uncorrectable →
      q = r.counted →
      g = h.eccSeen fetch load t r w →
      c = h.gCtx t r →
      gMTy w = 0 →
      gD w < 16 →
      g.gLoad c q (gSp w) 8 ((gImm w : Int) * (tySize 8 : Int)) = .ok v →
      exec (.ldb e fetch load) s = .next (s.withHw ((g.goesOn t r (q.setBool (gD w) (decide (v = 1))).after).ranNow t q w))) ∧
  -- stb
  (∀ (s : State) (h : Hw) (e : Fin 18) (fetch : Ecc) (t : Nat) (r : Run) (w : Nat) (q : Run) (g : Hw) (x : Run) (c : GCtx),
      h = s.hw →
      h.executes e t r w = true →
      gOp w = 0x1D →
      fetch ≠ .uncorrectable →
      q = r.counted →
      g = h.eccSeen fetch .clean t r w →
      c = h.gCtx t r →
      gMTy w = 0 →
      gSp w = 0 →
      gD w < 16 →
      (c.store q 8 (gImm w : Int) (if q.bool (gD w) then 1 else 0) = .ok x) →
      exec (.stb e fetch) s = .next (s.withHw ((((g.goesOn t r x.after)).ranNow t q w).bgRestart))) ∧
  -- tcv
  (∀ (s : State) (h : Hw) (e : Fin 18) (fetch : Ecc) (t : Nat) (r : Run) (w : Nat) (q : Run) (g : Hw) (c : GCtx),
      h = s.hw →
      h.executes e t r w = true →
      gOp w = 0x1E →
      fetch ≠ .uncorrectable →
      q = r.counted →
      g = h.eccSeen fetch .clean t r w →
      c = h.gCtx t r →
      gA w = 0 →
      (fld w 1 0 ≠ 3 → gD w % 2 = 0) →
      exec (.tcv e fetch) s = .next (s.withHw ((g.goesOn t r (if fld w 1 0 = 3 then q.setVal 2 (gD w) (c.time q 3) else q.setVal 7 (gD w) (c.time q (fld w 1 0))).after).ranNow t q w))) ∧
  -- br
  (∀ (s : State) (h : Hw) (e : Fin 18) (fetch : Ecc) (t : Nat) (r : Run) (w : Nat) (q : Run) (g : Hw) (b : Bool),
      h = s.hw →
      h.executes e t r w = true →
      gOp w = 0x20 →
      fetch ≠ .uncorrectable →
      q = r.counted →
      g = h.eccSeen fetch .clean t r w →
      (b = decide (gMode w = 0 ∨ gMode w = 1 ∧ q.bool (gC w) = true ∨ gMode w = 2 ∧ q.bool (gC w) = false)) →
      fld w 19 16 = 0 →
      gImm w ≠ 0 →
      gMode w ≠ 3 →
      exec (.br e fetch) s = .next (s.withHw ((g.goesOn t r { q with pc := if b then q.pc + gImm w else q.pc + 1 }).ranNow t q w))) ∧
  -- brk
  (∀ (s : State) (h : Hw) (e : Fin 18) (fetch : Ecc) (t : Nat) (r : Run) (w : Nat) (q : Run) (g : Hw) (b : Bool) (l : LoopSt) (ls : List LoopSt),
      h = s.hw →
      h.executes e t r w = true →
      gOp w = 0x21 →
      fetch ≠ .uncorrectable →
      q = r.counted →
      g = h.eccSeen fetch .clean t r w →
      (b = decide (gMode w = 0 ∨ gMode w = 1 ∧ q.bool (gC w) = true ∨ gMode w = 2 ∧ q.bool (gC w) = false)) →
      fld w 19 16 = 0 →
      gImm w = 0 →
      gMode w ≠ 3 →
      (b = true → q.loops = l :: ls) →
      exec (.brk e fetch) s = .next (s.withHw ((g.goesOn t r (if b then ({ q with pc := l.stop, loops := ls } : Run).setVal 1 l.reg (l.i : Int) else q.after)).ranNow t q w))) ∧
  -- loop
  (∀ (s : State) (h : Hw) (e : Fin 18) (fetch : Ecc) (t : Nat) (r : Run) (w : Nat) (q : Run) (g : Hw) (n : Nat) (x : Run),
      h = s.hw →
      h.executes e t r w = true →
      gOp w = 0x22 →
      fetch ≠ .uncorrectable →
      q = r.counted →
      g = h.eccSeen fetch .clean t r w →
      gMax w ≠ 0 →
      gLen w ≠ 0 →
      (q.loops.length + (q.frames.map (fun f => f.loops.length)).foldl (· + ·) 0 < 4) →
      n = min (q.val 1 (gD w)).toNat (gMax w) →
      x = q.setVal 1 (gD w) 0 →
      exec (.loop e fetch) s = .next (s.withHw ((g.goesOn t r (if n = 0 then { x with pc := x.pc + gLen w + 1 } else { x with pc := x.pc + 1, loops := ⟨x.pc + 1, x.pc + gLen w + 1, n, 0, gD w⟩ :: x.loops })).ranNow t q w))) ∧
  -- call
  (∀ (s : State) (h : Hw) (e : Fin 18) (fetch : Ecc) (t : Nat) (r : Run) (w : Nat) (q : Run) (g : Hw),
      h = s.hw →
      h.executes e t r w = true →
      gOp w = 0x23 →
      fetch ≠ .uncorrectable →
      q = r.counted →
      g = h.eccSeen fetch .clean t r w →
      fld w 25 22 = 0 →
      q.frames.length < 8 →
      exec (.call e fetch) s = .next (s.withHw ((g.goesOn t r { q with pc := gTgt w, frames := ⟨q.pc + 1, q.loops⟩ :: q.frames, loops := [] }).ranNow t q w))) ∧
  -- ret
  (∀ (s : State) (h : Hw) (e : Fin 18) (fetch : Ecc) (t : Nat) (r : Run) (w : Nat) (q : Run) (g : Hw) (f : Frame) (fs : List Frame),
      h = s.hw →
      h.executes e t r w = true →
      gOp w = 0x24 →
      fetch ≠ .uncorrectable →
      q = r.counted →
      g = h.eccSeen fetch .clean t r w →
      fld w 25 0 = 0 →
      q.frames = f :: fs →
      exec (.ret e fetch) s = .next (s.withHw ((g.goesOn t r { q with pc := f.ret, frames := fs, loops := f.loops }).ranNow t q w))) ∧
  -- ret_end
  (∀ (s : State) (h : Hw) (e : Fin 18) (fetch : Ecc) (t : Nat) (r : Run) (w : Nat) (q : Run) (g : Hw),
      h = s.hw →
      h.executes e t r w = true →
      gOp w = 0x24 →
      fetch ≠ .uncorrectable →
      q = r.counted →
      g = h.eccSeen fetch .clean t r w →
      fld w 25 0 = 0 →
      q.frames = [] →
      exec (.ret e fetch) s = .next (s.withHw ((g.endPhase t q 0).ranNow t q w))) ∧
  -- endRun
  (∀ (s : State) (h : Hw) (e : Fin 18) (fetch : Ecc) (t : Nat) (r : Run) (w : Nat) (q : Run) (g : Hw),
      h = s.hw →
      h.executes e t r w = true →
      gOp w = 0x25 →
      fetch ≠ .uncorrectable →
      q = r.counted →
      g = h.eccSeen fetch .clean t r w →
      fld w 25 0 = 0 →
      exec (.endRun e fetch) s = .next (s.withHw ((g.endPhase t q 0).ranNow t q w))) ∧
  -- trap
  (∀ (s : State) (h : Hw) (e : Fin 18) (fetch : Ecc) (t : Nat) (r : Run) (w : Nat) (q : Run) (g : Hw) (b : Bool),
      h = s.hw →
      h.executes e t r w = true →
      gOp w = 0x26 →
      fetch ≠ .uncorrectable →
      q = r.counted →
      g = h.eccSeen fetch .clean t r w →
      (b = decide (gMode w = 0 ∨ gMode w = 1 ∧ q.bool (gC w) = true ∨ gMode w = 2 ∧ q.bool (gC w) = false)) →
      fld w 19 16 = 0 →
      gImm w = 0 →
      gMode w ≠ 3 →
      exec (.trap e fetch) s = .next (s.withHw ((if b then g.takeTrap t q tUser else g.goesOn t r q.after).ranNow t q w))) ∧
  -- prim
  (∀ (s : State) (h : Hw) (e : Fin 18) (fetch load : Ecc) (t : Nat) (r : Run) (w : Nat) (q : Run) (g : Hw) (x : Run) (c : GCtx),
      h = s.hw →
      h.executes e t r w = true →
      gOp w = 0x28 →
      fetch ≠ .uncorrectable →
      load ≠ .uncorrectable →
      q = r.counted →
      g = h.eccSeen fetch load t r w →
      c = h.gCtx t r →
      g.prim c q w = .ok x →
      exec (.prim e fetch load) s = .next (s.withHw ((g.goesOn t r x.after).ranNow t q w)))

/-- The commands of program changes, forces and the debugger complete with their effect.
Derived from R162, R163, R172, R175, R182, R183, R184, R187, R188, R189, R192, R193 of the spec. CHG_ARM of a job
without a reason to refuse it arms the job, with its predicted time; CHG_CANCEL cancels an armed one; FORCE_WRITE
accepts a sound force or frees the entry; FRC_PERMIT takes the bits a permitted writer sets; AUTH_EXPIRED ends the
authorisation, and outside MANUFACTURE and RETURN the active forces, the permits and the attachment; DBG_ATTACH notes
the request; DBG_DETACH lets the task go; DBG_HALT asks for a halt; DBG_RESUME and DBG_STEP let a halted run go on; a
write of a register of a halted run sets it. The rest of the module is unchanged. -/
def Obligations.ChangeForceAndDebugCommandsComplete : Prop :=
  -- chgArm
  (∀ (s : State) (h : Hw) (v : Word) (g : Hw) (p : Nat × Hw) (a : Attr),
      s.hw.takes (FRC_CHG_CTRL) a = true →
      h = s.hw.answer 0 →
      g = h.storeReg FRC_CHG_CTRL (setFld ((v.toNat ||| 0x8000_0000) &&& 0x0001_3FFF) 30 30 (h.get FRC_CHG_CTRL 30 30)) →
      p = g.freeDiv (5 * g.migCycles) 3 →
      h.chgArmed = false →
      g.jobRefuses = none →
      exec (.chgArm v a) s = .next (s.withHw (((((p.2.setChg 1).put FRC_CHG_STATUS 23 8 0).wr FRC_CHG_TIME p.1).wr FRC_CHG_CLIP 0).put FRC_CHG_CTRL 31 30 2))) ∧
  -- chgCancel
  (∀ (s : State) (h : Hw) (v : Word) (a : Attr),
      s.hw.takes (FRC_CHG_CTRL) a = true →
      h = s.hw.answer 0 →
      h.chgState = 1 →
      exec (.chgCancel v a) s = .next (s.withHw ((h.chgOver 5).putBit FRC_CHG_CTRL 30 true))) ∧
  -- forceWrite
  (∀ (s : State) (h : Hw) (f : Fin 1024) (v : Word) (g : Hw) (w : ForceEnt) (e : ForceEnt) (a : Attr),
      s.hw.takes (FRC_FORCE f 1) a = true →
      h = s.hw.answer 0 →
      g = h.wr (FRC_FORCE f 1) v.toNat →
      w = g.forceWords f →
      (e = if w.image then { w with owner := w.owner % 64 } else w) →
      e.state = 1 →
      (symTy e.ty).isNone = false →
      g.forcePlaceOk e = true →
      forceValueOk e.ty e.value = true →
      ((match find? h.frc.entries f with | some x => x.state == 2 && e.ty != x.newTy | none => false) = false) →
      g.forceForbidden e = false →
      g.forceOverlaps f e = false →
      exec (.forceWrite f v a) s = .next (s.withHw (({ g with frc := { g.frc with entries := file g.frc.entries f { e with newTy := 0 } } } : Hw).frcCounts))) ∧
  -- forceWrite_free
  (∀ (s : State) (h : Hw) (f : Fin 1024) (v : Word) (g : Hw) (a : Attr),
      s.hw.takes (FRC_FORCE f 1) a = true →
      h = s.hw.answer 0 →
      g = h.wr (FRC_FORCE f 1) v.toNat →
      fld v.toNat 31 30 = 0 →
      (g.forceWords f).state = 0 →
      exec (.forceWrite f v a) s = .next (s.withHw (({ g with frc := { g.frc with entries := unfile g.frc.entries f } } : Hw).frcCounts))) ∧
  -- frcPermitWrite
  (∀ (s : State) (h : Hw) (v : Word) (a : Attr),
      s.hw.takes (FRC_PERMIT) a = true →
      h = s.hw.answer 0 →
      (fld v.toNat 2 0 &&& (7 - h.get FRC_PERMIT 2 0) ≠ 0 → a.secure = true ∧ (h.lcsOpen = true ∨ (h.lcs = 0 ∨ h.lcs = 2) ∧ h.authLeft ≠ 0)) →
      exec (.frcPermitWrite v a) s = .next (s.withHw (h.put FRC_PERMIT 2 0 (fld v.toNat 2 0)))) ∧
  -- authExpired
  (∀ (s : State) (h : Hw) (g : Hw) (r : Hw),
      h = s.hw →
      g = h.put FRC_AUTH 15 0 0 →
      (r = (g.frc.entries.filter (fun f => f.2.state == 1)).foldl (fun (h : Hw) f => (h.put (FRC_FORCE f.1 1) 31 30 0).wr FRC_REPORT (4 * 2 ^ 28 + f.1))
          { g.put FRC_PERMIT 2 0 0 with frc := { g.frc with entries := g.frc.entries.filter (fun f => f.2.state != 1) } }) →
      h.live pgFRC = true →
      h.get FRC_AUTH 15 0 ≠ 0 →
      h.authLeft = 0 →
      exec (.authExpired) s = .next (s.withHw (if g.lcsOpen = true then g else (r.frcCounts.detach).raise pgFRC 8))) ∧
  -- dbgAttach
  (∀ (s : State) (h : Hw) (v : Word) (t : Nat) (g : Hw) (a : Attr),
      s.hw.takes (DBG_ATTACH) a = true →
      h = s.hw.answer 0 →
      g = (h.abandonRota.put DBG_ATTACH 8 0 t).putBit DBG_ATTACH 31 true →
      t = fld (v.toNat ||| 0x8000_0000) 8 0 →
      h.bit FRC_PERMIT 2 = true →
      h.bit DBG_STATE 31 = false →
      h.dbg.want = none →
      (h.abandonRota.firstEng engSpare).isNone = false →
      h.inJob t = false →
      exec (.dbgAttach v a) s = .next (s.withHw ({ g with dbg := { h.dbg with want := some t, leaving := false } }))) ∧
  -- dbgDetach
  (∀ (s : State) (h : Hw) (v : Word) (g : Hw) (a : Attr),
      s.hw.takes (DBG_ATTACH) a = true →
      h = s.hw.answer 0 →
      g = (h.put DBG_ATTACH 8 0 (fld (v.toNat &&& 0x7FFF_FFFF ||| 0x4000_0000) 8 0)).detach →
      exec (.dbgDetach v a) s = .next (s.withHw (g.putBit DBG_ATTACH 30 g.dbg.leaving))) ∧
  -- dbgHalt
  (∀ (s : State) (h : Hw) (v : Word) (a : Attr),
      s.hw.takes (DBG_HALT) a = true →
      h = s.hw.answer 0 →
      v.toNat.testBit 1 = false →
      v.toNat.testBit 2 = false →
      h.bit DBG_STATE 31 = true →
      exec (.dbgHalt v a) s = .next (s.withHw (h.askHalt))) ∧
  -- dbgResume
  (∀ (s : State) (h : Hw) (v : Word) (a : Attr),
      s.hw.takes (DBG_HALT) a = true →
      h = s.hw.answer 0 →
      h.haltedRun.isSome = true →
      exec (.dbgResume v a) s = .next (s.withHw ((h.goOn false).raise pgDBG 1))) ∧
  -- dbgStep
  (∀ (s : State) (h : Hw) (v : Word) (a : Attr),
      s.hw.takes (DBG_HALT) a = true →
      h = s.hw.answer 0 →
      v.toNat.testBit 1 = false →
      exec (.dbgStep v a) s = .next (s.withHw (h.goOn true))) ∧
  -- dbgRegisterWrite
  (∀ (s : State) (h : Hw) (n : Fin 34) (v : Word) (t : Nat) (r : Run) (a : Attr),
      s.hw.takes (dbgReg n) a = true →
      h = s.hw.answer 0 →
      h.haltedRun = some (t, r) →
      exec (.dbgRegisterWrite n v a) s = .next (s.withHw ((h.storeReg (dbgReg n) v.toNat).setRun t (if n.val < 32 then r.setRaw n (r.raw n / 2 ^ 32 * 2 ^ 32 + v.toNat)
          else if n.val = 32 then (List.range 32).foldl (fun (r : Run) i => r.setRaw i (r.raw i % 2 ^ 32 + fld v.toNat i i * 2 ^ 32)) r
          else { r with b := BitVec.ofNat 16 v.toNat }))))

/-- The commands of the power channels complete with their effect.
Derived from R204, R205, R206, R207, R208, R211, R212, R213, R215, R217, R221, R222 of the spec. A PCH_CMD write
reaches an unmapped channel in IN_CHARGE; a period start and a PWM_ALIGN cue pace the generators; a short, a current
limit and an over-temperature trip a driven channel, count it and raise its event; a cooled channel restarts; RETRY is
cleared after its time; the wire model takes its sample, warns and trips; the inrush window closes; a busbar's dip
stops and resumes the windows; the busbar means are shown; re-arming and clearing counters follow PCH_CLR; the load
tests set their flags. The rest of the module is unchanged. -/
def Obligations.PowerChannelCommandsComplete : Prop :=
  -- pchCmdWrite
  (∀ (s : State) (h : Hw) (c : Fin 72) (v : Word) (a : Attr),
      s.hw.takes (cCmd c) a = true →
      h = s.hw.answer 0 →
      h.chanMapped c = false →
      h.inCharge = true →
      exec (.pchCmdWrite c v a) s = .next (s.withHw (h.command c (v.toNat &&& 0xC000_3FFF)))) ∧
  -- pwmPeriodStart
  (∀ (s : State) (h : Hw) (c : Fin 72),
      h = s.hw →
      h.periodDue c = true →
      exec (.pwmPeriodStart c) s = .next (s.withHw (h.beginPeriod c))) ∧
  -- pwmAlign
  (∀ (s : State) (h : Hw) (c : CueRef) (v : Nat),
      s.hw.cueActs c 0x18 v = true →
      h = s.hw.cueFired c.idx →
      exec (.pwmAlign c) s = .next (s.withHw (pwmAlignEff (cueArg (h.cueOf c)) v (cueTc (h.cueOf c)) c.idx h))) ∧
  -- shortTrip
  (∀ (s : State) (h : Hw) (c : Fin 72),
      h = s.hw →
      h.canTrip c = true →
      exec (.shortTrip c) s = .next (s.withHw ((((h.trip c stTripShort 1).putBit (cState c) 15 (h.neighWindow c)).satF (cCnt c) 31 24).raise (pgPCH (c / 8)) (4 * (c % 8))))) ∧
  -- limDwellExpiry
  (∀ (s : State) (h : Hw) (c : Fin 72) (load : BitVec 16) (ps : List LimPulse),
      h = s.hw →
      h.canTrip c = true →
      (h.chanLimit c).num < load.toNat * (h.chanLimit c).den →
      h.get (cCfg c) 15 8 * 100_000 < regulated ps →
      exec (.limDwellExpiry ⟨c, load, ps⟩) s = .next (s.withHw ((((h.trip c stTripLimit 2).putBit (cState c) 15 (h.neighWindow c)).satF (cCnt c) 31 24).raise (pgPCH (c / 8)) (4 * (c % 8))))) ∧
  -- overtempShutdown
  (∀ (s : State) (h : Hw) (c : Fin 72) (g : Hw) (l : Nat),
      h = s.hw →
      g = h.setChan c { h.chan c with hot := true } →
      (l = if g.get (cCfg c) 31 30 = 1 ∨ g.get (cState c) 23 20 = g.get (cCfg c) 29 26 then stTempLatch else stTempWait) →
      g.canTrip c = true →
      exec (.overtempShutdown c) s = .next (s.withHw ((((g.trip c l 4).satF (cCnt c) 15 8).raise (pgPCH (c / 8)) (4 * (c % 8) + 2))))) ∧
  -- tempRestart
  (∀ (s : State) (h : Hw) (c : Fin 72) (g : Hw),
      h = s.hw →
      g = h.setChan c { h.chan c with hot := false } →
      g.heldTrip c = false →
      g.chState c = stTempWait →
      exec (.tempRestart c) s = .next (s.withHw (((g.put (cState c) 23 20 (min 15 (g.get (cState c) 23 20 + 1))).setChState c stOff).followStanding c))) ∧
  -- retryReset
  (∀ (s : State) (h : Hw) (c : Fin 72),
      h = s.hw →
      h.driven c = true →
      (h.chan c).onAt + 1_200_000_000 ≤ h.now →
      exec (.retryReset c) s = .next (s.withHw (h.put (cState c) 23 20 0))) ∧
  -- wireModelUpdate
  (∀ (s : State) (h : Hw) (c : Fin 72) (m : ChanSample) (th trip : Int) (warn : Bool) (g : Hw),
      h = s.hw →
      g = ((({ h with hlt := { h.hlt with junction := max h.hlt.junction m.die.toNat } } : Hw).put (cMeas c) 23 16 m.die.toNat).put (cMeas c) 15 0 m.current.toNat).putBit (cState c) 12 (m.limiting && ((({ h with hlt := { h.hlt with junction := max h.hlt.junction m.die.toNat } } : Hw).put (cMeas c) 23 16 m.die.toNat).put (cMeas c) 15 0 m.current.toNat).driven c) →
      g.stage.running = true →
      th = wireStep (g.chan c).theta ((((g.ambient (g.get (cWire c) 9 8) : Nat) : Int) - 50) * degree) (g.get (cWire c) 23 16) (g.get (cWire c) 31 28) m.i2 →
      trip = ((tripTemp (((g.setChan c { g.chan c with theta := th }).put (cMeas c) 31 24 (wireT th)).get (cWire c) 27 24) : Nat) : Int) * degree →
      warn = decide (th ≥ trip - ((((g.setChan c { g.chan c with theta := th }).put (cMeas c) 31 24 (wireT th)).get (cWire c) 7 0 : Nat) : Int) * degree) →
      exec (.wireModelUpdate c m) s = .next (s.withHw (let r := (g.setChan c { g.chan c with theta := th }).put (cMeas c) 31 24 (wireT th)
      let x := (r.putBit (cState c) 11 warn).raiseIf (warn && !r.bit (cState c) 11) (pgPCH (c / 8)) (4 * (c % 8) + 1)
      if x.canTrip c && decide (th ≥ trip) then ((x.trip c stTripWire 3).putBit (cState c) 10 true).satF (cCnt c) 23 16
      else
        let y := x.putBit (cState c) 10 (decide (x.chState c = stTripWire) && decide (th > trip - 30 * degree))
        if (y.chan c).ctl = .limp && y.tripped c then y.limpFollow c else y))) ∧
  -- windowEnd
  (∀ (s : State) (h : Hw) (c : Fin 72),
      h = s.hw →
      h.window c = true →
      h.windowLen c ≤ h.windowTime c →
      exec (.windowEnd c) s = .next (s.withHw (if (h.closeWindow c).chState c = stInrush then (h.closeWindow c).showDriven c else h.closeWindow c))) ∧
  -- busDip
  (∀ (s : State) (h : Hw) (b : Fin 3),
      h = s.hw →
      find? h.stage.dips b.val = none →
      exec (.busDip b) s = .next (s.withHw ({ h with stage := { h.stage with dips := file h.stage.dips b h.now } }))) ∧
  -- busDipEnd
  (∀ (s : State) (h : Hw) (b : Fin 3) (us : BitVec 32) (g : Hw) (k : Hw),
      h = s.hw →
      (g = each 72 (fun c h => if chanBus c == b.val && h.window c then h.clockResumes c else h) h) →
      k = { g with stage := { g.stage with dips := unfile g.stage.dips b.val } } →
      (find? h.stage.dips b.val).isNone = false →
      exec (.busDipEnd b us) s = .next (s.withHw (((k.wr LPM_DIP_LAST (b.val * 2 ^ 30 + min 0xFF_FFFF us.toNat)).sat LPM_DIP_CNT).raise pgLPM 1))) ∧
  -- busOverload
  (∀ (s : State) (h : Hw) (b : Fin 3) (cur volt : BitVec 16) (g : Hw),
      h = s.hw →
      g = h.wr (busReg b) (cur.toNat * 2 ^ 16 + volt.toNat) →
      exec (.busOverload b cur volt) s = .next (s.withHw (g.raiseIf (if b.val = 2 then decide (cur.toNat > 800) else decide (cur.toNat > 1000) || decide (g.get LPM_BUS12A 31 16 + g.get LPM_BUS12B 31 16 > 1600)) pgLPM 2))) ∧
  -- rearm
  (∀ (s : State) (h : Hw) (c : Fin 72) (v : Word) (a : Attr),
      s.hw.takes (PCH_CLR (c / 8) (c % 8)) a = true →
      h = s.hw.answer 0 →
      fld v.toNat 0 0 = 1 →
      fld v.toNat 1 1 = 0 →
      h.tripped c = true →
      h.chState c ≠ stTempWait →
      h.causeEnded c = true →
      h.heldTrip c = false →
      exec (.rearm c v a) s = .next (s.withHw (h.rearm c))) ∧
  -- pchCntClr
  (∀ (s : State) (h : Hw) (c : Fin 72) (v : Word) (a : Attr),
      s.hw.takes (PCH_CLR (c / 8) (c % 8)) a = true →
      h = s.hw.answer 0 →
      fld v.toNat 1 1 = 1 →
      fld v.toNat 0 0 = 0 →
      exec (.pchCntClr c v a) s = .next (s.withHw (h.wr (cCnt c) 0))) ∧
  -- olOnDetect
  (∀ (s : State) (h : Hw) (c : Fin 72) (cur : List (BitVec 16)) (p : Ratio),
      h = s.hw →
      p = h.pwmLen c →
      h.driven c = true →
      (h.chan c).gate ≠ .blank →
      ((h.chan c).gen = true → 30_000 * 10_000 * p.den ≤ p.num * (h.chan c).duty) →
      (h.chan c).onAt + 12_000_000 ≤ h.now →
      cur.isEmpty = false →
      exec (.olOnDetect c cur) s = .next (s.withHw (if cur.all (fun i => decide (i.toNat < h.get (cDiag c) 15 0)) then h.loadFlag c 5 true
      else if cur.all (fun i => !decide (i.toNat < h.get (cDiag c) 15 0)) then h.loadFlag c 5 false else h))) ∧
  -- offTestPhase
  (∀ (s : State) (h : Hw) (c : Fin 72) (pullUp high : Bool),
      h = s.hw →
      h.offTested c = true →
      exec (.offTestPhase c pullUp high) s = .next (s.withHw (if pullUp then (if h.bit (cDiag c) 31 then h.loadFlag c 6 high else h) else if h.bit (cDiag c) 30 then h.loadFlag c 7 high else h)))

/-- The commands of the load-path monitor's tables and of the power-stage supervisor complete with their effect.
Derived from R217, R225, R227, R240, R247, R248, R250, R252, R257, R264, R266, R268 of the spec. An ambient sample or
its loss sets the ambient value; a word of an idle profile is stored and the profile judged after its CRC word; an
open channel takes a paced PWM configuration; a right heartbeat advances PSS_HB_NEXT; a watchdog expiry in IN_CHARGE
and a release declare the logic lost; a restart and a start of the supervisor, the end of the hold window and a pin
sample act on the channels; a map record that passes the checks is programmed and shown; a take word is stored and
marked; TAKEOVER and TAKE_CLR act on the takeover. The rest of the module is unchanged. -/
def Obligations.StageConfigurationAndSupervisorCommandsComplete : Prop :=
  -- ambientSample
  (∀ (s : State) (h : Hw) (n : Fin 4) (t : Nat),
      h = s.hw →
      h.bit (LPM_AMB_CFG n) 31 = true →
      h.ambFresh n = some t →
      exec (.ambientSample n) s = .next (s.withHw ((h.wr (LPM_AMB_VAL n) (min 255 t)).ambStamp n))) ∧
  -- ambientSample_fixed
  (∀ (s : State) (h : Hw) (n : Fin 4),
      h = s.hw →
      h.bit (LPM_AMB_CFG n) 31 = false →
      exec (.ambientSample n) s = .next (s.withHw (h.wr (LPM_AMB_VAL n) (h.get (LPM_AMB_CFG n) 15 8)))) ∧
  -- ambFallback
  (∀ (s : State) (h : Hw) (n : Fin 4),
      h = s.hw →
      h.bit (LPM_AMB_CFG n) 31 = true →
      h.bit (LPM_AMB_VAL n) 31 = false →
      ((find? h.stage.amb n.val).getD 0) + 120_000_000 ≤ h.now →
      exec (.ambFallback n) s = .next (s.withHw ((h.wr (LPM_AMB_VAL n) (2 ^ 31 + h.get (LPM_AMB_CFG n) 15 8)).raise pgLPM 3))) ∧
  -- profileWrite
  (∀ (s : State) (h : Hw) (p : Fin 8) (w : Fin 32) (v : Word) (g : Hw) (a : Attr),
      s.hw.takes (LPM_PROF p w) a = true →
      h = s.hw.answer 0 →
      g = (h.storeReg (LPM_PROF p w) v.toNat).putBit LPM_PROF_VALID p false →
      h.profileBusy p = false →
      (w.val = 1 → g.profileOk p = true) →
      exec (.profileWrite p w v a) s = .next (s.withHw (if w.val = 1 then g.putBit LPM_PROF_VALID p true else g))) ∧
  -- pwmConfigWrite
  (∀ (s : State) (h : Hw) (c : Fin 72) (v : Word) (a : Attr),
      s.hw.takes (cPwm c) a = true →
      h = s.hw.answer 0 →
      h.cfgOpen c = true →
      fld v.toNat 23 16 ≠ 0 →
      fld v.toNat 15 8 ≠ 0 →
      h.slotPwmOk (fld v.toNat 31 30) = true →
      40_000 * fld v.toNat 15 8 ≤ fld v.toNat 23 16 * h.rd TCU_BASE_TICK →
      fld v.toNat 23 16 * h.rd TCU_BASE_TICK ≤ 10_000_000 * fld v.toNat 15 8 →
      exec (.pwmConfigWrite c v a) s = .next (s.withHw ((((if fld v.toNat 31 30 = h.get (cPwm c) 31 30 then h else h.setChan c { h.chan c with anchor := 0 }).storeReg (cPwm c) v.toNat).putBit (cState c) 3 false)))) ∧
  -- pssHb
  (∀ (s : State) (h : Hw) (v : Word) (a : Attr),
      s.hw.takes (PSS_HB) a = true →
      h = s.hw.answer 0 →
      h.stage.running = true →
      fld v.toNat 15 0 = h.get PSS_HB_NEXT 15 0 →
      fld v.toNat 31 16 = 0xFFFF - h.get PSS_HB_NEXT 15 0 →
      exec (.pssHb v a) s = .next (s.withHw ({ h.put PSS_HB_NEXT 15 0 (h.get PSS_HB_NEXT 15 0 + 1) with stage := { h.stage with bad := 0, beatAt := h.now } }))) ∧
  -- pssWatchdogExpiry
  (∀ (s : State) (h : Hw),
      h = s.hw →
      h.inCharge = true →
      h.stage.beatAt + h.get PSS_CFG 7 0 * 1_200_000 ≤ h.now →
      exec (.pssWatchdogExpiry) s = .next (s.withHw (h.logicLost 3))) ∧
  -- pssRelease
  (∀ (s : State) (h : Hw) (v : Word) (a : Attr),
      s.hw.takes (PSS_RELEASE) a = true →
      h = s.hw.answer 0 →
      fld v.toNat 0 0 = 1 →
      h.stage.running = true →
      h.charge = 2 →
      exec (.pssRelease v a) s = .next (s.withHw (h.logicLost 5))) ∧
  -- pssRestart
  (∀ (s : State) (h : Hw) (g : Hw),
      h = s.hw →
      g = ((h.sat PSS_RESTART_CNT).raise pgPSS 8).setCharge 0 →
      h.stage.running = true →
      exec (.pssRestart) s = .next (s.withHw (({ g with stage := { g.stage with running := false, fromVbat := false } } : Hw).hardwarePath))) ∧
  -- pssStart
  (∀ (s : State) (h : Hw) (bad : List Nat) (g : Hw) (m : Hw) (x : Hw),
      h = s.hw →
      (bad = h.stage.used.filter (fun n => !h.otpOk n)) →
      (g = (h.wr PSS_MAP_STATUS (h.stage.used.foldl (fun x n => x + 2 ^ (4 + n)) 0 + bad.foldl (fun x n => x + 2 ^ (8 + n)) 0)).raiseIf (!bad.isEmpty) pgPSS 7) →
      (m = ((each 18 (fun w (h : Hw) => h.wr (PSS_MAP w) (romMap w)) g).put PSS_MAP_STATUS 1 0 0).putBit (STATUS pgPSS) 16 false) →
      (x = (({ m with stage := { m.stage with running := true, bad := 0, prog := none } } : Hw).put (STATUS pgPSS) 11 8 (if m.stage.fromVbat then 1 else 6)).setCharge 0) →
      h.stage.running = false →
      h.sys.vbatOff = false →
      ((g.stage.used.filter (fun n => g.otpOk n)).getLast? = none) →
      exec (.pssStart) s = .next (s.withHw ((if m.stage.fromVbat then x.wiresStart else x).hardwarePath))) ∧
  -- pssStart_map
  (∀ (s : State) (h : Hw) (n : Nat) (bad : List Nat) (g : Hw) (m : Hw) (x : Hw),
      h = s.hw →
      (bad = h.stage.used.filter (fun n => !h.otpOk n)) →
      (g = (h.wr PSS_MAP_STATUS (h.stage.used.foldl (fun x n => x + 2 ^ (4 + n)) 0 + bad.foldl (fun x n => x + 2 ^ (8 + n)) 0)).raiseIf (!bad.isEmpty) pgPSS 7) →
      (m = ((each 18 (fun w (h : Hw) => h.wr (PSS_MAP w) (h.otpMap n (w + 1))) g).put PSS_MAP_STATUS 1 0 n).putBit (STATUS pgPSS) 16 true) →
      (x = (({ m with stage := { m.stage with running := true, bad := 0, prog := none } } : Hw).put (STATUS pgPSS) 11 8 (if m.stage.fromVbat then 1 else 6)).setCharge 0) →
      h.stage.running = false →
      h.sys.vbatOff = false →
      ((g.stage.used.filter (fun n => g.otpOk n)).getLast? = some n) →
      exec (.pssStart) s = .next (s.withHw ((if m.stage.fromVbat then x.wiresStart else x).hardwarePath))) ∧
  -- holdWindowEnd
  (∀ (s : State) (h : Hw),
      h = s.hw →
      h.charge = 1 →
      h.stage.holdAt + h.get PSS_CFG 23 16 * 12_000_000 ≤ h.now →
      exec (.holdWindowEnd) s = .next (s.withHw (((each 72 (fun c h => if (h.chan c).ctl = .hold then h.toLimp c else h) h).setCharge 0).raise pgPSS 3))) ∧
  -- lhSample
  (∀ (s : State) (h : Hw) (p : Fin 16) (level : Bool) (x : Pin) (n : Nat) (g : Hw),
      h = s.hw →
      g = { h with stage := { h.stage with pins := file h.stage.pins p { level := level, same := n } } } →
      x = (find? h.stage.pins p).getD {} →
      (n = if x.level = level then min 3 (x.same + 1) else 1) →
      h.sys.vbatOff = false →
      exec (.lhSample p level) s = .next (s.withHw (if n < 3 ∨ g.bit PSS_LH_IN p = level then g
      else each 72 (fun c h => if (h.chan c).ctl = .limp then h.limpFollow c else h) (g.putBit PSS_LH_IN p level)))) ∧
  -- mapProg
  (∀ (s : State) (h : Hw) (v : Word) (n : Nat) (g : Hw) (a : Attr),
      s.hw.takes (PSS_MAP_PROG) a = true →
      h = s.hw.answer 0 →
      (g = ({ h with stage := { h.stage with prog := some n, record := (0x4C48_0001 :: (List.range 18).map (fun w => h.rd (PSS_MAP_STAGE w))) ++ [crc32 (wordBytes (0x4C48_0001 :: (List.range 18).map (fun w => h.rd (PSS_MAP_STAGE w))))] } } : Hw).putBit PSS_MAP_STATUS 16 true) →
      a.secure = true →
      (h.lcs = 0 ∨ h.lcs = 1 ∨ h.lcs = 3) →
      v.toNat = 0x4C48_4D50 →
      ((List.range 18).all (fun w => mapWordOk (h.rd (PSS_MAP_STAGE w))) = true) →
      h.stage.prog = none →
      h.stage.running = true →
      ((List.range 4).find? (fun n => !h.stage.used.contains n) = some n) →
      exec (.mapProg v a) s = .next (s.withHw (if g.inHold then g.defer .mapProg else g))) ∧
  -- mapProgDone
  (∀ (s : State) (h : Hw) (n : Nat) (good : Bool) (otp : List (Nat × Nat)) (g : Hw),
      h = s.hw →
      g = (({ h with stage := { h.stage with otp := otp, used := h.stage.used ++ [n], prog := none, record := [] } } : Hw).putBit PSS_MAP_STATUS 16 false).putBit PSS_MAP_STATUS (4 + n) true →
      (otp = (List.range 20).foldl (fun l w => store zeroNat l (20 * n + w) (if good then h.stage.record.getD w 0 else 0)) h.stage.otp) →
      h.stage.prog = some n →
      h.inHold = false →
      exec (.mapProgDone good) s = .next (s.withHw (if good then (g.putBit PSS_MAP_STATUS 3 true).raise pgPSS 6
      else ((g.putBit PSS_MAP_STATUS (8 + n) true).capture pgPSS 0x0106 (busAddr PSS_MAP_PROG) (ownAttr 0)).raise pgPSS 7))) ∧
  -- pssTakeWrite
  (∀ (s : State) (h : Hw) (c : Fin 72) (v : Word) (a : Attr),
      s.hw.takes (PSS_TAKE c) a = true →
      h = s.hw.answer 0 →
      exec (.pssTakeWrite c v a) s = .next (s.withHw ((h.storeReg (PSS_TAKE c) v.toNat).putBit (PSS_TAKE_MASK (c / 32)) (c % 32) true))) ∧
  -- takeover
  (∀ (s : State) (h : Hw) (v : Word) (x : Hw) (a : Attr),
      s.hw.takes (PSS_TAKE_CTRL) a = true →
      h = s.hw.answer 0 →
      (x = ((each 72 (fun c h => h.takeChannel c) h).setCharge 2).takeClear) →
      fld v.toNat 0 0 = 1 →
      fld v.toNat 1 1 = 0 →
      h.stage.running = true →
      h.charge ≠ 2 →
      h.takeComplete = true →
      exec (.takeover v a) s = .next (s.withHw (({ x with stage := { x.stage with bad := 0, beatAt := x.now } } : Hw).raise pgPSS 4))) ∧
  -- takeClr
  (∀ (s : State) (h : Hw) (v : Word) (a : Attr),
      s.hw.takes (PSS_TAKE_CTRL) a = true →
      h = s.hw.answer 0 →
      fld v.toNat 0 0 = 0 →
      fld v.toNat 1 1 = 1 →
      exec (.takeClr v a) s = .next (s.withHw (h.takeClear)))

/-- The commands of the switch core, its tables and the Loft complete with their effect.
Derived from R273, R274, R286, R291, R293, R297, R298, R299, R300, R303, R306, R316 of the spec. A good frame on a
port that is up is counted and goes on as the MACsec check gives it, and one from an inner port goes to the switch
core; a Loft write ends and its cells return; a queue is staged; a port without a frame on the wire selects one; a
sent frame is counted and its link goes; a link goes down or comes up; a grace expiry flushes; a bucket of an empty
queue is remapped; the FDB ages by one step; a table command on an entry in range reads, writes, looks up, deletes or
flushes and shows operation, result, table and index; counters named are cleared. The rest of the module is unchanged. -/
def Obligations.SwitchCommandsComplete : Prop :=
  -- frameRx
  (∀ (s : State) (h : Hw) (p : Fin 40) (b x : List Byte) (frags : BitVec 8) (g : Hw) (r : Hw),
      h = s.hw →
      (g = ((if p.val < 12 then h.ethCount p 8 frags.toNat else h).ethCount p 0).ethCount p 1 b.length) →
      r = (g.msecValidate p (b.take (b.length - 4))).2 →
      p.val < 36 →
      h.live (pgETH p) = true →
      h.bit (ETH_CFG p) 31 = true →
      h.bit (ETH_PHY_STAT p) 31 = true →
      64 ≤ b.length →
      b.drop (b.length - 4) = fcs (b.take (b.length - 4)) →
      beNat (slice b 12 2) ≠ 0x8808 →
      (g.msecValidate p (b.take (b.length - 4))).1 = some x →
      exec (.frameRx p b frags false) s = .next (s.withHw (if ptpFrame x then r else r.swReceive p x))) ∧
  -- frameRx_inner
  (∀ (s : State) (h : Hw) (p : Fin 40) (b : List Byte) (frags : BitVec 8) (broken : Bool),
      h = s.hw →
      36 ≤ p.val →
      (h.zone.handed.find? (fun x => decide (x.1 = p.val)) = some (p.val, b)) →
      exec (.frameRx p b frags broken) s = .next (s.withHw (({ h with zone := { h.zone with handed := h.zone.handed.erase (p.val, b) } } : Hw).swReceive p b))) ∧
  -- loftWriteDone
  (∀ (s : State) (h : Hw) (d : Nat) (ds : List Nat) (f : LoftFrame) (g : Hw),
      h = s.hw →
      g = (h.writeRecord (h.queueOf d) (h.desc d) f).freeCells f.cells →
      h.sw.loftQ = d :: ds →
      ((h.desc d).frames.find? (fun f => !f.written) = some f) →
      exec (.loftWriteDone) s = .next (s.withHw (let m := g.setDesc d { h.desc d with frames := (h.desc d).frames.map (fun (y : LoftFrame) => if y.block = f.block ∧ y.ofs = f.ofs then { y with written := true, cells := [] } else y) }
      ({ m with sw := { m.sw with loftQ := ds, head := m.sw.head - f.cells.length } } : Hw).grnSync))) ∧
  -- loftStage
  (∀ (s : State) (h : Hw) (q : Fin 320) (e : LoftRead),
      h = s.hw →
      h.live pgLOFT = true →
      exec (.loftStage q e) s = .next (s.withHw (((h.touch (q / 8)).loftStage q e).settle (q / 8)))) ∧
  -- egressSelect
  (∀ (s : State) (h : Hw) (p : Fin 40) (e : Ecc) (g : Hw),
      h = s.hw →
      g = ((h.touch p).select p e ((h.touch p).portLinks p + 9) []) →
      h.canSend p = true →
      ((h.touch p).port p).tx = none →
      ((h.touch p).port p).freeAt ≤ (h.touch p).now →
      exec (.egressSelect p e) s = .next (s.withHw (((if (g.port p).tx.isNone then g.setPort p { g.port p with turn := 0 } else g).settle p).grnSync))) ∧
  -- frameTxDone
  (∀ (s : State) (h : Hw) (p : Fin 40) (f : TxFrame) (g : Hw) (x : Hw) (y : Hw),
      h = s.hw →
      g = ((((h.touch p).swCount 1 (8 * p + f.cls) 0).swCount 1 (8 * p + f.cls) 1 ((h.touch p).desc f.desc).len).ethCount p 5).ethCount p 6 f.wire.length →
      (x = if 0 < f.fragments then g.ethCount p 7 else g) →
      (y = match f.sa with | some i => x.pnUsed i | none => x) →
      (h.port p).tx = some f →
      h.txEnded p f = true →
      exec (.frameTxDone p) s = .next (s.withHw ((((y.setPort p { y.port p with tx := none, freeAt := y.now + y.wireCycles p 12, turnEnd := y.now + 120 * 128 }).unlink (8 * p + f.cls) f.desc).settle p).grnSync))) ∧
  -- linkDown
  (∀ (s : State) (h : Hw) (p : Fin 40),
      h = s.hw →
      exec (.linkDown p) s = .next (s.withHw (h.linkDown p))) ∧
  -- linkUp
  (∀ (s : State) (h : Hw) (p : Fin 40) (g : Hw) (x : Hw) (y : Hw) (k : Hw),
      h = s.hw →
      g = (h.putBit (ETH_PHY_STAT p) 31 true).putBit (STATUS (pgETH p)) 0 true →
      (x = if 28 ≤ p.val then g.putBit (ETH_PHY_STAT p) 24 (g.bit (ETH_PLCA p) 31) else g) →
      (y = if 4 ≤ p.val ∧ p.val < 28 then x.put (ETH_TC10 p) 2 0 0 else x) →
      k = y.setPort p { y.port p with sqiAt := y.now } →
      p.val < 36 →
      h.live (pgETH p) = true →
      h.bit (ETH_CFG p) 31 = true →
      h.get (ETH_PHY p) 29 27 = 0 →
      exec (.linkUp p) s = .next (s.withHw (((k.raiseIf (!h.bit (ETH_PHY_STAT p) 31) (pgETH p) 0).pmacSync p).linkResumed p))) ∧
  -- graceExpiry
  (∀ (s : State) (h : Hw) (p : Fin 40),
      h = s.hw →
      h.get (SWC_LINK p) 1 0 = 1 →
      120_000 * h.get (SWC_LINK p) 24 16 ≤ h.now - (h.port p).downAt →
      exec (.graceExpiry p) s = .next (s.withHw (h.flushPort p))) ∧
  -- lagRemap
  (∀ (s : State) (h : Hw) (g : Fin 8) (b : Fin 64) (p m : Nat),
      h = s.hw →
      h.sw.lag.get (g.val * 64 + b.val) = p + 1 →
      h.lagTarget g b = some m →
      ((List.range 8).any (fun c => (h.queue (8 * p + c)).links.any (fun d => if (h.desc d).typ = 1 then (h.desc d).frames.any (fun f => f.bucket == b.val) else (h.desc d).bucket == b.val)) = false) →
      exec (.lagRemap g b) s = .next (s.withHw ({ h with sw := { h.sw with lag := h.sw.lag.set (g.val * 64 + b.val) (m + 1) } }))) ∧
  -- fdbAgeing
  (∀ (s : State) (h : Hw),
      h = s.hw →
      h.live pgFDB = true →
      exec (.fdbAgeing) s = .next (s.withHw (((h.fdbEntries.filter (fun i => decide (fld (h.fdb 0 i 1) 30 30 = 0))).foldl (fun (h : Hw) i =>
        if fld (h.fdb 0 i 1) 29 28 = 3 then h.fdbClear i else h.setFdb 0 i 1 (setFld (h.fdb 0 i 1) 29 28 (fld (h.fdb 0 i 1) 29 28 + 1))) h).fdbUsed))) ∧
  -- fdbRead
  (∀ (s : State) (h : Hw) (v : Word) (t i : Nat) (a : Attr),
      s.hw.takes (FDB_CMD) a = true →
      h = s.hw.answer 0 →
      t = fld v.toNat 23 22 →
      i = fld v.toNat 13 0 →
      i < fdbSize t →
      h.tableBusy FDB_CMD = false →
      exec (.fdbRead v a) s = .next (s.withHw (((each 4 (fun w (h : Hw) => h.wr (FDB_DATA w) (h.fdb t i w)) h).wr FDB_CMD (1 * 2 ^ 28 + 0 * 2 ^ 24 + t * 2 ^ 22 + i)).tableWorks FDB_CMD 120))) ∧
  -- fdbWrite
  (∀ (s : State) (h : Hw) (v : Word) (t i : Nat) (a : Attr),
      s.hw.takes (FDB_CMD) a = true →
      h = s.hw.answer 0 →
      t = fld v.toNat 23 22 →
      i = fld v.toNat 13 0 →
      i < fdbSize t →
      h.tableBusy FDB_CMD = false →
      exec (.fdbWrite v a) s = .next (s.withHw ((((each 4 (fun w (h : Hw) => h.setFdb t i w (h.rd (FDB_DATA w) &&& fdbMask t w)) h).fdbUsed).wr FDB_CMD (2 * 2 ^ 28 + 0 * 2 ^ 24 + t * 2 ^ 22 + i)).tableWorks FDB_CMD 120))) ∧
  -- fdbLookup
  (∀ (s : State) (h : Hw) (v : Word) (t i : Nat) (j : Nat) (a : Attr),
      s.hw.takes (FDB_CMD) a = true →
      h = s.hw.answer 0 →
      t = fld v.toNat 23 22 →
      i = fld v.toNat 13 0 →
      i < fdbSize t →
      t = 0 →
      h.fdbFind (h.keyMac (FDB_DATA 0) (FDB_DATA 1)) (h.get (FDB_DATA 1) 27 16) = some j →
      h.tableBusy FDB_CMD = false →
      exec (.fdbLookup v a) s = .next (s.withHw (((h).wr FDB_CMD (3 * 2 ^ 28 + 0 * 2 ^ 24 + t * 2 ^ 22 + j)).tableWorks FDB_CMD 120))) ∧
  -- fdbDelete
  (∀ (s : State) (h : Hw) (v : Word) (t i : Nat) (a : Attr),
      s.hw.takes (FDB_CMD) a = true →
      h = s.hw.answer 0 →
      t = fld v.toNat 23 22 →
      i = fld v.toNat 13 0 →
      i < fdbSize t →
      h.tableBusy FDB_CMD = false →
      exec (.fdbDelete v a) s = .next (s.withHw ((((each 4 (fun w (h : Hw) => h.setFdb t i w 0) h).fdbUsed).wr FDB_CMD (4 * 2 ^ 28 + 0 * 2 ^ 24 + t * 2 ^ 22 + i)).tableWorks FDB_CMD 120))) ∧
  -- fdbFlushFid
  (∀ (s : State) (h : Hw) (v : Word) (t i : Nat) (a : Attr),
      s.hw.takes (FDB_CMD) a = true →
      h = s.hw.answer 0 →
      t = fld v.toNat 23 22 →
      i = fld v.toNat 13 0 →
      i < fdbSize t →
      h.tableBusy FDB_CMD = false →
      exec (.fdbFlushFid v a) s = .next (s.withHw (((h.fdbFlush (fun j => decide (fld (h.fdb 0 j 1) 27 16 = h.get (FDB_DATA 1) 27 16))).wr FDB_CMD (5 * 2 ^ 28 + 0 * 2 ^ 24 + t * 2 ^ 22 + i)).tableWorks FDB_CMD 24_000))) ∧
  -- fdbFlushPort
  (∀ (s : State) (h : Hw) (v : Word) (t i : Nat) (a : Attr),
      s.hw.takes (FDB_CMD) a = true →
      h = s.hw.answer 0 →
      t = fld v.toNat 23 22 →
      i = fld v.toNat 13 0 →
      i < fdbSize t →
      h.tableBusy FDB_CMD = false →
      exec (.fdbFlushPort v a) s = .next (s.withHw (((h.fdbFlush (fun j => decide (fld (h.fdb 0 j 2) 31 31 = 0) && decide (fld (h.fdb 0 j 2) 9 0 = h.get (FDB_DATA 2) 5 0))).wr FDB_CMD (6 * 2 ^ 28 + 0 * 2 ^ 24 + t * 2 ^ 22 + i)).tableWorks FDB_CMD 24_000))) ∧
  -- strmRead
  (∀ (s : State) (h : Hw) (v : Word) (t i : Nat) (a : Attr),
      s.hw.takes (STRM_CMD) a = true →
      h = s.hw.answer 0 →
      t = fld v.toNat 23 22 →
      i = fld v.toNat 13 0 →
      i < strmSize t →
      h.tableBusy STRM_CMD = false →
      exec (.strmRead v a) s = .next (s.withHw (((each 4 (fun w (h : Hw) => h.wr (STRM_DATA w) (h.strm t i w)) h).wr STRM_CMD (1 * 2 ^ 28 + 0 * 2 ^ 24 + t * 2 ^ 22 + i)).tableWorks STRM_CMD 120))) ∧
  -- strmWrite
  (∀ (s : State) (h : Hw) (v : Word) (t i : Nat) (g : Hw) (r : Hw) (a : Attr),
      s.hw.takes (STRM_CMD) a = true →
      h = s.hw.answer 0 →
      (g = each 4 (fun w (h : Hw) => h.setStrm t i w (h.rd (STRM_DATA w) &&& strmMask t w)) h) →
      (r = if t = 0 then g.setStrm 0 i 3 (setFld (g.strm 0 i 3) 30 30 (fld (h.strm 0 i 3) 30 30 * fld (h.rd (STRM_DATA 3)) 30 30)) else g) →
      t = fld v.toNat 23 22 →
      i = fld v.toNat 13 0 →
      i < strmSize t →
      (¬ (t = 2 ∧ h.get (STRM_DATA 0) 15 0 = 0)) →
      h.tableBusy STRM_CMD = false →
      exec (.strmWrite v a) s = .next (s.withHw (((if t = 1 then { r with sw := { r.sw with meters := unfile r.sw.meters i } } else r).wr STRM_CMD (2 * 2 ^ 28 + 0 * 2 ^ 24 + t * 2 ^ 22 + i)).tableWorks STRM_CMD 120))) ∧
  -- strmLookup
  (∀ (s : State) (h : Hw) (v : Word) (t i : Nat) (j : Nat) (a : Attr),
      s.hw.takes (STRM_CMD) a = true →
      h = s.hw.answer 0 →
      t = fld v.toNat 23 22 →
      i = fld v.toNat 13 0 →
      i < strmSize t →
      t = 0 →
      h.strmFind (h.get (STRM_DATA 1) 30 30) (h.keyMac (STRM_DATA 0) (STRM_DATA 1)) (h.get (STRM_DATA 1) 27 16) = some j →
      h.tableBusy STRM_CMD = false →
      exec (.strmLookup v a) s = .next (s.withHw (((h).wr STRM_CMD (3 * 2 ^ 28 + 0 * 2 ^ 24 + t * 2 ^ 22 + j)).tableWorks STRM_CMD 120))) ∧
  -- strmDelete
  (∀ (s : State) (h : Hw) (v : Word) (t i : Nat) (a : Attr),
      s.hw.takes (STRM_CMD) a = true →
      h = s.hw.answer 0 →
      t = fld v.toNat 23 22 →
      i = fld v.toNat 13 0 →
      i < strmSize t →
      h.tableBusy STRM_CMD = false →
      exec (.strmDelete v a) s = .next (s.withHw (((each 4 (fun w (h : Hw) => h.setStrm t i w 0) h).wr STRM_CMD (4 * 2 ^ 28 + 0 * 2 ^ 24 + t * 2 ^ 22 + i)).tableWorks STRM_CMD 120))) ∧
  -- seqRecoveryReset
  (∀ (s : State) (h : Hw) (n : Fin 1024),
      h = s.hw →
      h.live pgSTRM = true →
      fld (h.strm 2 n 0) 31 31 = 1 →
      exec (.seqRecoveryReset n) s = .next (s.withHw ((((h.setStrm 2 n 1 0).setStrm 2 n 2 0).swCount 3 n 5).raise pgSTRM 3))) ∧
  -- swcCntClr
  (∀ (s : State) (h : Hw) (v : Word) (a : Attr),
      s.hw.takes (SWC_CNT_CLR) a = true →
      h = s.hw.answer 0 →
      cntValid v.toNat = true →
      exec (.swcCntClr v a) s = .next (s.withHw ({ h with sw := { h.sw with cnt := h.sw.cnt.set (cntKey v.toNat) 0 } }))) ∧
  -- grnCntClr
  (∀ (s : State) (h : Hw) (v : Word) (a : Attr),
      s.hw.takes (GRN_CNT_CLR) a = true →
      h = s.hw.answer 0 →
      fld v.toNat 0 0 = 1 →
      fld v.toNat 1 1 = 1 →
      fld v.toNat 2 2 = 1 →
      exec (.grnCntClr v a) s = .next (s.withHw (((h.wr GRN_FREE_MIN (h.rd GRN_FREE)).wr GRN_PUSH_CNT 0).wr GRN_ADMIT_DROP 0))) ∧
  -- loftCntClr
  (∀ (s : State) (h : Hw) (v : Word) (a : Attr),
      s.hw.takes (LOFT_CNT_CLR) a = true →
      h = s.hw.answer 0 →
      fld v.toNat 0 0 = 1 →
      exec (.loftCntClr v a) s = .next (s.withHw (h.wr LOFT_PEAK (h.rd LOFT_USED))))

/-- The commands of the Ethernet ports, PTP, TC10 and the MACsec tables complete with their effect.
Derived from R323, R325, R326, R328, R330, R331, R341, R342, R346, R353, R354, R358 of the spec. An accepted ETH_MDIO
or ETH_PHY write with GO starts its operation and its end shows the result; signal quality, a transmit opportunity, a
collision, GATE and HOLD cues and a verify timeout act on their port; MACsec table commands on an entry in range read,
write or delete it; a PTP instance is enabled, takes and sends Sync, loses it, and a link delay is measured; TC10
requests, denials and wake-ups change the port's TC10 state; a counter is cleared. The rest of the module is
unchanged. -/
def Obligations.PortCommandsComplete : Prop :=
  -- mdioFrame
  (∀ (s : State) (h : Hw) (p : Fin 36) (v : Word) (a : Attr),
      s.hw.takes (at_ (pgETH p) 0x160) a = true →
      h = s.hw.answer 0 →
      h.ethRefuses p 0x160 (setFld v.toNat 31 31 1) = none →
      exec (.mdioFrame p v a) s = .next (s.withHw ((h.storeReg (at_ (pgETH p) 0x160) (setFld v.toNat 31 31 1 &&& ethKeep p 0x160)).ethAfter p 0x160 (h.rd (at_ (pgETH p) 0x160))))) ∧
  -- cableGo
  (∀ (s : State) (h : Hw) (p : Fin 36) (v : Word) (a : Attr),
      s.hw.takes (at_ (pgETH p) 0x104) a = true →
      h = s.hw.answer 0 →
      h.ethRefuses p 0x104 (setFld v.toNat 26 26 1) = none →
      exec (.cableGo p v a) s = .next (s.withHw ((h.storeReg (at_ (pgETH p) 0x104) (setFld v.toNat 26 26 1 &&& ethKeep p 0x104)).ethAfter p 0x104 (h.rd (at_ (pgETH p) 0x104))))) ∧
  -- mdioDone
  (∀ (s : State) (h : Hw) (p : Fin 36) (data : BitVec 16),
      h = s.hw →
      h.bit (ETH_MDIO p) 31 = true →
      exec (.mdioDone p data) s = .next (s.withHw (if 2 ≤ (h.putBit (ETH_MDIO p) 31 false).get (ETH_MDIO p) 29 28 then (h.putBit (ETH_MDIO p) 31 false).put (ETH_MDIO p) 15 0 data.toNat else h.putBit (ETH_MDIO p) 31 false))) ∧
  -- cableTestDone
  (∀ (s : State) (h : Hw) (p : Fin 36) (res : Fin 4) (dist : BitVec 8),
      h = s.hw →
      h.bit (ETH_PHY_STAT p) 30 = true →
      exec (.cableTestDone p res dist) s = .next (s.withHw ((((h.putBit (ETH_PHY p) 26 false).putBit (ETH_PHY_STAT p) 30 false).put (ETH_PHY_STAT p) 29 28 res).put (ETH_PHY_STAT p) 23 16 dist.toNat))) ∧
  -- sqiReport
  (∀ (s : State) (h : Hw) (p : Fin 36) (sqi : Fin 8) (n : Nat) (g : Hw),
      h = s.hw →
      g = h.put (ETH_PHY_STAT p) 2 0 sqi →
      4 ≤ p.val →
      p.val < 28 →
      h.bit (ETH_PHY_STAT p) 31 = true →
      (h.port p).sqiAt + 1_200_000 ≤ h.now →
      (n = if sqi.val < g.get (ETH_PHY p) 23 20 then (g.port p).lowSqi + 1 else 0) →
      exec (.sqiReport p sqi) s = .next (s.withHw ((g.setPort p { g.port p with lowSqi := n, sqiAt := g.now }).raiseIf (decide (n = 10)) (pgETH p) 4))) ∧
  -- transmitOpportunity
  (∀ (s : State) (h : Hw) (p : Fin 36) (id : BitVec 8) (x : PortSt) (n : Nat),
      h = s.hw →
      x = h.port p →
      n = h.get (ETH_PLCA p) 19 16 →
      28 ≤ p.val →
      h.live (pgETH p) = true →
      h.bit (ETH_CFG p) 31 = true →
      h.bit (ETH_PLCA p) 31 = true →
      h.get (ETH_PLCA p) 26 24 = 0 →
      id.toNat = x.plca →
      exec (.transmitOpportunity ⟨p, id⟩) s = .next (s.withHw (h.setPort p (let y : PortSt := { x with plca := if id.toNat + 1 < n then id.toNat + 1 else 0, beacons := if id.toNat = 0 then x.beacons + 1 else x.beacons }
        if id.toNat = 0 then { y with turn := 1 + h.get (ETH_PLCA p) 7 0, turnEnd := h.now + 120 * h.get (ETH_PLCA p) 15 8 } else { y with turn := 0 })))) ∧
  -- transmitOpportunity_follower
  (∀ (s : State) (h : Hw) (p : Fin 36) (id : BitVec 8),
      h = s.hw →
      28 ≤ p.val →
      h.live (pgETH p) = true →
      h.bit (ETH_CFG p) 31 = true →
      h.bit (ETH_PLCA p) 31 = true →
      h.get (ETH_PLCA p) 26 24 ≠ 0 →
      exec (.transmitOpportunity ⟨p, id⟩) s = .next (s.withHw (h.setPort p (if id.toNat = h.get (ETH_PLCA p) 26 24 then { h.port p with turn := 1 + h.get (ETH_PLCA p) 7 0, turnEnd := h.now + 120 * h.get (ETH_PLCA p) 15 8 } else { h.port p with turn := 0 })))) ∧
  -- plcaCollision
  (∀ (s : State) (h : Hw) (p : Fin 36) (f : TxFrame) (g : Hw) (x : Hw),
      h = s.hw →
      (g = ((h.touch p).ethCount p 12).raiseIf ((h.touch p).bit (ETH_PLCA p) 31 && (match ((h.touch p).port p).lastColl with | some t => decide (120_000_000 ≤ (h.touch p).now - t) | none => true)) (pgETH p) 7) →
      x = g.setPort p { g.port p with lastColl := some g.now } →
      (h.port p).tx = some f →
      28 ≤ p.val →
      f.tries < 16 →
      exec (.plcaCollision p) s = .next (s.withHw ((x.setPort p { x.port p with tx := some { f with tries := f.tries + 1, start := x.now } }).settle p))) ∧
  -- gate
  (∀ (s : State) (h : Hw) (c : CueRef) (v : Nat),
      s.hw.cueActs c 0x10 v = true →
      h = s.hw.cueFired c.idx →
      fld (cueArg (h.cueOf c)) 21 16 < 36 →
      exec (.gate c) s = .next (s.withHw (gateEff (cueArg (h.cueOf c)) v (cueTc (h.cueOf c)) c.idx h))) ∧
  -- hold
  (∀ (s : State) (h : Hw) (c : CueRef) (v : Nat),
      s.hw.cueActs c 0x11 v = true →
      h = s.hw.cueFired c.idx →
      fld (cueArg (h.cueOf c)) 21 16 < 12 →
      exec (.hold c) s = .next (s.withHw (holdEff (cueArg (h.cueOf c)) v (cueTc (h.cueOf c)) c.idx h))) ∧
  -- verifyTimeout
  (∀ (s : State) (h : Hw) (p : Fin 36),
      h = s.hw →
      p.val < 12 →
      h.get (ETH_PMAC p) 10 8 = 1 →
      (h.port p).verifyAt + 1_200_000 * h.get (ETH_PMAC p) 23 16 ≤ h.now →
      exec (.verifyTimeout p) s = .next (s.withHw (if (h.port p).verify < 3 then h.setPort p { h.port p with verify := (h.port p).verify + 1, verifyAt := h.now } else (h.put (ETH_PMAC p) 10 8 3).raise (pgETH p) 2))) ∧
  -- msecRead
  (∀ (s : State) (h : Hw) (v : Word) (t i : Nat) (a : Attr),
      s.hw.takes (MSEC_CMD) a = true →
      h = s.hw.answer 0 →
      t = fld v.toNat 23 22 →
      i = fld v.toNat 13 0 →
      i < secSize t →
      h.tableBusy MSEC_CMD = false →
      exec (.msecRead v a) s = .next (s.withHw (((each 8 (fun w (h : Hw) => h.wr (MSEC_DATA w) (h.sec t i w)) h).wr MSEC_CMD (1 * 2 ^ 28 + 0 * 2 ^ 24 + t * 2 ^ 22 + i)).tableWorks MSEC_CMD 120))) ∧
  -- msecWrite
  (∀ (s : State) (h : Hw) (v : Word) (t i : Nat) (a : Attr),
      s.hw.takes (MSEC_CMD) a = true →
      h = s.hw.answer 0 →
      t = fld v.toNat 23 22 →
      i = fld v.toNat 13 0 →
      i < secSize t →
      (s.hw.secRefuses t i (fun w => s.hw.rd (MSEC_DATA w)) = none) →
      h.tableBusy MSEC_CMD = false →
      exec (.msecWrite v a) s = .next (s.withHw (((each 7 (fun w (h : Hw) => h.setSec t i w (h.rd (MSEC_DATA w) &&& secMask t w)) h).wr MSEC_CMD (2 * 2 ^ 28 + 0 * 2 ^ 24 + t * 2 ^ 22 + i)).tableWorks MSEC_CMD 120))) ∧
  -- msecDelete
  (∀ (s : State) (h : Hw) (v : Word) (t i : Nat) (a : Attr),
      s.hw.takes (MSEC_CMD) a = true →
      h = s.hw.answer 0 →
      t = fld v.toNat 23 22 →
      i = fld v.toNat 13 0 →
      i < secSize t →
      h.tableBusy MSEC_CMD = false →
      exec (.msecDelete v a) s = .next (s.withHw (((each 8 (fun w (h : Hw) => h.setSec t i w 0) h).wr MSEC_CMD (4 * 2 ^ 28 + 0 * 2 ^ 24 + t * 2 ^ 22 + i)).tableWorks MSEC_CMD 120))) ∧
  -- ptpInstanceEnable
  (∀ (s : State) (h : Hw) (i : Fin 4) (v : Word) (g : Hw) (x : PtpSt) (a : Attr),
      s.hw.takes (ETH_PTPI_CFG 0 i) a = true →
      h = s.hw.answer 0 →
      g = h.storeReg (ETH_PTPI_CFG 0 i) v.toNat →
      x = { g.ptp i with time := g.ptpTime i, at_ := g.now, good := 0, seen := false, sentAt := none } →
      fld v.toNat 31 31 = 1 →
      fld v.toNat 23 16 ≤ 127 →
      (fld v.toNat 15 8 = 0 ∨ 0xF9 ≤ fld v.toNat 15 8) →
      (fld v.toNat 7 0 ≤ 3 ∨ 0xFD ≤ fld v.toNat 7 0) →
      ((h.ptpPorts i 2).length = 1 ∧ fld v.toNat 30 30 = 0 ∨ h.ptpPorts i 2 = [] ∧ fld v.toNat 30 30 = 1) →
      h.ptpOn i = false →
      exec (.ptpInstanceEnable i v a) s = .next (s.withHw (((g.setPtp i x).put (ETH_PTPI_STAT 0 i) 29 24 ((h.ptpPorts i 2).headD 0x3F)).putBit (ETH_PTPI_STAT 0 i) 31 false))) ∧
  -- syncRx
  (∀ (s : State) (h : Hw) (i : Fin 4) (offset : Int) (time corr : Nat) (p : Nat) (g : Hw),
      h = s.hw →
      p = h.get (ETH_PTPI_STAT 0 i) 29 24 →
      (g = (h.ethCount p 14).setPtp i { h.ptp i with time := time, at_ := h.now, corr := corr, good := if offset.natAbs ≤ 100 then min 8 ((h.ptp i).good + 1) else 0, seen := true }) →
      h.ptpOn i = true →
      p ≠ 0x3F →
      h.bit (ETH_PHY_STAT p) 31 = true →
      h.asCapable p = true →
      exec (.syncRx i offset time corr) s = .next (s.withHw (((g.wr (ETH_PTPI_OFS 0 i) (unsgn 32 (max (-(2 ^ 31)) (min (2 ^ 31 - 1) offset)))).incF (ETH_PTPI_STAT 0 i) 15 0).putBit (ETH_PTPI_STAT 0 i) 31 true))) ∧
  -- syncInterval
  (∀ (s : State) (h : Hw) (i : Fin 4) (ratio : Ratio) (g : Hw),
      h = s.hw →
      g = h.setPtp i { h.ptp i with sentAt := some h.now, good := min 8 ((h.ptp i).good + 1) } →
      h.ptpOn i = true →
      h.bit (ETH_PTPI_CFG 0 i) 30 = true →
      ((h.ptp i).sentAt.any (fun t => decide (h.now < t + h.syncCycles i)) = false) →
      exec (.syncInterval i ratio) s = .next (s.withHw (((g.wr (ETH_PTPI_OFS 0 i) 0).putBit (ETH_PTPI_STAT 0 i) 31 true).syncAll i (g.ptpTime i) 0 ratio))) ∧
  -- syncInterval_relay
  (∀ (s : State) (h : Hw) (i : Fin 4) (ratio : Ratio) (x : PtpSt) (g : Hw) (d : Nat) (stay : Nat),
      h = s.hw →
      x = h.ptp i →
      g = h.setPtp i { x with seen := false } →
      d = g.linkDelay (g.get (ETH_PTPI_STAT 0 i) 29 24) →
      stay = (g.now - x.at_) * 5 / 6 →
      h.ptpOn i = true →
      h.bit (ETH_PTPI_CFG 0 i) 30 = false →
      x.seen = true →
      stay ≤ 1_000_000 →
      exec (.syncInterval i ratio) s = .next (s.withHw (g.syncAll i (x.time - d - x.corr / 2 ^ 16) (x.corr + (stay + d) * ratio.num * 2 ^ 16 / max 1 ratio.den) ratio))) ∧
  -- syncReceiptTimeout
  (∀ (s : State) (h : Hw) (i : Fin 4),
      h = s.hw →
      h.ptpOn i = true →
      h.syncLate i = true →
      exec (.syncReceiptTimeout i) s = .next (s.withHw (((h.setPtp i { h.ptp i with good := 0, seen := false }).putBit (ETH_PTPI_STAT 0 i) 31 false).ptpLost i))) ∧
  -- pdelayExchange
  (∀ (s : State) (h : Hw) (p : Fin 36) (delay : Nat),
      h = s.hw →
      h.bit (ETH_PHY_STAT p) 31 = true →
      h.bit (ETH_PTP p) 12 = false →
      exec (.pdelayExchange p delay) s = .next (s.withHw (h.setPort p { h.port p with pdelay := delay, pdelayGood := if delay < 800 then min 2 ((h.port p).pdelayGood + 1) else 0 }))) ∧
  -- tc10SleepRequest
  (∀ (s : State) (h : Hw) (p : Fin 36),
      h = s.hw →
      h.tc10In p 0 = true →
      h.sleepPermitted p = true →
      exec (.tc10SleepRequest p) s = .next (s.withHw (h.askSleep p))) ∧
  -- tc10SleepNak
  (∀ (s : State) (h : Hw) (p : Fin 36),
      h = s.hw →
      h.tc10In p 1 = true →
      h.sleepWaits p = false →
      exec (.tc10SleepNak p) s = .next (s.withHw ((h.put (ETH_TC10 p) 2 0 0).raise (pgETH p) 6))) ∧
  -- tc10PartnerSleep
  (∀ (s : State) (h : Hw) (p : Fin 36),
      h = s.hw →
      (h.tc10In p 0 = true ∨ h.tc10In p 1 = true) →
      exec (.tc10PartnerSleep p) s = .next (s.withHw (if h.sleepPermitted p then ((h.put (ETH_TC10 p) 2 0 2).calls p 3).linkDown p else h.calls p 4))) ∧
  -- tc10SleepAck
  (∀ (s : State) (h : Hw) (p : Fin 36),
      h = s.hw →
      h.tc10In p 1 = true →
      h.sleepWaits p = true →
      exec (.tc10SleepAck p) s = .next (s.withHw ((h.put (ETH_TC10 p) 2 0 2).linkDown p))) ∧
  -- tc10Wake
  (∀ (s : State) (h : Hw) (p : Fin 36) (w fwd : Nat) (g : Hw) (r : Hw),
      h = s.hw →
      (g = if fld w 2 0 = 1 then h.put (ETH_TC10 p) 2 0 0 else if fld w 2 0 = 2 then h.put (ETH_TC10 p) 2 0 3 else h) →
      r = (g.raise (pgETH p) 5).nmWake 4 ((g.raise (pgETH p) 5).chOfTc10 p) p →
      4 ≤ p.val →
      p.val < 28 →
      h.live (pgETH p) = true →
      w = h.rd (ETH_TC10 p) →
      fwd = h.rd (ETH_TC10_FWD p) →
      fld w 31 31 ≠ 0 →
      exec (.tc10Wake p) s = .next (s.withHw (if fld w 30 30 = 1 then each 24 (fun i (h : Hw) => if fld fwd i i = 1 then h.wakeLink (i + 4) else h) r else r))) ∧
  -- tc10Wake_off
  (∀ (s : State) (h : Hw) (p : Fin 36) (w fwd : Nat) (r : Hw),
      h = s.hw →
      r = h.nmWake 4 (h.chOfTc10 p) p →
      4 ≤ p.val →
      p.val < 28 →
      h.live (pgETH p) = false →
      find? h.nmu.tc10 p.val = some (w, fwd) →
      fld w 31 31 ≠ 0 →
      exec (.tc10Wake p) s = .next (s.withHw (if fld w 30 30 = 1 then each 24 (fun i (h : Hw) => if fld fwd i i = 1 then h.wakeLink (i + 4) else h) r else r))) ∧
  -- verifyResponseRx
  (∀ (s : State) (h : Hw) (p : Fin 36),
      h = s.hw →
      p.val < 12 →
      h.get (ETH_PMAC p) 10 8 = 1 →
      exec (.verifyResponseRx p) s = .next (s.withHw (h.put (ETH_PMAC p) 10 8 2))) ∧
  -- ethCntClr
  (∀ (s : State) (h : Hw) (p : Fin 36) (v : Word) (a : Attr),
      s.hw.takes (ETH_CNT_CLR p) a = true →
      h = s.hw.answer 0 →
      h.ethRefuses p 0x17C v.toNat = none →
      exec (.ethCntClr p v a) s = .next (s.withHw ({ h with sw := { h.sw with eth := h.sw.eth.set (p * 32 + fld v.toNat 4 0) 0 } })))

/-- The commands of the CAN controllers and the LIN channels complete with their effect.
Derived from R364, R372, R378, R379, R380, R382, R388, R393, R400, R403, R405, R406 of the spec. A frame on the bus of
a controller that takes part is counted, matched and stored; a trigger makes a transmit object pending; a ready MAC is
noted; the object offered goes on the bus, with the measured loop delay reported where a fast data phase asks for it,
or loses; an acknowledged frame is counted and its object freed; an error moves the counters; recessive bits end a
wait or count toward recovery; recovery starts on request; an aged object is dropped; a controller is disabled and
enabled; an object word is stored; a LIN entry's frame starts and its response ends with the outcome shown. The rest
of the module is unchanged. -/
def Obligations.CanAndLinCommandsComplete : Prop :=
  -- canFrameEnd
  (∀ (s : State) (h : Hw) (n : Fin 16) (f : CanFrame) (k : Hw) (g : Hw),
      h = s.hw →
      k = h.canLapse n →
      g = ((k.recDown n).notAlone n).canCount n 1 →
      k.canOn n = true →
      (k.can n).ignore = false →
      (f.fmt : Nat) ≤ k.get (CAN_CFG n) 31 30 →
      exec (.canFrameEnd n f) s = .next (s.withHw ((if f.rtr then g.canCount n 13
        else Hw.tunnelTake (match g.rxObject n f with
          | none => g
          | some o => g.rxMatched n o f) n f false).canStopNow n))) ∧
  -- frameStore
  (∀ (s : State) (h : Hw) (n : Fin 16) (r : RxFrame) (rs : List RxFrame) (g : Hw) (x : Hw) (y : Hw),
      h = s.hw →
      g = (h.setCan n { h.can n with rx := rs }).setObjData n r.obj r.frame.data ((h.setCan n { h.can n with rx := rs }).objCap n r.obj) →
      x = ((((((g.put (CAN_OBJ n r.obj 1) 31 30 r.frame.fmt.val).putBit (CAN_OBJ n r.obj 1) 29 r.frame.brs).put (CAN_OBJ n r.obj 1) 10 0 r.frame.dlc.toNat).put (CAN_OBJ n r.obj 3) 23 16 r.frame.sdt.toNat).put (CAN_OBJ n r.obj 3) 15 8 r.frame.vcid.toNat).putBit (CAN_OBJ n r.obj 3) 0 r.frame.sec) →
      (y = (((x.wr (CAN_OBJ n r.obj 4) r.frame.af.toNat).wr (CAN_OBJ n r.obj 7) r.ts).wr (CAN_OBJ n r.obj 8) ((if r.frame.ide then 2 ^ 29 else 0) + r.frame.id.toNat))) →
      (h.can n).rx = r :: rs →
      r.fv = none →
      exec (.frameStore n) s = .next (s.withHw (if y.bit (CAN_OBJ n r.obj 6) 30
      then (((((y.incF (CAN_OBJ n r.obj 6) 15 0).objFlag n r.obj 30).canCount n 2).objFlag n r.obj 29).canCount n 11).raise (pgCAN n) 5
      else ((y.incF (CAN_OBJ n r.obj 6) 15 0).objFlag n r.obj 30).canCount n 2))) ∧
  -- canTx
  (∀ (s : State) (h : Hw) (n : Nat) (o : Nat) (c : CueRef) (v : Nat),
      s.hw.cueActs c 0x20 v = true →
      h = s.hw.cueFired c.idx →
      n = fld (cueArg (h.cueOf c)) 11 8 →
      o = fld (cueArg (h.cueOf c)) 6 0 →
      h.objValid n o = true →
      h.objTx n o = true →
      h.bit (CAN_OBJ n o 6) 22 = false →
      h.objPending n o = false →
      exec (.canTx c) s = .next (s.withHw (h.makePending n o))) ∧
  -- canTxreq
  (∀ (s : State) (h : Hw) (n : Fin 16) (v : Word) (o : Nat) (a : Attr),
      s.hw.takes (CAN_TXREQ n) a = true →
      h = s.hw.answer 0 →
      o = fld v.toNat 6 0 →
      h.objValid n o = true →
      h.objTx n o = true →
      h.bit (CAN_OBJ n o 6) 22 = false →
      h.objPending n o = false →
      exec (.canTxreq n v a) s = .next (s.withHw (h.makePending n o))) ∧
  -- macReady
  (∀ (s : State) (h : Hw) (n : Fin 16) (o : Fin 128),
      h = s.hw →
      h.objPending n o = true →
      h.objAuth n o = true →
      (h.can n).ready.contains o.val = false →
      exec (.macReady n o) s = .next (s.withHw (h.setCan n { h.can n with ready := (h.can n).ready ++ [o.val] }))) ∧
  -- arbitrationStart
  (∀ (s : State) (h : Hw) (n : Fin 16) (won : Bool) (o : Nat) (g : Hw),
      h = s.hw →
      (g = ((List.range 128).filter (fun o => h.objPending n o && h.objAuth n o && !h.objKeyOk n o)).foldl (fun (h : Hw) o => h.objRevoked n o) h) →
      h.canOn n = true →
      h.bit (CTRL (pgCAN n)) 0 = true →
      h.canFrozen n = false →
      (h.can n).tx = none →
      g.offered n = some o →
      exec (.arbitrationStart n won) s = .next (s.withHw (if won then ((g.setCan n { g.can n with tx := some (o, g.objFrame n o), again := false }).objFlag n o 22).loopDelay n (g.objFrame n o) else g.canCount n 8))) ∧
  -- txOk
  (∀ (s : State) (h : Hw) (n : Fin 16) (o : Nat) (f : CanFrame) (k : Hw) (r : Hw) (g : Hw) (x : Hw) (y : Hw),
      h = s.hw →
      k = h.canLapse n →
      r = (k.offBus n).unpend n o →
      g = r.wr (CAN_OBJ n o 7) (r.tick32 (r.get (CAN_CFG n) 25 24)) →
      x = ((g.canCount n 0).tecDown n).notAlone n →
      y = x.setCan n { x.can n with again := false } →
      (k.can n).tx = some (o, f) →
      exec (.txOk n) s = .next (s.withHw (((if y.objAuth n o && !y.objKeyOk n o then (y.objFlag n o 24).raise (pgCAN n) 7
        else if (k.can n).again then y.makePending n o else y).tunnelTake n f true).canStopNow n))) ∧
  -- errorDetected
  (∀ (s : State) (h : Hw) (n : Fin 16) (sending : Bool) (e : CanHap) (k : Hw),
      h = s.hw →
      k = h.canLapse n →
      k.bit (STATUS (pgCAN n)) 0 = true →
      k.get (CAN_ERR n) 31 30 ≠ 2 →
      exec (.errorDetected n sending e) s = .next (s.withHw (match e with
      | .found err waived xlData => k.errFound n sending err.val waived xlData
      | .pex => k.canPex n sending
      | .firstDominant => if sending then k else (k.errUp n false 8).canState n
      | .inFlag => (k.errUp n sending 8).canState n
      | .dominant14 => (k.errUp n sending 8).canState n
      | .dominant8 => (k.errUp n sending 8).canState n
      | .furtherDominant8 => (k.errUp n sending 8).canState n))) ∧
  -- recessiveSequence
  (∀ (s : State) (h : Hw) (n : Fin 16),
      h = s.hw →
      h.bit (CTRL (pgCAN n)) 0 = true →
      h.get (CAN_ERR n) 31 30 ≠ 2 →
      exec (.recessiveSequence n) s = .next (s.withHw ((h.setCan n { h.can n with waiting := false }).putBit (STATUS (pgCAN n)) 0 true))) ∧
  -- canRecov
  (∀ (s : State) (h : Hw) (n : Fin 16) (v : Word) (a : Attr),
      s.hw.takes (CAN_RECOV n) a = true →
      h = s.hw.answer 0 →
      fld v.toNat 31 31 = 1 →
      h.get (CAN_ERR n) 31 30 = 2 →
      (h.can n).counting = false →
      h.bit (CTRL (pgCAN n)) 0 = true →
      exec (.canRecov n v a) s = .next (s.withHw (((h.setCan n { h.can n with counting := true }).put (CAN_RECOV n) 7 0 0).putBit (CAN_RECOV n) 31 true))) ∧
  -- ageDrop
  (∀ (s : State) (h : Hw) (n : Fin 16) (o : Fin 128),
      h = s.hw →
      h.objPending n o = true →
      h.get (CAN_OBJ n o 2) 15 0 ≠ 0 →
      (find? (h.can n).pendAt o).getD 0 + 1_200_000 * h.get (CAN_OBJ n o 2) 15 0 ≤ h.now →
      exec (.ageDrop n o) s = .next (s.withHw (if h.bit (CAN_OBJ n o 6) 22 then h.setCan n { h.can n with aged := (h.can n).aged ++ [o.val] } else h.ageDrop n o))) ∧
  -- canDisable
  (∀ (s : State) (h : Hw) (n : Fin 16) (v : Word) (busy : Bool) (k : Hw) (g : Hw) (go : Bool) (x : Hw) (a : Attr),
      s.hw.takes (CTRL (pgCAN n)) a = true →
      h = s.hw.answer 0 →
      k = h.canLapse n →
      g = ((k.putBit (CTRL (pgCAN n)) 0 false).put (CAN_RECOV n) 7 0 0).putBit (CAN_RECOV n) 31 false →
      go = ((g.can n).tx.isSome || (busy && g.bit (STATUS (pgCAN n)) 0)) →
      x = g.setCan n { g.can n with counting := false, waiting := false, stopping := go, stopBy := g.now + 256 * (15 * (bitTiming true (g.rd (CAN_NBT n))).1 / 2) } →
      fld v.toNat 0 0 = 0 →
      k.bit (CTRL (pgCAN n)) 0 = true →
      exec (.canDisable n v busy a) s = .next (s.withHw (if go then x else x.putBit (STATUS (pgCAN n)) 0 false))) ∧
  -- canEnable
  (∀ (s : State) (h : Hw) (n : Fin 16) (v : Word) (k : Hw) (a : Attr),
      s.hw.takes (CTRL (pgCAN n)) a = true →
      h = s.hw.answer 0 →
      k = h.canLapse n →
      fld v.toNat 0 0 = 1 →
      k.bit (CTRL (pgCAN n)) 0 = false →
      ((List.range 128).any (fun o => k.objValid n o && decide (k.get (CAN_CFG n) 31 30 < k.objFmt n o)) = false) →
      exec (.canEnable n v a) s = .next (s.withHw (((k.setCan n { k.can n with waiting := !decide (k.get (CAN_ERR n) 31 30 = 2), stopping := false, counting := decide (k.get (CAN_ERR n) 31 30 = 2) && k.bit (CAN_CFG n) 29 }).put (CAN_RECOV n) 7 0 0).putBit (CTRL (pgCAN n)) 0 true))) ∧
  -- canObjectWrite
  (∀ (s : State) (h : Hw) (n : Fin 16) (o : Fin 128) (w : Fin 16) (v : Word) (g : Hw) (a : Attr),
      s.hw.takes (CAN_OBJ n o w) a = true →
      h = s.hw.answer 0 →
      g = (h.storeReg (CAN_OBJ n o w) v.toNat).objTrim n o →
      (w.val ≤ 5 → h.objPending n o = false ∧ h.objMapped n o = false) →
      (w.val = 0 ∨ w.val = 1 ∨ w.val = 5 → g.objBad n o = false) →
      (w.val = 1 ∨ w.val = 3 → g.objAuth n o = true → g.objKeyOk n o = true) →
      exec (.canObjectWrite n o w v a) s = .next (s.withHw (g))) ∧
  -- canCntClr
  (∀ (s : State) (h : Hw) (n : Fin 16) (v : Word) (a : Attr),
      s.hw.takes (CAN_CNT_CLR n) a = true →
      h = s.hw.answer 0 →
      exec (.canCntClr n v a) s = .next (s.withHw (h.setCan n { h.can n with cnt := (h.can n).cnt.set (fld v.toNat 4 0) 0 }))) ∧
  -- linSlot
  (∀ (s : State) (h : Hw) (l : Nat) (e : Nat) (c : CueRef) (v : Nat),
      s.hw.cueActs c 0x28 v = true →
      h = s.hw.cueFired c.idx →
      l = fld (cueArg (h.cueOf c)) 10 8 →
      e = fld (cueArg (h.cueOf c)) 7 0 →
      h.bit (CTRL (pgLIN l)) 0 = true →
      h.bit (LIN_CFG l) 31 = true →
      h.bit (LIN_SCH l e) 31 = true →
      h.nmu.linAsleep.contains l = false →
      (h.linFrame l).isSome = false →
      exec (.linSlot c) s = .next (s.withHw ((h.linStart l (h.linEntry l (LIN_SCH l e) (h.get (LIN_CFG l) 28 24 + 21))).put (LIN_STAT l) 7 0 e))) ∧
  -- linHeaderRx
  (∀ (s : State) (h : Hw) (l : Fin 8) (fid : Fin 64) (f : Nat),
      h = s.hw →
      h.bit (CTRL (pgLIN l)) 0 = true →
      h.bit (LIN_CFG l) 31 = false →
      ((List.range 64).find? (fun f => h.bit (LIN_RSP l f) 31 && decide (h.get (LIN_RSP l f) 5 0 = fid.val)) = some f) →
      exec (.linHeaderRx l fid) s = .next (s.withHw (h.linStart l (h.linEntry l (LIN_RSP l f) 0)))) ∧
  -- linResponseEnd
  (∀ (s : State) (h : Hw) (l : Fin 8) (r : LinSeen) (f : LinFrame) (d : List Byte) (g : Hw) (x : Hw) (y : Hw),
      h = s.hw →
      d = r.bytes.take f.len →
      (g = (h.linEnd l).linStatus l f (if (h.linEnd l).bit (LIN_BUF_ST l f.buf) 31 then 8 else 0)) →
      x = (g.wr (LIN_BUF_DLO l f.buf) (leNat (slice d 0 4))).wr (LIN_BUF_DHI l f.buf) (leNat (slice d 4 4)) →
      y = { x with zone := { x.zone with linRx := x.zone.linRx.set (64 * l + f.buf) f.fid } } →
      h.linFrame l = some f →
      r.readBack = false →
      f.pub = false →
      r.bytes ≠ [] →
      r.framing = false →
      r.bytes.length = f.len + 1 →
      (r.bytes.getD f.len 0).toNat = linChecksum f.enh f.fid d →
      exec (.linResponseEnd l r) s = .next (s.withHw ((y.incF (LIN_BUF_ST l f.buf) 15 0).putBit (LIN_BUF_ST l f.buf) 31 true)))

/-- The commands of the remote stations and the tunnel complete with their effect.
Derived from R411, R416, R420, R421, R424, R427, R428, R436, R438, R440, R441 of the spec. A sheaf from an enabled
station's address is taken; a CAN segment in order goes on or completes its sheaf; polls and sends go out on their
cues, a free sheaf at once, segments one by one; a station enters service; the tunnel sends a frame under assembly,
takes an NTSCF frame's messages on their routes and releases an object at its presentation time; counters named are
cleared. The rest of the module is unchanged. -/
def Obligations.RemoteStationAndTunnelCommandsComplete : Prop :=
  -- sheafRx
  (∀ (s : State) (h : Hw) (dst src : BitVec 48) (b : List Byte) (n : Nat),
      h = s.hw →
      n = (b.getD 1 0).toNat →
      h.bit (CTRL pgRIO) 0 = true →
      h.stnEn n = true →
      h.stnCan n = false →
      dst.toNat = 2 ^ 32 * h.get RIO_MAC_HI 15 0 + h.rd RIO_MAC_LO →
      (h.bit (RIO_STN n 0) 27 = true → src.toNat = 2 ^ 32 * h.get (RIO_STN n 3) 15 0 + h.rd (RIO_STN n 2)) →
      exec (.sheafRx ⟨dst, src⟩ b) s = .next (s.withHw (h.takeSheaf n b))) ∧
  -- segmentRx
  (∀ (s : State) (h : Hw) (n : Fin 256) (k o : Nat) (d : List Byte) (g : Hw),
      h = s.hw →
      g = (h.putBit (CAN_OBJ k o 6) 30 false).putBit (CAN_OBJ k o 6) 29 false →
      k = h.get (RIO_STN n 4) 27 24 →
      o = h.get (RIO_STN n 4) 14 8 →
      d = slice (h.objData k o) 0 (canLen (h.objFmt k o) (h.objDlc k o)) →
      h.bit (CTRL pgRIO) 0 = true →
      h.stnEn n = true →
      h.stnCan n = true →
      h.bit (CAN_OBJ k o 6) 30 = true →
      h.bit (CAN_OBJ k o 6) 29 = false →
      fld (d.getD 0 0).toNat 7 7 = 1 →
      exec (.segmentRx n) s = .next (s.withHw (if fld (d.getD 0 0).toNat 6 6 = 1 then (g.setStn n { g.stn n with part := none }).takeSheaf n (d.drop 1)
      else g.setStn n { g.stn n with part := some ((fld (d.getD 0 0).toNat 5 0 + 1) % 64, d.drop 1) }))) ∧
  -- rioPoll
  (∀ (s : State) (h : Hw) (n : Nat) (c : CueRef) (v : Nat),
      s.hw.cueActs c 0x30 v = true →
      h = s.hw.cueFired c.idx →
      n = fld (cueArg (h.cueOf c)) 7 0 →
      h.bit (CTRL pgRIO) 0 = true →
      h.stnEn n = true →
      h.bit (RIO_STN n 0) 29 = true →
      exec (.rioPoll c) s = .next (s.withHw ((h.rioCount n 10).stnSend n (sheafBytes 3 n [] 0 (h.get (RIO_ST n 0) 15 0) 0 0)))) ∧
  -- rioSend
  (∀ (s : State) (h : Hw) (n : Nat) (c : CueRef) (v : Nat),
      s.hw.cueActs c 0x31 v = true →
      h = s.hw.cueFired c.idx →
      n = fld (cueArg (h.cueOf c)) 7 0 →
      h.bit (CTRL pgRIO) 0 = true →
      h.stnEn n = true →
      h.bit (RIO_STN n 0) 28 = true →
      h.stnState n = 2 →
      exec (.rioSend c) s = .next (s.withHw (match (h.stn n).out with
        | some o => h.sendOut n o
        | none => h.sendHeartbeat n))) ∧
  -- sheafSend
  (∀ (s : State) (h : Hw) (n : Fin 256) (o : OutSheaf),
      h = s.hw →
      (h.stn n).out = some o →
      h.bit (RIO_STN n 0) 28 = false →
      h.stnEn n = true →
      h.bit (CTRL pgRIO) 0 = true →
      exec (.sheafSend n) s = .next (s.withHw (h.sendOut n o))) ∧
  -- segmentSend
  (∀ (s : State) (h : Hw) (n : Fin 256),
      h = s.hw →
      h.stnCan n = true →
      exec (.segmentSend n) s = .next (s.withHw (h.segSend n))) ∧
  -- stationEnable
  (∀ (s : State) (h : Hw) (n : Fin 256) (v : Word) (g : Hw) (a : Attr),
      s.hw.takes (RIO_STN n 0) a = true →
      h = s.hw.answer 0 →
      g = h.storeReg (RIO_STN n 0) v.toNat →
      h.rioRefuses n 0 v.toNat = none →
      h.stnEn n = false →
      g.stnEn n = true →
      exec (.stationEnable n v a) s = .next (s.withHw (((g.setStn n { g.stn n with heard := false }).setStnState n 1).put (RIO_ST n 0) 23 16 0))) ∧
  -- rioCntClr
  (∀ (s : State) (h : Hw) (v : Word) (a : Attr),
      s.hw.takes (RIO_CNT_CLR) a = true →
      h = s.hw.answer 0 →
      exec (.rioCntClr v a) s = .next (s.withHw ({ h with zone := { h.zone with rioCnt := h.zone.rioCnt.set (32 * fld v.toNat 23 16 + fld v.toNat 4 0) 0 } }))) ∧
  -- tunnelSend
  (∀ (s : State) (h : Hw) (r : Fin 256),
      h = s.hw →
      (h.route r).since + 1200 * h.get (TUN_RT r 7) 23 16 ≤ h.now →
      exec (.tunnelSend r) s = .next (s.withHw (h.tunSend r))) ∧
  -- ntscfRx
  (∀ (s : State) (h : Hw) (b : List Byte) (rs : List Nat) (g : Hw),
      h = s.hw →
      (g = rs.foldl (fun (h : Hw) r => h.rtSeq r (b.getD 3 0).toNat) h) →
      (rs = (List.range 256).filter (fun r => h.rtEn r && decide (h.rtDir r = 1) && decide (h.rtStream r = beNat (slice b 4 8)))) →
      h.bit (CTRL pgTUN) 0 = true →
      (b.getD 0 0).toNat = 0x82 →
      exec (.ntscfRx b) s = .next (s.withHw ((splitMsgs 400 ((b.drop 12).take (fld (beNat (slice b 1 2)) 10 0))).foldl (fun (h : Hw) raw =>
        match readMsg raw with
        | none => h
        | some m =>
          match rs.find? (fun r => h.rtBus r == m.bus) with
          | none => (h.sat TUN_NO_ROUTE).raise pgTUN 0
          | some r => h.rtMsg r m (slice raw 2 1 ++ slice raw 4 18)) g))) ∧
  -- presentationTime
  (∀ (s : State) (h : Hw) (r : Fin 256) (o : Fin 128),
      h = s.hw →
      ((h.route r).sched.any (fun e => e.1 == o.val && (!h.tc0Timed || decide (sgn 64 (e.2 + 2 ^ 64 - h.tc0Ns % 2 ^ 64) ≤ 0))) = true) →
      exec (.presentationTime r o) s = .next (s.withHw ((h.setRoute r { h.route r with sched := (h.route r).sched.filter (fun e => e.1 != o.val) }).canTrigger (h.rtCtl r) o false))) ∧
  -- tunCntClr
  (∀ (s : State) (h : Hw) (v : Word) (a : Attr),
      s.hw.takes (TUN_CNT_CLR) a = true →
      h = s.hw.answer 0 →
      exec (.tunCntClr v a) s = .next (s.withHw ({ h with zone := { h.zone with tunCnt := h.zone.tunCnt.set (16 * fld v.toNat 23 16 + fld v.toNat 3 0) 0 } })))

/-- The commands of the network-management unit complete with their effect.
Derived from R447, R450, R451, R452, R454, R455, R458, R459, R460, R463 of the spec. A sound word 0 that enables a
channel brings it to READY; each vote bit that differs changes its vote; an NM frame credits its source and moves the
channel; a due frame is handed on; the repeat, NM, partial, wait-to-sleep and commit times move the channel on; a wake
source, a wake sequence, a wake input and a matching frame wake the channels mapped; a sleep attempt is reported once
with its eight longest sources. The rest of the module is unchanged. -/
def Obligations.NetworkManagementCommandsComplete : Prop :=
  -- nmChannelEnable
  (∀ (s : State) (h : Hw) (c : Fin 24) (v : Word) (g : Hw) (a : Attr),
      s.hw.takes (NMU_CH c 0) a = true →
      h = s.hw.answer 0 →
      g = h.storeReg (NMU_CH c 0) v.toNat →
      fld v.toNat 15 8 ≠ 0 →
      (fld v.toNat 30 30 = 1 → c.val ≤ 11) →
      (fld v.toNat 31 31 = 1 → nmOnCan c = true → h.nmObjOk c = true) →
      h.bit (NMU_CH c 0) 31 = false →
      g.bit (NMU_CH c 0) 31 = true →
      exec (.nmChannelEnable c v a) s = .next (s.withHw (g.nmEnter c nmReady))) ∧
  -- nmuVoteWrite
  (∀ (s : State) (h : Hw) (v : Word) (a : Attr),
      s.hw.takes (NMU_VOTE) a = true →
      h = s.hw.answer 0 →
      exec (.nmuVoteWrite v a) s = .next (s.withHw (each 24 (fun c (h : Hw) => if h.nmVote c = decide (fld v.toNat c c = 1) then h else h.voteChange c (decide (fld v.toNat c c = 1))) h))) ∧
  -- nmFrameRx
  (∀ (s : State) (h : Hw) (c : Fin 24) (data : List Byte) (cbv : Nat) (w : Nat) (k : Hw) (g : Hw),
      h = s.hw →
      w = h.rd (NMU_CH c 1) →
      k = h.kaCredit c (data.getD (fld w 22 20) 0).toNat cbv →
      g = k.nmRestart c (h.pnRequest c data) →
      cbv = (data.getD (fld w 18 16) 0).toNat →
      h.pdOn 17 = true →
      (h.nmState c ≠ nmOff ∧ h.nmState c ≠ nmSleep ∧ h.nmState c ≠ nmPartial) →
      (max (max (fld w 22 20 + 1) (fld w 18 16 + 1)) (if fld w 10 8 = 0 then 0 else fld w 14 12 + fld w 10 8) ≤ data.length) →
      exec (.nmFrameRx c data) s = .next (s.withHw (if h.nmState c = nmCommit then g.nmWake 9 [c.val] c
      else if fld cbv 0 0 = 1 ∧ (h.nmState c = nmAwake ∨ h.nmState c = nmReady ∨ h.nmState c = nmPrepare) then g.nmEnter c nmRepeat
      else if h.nmState c = nmPrepare then g.nmEnter c nmReady else g))) ∧
  -- nmFrameSend
  (∀ (s : State) (h : Hw) (c : Fin 24) (g : Hw),
      h = s.hw →
      g = h.setNmCh c { h.nmCh c with due := false, nmAt := h.now } →
      (h.nmCh c).due = true →
      h.pdOn 17 = true →
      (h.nmState c = nmRepeat ∨ h.nmState c = nmAwake) →
      exec (.nmFrameSend c) s = .next (s.withHw (if nmOnCan c then g.canUpdate c (g.get (NMU_CH c 1) 6 0) true 8 (h.nmData c)
      else g.hand 38 (padFrame (etherHead (2 ^ 32 * g.get NMU_DEST_HI 15 0 + g.rd NMU_DEST_LO) (2 ^ 32 * g.get RIO_MAC_HI 15 0 + g.rd RIO_MAC_LO) (some (6, g.get (NMU_CH c 2) 11 0)) (g.get NMU_ETYPE 15 0) ++ h.nmData c))))) ∧
  -- repeatTimeExpiry
  (∀ (s : State) (h : Hw) (c : Fin 24),
      h = s.hw →
      h.nmState c = nmRepeat →
      h.msSince (h.nmCh c).at_ (h.get (NMU_CH c 4) 15 0) = true →
      exec (.repeatTimeExpiry c) s = .next (s.withHw (h.nmEnter c (if h.nmVote c then nmAwake else nmReady)))) ∧
  -- nmTimeout
  (∀ (s : State) (h : Hw) (c : Fin 24),
      h = s.hw →
      h.nmState c = nmReady →
      h.msSince (h.nmCh c).nmAt (h.get (NMU_CH c 4) 31 16) = true →
      exec (.nmTimeout c) s = .next (s.withHw (h.nmEnter c nmPrepare))) ∧
  -- pnTimeout
  (∀ (s : State) (h : Hw) (c : Fin 24),
      h = s.hw →
      h.nmState c = nmReady →
      h.bit (NMU_CH c 0) 30 = true →
      h.nmVote c = false →
      h.msSince (h.nmCh c).pnAt (h.get (NMU_CH c 5) 15 0) = true →
      exec (.pnTimeout c) s = .next (s.withHw (h.nmEnter c nmPartial))) ∧
  -- waitSleepExpiry
  (∀ (s : State) (h : Hw) (c : Fin 24),
      h = s.hw →
      h.nmState c = nmPrepare →
      h.msSince (h.nmCh c).at_ (h.get (NMU_CH c 5) 31 16) = true →
      exec (.waitSleepExpiry c) s = .next (s.withHw (h.nmEnter c nmCommit))) ∧
  -- commitWindowEnd
  (∀ (s : State) (h : Hw) (c : Fin 24) (g : Hw) (ls : List Nat) (x : Hw) (y : Hw),
      h = s.hw →
      g = (h.nmEnter c nmSleep).raise pgNMU 2 →
      (ls = (List.range 8).filter (fun l => g.bit (NMU_CH c 0) l)) →
      x = { g with nmu := { g.nmu with linAsleep := ls.foldl insertLine g.nmu.linAsleep } } →
      (y = (ls.filter x.linCommander).foldl (fun (h : Hw) l => h.calls (64 + l) 0) x) →
      h.nmState c = nmCommit →
      h.msSince (h.nmCh c).at_ (h.get NMU_CFG 4 0) = true →
      exec (.commitWindowEnd c) s = .next (s.withHw (each 8 (fun i (h : Hw) => if h.bit (NMU_CH c 7) (24 + i) then h.linkDown (28 + i) else h)
        (each 24 (fun i (h : Hw) =>
          if h.bit (NMU_CH c 7) i && h.bit (ETH_TC10 (i + 4)) 31 && h.get (ETH_TC10 (i + 4)) 2 0 == 0 then h.askSleep (i + 4) else h) y)))) ∧
  -- wake
  (∀ (s : State) (h : Hw) (unit : BitVec 8),
      h = s.hw →
      unit.toNat < 8 →
      exec (.wake 6 unit) s = .next (s.withHw (h.wakeIn unit.toNat))) ∧
  -- wakeSequence
  (∀ (s : State) (h : Hw) (c : Fin 24) (code : Nat) (ls : List Nat) (g : Hw) (y : Hw) (x : Hw),
      h = s.hw →
      (ls = (List.range 8).filter (fun l => h.bit (NMU_CH c 0) l)) →
      (g = { h with nmu := { h.nmu with linAsleep := h.nmu.linAsleep.filter (fun l => !ls.contains l) } }) →
      (y = (ls.filter g.linCommander).foldl (fun (h : Hw) l => h.calls (64 + l) 1) g) →
      (x = each 24 (fun i (h : Hw) => if h.bit (NMU_CH c 7) i && h.get (ETH_TC10 (i + 4)) 2 0 == 2 then h.wakeLink (i + 4) else h) y) →
      (h.nmCh c).waking = some code →
      h.nmState c = nmSleep →
      (h.nmDomains c).all h.pdOn = true →
      exec (.wakeSequence c) s = .next (s.withHw ((x.setNmCh c { x.nmCh c with active := decide (6 ≤ code ∧ code ≤ 8) }).nmEnter c nmRepeat))) ∧
  -- wakeInput
  (∀ (s : State) (h : Hw) (n : Fin 9),
      h = s.hw →
      exec (.wakeInput n) s = .next (s.withHw (h.wakeIn n))) ∧
  -- selectiveWakeFrame
  (∀ (s : State) (h : Hw) (n : Fin 12) (f : CanFrame) (g : Hw),
      h = s.hw →
      g = { h with nmu := { h.nmu with swfErr := h.nmu.swfErr.set n (h.nmu.swfErr.get n - 1) } } →
      h.bit (NMU_SWF n 0) 31 = true →
      (h.nmState n = nmSleep ∨ h.nmState n = nmPartial) →
      f.fmt = 0 →
      exec (.selectiveWakeFrame n (some f)) s = .next (s.withHw (if g.swfMatch n f then g.nmWake 2 [n.val] n else g))) ∧
  -- keepAwake
  (∀ (s : State) (h : Hw) (c : Fin 24) (t : Attempt) (top : List KaSource) (g : Hw) (r : Hw) (x : Hw),
      h = s.hw →
      g = h.setNmCh c { h.nmCh c with attempt := some { t with reported := true } } →
      r = g.wr (NMU_KA_REP 0) (2 ^ 31 + c.val * 2 ^ 24 + min 255 t.sources.length * 2 ^ 16 + (g.get (NMU_KA_REP 0) 15 0 + 1) % 0x1_0000) →
      x = ((r.wr (NMU_KA_REP 1) t.start).wr (NMU_KA_REP 2) (min 0xFFFF_FFFF (t.other / 1_200_000))).wr (NMU_KA_REP 3) 0 →
      (top = ((t.sources.filter (fun z => !z.beyond)).foldl (fun l z => kaInsert z l) []).take 8) →
      (h.nmCh c).attempt = some t →
      t.reported = false →
      h.msSince t.at_ (1000 * h.get NMU_KA_LIMIT 15 0) = true →
      exec (.keepAwake c) s = .next (s.withHw ((each 8 (fun k (h : Hw) =>
          match top[k]? with
          | some z => (h.wr (NMU_KA_REP (4 + 2 * k)) (z.src * 2 ^ 24 + z.cbv * 2 ^ 16 + z.frames)).wr (NMU_KA_REP (5 + 2 * k)) (min 0xFFFF_FFFF (z.credit / 1_200_000))
          | none => (h.wr (NMU_KA_REP (4 + 2 * k)) 0).wr (NMU_KA_REP (5 + 2 * k)) 0) x).raise pgNMU 4)))

/-- The commands of the Span bridge complete with their effect.
Derived from R467, R469, R473, R474, R475, R483, R484, R485, R486, R488, R490, R491 of the spec. An accepted SPN_CFG
is stored, and without LINK_EN no link stays up; a trained link comes up at its speed and width with a tick in
SPN_LINK; an outbound access that its gates let in, and a flush of an enabled window, go to the bridge; a completion
or a timeout ends the open request of its tag; an inbound request does what its kind says; a link goes down; a
function-level reset, a change of the virtual functions and an MSI-X vector act on their functions; SPN_ELOG_RD is
stored; the level of SPAN_PERST_N is taken. The rest of the module is unchanged. -/
def Obligations.SpanCommandsComplete : Prop :=
  -- spanLinkEnable
  (∀ (s : State) (h : Hw) (v : Word) (g : Hw) (a : Attr),
      s.hw.takes (SPN_CFG) a = true →
      h = s.hw.answer 0 →
      g = h.storeReg SPN_CFG v.toNat →
      h.spanCfgRefuses v.toNat = none →
      exec (.spanLinkEnable v a) s = .next (s.withHw (if g.bit SPN_CFG 31 then g else g.spanDown))) ∧
  -- spanLinkUp
  (∀ (s : State) (h : Hw) (speed : Fin 4) (lanes : Fin 3) (r : Nat × Hw),
      h = s.hw →
      r = h.freeWord →
      h.spanTrains = true →
      h.bit SPN_LINK 31 = false →
      speed.val + 1 ≤ h.get SPN_CFG 26 24 →
      2 ^ lanes.val ≤ h.get SPN_CFG 18 16 →
      exec (.spanLinkUp speed lanes) s = .next (s.withHw (((((((r.2.putBit SPN_LINK 31 true).put SPN_LINK 26 24 (speed.val + 1)).put SPN_LINK 18 16 (2 ^ lanes.val)).put SPN_LINK 5 0 r.1).putBit (STATUS pgSPN) 0 true).raise pgSPN 0)))) ∧
  -- outboundAccess
  (∀ (s : State) (h : Hw) (o : BitVec 32) (n : Fin 65) (data : Option (List Byte)) (credit : Bool) (tag : Fin 64) (a : Attr) (w : Nat),
      h = s.hw →
      h.regionOk (0x01_0000_0000 + o.toNat) data.isSome a = true →
      h.live pgSPN = true →
      h.owOf o.toNat = some w →
      (a.spec = false ∨ h.bit (SPN_OW w 0) 29 = true) →
      h.spanUp = true →
      exec (.outboundAccess o n data credit tag a) s = .next (s.withHw (h.outbound (0x01_0000_0000 + o.toNat) o.toNat n data a credit tag))) ∧
  -- spnFlush
  (∀ (s : State) (h : Hw) (w : Fin 16) (credit : Bool) (tag : Fin 64) (a : Attr),
      s.hw.takes (SPN_FLUSH w) a = true →
      h = s.hw.answer 0 →
      h.owEn w = true →
      h.owOf (h.owLocal w) = some w.val →
      (a.spec = false ∨ h.bit (SPN_OW w 0) 29 = true) →
      h.spanUp = true →
      exec (.spnFlush w credit tag a) s = .next (s.withHw (h.outbound (0x01_0000_0000 + h.owLocal w) (h.owLocal w) 0 (some []) a credit tag))) ∧
  -- completionRx
  (∀ (s : State) (h : Hw) (tag : Fin 256) (c : SpanCpl) (credit : Bool) (x : SpanOpen) (g : Hw),
      h = s.hw →
      g = ({ h with span := { h.span with open_ := h.span.open_.erase x } } : Hw).spanSync →
      (h.span.open_.find? (fun x => x.tag == tag.val) = some x) →
      h.cplLate x = false →
      exec (.completionRx tag c credit) s = .next (s.withHw (Hw.spanPump (match c with
        | .success d => g.spanAnswer x.user false (slice d 0 x.user.len)
        | .unsupported => g.spanFails x 0x0110
        | .abort => g.spanFails x 0x0111
        | .poisoned => (g.spanFails x 0x0114).spanReport) credit x.tag))) ∧
  -- completionTimeout
  (∀ (s : State) (h : Hw) (tag : Fin 64) (credit : Bool) (x : SpanOpen),
      h = s.hw →
      (h.span.open_.find? (fun x => x.tag == tag.val) = some x) →
      h.cplLate x = true →
      exec (.completionTimeout tag credit) s = .next (s.withHw (((({ h with span := { h.span with open_ := h.span.open_.erase x } } : Hw).spanSync).cplTimeout x).spanPump credit x.tag))) ∧
  -- inboundRequest
  (∀ (s : State) (h : Hw) (q : SpanIn) (base : BitVec 64) (rid : BitVec 16) (tag : BitVec 8),
      h = s.hw →
      h.spanUp = true →
      exec (.inboundRequest q base rid tag) s = .next (s.withHw (match q with
      | .read bar addr n => h.inRead bar addr.toNat n base.toNat rid.toNat tag.toNat
      | .write bar addr d => h.inWrite bar addr.toNat d base.toNat rid.toNat
      | .vfRead v addr =>
        if h.vfTakes v then h.inCompletion tag.toNat (v + 1) 0 (leBytes 4 (h.vfWord v (addr.toNat / 4 * 4)))
        else h.vfRefused true tag.toNat (v + 1)
      | .vfWrite v addr x far =>
        if h.vfTakes v then h.vfStore v (addr.toNat / 4 * 4) x.toNat far
        else h.vfRefused false tag.toNat (v + 1)
      | .msix vec w x =>
        if h.spanRoot then h.inRefused 0x1F false base.toNat rid.toNat 0 0 else h.msixWrite 0 vec (4 * w.val) x.toNat
      | .poisoned write addr =>
        let g := (h.spanLog true 0x1F 1 0x0117 (base.toNat + addr.toNat) rid.toNat (if write then 0 else tag.toNat)).spanReport
        if write then g else g.inCompletion tag.toNat 0 1 []
      | .message => if h.spanRoot then h.spanLog true 0x1F 1 0x0118 0 rid.toNat 0 else h))) ∧
  -- spanLinkDown
  (∀ (s : State) (h : Hw),
      h = s.hw →
      h.bit SPN_LINK 31 = true →
      exec (.spanLinkDown) s = .next (s.withHw (h.spanDown))) ∧
  -- flr
  (∀ (s : State) (h : Hw) (v : Fin 256),
      h = s.hw →
      h.live pgSPN = true →
      h.spanRoot = false →
      h.bit SPN_VF 31 = true →
      v.val < h.get SPN_VF 24 16 →
      exec (.flr v) s = .next (s.withHw (h.spanFlr v))) ∧
  -- vfChange
  (∀ (s : State) (h : Hw) (en : Bool) (num : Fin 257) (g : Hw),
      h = s.hw →
      g = (h.putBit SPN_VF 31 en).put SPN_VF 24 16 num.val →
      h.live pgSPN = true →
      h.spanRoot = false →
      exec (.vfChange en num) s = .next (s.withHw ((if h.bit SPN_VF 31 && !en then each (h.get SPN_VF 24 16) (fun v h => h.spanFlr v) g else g).raiseIf (h.bit SPN_VF 31 != en || h.get SPN_VF 24 16 != num.val) pgSPN 7))) ∧
  -- msixSend
  (∀ (s : State) (h : Hw) (v : Fin 32) (e : Nat),
      h = s.hw →
      e = h.get (SPN_MSIX v) 10 0 →
      h.live pgSPN = true →
      h.spanRoot = false →
      h.bit (SPN_MSIX v) 31 = true →
      h.seesEdge 0 v e = true →
      h.lineSecure e = false →
      exec (.msixSend v) s = .next (s.withHw (({ h with took := (0, v.val) :: h.took } : Hw).msixFire 0 v))) ∧
  -- spnElogRdWrite
  (∀ (s : State) (h : Hw) (v : Word) (a : Attr),
      s.hw.takes (SPN_ELOG_RD) a = true →
      h = s.hw.answer 0 →
      exec (.spnElogRdWrite v a) s = .next (s.withHw (h.storeReg SPN_ELOG_RD v.toNat))) ∧
  -- spanPerstNChange
  (∀ (s : State) (h : Hw) (level : Bool) (g : Hw),
      h = s.hw →
      g = { h with span := { h.span with perst := level } } →
      exec (.spanPerstNChange level) s = .next (s.withHw (if level || g.spanRoot then g else g.spanDown)))

/-- The commands of the memory controllers, the Reeve, the translation unit and the engine memories complete with their effect.
Derived from R117, R497, R498, R502, R503, R505, R507, R513, R529, R543 of the spec. An epoch's end plans moves; a
unit's move copies its 64 KiB and ends in the frame map; T0_POOL takes a size that exists; a scrub pass counts and
reports; counter clears clear the counters named, of the memory controllers and of the engine memories; an
invalidation drops the translations in scope and its end shows; a change of the refresh rate is shown. The rest of the
module is unchanged. -/
def Obligations.MemoryCommandsComplete : Prop :=
  -- epochEnd
  (∀ (s : State) (h : Hw) (heat : List (Fin 512 × Nat)) (samples : List (BitVec 18 × Nat)) (util : Fin 101) (k : Hw) (g : Hw),
      h = s.hw →
      k = { h with mem := { h.mem with epochAt := h.now } } →
      (g = k.epochPlan (heat.map (fun x => (x.1.val, x.2))) (samples.map (fun x => (x.1.toNat, x.2))) util) →
      h.epochOver = true →
      exec (.epochEnd heat samples util) s = .next (s.withHw ((if g.live pgVPT then g.vpShares.serveShares else g).rveSync))) ∧
  -- unitMove
  (∀ (s : State) (h : Hw) (frame : Fin 512) (m : Move) (x : MemSt),
      h = s.hw →
      x = { h.mem with t0 := h.mem.t0.splice (frame.val * 0x1_0000) 0x1_0000 h.mem.t1 (m.unit * 0x1_0000), frames := file h.mem.frames frame.val m.unit } →
      h.live pgRVE = true →
      h.nextMove = some m →
      m.promote = true →
      h.mem.moved < h.get RVE_MIG_BW 7 0 →
      h.frameOf m.unit = none →
      h.heldInT1 m.unit = false →
      512 - h.get RVE_T0_POOL 9 0 ≤ frame.val →
      (h.mem.frames.any (fun x => x.1 == frame.val) = false) →
      exec (.unitMove frame .done) s = .next (s.withHw (((({ h with mem := x } : Hw).moveEnds m 1 inT1 frame.val).inc RVE_MOVES).rveSync.serveShares))) ∧
  -- unitMove_down
  (∀ (s : State) (h : Hw) (frame : Fin 512) (m : Move) (f : Nat) (x : MemSt),
      h = s.hw →
      x = { h.mem with t1 := h.mem.t1.splice (m.unit * 0x1_0000) 0x1_0000 h.mem.t0 (f * 0x1_0000), frames := unfile h.mem.frames f } →
      h.live pgRVE = true →
      h.nextMove = some m →
      m.promote = false →
      h.mem.moved < h.get RVE_MIG_BW 7 0 →
      h.frameOf m.unit = some f →
      h.heldInT1 m.unit = false →
      exec (.unitMove frame .done) s = .next (s.withHw (((({ h with mem := x } : Hw).moveEnds m 2 f inT1).inc RVE_MOVES).rveSync.serveShares))) ∧
  -- t0PoolWrite
  (∀ (s : State) (h : Hw) (v : Word) (a : Attr),
      s.hw.takes (RVE_T0_POOL) a = true →
      h = s.hw.answer 0 →
      fld v.toNat 9 0 ≤ 512 →
      exec (.t0PoolWrite v a) s = .next (s.withHw ((h.put RVE_T0_POOL 9 0 (fld v.toNat 9 0)).rveSync))) ∧
  -- scrub
  (∀ (s : State) (h : Hw) (ce : BitVec 16) (ue : List (BitVec 34)) (k : Hw) (g : Hw),
      h = s.hw →
      k = { h with mem := { h.mem with scrubAt := h.now } } →
      g = (({ k with hlt := { k.hlt with ce := k.hlt.ce + ce.toNat } } : Hw).sat MEMC_T1_CE ce.toNat).raiseIf (decide (ce ≠ 0)) pgMEMC 0 →
      h.live pgMEMC = true →
      h.mem.scrubAt + h.get MEMC_SCRUB 7 0 * 4_320_000_000_000 ≤ h.now →
      exec (.scrub ce ue) s = .next (s.withHw ((ue.foldl (fun (h : Hw) o => h.memcError .t1 o.toNat .uncorrectable) g).raise pgMEMC 2))) ∧
  -- memcCntClr
  (∀ (s : State) (h : Hw) (v : Word) (a : Attr),
      s.hw.takes (MEMC_CNT_CLR) a = true →
      h = s.hw.answer 0 →
      fld v.toNat 0 0 = 1 →
      fld v.toNat 1 1 = 1 →
      fld v.toNat 2 2 = 1 →
      fld v.toNat 3 3 = 1 →
      exec (.memcCntClr v a) s = .next (s.withHw ((((h.wr MEMC_T1_CE 0).wr MEMC_T1_UE 0).wr MEMC_T0_CE 0).wr MEMC_T0_UE 0))) ∧
  -- impCntClr
  (∀ (s : State) (h : Hw) (v : Word) (a : Attr),
      s.hw.takes (IMP_CNT_CLR) a = true →
      h = s.hw.answer 0 →
      fld v.toNat 0 0 = 1 →
      fld v.toNat 1 1 = 1 →
      fld v.toNat 2 2 = 1 →
      fld v.toNat 3 3 = 1 →
      fld v.toNat 4 4 = 1 →
      exec (.impCntClr v a) s = .next (s.withHw (((((h.wr IMP_RET_PEAK 0).wr IMP_DRAIN_MAX 0).wr IMP_ECC_CE 0).wr IMP_ECC_UE 0).wr IMP_BG_RESTART_CNT 0))) ∧
  -- xltInvalidate
  (∀ (s : State) (h : Hw) (v : Word) (g : Hw) (a : Attr),
      s.hw.takes (XLT_INV) a = true →
      h = s.hw.answer 0 →
      g = h.storeReg XLT_INV v.toNat →
      h.bit (STATUS pgXLT) 0 = false →
      g.bit XLT_INV 31 = true →
      exec (.xltInvalidate v a) s = .next (s.withHw (({ g with mem := { g.mem with xlat := g.mem.xlat.filter (fun x => !g.xltInScope x) } } : Hw).putBit (STATUS pgXLT) 0 true))) ∧
  -- invDone
  (∀ (s : State) (h : Hw),
      h = s.hw →
      h.bit (STATUS pgXLT) 0 = true →
      exec (.invDone) s = .next (s.withHw (((h.putBit (STATUS pgXLT) 0 false).putBit XLT_INV 31 false).raise pgXLT 1))) ∧
  -- refreshRateChange
  (∀ (s : State) (h : Hw) (m : Fin 3),
      h = s.hw →
      h.live pgMEMC = true →
      exec (.refreshRateChange m) s = .next (s.withHw ((h.wr MEMC_REFRESH (2 ^ m.val)).raiseIf (decide (h.rd MEMC_REFRESH < 2 ^ m.val)) pgMEMC 3)))

/-- The commands of the DMA complete with their effect.
Derived from R514, R515, R517, R518, R519, R521, R522, R523 of the spec. GO and a trigger start a channel of a running
controller; an event line starts the channels it triggers; a controller grants the burst of the channel picked; a
descriptor that has moved all its bytes is written back and the next one follows; a channel whose earlier bursts have
completed parks with its fault shown; RESUME and ABORT act on a parked or active channel. The rest of the module is
unchanged. -/
def Obligations.DmaCommandsComplete : Prop :=
  -- dmaGo
  (∀ (s : State) (h : Hw) (d : Fin 4) (c : Fin 32) (a : Attr),
      s.hw.takes (DMA_CTRL d c) a = true →
      h = s.hw.answer 0 →
      h.bit (CTRL (pgDMA d)) 0 = true →
      h.get (DMA_CFG d c) 21 20 = 0 →
      (h.dmaState d c = 0 ∨ h.dmaState d c = 3) →
      exec (.dmaGo d c a) s = .next (s.withHw (h.dmaStart d c))) ∧
  -- dmaTrig
  (∀ (s : State) (h : Hw) (d : Nat) (k : Nat) (c : CueRef) (v : Nat),
      s.hw.cueActs c 0x38 v = true →
      h = s.hw.cueFired c.idx →
      d = fld (cueArg (h.cueOf c)) 6 0 / 32 →
      k = fld (cueArg (h.cueOf c)) 6 0 % 32 →
      h.dmaOn d = true →
      h.get (DMA_CFG d k) 21 20 = 1 →
      h.dmaState d k ≠ 1 →
      h.dmaState d k ≠ 2 →
      exec (.dmaTrig c) s = .next (s.withHw (h.dmaStart d k))) ∧
  -- dmaEventTrigger
  (∀ (s : State) (h : Hw) (e : Fin 2048) (g : Hw),
      h = s.hw →
      g = { h with took := (1, e.val) :: h.took } →
      h.seesEdge 1 e e = true →
      exec (.dmaEventTrigger e) s = .next (s.withHw (each 128 (fun k (h : Hw) =>
        if h.dmaOn (k / 32) && decide (h.get (DMA_CFG (k / 32) (k % 32)) 21 20 = 2) && decide (h.get (DMA_CFG (k / 32) (k % 32)) 10 0 = e.val) &&
            (!h.lineSecure e || h.bit (DMA_CFG (k / 32) (k % 32)) 25) then h.dmaTrigger (k / 32) (k % 32)
        else h) g))) ∧
  -- burstGrant
  (∀ (s : State) (h : Hw) (d : Fin 4) (rds : List DmaSeen) (w : DmaSeen) (c : Nat) (ripe : Bool),
      h = s.hw →
      h.dmaOn d = true →
      h.dmaPick d = some (c, ripe) →
      exec (.burstGrant d rds w) s = .next (s.withHw ((h.dmaAges d c ripe).dmaBurst d c rds w))) ∧
  -- descriptorDone
  (∀ (s : State) (h : Hw) (d : Fin 4) (c : Fin 32) (w : DmaSeen) (ws : List Nat) (r : Option Nat × Hw),
      h = s.hw →
      r = h.dmaWrite d c (h.dmaCur d c) (leBytes 4 (setBit (ws.getD 0 0) 31 true)) w.fin →
      (h.dma d c).desc = some ws →
      (h.dma d c).fault = none →
      h.dmaOn d = true →
      h.dmaState d c = 1 →
      h.rd (DMA_DONE d c) = descLen ws →
      r.1 = none →
      exec (.descriptorDone d c w) s = .next (s.withHw (r.2.dmaNext d c ws))) ∧
  -- dmaPark
  (∀ (s : State) (h : Hw) (d : Fin 4) (c : Fin 32) (f : DmaFault),
      h = s.hw →
      (h.dma d c).fault = some f →
      h.dmaState d c = 1 →
      (h.dma d c).settled = true →
      exec (.dmaPark d c) s = .next (s.withHw ((((h.wrPair (DMA_FADDR_LO d c) (DMA_FADDR_HI d c) f.addr).wr (DMA_UNDEL d c) 0).dmaEnter d c 2 f.cause f.side).raise (pgDMA d) c))) ∧
  -- dmaResume
  (∀ (s : State) (h : Hw) (d : Fin 4) (c : Fin 32) (a : Attr),
      s.hw.takes (DMA_CTRL d c) a = true →
      h = s.hw.answer 0 →
      h.dmaState d c = 2 →
      exec (.dmaResume d c a) s = .next (s.withHw ((h.setDma d c { h.dma d c with fault := none, since := h.ns }).dmaEnter d c 1 0 0))) ∧
  -- dmaAbort
  (∀ (s : State) (h : Hw) (d : Fin 4) (c : Fin 32) (a : Attr),
      s.hw.takes (DMA_CTRL d c) a = true →
      h = s.hw.answer 0 →
      (h.dmaState d c = 1 ∨ h.dmaState d c = 2) →
      exec (.dmaAbort d c a) s = .next (s.withHw (h.freeWord.2.dmaAborted d c 6 h.freeWord.1 0)))

/-- The commands of the virtual ports complete with their effect.
Derived from R534, R536, R538, R539, R541, R542, R545, R546, R547, R548, R550, R552 of the spec. A doorbell within the
ring moves the tail, and a receive doorbell lets held frames go into the ring; a running port gathers its next frame,
and a frame that waited goes out once its bucket holds its length, and not before; a frame of a host port goes to the
ports that take it; a notification goes out; a written entry word starts a port, empties its rings or marks it as
leaving; a removed port returns to off; a faulting access stops a port with side and address; freezing, thawing,
saving, restoring and clearing counters each end with result 0 in VPT_CMD. The rest of the module is unchanged. -/
def Obligations.VirtualPortCommandsComplete : Prop :=
  -- txDoorbell
  (∀ (s : State) (h : Hw) (n : Fin 1024) (v : Word) (a : Attr),
      s.hw.takes (VPT_TXDB n) a = true →
      h = s.hw.answer 0 →
      ((v.toNat % 0x1_0000 + 0x1_0000 - h.get (VPT_TXDB n) 31 16) % 0x1_0000 ≤ (if h.vpRing n = 0 then 0 else 2 ^ h.vpRing n)) →
      exec (.txDoorbell n v a) s = .next (s.withHw (h.put (VPT_TXDB n) 15 0 v.toNat))) ∧
  -- rxDoorbell
  (∀ (s : State) (h : Hw) (n : Fin 1024) (v : Word) (far : List (Nat × Byte)) (g : Hw) (a : Attr),
      s.hw.takes (VPT_RXDB n) a = true →
      h = s.hw.answer 0 →
      g = h.put (VPT_RXDB n) 15 0 v.toNat →
      ((v.toNat % 0x1_0000 + 0x1_0000 - h.get (VPT_RXDB n) 31 16) % 0x1_0000 ≤ (if h.vpRing n = 0 then 0 else 2 ^ h.vpRing n)) →
      exec (.rxDoorbell n v far a) s = .next (s.withHw (if g.vptOn then g.vpDrain n far (g.vp n).held.length else g))) ∧
  -- vpFrameGathered
  (∀ (s : State) (h : Hw) (n : Fin 1024) (far : List (Nat × Byte)),
      h = s.hw →
      h.vptOn = true →
      (h.vp n).state = 1 →
      (h.vp n).leaving = false →
      (h.vp n).wait = none →
      exec (.vpFrameGathered n far) s = .next (s.withHw (h.vpGather n far false))) ∧
  -- txBucketHoldsLength
  (∀ (s : State) (h : Hw) (n : Fin 1024) (far : List (Nat × Byte)) (w : TxWait),
      h = s.hw →
      h.vptOn = true →
      (h.vp n).wait = some w →
      h.vpHolds n 10 (w.bytes.length + 4) = true →
      exec (.txBucketHoldsLength n far) s = .next (s.withHw (h.vpHandOn n w far))) ∧
  -- txBucketHoldsLength_early
  (∀ (s : State) (h : Hw) (n : Fin 1024) (far : List (Nat × Byte)) (w : TxWait),
      h = s.hw →
      (h.vp n).wait = some w →
      h.vpHolds n 10 (w.bytes.length + 4) = false →
      exec (.txBucketHoldsLength n far) s = .next (s.withHw (h))) ∧
  -- vpDeliver
  (∀ (s : State) (h : Hw) (host : Fin 2) (b : List Byte) (far : List (Nat × Byte)),
      h = s.hw →
      h.vptOn = true →
      h.vpTakers (36 + host) b ≠ [] →
      exec (.vpDeliver host b far) s = .next (s.withHw (h.vpDeliverAll (h.vpTakers (36 + host) b) b far))) ∧
  -- vpDeliver_nobody
  (∀ (s : State) (h : Hw) (host : Fin 2) (b : List Byte) (far : List (Nat × Byte)),
      h = s.hw →
      h.vptOn = true →
      h.vpTakers (36 + host) b = [] →
      exec (.vpDeliver host b far) s = .next (s.withHw (h.sat (VPT_NOMATCH host)))) ∧
  -- vpNotify
  (∀ (s : State) (h : Hw) (n : Fin 1024),
      h = s.hw →
      h.vptOn = true →
      h.vpRings n = true →
      exec (.vpNotify n) s = .next (s.withHw (h.vpNotify n))) ∧
  -- portEnable
  (∀ (s : State) (h : Hw) (v : Word) (n : Nat) (x : Nat) (g : Hw) (a : Attr),
      s.hw.takes (VPT_E 0) a = true →
      h = s.hw.answer 0 →
      n = h.get VPT_SEL 9 0 →
      x = v.toNat &&& 0xFF0F_03FF →
      g = { h with vpt := { h.vpt with words := h.vpt.words.set (16 * n) x } } →
      h.vpRefuses n 0 x = none →
      (h.vp n).state = 0 →
      (fld x 31 31 = 1 ∧ fld x 19 16 ≠ 0) →
      exec (.portEnable v a) s = .next (s.withHw (g.setVp n { h.vp n with state := 1, cause := 0, side := 0, share := fld (g.vpWord n 12) 31 16, txTok := ((fld (g.vpWord n 10) 15 0 * 1024 * 9600 : Nat) : Int), rxTok := ((fld (g.vpWord n 11) 15 0 * 1024 * 9600 : Nat) : Int), tokAt := h.now }))) ∧
  -- portRemoved
  (∀ (s : State) (h : Hw) (n : Fin 1024) (far : List (Nat × Byte)) (g : Hw) (x : Hw),
      h = s.hw →
      g = h.vpDiscard n →
      (x = if (g.vp n).irq then g.vpNotify n else g) →
      (h.vp n).leaving = true →
      (h.vp n).wait = none →
      exec (.portRemoved n far) s = .next (s.withHw ((x.setVp n { x.vp n with state := 0, cause := 0, side := 0, leaving := false, oldRing := none, oldTx := none, share := 0, peak := 0, wait := none }).vpEvent n 4))) ∧
  -- portRemoved_waiting
  (∀ (s : State) (h : Hw) (n : Fin 1024) (far : List (Nat × Byte)) (w : TxWait) (g : Hw) (x : Hw),
      h = s.hw →
      g = (h.vpHandOn n w far).vpDiscard n →
      (x = if (g.vp n).irq then g.vpNotify n else g) →
      (h.vp n).leaving = true →
      (h.vp n).wait = some w →
      exec (.portRemoved n far) s = .next (s.withHw ((x.setVp n { x.vp n with state := 0, cause := 0, side := 0, leaving := false, oldRing := none, oldTx := none, share := 0, peak := 0, wait := none }).vpEvent n 4))) ∧
  -- vpFault
  (∀ (s : State) (h : Hw) (n : Fin 1024) (side : Fin 4) (addr : BitVec 48) (g : Hw),
      h = s.hw →
      g = h.vpUnwait n →
      (h.vp n).state = 1 →
      exec (.vpFault n side addr) s = .next (s.withHw ((g.setVp n { g.vp n with state := 3, cause := 1, side := side, fault := addr.toNat }).vpEvent n 1))) ∧
  -- freeze
  (∀ (s : State) (h : Hw) (v : Word) (far : List (Nat × Byte)) (n : Nat) (g : Hw) (a : Attr),
      s.hw.takes (VPT_CMD) a = true →
      h = s.hw.answer 0 →
      n = fld v.toNat 9 0 →
      g = h.wr VPT_CMD (1 * 2 ^ 28 + n) →
      h.bit VPT_CMD 27 = false →
      (g.vp n).state = 1 →
      (g.vp n).leaving = false →
      (g.vp n).wait = none →
      exec (.freeze v false far a) s = .next (s.withHw (((g.setVp n { g.vp n with state := 2, cause := 0 }).vpEvent n 0).put VPT_CMD 26 24 0))) ∧
  -- freeze_gathered
  (∀ (s : State) (h : Hw) (v : Word) (far : List (Nat × Byte)) (n : Nat) (g : Hw) (x : Hw) (a : Attr),
      s.hw.takes (VPT_CMD) a = true →
      h = s.hw.answer 0 →
      n = fld v.toNat 9 0 →
      g = h.wr VPT_CMD (1 * 2 ^ 28 + n) →
      x = g.vpGather n far true →
      h.bit VPT_CMD 27 = false →
      (g.vp n).state = 1 →
      (g.vp n).leaving = false →
      (g.vp n).wait = none →
      (x.vp n).state = 1 →
      exec (.freeze v true far a) s = .next (s.withHw (((x.setVp n { x.vp n with state := 2, cause := 0 }).vpEvent n 0).put VPT_CMD 26 24 0))) ∧
  -- freeze_waiting
  (∀ (s : State) (h : Hw) (v : Word) (gathering : Bool) (far : List (Nat × Byte)) (w : TxWait) (n : Nat) (g : Hw) (x : Hw) (a : Attr),
      s.hw.takes (VPT_CMD) a = true →
      h = s.hw.answer 0 →
      n = fld v.toNat 9 0 →
      g = h.wr VPT_CMD (1 * 2 ^ 28 + n) →
      x = g.vpHandOn n w far →
      h.bit VPT_CMD 27 = false →
      (g.vp n).state = 1 →
      (g.vp n).leaving = false →
      (g.vp n).wait = some w →
      (x.vp n).state = 1 →
      exec (.freeze v gathering far a) s = .next (s.withHw (((x.setVp n { x.vp n with state := 2, cause := 0 }).vpEvent n 0).put VPT_CMD 26 24 0))) ∧
  -- thaw
  (∀ (s : State) (h : Hw) (v : Word) (far : List (Nat × Byte)) (n : Nat) (g : Hw) (x : Hw) (y : Hw) (a : Attr),
      s.hw.takes (VPT_CMD) a = true →
      h = s.hw.answer 0 →
      n = fld v.toNat 9 0 →
      g = h.wr VPT_CMD (2 * 2 ^ 28 + n) →
      x = g.setVp n { g.vp n with state := 1, cause := 0, side := 0 } →
      (y = if (x.vp n).irq then x.vpNotify n else x) →
      h.bit VPT_CMD 27 = false →
      ((g.vp n).state = 2 ∨ (g.vp n).state = 3) →
      (g.vp n).leaving = false →
      exec (.thaw v far a) s = .next (s.withHw ((y.vpDrain n far (y.vp n).held.length).put VPT_CMD 26 24 0))) ∧
  -- save
  (∀ (s : State) (h : Hw) (v : Word) (n : Nat) (g : Hw) (r : Bool × Hw) (a : Attr),
      s.hw.takes (VPT_CMD) a = true →
      h = s.hw.answer 0 →
      n = fld v.toNat 9 0 →
      g = h.wr VPT_CMD (3 * 2 ^ 28 + n) →
      r = g.memWrite g.vpBlockAddr (g.vpBlock n) (vpBlockAttr a) →
      h.bit VPT_CMD 27 = false →
      (g.vp n).state = 2 →
      r.1 = true →
      exec (.save v a) s = .next (s.withHw ((r.2.vpEvent n 2).put VPT_CMD 26 24 0))) ∧
  -- restore
  (∀ (s : State) (h : Hw) (v : Word) (b : List Byte) (x : Hw) (n : Nat) (g : Hw) (a : Attr),
      s.hw.takes (VPT_CMD) a = true →
      h = s.hw.answer 0 →
      n = fld v.toNat 9 0 →
      g = h.wr VPT_CMD (4 * 2 ^ 28 + n) →
      h.bit VPT_CMD 27 = false →
      (g.vp n).state = 0 →
      g.memRead g.vpBlockAddr 256 (vpBlockAttr a) = (some b, x) →
      leNat (slice b 0 4) = 0x4253_5056 →
      fld (leNat (slice b 4 4)) 15 0 = 1 →
      leNat (slice b 0xFC 4) = crc32 (b.take 0xFC) →
      x.vpGuaranteed n + fld (leNat (slice b 0x40 4) &&& vpWordMask 12) 31 16 ≤ 15360 →
      exec (.restore v a) s = .next (s.withHw (((x.vpRestored n b).vpEvent n 3).put VPT_CMD 26 24 0))) ∧
  -- clearCounters
  (∀ (s : State) (h : Hw) (v : Word) (n : Nat) (g : Hw) (a : Attr),
      s.hw.takes (VPT_CMD) a = true →
      h = s.hw.answer 0 →
      n = fld v.toNat 9 0 →
      g = h.wr VPT_CMD (5 * 2 ^ 28 + n) →
      h.bit VPT_CMD 27 = false →
      exec (.clearCounters v a) s = .next (s.withHw ((g.setVp n { g.vp n with cnt := [] }).put VPT_CMD 26 24 0))) ∧
  -- vpRingResize
  (∀ (s : State) (h : Hw) (w : Fin 16) (v : Word) (n : Nat) (x : Nat) (a : Attr),
      s.hw.takes (VPT_E w) a = true →
      h = s.hw.answer 0 →
      n = h.get VPT_SEL 9 0 →
      x = v.toNat &&& vpWordMask w →
      (2 ≤ w.val ∧ w.val ≤ 5) →
      h.vpRefuses n w x = none →
      (h.vp n).state ≠ 0 →
      exec (.vpRingResize w v a) s = .next (s.withHw (({ h with vpt := { h.vpt with words := h.vpt.words.set (16 * n + w) x } } : Hw).vpRingsZero n)))

/-- The commands of the world gate complete with their effect.
Derived from R563, R567, R568, R572, R573, R574, R575 of the spec. A write of WGT_LOCK that sets ALL locks every page;
an accepted write of a hold mark is stored and the requests that no mark covers any more are carried out; a held
request is refused by its timeout (not before the time is over) or by WGT_DENY, with its log entry and events; a core
in mode M of a domain that is on takes the world it writes, after its dirty lines are written back. The rest of the
module is unchanged. -/
def Obligations.WorldCommandsComplete : Prop :=
  -- wgtLockAll
  (∀ (s : State) (h : Hw) (v : Word) (g : Hw) (a : Attr),
      s.hw.takes (LOCK pgWGT) a = true →
      h = s.hw.answer 0 →
      g = h.wr (LOCK pgWGT) (h.rd (LOCK pgWGT) ||| (setBit v.toNat 2 false &&& lockMask pgWGT)) →
      fld v.toNat 2 2 = 1 →
      exec (.wgtLockAll v a) s = .next (s.withHw (((((allPages.foldl (fun h p => h.putBit (LOCK p) 0 true) g).putBit (LOCK pgWGT) 1 true).putBit (LOCK pgWGT) 2 true).putBit (STATUS pgWGT) 0 true).raise pgWGT 4))) ∧
  -- holdMarkWrite_domain
  (∀ (s : State) (h : Hw) (v : Word) (a : Attr),
      s.hw.takes (WGT_HOLD_PD) a = true →
      h = s.hw.answer 0 →
      exec (.holdMarkWrite none v a) s = .next (s.withHw ((h.storeReg WGT_HOLD_PD v.toNat).releaseHeld))) ∧
  -- holdMarkWrite_page
  (∀ (s : State) (h : Hw) (m : Fin 32) (v : Word) (a : Attr),
      s.hw.takes (WGT_HOLD_PAGE m) a = true →
      h = s.hw.answer 0 →
      exec (.holdMarkWrite (some m) v a) s = .next (s.withHw ((h.storeReg (WGT_HOLD_PAGE m) v.toNat).releaseHeld))) ∧
  -- holdTimeout
  (∀ (s : State) (h : Hw) (clk : Bool) (target : Fin 1024) (r : PwrReq),
      h = s.hw →
      h.heldFor clk target = some r →
      r.heldAt + h.rd WGT_HOLD_TO * 1_200_000 ≤ h.now →
      exec (.holdTimeout clk target) s = .next (s.withHw ((h.refuseHeld r 1 (h.tick32 0)).sleepCheck))) ∧
  -- holdTimeout_early
  (∀ (s : State) (h : Hw) (clk : Bool) (target : Fin 1024) (r : PwrReq),
      h = s.hw →
      h.heldFor clk target = some r →
      h.now < r.heldAt + h.rd WGT_HOLD_TO * 1_200_000 →
      exec (.holdTimeout clk target) s = .next (s.withHw (h))) ∧
  -- wgtDeny
  (∀ (s : State) (h : Hw) (v : Word) (timeout : Bool) (r : PwrReq) (a : Attr),
      s.hw.takes (WGT_DENY) a = true →
      h = s.hw.answer 0 →
      (fld v.toNat 31 30 = 1 ∨ fld v.toNat 31 30 = 2) →
      h.heldFor (fld v.toNat 31 30 == 2) (fld v.toNat 9 0) = some r →
      exec (.wgtDeny v timeout a) s = .next (s.withHw ((h.refuseHeld r 2 (h.tick32 0)).sleepCheck))) ∧
  -- mworldWrite
  (∀ (s : State) (h : Hw) (core : Fin 12) (v : Word) (dirty : List (BitVec 40 × List Byte)) (w : Bool),
      h = s.hw →
      w = (fld v.toNat 0 0 == 1) →
      h.pdOn (3 + core.val / 4) = true →
      w ≠ h.coreWorld core →
      exec (.mworldWrite core v true dirty) s = .next (s.withHw (Hw.answer (let g := h.writeBack core dirty; { g with cores := setAt g.cores core { world := w } }) 0))) ∧
  -- mworldWrite_same
  (∀ (s : State) (h : Hw) (core : Fin 12) (v : Word) (dirty : List (BitVec 40 × List Byte)),
      h = s.hw →
      h.pdOn (3 + core.val / 4) = true →
      (fld v.toNat 0 0 == 1) = h.coreWorld core →
      exec (.mworldWrite core v true dirty) s = .next (s.withHw (h.answer 0)))

/-- The commands of the key unit complete with their effect.
Derived from R581, R584, R585, R586, R587, R588, R590, R593, R594, R596, R602, R603 of the spec. A command accepted in
KEY_CMD whose checks hold does its work and ends with its result code, BUSY clear and its event: GENERATE, DERIVE and
IMPORT commit a key to the slot, EXPORT and PUBKEY and PERSIST_SAVE write theirs to memory, CLEAR, REVOKE and NARROW
change the slot, PERSIST_LOAD and PERSIST_CHECK take a record, CHALLENGE draws 16 bytes, ENROL creates the root; in
Hold PERSIST_CHECK and ENROL wait. The root is reconstructed at power-up, a slot is masked anew when it is due, a TRNG
failure stops the TRNG and RESTART starts it, a read of KEY_RNG gives a free word, and an allowed life-cycle advance
is burnt. The rest of the module is unchanged. -/
def Obligations.KeyCommandsComplete : Prop :=
  -- generate
  (∀ (s : State) (h : Hw) (v : Word) (g : Hw) (r : List Byte × Hw) (a : Attr),
      s.hw.takes (KEY_CMD) a = true →
      h = s.hw.answer 0 →
      g = h.wr KEY_CMD (1 * 2 ^ 28 + v.toNat % 2 ^ 24) →
      r = g.freeBytes (keyLen g.stageType) →
      h.bit KEY_CMD 27 = false →
      g.lcs ≠ 4 →
      g.stageOk = true →
      g.slotFree g.cmdDst g.stageType = true →
      g.rngOk = true →
      exec (.generate v a) s = .next (s.withHw (g.keyEnd (0, r.2.commitKey r.2.cmdDst (r.2.rd KEY_STAGE) (keyFrom g.stageType r.1) none)))) ∧
  -- derive
  (∀ (s : State) (h : Hw) (v : Word) (data : List Byte) (x : Hw) (g : Hw) (a : Attr),
      s.hw.takes (KEY_CMD) a = true →
      h = s.hw.answer 0 →
      g = h.wr KEY_CMD (2 * 2 ^ 28 + v.toNat % 2 ^ 24) →
      g.memRead g.keyAddr g.keyOpLen (keyMaster a) = (some data, x) →
      h.bit KEY_CMD 27 = false →
      g.lcs ≠ 4 →
      g.stageOk = true →
      (g.keyOpLen == 0) = false →
      g.keyOpLen ≤ 256 →
      g.needsRoot g.cmdSrc = false →
      g.slotFree g.cmdDst g.stageType = true →
      g.slotGood g.cmdSrc = true →
      (¬(g.get (KEY_ATTR_W1 g.cmdSrc) 7 5 = 7 ∨ (decide (g.cmdAux % 2 = 1) && (g.keyBytes g.cmdSrc).length != 32) = true)) →
      g.keyUse g.cmdSrc 5 (groupOf a.mid.toNat) a.secure = true →
      exec (.derive v a) s = .next (s.withHw (g.keyEnd (0, x.commitKey x.cmdDst (x.rd KEY_STAGE) (keyFrom g.stageType (if decide (g.cmdAux % 2 = 1) then derive (cmac (x.keyBytes g.cmdSrc)) 16 data (keyLen g.stageType) else derive (hmac256 (x.keyBytes g.cmdSrc)) 32 data (keyLen g.stageType))) (some g.cmdSrc))))) ∧
  -- keyImport
  (∀ (s : State) (h : Hw) (v : Word) (data k : List Byte) (x : Hw) (g : Hw) (a : Attr),
      s.hw.takes (KEY_CMD) a = true →
      h = s.hw.answer 0 →
      g = h.wr KEY_CMD (3 * 2 ^ 28 + v.toNat % 2 ^ 24) →
      g.memRead g.keyAddr g.keyOpLen (keyMaster a) = (some data, x) →
      h.bit KEY_CMD 27 = false →
      g.lcs ≠ 4 →
      g.stageOk = true →
      (g.keyOpLen != keyLen g.stageType + 8) = false →
      g.needsRoot g.cmdSrc = false →
      g.slotFree g.cmdDst g.stageType = true →
      g.slotGood g.cmdSrc = true →
      (¬(g.get (KEY_ATTR_W1 g.cmdSrc) 7 5 = 7 ∨ 1 < g.keyType g.cmdSrc)) →
      g.keyUse g.cmdSrc 7 (groupOf a.mid.toNat) a.secure = true →
      (keyUnwrap (x.keyBytes g.cmdSrc) data) = some k →
      exec (.keyImport v a) s = .next (s.withHw (g.keyEnd (0, x.commitKey x.cmdDst (x.rd KEY_STAGE) k (some g.cmdSrc))))) ∧
  -- keyExport
  (∀ (s : State) (h : Hw) (v : Word) (g : Hw) (a : Attr),
      s.hw.takes (KEY_CMD) a = true →
      h = s.hw.answer 0 →
      g = h.wr KEY_CMD (4 * 2 ^ 28 + v.toNat % 2 ^ 24) →
      h.bit KEY_CMD 27 = false →
      g.lcs ≠ 4 →
      (¬(g.keyOpLen ≠ keyLen (g.keyType g.cmdSrc) + 8 ∨ 1 < g.keyType g.cmdAux)) →
      g.needsRoot g.cmdSrc = false →
      g.needsRoot g.cmdAux = false →
      g.slotGood g.cmdSrc = true →
      g.slotGood g.cmdAux = true →
      g.bit (KEY_ATTR_W0 g.cmdSrc) 28 = true →
      g.keyAllowed g.cmdSrc a = true →
      g.keyUse g.cmdAux 6 (groupOf a.mid.toNat) a.secure = true →
      exec (.keyExport v a) s = .next (s.withHw (g.keyEnd (g.keyOut (keyWrap (g.keyBytes g.cmdAux) (g.keyBytes g.cmdSrc)) a)))) ∧
  -- clear
  (∀ (s : State) (h : Hw) (v : Word) (g : Hw) (d : Nat) (x : Hw) (y : Hw) (z : Hw) (a : Attr),
      s.hw.takes (KEY_CMD) a = true →
      h = s.hw.answer 0 →
      g = h.wr KEY_CMD (5 * 2 ^ 28 + v.toNat % 2 ^ 24) →
      d = g.cmdDst →
      (x = (((g.revokeSlots ((g.family d).filter (fun i => i != d))).canKeysRevoked [d]).msecKeysRevoked [d])) →
      y = (x.putBit (KEY_ATTR_W0 d) 31 false).putBit (KEY_ATTR_W0 d) 30 false →
      (z = if decide (g.keyType d = 4) then (y.putBit (KEY_ATTR_W0 (d + 1)) 31 false).putBit (KEY_ATTR_W0 (d + 1)) 30 false else y) →
      h.bit KEY_CMD 27 = false →
      g.lcs ≠ 4 →
      d ≠ 0 →
      g.keyValid d = true →
      g.oddOfPair d = false →
      exec (.clear v a) s = .next (s.withHw (g.keyEnd (0, { z with key := { z.key with keys := unfile z.key.keys d, masks := unfile z.key.masks d, fresh := false } })))) ∧
  -- revoke
  (∀ (s : State) (h : Hw) (v : Word) (g : Hw) (x : Hw) (a : Attr),
      s.hw.takes (KEY_CMD) a = true →
      h = s.hw.answer 0 →
      g = h.wr KEY_CMD (6 * 2 ^ 28 + v.toNat % 2 ^ 24) →
      x = g.revokeSlots (g.family g.cmdDst) →
      h.bit KEY_CMD 27 = false →
      g.lcs ≠ 4 →
      g.cmdDst ≠ 0 →
      g.slotGood g.cmdDst = true →
      exec (.revoke v a) s = .next (s.withHw (g.keyEnd (0, { x with key := { x.key with fresh := false } })))) ∧
  -- narrow
  (∀ (s : State) (h : Hw) (v : Word) (g : Hw) (d : Nat) (x : Hw) (a : Attr),
      s.hw.takes (KEY_CMD) a = true →
      h = s.hw.answer 0 →
      g = h.wr KEY_CMD (7 * 2 ^ 28 + v.toNat % 2 ^ 24) →
      d = g.cmdDst →
      x = (g.wr (KEY_ATTR_W0 d) (g.rd KEY_STAGE)).mirrorOdd d →
      h.bit KEY_CMD 27 = false →
      g.lcs ≠ 4 →
      d ≠ 0 →
      g.slotGood d = true →
      g.rd KEY_STAGE &&& g.rd (KEY_ATTR_W0 d) = g.rd KEY_STAGE →
      fld (g.rd KEY_STAGE) 31 30 = fld (g.rd (KEY_ATTR_W0 d)) 31 30 →
      fld (g.rd KEY_STAGE) 26 24 = fld (g.rd (KEY_ATTR_W0 d)) 26 24 →
      exec (.narrow v a) s = .next (s.withHw (g.keyEnd (0, { x with key := { x.key with fresh := false } })))) ∧
  -- pubkey
  (∀ (s : State) (h : Hw) (v : Word) (g : Hw) (k : List Byte) (a : Attr),
      s.hw.takes (KEY_CMD) a = true →
      h = s.hw.answer 0 →
      g = h.wr KEY_CMD (8 * 2 ^ 28 + v.toNat % 2 ^ 24) →
      k = g.keyBytes g.cmdSrc →
      h.bit KEY_CMD 27 = false →
      g.lcs ≠ 4 →
      g.needsRoot g.cmdSrc = false →
      g.slotGood g.cmdSrc = true →
      (3 ≤ g.keyType g.cmdSrc ∧ g.keyType g.cmdSrc ≤ 5) →
      g.keyAllowed g.cmdSrc a = true →
      exec (.pubkey v a) s = .next (s.withHw (g.keyEnd (g.keyOut (if g.keyType g.cmdSrc = 3 then p256.pub (beNat k) else if g.keyType g.cmdSrc = 4 then p384.pub (beNat k) else edPub k) a)))) ∧
  -- persistSave
  (∀ (s : State) (h : Hw) (v : Word) (g : Hw) (a : Attr),
      s.hw.takes (KEY_CMD) a = true →
      h = s.hw.answer 0 →
      g = h.wr KEY_CMD (9 * 2 ^ 28 + v.toNat % 2 ^ 24) →
      h.bit KEY_CMD 27 = false →
      g.lcs ≠ 4 →
      g.persistSlots.length ≤ 64 →
      g.rootOk = true →
      exec (.persistSave v a) s = .next (s.withHw (g.keyEnd (g.keyOut (g.persistRecord g.persistSlots) a)))) ∧
  -- persistLoad
  (∀ (s : State) (h : Hw) (v : Word) (b1 b2 : List Byte) (x y : Hw) (g : Hw) (f : Hw) (a : Attr),
      s.hw.takes (KEY_CMD) a = true →
      h = s.hw.answer 0 →
      g = h.wr KEY_CMD (10 * 2 ^ 28 + v.toNat % 2 ^ 24) →
      f = g.notFresh →
      h.bit KEY_CMD 27 = false →
      g.lcs ≠ 4 →
      g.rootOk = true →
      g.key.fresh = true →
      f.memRead f.keyAddr 4160 (keyMaster a) = (some b1, x) →
      x.memRead x.keyAddr2 4160 (keyMaster a) = (some b2, y) →
      exec (.persistLoad v a) s = .next (s.withHw (g.keyEnd (match y.recordValid b1, y.recordValid b2 with
          | some l, some m => (0, if recordSeq b1 < recordSeq b2 then y.loadRecord m (recordSeq b2) 1 else y.loadRecord l (recordSeq b1) 0)
          | some l, none => (0, (y.loadRecord l (recordSeq b1) 0).raiseIf (decide (recordSeq b1 < recordSeq b2)) pgKEY 4)
          | none, some m => (0, (y.loadRecord m (recordSeq b2) 1).raiseIf (decide (recordSeq b2 < recordSeq b1)) pgKEY 4)
          | none, none => (3, y.raise pgKEY 5))))) ∧
  -- persistCheck
  (∀ (s : State) (h : Hw) (v : Word) (g : Hw) (a : Attr),
      s.hw.takes (KEY_CMD) a = true →
      h = s.hw.answer 0 →
      g = h.wr KEY_CMD (11 * 2 ^ 28 + v.toNat % 2 ^ 24) →
      s.hw.inHold = false →
      h.bit KEY_CMD 27 = false →
      g.lcs ≠ 4 →
      exec (.persistCheck v a) s = .next (s.withHw (g.keyEnd (g.persistCheck (keyMaster a))))) ∧
  -- persistCheck_held
  (∀ (s : State) (h : Hw) (v : Word) (a : Attr),
      s.hw.takes (KEY_CMD) a = true →
      h = s.hw.answer 0 →
      s.hw.inHold = true →
      h.bit KEY_CMD 27 = false →
      exec (.persistCheck v a) s = .next (s.withHw ((h.wr KEY_CMD (11 * 2 ^ 28 + 2 ^ 27 + v.toNat % 2 ^ 24)).defer (.persistCheck a.secure 0x19 a.vmid.toNat)))) ∧
  -- challenge
  (∀ (s : State) (h : Hw) (v : Word) (g : Hw) (r : List Byte × Hw) (a : Attr),
      s.hw.takes (KEY_CMD) a = true →
      h = s.hw.answer 0 →
      g = h.wr KEY_CMD (12 * 2 ^ 28 + v.toNat % 2 ^ 24) →
      r = g.freeBytes 16 →
      h.bit KEY_CMD 27 = false →
      g.lcs ≠ 4 →
      g.rngOk = true →
      exec (.challenge v a) s = .next (s.withHw (g.keyEnd (0, each 4 (fun k (x : Hw) => x.wr (KEY_CHALLENGE k) (leNat (slice r.1 (4 * k) 4))) r.2)))) ∧
  -- enrol
  (∀ (s : State) (h : Hw) (v : Word) (g : Hw) (a : Attr),
      s.hw.takes (KEY_CMD) a = true →
      h = s.hw.answer 0 →
      g = h.wr KEY_CMD (13 * 2 ^ 28 + v.toNat % 2 ^ 24) →
      s.hw.inHold = false →
      h.bit KEY_CMD 27 = false →
      g.lcs = 0 →
      g.key.helper = false →
      exec (.enrol v a) s = .next (s.withHw (g.keyEnd (0, ({ g with key := { g.key with helper := true } } : Hw).rootIn)))) ∧
  -- enrol_held
  (∀ (s : State) (h : Hw) (v : Word) (a : Attr),
      s.hw.takes (KEY_CMD) a = true →
      h = s.hw.answer 0 →
      s.hw.inHold = true →
      h.bit KEY_CMD 27 = false →
      exec (.enrol v a) s = .next (s.withHw ((h.wr KEY_CMD (13 * 2 ^ 28 + 2 ^ 27 + v.toNat % 2 ^ 24)).defer .enrol))) ∧
  -- rootReconstruct
  (∀ (s : State) (h : Hw) (pkBad : Bool) (g : Hw),
      h = s.hw →
      g = ({ h with key := { h.key with started := true } } : Hw).putBit (STATUS pgKEY) 1 true →
      h.pdOn 2 = true →
      h.key.started = false →
      h.key.helper = true →
      (g.lcs != 4) = true →
      exec (.rootReconstruct true pkBad) s = .next (s.withHw (g.rootIn.raiseIf pkBad pgKEY 7))) ∧
  -- rootReconstruct_failed
  (∀ (s : State) (h : Hw) (pkBad : Bool) (g : Hw),
      h = s.hw →
      g = ({ h with key := { h.key with started := true } } : Hw).putBit (STATUS pgKEY) 1 true →
      h.pdOn 2 = true →
      h.key.started = false →
      exec (.rootReconstruct false pkBad) s = .next (s.withHw (((g.putBit (STATUS pgKEY) 0 false).raise pgKEY 0).raiseIf pkBad pgKEY 7))) ∧
  -- remask
  (∀ (s : State) (h : Hw) (k : List Byte) (r : List Byte × Hw) (x : Hw) (g : Hw),
      h = s.hw →
      r = h.freeBytes k.length →
      x = { r.2 with key := { r.2.key with masks := file r.2.key.masks h.key.maskAt r.1 } } →
      g = { x with key := { x.key with maskAt := (h.key.maskAt + 1) % 256, remaskAt := x.now } } →
      h.maskDue = true →
      find? h.key.keys h.key.maskAt = some k →
      exec (.remask) s = .next (s.withHw (if h.key.maskAt = 255 then g.inc KEY_REMASK else g))) ∧
  -- rngFail
  (∀ (s : State) (h : Hw) (apt : Bool),
      h = s.hw →
      h.pdOn 2 = true →
      exec (.rngFail apt) s = .next (s.withHw (((if apt then h.satF KEY_RNG_HEALTH 15 8 else h.satF KEY_RNG_HEALTH 7 0).putBit (STATUS pgKEY) 1 false).raise pgKEY 1))) ∧
  -- rngRestart
  (∀ (s : State) (h : Hw) (v : Word) (a : Attr),
      s.hw.takes (KEY_RNG_HEALTH) a = true →
      h = s.hw.answer 0 →
      fld v.toNat 31 31 = 1 →
      exec (.rngRestart v a) s = .next (s.withHw (h.putBit (STATUS pgKEY) 1 true))) ∧
  -- keyRngRead
  (∀ (s : State) (h : Hw) (r : Nat × Hw) (a : Attr),
      s.hw.takes (KEY_RNG) a = true →
      h = s.hw.answer 0 →
      r = h.freeWord →
      a.spec = false →
      h.rngOk = true →
      exec (.keyRngRead true a) s = .next (s.withHw ((r.2.glean r.1 a.mid.toNat).answer r.1))) ∧
  -- lcsAdvance
  (∀ (s : State) (h : Hw) (v : Word) (g : Hw) (a : Attr),
      s.hw.takes (KEY_LCS_ADV) a = true →
      h = s.hw.answer 0 →
      g = { h with key := { h.key with lcsNext := some (fld v.toNat 2 0) } } →
      a.secure = true →
      fld v.toNat 31 16 = 0x4C43 →
      h.lcsAllows (fld v.toNat 2 0) = true →
      h.inHold = false →
      exec (.lcsAdvance v a) s = .next (s.withHw ((g.putBit KEY_LCS 8 true).raise pgKEY 6)))

/-- The commands of the crypto accelerator and the check-value units complete with their effect.
Derived from R606, R607, R608, R609, R610, R611, R612, R613, R614 of the spec. A submitted job goes to the end of its
queue; the front job whose checks hold does its operation on the bytes it reads and completes with its result code,
which a verification takes from its comparison; a check-value unit takes an accepted configuration with its
algorithm's INIT and XOR, starts with its alive counter, feeds its data bytes through the CRC, compares with EXPECT,
and judges a received alive counter. The rest of the module is unchanged. -/
def Obligations.CryptoAndCheckValueCommandsComplete : Prop :=
  -- jobSubmit
  (∀ (s : State) (h : Hw) (q : Fin 16) (v : Word) (a : Attr),
      s.hw.takes (CRY_SUBMIT q) a = true →
      h = s.hw.answer 0 →
      fld v.toNat 5 0 = 0 →
      (h.jobs q).length < 16 →
      exec (.jobSubmit q v a) s = .next (s.withHw (h.setJobs q (h.jobs q ++ [{ addr := 2 ^ 32 * h.cry.hi.get a.mid.toNat + v.toNat, secure := a.secure, mid := a.mid.toNat, vmid := a.vmid.toNat }])))) ∧
  -- cryAes_ecb
  (∀ (s : State) (h : Hw) (q : Fin 16) (j : Job) (d : List Byte) (x : Hw) (src : List Byte) (y : Hw),
      h = s.hw →
      h.jobRuns q 1 j d x →
      dMode d = 0 →
      ¬ dLen d = 0 →
      ¬ dLen d % 16 ≠ 0 →
      (x.jobKey d j (if dEnc d then 0 else 1) [0, 1] = none) →
      x.memRead (dSrc d) (dLen d) j.attr = (some src, y) →
      exec (.cryAes q) s = .next (s.withHw (let r := y.jobOut (dDst d) (aesEcb (dEnc d) (x.keyBytes (dSlot d)) src) j
        r.2.jobDone q j d r.1))) ∧
  -- cryAes_cbc
  (∀ (s : State) (h : Hw) (q : Fin 16) (j : Job) (d : List Byte) (x : Hw) (src aux : List Byte) (y z : Hw),
      h = s.hw →
      h.jobRuns q 1 j d x →
      dMode d = 1 →
      ¬ dLen d = 0 →
      ¬ dLen d % 16 ≠ 0 →
      (x.jobKey d j (if dEnc d then 0 else 1) [0, 1] = none) →
      x.memRead (dSrc d) (dLen d) j.attr = (some src, y) →
      y.memRead (dAux d) 16 j.attr = (some aux, z) →
      exec (.cryAes q) s = .next (s.withHw (let r := z.jobOut (dDst d) (if dEnc d then aesCbcEnc (x.keyBytes (dSlot d)) aux (blocks16 src) else aesCbcDec (x.keyBytes (dSlot d)) aux (blocks16 src)) j
        r.2.jobDone q j d r.1))) ∧
  -- cryAes_ctr
  (∀ (s : State) (h : Hw) (q : Fin 16) (j : Job) (d : List Byte) (x : Hw) (src aux : List Byte) (y z : Hw),
      h = s.hw →
      h.jobRuns q 1 j d x →
      dMode d = 2 →
      ¬ dLen d = 0 →
      (x.jobKey d j (if dEnc d then 0 else 1) [0, 1] = none) →
      x.memRead (dSrc d) (dLen d) j.attr = (some src, y) →
      y.memRead (dAux d) 16 j.attr = (some aux, z) →
      exec (.cryAes q) s = .next (s.withHw (let r := z.jobOut (dDst d) (aesCtr (x.keyBytes (dSlot d)) aux src) j
        r.2.jobDone q j d r.1))) ∧
  -- cryAes_gcm_encrypt
  (∀ (s : State) (h : Hw) (q : Fin 16) (j : Job) (d : List Byte) (x : Hw) (src aux : List Byte) (y z : Hw) (p : List Byte) (o : Nat × Hw),
      h = s.hw →
      h.jobRuns q 1 j d x →
      p = gcmCrypt (x.keyBytes (dSlot d)) (slice aux 0 12) (src.drop (dWord d 7)) →
      o = z.jobOut (dDst d) p j →
      dMode d = 3 →
      dEnc d = true →
      x.jobKey d j 3 [0, 1] = none →
      x.memRead (dSrc d) (dWord d 7 + dLen d) j.attr = (some src, y) →
      y.memRead (dAux d) 28 j.attr = (some aux, z) →
      exec (.cryAes q) s = .next (s.withHw (let r := if o.1 = 0 then o.2.jobOut (dAux d + 12) (gcmTag (x.keyBytes (dSlot d)) (slice aux 0 12) (src.take (dWord d 7)) p) j else o
        r.2.jobDone q j d r.1))) ∧
  -- cryAes_gcm_decrypt
  (∀ (s : State) (h : Hw) (q : Fin 16) (j : Job) (d : List Byte) (x : Hw) (src aux : List Byte) (y z : Hw) (k : List Byte),
      h = s.hw →
      h.jobRuns q 1 j d x →
      k = x.keyBytes (dSlot d) →
      dMode d = 3 →
      dEnc d = false →
      x.jobKey d j 3 [0, 1] = none →
      x.memRead (dSrc d) (dWord d 7 + dLen d) j.attr = (some src, y) →
      y.memRead (dAux d) 28 j.attr = (some aux, z) →
      exec (.cryAes q) s = .next (s.withHw (let r := if gcmTag k (slice aux 0 12) (src.take (dWord d 7)) (src.drop (dWord d 7)) = slice aux 12 16 then z.jobOut (dDst d) (gcmCrypt k (slice aux 0 12) (src.drop (dWord d 7))) j
        else (if (z.jobOut (dDst d) (List.replicate (dLen d) 0) j).1 = 0 then 3 else 4, (z.jobOut (dDst d) (List.replicate (dLen d) 0) j).2)
        r.2.jobDone q j d r.1))) ∧
  -- crySha
  (∀ (s : State) (h : Hw) (q : Fin 16) (j : Job) (d : List Byte) (x : Hw) (src : List Byte) (y : Hw),
      h = s.hw →
      h.jobRuns q 2 j d x →
      dMode d ≤ 2 →
      x.memRead (dSrc d) (dLen d) j.attr = (some src, y) →
      exec (.crySha q) s = .next (s.withHw (let r := y.jobOut (dAux d) (if dMode d = 0 then sha256 src else if dMode d = 1 then sha384 src else sha512 src) j
        r.2.jobDone q j d r.1))) ∧
  -- cryHmac
  (∀ (s : State) (h : Hw) (q : Fin 16) (j : Job) (d : List Byte) (x : Hw) (src : List Byte) (y : Hw) (k : List Byte),
      h = s.hw →
      h.jobRuns q 3 j d x →
      k = x.keyBytes (dSlot d) →
      dMode d ≤ 2 →
      x.jobKey d j 4 [2] = none →
      x.memRead (dSrc d) (dLen d) j.attr = (some src, y) →
      exec (.cryHmac q) s = .next (s.withHw (let r := y.jobOut (dAux d) (if dMode d = 0 then hmac256 k src else if dMode d = 1 then hmac sha384 128 k src else hmac sha512 128 k src) j
        r.2.jobDone q j d r.1))) ∧
  -- cryCmac_generate
  (∀ (s : State) (h : Hw) (q : Fin 16) (j : Job) (d : List Byte) (x : Hw) (src : List Byte) (y : Hw),
      h = s.hw →
      h.jobRuns q 4 j d x →
      dEnc d = true →
      x.jobKey d j 2 [0, 1] = none →
      x.memRead (dSrc d) (dLen d) j.attr = (some src, y) →
      exec (.cryCmac q) s = .next (s.withHw (let r := y.jobOut (dAux d) (cmac (x.keyBytes (dSlot d)) src) j
        r.2.jobDone q j d r.1))) ∧
  -- cryCmac_verify
  (∀ (s : State) (h : Hw) (q : Fin 16) (j : Job) (d : List Byte) (x : Hw) (src tag : List Byte) (y z : Hw),
      h = s.hw →
      h.jobRuns q 4 j d x →
      dEnc d = false →
      x.jobKey d j 2 [0, 1] = none →
      x.memRead (dSrc d) (dLen d) j.attr = (some src, y) →
      y.memRead (dAux d) 16 j.attr = (some tag, z) →
      exec (.cryCmac q) s = .next (s.withHw (let r := (if tag = cmac (x.keyBytes (dSlot d)) src then 0 else 3, z)
        r.2.jobDone q j d r.1))) ∧
  -- ecdsaSign
  (∀ (s : State) (h : Hw) (q : Fin 16) (j : Job) (d : List Byte) (x : Hw) (src : List Byte) (y : Hw) (c : Curve) (r : List Byte × Hw),
      h = s.hw →
      h.jobRuns q 5 j d x →
      (c = if dMode d = 0 then p256 else p384) →
      r = y.freeBytes c.len →
      dMode d ≤ 1 →
      dLen d = c.len →
      (x.jobKey d j 8 [if dMode d = 0 then 3 else 4] = none) →
      x.rngOk = true →
      x.memRead (dSrc d) (dLen d) j.attr = (some src, y) →
      exec (.ecdsaSign q) s = .next (s.withHw (let r := r.2.jobOut (dAux d) (c.sign (beNat (x.keyBytes (dSlot d))) (beNat r.1 % (c.n - 1) + 1) src) j
        r.2.jobDone q j d r.1))) ∧
  -- ecdsaVerify
  (∀ (s : State) (h : Hw) (q : Fin 16) (j : Job) (d : List Byte) (x : Hw) (src aux : List Byte) (y z : Hw) (c : Curve),
      h = s.hw →
      h.jobRuns q 6 j d x →
      (c = if dMode d = 0 then p256 else p384) →
      dMode d ≤ 1 →
      dLen d = c.len →
      x.memRead (dSrc d) (dLen d) j.attr = (some src, y) →
      y.memRead (dAux d) (4 * c.len + 1) j.attr = (some aux, z) →
      exec (.ecdsaVerify q) s = .next (s.withHw (let r := (if c.verify (aux.drop (2 * c.len)) (aux.take (2 * c.len)) src then 0 else 3, z)
        r.2.jobDone q j d r.1))) ∧
  -- ed25519Sign
  (∀ (s : State) (h : Hw) (q : Fin 16) (j : Job) (d : List Byte) (x : Hw) (src : List Byte) (y : Hw),
      h = s.hw →
      h.jobRuns q 7 j d x →
      ¬ dLen d = 0 →
      x.jobKey d j 8 [5] = none →
      x.rngOk = true →
      x.memRead (dSrc d) (dLen d) j.attr = (some src, y) →
      exec (.ed25519Sign q) s = .next (s.withHw (let r := y.jobOut (dAux d) (edSign (x.keyBytes (dSlot d)) src) j
        r.2.jobDone q j d r.1))) ∧
  -- ed25519Verify
  (∀ (s : State) (h : Hw) (q : Fin 16) (j : Job) (d : List Byte) (x : Hw) (src aux : List Byte) (y z : Hw),
      h = s.hw →
      h.jobRuns q 8 j d x →
      ¬ dLen d = 0 →
      x.memRead (dSrc d) (dLen d) j.attr = (some src, y) →
      y.memRead (dAux d) 96 j.attr = (some aux, z) →
      exec (.ed25519Verify q) s = .next (s.withHw (let r := (if edVerify (aux.drop 64) (aux.take 64) src then 0 else 3, z)
        r.2.jobDone q j d r.1))) ∧
  -- cvuCfgWrite
  (∀ (s : State) (h : Hw) (n : Fin 8) (v : Word) (w : Nat) (g : Hw) (x : Hw) (y : Hw) (a : Attr),
      s.hw.takes (CVU_CFG n) a = true →
      h = s.hw.answer 0 →
      w = v.toNat →
      g = h.storeReg (CVU_CFG n) w →
      (x = if fld w 2 0 = h.get (CVU_CFG n) 2 0 then g else g.putBit (CVU_CFG n) 8 (crcAlg (fld w 2 0)).ref) →
      y = (x.wrPair (CVU_INIT_LO n) (CVU_INIT_HI n) (crcAlg (fld w 2 0)).init).wrPair (CVU_XOR_LO n) (CVU_XOR_HI n) (crcAlg (fld w 2 0)).xor →
      fld w 2 0 ≤ 5 →
      fld w 21 20 ≠ 3 →
      fld w 17 16 ≠ 3 →
      fld w 31 24 ≠ 0 →
      exec (.cvuCfgWrite n v a) s = .next (s.withHw (y.setCvu n { y.cvu n with first := true }))) ∧
  -- cvuStart
  (∀ (s : State) (h : Hw) (n : Fin 8) (v : Word) (x : Hw) (a : Attr),
      s.hw.takes (CVU_START n) a = true →
      h = s.hw.answer 0 →
      x = (h.setCvu n { h.cvu n with reg := h.rdPair (CVU_INIT_LO n) (CVU_INIT_HI n) % 2 ^ (h.cvuAlg n).width }).wr (CVU_LEN n) 0 →
      fld v.toNat 0 0 ≠ 0 →
      exec (.cvuStart n v a) s = .next (s.withHw (if x.get (CVU_CFG n) 17 16 = 1 then x.put (CVU_ALIVE_GEN n) 15 0 ((x.get (CVU_ALIVE_GEN n) 15 0 + 1) % x.aliveMod n) else x))) ∧
  -- cvuData
  (∀ (s : State) (h : Hw) (n : Fin 8) (w : Fin 3) (v : Word) (b : List Byte) (a : Attr),
      s.hw.takes (cvuDataReg n w) a = true →
      h = s.hw.answer 0 →
      b = leBytes (2 ^ w.val) v.toNat →
      exec (.cvuData n w v a) s = .next (s.withHw ((h.setCvu n { h.cvu n with reg := b.foldl (fun r b => crcByte (h.cvuAlg n) (h.bit (CVU_CFG n) 8) r b.toNat) (h.cvu n).reg }).inc (CVU_LEN n) (2 ^ w.val)))) ∧
  -- cvuExpect
  (∀ (s : State) (h : Hw) (n : Fin 8) (v : Word) (ok : Bool) (g : Hw) (a : Attr),
      s.hw.takes (CVU_EXPECT_LO n) a = true →
      h = s.hw.answer 0 →
      g = h.wr (CVU_EXPECT_LO n) v.toNat →
      ok = decide (g.rdPair (CVU_EXPECT_LO n) (CVU_EXPECT_HI n) = g.cvuResult n) →
      exec (.cvuExpect n v a) s = .next (s.withHw ((g.putBit (CVU_CMP n) 0 ok).raiseIf (!ok) (pgCVU n) 3))) ∧
  -- cvuAliveIn
  (∀ (s : State) (h : Hw) (n : Fin 8) (v : Word) (rcv dist out : Nat) (m : Nat) (x : CvuSt) (g : Hw) (a : Attr),
      s.hw.takes (CVU_ALIVE_IN n) a = true →
      h = s.hw.answer 0 →
      m = h.aliveMod n →
      x = h.cvu n →
      (g = (h.setCvu n { x with expected := if out = 2 then x.expected else rcv, first := false }).wr (CVU_ALIVE_ST n) (out * 2 ^ 29 + dist)) →
      h.get (CVU_CFG n) 17 16 = 2 →
      rcv = fld v.toNat 15 0 % m →
      dist = (rcv + m - x.expected % m) % m →
      (out = if x.first then 0 else if dist = 1 then 1 else if dist = 0 then 2 else if dist ≤ h.get (CVU_CFG n) 31 24 then 3 else 4) →
      exec (.cvuAliveIn n v a) s = .next (s.withHw (g.raiseIf (decide (2 ≤ out)) (pgCVU n) (out - 2))))

/-- The commands of the twin complete with their effect.
Derived from R626, R628, R629, R630, R632, R633, R634, R635, R636, R637, R639, R640 of the spec. Enabling the twin
under its conditions enters HELLO, disabling it leaves; HELLO and heartbeats go out and are taken; the module alone
takes authority once ALONE_TO is over and not before, and a missed heartbeat is counted; image segments, signatures,
STATE and DRAIN frames of the partner are kept, compared or applied; a declaration goes out, is answered and ends by
its answer or its deadline; RESYNC, lane changes and counter clears act. The rest of the module is unchanged. -/
def Obligations.TwinCommandsComplete : Prop :=
  -- twnEnable
  (∀ (s : State) (h : Hw) (v : Word) (g : Hw) (y : Hw) (x : Hw) (a : Attr),
      s.hw.takes (TWN_CFG) a = true →
      h = s.hw.answer 0 →
      g = h.storeReg TWN_CFG v.toNat →
      y = ({ g with twn := { seq := g.twn.seq, faulty := g.twn.faulty } } : Hw).setTw twHello →
      x = ({ y with twn := { y.twn with heardAt := y.now, hbTick := none } } : Hw).put TWN_STATE 11 8 0 →
      h.bit TWN_CFG 31 = false →
      twnCfgOk (g.rd TWN_CFG) = true →
      g.bit TWN_CFG 31 = true →
      h.twnMayEnable = true →
      exec (.twnEnable v a) s = .next (s.withHw (if x.bit TWN_STATE 5 then x else x.takeAuthority 3))) ∧
  -- twnEnable_off
  (∀ (s : State) (h : Hw) (v : Word) (g : Hw) (x : Hw) (a : Attr),
      s.hw.takes (TWN_CFG) a = true →
      h = s.hw.answer 0 →
      g = h.storeReg TWN_CFG v.toNat →
      x = ({ g with twn := { seq := g.twn.seq, faulty := g.twn.faulty } } : Hw).setTw twOff →
      h.bit TWN_CFG 31 = true →
      fld (h.rd TWN_CFG) 30 0 = fld (g.rd TWN_CFG) 30 0 →
      twnCfgOk (g.rd TWN_CFG) = true →
      g.bit TWN_CFG 31 = false →
      exec (.twnEnable v a) s = .next (s.withHw ((x.putBit TWN_STATE 3 false).putBit TWN_STATE 4 false))) ∧
  -- helloSend
  (∀ (s : State) (h : Hw) (g : Hw) (p : List Byte),
      h = s.hw →
      g = { h with twn := { h.twn with helloAt := some h.now } } →
      (p = leBytes 4 (Config.uid 0).toNat ++ leBytes 4 (Config.uid 1).toNat ++ (List.range 8).flatMap (fun w => leBytes 4 (h.rd (TWN_BUILD w)))) →
      h.live pgTWN = true →
      (h.twState == twOff) = false →
      (∀ t, h.twn.helloAt = some t → t + 1_200_000 ≤ h.now) →
      h.bit (STATUS pgTWN) 0 = true →
      exec (.helloSend) s = .next (s.withHw (g.exrexSend 1 0 0 (h.tick32 0) 0 p))) ∧
  -- helloRx
  (∀ (s : State) (h : Hw) (b : List Byte) (f : Exrex) (g : Hw) (x : Hw) (y : Hw),
      h = s.hw →
      h.exrexTakes b f →
      f.typ = 1 →
      g = h.peerSeen f →
      x = { g with twn := { g.twn with heardAt := g.now } } →
      y = { x with twn := { x.twn with hbTick := some (x.twn.hbTick.getD (x.tick32 0)) } } →
      (g.twState == twHello) = true →
      exec (.helloRx b) s = .next (s.withHw (if !((List.range 8).all (fun w => leNat (slice f.payload (8 + 4 * w) 4) == g.rd (TWN_BUILD w))) then x.raise pgTWN 10
      else if g.keepsAuthority then y.enterHolder else y.enterSync))) ∧
  -- helloRx_alone
  (∀ (s : State) (h : Hw) (b : List Byte) (f : Exrex) (g : Hw) (x : Hw),
      h = s.hw →
      h.exrexTakes b f →
      f.typ = 1 →
      g = h.peerSeen f →
      x = g.setTw twHello →
      (g.twState == twHello) = false →
      (g.twState == twAlone) = true →
      exec (.helloRx b) s = .next (s.withHw ({ x with twn := { x.twn with heardAt := x.now, hbTick := none } }))) ∧
  -- aloneTimeout
  (∀ (s : State) (h : Hw) (g : Hw),
      h = s.hw →
      g = h.setTw twAlone →
      h.live pgTWN = true →
      (h.twState != twHello) = false →
      h.twn.heardAt + h.get TWN_CFG 7 0 * 1_200_000 ≤ h.now →
      exec (.aloneTimeout) s = .next (s.withHw (if g.bit TWN_STATE 3 then g else g.takeAuthority 3))) ∧
  -- aloneTimeout_early
  (∀ (s : State) (h : Hw),
      h = s.hw →
      h.now < h.twn.heardAt + h.get TWN_CFG 7 0 * 1_200_000 →
      exec (.aloneTimeout) s = .next (s.withHw (h))) ∧
  -- heartbeatSend
  (∀ (s : State) (h : Hw) (p : List Byte) (g : Hw),
      h = s.hw →
      p = leBytes 4 (h.engCount engActive + h.spareCount * 0x100) ++ leBytes 4 h.dailyFlags ++ leBytes 4 (h.get TWN_STATE 11 8) ++ leBytes 4 (h.rd HLT_DSEQ) →
      g = { h with twn := { h.twn with hbSent := some (h.tick32 0) } } →
      h.live pgTWN = true →
      (h.twState == twOff) = false →
      h.tickBoundary 0 = true →
      (h.twn.hbSent == some (h.tick32 0)) = false →
      h.bit (STATUS pgTWN) 0 = true →
      exec (.heartbeatSend) s = .next (s.withHw ((g.altSend 2 0 (h.tick32 0) 0 p).exrexSend 2 0 0 (h.tick32 0) 0 p))) ∧
  -- heartbeatRx
  (∀ (s : State) (h : Hw) (b : List Byte) (f : Exrex) (g : Hw) (y : Hw) (x : Hw),
      h = s.hw →
      h.exrexTakes b f →
      f.typ = 2 →
      g = h.peerSeen f →
      y = g.put TWN_STATE 11 8 0 →
      x = { y with twn := { y.twn with hbTick := some (y.twn.hbTick.getD (y.tick32 0)) } } →
      exec (.heartbeatRx b) s = .next (s.withHw (if x.beatInTime f then { x with twn := { x.twn with hbTick := some f.tick } } else x))) ∧
  -- heartbeatMiss
  (∀ (s : State) (h : Hw) (k : Nat) (x : Hw) (g : Hw),
      h = s.hw →
      x = { h with twn := { h.twn with hbTick := some k } } →
      g = ((x.sat TWN_HB_MISS_CNT).satF TWN_STATE 11 8).raise pgTWN 2 →
      h.live pgTWN = true →
      (h.twState == twOff) = false →
      h.missedTick = some k →
      exec (.heartbeatMiss) s = .next (s.withHw (if 2 ≤ g.get TWN_STATE 11 8 then g.peerLost else g))) ∧
  -- imageSegmentRx
  (∀ (s : State) (h : Hw) (b : List Byte) (f : Exrex) (g : Hw) (c : Nat) (x : TwinCad),
      h = s.hw →
      h.exrexTakes b f →
      f.typ = 3 →
      g = h.peerSeen f →
      c = f.sub % 64 →
      x = (g.twinCad c).segment f →
      (g.twState != twInStep) = false →
      g.bit TWN_STATE 3 = false →
      g.twinned c = true →
      ((g.cad c).latched && nowLo (g.cad c).last != f.tick) = false →
      x.waiting = false →
      exec (.imageSegmentRx b) s = .next (s.withHw (g.setTwinCad c x))) ∧
  -- imageSegmentRx_complete
  (∀ (s : State) (h : Hw) (b : List Byte) (f : Exrex) (g : Hw) (bs : List Byte) (c : Nat) (x : TwinCad) (z : Hw),
      h = s.hw →
      h.exrexTakes b f →
      f.typ = 3 →
      g = h.peerSeen f →
      c = f.sub % 64 →
      x = (g.twinCad c).segment f →
      z = (g.setTwinCad c x).setTwinCad c { x with waiting := false } →
      (g.twState != twInStep) = false →
      g.bit TWN_STATE 3 = false →
      g.twinned c = true →
      ((g.cad c).latched && nowLo (g.cad c).last != f.tick) = false →
      x.waiting = true →
      x.image = some bs →
      exec (.imageSegmentRx b) s = .next (s.withHw ((z.placeImage c (Mem.write [] 0 (bs.take (g.cad c).imgLen))).releaseTasks c))) ∧
  -- imageTimeout
  (∀ (s : State) (h : Hw) (c : Fin 64),
      h = s.hw →
      h.live pgTWN = true →
      (h.twinCad c).waiting = true →
      (h.twinCad c).cueAt + h.get TWN_CFG 15 8 * 1200 ≤ h.now →
      exec (.imageTimeout c) s = .next (s.withHw (((h.setTwinCad c { h.twinCad c with waiting := false, unpaired := true }).sat TWN_UNPAIRED_CNT).releaseTasks c))) ∧
  -- signatureSend
  (∀ (s : State) (h : Hw) (c : Fin 64) (tick cycle sig : Nat) (g : Hw),
      h = s.hw →
      g = h.setTwinCad c { h.twinCad c with toSend := none } →
      (h.twinCad c).toSend = some (tick, cycle, sig) →
      h.bit (STATUS pgTWN) 0 = true →
      exec (.signatureSend c) s = .next (s.withHw (g.exrexSend 4 c 0 tick (if (h.twinCad c).unpaired then 4 else 0) (leBytes 4 cycle ++ leBytes 8 sig ++ [0, 0, 0, 0])))) ∧
  -- signatureRx
  (∀ (s : State) (h : Hw) (b : List Byte) (f : Exrex) (g : Hw) (own : Nat) (c : Nat),
      h = s.hw →
      h.exrexTakes b f →
      f.typ = 4 →
      g = h.peerSeen f →
      c = f.sub % 64 →
      (g.twState != twInStep) = false →
      g.twinned c = true →
      (g.twinCad c).unpaired = false →
      ¬ fld f.flags 2 2 = 1 →
      (g.twinCad c).own = some (f.tick, own) →
      exec (.signatureRx b) s = .next (s.withHw (g.compareSigs c own (leNat (slice f.payload 4 8))))) ∧
  -- signatureRx_first
  (∀ (s : State) (h : Hw) (b : List Byte) (f : Exrex) (g : Hw) (c : Nat),
      h = s.hw →
      h.exrexTakes b f →
      f.typ = 4 →
      g = h.peerSeen f →
      c = f.sub % 64 →
      (g.twState != twInStep) = false →
      g.twinned c = true →
      (g.twinCad c).unpaired = false →
      ¬ fld f.flags 2 2 = 1 →
      (g.twinCad c).own = none →
      exec (.signatureRx b) s = .next (s.withHw (g.setTwinCad c { g.twinCad c with peer := some (f.tick, leNat (slice f.payload 4 8)) }))) ∧
  -- signatureRx_unpaired
  (∀ (s : State) (h : Hw) (b : List Byte) (f : Exrex) (g : Hw) (c : Nat),
      h = s.hw →
      h.exrexTakes b f →
      f.typ = 4 →
      g = h.peerSeen f →
      c = f.sub % 64 →
      (g.twState != twInStep) = false →
      g.twinned c = true →
      (g.twinCad c).unpaired = false →
      fld f.flags 2 2 = 1 →
      exec (.signatureRx b) s = .next (s.withHw ((g.setTwinCad c { g.twinCad c with own := none, peer := none }).sat TWN_UNPAIRED_CNT))) ∧
  -- stateRx
  (∀ (s : State) (h : Hw) (b : List Byte) (f : Exrex) (g : Hw) (x : Hw),
      h = s.hw →
      h.exrexTakes b f →
      f.typ = 6 →
      g = h.peerSeen f →
      x = g.twinWrite (f.part * 4096 % poolSize) f.payload →
      g.twState = twSync →
      f.part = g.twn.nextSeg →
      g.twn.synced = false →
      exec (.stateRx b) s = .next (s.withHw ({ x with twn := { x.twn with nextSeg := x.twn.nextSeg + 1, synced := decide (fld f.flags 4 4 = 1) } }))) ∧
  -- stateRx_drain
  (∀ (s : State) (h : Hw) (b : List Byte) (f : Exrex) (g : Hw),
      h = s.hw →
      h.exrexTakes b f →
      f.typ = 7 →
      g = h.peerSeen f →
      g.twState = twSync →
      exec (.stateRx b) s = .next (s.withHw ((drainRecords 342 f.payload).foldl (fun (x : Hw) r => x.twinWrite r.1 r.2) g))) ∧
  -- twnDeclare_write
  (∀ (s : State) (h : Hw) (v : Word) (a : Attr),
      s.hw.takes (TWN_DECLARE) a = true →
      h = s.hw.answer 0 →
      ¬ fld v.toNat 0 0 = 0 →
      (h.declareFaulty 31).1 = true →
      exec (.twnDeclare (.write v a)) s = .next (s.withHw ((h.declareFaulty 31).2))) ∧
  -- twnDeclare_condition
  (∀ (s : State) (h : Hw) (k : Fin 5) (g : Hw),
      h = s.hw →
      g = h.putBit HLT_DECLARED k true →
      exec (.twnDeclare (.condition k)) s = .next (s.withHw (if g.bit HLT_DECLARE_EN k then (g.declareFaulty k).2 else g))) ∧
  -- declareRx
  (∀ (s : State) (h : Hw) (b : List Byte) (f : Exrex) (g : Hw) (good : Bool) (x : Hw),
      h = s.hw →
      h.exrexTakes b f →
      f.typ = 5 →
      g = h.peerSeen f →
      good = (g.twState == twInStep || g.twState == twDiverged) →
      (x = g.exrexSend 8 0 0 (g.tick32 0) (if good then 0 else 0x20) (leBytes 4 (f.seq + 5 * 2 ^ 16))) →
      exec (.declareRx b) s = .next (s.withHw (if good && !x.bit TWN_STATE 3 && x.twn.take.isNone then { x with twn := { x.twn with take := some 2, takeAt := x.now + 6000 } } else x))) ∧
  -- ackRx
  (∀ (s : State) (h : Hw) (b : List Byte) (f : Exrex) (g : Hw) (q : Nat),
      h = s.hw →
      h.exrexTakes b f →
      f.typ = 8 →
      g = h.peerSeen f →
      g.twn.declared = some q →
      fld (leNat (slice f.payload 0 4)) 15 0 = q →
      fld (leNat (slice f.payload 0 4)) 19 16 = 5 →
      exec (.ackRx b) s = .next (s.withHw (if fld f.flags 5 5 = 1 then g.declareRefused else { g with twn := { g.twn with declared := none, yield := some 5 } }))) ∧
  -- declareDeadline
  (∀ (s : State) (h : Hw),
      h = s.hw →
      h.live pgTWN = true →
      h.declareOver = true →
      exec (.declareDeadline) s = .next (s.withHw (h.declareRefused))) ∧
  -- twnResync
  (∀ (s : State) (h : Hw) (v : Word) (a : Attr),
      s.hw.takes (TWN_RESYNC) a = true →
      h = s.hw.answer 0 →
      ¬ fld v.toNat 0 0 = 0 →
      (h.twState != twDiverged) = false →
      h.bit TWN_STATE 3 = true →
      exec (.twnResync v a) s = .next (s.withHw (h.enterHolder))) ∧
  -- exrexLaneLoss_up
  (∀ (s : State) (h : Hw) (lane : Fin 2) (g : Hw) (x : Hw),
      h = s.hw →
      g = h.putBit TWN_LINK lane true →
      x = g.putBit (STATUS pgTWN) 0 (g.bit TWN_LINK 0 || g.bit TWN_LINK 1) →
      h.live pgTWN = true →
      h.bit (STATUS pgTWN) 0 = false →
      (g.bit TWN_LINK 0 || g.bit TWN_LINK 1) = true →
      exec (.exrexLaneLoss lane true) s = .next (s.withHw (x.raise pgTWN 5))) ∧
  -- exrexLaneLoss_down
  (∀ (s : State) (h : Hw) (lane : Fin 2) (g : Hw) (x : Hw),
      h = s.hw →
      g = (h.putBit TWN_LINK lane false).putBit (STATUS pgTWN) 0 false →
      x = ({ g with twn := { g.twn with out := [], sendSeg := none } } : Hw).raise pgTWN 4 →
      h.live pgTWN = true →
      h.bit (STATUS pgTWN) 0 = true →
      ((h.putBit TWN_LINK lane false).bit TWN_LINK 0 || (h.putBit TWN_LINK lane false).bit TWN_LINK 1) = false →
      exec (.exrexLaneLoss lane false) s = .next (s.withHw (if (x.bit TWN_CFG 30 && x.get TWN_STATE 11 8 == 0) && (x.twState == twInStep || x.twState == twSync) then { x.setTw twDiverged with twn := { x.twn with sending := false } } else x))) ∧
  -- twnCntClr
  (∀ (s : State) (h : Hw) (v : Word) (a : Attr),
      s.hw.takes (TWN_CNT_CLR) a = true →
      h = s.hw.answer 0 →
      fld v.toNat 0 0 = 1 →
      fld v.toNat 1 1 = 1 →
      fld v.toNat 2 2 = 1 →
      fld v.toNat 3 3 = 1 →
      exec (.twnCntClr v a) s = .next (s.withHw ((((h.wr TWN_HB_MISS_CNT 0).wr TWN_SIG_MISMATCH_CNT 0).wr TWN_UNPAIRED_CNT 0).wr TWN_CRC_ERR_CNT 0)))

/-- The commands of the health unit complete with their effect.
Derived from R618, R619, R620, R621, R622, R624, R644 of the spec. The rota puts the next spare under test; an engine
that failed its comparator test, or its self-test, is retired with the events raised, and one that passed both becomes
active or spare; the Dailies record is published and, where enabled, sent. The rest of the module is unchanged. -/
def Obligations.HealthCommandsComplete : Prop :=
  -- spareRota
  (∀ (s : State) (h : Hw) (e : Nat) (x : Hw) (g : Hw),
      h = s.hw →
      x = { h with hlt := { h.hlt with rotaAt := h.now } } →
      g = { x with hlt := { x.hlt with testing := some e, passed := false } } →
      h.live pgHLT = true →
      h.hlt.rotaAt + 600_000_000 ≤ h.now →
      h.rotaNext = some e →
      h.hlt.testing = none →
      (¬(e = h.get HLT_ROTA 20 16 ∧ h.hlt.passed = false)) →
      exec (.spareRota) s = .next (s.withHw ((g.setEngState e engSelftest).put HLT_ROTA 20 16 e))) ∧
  -- startupTest
  (∀ (s : State) (h : Hw) (pd8 : Bool) (res : List EngineTest) (g : Hw),
      h = s.hw →
      (g = each 9 (fun i (x : Hw) => x.judged ((if pd8 then 9 else 0) + i) (res.getD i ⟨0, 0, false, false⟩)) h) →
      (h.pdOn (if pd8 then 8 else 7) = true) →
      h.live pgCEA = true →
      exec (.startupTest pd8 res) s = .next (s.withHw (g.putBit (STATUS pgCEA) 2 (g.engCount engOff == 0)))) ∧
  -- dailies
  (∀ (s : State) (h : Hw) (x : Hw) (ws : List Nat) (y : Hw) (g : Hw),
      h = s.hw →
      x = h.inc HLT_DSEQ →
      ws = x.dailyWords ++ [crc32 (wordBytes x.dailyWords)] →
      (y = each 64 (fun w (x : Hw) => x.wr (HLT_DAILY w) (ws.getD w 0)) x) →
      g = ({ y with hlt := { testing := y.hlt.testing, passed := y.hlt.passed, holds := y.hlt.holds, t1ue := y.hlt.t1ue, t0ue := y.hlt.t0ue, transients := y.hlt.transients, rotaAt := y.hlt.rotaAt, dailyAt := y.now, dailyTick := some (y.slotVal 0 / tickUnit) } } : Hw).raise pgHLT 0 →
      h.dailyDue = true →
      exec (.dailies) s = .next (s.withHw (if g.bit HLT_CFG 31 then g.hand 38 (padFrame (etherHead (2 ^ 32 * g.get HLT_DEST_HI 15 0 + g.rd HLT_DEST_LO) (2 ^ 32 * g.get RIO_MAC_HI 15 0 + g.rd RIO_MAC_LO) (some (g.get HLT_CFG 30 28, 0)) (g.get HLT_ETYPE 15 0) ++ wordBytes ws)) else g)))

/-- The commands of the Reel complete with their effect.
Derived from R649, R653, R655, R656, R658, R660, R662, R663, R664, R665, R667, R669 of the spec. A Slate and a GAP go
into the ring; a snapshot that is due begins and a copy that ends is recorded; a trigger by event lines or by
REL_TRIG_SW acts by its sources; the post window's end holds the recording; REARM begins anew; a write of CTRL starts
or stops the Reel; a dump goes out, or waits in Hold, and ends; a Take starts, goes on by its records, and ends. The
rest of the module is unchanged. -/
def Obligations.ReelCommandsComplete : Prop :=
  -- slate
  (∀ (s : State) (h : Hw) (g : Hw),
      h = s.hw →
      g = (h.record 1 0 h.slatePayload).slated h.rel.no →
      h.tickBoundary 0 = true →
      (h.rel.slateTick == some (h.slotVal 0 / tickUnit)) = false →
      exec (.slate) s = .next (s.withHw ({ g with rel := { g.rel with stepped := [], slateTick := some (h.slotVal 0 / tickUnit) } }))) ∧
  -- gap
  (∀ (s : State) (h : Hw) (p : List Byte) (g : Hw),
      h = s.hw →
      p = leBytes 4 h.rel.gapRecs ++ leBytes 4 h.rel.gapBytes →
      g = { h with rel := { h.rel with gapRecs := 0, gapBytes := 0 } } →
      h.recording = true →
      h.relQueued + 32 ≤ 0x4_0000 →
      ¬ h.rel.gapRecs = 0 →
      exec (.gap) s = .next (s.withHw (((g.relEnqueue 32).relPut 11 0 p).raise pgREL 2))) ∧
  -- snapshot
  (∀ (s : State) (h : Hw),
      h = s.hw →
      h.snapDue = true →
      exec (.snapshot) s = .next (s.withHw (({ h with rel := { h.rel with snapWanted := true, snapAt := h.now } } : Hw).relSnapTry))) ∧
  -- snapshot_wanted
  (∀ (s : State) (h : Hw),
      h = s.hw →
      h.snapDue = false →
      exec (.snapshot) s = .next (s.withHw (h.relSnapTry))) ∧
  -- snapEnd
  (∀ (s : State) (h : Hw) (b : Nat) (g : Hw),
      h = s.hw →
      g = h.record 9 0 (leBytes 4 b ++ leBytes 4 (h.rel.snapNo - 1)) →
      h.rel.snap = some b →
      h.recording = true →
      exec (.snapEnd) s = .next (s.withHw ((({ g with rel := { g.rel with snap := none, newest := some b, complete := insertLine g.rel.complete b } } : Hw).raise pgREL 3).relSnapTry))) ∧
  -- trigger
  (∀ (s : State) (h : Hw) (lines : List (Fin 2048)) (es : List Nat) (src : Nat) (g : Hw),
      h = s.hw →
      (es = (lines.map Fin.val).filter (fun e => h.seesEdge 2 e e && !h.lineSecure e)) →
      (src = (List.range 4).foldl (fun x k => if h.bit (REL_TRIG k) 31 && es.contains (h.get (REL_TRIG k) 10 0) then x + 2 ^ k else x) 0) →
      (g = { h with took := es.map (fun e => (2, e)) ++ h.took }) →
      ¬ src = 0 →
      exec (.trigger lines) s = .next (s.withHw (g.relTrigger src))) ∧
  -- relTrigSw
  (∀ (s : State) (h : Hw) (v : Word) (a : Attr),
      s.hw.takes (REL_TRIG_SW) a = true →
      h = s.hw.answer 0 →
      fld v.toNat 0 0 = 1 →
      h.live pgREL = true →
      h.relState = 1 →
      exec (.relTrigSw v a) s = .next (s.withHw (h.relTrigger 0x10))) ∧
  -- postEnd
  (∀ (s : State) (h : Hw),
      h = s.hw →
      h.postOver = true →
      exec (.postEnd) s = .next (s.withHw (h.relHold false))) ∧
  -- relRearm
  (∀ (s : State) (h : Hw) (v : Word) (a : Attr),
      s.hw.takes (REL_REARM) a = true →
      h = s.hw.answer 0 →
      ¬ fld v.toNat 0 0 = 0 →
      h.relState = 3 →
      exec (.relRearm v a) s = .next (s.withHw (h.relBegin h.rel))) ∧
  -- relEnable_on
  (∀ (s : State) (h : Hw) (v : Word) (g : Hw) (a : Attr),
      s.hw.takes (CTRL pgREL) a = true →
      h = s.hw.answer 0 →
      g = h.wr (CTRL pgREL) (fld v.toNat 2 0) →
      h.bit (CTRL pgREL) 0 = false →
      fld v.toNat 0 0 = 1 →
      h.relRegionsOk = true →
      exec (.relEnable v a) s = .next (s.withHw (g.relStart))) ∧
  -- relEnable_off
  (∀ (s : State) (h : Hw) (v : Word) (g : Hw) (a : Attr),
      s.hw.takes (CTRL pgREL) a = true →
      h = s.hw.answer 0 →
      g = h.wr (CTRL pgREL) (fld v.toNat 2 0) →
      h.bit (CTRL pgREL) 0 = true →
      fld v.toNat 1 1 = h.get (CTRL pgREL) 1 1 →
      ¬ fld v.toNat 0 0 = 1 →
      exec (.relEnable v a) s = .next (s.withHw (g.relStop))) ∧
  -- dump
  (∀ (s : State) (h : Hw) (v : Word) (t : Nat) (x : Hw) (y : Hw) (a : Attr),
      s.hw.takes (REL_DUMP) a = true →
      h = s.hw.answer 0 →
      t = fld v.toNat 17 16 →
      x = (h.wr REL_DUMP (0xC000_0000 + fld v.toNat 17 0)).setRelState 4 →
      y = { x.wr REL_DUMP_LEN x.dumpLen with rel := { x.rel with dumpBad := false } } →
      ¬ fld v.toNat 31 31 = 0 →
      h.relState = 3 →
      (¬(t = 0 ∨ t = 3 ∨ (t = 2 ∧ h.dumpFits = false))) →
      exec (.dump v a) s = .next (s.withHw (if decide (t = 2) && y.inHold then y.defer .relDump else y.dumpGo))) ∧
  -- dumpDone
  (∀ (s : State) (h : Hw),
      h = s.hw →
      h.live pgREL = true →
      h.relState = 4 →
      h.sys.deferred.contains .relDump = false →
      exec (.dumpDone) s = .next (s.withHw (((h.wr REL_DUMP ((if h.rel.dumpBad then 0x0100_0000 else 0) + h.get REL_DUMP 17 0)).setRelState 3).raise pgREL 4))) ∧
  -- takeGo
  (∀ (s : State) (h : Hw) (v : Word) (a : Attr),
      s.hw.takes (REL_TAKE_CTRL) a = true →
      h = s.hw.answer 0 →
      ¬ fld v.toNat 0 0 = 0 →
      h.lcsOpen = true →
      h.bit (CTRL pgCUE) 0 = false →
      h.get (CTRL pgREL) 1 0 = 3 →
      ¬ h.relState = 5 →
      exec (.takeGo v a) s = .next (s.withHw ((h.putBit REL_TAKE_CTRL 8 (fld v.toNat 8 8 == 1)).takeStart))) ∧
  -- takeCycle_image
  (∀ (s : State) (h : Hw) (x : TakeSt) (r : RelRec),
      h = s.hw →
      h.live pgREL = true →
      h.live pgCEA = true →
      h.rel.take = some x →
      h.takeNext x = some r →
      exec (.takeCycle) s = .next (s.withHw (h.takeLatch x r))) ∧
  -- takeCycle_record
  (∀ (s : State) (h : Hw) (x : TakeSt) (r : RelRec) (rest : List RelRec),
      h = s.hw →
      h.live pgREL = true →
      h.live pgCEA = true →
      h.rel.take = some x →
      h.takeNext x = none →
      x.left = r :: rest →
      ¬ r.kind = 11 →
      exec (.takeCycle) s = .next (s.withHw (h.takeRecord x r rest))) ∧
  -- takeEnd
  (∀ (s : State) (h : Hw) (x : TakeSt),
      h = s.hw →
      h.live pgREL = true →
      h.rel.take = some x →
      x.left = [] →
      exec (.takeEnd) s = .next (s.withHw (h.takeStop.raise pgREL 5))) ∧
  -- takeEnd_gap
  (∀ (s : State) (h : Hw) (x : TakeSt) (r : RelRec) (rest : List RelRec),
      h = s.hw →
      h.live pgREL = true →
      h.rel.take = some x →
      x.left = r :: rest →
      r.kind = 11 →
      exec (.takeEnd) s = .next (s.withHw (h.takeStop.raise pgREL 7)))

/-- The commands of boot, flash, update and recovery complete with their effect.
Derived from R672, R673, R674, R677, R678, R681, R682, R683, R684, R685, R686, R680 of the spec. The boot stages
follow one another: the ROM's end, the loader check, the image check and the unit reload each do their work or name a
reason for recovery mode, which is then entered; the flash programmer takes an accepted command and ends it; an update
that its checks let through erases and writes the main region; arming, ACTIVATE, a recovery request and a key
revocation act; recovery frames are answered and a staged image is committed. The rest of the module is unchanged. -/
def Obligations.BootAndUpdateCommandsComplete : Prop :=
  -- stageRom
  (∀ (s : State) (h : Hw),
      h = s.hw →
      h.bootAt 0 = true →
      exec (.stageRom) s = .next (s.withHw (h.bootStage 1))) ∧
  -- loaderCheck_none
  (∀ (s : State) (h : Hw),
      h = s.hw →
      h.bootAt 1 = true →
      (([copyA, copyB].map (fun o => h.flashRead o 0x10_0000)).find? (fun b => h.imageReason b 2 0x10_0000 == none) = none) →
      exec (.loaderCheck) s = .next (s.withHw (h.toRecovery 10))) ∧
  -- loaderCheck
  (∀ (s : State) (h : Hw),
      h = s.hw →
      h.bootAt 1 = true →
      exec (.loaderCheck) s = .next (s.withHw (match ([copyA, copyB].map (fun o => h.flashRead o 0x10_0000)).find? (fun b => h.imageReason b 2 0x10_0000 == none) with
      | none => h.toRecovery 10
      | some b =>
        let x := (h.arbAdvance 2 (imgSvn b)).bootStage 2
        match x.boot.reason with
        | some r => x.toRecovery r
        | none => if x.get BOOT_STAGE 18 16 = 0 then x else x.toRecovery 6))) ∧
  -- imageCheck
  (∀ (s : State) (h : Hw) (n : Nat) (b : List Byte) (x : Hw),
      h = s.hw →
      x = h.spaceWrite .t1 (Config.imageAt % 2 ^ 34) b →
      h.bootAt 2 = true →
      n = min mainLen (leNat (h.flashRead (mainAt + 12) 4)) →
      b = h.flashRead mainAt (max 512 n) →
      exec (.imageCheck) s = .next (s.withHw (match x.imageReason b 1 mainLen with
      | some r => x.toRecovery r
      | none => ((({ x with boot := { x.boot with key := imgKey b, image := some n } } : Hw).arbAdvance 1 (imgSvn b)).wr BOOT_IMG_SVN (imgSvn b)).bootStage 3))) ∧
  -- unitReload
  (∀ (s : State) (h : Hw) (n : Nat) (b : List Byte) (u : List (Nat × Nat × Nat)) (x : Hw),
      h = s.hw →
      (u = [7, 5, 4, 3, 1].flatMap (fun ty => ((imgTable b).filter (fun e => e.1 == ty)).map (fun e => (e.1, e.2.1, e.2.2.2.2)))) →
      x = { h.loadProfiles with boot := { h.boot with loaded := u } } →
      h.bootAt 3 = true →
      h.boot.image = some n →
      (b = (List.range n).map (fun i => h.t1Byte (Config.imageAt % 2 ^ 34 + i))) →
      exec (.unitReload) s = .next (s.withHw (Hw.bootStage (match (imgTable b).find? (fun e => e.1 == 2) with
        | some e =>
          let z := x.spaceWrite .t1 0 (slice b e.2.2.1 e.2.2.2.1)
          { z with cores := z.cores.set 0 { world := true } }
        | none => x) 4))) ∧
  -- recoveryEntry
  (∀ (s : State) (h : Hw) (r : Nat),
      h = s.hw →
      h.boot.enter = some r →
      exec (.recoveryEntry) s = .next (s.withHw ((h.inRecovery r).recoverySettings.raise pgBOOT 7))) ∧
  -- flashErase
  (∀ (s : State) (h : Hw) (v : Word) (o : Nat) (src : Nat) (g : Hw) (x : Hw) (a : Attr),
      s.hw.takes (BOOT_FL_CMD) a = true →
      h = s.hw.answer 0 →
      o = h.get BOOT_FL_OFS 29 0 →
      src = 2 ^ 32 * h.get BOOT_FL_SRC_HI 7 0 + h.rd BOOT_FL_SRC_LO →
      g = (h.wr BOOT_FL_CMD (1 * 2 ^ 28 + 2 ^ 27)).wr BOOT_FL_DONE 0 →
      x = g.putBit (STATUS pgBOOT) 0 true →
      a.secure = true →
      h.bit BOOT_FL_CMD 27 = false →
      o % 0x1_0000 = 0 →
      g.regionRefused 1 o 0x1_0000 src = false →
      x.inHold = false →
      exec (.flashErase v a) s = .next (s.withHw ({ x with boot := { x.boot with busy := some { op := 1, ofs := o, len := 0x1_0000, src := src } } }))) ∧
  -- flashProgram
  (∀ (s : State) (h : Hw) (v : Word) (o : Nat) (n : Nat) (src : Nat) (g : Hw) (x : Hw) (a : Attr),
      s.hw.takes (BOOT_FL_CMD) a = true →
      h = s.hw.answer 0 →
      o = h.get BOOT_FL_OFS 29 0 →
      n = h.get BOOT_FL_LEN 24 0 →
      src = 2 ^ 32 * h.get BOOT_FL_SRC_HI 7 0 + h.rd BOOT_FL_SRC_LO →
      g = (h.wr BOOT_FL_CMD (2 * 2 ^ 28 + 2 ^ 27)).wr BOOT_FL_DONE 0 →
      x = g.putBit (STATUS pgBOOT) 0 true →
      a.secure = true →
      h.bit BOOT_FL_CMD 27 = false →
      (o % 256 = 0 ∧ n % 256 = 0 ∧ 256 ≤ n ∧ n ≤ 0x100_0000) →
      g.regionRefused 2 o n src = false →
      x.inHold = false →
      exec (.flashProgram v a) s = .next (s.withHw ({ x with boot := { x.boot with busy := some { op := 2, ofs := o, len := n, src := src } } }))) ∧
  -- flashVerify
  (∀ (s : State) (h : Hw) (v : Word) (o : Nat) (n : Nat) (src : Nat) (g : Hw) (x : Hw) (a : Attr),
      s.hw.takes (BOOT_FL_CMD) a = true →
      h = s.hw.answer 0 →
      o = h.get BOOT_FL_OFS 29 0 →
      n = h.get BOOT_FL_LEN 24 0 →
      src = 2 ^ 32 * h.get BOOT_FL_SRC_HI 7 0 + h.rd BOOT_FL_SRC_LO →
      g = (h.wr BOOT_FL_CMD (3 * 2 ^ 28 + 2 ^ 27)).wr BOOT_FL_DONE 0 →
      x = g.putBit (STATUS pgBOOT) 0 true →
      a.secure = true →
      h.bit BOOT_FL_CMD 27 = false →
      (o % 256 = 0 ∧ n % 256 = 0 ∧ 256 ≤ n ∧ n ≤ 0x100_0000) →
      g.regionRefused 3 o n src = false →
      x.inHold = false →
      exec (.flashVerify v a) s = .next (s.withHw ({ x with boot := { x.boot with busy := some { op := 3, ofs := o, len := n, src := src } } }))) ∧
  -- flDone
  (∀ (s : State) (h : Hw) (pages : BitVec 17) (o : FlashOp),
      h = s.hw →
      h.boot.busy = some o →
      h.inHold = false →
      o.op = 1 →
      exec (.flDone true pages) s = .next (s.withHw ((((h.flashErase o.ofs 0x1_0000).wr BOOT_FL_DONE 0x1_0000).flEnd 0)))) ∧
  -- flDone_pages
  (∀ (s : State) (h : Hw) (pages : BitVec 17) (o : FlashOp),
      h = s.hw →
      h.boot.busy = some o →
      h.inHold = false →
      o.op = 2 →
      exec (.flDone true pages) s = .next (s.withHw (each pages.toNat (fun _ (h : Hw) => h.flPage) h))) ∧
  -- flDone_verify
  (∀ (s : State) (h : Hw) (pages : BitVec 17) (o : FlashOp),
      h = s.hw →
      h.boot.busy = some o →
      h.inHold = false →
      o.op = 3 →
      exec (.flDone true pages) s = .next (s.withHw (h.flVerify o))) ∧
  -- flDone_failed
  (∀ (s : State) (h : Hw) (pages : BitVec 17) (o : FlashOp),
      h = s.hw →
      h.boot.busy = some o →
      h.inHold = false →
      exec (.flDone false pages) s = .next (s.withHw (h.flEnd 2))) ∧
  -- updateGo
  (∀ (s : State) (h : Hw) (v : Word) (head : List Byte) (y : Hw) (src : Nat) (len : Nat) (x : Hw) (z : Hw) (a : Attr),
      s.hw.takes (BOOT_UPD_CTRL) a = true →
      h = s.hw.answer 0 →
      src = 2 ^ 32 * h.get BOOT_UPD_SRC_HI 7 0 + h.rd BOOT_UPD_SRC_LO →
      len = h.rd BOOT_UPD_LEN →
      x = h.putBit BOOT_ACT 31 false →
      z = { y.wr BOOT_UPD_CTRL (2 ^ 31 + 1) with boot := { y.boot with update := some (src, len) } } →
      a.secure = true →
      ¬ fld v.toNat 31 31 = 0 →
      ¬ h.get BOOT_UPD_CTRL 2 0 = 1 →
      x.memRead src 256 (ownAttr 0x02) = (some head, y) →
      y.updRefuses head len = none →
      z.inHold = false →
      exec (.updateGo v a) s = .next (s.withHw (z.updErase))) ∧
  -- updDone
  (∀ (s : State) (h : Hw) (src len : Nat) (bs : List Byte) (y : Hw) (x : Hw),
      h = s.hw →
      x = { h with boot := { h.boot with update := none } } →
      h.boot.update = some (src, len) →
      h.inHold = false →
      x.memRead src len (ownAttr 0x02) = (some bs, y) →
      exec (.updDone true) s = .next (s.withHw (((y.flashProgram mainAt bs).wr BOOT_UPD_CTRL 2).raise pgBOOT 0))) ∧
  -- actArm
  (∀ (s : State) (h : Hw) (v : Word) (a : Attr),
      s.hw.takes (BOOT_ACT) a = true →
      h = s.hw.answer 0 →
      a.secure = true →
      h.get BOOT_UPD_CTRL 2 0 = 2 →
      exec (.actArm v a) s = .next (s.withHw (h.putBit BOOT_ACT 31 (fld v.toNat 31 31 == 1)))) ∧
  -- activate
  (∀ (s : State) (h : Hw) (c : CueRef) (v : Nat),
      s.hw.cueActs c 0x58 v = true →
      h = s.hw.cueFired c.idx →
      h.bit BOOT_ACT 31 = true →
      h.inHold = false →
      exec (.activate c) s = .next (s.withHw ((h.raise pgBOOT 2).mainReset 6))) ∧
  -- bootRecover
  (∀ (s : State) (h : Hw) (v : Word) (r : Nat) (a : Attr),
      s.hw.takes (BOOT_RECOVER) a = true →
      h = s.hw.answer 0 →
      r = fld v.toNat 11 8 →
      ¬ fld v.toNat 0 0 = 0 →
      (¬(r ≠ 0 ∧ r ≠ 7 ∧ r ≠ 9)) →
      exec (.bootRecover v a) s = .next (s.withHw (({ h with boot := { h.boot with reason := some (if r = 0 then 9 else r) } } : Hw).mainReset 7))) ∧
  -- bootPkRev
  (∀ (s : State) (h : Hw) (v : Word) (keys : Nat) (a : Attr),
      s.hw.takes (BOOT_PK_REV) a = true →
      h = s.hw.answer 0 →
      keys = fld v.toNat 3 0 →
      fld v.toNat 31 16 = 0x5245 →
      ¬ fld keys h.boot.key h.boot.key = 1 →
      h.inHold = false →
      exec (.bootPkRev v a) s = .next (s.withHw (h.put BOOT_ARB 27 24 (h.get BOOT_ARB 27 24 ||| keys)))) ∧
  -- query
  (∀ (s : State) (h : Hw) (p : Fin 4) (b x : List Byte) (host : Nat),
      h = s.hw →
      h.recoveryFrame b 1 = some (host, x) →
      exec (.query p b) s = .next (s.withHw (h.recoveryAnswer p host (leNat (slice x 2 2)) true 0))) ∧
  -- data
  (∀ (s : State) (h : Hw) (p : Fin 4) (b x : List Byte) (host : Nat),
      h = s.hw →
      h.recoveryFrame b 2 = some (host, x) →
      leNat (slice x 4 4) + leNat (slice x 8 2) ≤ 0x400_0000 →
      exec (.data p b) s = .next (s.withHw ((h.memWrite (stagingAt + leNat (slice x 4 4)) (slice x 12 (leNat (slice x 8 2))) (ownAttr 0)).2.recoveryAnswer p host (leNat (slice x 2 2)) false 0))) ∧
  -- recoveryCommit
  (∀ (s : State) (h : Hw) (p : Fin 4) (b x : List Byte) (host : Nat) (ok : Bool),
      h = s.hw →
      h.recoveryFrame b 3 = some (host, x) →
      exec (.recoveryCommit p b ok) s = .next (s.withHw (h.recoveryCommit (leNat (slice x 12 4)) ok (some (p, host, leNat (slice x 2 2)))))) ∧
  -- bootRcvCommit
  (∀ (s : State) (h : Hw) (v : Word) (ok : Bool) (a : Attr),
      s.hw.takes (BOOT_RCV_COMMIT) a = true →
      h = s.hw.answer 0 →
      h.bit BOOT_STAGE 31 = true →
      h.get BOOT_STAGE 18 16 = 2 →
      exec (.bootRcvCommit v a ok) s = .next (s.withHw (h.recoveryCommit v.toNat ok none)))

/-- The commands of supply, reset and power domains complete with their effect.
Derived from R691, R692, R694, R695, R697, R699, R700, R702, R703, R705 of the spec. Hold is entered and left with
what it defers; the supply measurements set and raise their flags; power-on, reset, release, a reset request and the
watchdog (once its time is over, not before) start or end a reset; requests for domains and clocks are made for the
targets written, the present one ends, and the module sleeps and wakes; counter clears restore the reset values. The
rest of the module is unchanged. -/
def Obligations.SupplyAndPowerCommandsComplete : Prop :=
  -- holdEnter
  (∀ (s : State) (h : Hw) (mv : BitVec 16) (page : Bool) (g : Hw) (x : Hw),
      h = s.hw →
      g = h.vbatMeasured mv.toNat →
      x = { g with sys := { g.sys with holdSince := g.now }, hlt := { g.hlt with hold := true, holds := g.hlt.holds + 1 } } →
      g.bit SUP_STATE 31 = false →
      (page = match g.boot.busy with | some o => o.op == 2 | none => false) →
      g.belowWarn mv.toNat = true →
      exec (.holdEnter mv) s = .next (s.withHw (((({ x with boot := { x.boot with page := page } } : Hw).putBit SUP_STATE 31 true).sat SUP_HOLD_CNT).raise pgSUP 0))) ∧
  -- holdExit
  (∀ (s : State) (h : Hw) (mv : BitVec 16) (ok : Bool) (g : Hw) (x : Hw) (y : Hw),
      h = s.hw →
      g = h.vbatMeasured mv.toNat →
      x = (({ g with sys := { g.sys with deferred := [] }, boot := { g.boot with page := false } } : Hw).putBit SUP_STATE 31 false).put SUP_STATE 23 16 0 →
      y = (x.wr SUP_HOLD_LAST (min 0xFFFF_FFFF ((x.now - x.sys.holdSince) / 1200))).raise pgSUP 1 →
      g.inHold = true →
      g.atExitLevel mv.toNat = true →
      g.sys.holdSince + 1_200_000 ≤ g.now →
      exec (.holdExit mv ok) s = .next (s.withHw (g.sys.deferred.foldl (fun (h : Hw) d => h.runDeferred ok d) y))) ∧
  -- vbatHigh
  (∀ (s : State) (h : Hw) (mv : BitVec 16) (g : Hw),
      h = s.hw →
      g = h.vbatMeasured mv.toNat →
      exec (.vbatHigh mv) s = .next (s.withHw ((g.putBit SUP_STATE 1 (decide (18_500 < mv.toNat))).raiseIf (decide (18_500 < mv.toNat) && !g.bit SUP_STATE 1) pgSUP 2))) ∧
  -- in48Fault
  (∀ (s : State) (h : Hw) (uv ov : Bool) (tens : BitVec 16) (x : Hw) (y : Hw),
      h = s.hw →
      x = (h.put SUP_VOLT 31 16 tens.toNat).raiseIf (uv && !h.bit SUP_STATE 2) pgSUP 3 →
      y = ((x.raiseIf (ov && !x.bit SUP_STATE 3) pgSUP 4).putBit SUP_STATE 2 uv).putBit SUP_STATE 3 ov →
      exec (.in48Fault uv ov tens) s = .next (s.withHw (if h.in48Bad && !uv && !ov then each 16 (fun c (h : Hw) => h.in48Back c) y else y))) ∧
  -- vbatLoss
  (∀ (s : State) (h : Hw),
      h = s.hw →
      exec (.vbatLoss) s = .next (s.withHw (h.vbatLost))) ∧
  -- vbatPowerOn
  (∀ (s : State) (h : Hw) (mv : BitVec 16) (x : Hw),
      h = s.hw →
      x = { h with sys := { h.sys with vbatOff := false, inReset := true, causes := [1], resetAt := h.now } } →
      h.sys.vbatOff = true →
      exec (.vbatPowerOn mv) s = .next (s.withHw ((x.lcsTakes.wr PWR_STATE 3).stagePower.vbatMeasured mv.toNat))) ∧
  -- mainLogicReset
  (∀ (s : State) (h : Hw) (mv : BitVec 16) (g : Hw),
      h = s.hw →
      g = h.vbatMeasured mv.toNat →
      mv.toNat ≤ 4550 →
      exec (.mainLogicReset mv) s = .next (s.withHw ((g.raiseIf g.inHold pgSUP 5).mainReset 2))) ∧
  -- resetN
  (∀ (s : State) (h : Hw) (low : Bool) (x : Hw),
      h = s.hw →
      x = { h with sys := { h.sys with resetNLow := low, resetAt := h.now } } →
      exec (.resetN low) s = .next (s.withHw (if low then x.mainReset 3 else x))) ∧
  -- resetRelease
  (∀ (s : State) (h : Hw) (bootMode : BitVec 3) (twinRole spanRole : Bool) (x : Hw) (y : Hw),
      h = s.hw →
      x = { h with sys := { h.sys with causes := [], inReset := false }, boot := { h.boot with released := h.now } } →
      y = (x.put SYS_RESET_CAUSE 3 0 (h.sys.causes.headD 0)).incF SYS_RESET_CAUSE 31 16 →
      h.releaseDue = true →
      exec (.resetRelease bootMode twinRole spanRole) s = .next (s.withHw ((y.straps bootMode.toNat spanRole twinRole).powerInOrder pdOrder))) ∧
  -- sysResetReq
  (∀ (s : State) (h : Hw) (v : Word) (a : Attr),
      s.hw.takes (SYS_RESET_REQ) a = true →
      h = s.hw.answer 0 →
      a.secure = true →
      fld v.toNat 31 16 = 0x5253 →
      fld v.toNat 0 0 = 1 →
      exec (.sysResetReq v a) s = .next (s.withHw (h.mainReset 5))) ∧
  -- sysWdog
  (∀ (s : State) (h : Hw) (v : Word) (n : Nat) (a : Attr),
      s.hw.takes (SYS_WDOG) a = true →
      h = s.hw.answer 0 →
      n = h.get SYS_WDOG_NEXT 15 0 →
      fld v.toNat 15 0 = n →
      fld v.toNat 31 16 = 0xFFFF - n →
      exec (.sysWdog v a) s = .next (s.withHw ({ h.put SYS_WDOG_NEXT 15 0 (n + 1) with sys := { h.sys with wdogBad := 0, wdogAt := h.now } }))) ∧
  -- sysWdog_wrong
  (∀ (s : State) (h : Hw) (v : Word) (n : Nat) (a : Attr),
      s.hw.takes (SYS_WDOG) a = true →
      h = s.hw.answer 0 →
      n = h.get SYS_WDOG_NEXT 15 0 →
      (¬(fld v.toNat 15 0 = n ∧ fld v.toNat 31 16 = 0xFFFF - n)) →
      h.bit SYS_WDOG_CFG 31 = true →
      exec (.sysWdog v a) s = .next (s.withHw (if 1 ≤ h.sys.wdogBad then h.mainReset 4 else { h with sys := { h.sys with wdogBad := 1 } }))) ∧
  -- sysWdogExpiry
  (∀ (s : State) (h : Hw),
      h = s.hw →
      h.wdogOver = true →
      exec (.sysWdogExpiry) s = .next (s.withHw (h.mainReset 4))) ∧
  -- sysWdogExpiry_early
  (∀ (s : State) (h : Hw),
      h = s.hw →
      h.now < h.sys.wdogAt + h.get SYS_WDOG_CFG 9 0 * 1_200_000 →
      exec (.sysWdogExpiry) s = .next (s.withHw (h))) ∧
  -- pwrOn
  (∀ (s : State) (h : Hw) (v : Word) (a : Attr),
      s.hw.takes (PWR_ON) a = true →
      h = s.hw.answer 0 →
      exec (.pwrOn v a) s = .next (s.withHw ((pwrTargets true v.toNat).foldl (fun h d => h.pwrRequest (reqOf true false d a)) h))) ∧
  -- pwrOff
  (∀ (s : State) (h : Hw) (v : Word) (a : Attr),
      s.hw.takes (PWR_OFF) a = true →
      h = s.hw.answer 0 →
      exec (.pwrOff v a) s = .next (s.withHw ((pwrTargets false v.toNat).foldl (fun h d => h.pwrRequest (reqOf false false d a)) h))) ∧
  -- pwrClkOff
  (∀ (s : State) (h : Hw) (m : Fin 32) (v : Word) (a : Attr),
      s.hw.takes (PWR_CLK_OFF m) a = true →
      h = s.hw.answer 0 →
      exec (.pwrClkOff m v a) s = .next (s.withHw ((clkTargets m v.toNat).foldl (fun h p => h.pwrRequest (reqOf false true p a)) h))) ∧
  -- pwrClkOn
  (∀ (s : State) (h : Hw) (m : Fin 32) (v : Word) (a : Attr),
      s.hw.takes (PWR_CLK_ON m) a = true →
      h = s.hw.answer 0 →
      exec (.pwrClkOn m v a) s = .next (s.withHw ((clkTargets m v.toNat).foldl (fun h p => h.pwrRequest (reqOf true true p a)) h))) ∧
  -- pdDone
  (∀ (s : State) (h : Hw) (r : PwrReq) (x : Hw) (y : Hw) (z : Hw),
      h = s.hw →
      x = { h with pwr := { h.pwr with active := none } } →
      (y = if r.on then x.domainUp r.target else x.domainOff r.target (r.target == 18 && x.pwr.refresh)) →
      z = y.putBit PWR_BUSY r.target (y.pwr.queue.any r.same) →
      h.pwr.active = some r →
      exec (.pdDone) s = .next (s.withHw (((z.pwrLast r 0).raise pgPWR 0).pwrGo))) ∧
  -- moduleSleep
  (∀ (s : State) (h : Hw) (l : List Nat) (x : Hw),
      h = s.hw →
      (l = pdOrder.reverse.filter (fun d => decide (fld (h.get PWR_SLEEP 23 0) d d = 0) && h.pdOn d && !(h.bit PWR_SLEEP 30 && d == 18))) →
      x = { h with pwr := { h.pwr with sleepSeq := true, slept := l, refresh := h.bit PWR_SLEEP 30 && decide (fld (h.get PWR_SLEEP 23 0) 18 18 = 0) }, nmu := { h.nmu with woke := false } } →
      h.bit PWR_SLEEP 31 = true →
      h.nmu.asleep = true →
      h.pwr.asleep = false →
      h.pwr.sleepSeq = false →
      exec (.moduleSleep) s = .next (s.withHw ((l.foldl (fun h d => h.pwrRequest { on := false, clk := false, target := d, secure := false, mid := 0, vmid := 0 } true) x).sleepCheck))) ∧
  -- moduleWake
  (∀ (s : State) (h : Hw) (l : List Nat) (x : Hw),
      h = s.hw →
      l = h.pwr.slept →
      x = { h with pwr := { h.pwr with asleep := false, sleepSeq := false, refresh := false, slept := [] } } →
      (h.pwr.asleep = true ∨ h.pwr.sleepSeq = true) →
      h.nmu.woke = true →
      exec (.moduleWake) s = .next (s.withHw (if h.wentOff 3 || h.wentOff 6 || (h.wentOff 18 && !h.pwr.refresh) then x.mainReset 8 else ((x.sleepWithdrawn l).powerInOrder l).raise pgPWR 4))) ∧
  -- supCntClr
  (∀ (s : State) (h : Hw) (v : Word) (a : Attr),
      s.hw.takes (SUP_CNT_CLR) a = true →
      h = s.hw.answer 0 →
      fld v.toNat 0 0 = 1 →
      fld v.toNat 1 1 = 1 →
      fld v.toNat 2 2 = 1 →
      fld v.toNat 3 3 = 1 →
      exec (.supCntClr v a) s = .next (s.withHw ((((h.wr SUP_VBAT_MIN 0xFFFF).wr SUP_VBAT_MAX 0).wr SUP_HOLD_CNT 0).wr SUP_HOLD_LAST 0)))

/-- The commands of event routing and of the analog inputs complete with their effect.
Derived from R225, R565, R706, R707, R708, R729 of the spec. An accepted EVR_ROUTE is stored, and a line that is high
then delivers once; the edge that the EVR has held longest goes into the file that its route named, and no other edge
passes it; an ADC burst starts, a running one ends with its samples in the record, and a temperature input is sampled.
The rest of the module is unchanged. -/
def Obligations.EventAndAnalogCommandsComplete : Prop :=
  -- evrRouteWrite
  (∀ (s : State) (h : Hw) (e : Fin 2048) (v : Word) (g : Hw) (a : Attr),
      s.hw.takes (EVR_ROUTE e) a = true →
      h = s.hw.answer 0 →
      g = h.storeReg (EVR_ROUTE e) v.toNat →
      (¬(11 < fld v.toNat 27 24 ∨ 8 < fld v.toNat 19 16 ∨ fld v.toNat 10 0 = 0)) →
      a.secure = true →
      exec (.evrRouteWrite e v a) s = .next (s.withHw (if !h.bit (EVR_ROUTE e) 31 && g.bit (EVR_ROUTE e) 31 && g.lineHigh e then { g with edges := match g.routed e with | some x => insertEdge g.edges x | none => g.edges } else g))) ∧
  -- eventDelivery
  (∀ (s : State) (h : Hw) (e : Fin 2048) (x : EvEdge) (rest : List EvEdge),
      h = s.hw →
      h.edges = x :: rest →
      x.line = e.val →
      exec (.eventDelivery e) s = .next (s.withHw ({ h with edges := rest, ints := if h.ints.contains x.dest then h.ints else h.ints ++ [x.dest] }))) ∧
  -- eventDelivery_waits
  (∀ (s : State) (h : Hw) (e : Fin 2048) (x : EvEdge) (rest : List EvEdge),
      h = s.hw →
      h.edges = x :: rest →
      ¬ x.line = e.val →
      exec (.eventDelivery e) s = .next (s.withHw (h))) ∧
  -- adcBurst
  (∀ (s : State) (h : Hw) (n : Nat) (c : CueRef) (v : Nat),
      s.hw.cueActs c 0x03 v = true →
      h = s.hw.cueFired c.idx →
      n = fld (cueArg (h.cueOf c)) 3 0 →
      (find? h.ain.running n).isSome = false →
      h.bit (AIN_BURST_W1 n) 31 = true →
      exec (.adcBurst c) s = .next (s.withHw ({ h with ain := { h.ain with running := file h.ain.running n { tick := nowLo v, at_ := h.now } } }))) ∧
  -- burstComplete
  (∀ (s : State) (h : Hw) (b : Fin 16) (mv : List (BitVec 16)) (vbat : BitVec 16) (x : Burst) (g : Hw) (r : List Nat × Hw) (bytes : List Byte),
      h = s.hw →
      g = { h with ain := { h.ain with running := unfile h.ain.running b } } →
      r = g.sampleInputs vbat.toNat (g.burstInputs b) (mv.map (·.toNat)) →
      bytes = leBytes 4 x.tick ++ r.1.flatMap (leBytes 2) →
      h.live pgAIN = true →
      find? h.ain.running b = some x →
      h.burstDone b x = true →
      exec (.burstComplete b mv vbat) s = .next (s.withHw (each 32 (fun w h => if 4 * w < bytes.length then h.wr (AIN_RES b w) (leNat (slice bytes (4 * w) 4)) else h) r.2))) ∧
  -- tempInputSample
  (∀ (s : State) (h : Hw) (i : Fin 48) (mv vbat : BitVec 16) (g : Hw),
      h = s.hw →
      g = { h with ain := { h.ain with polledAt := file h.ain.polledAt i h.now } } →
      h.pollDue i = true →
      exec (.tempInputSample i mv vbat) s = .next (s.withHw ((g.sampleInput i mv.toNat vbat.toNat).2)))

/-- A step runs the command at the front of the queue on the state with the rest of the queue.
Derived from 95_what_each_step_holds.md of the spec. For every command c, queue rest and state s whose queue is c
followed by rest, step s is exec c on s with the queue rest. The queue is the model's own (assumption log, entry 1). -/
def Obligations.StepRunsTheFrontCommand : Prop :=
  -- front
  (∀ (s : State) (c : Instr) (rest : List Instr), s.pending = c :: rest → step s = exec c { s with pending := rest })

/-- On an empty queue one cue clock cycle passes, and nothing else happens but what is due by then.
Derived from 95_what_each_step_holds.md of the spec. A step on an empty queue answers the state in which one cue clock
cycle has passed. Where no cue waits deferred, the twin has no STATE segment to send and no restart is due by the new
time, the time advances by 1, the cue instants up to each slot's present value are passed, the event edges of the
cycle are over, what the module sent on the Span link, on the Exrex link and in recovery mode has been taken, and
nothing else changes. All of this is the model's own choice (assumption log, entry 2). -/
def Obligations.EmptyQueueTicks : Prop :=
  -- tick
  (∀ (s : State), s.pending = [] → step s = .next (s.withHw s.hw.tick)) ∧
  -- quiet
  (∀ (s : State), s.pending = [] → s.hw.cue.late = [] → s.hw.twn.sendSeg = none → (∀ t, s.hw.boot.restartAt = some t → s.hw.now + 1 < t) →
      step s = .next (s.withHw { s.hw with
        now := s.hw.now + 1
        tcu0 := { s.hw.tcu0 with mark := s.hw.slotVal 0 + 1 }
        tcu1 := { s.hw.tcu1 with mark := s.hw.slotVal 1 + 1 }
        tcu2 := { s.hw.tcu2 with mark := s.hw.slotVal 2 + 1 }
        tcu3 := { s.hw.tcu3 with mark := s.hw.slotVal 3 + 1 }
        rose := []
        took := []
        span := { s.hw.span with out := [] }
        twn := { s.hw.twn with out := [] }
        boot := { s.hw.boot with answers := [] } }))

/-- Every command answers a next state in every state, and leaves the queue alone.
Derived from 95_what_each_step_holds.md, R17 of the spec. For every command c and every state s there is a state t
with exec c s = next t, and the queue of t is that of s: no command of this block faults or is refused by the model;
an access that the spec refuses is answered with an error response and captured. -/
def Obligations.EveryCommandAnswers : Prop :=
  -- answers
  (∀ (c : Instr) (s : State), ∃ t : State, exec c s = .next t ∧ t.pending = s.pending)

/-- The commands that wait run in order, one a step, and the queue is empty after as many steps.
Derived from 95_what_each_step_holds.md of the spec. For every module h, every list q of commands and every list r
after them: as many steps as q is long, from h with the queue q followed by r, answer the module that the commands of
q leave when each is run on its own in order, and the queue r. With r empty, the queue is empty after as many steps as
it is long. The queue is the model's own (assumption log, entry 1). -/
def Obligations.QueueRunsInOrder : Prop :=
  -- order
  (∀ (q r : List Instr) (h : Hw), Host.Core.run core q.length (⟨h, q ++ r⟩ : State) = .next (⟨h.after q, r⟩ : State))

/-- After reset the queue is empty, no register differs from its reset value, and every memory is in its canonical form.
Derived from R697, R8, R14 of the spec. State.reset has an empty queue; every register of it reads as its reset value;
its registers and memories are in canonical form; no register has a shadow (R8), no event line has risen. Which reset
values are the model's own, the assumption log says (entries 5, 7, 8, 11). -/
def Obligations.ResetIsCanonical : Prop :=
  -- canonical
  (State.reset.Inv ∧ State.reset.pending = [] ∧ (∀ k, State.reset.hw.rd k = (regReset k).toNat) ∧ State.reset.hw.shadow = [] ∧ State.reset.hw.edges = [])

/-- Every step keeps the registers in canonical form.
Derived from R10, R17, R704 of the spec. The registers stand in one table that lists a register only where it differs
from its reset value, each once, in rising order of address. From every state whose registers are so listed, a step
that answers a next state answers one whose registers are so listed, whatever the command: every write of a register,
every counter, event and capture, and every reset of a domain keeps the form, so that equal register contents are
equal data. -/
def Obligations.StepKeepsRegistersCanonical : Prop :=
  -- keeps
  (∀ (s t : State), s.hw.regsOk = true → step s = .next t → t.hw.regsOk = true)

/-- Every step keeps every memory in canonical form.
Derived from R279, R365, R467, R496, R506 of the spec. T0, T1, the flash device, the Granary's cells, program memory,
the instance pool, the PDU RAM and the data RAMs of the CAN controllers each list a byte only where it differs from
what an unlisted byte reads as, each once, in rising order of address. From every state in which they all have this
form, a step that answers a next state answers one in which they all have it: stores, drains, migrations between T0
and T1, copies, erases and resets keep the form. -/
def Obligations.StepKeepsMemoriesCanonical : Prop :=
  -- keeps
  (∀ (s t : State), s.hw.memsOk = true → step s = .next t → t.hw.memsOk = true)

/-- A step takes at most one command from the queue, adds none, and keeps the waiting commands well formed.
Derived from 95_what_each_step_holds.md of the spec. From every state whose waiting commands are well formed, a step
answers a state whose queue is the tail of the queue before (the empty queue for an empty one), so that its waiting
commands are well formed too: no command puts another one into the queue. The queue is the model's own (assumption
log, entry 1). -/
def Obligations.StepKeepsQueueWellFormed : Prop :=
  -- keeps
  (∀ (s : State), s.QueueOk → ∃ t : State, step s = .next t ∧ t.pending = s.pending.tail ∧ t.QueueOk)

/-- A register reads as the low 32 bits written to it, and every other register as before.
Derived from R10, R17 of the spec. In every module whose registers are in canonical form, after the value v is given
to register k, register k reads as v modulo 2^32 and every other register as before; after a field of register k is
given the value x, that field reads as the low bits of x, and every other register and every field of k that does not
overlap it as before. -/
def Obligations.RegisterReadAfterWrite : Prop :=
  -- register
  (∀ (h : Hw) (k v j : Nat), h.regsOk = true → (h.wr k v).rd j = if j = k then v % 2 ^ 32 else h.rd j) ∧
  -- field
  (∀ (h : Hw) (k hi lo x hi' lo' : Nat), h.regsOk = true → lo ≤ hi → hi < 32 → lo' ≤ hi' → hi' < 32 →
      (h.put k hi lo x).get k hi lo = x % 2 ^ (hi + 1 - lo) ∧ ((hi' < lo ∨ hi < lo') → (h.put k hi lo x).get k hi' lo' = h.get k hi' lo') ∧
      (∀ j, j ≠ k → (h.put k hi lo x).rd j = h.rd j))

/-- Stored bytes read back, and every byte outside them reads as before.
Derived from R279, R496, R506 of the spec. In every byte memory in canonical form, after the bytes bs are stored from
address a, the memory is in canonical form, byte i of bs reads back at a + i, and every byte at an address outside the
stored ones reads as before. -/
def Obligations.MemoryReadAfterWrite : Prop :=
  -- bytes
  (∀ (m : Mem) (bs : List Byte) (a x : Nat), m.wf = true →
      (m.write a bs).wf = true ∧ (m.write a bs).get x = if h : a ≤ x ∧ x < a + bs.length then bs[x - a] else m.get x)

/-- A register command whose gates are closed changes nothing but the answer and the error capture.
Derived from R716, R7, R10, R17, R557, R704 of the spec. For every command that writes one register k with the
attributes a, in every state: a transaction that the dead JTAG lands do not carry (R716) changes nothing at all; of
any other, where no block has the page of k (R7), it is answered with an error response and nothing else changes;
else, where the page's domain is off or its clock is stopped (R704), it is answered with an error response and
captured on the PWR page with code 0x0102; else, where the page's world gate does not let the transaction in (R557),
it is answered with an error response and captured on the page with code 0x0002. In each case nothing else of the
module changes. The order of these checks is the model's reading (assumption log, entry 13). -/
def Obligations.ClosedGatesStopEveryRegisterCommand : Prop :=
  -- deadLands
  (∀ (s : State) (c : Instr) (k : Nat) (a : Attr), registerOf c = some (k, a) → s.hw.jtagShut a = true → exec c s = .next s) ∧
  -- noPage
  (∀ (s : State) (c : Instr) (k : Nat) (a : Attr), registerOf c = some (k, a) → s.hw.jtagShut a = false → pageRow (k / 0x10000) = none →
      exec c s = .next (s.withHw s.hw.errResp)) ∧
  -- noPower
  (∀ (s : State) (c : Instr) (k : Nat) (a : Attr), registerOf c = some (k, a) → s.hw.jtagShut a = false → (pageRow (k / 0x10000)).isSome = true → s.hw.live (k / 0x10000) = false →
      exec c s = .next (s.withHw (s.hw.capture pgPWR 0x0102 (busAddr k) a).errResp)) ∧
  -- wrongWorld
  (∀ (s : State) (c : Instr) (k : Nat) (a : Attr), registerOf c = some (k, a) → s.hw.jtagShut a = false → (pageRow (k / 0x10000)).isSome = true → s.hw.live (k / 0x10000) = true →
      s.hw.gateOpen (k / 0x10000) a = false → exec c s = .next (s.withHw (s.hw.refuse k 0x0002 a)))

/-- A read or write of any register through a closed gate, or a write of a locked one, changes only the answer and the capture.
Derived from R716, R6, R7, R10, R17, R557, R704 of the spec. For every register address k of the register pages
(aligned), every value v, attributes a and state, REGISTER_WRITE and the two register reads of k: a transaction that
the dead JTAG lands do not carry (R716) changes nothing at all, whatever its width; of any other, where no block has
the page of k, the access is answered with an error response and nothing else changes; else, where the page's domain
is off or its clock is stopped, it is answered with an error response and captured on the PWR page with code 0x0102;
else, where the page's world gate does not let it in, it is answered with an error response and captured on the page
with code 0x0002. Where the gates are open and the register is locked, a write is answered with an error response and
captured on the page with code 0x0003. Nothing else of the module changes, whichever block the register belongs to.
The order of these checks is the model's reading (assumption log, entry 13). -/
def Obligations.ClosedGatesStopEveryRegisterAccess : Prop :=
  -- deadLands
  (∀ (s : State) (addr width k : Nat) (v : Word) (a : Attr) (c : Instr), regAt addr = some k →
      c = .registerWrite addr width v a ∨ c = .lowerRegisterRead ⟨addr, width⟩ a ∨ c = .upperRegisterRead ⟨addr, width⟩ a →
      s.hw.jtagShut a = true → exec c s = .next s) ∧
  -- noPage
  (∀ (s : State) (k : Nat) (v : Word) (a : Attr) (c : Instr), k < 0x400_0000 → k % 4 = 0 →
      c = .registerWrite (0xF000_0000 + k) 4 v a ∨ c = .lowerRegisterRead ⟨0xF000_0000 + k, 4⟩ a ∨ c = .upperRegisterRead ⟨0xF000_0000 + k, 4⟩ a →
      s.hw.jtagShut a = false → pageRow (k / 0x10000) = none → exec c s = .next (s.withHw s.hw.errResp)) ∧
  -- noPower
  (∀ (s : State) (k : Nat) (v : Word) (a : Attr) (c : Instr), k < 0x400_0000 → k % 4 = 0 →
      c = .registerWrite (0xF000_0000 + k) 4 v a ∨ c = .lowerRegisterRead ⟨0xF000_0000 + k, 4⟩ a ∨ c = .upperRegisterRead ⟨0xF000_0000 + k, 4⟩ a →
      s.hw.jtagShut a = false → (pageRow (k / 0x10000)).isSome = true → s.hw.live (k / 0x10000) = false →
      exec c s = .next (s.withHw (s.hw.capture pgPWR 0x0102 (busAddr k) a).errResp)) ∧
  -- wrongWorld
  (∀ (s : State) (k : Nat) (v : Word) (a : Attr) (c : Instr), k < 0x400_0000 → k % 4 = 0 →
      c = .registerWrite (0xF000_0000 + k) 4 v a ∨ c = .lowerRegisterRead ⟨0xF000_0000 + k, 4⟩ a ∨ c = .upperRegisterRead ⟨0xF000_0000 + k, 4⟩ a →
      s.hw.jtagShut a = false → (pageRow (k / 0x10000)).isSome = true → s.hw.live (k / 0x10000) = true → s.hw.gateOpen (k / 0x10000) a = false →
      exec c s = .next (s.withHw (s.hw.refuse k 0x0002 a))) ∧
  -- locked
  (∀ (s : State) (k : Nat) (v : Word) (a : Attr), k < 0x400_0000 → k % 4 = 0 → s.hw.opens k a = true → s.hw.locked k = true →
      exec (.registerWrite (0xF000_0000 + k) 4 v a) s = .next (s.withHw (s.hw.refuse k 0x0003 a)))

/-- EVT_SET sets raw events in BLANK, MANUFACTURE and RETURN only, and is ignored in FIELD and END.
Formalises R15 of the spec. A write of EVT_SET that reaches its register: in the life-cycle states BLANK (0),
MANUFACTURE (1) and RETURN (3) the raw bits written 1 are set, and the lines that rise by it rise; in FIELD (2) and
END (4) the write changes nothing but the answer of the access. -/
def Obligations.EventSetHonouredByLifeCycle : Prop :=
  -- honoured
  (∀ (s : State) (h : Hw) (page : Fin 1024) (i : Fin 3) (v : Word) (a : Attr),
      s.hw.takes (evRaw page i + 12) a = true →
      h = s.hw.answer 0 →
      groupExists page i = true →
      (h.lcs = 0 ∨ h.lcs = 1 ∨ h.lcs = 3) →
      exec (.evtSetWrite page i v a) s = .next (s.withHw (h.newEdges (h.wr (evRaw page i) (h.rd (evRaw page i) ||| (v.toNat &&& evMask page i))) page i))) ∧
  -- ignored
  (∀ (s : State) (h : Hw) (page : Fin 1024) (i : Fin 3) (v : Word) (a : Attr),
      s.hw.takes (evRaw page i + 12) a = true →
      h = s.hw.answer 0 →
      (h.lcs = 2 ∨ h.lcs = 4) →
      exec (.evtSetWrite page i v a) s = .next (s.withHw (h)))

/-- The first captured error is kept, later ones set MULTI, and a clear with a new error captures the new one.
Formalises R17 of the spec. While VALID of a page's ERR_CAP0 is 1, a further error of the page sets MULTI and changes
nothing else: every other bit of ERR_CAP0 and ERR_CAP1 to ERR_CAP3, and every other register, read as before. A write
of 1 to VALID in the cycle of a new error leaves the four registers holding the new error as a first error: VALID 1,
MULTI 0, its code, its address, its master, VMID and world; every other register reads as before. In modules whose
registers are in canonical form. -/
def Obligations.FirstErrorIsKept : Prop :=
  -- kept
  (∀ (h : Hw) (page code addr d : Nat) (a : Attr), h.regsOk = true → h.bit (ERR_CAP0 page) 31 = true →
      h.capture page code addr a d = h.putBit (ERR_CAP0 page) 30 true ∧
      (h.capture page code addr a d).bit (ERR_CAP0 page) 30 = true ∧
      (h.capture page code addr a d).bit (ERR_CAP0 page) 31 = true ∧
      (h.capture page code addr a d).get (ERR_CAP0 page) 29 0 = h.get (ERR_CAP0 page) 29 0 ∧
      ∀ j, j ≠ ERR_CAP0 page → (h.capture page code addr a d).rd j = h.rd j) ∧
  -- cleared
  (∀ (s : State) (page : Fin 1024) (v : Word) (e : ErrEvent) (a : Attr), s.hw.regsOk = true → s.hw.takes (ERR_CAP0 page) a = true → fld v.toNat 31 31 = 1 →
      ∃ t : State, exec (.errCapClear page v (some e) a) s = .next t ∧ t.pending = s.pending ∧
        t.hw = { s.hw with regs := t.hw.regs, resp := { err := false, data := 0 } } ∧
        t.hw.rd (ERR_CAP0 page) = 0x8000_0000 + e.code.toNat ∧ t.hw.rd (ERR_CAP1 page) = e.addr.toNat % 2 ^ 32 ∧
        t.hw.rd (ERR_CAP2 page) = (if e.attr.secure then 2 ^ 26 else 0) + e.attr.vmid.toNat * 0x10000 + e.attr.mid.toNat * 0x100 + e.addr.toNat / 2 ^ 32 ∧
        t.hw.rd (ERR_CAP3 page) = 0 ∧
        ∀ j, j ≠ ERR_CAP0 page → j ≠ ERR_CAP1 page → j ≠ ERR_CAP2 page → j ≠ ERR_CAP3 page → t.hw.rd j = s.hw.rd j)

/-- TCU_BASE_TICK takes 25,000 to 10,000,000 ns, and no write while a NET or LOC slot is enabled.
Formalises R22 of the spec. TCU_BASE_TICK reads 100,000 after reset. A write of it that reaches the register is
refused with code 0x0100 while a slot with source NET or LOC is enabled; else a value outside 25,000 to 10,000,000 is
refused with code 0x0101; else it becomes the base tick. A refusal changes nothing but the answer and the error
capture. That a value out of range, written while such a slot is enabled, is refused with 0x0100 is the model's choice
(assumption log, entry 136). -/
def Obligations.BaseTickWrite : Prop :=
  -- reset
  (State.reset.hw.rd TCU_BASE_TICK = 100000) ∧
  -- busy
  (∀ (s : State) (h : Hw) (v : Word) (n : Fin 4) (a : Attr),
      s.hw.takes (TCU_BASE_TICK) a = true →
      h = s.hw.answer 0 →
      h.bit (TCU_SRC n) 31 = true →
      (h.tcuSource n = 1 ∨ h.tcuSource n = 4) →
      exec (.tcuBaseTickWrite v a) s = .next (s.withHw (h.refuse TCU_BASE_TICK 0x0100 a))) ∧
  -- outside
  (∀ (s : State) (h : Hw) (v : Word) (a : Attr),
      s.hw.takes (TCU_BASE_TICK) a = true →
      h = s.hw.answer 0 →
      (∀ n : Fin 4, h.bit (TCU_SRC n) 31 = false ∨ (h.tcuSource n ≠ 1 ∧ h.tcuSource n ≠ 4)) →
      (v.toNat < 25000 ∨ 10000000 < v.toNat) →
      exec (.tcuBaseTickWrite v a) s = .next (s.withHw (h.refuse TCU_BASE_TICK 0x0101 a))) ∧
  -- inside
  (∀ (s : State) (h : Hw) (v : Word) (a : Attr),
      s.hw.takes (TCU_BASE_TICK) a = true →
      h = s.hw.answer 0 →
      (∀ n : Fin 4, h.bit (TCU_SRC n) 31 = false ∨ (h.tcuSource n ≠ 1 ∧ h.tcuSource n ≠ 4)) →
      (25000 ≤ v.toNat ∧ v.toNat ≤ 10000000) →
      exec (.tcuBaseTickWrite v a) s = .next (s.withHw (h.wr TCU_BASE_TICK v.toNat)))

/-- While a swap is pending or a copy runs, CUE_W3, CUE_COPY and swap requests are discarded with code 0x0103.
Formalises R52 of the spec. While a swap is pending or a copy runs, a write of CUE_W3, a write of CUE_COPY and a write
of CUE_SWAP with REQ that reach their registers, and a SWAP cue that acts, change nothing but the answer, the error
capture of the CUE page (code 0x0103) and, for the swap requests, the event SWAP_REFUSED: both halves, the index and
the pending swap stay as they are. A write of CUE_COPY with GO that is not discarded sets COPY_BUSY. Who is captured
as the master of a SWAP cue is the model's choice (assumption log, entry 137). -/
def Obligations.PendingSwapDiscards : Prop :=
  -- word
  (∀ (s : State) (h : Hw) (v : Word) (a : Attr),
      s.hw.takes (CUE_W3) a = true →
      h = s.hw.answer 0 →
      (h.cue.swap.isSome = true ∨ h.cue.copying = true) →
      exec (.cueW3Write v a) s = .next (s.withHw (h.refuse CUE_W3 0x0103 a))) ∧
  -- copy
  (∀ (s : State) (h : Hw) (v : Word) (a : Attr),
      s.hw.takes (CUE_COPY) a = true →
      h = s.hw.answer 0 →
      (h.cue.swap.isSome = true ∨ h.cue.copying = true) →
      exec (.cueCopy v a) s = .next (s.withHw (h.refuse CUE_COPY 0x0103 a))) ∧
  -- request
  (∀ (s : State) (h : Hw) (v : Word) (a : Attr),
      s.hw.takes (CUE_SWAP) a = true →
      h = s.hw.answer 0 →
      (h.cue.swap.isSome = true ∨ h.cue.copying = true) →
      fld v.toNat 31 31 = 1 →
      exec (.cueSwapRequest v a) s = .next (s.withHw ((h.refuse CUE_SWAP 0x0103 a).raise pgCUE 5))) ∧
  -- swapCue
  (∀ (s : State) (h : Hw) (c : CueRef) (v : Nat),
      s.hw.cueActs c 0x50 v = true →
      h = s.hw.cueFired c.idx →
      (h.cue.swap.isSome = true ∨ h.cue.copying = true) →
      exec (.swap c) s = .next (s.withHw ((h.capture pgCUE 0x0103 (busAddr CUE_SWAP) (ownAttr 0)).raise pgCUE 5))) ∧
  -- copyBusy
  (∀ (s : State) (h : Hw) (v : Word) (a : Attr),
      s.hw.takes (CUE_COPY) a = true →
      h = s.hw.answer 0 →
      h.cue.swap = none →
      h.cue.copying = false →
      fld v.toNat 0 0 = 1 →
      exec (.cueCopy v a) s = .next (s.withHw (({ h with cue := { h.cue with copying := true, copyAt := h.now } } : Hw).putBit (STATUS pgCUE) 1 true)))

/-- While a change job is armed its registers refuse writes with code 0x0103; CANCEL ends it until migration starts.
Formalises R163 of the spec. While a change job is armed or migrates (states 1 and 2), a write of a job register of
the FRC page (0x208 to 0x210, 0x300 to 0x3FC), and a write of FRC_CHG_CTRL without CANCEL, that pass the gates change
nothing but the answer and the error capture (code 0x0103). A write of CANCEL sets state 5 while the job waits (state
1), with ARM reading 0 and CANCEL reading 1 then (what the two bits read is the model's choice, assumption log, entry
140), and changes nothing once migration has started (state 2). -/
def Obligations.ArmedJobKeepsItsRegisters : Prop :=
  -- registers
  (∀ (s : State) (k : Nat) (v : Word) (a : Attr), s.hw.takes k a = true → s.hw.chgState = 1 ∨ s.hw.chgState = 2 →
      k / 0x10000 = pgFRC → k % 4 = 0 → 0x208 ≤ k % 0x10000 ∧ k % 0x10000 ≤ 0x210 ∨ 0x300 ≤ k % 0x10000 ∧ k % 0x10000 ≤ 0x3FC →
      exec (.registerWrite (0xF000_0000 + k) 4 v a) s = .next (s.withHw (s.hw.refuse k 0x0103 a))) ∧
  -- control
  (∀ (s : State) (h : Hw) (v : Word) (a : Attr),
      s.hw.takes (FRC_CHG_CTRL) a = true →
      h = s.hw.answer 0 →
      (h.chgState = 1 ∨ h.chgState = 2) →
      fld (v.toNat ||| 0x8000_0000) 30 30 = 0 →
      exec (.chgArm v a) s = .next (s.withHw (h.refuse FRC_CHG_CTRL 0x0103 a))) ∧
  -- cancelled
  (∀ (s : State) (h : Hw) (v : Word) (a : Attr),
      s.hw.takes (FRC_CHG_CTRL) a = true →
      h = s.hw.answer 0 →
      h.chgState = 1 →
      exec (.chgCancel v a) s = .next (s.withHw (({ (h.setChg 5).putBit FRC_CHG_CTRL 31 false with frc := { h.frc with migrate := none } } : Hw).putBit FRC_CHG_CTRL 30 true))) ∧
  -- migrating
  (∀ (s : State) (h : Hw) (v : Word) (a : Attr),
      s.hw.takes (FRC_CHG_CTRL) a = true →
      h = s.hw.answer 0 →
      h.chgState = 2 →
      exec (.chgCancel v a) s = .next (s.withHw (h)))

/-- A loss of the main logic during HOLD or LIMP updates CAUSE and changes no channel and no window.
Formalises R253 of the spec. When the PSS is not in charge of a live main logic (its state is HOLD or LIMP) and a loss
with a cause is found, CAUSE of PSS_STATUS reads that cause (modulo 16), the loss is counted and raises its event, and
nothing else changes: every part of the module outside the registers and the risen event lines (the channels, the hold
window) is as before, and so is every other register. In modules whose registers are in canonical form. -/
def Obligations.FurtherLossOnlyUpdatesCause : Prop :=
  -- loss
  (∀ (h : Hw) (cause : Nat), h.regsOk = true → h.charge ≠ 2 →
      h.logicLost cause = { h with regs := (h.logicLost cause).regs, edges := (h.logicLost cause).edges, rose := (h.logicLost cause).rose } ∧
      (h.logicLost cause).get (STATUS pgPSS) 11 8 = cause % 16 ∧ (h.logicLost cause).charge = h.charge ∧
      (h.logicLost cause).rd PSS_LOSS_CNT = satAdd (h.rd PSS_LOSS_CNT) 1 ∧
      ∀ j, j ≠ STATUS pgPSS → j ≠ PSS_LOSS_CNT → j ≠ EVT_RAW pgPSS → (h.logicLost cause).rd j = h.rd j)

/-- An address is found in the forwarding set that its four 12-bit pieces and the FID select.
Derived from R305 of the spec. Where the forwarding table finds an entry for an address and a FID, the entry lies
among the 16,384, its set (its number divided by 4) is the XOR of the address's bits 11:0, 23:12, 35:24 and 47:36 with
the FID, and the entry is valid and holds that address and that FID. -/
def Obligations.ForwardingSetOfAddress : Prop :=
  -- set
  (∀ (h : Hw) (mac fid i : Nat), mac < 2 ^ 48 → fid < 4096 → h.fdbFind mac fid = some i →
      i < 16384 ∧ i / 4 = fld mac 11 0 ^^^ fld mac 23 12 ^^^ fld mac 35 24 ^^^ fld mac 47 36 ^^^ fid ∧
      fld (h.fdb 0 i 1) 31 31 = 1 ∧ h.fdb 0 i 0 + 2 ^ 32 * fld (h.fdb 0 i 1) 15 0 = mac ∧ fld (h.fdb 0 i 1) 27 16 = fid)

/-- A LIN_SLOT cue during a frame counts an overrun; on a responder or an invalid entry it is only counted.
Formalises R402 of the spec. A LIN_SLOT cue that acts, of channel l and entry e: where the channel is enabled as
commander, awake, and the entry valid, but the channel's frame has not ended, the cue counts in LIN_OVERRUN_CNT and
raises SLOT_OVERRUN; where the channel is a responder or the entry is not valid, it counts in LIN_CUE_IGN. Nothing
else changes. -/
def Obligations.LinSlotThatDoesNotRun : Prop :=
  -- overrun
  (∀ (s : State) (h : Hw) (l : Nat) (e : Nat) (c : CueRef) (v : Nat),
      s.hw.cueActs c 0x28 v = true →
      h = s.hw.cueFired c.idx →
      l = fld (cueArg (h.cueOf c)) 10 8 →
      e = fld (cueArg (h.cueOf c)) 7 0 →
      h.bit (CTRL (pgLIN l)) 0 = true →
      h.bit (LIN_CFG l) 31 = true →
      h.bit (LIN_SCH l e) 31 = true →
      h.nmu.linAsleep.contains l = false →
      (h.linFrame l).isSome = true →
      exec (.linSlot c) s = .next (s.withHw ((h.sat (LIN_OVERRUN_CNT l)).raise (pgLIN l) 3))) ∧
  -- ignored
  (∀ (s : State) (h : Hw) (l : Nat) (e : Nat) (c : CueRef) (v : Nat),
      s.hw.cueActs c 0x28 v = true →
      h = s.hw.cueFired c.idx →
      l = fld (cueArg (h.cueOf c)) 10 8 →
      e = fld (cueArg (h.cueOf c)) 7 0 →
      (h.bit (LIN_CFG l) 31 = false ∨ h.bit (LIN_SCH l e) 31 = false) →
      exec (.linSlot c) s = .next (s.withHw (h.sat (LIN_CUE_IGN l))))

/-- A speculative access to a window without SPEC_OK sends nothing and is captured with code 0x0004.
Formalises R470 of the spec. An outbound access that the region gate lets in, with the bridge powered, inside an
enabled window whose SPEC_OK is 0, that carries the speculative attribute: it is answered with an error response and
captured on the SPN page with code 0x0004 at its address, and nothing else changes: what waits for the link, what is
open and what has been sent are as before. -/
def Obligations.SpeculativeAccessStopsAtTheBridge : Prop :=
  -- speculative
  (∀ (s : State) (h : Hw) (o : BitVec 32) (n : Fin 65) (data : Option (List Byte)) (credit : Bool) (tag : Fin 64) (a : Attr) (w : Nat) (u : SpanUser),
      h = s.hw →
      u = { addr := 0x01_0000_0000 + o.toNat, attr := a, len := n } →
      h.regionOk (0x01_0000_0000 + o.toNat) data.isSome a = true →
      h.live pgSPN = true →
      h.owOf o.toNat = some w →
      a.spec = true →
      h.bit (SPN_OW w 0) 29 = false →
      exec (.outboundAccess o n data credit tag a) s = .next (s.withHw ((h.capture pgSPN 0x0004 (0x01_0000_0000 + o.toNat) a).spanAnswer u true [])))

/-- A descriptor of length 0 has no burst to wait for and completes at once, with its event when IRQ is 1.
Formalises R517 of the spec. A channel whose fetched descriptor has LEN 0 asks for no burst, so that no command reads
its source or writes its destination; and, where the write-back of the descriptor's word 0 meets no fault, the channel
enabled, running and unparked completes it at once: the tag is recorded, the event of the channel is raised when IRQ
(bit 24) is 1, and the channel ends or goes on to the next descriptor. -/
def Obligations.EmptyDescriptorCompletes : Prop :=
  -- noAccess
  (∀ (h : Hw) (d c : Nat) (ws : List Nat), (h.dma d c).desc = some ws → (h.dma d c).fault = none → descLen ws = 0 → h.dmaReady d c = false) ∧
  -- completes
  (∀ (s : State) (h : Hw) (d : Fin 4) (c : Fin 32) (w : DmaSeen) (ws : List Nat) (r : Option Nat × Hw) (x : Hw),
      h = s.hw →
      r = h.dmaWrite d c (h.dmaCur d c) (leBytes 4 (setBit (ws.getD 0 0) 31 true)) w.fin →
      x = (r.2.wr (DMA_TAG d c) (ws.getD 7 0)).raiseIf (fld (ws.getD 0 0) 24 24 == 1) (pgDMA d) c →
      (h.dma d c).desc = some ws →
      (h.dma d c).fault = none →
      h.dmaOn d = true →
      h.dmaState d c = 1 →
      h.rd (DMA_DONE d c) = 0 →
      descLen ws = 0 →
      r.1 = none →
      exec (.descriptorDone d c w) s = .next (s.withHw (if fld (ws.getD 6 0) 31 31 = 1 then (x.setDma d c {}).dmaEnter d c 0 0 0
        else ((x.wrPair (DMA_CUR_LO d c) (DMA_CUR_HI d c) (descNext ws)).wr (DMA_DONE d c) 0).setDma d c { x.dma d c with desc := none, ahead := [], part := [] })))

/-- A commit of a key value steps GEN of its slot from 255 to 1; NARROW and REVOKE leave every slot's GEN alone.
Formalises R583 of the spec. Where a key value is committed to a slot, with no parent or with a parent whose
derivation depth is below 7, GEN of the slot becomes its previous value plus 1, or 1 after 255. A NARROW command and a
REVOKE command that run, which change attributes only, leave GEN of every slot as it was, but for the odd slot of a
P-384 pair, which shows the attributes of the even one (R580). In modules whose registers are in canonical form. -/
def Obligations.KeyGenerations : Prop :=
  -- commit
  (∀ (h : Hw) (d w0 : Nat) (key : List Byte) (parent : Option Nat), h.regsOk = true → d < 256 → (∀ p, parent = some p → p < 256 ∧ h.get (KEY_ATTR_W1 p) 7 5 < 7) →
      (h.commitKey d w0 key parent).get (KEY_ATTR_W1 d) 23 16 =
        (if h.get (KEY_ATTR_W1 d) 23 16 = 255 then 1 else h.get (KEY_ATTR_W1 d) 23 16 + 1)) ∧
  -- attributes
  (∀ (s : State) (v : Word) (a : Attr) (c : Instr) (d : Nat), s.hw.regsOk = true → s.hw.takes KEY_CMD a = true → c = .narrow v a ∨ c = .revoke v a → d < 256 →
      s.hw.oddOfPair d = false → ∃ t : State, exec c s = .next t ∧ t.hw.get (KEY_ATTR_W1 d) 23 16 = s.hw.get (KEY_ATTR_W1 d) 23 16)

/-- NARROW takes a new word 0 that keeps VALID, REVOKED and TYPE and sets no bit that is clear; any other ends with result 7.
Formalises R587 of the spec. A NARROW command that is accepted in KEY_CMD, of a slot other than 0 that holds a usable
key, outside the life-cycle state END: where the staged word keeps VALID, REVOKED (bits 31:30) and TYPE (bits 26:24)
and each bit it sets is set already, it becomes word 0 of the slot's attributes (shown by the odd partner of a P-384
pair too) with result 0; otherwise the result is 7 and no attribute changes. -/
def Obligations.NarrowOnlyNarrows : Prop :=
  -- accepted
  (∀ (s : State) (h : Hw) (v : Word) (g : Hw) (d : Nat) (x : Hw) (a : Attr),
      s.hw.takes (KEY_CMD) a = true →
      h = s.hw.answer 0 →
      g = h.wr KEY_CMD (7 * 2 ^ 28 + v.toNat % 2 ^ 24) →
      d = g.cmdDst →
      x = (g.wr (KEY_ATTR_W0 d) (g.rd KEY_STAGE)).mirrorOdd d →
      h.bit KEY_CMD 27 = false →
      g.lcs ≠ 4 →
      d ≠ 0 →
      g.slotGood d = true →
      g.rd KEY_STAGE &&& g.rd (KEY_ATTR_W0 d) = g.rd KEY_STAGE →
      fld (g.rd KEY_STAGE) 31 30 = fld (g.rd (KEY_ATTR_W0 d)) 31 30 →
      fld (g.rd KEY_STAGE) 26 24 = fld (g.rd (KEY_ATTR_W0 d)) 26 24 →
      exec (.narrow v a) s = .next (s.withHw (g.keyEnd (0, { x with key := { x.key with fresh := false } })))) ∧
  -- refused
  (∀ (s : State) (h : Hw) (v : Word) (g : Hw) (d : Nat) (a : Attr),
      s.hw.takes (KEY_CMD) a = true →
      h = s.hw.answer 0 →
      g = h.wr KEY_CMD (7 * 2 ^ 28 + v.toNat % 2 ^ 24) →
      d = g.cmdDst →
      h.bit KEY_CMD 27 = false →
      g.lcs ≠ 4 →
      d ≠ 0 →
      g.slotGood d = true →
      (g.rd KEY_STAGE &&& g.rd (KEY_ATTR_W0 d) ≠ g.rd KEY_STAGE ∨ fld (g.rd KEY_STAGE) 31 30 ≠ fld (g.rd (KEY_ATTR_W0 d)) 31 30 ∨ fld (g.rd KEY_STAGE) 26 24 ≠ fld (g.rd (KEY_ATTR_W0 d)) 26 24) →
      exec (.narrow v a) s = .next (s.withHw (g.keyEnd (7, g))))

/-- CVU_START loads INIT, zeroes the length, yields INIT XOR XOR, and steps the alive counter in generate mode.
Formalises R610, R613 of the spec. A write of CVU_START with bit 0 set that reaches its register leaves the unit's
register at INIT modulo the width of its algorithm and CVU_LEN at 0, so that the result reads INIT XOR XOR modulo the
width; in generate mode (1) the alive counter becomes its value plus 1 modulo 16, 256 or 65,536 under ALIVE_W, in
another mode it keeps its value. A write of CVU_ALIVE_GEN sets the alive counter to the low 16 bits written. In
modules whose registers are in canonical form. -/
def Obligations.CheckValueStart : Prop :=
  -- start
  (∀ (s : State) (n : Fin 8) (v : Word) (a : Attr), s.hw.regsOk = true → s.hw.takes (CVU_START n) a = true → fld v.toNat 0 0 = 1 →
      ∃ t : State, exec (.cvuStart n v a) s = .next t ∧
        (t.hw.cvu n).reg = s.hw.rdPair (CVU_INIT_LO n) (CVU_INIT_HI n) % 2 ^ (s.hw.cvuAlg n).width ∧ t.hw.rd (CVU_LEN n) = 0 ∧
        t.hw.cvuResult n = (s.hw.rdPair (CVU_INIT_LO n) (CVU_INIT_HI n) ^^^ s.hw.rdPair (CVU_XOR_LO n) (CVU_XOR_HI n)) % 2 ^ (s.hw.cvuAlg n).width ∧
        t.hw.get (CVU_ALIVE_GEN n) 15 0 =
          (if s.hw.get (CVU_CFG n) 17 16 = 1 then
            (s.hw.get (CVU_ALIVE_GEN n) 15 0 + 1) % 2 ^ (match s.hw.get (CVU_CFG n) 21 20 with | 0 => 4 | 1 => 8 | _ => 16)
          else s.hw.get (CVU_ALIVE_GEN n) 15 0)) ∧
  -- value
  (∀ (s : State) (n : Fin 8) (v : Word) (a : Attr), s.hw.regsOk = true → s.hw.takes (CVU_ALIVE_GEN n) a = true →
      ∃ t : State, exec (.registerWrite (0xF000_0000 + CVU_ALIVE_GEN n) 4 v a) s = .next t ∧ t.hw.get (CVU_ALIVE_GEN n) 15 0 = v.toNat % 2 ^ 16)

/-- A trigger in POST is only recorded, one in HELD, DUMPING or a Take state only counted; REARM in HELD starts anew.
Formalises R662 of the spec. With the Reel powered: a trigger (an enabled event line of REL_TRIG, or a write of
REL_TRIG_SW) in POST is recorded as a record of kind 10 (TRIGGER) with its sources and the time, and neither the state
nor the window's registers change otherwise; in HELD, DUMPING or a Take state it adds 1 to REL_TRIG_LOST and nothing
else changes. A write of REL_REARM with GO in HELD empties the ring and enters RECORDING with a new snapshot wanted. -/
def Obligations.ReelTriggers : Prop :=
  -- recorded
  (∀ (s : State) (h : Hw) (lines : List (Fin 2048)) (es : List Nat) (src : Nat) (g : Hw),
      h = s.hw →
      (es = (lines.map Fin.val).filter (fun e => h.seesEdge 2 e e && !h.lineSecure e)) →
      (src = (List.range 4).foldl (fun x k => if h.bit (REL_TRIG k) 31 && es.contains (h.get (REL_TRIG k) 10 0) then x + 2 ^ k else x) 0) →
      (g = { h with took := es.map (fun e => (2, e)) ++ h.took }) →
      src ≠ 0 →
      h.live pgREL = true →
      h.relState = 2 →
      exec (.trigger lines) s = .next (s.withHw (g.record 10 0 (leBytes 4 src ++ leBytes 4 (nowHi (h.slotVal 0)))))) ∧
  -- lost
  (∀ (s : State) (h : Hw) (lines : List (Fin 2048)) (es : List Nat) (src : Nat) (g : Hw),
      h = s.hw →
      (es = (lines.map Fin.val).filter (fun e => h.seesEdge 2 e e && !h.lineSecure e)) →
      (src = (List.range 4).foldl (fun x k => if h.bit (REL_TRIG k) 31 && es.contains (h.get (REL_TRIG k) 10 0) then x + 2 ^ k else x) 0) →
      (g = { h with took := es.map (fun e => (2, e)) ++ h.took }) →
      src ≠ 0 →
      h.live pgREL = true →
      3 ≤ h.relState →
      exec (.trigger lines) s = .next (s.withHw (g.sat REL_TRIG_LOST))) ∧
  -- softwareRecorded
  (∀ (s : State) (h : Hw) (v : Word) (a : Attr),
      s.hw.takes (REL_TRIG_SW) a = true →
      h = s.hw.answer 0 →
      fld v.toNat 0 0 = 1 →
      h.live pgREL = true →
      h.relState = 2 →
      exec (.relTrigSw v a) s = .next (s.withHw (h.record 10 0 (leBytes 4 0x10 ++ leBytes 4 (nowHi (h.slotVal 0)))))) ∧
  -- softwareLost
  (∀ (s : State) (h : Hw) (v : Word) (a : Attr),
      s.hw.takes (REL_TRIG_SW) a = true →
      h = s.hw.answer 0 →
      fld v.toNat 0 0 = 1 →
      h.live pgREL = true →
      3 ≤ h.relState →
      exec (.relTrigSw v a) s = .next (s.withHw (h.sat REL_TRIG_LOST))) ∧
  -- rearmed
  (∀ (s : State) (h : Hw) (v : Word) (g : Hw) (a : Attr),
      s.hw.takes (REL_REARM) a = true →
      h = s.hw.answer 0 →
      g = (({ h with rel := { h.rel with recs := [], wr := 0x40, snap := none, snapWanted := true, protect := none, slateTick := h.rel.slateTick, snapAt := h.now } } : Hw).putBit REL_STATE 27 false).put REL_STATE 21 16 0 →
      fld v.toNat 0 0 = 1 →
      h.relState = 3 →
      exec (.relRearm v a) s = .next (s.withHw ((g.setRelState 1).relSnapTry)))

/-- BOOT_PK_REV revokes the signing keys written, in OTP, but not the key of the running image.
Formalises R680 of the spec. A write of BOOT_PK_REV that reaches its register with 0x5245 in bits 31:16: where it
names the key that signed the running image it is refused with code 0x0103 and no key is revoked; else each key k
whose bit is set in bits 3:0 is revoked, the keys revoked before staying so, at once or, in Hold, when the supply has
returned. Nothing else changes. -/
def Obligations.SigningKeysAreRevokedForGood : Prop :=
  -- runningKey
  (∀ (s : State) (h : Hw) (v : Word) (a : Attr),
      s.hw.takes (BOOT_PK_REV) a = true →
      h = s.hw.answer 0 →
      fld v.toNat 31 16 = 0x5245 →
      fld (fld v.toNat 3 0) h.boot.key h.boot.key = 1 →
      exec (.bootPkRev v a) s = .next (s.withHw (h.refuse BOOT_PK_REV 0x0103 a))) ∧
  -- revoked
  (∀ (s : State) (h : Hw) (v : Word) (a : Attr),
      s.hw.takes (BOOT_PK_REV) a = true →
      h = s.hw.answer 0 →
      fld v.toNat 31 16 = 0x5245 →
      fld (fld v.toNat 3 0) h.boot.key h.boot.key = 0 →
      h.inHold = false →
      exec (.bootPkRev v a) s = .next (s.withHw (h.put BOOT_ARB 27 24 (h.get BOOT_ARB 27 24 ||| fld v.toNat 3 0)))) ∧
  -- inHold
  (∀ (s : State) (h : Hw) (v : Word) (a : Attr),
      s.hw.takes (BOOT_PK_REV) a = true →
      h = s.hw.answer 0 →
      fld v.toNat 31 16 = 0x5245 →
      fld (fld v.toNat 3 0) h.boot.key h.boot.key = 0 →
      h.inHold = true →
      exec (.bootPkRev v a) s = .next (s.withHw (h.defer (.pkRev (fld v.toNat 3 0)))))

/-- SYS_RESET_REQ resets the main logic only for a Secure write of 0x5253 with GO; any other write is refused with 0x0100.
Formalises R699 of the spec. A write of SYS_RESET_REQ that reaches its register: from a Secure transaction with 0x5253
in bits 31:16 and GO (bit 0) set it is a main-logic reset with cause 5; from a Normal transaction, with another value
in bits 31:16 or without GO it changes nothing but the answer and the error capture (code 0x0100). -/
def Obligations.ResetRequestNeedsItsKey : Prop :=
  -- accepted
  (∀ (s : State) (h : Hw) (v : Word) (a : Attr),
      s.hw.takes (SYS_RESET_REQ) a = true →
      h = s.hw.answer 0 →
      a.secure = true →
      fld v.toNat 31 16 = 0x5253 →
      fld v.toNat 0 0 = 1 →
      exec (.sysResetReq v a) s = .next (s.withHw (h.mainReset 5))) ∧
  -- refused
  (∀ (s : State) (h : Hw) (v : Word) (a : Attr),
      s.hw.takes (SYS_RESET_REQ) a = true →
      h = s.hw.answer 0 →
      (a.secure = false ∨ fld v.toNat 31 16 ≠ 0x5253 ∨ fld v.toNat 0 0 = 0) →
      exec (.sysResetReq v a) s = .next (s.withHw (h.refuse SYS_RESET_REQ 0x0100 a)))

/-- A bool load of a byte other than 0x00 and 0x01 traps with BADBOOL; 0x00 loads false and 0x01 true.
Formalises R121 of the spec. For every task, run, memory space and offset inside the space: a bool (type 8) occupies
one byte, and its load answers 0 for the byte 0x00, 1 for the byte 0x01, and traps with code 0x06 (BADBOOL) for every
other byte. -/
def Obligations.BoolsAreZeroOrOne : Prop :=
  -- size
  (tySize 8 = 1) ∧
  -- load
  (∀ (h : Hw) (c : GCtx) (r : Run) (sp : Nat) (ofs : Int) (b : Byte), h.gBytes c r sp ofs (tySize 8) = .ok [b] →
      h.gLoad c r sp 8 ofs = if b = 0 then .ok 0 else if b = 1 then .ok 1 else .error (.trap tBadBool))

/-- A register access of another width or alignment than 32 bits is answered with an error and captured with code 0x0001.
Derived from R6 of the spec. For every address in the register pages whose page exists and has power and a clock,
whatever its world gate: a read or write of another width than 4 bytes, or at an address that is no multiple of 4, is
answered with an error response and captured with code 0x0001 in ERR_CAP0 of the page addressed, and nothing else
changes (transactions that the dead JTAG lands do not carry apart, R716). That the width is judged before the world is
the model's reading (assumption log, entry 13). -/
def Obligations.MisalignedAndWideAccessesAreRefused : Prop :=
  -- access
  (∀ (s : State) (addr width k : Nat) (v : Word) (a : Attr) (c : Instr), regAt addr = some k → width ≠ 4 ∨ addr % 4 ≠ 0 →
      (pageRow (k / 0x10000)).isSome = true → s.hw.live (k / 0x10000) = true → s.hw.jtagShut a = false →
      c = .registerWrite addr width v a ∨ c = .lowerRegisterRead ⟨addr, width⟩ a ∨ c = .upperRegisterRead ⟨addr, width⟩ a →
      exec c s = .next (s.withHw (s.hw.capture (k / 0x10000) 0x0001 addr a).errResp))
end

