-- ==== Sys2Proof/Laws/Bits.lean ====
section
/-! SUPPORT. Laws of bit fields. -/

namespace Sys2Proof.Machine

/-- A field of one bit. -/
theorem fld_bit (v b : Nat) : fld v b b = if v.testBit b then 1 else 0 := by
  unfold fld
  rw [show b + 1 - b = 1 by omega, Nat.testBit_eq_decide_div_mod_eq, Nat.shiftRight_eq_div_pow]
  have : v / 2 ^ b % 2 < 2 := Nat.mod_lt _ (by decide)
  by_cases q : v / 2 ^ b % 2 = 1
  · simp [q]
  · have z : v / 2 ^ b % 2 = 0 := by omega
    simp [z]

/-- A bit of a union of words. -/
theorem fld_or_bit (v x b : Nat) : fld (v ||| x) b b = if v.testBit b || x.testBit b then 1 else 0 := by
  rw [fld_bit, Nat.testBit_or]

/-- A bit of an intersection of words. -/
theorem fld_and_bit (v x b : Nat) : fld (v &&& x) b b = if v.testBit b && x.testBit b then 1 else 0 := by
  rw [fld_bit, Nat.testBit_and]

/-- A field is below its width's range. -/
theorem fld_lt (v hi lo : Nat) : fld v hi lo < 2 ^ (hi + 1 - lo) := by
  unfold fld
  exact Nat.mod_lt _ (Nat.two_pow_pos _)

end Sys2Proof.Machine
end

