-- ==== Sys2Proof/Laws/State.lean ====
section
/-! SUPPORT. What the updates of the state leave alone, one lemma for each field and update; each is true by `rfl`. -/

namespace Sys2Proof.Machine

variable (s : State) (h : Hw)

@[simp] theorem Hw.wr_resp (k v : Nat) : (h.wr k v).resp = h.resp := rfl
@[simp] theorem Hw.wr_shadow (k v : Nat) : (h.wr k v).shadow = h.shadow := rfl
@[simp] theorem Hw.wr_edges (k v : Nat) : (h.wr k v).edges = h.edges := rfl
@[simp] theorem Hw.wr_rose (k v : Nat) : (h.wr k v).rose = h.rose := rfl
@[simp] theorem Hw.wr_took (k v : Nat) : (h.wr k v).took = h.took := rfl
@[simp] theorem Hw.wr_free (k v : Nat) : (h.wr k v).free = h.free := rfl
@[simp] theorem Hw.wr_now (k v : Nat) : (h.wr k v).now = h.now := rfl
@[simp] theorem Hw.wr_ints (k v : Nat) : (h.wr k v).ints = h.ints := rfl
@[simp] theorem Hw.wr_cores (k v : Nat) : (h.wr k v).cores = h.cores := rfl
@[simp] theorem Hw.wr_pwr (k v : Nat) : (h.wr k v).pwr = h.pwr := rfl
@[simp] theorem Hw.wr_held (k v : Nat) : (h.wr k v).held = h.held := rfl
@[simp] theorem Hw.wr_sys (k v : Nat) : (h.wr k v).sys = h.sys := rfl
@[simp] theorem Hw.wr_ain (k v : Nat) : (h.wr k v).ain = h.ain := rfl
@[simp] theorem Hw.wr_tcu0 (k v : Nat) : (h.wr k v).tcu0 = h.tcu0 := rfl
@[simp] theorem Hw.wr_tcu1 (k v : Nat) : (h.wr k v).tcu1 = h.tcu1 := rfl
@[simp] theorem Hw.wr_tcu2 (k v : Nat) : (h.wr k v).tcu2 = h.tcu2 := rfl
@[simp] theorem Hw.wr_tcu3 (k v : Nat) : (h.wr k v).tcu3 = h.tcu3 := rfl
@[simp] theorem Hw.wr_cue (k v : Nat) : (h.wr k v).cue = h.cue := rfl
@[simp] theorem Hw.wr_cea (k v : Nat) : (h.wr k v).cea = h.cea := rfl
@[simp] theorem Hw.wr_frc (k v : Nat) : (h.wr k v).frc = h.frc := rfl
@[simp] theorem Hw.wr_dbg (k v : Nat) : (h.wr k v).dbg = h.dbg := rfl
@[simp] theorem Hw.wr_stage (k v : Nat) : (h.wr k v).stage = h.stage := rfl
@[simp] theorem Hw.wr_mem (k v : Nat) : (h.wr k v).mem = h.mem := rfl
@[simp] theorem Hw.wr_zone (k v : Nat) : (h.wr k v).zone = h.zone := rfl
@[simp] theorem Hw.wr_sw (k v : Nat) : (h.wr k v).sw = h.sw := rfl
@[simp] theorem Hw.wr_nmu (k v : Nat) : (h.wr k v).nmu = h.nmu := rfl
@[simp] theorem Hw.wr_key (k v : Nat) : (h.wr k v).key = h.key := rfl
@[simp] theorem Hw.wr_cry (k v : Nat) : (h.wr k v).cry = h.cry := rfl
@[simp] theorem Hw.wr_cvus (k v : Nat) : (h.wr k v).cvus = h.cvus := rfl
@[simp] theorem Hw.wr_span (k v : Nat) : (h.wr k v).span = h.span := rfl
@[simp] theorem Hw.wr_vpt (k v : Nat) : (h.wr k v).vpt = h.vpt := rfl
@[simp] theorem Hw.wr_rel (k v : Nat) : (h.wr k v).rel = h.rel := rfl
@[simp] theorem Hw.wr_twn (k v : Nat) : (h.wr k v).twn = h.twn := rfl
@[simp] theorem Hw.wr_hlt (k v : Nat) : (h.wr k v).hlt = h.hlt := rfl
@[simp] theorem Hw.wr_boot (k v : Nat) : (h.wr k v).boot = h.boot := rfl

@[simp] theorem Hw.put_resp (k hi lo x : Nat) : (h.put k hi lo x).resp = h.resp := rfl
@[simp] theorem Hw.put_shadow (k hi lo x : Nat) : (h.put k hi lo x).shadow = h.shadow := rfl
@[simp] theorem Hw.put_edges (k hi lo x : Nat) : (h.put k hi lo x).edges = h.edges := rfl
@[simp] theorem Hw.put_rose (k hi lo x : Nat) : (h.put k hi lo x).rose = h.rose := rfl
@[simp] theorem Hw.put_took (k hi lo x : Nat) : (h.put k hi lo x).took = h.took := rfl
@[simp] theorem Hw.put_free (k hi lo x : Nat) : (h.put k hi lo x).free = h.free := rfl
@[simp] theorem Hw.put_now (k hi lo x : Nat) : (h.put k hi lo x).now = h.now := rfl
@[simp] theorem Hw.put_ints (k hi lo x : Nat) : (h.put k hi lo x).ints = h.ints := rfl
@[simp] theorem Hw.put_cores (k hi lo x : Nat) : (h.put k hi lo x).cores = h.cores := rfl
@[simp] theorem Hw.put_pwr (k hi lo x : Nat) : (h.put k hi lo x).pwr = h.pwr := rfl
@[simp] theorem Hw.put_held (k hi lo x : Nat) : (h.put k hi lo x).held = h.held := rfl
@[simp] theorem Hw.put_sys (k hi lo x : Nat) : (h.put k hi lo x).sys = h.sys := rfl
@[simp] theorem Hw.put_ain (k hi lo x : Nat) : (h.put k hi lo x).ain = h.ain := rfl
@[simp] theorem Hw.put_tcu0 (k hi lo x : Nat) : (h.put k hi lo x).tcu0 = h.tcu0 := rfl
@[simp] theorem Hw.put_tcu1 (k hi lo x : Nat) : (h.put k hi lo x).tcu1 = h.tcu1 := rfl
@[simp] theorem Hw.put_tcu2 (k hi lo x : Nat) : (h.put k hi lo x).tcu2 = h.tcu2 := rfl
@[simp] theorem Hw.put_tcu3 (k hi lo x : Nat) : (h.put k hi lo x).tcu3 = h.tcu3 := rfl
@[simp] theorem Hw.put_cue (k hi lo x : Nat) : (h.put k hi lo x).cue = h.cue := rfl
@[simp] theorem Hw.put_cea (k hi lo x : Nat) : (h.put k hi lo x).cea = h.cea := rfl
@[simp] theorem Hw.put_frc (k hi lo x : Nat) : (h.put k hi lo x).frc = h.frc := rfl
@[simp] theorem Hw.put_dbg (k hi lo x : Nat) : (h.put k hi lo x).dbg = h.dbg := rfl
@[simp] theorem Hw.put_stage (k hi lo x : Nat) : (h.put k hi lo x).stage = h.stage := rfl
@[simp] theorem Hw.put_mem (k hi lo x : Nat) : (h.put k hi lo x).mem = h.mem := rfl
@[simp] theorem Hw.put_zone (k hi lo x : Nat) : (h.put k hi lo x).zone = h.zone := rfl
@[simp] theorem Hw.put_sw (k hi lo x : Nat) : (h.put k hi lo x).sw = h.sw := rfl
@[simp] theorem Hw.put_nmu (k hi lo x : Nat) : (h.put k hi lo x).nmu = h.nmu := rfl
@[simp] theorem Hw.put_key (k hi lo x : Nat) : (h.put k hi lo x).key = h.key := rfl
@[simp] theorem Hw.put_cry (k hi lo x : Nat) : (h.put k hi lo x).cry = h.cry := rfl
@[simp] theorem Hw.put_cvus (k hi lo x : Nat) : (h.put k hi lo x).cvus = h.cvus := rfl
@[simp] theorem Hw.put_span (k hi lo x : Nat) : (h.put k hi lo x).span = h.span := rfl
@[simp] theorem Hw.put_vpt (k hi lo x : Nat) : (h.put k hi lo x).vpt = h.vpt := rfl
@[simp] theorem Hw.put_rel (k hi lo x : Nat) : (h.put k hi lo x).rel = h.rel := rfl
@[simp] theorem Hw.put_twn (k hi lo x : Nat) : (h.put k hi lo x).twn = h.twn := rfl
@[simp] theorem Hw.put_hlt (k hi lo x : Nat) : (h.put k hi lo x).hlt = h.hlt := rfl
@[simp] theorem Hw.put_boot (k hi lo x : Nat) : (h.put k hi lo x).boot = h.boot := rfl

@[simp] theorem Hw.putBit_resp (k b : Nat) (x : Bool) : (h.putBit k b x).resp = h.resp := rfl
@[simp] theorem Hw.putBit_shadow (k b : Nat) (x : Bool) : (h.putBit k b x).shadow = h.shadow := rfl
@[simp] theorem Hw.putBit_edges (k b : Nat) (x : Bool) : (h.putBit k b x).edges = h.edges := rfl
@[simp] theorem Hw.putBit_rose (k b : Nat) (x : Bool) : (h.putBit k b x).rose = h.rose := rfl
@[simp] theorem Hw.putBit_took (k b : Nat) (x : Bool) : (h.putBit k b x).took = h.took := rfl
@[simp] theorem Hw.putBit_free (k b : Nat) (x : Bool) : (h.putBit k b x).free = h.free := rfl
@[simp] theorem Hw.putBit_now (k b : Nat) (x : Bool) : (h.putBit k b x).now = h.now := rfl
@[simp] theorem Hw.putBit_ints (k b : Nat) (x : Bool) : (h.putBit k b x).ints = h.ints := rfl
@[simp] theorem Hw.putBit_cores (k b : Nat) (x : Bool) : (h.putBit k b x).cores = h.cores := rfl
@[simp] theorem Hw.putBit_pwr (k b : Nat) (x : Bool) : (h.putBit k b x).pwr = h.pwr := rfl
@[simp] theorem Hw.putBit_held (k b : Nat) (x : Bool) : (h.putBit k b x).held = h.held := rfl
@[simp] theorem Hw.putBit_sys (k b : Nat) (x : Bool) : (h.putBit k b x).sys = h.sys := rfl
@[simp] theorem Hw.putBit_ain (k b : Nat) (x : Bool) : (h.putBit k b x).ain = h.ain := rfl
@[simp] theorem Hw.putBit_tcu0 (k b : Nat) (x : Bool) : (h.putBit k b x).tcu0 = h.tcu0 := rfl
@[simp] theorem Hw.putBit_tcu1 (k b : Nat) (x : Bool) : (h.putBit k b x).tcu1 = h.tcu1 := rfl
@[simp] theorem Hw.putBit_tcu2 (k b : Nat) (x : Bool) : (h.putBit k b x).tcu2 = h.tcu2 := rfl
@[simp] theorem Hw.putBit_tcu3 (k b : Nat) (x : Bool) : (h.putBit k b x).tcu3 = h.tcu3 := rfl
@[simp] theorem Hw.putBit_cue (k b : Nat) (x : Bool) : (h.putBit k b x).cue = h.cue := rfl
@[simp] theorem Hw.putBit_cea (k b : Nat) (x : Bool) : (h.putBit k b x).cea = h.cea := rfl
@[simp] theorem Hw.putBit_frc (k b : Nat) (x : Bool) : (h.putBit k b x).frc = h.frc := rfl
@[simp] theorem Hw.putBit_dbg (k b : Nat) (x : Bool) : (h.putBit k b x).dbg = h.dbg := rfl
@[simp] theorem Hw.putBit_stage (k b : Nat) (x : Bool) : (h.putBit k b x).stage = h.stage := rfl
@[simp] theorem Hw.putBit_mem (k b : Nat) (x : Bool) : (h.putBit k b x).mem = h.mem := rfl
@[simp] theorem Hw.putBit_zone (k b : Nat) (x : Bool) : (h.putBit k b x).zone = h.zone := rfl
@[simp] theorem Hw.putBit_sw (k b : Nat) (x : Bool) : (h.putBit k b x).sw = h.sw := rfl
@[simp] theorem Hw.putBit_nmu (k b : Nat) (x : Bool) : (h.putBit k b x).nmu = h.nmu := rfl
@[simp] theorem Hw.putBit_key (k b : Nat) (x : Bool) : (h.putBit k b x).key = h.key := rfl
@[simp] theorem Hw.putBit_cry (k b : Nat) (x : Bool) : (h.putBit k b x).cry = h.cry := rfl
@[simp] theorem Hw.putBit_cvus (k b : Nat) (x : Bool) : (h.putBit k b x).cvus = h.cvus := rfl
@[simp] theorem Hw.putBit_span (k b : Nat) (x : Bool) : (h.putBit k b x).span = h.span := rfl
@[simp] theorem Hw.putBit_vpt (k b : Nat) (x : Bool) : (h.putBit k b x).vpt = h.vpt := rfl
@[simp] theorem Hw.putBit_rel (k b : Nat) (x : Bool) : (h.putBit k b x).rel = h.rel := rfl
@[simp] theorem Hw.putBit_twn (k b : Nat) (x : Bool) : (h.putBit k b x).twn = h.twn := rfl
@[simp] theorem Hw.putBit_hlt (k b : Nat) (x : Bool) : (h.putBit k b x).hlt = h.hlt := rfl
@[simp] theorem Hw.putBit_boot (k b : Nat) (x : Bool) : (h.putBit k b x).boot = h.boot := rfl

@[simp] theorem Hw.sat_resp (k n : Nat) : (h.sat k n).resp = h.resp := rfl
@[simp] theorem Hw.sat_shadow (k n : Nat) : (h.sat k n).shadow = h.shadow := rfl
@[simp] theorem Hw.sat_edges (k n : Nat) : (h.sat k n).edges = h.edges := rfl
@[simp] theorem Hw.sat_rose (k n : Nat) : (h.sat k n).rose = h.rose := rfl
@[simp] theorem Hw.sat_took (k n : Nat) : (h.sat k n).took = h.took := rfl
@[simp] theorem Hw.sat_free (k n : Nat) : (h.sat k n).free = h.free := rfl
@[simp] theorem Hw.sat_now (k n : Nat) : (h.sat k n).now = h.now := rfl
@[simp] theorem Hw.sat_ints (k n : Nat) : (h.sat k n).ints = h.ints := rfl
@[simp] theorem Hw.sat_cores (k n : Nat) : (h.sat k n).cores = h.cores := rfl
@[simp] theorem Hw.sat_pwr (k n : Nat) : (h.sat k n).pwr = h.pwr := rfl
@[simp] theorem Hw.sat_held (k n : Nat) : (h.sat k n).held = h.held := rfl
@[simp] theorem Hw.sat_sys (k n : Nat) : (h.sat k n).sys = h.sys := rfl
@[simp] theorem Hw.sat_ain (k n : Nat) : (h.sat k n).ain = h.ain := rfl
@[simp] theorem Hw.sat_tcu0 (k n : Nat) : (h.sat k n).tcu0 = h.tcu0 := rfl
@[simp] theorem Hw.sat_tcu1 (k n : Nat) : (h.sat k n).tcu1 = h.tcu1 := rfl
@[simp] theorem Hw.sat_tcu2 (k n : Nat) : (h.sat k n).tcu2 = h.tcu2 := rfl
@[simp] theorem Hw.sat_tcu3 (k n : Nat) : (h.sat k n).tcu3 = h.tcu3 := rfl
@[simp] theorem Hw.sat_cue (k n : Nat) : (h.sat k n).cue = h.cue := rfl
@[simp] theorem Hw.sat_cea (k n : Nat) : (h.sat k n).cea = h.cea := rfl
@[simp] theorem Hw.sat_frc (k n : Nat) : (h.sat k n).frc = h.frc := rfl
@[simp] theorem Hw.sat_dbg (k n : Nat) : (h.sat k n).dbg = h.dbg := rfl
@[simp] theorem Hw.sat_stage (k n : Nat) : (h.sat k n).stage = h.stage := rfl
@[simp] theorem Hw.sat_mem (k n : Nat) : (h.sat k n).mem = h.mem := rfl
@[simp] theorem Hw.sat_zone (k n : Nat) : (h.sat k n).zone = h.zone := rfl
@[simp] theorem Hw.sat_sw (k n : Nat) : (h.sat k n).sw = h.sw := rfl
@[simp] theorem Hw.sat_nmu (k n : Nat) : (h.sat k n).nmu = h.nmu := rfl
@[simp] theorem Hw.sat_key (k n : Nat) : (h.sat k n).key = h.key := rfl
@[simp] theorem Hw.sat_cry (k n : Nat) : (h.sat k n).cry = h.cry := rfl
@[simp] theorem Hw.sat_cvus (k n : Nat) : (h.sat k n).cvus = h.cvus := rfl
@[simp] theorem Hw.sat_span (k n : Nat) : (h.sat k n).span = h.span := rfl
@[simp] theorem Hw.sat_vpt (k n : Nat) : (h.sat k n).vpt = h.vpt := rfl
@[simp] theorem Hw.sat_rel (k n : Nat) : (h.sat k n).rel = h.rel := rfl
@[simp] theorem Hw.sat_twn (k n : Nat) : (h.sat k n).twn = h.twn := rfl
@[simp] theorem Hw.sat_hlt (k n : Nat) : (h.sat k n).hlt = h.hlt := rfl
@[simp] theorem Hw.sat_boot (k n : Nat) : (h.sat k n).boot = h.boot := rfl

@[simp] theorem Hw.inc_resp (k n : Nat) : (h.inc k n).resp = h.resp := rfl
@[simp] theorem Hw.inc_shadow (k n : Nat) : (h.inc k n).shadow = h.shadow := rfl
@[simp] theorem Hw.inc_edges (k n : Nat) : (h.inc k n).edges = h.edges := rfl
@[simp] theorem Hw.inc_rose (k n : Nat) : (h.inc k n).rose = h.rose := rfl
@[simp] theorem Hw.inc_took (k n : Nat) : (h.inc k n).took = h.took := rfl
@[simp] theorem Hw.inc_free (k n : Nat) : (h.inc k n).free = h.free := rfl
@[simp] theorem Hw.inc_now (k n : Nat) : (h.inc k n).now = h.now := rfl
@[simp] theorem Hw.inc_ints (k n : Nat) : (h.inc k n).ints = h.ints := rfl
@[simp] theorem Hw.inc_cores (k n : Nat) : (h.inc k n).cores = h.cores := rfl
@[simp] theorem Hw.inc_pwr (k n : Nat) : (h.inc k n).pwr = h.pwr := rfl
@[simp] theorem Hw.inc_held (k n : Nat) : (h.inc k n).held = h.held := rfl
@[simp] theorem Hw.inc_sys (k n : Nat) : (h.inc k n).sys = h.sys := rfl
@[simp] theorem Hw.inc_ain (k n : Nat) : (h.inc k n).ain = h.ain := rfl
@[simp] theorem Hw.inc_tcu0 (k n : Nat) : (h.inc k n).tcu0 = h.tcu0 := rfl
@[simp] theorem Hw.inc_tcu1 (k n : Nat) : (h.inc k n).tcu1 = h.tcu1 := rfl
@[simp] theorem Hw.inc_tcu2 (k n : Nat) : (h.inc k n).tcu2 = h.tcu2 := rfl
@[simp] theorem Hw.inc_tcu3 (k n : Nat) : (h.inc k n).tcu3 = h.tcu3 := rfl
@[simp] theorem Hw.inc_cue (k n : Nat) : (h.inc k n).cue = h.cue := rfl
@[simp] theorem Hw.inc_cea (k n : Nat) : (h.inc k n).cea = h.cea := rfl
@[simp] theorem Hw.inc_frc (k n : Nat) : (h.inc k n).frc = h.frc := rfl
@[simp] theorem Hw.inc_dbg (k n : Nat) : (h.inc k n).dbg = h.dbg := rfl
@[simp] theorem Hw.inc_stage (k n : Nat) : (h.inc k n).stage = h.stage := rfl
@[simp] theorem Hw.inc_mem (k n : Nat) : (h.inc k n).mem = h.mem := rfl
@[simp] theorem Hw.inc_zone (k n : Nat) : (h.inc k n).zone = h.zone := rfl
@[simp] theorem Hw.inc_sw (k n : Nat) : (h.inc k n).sw = h.sw := rfl
@[simp] theorem Hw.inc_nmu (k n : Nat) : (h.inc k n).nmu = h.nmu := rfl
@[simp] theorem Hw.inc_key (k n : Nat) : (h.inc k n).key = h.key := rfl
@[simp] theorem Hw.inc_cry (k n : Nat) : (h.inc k n).cry = h.cry := rfl
@[simp] theorem Hw.inc_cvus (k n : Nat) : (h.inc k n).cvus = h.cvus := rfl
@[simp] theorem Hw.inc_span (k n : Nat) : (h.inc k n).span = h.span := rfl
@[simp] theorem Hw.inc_vpt (k n : Nat) : (h.inc k n).vpt = h.vpt := rfl
@[simp] theorem Hw.inc_rel (k n : Nat) : (h.inc k n).rel = h.rel := rfl
@[simp] theorem Hw.inc_twn (k n : Nat) : (h.inc k n).twn = h.twn := rfl
@[simp] theorem Hw.inc_hlt (k n : Nat) : (h.inc k n).hlt = h.hlt := rfl
@[simp] theorem Hw.inc_boot (k n : Nat) : (h.inc k n).boot = h.boot := rfl

@[simp] theorem Hw.satF_resp (k hi lo : Nat) : (h.satF k hi lo).resp = h.resp := rfl
@[simp] theorem Hw.satF_shadow (k hi lo : Nat) : (h.satF k hi lo).shadow = h.shadow := rfl
@[simp] theorem Hw.satF_edges (k hi lo : Nat) : (h.satF k hi lo).edges = h.edges := rfl
@[simp] theorem Hw.satF_rose (k hi lo : Nat) : (h.satF k hi lo).rose = h.rose := rfl
@[simp] theorem Hw.satF_took (k hi lo : Nat) : (h.satF k hi lo).took = h.took := rfl
@[simp] theorem Hw.satF_free (k hi lo : Nat) : (h.satF k hi lo).free = h.free := rfl
@[simp] theorem Hw.satF_now (k hi lo : Nat) : (h.satF k hi lo).now = h.now := rfl
@[simp] theorem Hw.satF_ints (k hi lo : Nat) : (h.satF k hi lo).ints = h.ints := rfl
@[simp] theorem Hw.satF_cores (k hi lo : Nat) : (h.satF k hi lo).cores = h.cores := rfl
@[simp] theorem Hw.satF_pwr (k hi lo : Nat) : (h.satF k hi lo).pwr = h.pwr := rfl
@[simp] theorem Hw.satF_held (k hi lo : Nat) : (h.satF k hi lo).held = h.held := rfl
@[simp] theorem Hw.satF_sys (k hi lo : Nat) : (h.satF k hi lo).sys = h.sys := rfl
@[simp] theorem Hw.satF_ain (k hi lo : Nat) : (h.satF k hi lo).ain = h.ain := rfl
@[simp] theorem Hw.satF_tcu0 (k hi lo : Nat) : (h.satF k hi lo).tcu0 = h.tcu0 := rfl
@[simp] theorem Hw.satF_tcu1 (k hi lo : Nat) : (h.satF k hi lo).tcu1 = h.tcu1 := rfl
@[simp] theorem Hw.satF_tcu2 (k hi lo : Nat) : (h.satF k hi lo).tcu2 = h.tcu2 := rfl
@[simp] theorem Hw.satF_tcu3 (k hi lo : Nat) : (h.satF k hi lo).tcu3 = h.tcu3 := rfl
@[simp] theorem Hw.satF_cue (k hi lo : Nat) : (h.satF k hi lo).cue = h.cue := rfl
@[simp] theorem Hw.satF_cea (k hi lo : Nat) : (h.satF k hi lo).cea = h.cea := rfl
@[simp] theorem Hw.satF_frc (k hi lo : Nat) : (h.satF k hi lo).frc = h.frc := rfl
@[simp] theorem Hw.satF_dbg (k hi lo : Nat) : (h.satF k hi lo).dbg = h.dbg := rfl
@[simp] theorem Hw.satF_stage (k hi lo : Nat) : (h.satF k hi lo).stage = h.stage := rfl
@[simp] theorem Hw.satF_mem (k hi lo : Nat) : (h.satF k hi lo).mem = h.mem := rfl
@[simp] theorem Hw.satF_zone (k hi lo : Nat) : (h.satF k hi lo).zone = h.zone := rfl
@[simp] theorem Hw.satF_sw (k hi lo : Nat) : (h.satF k hi lo).sw = h.sw := rfl
@[simp] theorem Hw.satF_nmu (k hi lo : Nat) : (h.satF k hi lo).nmu = h.nmu := rfl
@[simp] theorem Hw.satF_key (k hi lo : Nat) : (h.satF k hi lo).key = h.key := rfl
@[simp] theorem Hw.satF_cry (k hi lo : Nat) : (h.satF k hi lo).cry = h.cry := rfl
@[simp] theorem Hw.satF_cvus (k hi lo : Nat) : (h.satF k hi lo).cvus = h.cvus := rfl
@[simp] theorem Hw.satF_span (k hi lo : Nat) : (h.satF k hi lo).span = h.span := rfl
@[simp] theorem Hw.satF_vpt (k hi lo : Nat) : (h.satF k hi lo).vpt = h.vpt := rfl
@[simp] theorem Hw.satF_rel (k hi lo : Nat) : (h.satF k hi lo).rel = h.rel := rfl
@[simp] theorem Hw.satF_twn (k hi lo : Nat) : (h.satF k hi lo).twn = h.twn := rfl
@[simp] theorem Hw.satF_hlt (k hi lo : Nat) : (h.satF k hi lo).hlt = h.hlt := rfl
@[simp] theorem Hw.satF_boot (k hi lo : Nat) : (h.satF k hi lo).boot = h.boot := rfl

@[simp] theorem Hw.incF_resp (k hi lo : Nat) : (h.incF k hi lo).resp = h.resp := rfl
@[simp] theorem Hw.incF_shadow (k hi lo : Nat) : (h.incF k hi lo).shadow = h.shadow := rfl
@[simp] theorem Hw.incF_edges (k hi lo : Nat) : (h.incF k hi lo).edges = h.edges := rfl
@[simp] theorem Hw.incF_rose (k hi lo : Nat) : (h.incF k hi lo).rose = h.rose := rfl
@[simp] theorem Hw.incF_took (k hi lo : Nat) : (h.incF k hi lo).took = h.took := rfl
@[simp] theorem Hw.incF_free (k hi lo : Nat) : (h.incF k hi lo).free = h.free := rfl
@[simp] theorem Hw.incF_now (k hi lo : Nat) : (h.incF k hi lo).now = h.now := rfl
@[simp] theorem Hw.incF_ints (k hi lo : Nat) : (h.incF k hi lo).ints = h.ints := rfl
@[simp] theorem Hw.incF_cores (k hi lo : Nat) : (h.incF k hi lo).cores = h.cores := rfl
@[simp] theorem Hw.incF_pwr (k hi lo : Nat) : (h.incF k hi lo).pwr = h.pwr := rfl
@[simp] theorem Hw.incF_held (k hi lo : Nat) : (h.incF k hi lo).held = h.held := rfl
@[simp] theorem Hw.incF_sys (k hi lo : Nat) : (h.incF k hi lo).sys = h.sys := rfl
@[simp] theorem Hw.incF_ain (k hi lo : Nat) : (h.incF k hi lo).ain = h.ain := rfl
@[simp] theorem Hw.incF_tcu0 (k hi lo : Nat) : (h.incF k hi lo).tcu0 = h.tcu0 := rfl
@[simp] theorem Hw.incF_tcu1 (k hi lo : Nat) : (h.incF k hi lo).tcu1 = h.tcu1 := rfl
@[simp] theorem Hw.incF_tcu2 (k hi lo : Nat) : (h.incF k hi lo).tcu2 = h.tcu2 := rfl
@[simp] theorem Hw.incF_tcu3 (k hi lo : Nat) : (h.incF k hi lo).tcu3 = h.tcu3 := rfl
@[simp] theorem Hw.incF_cue (k hi lo : Nat) : (h.incF k hi lo).cue = h.cue := rfl
@[simp] theorem Hw.incF_cea (k hi lo : Nat) : (h.incF k hi lo).cea = h.cea := rfl
@[simp] theorem Hw.incF_frc (k hi lo : Nat) : (h.incF k hi lo).frc = h.frc := rfl
@[simp] theorem Hw.incF_dbg (k hi lo : Nat) : (h.incF k hi lo).dbg = h.dbg := rfl
@[simp] theorem Hw.incF_stage (k hi lo : Nat) : (h.incF k hi lo).stage = h.stage := rfl
@[simp] theorem Hw.incF_mem (k hi lo : Nat) : (h.incF k hi lo).mem = h.mem := rfl
@[simp] theorem Hw.incF_zone (k hi lo : Nat) : (h.incF k hi lo).zone = h.zone := rfl
@[simp] theorem Hw.incF_sw (k hi lo : Nat) : (h.incF k hi lo).sw = h.sw := rfl
@[simp] theorem Hw.incF_nmu (k hi lo : Nat) : (h.incF k hi lo).nmu = h.nmu := rfl
@[simp] theorem Hw.incF_key (k hi lo : Nat) : (h.incF k hi lo).key = h.key := rfl
@[simp] theorem Hw.incF_cry (k hi lo : Nat) : (h.incF k hi lo).cry = h.cry := rfl
@[simp] theorem Hw.incF_cvus (k hi lo : Nat) : (h.incF k hi lo).cvus = h.cvus := rfl
@[simp] theorem Hw.incF_span (k hi lo : Nat) : (h.incF k hi lo).span = h.span := rfl
@[simp] theorem Hw.incF_vpt (k hi lo : Nat) : (h.incF k hi lo).vpt = h.vpt := rfl
@[simp] theorem Hw.incF_rel (k hi lo : Nat) : (h.incF k hi lo).rel = h.rel := rfl
@[simp] theorem Hw.incF_twn (k hi lo : Nat) : (h.incF k hi lo).twn = h.twn := rfl
@[simp] theorem Hw.incF_hlt (k hi lo : Nat) : (h.incF k hi lo).hlt = h.hlt := rfl
@[simp] theorem Hw.incF_boot (k hi lo : Nat) : (h.incF k hi lo).boot = h.boot := rfl

@[simp] theorem Hw.wrPair_resp (lo hi v : Nat) : (h.wrPair lo hi v).resp = h.resp := rfl
@[simp] theorem Hw.wrPair_shadow (lo hi v : Nat) : (h.wrPair lo hi v).shadow = h.shadow := rfl
@[simp] theorem Hw.wrPair_edges (lo hi v : Nat) : (h.wrPair lo hi v).edges = h.edges := rfl
@[simp] theorem Hw.wrPair_rose (lo hi v : Nat) : (h.wrPair lo hi v).rose = h.rose := rfl
@[simp] theorem Hw.wrPair_took (lo hi v : Nat) : (h.wrPair lo hi v).took = h.took := rfl
@[simp] theorem Hw.wrPair_free (lo hi v : Nat) : (h.wrPair lo hi v).free = h.free := rfl
@[simp] theorem Hw.wrPair_now (lo hi v : Nat) : (h.wrPair lo hi v).now = h.now := rfl
@[simp] theorem Hw.wrPair_ints (lo hi v : Nat) : (h.wrPair lo hi v).ints = h.ints := rfl
@[simp] theorem Hw.wrPair_cores (lo hi v : Nat) : (h.wrPair lo hi v).cores = h.cores := rfl
@[simp] theorem Hw.wrPair_pwr (lo hi v : Nat) : (h.wrPair lo hi v).pwr = h.pwr := rfl
@[simp] theorem Hw.wrPair_held (lo hi v : Nat) : (h.wrPair lo hi v).held = h.held := rfl
@[simp] theorem Hw.wrPair_sys (lo hi v : Nat) : (h.wrPair lo hi v).sys = h.sys := rfl
@[simp] theorem Hw.wrPair_ain (lo hi v : Nat) : (h.wrPair lo hi v).ain = h.ain := rfl
@[simp] theorem Hw.wrPair_tcu0 (lo hi v : Nat) : (h.wrPair lo hi v).tcu0 = h.tcu0 := rfl
@[simp] theorem Hw.wrPair_tcu1 (lo hi v : Nat) : (h.wrPair lo hi v).tcu1 = h.tcu1 := rfl
@[simp] theorem Hw.wrPair_tcu2 (lo hi v : Nat) : (h.wrPair lo hi v).tcu2 = h.tcu2 := rfl
@[simp] theorem Hw.wrPair_tcu3 (lo hi v : Nat) : (h.wrPair lo hi v).tcu3 = h.tcu3 := rfl
@[simp] theorem Hw.wrPair_cue (lo hi v : Nat) : (h.wrPair lo hi v).cue = h.cue := rfl
@[simp] theorem Hw.wrPair_cea (lo hi v : Nat) : (h.wrPair lo hi v).cea = h.cea := rfl
@[simp] theorem Hw.wrPair_frc (lo hi v : Nat) : (h.wrPair lo hi v).frc = h.frc := rfl
@[simp] theorem Hw.wrPair_dbg (lo hi v : Nat) : (h.wrPair lo hi v).dbg = h.dbg := rfl
@[simp] theorem Hw.wrPair_stage (lo hi v : Nat) : (h.wrPair lo hi v).stage = h.stage := rfl
@[simp] theorem Hw.wrPair_mem (lo hi v : Nat) : (h.wrPair lo hi v).mem = h.mem := rfl
@[simp] theorem Hw.wrPair_zone (lo hi v : Nat) : (h.wrPair lo hi v).zone = h.zone := rfl
@[simp] theorem Hw.wrPair_sw (lo hi v : Nat) : (h.wrPair lo hi v).sw = h.sw := rfl
@[simp] theorem Hw.wrPair_nmu (lo hi v : Nat) : (h.wrPair lo hi v).nmu = h.nmu := rfl
@[simp] theorem Hw.wrPair_key (lo hi v : Nat) : (h.wrPair lo hi v).key = h.key := rfl
@[simp] theorem Hw.wrPair_cry (lo hi v : Nat) : (h.wrPair lo hi v).cry = h.cry := rfl
@[simp] theorem Hw.wrPair_cvus (lo hi v : Nat) : (h.wrPair lo hi v).cvus = h.cvus := rfl
@[simp] theorem Hw.wrPair_span (lo hi v : Nat) : (h.wrPair lo hi v).span = h.span := rfl
@[simp] theorem Hw.wrPair_vpt (lo hi v : Nat) : (h.wrPair lo hi v).vpt = h.vpt := rfl
@[simp] theorem Hw.wrPair_rel (lo hi v : Nat) : (h.wrPair lo hi v).rel = h.rel := rfl
@[simp] theorem Hw.wrPair_twn (lo hi v : Nat) : (h.wrPair lo hi v).twn = h.twn := rfl
@[simp] theorem Hw.wrPair_hlt (lo hi v : Nat) : (h.wrPair lo hi v).hlt = h.hlt := rfl
@[simp] theorem Hw.wrPair_boot (lo hi v : Nat) : (h.wrPair lo hi v).boot = h.boot := rfl

@[simp] theorem Hw.edge_regs (e : Nat) : (h.edge e).regs = h.regs := rfl
@[simp] theorem Hw.edge_resp (e : Nat) : (h.edge e).resp = h.resp := rfl
@[simp] theorem Hw.edge_shadow (e : Nat) : (h.edge e).shadow = h.shadow := rfl
@[simp] theorem Hw.edge_took (e : Nat) : (h.edge e).took = h.took := rfl
@[simp] theorem Hw.edge_free (e : Nat) : (h.edge e).free = h.free := rfl
@[simp] theorem Hw.edge_now (e : Nat) : (h.edge e).now = h.now := rfl
@[simp] theorem Hw.edge_ints (e : Nat) : (h.edge e).ints = h.ints := rfl
@[simp] theorem Hw.edge_cores (e : Nat) : (h.edge e).cores = h.cores := rfl
@[simp] theorem Hw.edge_pwr (e : Nat) : (h.edge e).pwr = h.pwr := rfl
@[simp] theorem Hw.edge_held (e : Nat) : (h.edge e).held = h.held := rfl
@[simp] theorem Hw.edge_sys (e : Nat) : (h.edge e).sys = h.sys := rfl
@[simp] theorem Hw.edge_ain (e : Nat) : (h.edge e).ain = h.ain := rfl
@[simp] theorem Hw.edge_tcu0 (e : Nat) : (h.edge e).tcu0 = h.tcu0 := rfl
@[simp] theorem Hw.edge_tcu1 (e : Nat) : (h.edge e).tcu1 = h.tcu1 := rfl
@[simp] theorem Hw.edge_tcu2 (e : Nat) : (h.edge e).tcu2 = h.tcu2 := rfl
@[simp] theorem Hw.edge_tcu3 (e : Nat) : (h.edge e).tcu3 = h.tcu3 := rfl
@[simp] theorem Hw.edge_cue (e : Nat) : (h.edge e).cue = h.cue := rfl
@[simp] theorem Hw.edge_cea (e : Nat) : (h.edge e).cea = h.cea := rfl
@[simp] theorem Hw.edge_frc (e : Nat) : (h.edge e).frc = h.frc := rfl
@[simp] theorem Hw.edge_dbg (e : Nat) : (h.edge e).dbg = h.dbg := rfl
@[simp] theorem Hw.edge_stage (e : Nat) : (h.edge e).stage = h.stage := rfl
@[simp] theorem Hw.edge_mem (e : Nat) : (h.edge e).mem = h.mem := rfl
@[simp] theorem Hw.edge_zone (e : Nat) : (h.edge e).zone = h.zone := rfl
@[simp] theorem Hw.edge_sw (e : Nat) : (h.edge e).sw = h.sw := rfl
@[simp] theorem Hw.edge_nmu (e : Nat) : (h.edge e).nmu = h.nmu := rfl
@[simp] theorem Hw.edge_key (e : Nat) : (h.edge e).key = h.key := rfl
@[simp] theorem Hw.edge_cry (e : Nat) : (h.edge e).cry = h.cry := rfl
@[simp] theorem Hw.edge_cvus (e : Nat) : (h.edge e).cvus = h.cvus := rfl
@[simp] theorem Hw.edge_span (e : Nat) : (h.edge e).span = h.span := rfl
@[simp] theorem Hw.edge_vpt (e : Nat) : (h.edge e).vpt = h.vpt := rfl
@[simp] theorem Hw.edge_rel (e : Nat) : (h.edge e).rel = h.rel := rfl
@[simp] theorem Hw.edge_twn (e : Nat) : (h.edge e).twn = h.twn := rfl
@[simp] theorem Hw.edge_hlt (e : Nat) : (h.edge e).hlt = h.hlt := rfl
@[simp] theorem Hw.edge_boot (e : Nat) : (h.edge e).boot = h.boot := rfl

@[simp] theorem Hw.answer_regs (v : Nat) : (h.answer v).regs = h.regs := rfl
@[simp] theorem Hw.answer_shadow (v : Nat) : (h.answer v).shadow = h.shadow := rfl
@[simp] theorem Hw.answer_edges (v : Nat) : (h.answer v).edges = h.edges := rfl
@[simp] theorem Hw.answer_rose (v : Nat) : (h.answer v).rose = h.rose := rfl
@[simp] theorem Hw.answer_took (v : Nat) : (h.answer v).took = h.took := rfl
@[simp] theorem Hw.answer_free (v : Nat) : (h.answer v).free = h.free := rfl
@[simp] theorem Hw.answer_now (v : Nat) : (h.answer v).now = h.now := rfl
@[simp] theorem Hw.answer_ints (v : Nat) : (h.answer v).ints = h.ints := rfl
@[simp] theorem Hw.answer_cores (v : Nat) : (h.answer v).cores = h.cores := rfl
@[simp] theorem Hw.answer_pwr (v : Nat) : (h.answer v).pwr = h.pwr := rfl
@[simp] theorem Hw.answer_held (v : Nat) : (h.answer v).held = h.held := rfl
@[simp] theorem Hw.answer_sys (v : Nat) : (h.answer v).sys = h.sys := rfl
@[simp] theorem Hw.answer_ain (v : Nat) : (h.answer v).ain = h.ain := rfl
@[simp] theorem Hw.answer_tcu0 (v : Nat) : (h.answer v).tcu0 = h.tcu0 := rfl
@[simp] theorem Hw.answer_tcu1 (v : Nat) : (h.answer v).tcu1 = h.tcu1 := rfl
@[simp] theorem Hw.answer_tcu2 (v : Nat) : (h.answer v).tcu2 = h.tcu2 := rfl
@[simp] theorem Hw.answer_tcu3 (v : Nat) : (h.answer v).tcu3 = h.tcu3 := rfl
@[simp] theorem Hw.answer_cue (v : Nat) : (h.answer v).cue = h.cue := rfl
@[simp] theorem Hw.answer_cea (v : Nat) : (h.answer v).cea = h.cea := rfl
@[simp] theorem Hw.answer_frc (v : Nat) : (h.answer v).frc = h.frc := rfl
@[simp] theorem Hw.answer_dbg (v : Nat) : (h.answer v).dbg = h.dbg := rfl
@[simp] theorem Hw.answer_stage (v : Nat) : (h.answer v).stage = h.stage := rfl
@[simp] theorem Hw.answer_mem (v : Nat) : (h.answer v).mem = h.mem := rfl
@[simp] theorem Hw.answer_zone (v : Nat) : (h.answer v).zone = h.zone := rfl
@[simp] theorem Hw.answer_sw (v : Nat) : (h.answer v).sw = h.sw := rfl
@[simp] theorem Hw.answer_nmu (v : Nat) : (h.answer v).nmu = h.nmu := rfl
@[simp] theorem Hw.answer_key (v : Nat) : (h.answer v).key = h.key := rfl
@[simp] theorem Hw.answer_cry (v : Nat) : (h.answer v).cry = h.cry := rfl
@[simp] theorem Hw.answer_cvus (v : Nat) : (h.answer v).cvus = h.cvus := rfl
@[simp] theorem Hw.answer_span (v : Nat) : (h.answer v).span = h.span := rfl
@[simp] theorem Hw.answer_vpt (v : Nat) : (h.answer v).vpt = h.vpt := rfl
@[simp] theorem Hw.answer_rel (v : Nat) : (h.answer v).rel = h.rel := rfl
@[simp] theorem Hw.answer_twn (v : Nat) : (h.answer v).twn = h.twn := rfl
@[simp] theorem Hw.answer_hlt (v : Nat) : (h.answer v).hlt = h.hlt := rfl
@[simp] theorem Hw.answer_boot (v : Nat) : (h.answer v).boot = h.boot := rfl

@[simp] theorem Hw.errResp_regs : (h.errResp).regs = h.regs := rfl
@[simp] theorem Hw.errResp_shadow : (h.errResp).shadow = h.shadow := rfl
@[simp] theorem Hw.errResp_edges : (h.errResp).edges = h.edges := rfl
@[simp] theorem Hw.errResp_rose : (h.errResp).rose = h.rose := rfl
@[simp] theorem Hw.errResp_took : (h.errResp).took = h.took := rfl
@[simp] theorem Hw.errResp_free : (h.errResp).free = h.free := rfl
@[simp] theorem Hw.errResp_now : (h.errResp).now = h.now := rfl
@[simp] theorem Hw.errResp_ints : (h.errResp).ints = h.ints := rfl
@[simp] theorem Hw.errResp_cores : (h.errResp).cores = h.cores := rfl
@[simp] theorem Hw.errResp_pwr : (h.errResp).pwr = h.pwr := rfl
@[simp] theorem Hw.errResp_held : (h.errResp).held = h.held := rfl
@[simp] theorem Hw.errResp_sys : (h.errResp).sys = h.sys := rfl
@[simp] theorem Hw.errResp_ain : (h.errResp).ain = h.ain := rfl
@[simp] theorem Hw.errResp_tcu0 : (h.errResp).tcu0 = h.tcu0 := rfl
@[simp] theorem Hw.errResp_tcu1 : (h.errResp).tcu1 = h.tcu1 := rfl
@[simp] theorem Hw.errResp_tcu2 : (h.errResp).tcu2 = h.tcu2 := rfl
@[simp] theorem Hw.errResp_tcu3 : (h.errResp).tcu3 = h.tcu3 := rfl
@[simp] theorem Hw.errResp_cue : (h.errResp).cue = h.cue := rfl
@[simp] theorem Hw.errResp_cea : (h.errResp).cea = h.cea := rfl
@[simp] theorem Hw.errResp_frc : (h.errResp).frc = h.frc := rfl
@[simp] theorem Hw.errResp_dbg : (h.errResp).dbg = h.dbg := rfl
@[simp] theorem Hw.errResp_stage : (h.errResp).stage = h.stage := rfl
@[simp] theorem Hw.errResp_mem : (h.errResp).mem = h.mem := rfl
@[simp] theorem Hw.errResp_zone : (h.errResp).zone = h.zone := rfl
@[simp] theorem Hw.errResp_sw : (h.errResp).sw = h.sw := rfl
@[simp] theorem Hw.errResp_nmu : (h.errResp).nmu = h.nmu := rfl
@[simp] theorem Hw.errResp_key : (h.errResp).key = h.key := rfl
@[simp] theorem Hw.errResp_cry : (h.errResp).cry = h.cry := rfl
@[simp] theorem Hw.errResp_cvus : (h.errResp).cvus = h.cvus := rfl
@[simp] theorem Hw.errResp_span : (h.errResp).span = h.span := rfl
@[simp] theorem Hw.errResp_vpt : (h.errResp).vpt = h.vpt := rfl
@[simp] theorem Hw.errResp_rel : (h.errResp).rel = h.rel := rfl
@[simp] theorem Hw.errResp_twn : (h.errResp).twn = h.twn := rfl
@[simp] theorem Hw.errResp_hlt : (h.errResp).hlt = h.hlt := rfl
@[simp] theorem Hw.errResp_boot : (h.errResp).boot = h.boot := rfl

@[simp] theorem State.run_eq (f : Hw → Hw) : s.run f = .next { s with hw := f s.hw } := rfl

end Sys2Proof.Machine
end

