-- ==== Sys2Proof/Laws/Tables.lean ====
section
/-! SUPPORT. Laws of the sparse tables and the byte memories: what a read finds after a write, and that every operation keeps the
canonical form. -/

namespace Sys2Proof.Machine

variable {α : Type} [DecidableEq α] (d : Nat → α)

/-- Entries all beyond a key do not show at it. -/
theorem lookup_canonFrom : ∀ (l : List (Nat × α)) (lo k : Nat), canonFrom d lo l = true → k < lo → lookup d l k = d k
  | [], _, _, _, _ => rfl
  | (j, v) :: t, lo, k, h, hk => by
    simp only [canonFrom, Bool.and_eq_true, decide_eq_true_eq] at h
    have hj : j ≠ k := by omega
    simp only [lookup, hj, if_false]
    exact lookup_canonFrom t (j + 1) k h.2 (by omega)

/-- A weaker lower bound. -/
theorem canonFrom_mono : ∀ (l : List (Nat × α)) (lo lo' : Nat), canonFrom d lo l = true → lo' ≤ lo → canonFrom d lo' l = true
  | [], _, _, _, _ => rfl
  | (j, v) :: t, lo, lo', h, hl => by
    simp only [canonFrom, Bool.and_eq_true, decide_eq_true_eq] at h ⊢
    exact ⟨⟨by omega, h.1.2⟩, h.2⟩

/-- A key reads as the value stored under it, and every other key as before. -/
theorem lookup_store_from : ∀ (l : List (Nat × α)) (lo k : Nat) (v : α) (j : Nat), canonFrom d lo l = true →
    lookup d (store d l k v) j = if j = k then v else lookup d l j
  | [], lo, k, v, j, _ => by
    simp only [store]
    by_cases hv : v = d k
    · by_cases hj : j = k
      · subst hj; simp [lookup, hv]
      · simp [lookup, hv, hj]
    · by_cases hj : j = k
      · subst hj; simp [lookup, hv]
      · have : k ≠ j := fun e => hj e.symm
        simp [lookup, hv, hj, this]
  | (i, w) :: t, lo, k, v, j, h => by
    have h' := h
    simp only [canonFrom, Bool.and_eq_true, decide_eq_true_eq] at h'
    simp only [store]
    by_cases hki : k < i
    · have hout : lookup d ((i, w) :: t) k = d k :=
        lookup_canonFrom d _ i k (canonFrom_mono d _ i i (by
          simp only [canonFrom, Bool.and_eq_true, decide_eq_true_eq]; exact ⟨⟨le_refl i, h'.1.2⟩, h'.2⟩) (le_refl i)) hki
      by_cases hv : v = d k
      · by_cases hj : j = k
        · subst hj; simp [hki, hv, hout]
        · simp [hki, hv, hj]
      · by_cases hj : j = k
        · subst hj; simp [hki, hv, lookup]
        · have : k ≠ j := fun e => hj e.symm
          rw [if_pos hki, if_neg hv, if_neg hj]
          simp [lookup, this]
    · by_cases hk : k = i
      · subst hk
        by_cases hv : v = d k
        · by_cases hj : j = k
          · subst hj
            simp only [lt_irrefl, if_false, hv, if_true]
            exact lookup_canonFrom d t (j + 1) j h'.2 (by omega)
          · have : k ≠ j := fun e => hj e.symm
            simp [hv, hj, lookup, this]
        · by_cases hj : j = k
          · subst hj; simp [hv, lookup]
          · have : k ≠ j := fun e => hj e.symm
            simp [hv, hj, lookup, this]
      · rw [if_neg hki, if_neg hk]
        simp only [lookup]
        by_cases hij : i = j
        · have : j ≠ k := fun e => hk (e ▸ hij.symm)
          simp [hij, this]
        · simp only [hij, if_false]
          exact lookup_store_from t (i + 1) k v j h'.2

/-- A store keeps the canonical form. -/
theorem store_canonFrom : ∀ (l : List (Nat × α)) (lo k : Nat) (v : α), canonFrom d lo l = true → lo ≤ k →
    canonFrom d lo (store d l k v) = true
  | [], lo, k, v, _, hk => by
    simp only [store]
    by_cases hv : v = d k <;> simp [hv, canonFrom, hk]
  | (i, w) :: t, lo, k, v, h, hk => by
    have h' := h
    simp only [canonFrom, Bool.and_eq_true, decide_eq_true_eq] at h'
    simp only [store]
    by_cases hki : k < i
    · by_cases hv : v = d k
      · rw [if_pos hki, if_pos hv]; exact h
      · rw [if_pos hki, if_neg hv]
        simp only [canonFrom, Bool.and_eq_true, decide_eq_true_eq]
        exact ⟨⟨hk, hv⟩, ⟨⟨by omega, h'.1.2⟩, h'.2⟩⟩
    · by_cases hki' : k = i
      · subst hki'
        by_cases hv : v = d k
        · rw [if_neg hki, if_pos rfl, if_pos hv]
          exact canonFrom_mono d t (k + 1) lo h'.2 (by omega)
        · rw [if_neg hki, if_pos rfl, if_neg hv]
          simp only [canonFrom, Bool.and_eq_true, decide_eq_true_eq]
          exact ⟨⟨h'.1.1, hv⟩, h'.2⟩
      · rw [if_neg hki, if_neg hki']
        simp only [canonFrom, Bool.and_eq_true, decide_eq_true_eq]
        exact ⟨⟨h'.1.1, h'.1.2⟩, store_canonFrom t (i + 1) k v h'.2 (by omega)⟩

/-- Forgetting entries keeps the canonical form. -/
theorem filter_canonFrom (p : Nat × α → Bool) : ∀ (l : List (Nat × α)) (lo : Nat), canonFrom d lo l = true →
    canonFrom d lo (l.filter p) = true
  | [], _, _ => rfl
  | (i, w) :: t, lo, h => by
    simp only [canonFrom, Bool.and_eq_true, decide_eq_true_eq] at h
    by_cases hp : p (i, w) = true
    · rw [List.filter_cons_of_pos hp]
      simp only [canonFrom, Bool.and_eq_true, decide_eq_true_eq]
      exact ⟨h.1, filter_canonFrom p t (i + 1) h.2⟩
    · rw [List.filter_cons_of_neg hp]
      exact canonFrom_mono d _ (i + 1) lo (filter_canonFrom p t (i + 1) h.2) (by omega)

/-- Read after write in a canonical table. -/
theorem lookup_store (l : List (Nat × α)) (h : canon d l = true) (k : Nat) (v : α) (j : Nat) :
    lookup d (store d l k v) j = if j = k then v else lookup d l j := lookup_store_from d l 0 k v j h

/-- A store keeps the canonical form. -/
theorem store_canon (l : List (Nat × α)) (h : canon d l = true) (k : Nat) (v : α) : canon d (store d l k v) = true :=
  store_canonFrom d l 0 k v h (Nat.zero_le k)

/-- Forgetting entries keeps the canonical form. -/
theorem filter_canon (p : Nat × α → Bool) (l : List (Nat × α)) (h : canon d l = true) : canon d (l.filter p) = true :=
  filter_canonFrom d p l 0 h

/-- One byte of a memory after a store. -/
theorem Mem.get_set (m : Mem) (h : m.wf = true) (a : Nat) (b : Byte) (x : Nat) :
    (m.set a b).get x = if x = a then b else m.get x := lookup_store zeroByte m h a b x

/-- A store of a byte keeps the canonical form. -/
theorem Mem.set_wf (m : Mem) (h : m.wf = true) (a : Nat) (b : Byte) : (m.set a b).wf = true := store_canon zeroByte m h a b

/-- A store of bytes keeps the canonical form. -/
theorem Mem.write_wf : ∀ (bs : List Byte) (m : Mem) (a : Nat), m.wf = true → (m.write a bs).wf = true
  | [], _, _, h => h
  | b :: t, m, a, h => Mem.write_wf t (m.set a b) (a + 1) (m.set_wf h a b)

/-- A byte outside the stored ones is as before. -/
theorem Mem.get_write_outside : ∀ (bs : List Byte) (m : Mem) (a x : Nat), m.wf = true → (x < a ∨ a + bs.length ≤ x) →
    (m.write a bs).get x = m.get x
  | [], _, _, _, _, _ => rfl
  | b :: t, m, a, x, h, hx => by
    have hx' : x ≠ a := by
      simp only [List.length_cons] at hx
      omega
    rw [Mem.write, Mem.get_write_outside t (m.set a b) (a + 1) x (m.set_wf h a b) (by
      simp only [List.length_cons] at hx
      omega), Mem.get_set m h, if_neg hx']

/-- A stored byte reads back. -/
theorem Mem.get_write_inside : ∀ (bs : List Byte) (m : Mem) (a i : Nat) (hi : i < bs.length), m.wf = true →
    (m.write a bs).get (a + i) = bs[i]
  | [], _, _, _, hi, _ => absurd hi (Nat.not_lt_zero _)
  | b :: t, m, a, 0, _, h => by
    rw [Mem.write, Mem.get_write_outside t (m.set a b) (a + 1) (a + 0) (m.set_wf h a b) (by left; omega), Mem.get_set m h]
    simp
  | b :: t, m, a, i + 1, hi, h => by
    have hi' : i < t.length := by simpa using hi
    have e : a + (i + 1) = a + 1 + i := by omega
    rw [Mem.write, e, Mem.get_write_inside t (m.set a b) (a + 1) i hi' (m.set_wf h a b)]
    simp

end Sys2Proof.Machine
end

