-- ==== Sys2Proof/Laws/Ops.lean ====
section
/-! SUPPORT. Laws of the shared operations: reading a register after a write, raising an event, capturing an error, the gates of
an access, the passing of time over the cue sheet, and the firing of a cue. -/

namespace Sys2Proof.Machine

/-- A register reads as the low 32 bits written to it, and every other register as before. -/
theorem Hw.rd_wr (h : Hw) (ok : h.regsOk = true) (k v j : Nat) : (h.wr k v).rd j = if j = k then v % 2 ^ 32 else h.rd j := by
  unfold Hw.rd Hw.wr
  rw [lookup_store regReset h.regs ok]
  split <;> simp

/-- A write keeps the register file canonical. -/
theorem Hw.wr_regsOk (h : Hw) (ok : h.regsOk = true) (k v : Nat) : (h.wr k v).regsOk = true :=
  store_canon regReset h.regs ok k _

/-- Every register holds 32 bits. -/
theorem Hw.rd_lt (h : Hw) (k : Nat) : h.rd k < 2 ^ 32 := (lookup regReset h.regs k).isLt

/-- The answer of an access is no register. -/
@[simp] theorem Hw.rd_answer (h : Hw) (v k : Nat) : (h.answer v).rd k = h.rd k := rfl
@[simp] theorem Hw.get_answer (h : Hw) (v k hi lo : Nat) : (h.answer v).get k hi lo = h.get k hi lo := rfl
@[simp] theorem Hw.bit_answer (h : Hw) (v k b : Nat) : (h.answer v).bit k b = h.bit k b := rfl
@[simp] theorem Hw.locked_answer (h : Hw) (v k : Nat) : (h.answer v).locked k = h.locked k := rfl
@[simp] theorem Hw.rd_errResp (h : Hw) (k : Nat) : h.errResp.rd k = h.rd k := rfl

/-- Raising an event changes registers, the lines that rose in this cycle and the edges taken for delivery only. -/
theorem Hw.raiseG_only (h : Hw) (page g b : Nat) :
    h.raiseG page g b = { h with
      regs := (h.raiseG page g b).regs
      edges := (h.raiseG page g b).edges
      rose := (h.raiseG page g b).rose } := by
  unfold Hw.raiseG
  split
  · rfl
  · dsimp only
    split <;> rfl

/-- Capturing an error changes registers only. -/
theorem Hw.capture_only (h : Hw) (page code addr : Nat) (a : Attr) (x : Nat) :
    h.capture page code addr a x = { h with regs := (h.capture page code addr a x).regs } := by
  unfold Hw.capture
  split <;> rfl

/-- A refused access changes registers and the answer only. -/
theorem Hw.refuse_only (h : Hw) (k code : Nat) (a : Attr) :
    h.refuse k code a = { h with regs := (h.refuse k code a).regs, resp := { err := true, data := 0 } } := by
  unfold Hw.refuse Hw.errResp
  rw [Hw.capture_only]

/-- Capturing an error keeps the register file canonical. -/
theorem Hw.capture_regsOk (h : Hw) (ok : h.regsOk = true) (page code addr : Nat) (a : Attr) (x : Nat) :
    (h.capture page code addr a x).regsOk = true := by
  unfold Hw.capture
  split
  · exact Hw.wr_regsOk _ ok _ _
  · exact Hw.wr_regsOk _ (Hw.wr_regsOk _ (Hw.wr_regsOk _ (Hw.wr_regsOk _ ok _ _) _ _) _ _) _ _

/-- Raising an event keeps the register file canonical. -/
theorem Hw.raiseG_regsOk (h : Hw) (ok : h.regsOk = true) (page g b : Nat) : (h.raiseG page g b).regsOk = true := by
  unfold Hw.raiseG
  split
  · exact ok
  · dsimp only
    split
    · exact Hw.wr_regsOk _ ok _ _
    · exact Hw.wr_regsOk _ ok _ _

/-- An access whose gates are open does what it does, with the answer recorded. -/
theorem Hw.access_opens (h : Hw) (k : Nat) (a : Attr) (f : Hw → Hw) (o : h.opens k a = true) : h.access k a f = f (h.answer 0) := by
  simp only [Hw.opens, Bool.and_eq_true, Bool.not_eq_true'] at o
  obtain ⟨⟨⟨p, l⟩, g⟩, j⟩ := o
  have e : (pageRow (k / 0x10000)).isNone = false := by
    cases hp : pageRow (k / 0x10000) <;> simp_all
  simp [Hw.access, e, l, g, j]

/-- A write that reaches its register. -/
theorem Hw.busWrite_takes (h : Hw) (k : Nat) (a : Attr) (f : Hw → Hw) (t : h.takes k a = true) : h.busWrite k a f = f (h.answer 0) := by
  simp only [Hw.takes, Bool.and_eq_true, Bool.not_eq_true'] at t
  rw [Hw.busWrite, Hw.access_opens h k a _ t.1]
  simp [t.2]

/-- Taking note of the cycle changes the cue sheet only. -/
theorem Hw.cueNow_only (h : Hw) : h.cueNow = { h with cue := h.cueNow.cue } := by
  unfold Hw.cueNow
  split <;> rfl

/-- The note of a cycle is taken once. -/
theorem Hw.cueNow_cycle (h : Hw) : h.cueNow.cue.cycle = h.cueNow.now := by
  unfold Hw.cueNow
  split <;> first | assumption | rfl

/-- The present value of a slot does not depend on how far its cue instants are passed. -/
theorem Hw.slotVal_mark (g h : Hw) (n m : Nat) (r : g.regs = h.regs) (w : g.now = h.now)
    (s : g.slot n = { h.slot n with mark := m }) : g.slotVal n = h.slotVal n := by
  simp only [Hw.slotVal, Hw.onShaft, Hw.shaft, Hw.advance, Hw.nominal, Hw.tickNs, Hw.tcuSource, Hw.tcuState, Hw.angLines,
    Hw.get, Hw.rd, slewed, r, w, s]
  rfl

/-- Passing the instants of a cycle changes nothing but how far they are passed. -/
theorem Hw.passMarks_only (h : Hw) : h.passMarks = { h with
    tcu0 := { h.tcu0 with mark := h.slotVal 0 + 1 }
    tcu1 := { h.tcu1 with mark := h.slotVal 1 + 1 }
    tcu2 := { h.tcu2 with mark := h.slotVal 2 + 1 }
    tcu3 := { h.tcu3 with mark := h.slotVal 3 + 1 } } := by
  have e : h.passMarks = [0, 1, 2, 3].foldl (fun (h : Hw) n => h.setSlot n { h.slot n with mark := h.slotVal n + 1 }) h := rfl
  rw [e]
  simp only [List.foldl_cons, List.foldl_nil]
  let h1 : Hw := { h with tcu0 := { h.tcu0 with mark := h.slotVal 0 + 1 } }
  let h2 : Hw := { h1 with tcu1 := { h.tcu1 with mark := h.slotVal 1 + 1 } }
  let h3 : Hw := { h2 with tcu2 := { h.tcu2 with mark := h.slotVal 2 + 1 } }
  have q1 : h1.slotVal 1 = h.slotVal 1 := Hw.slotVal_mark h1 h 1 h.tcu1.mark rfl rfl rfl
  have q2 : h2.slotVal 2 = h.slotVal 2 := Hw.slotVal_mark h2 h 2 h.tcu2.mark rfl rfl rfl
  have q3 : h3.slotVal 3 = h.slotVal 3 := Hw.slotVal_mark h3 h 3 h.tcu3.mark rfl rfl rfl
  have s0 : h.setSlot 0 { h.slot 0 with mark := h.slotVal 0 + 1 } = h1 := rfl
  have s1 : h1.setSlot 1 { h1.slot 1 with mark := h1.slotVal 1 + 1 } = h2 := by rw [q1]; rfl
  have s2 : h2.setSlot 2 { h2.slot 2 with mark := h2.slotVal 2 + 1 } = h3 := by rw [q2]; rfl
  rw [s0, s1, s2, q3]
  rfl
/-- Firing an entry changes the cue sheet only. -/
theorem Hw.cueFired_only (h : Hw) (i : Nat) : h.cueFired i = { h with cue := (h.cueFired i).cue } := by
  unfold Hw.cueFired Hw.cueTaken
  rw [Hw.cueNow_only]

/-- The sheet's account of the cycle leaves every entry. -/
theorem Hw.cueFired_cueOf (h : Hw) (i : Nat) (c : CueRef) : (h.cueFired i).cueOf c = h.cueOf c := by
  unfold Hw.cueFired Hw.cueTaken Hw.cueNow
  split <;> rfl

/-- A cue that acts does what its action does, with the instant that its slot has reached. -/
theorem Hw.fireCue_acts (h : Hw) (c : CueRef) (act v : Nat) (eff : Nat → Nat → Nat → Nat → Hw → Hw) (t : h.cueActs c act v = true) :
    h.fireCue c act eff = eff (cueArg (h.cueOf c)) v (cueTc (h.cueOf c)) c.idx (h.cueFired c.idx) := by
  simp only [Hw.cueActs, Bool.and_eq_true, Bool.not_eq_true', decide_eq_true_eq] at t
  obtain ⟨⟨⟨⟨⟨⟨⟨⟨⟨l, c0⟩, vd⟩, ac⟩, f⟩, nx⟩, du⟩, rm⟩, sec⟩, liv⟩ := t
  have hsec : (decide (cueFld (h.cueOf c) 123 123 = 0) && (h.cueFired c.idx).cueTargetSecure (cueAction (h.cueOf c)) (cueArg (h.cueOf c))) = false := by
    rw [ac, Hw.cueFired_only]; exact sec
  have hany : (cuePages (cueAction (h.cueOf c)) (cueArg (h.cueOf c))).any (fun p => !(h.cueFired c.idx).live p) = false := by
    rw [ac, List.any_eq_false]
    intro p hp
    have q := List.all_eq_true.mp liv p hp
    have e : (h.cueFired c.idx).live p = true := by rw [Hw.cueFired_only]; exact q
    simp [e]
  have hnow : (h.cueTaken c.idx).cueNow = h.cueTaken c.idx := by
    have q : (h.cueTaken c.idx).cue.cycle = (h.cueTaken c.idx).now := Hw.cueNow_cycle h
    rw [Hw.cueNow, if_pos q]
  have hfire : (h.cueTaken c.idx).fireAt c.idx v (h.cueOf c) (eff (cueArg (h.cueOf c)) v (cueTc (h.cueOf c)) c.idx) =
      eff (cueArg (h.cueOf c)) v (cueTc (h.cueOf c)) c.idx (h.cueFired c.idx) := by
    have q : (h.cueTaken c.idx).cue.fired < 64 := rm
    rw [Hw.fireAt, hnow]
    simp only [q, if_true]
    show (h.cueFired c.idx).fireChecked _ _ = _
    simp only [Hw.fireChecked, hsec, hany, Bool.false_eq_true, if_false]
  simp only [Hw.fireCue]
  rw [show h.cueEntry h.activeHalf c.idx = h.cueOf c from rfl]
  simp only [l, c0, vd, ac, f, nx, du, Bool.and_self, decide_true, if_true]
  exact hfire

/-- A load that meets no uncorrectable error changes nothing of the instruction's outcome. -/
theorem gEcc_clean (k : Bool) (load : Ecc) (nl : load ≠ .uncorrectable) (y : G GDone) : gEcc k load y = y := by
  cases load <;> first | rfl | exact absurd rfl nl

/-- An engine that executes a word of the command's opcode does what the instruction does. -/
theorem Hw.engineStep_executes (h : Hw) (e t : Nat) (r : Run) (w op : Nat) (fetch load : Ecc) (f : Hw → GCtx → Run → Nat → G GDone)
    (g : Hw) (x : h.executes e t r w = true) (o : gOp w = op) (nf : fetch ≠ .uncorrectable) (nl : load ≠ .uncorrectable)
    (qg : g = h.eccSeen fetch load t r w) :
    h.engineStep e fetch op f load = (g.retire t r.counted
      (h.loadAddr (h.gCtx t r) r.counted w) (f g (h.gCtx t r) r.counted w)).ranNow t r.counted w := by
  subst qg
  simp only [Hw.executes, Bool.and_eq_true, decide_eq_true_eq] at x
  obtain ⟨⟨⟨⟨⟨⟨⟨⟨l1, l2⟩, cu⟩, bg⟩, brk⟩, ag⟩, pc⟩, pw⟩, oc⟩ := x
  have hb : h.beginBg t r = (h, r) := by
    unfold Hw.beginBg
    have : (r.bg && !r.begun) = false := by rw [← Bool.not_eq_true', Bool.not_and, Bool.not_not]; exact bg
    simp [this]
  have hbrk : (h.dbgOn t && decide (r.phase = .primary) && !r.passBp && h.atBreak r.pc) = false := by
    rw [← Bool.not_eq_true']; exact brk
  have hpc : ¬ (r.pc ≥ (h.gCtx t r).codeLen) := by omega
  have hag : (match r.first with | some x => decide (x.trap = tFetchEcc) && decide (x.icount = r.icount + 1) | none => false) = false := by
    cases hf : r.first with
    | none => rfl
    | some y =>
      have ag' : (!(decide (y.trap = tFetchEcc) && decide (y.icount = r.icount + 1))) = true := by
        simp only [hf] at ag; exact ag
      rw [← Bool.not_eq_true']; exact ag'
  unfold Hw.engineStep
  simp only [l1, l2, cu, Bool.and_self, if_true, hb, hbrk, nf, Bool.false_eq_true, if_false]
  rw [if_neg (fun c => c.elim id (fun q => Bool.noConfusion (q.symm.trans hag))), if_neg hpc]
  subst o
  simp only [pw, oc, Bool.not_true, Bool.false_eq_true, if_false, ne_eq, not_true_eq_false, gEcc_clean _ _ nl]
  rfl

/-- A completed instruction leaves its run at the new place. -/
theorem Hw.retire_go (h : Hw) (t : Nat) (r x : Run) (a : Nat) : h.retire t r.counted a (.ok (.go x)) = h.goesOn t r x := rfl

/-- The end of a run. -/
theorem Hw.retire_ended (h : Hw) (t : Nat) (r : Run) (a : Nat) : h.retire t r.counted a (.ok .ended) = h.endPhase t r.counted 0 := rfl

/-- A command accepted in `KEY_CMD` does its work and ends (R584). -/
theorem Hw.keyCommand_runs (h : Hw) (op : Nat) (v : Word) (a : Attr) (f : Hw → Nat × Hw) (g : Hw)
    (t : h.takes KEY_CMD a = true) (e : g = (h.answer 0).wr KEY_CMD (op * 2 ^ 28 + v.toNat % 2 ^ 24))
    (b : h.bit KEY_CMD 27 = false) (l : g.lcs ≠ 4) : h.keyCommand op v a f = g.keyEnd (f g) := by
  subst e
  simp only [Hw.keyCommand, Hw.busWrite_takes _ _ _ _ t, Hw.bit_answer, b, if_neg l, Bool.false_eq_true, if_false]

/-- A command accepted in `VPT_CMD` does its work and leaves its result (Table 14.5). -/
theorem Hw.vpCommand_runs (h : Hw) (op : Nat) (v : Word) (a : Attr) (f : Nat → Hw → Nat × Hw) (g : Hw)
    (t : h.takes VPT_CMD a = true) (e : g = (h.answer 0).wr VPT_CMD (op * 2 ^ 28 + fld v.toNat 9 0))
    (b : h.bit VPT_CMD 27 = false) :
    h.vpCommand op v a f = (f (fld v.toNat 9 0) g).2.put VPT_CMD 26 24 (f (fld v.toNat 9 0) g).1 := by
  subst e
  simp only [Hw.vpCommand, Hw.busWrite_takes _ _ _ _ t, Hw.bit_answer, b, Bool.false_eq_true, if_false]

/-- A frame of the partner acts by its type (R626, R628). -/
theorem Hw.exrexRx_takes (h : Hw) (b : List Byte) (f : Exrex) (ok : Nat → Bool) (bad : Hw → Hw) (k : Exrex → Hw → Hw)
    (t : h.exrexTakes b f) (o : ok f.typ = true) : h.exrexRx b ok bad k = k f (h.peerSeen f) := by
  simp only [Hw.exrexRx, t.1, t.2.1, t.2.2, o, Bool.not_true, Bool.or_self, Bool.false_eq_true, if_false, if_true]

/-- The front job of a queue runs and completes with the code of its operation (R606, R608). -/
theorem Hw.runJob_runs (h : Hw) (q op : Nat) (f : List Byte → Job → Hw → Nat × Hw) (j : Job) (d : List Byte) (x : Hw)
    (r : h.jobRuns q op j d x) (o : 1 ≤ op ∧ op ≤ 8) : h.runJob q op f = (f d j x).2.jobDone q j d (f d j x).1 := by
  obtain ⟨l, k, m, e⟩ := r
  subst e
  cases jq : h.jobs q with
  | nil => simp [jq] at k
  | cons y t =>
    have q0 : ¬ (dOp d = 0 ∨ 8 < dOp d) := by omega
    simp only [jq, List.head?_cons, Option.some.injEq] at k
    subst k
    simp only [Hw.runJob, l, jq, m, if_neg q0, ne_eq, not_true_eq_false, Bool.not_true, Bool.false_eq_true, if_false]

/-- An outcome of a run is a next state. -/
theorem State.run_answers (s : State) (f : Hw → Hw) : Answers (s.run f) := ⟨_, rfl⟩

end Sys2Proof.Machine
end

