-- ==== Sys2Proof/Laws/Commands.lean ====
section
/-! SUPPORT. Laws of all commands at once. -/

namespace Sys2Proof.Machine
/-- A command is its effect on the module; the queue it leaves alone. -/
theorem exec_effect (c : Instr) (s : State) : exec c s = s.run (effect c) := by
  obtain ⟨h, q⟩ := s
  have e : ∃ g, exec c { hw := h, pending := q } = .next { hw := g, pending := q } ∧ exec c { hw := h } = .next { hw := g } := by
    cases c with
    | placement _ => refine ⟨_, rfl, ?_⟩; simp only [exec, execPlacement, State.run]
    | dmaEventTrigger _ => refine ⟨_, rfl, ?_⟩; simp only [exec, execDmaEventTrigger, State.run]
    | loaderCheck => refine ⟨_, rfl, ?_⟩; simp only [exec, execLoaderCheck, State.run]
    | imageCheck => refine ⟨_, rfl, ?_⟩; simp only [exec, execImageCheck, State.run]
    | _ => exact ⟨_, rfl, rfl⟩
  obtain ⟨g, e1, e2⟩ := e
  simp only [State.run, effect, e1, e2]

end Sys2Proof.Machine
end

