-- ==== Sys2Proof/Laws/Gorpen.lean ====
section
/-! SUPPORT. Laws of the checks that Gorpen instructions make before they act. -/

namespace Sys2Proof.Machine

/-- A check that does not hold lets the instruction go on. -/
theorem trapIf_false {c : Bool} {code : Nat} (h : c = false) : trapIf c code = .ok () := by subst h; rfl

/-- A check of a condition that is false. -/
@[simp] theorem trapIf_no (code : Nat) : trapIf false code = .ok () := rfl

/-- A register, or the even register of a pair. -/
theorem pairOk_even {ty i : Nat} (h : ty = 7 → i % 2 = 0) : pairOk ty i = .ok () := by
  apply trapIf_false
  by_cases q : ty = 7
  · simp [q, h q]
  · simp [q]

/-- A field that names a boolean register. -/
theorem boolOk_lt {i : Nat} (h : i < 16) : boolOk i = .ok () := by
  apply trapIf_false
  simp only [decide_eq_false_iff_not]
  omega

/-- What a condition of format B says of a run. -/
theorem gCond_ok {r : Run} {w : Nat} (h : gMode w ≠ 3) :
    gCond r w = .ok (decide (gMode w = 0 ∨ gMode w = 1 ∧ r.bool (gC w) = true ∨ gMode w = 2 ∧ r.bool (gC w) = false)) := by
  have l : gMode w < 4 := by unfold gMode fld; exact Nat.mod_lt _ (by decide)
  unfold gCond
  generalize gMode w = m at *
  match m, h, l with
  | 0, _, _ => simp [pure, Except.pure]
  | 1, _, _ => cases r.bool (gC w) <;> simp [pure, Except.pure]
  | 2, _, _ => cases r.bool (gC w) <;> simp [pure, Except.pure]
  | n + 4, _, l => omega

/-- No type code of a memory instruction is that of bool. -/
theorem gMTy_lt (w : Nat) : gMTy w < 8 := by unfold gMTy fld; exact Nat.mod_lt _ (by decide)

/-- An instruction goes on after a check that passes. -/
theorem ok_bind {α β : Type} (a : α) (f : α → G β) : ((.ok a : G α) >>= f) = f a := rfl

end Sys2Proof.Machine
end

