-- ==== Sys2Proof/Tests/Slice0.lean ====
section
/-! SUPPORT. Tests of the model: the commands that are not well formed, the worked examples of the spec, and for every statement
that has hypotheses (for every clause of it) a concrete state and operands that meet all of them. -/

namespace Sys2Proof.Tests

open Sys2Proof.Machine

set_option maxRecDepth 4000
set_option Elab.async false

/-! ### Testers -/

/-- A Secure master. -/
def secureTester : Attr := { secure := true, mid := 8, vmid := 0 }
/-- A module whose slot 0 is in FREERUN with an enabled CUE and one Secure entry, index 7 of the active half. -/
def cueTester (act arg : Nat) : Hw :=
  { ((({} : Hw).wr (CTRL pgCUE) 1).put (TCU_QUAL 0) 2 0 4) with
    cue := { half0 := [(7, BitVec.ofNat 128 (2 ^ 127 + 2 ^ 123 + act * 2 ^ 115 + arg))] } }
/-- A module in which engine 1 runs task 5, whose code is the word `w`; `m` the bytes after it. -/
def runTester (w : Nat) (r : Run := { engine := 1 }) (m : List Byte := []) : Hw :=
  { ((({} : Hw).wr (CEA_TASK 5 2) (4 * 2 ^ 18)).put (CEA_TASK 5 1) 23 0 0) with
    cea := { runs := [(5, r)], cads := [(0, { img := Mem.write [] 0 [1, 0, 0, 0], imgLen := 64 })],
             prog := (((Mem.write [] 0x08 (leBytes 4 1)).write 0x10 (leBytes 4 64)).write 0x40 (leBytes 4 w)).write 0x44 m } }
/-- A module whose memory holds the saved block of a port at the address of `VPT_BLK`. -/
def restoreTester : Hw :=
  { ({} : Hw).wr VPT_BLK_HI 8 with mem := { t1 := Mem.write [] 0 ((({} : Hw).setVp 3 { state := 2 }).vpBlock 3) } }
/-- A module with its root and its TRNG, whose slot 4 holds a key of 16 zeros with the attributes `w0`; `b` at the address
of `KEY_ADDR`, which `KEY_LEN` counts (16 for no bytes). -/
def keyTester (w0 : Nat) (b : List Byte) : Hw :=
  { (((({} : Hw).wr (STATUS pgKEY) 3).wr (KEY_ATTR_W0 4) w0).wr KEY_ADDR_HI 8).wr KEY_ADDR2_HI 8 |>.wr KEY_LEN (if b.isEmpty then 16 else b.length) with
    key := { keys := [(4, List.replicate 16 0)] }
    mem := { t1 := Mem.write [] 0 b } }
/-- A module with its TRNG, whose slot 4 holds a key of `n` zeros with the attributes `w0`, and whose crypto queue 2 holds one
job: word 0 of its descriptor is `op`, `len` its length; `m` its auxiliary bytes. -/
def jobTester (w0 n op len : Nat) (m : List Byte) : Hw :=
  { ((({} : Hw).wr (STATUS pgKEY) 3).wr (KEY_ATTR_W0 4) w0) with
    key := { keys := [(4, List.replicate n 0)] }
    cry := { queues := [(2, [{ addr := 0x08_0000_0000, secure := true, mid := 8, vmid := 0 }])] }
    mem := { t1 := (Mem.write [] 0 ([op, 0, 0x100, 8, 0x200, 8, len, 0, 0x300, 8].flatMap (leBytes 4))).write 0x300 m } }
/-- A recovery frame from the host of address 5 to a module of address 0. -/
def recoveryBytes (op : Nat) (data : List Byte) : List Byte :=
  let x := leBytes 2 op ++ leBytes 2 7 ++ leBytes 4 0 ++ leBytes 2 data.length ++ leBytes 2 0 ++ data
  beBytes 6 0 ++ beBytes 6 5 ++ beBytes 2 0x88B5 ++ x ++ leBytes 4 (crc32 x)
/-- A module with the header of a main image at the start of T1, named as the source of an update. -/
def updateTester : Hw :=
  { ((({ regs := [(BOOT_ARB, 0)] } : Hw).wr BOOT_UPD_SRC_HI 8).wr BOOT_UPD_SRC_LO 0).wr BOOT_UPD_LEN 512 with
    mem := { t1 := Mem.write [] 0 (leBytes 4 0x474D_495A ++ leBytes 4 0x0100_0001 ++ leBytes 4 255 ++ leBytes 4 512) } }
/-- Erased flash holds no image: its first word is not the magic number. -/
theorem erased_is_no_image (h : Hw) (o m k room : Nat) (e : h.mem.flash = []) (l : 4 ≤ m) :
    h.imageReason (h.flashRead o m) k room ≠ none := by
  obtain ⟨n, rfl⟩ := Nat.exists_eq_add_of_le' l
  have f : ∀ x, h.flashByte x = 0xFF := by intro x; simp [Hw.flashByte, e, lookup, erasedByte]
  have r : h.flashRead o (n + 4) = 0xFF :: 0xFF :: 0xFF :: 0xFF :: List.replicate n 0xFF := by
    have : h.flashRead o (n + 4) = List.replicate (n + 4) 0xFF := by simp [Hw.flashRead, f, List.map_const']
    rw [this]; rfl
  have w : imgWord (h.flashRead o (n + 4)) 0 ≠ 0x474D_495A := by
    rw [r]; simp [imgWord, slice, leNat]
  simp [Hw.imageReason, Hw.imageFails, w]
/-- With erased flash the loader check finds no sound copy. -/
theorem erased_has_no_loader (h : Hw) (a b m : Nat) (e : h.mem.flash = []) (l : 4 ≤ m) :
    ([a, b].map (fun o => h.flashRead o m)).find? (fun b => h.imageReason b 2 m == none) = none := by
  simp [erased_is_no_image h _ m 2 m e l]

/-! ### Ill-formed commands, which the check refuses -/

theorem test_wf_bus_address : Instr.wellFormed (.registerWrite (2 ^ 40) 4 0 secureTester) = false := by decide
theorem test_wf_bus_width : Instr.wellFormed (.registerWrite 0xF000_0000 3 0 secureTester) = false := by decide
theorem test_wf_read_addresses : Instr.wellFormed (.lowerRegisterRead ⟨2 ^ 40, 4⟩ secureTester) = false ∧
    Instr.wellFormed (.upperRegisterRead ⟨2 ^ 40, 4⟩ secureTester) = false := by decide
theorem test_wf_ratios : Instr.wellFormed (.sourceQualified 0 ⟨5, 0⟩ 0 ⟨100000, []⟩) = false ∧
    Instr.wellFormed (.sourceQualified 0 ⟨5, 1⟩ 0 ⟨0, []⟩) = false ∧ Instr.wellFormed (.correctionMeasured 0 (.source ⟨5, 0⟩ 0) 1) = false ∧
    Instr.wellFormed (.correctionMeasured 0 (.edge true) 0) = false ∧ Instr.wellFormed (.syncInterval 0 ⟨5, 0⟩) = false := by decide
theorem test_wf_placement_names_a_task_once : Instr.wellFormed (.placement [(3, 1), (3, 2)]) = false := by decide
theorem test_wf_can_frames : Instr.wellFormed (.canFrameEnd 5 { id := 0, dlc := 9, data := List.replicate 9 0 }) = false ∧
    Instr.wellFormed (.canFrameEnd 5 { id := 0, rtr := true, dlc := 1, data := [0] }) = false ∧
    Instr.wellFormed (.canFrameEnd 5 { id := 0, fmt := 1, dlc := 9, data := List.replicate 9 0 }) = false ∧
    Instr.wellFormed (.canFrameEnd 5 { id := 0, fmt := 2, dlc := 0, data := [] }) = false ∧
    Instr.wellFormed (.selectiveWakeFrame 5 (some { id := 0, dlc := 1, data := [] })) = false := by decide
theorem test_wf_lin_response : Instr.wellFormed (.linResponseEnd 2 { bytes := List.replicate 10 0 }) = false := by decide
theorem test_wf_outbound : Instr.wellFormed (.outboundAccess 60 8 none false 1 secureTester) = false ∧
    Instr.wellFormed (.outboundAccess 0 4 (some [1]) false 1 secureTester) = false ∧
    Instr.wellFormed (.outboundAccess 0 0 none false 1 secureTester) = false := by decide
theorem test_wf_span_requests : Instr.wellFormed (.inboundRequest (.read 0 0 0) 0 1 1) = false ∧
    Instr.wellFormed (.inboundRequest (.write 0 0 (List.replicate 257 0)) 0 1 1) = false ∧
    Instr.wellFormed (.inboundRequest (.vfRead 1 2) 0 1 1) = false ∧
    Instr.wellFormed (.inboundRequest (.vfWrite 1 2 0 []) 0 1 1) = false ∧
    Instr.wellFormed (.inboundRequest (.vfWrite 1 4 0 [(2 ^ 58, 0)]) 0 1 1) = false := by decide
theorem test_wf_completion : Instr.wellFormed (.completionRx 1 (.success (List.replicate 65 0)) false) = false := by decide
theorem test_wf_epoch : Instr.wellFormed (.epochEnd [(1, 2), (1, 3)] [] 0) = false ∧
    Instr.wellFormed (.epochEnd [] [(1, 2), (1, 3)] 0) = false := by decide
theorem test_wf_bursts : Instr.wellFormed (.burstGrant 0 (List.replicate 6 {}) {}) = false ∧
    Instr.wellFormed (.burstGrant 0 [{ data := List.replicate 65 0 }] {}) = false ∧
    Instr.wellFormed (.descriptorDone 0 1 { data := List.replicate 65 0 }) = false := by decide
theorem test_wf_far_memory : Instr.wellFormed (.rxDoorbell 1 0 [(2 ^ 58, 0)] secureTester) = false ∧
    Instr.wellFormed (.vpFrameGathered 1 [(2 ^ 58, 0)]) = false ∧ Instr.wellFormed (.vpDeliver 0 [] [(2 ^ 58, 0)]) = false ∧
    Instr.wellFormed (.portRemoved 1 [(2 ^ 58, 0)]) = false ∧ Instr.wellFormed (.freeze 0 false [(2 ^ 58, 0)] secureTester) = false ∧
    Instr.wellFormed (.thaw 0 [(2 ^ 58, 0)] secureTester) = false ∧ Instr.wellFormed (.txBucketHoldsLength 1 [(2 ^ 58, 0)]) = false := by
  decide
theorem test_wf_hold_timeout : Instr.wellFormed (.holdTimeout false 24) = false := by decide
theorem test_wf_dirty_lines : Instr.wellFormed (.mworldWrite 3 0 true [(32, List.replicate 64 0)]) = false ∧
    Instr.wellFormed (.mworldWrite 3 0 true [(64, List.replicate 63 0)]) = false := by decide
theorem test_wf_startup_results : Instr.wellFormed (.startupTest true []) = false := by decide
theorem test_wf_adc_samples : Instr.wellFormed (.burstComplete 0 (List.replicate 49 0) 0) = false := by decide
theorem test_wf_accepts : Instr.wellFormed (.registerWrite 0xF000_0000 4 0 secureTester) = true ∧
    Instr.wellFormed (.canFrameEnd 5 { id := 0, fmt := 1, dlc := 9, data := List.replicate 12 0 }) = true ∧
    Instr.wellFormed (.placement [(3, 1), (4, 1)]) = true := by decide

/-! ### Worked examples of the spec -/

-- R18, the example of 00_scope.md: the enable register of CAN5 is at 0x00_F075_0024.
theorem test_address_of_can5_evt_en : busAddr (EVT_EN (pgCAN 5)) = 0xF075_0024 := by decide
/-- The entry whose words W3 to W0 these are. -/
def sheetEntry (w3 w2 w1 w0 : Nat) : CueWord := BitVec.ofNat 128 (w0 + 2 ^ 32 * w1 + 2 ^ 64 * w2 + 2 ^ 96 * w3)
/-- The sheet of Table 01.9. -/
def exampleSheet : List (Nat × CueWord) :=
  [(0, sheetEntry 0x8008_000A 0 0 0), (1, sheetEntry 0xC010_000A 0 8 0), (2, sheetEntry 0x8080_0005 0 0 0x0004_0080),
   (3, sheetEntry 0x8080_0005 0x4000_0000 0 0x0004_007F), (4, sheetEntry 0x8100_0064 0 3 0x211)]
-- Table 01.9: actions, starts and phases of the entries.
theorem test_example_sheet : exampleSheet.map (fun e => cueAction e.2) = [1, 2, 0x10, 0x10, 0x20] ∧
    exampleSheet.map (fun e => cueFld e.2 114 96) = [10, 10, 5, 5, 100] ∧
    exampleSheet.map (fun e => cueFirst e.2) = [0, 8 * 2 ^ 24, 0, 0x40_0000, 3 * 2 ^ 24] ∧
    exampleSheet.all (fun e => entryOk e.2) = true := by decide +kernel
/-- TC0 of the example at tick 1,234,560, LOCKED to NET, with the sheet of Table 01.9 in force. -/
def exampleSlot : Hw :=
  { (((({} : Hw).wr (CTRL pgCUE) 1).put (TCU_QUAL 0) 2 0 2).wr (TCU_SRC 0) 0x8100_0000) with
    cue := { half0 := exampleSheet }
    tcu0 := { val := 1_234_560 * 2 ^ 24 + 1, hasVal := true, run := true, tickNs := 100_000 } }
-- Table 01.10: 32.5 ticks are more than 1 ms, so a step from the next boundary, 1,234,561, is due.
theorem test_large_correction_plans_a_step :
    ((effect (.correctionMeasured 0 (.source ⟨(2 * 1_234_560 + 65) * 2 ^ 23 + 1, 1⟩ 0) 100_000) exampleSlot).slot 0).step =
      some (1_234_561 * 2 ^ 24, 65 * 2 ^ 23) := by decide +kernel
-- Table 01.10: the value after the step, STEP_CNT, and 17 instants skipped.
theorem test_step_of_the_example :
    let h := effect (.timecodeStep 0) { exampleSlot with tcu0 := { exampleSlot.tcu0 with val := 1_234_561 * 2 ^ 24, step := some (1_234_561 * 2 ^ 24, 65 * 2 ^ 23) } }
    h.slotVal 0 = 0x12_D6A1 * 2 ^ 24 + 0x80_0000 ∧ h.get (TCU_QUAL 0) 31 24 = 1 ∧ h.rd CUE_SKIP_CNT = 17 := by decide +kernel
/-- Task T8 of Table 03.15 in the primary run, with the registers of Table 03.16. -/
def t8 (w : Nat) : Hw :=
  runTester w { engine := 1, g := [(1, 20000), (2, 40), (3, 800_000), (4, BitVec.ofInt 33 (-2_147_000_000)),
    (5, BitVec.ofInt 33 (-2_147_483_648))] }
/-- The run of task T8 after the instruction `c`. -/
def t8After (c : Instr) (w : Nat) : Option Run := find? (effect c (t8 w)).cea.runs 5
-- Table 03.16, words 1, 2, 4 and 6.
theorem test_li : (t8After (.li 1 .clean) 0x4044_0028).map (fun r => (r.pc, find? r.g 2)) = some (1, some 40) := by decide +kernel
theorem test_mul : (t8After (.alu 1 .clean) 0x0461_1103).map (fun r => find? r.g 3) = some (some 800_000) := by decide +kernel
theorem test_subs_saturates :
    (t8After (.alu 1 .clean) 0x04A4_190E).map (fun r => find? r.g 5) = some (some (BitVec.ofInt 33 (-2_147_483_648))) := by
  decide +kernel
theorem test_cmp_gt : (t8After (.cmp 1 .clean) 0x0C25_3104).map (fun r => r.b) = some 0 := by decide +kernel
-- Table 04.5: the cycles of the four entries, 192 with the 120 of R172.
theorem test_migration_cycles :
    let l : List MigEnt := [⟨1, 7, 7, 32, 0, 0x1_0040, 0x1_4080, 0x101⟩, ⟨2, 1, 2, 8, 0, 0x1_00C0, 0x1_4100, 0x102⟩,
      ⟨3, 9, 9, 4, 1, 0x1_0200, 0x1_4200, 0x103⟩, ⟨4, 4, 4, 1, 0, 0, 0x1_4300, 0x104⟩]
    l.map MigEnt.cycles = [24, 24, 16, 8] := by decide +kernel
theorem test_migration_entry_is_read :
    let h : Hw := { ((({} : Hw).wr FRC_CHG_MIG 0xF_0000).wr FRC_CHG_MIG_CNT 1) with
      cea := { pool := Mem.write [] 0xF_0000 (wordBytes [0x3990_0004, 0x0801_0200, 0x1_4200, 0x103]) } }
    h.migList = [⟨3, 9, 9, 4, 1, 0x1_0200, 0x1_4200, 0x103⟩] := by decide +kernel
-- 06_power_stage_autonomy.md, "A reset with the low beams lit": policy code 2 for channel 30 alone; the first heartbeat.
theorem test_policy_of_channel_30 :
    let h := effect (.registerWrite (busAddr (PSS_POLICY 1)) 4 0x2000_0000 secureTester) {}
    h.policy 30 = 2 ∧ h.policy 16 = 0 ∧ h.policy 29 = 0 ∧ h.policy 31 = 0 := by decide +kernel
theorem test_heartbeat_of_the_example :
    (effect (.pssHb 0xEDCB_1234 secureTester) { (({} : Hw).put PSS_HB_NEXT 15 0 0x1234) with stage := { running := true } }).rd PSS_HB_NEXT =
      0x1235 := by decide +kernel
-- Table 16.10: the results for "123456789" and for length 0.
theorem test_check_values :
    ([0, 1, 2, 3, 4, 5].map fun n => [0x31, 0x32, 0x33, 0x34, 0x35, 0x36, 0x37, 0x38, 0x39].foldl
      (crcByte (crcAlg n) (crcAlg n).ref) (crcAlg n).init ^^^ (crcAlg n).xor) =
      [0x4B, 0xDF, 0x29B1, 0xCBF4_3926, 0x1697_D06A, 0x6C40_DF5F_0B49_7347] := by decide +kernel
theorem test_check_values_of_nothing : ([0, 1, 2, 3, 4, 5].map fun n => (crcAlg n).init ^^^ (crcAlg n).xor) = [0, 0, 0xFFFF, 0, 0, 0] := by
  decide
-- No row of the table has bits, so no word spells a command.
theorem test_no_word_is_a_command : decodeTableWord 0 0 = none ∧ decodeTableWord 32 0xFFFF_FFFF = none := by decide

/-! ### States that meet the hypotheses of the statements -/

theorem witness_PageHeaderCommandsComplete_1 :
    (∃ (s : State) (h : Hw) (k : Nat) (r : PageRow) (v : Word) (a : Attr),
    s.hw.takes (k) a = true ∧ h = s.hw.answer 0 ∧ pageRow (k / 0x10000) = some r ∧ (r.blk = .hlt ∨ r.blk = .ce) ∧ k < 0x400_0000 ∧ k % 4 = 0 ∧ 0x100 ≤ k % 0x10000) ∧
    (∃ (s : State) (h g : Hw) (a : Attr) (k x y : Nat), s.hw.opens k a = true ∧ h = s.hw.answer 0 ∧ k < 0x400_0000 ∧ k % 4 = 0 ∧ isLower k = true ∧ h.readValue k a = (x, g) ∧ g.readValue (k + 4) a = (y, g)) ∧
    (∃ (s : State) (h : Hw) (a : Attr) (k : Nat) (u : Word), s.hw.opens k a = true ∧ h = s.hw.answer 0 ∧ k < 0x400_0000 ∧ k % 4 = 0 ∧ isLower k = false ∧ isLower (k - 4) = true ∧ find? h.shadow k = some u) ∧
    (∃ (s : State) (h : Hw) (page : Fin 1024) (g : Fin 3) (v again : Word) (a : Attr),
    s.hw.takes (evRaw page g + 8) a = true ∧ h = s.hw.answer 0 ∧ groupExists page g = true) ∧
    (∃ (s : State) (h : Hw) (page : Fin 1024) (g : Fin 3) (v : Word) (a : Attr),
    s.hw.takes (evRaw page g + 12) a = true ∧ h = s.hw.answer 0 ∧ groupExists page g = true ∧ (h.lcs = 0 ∨ h.lcs = 1 ∨ h.lcs = 3)) ∧
    (∃ (s : State) (h : Hw) (page : Fin 1024) (v : Word) (a : Attr),
    s.hw.takes (ERR_CAP0 page) a = true ∧ h = s.hw.answer 0 ∧ fld v.toNat 31 31 = 1) :=
  ⟨⟨State.reset, _, HLT_DSEQ - HLT_DSEQ % 0x10000 + 0x120, ⟨0x005, 1, .hlt, 0x0006, 1856, 0, 5⟩, 5, secureTester, by decide +kernel, rfl, by decide +kernel, .inl rfl, by decide +kernel⟩,
   ⟨State.reset, _, _, secureTester, SWC_CNT_LO, 0, 0, by decide +kernel, rfl, by decide +kernel, by decide +kernel, by decide +kernel, rfl, by decide +kernel⟩,
   ⟨⟨{ shadow := [(SWC_CNT_HI, 7)] }, []⟩, _, secureTester, SWC_CNT_HI, 7, by decide +kernel, rfl, by decide +kernel, by decide +kernel, by decide +kernel, by decide +kernel, rfl⟩,
   ⟨State.reset, _, 0x011, 0, 3, 0, secureTester, by decide +kernel, rfl, by decide +kernel⟩,
   ⟨⟨({} : Hw).wr KEY_LCS 1, []⟩, _, 0x011, 0, 3, secureTester, by decide +kernel, rfl, by decide +kernel, .inr (.inl (by decide +kernel))⟩,
   ⟨State.reset, _, 0x011, 0x8000_0000, secureTester, by decide +kernel, rfl, by decide +kernel⟩⟩

theorem witness_PageHeaderCommandsComplete_2 :
    (∃ (s : State) (h : Hw) (page : Fin 1024) (v : Word) (a : Attr),
    s.hw.takes (LOCK page) a = true ∧ h = s.hw.answer 0 ∧ page.val ≠ pgWGT) ∧
    (∃ (s : State) (h : Hw) (page : Fin 1024) (v : Word) (a : Attr), s.hw.opens (WORLD page) a = true ∧ h = s.hw.answer 0 ∧ a.secure = true ∧ h.bit (LOCK page) 0 = false ∧ page.val ≠ pgWGT) :=
  ⟨⟨State.reset, _, 0x011, 3, secureTester, by decide +kernel, rfl, by decide +kernel⟩,
   ⟨State.reset, _, 0x011, 0, secureTester, by decide +kernel, rfl, rfl, by decide +kernel⟩⟩

theorem witness_TimecodeCommandsComplete_1 :
    (∃ (s : State) (h : Hw) (v : Word) (a : Attr),
    s.hw.takes (TCU_BASE_TICK) a = true ∧ h = s.hw.answer 0 ∧ h.netOrLocEnabled = false ∧ 25_000 ≤ v.toNat ∧ v.toNat ≤ 10_000_000) ∧
    (∃ (s : State) (h : Hw) (n : Fin 4) (v : Word) (a : Attr),
    s.hw.takes (TCU_SRC n) a = true ∧ h = s.hw.answer 0 ∧ fld v.toNat 2 0 < 5 ∧ h.tcuSource n ≠ 1 ∧ h.tcuSource n ≠ 4) ∧
    (∃ (s : State) (h : Hw) (n : Fin 4) (src : Ratio) (rate : Int) (tickNs : Nat) (seen : List Nat) (k : Hw) (g : Hw) (x : Nat),
    h = s.hw ∧ k = ((h.rebase n).wr (TCU_RATE n) (unsgn 32 rate)).setSlot n { ((h.rebase n).wr (TCU_RATE n) (unsgn 32 rate)).slot n with tickNs := tickNs, run := true } ∧ (g = if k.tcuSource n = 2 then k.setSlot n { k.slot n with pos := (k.slot n).val, edgeNs := 0 } else k) ∧ x = unitsOf ((h.rebase n).sourceValue n src) ∧ h.live pgTCU = true ∧ h.tcuState n = 1 ∧ h.sourceGood n seen = true ∧ (g.slot n).hasVal = false) ∧
    (∃ (s : State) (h : Hw) (n : Fin 4) (fault : Bool) (g : Hw),
    h = s.hw ∧ g = h.raiseIf (fault && h.tcuSource n != 1) pgTCU (6 * n + 5) ∧ h.sourceGone n = true ∧ h.tcuState n ≠ 0 ∧ g.tcuState n = 2) ∧
    (∃ (s : State) (h : Hw) (n : Fin 4),
    h = s.hw ∧ h.tcuState n = 3 ∧ (h.slot n).limAt + h.rd (TCU_HOLD_LIMIT n) * 1_200_000 ≤ h.now) ∧
    (∃ (s : State) (h : Hw) (n : Fin 4),
    h = s.hw ∧ h.onShaft n = true ∧ (h.slot n).edgeAt + h.get (TCU_SRCCFG n) 23 16 * 1_200_000 ≤ h.now) :=
  ⟨⟨State.reset, _, 100_000, secureTester, by decide +kernel, rfl, by decide +kernel⟩,
   ⟨State.reset, _, 1, 0x8000_0001, secureTester, by decide +kernel, rfl, by decide +kernel⟩,
   ⟨⟨(({} : Hw).put (TCU_SRC 1) 2 0 3).put (TCU_QUAL 1) 2 0 1, []⟩, _, 1, ⟨5, 1⟩, 0, 100_000, [0, 0, 0, 0], _, _, _, rfl, rfl, rfl, rfl, by decide +kernel⟩,
   ⟨⟨(({} : Hw).put (TCU_SRC 1) 2 0 3).put (TCU_QUAL 1) 2 0 2, []⟩, _, 1, true, _, rfl, rfl, by decide +kernel⟩,
   ⟨⟨{ ({} : Hw).put (TCU_QUAL 1) 2 0 3 with now := 2 ^ 60 }, []⟩, _, 1, rfl, by decide +kernel⟩,
   ⟨⟨{ (({} : Hw).put (TCU_QUAL 1) 2 0 2).put (TCU_SRC 1) 2 0 2 with now := 2 ^ 60 }, []⟩, _, 1, rfl, by decide +kernel⟩⟩

theorem witness_TimecodeCommandsComplete_2 :
    (∃ (s : State) (h : Hw) (n : Fin 4) (src : Ratio) (rate : Int) (tickNs : Nat) (k : Hw) (g : Hw) (x : Ratio),
    h = s.hw ∧ k = (h.rebase n).wr (TCU_RATE n) (unsgn 32 rate) ∧ g = (k.setSlot n { k.slot n with tickNs := tickNs, run := true }).putBit (TCU_QUAL n) 4 false ∧ x = (h.rebase n).sourceValue n src ∧ h.live pgTCU = true ∧ h.tcuState n = 2 ∧ (h.tcuSource n ≠ 1 ∨ h.ptpReports (h.slotPtp n) = true)) ∧
    (∃ (s : State) (h : Hw) (n : Fin 4) (fwd : Bool) (gapNs : Nat) (g : Hw) (k : Nat),
    h = s.hw ∧ g = h.rebase n ∧ k = edgeNo (g.angLines n) (g.slot n).pos ∧ h.live pgTCU = true ∧ h.onShaft n = true) ∧
    (∃ (s : State) (h : Hw) (n : Fin 4),
    h = s.hw ∧ h.bit (TCU_QUAL n) 3 = true ∧ h.slotCorr n = 0) ∧
    (∃ (s : State) (h : Hw) (n : Fin 4) (b : Nat) (d : Int),
    h = s.hw ∧ (h.slot n).step = some (b, d) ∧ b ≤ h.slotVal n) ∧
    (∃ (s : State) (h : Hw) (x : Nat) (c : CueRef) (v : Nat),
    s.hw.cueActs c 0x48 v = true ∧ h = s.hw.cueFired c.idx ∧ (x = if fld (cueArg (h.cueOf c)) 1 0 = cueTc (h.cueOf c) then v else h.slotVal (fld (cueArg (h.cueOf c)) 1 0))) :=
  ⟨⟨⟨(({} : Hw).put (TCU_SRC 1) 2 0 3).put (TCU_QUAL 1) 2 0 2, []⟩, _, 1, ⟨5, 1⟩, 0, 100_000, _, _, _, rfl, rfl, rfl, rfl, by decide +kernel⟩,
   ⟨⟨(({} : Hw).put (TCU_QUAL 1) 2 0 2).put (TCU_SRC 1) 2 0 2, []⟩, _, 1, true, 1000, _, _, rfl, rfl, rfl, by decide +kernel⟩,
   ⟨⟨({} : Hw).putBit (TCU_QUAL 1) 3 true, []⟩, _, 1, rfl, by decide +kernel⟩,
   ⟨⟨{ tcu1 := { step := some (0, 5) } }, []⟩, _, 1, 0, 5, rfl, rfl, by decide +kernel⟩,
   ⟨⟨cueTester 0x48 0x10, []⟩, _, _, ⟨7⟩, 0, by decide +kernel, rfl, rfl⟩⟩

theorem witness_CueSheetCommandsComplete_1 :
    (∃ (s : State) (a : Attr), s.hw.takes CUE_IDX a = true) ∧
    (∃ (s : State) (h g : Hw) (v : Word) (a : Attr) (e : CueWord), s.hw.takes CUE_W3 a = true ∧ h = s.hw.answer 0 ∧ h.swapOrCopy = false ∧ g = h.wr CUE_W3 v.toNat ∧ e = BitVec.ofNat 128 (g.rd CUE_W0 + 2 ^ 32 * g.rd CUE_W1 + 2 ^ 64 * g.rd CUE_W2 + 2 ^ 96 * g.rd CUE_W3) ∧ entryOk e = true ∧ (cueFld e 123 123 = 1 → a.secure = true)) ∧
    (∃ (s : State) (h g : Hw) (v : Word) (a : Attr) (b : Nat), s.hw.takes CUE_SWAP a = true ∧ h = s.hw.answer 0 ∧ h.swapOrCopy = false ∧ fld v.toNat 31 31 = 1 ∧ g = ((h.put CUE_SWAP 29 28 (fld v.toNat 29 28)).put CUE_SWAP 7 0 (fld v.toNat 7 0)).putBit CUE_SWAP 31 true ∧ b = (2 ^ 32 * g.get CUE_SWAP 7 0 + g.rd CUE_SWAP_AT_LO) * tickUnit ∧ g.slotVal (g.get CUE_SWAP 29 28) ≤ b) ∧
    (∃ (s : State) (h : Hw) (n b : Nat),
    h = s.hw ∧ h.cue.swap = some (n, b) ∧ b ≤ h.slotVal n) ∧
    (∃ (s : State) (h : Hw) (v : Word) (a : Attr),
    s.hw.takes (CUE_COPY) a = true ∧ h = s.hw.answer 0 ∧ h.swapOrCopy = false ∧ fld v.toNat 0 0 = 1) ∧
    (∃ (s : State) (h : Hw),
    h = s.hw ∧ h.cue.copying = true ∧ h.cue.copyAt + 4096 ≤ h.now) :=
  ⟨⟨State.reset, secureTester, by decide +kernel⟩,
   ⟨State.reset, _, _, 0x8000_0000, secureTester, _, by decide +kernel, rfl, by decide +kernel, rfl, rfl, by decide +kernel, fun _ => rfl⟩,
   ⟨State.reset, _, _, 0x8000_0000, secureTester, _, by decide +kernel, rfl, by decide +kernel, by decide +kernel, rfl, rfl, by decide +kernel⟩,
   ⟨⟨{ cue := { swap := some (0, 0) } }, []⟩, _, 0, 0, rfl, rfl, by decide +kernel⟩,
   ⟨State.reset, _, 1, secureTester, by decide +kernel, rfl, by decide +kernel⟩,
   ⟨⟨{ cue := { copying := true }, now := 4096 }, []⟩, _, rfl, by decide +kernel⟩⟩

theorem witness_CueSheetCommandsComplete_2 :
    (∃ (s : State) (h : Hw) (v : Word) (a : Attr),
    s.hw.takes (CUE_CNT_CLR) a = true ∧ h = s.hw.answer 0 ∧ fld v.toNat 0 0 = 1 ∧ fld v.toNat 1 1 = 1 ∧ fld v.toNat 2 2 = 1) ∧
    (∃ (s : State) (h : Hw) (c : CueRef) (v : Nat),
    s.hw.cueActs c 0x00 v = true ∧ h = s.hw.cueFired c.idx) ∧
    (∃ (s : State) (h : Hw) (c : CueRef) (v : Nat),
    s.hw.cueActs c 0x40 v = true ∧ h = s.hw.cueFired c.idx ∧ (lineSource (fld (cueArg (h.cueOf c)) 10 0)).isSome = true) ∧
    (∃ (s : State) (h : Hw) (c : CueRef) (v : Nat),
    s.hw.cueActs c 0x50 v = true ∧ h = s.hw.cueFired c.idx ∧ h.swapOrCopy = false) :=
  ⟨⟨State.reset, _, 7, secureTester, by decide +kernel, rfl, by decide +kernel⟩,
   ⟨⟨cueTester 0x00 0, []⟩, _, ⟨7⟩, 0, by decide +kernel, rfl⟩,
   ⟨⟨cueTester 0x40 128, []⟩, _, ⟨7⟩, 0, by decide +kernel, rfl, by decide +kernel⟩,
   ⟨⟨cueTester 0x50 0, []⟩, _, ⟨7⟩, 0, by decide +kernel, rfl, by decide +kernel⟩⟩

theorem witness_ArrayCommandsComplete_1 :
    (∃ (s : State) (h : Hw) (k : Nat) (c : CueRef) (v : Nat),
    s.hw.cueActs c 0x01 v = true ∧ h = s.hw.cueFired c.idx ∧ k = fld (cueArg (h.cueOf c)) 5 0 ∧ h.ceaOn = true ∧ h.cadEn k = true ∧ h.cadLatchIdx k = c.idx ∧ (h.cad k).suspended = false ∧ h.twinWaits k = false) ∧
    (∃ (s : State) (h : Hw) (k : Nat) (c : CueRef) (v : Nat),
    s.hw.cueActs c 0x02 v = true ∧ h = s.hw.cueFired c.idx ∧ k = fld (cueArg (h.cueOf c)) 5 0 ∧ h.ceaOn = true ∧ h.cadEn k = true ∧ h.cadCommitIdx k = c.idx ∧ (h.cad k).suspended = false ∧ h.twinWaits k = false) ∧
    (∃ (s : State) (h : Hw) (c : Fin 64),
    h = s.hw ∧ h.live pgCEA = true ∧ (h.cad c).latched = true ∧ (h.cad c).ready = false ∧ h.twinned c = false) ∧
    (∃ (s : State) (h : Hw) (d : Drain) (rest : List Drain) (c : Fin 64),
    h = s.hw ∧ h.cea.drains = d :: rest ∧ d.cad = c.val) ∧
    (∃ (s : State) (h : Hw) (t : Fin 512) (x : Rerun),
    h = s.hw ∧ h.live pgCEA = true ∧ (h.task t).retry = some x ∧ x.started = false ∧ (h.cea.runs.any (fun r => r.2.engine == x.engine && r.2.rerun) = false) ∧ (∀ u < 512, ∀ y, (h.task u).retry = some y → y.engine = x.engine → y.started = false → y.failed = false → h.taskCrit u < h.taskCrit t ∨ h.taskCrit u = h.taskCrit t ∧ t.val ≤ u)) ∧
    (∃ (s : State) (h : Hw) (t : Fin 512) (x : Rerun),
    h = s.hw ∧ (h.task t).retry = some x ∧ h.live pgCEA = true ∧ x.equal = false ∧ h.windowOver t x = true) :=
  ⟨⟨⟨({ cueTester 0x01 0 with regs := (((cueTester 0x01 0).put (CEA_CAD 0 0) 31 0 0x8000_0007).wr (CTRL pgCEA) 1).regs } : Hw), []⟩, _, _, ⟨7⟩, 0, by decide +kernel, rfl, rfl, by decide +kernel⟩,
   ⟨⟨({ cueTester 0x02 0 with regs := (((cueTester 0x02 0).put (CEA_CAD 0 0) 31 0 0x8007_0000).wr (CTRL pgCEA) 1).regs } : Hw), []⟩, _, _, ⟨7⟩, 0, by decide +kernel, rfl, rfl, by decide +kernel⟩,
   ⟨⟨({} : Hw).setCad 3 { latched := true }, []⟩, _, 3, rfl, by decide +kernel⟩,
   ⟨⟨{ cea := { drains := [{ cad := 2, words := [] }] } }, []⟩, _, { cad := 2, words := [] }, [], 2, rfl, rfl, rfl⟩,
   ⟨⟨({} : Hw).setTask 5 { retry := some { engine := 17, suspect := 1 } }, []⟩, _, 5, { engine := 17, suspect := 1 }, rfl, by decide +kernel, by decide +kernel, rfl, by decide +kernel, by
  intro u hu y hy _ _ _
  by_cases q : u = 5
  · subst q; exact .inr ⟨rfl, by decide⟩
  · have e : ((({} : Hw).setTask 5 { retry := some { engine := 17, suspect := 1 } }).task u).retry = none := by
      have ne5 : ¬ (5 = u) := fun z => q z.symm
      simp [Hw.task, Hw.setTask, lookup, store, find?, file, ne5]
    rw [e] at hy
    cases hy⟩,
   ⟨⟨{ ({} : Hw).setTask 5 { retry := some { engine := 17, suspect := 1, opened := true } } with now := 2 ^ 60 }, []⟩, _, 5, { engine := 17, suspect := 1, opened := true }, rfl, by decide +kernel, by decide +kernel, rfl, by decide +kernel⟩⟩

theorem witness_ArrayCommandsComplete_2 :
    (∃ (s : State) (h : Hw) (e : Fin 18) (k : Nat) (g : Hw),
    h = s.hw ∧ (g = if h.engState k = engActive then h else h.engBecomes k engActive 5) ∧ h.live pgCEA = true ∧ h.tickBoundary 0 = true ∧ (h.eng e).suspect = true ∧ h.engBusy e = false ∧ (h.engState e = engActive ∨ h.engState e = engRerun) ∧ h.heirOf (h.eng e) = some k) ∧
    (∃ (s : State) (h : Hw) (e : Fin 18) (g : Hw) (r : Hw) (t : Hw),
    h = s.hw ∧ g = h.wr (CE_SELFTEST e) (2 ^ 31 + 0xC3A5) ∧ (r = if h.hlt.testing = some e.val then { g with hlt := { g.hlt with testing := none } } else g) ∧ (t = if (r.eng e).afterMismatch then { r.sat (CE_TRANSIENT_CNT e) with hlt := { r.hlt with transients := satAdd r.hlt.transients 1 } } else r) ∧ h.live (pgCE e) = true ∧ h.engState e = engSelftest) ∧
    (∃ (s : State) (h : Hw) (p : List (Fin 512 × Fin 18)) (g : Hw) (w : List (Nat × Nat)),
    h = s.hw ∧ g = Hw.keepSixteen 18 h.detachNow.attachNow ∧ (w = p.map (fun x => (x.1.val, x.2.val))) ∧ h.live pgCEA = true ∧ h.tickBoundary 0 = true) ∧
    (∃ (s : State) (h : Hw) (v : Word) (a : Attr),
    s.hw.takes (CEA_REPLACE) a = true ∧ h = s.hw.answer 0 ∧ fld v.toNat 0 0 = 1) ∧
    (∃ (s : State) (h : Hw) (t : Fin 512) (buf : WBuf) (g : Hw) (ws : List (Nat × BitVec 64)),
    h = s.hw ∧ buf = h.drainOf t ∧ (g = buf.foldl (fun (h : Hw) e => h.poolWrite (8 * e.1) (leBytes 8 (mergeEnt (h.poolWord e.1) e.2).toNat)) h) ∧ (ws = buf.map (fun e => (e.1, g.poolWord e.1))) ∧ h.live pgCEA = true ∧ h.tickBoundary 0 = true ∧ h.taskBg t = true ∧ (h.task t).outcome = .equal ∧ (h.task t).doneTick ≠ h.tick32 0) ∧
    (∃ (s : State) (h : Hw) (t : Fin 512),
    h = s.hw ∧ h.live pgCEA = true ∧ h.taskEn t = true ∧ h.taskBg t = true ∧ h.get (CEA_TASK t 3) 13 0 ≠ 0 ∧ (h.task t).ripe ≠ some (h.tick32 0) ∧ h.get (CEA_TASK t 3) 13 0 ≤ (h.tick32 0 + 2 ^ 32 - (h.task t).ranAt) % 2 ^ 32) :=
  ⟨⟨⟨((({} : Hw).setEngState 1 engActive).setEngState 17 engSpare).setEng 1 { suspect := true, heir := some 17 }, []⟩, _, 1, 17, _, rfl, rfl, by decide +kernel, by decide +kernel, by decide +kernel, by decide +kernel, .inl (by decide +kernel), by decide +kernel⟩,
   ⟨⟨({} : Hw).setEngState 1 engSelftest, []⟩, _, 1, _, _, _, rfl, rfl, rfl, rfl, by decide +kernel⟩,
   ⟨State.reset, _, [], _, _, rfl, rfl, rfl, by decide +kernel⟩,
   ⟨State.reset, _, 1, secureTester, by decide +kernel, rfl, by decide +kernel⟩,
   ⟨⟨{ (({} : Hw).put (CEA_TASK 5 0) 30 30 1).setTask 5 { outcome := .equal, doneTick := 1 } with now := 0 }, []⟩, _, 5, _, _, _, rfl, rfl, rfl, rfl, by decide +kernel⟩,
   ⟨⟨{ (({} : Hw).put (CEA_TASK 5 0) 31 30 3).put (CEA_TASK 5 3) 13 0 1 with tcu0 := { val := 9 * tickUnit } }, []⟩, _, 5, rfl, by decide +kernel⟩⟩

theorem witness_ArrayCommandsComplete_3 :
    ∃ (s : State) (h : Hw) (v : Word) (a : Attr),
    s.hw.takes (CEA_TASK_RESTART) a = true ∧ h = s.hw.answer 0 ∧ h.taskState (fld v.toNat 8 0) = 5 :=
  ⟨⟨({} : Hw).put (CEA_TSTAT 5) 31 29 5, []⟩, _, 5, secureTester, by decide +kernel, rfl, by decide +kernel⟩

theorem witness_CadenceAndPduCommandsComplete :
    (∃ (s : State) (h : Hw) (k : Fin 64) (v : Word) (g : Hw) (a : Attr),
    s.hw.takes (CEA_CAD k 0) a = true ∧ h = s.hw.answer 0 ∧ g = h.storeReg (CEA_CAD k 0) v.toNat ∧ h.cadEn k = false ∧ g.cadEn k = true ∧ g.cadRefuses k = none) ∧
    (∃ (h : Hw) (b p : List Byte) (o vid src len u : Nat), h.live pgCEA = true ∧ h.ceaOn = true ∧
      o = (if beNat (slice b 12 2) = 0x8100 then 16 else 12) ∧ beNat (slice b o 2) = h.get CEA_PDU_ETYPE 15 0 ∧
      vid = beNat (slice b 14 2) % 0x1000 ∧ src = beNat (slice b 6 6) ∧ p = b.drop (o + 2) ∧ len = beNat (slice p 6 2) ∧
      12 + len ≤ p.length ∧ leNat (slice p (8 + len) 4) = crc32 (p.take (8 + len)) ∧
      (p.getD 5 0).toNat = 0 ∧ (p.getD 4 0).toNat &&& 0xF9 = 0 ∧ h.pduBad (beNat (slice p 0 2)) len = none ∧
      (List.range 256).find? (fun u => h.pduEn u && !h.pduTx u && decide (h.get (CEA_PDU u 1) 31 16 = beNat (slice p 0 2)) && decide (h.pduLen u = len) &&
            (!h.bit (CEA_PDU u 0) 29 || (decide (beNat (slice b 12 2) = 0x8100) && decide (vid = h.get (CEA_PDU u 0) 11 0))) &&
            (!h.bit (CEA_PDU u 0) 28 || decide (src = h.pduMac u))) = some u) ∧
    (∃ (s : State) (h : Hw) (u : Fin 256) (m : PduMsg) (g : Hw) (r : Hw),
    h = s.hw ∧ g = { h with cea := { h.cea with pduIn := h.cea.pduIn.erase m, pduRam := h.cea.pduRam.write (h.pduBuf u + (1 - (h.pdu u).half) * h.pduHalf u) m.data } } ∧ r = (((g.setPdu u { half := 1 - (h.pdu u).half, fresh := true, flags := m.flags, stored := true }).put (CEA_PDU u 5) 31 16 m.seq).put (CEA_PDU u 5) 15 0 (h.get (CEA_PDU u 5) 15 0 + 1)).wr (CEA_PDU u 6) (h.tick32 0) ∧ (h.cea.pduIn.find? (fun m => m.entry == u.val) = some m)) ∧
    (∃ (s : State) (h : Hw) (m : PduMsg) (rest : List PduMsg) (g : Hw) (body : List Byte) (tag : Option (Nat × Nat)) (f : List Byte),
    h = s.hw ∧ g = { h with cea := { h.cea with pduOut := rest } } ∧ body = beBytes 2 (g.get (CEA_PDU m.entry 1) 31 16) ++ beBytes 2 (g.get (CEA_PDU m.entry 5) 31 16) ++ beBytes 1 m.flags ++ [0] ++ beBytes 2 m.data.length ++ m.data ∧ (tag = if g.bit (CEA_PDU m.entry 0) 29 then some (g.get (CEA_PDU m.entry 0) 26 24, g.get (CEA_PDU m.entry 0) 11 0) else none) ∧ f = padFrame (etherHead (g.pduMac m.entry) (2 ^ 32 * g.get RIO_MAC_HI 15 0 + g.rd RIO_MAC_LO) tag (g.get CEA_PDU_ETYPE 15 0) ++ body ++ leBytes 4 (crc32 body)) ∧ h.cea.pduOut = m :: rest) ∧
    (∃ (s : State) (h : Hw) (u : Fin 256) (w : Fin 8) (v : Word) (g : Hw) (a : Attr),
    s.hw.takes (CEA_PDU u w) a = true ∧ h = s.hw.answer 0 ∧ g = h.storeReg (CEA_PDU u w) v.toNat ∧ (w.val ≤ 4 → h.pduMapped u = false) ∧ g.pduRefuses u w = false) ∧
    (∃ (s : State) (h : Hw) (t : Fin 512) (n : Fin 2) (v : Word) (k : Nat) (g : Hw) (b : Nat) (m : Hw) (x : Hw) (a : Attr),
    s.hw.takes (k) a = true ∧ h = s.hw.answer 0 ∧ (k = if n.val = 0 then PGM_TASK_BANK0 t else PGM_TASK_BANK1 t) ∧ g = h.storeReg k v.toNat ∧ b = g.get k 16 0 * 64 ∧ m = g.putBit (PGM_TASK_SEL t) (8 + n.val) true ∧ x = { m with cea := { m.cea with wcets := file m.cea.wcets (2 * t + n) (g.progWord (b + 0x1C)) } } ∧ (h.get (PGM_TASK_SEL t) 0 0 = n.val → h.taskEn t = false ∧ h.inJob t = false) ∧ b + 0x40 + 4 * g.progWord (b + 0x08) ≤ 0x80_0000 ∧ b + g.progWord (b + 0x14) + g.progWord (b + 0x18) ≤ 0x80_0000 ∧ g.bankHeadOk t b = true ∧ g.bankCrcOk b = true) :=
  ⟨⟨⟨{ (({} : Hw).wr (CEA_CAD 0 1) 1) with cue := { half0 := [(1, BitVec.ofNat 128 (2 ^ 127 + 2 ^ 123 + 0x01 * 2 ^ 115 + 1 * 2 ^ 96)), (2, BitVec.ofNat 128 (2 ^ 127 + 2 ^ 123 + 0x02 * 2 ^ 115 + 1 * 2 ^ 96 + 2 ^ 95))] } }, []⟩, _, 0, 0x8002_0001, _, secureTester, by decide +kernel, rfl, rfl, by decide +kernel⟩,
   ⟨(((({} : Hw).wr (CTRL pgCEA) 1).wr (CEA_PDU 3 0) 0x8000_0000).wr (CEA_PDU 3 1) 0x0007_0001).wr CEA_PDU_ETYPE 0x88B5,
  List.replicate 12 0 ++ [0x88, 0xB5, 0, 7, 0, 1, 0, 0, 0, 1, 0x55] ++ leBytes 4 (crc32 [0, 7, 0, 1, 0, 0, 0, 1, 0x55]), _, _, _, _, 1, 3,
  by decide +kernel, by decide +kernel, rfl, by decide +kernel, rfl, rfl, rfl, by decide +kernel⟩,
   ⟨⟨{ cea := { pduIn := [{ entry := 3, seq := 1, flags := 0, data := [5] }] } }, []⟩, _, 3, { entry := 3, seq := 1, flags := 0, data := [5] }, _, _, rfl, rfl, rfl, rfl⟩,
   ⟨⟨{ cea := { pduOut := [{ entry := 3, seq := 1, flags := 0, data := [5] }] } }, []⟩, _, { entry := 3, seq := 1, flags := 0, data := [5] }, [], _, _, _, _, rfl, rfl, rfl, rfl, rfl, rfl⟩,
   ⟨State.reset, _, 3, 1, 0x0007_0001, _, secureTester, by decide +kernel, rfl, rfl, by decide +kernel⟩,
   ⟨⟨{ cea := { prog := Mem.write [] 0 [0x47, 0x42, 0x4E, 0x4B] } }, []⟩, _, 0, 1, 0, _, _, _, _, _, secureTester, by decide +kernel, rfl, rfl, rfl, rfl, rfl, rfl, by decide +kernel⟩⟩

theorem witness_GorpenInstructionsComplete_1 :
    (∃ (s : State) (h : Hw) (e : Fin 18) (fetch : Ecc) (t : Nat) (r : Run) (w : Nat) (q : Run) (g : Hw),
    h = s.hw ∧ h.executes e t r w = true ∧ gOp w = 0x00 ∧ fetch ≠ .uncorrectable ∧ q = r.counted ∧ g = h.eccSeen fetch .clean t r w ∧ fld w 25 0 = 0) ∧
    (∃ (s : State) (h : Hw) (e : Fin 18) (fetch : Ecc) (t : Nat) (r : Run) (w : Nat) (q : Run) (g : Hw) (v : Int),
    h = s.hw ∧ h.executes e t r w = true ∧ gOp w = 0x01 ∧ fetch ≠ .uncorrectable ∧ q = r.counted ∧ g = h.eccSeen fetch .clean t r w ∧ (aluTypes (gFn w)).contains (gTy w) = true ∧ (gTy w = 7 → gD w % 2 = 0) ∧ (gTy w = 7 → gA w % 2 = 0) ∧ (gTy w = 7 → gFn w ≠ 0 ∧ gFn w ≠ 6 ∧ gFn w ≠ 7 → gB w % 2 = 0) ∧ (aluVal (gFn w) (gTy w) (q.val (gTy w) (gA w)) (if gFn w = 0 ∨ gFn w = 6 ∨ gFn w = 7 then 0 else q.val (gTy w) (gB w)) = .ok v)) ∧
    (∃ (s : State) (h : Hw) (e : Fin 18) (fetch : Ecc) (t : Nat) (r : Run) (w : Nat) (q : Run) (g : Hw) (n : Nat),
    h = s.hw ∧ h.executes e t r w = true ∧ gOp w = 0x02 ∧ fetch ≠ .uncorrectable ∧ q = r.counted ∧ g = h.eccSeen fetch .clean t r w ∧ tyWord (gTy w) = true ∧ gFn w ≤ 0x0A ∧ n = ((q.val 1 (gB w)) % ((tyBits (gTy w) : Nat) : Int)).toNat) ∧
    (∃ (s : State) (h : Hw) (e : Fin 18) (fetch : Ecc) (t : Nat) (r : Run) (w : Nat) (q : Run) (g : Hw),
    h = s.hw ∧ h.executes e t r w = true ∧ gOp w = 0x03 ∧ fetch ≠ .uncorrectable ∧ q = r.counted ∧ g = h.eccSeen fetch .clean t r w ∧ gFn w ≤ 5 ∧ gD w < 16 ∧ (gTy w = 7 → gA w % 2 = 0) ∧ (gTy w = 7 → gB w % 2 = 0)) ∧
    (∃ (s : State) (h : Hw) (e : Fin 18) (fetch : Ecc) (t : Nat) (r : Run) (w : Nat) (q : Run) (g : Hw) (v : Int),
    h = s.hw ∧ h.executes e t r w = true ∧ gOp w = 0x04 ∧ fetch ≠ .uncorrectable ∧ q = r.counted ∧ g = h.eccSeen fetch .clean t r w ∧ gFn w ≤ 7 ∧ (¬ (gTy w = 3 ∧ tyWord (gFn w) = true)) ∧ (¬ (tyWord (gTy w) = true ∧ gFn w = 3)) ∧ (gFn w = 7 → gD w % 2 = 0) ∧ (gTy w = 7 → gA w % 2 = 0) ∧ cvtVal (gTy w) (gFn w) (q.val (gTy w) (gA w)) = .ok v) ∧
    (∃ (s : State) (h : Hw) (e : Fin 18) (fetch : Ecc) (t : Nat) (r : Run) (w : Nat) (q : Run) (g : Hw) (v : Nat),
    h = s.hw ∧ h.executes e t r w = true ∧ gOp w = 0x05 ∧ fetch ≠ .uncorrectable ∧ q = r.counted ∧ g = h.eccSeen fetch .clean t r w ∧ gTy w = 3 ∧ gFn w ≤ 4 ∧ fRnd (gFn w) (q.val 3 (gA w)).toNat = .ok v) :=
  ⟨⟨⟨runTester 0x0, []⟩, _, 1, .clean, 5, { engine := 1 }, 0x0, _, _, rfl, by decide +kernel, by decide +kernel, by decide, rfl, rfl, by decide +kernel⟩,
   ⟨⟨runTester 0x4221901, []⟩, _, 1, .clean, 5, { engine := 1 }, 0x4221901, _, _, 0, rfl, by decide +kernel, by decide +kernel, by decide, rfl, rfl, by decide +kernel⟩,
   ⟨⟨runTester 0x8221c01, []⟩, _, 1, .clean, 5, { engine := 1 }, 0x8221c01, _, _, 0, rfl, by decide +kernel, by decide +kernel, by decide, rfl, rfl, by decide +kernel, by decide +kernel, rfl⟩,
   ⟨⟨runTester 0xc222101, []⟩, _, 1, .clean, 5, { engine := 1 }, 0xc222101, _, _, rfl, by decide +kernel, by decide +kernel, by decide, rfl, rfl, by decide +kernel⟩,
   ⟨⟨runTester 0x10220100, []⟩, _, 1, .clean, 5, { engine := 1 }, 0x10220100, _, _, 0, rfl, by decide +kernel, by decide +kernel, by decide, rfl, rfl, by decide +kernel⟩,
   ⟨⟨runTester 0x14220300, []⟩, _, 1, .clean, 5, { engine := 1 }, 0x14220300, _, _, 0, rfl, by decide +kernel, by decide +kernel, by decide, rfl, rfl, by decide +kernel⟩⟩

theorem witness_GorpenInstructionsComplete_2 :
    (∃ (s : State) (h : Hw) (e : Fin 18) (fetch : Ecc) (t : Nat) (r : Run) (w : Nat) (q : Run) (g : Hw) (x y v : Bool),
    h = s.hw ∧ h.executes e t r w = true ∧ gOp w = 0x06 ∧ fetch ≠ .uncorrectable ∧ q = r.counted ∧ g = h.eccSeen fetch .clean t r w ∧ gFn w ≤ 7 ∧ gD w < 16 ∧ (gFn w ≤ 5 → gA w < 16) ∧ (gFn w ≤ 3 → gB w < 16) ∧ x = q.bool (gA w % 16) ∧ y = q.bool (gB w % 16) ∧ v = [x && y, x || y, x != y, x == y, !x, x, true, false].getD (gFn w) false) ∧
    (∃ (s : State) (h : Hw) (e : Fin 18) (fetch : Ecc) (t : Nat) (r : Run) (w : Nat) (q : Run) (g : Hw),
    h = s.hw ∧ h.executes e t r w = true ∧ gOp w = 0x07 ∧ fetch ≠ .uncorrectable ∧ q = r.counted ∧ g = h.eccSeen fetch .clean t r w ∧ gFn w ≤ 15 ∧ (gTy w = 7 → gD w % 2 = 0) ∧ (gTy w = 7 → gA w % 2 = 0) ∧ (gTy w = 7 → gB w % 2 = 0)) ∧
    (∃ (s : State) (h : Hw) (e : Fin 18) (fetch : Ecc) (t : Nat) (r : Run) (w : Nat) (q : Run) (g : Hw),
    h = s.hw ∧ h.executes e t r w = true ∧ gOp w = 0x08 ∧ fetch ≠ .uncorrectable ∧ q = r.counted ∧ g = h.eccSeen fetch .clean t r w ∧ gD w < 16) ∧
    (∃ (s : State) (h : Hw) (e : Fin 18) (fetch : Ecc) (t : Nat) (r : Run) (w : Nat) (q : Run) (g : Hw),
    h = s.hw ∧ h.executes e t r w = true ∧ gOp w = 0x09 ∧ fetch ≠ .uncorrectable ∧ q = r.counted ∧ g = h.eccSeen fetch .clean t r w ∧ gA w < 16) ∧
    (∃ (s : State) (h : Hw) (e : Fin 18) (fetch : Ecc) (t : Nat) (r : Run) (w : Nat) (q : Run) (g : Hw) (v : Int),
    h = s.hw ∧ h.executes e t r w = true ∧ gOp w = 0x10 ∧ fetch ≠ .uncorrectable ∧ q = r.counted ∧ g = h.eccSeen fetch .clean t r w ∧ fld w 17 16 = 0 ∧ (gMTy w = 7 → gD w % 2 = 0) ∧ (v = if gMTy w = 3 then ((gImm w * 2 ^ 16 : Nat) : Int) else if gMTy w = 0 ∨ gMTy w = 1 ∨ gMTy w = 7 then sgn 16 (gImm w) else (gImm w : Int))) ∧
    (∃ (s : State) (h : Hw) (e : Fin 18) (fetch : Ecc) (t : Nat) (r : Run) (w : Nat) (q : Run) (g : Hw) (x : Run),
    h = s.hw ∧ h.executes e t r w = true ∧ gOp w = 0x11 ∧ fetch ≠ .uncorrectable ∧ q = r.counted ∧ g = h.eccSeen fetch .clean t r w ∧ fld w 17 16 = 2 ∧ (gMTy w = 7 → gD w % 2 = 0) ∧ (x = if gMTy w = 3 then q.setRaw (gD w) (setFld (q.raw (gD w) % 2 ^ 32) 15 0 (gImm w)) else if tyWord (gMTy w) then q.setVal (gMTy w) (gD w) (((q.val (gMTy w) (gD w)).toNat ||| gImm w * 2 ^ 16 : Nat) : Int) else q.setVal (gMTy w) (gD w) (wrapTy (gMTy w) (q.val (gMTy w) (gD w) + ((gImm w * 2 ^ 16 : Nat) : Int))))) :=
  ⟨⟨⟨runTester 0x18221800, []⟩, _, 1, .clean, 5, { engine := 1 }, 0x18221800, _, _, false, false, false, rfl, by decide +kernel, by decide +kernel, by decide, rfl, rfl, by decide +kernel, by decide +kernel, by decide +kernel, by decide +kernel, rfl, rfl, rfl⟩,
   ⟨⟨runTester 0x1c221902, []⟩, _, 1, .clean, 5, { engine := 1 }, 0x1c221902, _, _, rfl, by decide +kernel, by decide +kernel, by decide, rfl, rfl, by decide +kernel⟩,
   ⟨⟨runTester 0x20220000, []⟩, _, 1, .clean, 5, { engine := 1 }, 0x20220000, _, _, rfl, by decide +kernel, by decide +kernel, by decide, rfl, rfl, by decide +kernel⟩,
   ⟨⟨runTester 0x24220000, []⟩, _, 1, .clean, 5, { engine := 1 }, 0x24220000, _, _, rfl, by decide +kernel, by decide +kernel, by decide, rfl, rfl, by decide +kernel⟩,
   ⟨⟨runTester 0x40240005, []⟩, _, 1, .clean, 5, { engine := 1 }, 0x40240005, _, _, 5, rfl, by decide +kernel, by decide +kernel, by decide, rfl, rfl, by decide +kernel, by decide +kernel, rfl⟩,
   ⟨⟨runTester 0x44260005, []⟩, _, 1, .clean, 5, { engine := 1 }, 0x44260005, _, _, _, rfl, by decide +kernel, by decide +kernel, by decide, rfl, rfl, by decide +kernel, by decide +kernel, rfl⟩⟩

theorem witness_GorpenInstructionsComplete_3 :
    (∃ (s : State) (h : Hw) (e : Fin 18) (fetch : Ecc) (t : Nat) (r : Run) (w : Nat) (q : Run) (g : Hw),
    h = s.hw ∧ h.executes e t r w = true ∧ gOp w = 0x12 ∧ fetch ≠ .uncorrectable ∧ q = r.counted ∧ g = h.eccSeen fetch .clean t r w) ∧
    (∃ (s : State) (h : Hw) (e : Fin 18) (fetch load : Ecc) (t : Nat) (r : Run) (w : Nat) (q : Run) (g : Hw) (v : Int) (c : GCtx),
    h = s.hw ∧ h.executes e t r w = true ∧ gOp w = 0x18 ∧ fetch ≠ .uncorrectable ∧ load ≠ .uncorrectable ∧ q = r.counted ∧ g = h.eccSeen fetch load t r w ∧ c = h.gCtx t r ∧ (gMTy w = 7 → gD w % 2 = 0) ∧ g.gLoad c q (gSp w) (gMTy w) ((gImm w : Int) * (tySize (gMTy w) : Int)) = .ok v) ∧
    (∃ (s : State) (h : Hw) (e : Fin 18) (fetch : Ecc) (t : Nat) (r : Run) (w : Nat) (q : Run) (g : Hw) (x : Run) (c : GCtx),
    h = s.hw ∧ h.executes e t r w = true ∧ gOp w = 0x19 ∧ fetch ≠ .uncorrectable ∧ q = r.counted ∧ g = h.eccSeen fetch .clean t r w ∧ c = h.gCtx t r ∧ gSp w = 0 ∧ (gMTy w = 7 → gD w % 2 = 0) ∧ c.store q (gMTy w) ((gImm w : Int) * (tySize (gMTy w) : Int)) (q.val (gMTy w) (gD w)) = .ok x) ∧
    (∃ (s : State) (h : Hw) (e : Fin 18) (fetch load : Ecc) (t : Nat) (r : Run) (w : Nat) (q : Run) (g : Hw) (v : Int) (c : GCtx),
    h = s.hw ∧ h.executes e t r w = true ∧ gOp w = 0x1A ∧ fetch ≠ .uncorrectable ∧ load ≠ .uncorrectable ∧ q = r.counted ∧ g = h.eccSeen fetch load t r w ∧ c = h.gCtx t r ∧ (gMTy w = 7 → gD w % 2 = 0) ∧ g.gLoad c q (gSp w) (gMTy w) (((gXOff w : Int) + q.val 1 (gB w)) * (tySize (gMTy w) : Int)) = .ok v) ∧
    (∃ (s : State) (h : Hw) (e : Fin 18) (fetch : Ecc) (t : Nat) (r : Run) (w : Nat) (q : Run) (g : Hw) (x : Run) (c : GCtx),
    h = s.hw ∧ h.executes e t r w = true ∧ gOp w = 0x1B ∧ fetch ≠ .uncorrectable ∧ q = r.counted ∧ g = h.eccSeen fetch .clean t r w ∧ c = h.gCtx t r ∧ gSp w = 0 ∧ (gMTy w = 7 → gD w % 2 = 0) ∧ c.store q (gMTy w) (((gXOff w : Int) + q.val 1 (gB w)) * (tySize (gMTy w) : Int)) (q.val (gMTy w) (gD w)) = .ok x) ∧
    (∃ (s : State) (h : Hw) (e : Fin 18) (fetch load : Ecc) (t : Nat) (r : Run) (w : Nat) (q : Run) (g : Hw) (v : Int) (c : GCtx),
    h = s.hw ∧ h.executes e t r w = true ∧ gOp w = 0x1C ∧ fetch ≠ .uncorrectable ∧ load ≠ .uncorrectable ∧ q = r.counted ∧ g = h.eccSeen fetch load t r w ∧ c = h.gCtx t r ∧ gMTy w = 0 ∧ gD w < 16 ∧ g.gLoad c q (gSp w) 8 ((gImm w : Int) * (tySize 8 : Int)) = .ok v) :=
  ⟨⟨⟨runTester 0x48210005, []⟩, _, 1, .clean, 5, { engine := 1 }, 0x48210005, _, _, rfl, by decide +kernel, by decide +kernel, by decide, rfl, rfl⟩,
   ⟨⟨runTester 0x60240002, []⟩, _, 1, .clean, .clean, 5, { engine := 1 }, 0x60240002, _, _, 0, _, rfl, by decide +kernel, by decide +kernel, by decide, by decide, rfl, rfl, rfl, by decide +kernel⟩,
   ⟨⟨runTester 0x64240002, []⟩, _, 1, .clean, 5, { engine := 1 }, 0x64240002, _, _, _, _, rfl, by decide +kernel, by decide +kernel, by decide, rfl, rfl, rfl, by decide +kernel, by decide +kernel, rfl⟩,
   ⟨⟨runTester 0x68240002, []⟩, _, 1, .clean, .clean, 5, { engine := 1 }, 0x68240002, _, _, 0, _, rfl, by decide +kernel, by decide +kernel, by decide, by decide, rfl, rfl, rfl, by decide +kernel⟩,
   ⟨⟨runTester 0x6c240002, []⟩, _, 1, .clean, 5, { engine := 1 }, 0x6c240002, _, _, _, _, rfl, by decide +kernel, by decide +kernel, by decide, rfl, rfl, rfl, by decide +kernel, by decide +kernel, rfl⟩,
   ⟨⟨runTester 0x70200002, []⟩, _, 1, .clean, .clean, 5, { engine := 1 }, 0x70200002, _, _, 0, _, rfl, by decide +kernel, by decide +kernel, by decide, by decide, rfl, rfl, rfl, by decide +kernel⟩⟩

theorem witness_GorpenInstructionsComplete_4 :
    (∃ (s : State) (h : Hw) (e : Fin 18) (fetch : Ecc) (t : Nat) (r : Run) (w : Nat) (q : Run) (g : Hw) (x : Run) (c : GCtx),
    h = s.hw ∧ h.executes e t r w = true ∧ gOp w = 0x1D ∧ fetch ≠ .uncorrectable ∧ q = r.counted ∧ g = h.eccSeen fetch .clean t r w ∧ c = h.gCtx t r ∧ gMTy w = 0 ∧ gSp w = 0 ∧ gD w < 16 ∧ (c.store q 8 (gImm w : Int) (if q.bool (gD w) then 1 else 0) = .ok x)) ∧
    (∃ (s : State) (h : Hw) (e : Fin 18) (fetch : Ecc) (t : Nat) (r : Run) (w : Nat) (q : Run) (g : Hw) (c : GCtx),
    h = s.hw ∧ h.executes e t r w = true ∧ gOp w = 0x1E ∧ fetch ≠ .uncorrectable ∧ q = r.counted ∧ g = h.eccSeen fetch .clean t r w ∧ c = h.gCtx t r ∧ gA w = 0 ∧ (fld w 1 0 ≠ 3 → gD w % 2 = 0)) ∧
    (∃ (s : State) (h : Hw) (e : Fin 18) (fetch : Ecc) (t : Nat) (r : Run) (w : Nat) (q : Run) (g : Hw) (b : Bool),
    h = s.hw ∧ h.executes e t r w = true ∧ gOp w = 0x20 ∧ fetch ≠ .uncorrectable ∧ q = r.counted ∧ g = h.eccSeen fetch .clean t r w ∧ (b = decide (gMode w = 0 ∨ gMode w = 1 ∧ q.bool (gC w) = true ∨ gMode w = 2 ∧ q.bool (gC w) = false)) ∧ fld w 19 16 = 0 ∧ gImm w ≠ 0 ∧ gMode w ≠ 3) ∧
    (∃ (s : State) (h : Hw) (e : Fin 18) (fetch : Ecc) (t : Nat) (r : Run) (w : Nat) (q : Run) (g : Hw) (b : Bool) (l : LoopSt) (ls : List LoopSt),
    h = s.hw ∧ h.executes e t r w = true ∧ gOp w = 0x21 ∧ fetch ≠ .uncorrectable ∧ q = r.counted ∧ g = h.eccSeen fetch .clean t r w ∧ (b = decide (gMode w = 0 ∨ gMode w = 1 ∧ q.bool (gC w) = true ∨ gMode w = 2 ∧ q.bool (gC w) = false)) ∧ fld w 19 16 = 0 ∧ gImm w = 0 ∧ gMode w ≠ 3 ∧ (b = true → q.loops = l :: ls)) ∧
    (∃ (s : State) (h : Hw) (e : Fin 18) (fetch : Ecc) (t : Nat) (r : Run) (w : Nat) (q : Run) (g : Hw) (n : Nat) (x : Run),
    h = s.hw ∧ h.executes e t r w = true ∧ gOp w = 0x22 ∧ fetch ≠ .uncorrectable ∧ q = r.counted ∧ g = h.eccSeen fetch .clean t r w ∧ gMax w ≠ 0 ∧ gLen w ≠ 0 ∧ (q.loops.length + (q.frames.map (fun f => f.loops.length)).foldl (· + ·) 0 < 4) ∧ n = min (q.val 1 (gD w)).toNat (gMax w) ∧ x = q.setVal 1 (gD w) 0) ∧
    (∃ (s : State) (h : Hw) (e : Fin 18) (fetch : Ecc) (t : Nat) (r : Run) (w : Nat) (q : Run) (g : Hw),
    h = s.hw ∧ h.executes e t r w = true ∧ gOp w = 0x23 ∧ fetch ≠ .uncorrectable ∧ q = r.counted ∧ g = h.eccSeen fetch .clean t r w ∧ fld w 25 22 = 0 ∧ q.frames.length < 8) :=
  ⟨⟨⟨runTester 0x74200002, []⟩, _, 1, .clean, 5, { engine := 1 }, 0x74200002, _, _, _, _, rfl, by decide +kernel, by decide +kernel, by decide, rfl, rfl, rfl, by decide +kernel, by decide +kernel, by decide +kernel, rfl⟩,
   ⟨⟨runTester 0x78400000, []⟩, _, 1, .clean, 5, { engine := 1 }, 0x78400000, _, _, _, rfl, by decide +kernel, by decide +kernel, by decide, rfl, rfl, rfl, by decide +kernel⟩,
   ⟨⟨runTester 0x80000003, []⟩, _, 1, .clean, 5, { engine := 1 }, 0x80000003, _, _, _, rfl, by decide +kernel, by decide +kernel, by decide, rfl, rfl, rfl, by decide +kernel⟩,
   ⟨⟨runTester 0x84000000 { engine := 1, loops := [⟨0, 9, 2, 0, 4⟩] }, []⟩, _, 1, .clean, 5, { engine := 1, loops := [⟨0, 9, 2, 0, 4⟩] }, 0x84000000, _, _, _, ⟨0, 9, 2, 0, 4⟩, [], rfl, by decide +kernel, by decide +kernel, by decide, rfl, rfl, rfl, by decide +kernel, by decide +kernel, by decide +kernel, fun _ => rfl⟩,
   ⟨⟨runTester 0x88200a03, []⟩, _, 1, .clean, 5, { engine := 1 }, 0x88200a03, _, _, _, _, rfl, by decide +kernel, by decide +kernel, by decide, rfl, rfl, by decide +kernel, by decide +kernel, by decide +kernel, rfl, rfl⟩,
   ⟨⟨runTester 0x8c000001, []⟩, _, 1, .clean, 5, { engine := 1 }, 0x8c000001, _, _, rfl, by decide +kernel, by decide +kernel, by decide, rfl, rfl, by decide +kernel⟩⟩

theorem witness_GorpenInstructionsComplete_5 :
    (∃ (s : State) (h : Hw) (e : Fin 18) (fetch : Ecc) (t : Nat) (r : Run) (w : Nat) (q : Run) (g : Hw) (f : Frame) (fs : List Frame),
    h = s.hw ∧ h.executes e t r w = true ∧ gOp w = 0x24 ∧ fetch ≠ .uncorrectable ∧ q = r.counted ∧ g = h.eccSeen fetch .clean t r w ∧ fld w 25 0 = 0 ∧ q.frames = f :: fs) ∧
    (∃ (s : State) (h : Hw) (e : Fin 18) (fetch : Ecc) (t : Nat) (r : Run) (w : Nat) (q : Run) (g : Hw),
    h = s.hw ∧ h.executes e t r w = true ∧ gOp w = 0x24 ∧ fetch ≠ .uncorrectable ∧ q = r.counted ∧ g = h.eccSeen fetch .clean t r w ∧ fld w 25 0 = 0 ∧ q.frames = []) ∧
    (∃ (s : State) (h : Hw) (e : Fin 18) (fetch : Ecc) (t : Nat) (r : Run) (w : Nat) (q : Run) (g : Hw),
    h = s.hw ∧ h.executes e t r w = true ∧ gOp w = 0x25 ∧ fetch ≠ .uncorrectable ∧ q = r.counted ∧ g = h.eccSeen fetch .clean t r w ∧ fld w 25 0 = 0) ∧
    (∃ (s : State) (h : Hw) (e : Fin 18) (fetch : Ecc) (t : Nat) (r : Run) (w : Nat) (q : Run) (g : Hw) (b : Bool),
    h = s.hw ∧ h.executes e t r w = true ∧ gOp w = 0x26 ∧ fetch ≠ .uncorrectable ∧ q = r.counted ∧ g = h.eccSeen fetch .clean t r w ∧ (b = decide (gMode w = 0 ∨ gMode w = 1 ∧ q.bool (gC w) = true ∨ gMode w = 2 ∧ q.bool (gC w) = false)) ∧ fld w 19 16 = 0 ∧ gImm w = 0 ∧ gMode w ≠ 3) ∧
    (∃ (s : State) (h : Hw) (e : Fin 18) (fetch load : Ecc) (t : Nat) (r : Run) (w : Nat) (q : Run) (g : Hw) (x : Run) (c : GCtx),
    h = s.hw ∧ h.executes e t r w = true ∧ gOp w = 0x28 ∧ fetch ≠ .uncorrectable ∧ load ≠ .uncorrectable ∧ q = r.counted ∧ g = h.eccSeen fetch load t r w ∧ c = h.gCtx t r ∧ g.prim c q w = .ok x) :=
  ⟨⟨⟨runTester 0x90000000 { engine := 1, frames := [⟨3, []⟩] }, []⟩, _, 1, .clean, 5, { engine := 1, frames := [⟨3, []⟩] }, 0x90000000, _, _, ⟨3, []⟩, [], rfl, by decide +kernel, by decide +kernel, by decide, rfl, rfl, by decide +kernel⟩,
   ⟨⟨runTester 0x90000000, []⟩, _, 1, .clean, 5, { engine := 1 }, 0x90000000, _, _, rfl, by decide +kernel, by decide +kernel, by decide, rfl, rfl, by decide +kernel⟩,
   ⟨⟨runTester 0x94000000, []⟩, _, 1, .clean, 5, { engine := 1 }, 0x94000000, _, _, rfl, by decide +kernel, by decide +kernel, by decide, rfl, rfl, by decide +kernel⟩,
   ⟨⟨runTester 0x98000000, []⟩, _, 1, .clean, 5, { engine := 1 }, 0x98000000, _, _, _, rfl, by decide +kernel, by decide +kernel, by decide, rfl, rfl, rfl, by decide +kernel⟩,
   ⟨⟨runTester 0xa1600000, []⟩, _, 1, .clean, .clean, 5, { engine := 1 }, 0xa1600000, _, _, _, _, rfl, by decide +kernel, by decide +kernel, by decide, by decide, rfl, rfl, rfl, rfl⟩⟩

theorem witness_ChangeForceAndDebugCommandsComplete_1 :
    (∃ (s : State) (h : Hw) (v : Word) (g : Hw) (p : Nat × Hw) (a : Attr),
    s.hw.takes (FRC_CHG_CTRL) a = true ∧ h = s.hw.answer 0 ∧ g = h.storeReg FRC_CHG_CTRL (setFld ((v.toNat ||| 0x8000_0000) &&& 0x0001_3FFF) 30 30 (h.get FRC_CHG_CTRL 30 30)) ∧ p = g.freeDiv (5 * g.migCycles) 3 ∧ h.chgArmed = false ∧ g.jobRefuses = none) ∧
    (∃ (s : State) (h : Hw) (v : Word) (a : Attr),
    s.hw.takes (FRC_CHG_CTRL) a = true ∧ h = s.hw.answer 0 ∧ h.chgState = 1) ∧
    (∃ (s : State) (h : Hw) (f : Fin 1024) (v : Word) (g : Hw) (w : ForceEnt) (e : ForceEnt) (a : Attr),
    s.hw.takes (FRC_FORCE f 1) a = true ∧ h = s.hw.answer 0 ∧ g = h.wr (FRC_FORCE f 1) v.toNat ∧ w = g.forceWords f ∧ (e = if w.image then { w with owner := w.owner % 64 } else w) ∧ e.state = 1 ∧ (symTy e.ty).isNone = false ∧ g.forcePlaceOk e = true ∧ forceValueOk e.ty e.value = true ∧ ((match find? h.frc.entries f with | some x => x.state == 2 && e.ty != x.newTy | none => false) = false) ∧ g.forceForbidden e = false ∧ g.forceOverlaps f e = false) ∧
    (∃ (s : State) (h : Hw) (f : Fin 1024) (v : Word) (g : Hw) (a : Attr),
    s.hw.takes (FRC_FORCE f 1) a = true ∧ h = s.hw.answer 0 ∧ g = h.wr (FRC_FORCE f 1) v.toNat ∧ fld v.toNat 31 30 = 0 ∧ (g.forceWords f).state = 0) ∧
    (∃ (s : State) (h : Hw) (v : Word) (a : Attr),
    s.hw.takes (FRC_PERMIT) a = true ∧ h = s.hw.answer 0 ∧ (fld v.toNat 2 0 &&& (7 - h.get FRC_PERMIT 2 0) ≠ 0 → a.secure = true ∧ (h.lcsOpen = true ∨ (h.lcs = 0 ∨ h.lcs = 2) ∧ h.authLeft ≠ 0))) ∧
    (∃ (s : State) (h : Hw) (g : Hw) (r : Hw),
    h = s.hw ∧ g = h.put FRC_AUTH 15 0 0 ∧ (r = (g.frc.entries.filter (fun f => f.2.state == 1)).foldl (fun (h : Hw) f => (h.put (FRC_FORCE f.1 1) 31 30 0).wr FRC_REPORT (4 * 2 ^ 28 + f.1))
          { g.put FRC_PERMIT 2 0 0 with frc := { g.frc with entries := g.frc.entries.filter (fun f => f.2.state != 1) } }) ∧ h.live pgFRC = true ∧ h.get FRC_AUTH 15 0 ≠ 0 ∧ h.authLeft = 0) :=
  ⟨⟨⟨{}, []⟩, _, 0, _, _, secureTester, by decide +kernel, rfl, rfl, rfl, by decide +kernel⟩,
   ⟨⟨({} : Hw).setChg 1, []⟩, _, 0, secureTester, by decide +kernel, rfl, by decide +kernel⟩,
   ⟨⟨{ (((({} : Hw).put FRC_PERMIT 2 0 1).put (CEA_TASK 5 0) 31 31 1).wr (FRC_FORCE 3 2) 0) with cea := { prog := Mem.write [] 0x10 [64] } }, []⟩, _, 3, 0x4005_0000, _, _, _, secureTester, by decide +kernel, rfl, rfl, rfl, rfl, by decide +kernel⟩,
   ⟨⟨{}, []⟩, _, 3, 0, _, secureTester, by decide +kernel, rfl, rfl, by decide +kernel⟩,
   ⟨⟨{}, []⟩, _, 0, secureTester, by decide +kernel, rfl, by decide +kernel⟩,
   ⟨⟨{ ({} : Hw).put FRC_AUTH 15 0 5 with now := 2 ^ 60 }, []⟩, _, _, _, rfl, rfl, rfl, by decide +kernel⟩⟩

theorem witness_ChangeForceAndDebugCommandsComplete_2 :
    (∃ (s : State) (h : Hw) (v : Word) (t : Nat) (g : Hw) (a : Attr),
    s.hw.takes (DBG_ATTACH) a = true ∧ h = s.hw.answer 0 ∧ g = (h.abandonRota.put DBG_ATTACH 8 0 t).putBit DBG_ATTACH 31 true ∧ t = fld (v.toNat ||| 0x8000_0000) 8 0 ∧ h.bit FRC_PERMIT 2 = true ∧ h.bit DBG_STATE 31 = false ∧ h.dbg.want = none ∧ (h.abandonRota.firstEng engSpare).isNone = false ∧ h.inJob t = false) ∧
    (∃ (s : State) (h : Hw) (v : Word) (g : Hw) (a : Attr),
    s.hw.takes (DBG_ATTACH) a = true ∧ h = s.hw.answer 0 ∧ g = (h.put DBG_ATTACH 8 0 (fld (v.toNat &&& 0x7FFF_FFFF ||| 0x4000_0000) 8 0)).detach) ∧
    (∃ (s : State) (h : Hw) (v : Word) (a : Attr),
    s.hw.takes (DBG_HALT) a = true ∧ h = s.hw.answer 0 ∧ v.toNat.testBit 1 = false ∧ v.toNat.testBit 2 = false ∧ h.bit DBG_STATE 31 = true) ∧
    (∃ (s : State) (h : Hw) (v : Word) (a : Attr),
    s.hw.takes (DBG_HALT) a = true ∧ h = s.hw.answer 0 ∧ h.haltedRun.isSome = true) ∧
    (∃ (s : State) (h : Hw) (v : Word) (a : Attr),
    s.hw.takes (DBG_HALT) a = true ∧ h = s.hw.answer 0 ∧ v.toNat.testBit 1 = false) ∧
    (∃ (s : State) (h : Hw) (n : Fin 34) (v : Word) (t : Nat) (r : Run) (a : Attr),
    s.hw.takes (dbgReg n) a = true ∧ h = s.hw.answer 0 ∧ h.haltedRun = some (t, r)) :=
  ⟨⟨⟨(({} : Hw).put FRC_PERMIT 2 2 1).setEngState 17 engSpare, []⟩, _, 5, _, _, secureTester, by decide +kernel, rfl, rfl, rfl, by decide +kernel⟩,
   ⟨⟨{}, []⟩, _, 0, _, secureTester, by decide +kernel, rfl, rfl⟩,
   ⟨⟨(({} : Hw).putBit DBG_STATE 31 true), []⟩, _, 0, secureTester, by decide +kernel, rfl, by decide +kernel⟩,
   ⟨⟨{ ({} : Hw).wr DBG_STATE 0xC000_0005 with cea := { runs := [(5, { engine := 17, stopped := true, halted := true })] } }, []⟩, _, 0, secureTester, by decide +kernel, rfl, by decide +kernel⟩,
   ⟨⟨{}, []⟩, _, 0, secureTester, by decide +kernel, rfl, by decide +kernel⟩,
   ⟨⟨{ ({} : Hw).wr DBG_STATE 0xC000_0005 with cea := { runs := [(5, { engine := 17, stopped := true, halted := true })] } }, []⟩, _, 4, 7, 5, { engine := 17, stopped := true, halted := true }, secureTester, by decide +kernel, rfl, by decide +kernel⟩⟩

theorem witness_PowerChannelCommandsComplete_1 :
    (∃ (s : State) (h : Hw) (c : Fin 72) (v : Word) (a : Attr),
    s.hw.takes (cCmd c) a = true ∧ h = s.hw.answer 0 ∧ h.chanMapped c = false ∧ h.inCharge = true) ∧
    (∃ (s : State) (h : Hw) (c : Fin 72),
    h = s.hw ∧ h.periodDue c = true) ∧
    (∃ (s : State) (h : Hw) (c : CueRef) (v : Nat),
    s.hw.cueActs c 0x18 v = true ∧ h = s.hw.cueFired c.idx) ∧
    (∃ (s : State) (h : Hw) (c : Fin 72),
    h = s.hw ∧ h.canTrip c = true) ∧
    (∃ (s : State) (h : Hw) (c : Fin 72) (load : BitVec 16) (ps : List LimPulse),
    h = s.hw ∧ h.canTrip c = true ∧ (h.chanLimit c).num < load.toNat * (h.chanLimit c).den ∧ h.get (cCfg c) 15 8 * 100_000 < regulated ps) ∧
    (∃ (s : State) (h : Hw) (c : Fin 72) (g : Hw) (l : Nat),
    h = s.hw ∧ g = h.setChan c { h.chan c with hot := true } ∧ (l = if g.get (cCfg c) 31 30 = 1 ∨ g.get (cState c) 23 20 = g.get (cCfg c) 29 26 then stTempLatch else stTempWait) ∧ g.canTrip c = true) :=
  ⟨⟨⟨{ ({} : Hw).put (STATUS pgPSS) 1 0 2 with stage := { running := true } }, []⟩, _, 3, 5, secureTester, by decide +kernel, rfl, by decide +kernel⟩,
   ⟨⟨{ ({} : Hw).setChan 3 { gen := true, gate := .pulse } with now := 2 ^ 60 }, []⟩, _, 3, rfl, by decide +kernel⟩,
   ⟨⟨cueTester 0x18 2, []⟩, _, ⟨7⟩, 0, by decide +kernel, rfl⟩,
   ⟨⟨({} : Hw).setChan 3 { gate := .on }, []⟩, _, 3, rfl, by decide +kernel⟩,
   ⟨⟨({} : Hw).setChan 3 { gate := .on }, []⟩, _, 3, 60000, [{ ns := 2 ^ 40, ended := true }], rfl, by decide +kernel⟩,
   ⟨⟨({} : Hw).setChan 3 { gate := .on }, []⟩, _, 3, _, _, rfl, rfl, rfl, by decide +kernel⟩⟩

theorem witness_PowerChannelCommandsComplete_2 :
    (∃ (s : State) (h : Hw) (c : Fin 72) (g : Hw),
    h = s.hw ∧ g = h.setChan c { h.chan c with hot := false } ∧ g.heldTrip c = false ∧ g.chState c = stTempWait) ∧
    (∃ (s : State) (h : Hw) (c : Fin 72),
    h = s.hw ∧ h.driven c = true ∧ (h.chan c).onAt + 1_200_000_000 ≤ h.now) ∧
    (∃ (s : State) (h : Hw) (c : Fin 72) (m : ChanSample) (th trip : Int) (warn : Bool) (g : Hw),
    h = s.hw ∧ g = ((({ h with hlt := { h.hlt with junction := max h.hlt.junction m.die.toNat } } : Hw).put (cMeas c) 23 16 m.die.toNat).put (cMeas c) 15 0 m.current.toNat).putBit (cState c) 12 (m.limiting && ((({ h with hlt := { h.hlt with junction := max h.hlt.junction m.die.toNat } } : Hw).put (cMeas c) 23 16 m.die.toNat).put (cMeas c) 15 0 m.current.toNat).driven c) ∧ g.stage.running = true ∧ th = wireStep (g.chan c).theta ((((g.ambient (g.get (cWire c) 9 8) : Nat) : Int) - 50) * degree) (g.get (cWire c) 23 16) (g.get (cWire c) 31 28) m.i2 ∧ trip = ((tripTemp (((g.setChan c { g.chan c with theta := th }).put (cMeas c) 31 24 (wireT th)).get (cWire c) 27 24) : Nat) : Int) * degree ∧ warn = decide (th ≥ trip - ((((g.setChan c { g.chan c with theta := th }).put (cMeas c) 31 24 (wireT th)).get (cWire c) 7 0 : Nat) : Int) * degree)) ∧
    (∃ (s : State) (h : Hw) (c : Fin 72),
    h = s.hw ∧ h.window c = true ∧ h.windowLen c ≤ h.windowTime c) ∧
    (∃ (s : State) (h : Hw) (b : Fin 3),
    h = s.hw ∧ find? h.stage.dips b.val = none) ∧
    (∃ (s : State) (h : Hw) (b : Fin 3) (us : BitVec 32) (g : Hw) (k : Hw),
    h = s.hw ∧ (g = each 72 (fun c h => if chanBus c == b.val && h.window c then h.clockResumes c else h) h) ∧ k = { g with stage := { g.stage with dips := unfile g.stage.dips b.val } } ∧ (find? h.stage.dips b.val).isNone = false) :=
  ⟨⟨⟨({} : Hw).put (cState 3) 31 28 7, []⟩, _, 3, _, rfl, rfl, by decide +kernel⟩,
   ⟨⟨{ ({} : Hw).setChan 3 { gate := .on } with now := 2 ^ 60 }, []⟩, _, 3, rfl, by decide +kernel⟩,
   ⟨⟨{ stage := { running := true } }, []⟩, _, 3, { current := 1, die := 60, i2 := 0, limiting := false }, _, _, _, _, rfl, rfl, by decide +kernel, rfl, rfl, rfl⟩,
   ⟨⟨{ ({} : Hw).putBit (cState 3) 13 true with now := 2 ^ 60 }, []⟩, _, 3, rfl, by decide +kernel⟩,
   ⟨⟨{}, []⟩, _, 1, rfl, by decide +kernel⟩,
   ⟨⟨{ stage := { dips := [(1, 0)] } }, []⟩, _, 1, 40, _, _, rfl, rfl, rfl, by decide +kernel⟩⟩

theorem witness_PowerChannelCommandsComplete_3 :
    (∃ (s : State) (h : Hw) (b : Fin 3) (cur volt : BitVec 16) (g : Hw),
    h = s.hw ∧ g = h.wr (busReg b) (cur.toNat * 2 ^ 16 + volt.toNat)) ∧
    (∃ (s : State) (h : Hw) (c : Fin 72) (v : Word) (a : Attr),
    s.hw.takes (PCH_CLR (c / 8) (c % 8)) a = true ∧ h = s.hw.answer 0 ∧ fld v.toNat 0 0 = 1 ∧ fld v.toNat 1 1 = 0 ∧ h.tripped c = true ∧ h.chState c ≠ stTempWait ∧ h.causeEnded c = true ∧ h.heldTrip c = false) ∧
    (∃ (s : State) (h : Hw) (c : Fin 72) (v : Word) (a : Attr),
    s.hw.takes (PCH_CLR (c / 8) (c % 8)) a = true ∧ h = s.hw.answer 0 ∧ fld v.toNat 1 1 = 1 ∧ fld v.toNat 0 0 = 0) ∧
    (∃ (s : State) (h : Hw) (c : Fin 72) (cur : List (BitVec 16)) (p : Ratio),
    h = s.hw ∧ p = h.pwmLen c ∧ h.driven c = true ∧ (h.chan c).gate ≠ .blank ∧ ((h.chan c).gen = true → 30_000 * 10_000 * p.den ≤ p.num * (h.chan c).duty) ∧ (h.chan c).onAt + 12_000_000 ≤ h.now ∧ cur.isEmpty = false) ∧
    (∃ (s : State) (h : Hw) (c : Fin 72) (pullUp high : Bool),
    h = s.hw ∧ h.offTested c = true) :=
  ⟨⟨⟨{}, []⟩, _, 1, 900, 1350, _, rfl, rfl⟩,
   ⟨⟨({} : Hw).put (cState 3) 31 28 4, []⟩, _, 3, 1, secureTester, by decide +kernel, rfl, by decide +kernel⟩,
   ⟨⟨{}, []⟩, _, 3, 2, secureTester, by decide +kernel, rfl, by decide +kernel⟩,
   ⟨⟨{ ({} : Hw).setChan 3 { gate := .on } with now := 2 ^ 60 }, []⟩, _, 3, [7], _, rfl, rfl, by decide +kernel⟩,
   ⟨⟨{ stage := { running := true } }, []⟩, _, 3, true, true, rfl, by decide +kernel⟩⟩

theorem witness_StageConfigurationAndSupervisorCommandsComplete_1 :
    (∃ (s : State) (h : Hw) (n : Fin 4) (t : Nat),
    h = s.hw ∧ h.bit (LPM_AMB_CFG n) 31 = true ∧ h.ambFresh n = some t) ∧
    (∃ (s : State) (h : Hw) (n : Fin 4),
    h = s.hw ∧ h.bit (LPM_AMB_CFG n) 31 = false) ∧
    (∃ (s : State) (h : Hw) (n : Fin 4),
    h = s.hw ∧ h.bit (LPM_AMB_CFG n) 31 = true ∧ h.bit (LPM_AMB_VAL n) 31 = false ∧ ((find? h.stage.amb n.val).getD 0) + 120_000_000 ≤ h.now) ∧
    (∃ (s : State) (h : Hw) (p : Fin 8) (w : Fin 32) (v : Word) (g : Hw) (a : Attr),
    s.hw.takes (LPM_PROF p w) a = true ∧ h = s.hw.answer 0 ∧ g = (h.storeReg (LPM_PROF p w) v.toNat).putBit LPM_PROF_VALID p false ∧ h.profileBusy p = false ∧ (w.val = 1 → g.profileOk p = true)) ∧
    (∃ (s : State) (h : Hw) (c : Fin 72) (v : Word) (a : Attr),
    s.hw.takes (cPwm c) a = true ∧ h = s.hw.answer 0 ∧ h.cfgOpen c = true ∧ fld v.toNat 23 16 ≠ 0 ∧ fld v.toNat 15 8 ≠ 0 ∧ h.slotPwmOk (fld v.toNat 31 30) = true ∧ 40_000 * fld v.toNat 15 8 ≤ fld v.toNat 23 16 * h.rd TCU_BASE_TICK ∧ fld v.toNat 23 16 * h.rd TCU_BASE_TICK ≤ 10_000_000 * fld v.toNat 15 8) ∧
    (∃ (s : State) (h : Hw) (v : Word) (a : Attr),
    s.hw.takes (PSS_HB) a = true ∧ h = s.hw.answer 0 ∧ h.stage.running = true ∧ fld v.toNat 15 0 = h.get PSS_HB_NEXT 15 0 ∧ fld v.toNat 31 16 = 0xFFFF - h.get PSS_HB_NEXT 15 0) :=
  ⟨⟨⟨{ ((({} : Hw).putBit (LPM_AMB_CFG 1) 31 true).put (AIN_CFG 0) 31 30 2) with ain := { temp := [(0, 70)], tempAt := [(0, 0)] } }, []⟩, _, 1, 70, rfl, by decide +kernel⟩,
   ⟨⟨{}, []⟩, _, 1, rfl, by decide +kernel⟩,
   ⟨⟨{ ({} : Hw).putBit (LPM_AMB_CFG 1) 31 true with now := 2 ^ 60 }, []⟩, _, 1, rfl, by decide +kernel⟩,
   ⟨⟨{}, []⟩, _, 1, 0, 7, _, secureTester, by decide +kernel, rfl, rfl, by decide +kernel⟩,
   ⟨⟨(({} : Hw).put (TCU_SRC 0) 2 0 4).wr TCU_BASE_TICK 100000, []⟩, _, 3, 0x0001_0100, secureTester, by decide +kernel, rfl, by decide +kernel⟩,
   ⟨⟨{ stage := { running := true } }, []⟩, _, 0xFFFF_0000, secureTester, by decide +kernel, rfl, by decide +kernel⟩⟩

theorem witness_StageConfigurationAndSupervisorCommandsComplete_2 :
    (∃ (s : State) (h : Hw),
    h = s.hw ∧ h.inCharge = true ∧ h.stage.beatAt + h.get PSS_CFG 7 0 * 1_200_000 ≤ h.now) ∧
    (∃ (s : State) (h : Hw) (v : Word) (a : Attr),
    s.hw.takes (PSS_RELEASE) a = true ∧ h = s.hw.answer 0 ∧ fld v.toNat 0 0 = 1 ∧ h.stage.running = true ∧ h.charge = 2) ∧
    (∃ (s : State) (h : Hw) (g : Hw),
    h = s.hw ∧ g = ((h.sat PSS_RESTART_CNT).raise pgPSS 8).setCharge 0 ∧ h.stage.running = true) ∧
    (∃ (s : State) (h : Hw) (bad : List Nat) (g : Hw) (m : Hw) (x : Hw),
    h = s.hw ∧ (bad = h.stage.used.filter (fun n => !h.otpOk n)) ∧ (g = (h.wr PSS_MAP_STATUS (h.stage.used.foldl (fun x n => x + 2 ^ (4 + n)) 0 + bad.foldl (fun x n => x + 2 ^ (8 + n)) 0)).raiseIf (!bad.isEmpty) pgPSS 7) ∧ (m = ((each 18 (fun w (h : Hw) => h.wr (PSS_MAP w) (romMap w)) g).put PSS_MAP_STATUS 1 0 0).putBit (STATUS pgPSS) 16 false) ∧ (x = (({ m with stage := { m.stage with running := true, bad := 0, prog := none } } : Hw).put (STATUS pgPSS) 11 8 (if m.stage.fromVbat then 1 else 6)).setCharge 0) ∧ h.stage.running = false ∧ h.sys.vbatOff = false ∧ ((g.stage.used.filter (fun n => g.otpOk n)).getLast? = none)) ∧
    (∃ (s : State) (h : Hw) (n : Nat) (bad : List Nat) (g : Hw) (m : Hw) (x : Hw),
    h = s.hw ∧ (bad = h.stage.used.filter (fun n => !h.otpOk n)) ∧ (g = (h.wr PSS_MAP_STATUS (h.stage.used.foldl (fun x n => x + 2 ^ (4 + n)) 0 + bad.foldl (fun x n => x + 2 ^ (8 + n)) 0)).raiseIf (!bad.isEmpty) pgPSS 7) ∧ (m = ((each 18 (fun w (h : Hw) => h.wr (PSS_MAP w) (h.otpMap n (w + 1))) g).put PSS_MAP_STATUS 1 0 n).putBit (STATUS pgPSS) 16 true) ∧ (x = (({ m with stage := { m.stage with running := true, bad := 0, prog := none } } : Hw).put (STATUS pgPSS) 11 8 (if m.stage.fromVbat then 1 else 6)).setCharge 0) ∧ h.stage.running = false ∧ h.sys.vbatOff = false ∧ ((g.stage.used.filter (fun n => g.otpOk n)).getLast? = some n)) ∧
    (∃ (s : State) (h : Hw),
    h = s.hw ∧ h.charge = 1 ∧ h.stage.holdAt + h.get PSS_CFG 23 16 * 12_000_000 ≤ h.now) :=
  ⟨⟨⟨{ (({} : Hw).put (STATUS pgPSS) 1 0 2) with stage := { running := true }, now := 2 ^ 60 }, []⟩, _, rfl, by decide +kernel⟩,
   ⟨⟨{ ({} : Hw).put (STATUS pgPSS) 1 0 2 with stage := { running := true } }, []⟩, _, 1, secureTester, by decide +kernel, rfl, by decide +kernel⟩,
   ⟨⟨{ stage := { running := true } }, []⟩, _, _, rfl, rfl, by decide +kernel⟩,
   ⟨⟨{}, []⟩, _, _, _, _, _, rfl, rfl, rfl, rfl, rfl, by decide +kernel⟩,
   ⟨⟨{ stage := { used := [1], otp := (List.range 20).map (fun w => (20 + w, ((0x4C48_0001 :: List.replicate 18 0) ++ [crc32 (wordBytes (0x4C48_0001 :: List.replicate 18 0))]).getD w 0)) |>.filter (fun x => x.2 != 0) } }, []⟩, _, 1, _, _, _, _, rfl, rfl, rfl, rfl, rfl, by decide +kernel⟩,
   ⟨⟨{ ({} : Hw).put (STATUS pgPSS) 1 0 1 with now := 2 ^ 60 }, []⟩, _, rfl, by decide +kernel⟩⟩

theorem witness_StageConfigurationAndSupervisorCommandsComplete_3 :
    (∃ (s : State) (h : Hw) (p : Fin 16) (level : Bool) (x : Pin) (n : Nat) (g : Hw),
    h = s.hw ∧ g = { h with stage := { h.stage with pins := file h.stage.pins p { level := level, same := n } } } ∧ x = (find? h.stage.pins p).getD {} ∧ (n = if x.level = level then min 3 (x.same + 1) else 1) ∧ h.sys.vbatOff = false) ∧
    (∃ (s : State) (h : Hw) (v : Word) (n : Nat) (g : Hw) (a : Attr),
    s.hw.takes (PSS_MAP_PROG) a = true ∧ h = s.hw.answer 0 ∧ (g = ({ h with stage := { h.stage with prog := some n, record := (0x4C48_0001 :: (List.range 18).map (fun w => h.rd (PSS_MAP_STAGE w))) ++ [crc32 (wordBytes (0x4C48_0001 :: (List.range 18).map (fun w => h.rd (PSS_MAP_STAGE w))))] } } : Hw).putBit PSS_MAP_STATUS 16 true) ∧ a.secure = true ∧ (h.lcs = 0 ∨ h.lcs = 1 ∨ h.lcs = 3) ∧ v.toNat = 0x4C48_4D50 ∧ ((List.range 18).all (fun w => mapWordOk (h.rd (PSS_MAP_STAGE w))) = true) ∧ h.stage.prog = none ∧ h.stage.running = true ∧ ((List.range 4).find? (fun n => !h.stage.used.contains n) = some n)) ∧
    (∃ (s : State) (h : Hw) (n : Nat) (good : Bool) (otp : List (Nat × Nat)) (g : Hw),
    h = s.hw ∧ g = (({ h with stage := { h.stage with otp := otp, used := h.stage.used ++ [n], prog := none, record := [] } } : Hw).putBit PSS_MAP_STATUS 16 false).putBit PSS_MAP_STATUS (4 + n) true ∧ (otp = (List.range 20).foldl (fun l w => store zeroNat l (20 * n + w) (if good then h.stage.record.getD w 0 else 0)) h.stage.otp) ∧ h.stage.prog = some n ∧ h.inHold = false) ∧
    (∃ (s : State) (h : Hw) (c : Fin 72) (v : Word) (a : Attr),
    s.hw.takes (PSS_TAKE c) a = true ∧ h = s.hw.answer 0) ∧
    (∃ (s : State) (h : Hw) (v : Word) (x : Hw) (a : Attr),
    s.hw.takes (PSS_TAKE_CTRL) a = true ∧ h = s.hw.answer 0 ∧ (x = ((each 72 (fun c h => h.takeChannel c) h).setCharge 2).takeClear) ∧ fld v.toNat 0 0 = 1 ∧ fld v.toNat 1 1 = 0 ∧ h.stage.running = true ∧ h.charge ≠ 2 ∧ h.takeComplete = true) ∧
    (∃ (s : State) (h : Hw) (v : Word) (a : Attr),
    s.hw.takes (PSS_TAKE_CTRL) a = true ∧ h = s.hw.answer 0 ∧ fld v.toNat 0 0 = 0 ∧ fld v.toNat 1 1 = 1) :=
  ⟨⟨⟨{}, []⟩, _, 1, true, _, _, _, rfl, rfl, rfl, rfl, rfl⟩,
   ⟨⟨{ (({} : Hw).put KEY_LCS 2 0 1) with stage := { running := true } }, []⟩, _, 0x4C48_4D50, 0, _, secureTester, by decide +kernel, rfl, rfl, by decide +kernel⟩,
   ⟨⟨{ stage := { prog := some 1 } }, []⟩, _, 1, true, _, _, rfl, rfl, rfl, by decide +kernel⟩,
   ⟨⟨{}, []⟩, _, 3, 5, secureTester, by decide +kernel, rfl⟩,
   ⟨⟨{ (((({} : Hw).put (STATUS pgPSS) 1 0 0).wr (PSS_TAKE_MASK 0) 0xFFFF_FFFF).wr (PSS_TAKE_MASK 1) 0xFFFF_FFFF).wr (PSS_TAKE_MASK 2) 0xFF with stage := { running := true } }, []⟩, _, 1, _, secureTester, by decide +kernel, rfl, rfl, by decide +kernel⟩,
   ⟨⟨{}, []⟩, _, 2, secureTester, by decide +kernel, rfl, by decide +kernel⟩⟩

theorem witness_SwitchCommandsComplete_1 :
    (∃ (s : State) (h : Hw) (p : Fin 40) (b x : List Byte) (frags : BitVec 8) (g : Hw) (r : Hw),
    h = s.hw ∧ (g = ((if p.val < 12 then h.ethCount p 8 frags.toNat else h).ethCount p 0).ethCount p 1 b.length) ∧ r = (g.msecValidate p (b.take (b.length - 4))).2 ∧ p.val < 36 ∧ h.live (pgETH p) = true ∧ h.bit (ETH_CFG p) 31 = true ∧ h.bit (ETH_PHY_STAT p) 31 = true ∧ 64 ≤ b.length ∧ b.drop (b.length - 4) = fcs (b.take (b.length - 4)) ∧ beNat (slice b 12 2) ≠ 0x8808 ∧ (g.msecValidate p (b.take (b.length - 4))).1 = some x) ∧
    (∃ (s : State) (h : Hw) (p : Fin 40) (b : List Byte) (frags : BitVec 8) (broken : Bool),
    h = s.hw ∧ 36 ≤ p.val ∧ (h.zone.handed.find? (fun x => decide (x.1 = p.val)) = some (p.val, b))) ∧
    (∃ (s : State) (h : Hw) (d : Nat) (ds : List Nat) (f : LoftFrame) (g : Hw),
    h = s.hw ∧ g = (h.writeRecord (h.queueOf d) (h.desc d) f).freeCells f.cells ∧ h.sw.loftQ = d :: ds ∧ ((h.desc d).frames.find? (fun f => !f.written) = some f)) ∧
    (∃ (s : State) (h : Hw) (q : Fin 320) (e : LoftRead),
    h = s.hw ∧ h.live pgLOFT = true) ∧
    (∃ (s : State) (h : Hw) (p : Fin 40) (e : Ecc) (g : Hw),
    h = s.hw ∧ g = ((h.touch p).select p e ((h.touch p).portLinks p + 9) []) ∧ h.canSend p = true ∧ ((h.touch p).port p).tx = none ∧ ((h.touch p).port p).freeAt ≤ (h.touch p).now) ∧
    (∃ (s : State) (h : Hw) (p : Fin 40) (f : TxFrame) (g : Hw) (x : Hw) (y : Hw),
    h = s.hw ∧ g = ((((h.touch p).swCount 1 (8 * p + f.cls) 0).swCount 1 (8 * p + f.cls) 1 ((h.touch p).desc f.desc).len).ethCount p 5).ethCount p 6 f.wire.length ∧ (x = if 0 < f.fragments then g.ethCount p 7 else g) ∧ (y = match f.sa with | some i => x.pnUsed i | none => x) ∧ (h.port p).tx = some f ∧ h.txEnded p f = true) :=
  ⟨⟨⟨(((({} : Hw).put (ETH_CFG 5) 31 31 1).put (ETH_PHY_STAT 5) 31 31 1)), []⟩, _, 5, List.replicate 60 0 ++ fcs (List.replicate 60 0), List.replicate 60 0, 0, _, _, rfl, rfl, rfl, by decide +kernel⟩,
   ⟨⟨{ zone := { handed := [(37, [1])] } }, []⟩, _, 37, [1], 0, false, rfl, by decide +kernel⟩,
   ⟨⟨{ sw := { loftQ := [3], descs := [(3, { typ := 1, frames := [{ block := 0, ofs := 0x20, len := 64, vid := 0, pcp := 0, entered := 0, at_ := 0 }] })] } }, []⟩, _, 3, [], { block := 0, ofs := 0x20, len := 64, vid := 0, pcp := 0, entered := 0, at_ := 0 }, _, rfl, rfl, by decide +kernel⟩,
   ⟨⟨{}, []⟩, _, 5, .good, rfl, by decide +kernel⟩,
   ⟨⟨(({} : Hw).put (CTRL pgSWC) 0 0 1).put (CTRL pgTUN) 0 0 1, []⟩, _, 39, .clean, _, rfl, rfl, by decide +kernel⟩,
   ⟨⟨{ ({} : Hw).setPort 5 { tx := some { desc := 0, cls := 3, wire := [], start := 0 } } with now := 2 ^ 60 }, []⟩, _, 5, { desc := 0, cls := 3, wire := [], start := 0 }, _, _, _, rfl, rfl, rfl, rfl, by decide +kernel⟩⟩

theorem witness_SwitchCommandsComplete_2 :
    (∃ (s : State) (h : Hw) (p : Fin 40),
    h = s.hw) ∧
    (∃ (s : State) (h : Hw) (p : Fin 40) (g : Hw) (x : Hw) (y : Hw) (k : Hw),
    h = s.hw ∧ g = (h.putBit (ETH_PHY_STAT p) 31 true).putBit (STATUS (pgETH p)) 0 true ∧ (x = if 28 ≤ p.val then g.putBit (ETH_PHY_STAT p) 24 (g.bit (ETH_PLCA p) 31) else g) ∧ (y = if 4 ≤ p.val ∧ p.val < 28 then x.put (ETH_TC10 p) 2 0 0 else x) ∧ k = y.setPort p { y.port p with sqiAt := y.now } ∧ p.val < 36 ∧ h.live (pgETH p) = true ∧ h.bit (ETH_CFG p) 31 = true ∧ h.get (ETH_PHY p) 29 27 = 0) ∧
    (∃ (s : State) (h : Hw) (p : Fin 40),
    h = s.hw ∧ h.get (SWC_LINK p) 1 0 = 1 ∧ 120_000 * h.get (SWC_LINK p) 24 16 ≤ h.now - (h.port p).downAt) ∧
    (∃ (s : State) (h : Hw) (g : Fin 8) (b : Fin 64) (p m : Nat),
    h = s.hw ∧ h.sw.lag.get (g.val * 64 + b.val) = p + 1 ∧ h.lagTarget g b = some m ∧ ((List.range 8).any (fun c => (h.queue (8 * p + c)).links.any (fun d => if (h.desc d).typ = 1 then (h.desc d).frames.any (fun f => f.bucket == b.val) else (h.desc d).bucket == b.val)) = false)) ∧
    (∃ (s : State) (h : Hw),
    h = s.hw ∧ h.live pgFDB = true) ∧
    (∃ (s : State) (h : Hw) (v : Word) (t i : Nat) (a : Attr),
    s.hw.takes (FDB_CMD) a = true ∧ h = s.hw.answer 0 ∧ t = fld v.toNat 23 22 ∧ i = fld v.toNat 13 0 ∧ i < fdbSize t ∧ h.tableBusy FDB_CMD = false) :=
  ⟨⟨⟨{}, []⟩, _, 5, rfl⟩,
   ⟨⟨({} : Hw).put (ETH_CFG 5) 31 31 1, []⟩, _, 5, _, _, _, _, rfl, rfl, rfl, rfl, rfl, by decide +kernel⟩,
   ⟨⟨{ ({} : Hw).put (SWC_LINK 5) 1 0 1 with now := 2 ^ 60 }, []⟩, _, 5, rfl, by decide +kernel⟩,
   ⟨⟨{ (({} : Hw).wr (SWC_PORT 5) 0x8200_0000) with sw := { lag := [(3, 8)] } }, []⟩, _, 0, 3, 7, 5, rfl, by decide +kernel⟩,
   ⟨⟨{}, []⟩, _, rfl, by decide +kernel⟩,
   ⟨⟨{}, []⟩, _, 0, _, _, secureTester, by decide +kernel, rfl, rfl, rfl, by decide +kernel⟩⟩

theorem witness_SwitchCommandsComplete_3 :
    (∃ (s : State) (h : Hw) (v : Word) (t i : Nat) (a : Attr),
    s.hw.takes (FDB_CMD) a = true ∧ h = s.hw.answer 0 ∧ t = fld v.toNat 23 22 ∧ i = fld v.toNat 13 0 ∧ i < fdbSize t ∧ h.tableBusy FDB_CMD = false) ∧
    (∃ (s : State) (h : Hw) (v : Word) (t i : Nat) (j : Nat) (a : Attr),
    s.hw.takes (FDB_CMD) a = true ∧ h = s.hw.answer 0 ∧ t = fld v.toNat 23 22 ∧ i = fld v.toNat 13 0 ∧ i < fdbSize t ∧ t = 0 ∧ h.fdbFind (h.keyMac (FDB_DATA 0) (FDB_DATA 1)) (h.get (FDB_DATA 1) 27 16) = some j ∧ h.tableBusy FDB_CMD = false) ∧
    (∃ (s : State) (h : Hw) (v : Word) (t i : Nat) (a : Attr),
    s.hw.takes (FDB_CMD) a = true ∧ h = s.hw.answer 0 ∧ t = fld v.toNat 23 22 ∧ i = fld v.toNat 13 0 ∧ i < fdbSize t ∧ h.tableBusy FDB_CMD = false) ∧
    (∃ (s : State) (h : Hw) (v : Word) (t i : Nat) (a : Attr),
    s.hw.takes (FDB_CMD) a = true ∧ h = s.hw.answer 0 ∧ t = fld v.toNat 23 22 ∧ i = fld v.toNat 13 0 ∧ i < fdbSize t ∧ h.tableBusy FDB_CMD = false) ∧
    (∃ (s : State) (h : Hw) (v : Word) (t i : Nat) (a : Attr),
    s.hw.takes (FDB_CMD) a = true ∧ h = s.hw.answer 0 ∧ t = fld v.toNat 23 22 ∧ i = fld v.toNat 13 0 ∧ i < fdbSize t ∧ h.tableBusy FDB_CMD = false) ∧
    (∃ (s : State) (h : Hw) (v : Word) (t i : Nat) (a : Attr),
    s.hw.takes (STRM_CMD) a = true ∧ h = s.hw.answer 0 ∧ t = fld v.toNat 23 22 ∧ i = fld v.toNat 13 0 ∧ i < strmSize t ∧ h.tableBusy STRM_CMD = false) :=
  ⟨⟨⟨{}, []⟩, _, 0, _, _, secureTester, by decide +kernel, rfl, rfl, rfl, by decide +kernel⟩,
   ⟨⟨({} : Hw).setFdb 0 0 1 0x8000_0000, []⟩, _, 0, _, _, 0, secureTester, by decide +kernel, rfl, rfl, rfl, by decide +kernel, rfl, by decide +kernel⟩,
   ⟨⟨{}, []⟩, _, 0, _, _, secureTester, by decide +kernel, rfl, rfl, rfl, by decide +kernel⟩,
   ⟨⟨{}, []⟩, _, 0, _, _, secureTester, by decide +kernel, rfl, rfl, rfl, by decide +kernel⟩,
   ⟨⟨{}, []⟩, _, 0, _, _, secureTester, by decide +kernel, rfl, rfl, rfl, by decide +kernel⟩,
   ⟨⟨{}, []⟩, _, 0, _, _, secureTester, by decide +kernel, rfl, rfl, rfl, by decide +kernel⟩⟩

theorem witness_SwitchCommandsComplete_4 :
    (∃ (s : State) (h : Hw) (v : Word) (t i : Nat) (g : Hw) (r : Hw) (a : Attr),
    s.hw.takes (STRM_CMD) a = true ∧ h = s.hw.answer 0 ∧ (g = each 4 (fun w (h : Hw) => h.setStrm t i w (h.rd (STRM_DATA w) &&& strmMask t w)) h) ∧ (r = if t = 0 then g.setStrm 0 i 3 (setFld (g.strm 0 i 3) 30 30 (fld (h.strm 0 i 3) 30 30 * fld (h.rd (STRM_DATA 3)) 30 30)) else g) ∧ t = fld v.toNat 23 22 ∧ i = fld v.toNat 13 0 ∧ i < strmSize t ∧ (¬ (t = 2 ∧ h.get (STRM_DATA 0) 15 0 = 0)) ∧ h.tableBusy STRM_CMD = false) ∧
    (∃ (s : State) (h : Hw) (v : Word) (t i : Nat) (j : Nat) (a : Attr),
    s.hw.takes (STRM_CMD) a = true ∧ h = s.hw.answer 0 ∧ t = fld v.toNat 23 22 ∧ i = fld v.toNat 13 0 ∧ i < strmSize t ∧ t = 0 ∧ h.strmFind (h.get (STRM_DATA 1) 30 30) (h.keyMac (STRM_DATA 0) (STRM_DATA 1)) (h.get (STRM_DATA 1) 27 16) = some j ∧ h.tableBusy STRM_CMD = false) ∧
    (∃ (s : State) (h : Hw) (v : Word) (t i : Nat) (a : Attr),
    s.hw.takes (STRM_CMD) a = true ∧ h = s.hw.answer 0 ∧ t = fld v.toNat 23 22 ∧ i = fld v.toNat 13 0 ∧ i < strmSize t ∧ h.tableBusy STRM_CMD = false) ∧
    (∃ (s : State) (h : Hw) (n : Fin 1024),
    h = s.hw ∧ h.live pgSTRM = true ∧ fld (h.strm 2 n 0) 31 31 = 1) ∧
    (∃ (s : State) (h : Hw) (v : Word) (a : Attr),
    s.hw.takes (SWC_CNT_CLR) a = true ∧ h = s.hw.answer 0 ∧ cntValid v.toNat = true) ∧
    (∃ (s : State) (h : Hw) (v : Word) (a : Attr),
    s.hw.takes (GRN_CNT_CLR) a = true ∧ h = s.hw.answer 0 ∧ fld v.toNat 0 0 = 1 ∧ fld v.toNat 1 1 = 1 ∧ fld v.toNat 2 2 = 1) :=
  ⟨⟨⟨{}, []⟩, _, 0, _, _, _, _, secureTester, by decide +kernel, rfl, rfl, rfl, rfl, rfl, by decide +kernel⟩,
   ⟨⟨({} : Hw).setStrm 0 0 1 0x8000_0000, []⟩, _, 0, _, _, 0, secureTester, by decide +kernel, rfl, rfl, rfl, by decide +kernel, rfl, by decide +kernel⟩,
   ⟨⟨{}, []⟩, _, 0, _, _, secureTester, by decide +kernel, rfl, rfl, rfl, by decide +kernel⟩,
   ⟨⟨({} : Hw).setStrm 2 5 0 0x8000_0000, []⟩, _, 5, rfl, by decide +kernel⟩,
   ⟨⟨{}, []⟩, _, 0, secureTester, by decide +kernel, rfl, by decide +kernel⟩,
   ⟨⟨{}, []⟩, _, 7, secureTester, by decide +kernel, rfl, by decide +kernel⟩⟩

theorem witness_SwitchCommandsComplete_5 :
    ∃ (s : State) (h : Hw) (v : Word) (a : Attr),
    s.hw.takes (LOFT_CNT_CLR) a = true ∧ h = s.hw.answer 0 ∧ fld v.toNat 0 0 = 1 :=
  ⟨⟨{}, []⟩, _, 1, secureTester, by decide +kernel, rfl, by decide +kernel⟩

theorem witness_PortCommandsComplete_1 :
    (∃ (s : State) (h : Hw) (p : Fin 36) (v : Word) (a : Attr),
    s.hw.takes (at_ (pgETH p) 0x160) a = true ∧ h = s.hw.answer 0 ∧ h.ethRefuses p 0x160 (setFld v.toNat 31 31 1) = none) ∧
    (∃ (s : State) (h : Hw) (p : Fin 36) (v : Word) (a : Attr),
    s.hw.takes (at_ (pgETH p) 0x104) a = true ∧ h = s.hw.answer 0 ∧ h.ethRefuses p 0x104 (setFld v.toNat 26 26 1) = none) ∧
    (∃ (s : State) (h : Hw) (p : Fin 36) (data : BitVec 16),
    h = s.hw ∧ h.bit (ETH_MDIO p) 31 = true) ∧
    (∃ (s : State) (h : Hw) (p : Fin 36) (res : Fin 4) (dist : BitVec 8),
    h = s.hw ∧ h.bit (ETH_PHY_STAT p) 30 = true) ∧
    (∃ (s : State) (h : Hw) (p : Fin 36) (sqi : Fin 8) (n : Nat) (g : Hw),
    h = s.hw ∧ g = h.put (ETH_PHY_STAT p) 2 0 sqi ∧ 4 ≤ p.val ∧ p.val < 28 ∧ h.bit (ETH_PHY_STAT p) 31 = true ∧ (h.port p).sqiAt + 1_200_000 ≤ h.now ∧ (n = if sqi.val < g.get (ETH_PHY p) 23 20 then (g.port p).lowSqi + 1 else 0)) ∧
    (∃ (s : State) (h : Hw) (p : Fin 36) (id : BitVec 8) (x : PortSt) (n : Nat),
    h = s.hw ∧ x = h.port p ∧ n = h.get (ETH_PLCA p) 19 16 ∧ 28 ≤ p.val ∧ h.live (pgETH p) = true ∧ h.bit (ETH_CFG p) 31 = true ∧ h.bit (ETH_PLCA p) 31 = true ∧ h.get (ETH_PLCA p) 26 24 = 0 ∧ id.toNat = x.plca) :=
  ⟨⟨⟨{}, []⟩, _, 1, 0, secureTester, by decide +kernel, rfl, by decide +kernel⟩,
   ⟨⟨{}, []⟩, _, 5, 0, secureTester, by decide +kernel, rfl, by decide +kernel⟩,
   ⟨⟨({} : Hw).put (ETH_MDIO 1) 31 31 1, []⟩, _, 1, 7, rfl, by decide +kernel⟩,
   ⟨⟨({} : Hw).put (ETH_PHY_STAT 5) 30 30 1, []⟩, _, 5, 1, 7, rfl, by decide +kernel⟩,
   ⟨⟨{ ({} : Hw).put (ETH_PHY_STAT 5) 31 31 1 with now := 2 ^ 60 }, []⟩, _, 5, 3, _, _, rfl, rfl, by decide +kernel, by decide +kernel, by decide +kernel, by decide +kernel, rfl⟩,
   ⟨⟨(({} : Hw).put (ETH_CFG 30) 31 31 1).put (ETH_PLCA 30) 31 31 1, []⟩, _, 30, 0, _, _, rfl, rfl, rfl, by decide +kernel⟩⟩

theorem witness_PortCommandsComplete_2 :
    (∃ (s : State) (h : Hw) (p : Fin 36) (id : BitVec 8),
    h = s.hw ∧ 28 ≤ p.val ∧ h.live (pgETH p) = true ∧ h.bit (ETH_CFG p) 31 = true ∧ h.bit (ETH_PLCA p) 31 = true ∧ h.get (ETH_PLCA p) 26 24 ≠ 0) ∧
    (∃ (s : State) (h : Hw) (p : Fin 36) (f : TxFrame) (g : Hw) (x : Hw),
    h = s.hw ∧ (g = ((h.touch p).ethCount p 12).raiseIf ((h.touch p).bit (ETH_PLCA p) 31 && (match ((h.touch p).port p).lastColl with | some t => decide (120_000_000 ≤ (h.touch p).now - t) | none => true)) (pgETH p) 7) ∧ x = g.setPort p { g.port p with lastColl := some g.now } ∧ (h.port p).tx = some f ∧ 28 ≤ p.val ∧ f.tries < 16) ∧
    (∃ (s : State) (h : Hw) (c : CueRef) (v : Nat),
    s.hw.cueActs c 0x10 v = true ∧ h = s.hw.cueFired c.idx ∧ fld (cueArg (h.cueOf c)) 21 16 < 36) ∧
    (∃ (s : State) (h : Hw) (c : CueRef) (v : Nat),
    s.hw.cueActs c 0x11 v = true ∧ h = s.hw.cueFired c.idx ∧ fld (cueArg (h.cueOf c)) 21 16 < 12) ∧
    (∃ (s : State) (h : Hw) (p : Fin 36),
    h = s.hw ∧ p.val < 12 ∧ h.get (ETH_PMAC p) 10 8 = 1 ∧ (h.port p).verifyAt + 1_200_000 * h.get (ETH_PMAC p) 23 16 ≤ h.now) ∧
    (∃ (s : State) (h : Hw) (v : Word) (t i : Nat) (a : Attr),
    s.hw.takes (MSEC_CMD) a = true ∧ h = s.hw.answer 0 ∧ t = fld v.toNat 23 22 ∧ i = fld v.toNat 13 0 ∧ i < secSize t ∧ h.tableBusy MSEC_CMD = false) :=
  ⟨⟨⟨((({} : Hw).put (ETH_CFG 30) 31 31 1).put (ETH_PLCA 30) 31 31 1).put (ETH_PLCA 30) 26 24 2, []⟩, _, 30, 2, rfl, by decide +kernel⟩,
   ⟨⟨({} : Hw).setPort 30 { tx := some { desc := 0, cls := 3, wire := [], start := 0 } }, []⟩, _, 30, { desc := 0, cls := 3, wire := [], start := 0 }, _, _, rfl, rfl, rfl, by decide +kernel⟩,
   ⟨⟨cueTester 0x10 0x5_00FF, []⟩, _, ⟨7⟩, 0, by decide +kernel, rfl, by decide +kernel⟩,
   ⟨⟨cueTester 0x11 0x5_0001, []⟩, _, ⟨7⟩, 0, by decide +kernel, rfl, by decide +kernel⟩,
   ⟨⟨{ ({} : Hw).put (ETH_PMAC 5) 10 8 1 with now := 2 ^ 60 }, []⟩, _, 5, rfl, by decide +kernel⟩,
   ⟨⟨{}, []⟩, _, 0, _, _, secureTester, by decide +kernel, rfl, rfl, rfl, by decide +kernel⟩⟩

theorem witness_PortCommandsComplete_3 :
    (∃ (s : State) (h : Hw) (v : Word) (t i : Nat) (a : Attr),
    s.hw.takes (MSEC_CMD) a = true ∧ h = s.hw.answer 0 ∧ t = fld v.toNat 23 22 ∧ i = fld v.toNat 13 0 ∧ i < secSize t ∧ (s.hw.secRefuses t i (fun w => s.hw.rd (MSEC_DATA w)) = none) ∧ h.tableBusy MSEC_CMD = false) ∧
    (∃ (s : State) (h : Hw) (v : Word) (t i : Nat) (a : Attr),
    s.hw.takes (MSEC_CMD) a = true ∧ h = s.hw.answer 0 ∧ t = fld v.toNat 23 22 ∧ i = fld v.toNat 13 0 ∧ i < secSize t ∧ h.tableBusy MSEC_CMD = false) ∧
    (∃ (s : State) (h : Hw) (i : Fin 4) (v : Word) (g : Hw) (x : PtpSt) (a : Attr),
    s.hw.takes (ETH_PTPI_CFG 0 i) a = true ∧ h = s.hw.answer 0 ∧ g = h.storeReg (ETH_PTPI_CFG 0 i) v.toNat ∧ x = { g.ptp i with time := g.ptpTime i, at_ := g.now, good := 0, seen := false, sentAt := none } ∧ fld v.toNat 31 31 = 1 ∧ fld v.toNat 23 16 ≤ 127 ∧ (fld v.toNat 15 8 = 0 ∨ 0xF9 ≤ fld v.toNat 15 8) ∧ (fld v.toNat 7 0 ≤ 3 ∨ 0xFD ≤ fld v.toNat 7 0) ∧ ((h.ptpPorts i 2).length = 1 ∧ fld v.toNat 30 30 = 0 ∨ h.ptpPorts i 2 = [] ∧ fld v.toNat 30 30 = 1) ∧ h.ptpOn i = false) ∧
    (∃ (s : State) (h : Hw) (i : Fin 4) (offset : Int) (time corr : Nat) (p : Nat) (g : Hw),
    h = s.hw ∧ p = h.get (ETH_PTPI_STAT 0 i) 29 24 ∧ (g = (h.ethCount p 14).setPtp i { h.ptp i with time := time, at_ := h.now, corr := corr, good := if offset.natAbs ≤ 100 then min 8 ((h.ptp i).good + 1) else 0, seen := true }) ∧ h.ptpOn i = true ∧ p ≠ 0x3F ∧ h.bit (ETH_PHY_STAT p) 31 = true ∧ h.asCapable p = true) ∧
    (∃ (s : State) (h : Hw) (i : Fin 4) (ratio : Ratio) (g : Hw),
    h = s.hw ∧ g = h.setPtp i { h.ptp i with sentAt := some h.now, good := min 8 ((h.ptp i).good + 1) } ∧ h.ptpOn i = true ∧ h.bit (ETH_PTPI_CFG 0 i) 30 = true ∧ ((h.ptp i).sentAt.any (fun t => decide (h.now < t + h.syncCycles i)) = false)) ∧
    (∃ (s : State) (h : Hw) (i : Fin 4) (ratio : Ratio) (x : PtpSt) (g : Hw) (d : Nat) (stay : Nat),
    h = s.hw ∧ x = h.ptp i ∧ g = h.setPtp i { x with seen := false } ∧ d = g.linkDelay (g.get (ETH_PTPI_STAT 0 i) 29 24) ∧ stay = (g.now - x.at_) * 5 / 6 ∧ h.ptpOn i = true ∧ h.bit (ETH_PTPI_CFG 0 i) 30 = false ∧ x.seen = true ∧ stay ≤ 1_000_000) :=
  ⟨⟨⟨{}, []⟩, _, 0, _, _, secureTester, by decide +kernel, rfl, rfl, rfl, by decide +kernel⟩,
   ⟨⟨{}, []⟩, _, 0, _, _, secureTester, by decide +kernel, rfl, rfl, rfl, by decide +kernel⟩,
   ⟨⟨{}, []⟩, _, 1, 0xC000_0000, _, _, secureTester, by decide +kernel, rfl, rfl, rfl, by decide +kernel⟩,
   ⟨⟨(((((({} : Hw).put (ETH_PTPI_CFG 0 1) 31 31 1).put (ETH_PTPI_STAT 0 1) 29 24 5).put (ETH_PHY_STAT 5) 31 31 1).put (ETH_PTP 5) 12 12 1)).setPort 5 { pdelay := 100, pdelayGood := 2 }, []⟩, _, 1, 5, 0, 0, _, _, rfl, rfl, rfl, by decide +kernel⟩,
   ⟨⟨(({} : Hw).put (ETH_PTPI_CFG 0 1) 31 30 3), []⟩, _, 1, ⟨1, 1⟩, _, rfl, rfl, by decide +kernel⟩,
   ⟨⟨(({} : Hw).put (ETH_PTPI_CFG 0 1) 31 30 2).setPtp 1 { seen := true }, []⟩, _, 1, ⟨1, 1⟩, _, _, _, _, rfl, rfl, rfl, rfl, rfl, by decide +kernel⟩⟩

theorem witness_PortCommandsComplete_4 :
    (∃ (s : State) (h : Hw) (i : Fin 4),
    h = s.hw ∧ h.ptpOn i = true ∧ h.syncLate i = true) ∧
    (∃ (s : State) (h : Hw) (p : Fin 36) (delay : Nat),
    h = s.hw ∧ h.bit (ETH_PHY_STAT p) 31 = true ∧ h.bit (ETH_PTP p) 12 = false) ∧
    (∃ (s : State) (h : Hw) (p : Fin 36),
    h = s.hw ∧ h.tc10In p 0 = true ∧ h.sleepPermitted p = true) ∧
    (∃ (s : State) (h : Hw) (p : Fin 36),
    h = s.hw ∧ h.tc10In p 1 = true ∧ h.sleepWaits p = false) ∧
    (∃ (s : State) (h : Hw) (p : Fin 36),
    h = s.hw ∧ (h.tc10In p 0 = true ∨ h.tc10In p 1 = true)) ∧
    (∃ (s : State) (h : Hw) (p : Fin 36),
    h = s.hw ∧ h.tc10In p 1 = true ∧ h.sleepWaits p = true) :=
  ⟨⟨⟨{ ({} : Hw).put (ETH_PTPI_CFG 0 1) 31 31 1 with now := 2 ^ 60 }, []⟩, _, 1, rfl, by decide +kernel⟩,
   ⟨⟨({} : Hw).put (ETH_PHY_STAT 5) 31 31 1, []⟩, _, 5, 300, rfl, by decide +kernel⟩,
   ⟨⟨((({} : Hw).wr (ETH_TC10 5) 0x8000_0000).put (NMU_CH 0 7) 1 1 1).put (NMU_STATE 0) 3 0 nmCommit, []⟩, _, 5, rfl, by decide +kernel⟩,
   ⟨⟨{ ({} : Hw).wr (ETH_TC10 5) 0x8000_0001 with now := 2 ^ 60 }, []⟩, _, 5, rfl, by decide +kernel⟩,
   ⟨⟨((({} : Hw).wr (ETH_TC10 5) 0x8000_0000).put (NMU_CH 0 7) 1 1 1).put (NMU_STATE 0) 3 0 nmCommit, []⟩, _, 5, rfl, by decide +kernel⟩,
   ⟨⟨{ ({} : Hw).wr (ETH_TC10 5) 0x8000_0A01 with nmu := { asked := [(5, 0)] } }, []⟩, _, 5, rfl, by decide +kernel⟩⟩

theorem witness_PortCommandsComplete_5 :
    (∃ (s : State) (h : Hw) (p : Fin 36) (w fwd : Nat) (g : Hw) (r : Hw),
    h = s.hw ∧ (g = if fld w 2 0 = 1 then h.put (ETH_TC10 p) 2 0 0 else if fld w 2 0 = 2 then h.put (ETH_TC10 p) 2 0 3 else h) ∧ r = (g.raise (pgETH p) 5).nmWake 4 ((g.raise (pgETH p) 5).chOfTc10 p) p ∧ 4 ≤ p.val ∧ p.val < 28 ∧ h.live (pgETH p) = true ∧ w = h.rd (ETH_TC10 p) ∧ fwd = h.rd (ETH_TC10_FWD p) ∧ fld w 31 31 ≠ 0) ∧
    (∃ (s : State) (h : Hw) (p : Fin 36) (w fwd : Nat) (r : Hw),
    h = s.hw ∧ r = h.nmWake 4 (h.chOfTc10 p) p ∧ 4 ≤ p.val ∧ p.val < 28 ∧ h.live (pgETH p) = false ∧ find? h.nmu.tc10 p.val = some (w, fwd) ∧ fld w 31 31 ≠ 0) ∧
    (∃ (s : State) (h : Hw) (p : Fin 36),
    h = s.hw ∧ p.val < 12 ∧ h.get (ETH_PMAC p) 10 8 = 1) ∧
    (∃ (s : State) (h : Hw) (p : Fin 36) (v : Word) (a : Attr),
    s.hw.takes (ETH_CNT_CLR p) a = true ∧ h = s.hw.answer 0 ∧ h.ethRefuses p 0x17C v.toNat = none) :=
  ⟨⟨⟨({} : Hw).wr (ETH_TC10 5) 0x8000_0001, []⟩, _, 5, _, _, _, _, rfl, rfl, rfl, by decide +kernel, by decide +kernel, by decide +kernel, rfl, rfl, by decide +kernel⟩,
   ⟨⟨{ ({} : Hw).wr PWR_STATE 0 with nmu := { tc10 := [(5, (0x8000_0000, 0))] } }, []⟩, _, 5, 0x8000_0000, 0, _, rfl, rfl, by decide +kernel, by decide +kernel, by decide +kernel, rfl, by decide +kernel⟩,
   ⟨⟨({} : Hw).put (ETH_PMAC 5) 10 8 1, []⟩, _, 5, rfl, by decide +kernel⟩,
   ⟨⟨{}, []⟩, _, 5, 0, secureTester, by decide +kernel, rfl, by decide +kernel⟩⟩

theorem witness_CanAndLinCommandsComplete_1 :
    (∃ (s : State) (h : Hw) (n : Fin 16) (f : CanFrame) (k : Hw) (g : Hw),
    h = s.hw ∧ k = h.canLapse n ∧ g = ((k.recDown n).notAlone n).canCount n 1 ∧ k.canOn n = true ∧ (k.can n).ignore = false ∧ (f.fmt : Nat) ≤ k.get (CAN_CFG n) 31 30) ∧
    (∃ (s : State) (h : Hw) (n : Fin 16) (r : RxFrame) (rs : List RxFrame) (g : Hw) (x : Hw) (y : Hw),
    h = s.hw ∧ g = (h.setCan n { h.can n with rx := rs }).setObjData n r.obj r.frame.data ((h.setCan n { h.can n with rx := rs }).objCap n r.obj) ∧ x = ((((((g.put (CAN_OBJ n r.obj 1) 31 30 r.frame.fmt.val).putBit (CAN_OBJ n r.obj 1) 29 r.frame.brs).put (CAN_OBJ n r.obj 1) 10 0 r.frame.dlc.toNat).put (CAN_OBJ n r.obj 3) 23 16 r.frame.sdt.toNat).put (CAN_OBJ n r.obj 3) 15 8 r.frame.vcid.toNat).putBit (CAN_OBJ n r.obj 3) 0 r.frame.sec) ∧ (y = (((x.wr (CAN_OBJ n r.obj 4) r.frame.af.toNat).wr (CAN_OBJ n r.obj 7) r.ts).wr (CAN_OBJ n r.obj 8) ((if r.frame.ide then 2 ^ 29 else 0) + r.frame.id.toNat))) ∧ (h.can n).rx = r :: rs ∧ r.fv = none) ∧
    (∃ (s : State) (h : Hw) (n : Nat) (o : Nat) (c : CueRef) (v : Nat),
    s.hw.cueActs c 0x20 v = true ∧ h = s.hw.cueFired c.idx ∧ n = fld (cueArg (h.cueOf c)) 11 8 ∧ o = fld (cueArg (h.cueOf c)) 6 0 ∧ h.objValid n o = true ∧ h.objTx n o = true ∧ h.bit (CAN_OBJ n o 6) 22 = false ∧ h.objPending n o = false) ∧
    (∃ (s : State) (h : Hw) (n : Fin 16) (v : Word) (o : Nat) (a : Attr),
    s.hw.takes (CAN_TXREQ n) a = true ∧ h = s.hw.answer 0 ∧ o = fld v.toNat 6 0 ∧ h.objValid n o = true ∧ h.objTx n o = true ∧ h.bit (CAN_OBJ n o 6) 22 = false ∧ h.objPending n o = false) ∧
    (∃ (s : State) (h : Hw) (n : Fin 16) (o : Fin 128),
    h = s.hw ∧ h.objPending n o = true ∧ h.objAuth n o = true ∧ (h.can n).ready.contains o.val = false) ∧
    (∃ (s : State) (h : Hw) (n : Fin 16) (won : Bool) (o : Nat) (g : Hw),
    h = s.hw ∧ (g = ((List.range 128).filter (fun o => h.objPending n o && h.objAuth n o && !h.objKeyOk n o)).foldl (fun (h : Hw) o => h.objRevoked n o) h) ∧ h.canOn n = true ∧ h.bit (CTRL (pgCAN n)) 0 = true ∧ h.canFrozen n = false ∧ (h.can n).tx = none ∧ g.offered n = some o) :=
  ⟨⟨⟨({} : Hw).putBit (STATUS (pgCAN 3)) 0 true, []⟩, _, 3, { id := 5, dlc := 0, data := [] }, _, _, rfl, rfl, rfl, by decide +kernel⟩,
   ⟨⟨({} : Hw).setCan 3 { rx := [{ obj := 4, frame := { id := 5, dlc := 0, data := [] }, ts := 0 }] }, []⟩, _, 3, { obj := 4, frame := { id := 5, dlc := 0, data := [] }, ts := 0 }, [], _, _, _, rfl, rfl, rfl, rfl, by decide +kernel⟩,
   ⟨⟨(cueTester 0x20 0x305).wr (CAN_OBJ 3 5 0) 0xC000_0000, []⟩, _, _, _, ⟨7⟩, 0, by decide +kernel, rfl, rfl, rfl, by decide +kernel⟩,
   ⟨⟨({} : Hw).wr (CAN_OBJ 3 5 0) 0xC000_0000, []⟩, _, 3, 5, _, secureTester, by decide +kernel, rfl, rfl, by decide +kernel⟩,
   ⟨⟨(({} : Hw).wr (CAN_OBJ 3 5 6) 0x8000_0000).wr (CAN_OBJ 3 5 1) 0x1000_0000, []⟩, _, 3, 5, rfl, by decide +kernel⟩,
   ⟨⟨(((({} : Hw).putBit (STATUS (pgCAN 3)) 0 true).putBit (CTRL (pgCAN 3)) 0 true).wr (CAN_OBJ 3 5 0) 0xC000_0000).wr (CAN_OBJ 3 5 6) 0x8000_0000, []⟩, _, 3, true, 5, _, rfl, rfl, by decide +kernel⟩⟩

theorem witness_CanAndLinCommandsComplete_2 :
    (∃ (s : State) (h : Hw) (n : Fin 16) (o : Nat) (f : CanFrame) (k : Hw) (r : Hw) (g : Hw) (x : Hw) (y : Hw),
    h = s.hw ∧ k = h.canLapse n ∧ r = (k.offBus n).unpend n o ∧ g = r.wr (CAN_OBJ n o 7) (r.tick32 (r.get (CAN_CFG n) 25 24)) ∧ x = ((g.canCount n 0).tecDown n).notAlone n ∧ y = x.setCan n { x.can n with again := false } ∧ (k.can n).tx = some (o, f)) ∧
    (∃ (s : State) (h : Hw) (n : Fin 16) (sending : Bool) (e : CanHap) (k : Hw),
    h = s.hw ∧ k = h.canLapse n ∧ k.bit (STATUS (pgCAN n)) 0 = true ∧ k.get (CAN_ERR n) 31 30 ≠ 2) ∧
    (∃ (s : State) (h : Hw) (n : Fin 16),
    h = s.hw ∧ h.bit (CTRL (pgCAN n)) 0 = true ∧ h.get (CAN_ERR n) 31 30 ≠ 2) ∧
    (∃ (s : State) (h : Hw) (n : Fin 16) (v : Word) (a : Attr),
    s.hw.takes (CAN_RECOV n) a = true ∧ h = s.hw.answer 0 ∧ fld v.toNat 31 31 = 1 ∧ h.get (CAN_ERR n) 31 30 = 2 ∧ (h.can n).counting = false ∧ h.bit (CTRL (pgCAN n)) 0 = true) ∧
    (∃ (s : State) (h : Hw) (n : Fin 16) (o : Fin 128),
    h = s.hw ∧ h.objPending n o = true ∧ h.get (CAN_OBJ n o 2) 15 0 ≠ 0 ∧ (find? (h.can n).pendAt o).getD 0 + 1_200_000 * h.get (CAN_OBJ n o 2) 15 0 ≤ h.now) ∧
    (∃ (s : State) (h : Hw) (n : Fin 16) (v : Word) (busy : Bool) (k : Hw) (g : Hw) (go : Bool) (x : Hw) (a : Attr),
    s.hw.takes (CTRL (pgCAN n)) a = true ∧ h = s.hw.answer 0 ∧ k = h.canLapse n ∧ g = ((k.putBit (CTRL (pgCAN n)) 0 false).put (CAN_RECOV n) 7 0 0).putBit (CAN_RECOV n) 31 false ∧ go = ((g.can n).tx.isSome || (busy && g.bit (STATUS (pgCAN n)) 0)) ∧ x = g.setCan n { g.can n with counting := false, waiting := false, stopping := go, stopBy := g.now + 256 * (15 * (bitTiming true (g.rd (CAN_NBT n))).1 / 2) } ∧ fld v.toNat 0 0 = 0 ∧ k.bit (CTRL (pgCAN n)) 0 = true) :=
  ⟨⟨⟨({} : Hw).setCan 3 { tx := some (5, { id := 5, dlc := 0, data := [] }) }, []⟩, _, 3, 5, { id := 5, dlc := 0, data := [] }, _, _, _, _, _, rfl, rfl, rfl, rfl, rfl, rfl, by decide +kernel⟩,
   ⟨⟨({} : Hw).putBit (STATUS (pgCAN 3)) 0 true, []⟩, _, 3, true, .dominant8, _, rfl, rfl, by decide +kernel⟩,
   ⟨⟨({} : Hw).putBit (CTRL (pgCAN 3)) 0 true, []⟩, _, 3, rfl, by decide +kernel⟩,
   ⟨⟨(({} : Hw).put (CAN_ERR 3) 31 30 2).putBit (CTRL (pgCAN 3)) 0 true, []⟩, _, 3, 0x8000_0000, secureTester, by decide +kernel, rfl, by decide +kernel⟩,
   ⟨⟨{ (({} : Hw).wr (CAN_OBJ 3 5 6) 0x8000_0000).wr (CAN_OBJ 3 5 2) 9 with now := 2 ^ 60 }, []⟩, _, 3, 5, rfl, by decide +kernel⟩,
   ⟨⟨({} : Hw).putBit (CTRL (pgCAN 3)) 0 true, []⟩, _, 3, 0, false, _, _, _, _, secureTester, by decide +kernel, rfl, rfl, rfl, rfl, rfl, by decide +kernel⟩⟩

theorem witness_CanAndLinCommandsComplete_3 :
    (∃ (s : State) (h : Hw) (n : Fin 16) (v : Word) (k : Hw) (a : Attr),
    s.hw.takes (CTRL (pgCAN n)) a = true ∧ h = s.hw.answer 0 ∧ k = h.canLapse n ∧ fld v.toNat 0 0 = 1 ∧ k.bit (CTRL (pgCAN n)) 0 = false ∧ ((List.range 128).any (fun o => k.objValid n o && decide (k.get (CAN_CFG n) 31 30 < k.objFmt n o)) = false)) ∧
    (∃ (s : State) (h : Hw) (n : Fin 16) (o : Fin 128) (w : Fin 16) (v : Word) (g : Hw) (a : Attr),
    s.hw.takes (CAN_OBJ n o w) a = true ∧ h = s.hw.answer 0 ∧ g = (h.storeReg (CAN_OBJ n o w) v.toNat).objTrim n o ∧ (w.val ≤ 5 → h.objPending n o = false ∧ h.objMapped n o = false) ∧ (w.val = 0 ∨ w.val = 1 ∨ w.val = 5 → g.objBad n o = false) ∧ (w.val = 1 ∨ w.val = 3 → g.objAuth n o = true → g.objKeyOk n o = true)) ∧
    (∃ (s : State) (h : Hw) (n : Fin 16) (v : Word) (a : Attr),
    s.hw.takes (CAN_CNT_CLR n) a = true ∧ h = s.hw.answer 0) ∧
    (∃ (s : State) (h : Hw) (l : Nat) (e : Nat) (c : CueRef) (v : Nat),
    s.hw.cueActs c 0x28 v = true ∧ h = s.hw.cueFired c.idx ∧ l = fld (cueArg (h.cueOf c)) 10 8 ∧ e = fld (cueArg (h.cueOf c)) 7 0 ∧ h.bit (CTRL (pgLIN l)) 0 = true ∧ h.bit (LIN_CFG l) 31 = true ∧ h.bit (LIN_SCH l e) 31 = true ∧ h.nmu.linAsleep.contains l = false ∧ (h.linFrame l).isSome = false) ∧
    (∃ (s : State) (h : Hw) (l : Fin 8) (fid : Fin 64) (f : Nat),
    h = s.hw ∧ h.bit (CTRL (pgLIN l)) 0 = true ∧ h.bit (LIN_CFG l) 31 = false ∧ ((List.range 64).find? (fun f => h.bit (LIN_RSP l f) 31 && decide (h.get (LIN_RSP l f) 5 0 = fid.val)) = some f)) ∧
    (∃ (s : State) (h : Hw) (l : Fin 8) (r : LinSeen) (f : LinFrame) (d : List Byte) (g : Hw) (x : Hw) (y : Hw),
    h = s.hw ∧ d = r.bytes.take f.len ∧ (g = (h.linEnd l).linStatus l f (if (h.linEnd l).bit (LIN_BUF_ST l f.buf) 31 then 8 else 0)) ∧ x = (g.wr (LIN_BUF_DLO l f.buf) (leNat (slice d 0 4))).wr (LIN_BUF_DHI l f.buf) (leNat (slice d 4 4)) ∧ y = { x with zone := { x.zone with linRx := x.zone.linRx.set (64 * l + f.buf) f.fid } } ∧ h.linFrame l = some f ∧ r.readBack = false ∧ f.pub = false ∧ r.bytes ≠ [] ∧ r.framing = false ∧ r.bytes.length = f.len + 1 ∧ (r.bytes.getD f.len 0).toNat = linChecksum f.enh f.fid d) :=
  ⟨⟨⟨{}, []⟩, _, 3, 1, _, secureTester, by decide +kernel, rfl, rfl, by decide +kernel⟩,
   ⟨⟨{}, []⟩, _, 3, 5, 2, 7, _, secureTester, by decide +kernel, rfl, rfl, by decide +kernel⟩,
   ⟨⟨{}, []⟩, _, 3, 2, secureTester, by decide +kernel, rfl⟩,
   ⟨⟨(((cueTester 0x28 0x102).putBit (CTRL (pgLIN 1)) 0 true).putBit (LIN_CFG 1) 31 true).putBit (LIN_SCH 1 2) 31 true, []⟩, _, _, _, ⟨7⟩, 0, by decide +kernel, rfl, rfl, rfl, by decide +kernel⟩,
   ⟨⟨((({} : Hw).putBit (CTRL (pgLIN 2)) 0 true).wr (LIN_CFG 2) 0).wr (LIN_RSP 2 1) 0x8000_0007, []⟩, _, 2, 7, 1, rfl, by decide +kernel⟩,
   ⟨⟨{ zone := { lins := [(2, { buf := 1, len := 1, pub := false, enh := false, typ := 0, fid := 7, data := [] })] } }, []⟩, _, 2, { bytes := [1, 0xFE] }, { buf := 1, len := 1, pub := false, enh := false, typ := 0, fid := 7, data := [] }, _, _, _, _, rfl, rfl, rfl, rfl, rfl, by decide +kernel⟩⟩

theorem witness_RemoteStationAndTunnelCommandsComplete_1 :
    (∃ (s : State) (h : Hw) (dst src : BitVec 48) (b : List Byte) (n : Nat),
    h = s.hw ∧ n = (b.getD 1 0).toNat ∧ h.bit (CTRL pgRIO) 0 = true ∧ h.stnEn n = true ∧ h.stnCan n = false ∧ dst.toNat = 2 ^ 32 * h.get RIO_MAC_HI 15 0 + h.rd RIO_MAC_LO ∧ (h.bit (RIO_STN n 0) 27 = true → src.toNat = 2 ^ 32 * h.get (RIO_STN n 3) 15 0 + h.rd (RIO_STN n 2))) ∧
    (∃ (s : State) (h : Hw) (n : Fin 256) (k o : Nat) (d : List Byte) (g : Hw),
    h = s.hw ∧ g = (h.putBit (CAN_OBJ k o 6) 30 false).putBit (CAN_OBJ k o 6) 29 false ∧ k = h.get (RIO_STN n 4) 27 24 ∧ o = h.get (RIO_STN n 4) 14 8 ∧ d = slice (h.objData k o) 0 (canLen (h.objFmt k o) (h.objDlc k o)) ∧ h.bit (CTRL pgRIO) 0 = true ∧ h.stnEn n = true ∧ h.stnCan n = true ∧ h.bit (CAN_OBJ k o 6) 30 = true ∧ h.bit (CAN_OBJ k o 6) 29 = false ∧ fld (d.getD 0 0).toNat 7 7 = 1) ∧
    (∃ (s : State) (h : Hw) (n : Nat) (c : CueRef) (v : Nat),
    s.hw.cueActs c 0x30 v = true ∧ h = s.hw.cueFired c.idx ∧ n = fld (cueArg (h.cueOf c)) 7 0 ∧ h.bit (CTRL pgRIO) 0 = true ∧ h.stnEn n = true ∧ h.bit (RIO_STN n 0) 29 = true) ∧
    (∃ (s : State) (h : Hw) (n : Nat) (c : CueRef) (v : Nat),
    s.hw.cueActs c 0x31 v = true ∧ h = s.hw.cueFired c.idx ∧ n = fld (cueArg (h.cueOf c)) 7 0 ∧ h.bit (CTRL pgRIO) 0 = true ∧ h.stnEn n = true ∧ h.bit (RIO_STN n 0) 28 = true ∧ h.stnState n = 2) ∧
    (∃ (s : State) (h : Hw) (n : Fin 256) (o : OutSheaf),
    h = s.hw ∧ (h.stn n).out = some o ∧ h.bit (RIO_STN n 0) 28 = false ∧ h.stnEn n = true ∧ h.bit (CTRL pgRIO) 0 = true) ∧
    (∃ (s : State) (h : Hw) (n : Fin 256),
    h = s.hw ∧ h.stnCan n = true) :=
  ⟨⟨⟨(({} : Hw).putBit (CTRL pgRIO) 0 true).wr (RIO_STN 3 0) 0x8000_0000, []⟩, _, 0, 0, [0x11, 3], _, rfl, rfl, by decide +kernel⟩,
   ⟨⟨((((({} : Hw).putBit (CTRL pgRIO) 0 true).wr (RIO_STN 3 0) 0xC000_0000).wr (CAN_OBJ 0 0 5) 8).setObjData 0 0 [0x80, 7] 8).wr (CAN_OBJ 0 0 6) 0x4000_0000 |>.wr (CAN_OBJ 0 0 1) 2, []⟩, _, 3, _, _, _, _, rfl, rfl, rfl, rfl, rfl, by decide +kernel⟩,
   ⟨⟨((cueTester 0x30 5).putBit (CTRL pgRIO) 0 true).wr (RIO_STN 5 0) 0xB000_0000, []⟩, _, _, ⟨7⟩, 0, by decide +kernel, rfl, rfl, by decide +kernel⟩,
   ⟨⟨((cueTester 0x31 5).putBit (CTRL pgRIO) 0 true).wr (RIO_STN 5 0) 0xB000_0000 |>.wr (RIO_ST 5 0) 0x2000_0000, []⟩, _, _, ⟨7⟩, 0, by decide +kernel, rfl, rfl, by decide +kernel⟩,
   ⟨⟨((({ zone := { stns := [(3, { out := some { payload := [], seq := 0, ref := 0, alive := 0, safe := false, unchecked := false } })] } } : Hw).setStnState 3 2).putBit (CTRL pgRIO) 0 true).wr (RIO_STN 3 0) 0x8000_0000, []⟩, _, 3, { payload := [], seq := 0, ref := 0, alive := 0, safe := false, unchecked := false }, rfl, by decide +kernel⟩,
   ⟨⟨({} : Hw).wr (RIO_STN 3 0) 0xC000_0000, []⟩, _, 3, rfl, by decide +kernel⟩⟩

theorem witness_RemoteStationAndTunnelCommandsComplete_2 :
    (∃ (s : State) (h : Hw) (n : Fin 256) (v : Word) (g : Hw) (a : Attr),
    s.hw.takes (RIO_STN n 0) a = true ∧ h = s.hw.answer 0 ∧ g = h.storeReg (RIO_STN n 0) v.toNat ∧ h.rioRefuses n 0 v.toNat = none ∧ h.stnEn n = false ∧ g.stnEn n = true) ∧
    (∃ (s : State) (h : Hw) (v : Word) (a : Attr),
    s.hw.takes (RIO_CNT_CLR) a = true ∧ h = s.hw.answer 0) ∧
    (∃ (s : State) (h : Hw) (r : Fin 256),
    h = s.hw ∧ (h.route r).since + 1200 * h.get (TUN_RT r 7) 23 16 ≤ h.now) ∧
    (∃ (s : State) (h : Hw) (b : List Byte) (rs : List Nat) (g : Hw),
    h = s.hw ∧ (g = rs.foldl (fun (h : Hw) r => h.rtSeq r (b.getD 3 0).toNat) h) ∧ (rs = (List.range 256).filter (fun r => h.rtEn r && decide (h.rtDir r = 1) && decide (h.rtStream r = beNat (slice b 4 8)))) ∧ h.bit (CTRL pgTUN) 0 = true ∧ (b.getD 0 0).toNat = 0x82) ∧
    (∃ (s : State) (h : Hw) (r : Fin 256) (o : Fin 128),
    h = s.hw ∧ ((h.route r).sched.any (fun e => e.1 == o.val && (!h.tc0Timed || decide (sgn 64 (e.2 + 2 ^ 64 - h.tc0Ns % 2 ^ 64) ≤ 0))) = true)) ∧
    (∃ (s : State) (h : Hw) (v : Word) (a : Attr),
    s.hw.takes (TUN_CNT_CLR) a = true ∧ h = s.hw.answer 0) :=
  ⟨⟨⟨{}, []⟩, _, 3, 0x8000_0100, _, secureTester, by decide +kernel, rfl, rfl, by decide +kernel⟩,
   ⟨⟨{}, []⟩, _, 2, secureTester, by decide +kernel, rfl⟩,
   ⟨⟨{ zone := { routes := [(3, { msgs := [[1, 2, 3, 4]] })] }, now := 2 ^ 60 }, []⟩, _, 3, rfl, by decide +kernel⟩,
   ⟨⟨({} : Hw).putBit (CTRL pgTUN) 0 true, []⟩, _, [0x82], _, _, rfl, rfl, rfl, by decide +kernel⟩,
   ⟨⟨({} : Hw).setRoute 3 { sched := [(5, 1)] }, []⟩, _, 3, 5, rfl, by decide +kernel⟩,
   ⟨⟨{}, []⟩, _, 2, secureTester, by decide +kernel, rfl⟩⟩

theorem witness_NetworkManagementCommandsComplete_1 :
    (∃ (s : State) (h : Hw) (c : Fin 24) (v : Word) (g : Hw) (a : Attr),
    s.hw.takes (NMU_CH c 0) a = true ∧ h = s.hw.answer 0 ∧ g = h.storeReg (NMU_CH c 0) v.toNat ∧ fld v.toNat 15 8 ≠ 0 ∧ (fld v.toNat 30 30 = 1 → c.val ≤ 11) ∧ (fld v.toNat 31 31 = 1 → nmOnCan c = true → h.nmObjOk c = true) ∧ h.bit (NMU_CH c 0) 31 = false ∧ g.bit (NMU_CH c 0) 31 = true) ∧
    (∃ (s : State) (h : Hw) (v : Word) (a : Attr),
    s.hw.takes (NMU_VOTE) a = true ∧ h = s.hw.answer 0) ∧
    (∃ (s : State) (h : Hw) (c : Fin 24) (data : List Byte) (cbv : Nat) (w : Nat) (k : Hw) (g : Hw),
    h = s.hw ∧ w = h.rd (NMU_CH c 1) ∧ k = h.kaCredit c (data.getD (fld w 22 20) 0).toNat cbv ∧ g = k.nmRestart c (h.pnRequest c data) ∧ cbv = (data.getD (fld w 18 16) 0).toNat ∧ h.pdOn 17 = true ∧ (h.nmState c ≠ nmOff ∧ h.nmState c ≠ nmSleep ∧ h.nmState c ≠ nmPartial) ∧ (max (max (fld w 22 20 + 1) (fld w 18 16 + 1)) (if fld w 10 8 = 0 then 0 else fld w 14 12 + fld w 10 8) ≤ data.length)) ∧
    (∃ (s : State) (h : Hw) (c : Fin 24) (g : Hw),
    h = s.hw ∧ g = h.setNmCh c { h.nmCh c with due := false, nmAt := h.now } ∧ (h.nmCh c).due = true ∧ h.pdOn 17 = true ∧ (h.nmState c = nmRepeat ∨ h.nmState c = nmAwake)) ∧
    (∃ (s : State) (h : Hw) (c : Fin 24),
    h = s.hw ∧ h.nmState c = nmRepeat ∧ h.msSince (h.nmCh c).at_ (h.get (NMU_CH c 4) 15 0) = true) ∧
    (∃ (s : State) (h : Hw) (c : Fin 24),
    h = s.hw ∧ h.nmState c = nmReady ∧ h.msSince (h.nmCh c).nmAt (h.get (NMU_CH c 4) 31 16) = true) :=
  ⟨⟨⟨{}, []⟩, _, 20, 0x8000_0100, _, secureTester, by decide +kernel, rfl, rfl, by decide +kernel⟩,
   ⟨⟨{}, []⟩, _, 1, secureTester, by decide +kernel, rfl⟩,
   ⟨⟨({} : Hw).put (NMU_STATE 0) 3 0 nmReady, []⟩, _, 0, [0, 0, 0, 0, 0, 0, 0, 0], _, _, _, _, rfl, rfl, rfl, rfl, rfl, by decide +kernel⟩,
   ⟨⟨(({} : Hw).put (NMU_STATE 0) 3 0 nmAwake).setNmCh 0 { due := true }, []⟩, _, 0, _, rfl, rfl, by decide +kernel⟩,
   ⟨⟨{ ({} : Hw).put (NMU_STATE 0) 3 0 nmRepeat with now := 2 ^ 60 }, []⟩, _, 0, rfl, by decide +kernel⟩,
   ⟨⟨{ ({} : Hw).put (NMU_STATE 0) 3 0 nmReady with now := 2 ^ 60 }, []⟩, _, 0, rfl, by decide +kernel⟩⟩

theorem witness_NetworkManagementCommandsComplete_2 :
    (∃ (s : State) (h : Hw) (c : Fin 24),
    h = s.hw ∧ h.nmState c = nmReady ∧ h.bit (NMU_CH c 0) 30 = true ∧ h.nmVote c = false ∧ h.msSince (h.nmCh c).pnAt (h.get (NMU_CH c 5) 15 0) = true) ∧
    (∃ (s : State) (h : Hw) (c : Fin 24),
    h = s.hw ∧ h.nmState c = nmPrepare ∧ h.msSince (h.nmCh c).at_ (h.get (NMU_CH c 5) 31 16) = true) ∧
    (∃ (s : State) (h : Hw) (c : Fin 24) (g : Hw) (ls : List Nat) (x : Hw) (y : Hw),
    h = s.hw ∧ g = (h.nmEnter c nmSleep).raise pgNMU 2 ∧ (ls = (List.range 8).filter (fun l => g.bit (NMU_CH c 0) l)) ∧ x = { g with nmu := { g.nmu with linAsleep := ls.foldl insertLine g.nmu.linAsleep } } ∧ (y = (ls.filter x.linCommander).foldl (fun (h : Hw) l => h.calls (64 + l) 0) x) ∧ h.nmState c = nmCommit ∧ h.msSince (h.nmCh c).at_ (h.get NMU_CFG 4 0) = true) ∧
    (∃ (s : State) (h : Hw) (unit : BitVec 8),
    h = s.hw ∧ unit.toNat < 8) ∧
    (∃ (s : State) (h : Hw) (c : Fin 24) (code : Nat) (ls : List Nat) (g : Hw) (y : Hw) (x : Hw),
    h = s.hw ∧ (ls = (List.range 8).filter (fun l => h.bit (NMU_CH c 0) l)) ∧ (g = { h with nmu := { h.nmu with linAsleep := h.nmu.linAsleep.filter (fun l => !ls.contains l) } }) ∧ (y = (ls.filter g.linCommander).foldl (fun (h : Hw) l => h.calls (64 + l) 1) g) ∧ (x = each 24 (fun i (h : Hw) => if h.bit (NMU_CH c 7) i && h.get (ETH_TC10 (i + 4)) 2 0 == 2 then h.wakeLink (i + 4) else h) y) ∧ (h.nmCh c).waking = some code ∧ h.nmState c = nmSleep ∧ (h.nmDomains c).all h.pdOn = true) ∧
    (∃ (s : State) (h : Hw) (n : Fin 9),
    h = s.hw) :=
  ⟨⟨⟨{ (({} : Hw).put (NMU_STATE 0) 3 0 nmReady).put (NMU_CH 0 0) 30 30 1 with now := 2 ^ 60 }, []⟩, _, 0, rfl, by decide +kernel⟩,
   ⟨⟨{ ({} : Hw).put (NMU_STATE 0) 3 0 nmPrepare with now := 2 ^ 60 }, []⟩, _, 0, rfl, by decide +kernel⟩,
   ⟨⟨{ ({} : Hw).put (NMU_STATE 0) 3 0 nmCommit with now := 2 ^ 60 }, []⟩, _, 0, _, _, _, _, rfl, rfl, rfl, rfl, rfl, by decide +kernel⟩,
   ⟨⟨{}, []⟩, _, 3, rfl, by decide +kernel⟩,
   ⟨⟨(({} : Hw).put (NMU_STATE 0) 3 0 nmSleep).setNmCh 0 { waking := some 6 }, []⟩, _, 0, 6, _, _, _, _, rfl, rfl, rfl, rfl, rfl, by decide +kernel⟩,
   ⟨⟨({} : Hw).put (NMU_WIN_CFG 1) 31 31 1, []⟩, _, 1, rfl⟩⟩

theorem witness_NetworkManagementCommandsComplete_3 :
    (∃ (s : State) (h : Hw) (n : Fin 12) (f : CanFrame) (g : Hw),
    h = s.hw ∧ g = { h with nmu := { h.nmu with swfErr := h.nmu.swfErr.set n (h.nmu.swfErr.get n - 1) } } ∧ h.bit (NMU_SWF n 0) 31 = true ∧ (h.nmState n = nmSleep ∨ h.nmState n = nmPartial) ∧ f.fmt = 0) ∧
    (∃ (s : State) (h : Hw) (c : Fin 24) (t : Attempt) (top : List KaSource) (g : Hw) (r : Hw) (x : Hw),
    h = s.hw ∧ g = h.setNmCh c { h.nmCh c with attempt := some { t with reported := true } } ∧ r = g.wr (NMU_KA_REP 0) (2 ^ 31 + c.val * 2 ^ 24 + min 255 t.sources.length * 2 ^ 16 + (g.get (NMU_KA_REP 0) 15 0 + 1) % 0x1_0000) ∧ x = ((r.wr (NMU_KA_REP 1) t.start).wr (NMU_KA_REP 2) (min 0xFFFF_FFFF (t.other / 1_200_000))).wr (NMU_KA_REP 3) 0 ∧ (top = ((t.sources.filter (fun z => !z.beyond)).foldl (fun l z => kaInsert z l) []).take 8) ∧ (h.nmCh c).attempt = some t ∧ t.reported = false ∧ h.msSince t.at_ (1000 * h.get NMU_KA_LIMIT 15 0) = true) :=
  ⟨⟨⟨(({} : Hw).put (NMU_STATE 0) 3 0 nmSleep).put (NMU_SWF 0 0) 31 31 1, []⟩, _, 0, { id := 5, dlc := 0, data := [] }, _, rfl, rfl, by decide +kernel⟩,
   ⟨⟨{ ({} : Hw).setNmCh 0 { attempt := some { start := 3 } } with now := 2 ^ 60 }, []⟩, _, 0, { start := 3 }, _, _, _, _, rfl, rfl, rfl, rfl, rfl, by decide +kernel⟩⟩

theorem witness_SpanCommandsComplete_1 :
    (∃ (s : State) (h : Hw) (v : Word) (g : Hw) (a : Attr),
    s.hw.takes (SPN_CFG) a = true ∧ h = s.hw.answer 0 ∧ g = h.storeReg SPN_CFG v.toNat ∧ h.spanCfgRefuses v.toNat = none) ∧
    (∃ (s : State) (h : Hw) (speed : Fin 4) (lanes : Fin 3) (r : Nat × Hw),
    h = s.hw ∧ r = h.freeWord ∧ h.spanTrains = true ∧ h.bit SPN_LINK 31 = false ∧ speed.val + 1 ≤ h.get SPN_CFG 26 24 ∧ 2 ^ lanes.val ≤ h.get SPN_CFG 18 16) ∧
    (∃ (s : State) (h : Hw) (o : BitVec 32) (n : Fin 65) (data : Option (List Byte)) (credit : Bool) (tag : Fin 64) (a : Attr) (w : Nat),
    h = s.hw ∧ h.regionOk (0x01_0000_0000 + o.toNat) data.isSome a = true ∧ h.live pgSPN = true ∧ h.owOf o.toNat = some w ∧ (a.spec = false ∨ h.bit (SPN_OW w 0) 29 = true) ∧ h.spanUp = true) ∧
    (∃ (s : State) (h : Hw) (w : Fin 16) (credit : Bool) (tag : Fin 64) (a : Attr),
    s.hw.takes (SPN_FLUSH w) a = true ∧ h = s.hw.answer 0 ∧ h.owEn w = true ∧ h.owOf (h.owLocal w) = some w.val ∧ (a.spec = false ∨ h.bit (SPN_OW w 0) 29 = true) ∧ h.spanUp = true) ∧
    (∃ (s : State) (h : Hw) (tag : Fin 256) (c : SpanCpl) (credit : Bool) (x : SpanOpen) (g : Hw),
    h = s.hw ∧ g = ({ h with span := { h.span with open_ := h.span.open_.erase x } } : Hw).spanSync ∧ (h.span.open_.find? (fun x => x.tag == tag.val) = some x) ∧ h.cplLate x = false) ∧
    (∃ (s : State) (h : Hw) (tag : Fin 64) (credit : Bool) (x : SpanOpen),
    h = s.hw ∧ (h.span.open_.find? (fun x => x.tag == tag.val) = some x) ∧ h.cplLate x = true) :=
  ⟨⟨⟨{}, []⟩, _, 0x8101_0010, _, secureTester, by decide +kernel, rfl, rfl, by decide +kernel⟩,
   ⟨⟨({} : Hw).wr SPN_CFG 0x8101_0000, []⟩, _, 0, 0, _, rfl, rfl, by decide +kernel⟩,
   ⟨⟨(({} : Hw).wr (SPN_OW 1 0) 0x8010_0000).wr SPN_LINK 0x8000_0000, []⟩, _, 0, 4, none, true, 0, secureTester, 1, rfl, by decide +kernel⟩,
   ⟨⟨(({} : Hw).wr (SPN_OW 1 0) 0x8010_0000).wr SPN_LINK 0x8000_0000, []⟩, _, 1, true, 0, secureTester, by decide +kernel, rfl, by decide +kernel⟩,
   ⟨⟨({ span := { open_ := [{ tag := 5, win := 0, user := { addr := 0, attr := secureTester } }] } } : Hw).put SPN_CFG 7 0 5, []⟩, _, 5, .abort, true, { tag := 5, win := 0, user := { addr := 0, attr := secureTester } }, _, rfl, rfl, by decide +kernel⟩,
   ⟨⟨{ span := { open_ := [{ tag := 5, win := 0, user := { addr := 0, attr := secureTester } }] }, now := 2 ^ 60 }, []⟩, _, 5, true, { tag := 5, win := 0, user := { addr := 0, attr := secureTester } }, rfl, by decide +kernel⟩⟩

theorem witness_SpanCommandsComplete_2 :
    (∃ (s : State) (h : Hw) (q : SpanIn) (base : BitVec 64) (rid : BitVec 16) (tag : BitVec 8),
    h = s.hw ∧ h.spanUp = true) ∧
    (∃ (s : State) (h : Hw),
    h = s.hw ∧ h.bit SPN_LINK 31 = true) ∧
    (∃ (s : State) (h : Hw) (v : Fin 256),
    h = s.hw ∧ h.live pgSPN = true ∧ h.spanRoot = false ∧ h.bit SPN_VF 31 = true ∧ v.val < h.get SPN_VF 24 16) ∧
    (∃ (s : State) (h : Hw) (en : Bool) (num : Fin 257) (g : Hw),
    h = s.hw ∧ g = (h.putBit SPN_VF 31 en).put SPN_VF 24 16 num.val ∧ h.live pgSPN = true ∧ h.spanRoot = false) ∧
    (∃ (s : State) (h : Hw) (v : Fin 32) (e : Nat),
    h = s.hw ∧ e = h.get (SPN_MSIX v) 10 0 ∧ h.live pgSPN = true ∧ h.spanRoot = false ∧ h.bit (SPN_MSIX v) 31 = true ∧ h.seesEdge 0 v e = true ∧ h.lineSecure e = false) ∧
    (∃ (s : State) (h : Hw) (v : Word) (a : Attr),
    s.hw.takes (SPN_ELOG_RD) a = true ∧ h = s.hw.answer 0) :=
  ⟨⟨⟨({} : Hw).wr SPN_LINK 0x8000_0000, []⟩, _, .message, 0, 0, 0, rfl, by decide +kernel⟩,
   ⟨⟨({} : Hw).wr SPN_LINK 0x8000_0000, []⟩, _, rfl, by decide +kernel⟩,
   ⟨⟨({} : Hw).wr SPN_VF 0x8004_0000, []⟩, _, 2, rfl, by decide +kernel⟩,
   ⟨⟨{}, []⟩, _, true, 4, _, rfl, rfl, by decide +kernel⟩,
   ⟨⟨{ (({} : Hw).wr (WGT_EVT_WORLD 4) 0).wr (SPN_MSIX 3) 0x8000_0080 with rose := [128] }, []⟩, _, 3, _, rfl, rfl, by decide +kernel⟩,
   ⟨⟨{}, []⟩, _, 3, secureTester, by decide +kernel, rfl⟩⟩

theorem witness_SpanCommandsComplete_3 :
    ∃ (s : State) (h : Hw) (level : Bool) (g : Hw),
    h = s.hw ∧ g = { h with span := { h.span with perst := level } } :=
  ⟨⟨{}, []⟩, _, false, _, rfl, rfl⟩

theorem witness_MemoryCommandsComplete_1 :
    (∃ (s : State) (h : Hw) (heat : List (Fin 512 × Nat)) (samples : List (BitVec 18 × Nat)) (util : Fin 101) (k : Hw) (g : Hw),
    h = s.hw ∧ k = { h with mem := { h.mem with epochAt := h.now } } ∧ (g = k.epochPlan (heat.map (fun x => (x.1.val, x.2))) (samples.map (fun x => (x.1.toNat, x.2))) util) ∧ h.epochOver = true) ∧
    (∃ (s : State) (h : Hw) (frame : Fin 512) (m : Move) (x : MemSt),
    h = s.hw ∧ x = { h.mem with t0 := h.mem.t0.splice (frame.val * 0x1_0000) 0x1_0000 h.mem.t1 (m.unit * 0x1_0000), frames := file h.mem.frames frame.val m.unit } ∧ h.live pgRVE = true ∧ h.nextMove = some m ∧ m.promote = true ∧ h.mem.moved < h.get RVE_MIG_BW 7 0 ∧ h.frameOf m.unit = none ∧ h.heldInT1 m.unit = false ∧ 512 - h.get RVE_T0_POOL 9 0 ≤ frame.val ∧ (h.mem.frames.any (fun x => x.1 == frame.val) = false)) ∧
    (∃ (s : State) (h : Hw) (frame : Fin 512) (m : Move) (f : Nat) (x : MemSt),
    h = s.hw ∧ x = { h.mem with t1 := h.mem.t1.splice (m.unit * 0x1_0000) 0x1_0000 h.mem.t0 (f * 0x1_0000), frames := unfile h.mem.frames f } ∧ h.live pgRVE = true ∧ h.nextMove = some m ∧ m.promote = false ∧ h.mem.moved < h.get RVE_MIG_BW 7 0 ∧ h.frameOf m.unit = some f ∧ h.heldInT1 m.unit = false) ∧
    (∃ (s : State) (h : Hw) (v : Word) (a : Attr),
    s.hw.takes (RVE_T0_POOL) a = true ∧ h = s.hw.answer 0 ∧ fld v.toNat 9 0 ≤ 512) ∧
    (∃ (s : State) (h : Hw) (ce : BitVec 16) (ue : List (BitVec 34)) (k : Hw) (g : Hw),
    h = s.hw ∧ k = { h with mem := { h.mem with scrubAt := h.now } } ∧ g = (({ k with hlt := { k.hlt with ce := k.hlt.ce + ce.toNat } } : Hw).sat MEMC_T1_CE ce.toNat).raiseIf (decide (ce ≠ 0)) pgMEMC 0 ∧ h.live pgMEMC = true ∧ h.mem.scrubAt + h.get MEMC_SCRUB 7 0 * 4_320_000_000_000 ≤ h.now) ∧
    (∃ (s : State) (h : Hw) (v : Word) (a : Attr),
    s.hw.takes (MEMC_CNT_CLR) a = true ∧ h = s.hw.answer 0 ∧ fld v.toNat 0 0 = 1 ∧ fld v.toNat 1 1 = 1 ∧ fld v.toNat 2 2 = 1 ∧ fld v.toNat 3 3 = 1) :=
  ⟨⟨⟨{ now := 2 ^ 60 }, []⟩, _, [], [], 0, _, _, rfl, rfl, rfl, by decide +kernel⟩,
   ⟨⟨{ (({} : Hw).put RVE_T0_POOL 9 0 512).put RVE_MIG_BW 7 0 5 with mem := { moves := [{ promote := true, unit := 3, reason := 0 }] } }, []⟩, _, 4, { promote := true, unit := 3, reason := 0 }, _, rfl, rfl, by decide +kernel⟩,
   ⟨⟨{ ({} : Hw).put RVE_MIG_BW 7 0 5 with mem := { moves := [{ promote := false, unit := 3, reason := 0 }], frames := [(4, 3)] } }, []⟩, _, 4, { promote := false, unit := 3, reason := 0 }, 4, _, rfl, rfl, by decide +kernel⟩,
   ⟨⟨{}, []⟩, _, 3, secureTester, by decide +kernel, rfl, by decide +kernel⟩,
   ⟨⟨{ now := 2 ^ 60 }, []⟩, _, 3, [], _, _, rfl, rfl, rfl, by decide +kernel⟩,
   ⟨⟨{}, []⟩, _, 15, secureTester, by decide +kernel, rfl, by decide +kernel⟩⟩

theorem witness_MemoryCommandsComplete_2 :
    (∃ (s : State) (h : Hw) (v : Word) (a : Attr),
    s.hw.takes (IMP_CNT_CLR) a = true ∧ h = s.hw.answer 0 ∧ fld v.toNat 0 0 = 1 ∧ fld v.toNat 1 1 = 1 ∧ fld v.toNat 2 2 = 1 ∧ fld v.toNat 3 3 = 1 ∧ fld v.toNat 4 4 = 1) ∧
    (∃ (s : State) (h : Hw) (v : Word) (g : Hw) (a : Attr),
    s.hw.takes (XLT_INV) a = true ∧ h = s.hw.answer 0 ∧ g = h.storeReg XLT_INV v.toNat ∧ h.bit (STATUS pgXLT) 0 = false ∧ g.bit XLT_INV 31 = true) ∧
    (∃ (s : State) (h : Hw),
    h = s.hw ∧ h.bit (STATUS pgXLT) 0 = true) ∧
    (∃ (s : State) (h : Hw) (m : Fin 3),
    h = s.hw ∧ h.live pgMEMC = true) :=
  ⟨⟨⟨{}, []⟩, _, 31, secureTester, by decide +kernel, rfl, by decide +kernel⟩,
   ⟨⟨{}, []⟩, _, 0x8000_0000, _, secureTester, by decide +kernel, rfl, rfl, by decide +kernel⟩,
   ⟨⟨({} : Hw).putBit (STATUS pgXLT) 0 true, []⟩, _, rfl, by decide +kernel⟩,
   ⟨⟨{}, []⟩, _, 1, rfl, by decide +kernel⟩⟩

theorem witness_DmaCommandsComplete_1 :
    (∃ (s : State) (h : Hw) (d : Fin 4) (c : Fin 32) (a : Attr),
    s.hw.takes (DMA_CTRL d c) a = true ∧ h = s.hw.answer 0 ∧ h.bit (CTRL (pgDMA d)) 0 = true ∧ h.get (DMA_CFG d c) 21 20 = 0 ∧ (h.dmaState d c = 0 ∨ h.dmaState d c = 3)) ∧
    (∃ (s : State) (h : Hw) (d : Nat) (k : Nat) (c : CueRef) (v : Nat),
    s.hw.cueActs c 0x38 v = true ∧ h = s.hw.cueFired c.idx ∧ d = fld (cueArg (h.cueOf c)) 6 0 / 32 ∧ k = fld (cueArg (h.cueOf c)) 6 0 % 32 ∧ h.dmaOn d = true ∧ h.get (DMA_CFG d k) 21 20 = 1 ∧ h.dmaState d k ≠ 1 ∧ h.dmaState d k ≠ 2) ∧
    (∃ (s : State) (h : Hw) (e : Fin 2048) (g : Hw),
    h = s.hw ∧ g = { h with took := (1, e.val) :: h.took } ∧ h.seesEdge 1 e e = true) ∧
    (∃ (s : State) (h : Hw) (d : Fin 4) (rds : List DmaSeen) (w : DmaSeen) (c : Nat) (ripe : Bool),
    h = s.hw ∧ h.dmaOn d = true ∧ h.dmaPick d = some (c, ripe)) ∧
    (∃ (s : State) (h : Hw) (d : Fin 4) (c : Fin 32) (w : DmaSeen) (ws : List Nat) (r : Option Nat × Hw),
    h = s.hw ∧ r = h.dmaWrite d c (h.dmaCur d c) (leBytes 4 (setBit (ws.getD 0 0) 31 true)) w.fin ∧ (h.dma d c).desc = some ws ∧ (h.dma d c).fault = none ∧ h.dmaOn d = true ∧ h.dmaState d c = 1 ∧ h.rd (DMA_DONE d c) = descLen ws ∧ r.1 = none) ∧
    (∃ (s : State) (h : Hw) (d : Fin 4) (c : Fin 32) (f : DmaFault),
    h = s.hw ∧ (h.dma d c).fault = some f ∧ h.dmaState d c = 1 ∧ (h.dma d c).settled = true) :=
  ⟨⟨⟨({} : Hw).putBit (CTRL (pgDMA 1)) 0 true, []⟩, _, 1, 5, secureTester, by decide +kernel, rfl, by decide +kernel⟩,
   ⟨⟨((cueTester 0x38 5).putBit (CTRL (pgDMA 0)) 0 true).put (DMA_CFG 0 5) 21 20 1, []⟩, _, _, _, ⟨7⟩, 0, by decide +kernel, rfl, rfl, rfl, by decide +kernel⟩,
   ⟨⟨{ rose := [5] }, []⟩, _, 5, _, rfl, rfl, by decide +kernel⟩,
   ⟨⟨(({} : Hw).putBit (CTRL (pgDMA 1)) 0 true).wr (DMA_STATE 1 5) 0x1000_0000, []⟩, _, 1, [], {}, 5, false, rfl, by decide +kernel⟩,
   ⟨⟨{ (((({} : Hw).putBit (CTRL (pgDMA 1)) 0 true).wr (DMA_STATE 1 5) 0x1000_0000).wr (DMA_CFG 1 5) 0x0200_0000).wr (DMA_CUR_HI 1 5) 8 with mem := { dma := [(37, { desc := some [0, 0, 0, 0, 0, 0, 0x8000_0000, 0] })] } }, []⟩, _, 1, 5, {}, [0, 0, 0, 0, 0, 0, 0x8000_0000, 0], _, rfl, rfl, by decide +kernel⟩,
   ⟨⟨{ ({} : Hw).wr (DMA_STATE 1 5) 0x1000_0000 with mem := { dma := [(37, { fault := some { cause := 1, side := 0, addr := 5 } })] } }, []⟩, _, 1, 5, { cause := 1, side := 0, addr := 5 }, rfl, by decide +kernel⟩⟩

theorem witness_DmaCommandsComplete_2 :
    (∃ (s : State) (h : Hw) (d : Fin 4) (c : Fin 32) (a : Attr),
    s.hw.takes (DMA_CTRL d c) a = true ∧ h = s.hw.answer 0 ∧ h.dmaState d c = 2) ∧
    (∃ (s : State) (h : Hw) (d : Fin 4) (c : Fin 32) (a : Attr),
    s.hw.takes (DMA_CTRL d c) a = true ∧ h = s.hw.answer 0 ∧ (h.dmaState d c = 1 ∨ h.dmaState d c = 2)) :=
  ⟨⟨⟨({} : Hw).wr (DMA_STATE 1 5) 0x2000_0000, []⟩, _, 1, 5, secureTester, by decide +kernel, rfl, by decide +kernel⟩,
   ⟨⟨({} : Hw).wr (DMA_STATE 1 5) 0x2000_0000, []⟩, _, 1, 5, secureTester, by decide +kernel, rfl, by decide +kernel⟩⟩

theorem witness_VirtualPortCommandsComplete_1 :
    (∃ (s : State) (h : Hw) (n : Fin 1024) (v : Word) (a : Attr),
    s.hw.takes (VPT_TXDB n) a = true ∧ h = s.hw.answer 0 ∧ ((v.toNat % 0x1_0000 + 0x1_0000 - h.get (VPT_TXDB n) 31 16) % 0x1_0000 ≤ (if h.vpRing n = 0 then 0 else 2 ^ h.vpRing n))) ∧
    (∃ (s : State) (h : Hw) (n : Fin 1024) (v : Word) (far : List (Nat × Byte)) (g : Hw) (a : Attr),
    s.hw.takes (VPT_RXDB n) a = true ∧ h = s.hw.answer 0 ∧ g = h.put (VPT_RXDB n) 15 0 v.toNat ∧ ((v.toNat % 0x1_0000 + 0x1_0000 - h.get (VPT_RXDB n) 31 16) % 0x1_0000 ≤ (if h.vpRing n = 0 then 0 else 2 ^ h.vpRing n))) ∧
    (∃ (s : State) (h : Hw) (n : Fin 1024) (far : List (Nat × Byte)),
    h = s.hw ∧ h.vptOn = true ∧ (h.vp n).state = 1 ∧ (h.vp n).leaving = false ∧ (h.vp n).wait = none) ∧
    (∃ (s : State) (h : Hw) (n : Fin 1024) (far : List (Nat × Byte)) (w : TxWait),
    h = s.hw ∧ h.vptOn = true ∧ (h.vp n).wait = some w ∧ h.vpHolds n 10 (w.bytes.length + 4) = true) ∧
    (∃ (s : State) (h : Hw) (n : Fin 1024) (far : List (Nat × Byte)) (w : TxWait),
    h = s.hw ∧ (h.vp n).wait = some w ∧ h.vpHolds n 10 (w.bytes.length + 4) = false) ∧
    (∃ (s : State) (h : Hw) (host : Fin 2) (b : List Byte) (far : List (Nat × Byte)),
    h = s.hw ∧ h.vptOn = true ∧ h.vpTakers (36 + host) b ≠ []) :=
  ⟨⟨⟨{}, []⟩, _, 3, 0, secureTester, by decide +kernel, rfl, by decide +kernel⟩,
   ⟨⟨{}, []⟩, _, 3, 0, [], _, secureTester, by decide +kernel, rfl, rfl, by decide +kernel⟩,
   ⟨⟨{ ({} : Hw).wr (CTRL pgVPT) 1 with vpt := { ports := [(3, { state := 1 })] } }, []⟩, _, 3, [], rfl, by decide +kernel⟩,
   ⟨⟨{ ({} : Hw).wr (CTRL pgVPT) 1 with vpt := { ports := [(3, { state := 1, wait := some { bytes := [], descs := 1, irq := false } })] } }, []⟩, _, 3, [], { bytes := [], descs := 1, irq := false }, rfl, by decide +kernel⟩,
   ⟨⟨{ vpt := { ports := [(3, { state := 1, wait := some { bytes := [], descs := 1, irq := false } })], words := Tab.set [] 58 0x1_0000 } }, []⟩, _, 3, [], { bytes := [], descs := 1, irq := false }, rfl, by decide +kernel⟩,
   ⟨⟨{ ({} : Hw).wr (CTRL pgVPT) 1 with vpt := { ports := [(3, { state := 1 })], words := Tab.set [] 48 0x5000_0000 } }, []⟩, _, 0, [], [], rfl, by decide +kernel⟩⟩

theorem witness_VirtualPortCommandsComplete_2 :
    (∃ (s : State) (h : Hw) (host : Fin 2) (b : List Byte) (far : List (Nat × Byte)),
    h = s.hw ∧ h.vptOn = true ∧ h.vpTakers (36 + host) b = []) ∧
    (∃ (s : State) (h : Hw) (n : Fin 1024),
    h = s.hw ∧ h.vptOn = true ∧ h.vpRings n = true) ∧
    (∃ (s : State) (h : Hw) (v : Word) (n : Nat) (x : Nat) (g : Hw) (a : Attr),
    s.hw.takes (VPT_E 0) a = true ∧ h = s.hw.answer 0 ∧ n = h.get VPT_SEL 9 0 ∧ x = v.toNat &&& 0xFF0F_03FF ∧ g = { h with vpt := { h.vpt with words := h.vpt.words.set (16 * n) x } } ∧ h.vpRefuses n 0 x = none ∧ (h.vp n).state = 0 ∧ (fld x 31 31 = 1 ∧ fld x 19 16 ≠ 0)) ∧
    (∃ (s : State) (h : Hw) (n : Fin 1024) (far : List (Nat × Byte)) (g : Hw) (x : Hw),
    h = s.hw ∧ g = h.vpDiscard n ∧ (x = if (g.vp n).irq then g.vpNotify n else g) ∧ (h.vp n).leaving = true ∧ (h.vp n).wait = none) ∧
    (∃ (s : State) (h : Hw) (n : Fin 1024) (far : List (Nat × Byte)) (w : TxWait) (g : Hw) (x : Hw),
    h = s.hw ∧ g = (h.vpHandOn n w far).vpDiscard n ∧ (x = if (g.vp n).irq then g.vpNotify n else g) ∧ (h.vp n).leaving = true ∧ (h.vp n).wait = some w) ∧
    (∃ (s : State) (h : Hw) (n : Fin 1024) (side : Fin 4) (addr : BitVec 48) (g : Hw),
    h = s.hw ∧ g = h.vpUnwait n ∧ (h.vp n).state = 1) :=
  ⟨⟨⟨({} : Hw).wr (CTRL pgVPT) 1, []⟩, _, 0, [], [], rfl, by decide +kernel⟩,
   ⟨⟨{ ({} : Hw).wr (CTRL pgVPT) 1 with vpt := { ports := [(3, { state := 1, irq := true })] } }, []⟩, _, 3, rfl, by decide +kernel⟩,
   ⟨⟨{}, []⟩, _, 0x800F_0000, _, _, _, secureTester, by decide +kernel, rfl, rfl, rfl, rfl, by decide +kernel⟩,
   ⟨⟨{ vpt := { ports := [(3, { state := 1, leaving := true })] } }, []⟩, _, 3, [], _, _, rfl, rfl, rfl, by decide +kernel⟩,
   ⟨⟨{ vpt := { ports := [(3, { state := 1, leaving := true, wait := some { bytes := [], descs := 1, irq := false } })] } }, []⟩, _, 3, [], { bytes := [], descs := 1, irq := false }, _, _, rfl, rfl, rfl, by decide +kernel⟩,
   ⟨⟨{ vpt := { ports := [(3, { state := 1 })] } }, []⟩, _, 3, 1, 5, _, rfl, rfl, by decide +kernel⟩⟩

theorem witness_VirtualPortCommandsComplete_3 :
    (∃ (s : State) (h : Hw) (v : Word) (far : List (Nat × Byte)) (n : Nat) (g : Hw) (a : Attr),
    s.hw.takes (VPT_CMD) a = true ∧ h = s.hw.answer 0 ∧ n = fld v.toNat 9 0 ∧ g = h.wr VPT_CMD (1 * 2 ^ 28 + n) ∧ h.bit VPT_CMD 27 = false ∧ (g.vp n).state = 1 ∧ (g.vp n).leaving = false ∧ (g.vp n).wait = none) ∧
    (∃ (s : State) (h : Hw) (v : Word) (far : List (Nat × Byte)) (n : Nat) (g : Hw) (x : Hw) (a : Attr),
    s.hw.takes (VPT_CMD) a = true ∧ h = s.hw.answer 0 ∧ n = fld v.toNat 9 0 ∧ g = h.wr VPT_CMD (1 * 2 ^ 28 + n) ∧ x = g.vpGather n far true ∧ h.bit VPT_CMD 27 = false ∧ (g.vp n).state = 1 ∧ (g.vp n).leaving = false ∧ (g.vp n).wait = none ∧ (x.vp n).state = 1) ∧
    (∃ (s : State) (h : Hw) (v : Word) (gathering : Bool) (far : List (Nat × Byte)) (w : TxWait) (n : Nat) (g : Hw) (x : Hw) (a : Attr),
    s.hw.takes (VPT_CMD) a = true ∧ h = s.hw.answer 0 ∧ n = fld v.toNat 9 0 ∧ g = h.wr VPT_CMD (1 * 2 ^ 28 + n) ∧ x = g.vpHandOn n w far ∧ h.bit VPT_CMD 27 = false ∧ (g.vp n).state = 1 ∧ (g.vp n).leaving = false ∧ (g.vp n).wait = some w ∧ (x.vp n).state = 1) ∧
    (∃ (s : State) (h : Hw) (v : Word) (far : List (Nat × Byte)) (n : Nat) (g : Hw) (x : Hw) (y : Hw) (a : Attr),
    s.hw.takes (VPT_CMD) a = true ∧ h = s.hw.answer 0 ∧ n = fld v.toNat 9 0 ∧ g = h.wr VPT_CMD (2 * 2 ^ 28 + n) ∧ x = g.setVp n { g.vp n with state := 1, cause := 0, side := 0 } ∧ (y = if (x.vp n).irq then x.vpNotify n else x) ∧ h.bit VPT_CMD 27 = false ∧ ((g.vp n).state = 2 ∨ (g.vp n).state = 3) ∧ (g.vp n).leaving = false) ∧
    (∃ (s : State) (h : Hw) (v : Word) (n : Nat) (g : Hw) (r : Bool × Hw) (a : Attr),
    s.hw.takes (VPT_CMD) a = true ∧ h = s.hw.answer 0 ∧ n = fld v.toNat 9 0 ∧ g = h.wr VPT_CMD (3 * 2 ^ 28 + n) ∧ r = g.memWrite g.vpBlockAddr (g.vpBlock n) (vpBlockAttr a) ∧ h.bit VPT_CMD 27 = false ∧ (g.vp n).state = 2 ∧ r.1 = true) ∧
    (∃ (s : State) (h : Hw) (v : Word) (b : List Byte) (x : Hw) (n : Nat) (g : Hw) (a : Attr),
    s.hw.takes (VPT_CMD) a = true ∧ h = s.hw.answer 0 ∧ n = fld v.toNat 9 0 ∧ g = h.wr VPT_CMD (4 * 2 ^ 28 + n) ∧ h.bit VPT_CMD 27 = false ∧ (g.vp n).state = 0 ∧ g.memRead g.vpBlockAddr 256 (vpBlockAttr a) = (some b, x) ∧ leNat (slice b 0 4) = 0x4253_5056 ∧ fld (leNat (slice b 4 4)) 15 0 = 1 ∧ leNat (slice b 0xFC 4) = crc32 (b.take 0xFC) ∧ x.vpGuaranteed n + fld (leNat (slice b 0x40 4) &&& vpWordMask 12) 31 16 ≤ 15360) :=
  ⟨⟨⟨{ vpt := { ports := [(3, { state := 1 })] } }, []⟩, _, 3, [], _, _, secureTester, by decide +kernel, rfl, rfl, rfl, by decide +kernel⟩,
   ⟨⟨{ vpt := { ports := [(3, { state := 1 })] } }, []⟩, _, 3, [], _, _, _, secureTester, by decide +kernel, rfl, rfl, rfl, rfl, by decide +kernel⟩,
   ⟨⟨{ ((({} : Hw).wr (WGT_REG 0 0) 0xB000_4000).wr (WGT_REG 0 1) 0x8_0000).wr (WGT_REG 0 2) 1 with vpt := { ports := [(3, { state := 1, wait := some { bytes := [], descs := 1, irq := false } }), (4, { state := 1 })], words := Tab.set (Tab.set [] 51 8) 64 0x5000_0000 } }, []⟩, _, 3, false, [], { bytes := [], descs := 1, irq := false }, _, _, _, secureTester, by decide +kernel, rfl, rfl, rfl, rfl, by decide +kernel⟩,
   ⟨⟨{ vpt := { ports := [(3, { state := 2 })] } }, []⟩, _, 3, [], _, _, _, _, secureTester, by decide +kernel, rfl, rfl, rfl, rfl, rfl, by decide +kernel⟩,
   ⟨⟨{ ({} : Hw).wr VPT_BLK_HI 8 with vpt := { ports := [(3, { state := 2 })] } }, []⟩, _, 3, _, _, _, secureTester, by decide +kernel, rfl, rfl, rfl, rfl, by decide +kernel⟩,
   ⟨⟨restoreTester, []⟩, _, 3, _, _, _, _, secureTester, by decide +kernel, rfl, rfl, rfl, by decide +kernel, by decide +kernel, rfl, by decide +kernel⟩⟩

theorem witness_VirtualPortCommandsComplete_4 :
    (∃ (s : State) (h : Hw) (v : Word) (n : Nat) (g : Hw) (a : Attr),
    s.hw.takes (VPT_CMD) a = true ∧ h = s.hw.answer 0 ∧ n = fld v.toNat 9 0 ∧ g = h.wr VPT_CMD (5 * 2 ^ 28 + n) ∧ h.bit VPT_CMD 27 = false) ∧
    (∃ (s : State) (h : Hw) (w : Fin 16) (v : Word) (n : Nat) (x : Nat) (a : Attr),
    s.hw.takes (VPT_E w) a = true ∧ h = s.hw.answer 0 ∧ n = h.get VPT_SEL 9 0 ∧ x = v.toNat &&& vpWordMask w ∧ (2 ≤ w.val ∧ w.val ≤ 5) ∧ h.vpRefuses n w x = none ∧ (h.vp n).state ≠ 0) :=
  ⟨⟨⟨{}, []⟩, _, 3, _, _, secureTester, by decide +kernel, rfl, rfl, rfl, by decide +kernel⟩,
   ⟨⟨{ ({} : Hw).wr VPT_SEL 3 with vpt := { ports := [(3, { state := 2 })] } }, []⟩, _, 2, 64, _, _, secureTester, by decide +kernel, rfl, rfl, rfl, by decide +kernel⟩⟩

theorem witness_WorldCommandsComplete_1 :
    (∃ (s : State) (h : Hw) (v : Word) (g : Hw) (a : Attr),
    s.hw.takes (LOCK pgWGT) a = true ∧ h = s.hw.answer 0 ∧ g = h.wr (LOCK pgWGT) (h.rd (LOCK pgWGT) ||| (setBit v.toNat 2 false &&& lockMask pgWGT)) ∧ fld v.toNat 2 2 = 1) ∧
    (∃ (s : State) (h : Hw) (v : Word) (a : Attr),
    s.hw.takes (WGT_HOLD_PD) a = true ∧ h = s.hw.answer 0) ∧
    (∃ (s : State) (h : Hw) (m : Fin 32) (v : Word) (a : Attr),
    s.hw.takes (WGT_HOLD_PAGE m) a = true ∧ h = s.hw.answer 0) ∧
    (∃ (s : State) (h : Hw) (clk : Bool) (target : Fin 1024) (r : PwrReq),
    h = s.hw ∧ h.heldFor clk target = some r ∧ r.heldAt + h.rd WGT_HOLD_TO * 1_200_000 ≤ h.now) ∧
    (∃ (s : State) (h : Hw) (clk : Bool) (target : Fin 1024) (r : PwrReq),
    h = s.hw ∧ h.heldFor clk target = some r ∧ h.now < r.heldAt + h.rd WGT_HOLD_TO * 1_200_000) ∧
    (∃ (s : State) (h : Hw) (v : Word) (timeout : Bool) (r : PwrReq) (a : Attr),
    s.hw.takes (WGT_DENY) a = true ∧ h = s.hw.answer 0 ∧ (fld v.toNat 31 30 = 1 ∨ fld v.toNat 31 30 = 2) ∧ h.heldFor (fld v.toNat 31 30 == 2) (fld v.toNat 9 0) = some r) :=
  ⟨⟨⟨{}, []⟩, _, 4, _, secureTester, by decide +kernel, rfl, rfl, by decide +kernel⟩,
   ⟨⟨{}, []⟩, _, 4, secureTester, by decide +kernel, rfl⟩,
   ⟨⟨{}, []⟩, _, 3, 4, secureTester, by decide +kernel, rfl⟩,
   ⟨⟨{ held := [{ clk := false, target := 5, on := false, secure := true, mid := 8, vmid := 0 }], now := 2 ^ 60 }, []⟩, _, false, 5, { clk := false, target := 5, on := false, secure := true, mid := 8, vmid := 0 }, rfl, by decide +kernel⟩,
   ⟨⟨{ ({} : Hw).wr WGT_HOLD_TO 100 with held := [{ clk := false, target := 5, on := false, secure := true, mid := 8, vmid := 0 }] }, []⟩, _, false, 5, { clk := false, target := 5, on := false, secure := true, mid := 8, vmid := 0 }, rfl, by decide +kernel⟩,
   ⟨⟨{ held := [{ clk := false, target := 5, on := false, secure := true, mid := 8, vmid := 0 }] }, []⟩, _, 0x4000_0005, false, { clk := false, target := 5, on := false, secure := true, mid := 8, vmid := 0 }, secureTester, by decide +kernel, rfl, by decide +kernel⟩⟩

theorem witness_WorldCommandsComplete_2 :
    (∃ (s : State) (h : Hw) (core : Fin 12) (v : Word) (dirty : List (BitVec 40 × List Byte)) (w : Bool),
    h = s.hw ∧ w = (fld v.toNat 0 0 == 1) ∧ h.pdOn (3 + core.val / 4) = true ∧ w ≠ h.coreWorld core) ∧
    (∃ (s : State) (h : Hw) (core : Fin 12) (v : Word) (dirty : List (BitVec 40 × List Byte)),
    h = s.hw ∧ h.pdOn (3 + core.val / 4) = true ∧ (fld v.toNat 0 0 == 1) = h.coreWorld core) :=
  ⟨⟨⟨({} : Hw).wr PWR_STATE 8, []⟩, _, 1, if ({} : Hw).coreWorld 1 then 0 else 1, [], _, rfl, rfl, by decide +kernel⟩,
   ⟨⟨({} : Hw).wr PWR_STATE 8, []⟩, _, 1, if ({} : Hw).coreWorld 1 then 1 else 0, [], rfl, by decide +kernel⟩⟩

theorem witness_KeyCommandsComplete_1 :
    (∃ (s : State) (h : Hw) (v : Word) (g : Hw) (r : List Byte × Hw) (a : Attr),
    s.hw.takes (KEY_CMD) a = true ∧ h = s.hw.answer 0 ∧ g = h.wr KEY_CMD (1 * 2 ^ 28 + v.toNat % 2 ^ 24) ∧ r = g.freeBytes (keyLen g.stageType) ∧ h.bit KEY_CMD 27 = false ∧ g.lcs ≠ 4 ∧ g.stageOk = true ∧ g.slotFree g.cmdDst g.stageType = true ∧ g.rngOk = true) ∧
    (∃ (s : State) (h : Hw) (v : Word) (data : List Byte) (x : Hw) (g : Hw) (a : Attr),
    s.hw.takes (KEY_CMD) a = true ∧ h = s.hw.answer 0 ∧ g = h.wr KEY_CMD (2 * 2 ^ 28 + v.toNat % 2 ^ 24) ∧ g.memRead g.keyAddr g.keyOpLen (keyMaster a) = (some data, x) ∧ h.bit KEY_CMD 27 = false ∧ g.lcs ≠ 4 ∧ g.stageOk = true ∧ (g.keyOpLen == 0) = false ∧ g.keyOpLen ≤ 256 ∧ g.needsRoot g.cmdSrc = false ∧ g.slotFree g.cmdDst g.stageType = true ∧ g.slotGood g.cmdSrc = true ∧ (¬(g.get (KEY_ATTR_W1 g.cmdSrc) 7 5 = 7 ∨ (decide (g.cmdAux % 2 = 1) && (g.keyBytes g.cmdSrc).length != 32) = true)) ∧ g.keyUse g.cmdSrc 5 (groupOf a.mid.toNat) a.secure = true) ∧
    (∃ (s : State) (h : Hw) (v : Word) (data k : List Byte) (x : Hw) (g : Hw) (a : Attr),
    s.hw.takes (KEY_CMD) a = true ∧ h = s.hw.answer 0 ∧ g = h.wr KEY_CMD (3 * 2 ^ 28 + v.toNat % 2 ^ 24) ∧ g.memRead g.keyAddr g.keyOpLen (keyMaster a) = (some data, x) ∧ h.bit KEY_CMD 27 = false ∧ g.lcs ≠ 4 ∧ g.stageOk = true ∧ (g.keyOpLen != keyLen g.stageType + 8) = false ∧ g.needsRoot g.cmdSrc = false ∧ g.slotFree g.cmdDst g.stageType = true ∧ g.slotGood g.cmdSrc = true ∧ (¬(g.get (KEY_ATTR_W1 g.cmdSrc) 7 5 = 7 ∨ 1 < g.keyType g.cmdSrc)) ∧ g.keyUse g.cmdSrc 7 (groupOf a.mid.toNat) a.secure = true ∧ (keyUnwrap (x.keyBytes g.cmdSrc) data) = some k) ∧
    (∃ (s : State) (h : Hw) (v : Word) (g : Hw) (a : Attr),
    s.hw.takes (KEY_CMD) a = true ∧ h = s.hw.answer 0 ∧ g = h.wr KEY_CMD (4 * 2 ^ 28 + v.toNat % 2 ^ 24) ∧ h.bit KEY_CMD 27 = false ∧ g.lcs ≠ 4 ∧ (¬(g.keyOpLen ≠ keyLen (g.keyType g.cmdSrc) + 8 ∨ 1 < g.keyType g.cmdAux)) ∧ g.needsRoot g.cmdSrc = false ∧ g.needsRoot g.cmdAux = false ∧ g.slotGood g.cmdSrc = true ∧ g.slotGood g.cmdAux = true ∧ g.bit (KEY_ATTR_W0 g.cmdSrc) 28 = true ∧ g.keyAllowed g.cmdSrc a = true ∧ g.keyUse g.cmdAux 6 (groupOf a.mid.toNat) a.secure = true) ∧
    (∃ (s : State) (h : Hw) (v : Word) (g : Hw) (d : Nat) (x : Hw) (y : Hw) (z : Hw) (a : Attr),
    s.hw.takes (KEY_CMD) a = true ∧ h = s.hw.answer 0 ∧ g = h.wr KEY_CMD (5 * 2 ^ 28 + v.toNat % 2 ^ 24) ∧ d = g.cmdDst ∧ (x = (((g.revokeSlots ((g.family d).filter (fun i => i != d))).canKeysRevoked [d]).msecKeysRevoked [d])) ∧ y = (x.putBit (KEY_ATTR_W0 d) 31 false).putBit (KEY_ATTR_W0 d) 30 false ∧ (z = if decide (g.keyType d = 4) then (y.putBit (KEY_ATTR_W0 (d + 1)) 31 false).putBit (KEY_ATTR_W0 (d + 1)) 30 false else y) ∧ h.bit KEY_CMD 27 = false ∧ g.lcs ≠ 4 ∧ d ≠ 0 ∧ g.keyValid d = true ∧ g.oddOfPair d = false) ∧
    (∃ (s : State) (h : Hw) (v : Word) (g : Hw) (x : Hw) (a : Attr),
    s.hw.takes (KEY_CMD) a = true ∧ h = s.hw.answer 0 ∧ g = h.wr KEY_CMD (6 * 2 ^ 28 + v.toNat % 2 ^ 24) ∧ x = g.revokeSlots (g.family g.cmdDst) ∧ h.bit KEY_CMD 27 = false ∧ g.lcs ≠ 4 ∧ g.cmdDst ≠ 0 ∧ g.slotGood g.cmdDst = true) :=
  ⟨⟨⟨({} : Hw).wr (STATUS pgKEY) 3, []⟩, _, 0x3_0000, _, _, secureTester, by decide +kernel, rfl, rfl, rfl, by decide +kernel⟩,
   ⟨⟨keyTester 0x8002_8A20 [], []⟩, _, 0x3_0400, _, _, _, secureTester, by decide +kernel, rfl, rfl, rfl, by decide +kernel⟩,
   ⟨⟨keyTester 0x8002_8A80 [65, 241, 3, 70, 106, 43, 121, 77, 217, 155, 40, 63, 54, 188, 21, 195, 165, 121, 63, 0, 200, 86, 3, 4], []⟩, _, 0x3_0400, _, List.replicate 16 1, _, _, secureTester, by decide +kernel, rfl, rfl, rfl, by decide +kernel⟩,
   ⟨⟨keyTester 0x9002_8A40 (List.replicate 24 0), []⟩, _, 0x0404, _, secureTester, by decide +kernel, rfl, rfl, by decide +kernel⟩,
   ⟨⟨keyTester 0x8002_8A40 [], []⟩, _, 0x4_0000, _, _, _, _, _, secureTester, by decide +kernel, rfl, rfl, rfl, rfl, rfl, rfl, by decide +kernel⟩,
   ⟨⟨keyTester 0x8002_8A40 [], []⟩, _, 0x4_0000, _, _, secureTester, by decide +kernel, rfl, rfl, rfl, by decide +kernel⟩⟩

theorem witness_KeyCommandsComplete_2 :
    (∃ (s : State) (h : Hw) (v : Word) (g : Hw) (d : Nat) (x : Hw) (a : Attr),
    s.hw.takes (KEY_CMD) a = true ∧ h = s.hw.answer 0 ∧ g = h.wr KEY_CMD (7 * 2 ^ 28 + v.toNat % 2 ^ 24) ∧ d = g.cmdDst ∧ x = (g.wr (KEY_ATTR_W0 d) (g.rd KEY_STAGE)).mirrorOdd d ∧ h.bit KEY_CMD 27 = false ∧ g.lcs ≠ 4 ∧ d ≠ 0 ∧ g.slotGood d = true ∧ g.rd KEY_STAGE &&& g.rd (KEY_ATTR_W0 d) = g.rd KEY_STAGE ∧ fld (g.rd KEY_STAGE) 31 30 = fld (g.rd (KEY_ATTR_W0 d)) 31 30 ∧ fld (g.rd KEY_STAGE) 26 24 = fld (g.rd (KEY_ATTR_W0 d)) 26 24) ∧
    (∃ (s : State) (h : Hw) (v : Word) (g : Hw) (k : List Byte) (a : Attr),
    s.hw.takes (KEY_CMD) a = true ∧ h = s.hw.answer 0 ∧ g = h.wr KEY_CMD (8 * 2 ^ 28 + v.toNat % 2 ^ 24) ∧ k = g.keyBytes g.cmdSrc ∧ h.bit KEY_CMD 27 = false ∧ g.lcs ≠ 4 ∧ g.needsRoot g.cmdSrc = false ∧ g.slotGood g.cmdSrc = true ∧ (3 ≤ g.keyType g.cmdSrc ∧ g.keyType g.cmdSrc ≤ 5) ∧ g.keyAllowed g.cmdSrc a = true) ∧
    (∃ (s : State) (h : Hw) (v : Word) (g : Hw) (a : Attr),
    s.hw.takes (KEY_CMD) a = true ∧ h = s.hw.answer 0 ∧ g = h.wr KEY_CMD (9 * 2 ^ 28 + v.toNat % 2 ^ 24) ∧ h.bit KEY_CMD 27 = false ∧ g.lcs ≠ 4 ∧ g.persistSlots.length ≤ 64 ∧ g.rootOk = true) ∧
    (∃ (s : State) (h : Hw) (v : Word) (b1 b2 : List Byte) (x y : Hw) (g : Hw) (f : Hw) (a : Attr),
    s.hw.takes (KEY_CMD) a = true ∧ h = s.hw.answer 0 ∧ g = h.wr KEY_CMD (10 * 2 ^ 28 + v.toNat % 2 ^ 24) ∧ f = g.notFresh ∧ h.bit KEY_CMD 27 = false ∧ g.lcs ≠ 4 ∧ g.rootOk = true ∧ g.key.fresh = true ∧ f.memRead f.keyAddr 4160 (keyMaster a) = (some b1, x) ∧ x.memRead x.keyAddr2 4160 (keyMaster a) = (some b2, y)) ∧
    (∃ (s : State) (h : Hw) (v : Word) (g : Hw) (a : Attr),
    s.hw.takes (KEY_CMD) a = true ∧ h = s.hw.answer 0 ∧ g = h.wr KEY_CMD (11 * 2 ^ 28 + v.toNat % 2 ^ 24) ∧ s.hw.inHold = false ∧ h.bit KEY_CMD 27 = false ∧ g.lcs ≠ 4) ∧
    (∃ (s : State) (h : Hw) (v : Word) (a : Attr),
    s.hw.takes (KEY_CMD) a = true ∧ h = s.hw.answer 0 ∧ s.hw.inHold = true ∧ h.bit KEY_CMD 27 = false) :=
  ⟨⟨⟨(keyTester 0x8002_8A40 []).wr KEY_STAGE 0x8002_8000, []⟩, _, 0x4_0000, _, _, _, secureTester, by decide +kernel, rfl, rfl, rfl, rfl, by decide +kernel⟩,
   ⟨⟨keyTester 0x8502_8A40 [], []⟩, _, 0x0400, _, _, secureTester, by decide +kernel, rfl, rfl, rfl, by decide +kernel⟩,
   ⟨⟨keyTester 0x8502_8A40 [], []⟩, _, 0, _, secureTester, by decide +kernel, rfl, rfl, by decide +kernel⟩,
   ⟨⟨{ keyTester 0x8002_8A20 [] with key := { fresh := true } }, []⟩, _, 0, _, _, _, _, _, _, secureTester, by decide +kernel, rfl, rfl, rfl, by decide +kernel, by decide +kernel, by decide +kernel, by decide +kernel, rfl, rfl⟩,
   ⟨⟨{}, []⟩, _, 0, _, secureTester, by decide +kernel, rfl, rfl, by decide +kernel⟩,
   ⟨⟨({} : Hw).wr SUP_STATE 0x8000_0000, []⟩, _, 0, secureTester, by decide +kernel, rfl, by decide +kernel⟩⟩

theorem witness_KeyCommandsComplete_3 :
    (∃ (s : State) (h : Hw) (v : Word) (g : Hw) (r : List Byte × Hw) (a : Attr),
    s.hw.takes (KEY_CMD) a = true ∧ h = s.hw.answer 0 ∧ g = h.wr KEY_CMD (12 * 2 ^ 28 + v.toNat % 2 ^ 24) ∧ r = g.freeBytes 16 ∧ h.bit KEY_CMD 27 = false ∧ g.lcs ≠ 4 ∧ g.rngOk = true) ∧
    (∃ (s : State) (h : Hw) (v : Word) (g : Hw) (a : Attr),
    s.hw.takes (KEY_CMD) a = true ∧ h = s.hw.answer 0 ∧ g = h.wr KEY_CMD (13 * 2 ^ 28 + v.toNat % 2 ^ 24) ∧ s.hw.inHold = false ∧ h.bit KEY_CMD 27 = false ∧ g.lcs = 0 ∧ g.key.helper = false) ∧
    (∃ (s : State) (h : Hw) (v : Word) (a : Attr),
    s.hw.takes (KEY_CMD) a = true ∧ h = s.hw.answer 0 ∧ s.hw.inHold = true ∧ h.bit KEY_CMD 27 = false) ∧
    (∃ (s : State) (h : Hw) (pkBad : Bool) (g : Hw),
    h = s.hw ∧ g = ({ h with key := { h.key with started := true } } : Hw).putBit (STATUS pgKEY) 1 true ∧ h.pdOn 2 = true ∧ h.key.started = false ∧ h.key.helper = true ∧ (g.lcs != 4) = true) ∧
    (∃ (s : State) (h : Hw) (pkBad : Bool) (g : Hw),
    h = s.hw ∧ g = ({ h with key := { h.key with started := true } } : Hw).putBit (STATUS pgKEY) 1 true ∧ h.pdOn 2 = true ∧ h.key.started = false) ∧
    (∃ (s : State) (h : Hw) (k : List Byte) (r : List Byte × Hw) (x : Hw) (g : Hw),
    h = s.hw ∧ r = h.freeBytes k.length ∧ x = { r.2 with key := { r.2.key with masks := file r.2.key.masks h.key.maskAt r.1 } } ∧ g = { x with key := { x.key with maskAt := (h.key.maskAt + 1) % 256, remaskAt := x.now } } ∧ h.maskDue = true ∧ find? h.key.keys h.key.maskAt = some k) :=
  ⟨⟨⟨({} : Hw).wr (STATUS pgKEY) 3, []⟩, _, 0, _, _, secureTester, by decide +kernel, rfl, rfl, rfl, by decide +kernel⟩,
   ⟨⟨{ ({} : Hw).wr KEY_LCS 0 with key := { helper := false } }, []⟩, _, 0, _, secureTester, by decide +kernel, rfl, rfl, by decide +kernel⟩,
   ⟨⟨({} : Hw).wr SUP_STATE 0x8000_0000, []⟩, _, 0, secureTester, by decide +kernel, rfl, by decide +kernel⟩,
   ⟨⟨{ key := { helper := true } }, []⟩, _, false, _, rfl, rfl, by decide +kernel⟩,
   ⟨⟨{}, []⟩, _, true, _, rfl, rfl, by decide +kernel⟩,
   ⟨⟨{ keyTester 0x8002_8A20 [] with key := { keys := [(4, List.replicate 16 0)], maskAt := 4 }, now := 2 ^ 60 }, []⟩, _, List.replicate 16 0, _, _, _, rfl, rfl, rfl, rfl, by decide +kernel⟩⟩

theorem witness_KeyCommandsComplete_4 :
    (∃ (s : State) (h : Hw) (apt : Bool),
    h = s.hw ∧ h.pdOn 2 = true) ∧
    (∃ (s : State) (h : Hw) (v : Word) (a : Attr),
    s.hw.takes (KEY_RNG_HEALTH) a = true ∧ h = s.hw.answer 0 ∧ fld v.toNat 31 31 = 1) ∧
    (∃ (s : State) (h : Hw) (r : Nat × Hw) (a : Attr),
    s.hw.takes (KEY_RNG) a = true ∧ h = s.hw.answer 0 ∧ r = h.freeWord ∧ a.spec = false ∧ h.rngOk = true) ∧
    (∃ (s : State) (h : Hw) (v : Word) (g : Hw) (a : Attr),
    s.hw.takes (KEY_LCS_ADV) a = true ∧ h = s.hw.answer 0 ∧ g = { h with key := { h.key with lcsNext := some (fld v.toNat 2 0) } } ∧ a.secure = true ∧ fld v.toNat 31 16 = 0x4C43 ∧ h.lcsAllows (fld v.toNat 2 0) = true ∧ h.inHold = false) :=
  ⟨⟨⟨{}, []⟩, _, true, rfl, by decide +kernel⟩,
   ⟨⟨{}, []⟩, _, 0x8000_0000, secureTester, by decide +kernel, rfl, by decide +kernel⟩,
   ⟨⟨({} : Hw).wr (STATUS pgKEY) 3, []⟩, _, _, secureTester, by decide +kernel, rfl, rfl, by decide +kernel⟩,
   ⟨⟨{}, []⟩, _, 0x4C43_0003, _, secureTester, by decide +kernel, rfl, rfl, by decide +kernel⟩⟩

theorem witness_CryptoAndCheckValueCommandsComplete_1 :
    (∃ (s : State) (h : Hw) (q : Fin 16) (v : Word) (a : Attr),
    s.hw.takes (CRY_SUBMIT q) a = true ∧ h = s.hw.answer 0 ∧ fld v.toNat 5 0 = 0 ∧ (h.jobs q).length < 16) ∧
    (∃ (s : State) (h : Hw) (q : Fin 16) (j : Job) (d : List Byte) (x : Hw) (src : List Byte) (y : Hw),
    h = s.hw ∧ h.jobRuns q 1 j d x ∧ dMode d = 0 ∧ ¬ dLen d = 0 ∧ ¬ dLen d % 16 ≠ 0 ∧ (x.jobKey d j (if dEnc d then 0 else 1) [0, 1] = none) ∧ x.memRead (dSrc d) (dLen d) j.attr = (some src, y)) ∧
    (∃ (s : State) (h : Hw) (q : Fin 16) (j : Job) (d : List Byte) (x : Hw) (src aux : List Byte) (y z : Hw),
    h = s.hw ∧ h.jobRuns q 1 j d x ∧ dMode d = 1 ∧ ¬ dLen d = 0 ∧ ¬ dLen d % 16 ≠ 0 ∧ (x.jobKey d j (if dEnc d then 0 else 1) [0, 1] = none) ∧ x.memRead (dSrc d) (dLen d) j.attr = (some src, y) ∧ y.memRead (dAux d) 16 j.attr = (some aux, z)) ∧
    (∃ (s : State) (h : Hw) (q : Fin 16) (j : Job) (d : List Byte) (x : Hw) (src aux : List Byte) (y z : Hw),
    h = s.hw ∧ h.jobRuns q 1 j d x ∧ dMode d = 2 ∧ ¬ dLen d = 0 ∧ (x.jobKey d j (if dEnc d then 0 else 1) [0, 1] = none) ∧ x.memRead (dSrc d) (dLen d) j.attr = (some src, y) ∧ y.memRead (dAux d) 16 j.attr = (some aux, z)) ∧
    (∃ (s : State) (h : Hw) (q : Fin 16) (j : Job) (d : List Byte) (x : Hw) (src aux : List Byte) (y z : Hw) (p : List Byte) (o : Nat × Hw),
    h = s.hw ∧ h.jobRuns q 1 j d x ∧ p = gcmCrypt (x.keyBytes (dSlot d)) (slice aux 0 12) (src.drop (dWord d 7)) ∧ o = z.jobOut (dDst d) p j ∧ dMode d = 3 ∧ dEnc d = true ∧ x.jobKey d j 3 [0, 1] = none ∧ x.memRead (dSrc d) (dWord d 7 + dLen d) j.attr = (some src, y) ∧ y.memRead (dAux d) 28 j.attr = (some aux, z)) ∧
    (∃ (s : State) (h : Hw) (q : Fin 16) (j : Job) (d : List Byte) (x : Hw) (src aux : List Byte) (y z : Hw) (k : List Byte),
    h = s.hw ∧ h.jobRuns q 1 j d x ∧ k = x.keyBytes (dSlot d) ∧ dMode d = 3 ∧ dEnc d = false ∧ x.jobKey d j 3 [0, 1] = none ∧ x.memRead (dSrc d) (dWord d 7 + dLen d) j.attr = (some src, y) ∧ y.memRead (dAux d) 28 j.attr = (some aux, z)) :=
  ⟨⟨⟨{}, []⟩, _, 3, 0x40, secureTester, by decide +kernel, rfl, by decide +kernel⟩,
   ⟨⟨jobTester 0x8002_8A01 16 0x0108_0400 16 [], []⟩, _, 2, { addr := 0x08_0000_0000, secure := true, mid := 8, vmid := 0 }, _, _, _, _, rfl, ⟨by decide +kernel, rfl, rfl, by decide +kernel⟩, by decide +kernel, by decide +kernel, by decide +kernel, by decide +kernel, rfl⟩,
   ⟨⟨jobTester 0x8002_8A01 16 0x0118_0400 16 [], []⟩, _, 2, { addr := 0x08_0000_0000, secure := true, mid := 8, vmid := 0 }, _, _, _, _, _, _, rfl, ⟨by decide +kernel, rfl, rfl, by decide +kernel⟩, by decide +kernel, by decide +kernel, by decide +kernel, by decide +kernel, rfl, rfl⟩,
   ⟨⟨jobTester 0x8002_8A01 16 0x0128_0400 7 [], []⟩, _, 2, { addr := 0x08_0000_0000, secure := true, mid := 8, vmid := 0 }, _, _, _, _, _, _, rfl, ⟨by decide +kernel, rfl, rfl, by decide +kernel⟩, by decide +kernel, by decide +kernel, by decide +kernel, rfl, rfl⟩,
   ⟨⟨jobTester 0x8002_8A08 16 0x0138_0400 7 [], []⟩, _, 2, { addr := 0x08_0000_0000, secure := true, mid := 8, vmid := 0 }, _, _, _, _, _, _, _, _, rfl, ⟨by decide +kernel, rfl, rfl, by decide +kernel⟩, rfl, rfl, by decide +kernel, by decide +kernel, by decide +kernel, rfl, rfl⟩,
   ⟨⟨jobTester 0x8002_8A08 16 0x0130_0400 7 [], []⟩, _, 2, { addr := 0x08_0000_0000, secure := true, mid := 8, vmid := 0 }, _, _, _, _, _, _, _, rfl, ⟨by decide +kernel, rfl, rfl, by decide +kernel⟩, rfl, by decide +kernel, by decide +kernel, by decide +kernel, rfl, rfl⟩⟩

theorem witness_CryptoAndCheckValueCommandsComplete_2 :
    (∃ (s : State) (h : Hw) (q : Fin 16) (j : Job) (d : List Byte) (x : Hw) (src : List Byte) (y : Hw),
    h = s.hw ∧ h.jobRuns q 2 j d x ∧ dMode d ≤ 2 ∧ x.memRead (dSrc d) (dLen d) j.attr = (some src, y)) ∧
    (∃ (s : State) (h : Hw) (q : Fin 16) (j : Job) (d : List Byte) (x : Hw) (src : List Byte) (y : Hw) (k : List Byte),
    h = s.hw ∧ h.jobRuns q 3 j d x ∧ k = x.keyBytes (dSlot d) ∧ dMode d ≤ 2 ∧ x.jobKey d j 4 [2] = none ∧ x.memRead (dSrc d) (dLen d) j.attr = (some src, y)) ∧
    (∃ (s : State) (h : Hw) (q : Fin 16) (j : Job) (d : List Byte) (x : Hw) (src : List Byte) (y : Hw),
    h = s.hw ∧ h.jobRuns q 4 j d x ∧ dEnc d = true ∧ x.jobKey d j 2 [0, 1] = none ∧ x.memRead (dSrc d) (dLen d) j.attr = (some src, y)) ∧
    (∃ (s : State) (h : Hw) (q : Fin 16) (j : Job) (d : List Byte) (x : Hw) (src tag : List Byte) (y z : Hw),
    h = s.hw ∧ h.jobRuns q 4 j d x ∧ dEnc d = false ∧ x.jobKey d j 2 [0, 1] = none ∧ x.memRead (dSrc d) (dLen d) j.attr = (some src, y) ∧ y.memRead (dAux d) 16 j.attr = (some tag, z)) ∧
    (∃ (s : State) (h : Hw) (q : Fin 16) (j : Job) (d : List Byte) (x : Hw) (src : List Byte) (y : Hw) (c : Curve) (r : List Byte × Hw),
    h = s.hw ∧ h.jobRuns q 5 j d x ∧ (c = if dMode d = 0 then p256 else p384) ∧ r = y.freeBytes c.len ∧ dMode d ≤ 1 ∧ dLen d = c.len ∧ (x.jobKey d j 8 [if dMode d = 0 then 3 else 4] = none) ∧ x.rngOk = true ∧ x.memRead (dSrc d) (dLen d) j.attr = (some src, y)) ∧
    (∃ (s : State) (h : Hw) (q : Fin 16) (j : Job) (d : List Byte) (x : Hw) (src aux : List Byte) (y z : Hw) (c : Curve),
    h = s.hw ∧ h.jobRuns q 6 j d x ∧ (c = if dMode d = 0 then p256 else p384) ∧ dMode d ≤ 1 ∧ dLen d = c.len ∧ x.memRead (dSrc d) (dLen d) j.attr = (some src, y) ∧ y.memRead (dAux d) (4 * c.len + 1) j.attr = (some aux, z)) :=
  ⟨⟨⟨jobTester 0 16 0x0220_0000 7 [], []⟩, _, 2, { addr := 0x08_0000_0000, secure := true, mid := 8, vmid := 0 }, _, _, _, _, rfl, ⟨by decide +kernel, rfl, rfl, by decide +kernel⟩, by decide +kernel, rfl⟩,
   ⟨⟨jobTester 0x8202_8A10 32 0x0320_0400 7 [], []⟩, _, 2, { addr := 0x08_0000_0000, secure := true, mid := 8, vmid := 0 }, _, _, _, _, _, rfl, ⟨by decide +kernel, rfl, rfl, by decide +kernel⟩, rfl, by decide +kernel, by decide +kernel, rfl⟩,
   ⟨⟨jobTester 0x8002_8A04 16 0x0408_0400 7 [], []⟩, _, 2, { addr := 0x08_0000_0000, secure := true, mid := 8, vmid := 0 }, _, _, _, _, rfl, ⟨by decide +kernel, rfl, rfl, by decide +kernel⟩, by decide +kernel, by decide +kernel, rfl⟩,
   ⟨⟨jobTester 0x8002_8A04 16 0x0400_0400 7 [], []⟩, _, 2, { addr := 0x08_0000_0000, secure := true, mid := 8, vmid := 0 }, _, _, _, _, _, _, rfl, ⟨by decide +kernel, rfl, rfl, by decide +kernel⟩, by decide +kernel, by decide +kernel, rfl, rfl⟩,
   ⟨⟨jobTester 0x8302_8B00 32 0x0500_0400 32 [], []⟩, _, 2, { addr := 0x08_0000_0000, secure := true, mid := 8, vmid := 0 }, _, _, _, _, _, _, rfl, ⟨by decide +kernel, rfl, rfl, by decide +kernel⟩, rfl, rfl, by decide +kernel, by decide +kernel, by decide +kernel, by decide +kernel, rfl⟩,
   ⟨⟨jobTester 0x8302_8B00 32 0x0600_0400 32 [], []⟩, _, 2, { addr := 0x08_0000_0000, secure := true, mid := 8, vmid := 0 }, _, _, _, _, _, _, _, rfl, ⟨by decide +kernel, rfl, rfl, by decide +kernel⟩, rfl, by decide +kernel, by decide +kernel, rfl, rfl⟩⟩

theorem witness_CryptoAndCheckValueCommandsComplete_3 :
    (∃ (s : State) (h : Hw) (q : Fin 16) (j : Job) (d : List Byte) (x : Hw) (src : List Byte) (y : Hw),
    h = s.hw ∧ h.jobRuns q 7 j d x ∧ ¬ dLen d = 0 ∧ x.jobKey d j 8 [5] = none ∧ x.rngOk = true ∧ x.memRead (dSrc d) (dLen d) j.attr = (some src, y)) ∧
    (∃ (s : State) (h : Hw) (q : Fin 16) (j : Job) (d : List Byte) (x : Hw) (src aux : List Byte) (y z : Hw),
    h = s.hw ∧ h.jobRuns q 8 j d x ∧ ¬ dLen d = 0 ∧ x.memRead (dSrc d) (dLen d) j.attr = (some src, y) ∧ y.memRead (dAux d) 96 j.attr = (some aux, z)) ∧
    (∃ (s : State) (h : Hw) (n : Fin 8) (v : Word) (w : Nat) (g : Hw) (x : Hw) (y : Hw) (a : Attr),
    s.hw.takes (CVU_CFG n) a = true ∧ h = s.hw.answer 0 ∧ w = v.toNat ∧ g = h.storeReg (CVU_CFG n) w ∧ (x = if fld w 2 0 = h.get (CVU_CFG n) 2 0 then g else g.putBit (CVU_CFG n) 8 (crcAlg (fld w 2 0)).ref) ∧ y = (x.wrPair (CVU_INIT_LO n) (CVU_INIT_HI n) (crcAlg (fld w 2 0)).init).wrPair (CVU_XOR_LO n) (CVU_XOR_HI n) (crcAlg (fld w 2 0)).xor ∧ fld w 2 0 ≤ 5 ∧ fld w 21 20 ≠ 3 ∧ fld w 17 16 ≠ 3 ∧ fld w 31 24 ≠ 0) ∧
    (∃ (s : State) (h : Hw) (n : Fin 8) (v : Word) (x : Hw) (a : Attr),
    s.hw.takes (CVU_START n) a = true ∧ h = s.hw.answer 0 ∧ x = (h.setCvu n { h.cvu n with reg := h.rdPair (CVU_INIT_LO n) (CVU_INIT_HI n) % 2 ^ (h.cvuAlg n).width }).wr (CVU_LEN n) 0 ∧ fld v.toNat 0 0 ≠ 0) ∧
    (∃ (s : State) (h : Hw) (n : Fin 8) (w : Fin 3) (v : Word) (b : List Byte) (a : Attr),
    s.hw.takes (cvuDataReg n w) a = true ∧ h = s.hw.answer 0 ∧ b = leBytes (2 ^ w.val) v.toNat) ∧
    (∃ (s : State) (h : Hw) (n : Fin 8) (v : Word) (ok : Bool) (g : Hw) (a : Attr),
    s.hw.takes (CVU_EXPECT_LO n) a = true ∧ h = s.hw.answer 0 ∧ g = h.wr (CVU_EXPECT_LO n) v.toNat ∧ ok = decide (g.rdPair (CVU_EXPECT_LO n) (CVU_EXPECT_HI n) = g.cvuResult n)) :=
  ⟨⟨⟨jobTester 0x8502_8B00 32 0x0700_0400 32 [], []⟩, _, 2, { addr := 0x08_0000_0000, secure := true, mid := 8, vmid := 0 }, _, _, _, _, rfl, ⟨by decide +kernel, rfl, rfl, by decide +kernel⟩, by decide +kernel, by decide +kernel, by decide +kernel, rfl⟩,
   ⟨⟨jobTester 0x8502_8B00 32 0x0800_0400 32 [], []⟩, _, 2, { addr := 0x08_0000_0000, secure := true, mid := 8, vmid := 0 }, _, _, _, _, _, _, rfl, ⟨by decide +kernel, rfl, rfl, by decide +kernel⟩, by decide +kernel, rfl, rfl⟩,
   ⟨⟨{}, []⟩, _, 3, 0x0100_0000, _, _, _, _, secureTester, by decide +kernel, rfl, rfl, rfl, rfl, rfl, by decide +kernel⟩,
   ⟨⟨{}, []⟩, _, 3, 1, _, secureTester, by decide +kernel, rfl, rfl, by decide +kernel⟩,
   ⟨⟨{}, []⟩, _, 3, 2, 1, _, secureTester, by decide +kernel, rfl, rfl⟩,
   ⟨⟨{}, []⟩, _, 3, 1, _, _, secureTester, by decide +kernel, rfl, rfl, rfl⟩⟩

theorem witness_CryptoAndCheckValueCommandsComplete_4 :
    ∃ (s : State) (h : Hw) (n : Fin 8) (v : Word) (rcv dist out : Nat) (m : Nat) (x : CvuSt) (g : Hw) (a : Attr),
    s.hw.takes (CVU_ALIVE_IN n) a = true ∧ h = s.hw.answer 0 ∧ m = h.aliveMod n ∧ x = h.cvu n ∧ (g = (h.setCvu n { x with expected := if out = 2 then x.expected else rcv, first := false }).wr (CVU_ALIVE_ST n) (out * 2 ^ 29 + dist)) ∧ h.get (CVU_CFG n) 17 16 = 2 ∧ rcv = fld v.toNat 15 0 % m ∧ dist = (rcv + m - x.expected % m) % m ∧ (out = if x.first then 0 else if dist = 1 then 1 else if dist = 0 then 2 else if dist ≤ h.get (CVU_CFG n) 31 24 then 3 else 4) :=
  ⟨⟨({} : Hw).put (CVU_CFG 3) 17 16 2, []⟩, _, 3, 5, _, _, _, _, _, _, secureTester, by decide +kernel, rfl, rfl, rfl, rfl, by decide +kernel, rfl, rfl, rfl⟩

theorem witness_TwinCommandsComplete_1 :
    (∃ (s : State) (h : Hw) (v : Word) (g : Hw) (y : Hw) (x : Hw) (a : Attr),
    s.hw.takes (TWN_CFG) a = true ∧ h = s.hw.answer 0 ∧ g = h.storeReg TWN_CFG v.toNat ∧ y = ({ g with twn := { seq := g.twn.seq, faulty := g.twn.faulty } } : Hw).setTw twHello ∧ x = ({ y with twn := { y.twn with heardAt := y.now, hbTick := none } } : Hw).put TWN_STATE 11 8 0 ∧ h.bit TWN_CFG 31 = false ∧ twnCfgOk (g.rd TWN_CFG) = true ∧ g.bit TWN_CFG 31 = true ∧ h.twnMayEnable = true) ∧
    (∃ (s : State) (h : Hw) (v : Word) (g : Hw) (x : Hw) (a : Attr),
    s.hw.takes (TWN_CFG) a = true ∧ h = s.hw.answer 0 ∧ g = h.storeReg TWN_CFG v.toNat ∧ x = ({ g with twn := { seq := g.twn.seq, faulty := g.twn.faulty } } : Hw).setTw twOff ∧ h.bit TWN_CFG 31 = true ∧ fld (h.rd TWN_CFG) 30 0 = fld (g.rd TWN_CFG) 30 0 ∧ twnCfgOk (g.rd TWN_CFG) = true ∧ g.bit TWN_CFG 31 = false) ∧
    (∃ (s : State) (h : Hw) (g : Hw) (p : List Byte),
    h = s.hw ∧ g = { h with twn := { h.twn with helloAt := some h.now } } ∧ (p = leBytes 4 (Config.uid 0).toNat ++ leBytes 4 (Config.uid 1).toNat ++ (List.range 8).flatMap (fun w => leBytes 4 (h.rd (TWN_BUILD w)))) ∧ h.live pgTWN = true ∧ (h.twState == twOff) = false ∧ (∀ t, h.twn.helloAt = some t → t + 1_200_000 ≤ h.now) ∧ h.bit (STATUS pgTWN) 0 = true) ∧
    (∃ (s : State) (h : Hw) (b : List Byte) (f : Exrex) (g : Hw) (x : Hw) (y : Hw),
    h = s.hw ∧ h.exrexTakes b f ∧ f.typ = 1 ∧ g = h.peerSeen f ∧ x = { g with twn := { g.twn with heardAt := g.now } } ∧ y = { x with twn := { x.twn with hbTick := some (x.twn.hbTick.getD (x.tick32 0)) } } ∧ (g.twState == twHello) = true) ∧
    (∃ (s : State) (h : Hw) (b : List Byte) (f : Exrex) (g : Hw) (x : Hw),
    h = s.hw ∧ h.exrexTakes b f ∧ f.typ = 1 ∧ g = h.peerSeen f ∧ x = g.setTw twHello ∧ (g.twState == twHello) = false ∧ (g.twState == twAlone) = true) ∧
    (∃ (s : State) (h : Hw) (g : Hw),
    h = s.hw ∧ g = h.setTw twAlone ∧ h.live pgTWN = true ∧ (h.twState != twHello) = false ∧ h.twn.heardAt + h.get TWN_CFG 7 0 * 1_200_000 ≤ h.now) :=
  ⟨⟨⟨((({} : Hw).wr (TCU_SRC 0) 0x8000_0001).wr TWN_DEADLINE 0x0005_0005).wr TCU_BASE_TICK 1_000_000, []⟩, _, 0x8000_0501, _, _, _, secureTester, by decide +kernel, rfl, rfl, rfl, rfl, by decide +kernel⟩,
   ⟨⟨({} : Hw).wr TWN_CFG 0x8000_0501, []⟩, _, 0x0000_0501, _, _, secureTester, by decide +kernel, rfl, rfl, rfl, by decide +kernel⟩,
   ⟨⟨(({} : Hw).put TWN_STATE 2 0 1).putBit (STATUS pgTWN) 0 true, []⟩, _, _, _, rfl, rfl, rfl, by decide +kernel⟩,
   ⟨⟨({} : Hw).put TWN_STATE 2 0 twHello, []⟩, _, Exrex.bytes { typ := 1 }, { typ := 1 }, _, _, _, rfl, ⟨by decide +kernel, by decide +kernel, by decide +kernel⟩, rfl, rfl, rfl, rfl, by decide +kernel⟩,
   ⟨⟨({} : Hw).put TWN_STATE 2 0 twAlone, []⟩, _, Exrex.bytes { typ := 1 }, { typ := 1 }, _, _, rfl, ⟨by decide +kernel, by decide +kernel, by decide +kernel⟩, rfl, rfl, rfl, by decide +kernel⟩,
   ⟨⟨{ ({} : Hw).put TWN_STATE 2 0 twHello with now := 2 ^ 60 }, []⟩, _, _, rfl, rfl, by decide +kernel⟩⟩

theorem witness_TwinCommandsComplete_2 :
    (∃ (s : State) (h : Hw),
    h = s.hw ∧ h.now < h.twn.heardAt + h.get TWN_CFG 7 0 * 1_200_000) ∧
    (∃ (s : State) (h : Hw) (p : List Byte) (g : Hw),
    h = s.hw ∧ p = leBytes 4 (h.engCount engActive + h.spareCount * 0x100) ++ leBytes 4 h.dailyFlags ++ leBytes 4 (h.get TWN_STATE 11 8) ++ leBytes 4 (h.rd HLT_DSEQ) ∧ g = { h with twn := { h.twn with hbSent := some (h.tick32 0) } } ∧ h.live pgTWN = true ∧ (h.twState == twOff) = false ∧ h.tickBoundary 0 = true ∧ (h.twn.hbSent == some (h.tick32 0)) = false ∧ h.bit (STATUS pgTWN) 0 = true) ∧
    (∃ (s : State) (h : Hw) (b : List Byte) (f : Exrex) (g : Hw) (y : Hw) (x : Hw),
    h = s.hw ∧ h.exrexTakes b f ∧ f.typ = 2 ∧ g = h.peerSeen f ∧ y = g.put TWN_STATE 11 8 0 ∧ x = { y with twn := { y.twn with hbTick := some (y.twn.hbTick.getD (y.tick32 0)) } }) ∧
    (∃ (s : State) (h : Hw) (k : Nat) (x : Hw) (g : Hw),
    h = s.hw ∧ x = { h with twn := { h.twn with hbTick := some k } } ∧ g = ((x.sat TWN_HB_MISS_CNT).satF TWN_STATE 11 8).raise pgTWN 2 ∧ h.live pgTWN = true ∧ (h.twState == twOff) = false ∧ h.missedTick = some k) ∧
    (∃ (s : State) (h : Hw) (b : List Byte) (f : Exrex) (g : Hw) (c : Nat) (x : TwinCad),
    h = s.hw ∧ h.exrexTakes b f ∧ f.typ = 3 ∧ g = h.peerSeen f ∧ c = f.sub % 64 ∧ x = (g.twinCad c).segment f ∧ (g.twState != twInStep) = false ∧ g.bit TWN_STATE 3 = false ∧ g.twinned c = true ∧ ((g.cad c).latched && nowLo (g.cad c).last != f.tick) = false ∧ x.waiting = false) ∧
    (∃ (s : State) (h : Hw) (b : List Byte) (f : Exrex) (g : Hw) (bs : List Byte) (c : Nat) (x : TwinCad) (z : Hw),
    h = s.hw ∧ h.exrexTakes b f ∧ f.typ = 3 ∧ g = h.peerSeen f ∧ c = f.sub % 64 ∧ x = (g.twinCad c).segment f ∧ z = (g.setTwinCad c x).setTwinCad c { x with waiting := false } ∧ (g.twState != twInStep) = false ∧ g.bit TWN_STATE 3 = false ∧ g.twinned c = true ∧ ((g.cad c).latched && nowLo (g.cad c).last != f.tick) = false ∧ x.waiting = true ∧ x.image = some bs) :=
  ⟨⟨⟨(({} : Hw).put TWN_STATE 2 0 twHello).wr TWN_CFG 5, []⟩, _, rfl, by decide +kernel⟩,
   ⟨⟨(({} : Hw).put TWN_STATE 2 0 1).putBit (STATUS pgTWN) 0 true, []⟩, _, _, _, rfl, rfl, rfl, by decide +kernel⟩,
   ⟨⟨({} : Hw).put TWN_STATE 2 0 1, []⟩, _, Exrex.bytes { typ := 2 }, { typ := 2 }, _, _, _, rfl, ⟨by decide +kernel, by decide +kernel, by decide +kernel⟩, rfl, rfl, rfl, rfl⟩,
   ⟨⟨{ ({} : Hw).put TWN_STATE 2 0 1 with twn := { hbTick := some (2 ^ 32 - 9) } }, []⟩, _, 2 ^ 32 - 8, _, _, rfl, rfl, rfl, by decide +kernel⟩,
   ⟨⟨(({} : Hw).put TWN_STATE 2 0 twInStep).wr (TWN_CAD 0) 2, []⟩, _, Exrex.bytes { typ := 3, sub := 1, tick := 5, payload := [1] }, { typ := 3, sub := 1, tick := 5, payload := [1] }, _, _, _, rfl, ⟨by decide +kernel, by decide +kernel, by decide +kernel⟩, rfl, rfl, rfl, rfl, by decide +kernel⟩,
   ⟨⟨{ (({} : Hw).put TWN_STATE 2 0 twInStep).wr (TWN_CAD 0) 2 with twn := { cads := [(1, { waiting := true })] } }, []⟩, _, Exrex.bytes { typ := 3, sub := 1, tick := 5, flags := 16, payload := [1] }, { typ := 3, sub := 1, tick := 5, flags := 16, payload := [1] }, _, [1], _, _, _, rfl, ⟨by decide +kernel, by decide +kernel, by decide +kernel⟩, rfl, rfl, rfl, rfl, rfl, by decide +kernel⟩⟩

theorem witness_TwinCommandsComplete_3 :
    (∃ (s : State) (h : Hw) (c : Fin 64),
    h = s.hw ∧ h.live pgTWN = true ∧ (h.twinCad c).waiting = true ∧ (h.twinCad c).cueAt + h.get TWN_CFG 15 8 * 1200 ≤ h.now) ∧
    (∃ (s : State) (h : Hw) (c : Fin 64) (tick cycle sig : Nat) (g : Hw),
    h = s.hw ∧ g = h.setTwinCad c { h.twinCad c with toSend := none } ∧ (h.twinCad c).toSend = some (tick, cycle, sig) ∧ h.bit (STATUS pgTWN) 0 = true) ∧
    (∃ (s : State) (h : Hw) (b : List Byte) (f : Exrex) (g : Hw) (own : Nat) (c : Nat),
    h = s.hw ∧ h.exrexTakes b f ∧ f.typ = 4 ∧ g = h.peerSeen f ∧ c = f.sub % 64 ∧ (g.twState != twInStep) = false ∧ g.twinned c = true ∧ (g.twinCad c).unpaired = false ∧ ¬ fld f.flags 2 2 = 1 ∧ (g.twinCad c).own = some (f.tick, own)) ∧
    (∃ (s : State) (h : Hw) (b : List Byte) (f : Exrex) (g : Hw) (c : Nat),
    h = s.hw ∧ h.exrexTakes b f ∧ f.typ = 4 ∧ g = h.peerSeen f ∧ c = f.sub % 64 ∧ (g.twState != twInStep) = false ∧ g.twinned c = true ∧ (g.twinCad c).unpaired = false ∧ ¬ fld f.flags 2 2 = 1 ∧ (g.twinCad c).own = none) ∧
    (∃ (s : State) (h : Hw) (b : List Byte) (f : Exrex) (g : Hw) (c : Nat),
    h = s.hw ∧ h.exrexTakes b f ∧ f.typ = 4 ∧ g = h.peerSeen f ∧ c = f.sub % 64 ∧ (g.twState != twInStep) = false ∧ g.twinned c = true ∧ (g.twinCad c).unpaired = false ∧ fld f.flags 2 2 = 1) ∧
    (∃ (s : State) (h : Hw) (b : List Byte) (f : Exrex) (g : Hw) (x : Hw),
    h = s.hw ∧ h.exrexTakes b f ∧ f.typ = 6 ∧ g = h.peerSeen f ∧ x = g.twinWrite (f.part * 4096 % poolSize) f.payload ∧ g.twState = twSync ∧ f.part = g.twn.nextSeg ∧ g.twn.synced = false) :=
  ⟨⟨⟨{ twn := { cads := [(1, { waiting := true })] }, now := 2 ^ 60 }, []⟩, _, 1, rfl, by decide +kernel⟩,
   ⟨⟨{ ({} : Hw).putBit (STATUS pgTWN) 0 true with twn := { cads := [(1, { toSend := some (1, 2, 3) })] } }, []⟩, _, 1, 1, 2, 3, _, rfl, rfl, by decide +kernel⟩,
   ⟨⟨{ (({} : Hw).put TWN_STATE 2 0 twInStep).wr (TWN_CAD 0) 2 with twn := { cads := [(1, { own := some (5, 7) })] } }, []⟩, _, Exrex.bytes { typ := 4, sub := 1, tick := 5 }, { typ := 4, sub := 1, tick := 5 }, _, 7, _, rfl, ⟨by decide +kernel, by decide +kernel, by decide +kernel⟩, rfl, rfl, rfl, by decide +kernel⟩,
   ⟨⟨(({} : Hw).put TWN_STATE 2 0 twInStep).wr (TWN_CAD 0) 2, []⟩, _, Exrex.bytes { typ := 4, sub := 1, tick := 5 }, { typ := 4, sub := 1, tick := 5 }, _, _, rfl, ⟨by decide +kernel, by decide +kernel, by decide +kernel⟩, rfl, rfl, rfl, by decide +kernel⟩,
   ⟨⟨(({} : Hw).put TWN_STATE 2 0 twInStep).wr (TWN_CAD 0) 2, []⟩, _, Exrex.bytes { typ := 4, sub := 1, tick := 5, flags := 4 }, { typ := 4, sub := 1, tick := 5, flags := 4 }, _, _, rfl, ⟨by decide +kernel, by decide +kernel, by decide +kernel⟩, rfl, rfl, rfl, by decide +kernel⟩,
   ⟨⟨({} : Hw).put TWN_STATE 2 0 twSync, []⟩, _, Exrex.bytes { typ := 6 }, { typ := 6 }, _, _, rfl, ⟨by decide +kernel, by decide +kernel, by decide +kernel⟩, rfl, rfl, rfl, by decide +kernel⟩⟩

theorem witness_TwinCommandsComplete_4 :
    (∃ (s : State) (h : Hw) (b : List Byte) (f : Exrex) (g : Hw),
    h = s.hw ∧ h.exrexTakes b f ∧ f.typ = 7 ∧ g = h.peerSeen f ∧ g.twState = twSync) ∧
    (∃ (s : State) (h : Hw) (v : Word) (a : Attr),
    s.hw.takes (TWN_DECLARE) a = true ∧ h = s.hw.answer 0 ∧ ¬ fld v.toNat 0 0 = 0 ∧ (h.declareFaulty 31).1 = true) ∧
    (∃ (s : State) (h : Hw) (k : Fin 5) (g : Hw),
    h = s.hw ∧ g = h.putBit HLT_DECLARED k true) ∧
    (∃ (s : State) (h : Hw) (b : List Byte) (f : Exrex) (g : Hw) (good : Bool) (x : Hw),
    h = s.hw ∧ h.exrexTakes b f ∧ f.typ = 5 ∧ g = h.peerSeen f ∧ good = (g.twState == twInStep || g.twState == twDiverged) ∧ (x = g.exrexSend 8 0 0 (g.tick32 0) (if good then 0 else 0x20) (leBytes 4 (f.seq + 5 * 2 ^ 16)))) ∧
    (∃ (s : State) (h : Hw) (b : List Byte) (f : Exrex) (g : Hw) (q : Nat),
    h = s.hw ∧ h.exrexTakes b f ∧ f.typ = 8 ∧ g = h.peerSeen f ∧ g.twn.declared = some q ∧ fld (leNat (slice f.payload 0 4)) 15 0 = q ∧ fld (leNat (slice f.payload 0 4)) 19 16 = 5) ∧
    (∃ (s : State) (h : Hw),
    h = s.hw ∧ h.live pgTWN = true ∧ h.declareOver = true) :=
  ⟨⟨⟨({} : Hw).put TWN_STATE 2 0 twSync, []⟩, _, Exrex.bytes { typ := 7 }, { typ := 7 }, _, rfl, ⟨by decide +kernel, by decide +kernel, by decide +kernel⟩, rfl, rfl, by decide +kernel⟩,
   ⟨⟨{ twn := { declared := some 3 } }, []⟩, _, 1, secureTester, by decide +kernel, rfl, by decide +kernel⟩,
   ⟨⟨{}, []⟩, _, 1, _, rfl, rfl⟩,
   ⟨⟨({} : Hw).put TWN_STATE 2 0 twInStep, []⟩, _, Exrex.bytes { typ := 5 }, { typ := 5 }, _, _, _, rfl, ⟨by decide +kernel, by decide +kernel, by decide +kernel⟩, rfl, rfl, rfl, rfl⟩,
   ⟨⟨{ ({} : Hw).put TWN_STATE 2 0 twInStep with twn := { declared := some 3 } }, []⟩, _, Exrex.bytes { typ := 8, payload := [3, 0, 5, 0] }, { typ := 8, payload := [3, 0, 5, 0] }, _, 3, rfl, ⟨by decide +kernel, by decide +kernel, by decide +kernel⟩, rfl, rfl, by decide +kernel⟩,
   ⟨⟨{ twn := { declared := some 3 }, now := 2 ^ 60 }, []⟩, _, rfl, by decide +kernel⟩⟩

theorem witness_TwinCommandsComplete_5 :
    (∃ (s : State) (h : Hw) (v : Word) (a : Attr),
    s.hw.takes (TWN_RESYNC) a = true ∧ h = s.hw.answer 0 ∧ ¬ fld v.toNat 0 0 = 0 ∧ (h.twState != twDiverged) = false ∧ h.bit TWN_STATE 3 = true) ∧
    (∃ (s : State) (h : Hw) (lane : Fin 2) (g : Hw) (x : Hw),
    h = s.hw ∧ g = h.putBit TWN_LINK lane true ∧ x = g.putBit (STATUS pgTWN) 0 (g.bit TWN_LINK 0 || g.bit TWN_LINK 1) ∧ h.live pgTWN = true ∧ h.bit (STATUS pgTWN) 0 = false ∧ (g.bit TWN_LINK 0 || g.bit TWN_LINK 1) = true) ∧
    (∃ (s : State) (h : Hw) (lane : Fin 2) (g : Hw) (x : Hw),
    h = s.hw ∧ g = (h.putBit TWN_LINK lane false).putBit (STATUS pgTWN) 0 false ∧ x = ({ g with twn := { g.twn with out := [], sendSeg := none } } : Hw).raise pgTWN 4 ∧ h.live pgTWN = true ∧ h.bit (STATUS pgTWN) 0 = true ∧ ((h.putBit TWN_LINK lane false).bit TWN_LINK 0 || (h.putBit TWN_LINK lane false).bit TWN_LINK 1) = false) ∧
    (∃ (s : State) (h : Hw) (v : Word) (a : Attr),
    s.hw.takes (TWN_CNT_CLR) a = true ∧ h = s.hw.answer 0 ∧ fld v.toNat 0 0 = 1 ∧ fld v.toNat 1 1 = 1 ∧ fld v.toNat 2 2 = 1 ∧ fld v.toNat 3 3 = 1) :=
  ⟨⟨⟨(({} : Hw).put TWN_STATE 2 0 twDiverged).putBit TWN_STATE 3 true, []⟩, _, 1, secureTester, by decide +kernel, rfl, by decide +kernel⟩,
   ⟨⟨{}, []⟩, _, 1, _, _, rfl, rfl, rfl, by decide +kernel⟩,
   ⟨⟨(({} : Hw).putBit TWN_LINK 1 true).putBit (STATUS pgTWN) 0 true, []⟩, _, 1, _, _, rfl, rfl, rfl, by decide +kernel⟩,
   ⟨⟨{}, []⟩, _, 15, secureTester, by decide +kernel, rfl, by decide +kernel⟩⟩

theorem witness_HealthCommandsComplete :
    (∃ (s : State) (h : Hw) (e : Nat) (x : Hw) (g : Hw),
    h = s.hw ∧ x = { h with hlt := { h.hlt with rotaAt := h.now } } ∧ g = { x with hlt := { x.hlt with testing := some e, passed := false } } ∧ h.live pgHLT = true ∧ h.hlt.rotaAt + 600_000_000 ≤ h.now ∧ h.rotaNext = some e ∧ h.hlt.testing = none ∧ (¬(e = h.get HLT_ROTA 20 16 ∧ h.hlt.passed = false))) ∧
    (∃ (s : State) (h : Hw) (pd8 : Bool) (res : List EngineTest) (g : Hw),
    h = s.hw ∧ (g = each 9 (fun i (x : Hw) => x.judged ((if pd8 then 9 else 0) + i) (res.getD i ⟨0, 0, false, false⟩)) h) ∧ (h.pdOn (if pd8 then 8 else 7) = true) ∧ h.live pgCEA = true) ∧
    (∃ (s : State) (h : Hw) (x : Hw) (ws : List Nat) (y : Hw) (g : Hw),
    h = s.hw ∧ x = h.inc HLT_DSEQ ∧ ws = x.dailyWords ++ [crc32 (wordBytes x.dailyWords)] ∧ (y = each 64 (fun w (x : Hw) => x.wr (HLT_DAILY w) (ws.getD w 0)) x) ∧ g = ({ y with hlt := { testing := y.hlt.testing, passed := y.hlt.passed, holds := y.hlt.holds, t1ue := y.hlt.t1ue, t0ue := y.hlt.t0ue, transients := y.hlt.transients, rotaAt := y.hlt.rotaAt, dailyAt := y.now, dailyTick := some (y.slotVal 0 / tickUnit) } } : Hw).raise pgHLT 0 ∧ h.dailyDue = true) :=
  ⟨⟨⟨{ (({} : Hw).setEngState 3 engSpare).put HLT_ROTA 20 16 5 with now := 2 ^ 60 }, []⟩, _, 3, _, _, rfl, rfl, rfl, by decide +kernel⟩,
   ⟨⟨({} : Hw).wr PWR_STATE 0xFFFF_FFFF, []⟩, _, false, [], _, rfl, rfl, by decide +kernel⟩,
   ⟨⟨{ now := 2 ^ 60 }, []⟩, _, _, _, _, _, rfl, rfl, rfl, rfl, rfl, by decide +kernel⟩⟩

theorem witness_ReelCommandsComplete_1 :
    (∃ (s : State) (h : Hw) (g : Hw),
    h = s.hw ∧ g = (h.record 1 0 h.slatePayload).slated h.rel.no ∧ h.tickBoundary 0 = true ∧ (h.rel.slateTick == some (h.slotVal 0 / tickUnit)) = false) ∧
    (∃ (s : State) (h : Hw) (p : List Byte) (g : Hw),
    h = s.hw ∧ p = leBytes 4 h.rel.gapRecs ++ leBytes 4 h.rel.gapBytes ∧ g = { h with rel := { h.rel with gapRecs := 0, gapBytes := 0 } } ∧ h.recording = true ∧ h.relQueued + 32 ≤ 0x4_0000 ∧ ¬ h.rel.gapRecs = 0) ∧
    (∃ (s : State) (h : Hw),
    h = s.hw ∧ h.snapDue = true) ∧
    (∃ (s : State) (h : Hw),
    h = s.hw ∧ h.snapDue = false) ∧
    (∃ (s : State) (h : Hw) (b : Nat) (g : Hw),
    h = s.hw ∧ g = h.record 9 0 (leBytes 4 b ++ leBytes 4 (h.rel.snapNo - 1)) ∧ h.rel.snap = some b ∧ h.recording = true) ∧
    (∃ (s : State) (h : Hw) (lines : List (Fin 2048)) (es : List Nat) (src : Nat) (g : Hw),
    h = s.hw ∧ (es = (lines.map Fin.val).filter (fun e => h.seesEdge 2 e e && !h.lineSecure e)) ∧ (src = (List.range 4).foldl (fun x k => if h.bit (REL_TRIG k) 31 && es.contains (h.get (REL_TRIG k) 10 0) then x + 2 ^ k else x) 0) ∧ (g = { h with took := es.map (fun e => (2, e)) ++ h.took }) ∧ ¬ src = 0) :=
  ⟨⟨⟨{}, []⟩, _, _, rfl, rfl, by decide +kernel⟩,
   ⟨⟨{ ({} : Hw).put REL_STATE 31 28 1 with rel := { gapRecs := 1 } }, []⟩, _, _, _, rfl, rfl, rfl, by decide +kernel⟩,
   ⟨⟨{ ({} : Hw).put REL_STATE 31 28 1 with now := 2 ^ 60 }, []⟩, _, rfl, by decide +kernel⟩,
   ⟨⟨{}, []⟩, _, rfl, by decide +kernel⟩,
   ⟨⟨{ ({} : Hw).put REL_STATE 31 28 1 with rel := { snap := some 1 } }, []⟩, _, 1, _, rfl, rfl, by decide +kernel⟩,
   ⟨⟨{ ((({} : Hw).put REL_STATE 31 28 1).wr (REL_TRIG 2) 0x8000_0005).wr (WGT_EVT_WORLD 0) 0 with rose := [5] }, []⟩, _, [5], _, _, _, rfl, rfl, rfl, rfl, by decide +kernel⟩⟩

theorem witness_ReelCommandsComplete_2 :
    (∃ (s : State) (h : Hw) (v : Word) (a : Attr),
    s.hw.takes (REL_TRIG_SW) a = true ∧ h = s.hw.answer 0 ∧ fld v.toNat 0 0 = 1 ∧ h.live pgREL = true ∧ h.relState = 1) ∧
    (∃ (s : State) (h : Hw),
    h = s.hw ∧ h.postOver = true) ∧
    (∃ (s : State) (h : Hw) (v : Word) (a : Attr),
    s.hw.takes (REL_REARM) a = true ∧ h = s.hw.answer 0 ∧ ¬ fld v.toNat 0 0 = 0 ∧ h.relState = 3) ∧
    (∃ (s : State) (h : Hw) (v : Word) (g : Hw) (a : Attr),
    s.hw.takes (CTRL pgREL) a = true ∧ h = s.hw.answer 0 ∧ g = h.wr (CTRL pgREL) (fld v.toNat 2 0) ∧ h.bit (CTRL pgREL) 0 = false ∧ fld v.toNat 0 0 = 1 ∧ h.relRegionsOk = true) ∧
    (∃ (s : State) (h : Hw) (v : Word) (g : Hw) (a : Attr),
    s.hw.takes (CTRL pgREL) a = true ∧ h = s.hw.answer 0 ∧ g = h.wr (CTRL pgREL) (fld v.toNat 2 0) ∧ h.bit (CTRL pgREL) 0 = true ∧ fld v.toNat 1 1 = h.get (CTRL pgREL) 1 1 ∧ ¬ fld v.toNat 0 0 = 1) ∧
    (∃ (s : State) (h : Hw) (v : Word) (t : Nat) (x : Hw) (y : Hw) (a : Attr),
    s.hw.takes (REL_DUMP) a = true ∧ h = s.hw.answer 0 ∧ t = fld v.toNat 17 16 ∧ x = (h.wr REL_DUMP (0xC000_0000 + fld v.toNat 17 0)).setRelState 4 ∧ y = { x.wr REL_DUMP_LEN x.dumpLen with rel := { x.rel with dumpBad := false } } ∧ ¬ fld v.toNat 31 31 = 0 ∧ h.relState = 3 ∧ (¬(t = 0 ∨ t = 3 ∨ (t = 2 ∧ h.dumpFits = false)))) :=
  ⟨⟨⟨({} : Hw).put REL_STATE 31 28 1, []⟩, _, 1, secureTester, by decide +kernel, rfl, by decide +kernel⟩,
   ⟨⟨(({} : Hw).put REL_STATE 31 28 2).wr REL_WIN 0, []⟩, _, rfl, by decide +kernel⟩,
   ⟨⟨({} : Hw).put REL_STATE 31 28 3, []⟩, _, 1, secureTester, by decide +kernel, rfl, by decide +kernel⟩,
   ⟨⟨(((({} : Hw).wr REL_SIZE 16).wr REL_BASE_HI 8).wr REL_SNAP_HI 8).wr REL_SNAP_LO 0x1000_0000, []⟩, _, 1, _, secureTester, by decide +kernel, rfl, rfl, by decide +kernel⟩,
   ⟨⟨({} : Hw).wr (CTRL pgREL) 1, []⟩, _, 0, _, secureTester, by decide +kernel, rfl, rfl, by decide +kernel⟩,
   ⟨⟨({} : Hw).put REL_STATE 31 28 3, []⟩, _, 0x8001_0000, _, _, _, secureTester, by decide +kernel, rfl, rfl, rfl, rfl, by decide +kernel⟩⟩

theorem witness_ReelCommandsComplete_3 :
    (∃ (s : State) (h : Hw),
    h = s.hw ∧ h.live pgREL = true ∧ h.relState = 4 ∧ h.sys.deferred.contains .relDump = false) ∧
    (∃ (s : State) (h : Hw) (v : Word) (a : Attr),
    s.hw.takes (REL_TAKE_CTRL) a = true ∧ h = s.hw.answer 0 ∧ ¬ fld v.toNat 0 0 = 0 ∧ h.lcsOpen = true ∧ h.bit (CTRL pgCUE) 0 = false ∧ h.get (CTRL pgREL) 1 0 = 3 ∧ ¬ h.relState = 5) ∧
    (∃ (s : State) (h : Hw) (x : TakeSt) (r : RelRec),
    h = s.hw ∧ h.live pgREL = true ∧ h.live pgCEA = true ∧ h.rel.take = some x ∧ h.takeNext x = some r) ∧
    (∃ (s : State) (h : Hw) (x : TakeSt) (r : RelRec) (rest : List RelRec),
    h = s.hw ∧ h.live pgREL = true ∧ h.live pgCEA = true ∧ h.rel.take = some x ∧ h.takeNext x = none ∧ x.left = r :: rest ∧ ¬ r.kind = 11) ∧
    (∃ (s : State) (h : Hw) (x : TakeSt),
    h = s.hw ∧ h.live pgREL = true ∧ h.rel.take = some x ∧ x.left = []) ∧
    (∃ (s : State) (h : Hw) (x : TakeSt) (r : RelRec) (rest : List RelRec),
    h = s.hw ∧ h.live pgREL = true ∧ h.rel.take = some x ∧ x.left = r :: rest ∧ r.kind = 11) :=
  ⟨⟨⟨({} : Hw).put REL_STATE 31 28 4, []⟩, _, rfl, by decide +kernel⟩,
   ⟨⟨(({} : Hw).wr KEY_LCS 3).wr (CTRL pgREL) 3, []⟩, _, 1, secureTester, by decide +kernel, rfl, by decide +kernel⟩,
   ⟨⟨{ rel := { take := some { base := 0, left := [{ kind := 2, sub := 1, no := 1, tick := 0, ofs := 0, size := 0 }], start := 0 } } }, []⟩, _, { base := 0, left := [{ kind := 2, sub := 1, no := 1, tick := 0, ofs := 0, size := 0 }], start := 0 }, { kind := 2, sub := 1, no := 1, tick := 0, ofs := 0, size := 0 }, rfl, by decide +kernel⟩,
   ⟨⟨{ rel := { take := some { base := 0, left := [{ kind := 1, sub := 1, no := 1, tick := 0, ofs := 0, size := 0 }], start := 0 } } }, []⟩, _, { base := 0, left := [{ kind := 1, sub := 1, no := 1, tick := 0, ofs := 0, size := 0 }], start := 0 }, { kind := 1, sub := 1, no := 1, tick := 0, ofs := 0, size := 0 }, [], rfl, by decide +kernel⟩,
   ⟨⟨{ rel := { take := some { base := 0, left := [], start := 0 } } }, []⟩, _, { base := 0, left := [], start := 0 }, rfl, by decide +kernel⟩,
   ⟨⟨{ rel := { take := some { base := 0, left := [{ kind := 11, sub := 1, no := 1, tick := 0, ofs := 0, size := 0 }], start := 0 } } }, []⟩, _, { base := 0, left := [{ kind := 11, sub := 1, no := 1, tick := 0, ofs := 0, size := 0 }], start := 0 }, { kind := 11, sub := 1, no := 1, tick := 0, ofs := 0, size := 0 }, [], rfl, by decide +kernel⟩⟩

theorem witness_BootAndUpdateCommandsComplete_1 :
    (∃ (s : State) (h : Hw),
    h = s.hw ∧ h.bootAt 0 = true) ∧
    (∃ (s : State) (h : Hw),
    h = s.hw ∧ h.bootAt 1 = true ∧ (([copyA, copyB].map (fun o => h.flashRead o 0x10_0000)).find? (fun b => h.imageReason b 2 0x10_0000 == none) = none)) ∧
    (∃ (s : State) (h : Hw),
    h = s.hw ∧ h.bootAt 1 = true) ∧
    (∃ (s : State) (h : Hw) (n : Nat) (b : List Byte) (x : Hw),
    h = s.hw ∧ x = h.spaceWrite .t1 (Config.imageAt % 2 ^ 34) b ∧ h.bootAt 2 = true ∧ n = min mainLen (leNat (h.flashRead (mainAt + 12) 4)) ∧ b = h.flashRead mainAt (max 512 n)) ∧
    (∃ (s : State) (h : Hw) (n : Nat) (b : List Byte) (u : List (Nat × Nat × Nat)) (x : Hw),
    h = s.hw ∧ (u = [7, 5, 4, 3, 1].flatMap (fun ty => ((imgTable b).filter (fun e => e.1 == ty)).map (fun e => (e.1, e.2.1, e.2.2.2.2)))) ∧ x = { h.loadProfiles with boot := { h.boot with loaded := u } } ∧ h.bootAt 3 = true ∧ h.boot.image = some n ∧ (b = (List.range n).map (fun i => h.t1Byte (Config.imageAt % 2 ^ 34 + i)))) ∧
    (∃ (s : State) (h : Hw) (r : Nat),
    h = s.hw ∧ h.boot.enter = some r) :=
  ⟨⟨⟨{}, []⟩, _, rfl, by decide +kernel⟩,
   ⟨⟨({} : Hw).put BOOT_STAGE 2 0 1, []⟩, _, rfl, by decide +kernel, erased_has_no_loader _ _ _ _ rfl (by decide)⟩,
   ⟨⟨({} : Hw).put BOOT_STAGE 2 0 1, []⟩, _, rfl, by decide +kernel⟩,
   ⟨⟨({} : Hw).put BOOT_STAGE 2 0 2, []⟩, _, _, _, _, rfl, rfl, by decide +kernel, rfl, rfl⟩,
   ⟨⟨{ ({} : Hw).put BOOT_STAGE 2 0 3 with boot := { image := some 3 } }, []⟩, _, 3, _, _, _, rfl, rfl, rfl, by decide +kernel, by decide +kernel, rfl⟩,
   ⟨⟨{ boot := { enter := some 3 } }, []⟩, _, 3, rfl, by decide +kernel⟩⟩

theorem witness_BootAndUpdateCommandsComplete_2 :
    (∃ (s : State) (h : Hw) (v : Word) (o : Nat) (src : Nat) (g : Hw) (x : Hw) (a : Attr),
    s.hw.takes (BOOT_FL_CMD) a = true ∧ h = s.hw.answer 0 ∧ o = h.get BOOT_FL_OFS 29 0 ∧ src = 2 ^ 32 * h.get BOOT_FL_SRC_HI 7 0 + h.rd BOOT_FL_SRC_LO ∧ g = (h.wr BOOT_FL_CMD (1 * 2 ^ 28 + 2 ^ 27)).wr BOOT_FL_DONE 0 ∧ x = g.putBit (STATUS pgBOOT) 0 true ∧ a.secure = true ∧ h.bit BOOT_FL_CMD 27 = false ∧ o % 0x1_0000 = 0 ∧ g.regionRefused 1 o 0x1_0000 src = false ∧ x.inHold = false) ∧
    (∃ (s : State) (h : Hw) (v : Word) (o : Nat) (n : Nat) (src : Nat) (g : Hw) (x : Hw) (a : Attr),
    s.hw.takes (BOOT_FL_CMD) a = true ∧ h = s.hw.answer 0 ∧ o = h.get BOOT_FL_OFS 29 0 ∧ n = h.get BOOT_FL_LEN 24 0 ∧ src = 2 ^ 32 * h.get BOOT_FL_SRC_HI 7 0 + h.rd BOOT_FL_SRC_LO ∧ g = (h.wr BOOT_FL_CMD (2 * 2 ^ 28 + 2 ^ 27)).wr BOOT_FL_DONE 0 ∧ x = g.putBit (STATUS pgBOOT) 0 true ∧ a.secure = true ∧ h.bit BOOT_FL_CMD 27 = false ∧ (o % 256 = 0 ∧ n % 256 = 0 ∧ 256 ≤ n ∧ n ≤ 0x100_0000) ∧ g.regionRefused 2 o n src = false ∧ x.inHold = false) ∧
    (∃ (s : State) (h : Hw) (v : Word) (o : Nat) (n : Nat) (src : Nat) (g : Hw) (x : Hw) (a : Attr),
    s.hw.takes (BOOT_FL_CMD) a = true ∧ h = s.hw.answer 0 ∧ o = h.get BOOT_FL_OFS 29 0 ∧ n = h.get BOOT_FL_LEN 24 0 ∧ src = 2 ^ 32 * h.get BOOT_FL_SRC_HI 7 0 + h.rd BOOT_FL_SRC_LO ∧ g = (h.wr BOOT_FL_CMD (3 * 2 ^ 28 + 2 ^ 27)).wr BOOT_FL_DONE 0 ∧ x = g.putBit (STATUS pgBOOT) 0 true ∧ a.secure = true ∧ h.bit BOOT_FL_CMD 27 = false ∧ (o % 256 = 0 ∧ n % 256 = 0 ∧ 256 ≤ n ∧ n ≤ 0x100_0000) ∧ g.regionRefused 3 o n src = false ∧ x.inHold = false) ∧
    (∃ (s : State) (h : Hw) (pages : BitVec 17) (o : FlashOp),
    h = s.hw ∧ h.boot.busy = some o ∧ h.inHold = false ∧ o.op = 1) ∧
    (∃ (s : State) (h : Hw) (pages : BitVec 17) (o : FlashOp),
    h = s.hw ∧ h.boot.busy = some o ∧ h.inHold = false ∧ o.op = 2) ∧
    (∃ (s : State) (h : Hw) (pages : BitVec 17) (o : FlashOp),
    h = s.hw ∧ h.boot.busy = some o ∧ h.inHold = false ∧ o.op = 3) :=
  ⟨⟨⟨({} : Hw).wr BOOT_FL_OFS 0x100_0000, []⟩, _, 0, _, _, _, _, secureTester, by decide +kernel, rfl, rfl, rfl, rfl, rfl, by decide +kernel⟩,
   ⟨⟨(({} : Hw).wr BOOT_FL_OFS 0x100_0000).wr BOOT_FL_LEN 256, []⟩, _, 0, _, _, _, _, _, secureTester, by decide +kernel, rfl, rfl, rfl, rfl, rfl, rfl, by decide +kernel⟩,
   ⟨⟨(({} : Hw).wr BOOT_FL_OFS 0x100_0000).wr BOOT_FL_LEN 256, []⟩, _, 0, _, _, _, _, _, secureTester, by decide +kernel, rfl, rfl, rfl, rfl, rfl, rfl, by decide +kernel⟩,
   ⟨⟨{ boot := { busy := some { op := 1, ofs := 0x100_0000, len := 0x1_0000, src := 0 } } }, []⟩, _, 0, { op := 1, ofs := 0x100_0000, len := 0x1_0000, src := 0 }, rfl, by decide +kernel⟩,
   ⟨⟨{ boot := { busy := some { op := 2, ofs := 0x100_0000, len := 0x1_0000, src := 0 } } }, []⟩, _, 3, { op := 2, ofs := 0x100_0000, len := 0x1_0000, src := 0 }, rfl, by decide +kernel⟩,
   ⟨⟨{ boot := { busy := some { op := 3, ofs := 0x100_0000, len := 0x1_0000, src := 0 } } }, []⟩, _, 3, { op := 3, ofs := 0x100_0000, len := 0x1_0000, src := 0 }, rfl, by decide +kernel⟩⟩

theorem witness_BootAndUpdateCommandsComplete_3 :
    (∃ (s : State) (h : Hw) (pages : BitVec 17) (o : FlashOp),
    h = s.hw ∧ h.boot.busy = some o ∧ h.inHold = false) ∧
    (∃ (s : State) (h : Hw) (v : Word) (head : List Byte) (y : Hw) (src : Nat) (len : Nat) (x : Hw) (z : Hw) (a : Attr),
    s.hw.takes (BOOT_UPD_CTRL) a = true ∧ h = s.hw.answer 0 ∧ src = 2 ^ 32 * h.get BOOT_UPD_SRC_HI 7 0 + h.rd BOOT_UPD_SRC_LO ∧ len = h.rd BOOT_UPD_LEN ∧ x = h.putBit BOOT_ACT 31 false ∧ z = { y.wr BOOT_UPD_CTRL (2 ^ 31 + 1) with boot := { y.boot with update := some (src, len) } } ∧ a.secure = true ∧ ¬ fld v.toNat 31 31 = 0 ∧ ¬ h.get BOOT_UPD_CTRL 2 0 = 1 ∧ x.memRead src 256 (ownAttr 0x02) = (some head, y) ∧ y.updRefuses head len = none ∧ z.inHold = false) ∧
    (∃ (s : State) (h : Hw) (src len : Nat) (bs : List Byte) (y : Hw) (x : Hw),
    h = s.hw ∧ x = { h with boot := { h.boot with update := none } } ∧ h.boot.update = some (src, len) ∧ h.inHold = false ∧ x.memRead src len (ownAttr 0x02) = (some bs, y)) ∧
    (∃ (s : State) (h : Hw) (v : Word) (a : Attr),
    s.hw.takes (BOOT_ACT) a = true ∧ h = s.hw.answer 0 ∧ a.secure = true ∧ h.get BOOT_UPD_CTRL 2 0 = 2) ∧
    (∃ (s : State) (h : Hw) (c : CueRef) (v : Nat),
    s.hw.cueActs c 0x58 v = true ∧ h = s.hw.cueFired c.idx ∧ h.bit BOOT_ACT 31 = true ∧ h.inHold = false) ∧
    (∃ (s : State) (h : Hw) (v : Word) (r : Nat) (a : Attr),
    s.hw.takes (BOOT_RECOVER) a = true ∧ h = s.hw.answer 0 ∧ r = fld v.toNat 11 8 ∧ ¬ fld v.toNat 0 0 = 0 ∧ (¬(r ≠ 0 ∧ r ≠ 7 ∧ r ≠ 9))) :=
  ⟨⟨⟨{ boot := { busy := some { op := 3, ofs := 0x100_0000, len := 0x1_0000, src := 0 } } }, []⟩, _, 3, { op := 3, ofs := 0x100_0000, len := 0x1_0000, src := 0 }, rfl, by decide +kernel⟩,
   ⟨⟨updateTester, []⟩, _, 0x8000_0000, _, _, _, _, _, _, secureTester, by decide +kernel, rfl, rfl, rfl, rfl, rfl, by decide +kernel, by decide +kernel, by decide +kernel, rfl, by decide +kernel⟩,
   ⟨⟨{ boot := { update := some (0x08_0000_0000, 16) } }, []⟩, _, 0x08_0000_0000, 16, _, _, _, rfl, rfl, by decide +kernel, by decide +kernel, rfl⟩,
   ⟨⟨({} : Hw).put BOOT_UPD_CTRL 2 0 2, []⟩, _, 0x8000_0000, secureTester, by decide +kernel, rfl, by decide +kernel⟩,
   ⟨⟨(cueTester 0x58 0).wr BOOT_ACT 0x8000_0000, []⟩, _, ⟨7⟩, 0, by decide +kernel, rfl, by decide +kernel⟩,
   ⟨⟨{}, []⟩, _, 0x701, _, secureTester, by decide +kernel, rfl, rfl, by decide +kernel⟩⟩

theorem witness_BootAndUpdateCommandsComplete_4 :
    (∃ (s : State) (h : Hw) (v : Word) (keys : Nat) (a : Attr),
    s.hw.takes (BOOT_PK_REV) a = true ∧ h = s.hw.answer 0 ∧ keys = fld v.toNat 3 0 ∧ fld v.toNat 31 16 = 0x5245 ∧ ¬ fld keys h.boot.key h.boot.key = 1 ∧ h.inHold = false) ∧
    (∃ (s : State) (h : Hw) (p : Fin 4) (b x : List Byte) (host : Nat),
    h = s.hw ∧ h.recoveryFrame b 1 = some (host, x)) ∧
    (∃ (s : State) (h : Hw) (p : Fin 4) (b x : List Byte) (host : Nat),
    h = s.hw ∧ h.recoveryFrame b 2 = some (host, x) ∧ leNat (slice x 4 4) + leNat (slice x 8 2) ≤ 0x400_0000) ∧
    (∃ (s : State) (h : Hw) (p : Fin 4) (b x : List Byte) (host : Nat) (ok : Bool),
    h = s.hw ∧ h.recoveryFrame b 3 = some (host, x)) ∧
    (∃ (s : State) (h : Hw) (v : Word) (ok : Bool) (a : Attr),
    s.hw.takes (BOOT_RCV_COMMIT) a = true ∧ h = s.hw.answer 0 ∧ h.bit BOOT_STAGE 31 = true ∧ h.get BOOT_STAGE 18 16 = 2) :=
  ⟨⟨⟨{}, []⟩, _, 0x5245_0002, _, secureTester, by decide +kernel, rfl, rfl, by decide +kernel⟩,
   ⟨⟨((({} : Hw).wr BOOT_STAGE 0x8000_0000).wr RIO_MAC_LO 0).wr RIO_MAC_HI 0 |>.wr BOOT_RCV_ETYPE 0x88B5, []⟩, _, 1, recoveryBytes 1 [], (recoveryBytes 1 []).drop 14, 5, rfl, by decide +kernel⟩,
   ⟨⟨((({} : Hw).wr BOOT_STAGE 0x8000_0000).wr RIO_MAC_LO 0).wr RIO_MAC_HI 0 |>.wr BOOT_RCV_ETYPE 0x88B5, []⟩, _, 1, recoveryBytes 2 [1, 2], (recoveryBytes 2 [1, 2]).drop 14, 5, rfl, by decide +kernel⟩,
   ⟨⟨((({} : Hw).wr BOOT_STAGE 0x8000_0000).wr RIO_MAC_LO 0).wr RIO_MAC_HI 0 |>.wr BOOT_RCV_ETYPE 0x88B5, []⟩, _, 1, recoveryBytes 3 [1, 2, 0, 0], (recoveryBytes 3 [1, 2, 0, 0]).drop 14, 5, true, rfl, by decide +kernel⟩,
   ⟨⟨({} : Hw).wr BOOT_STAGE 0x8002_0000, []⟩, _, 512, true, secureTester, by decide +kernel, rfl, by decide +kernel⟩⟩

theorem witness_SupplyAndPowerCommandsComplete_1 :
    (∃ (s : State) (h : Hw) (mv : BitVec 16) (page : Bool) (g : Hw) (x : Hw),
    h = s.hw ∧ g = h.vbatMeasured mv.toNat ∧ x = { g with sys := { g.sys with holdSince := g.now }, hlt := { g.hlt with hold := true, holds := g.hlt.holds + 1 } } ∧ g.bit SUP_STATE 31 = false ∧ (page = match g.boot.busy with | some o => o.op == 2 | none => false) ∧ g.belowWarn mv.toNat = true) ∧
    (∃ (s : State) (h : Hw) (mv : BitVec 16) (ok : Bool) (g : Hw) (x : Hw) (y : Hw),
    h = s.hw ∧ g = h.vbatMeasured mv.toNat ∧ x = (({ g with sys := { g.sys with deferred := [] }, boot := { g.boot with page := false } } : Hw).putBit SUP_STATE 31 false).put SUP_STATE 23 16 0 ∧ y = (x.wr SUP_HOLD_LAST (min 0xFFFF_FFFF ((x.now - x.sys.holdSince) / 1200))).raise pgSUP 1 ∧ g.inHold = true ∧ g.atExitLevel mv.toNat = true ∧ g.sys.holdSince + 1_200_000 ≤ g.now) ∧
    (∃ (s : State) (h : Hw) (mv : BitVec 16) (g : Hw),
    h = s.hw ∧ g = h.vbatMeasured mv.toNat) ∧
    (∃ (s : State) (h : Hw) (uv ov : Bool) (tens : BitVec 16) (x : Hw) (y : Hw),
    h = s.hw ∧ x = (h.put SUP_VOLT 31 16 tens.toNat).raiseIf (uv && !h.bit SUP_STATE 2) pgSUP 3 ∧ y = ((x.raiseIf (ov && !x.bit SUP_STATE 3) pgSUP 4).putBit SUP_STATE 2 uv).putBit SUP_STATE 3 ov) ∧
    (∃ (s : State) (h : Hw),
    h = s.hw) ∧
    (∃ (s : State) (h : Hw) (mv : BitVec 16) (x : Hw),
    h = s.hw ∧ x = { h with sys := { h.sys with vbatOff := false, inReset := true, causes := [1], resetAt := h.now } } ∧ h.sys.vbatOff = true) :=
  ⟨⟨⟨{}, []⟩, _, 100, _, _, _, rfl, rfl, rfl, by decide +kernel, rfl, by decide +kernel⟩,
   ⟨⟨{ ({} : Hw).wr SUP_STATE 0x8000_0000 with now := 2 ^ 60 }, []⟩, _, 12000, true, _, _, _, rfl, rfl, rfl, rfl, by decide +kernel⟩,
   ⟨⟨{}, []⟩, _, 19000, _, rfl, rfl⟩,
   ⟨⟨{}, []⟩, _, true, false, 5, _, _, rfl, rfl, rfl⟩,
   ⟨⟨{}, []⟩, _, rfl⟩,
   ⟨⟨{ sys := { vbatOff := true } }, []⟩, _, 100, _, rfl, rfl, by decide +kernel⟩⟩

theorem witness_SupplyAndPowerCommandsComplete_2 :
    (∃ (s : State) (h : Hw) (mv : BitVec 16) (g : Hw),
    h = s.hw ∧ g = h.vbatMeasured mv.toNat ∧ mv.toNat ≤ 4550) ∧
    (∃ (s : State) (h : Hw) (low : Bool) (x : Hw),
    h = s.hw ∧ x = { h with sys := { h.sys with resetNLow := low, resetAt := h.now } }) ∧
    (∃ (s : State) (h : Hw) (bootMode : BitVec 3) (twinRole spanRole : Bool) (x : Hw) (y : Hw),
    h = s.hw ∧ x = { h with sys := { h.sys with causes := [], inReset := false }, boot := { h.boot with released := h.now } } ∧ y = (x.put SYS_RESET_CAUSE 3 0 (h.sys.causes.headD 0)).incF SYS_RESET_CAUSE 31 16 ∧ h.releaseDue = true) ∧
    (∃ (s : State) (h : Hw) (v : Word) (a : Attr),
    s.hw.takes (SYS_RESET_REQ) a = true ∧ h = s.hw.answer 0 ∧ a.secure = true ∧ fld v.toNat 31 16 = 0x5253 ∧ fld v.toNat 0 0 = 1) ∧
    (∃ (s : State) (h : Hw) (v : Word) (n : Nat) (a : Attr),
    s.hw.takes (SYS_WDOG) a = true ∧ h = s.hw.answer 0 ∧ n = h.get SYS_WDOG_NEXT 15 0 ∧ fld v.toNat 15 0 = n ∧ fld v.toNat 31 16 = 0xFFFF - n) ∧
    (∃ (s : State) (h : Hw) (v : Word) (n : Nat) (a : Attr),
    s.hw.takes (SYS_WDOG) a = true ∧ h = s.hw.answer 0 ∧ n = h.get SYS_WDOG_NEXT 15 0 ∧ (¬(fld v.toNat 15 0 = n ∧ fld v.toNat 31 16 = 0xFFFF - n)) ∧ h.bit SYS_WDOG_CFG 31 = true) :=
  ⟨⟨⟨{}, []⟩, _, 100, _, rfl, rfl, by decide +kernel⟩,
   ⟨⟨{}, []⟩, _, true, _, rfl, rfl⟩,
   ⟨⟨{ sys := { inReset := true }, now := 2 ^ 60 }, []⟩, _, 0, false, false, _, _, rfl, rfl, rfl, by decide +kernel⟩,
   ⟨⟨{}, []⟩, _, 0x5253_0001, secureTester, by decide +kernel, rfl, by decide +kernel⟩,
   ⟨⟨({} : Hw).wr SYS_WDOG_NEXT 0, []⟩, _, 0xFFFF_0000, _, secureTester, by decide +kernel, rfl, rfl, by decide +kernel⟩,
   ⟨⟨({} : Hw).wr SYS_WDOG_CFG 0x8000_0000, []⟩, _, 0, _, secureTester, by decide +kernel, rfl, rfl, by decide +kernel⟩⟩

theorem witness_SupplyAndPowerCommandsComplete_3 :
    (∃ (s : State) (h : Hw),
    h = s.hw ∧ h.wdogOver = true) ∧
    (∃ (s : State) (h : Hw),
    h = s.hw ∧ h.now < h.sys.wdogAt + h.get SYS_WDOG_CFG 9 0 * 1_200_000) ∧
    (∃ (s : State) (h : Hw) (v : Word) (a : Attr),
    s.hw.takes (PWR_ON) a = true ∧ h = s.hw.answer 0) ∧
    (∃ (s : State) (h : Hw) (v : Word) (a : Attr),
    s.hw.takes (PWR_OFF) a = true ∧ h = s.hw.answer 0) ∧
    (∃ (s : State) (h : Hw) (m : Fin 32) (v : Word) (a : Attr),
    s.hw.takes (PWR_CLK_OFF m) a = true ∧ h = s.hw.answer 0) ∧
    (∃ (s : State) (h : Hw) (m : Fin 32) (v : Word) (a : Attr),
    s.hw.takes (PWR_CLK_ON m) a = true ∧ h = s.hw.answer 0) :=
  ⟨⟨⟨{ ({} : Hw).wr SYS_WDOG_CFG 0x8000_0000 with now := 2 ^ 60 }, []⟩, _, rfl, by decide +kernel⟩,
   ⟨⟨({} : Hw).wr SYS_WDOG_CFG 0x8000_0005, []⟩, _, rfl, by decide +kernel⟩,
   ⟨⟨{}, []⟩, _, 8, secureTester, by decide +kernel, rfl⟩,
   ⟨⟨{}, []⟩, _, 8, secureTester, by decide +kernel, rfl⟩,
   ⟨⟨{}, []⟩, _, 3, 8, secureTester, by decide +kernel, rfl⟩,
   ⟨⟨{}, []⟩, _, 3, 8, secureTester, by decide +kernel, rfl⟩⟩

theorem witness_SupplyAndPowerCommandsComplete_4 :
    (∃ (s : State) (h : Hw) (r : PwrReq) (x : Hw) (y : Hw) (z : Hw),
    h = s.hw ∧ x = { h with pwr := { h.pwr with active := none } } ∧ (y = if r.on then x.domainUp r.target else x.domainOff r.target (r.target == 18 && x.pwr.refresh)) ∧ z = y.putBit PWR_BUSY r.target (y.pwr.queue.any r.same) ∧ h.pwr.active = some r) ∧
    (∃ (s : State) (h : Hw) (l : List Nat) (x : Hw),
    h = s.hw ∧ (l = pdOrder.reverse.filter (fun d => decide (fld (h.get PWR_SLEEP 23 0) d d = 0) && h.pdOn d && !(h.bit PWR_SLEEP 30 && d == 18))) ∧ x = { h with pwr := { h.pwr with sleepSeq := true, slept := l, refresh := h.bit PWR_SLEEP 30 && decide (fld (h.get PWR_SLEEP 23 0) 18 18 = 0) }, nmu := { h.nmu with woke := false } } ∧ h.bit PWR_SLEEP 31 = true ∧ h.nmu.asleep = true ∧ h.pwr.asleep = false ∧ h.pwr.sleepSeq = false) ∧
    (∃ (s : State) (h : Hw) (l : List Nat) (x : Hw),
    h = s.hw ∧ l = h.pwr.slept ∧ x = { h with pwr := { h.pwr with asleep := false, sleepSeq := false, refresh := false, slept := [] } } ∧ (h.pwr.asleep = true ∨ h.pwr.sleepSeq = true) ∧ h.nmu.woke = true) ∧
    (∃ (s : State) (h : Hw) (v : Word) (a : Attr),
    s.hw.takes (SUP_CNT_CLR) a = true ∧ h = s.hw.answer 0 ∧ fld v.toNat 0 0 = 1 ∧ fld v.toNat 1 1 = 1 ∧ fld v.toNat 2 2 = 1 ∧ fld v.toNat 3 3 = 1) :=
  ⟨⟨⟨{ pwr := { active := some { on := true, clk := false, target := 5, secure := true, mid := 0, vmid := 0 } } }, []⟩, _, { on := true, clk := false, target := 5, secure := true, mid := 0, vmid := 0 }, _, _, _, rfl, rfl, rfl, rfl, by decide +kernel⟩,
   ⟨⟨{ ({} : Hw).wr PWR_SLEEP 0x8000_0000 with nmu := { asleep := true } }, []⟩, _, _, _, rfl, rfl, rfl, by decide +kernel⟩,
   ⟨⟨{ pwr := { asleep := true }, nmu := { woke := true } }, []⟩, _, _, _, rfl, rfl, rfl, by decide +kernel⟩,
   ⟨⟨{}, []⟩, _, 15, secureTester, by decide +kernel, rfl, by decide +kernel⟩⟩

theorem witness_EventAndAnalogCommandsComplete :
    (∃ (s : State) (h : Hw) (e : Fin 2048) (v : Word) (g : Hw) (a : Attr),
    s.hw.takes (EVR_ROUTE e) a = true ∧ h = s.hw.answer 0 ∧ g = h.storeReg (EVR_ROUTE e) v.toNat ∧ (¬(11 < fld v.toNat 27 24 ∨ 8 < fld v.toNat 19 16 ∨ fld v.toNat 10 0 = 0)) ∧ a.secure = true) ∧
    (∃ (s : State) (h : Hw) (e : Fin 2048) (x : EvEdge) (rest : List EvEdge),
    h = s.hw ∧ h.edges = x :: rest ∧ x.line = e.val) ∧
    (∃ (s : State) (h : Hw) (e : Fin 2048) (x : EvEdge) (rest : List EvEdge),
    h = s.hw ∧ h.edges = x :: rest ∧ ¬ x.line = e.val) ∧
    (∃ (s : State) (h : Hw) (n : Nat) (c : CueRef) (v : Nat),
    s.hw.cueActs c 0x03 v = true ∧ h = s.hw.cueFired c.idx ∧ n = fld (cueArg (h.cueOf c)) 3 0 ∧ (find? h.ain.running n).isSome = false ∧ h.bit (AIN_BURST_W1 n) 31 = true) ∧
    (∃ (s : State) (h : Hw) (b : Fin 16) (mv : List (BitVec 16)) (vbat : BitVec 16) (x : Burst) (g : Hw) (r : List Nat × Hw) (bytes : List Byte),
    h = s.hw ∧ g = { h with ain := { h.ain with running := unfile h.ain.running b } } ∧ r = g.sampleInputs vbat.toNat (g.burstInputs b) (mv.map (·.toNat)) ∧ bytes = leBytes 4 x.tick ++ r.1.flatMap (leBytes 2) ∧ h.live pgAIN = true ∧ find? h.ain.running b = some x ∧ h.burstDone b x = true) ∧
    (∃ (s : State) (h : Hw) (i : Fin 48) (mv vbat : BitVec 16) (g : Hw),
    h = s.hw ∧ g = { h with ain := { h.ain with polledAt := file h.ain.polledAt i h.now } } ∧ h.pollDue i = true) :=
  ⟨⟨⟨{}, []⟩, _, 5, 0x8000_0005, _, secureTester, by decide +kernel, rfl, rfl, by decide +kernel⟩,
   ⟨⟨{ edges := [{ line := 5, at_ := 0, dest := { core := 1, file := 2, eiid := 3 } }] }, []⟩, _, 5, { line := 5, at_ := 0, dest := { core := 1, file := 2, eiid := 3 } }, [], rfl, by decide +kernel⟩,
   ⟨⟨{ edges := [{ line := 5, at_ := 0, dest := { core := 1, file := 2, eiid := 3 } }] }, []⟩, _, 6, { line := 5, at_ := 0, dest := { core := 1, file := 2, eiid := 3 } }, [], rfl, by decide +kernel⟩,
   ⟨⟨(cueTester 0x03 5).wr (AIN_BURST_W1 5) 0x8000_0001, []⟩, _, _, ⟨7⟩, 0, by decide +kernel, rfl, rfl, by decide +kernel⟩,
   ⟨⟨{ ain := { running := [(3, { tick := 7 })] }, now := 2 ^ 60 }, []⟩, _, 3, [], 0, { tick := 7 }, _, _, _, rfl, rfl, rfl, rfl, by decide +kernel⟩,
   ⟨⟨({} : Hw).put (AIN_CFG 3) 31 30 2, []⟩, _, 3, 1000, 2000, _, rfl, rfl, by decide +kernel⟩⟩

theorem witness_StepRunsTheFrontCommand :
    ∃ (s : State) (c : Instr) (rest : List Instr), s.pending = c :: rest ∧ rest ≠ [] :=
  ⟨⟨{}, [.copyDone, .swapDone]⟩, .copyDone, [.swapDone], rfl, by decide⟩

theorem witness_EmptyQueueTicks :
    (∃ (s : State), s.pending = [] ∧ s.hw.now ≠ 0) ∧
    (∃ (s : State), s.pending = [] ∧ s.hw.cue.late = [] ∧ s.hw.twn.sendSeg = none ∧ (∀ t, s.hw.boot.restartAt = some t → s.hw.now + 1 < t) ∧ s.hw.boot.restartAt ≠ none) :=
  ⟨⟨⟨{ now := 5 }, []⟩, rfl, by decide⟩,
   ⟨⟨{ boot := { restartAt := some 7 } }, []⟩, rfl, rfl, rfl, fun t e => by cases e; decide, by decide⟩⟩

theorem witness_StepKeepsRegistersCanonical :
    ∃ (s t : State), s.hw.regsOk = true ∧ step s = .next t :=
  ⟨State.reset, _, by decide, rfl⟩

theorem witness_StepKeepsMemoriesCanonical :
    ∃ (s t : State), s.hw.memsOk = true ∧ step s = .next t ∧ s.hw.mem.t1 ≠ [] :=
  ⟨⟨updateTester, []⟩, _, by decide +kernel, rfl, by decide⟩

theorem witness_StepKeepsQueueWellFormed :
    ∃ (s : State), s.QueueOk ∧ s.pending ≠ [] :=
  ⟨⟨{}, [.copyDone, .swapDone]⟩, by intro c m; simp at m; rcases m with m | m <;> subst m <;> rfl, by decide⟩

theorem witness_RegisterReadAfterWrite :
    (∃ (h : Hw) (k v j : Nat), h.regsOk = true ∧ (h.wr k v).rd j ≠ h.rd j) ∧
    (∃ (h : Hw) (k hi lo x hi' lo' : Nat), h.regsOk = true ∧ lo ≤ hi ∧ hi < 32 ∧ lo' ≤ hi' ∧ hi' < 32 ∧ (hi' < lo ∨ hi < lo') ∧ x ≠ 0) :=
  ⟨⟨{}, TCU_BASE_TICK, 5, TCU_BASE_TICK, by decide +kernel⟩,
   ⟨{}, TCU_BASE_TICK, 3, 2, 5, 31, 4, by decide +kernel, by decide⟩⟩

theorem witness_MemoryReadAfterWrite :
    ∃ (m : Mem) (bs : List Byte) (a x : Nat), m.wf = true ∧ a ≤ x ∧ x < a + bs.length ∧ m ≠ [] :=
  ⟨[(3, 7)], [1, 2], 3, 4, by decide⟩

theorem witness_ClosedGatesStopEveryRegisterCommand :
    (∃ (s : State) (c : Instr) (k : Nat) (a : Attr), registerOf c = some (k, a) ∧ s.hw.jtagShut a = true) ∧
    (∃ (s : State) (c : Instr) (k : Nat) (a : Attr), registerOf c = some (k, a) ∧ s.hw.jtagShut a = false ∧ pageRow (k / 0x10000) = none) ∧
    (∃ (s : State) (c : Instr) (k : Nat) (a : Attr), registerOf c = some (k, a) ∧ s.hw.jtagShut a = false ∧ (pageRow (k / 0x10000)).isSome = true ∧ s.hw.live (k / 0x10000) = false) ∧
    (∃ (s : State) (c : Instr) (k : Nat) (a : Attr), registerOf c = some (k, a) ∧ s.hw.jtagShut a = false ∧ (pageRow (k / 0x10000)).isSome = true ∧ s.hw.live (k / 0x10000) = true ∧ s.hw.gateOpen (k / 0x10000) a = false) :=
  ⟨⟨State.reset, .cueCopy 1 { secure := true, mid := 0x58, vmid := 0 }, _, _, rfl, by decide +kernel⟩,
   ⟨State.reset, .lockWrite 0x3F0 0 secureTester, _, _, rfl, by decide +kernel⟩,
   ⟨⟨({} : Hw).putBit (PWR_CLK_STATE (pgCUE / 32)) (pgCUE % 32) false, []⟩, .cueCopy 1 secureTester, _, _, rfl, by decide +kernel⟩,
   ⟨State.reset, .holdMarkWrite none 1 { secure := false, mid := 8, vmid := 0 }, _, _, rfl, by decide +kernel⟩⟩

theorem witness_ClosedGatesStopEveryRegisterAccess :
    (∃ (s : State) (addr width k : Nat) (v : Word) (a : Attr) (c : Instr), regAt addr = some k ∧ (c = .registerWrite addr width v a ∨ c = .lowerRegisterRead ⟨addr, width⟩ a ∨ c = .upperRegisterRead ⟨addr, width⟩ a) ∧ s.hw.jtagShut a = true ∧ width = 2) ∧
    (∃ (s : State) (k : Nat) (v : Word) (a : Attr) (c : Instr), k < 0x400_0000 ∧ k % 4 = 0 ∧ (c = .registerWrite (0xF000_0000 + k) 4 v a ∨ c = .lowerRegisterRead ⟨0xF000_0000 + k, 4⟩ a ∨ c = .upperRegisterRead ⟨0xF000_0000 + k, 4⟩ a) ∧ s.hw.jtagShut a = false ∧ pageRow (k / 0x10000) = none) ∧
    (∃ (s : State) (k : Nat) (v : Word) (a : Attr) (c : Instr), k < 0x400_0000 ∧ k % 4 = 0 ∧ (c = .registerWrite (0xF000_0000 + k) 4 v a ∨ c = .lowerRegisterRead ⟨0xF000_0000 + k, 4⟩ a ∨ c = .upperRegisterRead ⟨0xF000_0000 + k, 4⟩ a) ∧ s.hw.jtagShut a = false ∧ (pageRow (k / 0x10000)).isSome = true ∧ s.hw.live (k / 0x10000) = false) ∧
    (∃ (s : State) (k : Nat) (v : Word) (a : Attr) (c : Instr), k < 0x400_0000 ∧ k % 4 = 0 ∧ (c = .registerWrite (0xF000_0000 + k) 4 v a ∨ c = .lowerRegisterRead ⟨0xF000_0000 + k, 4⟩ a ∨ c = .upperRegisterRead ⟨0xF000_0000 + k, 4⟩ a) ∧ s.hw.jtagShut a = false ∧ (pageRow (k / 0x10000)).isSome = true ∧ s.hw.live (k / 0x10000) = true ∧ s.hw.gateOpen (k / 0x10000) a = false) ∧
    (∃ (s : State) (k : Nat) (v : Word) (a : Attr), k < 0x400_0000 ∧ k % 4 = 0 ∧ s.hw.opens k a = true ∧ s.hw.locked k = true) :=
  ⟨⟨State.reset, 0xF010_0102, 2, _, 0, { secure := true, mid := 0x58, vmid := 0 }, _, rfl, .inr (.inl rfl), by decide +kernel, rfl⟩,
   ⟨State.reset, 0x3F0_0100, 0, secureTester, _, by decide, by decide, .inl rfl, by decide +kernel⟩,
   ⟨⟨({} : Hw).putBit (PWR_CLK_STATE (pgCUE / 32)) (pgCUE % 32) false, []⟩, CUE_IDX, 0, secureTester, _, by decide, by decide, .inl rfl, by decide +kernel⟩,
   ⟨State.reset, WGT_HOLD_TO, 0, { secure := false, mid := 8, vmid := 0 }, _, by decide, by decide, .inl rfl, by decide +kernel⟩,
   ⟨⟨({} : Hw).putBit (LOCK pgPSS) 1 true, []⟩, PSS_CFG, 0, secureTester, by decide, by decide, by decide +kernel⟩⟩

theorem witness_EventSetHonouredByLifeCycle :
    (∃ (s : State) (h : Hw) (page : Fin 1024) (i : Fin 3) (v : Word) (a : Attr),
    s.hw.takes (evRaw page i + 12) a = true ∧ h = s.hw.answer 0 ∧ groupExists page i = true ∧ (h.lcs = 0 ∨ h.lcs = 1 ∨ h.lcs = 3)) ∧
    (∃ (s : State) (h : Hw) (page : Fin 1024) (i : Fin 3) (v : Word) (a : Attr),
    s.hw.takes (evRaw page i + 12) a = true ∧ h = s.hw.answer 0 ∧ (h.lcs = 2 ∨ h.lcs = 4)) :=
  ⟨⟨⟨(({} : Hw).put KEY_LCS 2 0 3), []⟩, _, 0x011, 0, 5, secureTester, by decide +kernel, rfl, by decide +kernel⟩,
   ⟨⟨{}, []⟩, _, 0x011, 0, 5, secureTester, by decide +kernel, rfl, by decide +kernel⟩⟩

theorem witness_FirstErrorIsKept :
    (∃ (h : Hw) (page code addr d : Nat) (a : Attr), h.regsOk = true ∧ h.bit (ERR_CAP0 page) 31 = true ∧ code ≠ 0 ∧ addr ≠ 0 ∧ d = 0 ∧ a.secure = true) ∧
    (∃ (s : State) (page : Fin 1024) (v : Word) (e : ErrEvent) (a : Attr), s.hw.regsOk = true ∧ s.hw.takes (ERR_CAP0 page) a = true ∧ fld v.toNat 31 31 = 1 ∧ s.hw.bit (ERR_CAP0 page) 31 = true ∧ e.code.toNat ≠ 0) :=
  ⟨⟨({} : Hw).capture pgCUE 0x0103 7 secureTester, pgCUE, 0x0102, 9, 0, secureTester, by decide +kernel, by decide +kernel, by decide, by decide, rfl, rfl⟩,
   ⟨⟨({} : Hw).capture pgCUE 0x0103 7 secureTester, []⟩, 0x011, 0x8000_0000, ⟨0x0102, 9, secureTester⟩, secureTester, by decide +kernel⟩⟩

theorem witness_BaseTickWrite :
    (∃ (s : State) (h : Hw) (v : Word) (n : Fin 4) (a : Attr),
    s.hw.takes (TCU_BASE_TICK) a = true ∧ h = s.hw.answer 0 ∧ h.bit (TCU_SRC n) 31 = true ∧ (h.tcuSource n = 1 ∨ h.tcuSource n = 4)) ∧
    (∃ (s : State) (h : Hw) (v : Word) (a : Attr),
    s.hw.takes (TCU_BASE_TICK) a = true ∧ h = s.hw.answer 0 ∧ (∀ n : Fin 4, h.bit (TCU_SRC n) 31 = false ∨ (h.tcuSource n ≠ 1 ∧ h.tcuSource n ≠ 4)) ∧ (v.toNat < 25000 ∨ 10000000 < v.toNat)) ∧
    (∃ (s : State) (h : Hw) (v : Word) (a : Attr),
    s.hw.takes (TCU_BASE_TICK) a = true ∧ h = s.hw.answer 0 ∧ (∀ n : Fin 4, h.bit (TCU_SRC n) 31 = false ∨ (h.tcuSource n ≠ 1 ∧ h.tcuSource n ≠ 4)) ∧ (25000 ≤ v.toNat ∧ v.toNat ≤ 10000000)) :=
  ⟨⟨⟨((({} : Hw).put (TCU_SRC 2) 2 0 4).putBit (TCU_SRC 2) 31 true), []⟩, _, 100000, 2, secureTester, by decide +kernel, rfl, by decide +kernel⟩,
   ⟨⟨{}, []⟩, _, 24999, secureTester, by decide +kernel, rfl, by decide +kernel⟩,
   ⟨⟨{}, []⟩, _, 10000000, secureTester, by decide +kernel, rfl, by decide +kernel⟩⟩

theorem witness_PendingSwapDiscards :
    (∃ (s : State) (h : Hw) (v : Word) (a : Attr),
    s.hw.takes (CUE_W3) a = true ∧ h = s.hw.answer 0 ∧ (h.cue.swap.isSome = true ∨ h.cue.copying = true)) ∧
    (∃ (s : State) (h : Hw) (v : Word) (a : Attr),
    s.hw.takes (CUE_COPY) a = true ∧ h = s.hw.answer 0 ∧ (h.cue.swap.isSome = true ∨ h.cue.copying = true)) ∧
    (∃ (s : State) (h : Hw) (v : Word) (a : Attr),
    s.hw.takes (CUE_SWAP) a = true ∧ h = s.hw.answer 0 ∧ (h.cue.swap.isSome = true ∨ h.cue.copying = true) ∧ fld v.toNat 31 31 = 1) ∧
    (∃ (s : State) (h : Hw) (c : CueRef) (v : Nat),
    s.hw.cueActs c 0x50 v = true ∧ h = s.hw.cueFired c.idx ∧ (h.cue.swap.isSome = true ∨ h.cue.copying = true)) ∧
    (∃ (s : State) (h : Hw) (v : Word) (a : Attr),
    s.hw.takes (CUE_COPY) a = true ∧ h = s.hw.answer 0 ∧ h.cue.swap = none ∧ h.cue.copying = false ∧ fld v.toNat 0 0 = 1) :=
  ⟨⟨⟨{ cue := { swap := some (0, 0) } }, []⟩, _, 5, secureTester, by decide +kernel, rfl, by decide +kernel⟩,
   ⟨⟨{ cue := { copying := true } }, []⟩, _, 1, secureTester, by decide +kernel, rfl, by decide +kernel⟩,
   ⟨⟨{ cue := { swap := some (0, 0) } }, []⟩, _, 0x8000_0000, secureTester, by decide +kernel, rfl, by decide +kernel⟩,
   ⟨⟨{ cueTester 0x50 0 with cue := { (cueTester 0x50 0).cue with copying := true } }, []⟩, _, ⟨7⟩, 0, by decide +kernel, rfl, by decide +kernel⟩,
   ⟨⟨{}, []⟩, _, 1, secureTester, by decide +kernel, rfl, by decide +kernel⟩⟩

theorem witness_ArmedJobKeepsItsRegisters :
    (∃ (s : State) (k : Nat) (v : Word) (a : Attr), s.hw.takes k a = true ∧ (s.hw.chgState = 1 ∨ s.hw.chgState = 2) ∧ k / 0x10000 = pgFRC ∧ k % 4 = 0 ∧ (0x208 ≤ k % 0x10000 ∧ k % 0x10000 ≤ 0x210 ∨ 0x300 ≤ k % 0x10000 ∧ k % 0x10000 ≤ 0x3FC)) ∧
    (∃ (s : State) (h : Hw) (v : Word) (a : Attr),
    s.hw.takes (FRC_CHG_CTRL) a = true ∧ h = s.hw.answer 0 ∧ (h.chgState = 1 ∨ h.chgState = 2) ∧ fld (v.toNat ||| 0x8000_0000) 30 30 = 0) ∧
    (∃ (s : State) (h : Hw) (v : Word) (a : Attr),
    s.hw.takes (FRC_CHG_CTRL) a = true ∧ h = s.hw.answer 0 ∧ h.chgState = 1) ∧
    (∃ (s : State) (h : Hw) (v : Word) (a : Attr),
    s.hw.takes (FRC_CHG_CTRL) a = true ∧ h = s.hw.answer 0 ∧ h.chgState = 2) :=
  ⟨⟨⟨({} : Hw).setChg 1, []⟩, pgFRC * 0x10000 + 0x3FC, 0, secureTester, by decide +kernel, by decide +kernel, by decide⟩,
   ⟨⟨(({} : Hw).setChg 2), []⟩, _, 0, secureTester, by decide +kernel, rfl, by decide +kernel⟩,
   ⟨⟨(({} : Hw).setChg 1), []⟩, _, 0x4000_0000, secureTester, by decide +kernel, rfl, by decide +kernel⟩,
   ⟨⟨(({} : Hw).setChg 2), []⟩, _, 0x4000_0000, secureTester, by decide +kernel, rfl, by decide +kernel⟩⟩

theorem witness_FurtherLossOnlyUpdatesCause :
    ∃ (h : Hw) (cause : Nat), h.regsOk = true ∧ h.charge ≠ 2 ∧ cause = 3 :=
  ⟨({} : Hw).setCharge 1, 3, by decide +kernel, by decide +kernel, rfl⟩

theorem witness_ForwardingSetOfAddress :
    ∃ (h : Hw) (mac fid i : Nat), mac < 2 ^ 48 ∧ fid < 4096 ∧ h.fdbFind mac fid = some i :=
  ⟨(({} : Hw).setFdb 0 (4 * 5) 0 0).setFdb 0 (4 * 5) 1 0x8005_0000, 0, 5, 4 * 5, by decide, by decide, by decide +kernel⟩

theorem witness_LinSlotThatDoesNotRun :
    (∃ (s : State) (h : Hw) (l : Nat) (e : Nat) (c : CueRef) (v : Nat),
    s.hw.cueActs c 0x28 v = true ∧ h = s.hw.cueFired c.idx ∧ l = fld (cueArg (h.cueOf c)) 10 8 ∧ e = fld (cueArg (h.cueOf c)) 7 0 ∧ h.bit (CTRL (pgLIN l)) 0 = true ∧ h.bit (LIN_CFG l) 31 = true ∧ h.bit (LIN_SCH l e) 31 = true ∧ h.nmu.linAsleep.contains l = false ∧ (h.linFrame l).isSome = true) ∧
    (∃ (s : State) (h : Hw) (l : Nat) (e : Nat) (c : CueRef) (v : Nat),
    s.hw.cueActs c 0x28 v = true ∧ h = s.hw.cueFired c.idx ∧ l = fld (cueArg (h.cueOf c)) 10 8 ∧ e = fld (cueArg (h.cueOf c)) 7 0 ∧ (h.bit (LIN_CFG l) 31 = false ∨ h.bit (LIN_SCH l e) 31 = false)) :=
  ⟨⟨⟨{ (((cueTester 0x28 0x102).putBit (CTRL (pgLIN 1)) 0 true).putBit (LIN_CFG 1) 31 true).putBit (LIN_SCH 1 2) 31 true with zone := { lins := [(1, { buf := 0, len := 8, pub := true, enh := true, typ := 0, fid := 0, data := [] })] } }, []⟩, _, _, _, ⟨7⟩, 0, by decide +kernel, rfl, rfl, rfl, by decide +kernel⟩,
   ⟨⟨(cueTester 0x28 0x102).putBit (LIN_CFG 1) 31 true, []⟩, _, _, _, ⟨7⟩, 0, by decide +kernel, rfl, rfl, rfl, by decide +kernel⟩⟩

theorem witness_SpeculativeAccessStopsAtTheBridge :
    ∃ (s : State) (h : Hw) (o : BitVec 32) (n : Fin 65) (data : Option (List Byte)) (credit : Bool) (tag : Fin 64) (a : Attr) (w : Nat) (u : SpanUser),
    h = s.hw ∧ u = { addr := 0x01_0000_0000 + o.toNat, attr := a, len := n } ∧ h.regionOk (0x01_0000_0000 + o.toNat) data.isSome a = true ∧ h.live pgSPN = true ∧ h.owOf o.toNat = some w ∧ a.spec = true ∧ h.bit (SPN_OW w 0) 29 = false :=
  ⟨⟨({} : Hw).wr (SPN_OW 1 0) 0x8010_0000, []⟩, _, 0, 4, none, true, 0, { secureTester with spec := true }, 1, _, rfl, rfl, by decide +kernel⟩

theorem witness_EmptyDescriptorCompletes :
    (∃ (h : Hw) (d c : Nat) (ws : List Nat), (h.dma d c).desc = some ws ∧ (h.dma d c).fault = none ∧ descLen ws = 0 ∧ h.dmaState d c = 1) ∧
    (∃ (s : State) (h : Hw) (d : Fin 4) (c : Fin 32) (w : DmaSeen) (ws : List Nat) (r : Option Nat × Hw) (x : Hw),
    h = s.hw ∧ r = h.dmaWrite d c (h.dmaCur d c) (leBytes 4 (setBit (ws.getD 0 0) 31 true)) w.fin ∧ x = (r.2.wr (DMA_TAG d c) (ws.getD 7 0)).raiseIf (fld (ws.getD 0 0) 24 24 == 1) (pgDMA d) c ∧ (h.dma d c).desc = some ws ∧ (h.dma d c).fault = none ∧ h.dmaOn d = true ∧ h.dmaState d c = 1 ∧ h.rd (DMA_DONE d c) = 0 ∧ descLen ws = 0 ∧ r.1 = none) :=
  ⟨⟨({} : Hw).wr (DMA_STATE 1 5) 0x1000_0000 |>.setDma 1 5 { desc := some [0, 0, 0, 0, 0, 0, 0, 0] }, 1, 5, _, rfl, rfl, by decide, by decide +kernel⟩,
   ⟨⟨{ (((({} : Hw).putBit (CTRL (pgDMA 1)) 0 true).wr (DMA_STATE 1 5) 0x1000_0000).wr (DMA_CFG 1 5) 0x0200_0000).wr (DMA_CUR_HI 1 5) 8 with mem := { dma := [(37, { desc := some [0, 0, 0, 0, 0, 0, 0x8000_0000, 0] })] } }, []⟩, _, 1, 5, {}, [0, 0, 0, 0, 0, 0, 0x8000_0000, 0], _, _, rfl, rfl, rfl, by decide +kernel⟩⟩

theorem witness_KeyGenerations :
    (∃ (h : Hw) (d w0 : Nat) (key : List Byte) (parent : Option Nat), h.regsOk = true ∧ d < 256 ∧ (∀ p, parent = some p → p < 256 ∧ h.get (KEY_ATTR_W1 p) 7 5 < 7) ∧ parent ≠ none ∧ h.get (KEY_ATTR_W1 d) 23 16 = 255) ∧
    (∃ (s : State) (v : Word) (a : Attr) (c : Instr) (d : Nat), s.hw.regsOk = true ∧ s.hw.takes KEY_CMD a = true ∧ (c = .narrow v a ∨ c = .revoke v a) ∧ d < 256 ∧ s.hw.oddOfPair d = false) :=
  ⟨⟨({} : Hw).wr (KEY_ATTR_W1 4) 0xFF_0000, 4, 0, [], some 3, by decide +kernel, by decide, by intro p e; cases e; decide +kernel, by decide, by decide +kernel⟩,
   ⟨⟨keyTester 0x8002_8A40 [], []⟩, 0x4_0000, secureTester, _, 4, by decide +kernel, by decide +kernel, .inl rfl, by decide, by decide +kernel⟩⟩

theorem witness_NarrowOnlyNarrows :
    (∃ (s : State) (h : Hw) (v : Word) (g : Hw) (d : Nat) (x : Hw) (a : Attr),
    s.hw.takes (KEY_CMD) a = true ∧ h = s.hw.answer 0 ∧ g = h.wr KEY_CMD (7 * 2 ^ 28 + v.toNat % 2 ^ 24) ∧ d = g.cmdDst ∧ x = (g.wr (KEY_ATTR_W0 d) (g.rd KEY_STAGE)).mirrorOdd d ∧ h.bit KEY_CMD 27 = false ∧ g.lcs ≠ 4 ∧ d ≠ 0 ∧ g.slotGood d = true ∧ g.rd KEY_STAGE &&& g.rd (KEY_ATTR_W0 d) = g.rd KEY_STAGE ∧ fld (g.rd KEY_STAGE) 31 30 = fld (g.rd (KEY_ATTR_W0 d)) 31 30 ∧ fld (g.rd KEY_STAGE) 26 24 = fld (g.rd (KEY_ATTR_W0 d)) 26 24) ∧
    (∃ (s : State) (h : Hw) (v : Word) (g : Hw) (d : Nat) (a : Attr),
    s.hw.takes (KEY_CMD) a = true ∧ h = s.hw.answer 0 ∧ g = h.wr KEY_CMD (7 * 2 ^ 28 + v.toNat % 2 ^ 24) ∧ d = g.cmdDst ∧ h.bit KEY_CMD 27 = false ∧ g.lcs ≠ 4 ∧ d ≠ 0 ∧ g.slotGood d = true ∧ (g.rd KEY_STAGE &&& g.rd (KEY_ATTR_W0 d) ≠ g.rd KEY_STAGE ∨ fld (g.rd KEY_STAGE) 31 30 ≠ fld (g.rd (KEY_ATTR_W0 d)) 31 30 ∨ fld (g.rd KEY_STAGE) 26 24 ≠ fld (g.rd (KEY_ATTR_W0 d)) 26 24)) :=
  ⟨⟨⟨(keyTester 0x8002_8A40 []).wr KEY_STAGE 0x8002_8000, []⟩, _, 0x4_0000, _, _, _, secureTester, by decide +kernel, rfl, rfl, rfl, rfl, by decide +kernel⟩,
   ⟨⟨(keyTester 0x8002_8A40 []).wr KEY_STAGE 0x8003_8A40, []⟩, _, 0x4_0000, _, _, secureTester, by decide +kernel, rfl, rfl, rfl, by decide +kernel⟩⟩

theorem witness_CheckValueStart :
    (∃ (s : State) (n : Fin 8) (v : Word) (a : Attr), s.hw.regsOk = true ∧ s.hw.takes (CVU_START n) a = true ∧ fld v.toNat 0 0 = 1 ∧ s.hw.get (CVU_CFG n) 17 16 = 1 ∧ s.hw.get (CVU_ALIVE_GEN n) 15 0 = 15) ∧
    (∃ (s : State) (n : Fin 8) (v : Word) (a : Attr), s.hw.regsOk = true ∧ s.hw.takes (CVU_ALIVE_GEN n) a = true ∧ v ≠ 0) :=
  ⟨⟨⟨(({} : Hw).put (CVU_CFG 3) 17 16 1).put (CVU_ALIVE_GEN 3) 15 0 15, []⟩, 3, 1, secureTester, by decide +kernel, by decide +kernel, by decide, by decide +kernel⟩,
   ⟨State.reset, 7, 0xFFFF_FFFF, secureTester, by decide +kernel, by decide +kernel, by decide⟩⟩

theorem witness_ReelTriggers :
    (∃ (s : State) (h : Hw) (lines : List (Fin 2048)) (es : List Nat) (src : Nat) (g : Hw),
    h = s.hw ∧ (es = (lines.map Fin.val).filter (fun e => h.seesEdge 2 e e && !h.lineSecure e)) ∧ (src = (List.range 4).foldl (fun x k => if h.bit (REL_TRIG k) 31 && es.contains (h.get (REL_TRIG k) 10 0) then x + 2 ^ k else x) 0) ∧ (g = { h with took := es.map (fun e => (2, e)) ++ h.took }) ∧ src ≠ 0 ∧ h.live pgREL = true ∧ h.relState = 2) ∧
    (∃ (s : State) (h : Hw) (lines : List (Fin 2048)) (es : List Nat) (src : Nat) (g : Hw),
    h = s.hw ∧ (es = (lines.map Fin.val).filter (fun e => h.seesEdge 2 e e && !h.lineSecure e)) ∧ (src = (List.range 4).foldl (fun x k => if h.bit (REL_TRIG k) 31 && es.contains (h.get (REL_TRIG k) 10 0) then x + 2 ^ k else x) 0) ∧ (g = { h with took := es.map (fun e => (2, e)) ++ h.took }) ∧ src ≠ 0 ∧ h.live pgREL = true ∧ 3 ≤ h.relState) ∧
    (∃ (s : State) (h : Hw) (v : Word) (a : Attr),
    s.hw.takes (REL_TRIG_SW) a = true ∧ h = s.hw.answer 0 ∧ fld v.toNat 0 0 = 1 ∧ h.live pgREL = true ∧ h.relState = 2) ∧
    (∃ (s : State) (h : Hw) (v : Word) (a : Attr),
    s.hw.takes (REL_TRIG_SW) a = true ∧ h = s.hw.answer 0 ∧ fld v.toNat 0 0 = 1 ∧ h.live pgREL = true ∧ 3 ≤ h.relState) ∧
    (∃ (s : State) (h : Hw) (v : Word) (g : Hw) (a : Attr),
    s.hw.takes (REL_REARM) a = true ∧ h = s.hw.answer 0 ∧ g = (({ h with rel := { h.rel with recs := [], wr := 0x40, snap := none, snapWanted := true, protect := none, slateTick := h.rel.slateTick, snapAt := h.now } } : Hw).putBit REL_STATE 27 false).put REL_STATE 21 16 0 ∧ fld v.toNat 0 0 = 1 ∧ h.relState = 3) :=
  ⟨⟨⟨{ ((({} : Hw).put REL_STATE 31 28 2).wr (REL_TRIG 2) 0x8000_0005).wr (WGT_EVT_WORLD 0) 0 with rose := [5] }, []⟩, _, [5], _, _, _, rfl, rfl, rfl, rfl, by decide +kernel⟩,
   ⟨⟨{ ((({} : Hw).put REL_STATE 31 28 5).wr (REL_TRIG 2) 0x8000_0005).wr (WGT_EVT_WORLD 0) 0 with rose := [5] }, []⟩, _, [5], _, _, _, rfl, rfl, rfl, rfl, by decide +kernel⟩,
   ⟨⟨({} : Hw).put REL_STATE 31 28 2, []⟩, _, 1, secureTester, by decide +kernel, rfl, by decide +kernel⟩,
   ⟨⟨({} : Hw).put REL_STATE 31 28 3, []⟩, _, 1, secureTester, by decide +kernel, rfl, by decide +kernel⟩,
   ⟨⟨({} : Hw).put REL_STATE 31 28 3, []⟩, _, 1, _, secureTester, by decide +kernel, rfl, rfl, by decide +kernel⟩⟩

theorem witness_SigningKeysAreRevokedForGood :
    (∃ (s : State) (h : Hw) (v : Word) (a : Attr),
    s.hw.takes (BOOT_PK_REV) a = true ∧ h = s.hw.answer 0 ∧ fld v.toNat 31 16 = 0x5245 ∧ fld (fld v.toNat 3 0) h.boot.key h.boot.key = 1) ∧
    (∃ (s : State) (h : Hw) (v : Word) (a : Attr),
    s.hw.takes (BOOT_PK_REV) a = true ∧ h = s.hw.answer 0 ∧ fld v.toNat 31 16 = 0x5245 ∧ fld (fld v.toNat 3 0) h.boot.key h.boot.key = 0 ∧ h.inHold = false) ∧
    (∃ (s : State) (h : Hw) (v : Word) (a : Attr),
    s.hw.takes (BOOT_PK_REV) a = true ∧ h = s.hw.answer 0 ∧ fld v.toNat 31 16 = 0x5245 ∧ fld (fld v.toNat 3 0) h.boot.key h.boot.key = 0 ∧ h.inHold = true) :=
  ⟨⟨⟨{}, []⟩, _, 0x5245_0003, secureTester, by decide +kernel, rfl, by decide +kernel⟩,
   ⟨⟨{ regs := [(BOOT_ARB, 0)] }, []⟩, _, 0x5245_0002, secureTester, by decide +kernel, rfl, by decide +kernel⟩,
   ⟨⟨({} : Hw).putBit SUP_STATE 31 true, []⟩, _, 0x5245_0002, secureTester, by decide +kernel, rfl, by decide +kernel⟩⟩

theorem witness_ResetRequestNeedsItsKey :
    (∃ (s : State) (h : Hw) (v : Word) (a : Attr),
    s.hw.takes (SYS_RESET_REQ) a = true ∧ h = s.hw.answer 0 ∧ a.secure = true ∧ fld v.toNat 31 16 = 0x5253 ∧ fld v.toNat 0 0 = 1) ∧
    (∃ (s : State) (h : Hw) (v : Word) (a : Attr),
    s.hw.takes (SYS_RESET_REQ) a = true ∧ h = s.hw.answer 0 ∧ (a.secure = false ∨ fld v.toNat 31 16 ≠ 0x5253 ∨ fld v.toNat 0 0 = 0)) :=
  ⟨⟨⟨{}, []⟩, _, 0x5253_0001, secureTester, by decide +kernel, rfl, by decide +kernel⟩,
   ⟨⟨{}, []⟩, _, 0x5254_0001, secureTester, by decide +kernel, rfl, by decide +kernel⟩⟩

theorem witness_BoolsAreZeroOrOne :
    ∃ (h : Hw) (c : GCtx) (r : Run) (sp : Nat) (ofs : Int) (b : Byte), h.gBytes c r sp ofs (tySize 8) = .ok [b] ∧ b ≠ 0 :=
  ⟨{}, { task := 0, cad := 0, bank := 0, codeLen := 0, entry := 0, instLen := 16, constOfs := 0, constLen := 0, instBase := 0, budget := 0, img := none, forces := [] }, { engine := 1, buf := [(0, { data := 7, mask := 1 })] }, 0, 0, 7, by decide +kernel, by decide⟩

theorem witness_MisalignedAndWideAccessesAreRefused :
    ∃ (s : State) (addr width k : Nat) (v : Word) (a : Attr) (c : Instr), regAt addr = some k ∧ (width ≠ 4 ∨ addr % 4 ≠ 0) ∧ (pageRow (k / 0x10000)).isSome = true ∧ s.hw.live (k / 0x10000) = true ∧ s.hw.jtagShut a = false ∧ (c = .registerWrite addr width v a ∨ c = .lowerRegisterRead ⟨addr, width⟩ a ∨ c = .upperRegisterRead ⟨addr, width⟩ a) :=
  ⟨State.reset, 0xF010_0101, 1, _, 0, secureTester, _, rfl, by decide, by decide +kernel, by decide +kernel, by decide +kernel, .inr (.inl rfl)⟩

end Sys2Proof.Tests
end

/-! # The scope family

Bit fields and the registers that hold them, the gates of a register access, and the statements on register accesses,
captured errors and the commands of a page's header. -/

namespace Sys2Proof.Machine

/-! ## Bit fields -/

theorem testBit_fld (v hi lo i : Nat) : (fld v hi lo).testBit i = (decide (i < hi + 1 - lo) && v.testBit (lo + i)) := by
  rw [fld, Nat.testBit_mod_two_pow, Nat.testBit_shiftRight]

/-- A word with a field replaced shows the new value in the field and the old word outside it. -/
theorem testBit_setFld {hi lo : Nat} (v x i : Nat) (le : lo ≤ hi) :
    (setFld v hi lo x).testBit i = if lo ≤ i ∧ i ≤ hi then x.testBit (i - lo) else v.testBit i := by
  have width : lo + (hi + 1 - lo) = hi + 1 := by omega
  have split : setFld v hi lo x = 2 ^ lo * (2 ^ (hi + 1 - lo) * (v >>> (hi + 1)) + x % 2 ^ (hi + 1 - lo)) + v % 2 ^ lo := by
    rw [setFld, Nat.shiftLeft_eq, Nat.shiftLeft_eq, Nat.mul_add, ← Nat.mul_assoc, ← Nat.pow_add, width]
    ring
  rw [split, Nat.testBit_two_pow_mul_add _ (Nat.mod_lt _ (Nat.two_pow_pos _)),
    Nat.testBit_two_pow_mul_add _ (Nat.mod_lt _ (Nat.two_pow_pos _))]
  by_cases below : i < lo
  · simp [below, Nat.testBit_mod_two_pow, show ¬ lo ≤ i by omega]
  · by_cases inside : i ≤ hi
    · simp [below, inside, Nat.testBit_mod_two_pow, show i - lo < hi + 1 - lo by omega, show lo ≤ i by omega]
    · rw [if_neg below, if_neg (by omega), if_neg (by omega), Nat.testBit_shiftRight]
      congr 1
      omega

/-- A field that is set reads as the low bits of its value. -/
theorem fld_setFld_same {hi lo : Nat} (v x : Nat) (le : lo ≤ hi) : fld (setFld v hi lo x) hi lo = x % 2 ^ (hi + 1 - lo) := by
  refine Nat.eq_of_testBit_eq fun i => ?_
  rw [testBit_fld, testBit_setFld v x _ le, Nat.testBit_mod_two_pow]
  by_cases inside : i < hi + 1 - lo
  · simp [inside, show lo + i ≤ hi by omega]
  · simp [inside]

/-- A field apart from the one that is set reads as before. -/
theorem fld_setFld_apart {hi lo hi' lo' : Nat} (v x : Nat) (le : lo ≤ hi) (apart : hi' < lo ∨ hi < lo') :
    fld (setFld v hi lo x) hi' lo' = fld v hi' lo' := by
  refine Nat.eq_of_testBit_eq fun i => ?_
  rw [testBit_fld, testBit_fld, testBit_setFld v x _ le]
  by_cases inside : i < hi' + 1 - lo'
  · rw [if_neg (by omega)]
  · simp [inside]

/-- The fields of a register are those of the word written to it. -/
theorem fld_mod_word {hi : Nat} (v lo : Nat) (lt : hi < 32) : fld (v % 2 ^ 32) hi lo = fld v hi lo := by
  refine Nat.eq_of_testBit_eq fun i => ?_
  rw [testBit_fld, testBit_fld, Nat.testBit_mod_two_pow]
  by_cases inside : i < hi + 1 - lo
  · simp [show lo + i < 32 by omega]
  · simp [inside]

/-! ## Registers and their fields -/

section Registers

variable {h : Hw} (ok : h.regsOk = true)
include ok

theorem Hw.rd_wr_same (k v : Nat) : (h.wr k v).rd k = v % 2 ^ 32 := by rw [Hw.rd_wr h ok, if_pos rfl]

theorem Hw.rd_wr_other {k j : Nat} (v : Nat) (ne : j ≠ k) : (h.wr k v).rd j = h.rd j := by rw [Hw.rd_wr h ok, if_neg ne]

theorem Hw.rd_put_other {k j : Nat} (hi lo x : Nat) (ne : j ≠ k) : (h.put k hi lo x).rd j = h.rd j :=
  Hw.rd_wr_other ok _ ne

theorem Hw.get_put_same {hi lo : Nat} (k x : Nat) (le : lo ≤ hi) (lt : hi < 32) :
    (h.put k hi lo x).get k hi lo = x % 2 ^ (hi + 1 - lo) := by
  rw [Hw.get, Hw.put, Hw.rd_wr_same ok, fld_mod_word _ _ lt, fld_setFld_same _ _ le]

theorem Hw.get_put_apart {hi lo hi' lo' : Nat} (k x : Nat) (le : lo ≤ hi) (lt' : hi' < 32) (apart : hi' < lo ∨ hi < lo') :
    (h.put k hi lo x).get k hi' lo' = h.get k hi' lo' := by
  rw [Hw.get, Hw.put, Hw.rd_wr_same ok, fld_mod_word _ _ lt', fld_setFld_apart _ _ le apart, Hw.get]

end Registers

/-- Settles O36: a read after a write, and the fields of the register written. -/
theorem registerReadAfterWrite : Obligations.RegisterReadAfterWrite :=
  ⟨fun h k v j ok => Hw.rd_wr h ok k v j,
   fun _ k _ _ x _ _ ok le lt _ lt' =>
    ⟨Hw.get_put_same ok k x le lt, Hw.get_put_apart ok k x le lt', fun _ => Hw.rd_put_other ok _ _ x⟩⟩

/-! ## Captured errors -/

/-- A further error of a page whose first one stands is noted in MULTI (R17). -/
theorem Hw.capture_held {h : Hw} {page : Nat} (valid : h.bit (ERR_CAP0 page) 31 = true) (code addr d : Nat) (a : Attr) :
    h.capture page code addr a d = h.putBit (ERR_CAP0 page) 30 true := if_pos valid

/-- The four capture registers with what they hold of an error. -/
def Hw.setCapture (h : Hw) (page c0 c1 c2 c3 : Nat) : Hw :=
  (((h.wr (ERR_CAP0 page) c0).wr (ERR_CAP1 page) c1).wr (ERR_CAP2 page) c2).wr (ERR_CAP3 page) c3

/-- A first error of a page takes its four capture registers (R17). -/
theorem Hw.capture_first {h : Hw} {page : Nat} (free : h.bit (ERR_CAP0 page) 31 = false) (code addr d : Nat) (a : Attr) :
    h.capture page code addr a d = h.setCapture page (0x8000_0000 + code % 0x10000) (addr % 2 ^ 32)
      ((if a.secure then 2 ^ 26 else 0) + a.vmid.toNat * 0x10000 + a.mid.toNat * 0x100 + addr / 2 ^ 32 % 256) d := by
  rw [Hw.capture, free]
  rfl

section SetCapture

variable {h : Hw} (ok : h.regsOk = true) (page c0 c1 c2 c3 : Nat)
include ok

theorem Hw.setCapture_regsOk : (h.setCapture page c0 c1 c2 c3).regsOk = true :=
  Hw.wr_regsOk _ (Hw.wr_regsOk _ (Hw.wr_regsOk _ (Hw.wr_regsOk _ ok _ _) _ _) _ _) _ _

/-- What the registers read after the four capture registers are set. -/
theorem Hw.rd_setCapture (j : Nat) : (h.setCapture page c0 c1 c2 c3).rd j =
    if j = ERR_CAP3 page then c3 % 2 ^ 32 else if j = ERR_CAP2 page then c2 % 2 ^ 32
    else if j = ERR_CAP1 page then c1 % 2 ^ 32 else if j = ERR_CAP0 page then c0 % 2 ^ 32 else h.rd j := by
  have ok0 := Hw.wr_regsOk h ok (ERR_CAP0 page) c0
  have ok1 := Hw.wr_regsOk _ ok0 (ERR_CAP1 page) c1
  have ok2 := Hw.wr_regsOk _ ok1 (ERR_CAP2 page) c2
  rw [Hw.setCapture, Hw.rd_wr _ ok2, Hw.rd_wr _ ok1, Hw.rd_wr _ ok0, Hw.rd_wr _ ok]

theorem Hw.rd_setCapture_cap0 : (h.setCapture page c0 c1 c2 c3).rd (ERR_CAP0 page) = c0 % 2 ^ 32 := by
  simp [Hw.rd_setCapture ok]

theorem Hw.rd_setCapture_cap1 : (h.setCapture page c0 c1 c2 c3).rd (ERR_CAP1 page) = c1 % 2 ^ 32 := by
  simp [Hw.rd_setCapture ok]

theorem Hw.rd_setCapture_cap2 : (h.setCapture page c0 c1 c2 c3).rd (ERR_CAP2 page) = c2 % 2 ^ 32 := by
  simp [Hw.rd_setCapture ok]

theorem Hw.rd_setCapture_cap3 : (h.setCapture page c0 c1 c2 c3).rd (ERR_CAP3 page) = c3 % 2 ^ 32 := by
  simp [Hw.rd_setCapture ok]

variable {page c0 c1 c2 c3}

theorem Hw.rd_setCapture_other {j : Nat} (n0 : j ≠ ERR_CAP0 page) (n1 : j ≠ ERR_CAP1 page) (n2 : j ≠ ERR_CAP2 page)
    (n3 : j ≠ ERR_CAP3 page) : (h.setCapture page c0 c1 c2 c3).rd j = h.rd j := by
  rw [Hw.rd_setCapture ok, if_neg n3, if_neg n2, if_neg n1, if_neg n0]

end SetCapture

/-- A further error of a page leaves its first one, and every other register, as it was. -/
theorem Hw.capture_keeps_first {h : Hw} (page code addr d : Nat) (a : Attr) (ok : h.regsOk = true)
    (valid : h.bit (ERR_CAP0 page) 31 = true) :
    h.capture page code addr a d = h.putBit (ERR_CAP0 page) 30 true ∧
    (h.capture page code addr a d).bit (ERR_CAP0 page) 30 = true ∧
    (h.capture page code addr a d).bit (ERR_CAP0 page) 31 = true ∧
    (h.capture page code addr a d).get (ERR_CAP0 page) 29 0 = h.get (ERR_CAP0 page) 29 0 ∧
    ∀ j, j ≠ ERR_CAP0 page → (h.capture page code addr a d).rd j = h.rd j := by
  rw [Hw.capture_held valid]
  refine ⟨rfl, ?multi, ?valid, ?rest, fun j ne => Hw.rd_put_other ok _ _ _ ne⟩
  case multi => rw [Hw.bit, Hw.putBit, Hw.get_put_same ok _ _ (le_refl 30) (by omega)]; rfl
  case valid => rw [Hw.bit, Hw.putBit, Hw.get_put_apart ok _ _ (le_refl 30) (by omega) (by omega)]; exact valid
  case rest => exact Hw.get_put_apart ok _ _ (le_refl 30) (by omega) (by omega)

section Clear

variable {s : State} {page : Fin 1024} {v : Word} {a : Attr} (t : s.hw.takes (ERR_CAP0 page) a = true)
  (clear : fld v.toNat 31 31 = 1)
include t clear

/-- A write of 1 to VALID clears the four capture registers. -/
theorem execErrCapClear_clears :
    exec (.errCapClear page v none a) s = .next (s.withHw ((s.hw.answer 0).setCapture page 0 0 0 0)) := by
  show execErrCapClear page v none a s = _
  simp only [execErrCapClear, State.run, Hw.busWrite_takes _ _ _ _ t, if_pos clear]
  rfl

/-- An error of the cycle of the write is captured after the clear. -/
theorem execErrCapClear_captures (e : ErrEvent) : exec (.errCapClear page v (some e) a) s =
    .next (s.withHw (((s.hw.answer 0).setCapture page 0 0 0 0).capture page e.code.toNat e.addr.toNat e.attr)) := by
  show execErrCapClear page v (some e) a s = _
  simp only [execErrCapClear, State.run, Hw.busWrite_takes _ _ _ _ t, if_pos clear]
  rfl

end Clear

/-- An error that comes with the clear of the one before it is a first error. -/
theorem Hw.capture_after_clear (h : Hw) (ok : h.regsOk = true) (page : Nat) (e : ErrEvent) :
    (h.setCapture page 0 0 0 0).capture page e.code.toNat e.addr.toNat e.attr =
      (h.setCapture page 0 0 0 0).setCapture page (0x8000_0000 + e.code.toNat) (e.addr.toNat % 2 ^ 32)
        ((if e.attr.secure then 2 ^ 26 else 0) + e.attr.vmid.toNat * 0x10000 + e.attr.mid.toNat * 0x100 +
          e.addr.toNat / 2 ^ 32) 0 := by
  have free : (h.setCapture page 0 0 0 0).bit (ERR_CAP0 page) 31 = false := by
    rw [Hw.bit, Hw.get, Hw.rd_setCapture_cap0 ok]
    rfl
  have code : e.code.toNat % 0x10000 = e.code.toNat := Nat.mod_eq_of_lt e.code.isLt
  have upper : e.addr.toNat / 2 ^ 32 % 256 = e.addr.toNat / 2 ^ 32 := by
    have := e.addr.isLt
    omega
  rw [Hw.capture_first free, code, upper]

/-- The attributes of a captured error fill less than a register. -/
theorem captured_attr_lt (e : ErrEvent) : (if e.attr.secure then 2 ^ 26 else 0) + e.attr.vmid.toNat * 0x10000 +
    e.attr.mid.toNat * 0x100 + e.addr.toNat / 2 ^ 32 < 2 ^ 32 := by
  have vmid := e.attr.vmid.isLt
  have mid := e.attr.mid.isLt
  have addr := e.addr.isLt
  split <;> omega

/-- Settles O41: a further error sets MULTI, and a clear with a new error leaves the new one as a first error. -/
theorem firstErrorIsKept : Obligations.FirstErrorIsKept := by
  refine ⟨fun h page code addr d a ok valid => Hw.capture_keeps_first page code addr d a ok valid, ?_⟩
  intro s page v e a ok t clear
  have okA : (s.hw.answer 0).regsOk = true := ok
  have okC := Hw.setCapture_regsOk okA page 0 0 0 0
  refine ⟨_, execErrCapClear_captures t clear e, rfl, ?frame, ?_⟩
  case frame => rw [Hw.capture_after_clear _ okA]; rfl
  dsimp only
  rw [Hw.capture_after_clear _ okA]
  have code := e.code.isLt
  refine ⟨?cap0, ?cap1, ?cap2, Hw.rd_setCapture_cap3 okC .., fun j n0 n1 n2 n3 => ?others⟩
  case cap0 => rw [Hw.rd_setCapture_cap0 okC]; omega
  case cap1 => rw [Hw.rd_setCapture_cap1 okC, Nat.mod_mod]
  case cap2 => rw [Hw.rd_setCapture_cap2 okC, Nat.mod_eq_of_lt (captured_attr_lt e)]
  case others => rw [Hw.rd_setCapture_other okC n0 n1 n2 n3, Hw.rd_setCapture_other okA n0 n1 n2 n3, Hw.rd_answer]

/-! ## Register accesses -/

theorem exec_registerWrite (addr width : Nat) (v : Word) (a : Attr) (s : State) :
    exec (.registerWrite addr width v a) s = .next (s.withHw (s.hw.regWrite addr width v a)) := rfl

theorem exec_lowerRegisterRead (r : ReadAt) (a : Attr) (s : State) :
    exec (.lowerRegisterRead r a) s = .next (s.withHw (s.hw.regRead r.addr r.width a)) := rfl

theorem exec_upperRegisterRead (r : ReadAt) (a : Attr) (s : State) :
    exec (.upperRegisterRead r a) s = .next (s.withHw (s.hw.regRead r.addr r.width a)) := rfl

theorem regAt_page_space {k : Nat} (lt : k < 0x400_0000) : regAt (0xF000_0000 + k) = some k := by
  rw [regAt, if_pos (by omega), Nat.add_sub_cancel_left]

/-- An aligned access of a whole register reaches it. -/
theorem Hw.regAccess_aligned (h : Hw) {k : Nat} (a : Attr) (f : Nat → Hw → Hw) (lt : k < 0x400_0000) (al : k % 4 = 0) :
    h.regAccess (0xF000_0000 + k) 4 a f = f k h := by
  have aligned : (0xF000_0000 + k) % 4 = 0 := by omega
  simp only [Hw.regAccess, regAt_page_space lt, aligned, and_self, if_true]

/-- An access of another width or alignment is refused once its page has power and a clock (R6). -/
theorem Hw.regAccess_misaligned {h : Hw} {addr width k : Nat} {a : Attr} (f : Nat → Hw → Hw) (at_k : regAt addr = some k)
    (odd : width ≠ 4 ∨ addr % 4 ≠ 0) (page : (pageRow (k / 0x10000)).isSome = true) (live : h.live (k / 0x10000) = true)
    (jtag : h.jtagShut a = false) : h.regAccess addr width a f = (h.capture (k / 0x10000) 0x0001 addr a).errResp := by
  have present : (pageRow (k / 0x10000)).isNone = false := by simpa [Option.isNone_iff_eq_none, Option.isSome_iff_ne_none] using page
  have whole : ¬ (width = 4 ∧ addr % 4 = 0) := by omega
  simp [Hw.regAccess, at_k, whole, jtag, present, live]

/-- Settles O57: the three register accesses go through `Hw.regAccess`, which refuses the access. -/
theorem misalignedAndWideAccessesAreRefused : Obligations.MisalignedAndWideAccessesAreRefused := by
  intro s addr width k v a c at_k odd page live jtag which
  have refused := fun f => Hw.regAccess_misaligned f at_k odd page live jtag
  obtain rfl | rfl | rfl := which
  · rw [exec_registerWrite, Hw.regWrite, refused]
  · rw [exec_lowerRegisterRead, Hw.regRead, refused]
  · rw [exec_upperRegisterRead, Hw.regRead, refused]

/-! ## The commands of a page's header -/

/-- Settles O30: a command is its effect on the module. -/
theorem everyCommandAnswers : Obligations.EveryCommandAnswers :=
  fun c s => ⟨_, exec_effect c s, rfl⟩

section Header

variable {s : State} {page : Fin 1024} {g : Fin 3} {v : Word} {a : Attr}

/-- EVT_SET where it is honoured (R15). -/
theorem execEvtSetWrite_sets (t : s.hw.takes (evRaw page g + 12) a = true) (group : groupExists page g = true)
    (lcs : s.hw.lcs = 0 ∨ s.hw.lcs = 1 ∨ s.hw.lcs = 3) :
    exec (.evtSetWrite page g v a) s = .next (s.withHw ((s.hw.answer 0).newEdges
      ((s.hw.answer 0).wr (evRaw page g) ((s.hw.answer 0).rd (evRaw page g) ||| (v.toNat &&& evMask page g))) page g)) := by
  have honoured : (groupExists page g && ((s.hw.answer 0).lcs == 0 || (s.hw.answer 0).lcs == 1 ||
      (s.hw.answer 0).lcs == 3)) = true := by
    obtain q | q | q := lcs <;> simp [Hw.lcs] at q <;> simp [group, Hw.lcs, q]
  show execEvtSetWrite page g v a s = _
  simp only [execEvtSetWrite, State.run, Hw.busWrite_takes _ _ _ _ t, if_pos honoured]

/-- EVT_SET where it is ignored (R15). -/
theorem execEvtSetWrite_ignored (t : s.hw.takes (evRaw page g + 12) a = true) (lcs : s.hw.lcs = 2 ∨ s.hw.lcs = 4) :
    exec (.evtSetWrite page g v a) s = .next (s.withHw (s.hw.answer 0)) := by
  have ignored : ¬ (groupExists page g && ((s.hw.answer 0).lcs == 0 || (s.hw.answer 0).lcs == 1 ||
      (s.hw.answer 0).lcs == 3)) = true := by
    obtain q | q := lcs <;> simp [Hw.lcs] at q <;> simp [Hw.lcs, q]
  show execEvtSetWrite page g v a s = _
  simp only [execEvtSetWrite, State.run, Hw.busWrite_takes _ _ _ _ t, if_neg ignored]

theorem execEvtClrWrite_clears {again : Word} (t : s.hw.takes (evRaw page g + 8) a = true)
    (group : groupExists page g = true) :
    exec (.evtClrWrite page g v again a) s = .next (s.withHw ((s.hw.answer 0).newEdges
      ((s.hw.answer 0).wr (evRaw page g) (((s.hw.answer 0).rd (evRaw page g) &&&
        (0xFFFF_FFFF - (v.toNat &&& (0xFFFF_FFFF - again.toNat)))) ||| (again.toNat &&& evMask page g))) page g)) := by
  show execEvtClrWrite page g v again a s = _
  simp only [execEvtClrWrite, State.run, Hw.busWrite_takes _ _ _ _ t, if_pos group]

/-- LOCK of a page other than the WGT's has two bits, and sets no other page's. -/
theorem execLockWrite_sets (t : s.hw.takes (LOCK page) a = true) (ne : page.val ≠ pgWGT) :
    exec (.lockWrite page v a) s =
      .next (s.withHw ((s.hw.answer 0).wr (LOCK page) ((s.hw.answer 0).rd (LOCK page) ||| (v.toNat &&& 3)))) := by
  show execLockWrite page v a s = _
  have mask : lockMask page = 3 := if_neg ne
  simp only [execLockWrite, State.run, Hw.busWrite_takes _ _ _ _ t, Hw.lockWrite, mask, ne, false_and, if_false]

/-- A Secure master writes the world bit of an unlocked page. -/
theorem execWorldWrite_sets (o : s.hw.opens (WORLD page) a = true) (secure : a.secure = true)
    (free : s.hw.bit (LOCK page) 0 = false) (ne : page.val ≠ pgWGT) :
    exec (.worldWrite page v a) s = .next (s.withHw ((s.hw.answer 0).put (WORLD page) 0 0 (fld v.toNat 0 0))) := by
  show execWorldWrite page v a s = _
  simp [execWorldWrite, State.run, secure, Hw.access_opens _ _ _ _ o, free, ne]

end Header

/-- Settles O40: the two halves of R15. -/
theorem eventSetHonouredByLifeCycle : Obligations.EventSetHonouredByLifeCycle := by
  refine ⟨fun s h page i v a t e group lcs => ?_, fun s h page i v a t e lcs => ?_⟩
  · subst e
    exact execEvtSetWrite_sets t group lcs
  · subst e
    exact execEvtSetWrite_ignored t lcs

/-- A page of plain registers takes a write under the register's access code. -/
theorem execRegisterWrite_plain {s : State} {k : Nat} {r : PageRow} {v : Word} {a : Attr} (t : s.hw.takes k a = true)
    (row : pageRow (k / 0x10000) = some r) (blk : r.blk = .hlt ∨ r.blk = .ce) (lt : k < 0x400_0000) (al : k % 4 = 0)
    (body : 0x100 ≤ k % 0x10000) :
    exec (.registerWrite (0xF000_0000 + k) 4 v a) s = .next (s.withHw ((s.hw.answer 0).storeReg k v.toNat)) := by
  have plain : s.hw.writeAt k v a = s.hw.plain k v a := by
    simp only [Hw.writeAt, row, if_neg (Nat.not_lt.mpr body)]
    obtain q | q := blk <;> rw [q]
  rw [exec_registerWrite, Hw.regWrite, Hw.regAccess_aligned _ _ _ lt al, plain, Hw.plain, Hw.busWrite_takes _ _ _ _ t]

/-- A read of a register that no access of its own serves. -/
theorem Hw.regRead_opens {h : Hw} {k : Nat} {a : Attr} (o : h.opens k a = true) (lt : k < 0x400_0000) (al : k % 4 = 0)
    (ne : k ≠ KEY_RNG) : h.regRead (0xF000_0000 + k) 4 a = (h.answer 0).readAt k a := by
  rw [Hw.regRead, Hw.regAccess_aligned _ _ _ lt al, if_neg ne, Hw.access_opens _ _ _ _ o]

/-- A read of a lower register leaves its upper half in the shadow (R10). -/
theorem Hw.readAt_lower {h g g' : Hw} {k x y : Nat} {a : Attr} (lower : isLower k = true) (rx : h.readValue k a = (x, g))
    (ry : g.readValue (k + 4) a = (y, g')) :
    h.readAt k a = ({ g' with shadow := file g'.shadow (k + 4) (BitVec.ofNat 32 y) } : Hw).answer x := by
  simp only [Hw.readAt, lower, if_true, rx, ry]

/-- A read of an upper register answers the shadow that its lower one left (R10). -/
theorem Hw.readAt_upper {h : Hw} {k : Nat} {u : Word} {a : Attr} (upper : isLower k = false) (lower : isLower (k - 4) = true)
    (shadowed : find? h.shadow k = some u) :
    h.readAt k a = ({ h with shadow := unfile h.shadow k } : Hw).answer u.toNat := by
  simp only [Hw.readAt, upper, lower, shadowed, if_true, Bool.false_eq_true, if_false]

/-- Settles O1: each command of the header, and an access to a register, once its gates are open. -/
theorem pageHeaderCommandsComplete : Obligations.PageHeaderCommandsComplete := by
  refine ⟨?registerWrite, ?lowerRead, ?upperRead, ?evtClr, ?evtSet, ?errCapClear, ?lock, ?world⟩
  case registerWrite => rintro s _ k r v a t rfl; exact execRegisterWrite_plain t
  case lowerRead =>
    rintro s _ g a k x y o rfl lt al lower rx ry
    have ne : k ≠ KEY_RNG := by rintro rfl; exact absurd lower (by decide)
    rw [exec_lowerRegisterRead, Hw.regRead_opens o lt al ne, Hw.readAt_lower lower rx ry]
  case upperRead =>
    rintro s _ a k u o rfl lt al upper lower shadowed
    have ne : k ≠ KEY_RNG := by rintro rfl; exact absurd lower (by decide)
    rw [exec_upperRegisterRead, Hw.regRead_opens o lt al ne, Hw.readAt_upper upper lower shadowed]
  case evtClr => rintro s _ page g v again a t rfl; exact execEvtClrWrite_clears t
  case evtSet => rintro s _ page g v a t rfl; exact execEvtSetWrite_sets t
  case errCapClear => rintro s _ page v a t rfl; exact execErrCapClear_clears t
  case lock => rintro s _ page v a t rfl; exact execLockWrite_sets t
  case world => rintro s _ page v a o rfl; exact execWorldWrite_sets o

end Sys2Proof.Machine

/-! # Registers in canonical form

Every function of the model that answers a module keeps the registers canonical: one lemma for each of them, named after
it, in the order of the model's files. A module whose registers are those of `h` inherits the form by
`Hw.Canonical.frame`, a written register by `Hw.Canonical.wr`; everything else is built from the functions before it. -/

namespace Sys2Proof.Machine

/-- The registers of a module are in canonical form (`Hw.regsOk` as a proposition that the rules below take by name). -/
def Hw.Canonical (h : Hw) : Prop := h.regsOk = true

/-- A step, where it answers a next state, answers one whose registers are in canonical form. -/
def NextCanonical : Host.Outcome State Fault Refusal → Prop
  | .next t => t.hw.Canonical
  | _ => True

namespace Hw.Canonical

variable {h g : Hw} {s : State}

theorem of_regsOk (ok : h.regsOk = true) : h.Canonical := ok

/-- A change of anything but the registers. -/
theorem frame (ok : h.Canonical)
    {resp shadow edges rose took free now ints cores pwr held sys ain tcu0 tcu1 tcu2 tcu3 cue cea frc dbg stage mem zone
      sw nmu key cry cvus span vpt rel twn hlt boot} :
    Hw.Canonical ⟨h.regs, resp, shadow, edges, rose, took, free, now, ints, cores, pwr, held, sys, ain, tcu0, tcu1, tcu2,
      tcu3, cue, cea, frc, dbg, stage, mem, zone, sw, nmu, key, cry, cvus, span, vpt, rel, twn, hlt, boot⟩ := ok

theorem wr (ok : h.Canonical) {k v} : (h.wr k v).Canonical := Hw.wr_regsOk h ok k v

theorem ite {c : Prop} {d : Decidable c} (a : h.Canonical) (b : g.Canonical) : (if c then h else g).Canonical := by
  split
  · exact a
  · exact b

/-- A branch that goes on from the other. -/
theorem ifThen {c : Prop} {d : Decidable c} (ok : h.Canonical) (f : h.Canonical → g.Canonical) :
    (if c then g else h).Canonical := (f ok).ite ok

theorem ifElse {c : Prop} {d : Decidable c} (ok : h.Canonical) (f : h.Canonical → g.Canonical) :
    (if c then h else g).Canonical := ok.ite (f ok)

/-- What follows from an intermediate module. -/
theorem bind (ok : h.Canonical) (f : h.Canonical → g.Canonical) : g.Canonical := f ok

theorem ite_snd {α : Type} {c : Prop} {d : Decidable c} {p q : α × Hw} (a : p.2.Canonical) (b : q.2.Canonical) :
    (if c then p else q).2.Canonical := by
  split
  · exact a
  · exact b

theorem ite_snd2 {α β : Type} {c : Prop} {d : Decidable c} {p q : α × β × Hw} (a : p.2.2.Canonical)
    (b : q.2.2.Canonical) : (if c then p else q).2.2.Canonical := by
  split
  · exact a
  · exact b

theorem foldl {α : Type} {l : List α} {f : Hw → α → Hw} (ok : h.Canonical)
    (hf : ∀ g a, g.Canonical → (f g a).Canonical) : (l.foldl f h).Canonical := by
  induction l generalizing h with
  | nil => exact ok
  | cons a l ih => exact ih (hf h a ok)

theorem each {n : Nat} {f : Nat → Hw → Hw} (ok : h.Canonical)
    (hf : ∀ i g, g.Canonical → (f i g).Canonical) : (each n f h).Canonical :=
  foldl ok fun g i ok => hf i g ok

theorem run (ok : s.hw.Canonical) {f : Hw → Hw} (hf : ∀ g, g.Canonical → (f g).Canonical) : NextCanonical (s.run f) :=
  hf s.hw ok

theorem foldl_snd {α β : Type} {l : List α} {f : β × Hw → α → β × Hw} {p : β × Hw} (ok : p.2.Canonical)
    (hf : ∀ p a, p.2.Canonical → (f p a).2.Canonical) : (l.foldl f p).2.Canonical := by
  induction l generalizing p with
  | nil => exact ok
  | cons a l ih => exact ih (hf p a ok)

theorem foldl_snd2 {α β γ : Type} {l : List α} {f : β × γ × Hw → α → β × γ × Hw} {p : β × γ × Hw}
    (ok : p.2.2.Canonical) (hf : ∀ p a, p.2.2.Canonical → (f p a).2.2.Canonical) : (l.foldl f p).2.2.Canonical := by
  induction l generalizing p with
  | nil => exact ok
  | cons a l ih => exact ih (hf p a ok)

theorem foldl_hw {α : Type} {l : List α} {f : CommitAcc → α → CommitAcc} {x : CommitAcc} (ok : x.hw.Canonical)
    (hf : ∀ x a, x.hw.Canonical → (f x a).hw.Canonical) : (l.foldl f x).hw.Canonical := by
  induction l generalizing x with
  | nil => exact ok
  | cons a l ih => exact ih (hf x a ok)

theorem snd {α : Type} {p : α × Hw} {a : α} (ok : p.2.Canonical) (e : p = (a, g)) : g.Canonical := by
  subst e
  exact ok

theorem capture (ok : h.Canonical) {page code addr a d} : (h.capture page code addr a d).Canonical :=
  Hw.capture_regsOk h ok page code addr a d

theorem raiseG (ok : h.Canonical) {page i b} : (h.raiseG page i b).Canonical := Hw.raiseG_regsOk h ok page i b

theorem snd2 {α β : Type} {p : α × β × Hw} {a : α} {b : β} (ok : p.2.2.Canonical) (e : p = (a, b, g)) : g.Canonical := by
  subst e
  exact ok

theorem foldl_snd3 {α β γ δ : Type} {l : List α} {f : β × γ × δ × Hw → α → β × γ × δ × Hw} {p : β × γ × δ × Hw}
    (ok : p.2.2.2.Canonical) (hf : ∀ p a, p.2.2.2.Canonical → (f p a).2.2.2.Canonical) :
    (l.foldl f p).2.2.2.Canonical := by
  induction l generalizing p with
  | nil => exact ok
  | cons a l ih => exact ih (hf p a ok)

theorem foldl_fst {α β : Type} {l : List α} {f : Hw × β → α → Hw × β} {p : Hw × β} (ok : p.1.Canonical)
    (hf : ∀ p a, p.1.Canonical → (f p a).1.Canonical) : (l.foldl f p).1.Canonical := by
  induction l generalizing p with
  | nil => exact ok
  | cons a l ih => exact ih (hf p a ok)

theorem ite_hw {c : Prop} {d : Decidable c} {x y : CommitAcc} (a : x.hw.Canonical) (b : y.hw.Canonical) :
    (if c then x else y).hw.Canonical := by
  split
  · exact a
  · exact b

/-! ### `Sys2Proof/Machine/Ops.lean` -/

theorem put (ok : h.Canonical) {k hi lo x} : (h.put k hi lo x).Canonical := ok.wr

theorem putBit (ok : h.Canonical) {k b x} : (h.putBit k b x).Canonical := ok.put

theorem sat (ok : h.Canonical) {k n} : (h.sat k n).Canonical := ok.wr

theorem inc (ok : h.Canonical) {k n} : (h.inc k n).Canonical := ok.wr

theorem satF (ok : h.Canonical) {k hi lo} : (h.satF k hi lo).Canonical := ok.put

theorem incF (ok : h.Canonical) {k hi lo} : (h.incF k hi lo).Canonical := ok.put

theorem wrPair (ok : h.Canonical) {lo hi v} : (h.wrPair lo hi v).Canonical := ok.wr.wr

theorem deliver (ok : h.Canonical) {e} : (h.deliver e).Canonical := ok.frame

theorem edge (ok : h.Canonical) {e} : (h.edge e).Canonical := ok.frame

theorem raise (ok : h.Canonical) {page b} : (h.raise page b).Canonical := ok.raiseG

theorem raiseIf (ok : h.Canonical) {c page b} : (h.raiseIf c page b).Canonical := ok.raise.ite ok

theorem newEdges (ok : h.Canonical) {old page i} : (Hw.newEdges old h page i).Canonical := by
  refine ok.each fun b g ok => ?_
  split
  exacts [ok, ok.edge.ite ok]

theorem answer (ok : h.Canonical) {v} : (h.answer v).Canonical := ok.frame

theorem errResp (ok : h.Canonical) : h.errResp.Canonical := ok.frame

theorem refuse (ok : h.Canonical) {k code a} : (h.refuse k code a).Canonical := ok.capture.errResp

theorem access (ok : h.Canonical) {k a f} (hf : ∀ g, g.Canonical → (f g).Canonical) : (h.access k a f).Canonical :=
  ok.ite (ok.errResp.ite (ok.capture.errResp.ite (ok.refuse.ite (hf _ ok.answer))))

theorem busWrite (ok : h.Canonical) {k a f} (hf : ∀ g, g.Canonical → (f g).Canonical) : (h.busWrite k a f).Canonical :=
  ok.access fun g ok => ok.refuse.ite (hf g ok)

theorem storeReg (ok : h.Canonical) {k v} : (h.storeReg k v).Canonical := by
  unfold Hw.storeReg
  split
  exacts [ok, ok.wr]

theorem freeWord (ok : h.Canonical) : h.freeWord.2.Canonical := ok.frame

theorem freeByte (ok : h.Canonical) : h.freeByte.2.Canonical := ok.frame

theorem freeBytes (ok : h.Canonical) {n} : (h.freeBytes n).2.Canonical := by
  induction n generalizing h with
  | zero => exact ok
  | succ n ih => exact ih ok.freeByte

theorem freeDiv (ok : h.Canonical) {a b} : (h.freeDiv a b).2.Canonical := ok.ite_snd ok.frame

/-! ### `Sys2Proof/Machine/Timecode.lean` -/

theorem setSlot (ok : h.Canonical) {n t} : (h.setSlot n t).Canonical :=
  ok.frame.ite (ok.frame.ite (ok.frame.ite ok.frame))

theorem rebase (ok : h.Canonical) {n} : (h.rebase n).Canonical := ok.setSlot

theorem tcuEvent (ok : h.Canonical) {n m} : (h.tcuEvent n m).Canonical := ok.raise

theorem setPtp (ok : h.Canonical) {i x} : (h.setPtp i x).Canonical := ok.frame

theorem leaveAcquiring (ok : h.Canonical) {n old} : (h.leaveAcquiring n old).Canonical := ok.setSlot.ite ok

theorem setTcuState (ok : h.Canonical) {n st} : (h.setTcuState n st).Canonical :=
  (ok.setSlot.ite ok).put.leaveAcquiring

theorem enterHoldover (ok : h.Canonical) {n} : (h.enterHoldover n).Canonical :=
  ok.rebase.setSlot.setTcuState.tcuEvent

theorem enterFreerun (ok : h.Canonical) {n} : (h.enterFreerun n).Canonical :=
  ok.rebase.setSlot.setTcuState.tcuEvent

theorem setCorr (ok : h.Canonical) {n c ppm} : (h.setCorr n c ppm).Canonical := ok.rebase.setSlot.putBit

theorem planStep (ok : h.Canonical) {n c} : (h.planStep n c).Canonical := ok.setCorr.setSlot

theorem judge (ok : h.Canonical) {n d relock} : (h.judge n d relock).Canonical :=
  ok.setCorr.ite ((ok.setCorr.ite ok.setCorr.setSlot).ite ((ok.planStep.ite ok.setCorr).ite (ok.setCorr.ite
      ok.planStep)))

theorem execTcuBaseTickWrite (ok : s.hw.Canonical) {v a} : NextCanonical (Machine.execTcuBaseTickWrite v a s) :=
  ok.run fun _ ok => ok.busWrite fun _ ok => ok.refuse.ite (ok.refuse.ite ok.wr)

theorem sourceChanged (ok : h.Canonical) {n old len} : (h.sourceChanged n old len).Canonical :=
  ok.ite (ok.setCorr.setSlot.put.putBit.ite ((ok.setCorr.putBit.ifElse fun ok => ok.setSlot).bind fun ok =>
      ok.enterFreerun.ite (ok.enterHoldover.ite ok.put)))

theorem loseSource (ok : h.Canonical) {n} : (h.loseSource n).Canonical :=
  ok.setCorr.putBit.incF.enterHoldover.ite ok

theorem execSourceLost (ok : s.hw.Canonical) {n fault} : NextCanonical (Machine.execSourceLost n fault s) :=
  ok.run fun _ ok => ok.ite ok.raiseIf.loseSource

theorem execHoldLimitExpiry (ok : s.hw.Canonical) {n} : NextCanonical (Machine.execHoldLimitExpiry n s) :=
  ok.run fun _ ok => ok.enterFreerun.ite ok

theorem execAngStall (ok : s.hw.Canonical) {n} : NextCanonical (Machine.execAngStall n s) :=
  ok.run fun _ ok => ok.rebase.setSlot.putBit.tcuEvent.ite ok

theorem execSlewDone (ok : s.hw.Canonical) {n} : NextCanonical (Machine.execSlewDone n s) :=
  ok.run fun _ ok => ok.setCorr.ite ok

theorem slewLimit (ok : h.Canonical) {n} : (h.slewLimit n).Canonical := ok.rebase.setSlot.ite ok

theorem shaftAt (ok : h.Canonical) {n p} : (h.shaftAt n p).Canonical := ok.setSlot.ite ok

theorem encoderEdge (ok : h.Canonical) {n fwd gapNs} : (h.encoderEdge n fwd gapNs).Canonical :=
  ok.rebase.setSlot.putBit

theorem qualify (ok : h.Canonical) {n src rate tickNs seen} : (h.qualify n src rate tickNs seen).Canonical :=
  ok.ite (ok.rebase.wr.setSlot.bind fun ok => (ok.setSlot.ite ok).judge.setTcuState.tcuEvent.ite
      (ok.setSlot.ite ok).setSlot.setTcuState.tcuEvent)

/-! ### `Sys2Proof/Machine/CueSheet.lean` -/

theorem setHalf (ok : h.Canonical) {i l} : (h.setHalf i l).Canonical := ok.frame.ite ok.frame

theorem execCueIdxWrite (ok : s.hw.Canonical) {v a} : NextCanonical (Machine.execCueIdxWrite v a s) :=
  ok.run fun _ ok => ok.busWrite fun _ ok => ok.storeReg.wr.wr.wr.wr

theorem cueIdxNext (ok : h.Canonical) : h.cueIdxNext.Canonical := ok.incF

theorem execCueW3Write (ok : s.hw.Canonical) {v a} : NextCanonical (Machine.execCueW3Write v a s) :=
  ok.run fun _ ok => ok.busWrite fun _ ok => ok.refuse.ite (ok.wr.refuse.cueIdxNext.ite
      (ok.wr.refuse.cueIdxNext.ite ok.wr.setHalf.cueIdxNext))

theorem swapPending (ok : h.Canonical) {tc b} : (h.swapPending tc b).Canonical := ok.frame.putBit.putBit

theorem execCueSwapRequest (ok : s.hw.Canonical) {v a} : NextCanonical (Machine.execCueSwapRequest v a s) :=
  ok.run fun _ ok => ok.busWrite fun _ ok => ok.put.put.ite (ok.refuse.raise.ite
      ok.put.put.putBit.swapPending)

theorem swapHalves (ok : h.Canonical) : h.swapHalves.Canonical := ok.put.frame.putBit.putBit.putBit.raise

theorem execCueCopy (ok : s.hw.Canonical) {v a} : NextCanonical (Machine.execCueCopy v a s) :=
  ok.run fun _ ok => ok.busWrite fun _ ok => ok.refuse.ite (ok.frame.putBit.ite ok)

theorem execCopyDone (ok : s.hw.Canonical) : NextCanonical (Machine.execCopyDone s) :=
  ok.run fun _ ok => ok.setHalf.frame.putBit.ite ok

theorem execCueCntClr (ok : s.hw.Canonical) {v a} : NextCanonical (Machine.execCueCntClr v a s) :=
  ok.run fun _ ok => ok.busWrite fun _ ok => ((ok.wr.ite ok).ifThen fun ok => ok.wr).bind fun ok =>
      ok.wr.ite ok

theorem fireChecked (ok : h.Canonical) {e f} (hf : ∀ g, g.Canonical → (f g).Canonical) : (h.fireChecked e f).Canonical :=
  ok.sat.raise.ite (ok.sat.ite (hf h ok))

theorem cueNow (ok : h.Canonical) : h.cueNow.Canonical := ok.ite ok.frame

theorem passMarks (ok : h.Canonical) : h.passMarks.Canonical := ok.each fun _ _ ok => ok.setSlot

theorem fireAt (ok : h.Canonical) {i v e f} (hf : ∀ g, g.Canonical → (f g).Canonical) : (h.fireAt i v e f).Canonical :=
  (ok.cueNow.frame.fireChecked hf).ite ok.cueNow.frame.sat.raise

theorem cueTaken (ok : h.Canonical) {i} : (h.cueTaken i).Canonical := ok.cueNow.frame

theorem fireCue (ok : h.Canonical) {c act f} (hf : ∀ i j k l g, g.Canonical → (f i j k l g).Canonical) :
    (h.fireCue c act f).Canonical := by
  unfold Hw.fireCue
  refine .ite ?_ ok
  split
  exacts [ok.cueTaken.fireAt (hf _ _ _ _), ok]

theorem evtPulseEff (ok : h.Canonical) {arg v tc idx} : (Machine.evtPulseEff arg v tc idx h).Canonical :=
  ok.edge.ite ok

theorem tcCaptureEff (ok : h.Canonical) {arg v tc idx} : (Machine.tcCaptureEff arg v tc idx h).Canonical :=
  ok.wr.wr

theorem swapEff (ok : h.Canonical) {arg v tc idx} : (Machine.swapEff arg v tc idx h).Canonical :=
  ok.capture.raise.ite ok.swapPending

theorem execEvtPulse (ok : s.hw.Canonical) {c} : NextCanonical (Machine.execEvtPulse c s) :=
  ok.run fun _ ok => ok.fireCue fun _ _ _ _ _ ok => ok.evtPulseEff

theorem execTcCapture (ok : s.hw.Canonical) {c} : NextCanonical (Machine.execTcCapture c s) :=
  ok.run fun _ ok => ok.fireCue fun _ _ _ _ _ ok => ok.tcCaptureEff

theorem execSwap (ok : s.hw.Canonical) {c} : NextCanonical (Machine.execSwap c s) :=
  ok.run fun _ ok => ok.fireCue fun _ _ _ _ _ ok => ok.swapEff

/-! ### `Sys2Proof/Machine/Array.lean` -/

theorem setCad (ok : h.Canonical) {c x} : (h.setCad c x).Canonical := ok.frame

theorem setTask (ok : h.Canonical) {t x} : (h.setTask t x).Canonical := ok.frame

theorem setEng (ok : h.Canonical) {e x} : (h.setEng e x).Canonical := ok.frame

theorem setRun (ok : h.Canonical) {t r} : (h.setRun t r).Canonical := ok.frame

theorem dropRun (ok : h.Canonical) {t} : (h.dropRun t).Canonical := ok.frame

theorem setEngState (ok : h.Canonical) {e st} : (h.setEngState e st).Canonical := ok.put.put.put.put.put

theorem clearSuspect (ok : h.Canonical) {e testing} : (h.clearSuspect e testing).Canonical := ok.setEng

theorem beforeOut (ok : h.Canonical) {ks} : (h.beforeOut ks).Canonical := ok.frame

theorem setTaskState (ok : h.Canonical) {t st} : (h.setTaskState t st).Canonical := ok.put

theorem setLast (ok : h.Canonical) {t x} : (h.setLast t x).Canonical := ok.put

theorem trimKept (ok : h.Canonical) : h.trimKept.Canonical := (ok.frame.put.wr.ite ok.frame.put).raiseIf

theorem keep (ok : h.Canonical) {seq ws} : (h.keep seq ws).Canonical := ok.frame

theorem poolWriteAt (ok : h.Canonical) {seq a bs} : (h.poolWriteAt seq a bs).Canonical :=
  trimKept (ok.frame)

theorem poolWrite (ok : h.Canonical) {a bs} : (h.poolWrite a bs).Canonical := ok.frame.poolWriteAt

/-! ### `Sys2Proof/Machine/Worlds.lean` -/

theorem execEvtClrWrite (ok : s.hw.Canonical) {page g v again a} :
    NextCanonical (Machine.execEvtClrWrite page g v again a s) :=
  ok.run fun _ ok => ok.busWrite fun _ ok => ok.wr.newEdges.ite ok

theorem execEvtSetWrite (ok : s.hw.Canonical) {page g v a} :
    NextCanonical (Machine.execEvtSetWrite page g v a s) :=
  ok.run fun _ ok => ok.busWrite fun _ ok => ok.wr.newEdges.ite ok

theorem execErrCapClear (ok : s.hw.Canonical) {page v fresh a} :
    NextCanonical (Machine.execErrCapClear page v fresh a s) := by
  unfold Machine.execErrCapClear
  refine ok.run fun _ ok => ok.busWrite fun _ ok => ?_
  dsimp only
  split
  exacts [ok.wr.wr.wr.wr.ite ok, (ok.wr.wr.wr.wr.ite ok).capture]

theorem lockAll (ok : h.Canonical) : h.lockAll.Canonical :=
  (ok.foldl fun _ _ ok => ok.putBit).putBit.putBit.putBit.raise

theorem lockWrite (ok : h.Canonical) {page v} : (h.lockWrite page v).Canonical := ok.wr.lockAll.ite ok.wr

theorem execLockWrite (ok : s.hw.Canonical) {page v a} : NextCanonical (Machine.execLockWrite page v a s) :=
  ok.run fun _ ok => ok.busWrite fun _ ok => ok.lockWrite

theorem execWgtLockAll (ok : s.hw.Canonical) {v a} : NextCanonical (Machine.execWgtLockAll v a s) :=
  ok.run fun _ ok => ok.busWrite fun _ ok => ok.lockWrite.ifThen fun ok => ok.lockAll

theorem execWorldWrite (ok : s.hw.Canonical) {page v a} : NextCanonical (Machine.execWorldWrite page v a s) :=
  ok.run fun _ ok => ok.refuse.ite (ok.access fun _ ok => ok.refuse.ite (ok.ite ok.put))

theorem putPend (ok : h.Canonical) {r x} : (h.putPend r x).Canonical := ok.putBit.ite ok.putBit

theorem dropHeld (ok : h.Canonical) {r} : (h.dropHeld r).Canonical := ok.frame.putPend

theorem pwrLast (ok : h.Canonical) {r result} : (h.pwrLast r result).Canonical := ok.wr

theorem refuseHeld (ok : h.Canonical) {r cause tick} : (h.refuseHeld r cause tick).Canonical :=
  ok.dropHeld.wr.wr.incF.pwrLast.raise.raise

theorem gateRefused (ok : h.Canonical) {addr a} : (h.gateRefused addr a).Canonical := ok.sat.capture.raise

/-! ### `Sys2Proof/Machine/Memory.lean` -/

theorem setT1 (ok : h.Canonical) {o b} : (h.setT1 o b).Canonical := by
  unfold Hw.setT1
  split
  exacts [ok.frame, ok.frame]

theorem memGate (ok : h.Canonical) {addr write a} : (h.memGate addr write a).2.Canonical := by
  unfold Hw.memGate
  split
  · exact ok
  · refine .ite_snd ok.gateRefused (.ite_snd ok ?_)
    split
    exacts [ok.capture.ite_snd ok, ok.capture.ite_snd ok, ok.capture.ite_snd ok, ok, ok]

theorem readLines (ok : h.Canonical) {a l bs} : (Hw.readLines a l bs h).2.Canonical := by
  induction l generalizing bs h with
  | nil => exact ok
  | cons x l ih =>
    unfold Hw.readLines
    split
    · next e => exact ok.memGate.snd e
    · next e => exact ih (ok.memGate.snd e)

theorem memRead (ok : h.Canonical) {addr n a} : (h.memRead addr n a).2.Canonical := ok.readLines

theorem spaceWrite (ok : h.Canonical) {sp o bs} : (h.spaceWrite sp o bs).Canonical := by
  unfold Hw.spaceWrite
  split
  exacts [ok.frame, ok.foldl_snd fun _ _ ok => ok.setT1, ok.frame, ok.poolWrite, ok]

theorem writeLines (ok : h.Canonical) {a l bs} : (Hw.writeLines a l bs h).2.Canonical := by
  induction l generalizing bs h with
  | nil => exact ok
  | cons x l ih =>
    unfold Hw.writeLines
    split
    · next e => exact ok.memGate.snd e
    · next e => exact ih (ok.memGate.snd e).spaceWrite

theorem memWrite (ok : h.Canonical) {addr bs a} : (h.memWrite addr bs a).2.Canonical := ok.writeLines

theorem memWord (ok : h.Canonical) {addr n a} : (h.memWord addr n a).2.Canonical := by
  unfold Hw.memWord
  split
  · next e => exact ok.memRead.snd e
  · next e => exact ok.memRead.snd e

/-! ### `Sys2Proof/Machine/Flash.lean` -/

theorem flashErase (ok : h.Canonical) {o n} : (h.flashErase o n).Canonical := ok.frame

theorem flashPut (ok : h.Canonical) {o b} : (h.flashPut o b).Canonical := ok.frame.ite ok.frame

theorem flashProgram (ok : h.Canonical) {o bs} : (h.flashProgram o bs).Canonical :=
  ok.foldl_snd fun _ _ ok => ok.flashPut

theorem flashReplace (ok : h.Canonical) {o bs} : (h.flashReplace o bs).Canonical := ok.flashErase.flashProgram

/-! ### `Sys2Proof/Machine/Can.lean` -/

theorem setCan (ok : h.Canonical) {n c} : (h.setCan n c).Canonical := ok.frame

theorem canCount (ok : h.Canonical) {n k} : (h.canCount n k).Canonical := ok.setCan

theorem setObjData (ok : h.Canonical) {n o bs upto} : (h.setObjData n o bs upto).Canonical := ok.setCan

theorem setPending (ok : h.Canonical) {n o x} : (h.setPending n o x).Canonical := ok.putBit.putBit

theorem objFlag (ok : h.Canonical) {n o b} : (h.objFlag n o b).Canonical := ok.putBit

theorem unpend (ok : h.Canonical) {n o} : (h.unpend n o).Canonical := ok.setCan.setPending

theorem objRevoked (ok : h.Canonical) {n o} : (h.objRevoked n o).Canonical := (ok.ite ok.unpend).objFlag.raise

theorem makePending (ok : h.Canonical) {n o} : (h.makePending n o).Canonical :=
  (ok.objRevoked.ite (ok.objFlag.ite ok.wrPair.setCan.setPending)).ite (ok.objFlag.ite ok.setCan.setPending)

theorem canTrigger (ok : h.Canonical) {n o cue} : (h.canTrigger n o cue).Canonical :=
  ok.setCan.ite ((ok.objFlag.canCount.ite ok.objFlag).ite ok.makePending)

theorem canUpdate (ok : h.Canonical) {n o send dlc bs} : (h.canUpdate n o send dlc bs).Canonical :=
  ok.objFlag.ite (ok.put.setObjData.setCan.ifThen fun ok => ok.canTrigger)

theorem canTxEff (ok : h.Canonical) {arg v tc idx} : (Machine.canTxEff arg v tc idx h).Canonical :=
  ok.canTrigger.ite ok.canCount

theorem execCanTx (ok : s.hw.Canonical) {c} : NextCanonical (Machine.execCanTx c s) :=
  ok.run fun _ ok => ok.fireCue fun _ _ _ _ _ ok => ok.canTxEff

theorem execCanTxreq (ok : s.hw.Canonical) {n v a} : NextCanonical (Machine.execCanTxreq n v a s) :=
  ok.run fun _ ok => ok.busWrite fun _ ok => ok.canTrigger.ite ok.refuse

theorem execMacReady (ok : s.hw.Canonical) {n o} : NextCanonical (Machine.execMacReady n o s) :=
  ok.run fun _ ok => ok.setCan.ite ok

theorem loopDelay (ok : h.Canonical) {n f} : (h.loopDelay n f).Canonical := ok.frame.put.ite ok

theorem execArbitrationStart (ok : s.hw.Canonical) {n won} :
    NextCanonical (Machine.execArbitrationStart n won s) := by
  unfold Machine.execArbitrationStart
  refine ok.run fun _ ok => .ite ok ?_
  dsimp only
  split
  · exact ok.foldl fun _ _ ok => ok.objRevoked
  · exact (ok.foldl fun _ _ ok => ok.objRevoked).setCan.objFlag.loopDelay.ite (ok.foldl fun _ _ ok =>
      ok.objRevoked).canCount

theorem ageDrop (ok : h.Canonical) {n o} : (h.ageDrop n o).Canonical := ok.unpend.objFlag.canCount.raise

theorem execAgeDrop (ok : s.hw.Canonical) {n o} : NextCanonical (Machine.execAgeDrop n o s) :=
  ok.run fun _ ok => ok.ite (ok.setCan.ite ok.ageDrop)

theorem offBus (ok : h.Canonical) {n} : (h.offBus n).Canonical := by
  unfold Hw.offBus
  split
  exacts [ok, ok.setCan.putBit]

theorem attemptFails (ok : h.Canonical) {n} : (h.attemptFails n).Canonical := by
  unfold Hw.attemptFails
  split
  · exact ok
  · exact ok.offBus.setCan.bind fun ok => (ok.ageDrop.makePending.ite ok.ageDrop).ite (ok.objRevoked.ite
      ok)

theorem canStopNow (ok : h.Canonical) {n} : (h.canStopNow n).Canonical := ok.setCan.putBit.ite ok

theorem notAlone (ok : h.Canonical) {n} : (h.notAlone n).Canonical := ok.putBit.put

theorem busOff (ok : h.Canonical) {n} : (h.busOff n).Canonical :=
  ok.attemptFails.setCan.put.put.canCount.raise

theorem canState (ok : h.Canonical) {n} : (h.canState n).Canonical :=
  ok.ite (ok.busOff.ite (ok.put.raiseIf.ite ok.put))

theorem errUp (ok : h.Canonical) {n tec k} : (h.errUp n tec k).Canonical := ok.ite (ok.put.ite ok.put)

theorem tecDown (ok : h.Canonical) {n} : (h.tecDown n).Canonical := ok.ite ok.put.canState

theorem recDown (ok : h.Canonical) {n} : (h.recDown n).Canonical := ok.ite ok.put.canState

theorem errFound (ok : h.Canonical) {n sending err waived xlData} :
    (h.errFound n sending err waived xlData).Canonical :=
  ((ok.put.ite ok.put.canCount).ifElse fun ok => ok.errUp).bind fun ok => ((ok.satF.putBit.raise.ite
      ok.satF).ite ok).bind fun ok => ((ok.setCan.ite ok).ifThen fun ok =>
      ok.attemptFails).canState.canStopNow

theorem canLapse (ok : h.Canonical) {n} : (h.canLapse n).Canonical := ok.attemptFails.canStopNow.ite ok

theorem canPex (ok : h.Canonical) {n sending} : (h.canPex n sending).Canonical :=
  ok.setCan.canCount.canStopNow.ite ok.errFound

theorem execErrorDetected (ok : s.hw.Canonical) {n sending e} :
    NextCanonical (Machine.execErrorDetected n sending e s) := by
  unfold Machine.execErrorDetected
  refine ok.run fun _ ok => .ite ok.canLapse ?_
  split
  · exact ok.canLapse.errFound
  · exact ok.canLapse.canPex
  · exact ok.canLapse.ite ok.canLapse.errUp.canState
  · exact ok.canLapse.errUp.canState
  · exact ok.canLapse.errUp.canState
  · exact ok.canLapse.errUp.canState
  · exact ok.canLapse.errUp.canState

theorem execRecessiveSequence (ok : s.hw.Canonical) {n} : NextCanonical (Machine.execRecessiveSequence n s) :=
  ok.run fun _ ok => ok.ite ((ok.ite (ok.put.ite ok.put.setCan.put.put.put.putBit.putBit.raise)).ite
      ok.setCan.putBit)

theorem execCanRecov (ok : s.hw.Canonical) {n v a} : NextCanonical (Machine.execCanRecov n v a s) :=
  ok.run fun _ ok => ok.busWrite fun _ ok => ok.ite (ok.refuse.ite (ok.ite (ok.putBit.ite
      ok.setCan.put.putBit)))

theorem canCtrl (ok : h.Canonical) {n v busy a} : (h.canCtrl n v busy a).Canonical :=
  ok.canLapse.ite ((ok.canLapse.refuse.ite ok.canLapse.setCan.put.putBit).ite
      (ok.canLapse.putBit.put.putBit.setCan.ifElse fun ok => ok.putBit))

theorem execCanEnable (ok : s.hw.Canonical) {n v a} : NextCanonical (Machine.execCanEnable n v a s) :=
  ok.run fun _ ok => ok.busWrite fun _ ok => ok.canCtrl

theorem execCanDisable (ok : s.hw.Canonical) {n v busy a} :
    NextCanonical (Machine.execCanDisable n v busy a s) :=
  ok.run fun _ ok => ok.busWrite fun _ ok => ok.canCtrl

theorem objTrim (ok : h.Canonical) {n o} : (h.objTrim n o).Canonical :=
  (ok.ite ok.put).ifThen fun ok => ok.put

theorem execCanObjectWrite (ok : s.hw.Canonical) {n o w v a} :
    NextCanonical (Machine.execCanObjectWrite n o w v a s) :=
  ok.run fun _ ok => ok.busWrite fun _ ok => ok.refuse.ite (ok.refuse.ite (ok.refuse.ite
      ok.storeReg.objTrim))

theorem execCanCntClr (ok : s.hw.Canonical) {n v a} : NextCanonical (Machine.execCanCntClr n v a s) :=
  ok.run fun _ ok => ok.busWrite fun _ ok => ok.setCan

theorem execFrameStore (ok : s.hw.Canonical) {n} : NextCanonical (Machine.execFrameStore n s) := by
  unfold Machine.execFrameStore
  refine ok.run fun _ ok => ?_
  split
  · exact ok
  · refine .ite (.raise (.canCount (.objFlag (.canCount (.objFlag (.incF ?_)))))) (.canCount (.objFlag (.incF
      ?_)))
    · split
      · exact ok.setCan.setObjData.put.putBit.put.put.put.putBit.wr.wr.wr
      · exact ok.setCan.setObjData.put.putBit.put.put.put.putBit.wr.wr.wr.wrPair
    · split
      · exact ok.setCan.setObjData.put.putBit.put.put.put.putBit.wr.wr.wr
      · exact ok.setCan.setObjData.put.putBit.put.put.put.putBit.wr.wr.wr.wrPair

theorem canKeysRevoked (ok : h.Canonical) {slots} : (h.canKeysRevoked slots).Canonical :=
  ok.each fun _ _ ok => ok.each fun _ _ ok => ok.objRevoked.ite ok

/-! ### `Sys2Proof/Machine/Tables.lean` -/

theorem setFdb (ok : h.Canonical) {t i w v} : (h.setFdb t i w v).Canonical := ok.frame

theorem setStrm (ok : h.Canonical) {t i w v} : (h.setStrm t i w v).Canonical := ok.frame

theorem fdbUsed (ok : h.Canonical) : h.fdbUsed.Canonical := ok.wr

theorem tableWorks (ok : h.Canonical) {k limit} : (h.tableWorks k limit).Canonical := ok.freeWord.frame

theorem tableCommand (ok : h.Canonical) {k op v a size f} (hf : ∀ t i g, g.Canonical → (f t i g).2.2.Canonical) :
    (h.tableCommand k op v a size f).Canonical :=
  ok.busWrite fun g ok => ok.refuse.ite (ok.refuse.ite (hf _ _ g ok).wr.tableWorks)

theorem fdbCommand (ok : h.Canonical) {op v a f} (hf : ∀ t i g, g.Canonical → (f t i g).2.2.Canonical) :
    (h.fdbCommand op v a f).Canonical :=
  ok.tableCommand hf

theorem strmCommand (ok : h.Canonical) {op v a f} (hf : ∀ t i g, g.Canonical → (f t i g).2.2.Canonical) :
    (h.strmCommand op v a f).Canonical :=
  ok.tableCommand hf

theorem execFdbRead (ok : s.hw.Canonical) {v a} : NextCanonical (Machine.execFdbRead v a s) :=
  ok.run fun _ ok => ok.fdbCommand fun _ _ _ ok => ok.each fun _ _ ok => ok.wr

theorem execFdbWrite (ok : s.hw.Canonical) {v a} : NextCanonical (Machine.execFdbWrite v a s) :=
  ok.run fun _ ok => ok.fdbCommand fun _ _ _ ok => (ok.each fun _ _ ok => ok.setFdb).fdbUsed

theorem execFdbLookup (ok : s.hw.Canonical) {v a} : NextCanonical (Machine.execFdbLookup v a s) := by
  unfold Machine.execFdbLookup
  refine ok.run fun _ ok => ok.fdbCommand fun _ _ _ ok => ?_
  split
  exacts [ok, ok]

theorem execFdbDelete (ok : s.hw.Canonical) {v a} : NextCanonical (Machine.execFdbDelete v a s) :=
  ok.run fun _ ok => ok.fdbCommand fun _ _ _ ok => (ok.each fun _ _ ok => ok.setFdb).fdbUsed

theorem fdbClear (ok : h.Canonical) {i} : (h.fdbClear i).Canonical := ok.each fun _ _ ok => ok.setFdb

theorem fdbFlush (ok : h.Canonical) {p} : (h.fdbFlush p).Canonical :=
  (ok.foldl fun _ _ ok => ok.fdbClear).fdbUsed

theorem execFdbFlushFid (ok : s.hw.Canonical) {v a} : NextCanonical (Machine.execFdbFlushFid v a s) :=
  ok.run fun _ ok => ok.fdbCommand fun _ _ _ ok => ok.fdbFlush

theorem execFdbFlushPort (ok : s.hw.Canonical) {v a} : NextCanonical (Machine.execFdbFlushPort v a s) :=
  ok.run fun _ ok => ok.fdbCommand fun _ _ _ ok => ok.fdbFlush

theorem execFdbAgeing (ok : s.hw.Canonical) : NextCanonical (Machine.execFdbAgeing s) :=
  ok.run fun _ ok => ok.ite (ok.foldl fun _ _ ok => ok.fdbClear.ite ok.setFdb).fdbUsed

theorem execStrmRead (ok : s.hw.Canonical) {v a} : NextCanonical (Machine.execStrmRead v a s) :=
  ok.run fun _ ok => ok.strmCommand fun _ _ _ ok => ok.each fun _ _ ok => ok.wr

theorem execStrmWrite (ok : s.hw.Canonical) {v a} : NextCanonical (Machine.execStrmWrite v a s) :=
  ok.run fun _ ok => (ok.busWrite fun _ ok => ok.refuse).ite (ok.strmCommand fun _ _ _ ok =>
      ((ok.each fun _ _ ok => ok.setStrm).ifThen fun ok => ok.setStrm).ifThen fun ok => ok.frame)

theorem execStrmLookup (ok : s.hw.Canonical) {v a} : NextCanonical (Machine.execStrmLookup v a s) := by
  unfold Machine.execStrmLookup
  refine ok.run fun _ ok => ok.strmCommand fun _ _ _ ok => ?_
  split
  exacts [ok, ok]

theorem execStrmDelete (ok : s.hw.Canonical) {v a} : NextCanonical (Machine.execStrmDelete v a s) :=
  ok.run fun _ ok => ok.strmCommand fun _ _ _ ok => ok.each fun _ _ ok => ok.setStrm

theorem swCount (ok : h.Canonical) {space index num n} : (h.swCount space index num n).Canonical := ok.frame

theorem execSeqRecoveryReset (ok : s.hw.Canonical) {n} : NextCanonical (Machine.execSeqRecoveryReset n s) :=
  ok.run fun _ ok => ok.ite ok.setStrm.setStrm.swCount.raise

theorem execSwcCntClr (ok : s.hw.Canonical) {v a} : NextCanonical (Machine.execSwcCntClr v a s) :=
  ok.run fun _ ok => ok.busWrite fun _ ok => ok.refuse.ite ok.frame

theorem execGrnCntClr (ok : s.hw.Canonical) {v a} : NextCanonical (Machine.execGrnCntClr v a s) :=
  ok.run fun _ ok => ok.busWrite fun _ ok => ((ok.wr.ite ok).ifThen fun ok => ok.wr).bind fun ok =>
      ok.wr.ite ok

theorem execLoftCntClr (ok : s.hw.Canonical) {v a} : NextCanonical (Machine.execLoftCntClr v a s) :=
  ok.run fun _ ok => ok.busWrite fun _ ok => ok.wr.ite ok

/-! ### `Sys2Proof/Machine/Granary.lean` -/

theorem setQueue (ok : h.Canonical) {q x} : (h.setQueue q x).Canonical := ok.frame

theorem setDesc (ok : h.Canonical) {d x} : (h.setDesc d x).Canonical := ok.frame

theorem noteFree (ok : h.Canonical) {n} : (h.noteFree n).Canonical := ok.frame

theorem grnSync (ok : h.Canonical) : h.grnSync.Canonical := by
  unfold Hw.grnSync
  refine .bind ?_ fun ok => ok.wr.ite ok
  exact (Hw.Canonical.raiseIf (.raiseIf (.noteFree (.bind ok.wr.wr fun ok => ok.wr.ite ok)))).wr.wr

theorem storeCells (ok : h.Canonical) {cs bs} : (h.storeCells cs bs).Canonical := ok.frame

theorem freeCells (ok : h.Canonical) {cs} : (h.freeCells cs).Canonical := ok.frame

theorem newFrame (ok : h.Canonical) {f bs} : (h.newFrame f bs).2.Canonical := ok.storeCells.setDesc

theorem link (ok : h.Canonical) {q d} : (h.link q d).Canonical := ok.setQueue

theorem freeRun (ok : h.Canonical) {d} : (h.freeRun d).Canonical := ok.freeCells.frame

theorem unlink (ok : h.Canonical) {q d} : (h.unlink q d).Canonical :=
  ok.setQueue.freeRun.ite (ok.setQueue.setDesc.ite ok.setQueue.freeCells.frame)

theorem dropLink (ok : h.Canonical) {q d k} : (h.dropLink q d k).Canonical := ok.swCount.unlink

theorem pushOut (ok : h.Canonical) {q c n} (e : h.pushOut q c n = some g) : g.Canonical := by
  unfold Hw.pushOut at e
  dsimp only at e
  split at e
  · cases e
  · cases e
    exact (ok.foldl fun _ _ ok => ok.dropLink).sat.raise

theorem spill (ok : h.Canonical) {q f bs} (e : h.spill q f bs = some g) : g.Canonical := by
  unfold Hw.spill at e
  dsimp only at e
  split at e
  · cases e
  · cases e
    refine .raise (.swCount (.frame (.ite (.link (.setDesc ?_)) (.setDesc ?_)))) <;> (split <;> exact ok)

theorem place (ok : h.Canonical) {q f bs shr} : (h.place q f bs shr).Canonical :=
  (ok.storeCells.setDesc.setQueue.ifThen fun ok => ok.frame).link

theorem admitDrop (ok : h.Canonical) : h.admitDrop.Canonical := ok.sat.raise

theorem admitOne (ok : h.Canonical) {q f bs} : (h.admitOne q f bs).Canonical := by
  unfold Hw.admitOne
  refine ok.swCount.ite (ok.place.ite (ok.place.ite ?_))
  split
  · next e =>
    split at e
    · exact (ok.pushOut e).place
    · cases e
  · refine .ite ?_ ok.swCount.admitDrop
    split
    · next e => exact ok.spill e
    · exact ok.raise.swCount.admitDrop

theorem admitMany (ok : h.Canonical) {qs f bs} : (h.admitMany qs f bs).Canonical :=
  ((ok.foldl fun _ _ ok => ok.swCount).foldl fun _ _ ok => ok.swCount).bind fun ok => (ok.ite
      ok.admitDrop).ifElse fun ok => ok.storeCells.setDesc.frame.foldl fun _ _ ok => ok.setQueue.link

theorem entered (ok : h.Canonical) {qs f bs} : (h.entered qs f bs).Canonical := by
  unfold Hw.entered
  refine .ite (ok.foldl fun _ _ ok => ok.swCount).admitDrop ?_
  split
  exacts [ok, ok.admitOne, ok.admitMany]

theorem t1Write (ok : h.Canonical) {o bs} : (h.t1Write o bs).Canonical := ok.spaceWrite

theorem writeRecord (ok : h.Canonical) {q x f} : (h.writeRecord q x f).Canonical := by
  unfold Hw.writeRecord
  dsimp only
  split
  exacts [ok.t1Write.t1Write.ifThen fun ok => ok.t1Write, ok.t1Write.t1Write]

theorem execLoftWriteDone (ok : s.hw.Canonical) : NextCanonical (Machine.execLoftWriteDone s) := by
  unfold Machine.execLoftWriteDone
  refine ok.run fun _ ok => ?_
  split
  · exact ok
  · dsimp only
    split
    exacts [ok.frame, ok.writeRecord.freeCells.setDesc.frame.grnSync]

theorem runTake (ok : h.Canonical) {q d fs} : (h.runTake q d fs).Canonical :=
  ok.frame.setDesc.ifThen fun ok => ok.unlink

theorem loftStage (ok : h.Canonical) {q e} : (h.loftStage q e).Canonical := by
  unfold Hw.loftStage
  split
  · exact ok
  · dsimp only
    split
    · exact ok
    · refine .ite ok ?_
      split
      · exact ok.swCount.raise.runTake.grnSync
      · exact ok.swCount.raise.unlink.grnSync
      · exact ok.newFrame.setQueue.frame.runTake.grnSync

/-! ### `Sys2Proof/Machine/Msec.lean` -/

theorem setSec (ok : h.Canonical) {t i w v} : (h.setSec t i w v).Canonical := ok.frame

theorem msecCommand (ok : h.Canonical) {op v a f} (hf : ∀ t i g, g.Canonical → (f t i g).2.2.Canonical) :
    (h.msecCommand op v a f).Canonical :=
  ok.tableCommand hf

theorem execMsecRead (ok : s.hw.Canonical) {v a} : NextCanonical (Machine.execMsecRead v a s) :=
  ok.run fun _ ok => ok.msecCommand fun _ _ _ ok => ok.each fun _ _ ok => ok.wr

theorem execMsecWrite (ok : s.hw.Canonical) {v a} : NextCanonical (Machine.execMsecWrite v a s) := by
  unfold Machine.execMsecWrite
  refine ok.run fun _ ok => ?_
  dsimp only
  split
  · exact ok.busWrite fun _ ok => ok.refuse
  · exact ok.msecCommand fun _ _ _ ok => ok.each fun _ _ ok => ok.setSec

theorem execMsecDelete (ok : s.hw.Canonical) {v a} : NextCanonical (Machine.execMsecDelete v a s) :=
  ok.run fun _ ok => ok.msecCommand fun _ _ _ ok => ok.each fun _ _ ok => ok.setSec

theorem msecKeysRevoked (ok : h.Canonical) {slots} : (h.msecKeysRevoked slots).Canonical :=
  ok.ite (ok.foldl fun _ _ ok => ok.setSec).raise

theorem setSaPn (ok : h.Canonical) {i pn} : (h.setSaPn i pn).Canonical := ok.setSec.setSec

theorem pnUsed (ok : h.Canonical) {i} : (h.pnUsed i).Canonical := ok.ite ok.setSaPn.raiseIf.raiseIf

theorem saCount (ok : h.Canonical) {i hi lo} : (h.saCount i hi lo).Canonical := ok.setSec

theorem msecValidate (ok : h.Canonical) {p b} : (h.msecValidate p b).2.Canonical := by
  unfold Hw.msecValidate
  dsimp only
  refine .ite_snd ok (.ite_snd (ok.ite_snd ok) (.ite_snd ok (.ite_snd ok ?_)))
  split
  · exact ok
  · exact ok.ite_snd (ok.saCount.raise.ite_snd (ok.setSaPn.ite_snd (ok.saCount.raise.ite_snd ok.saCount)))

/-! ### `Sys2Proof/Machine/Egress.lean` -/

theorem setPort (ok : h.Canonical) {p x} : (h.setPort p x).Canonical := ok.frame

theorem ethCount (ok : h.Canonical) {p k n} : (h.ethCount p k n).Canonical := ok.frame.ite ok

theorem touch (ok : h.Canonical) {p} : (h.touch p).Canonical := ok.setPort.wr.wr.ite ok.setPort

theorem settle (ok : h.Canonical) {p} : (h.settle p).Canonical := ok.setPort.setPort

theorem renewHorizons (ok : h.Canonical) : h.renewHorizons.Canonical :=
  ok.each fun _ _ ok => ok.ite ok.setPort.putBit

theorem startFrame (ok : h.Canonical) {p c d wire sa} : (h.startFrame p c d wire sa).Canonical := ok.setPort

theorem resumeFrame (ok : h.Canonical) {p f} : (h.resumeFrame p f).Canonical := ok.setPort

theorem select (ok : h.Canonical) {p ecc n l} : (h.select p ecc n l).Canonical := by
  induction n generalizing h l with
  | zero => exact ok
  | succ n ih =>
    unfold Hw.select
    dsimp only
    split
    · exact ok
    · split
      · exact ok.resumeFrame
      · refine (ih ok.swCount.raise).ite ((ih ok.dropLink.raise).ite (ok.dropLink.raise.ite ?_))
        split
        exacts [ih ok.raiseIf.ethCount.unlink, ok.raiseIf.startFrame]

theorem preempt (ok : h.Canonical) {p} : (h.preempt p).2.Canonical := by
  unfold Hw.preempt
  split
  exacts [ok, ok.ite_snd ok.setPort.ethCount.ethCount]

theorem execEgressSelect (ok : s.hw.Canonical) {p e} : NextCanonical (Machine.execEgressSelect p e s) := by
  unfold Machine.execEgressSelect
  refine ok.run fun _ ok => .ite ok (.ite (.settle ?_) (.grnSync (.settle (.ite (.setPort (.select ?_))
      (.select ?_)))))
  · split
    exacts [ok.touch, ok.touch.preempt.ite_snd ok.touch]
  · split
    exacts [ok.touch, ok.touch.preempt.ite_snd ok.touch]
  · split
    exacts [ok.touch, ok.touch.preempt.ite_snd ok.touch]

theorem execFrameTxDone (ok : s.hw.Canonical) {p} : NextCanonical (Machine.execFrameTxDone p s) := by
  unfold Machine.execFrameTxDone
  refine ok.run fun _ ok => ?_
  dsimp only
  split
  · exact ok
  · refine .ite ok (.grnSync (.settle (.unlink (.setPort ?_))))
    split
    · exact (ok.touch.swCount.swCount.ethCount.ethCount.ifThen fun ok => ok.ethCount).pnUsed
    · exact ok.touch.swCount.swCount.ethCount.ethCount.ifThen fun ok => ok.ethCount

theorem execTransmitOpportunity (ok : s.hw.Canonical) {o} :
    NextCanonical (Machine.execTransmitOpportunity o s) :=
  ok.run fun _ ok => ok.ite (ok.ite ok.setPort)

theorem execPlcaCollision (ok : s.hw.Canonical) {p} : NextCanonical (Machine.execPlcaCollision p s) := by
  unfold Machine.execPlcaCollision
  refine ok.run fun _ ok => ?_
  dsimp only
  split
  · exact ok
  · exact ok.ite (ok.touch.ethCount.raiseIf.setPort.setPort.settle.ite
      ok.touch.ethCount.raiseIf.setPort.ethCount.setPort.unlink.settle.grnSync)

theorem gateEff (ok : h.Canonical) {arg v tc idx} : (Machine.gateEff arg v tc idx h).Canonical := by
  unfold Machine.gateEff
  refine .ite ok (.renewHorizons (.settle ?_))
  split
  · exact ok.touch.put.setPort.ifThen fun ok => ok.preempt.ite ok.preempt.ethCount.raise
  · exact ok.touch.put.setPort

theorem execGate (ok : s.hw.Canonical) {c} : NextCanonical (Machine.execGate c s) :=
  ok.run fun _ ok => ok.fireCue fun _ _ _ _ _ ok => ok.gateEff

theorem holdEff (ok : h.Canonical) {arg v tc idx} : (Machine.holdEff arg v tc idx h).Canonical := by
  unfold Machine.holdEff
  refine .ite ok (.settle ?_)
  split
  exacts [ok.touch.setPort.ifThen fun ok => ok.preempt, ok.touch.setPort]

theorem execHold (ok : s.hw.Canonical) {c} : NextCanonical (Machine.execHold c s) :=
  ok.run fun _ ok => ok.fireCue fun _ _ _ _ _ ok => ok.holdEff

/-! ### `Sys2Proof/Machine/SwitchRx.lean` -/

theorem lagSync (ok : h.Canonical) : h.lagSync.Canonical := ok.each fun _ _ ok => ok.ite ok.put.raise

theorem lagChoose (ok : h.Canonical) {g b} : (h.lagChoose g b).2.Canonical := by
  unfold Hw.lagChoose
  split
  · split
    exacts [ok, ok.frame]
  · exact ok

theorem execLagRemap (ok : s.hw.Canonical) {g b} : NextCanonical (Machine.execLagRemap g b s) := by
  unfold Machine.execLagRemap
  refine ok.run fun _ ok => ?_
  dsimp only
  split
  · exact ok
  · split
    exacts [ok.ite ok.frame, ok]

theorem meterColour (ok : h.Canonical) {m len} : (h.meterColour m len).2.Canonical :=
  ok.frame.ite_snd (ok.frame.ite_snd ok.frame)

theorem seqFunction (ok : h.Canonical) {f b} : (h.seqFunction f b).2.Canonical := by
  unfold Hw.seqFunction
  dsimp only
  split
  · exact ok
  · exact ok.setStrm.swCount
  · exact ok.swCount.ite_snd ((((ok.setStrm.setStrm.ite ok).ifThen fun ok => ok.swCount).ifThen fun ok =>
      ok.swCount).raiseIf.swCount.ite_snd (((ok.setStrm.setStrm.ite ok).ifThen fun ok => ok.swCount).ifThen
      fun ok => ok.swCount).raiseIf.swCount)

theorem streamStep (ok : h.Canonical) {vid b} : (h.streamStep vid b).2.Canonical := by
  unfold Hw.streamStep
  dsimp only
  split
  · exact ok
  · refine .ite_snd ok.swCount.swCount (.ite_snd (ok.swCount.swCount.ifThen fun ok => ok.setStrm.raise)
      (.ite_snd ok.swCount.swCount.raise (.ite_snd (ok.swCount.meterColour.ite_snd ok.swCount).swCount.raise
      (.ite_snd ?_ ((ok.swCount.meterColour.ite_snd ok.swCount).ifThen fun ok => ok.swCount).swCount))))
    generalize recovered : Hw.seqFunction _ _ _ = r
    have ok : r.2.Canonical := by
      rw [← recovered]
      exact ((ok.swCount.meterColour.ite_snd ok.swCount).ifThen fun ok => ok.swCount).swCount.seqFunction
    split
    exacts [ok, ok]

theorem learn (ok : h.Canonical) {p mac fid} : (h.learn p mac fid).Canonical := by
  unfold Hw.learn
  split
  · dsimp only
    split
    exacts [ok.swCount.raise, ok.setFdb.setFdb.setFdb.setFdb.fdbUsed]
  · exact (ok.setFdb.ite ok.raise).ite (ok.setFdb.ite ok.setFdb.setFdb.raise)

theorem destinations (ok : h.Canonical) {p vid bucket l} : (h.destinations p vid bucket l).2.Canonical := by
  unfold Hw.destinations
  refine ok.foldl_snd fun _ _ ok => ?_
  split
  · exact ok
  · split
    · next e => exact ok.lagChoose.snd e
    · next e => exact ok.lagChoose.snd e

theorem swReceive (ok : h.Canonical) {p b} : (h.swReceive p b).Canonical := by
  unfold Hw.swReceive
  refine .ite ok (.ite ok.swCount.swCount.swCount.raise (.ite ok.swCount.swCount.swCount (.ite
      ok.swCount.swCount.swCount ?_)))
  split
  · next e => exact (ok.swCount.swCount.streamStep.snd e).swCount
  · next e =>
      refine .ite (ok.swCount.swCount.streamStep.snd e).swCount (.ite (ok.swCount.swCount.streamStep.snd
          e).swCount.raise ?_)
      dsimp only
      split
      · exact (ok.swCount.swCount.streamStep.snd e).ifThen fun ok => ok.learn
      · exact (((ok.swCount.swCount.streamStep.snd e).ifThen fun ok => ok.learn).ifThen fun ok =>
          ok.swCount).destinations.swCount.ite (((((ok.swCount.swCount.streamStep.snd e).ifThen fun ok =>
          ok.learn).ifThen fun ok => ok.swCount).destinations.foldl fun _ _ ok => ok.touch).entered.foldl
          fun _ _ ok => ok.settle).grnSync

theorem execFrameRx (ok : s.hw.Canonical) {p b frags broken} :
    NextCanonical (Machine.execFrameRx p b frags broken s) := by
  unfold Machine.execFrameRx
  refine ok.run fun _ ok => .ite (.swReceive ?_) (.ite ok (.ite (ok.ethCount.ite ok).ethCount (.ite
      (ok.ethCount.ite ok).ethCount (.ite (ok.ethCount.ite ok).ethCount (.ite (ok.ethCount.ite
      ok).ethCount ?_)))))
  · split
    exacts [ok.frame.ite ok, ok]
  · dsimp only
    split
    · next e => exact (ok.ethCount.ite ok).ethCount.ethCount.msecValidate.snd e
    · next e => exact ((ok.ethCount.ite ok).ethCount.ethCount.msecValidate.snd e).ifElse fun ok =>
        ok.swReceive

/-! ### `Sys2Proof/Machine/Ports.lean` -/

theorem execLoftStage (ok : s.hw.Canonical) {q e} : NextCanonical (Machine.execLoftStage q e s) :=
  ok.run fun _ ok => ok.ite ok.touch.loftStage.settle

theorem flushPort (ok : h.Canonical) {p} : (h.flushPort p).Canonical :=
  (ok.each fun _ _ ok => ok.foldl fun _ _ ok => ok.dropLink).setPort.put.raise.settle.grnSync.lagSync

theorem abortFrame (ok : h.Canonical) {p f} : (h.abortFrame p f).Canonical := by
  unfold Hw.abortFrame
  refine .unlink (.raise (.swCount ?_))
  split
  exacts [ok.pnUsed, ok]

theorem linkHeld (ok : h.Canonical) {p} : (h.linkHeld p).Canonical := by
  refine ok.ite (.bind (.grnSync (.settle (.raise (.put (.setPort ?_))))) fun ok => ok.flushPort.ite ok)
  cases ((h.touch p).port p).tx with
  | none =>
    cases ((h.touch p).port p).pre
    exacts [ok.touch, ok.touch.abortFrame]
  | some sending =>
    cases ((h.touch p).port p).pre
    exacts [ok.touch.abortFrame, ok.touch.abortFrame.abortFrame]

theorem pmacSync (ok : h.Canonical) {p} : (h.pmacSync p).Canonical :=
  ok.ite (ok.put.ite (ok.put.ite (ok.put.ite (ok.put.setPort.ite ok))))

theorem linkDown (ok : h.Canonical) {p} : (h.linkDown p).Canonical :=
  (ok.putBit.putBit.putBit.raise.pmacSync.ite ok).linkHeld

theorem execLinkDown (ok : s.hw.Canonical) {p} : NextCanonical (Machine.execLinkDown p s) :=
  ok.run fun _ ok => ok.linkDown

theorem windowDrop (ok : h.Canonical) {q before} : (h.windowDrop q before).Canonical :=
  (ok.foldl fun _ _ ok => (ok.ite ok.swCount.freeCells.frame.runTake).ite (ok.dropLink.ite ok)).raiseIf

theorem linkResumed (ok : h.Canonical) {p} : (h.linkResumed p).Canonical := by
  unfold Hw.linkResumed
  dsimp only
  split
  · refine ((ok.flushPort.ite ok).touch.each fun _ _ ok => ?_).put.raise.settle.grnSync
    split
    exacts [ok.windowDrop.ite ok, ok]
  · exact (ok.flushPort.ite ok).put.settle.lagSync
  · exact ok.flushPort.ite ok

theorem execLinkUp (ok : s.hw.Canonical) {p} : NextCanonical (Machine.execLinkUp p s) :=
  ok.run fun _ ok => ok.linkResumed.ite (ok.ite ((ok.putBit.putBit.ifThen fun ok => ok.putBit).bind fun
      ok => (ok.put.ite ok).setPort.raiseIf.pmacSync.linkResumed))

theorem execGraceExpiry (ok : s.hw.Canonical) {p} : NextCanonical (Machine.execGraceExpiry p s) :=
  ok.run fun _ ok => ok.flushPort.ite ok

theorem ethAfter (ok : h.Canonical) {p o old} : (h.ethAfter p o old).Canonical :=
  ((ok.put.setPort.ite ok).ifThen fun ok => ok.linkDown).ite (((ok.putBit.ite ok).ifThen fun ok =>
      ok.linkDown).ite (ok.pmacSync.ite ok))

theorem ethWrite (ok : h.Canonical) {p o v a} : (h.ethWrite p o v a).Canonical := by
  unfold Hw.ethWrite
  refine ok.busWrite fun _ ok => ?_
  split
  exacts [ok.refuse, ok.touch.storeReg.ethAfter.settle.ite ok.storeReg.ethAfter]

theorem execMdioFrame (ok : s.hw.Canonical) {p v a} : NextCanonical (Machine.execMdioFrame p v a s) :=
  ok.run fun _ ok => ok.ethWrite

theorem execMdioDone (ok : s.hw.Canonical) {p data} : NextCanonical (Machine.execMdioDone p data s) :=
  ok.run fun _ ok => (ok.putBit.put.ite ok.putBit).ite ok

theorem execCableGo (ok : s.hw.Canonical) {p v a} : NextCanonical (Machine.execCableGo p v a s) :=
  ok.run fun _ ok => ok.ethWrite

theorem execCableTestDone (ok : s.hw.Canonical) {p res dist} :
    NextCanonical (Machine.execCableTestDone p res dist s) :=
  ok.run fun _ ok => ok.putBit.putBit.put.put.ite ok

theorem execSqiReport (ok : s.hw.Canonical) {p sqi} : NextCanonical (Machine.execSqiReport p sqi s) :=
  ok.run fun _ ok => ok.ite ok.put.setPort.raiseIf

theorem execVerifyTimeout (ok : s.hw.Canonical) {p} : NextCanonical (Machine.execVerifyTimeout p s) :=
  ok.run fun _ ok => ok.ite (ok.setPort.ite ok.put.raise)

theorem execVerifyResponseRx (ok : s.hw.Canonical) {p} : NextCanonical (Machine.execVerifyResponseRx p s) :=
  ok.run fun _ ok => ok.ite ok.put

theorem execEthCntClr (ok : s.hw.Canonical) {p v a} : NextCanonical (Machine.execEthCntClr p v a s) := by
  unfold Machine.execEthCntClr
  refine ok.run fun _ ok => ok.busWrite fun _ ok => ?_
  split
  exacts [ok.refuse, ok.frame]

theorem ptpLost (ok : h.Canonical) {i} : (h.ptpLost i).Canonical :=
  ok.each fun _ _ ok => ok.loseSource.ite ok

theorem execPtpInstanceEnable (ok : s.hw.Canonical) {i v a} :
    NextCanonical (Machine.execPtpInstanceEnable i v a s) :=
  ok.run fun _ ok => ok.busWrite fun _ ok => ok.refuse.ite (ok.refuse.ite (ok.storeReg.bind fun ok =>
      (ok.ite ok.setPtp.put.putBit).ite (ok.ptpLost.ite ok).put.putBit))

theorem execSyncRx (ok : s.hw.Canonical) {i offset time corr} :
    NextCanonical (Machine.execSyncRx i offset time corr s) :=
  ok.run fun _ ok => ok.ite ok.ethCount.setPtp.wr.incF.putBit

theorem sendPtp (ok : h.Canonical) {p b} : (h.sendPtp p b).Canonical := ok.ite ok.touch.entered.settle.grnSync

theorem sendSync (ok : h.Canonical) {p i origin corr ratio} : (h.sendSync p i origin corr ratio).Canonical :=
  ok.ethCount.sendPtp.ite ok.ethCount.sendPtp.sendPtp

theorem syncAll (ok : h.Canonical) {i origin corr ratio} : (h.syncAll i origin corr ratio).Canonical :=
  (ok.foldl fun _ _ ok => ok.sendSync.ite ok).setPtp

theorem execSyncInterval (ok : s.hw.Canonical) {i ratio} : NextCanonical (Machine.execSyncInterval i ratio s) :=
  ok.run fun _ ok => ok.ite ((ok.ite ok.setPtp.wr.putBit.syncAll).ite ((ok.setPtp.ite ok).ite
      (ok.setPtp.ite ok.setPtp.syncAll)))

theorem execSyncReceiptTimeout (ok : s.hw.Canonical) {i} : NextCanonical (Machine.execSyncReceiptTimeout i s) :=
  ok.run fun _ ok => ok.ite ok.setPtp.putBit.ptpLost

theorem execPdelayExchange (ok : s.hw.Canonical) {p delay} :
    NextCanonical (Machine.execPdelayExchange p delay s) :=
  ok.run fun _ ok => ok.ite ok.setPort

/-! ### `Sys2Proof/Machine/Power.lean` -/

theorem sleepCheck (ok : h.Canonical) : h.sleepCheck.Canonical := ok.frame.raise.ite ok

theorem pwrStart (ok : h.Canonical) {n} : (h.pwrStart n).Canonical := by
  induction n generalizing h with
  | zero => exact ok
  | succ n ih =>
    unfold Hw.pwrStart
    refine ok.ite ?_
    split
    · exact ok
    · exact (ih ok.frame.putBit.pwrLast).ite ((ih ok.frame.putBit.pwrLast.raise).ite ok.frame)

theorem pwrGo (ok : h.Canonical) : h.pwrGo.Canonical := ok.pwrStart.sleepCheck

theorem pwrQueue (ok : h.Canonical) {r} : (h.pwrQueue r).Canonical := ok.frame.putBit

theorem pwrWithdraw (ok : h.Canonical) {x} : (h.pwrWithdraw x).Canonical := ok.dropHeld.frame.putBit.pwrLast

theorem clkCarry (ok : h.Canonical) {r} : (h.clkCarry r).Canonical := ok.putBit.pwrLast

theorem pwrCarry (ok : h.Canonical) {r} : (h.pwrCarry r).Canonical :=
  ok.clkCarry.ite ((ok.foldl fun _ _ ok => ok.pwrQueue).pwrQueue.pwrGo.ite ok.pwrQueue.pwrGo)

theorem pwrRequest (ok : h.Canonical) {r byCtl} : (h.pwrRequest r byCtl).Canonical := by
  unfold Hw.pwrRequest
  dsimp only
  split
  · exact ok.ite (ok.pwrWithdraw.ite ok.pwrCarry)
  · exact ok.pwrLast.raise.ite (ok.frame.putPend.pwrLast.raise.raise.ite ok.pwrCarry)

theorem execPwrOn (ok : s.hw.Canonical) {v a} : NextCanonical (Machine.execPwrOn v a s) :=
  ok.run fun _ ok => ok.busWrite fun _ ok => ok.foldl fun _ _ ok => ok.pwrRequest

theorem execPwrOff (ok : s.hw.Canonical) {v a} : NextCanonical (Machine.execPwrOff v a s) :=
  ok.run fun _ ok => ok.busWrite fun _ ok => ok.foldl fun _ _ ok => ok.pwrRequest

theorem execPwrClkOff (ok : s.hw.Canonical) {m v a} : NextCanonical (Machine.execPwrClkOff m v a s) :=
  ok.run fun _ ok => ok.busWrite fun _ ok => ok.foldl fun _ _ ok => ok.pwrRequest

theorem execPwrClkOn (ok : s.hw.Canonical) {m v a} : NextCanonical (Machine.execPwrClkOn m v a s) :=
  ok.run fun _ ok => ok.busWrite fun _ ok => ok.foldl fun _ _ ok => ok.pwrRequest

theorem releaseHeld (ok : h.Canonical) : h.releaseHeld.Canonical :=
  ok.foldl fun _ _ ok => ok.ite ok.dropHeld.raise.pwrCarry

theorem execHoldMarkWrite (ok : s.hw.Canonical) {m v a} : NextCanonical (Machine.execHoldMarkWrite m v a s) :=
  ok.run fun _ ok => ok.busWrite fun _ ok => ok.storeReg.releaseHeld

theorem execHoldTimeout (ok : s.hw.Canonical) {clk target} :
    NextCanonical (Machine.execHoldTimeout clk target s) := by
  unfold Machine.execHoldTimeout
  refine ok.run fun _ ok => ?_
  split
  exacts [ok, ok.ite ok.refuseHeld.sleepCheck]

theorem execWgtDeny (ok : s.hw.Canonical) {v timeout a} :
    NextCanonical (Machine.execWgtDeny v timeout a s) := by
  unfold Machine.execWgtDeny
  refine ok.run fun _ ok => ok.busWrite fun _ ok => .ite ok.refuse ?_
  split
  exacts [ok.refuse, ok.refuseHeld.sleepCheck]

theorem execModuleSleep (ok : s.hw.Canonical) : NextCanonical (Machine.execModuleSleep s) :=
  ok.run fun _ ok => ok.ite (ok.frame.foldl fun _ _ ok => ok.pwrRequest).sleepCheck

theorem execEvrRouteWrite (ok : s.hw.Canonical) {e v a} : NextCanonical (Machine.execEvrRouteWrite e v a s) :=
  ok.run fun _ ok => ok.busWrite fun _ ok => ok.refuse.ite (ok.refuse.ite (ok.storeReg.ifThen fun ok
      => ok.deliver))

theorem execEventDelivery (ok : s.hw.Canonical) {e} : NextCanonical (Machine.execEventDelivery e s) := by
  unfold Machine.execEventDelivery
  refine ok.run fun _ ok => ?_
  split
  exacts [ok, ok.frame.ite ok]

theorem ntcTemp (ok : h.Canonical) {x} : (h.ntcTemp x).2.2.Canonical := by
  unfold Hw.ntcTemp
  refine ok.ite_snd2 (ok.ite_snd2 ?_)
  split
  exacts [ok, ok.freeDiv]

theorem sampleInput (ok : h.Canonical) {i mv vbat} : (h.sampleInput i mv vbat).2.Canonical := by
  unfold Hw.sampleInput
  refine .ite_snd ok.putBit (.ite_snd ?_ ok)
  split
  · next e => exact (ok.ntcTemp.snd2 e).frame.raiseIf

theorem sampleInputs (ok : h.Canonical) {vbat is mvs} : (h.sampleInputs vbat is mvs).2.Canonical := by
  induction is generalizing h mvs with
  | nil => exact ok
  | cons i is ih =>
    cases mvs with
    | nil => exact ih ok
    | cons mv mvs => exact ih ok.sampleInput

theorem adcBurstEff (ok : h.Canonical) {arg v tc idx} : (Machine.adcBurstEff arg v tc idx h).Canonical :=
  ok.sat.raise.ite ok.frame

theorem execAdcBurst (ok : s.hw.Canonical) {c} : NextCanonical (Machine.execAdcBurst c s) :=
  ok.run fun _ ok => ok.fireCue fun _ _ _ _ _ ok => ok.adcBurstEff

theorem execBurstComplete (ok : s.hw.Canonical) {b mv vbat} :
    NextCanonical (Machine.execBurstComplete b mv vbat s) := by
  unfold Machine.execBurstComplete
  refine ok.run fun _ ok => ?_
  split
  exacts [ok, ok.ite (ok.frame.sampleInputs.each fun _ _ ok => ok.wr.ite ok)]

theorem execTempInputSample (ok : s.hw.Canonical) {i mv vbat} :
    NextCanonical (Machine.execTempInputSample i mv vbat s) :=
  ok.run fun _ ok => ok.frame.sampleInput.ite ok

theorem vbatMeasured (ok : h.Canonical) {mv} : (h.vbatMeasured mv).Canonical :=
  (ok.put.frame.wr.ite ok.put.frame).ifThen fun ok => ok.wr

theorem execHoldEnter (ok : s.hw.Canonical) {mv} : NextCanonical (Machine.execHoldEnter mv s) :=
  ok.run fun _ ok => ok.vbatMeasured.ifElse fun ok => ok.frame.putBit.sat.raise

theorem execVbatHigh (ok : s.hw.Canonical) {mv} : NextCanonical (Machine.execVbatHigh mv s) :=
  ok.run fun _ ok => ok.vbatMeasured.putBit.raiseIf

theorem execSupCntClr (ok : s.hw.Canonical) {v a} : NextCanonical (Machine.execSupCntClr v a s) :=
  ok.run fun _ ok => ok.busWrite fun _ ok => ((ok.wr.ite ok).ifThen fun ok => ok.wr).bind fun ok =>
      (ok.wr.ite ok).ifThen fun ok => ok.wr

theorem defer (ok : h.Canonical) {d} : (h.defer d).Canonical := ok.frame.put

/-! ### `Sys2Proof/Machine/Keys.lean` -/

theorem mirrorOdd (ok : h.Canonical) {d} : (h.mirrorOdd d).Canonical := ok.wr.wr.ite ok

theorem commitKey (ok : h.Canonical) {d w0 key parent} : (h.commitKey d w0 key parent).Canonical :=
  ok.freeBytes.frame.wr.wr.mirrorOdd

theorem keyEnd {r : Nat × Hw} (ok : r.2.Canonical) : (h.keyEnd r).Canonical := ok.put.putBit.raise

theorem keyCommand (ok : h.Canonical) {op v a f} (hf : ∀ g, g.Canonical → (f g).2.Canonical) :
    (h.keyCommand op v a f).Canonical :=
  ok.busWrite fun _ ok => ok.refuse.ite (keyEnd (ok.wr.ite_snd (hf _ ok.wr)))

theorem execGenerate (ok : s.hw.Canonical) {v a} : NextCanonical (Machine.execGenerate v a s) := by
  refine ok.run fun _ ok => ok.keyCommand fun _ ok => ok.ite_snd (ok.ite_snd (ok.ite_snd ?_))
  split
  next e =>
    dsimp only
    exact (ok.freeBytes.snd e).commitKey

theorem execDerive (ok : s.hw.Canonical) {v a} : NextCanonical (Machine.execDerive v a s) := by
  refine ok.run fun _ ok => ok.keyCommand fun _ ok => ?_
  refine ok.ite_snd (ok.ite_snd (ok.ite_snd (ok.ite_snd (ok.ite_snd ?_))))
  split
  · next e => exact ok.memRead.snd e
  · next e =>
    dsimp only
    exact (ok.memRead.snd e).commitKey

theorem execKeyImport (ok : s.hw.Canonical) {v a} : NextCanonical (Machine.execKeyImport v a s) := by
  refine ok.run fun _ ok => ok.keyCommand fun _ ok => ?_
  refine ok.ite_snd (ok.ite_snd (ok.ite_snd (ok.ite_snd (ok.ite_snd ?_))))
  split
  · next e => exact ok.memRead.snd e
  · next e =>
    split
    · exact ok.memRead.snd e
    · dsimp only
      exact (ok.memRead.snd e).commitKey

theorem keyOut (ok : h.Canonical) {bs a} : (h.keyOut bs a).2.Canonical := ok.memWrite

theorem execKeyExport (ok : s.hw.Canonical) {v a} : NextCanonical (Machine.execKeyExport v a s) :=
  ok.run fun _ ok => ok.keyCommand fun _ ok => ok.ite_snd (ok.ite_snd (ok.ite_snd (ok.ite_snd
      ok.keyOut)))

theorem revokeSlots (ok : h.Canonical) {l} : (h.revokeSlots l).Canonical :=
  ok.ite (ok.foldl fun _ _ ok => ok.putBit.mirrorOdd).raise.canKeysRevoked.msecKeysRevoked

theorem execClear (ok : s.hw.Canonical) {v a} : NextCanonical (Machine.execClear v a s) :=
  ok.run fun _ ok => ok.keyCommand fun _ ok => ok.ite_snd
      (ok.revokeSlots.canKeysRevoked.msecKeysRevoked.putBit.putBit.bind fun ok => (ok.putBit.putBit.ite
      ok).frame)

theorem execRevoke (ok : s.hw.Canonical) {v a} : NextCanonical (Machine.execRevoke v a s) :=
  ok.run fun _ ok => ok.keyCommand fun _ ok => ok.ite_snd ok.revokeSlots.frame

theorem execNarrow (ok : s.hw.Canonical) {v a} : NextCanonical (Machine.execNarrow v a s) :=
  ok.run fun _ ok => ok.keyCommand fun _ ok => ok.ite_snd (ok.ite_snd ok.wr.mirrorOdd.frame)

theorem execPubkey (ok : s.hw.Canonical) {v a} : NextCanonical (Machine.execPubkey v a s) :=
  ok.run fun _ ok => ok.keyCommand fun _ ok => ok.ite_snd (ok.ite_snd (ok.ite_snd (ok.ite_snd
      ok.keyOut)))

theorem execPersistSave (ok : s.hw.Canonical) {v a} : NextCanonical (Machine.execPersistSave v a s) :=
  ok.run fun _ ok => ok.keyCommand fun _ ok => ok.ite_snd (ok.ite_snd ok.keyOut)

theorem loadRecord (ok : h.Canonical) {l seq copy} : (h.loadRecord l seq copy).Canonical :=
  (ok.foldl fun _ _ ok => ok.ite ok.commitKey).wr.wr

theorem notFresh (ok : h.Canonical) : h.notFresh.Canonical := ok.frame

theorem execPersistLoad (ok : s.hw.Canonical) {v a} : NextCanonical (Machine.execPersistLoad v a s) := by
  refine ok.run fun _ ok => ok.keyCommand fun _ ok => .ite_snd ok (.ite_snd ok ?_)
  dsimp only
  split
  · next e => exact ok.notFresh.memRead.snd e
  · next e =>
    have ok := ok.notFresh.memRead.snd e
    split
    · next e => exact ok.memRead.snd e
    · next e =>
      have ok := ok.memRead.snd e
      split
      exacts [ok.loadRecord.ite ok.loadRecord, ok.loadRecord.raiseIf, ok.loadRecord.raiseIf, ok.raise]

theorem persistCheck (ok : h.Canonical) {a} : (h.persistCheck a).2.Canonical := by
  unfold Hw.persistCheck
  refine .ite_snd ok ?_
  split
  · next e => exact ok.memRead.snd e
  · next e => exact (ok.memRead.snd e).wr.wr.ite_snd (ok.memRead.snd e)

theorem keyDefers (ok : h.Canonical) {op v a d f} (hf : ∀ g, g.Canonical → (f g).2.Canonical) :
    (h.keyDefers op v a d f).Canonical :=
  (ok.busWrite fun _ ok => ok.refuse.ite ok.wr.defer).ite (ok.keyCommand hf)

theorem execPersistCheck (ok : s.hw.Canonical) {v a} : NextCanonical (Machine.execPersistCheck v a s) :=
  ok.run fun _ ok => ok.keyDefers fun _ ok => ok.persistCheck

theorem execChallenge (ok : s.hw.Canonical) {v a} : NextCanonical (Machine.execChallenge v a s) :=
  ok.run fun _ ok => ok.keyCommand fun _ ok => ok.ite_snd (ok.frame.each fun _ _ ok => ok.wr)

theorem rootIn (ok : h.Canonical) : h.rootIn.Canonical := ok.frame.wr.wr.putBit

theorem enrol (ok : h.Canonical) : h.enrol.2.Canonical := ok.ite_snd (ok.ite_snd (ok.ite_snd ok.frame.rootIn))

theorem execEnrol (ok : s.hw.Canonical) {v a} : NextCanonical (Machine.execEnrol v a s) :=
  ok.run fun _ ok => ok.keyDefers fun _ ok => ok.enrol

theorem execRootReconstruct (ok : s.hw.Canonical) {good pkBad} :
    NextCanonical (Machine.execRootReconstruct good pkBad s) :=
  ok.run fun _ ok => ok.ite (ok.frame.putBit.rootIn.ite ok.frame.putBit.putBit.raise).raiseIf

theorem execRemask (ok : s.hw.Canonical) : NextCanonical (Machine.execRemask s) := by
  refine ok.run fun _ ok => ok.ite (.bind (.frame ?_) fun ok => ok.inc.ite ok)
  split
  exacts [ok.freeBytes.frame, ok]

theorem execRngFail (ok : s.hw.Canonical) {apt} : NextCanonical (Machine.execRngFail apt s) :=
  ok.run fun _ ok => ok.ite (ok.satF.ite ok.satF).putBit.raise

theorem execRngRestart (ok : s.hw.Canonical) {v a} : NextCanonical (Machine.execRngRestart v a s) :=
  ok.run fun _ ok => ok.busWrite fun _ ok => ok.putBit.ite ok

theorem sensitiveRead (ok : h.Canonical) {k a f} (hf : ∀ g, g.Canonical → (f g).Canonical) :
    (h.sensitiveRead k a f).Canonical :=
  ok.access fun g ok => ok.refuse.ite (hf g ok)

theorem glean (ok : h.Canonical) {w mid} : (h.glean w mid).Canonical := ok.inc.wr.wr.wr.wr.wr

theorem execKeyRngRead (ok : s.hw.Canonical) {ready a} : NextCanonical (Machine.execKeyRngRead ready a s) :=
  ok.run fun _ ok => ok.sensitiveRead fun _ ok => ok.refuse.ite ok.frame.glean.answer

theorem lcsBurn (ok : h.Canonical) {t} : (h.lcsBurn t).Canonical := ok.frame.putBit.raise

theorem execLcsAdvance (ok : s.hw.Canonical) {v a} : NextCanonical (Machine.execLcsAdvance v a s) :=
  ok.run fun _ ok => ok.busWrite fun _ ok => ok.refuse.ite (ok.putBit.defer.ite ok.lcsBurn)

/-! ### `Sys2Proof/Machine/Programmer.lean` -/

theorem flEnd (ok : h.Canonical) {result} : (h.flEnd result).Canonical := ok.frame.putBit.put.putBit.raise

theorem flCommand (ok : h.Canonical) {v a} : (h.flCommand v a).Canonical :=
  ok.refuse.ite (ok.refuse.ite (ok.refuse.ite (ok.wr.wr.flEnd.ite (ok.wr.wr.putBit.defer.ite
      ok.wr.wr.putBit.frame))))

theorem execFlashErase (ok : s.hw.Canonical) {v a} : NextCanonical (Machine.execFlashErase v a s) :=
  ok.run fun _ ok => ok.busWrite fun _ ok => ok.flCommand

theorem execFlashProgram (ok : s.hw.Canonical) {v a} : NextCanonical (Machine.execFlashProgram v a s) :=
  ok.run fun _ ok => ok.busWrite fun _ ok => ok.flCommand

theorem execFlashVerify (ok : s.hw.Canonical) {v a} : NextCanonical (Machine.execFlashVerify v a s) :=
  ok.run fun _ ok => ok.busWrite fun _ ok => ok.flCommand

theorem flPage (ok : h.Canonical) : h.flPage.Canonical := by
  unfold Hw.flPage
  split
  · exact ok
  · split
    · next e => exact (ok.memRead.snd e).flEnd
    · next e => exact (ok.memRead.snd e).flashProgram.wr.flEnd.ite (ok.memRead.snd e).flashProgram.wr.frame

theorem flVerify (ok : h.Canonical) {o} : (h.flVerify o).Canonical := by
  unfold Hw.flVerify
  split
  · next e => exact (ok.memRead.snd e).flEnd
  · next e => exact (ok.memRead.snd e).wr.flEnd

theorem execFlDone (ok : s.hw.Canonical) {good pages} : NextCanonical (Machine.execFlDone good pages s) := by
  unfold Machine.execFlDone
  refine ok.run fun _ ok => ?_
  split
  · exact ok
  · refine .ite ok (.ite ok.flEnd ?_)
    split
    · exact ok.frame.flashErase.wr.flEnd
    · exact ok.flPage.frame.ite (ok.each fun _ _ ok => ok.flPage)
    · exact ok.flVerify

theorem updErase (ok : h.Canonical) : h.updErase.Canonical := ok.flashErase

theorem execUpdateGo (ok : s.hw.Canonical) {v a} : NextCanonical (Machine.execUpdateGo v a s) := by
  unfold Machine.execUpdateGo
  refine ok.run fun _ ok => ok.busWrite fun _ ok => .ite ok.refuse (.ite ok (.ite ok.refuse ?_))
  dsimp only
  split
  · exact ok.putBit.memRead.wr
  · exact ok.putBit.memRead.wr.frame.defer.ite ok.putBit.memRead.wr.frame.updErase

theorem execUpdDone (ok : s.hw.Canonical) {good} : NextCanonical (Machine.execUpdDone good s) := by
  unfold Machine.execUpdDone
  refine ok.run fun _ ok => ?_
  split
  · exact ok
  · refine .ite ok ?_
    dsimp only
    split
    · next e => exact (ok.frame.memRead.snd e).wr.raise
    · next e => exact (ok.frame.memRead.snd e).flashProgram.wr.raise.ite (ok.frame.memRead.snd e).wr.raise

theorem execActArm (ok : s.hw.Canonical) {v a} : NextCanonical (Machine.execActArm v a s) :=
  ok.run fun _ ok => ok.busWrite fun _ ok => ok.refuse.ite ok.putBit

theorem pkRevoke (ok : h.Canonical) {keys} : (h.pkRevoke keys).Canonical := ok.put

theorem execBootPkRev (ok : s.hw.Canonical) {v a} : NextCanonical (Machine.execBootPkRev v a s) :=
  ok.run fun _ ok => ok.busWrite fun _ ok => ok.refuse.ite (ok.refuse.ite (ok.defer.ite
      ok.pkRevoke))

/-! ### `Sys2Proof/Machine/Lin.lean` -/

theorem linStart (ok : h.Canonical) {l f} : (h.linStart l f).Canonical := ok.frame.putBit

theorem linEnd (ok : h.Canonical) {l} : (h.linEnd l).Canonical := ok.frame.putBit

theorem linLatch (ok : h.Canonical) {l b} : (h.linLatch l b).Canonical := by
  unfold Hw.linLatch
  split
  exacts [ok.linStart.ite ok, ok]

theorem linSlotEff (ok : h.Canonical) {arg v tc idx} : (Machine.linSlotEff arg v tc idx h).Canonical :=
  ok.sat.ite (ok.sat.raise.ite ok.linStart.put)

theorem execLinSlot (ok : s.hw.Canonical) {c} : NextCanonical (Machine.execLinSlot c s) :=
  ok.run fun _ ok => ok.fireCue fun _ _ _ _ _ ok => ok.linSlotEff

theorem execLinHeaderRx (ok : s.hw.Canonical) {l fid} : NextCanonical (Machine.execLinHeaderRx l fid s) := by
  unfold Machine.execLinHeaderRx
  refine ok.run fun _ ok => .ite ok ?_
  split
  exacts [ok, ok.linStart]

theorem linStatus (ok : h.Canonical) {l f bits} : (h.linStatus l f bits).Canonical := ok.put.put.put

theorem execLinResponseEnd (ok : s.hw.Canonical) {l r} : NextCanonical (Machine.execLinResponseEnd l r s) := by
  unfold Machine.execLinResponseEnd
  refine ok.run fun _ ok' => ?_
  split
  · exact ok'
  · exact ok'.linEnd.linStatus.raise.ifElse fun ok'' => ok'.linEnd.linStatus.ite (ok'.linEnd.linStatus.raise.ite
      (ok'.linEnd.linStatus.wr.wr.frame.incF.putBit.ite (ok'.linEnd.linStatus.raise.ite ok'')))

/-! ### `Sys2Proof/Machine/Rio.lean` -/

theorem setStn (ok : h.Canonical) {s' x} : (h.setStn s' x).Canonical := ok.frame

theorem rioCount (ok : h.Canonical) {s' k} : (h.rioCount s' k).Canonical := ok.frame

theorem setStnState (ok : h.Canonical) {s' st} : (h.setStnState s' st).Canonical := ok.put.putBit

theorem hand (ok : h.Canonical) {port bytes} : (h.hand port bytes).Canonical := ok.frame

theorem stnEther (ok : h.Canonical) {s' b} : (h.stnEther s' b).Canonical := ok.hand

theorem segSend (ok : h.Canonical) {s'} : (h.segSend s').Canonical := by
  unfold Hw.segSend
  refine .ite ok ?_
  dsimp only
  split
  exacts [ok.setStn, ok.setStn.canUpdate]

theorem stnSegments (ok : h.Canonical) {s' b} : (h.stnSegments s' b).Canonical :=
  ok.setStn.segSend.ite (ok.rioCount.ite ok).setStn

theorem stnSend (ok : h.Canonical) {s' b} : (h.stnSend s' b).Canonical := ok.stnSegments.ite ok.stnEther

theorem sendOut (ok : h.Canonical) {s' o} : (h.sendOut s' o).Canonical := ok.setStn.put.rioCount.stnSend

theorem sendHeartbeat (ok : h.Canonical) {s'} : (h.sendHeartbeat s').Canonical :=
  ok.incF.setStn.rioCount.stnSend

theorem releaseSheaf (ok : h.Canonical) {s' payload ref safe unchecked} :
    (h.releaseSheaf s' payload ref safe unchecked).Canonical :=
  ok.incF.setStn

theorem execSheafSend (ok : s.hw.Canonical) {s'} : NextCanonical (Machine.execSheafSend s' s) := by
  unfold Machine.execSheafSend
  refine ok.run fun _ ok => ?_
  split
  exacts [ok, ok.ite ok.sendOut]

theorem execSegmentSend (ok : s.hw.Canonical) {s'} : NextCanonical (Machine.execSegmentSend s' s) :=
  ok.run fun _ ok => ok.segSend.ite ok

theorem rioPollEff (ok : h.Canonical) {arg v tc idx} : (Machine.rioPollEff arg v tc idx h).Canonical :=
  ok.sat.ite ok.rioCount.stnSend

theorem rioSendEff (ok : h.Canonical) {arg v tc idx} : (Machine.rioSendEff arg v tc idx h).Canonical := by
  unfold Machine.rioSendEff
  refine .ite ok.sat (.ite ok ?_)
  split
  exacts [ok.sendOut, ok.sendHeartbeat]

theorem execRioPoll (ok : s.hw.Canonical) {c} : NextCanonical (Machine.execRioPoll c s) :=
  ok.run fun _ ok => ok.fireCue fun _ _ _ _ _ ok => ok.rioPollEff

theorem execRioSend (ok : s.hw.Canonical) {c} : NextCanonical (Machine.execRioSend c s) :=
  ok.run fun _ ok => ok.fireCue fun _ _ _ _ _ ok => ok.rioSendEff

theorem storeSheaf (ok : h.Canonical) {s' seq alive payload} : (h.storeSheaf s' seq alive payload).Canonical :=
  (ok.setStn.wr.putBit.ite (ok.setStn.wr.putBit.raise.ite ok.setStn.wr)).bind fun ok => (ok.setStnState.ite
      ok).rioCount

theorem takeSheaf (ok : h.Canonical) {s' b} : (h.takeSheaf s' b).Canonical :=
  ok.rioCount.ite (ok.rioCount.raise.ite (ok.rioCount.ite (((ok.rioCount.raise.ite ok).put.ifThen fun ok =>
      ok.setStn.rioCount.raise).bind fun ok => ok.setStn.storeSheaf.ite ok.setStn.rioCount)))

theorem execSheafRx (ok : s.hw.Canonical) {m b} : NextCanonical (Machine.execSheafRx m b s) :=
  ok.run fun _ ok => ok.ite (ok.rioCount.raise.ite ok.takeSheaf)

theorem segErr (ok : h.Canonical) {s'} : (h.segErr s').Canonical := ok.setStn.rioCount.raise

theorem execSegmentRx (ok : s.hw.Canonical) {s'} : NextCanonical (Machine.execSegmentRx s' s) := by
  unfold Machine.execSegmentRx
  refine ok.run fun _ ok => .ite ok ?_
  dsimp only
  split
  · exact ok.putBit.putBit.segErr
  · exact ok.putBit.putBit.segErr.ite (ok.putBit.putBit.setStn.takeSheaf.ite ok.putBit.putBit.setStn)

theorem execStationEnable (ok : s.hw.Canonical) {s' v a} :
    NextCanonical (Machine.execStationEnable s' v a s) := by
  unfold Machine.execStationEnable
  refine ok.run fun _ ok => ok.busWrite fun _ ok => ?_
  split
  · exact ok.refuse
  · exact ok.storeReg.setStn.setStnState.put.ite (ok.storeReg.ifThen fun ok => ok.setStnState)

theorem stationDeadline (ok : h.Canonical) {s'} : (h.stationDeadline s').Canonical :=
  (ok.setStnState.put.setStn.put.raise.ite (ok.put.ite ((ok.put.rioCount.ifThen fun ok =>
      ok.setStnState.rioCount.put.raise).ite ok))).setStn

theorem stationLatched (ok : h.Canonical) {s'} : (h.stationLatched s').Canonical := ok.setStn

theorem execRioCntClr (ok : s.hw.Canonical) {v a} : NextCanonical (Machine.execRioCntClr v a s) :=
  ok.run fun _ ok => ok.busWrite fun _ ok => ok.frame

/-! ### `Sys2Proof/Machine/Boot.lean` -/

theorem arbBurn (ok : h.Canonical) {main svn} : (h.arbBurn main svn).Canonical := (ok.put.ite ok.put).raise

theorem arbAdvance (ok : h.Canonical) {kind svn} : (h.arbAdvance kind svn).Canonical :=
  ok.ite (ok.defer.ite ok.arbBurn)

theorem bootStage (ok : h.Canonical) {st} : (h.bootStage st).Canonical := ok.put.wr

theorem toRecovery (ok : h.Canonical) {reason} : (h.toRecovery reason).Canonical := ok.frame

theorem execStageRom (ok : s.hw.Canonical) : NextCanonical (Machine.execStageRom s) :=
  ok.run fun _ ok => ok.bootStage.ite ok

theorem execLoaderCheck (ok : s.hw.Canonical) : NextCanonical (Machine.execLoaderCheck s) := by
  refine ok.run fun g ok => ok.ite ?_
  extract_lets good
  clear_value good
  split
  · exact ok.toRecovery
  · extract_lets g'
    have advanced : g'.Canonical := ok.arbAdvance.bootStage
    split
    · exact advanced.toRecovery
    · exact advanced.ite advanced.toRecovery

theorem execImageCheck (ok : s.hw.Canonical) : NextCanonical (Machine.execImageCheck s) := by
  unfold Machine.execImageCheck
  refine ok.run fun _ ok => .ite ok ?_
  dsimp only
  split
  exacts [ok.spaceWrite.toRecovery, ok.spaceWrite.frame.arbAdvance.wr.bootStage]

theorem loadProfiles (ok : h.Canonical) : h.loadProfiles.Canonical := filter_canon _ _ _ ok

theorem execUnitReload (ok : s.hw.Canonical) : NextCanonical (Machine.execUnitReload s) := by
  unfold Machine.execUnitReload
  refine ok.run fun _ ok => ?_
  split
  · exact ok
  · refine .bootStage ?_
    split
    exacts [ok.loadProfiles.frame.spaceWrite.frame, ok.loadProfiles.frame]

theorem backbone (ok : h.Canonical) {b} : (h.backbone b).Canonical :=
  (ok.wr.each fun _ _ ok => ok.wr.wr.wr).wr.wr

theorem uidAddress (ok : h.Canonical) : h.uidAddress.Canonical := ok.wr.wr

theorem withBase (ok : h.Canonical) {a} : (h.withBase a).Canonical := by
  unfold Hw.withBase
  split
  exacts [ok.backbone, ok.uidAddress]

theorem stagingWindow (ok : h.Canonical) : h.stagingWindow.Canonical := ok.ite ok.wr.wr.wr.putBit

theorem inRecovery (ok : h.Canonical) {r} : (h.inRecovery r).Canonical := ok.frame.putBit.put.putBit

theorem recoverySettings (ok : h.Canonical) : h.recoverySettings.Canonical :=
  ok.withBase.stagingWindow.ite ok.withBase

theorem execRecoveryEntry (ok : s.hw.Canonical) : NextCanonical (Machine.execRecoveryEntry s) := by
  unfold Machine.execRecoveryEntry
  refine ok.run fun _ ok => ?_
  split
  exacts [ok, ok.inRecovery.recoverySettings.raise]

theorem recoveryAnswer (ok : h.Canonical) {p host seq status result} :
    (h.recoveryAnswer p host seq status result).Canonical :=
  ok.frame

theorem execQuery (ok : s.hw.Canonical) {p b} : NextCanonical (Machine.execQuery p b s) := by
  unfold Machine.execQuery
  refine ok.run fun _ ok => ?_
  split
  exacts [ok, ok.recoveryAnswer]

theorem execData (ok : s.hw.Canonical) {p b} : NextCanonical (Machine.execData p b s) := by
  unfold Machine.execData
  refine ok.run fun _ ok => ?_
  split
  exacts [ok, ok.recoveryAnswer.ite ok.memWrite.recoveryAnswer]

theorem commitAnswer (ok : h.Canonical) {answer result} : (h.commitAnswer answer result).Canonical := by
  unfold Hw.commitAnswer
  split
  exacts [ok.recoveryAnswer, ok]

theorem recoveryWrite (ok : h.Canonical) {kind n good answer} :
    (h.recoveryWrite kind n good answer).Canonical := by
  unfold Hw.recoveryWrite
  split
  · next e => exact (ok.memRead.snd e).commitAnswer
  · next e => exact (ok.memRead.snd e).commitAnswer.ite ((ok.memRead.snd e).flashErase.flashProgram.ite
      (ok.memRead.snd e).flashErase.flashProgram.flashErase.flashProgram).commitAnswer.frame

theorem recoveryCommit (ok : h.Canonical) {n good answer} : (h.recoveryCommit n good answer).Canonical := by
  unfold Hw.recoveryCommit
  split
  · next e => exact (ok.memRead.snd e).commitAnswer
  · next e => exact (ok.memRead.snd e).commitAnswer.ite (((ok.memRead.snd e).ifThen fun ok => ok.frame).bind
      fun ok => ok.defer.ite ok.recoveryWrite)

theorem execRecoveryCommit (ok : s.hw.Canonical) {p b good} :
    NextCanonical (Machine.execRecoveryCommit p b good s) := by
  unfold Machine.execRecoveryCommit
  refine ok.run fun _ ok => ?_
  split
  exacts [ok, ok.recoveryCommit]

theorem execBootRcvCommit (ok : s.hw.Canonical) {v a good} :
    NextCanonical (Machine.execBootRcvCommit v a good s) :=
  ok.run fun _ ok => ok.busWrite fun _ ok => ok.recoveryCommit.ite ok

/-! ### `Sys2Proof/Machine/Tunnel.lean` -/

theorem setRoute (ok : h.Canonical) {r x} : (h.setRoute r x).Canonical := ok.frame

theorem tunCount (ok : h.Canonical) {r k} : (h.tunCount r k).Canonical := ok.frame

theorem tunSend (ok : h.Canonical) {r} : (h.tunSend r).Canonical := ok.ite ok.setRoute.tunCount.hand

theorem tunAdd (ok : h.Canonical) {r m} : (h.tunAdd r m).Canonical :=
  (ok.tunSend.ite ok).setRoute.tunCount.bind fun ok => ok.tunSend.ite ok

theorem tunnelTake (ok : h.Canonical) {n f sent} : (h.tunnelTake n f sent).Canonical := by
  unfold Hw.tunnelTake
  refine .ite ok ?_
  split
  exacts [ok, ok.foldl fun _ _ ok => ok.tunAdd]

theorem execTunnelSend (ok : s.hw.Canonical) {r} : NextCanonical (Machine.execTunnelSend r s) :=
  ok.run fun _ ok => ok.ite ok.tunSend

theorem rtLoad (ok : h.Canonical) {r f time} : (h.rtLoad r f time).Canonical := by
  unfold Hw.rtLoad
  dsimp only
  split
  · exact ok.tunCount.raise
  · refine .ite ok ?_
    split
    · exact (ok.putBit.put.put.putBit.put.put.putBit.ifThen fun ok => ok.wr).canUpdate.ifThen fun ok =>
        ok.setRoute
    · exact (ok.putBit.put.put.putBit.put.put.putBit.ifThen fun ok => ok.wr).canUpdate

theorem rtPlay (ok : h.Canonical) {r f ts} : (h.rtPlay r f ts).Canonical := by
  unfold Hw.rtPlay
  split
  · exact ok.rtLoad
  · exact ok.tunCount.rtLoad.ite ((ok.tunCount.raise.tunCount.ite ok.tunCount.raise.rtLoad).ite
      (ok.tunCount.raise.ite ok.rtLoad))

theorem fragErr (ok : h.Canonical) {r} : (h.fragErr r).Canonical := ok.setRoute.tunCount.raise

theorem rtMsg (ok : h.Canonical) {r m head} : (h.rtMsg r m head).Canonical := by
  unfold Hw.rtMsg
  dsimp only
  split
  · exact ok.tunCount.ite ok.tunCount.rtPlay
  · refine .ite ((ok.tunCount.fragErr.ite ok.tunCount).fragErr.ifElse fun ok' => ((ok.tunCount.fragErr.ite
      ok.tunCount).rtPlay.ite ok').ite (ok.tunCount.fragErr.ite ok.tunCount).setRoute) ?_
    split
    exacts [ok.tunCount.fragErr, ok.tunCount.setRoute.rtPlay.ite ok.tunCount.fragErr]

theorem rtSeq (ok : h.Canonical) {r seq} : (h.rtSeq r seq).Canonical :=
  ok.setRoute.tunCount.raise.ite ok.setRoute

theorem execNtscfRx (ok : s.hw.Canonical) {b} : NextCanonical (Machine.execNtscfRx b s) := by
  unfold Machine.execNtscfRx
  refine ok.run fun _ ok => .ite ok ((ok.foldl fun _ _ ok => ok.rtSeq).foldl fun _ _ ok => ?_)
  split
  · exact ok
  · split
    exacts [ok.sat.raise, ok.rtMsg]

theorem execPresentationTime (ok : s.hw.Canonical) {r o} : NextCanonical (Machine.execPresentationTime r o s) :=
  ok.run fun _ ok => ok.setRoute.canTrigger.ite ok

theorem execTunCntClr (ok : s.hw.Canonical) {v a} : NextCanonical (Machine.execTunCntClr v a s) :=
  ok.run fun _ ok => ok.busWrite fun _ ok => ok.frame

theorem routeStored (ok : h.Canonical) {r w} : (h.routeStored r w).Canonical := ok.setRoute.ite ok

/-! ### `Sys2Proof/Machine/CanFrames.lean` -/

theorem authFail (ok : h.Canonical) {n o} : (h.authFail n o).Canonical := ok.objFlag.canCount.raise

theorem rxMatched (ok : h.Canonical) {n o f} : (h.rxMatched n o f).Canonical :=
  ok.objFlag.canCount.ite ((ok.objFlag.raise.ite (ok.authFail.ite (ok.setCan.ite ok.authFail))).ite ok.setCan)

theorem execCanFrameEnd (ok : s.hw.Canonical) {n f} : NextCanonical (Machine.execCanFrameEnd n f s) := by
  unfold Machine.execCanFrameEnd
  refine ok.run fun _ ok => .ite ok.canLapse (.ite ok.canLapse.canPex (.canStopNow (.ite
      ok.canLapse.recDown.notAlone.canCount.canCount (.tunnelTake ?_))))
  split
  · exact ok.canLapse.recDown.notAlone.canCount
  · exact ok.canLapse.recDown.notAlone.canCount.rxMatched

theorem execTxOk (ok : s.hw.Canonical) {n} : NextCanonical (Machine.execTxOk n s) := by
  unfold Machine.execTxOk
  refine ok.run fun _ ok => ?_
  dsimp only
  split
  · exact ok.canLapse
  · exact (ok.canLapse.offBus.unpend.wr.canCount.tecDown.notAlone.setCan.objFlag.raise.ite
      (ok.canLapse.offBus.unpend.wr.canCount.tecDown.notAlone.setCan.ifThen fun ok =>
      ok.makePending)).tunnelTake.canStopNow

/-! ### `Sys2Proof/Machine/Channels.lean` -/

theorem setChan (ok : h.Canonical) {c x} : (h.setChan c x).Canonical := ok.frame

theorem chStatus (ok : h.Canonical) {c} : (h.chStatus c).Canonical := ok.putBit.putBit

theorem setChState (ok : h.Canonical) {c st} : (h.setChState c st).Canonical := ok.put.chStatus

theorem setGate (ok : h.Canonical) {c g} : (h.setGate c g).Canonical := ok.setChan.chStatus

theorem closeWindow (ok : h.Canonical) {c} : (h.closeWindow c).Canonical := ok.putBit.putBit

theorem openWindow (ok : h.Canonical) {c} : (h.openWindow c).Canonical :=
  ok.setChan.putBit.putBit.ifElse fun ok' => (ok'.putBit.ite ok.setChan.putBit).ite ok.setChan.putBit

theorem cmdFlags (ok : h.Canonical) {c w} : (h.cmdFlags c w).Canonical :=
  ok.putBit.ite (ok.putBit.ite ok.putBit.putBit)

theorem showDriven (ok : h.Canonical) {c} : (h.showDriven c).Canonical := ok.setChState.ite ok.setChState

theorem undrive (ok : h.Canonical) {c gen} : (h.undrive c gen).Canonical := ok.setChan.putBit

theorem switchOff (ok : h.Canonical) {c gen} : (h.switchOff c gen).Canonical :=
  (ok.setChan.ite ok).undrive.closeWindow.setChState

theorem drive (ok : h.Canonical) {c g wasDriven} : (h.drive c g wasDriven).Canonical :=
  (ok.setGate.ite ok.setGate.setChan.openWindow).showDriven

theorem limpFollow (ok : h.Canonical) {c} : (h.limpFollow c).Canonical :=
  (ok.put.putBit.undrive.setChState.ite ok.undrive).ite (((ok.setChan.setGate.ifElse fun ok =>
      ok.setChan).bind fun ok => (ok.ite ok.openWindow).setChState).ite ok.undrive.closeWindow.setChState)

theorem followStanding (ok : h.Canonical) {c} : (h.followStanding c).Canonical := by
  unfold Hw.followStanding
  dsimp only
  split
  · exact ok.setChState.limpFollow
  · exact ok.switchOff
  · exact ok.switchOff.ite (ok.setChan.drive.ite ok.setChState.setChan)

theorem rearm (ok : h.Canonical) {c} : (h.rearm c).Canonical := ok.put.putBit.setChState.followStanding

theorem applyStatic (ok : h.Canonical) {c w} : (h.applyStatic c w).Canonical :=
  ok.switchOff.ite ok.setChan.drive

theorem applyPeriod (ok : h.Canonical) {c} : (h.applyPeriod c).Canonical := by
  unfold Hw.applyPeriod
  dsimp only
  split
  exacts [ok.applyStatic.ite (ok.switchOff.ite ok.setChan.drive), ok.setGate.ite ok]

theorem beginPeriod (ok : h.Canonical) {c} : (h.beginPeriod c).Canonical :=
  (ok.putBit.ite (ok.ite ok.putBit)).setChan.bind fun ok => ok.ite ok.applyPeriod

theorem command (ok : h.Canonical) {c raw} : (h.command c raw).Canonical :=
  ok.beforeOut.cmdFlags.wr.bind fun ok => ok.setChan.ite ((ok.setChan.rearm.ite ok.setChan).ite
      ((ok.setChan.setChan.ifThen fun ok => ok.applyPeriod).ite ok.setChan.applyStatic))

theorem channelCommand (ok : h.Canonical) {c w} : (h.channelCommand c w).Canonical :=
  ok.command.ite ok.sat.raiseIf.frame

theorem execPchCmdWrite (ok : s.hw.Canonical) {c v a} : NextCanonical (Machine.execPchCmdWrite c v a s) :=
  ok.run fun _ ok => ok.busWrite fun _ ok => ok.refuse.ite ok.command

theorem execPwmPeriodStart (ok : s.hw.Canonical) {c} : NextCanonical (Machine.execPwmPeriodStart c s) :=
  ok.run fun _ ok => ok.beginPeriod.ite ok

theorem pwmAlignEff (ok : h.Canonical) {arg v tc idx} : (Machine.pwmAlignEff arg v tc idx h).Canonical :=
  ok.each fun _ _ ok => ok.setChan.beginPeriod.ite ok.setChan

theorem execPwmAlign (ok : s.hw.Canonical) {c} : NextCanonical (Machine.execPwmAlign c s) :=
  ok.run fun _ ok => ok.fireCue fun _ _ _ _ _ ok => ok.pwmAlignEff

theorem trip (ok : h.Canonical) {c st cause} : (h.trip c st cause).Canonical :=
  ok.undrive.closeWindow.setChan.put.setChState

theorem tripOver (ok : h.Canonical) {c st cause} : (h.tripOver c st cause).Canonical :=
  ok.ite ok.trip.putBit.satF.raise

theorem execShortTrip (ok : s.hw.Canonical) {c} : NextCanonical (Machine.execShortTrip c s) :=
  ok.run fun _ ok => ok.tripOver

theorem execLimDwellExpiry (ok : s.hw.Canonical) {x} : NextCanonical (Machine.execLimDwellExpiry x s) :=
  ok.run fun _ ok => ok.tripOver.ite ok

theorem execOvertempShutdown (ok : s.hw.Canonical) {c} : NextCanonical (Machine.execOvertempShutdown c s) :=
  ok.run fun _ ok => ok.setChan.ite ok.setChan.trip.satF.raise

theorem tempRestart (ok : h.Canonical) {c} : (h.tempRestart c).Canonical := ok.put.setChState.followStanding

theorem execTempRestart (ok : s.hw.Canonical) {c} : NextCanonical (Machine.execTempRestart c s) :=
  ok.run fun _ ok => ok.setChan.ite (ok.setChan.tempRestart.ite (ok.setChan.limpFollow.ite ok.setChan))

theorem execRetryReset (ok : s.hw.Canonical) {c} : NextCanonical (Machine.execRetryReset c s) :=
  ok.run fun _ ok => ok.put.ite ok

theorem execWireModelUpdate (ok : s.hw.Canonical) {c m} : NextCanonical (Machine.execWireModelUpdate c m s) :=
  ok.run fun _ ok => ok.frame.put.put.putBit.ifElse fun ok => ok.setChan.put.putBit.raiseIf.bind fun ok
      => ok.trip.putBit.satF.ite (ok.putBit.limpFollow.ite ok.putBit)

theorem execWindowEnd (ok : s.hw.Canonical) {c} : NextCanonical (Machine.execWindowEnd c s) :=
  ok.run fun _ ok => ok.ite (ok.closeWindow.ifThen fun ok => ok.showDriven)

theorem execBusDip (ok : s.hw.Canonical) {b} : NextCanonical (Machine.execBusDip b s) :=
  ok.run fun _ ok => ok.ite ok.frame

theorem clockResumes (ok : h.Canonical) {c} : (h.clockResumes c).Canonical := ok.setChan.putBit

theorem execBusDipEnd (ok : s.hw.Canonical) {b us} : NextCanonical (Machine.execBusDipEnd b us s) :=
  ok.run fun _ ok => ok.ite (ok.each fun _ _ ok => ok.clockResumes.ite ok).frame.wr.sat.raise

theorem execBusOverload (ok : s.hw.Canonical) {b cur volt} :
    NextCanonical (Machine.execBusOverload b cur volt s) :=
  ok.run fun _ ok => ok.wr.raiseIf

theorem pchClrWrite (ok : h.Canonical) {c v} : (h.pchClrWrite c v).Canonical :=
  (ok.wr.ite ok).rearm.ite (ok.wr.ite ok)

theorem execRearm (ok : s.hw.Canonical) {c v a} : NextCanonical (Machine.execRearm c v a s) :=
  ok.run fun _ ok => ok.busWrite fun _ ok => ok.pchClrWrite

theorem execPchCntClr (ok : s.hw.Canonical) {c v a} : NextCanonical (Machine.execPchCntClr c v a s) :=
  ok.run fun _ ok => ok.busWrite fun _ ok => ok.pchClrWrite

theorem loadFlag (ok : h.Canonical) {c b x} : (h.loadFlag c b x).Canonical :=
  ok.putBit.satF.raise.ite ok.putBit

theorem execOlOnDetect (ok : s.hw.Canonical) {c cur} : NextCanonical (Machine.execOlOnDetect c cur s) :=
  ok.run fun _ ok => ok.ite (ok.loadFlag.ite (ok.loadFlag.ite ok))

theorem execOffTestPhase (ok : s.hw.Canonical) {c pullUp high} :
    NextCanonical (Machine.execOffTestPhase c pullUp high s) :=
  ok.run fun _ ok => ok.ite ((ok.loadFlag.ite ok).ite (ok.loadFlag.ite ok))

theorem ambStamp (ok : h.Canonical) {n} : (h.ambStamp n).Canonical := ok.frame

theorem execAmbientSample (ok : s.hw.Canonical) {n} : NextCanonical (Machine.execAmbientSample n s) := by
  unfold Machine.execAmbientSample
  refine ok.run fun _ ok => .ite ok.wr ?_
  split
  exacts [ok.wr.ambStamp, ok]

theorem ambConfigured (ok : h.Canonical) {n was} : (h.ambConfigured n was).Canonical :=
  ok.wr.ambStamp.ite (ok.wr.ite ok)

theorem execAmbFallback (ok : s.hw.Canonical) {n} : NextCanonical (Machine.execAmbFallback n s) :=
  ok.run fun _ ok => ok.wr.raise.ite ok

theorem execProfileWrite (ok : s.hw.Canonical) {p w v a} : NextCanonical (Machine.execProfileWrite p w v a s) :=
  ok.run fun _ ok => ok.busWrite fun _ ok => ok.refuse.ite (ok.storeReg.putBit.bind fun ok => ok.ite
      (ok.putBit.ite ok.capture.raise))

theorem execPwmConfigWrite (ok : s.hw.Canonical) {c v a} : NextCanonical (Machine.execPwmConfigWrite c v a s) :=
  ok.run fun _ ok => ok.busWrite fun _ ok => ok.refuse.ite (ok.refuse.ite (ok.refuse.ite (ok.ite
      ok.setChan).storeReg.putBit))

/-! ### `Sys2Proof/Machine/CheckValue.lean` -/

theorem setCvu (ok : h.Canonical) {n x} : (h.setCvu n x).Canonical := ok.frame

theorem execCvuCfgWrite (ok : s.hw.Canonical) {n v a} : NextCanonical (Machine.execCvuCfgWrite n v a s) :=
  ok.run fun _ ok => ok.busWrite fun _ ok => ok.refuse.ite (ok.storeReg.ifElse fun ok =>
      ok.putBit).wrPair.wrPair.setCvu

theorem execCvuStart (ok : s.hw.Canonical) {n v a} : NextCanonical (Machine.execCvuStart n v a s) :=
  ok.run fun _ ok => ok.busWrite fun _ ok => ok.ite (ok.setCvu.wr.ifThen fun ok => ok.put)

theorem execCvuData (ok : s.hw.Canonical) {n w v a} : NextCanonical (Machine.execCvuData n w v a s) :=
  ok.run fun _ ok => ok.busWrite fun _ ok => ok.setCvu.inc

theorem execCvuExpect (ok : s.hw.Canonical) {n v a} : NextCanonical (Machine.execCvuExpect n v a s) :=
  ok.run fun _ ok => ok.busWrite fun _ ok => ok.wr.putBit.raiseIf

theorem execCvuAliveIn (ok : s.hw.Canonical) {n v a} : NextCanonical (Machine.execCvuAliveIn n v a s) :=
  ok.run fun _ ok => ok.busWrite fun _ ok => ok.ite ok.setCvu.wr.raiseIf

/-! ### `Sys2Proof/Machine/Reel.lean` -/

theorem setRelState (ok : h.Canonical) {x} : (h.setRelState x).Canonical := ok.put.putBit

theorem relWrite (ok : h.Canonical) {addr bs} : (h.relWrite addr bs).Canonical := ok.memWrite

theorem relHold (ok : h.Canonical) {short} : (h.relHold short).Canonical :=
  (ok.putBit.ite ok).setRelState.wr.wr.raise

theorem relControl (ok : h.Canonical) : h.relControl.Canonical := ok.relWrite

theorem relPut (ok : h.Canonical) {kind sub payload} : (h.relPut kind sub payload).Canonical :=
  ok.relHold.ite (ok.relWrite.ite ok).relWrite.inc.frame

theorem relEnqueue (ok : h.Canonical) {n} : (h.relEnqueue n).Canonical := ok.frame

theorem relGap (ok : h.Canonical) : h.relGap.Canonical := ok.ite ok.frame.relEnqueue.relPut.raise

theorem record (ok : h.Canonical) {kind sub payload} : (h.record kind sub payload).Canonical :=
  ok.ite (ok.sat.frame.ite (ok.relGap.relEnqueue.relPut.ite ok.relGap))

theorem recordDrain (ok : h.Canonical) {flags inst n ws} : (h.recordDrain flags inst n ws).Canonical := by
  induction n generalizing h ws with
  | zero => exact ok
  | succ n ih => exact ok.ite (ih ok.record)

theorem t1Splice (ok : h.Canonical) {o n src} : (h.t1Splice o n src).Canonical := ok.frame

theorem relSnapTry (ok : h.Canonical) : h.relSnapTry.Canonical :=
  ok.ite (ok.frame.ite ok.record.frame.t1Splice)

theorem relTrigger (ok : h.Canonical) {src} : (h.relTrigger src).Canonical :=
  ok.ite (ok.record.ite (ok.sat.ite (ok.ite (ok.frame.ite
      ok).record.frame.wr.put.setRelState.raise.relSnapTry)))

/-! ### `Sys2Proof/Machine/ForceTable.lean` -/

theorem frcCounts (ok : h.Canonical) : h.frcCounts.Canonical := ok.wr.wr

theorem applyForces (ok : h.Canonical) {image owner} : (h.applyForces image owner).Canonical := by
  unfold Hw.applyForces
  refine ok.frame.raiseIf.raiseIf.foldl fun _ _ ok => ?_
  split
  exacts [ok.record, ok]

/-! ### `Sys2Proof/Machine/Compare.lean` -/

theorem haltRun (ok : h.Canonical) {t r cause} : (h.haltRun t r cause).Canonical :=
  (ok.setRun.putBit.put.wr.wr.each fun _ _ ok => ok.wr).wr.wr.setEngState.frame.raise

theorem startRun (ok : h.Canonical) {t r} : (h.startRun t r).Canonical := ok.setRun.haltRun.ite ok.setRun

theorem noteMismatch (ok : h.Canonical) {t e} : (h.noteMismatch t e).Canonical :=
  (ok.raise.raise.frame.sat.satF.ifElse fun ok => ok.satF).setEng

theorem noteOverrun (ok : h.Canonical) {t} : (h.noteOverrun t).Canonical :=
  (ok.setTask.satF.satF.ifElse fun ok => ok.satF).frame.raise

theorem abandonRota (ok : h.Canonical) : h.abandonRota.Canonical := by
  unfold Hw.abandonRota
  split
  exacts [ok, ok.ite ok.frame.satF.setEngState]

theorem assignSpare (ok : h.Canonical) {t r} : (h.assignSpare t r).Canonical := by
  unfold Hw.assignSpare
  dsimp only
  split
  · exact ok.abandonRota.setTask.setEng.setEngState
  · split
    exacts [ok.abandonRota.setTask.setEng, ok.abandonRota.raise]

theorem rerunFailed (ok : h.Canonical) {t result} : (h.rerunFailed t result).Canonical := by
  unfold Hw.rerunFailed
  split
  · exact ok
  · exact ok.dropRun.wr.raise.setLast.setTask.noteOverrun.bind fun ok => (ok.setTask.ite ok).trimKept

theorem rerunEqual (ok : h.Canonical) {t r} : (h.rerunEqual t r).Canonical := by
  unfold Hw.rerunEqual
  split
  exacts [ok.dropRun, ok.dropRun.wr.frame.raise.setTask.trimKept]

theorem restartBg (ok : h.Canonical) {t e} : (h.restartBg t e).Canonical := ok.setTask.startRun

theorem bgRestart (ok : h.Canonical) : h.bgRestart.Canonical :=
  (ok.foldl fun _ _ ok => ok.restartBg.sat.raise).trimKept

theorem compared (ok : h.Canonical) {t r e} : (h.compared t r e).Canonical := by
  refine .ite ?differs (.ite ?trapped ?equal)
  case differs =>
    exact ok.inc.noteMismatch.bind fun ok =>
      ok.setLast.restartBg.ite (ok.rerunFailed.ite ok.dropRun.setTask.assignSpare)
  case trapped =>
    exact ok.inc.raise.raise.setTask.bind fun ok => ok.setLast.restartBg.ite (ok.rerunFailed.ite ok.dropRun.setTask)
  case equal => exact ok.inc.rerunEqual.ite ok.inc.dropRun.setTask

theorem endUnchecked (ok : h.Canonical) {t r trap} : (h.endUnchecked t r trap).Canonical :=
  (ok.ite ok.putBit.raise).raise.raise.dropRun.setTask.ite (ok.ite ok.putBit.raise).dropRun.setTask

theorem endPhase (ok : h.Canonical) {t r trap} : (h.endPhase t r trap).Canonical := by
  unfold Hw.endPhase
  refine .ite (ok.wr.wr.ite ok).endUnchecked ?_
  split
  exacts [(ok.wr.wr.ite ok).setRun, (ok.wr.wr.ite ok).compared]

theorem poolEcc (ok : h.Canonical) {t a} : (h.poolEcc t a).Canonical :=
  ok.frame.sat.wr.raise.dropRun.setTask.setTaskState.trimKept

/-! ### `Sys2Proof/Machine/TwinCore.lean` -/

theorem setTwinCad (ok : h.Canonical) {c x} : (h.setTwinCad c x).Canonical := ok.frame

theorem exrexSend (ok : h.Canonical) {typ sub part tick flags payload} :
    (h.exrexSend typ sub part tick flags payload).Canonical :=
  ok.ite ok.frame

theorem takeAuthority (ok : h.Canonical) {cause} : (h.takeAuthority cause).Canonical :=
  ok.frame.incF.put.putBit.wr.raise

theorem yieldAuthority (ok : h.Canonical) {cause} : (h.yieldAuthority cause).Canonical :=
  ok.frame.put.putBit.wr.raise

theorem twinCommitCue (ok : h.Canonical) {c} : (h.twinCommitCue c).Canonical := by
  refine ok.ite ?_
  extract_lets h1 h2 x
  have yielded : h1.Canonical := by
    unfold h1
    split
    exacts [ok.yieldAuthority, ok]
  have taken : h2.Canonical := by
    unfold h2
    split
    exacts [yielded.takeAuthority.ite yielded, yielded]
  split
  · exact taken.setTwinCad.sat.ite taken.setTwinCad
  · exact taken

theorem twinLatchCue (ok : h.Canonical) {c tick} : (h.twinLatchCue c tick).Canonical :=
  ok.ite (ok.setTwinCad.ifThen fun ok => ok.put.raise)

theorem compareSigs (ok : h.Canonical) {c own peer} : (h.compareSigs c own peer).Canonical :=
  ok.setTwinCad.ite (ok.setTwinCad.sat.raise.ifThen fun ok => ok.put.setTwinCad.raise)

theorem ownSig (ok : h.Canonical) {c tick sig} : (h.ownSig c tick sig).Canonical := by
  unfold Hw.ownSig
  refine .ite ok (.ite ok.setTwinCad ?_)
  dsimp only
  split
  exacts [ok.setTwinCad.compareSigs.ite ok.setTwinCad.setTwinCad, ok.setTwinCad.setTwinCad]

theorem sendImage (ok : h.Canonical) {c tick img} : (h.sendImage c tick img).Canonical :=
  ok.foldl fun _ _ ok => ok.exrexSend

theorem twinDrain (ok : h.Canonical) {ws} : (h.twinDrain ws).Canonical :=
  (ok.foldl fun _ _ ok => ok.ite ok.exrexSend).ite ok

/-! ### `Sys2Proof/Machine/Outputs.lean` -/

theorem setPdu (ok : h.Canonical) {u x} : (h.setPdu u x).Canonical := ok.frame

theorem linUpdate (ok : h.Canonical) {l b bs} : (h.linUpdate l b bs).Canonical := ok.beforeOut.wr.wr.linLatch

theorem releaseOut (ok : h.Canonical) {x} : (h.releaseOut x).Canonical := by
  unfold Hw.releaseOut
  dsimp only
  split
  · exact ok.each fun _ _ ok => ok.channelCommand
  · exact ok.releaseSheaf
  · exact ok.canUpdate.ite ok.linUpdate
  · exact ok.frame
  · exact ok

theorem gate (ok : h.Canonical) {xs} : (h.gate xs).Canonical :=
  ok.ite (ok.foldl fun _ _ ok => ok.ite ok.releaseOut)

theorem noteSafe (ok : h.Canonical) {t} : (h.noteSafe t).Canonical := ok.setTask.frame.setLast.raise

/-! ### `Sys2Proof/Machine/Change.lean` -/

theorem setChg (ok : h.Canonical) {st} : (h.setChg st).Canonical := ok.put

theorem chgOver (ok : h.Canonical) {st} : (h.chgOver st).Canonical := ok.setChg.putBit.frame

theorem chgCtrlWrite (ok : h.Canonical) {v a} : (h.chgCtrlWrite v a).Canonical := by
  unfold Hw.chgCtrlWrite
  refine .ite ((ok.chgOver.putBit.ite ok).ite ok.refuse) (.ite ok.storeReg ?_)
  split
  · exact ok.setChg.put.refuse
  · split
    · next e => exact (ok.storeReg.freeDiv.snd e).setChg.put.wr.wr.put

theorem execChgArm (ok : s.hw.Canonical) {v a} : NextCanonical (Machine.execChgArm v a s) :=
  ok.run fun _ ok => ok.busWrite fun _ ok => ok.chgCtrlWrite

theorem execChgCancel (ok : s.hw.Canonical) {v a} : NextCanonical (Machine.execChgCancel v a s) :=
  ok.run fun _ ok => ok.busWrite fun _ ok => ok.chgCtrlWrite

theorem chgPostpone (ok : h.Canonical) : h.chgPostpone.Canonical :=
  ok.frame.put.raise.ifThen fun ok => ok.chgOver.put.raise

theorem chgCommit (ok : h.Canonical) {c v good full} : (h.chgCommit c v good full).Canonical :=
  ok.ite ((ok.frame.ite ok.chgPostpone).ite (ok.chgPostpone.ite ok))

theorem showForce (ok : h.Canonical) {f e} : (h.showForce f e).Canonical := ok.put.put.put

theorem rekey (ok : h.Canonical) {mig base f e} : (h.rekey mig base f e).Canonical := by
  unfold Hw.rekey
  dsimp only
  split
  · exact (ok.frame.showForce.record.ifElse fun ok => ok.wr.raise).ite ok.frame.put.record.wr.raise
  · exact ok.frame.put.record.wr.raise

theorem bankRecord (ok : h.Canonical) {ts} : (h.bankRecord ts).Canonical := ok.record

theorem chgSwitch (ok : h.Canonical) : h.chgSwitch.Canonical :=
  (((((ok.foldl fun _ _ ok => ok.poolWrite).recordDrain.ifElse fun ok => ok.wr.raise).foldl fun _ _ ok =>
      ok.wr.wr.putBit.wr).ifElse fun ok => ok.wr).bankRecord.foldl fun _ _ ok => ok.foldl fun _ _ ok =>
      ok.rekey).frcCounts.frame.chgOver.raise.raise

/-! ### `Sys2Proof/Machine/Nmu.lean` -/

theorem setNmCh (ok : h.Canonical) {c x} : (h.setNmCh c x).Canonical := ok.frame

theorem nmAllAsleep (ok : h.Canonical) : h.nmAllAsleep.Canonical := ok.frame.raiseIf

theorem wakeIoEnds (ok : h.Canonical) {was} : (h.wakeIoEnds was).Canonical := ok.frame.ite ok

theorem nmEnter (ok : h.Canonical) {c st} : (h.nmEnter c st).Canonical :=
  (ok.put.setNmCh.ifThen fun ok => ok.setCan).raiseIf.raiseIf.nmAllAsleep.wakeIoEnds

theorem execNmChannelEnable (ok : s.hw.Canonical) {c v a} :
    NextCanonical (Machine.execNmChannelEnable c v a s) :=
  ok.run fun _ ok => ok.busWrite fun _ ok => ok.refuse.ite (ok.refuse.ite (ok.storeReg.raiseIf.bind
      fun ok => ok.nmEnter.ite (ok.nmEnter.ite ok)))

theorem nmStartWake (ok : h.Canonical) {c code} : (h.nmStartWake c code).Canonical :=
  ok.setNmCh.foldl fun _ _ ok => ok.ite ok.pwrRequest

theorem nmApply (ok : h.Canonical) {code c} : (h.nmApply code c).Canonical :=
  (ok.ite ok.nmStartWake).ite (ok.nmEnter.ite (ok.setNmCh.nmEnter.ite (ok.setNmCh.nmEnter.raise.ite ok)))

theorem nmWake (ok : h.Canonical) {code chs detail} : (h.nmWake code chs detail).Canonical :=
  ok.putBit.wr.frame.raise.bind fun ok => (ok.foldl fun _ _ ok => ok.nmApply).ite (ok.frame.ite
      ok.frame.pwrRequest)

theorem nmuPd17Up (ok : h.Canonical) : h.nmuPd17Up.Canonical := ok.frame.foldl fun _ _ ok => ok.nmApply

theorem wakeIn (ok : h.Canonical) {n} : (h.wakeIn n).Canonical := ok.ite ok.nmWake

theorem execWake (ok : s.hw.Canonical) {code unit} : NextCanonical (Machine.execWake code unit s) := by
  unfold Machine.execWake
  refine ok.run fun _ ok => ?_
  dsimp only
  split
  · exact ok
  · exact ok.ite ok.nmWake
  · exact ok.nmWake.ite ok
  · exact ok.nmWake.ite ok
  · exact ok.nmWake
  · exact ok.ite ok.nmWake
  · exact ok.ite ok.wakeIn
  · exact ok.wakeIn
  · exact ok.ite ok.nmWake
  · exact ok.ite ok.nmWake

theorem execWakeInput (ok : s.hw.Canonical) {n} : NextCanonical (Machine.execWakeInput n s) :=
  ok.run fun _ ok => ok.wakeIn

theorem voteChange (ok : h.Canonical) {c on} : (h.voteChange c on).Canonical :=
  (ok.putBit.ite (ok.putBit.nmWake.ifThen fun ok => ok.nmEnter)).ite (ok.putBit.nmEnter.ite
      ok.putBit.nmAllAsleep)

theorem execNmuVoteWrite (ok : s.hw.Canonical) {v a} : NextCanonical (Machine.execNmuVoteWrite v a s) :=
  ok.run fun _ ok => ok.busWrite fun _ ok => ok.each fun _ _ ok => ok.ite ok.voteChange

theorem kaCredit (ok : h.Canonical) {c src cbv} : (h.kaCredit c src cbv).Canonical := by
  unfold Hw.kaCredit
  dsimp only
  split
  exacts [ok, ok.setNmCh]

theorem nmRestart (ok : h.Canonical) {c request} : (h.nmRestart c request).Canonical := ok.setNmCh

theorem execNmFrameRx (ok : s.hw.Canonical) {c data} : NextCanonical (Machine.execNmFrameRx c data s) :=
  ok.run fun _ ok => ok.ite (ok.kaCredit.nmRestart.bind fun ok => ok.nmWake.ite (ok.nmEnter.ite
      (ok.nmEnter.ite ok)))

theorem execNmFrameSend (ok : s.hw.Canonical) {c} : NextCanonical (Machine.execNmFrameSend c s) :=
  ok.run fun _ ok => ok.ite (ok.setNmCh.canUpdate.ite ok.setNmCh.hand)

theorem nmLatch (ok : h.Canonical) {cad} : (h.nmLatch cad).Canonical :=
  ok.each fun _ _ ok => ok.setNmCh.ite ok

theorem execRepeatTimeExpiry (ok : s.hw.Canonical) {c} : NextCanonical (Machine.execRepeatTimeExpiry c s) :=
  ok.run fun _ ok => ok.nmEnter.ite ok

theorem execNmTimeout (ok : s.hw.Canonical) {c} : NextCanonical (Machine.execNmTimeout c s) :=
  ok.run fun _ ok => ok.nmEnter.ite ok

theorem execPnTimeout (ok : s.hw.Canonical) {c} : NextCanonical (Machine.execPnTimeout c s) :=
  ok.run fun _ ok => ok.nmEnter.ite ok

theorem execWaitSleepExpiry (ok : s.hw.Canonical) {c} : NextCanonical (Machine.execWaitSleepExpiry c s) :=
  ok.run fun _ ok => ok.nmEnter.ite ok

theorem calls (ok : h.Canonical) {p kind} : (h.calls p kind).Canonical := ok.frame

theorem askSleep (ok : h.Canonical) {p} : (h.askSleep p).Canonical := ok.put.calls.frame

theorem wakeLink (ok : h.Canonical) {p} : (h.wakeLink p).Canonical :=
  (ok.ite (ok.put.calls.ite (ok.ite ok.calls))).ite (ok.calls.ite ok)

theorem execCommitWindowEnd (ok : s.hw.Canonical) {c} : NextCanonical (Machine.execCommitWindowEnd c s) :=
  ok.run fun _ ok => ok.ite (((ok.nmEnter.raise.frame.foldl fun _ _ ok => ok.calls).each fun _ _ ok =>
      ok.askSleep.ite ok).each fun _ _ ok => ok.linkDown.ite ok)

theorem execWakeSequence (ok : s.hw.Canonical) {c} : NextCanonical (Machine.execWakeSequence c s) := by
  unfold Machine.execWakeSequence
  refine ok.run fun _ ok => ?_
  split
  · exact ok
  · exact ok.ite ((ok.frame.foldl fun _ _ ok => ok.calls).each fun _ _ ok => ok.wakeLink.ite
      ok).setNmCh.nmEnter

theorem execSelectiveWakeFrame (ok : s.hw.Canonical) {n f} :
    NextCanonical (Machine.execSelectiveWakeFrame n f s) := by
  unfold Machine.execSelectiveWakeFrame
  refine ok.run fun _ ok => .ite ok (.ite ok (.ite (ok.frame.nmWake.ite ok.frame) ?_))
  dsimp only
  split
  exacts [ok.frame.nmWake.ite ok.frame, ok.frame]

theorem execKeepAwake (ok : s.hw.Canonical) {c} : NextCanonical (Machine.execKeepAwake c s) := by
  unfold Machine.execKeepAwake
  refine ok.run fun _ ok => ?_
  dsimp only
  split
  · exact ok
  · refine .ite ok (ok.setNmCh.wr.wr.wr.wr.each fun _ _ ok => ?_).raise
    split
    exacts [ok.wr.wr, ok.wr.wr]

theorem execTc10SleepRequest (ok : s.hw.Canonical) {p} : NextCanonical (Machine.execTc10SleepRequest p s) :=
  ok.run fun _ ok => ok.askSleep.ite ok

theorem execTc10SleepAck (ok : s.hw.Canonical) {p} : NextCanonical (Machine.execTc10SleepAck p s) :=
  ok.run fun _ ok => ok.put.linkDown.ite ok

theorem execTc10SleepNak (ok : s.hw.Canonical) {p} : NextCanonical (Machine.execTc10SleepNak p s) :=
  ok.run fun _ ok => ok.put.raise.ite ok

theorem execTc10PartnerSleep (ok : s.hw.Canonical) {p} : NextCanonical (Machine.execTc10PartnerSleep p s) :=
  ok.run fun _ ok => ok.ite (ok.put.calls.linkDown.ite ok.calls)

theorem execTc10Wake (ok : s.hw.Canonical) {p} : NextCanonical (Machine.execTc10Wake p s) := by
  unfold Machine.execTc10Wake
  refine ok.run fun _ ok => ?_
  dsimp only
  split
  · exact ok
  · exact ok.ite ((ok.ite (ok.put.ite (ok.put.ite ok)).raise).nmWake.ifThen fun ok => ok.each fun _ _
      ok => ok.wakeLink.ite ok)

/-! ### `Sys2Proof/Machine/Image.lean` -/

theorem linRecord (ok : h.Canonical) {l b} : (h.linRecord l b).2.Canonical := ok.frame

theorem pduRecord (ok : h.Canonical) {u} : (h.pduRecord u).2.Canonical := ok.setPdu

theorem latchEntry (ok : h.Canonical) {c v m} : (h.latchEntry c v m).2.Canonical := by
  unfold Hw.latchEntry
  dsimp only
  split
  exacts [ok, ok, ok.ite_snd ok.linRecord, ok.pduRecord, ok, ok, ok]

theorem buildImage (ok : h.Canonical) {c v} : (h.buildImage c v).2.Canonical := by
  unfold Hw.buildImage
  refine ok.foldl_snd fun _ _ ok => ?_
  split
  · next e => exact ok.latchEntry.snd e

theorem lostCommit (ok : h.Canonical) {c} : (h.lostCommit c).Canonical :=
  ok.satF.raise.setCad.foldl fun _ _ ok => ok.ite ok.dropRun.setTask

theorem lockstepPeriod (ok : h.Canonical) {c} : (h.lockstepPeriod c).Canonical := by
  unfold Hw.lockstepPeriod
  split
  exacts [ok, ok.ite (ok.frame.putBit.setCad.raise.ite ok.setCad)]

theorem taskLatch (ok : h.Canonical) {t} : (h.taskLatch t).Canonical :=
  (ok.setTask.setTaskState.ite ok).applyForces.ifElse fun ok' => (ok.setTask.setTaskState.ite
      ok).setTaskState.ite (ok'.setTask.ite ok'.setTask.setTaskState)

theorem latchCue (ok : h.Canonical) {c v} : (h.latchCue c v).Canonical := by
  unfold Hw.latchCue
  dsimp only
  refine .trimKept (.wr (.setCad (.frame (.foldl (.buildImage ?_) fun _ _ ok => ok.stationLatched))))
  refine .foldl (.applyForces ?_) fun _ _ ok => ok.taskLatch
  refine .bind (.foldl ?_ fun _ _ ok => ok.stationDeadline) fun ok => ok.nmLatch.ite ok
  exact (ok.lostCommit.ite ok).lockstepPeriod.twinLatchCue

theorem cadCue (ok : h.Canonical) {c i j f} (hf : ∀ g, g.Canonical → (f g).Canonical) : (h.cadCue c i j f).Canonical :=
  ok.ite (ok.raise.ite (ok.ite (hf h ok)))

theorem latchEff (ok : h.Canonical) {arg v tc idx} : (Machine.latchEff arg v tc idx h).Canonical := by
  unfold Machine.latchEff
  exact ok.cadCue fun _ ok => ok.latchCue

theorem execLatch (ok : s.hw.Canonical) {c} : NextCanonical (Machine.execLatch c s) :=
  ok.run fun _ ok => ok.fireCue fun _ _ _ _ _ ok => ok.latchEff

theorem releaseTasks (ok : h.Canonical) {c} : (h.releaseTasks c).Canonical :=
  ok.foldl fun _ _ ok => ok.startRun.ite ok

theorem placeImage (ok : h.Canonical) {c img} : (h.placeImage c img).Canonical :=
  ok.poolWriteAt.bgRestart.setCad

theorem execImageReady (ok : s.hw.Canonical) {c} : NextCanonical (Machine.execImageReady c s) := by
  unfold Machine.execImageReady
  refine ok.run fun _ ok => .ite ok (.ite ?_ (ok.placeImage.ifThen fun ok => ok.sendImage).releaseTasks)
  dsimp only
  split
  exacts [ok.placeImage.placeImage.releaseTasks, ok.placeImage.setTwinCad]

theorem execCeaTaskRestart (ok : s.hw.Canonical) {v a} : NextCanonical (Machine.execCeaTaskRestart v a s) :=
  ok.run fun _ ok => ok.busWrite fun _ ok => ok.setTask.ite ok

theorem execImpCntClr (ok : s.hw.Canonical) {v a} : NextCanonical (Machine.execImpCntClr v a s) :=
  ok.run fun _ ok => ok.busWrite fun _ ok => ok.each fun _ _ ok => ok.wr.ite ok

/-! ### `Sys2Proof/Machine/Commit.lean` -/

theorem beginDrain (ok : h.Canonical) {d} : (h.beginDrain d).Canonical := ok.keep.frame

theorem emptySheaves (ok : h.Canonical) {c} : (h.emptySheaves c).Canonical :=
  ok.ite (ok.foldl fun _ _ ok => ok.releaseSheaf)

theorem lockstepCommit (ok : h.Canonical) {c good} : (h.lockstepCommit c good).Canonical := by
  unfold Hw.lockstepCommit
  split
  exacts [ok.setCad.ite ok, ok]

theorem emptyCommit (ok : h.Canonical) {c v} : (h.emptyCommit c v).Canonical :=
  ok.satF.lockstepCommit.setCad.beginDrain.chgCommit

theorem commitSafe {x : CommitAcc} (ok : x.hw.Canonical) {t} : (x.safe t).hw.Canonical := ok.noteSafe

theorem commitEqual {x : CommitAcc} (ok : x.hw.Canonical) {t last} : (x.commit t last).hw.Canonical :=
  (ok.setTask.ite ok.setTask.put).setLast.setTaskState

theorem commitOverrun {x : CommitAcc} (ok : x.hw.Canonical) {t last} : (x.overrun t last).hw.Canonical :=
  have stopped := ok.dropRun.setTask.noteOverrun.setLast
  ite_hw stopped.setTaskState.noteSafe stopped

theorem commitTask {x : CommitAcc} (ok : x.hw.Canonical) {t} : (x.task t).hw.Canonical := by
  unfold CommitAcc.task
  refine ite_hw (ite_hw ok.commitSafe ok) (ite_hw ok.setLast ?_)
  split
  · refine ite_hw (commitOverrun ?late) (ite_hw (ite_hw (commitSafe ?opened) ?opened) (ite_hw ok.commitEqual ?failed))
    case late => exact ok.dropRun.setTask
    case opened => exact ok.setTask.setLast.setTaskState
    case failed =>
      refine ite_hw (commitSafe (.setTaskState ?ended)) ?ended
      exact (ok.ite ok.rerunFailed).setTask
  · split
    · exact ok.commitEqual
    · exact ok.commitOverrun
    · exact ok.commitOverrun
    · exact ok.commitOverrun
    · refine ite_hw (commitSafe ?_) ok
      exact ok.setTaskState

theorem fullCommit (ok : h.Canonical) {c v} : (h.fullCommit c v).Canonical := by
  unfold Hw.fullCommit
  dsimp only
  refine .bgRestart (.trimKept (.chgCommit (.beginDrain (.setCad (.ownSig (.lockstepCommit (.inc ?_)))))))
  exact .emptySheaves (.gate (foldl_hw ok fun _ _ ok => ok.commitTask))

theorem commitCue (ok : h.Canonical) {c v} : (h.commitCue c v).Canonical :=
  ok.twinCommitCue.fullCommit.ite ok.twinCommitCue.emptyCommit

theorem commitEff (ok : h.Canonical) {arg v tc idx} : (Machine.commitEff arg v tc idx h).Canonical :=
  ok.cadCue fun _ ok => ok.commitCue

theorem execCommit (ok : s.hw.Canonical) {c} : NextCanonical (Machine.execCommit c s) :=
  ok.run fun _ ok => ok.fireCue fun _ _ _ _ _ ok => ok.commitEff

theorem drainTime (ok : h.Canonical) {ws} : (h.drainTime ws).Canonical := by
  unfold Hw.drainTime
  split
  · next e => exact (ok.freeDiv.snd e).ifThen fun ok => ok.wr

theorem drainEnd (ok : h.Canonical) {d rest} : (h.drainEnd d rest).Canonical := by
  unfold Hw.drainEnd
  refine .relSnapTry (.bind (.bind ?_ fun ok => ok.record.ite ok) fun ok => ok.chgSwitch.ite ok)
  split
  · exact ok.frame.drainTime.raiseG.twinDrain.recordDrain.ifThen fun ok => ok.record
  · exact ok.frame.drainTime.raiseG.twinDrain.recordDrain

theorem execDrainEnd (ok : s.hw.Canonical) {c} : NextCanonical (Machine.execDrainEnd c s) := by
  unfold Machine.execDrainEnd
  refine ok.run fun _ ok => ?_
  split
  exacts [ok.drainEnd.ite ok, ok]

theorem execBgCommit (ok : s.hw.Canonical) {t} : NextCanonical (Machine.execBgCommit t s) :=
  ok.run fun _ ok => ok.ite ((ok.foldl fun _ _ ok => ok.poolWrite).drainTime.twinDrain.recordDrain.bind
      fun ok => (ok.frame.putBit.raise.ite ok).setLast.bind fun ok => ((ok.chgSwitch.ite
      ok).setTask.ifThen fun ok => ok.restartBg).bgRestart.relSnapTry)

theorem execBgRipe (ok : s.hw.Canonical) {t} : NextCanonical (Machine.execBgRipe t s) :=
  ok.run fun _ ok => ok.ite ok.setTask.raise

/-! ### `Sys2Proof/Machine/Cores.lean` -/

theorem writeBack (ok : h.Canonical) {c dirty} : (h.writeBack c dirty).Canonical :=
  ok.foldl fun _ _ ok => ok.memWrite

theorem mworldWrite (ok : h.Canonical) {c v dirty} : (h.mworldWrite c v dirty).Canonical :=
  ok.ite ok.writeBack.frame

theorem execMworldWrite (ok : s.hw.Canonical) {core v mMode dirty} :
    NextCanonical (Machine.execMworldWrite core v mMode dirty s) :=
  ok.run fun _ ok => ok.mworldWrite.answer.ite ok.errResp

/-! ### `Sys2Proof/Machine/Translate.lean` -/

theorem walk (ok : h.Canonical) {a va root write f n table} (hf : ∀ g x, g.Canonical → (f g x).2.Canonical) :
    (h.walk a va root write f n table).2.Canonical := by
  induction n generalizing h root table with
  | zero => exact ok
  | succ n ih =>
    unfold Hw.walk
    dsimp only
    split
    · next e => exact (hf _ _ ok).snd e
    · next e =>
      have ok := (hf _ _ ok).snd e
      refine ok.ite_snd ?_
      split
      · next e => exact ok.memWord.snd e
      · next e =>
        have ok := ok.memWord.snd e
        exact ok.ite_snd ((ih ok).ite_snd (ok.ite_snd (ok.ite_snd ok)))

theorem stage2 (ok : h.Canonical) {a mode root gpa write} : (h.stage2 a mode root gpa write).2.Canonical :=
  ok.ite_snd (ok.ite_snd (ok.walk fun _ _ ok => ok))

theorem translateWalk (ok : h.Canonical) {a vmid va write} : (h.translateWalk a vmid va write).2.Canonical := by
  unfold Hw.translateWalk
  dsimp only
  split
  · next e => exact ok.memRead.snd e
  · next e =>
    have ok := ok.memRead.snd e
    refine ok.ite_snd (ok.stage2.ite_snd (ok.ite_snd ?_))
    generalize walked : Hw.walk _ _ _ _ _ _ _ _ = r
    have first : r.2.Canonical := by
      rw [← walked]
      refine ok.walk fun _ _ ok => ?_
      split
      · next e => exact ok.stage2.snd e
      · next e => exact ok.stage2.snd e
    split
    · exact first
    · refine ite_snd ?_ ?_
      · exact first
      split
      · next e => exact first.stage2.snd e
      · next e => exact first.stage2.snd e

theorem xltFault (ok : h.Canonical) {cause mid vmid} : (h.xltFault cause mid vmid).Canonical :=
  ok.sat.wr.raise

theorem translate (ok : h.Canonical) {secure mid vmid va write} :
    (h.translate secure mid vmid va write).2.Canonical := by
  unfold Hw.translate
  refine .ite_snd ok.xltFault ?_
  split
  · exact ok
  · split
    · next e => exact (ok.translateWalk.snd e).xltFault
    · next e => exact (ok.translateWalk.snd e).xltFault.ite_snd (ok.translateWalk.snd e).frame

theorem execXltInvalidate (ok : s.hw.Canonical) {v a} : NextCanonical (Machine.execXltInvalidate v a s) :=
  ok.run fun _ ok => ok.busWrite fun _ ok => ok.refuse.ite (ok.storeReg.ifThen fun ok =>
      ok.frame.putBit)

theorem execInvDone (ok : s.hw.Canonical) : NextCanonical (Machine.execInvDone s) :=
  ok.run fun _ ok => ok.putBit.putBit.raise.ite ok

theorem memcError (ok : h.Canonical) {sp ofs e} : (h.memcError sp ofs e).Canonical := by
  unfold Hw.memcError
  split
  exacts [ok.frame.sat.raise, ok.sat.raise, ok.frame.sat.wrPair.raise, ok.frame.sat.wr.raise, ok]

theorem execScrub (ok : s.hw.Canonical) {ce ue} : NextCanonical (Machine.execScrub ce ue s) :=
  ok.run fun _ ok => ok.ite (ok.frame.sat.raiseIf.foldl fun _ _ ok => ok.memcError).raise

theorem execMemcCntClr (ok : s.hw.Canonical) {v a} : NextCanonical (Machine.execMemcCntClr v a s) :=
  ok.run fun _ ok => ok.busWrite fun _ ok => ok.foldl fun _ _ ok => ok.wr.ite ok

theorem execRefreshRateChange (ok : s.hw.Canonical) {m} : NextCanonical (Machine.execRefreshRateChange m s) :=
  ok.run fun _ ok => ok.wr.raiseIf.ite ok

/-! ### `Sys2Proof/Machine/Reeve.lean` -/

theorem reeveLog (ok : h.Canonical) {kind reason subject fr upTo} :
    (h.reeveLog kind reason subject fr upTo).Canonical :=
  ok.wr.wr.wr.wr.inc.frame.raiseIf.record

theorem rveSync (ok : h.Canonical) : h.rveSync.Canonical := ok.put.each fun _ _ ok => ok.put

theorem execT0PoolWrite (ok : s.hw.Canonical) {v a} : NextCanonical (Machine.execT0PoolWrite v a s) :=
  ok.run fun _ ok => ok.busWrite fun _ ok => ok.refuse.ite ok.put.rveSync

theorem queueMove (ok : h.Canonical) {promote u reason} : (h.queueMove promote u reason).Canonical := ok.frame

theorem notPlaced (ok : h.Canonical) {u reason} : (h.notPlaced u reason).Canonical := ok.reeveLog.raiseIf

theorem planPinned (ok : h.Canonical) {heat u} : (h.planPinned heat u).Canonical := by
  unfold Hw.planPinned
  refine .ite ok.notPlaced (.ite ok.queueMove ?_)
  split
  exacts [ok.notPlaced, ok.notPlaced.ite ok.queueMove.queueMove]

theorem planHot (ok : h.Canonical) {heat n u hot} : (h.planHot heat n u hot).2.2.Canonical := by
  unfold Hw.planHot
  refine ok.ite_snd2 (ok.notPlaced.ite_snd2 (ok.queueMove.ite_snd2 ?_))
  split
  exacts [ok, ok.ite_snd2 (ok.queueMove.queueMove.ite_snd2 ok)]

theorem epochPlan (ok : h.Canonical) {heat samples util} : (h.epochPlan heat samples util).Canonical :=
  (((ok.frame.foldl fun _ _ ok => ok.ite ok.planPinned).foldl fun _ _ ok => ok.queueMove).foldl_snd2 fun _
      _ ok => ok.ite_snd2 ok.planHot).put.bind fun ok => ok.ite ok.wr.reeveLog

theorem moveEnds (ok : h.Canonical) {m kind fr upTo} : (h.moveEnds m kind fr upTo).Canonical :=
  ok.frame.reeveLog

theorem unitMove (ok : h.Canonical) {frame o} : (h.unitMove frame o).Canonical := by
  unfold Hw.unitMove
  split
  · exact ok
  · refine .ite ok (.ite ok.frame (.ite (ok.ite ok.frame.notPlaced) ?_))
    dsimp only
    split
    · exact ok.moveEnds.sat.raise
    · exact (ok.memcError.ite ok.memcError).moveEnds.sat.raise.raise
    · exact ok.frame.moveEnds.inc.rveSync

/-! ### `Sys2Proof/Machine/Messages.lean` -/

theorem intPend (ok : h.Canonical) {c f eiid} : (h.intPend c f eiid).Canonical := ok.ite ok.frame

theorem fileWrite (ok : h.Canonical) {addr v a} : (h.fileWrite addr v a).2.Canonical := by
  unfold Hw.fileWrite
  split
  exacts [ok, ok.gateRefused.ite_snd (ok.intPend.ite_snd ok)]

theorem msgWrite (ok : h.Canonical) {addr v a} : (h.msgWrite addr v a).2.Canonical :=
  ok.fileWrite.ite_snd ok.memWrite

theorem spanOut (ok : h.Canonical) {l} : (h.spanOut l).Canonical := ok.frame

theorem msixSend (ok : h.Canonical) {f vec} : (h.msixSend f vec).Canonical := ok.spanOut

theorem msixFire (ok : h.Canonical) {f vec} : (h.msixFire f vec).Canonical :=
  (ok.msixSend.ite ok).ite ok.frame

theorem msixWrite (ok : h.Canonical) {f vec o v} : (h.msixWrite f vec o v).Canonical :=
  (ok.frame.ite (ok.frame.msixFire.ite ok.frame)).ite ok.frame

theorem execMsixSend (ok : s.hw.Canonical) {v} : NextCanonical (Machine.execMsixSend v s) :=
  ok.run fun _ ok => ok.frame.msixFire.ite ok

/-! ### `Sys2Proof/Machine/VirtualPort.lean` -/

theorem setVp (ok : h.Canonical) {n x} : (h.setVp n x).Canonical := ok.frame

theorem vpEvent (ok : h.Canonical) {n e} : (h.vpEvent n e).Canonical := ok.wr.raise

theorem vpCount (ok : h.Canonical) {n k x} : (h.vpCount n k x).Canonical := ok.setVp

theorem vpBus (ok : h.Canonical) {n addr write} : (h.vpBus n addr write).2.Canonical := by
  unfold Hw.vpBus
  refine .ite_snd ?_ ok
  split
  · next e => exact ok.translate.snd e
  · next e => exact ok.translate.snd e

theorem vpRead (ok : h.Canonical) {n addr len far} : (h.vpRead n addr len far).2.Canonical := by
  unfold Hw.vpRead
  split
  · exact ok.ite_snd ok
  · refine ok.foldl_snd fun _ _ ok => ?_
    split
    · exact ok
    · split
      · next e => exact ok.vpBus.snd e
      · next e =>
          split
          · next e' => exact (ok.vpBus.snd e).memRead.snd e'
          · next e' => exact (ok.vpBus.snd e).memRead.snd e'

theorem vpWrite (ok : h.Canonical) {n addr bs} : (h.vpWrite n addr bs).2.Canonical := by
  unfold Hw.vpWrite
  split
  · exact ok.spanOut.ite_snd ok
  · refine ok.foldl_snd2 fun p l ok => ?_
    refine ok.ite_snd2 ?_
    split
    · next e => exact ok.vpBus.snd e
    · next e =>
      have ok := ok.vpBus.snd e
      split
      · next e => exact ok.memWrite.snd e
      · next e => exact ok.memWrite.snd e

theorem vpTake (ok : h.Canonical) {n tx rx} : (h.vpTake n tx rx).Canonical := ok.setVp

theorem vpUnwait (ok : h.Canonical) {n} : (h.vpUnwait n).Canonical := ok.vpTake.setVp

theorem vpFault (ok : h.Canonical) {n side addr} : (h.vpFault n side addr).Canonical :=
  ok.vpUnwait.setVp.vpEvent

theorem vpNotify (ok : h.Canonical) {n} : (h.vpNotify n).Canonical := by
  unfold Hw.vpNotify
  dsimp only
  split
  exacts [ok.setVp.msixFire, ok.setVp.msgWrite]

theorem vpCompleted (ok : h.Canonical) {n} : (h.vpCompleted n).Canonical := ok.vpNotify.ite ok.setVp

theorem vpDescs (ok : h.Canonical) {n base head far stop k l} :
    (h.vpDescs n base head far stop k l).2.Canonical := by
  induction k generalizing h l with
  | zero => exact ok
  | succ k ih =>
    unfold Hw.vpDescs
    refine ok.ite_snd ?_
    dsimp only
    split
    · next e => exact ok.vpRead.snd e
    · next e => exact ih (ok.vpRead.snd e)

theorem vpDropHeld (ok : h.Canonical) {n f} : (h.vpDropHeld n f).Canonical := ok.setVp.wr

theorem vpFill (ok : h.Canonical) {n head f i l bs} : (h.vpFill n head f i l bs).2.Canonical := by
  induction l generalizing h i bs with
  | nil => exact ok
  | cons d l ih =>
    unfold Hw.vpFill
    dsimp only
    split
    · next e => exact ok.vpWrite.snd e
    · next e =>
      have ok := ok.vpWrite.snd e
      split
      · next e => exact ok.vpWrite.snd e
      · next e => exact ih (ok.vpWrite.snd e)

theorem vpDrain (ok : h.Canonical) {n far k} : (h.vpDrain n far k).Canonical := by
  induction k generalizing h with
  | zero => exact ok
  | succ k ih =>
    unfold Hw.vpDrain
    split
    · exact ok
    · refine ok.ite ?_
      dsimp only
      split
      · next e => exact (ok.vpDescs.snd e).vpFault
      · next e =>
        have ok := ok.vpDescs.snd e
        refine ok.ite ?_
        split
        · next e => exact (ok.vpFill.snd e).vpFault
        · next e => exact ih (ok.vpFill.snd e).put.vpDropHeld.vpCount.vpCount.vpCompleted

theorem vpDeliver (ok : h.Canonical) {n b far} : (h.vpDeliver n b far).Canonical :=
  ok.vpCount.ite (ok.vpCount.vpEvent.ite ok.vpTake.wr.setVp.vpDrain)

theorem vpDeliverAll (ok : h.Canonical) {l b far} : (h.vpDeliverAll l b far).Canonical :=
  ok.foldl fun _ _ ok => ok.vpDeliver

theorem vpTxBack (ok : h.Canonical) {n descs status} : (h.vpTxBack n descs status).2.Canonical :=
  ok.foldl_snd fun _ _ ok => ok.ite_snd ok.vpWrite

theorem vpTxPast (ok : h.Canonical) {n descs irq} : (h.vpTxPast n descs irq).Canonical :=
  ok.put.vpCompleted.ite ok.put

theorem vpTxDone (ok : h.Canonical) {n descs status irq} : (h.vpTxDone n descs status irq).Canonical := by
  unfold Hw.vpTxDone
  split
  · next e => exact (ok.vpTxBack.snd e).vpFault
  · next e => exact (ok.vpTxBack.snd e).vpTxPast

theorem vpHandOn (ok : h.Canonical) {n w far} : (h.vpHandOn n w far).Canonical := by
  unfold Hw.vpHandOn
  split
  · next e => exact (ok.vpTxBack.snd e).vpFault
  · next e => exact (ok.vpTxBack.snd e).vpTake.vpUnwait.vpCount.vpCount.bind fun ok => ((ok.ite
      ok.vpCount).vpDeliverAll.ifThen fun ok => ok.hand).vpTxPast

theorem vpGather (ok : h.Canonical) {n far now} : (h.vpGather n far now).Canonical := by
  unfold Hw.vpGather
  dsimp only
  split
  · next e => exact (ok.vpDescs.snd e).vpFault
  · next e =>
    have ok := ok.vpDescs.snd e
    refine ok.ite (ok.vpTxDone.ite (ok.vpTxDone.ite ?_))
    generalize gathered : List.foldl _ _ _ = r
    have read : r.2.Canonical := by
      rw [← gathered]
      refine foldl_snd ok fun p a ok => ?_
      split
      · exact ok
      · split
        · next e => exact ok.vpRead.snd e
        · next e => exact ok.vpRead.snd e
    split
    · exact read.vpFault
    · exact read.vpCount.vpEvent.vpTxDone.ite (read.vpTxDone.ite (read.vpHandOn.ite read.setVp))

/-! ### `Sys2Proof/Machine/VirtualPorts.lean` -/

theorem vpDoorbell (ok : h.Canonical) {n tx v far} : (h.vpDoorbell n tx v far).Canonical :=
  ok.sat.vpEvent.ite (ok.put.ite ok.put.vpDrain)

theorem execTxDoorbell (ok : s.hw.Canonical) {n v a} : NextCanonical (Machine.execTxDoorbell n v a s) :=
  ok.run fun _ ok => ok.busWrite fun _ ok => ok.vpDoorbell

theorem execRxDoorbell (ok : s.hw.Canonical) {n v far a} : NextCanonical (Machine.execRxDoorbell n v far a s) :=
  ok.run fun _ ok => ok.busWrite fun _ ok => ok.vpDoorbell

theorem execVpFrameGathered (ok : s.hw.Canonical) {n far} :
    NextCanonical (Machine.execVpFrameGathered n far s) :=
  ok.run fun _ ok => ok.ite ok.vpGather

theorem execTxBucketHoldsLength (ok : s.hw.Canonical) {n far} :
    NextCanonical (Machine.execTxBucketHoldsLength n far s) := by
  unfold Machine.execTxBucketHoldsLength
  refine ok.run fun _ ok => ?_
  split
  exacts [ok, ok.vpHandOn.ite ok]

theorem execVpDeliver (ok : s.hw.Canonical) {host b far} : NextCanonical (Machine.execVpDeliver host b far s) :=
  ok.run fun _ ok => ok.ite (ok.sat.ite ok.vpDeliverAll)

theorem execVpNotify (ok : s.hw.Canonical) {n} : NextCanonical (Machine.execVpNotify n s) :=
  ok.run fun _ ok => ok.vpNotify.ite ok

theorem vpRingsZero (ok : h.Canonical) {n} : (h.vpRingsZero n).Canonical := ok.wr.wr

theorem vpWrite_ (ok : h.Canonical) {w v a} : (h.vpWrite_ w v a).Canonical := by
  unfold Hw.vpWrite_
  dsimp only
  split
  · exact ok.refuse
  · exact ((((ok.vpTake.ite ok).ifThen fun ok => ok.setVp).frame.ifThen fun ok => ok.setVp).ite
      (((ok.vpTake.ite ok).ifThen fun ok => ok.setVp).frame.setVp.ite (((ok.vpTake.ite ok).ifThen fun ok =>
      ok.setVp).frame.ifThen fun ok => ok.vpRingsZero))).ite (((ok.vpTake.ite ok).ifThen fun ok =>
      ok.setVp).frame.vpRingsZero.ite (((ok.vpTake.ite ok).ifThen fun ok => ok.setVp).frame.ifThen fun ok =>
      ok.setVp))

theorem execPortEnable (ok : s.hw.Canonical) {v a} : NextCanonical (Machine.execPortEnable v a s) :=
  ok.run fun _ ok => ok.busWrite fun _ ok => ok.vpWrite_

theorem execVpRingResize (ok : s.hw.Canonical) {w v a} : NextCanonical (Machine.execVpRingResize w v a s) :=
  ok.run fun _ ok => ok.busWrite fun _ ok => ok.vpWrite_

theorem vpDiscard (ok : h.Canonical) {n} : (h.vpDiscard n).Canonical := ok.foldl fun _ _ ok => ok.vpDropHeld

theorem execPortRemoved (ok : s.hw.Canonical) {n far} : NextCanonical (Machine.execPortRemoved n far s) := by
  unfold Machine.execPortRemoved
  refine ok.run fun _ ok => .ite ok (.vpEvent (.setVp (.ite (.vpNotify (.vpDiscard ?_)) (.vpDiscard ?_))))
  · split
    exacts [ok.vpHandOn, ok]
  · split
    exacts [ok.vpHandOn, ok]

theorem execVpFault (ok : s.hw.Canonical) {n side addr} : NextCanonical (Machine.execVpFault n side addr s) :=
  ok.run fun _ ok => ok.vpFault.ite ok

theorem vpCommand (ok : h.Canonical) {op v a f} (hf : ∀ n g, g.Canonical → (f n g).2.Canonical) :
    (h.vpCommand op v a f).Canonical :=
  ok.busWrite fun _ ok => ok.refuse.ite (hf _ _ ok.wr).put

theorem execFreeze (ok : s.hw.Canonical) {v gathering far a} :
    NextCanonical (Machine.execFreeze v gathering far a s) := by
  unfold Machine.execFreeze
  refine ok.run fun _ ok => ok.vpCommand fun _ _ ok => .ite_snd ok (.ite_snd ?_ (.vpEvent (.setVp ?_)))
  · dsimp only
    split
    exacts [ok.vpHandOn, ok.vpGather.ite ok]
  · split
    exacts [ok.vpHandOn, ok.vpGather.ite ok]

theorem execThaw (ok : s.hw.Canonical) {v far a} : NextCanonical (Machine.execThaw v far a s) :=
  ok.run fun _ ok => ok.vpCommand fun _ _ ok => ok.ite_snd (ok.setVp.vpNotify.ite ok.setVp).vpDrain

theorem execSave (ok : s.hw.Canonical) {v a} : NextCanonical (Machine.execSave v a s) := by
  unfold Machine.execSave
  refine ok.run fun _ ok => ok.vpCommand fun _ _ ok => .ite_snd ok ?_
  split
  · next e => exact ok.memWrite.snd e
  · next e => exact (ok.memWrite.snd e).vpEvent

theorem vpRestored (ok : h.Canonical) {n b} : (h.vpRestored n b).Canonical := ok.frame.setVp.wr.wr

theorem execRestore (ok : s.hw.Canonical) {v a} : NextCanonical (Machine.execRestore v a s) := by
  unfold Machine.execRestore
  refine ok.run fun _ ok => ok.vpCommand fun _ _ ok => .ite_snd ok ?_
  split
  · next e => exact ok.memRead.snd e
  · next e => exact (ok.memRead.snd e).ite_snd ((ok.memRead.snd e).ite_snd (ok.memRead.snd
      e).vpRestored.vpEvent)

theorem execClearCounters (ok : s.hw.Canonical) {v a} : NextCanonical (Machine.execClearCounters v a s) :=
  ok.run fun _ ok => ok.vpCommand fun _ _ ok => ok.setVp

theorem vpFlr (ok : h.Canonical) {v} : (h.vpFlr v).Canonical :=
  ok.foldl fun _ _ ok => ok.ite ok.vpDiscard.vpUnwait.setVp.vpRingsZero.vpEvent

theorem vpShares (ok : h.Canonical) : h.vpShares.Canonical := ok.frame.foldl fun _ _ ok => ok.setVp

theorem vpShareTaken (ok : h.Canonical) {n new} : (h.vpShareTaken n new).Canonical := ok.ite ok.setVp.reeveLog

theorem serveShares (ok : h.Canonical) : h.serveShares.Canonical :=
  (ok.frame.foldl fun _ _ ok => ok.vpShareTaken).ite ok

theorem execUnitMove (ok : s.hw.Canonical) {frame o} : NextCanonical (Machine.execUnitMove frame o s) :=
  ok.run fun _ ok => ok.unitMove.serveShares.ite ok

theorem execEpochEnd (ok : s.hw.Canonical) {heat samples util} :
    NextCanonical (Machine.execEpochEnd heat samples util s) :=
  ok.run fun _ ok => ok.ite (ok.frame.epochPlan.ifThen fun ok => ok.vpShares.serveShares).rveSync

/-! ### `Sys2Proof/Machine/Span.lean` -/

theorem spanSync (ok : h.Canonical) : h.spanSync.Canonical := ok.put

theorem spanAnswer (ok : h.Canonical) {u err data} : (h.spanAnswer u err data).Canonical :=
  ok.frame.errResp.ite ok.frame.answer

theorem spanReport (ok : h.Canonical) : h.spanReport.Canonical := ok.ite ok.spanOut

theorem spanFails (ok : h.Canonical) {x code} : (h.spanFails x code).Canonical := ok.capture.raise.spanAnswer

theorem spanLog (ok : h.Canonical) {inbound win count code addr rid tag} :
    (h.spanLog inbound win count code addr rid tag).Canonical :=
  ok.wr.wr.wr.wr.incF.raise.raiseIf

theorem spanPump (ok : h.Canonical) {credit tag} : (h.spanPump credit tag).Canonical := by
  refine .spanSync (.frame (ok.foldl_snd fun _ _ ok => ?_))
  dsimp only
  split
  · split
    exacts [ok.spanOut, ok]
  · split
    · exact ok
    · split
      exacts [ok, ok.spanOut.frame]

theorem outbound (ok : h.Canonical) {addr o n data a credit tag} :
    (h.outbound addr o n data a credit tag).Canonical := by
  unfold Hw.outbound
  split
  · exact ok.capture.spanAnswer
  · refine ok.capture.spanAnswer.ite (ok.spanFails.ite ?_)
    refine .spanPump ?_
    refine .ite ?_ ?_
    · exact .spanAnswer ok.frame
    · exact ok.frame

theorem execOutboundAccess (ok : s.hw.Canonical) {o n data credit tag a} :
    NextCanonical (Machine.execOutboundAccess o n data credit tag a s) :=
  ok.run fun _ ok => ok.gateRefused.errResp.ite (ok.capture.errResp.ite ok.outbound)

theorem execSpnFlush (ok : s.hw.Canonical) {w credit tag a} :
    NextCanonical (Machine.execSpnFlush w credit tag a s) :=
  ok.run fun _ ok => ok.busWrite fun _ ok => ok.outbound.ite ok.capture.errResp

theorem cplTimeout (ok : h.Canonical) {x} : (h.cplTimeout x).Canonical := ok.spanFails.spanReport

theorem execCompletionRx (ok : s.hw.Canonical) {tag c credit} :
    NextCanonical (Machine.execCompletionRx tag c credit s) := by
  unfold Machine.execCompletionRx
  refine ok.run fun _ ok => ?_
  split
  · exact ok
  · refine .spanPump (.ite ok.frame.spanSync.cplTimeout ?_)
    split
    · exact ok.frame.spanSync.spanAnswer
    · exact ok.frame.spanSync.spanFails
    · exact ok.frame.spanSync.spanFails
    · exact ok.frame.spanSync.spanFails.spanReport

theorem execCompletionTimeout (ok : s.hw.Canonical) {tag credit} :
    NextCanonical (Machine.execCompletionTimeout tag credit s) := by
  unfold Machine.execCompletionTimeout
  refine ok.run fun _ ok => ?_
  split
  exacts [ok, ok.frame.spanSync.cplTimeout.spanPump.ite ok]

theorem spanDown (ok : h.Canonical) : h.spanDown.Canonical := by
  unfold Hw.spanDown
  refine .ite ok (.raise ?_)
  split
  · refine ((ok.frame.spanSync.putBit.putBit.freeWord.put.put.foldl fun _ _ ok => ok.spanFails).foldl fun _ _
      ok => ?_).spanLog
    split
    exacts [ok.spanFails, ok]
  · refine (ok.frame.spanSync.putBit.putBit.freeWord.put.put.foldl fun _ _ ok => ok.spanFails).foldl fun _ _
      ok => ?_
    split
    exacts [ok.spanFails, ok]

theorem execSpanLinkDown (ok : s.hw.Canonical) : NextCanonical (Machine.execSpanLinkDown s) :=
  ok.run fun _ ok => ok.spanDown

theorem spanCfgWrite (ok : h.Canonical) {v a} : (h.spanCfgWrite v a).Canonical := by
  unfold Hw.spanCfgWrite
  split
  exacts [ok.refuse, ok.storeReg.ite ok.storeReg.spanDown]

theorem execSpanLinkEnable (ok : s.hw.Canonical) {v a} : NextCanonical (Machine.execSpanLinkEnable v a s) :=
  ok.run fun _ ok => ok.busWrite fun _ ok => ok.spanCfgWrite

theorem execSpanLinkUp (ok : s.hw.Canonical) {speed lanes} :
    NextCanonical (Machine.execSpanLinkUp speed lanes s) :=
  ok.run fun _ ok => ok.ite ok.freeWord.putBit.put.put.put.putBit.raise

theorem execSpanPerstNChange (ok : s.hw.Canonical) {level} :
    NextCanonical (Machine.execSpanPerstNChange level s) :=
  ok.run fun _ ok => ok.frame.ite ok.frame.spanDown

theorem spanFlr (ok : h.Canonical) {v} : (h.spanFlr v).Canonical := ok.frame.vpFlr.put.raise

theorem execFlr (ok : s.hw.Canonical) {v} : NextCanonical (Machine.execFlr v s) :=
  ok.run fun _ ok => ok.spanFlr.ite ok

theorem execVfChange (ok : s.hw.Canonical) {en num} : NextCanonical (Machine.execVfChange en num s) :=
  ok.run fun _ ok => ok.ite (ok.putBit.put.ifThen fun ok => ok.each fun _ _ ok => ok.spanFlr).raiseIf

theorem execSpnElogRdWrite (ok : s.hw.Canonical) {v a} : NextCanonical (Machine.execSpnElogRdWrite v a s) :=
  ok.run fun _ ok => ok.busWrite fun _ ok => ok.storeReg

/-! ### `Sys2Proof/Machine/DmaCore.lean` -/

theorem setDma (ok : h.Canonical) {d c x} : (h.setDma d c x).Canonical := ok.frame

theorem dmaSync (ok : h.Canonical) {d} : (h.dmaSync d).Canonical := ok.putBit

theorem dmaEnter (ok : h.Canonical) {d c st cause side} : (h.dmaEnter d c st cause side).Canonical :=
  ok.wr.dmaSync

theorem dmaStart (ok : h.Canonical) {d c} : (h.dmaStart d c).Canonical := ok.wr.wr.wr.setDma.dmaEnter

theorem dmaTrigger (ok : h.Canonical) {d c} : (h.dmaTrigger d c).Canonical := ok.sat.ite ok.dmaStart

theorem dmaTrigEff (ok : h.Canonical) {arg v tc idx} : (Machine.dmaTrigEff arg v tc idx h).Canonical :=
  ok.dmaTrigger.ite ok

theorem execDmaTrig (ok : s.hw.Canonical) {c} : NextCanonical (Machine.execDmaTrig c s) :=
  ok.run fun _ ok => ok.fireCue fun _ _ _ _ _ ok => ok.dmaTrigEff

theorem execDmaEventTrigger (ok : s.hw.Canonical) {e} : NextCanonical (Machine.execDmaEventTrigger e s) :=
  ok.run fun _ ok => (ok.frame.each fun _ _ ok => ok.dmaTrigger.ite ok).ite ok

theorem dmaGo (ok : h.Canonical) {d c a} : (h.dmaGo d c a).Canonical := ok.refuse.ite (ok.dmaTrigger.ite ok)

theorem dmaResume (ok : h.Canonical) {d c a} : (h.dmaResume d c a).Canonical :=
  ok.setDma.dmaEnter.ite ok.refuse

theorem dmaAborted (ok : h.Canonical) {d c cause side addr} : (h.dmaAborted d c cause side addr).Canonical :=
  ok.wrPair.wr.setDma.dmaEnter.raise

theorem dmaAbort (ok : h.Canonical) {d c a} : (h.dmaAbort d c a).Canonical :=
  ok.freeWord.dmaAborted.ite ok.refuse

theorem dmaCtrl (ok : h.Canonical) {d c v a} : (h.dmaCtrl d c v a).Canonical :=
  ok.dmaAbort.ite (ok.dmaResume.ite (ok.dmaGo.ite ok))

theorem execDmaGo (ok : s.hw.Canonical) {d c a} : NextCanonical (Machine.execDmaGo d c a s) :=
  ok.run fun _ ok => ok.busWrite fun _ ok => ok.dmaGo

theorem execDmaResume (ok : s.hw.Canonical) {d c a} : NextCanonical (Machine.execDmaResume d c a s) :=
  ok.run fun _ ok => ok.busWrite fun _ ok => ok.dmaResume

theorem execDmaAbort (ok : s.hw.Canonical) {d c a} : NextCanonical (Machine.execDmaAbort d c a s) :=
  ok.run fun _ ok => ok.busWrite fun _ ok => ok.dmaAbort

theorem dmaFault (ok : h.Canonical) {d c cause side addr} : (h.dmaFault d c cause side addr).Canonical :=
  ok.setDma.ite ok.dmaAborted

theorem execDmaPark (ok : s.hw.Canonical) {d c} : NextCanonical (Machine.execDmaPark d c s) := by
  unfold Machine.execDmaPark
  refine ok.run fun _ ok => ?_
  dsimp only
  split
  exacts [ok, ok.wrPair.wr.dmaEnter.raise.ite ok]

/-! ### `Sys2Proof/Machine/Recorder.lean` -/

theorem slated (ok : h.Canonical) {no} : (h.slated no).Canonical := ok.frame.relControl.ite ok

theorem execSlate (ok : s.hw.Canonical) : NextCanonical (Machine.execSlate s) :=
  ok.run fun _ ok => ok.ite ok.record.slated.frame

theorem execGap (ok : s.hw.Canonical) : NextCanonical (Machine.execGap s) :=
  ok.run fun _ ok => ok.relGap.ite ok

theorem execSnapshot (ok : s.hw.Canonical) : NextCanonical (Machine.execSnapshot s) :=
  ok.run fun _ ok => ok.frame.relSnapTry.ite ok.relSnapTry

theorem execSnapEnd (ok : s.hw.Canonical) : NextCanonical (Machine.execSnapEnd s) := by
  unfold Machine.execSnapEnd
  refine ok.run fun _ ok => ?_
  split
  exacts [ok, ok.frame.ite ok.record.frame.raise.relSnapTry]

theorem execTrigger (ok : s.hw.Canonical) {lines} : NextCanonical (Machine.execTrigger lines s) :=
  ok.run fun _ ok => ok.frame.ite ok.frame.relTrigger

theorem execRelTrigSw (ok : s.hw.Canonical) {v a} : NextCanonical (Machine.execRelTrigSw v a s) :=
  ok.run fun _ ok => ok.busWrite fun _ ok => ok.relTrigger.ite ok

theorem execPostEnd (ok : s.hw.Canonical) : NextCanonical (Machine.execPostEnd s) :=
  ok.run fun _ ok => ok.relHold.ite ok

theorem relBegin (ok : h.Canonical) {x} : (h.relBegin x).Canonical :=
  ok.frame.putBit.put.setRelState.relSnapTry

theorem execRelRearm (ok : s.hw.Canonical) {v a} : NextCanonical (Machine.execRelRearm v a s) :=
  ok.run fun _ ok => ok.busWrite fun _ ok => ok.ite (ok.refuse.ite ok.relBegin)

theorem relAdopt (ok : h.Canonical) (e : h.relAdopt = some g) : g.Canonical := by
  unfold Hw.relAdopt at e
  dsimp only at e
  split at e
  · cases e
  · cases e
    exact ok.frame.wr.wr.putBit.put.relHold

theorem relStart (ok : h.Canonical) : h.relStart.Canonical := by
  unfold Hw.relStart
  refine .ite ok.setRelState.frame ?_
  dsimp only
  split
  · next e =>
    split at e
    · exact ok.relAdopt e
    · cases e
  · exact ok.wr.relBegin

theorem relStop (ok : h.Canonical) : h.relStop.Canonical := ok.setRelState.frame

theorem execRelEnable (ok : s.hw.Canonical) {v a} : NextCanonical (Machine.execRelEnable v a s) :=
  ok.run fun _ ok => ok.busWrite fun _ ok => ok.refuse.ite (ok.refuse.ite (ok.wr.relStart.ite
      (ok.wr.relStop.ite ok.wr)))

theorem readAll (ok : h.Canonical) {l} : (h.readAll l).2.Canonical := by
  induction l generalizing h with
  | nil => exact ok
  | cons x l ih =>
    unfold Hw.readAll
    split
    · next e => exact ok.memRead.snd e
    · next e =>
      have ok := ok.memRead.snd e
      split
      · next e => exact (ih ok).snd e
      · next e => exact (ih ok).snd e

theorem dumpStream (ok : h.Canonical) : h.dumpStream.2.Canonical := by
  unfold Hw.dumpStream
  dsimp only
  split
  · next e => exact ok.readAll.snd e
  · next e => exact ok.readAll.snd e

theorem dumpFrames (ok : h.Canonical) {l} : (h.dumpFrames l).Canonical := ok.each fun _ _ ok => ok.hand

theorem dumpGo (ok : h.Canonical) : h.dumpGo.Canonical := by
  unfold Hw.dumpGo
  split
  · next e => exact (ok.dumpStream.snd e).frame
  · next e => exact (ok.dumpStream.snd e).dumpFrames.ite (ok.dumpStream.snd e).flashReplace

theorem execDump (ok : s.hw.Canonical) {v a} : NextCanonical (Machine.execDump v a s) :=
  ok.run fun _ ok => ok.busWrite fun _ ok => ok.put.ite (ok.refuse.ite (ok.refuse.ite
      (ok.wr.setRelState.wr.frame.defer.ite ok.wr.setRelState.wr.frame.dumpGo)))

theorem execDumpDone (ok : s.hw.Canonical) : NextCanonical (Machine.execDumpDone s) :=
  ok.run fun _ ok => ok.ite ok.wr.setRelState.raise

/-! ### `Sys2Proof/Machine/Supervisor.lean` -/

theorem setCharge (ok : h.Canonical) {x} : (h.setCharge x).Canonical := ok.put.frame

theorem toLimp (ok : h.Canonical) {c} : (h.toLimp c).Canonical := ok.setChan.limpFollow

theorem toHold (ok : h.Canonical) {c} : (h.toHold c).Canonical := ok.setChan.ite ok.setChan.setChState

theorem toOff (ok : h.Canonical) {c} : (h.toOff c).Canonical := ok.setChan.setChan.ite ok.setChan.switchOff

theorem logicLost (ok : h.Canonical) {cause} : (h.logicLost cause).Canonical := by
  unfold Hw.logicLost
  refine .ite ok.put.sat.raise (.ite (ok.put.sat.raise.each fun _ _ ok => ?_).setCharge.frame.raise
      (ok.put.sat.raise.each fun _ _ ok => ?_).setCharge.raise)
  · split
    exacts [ok.toHold.ite ok.toLimp, ok.toLimp, ok.toOff]
  · split
    exacts [ok.toHold.ite ok.toLimp, ok.toLimp, ok.toOff]

theorem execPssHb (ok : s.hw.Canonical) {v a} : NextCanonical (Machine.execPssHb v a s) :=
  ok.run fun _ ok => ok.busWrite fun _ ok => ok.ite (ok.put.frame.ite (ok.raise.ite
      (ok.raise.frame.logicLost.ite ok.raise.frame)))

theorem execPssWatchdogExpiry (ok : s.hw.Canonical) : NextCanonical (Machine.execPssWatchdogExpiry s) :=
  ok.run fun _ ok => ok.logicLost.ite ok

theorem execPssRelease (ok : s.hw.Canonical) {v a} : NextCanonical (Machine.execPssRelease v a s) :=
  ok.run fun _ ok => ok.busWrite fun _ ok => ok.logicLost.ite ok

theorem hardwarePath (ok : h.Canonical) : h.hardwarePath.Canonical :=
  ok.each fun _ _ ok => ok.toLimp.ite ok.closeWindow.toLimp

theorem execPssRestart (ok : s.hw.Canonical) : NextCanonical (Machine.execPssRestart s) :=
  ok.run fun _ ok => ok.ite ok.sat.raise.setCharge.frame.hardwarePath

theorem takeMap (ok : h.Canonical) : h.takeMap.Canonical := by
  unfold Hw.takeMap
  split
  exacts [(ok.each fun _ _ ok => ok.wr).put.putBit, (ok.each fun _ _ ok => ok.wr).put.putBit]

theorem stagePower (ok : h.Canonical) : h.stagePower.Canonical := ok.takeMap.hardwarePath

theorem wiresStart (ok : h.Canonical) : h.wiresStart.Canonical := ok.each fun _ _ ok => ok.setChan

theorem execPssStart (ok : s.hw.Canonical) : NextCanonical (Machine.execPssStart s) :=
  ok.run fun _ ok => ok.ite (ok.wr.raiseIf.takeMap.frame.put.setCharge.bind fun ok => (ok.wiresStart.ite
      ok).hardwarePath)

theorem execHoldWindowEnd (ok : s.hw.Canonical) : NextCanonical (Machine.execHoldWindowEnd s) :=
  ok.run fun _ ok => ok.ite (ok.each fun _ _ ok => ok.toLimp.ite ok).setCharge.raise

theorem execLhSample (ok : s.hw.Canonical) {p level} : NextCanonical (Machine.execLhSample p level s) :=
  ok.run fun _ ok => ok.frame.ite (ok.frame.putBit.each fun _ _ ok => ok.limpFollow.ite ok)

theorem execMapProg (ok : s.hw.Canonical) {v a} : NextCanonical (Machine.execMapProg v a s) := by
  unfold Machine.execMapProg
  refine ok.run fun _ ok => ok.busWrite fun _ ok => .ite ok.refuse (.ite ok.refuse (.ite ok.refuse
      (.ite ok ?_)))
  split
  exacts [ok.refuse, ok.frame.putBit.ifThen fun ok => ok.defer]

theorem execMapProgDone (ok : s.hw.Canonical) {good} : NextCanonical (Machine.execMapProgDone good s) := by
  unfold Machine.execMapProgDone
  refine ok.run fun _ ok => ?_
  split
  · exact ok
  · exact ok.ite (ok.frame.putBit.putBit.putBit.raise.ite ok.frame.putBit.putBit.putBit.capture.raise)

theorem execPssTakeWrite (ok : s.hw.Canonical) {c v a} : NextCanonical (Machine.execPssTakeWrite c v a s) :=
  ok.run fun _ ok => ok.busWrite fun _ ok => ok.storeReg.putBit

theorem takeChannel (ok : h.Canonical) {c} : (h.takeChannel c).Canonical := by
  unfold Hw.takeChannel
  extract_lets raw w x held x' h'
  have ok : h'.Canonical := ok.setChan.cmdFlags.wr
  refine .ite (ok.ite ok.tempRestart) (.ite (ok.rearm.ite ok) (.ite ?held (.ite ?driven ?off)))
  case held => exact ok.setChan.showDriven.ite ok.setChan.setChState
  case driven => exact ok.switchOff.ite (ok.setChan.showDriven.ite ok.setChan.showDriven)
  case off => exact ok.setChan.setChState.ite (ok.setChan.drive.ite ok.setChan.setChState)

theorem takeClear (ok : h.Canonical) : h.takeClear.Canonical := ok.each fun _ _ ok => ok.wr

theorem takeover (ok : h.Canonical) {a} : (h.takeover a).Canonical :=
  ok.ite (ok.refuse.raise.ite (ok.refuse.raise.ite (ok.each fun _ _ ok =>
      ok.takeChannel).setCharge.takeClear.frame.raise))

theorem takeCtrlWrite (ok : h.Canonical) {v a} : (h.takeCtrlWrite v a).Canonical :=
  (ok.takeover.ite ok).ifThen fun ok => ok.takeClear

theorem execTakeover (ok : s.hw.Canonical) {v a} : NextCanonical (Machine.execTakeover v a s) :=
  ok.run fun _ ok => ok.busWrite fun _ ok => ok.takeCtrlWrite

theorem execTakeClr (ok : s.hw.Canonical) {v a} : NextCanonical (Machine.execTakeClr v a s) :=
  ok.run fun _ ok => ok.busWrite fun _ ok => ok.takeCtrlWrite

theorem holdLeft (ok : h.Canonical) : h.holdLeft.2.Canonical := ok.ite_snd ok.freeDiv

/-! ### `Sys2Proof/Machine/Place.lean` -/

theorem execRerunStart (ok : s.hw.Canonical) {t} : NextCanonical (Machine.execRerunStart t s) := by
  unfold Machine.execRerunStart
  refine ok.run fun _ ok => ?_
  split
  exacts [ok, ok.ite ok.setTask.startRun]

theorem execRetryWindowEnd (ok : s.hw.Canonical) {t} : NextCanonical (Machine.execRetryWindowEnd t s) := by
  unfold Machine.execRetryWindowEnd
  refine ok.run fun _ ok => ?_
  split
  exacts [ok, ok.ite (ok.ite ok.rerunFailed).setTask]

theorem moveTask (ok : h.Canonical) {t e reason} : (h.moveTask t e reason).Canonical := by
  unfold Hw.moveTask
  refine .ite ok ?_
  dsimp only
  split
  exacts [ok.put.reeveLog.ifThen fun ok => ok.setRun, ok.put.reeveLog]

theorem engBecomes (ok : h.Canonical) {e st reason} : (h.engBecomes e st reason).Canonical :=
  ok.setEngState.reeveLog

theorem unplace (ok : h.Canonical) {t} : (h.unplace t).Canonical :=
  ok.ite (ok.dropRun.ite ok).put.setTaskState.setTask.raise

theorem execEngineSelftest (ok : s.hw.Canonical) {e} : NextCanonical (Machine.execEngineSelftest e s) := by
  unfold Machine.execEngineSelftest
  refine ok.run fun _ ok => .ite ok (.ite ok.clearSuspect (.clearSuspect (.setEngState ?_)))
  split
  · exact (ok.ite ok.engBecomes).foldl fun _ _ ok => ok.moveTask
  · exact (ok.foldl fun _ _ ok => ok.unplace).frame

theorem retireEngine (ok : h.Canonical) {e} : (h.retireEngine e).Canonical :=
  ok.setEngState.clearSuspect.raise.raise.putBit.raiseIf

theorem execSelftestDone (ok : s.hw.Canonical) {e sig detected equal} :
    NextCanonical (Machine.execSelftestDone e sig detected equal s) :=
  ok.run fun _ ok => ok.ite ((ok.wr.frame.ite ok.wr).bind fun ok => ((ok.sat.frame.ite
      ok).clearSuspect.bind fun ok => ok.setEngState.ite ok.engBecomes).ite ok.raise.raise.retireEngine)

theorem attachNow (ok : h.Canonical) : h.attachNow.Canonical := by
  unfold Hw.attachNow
  split
  · exact ok
  · refine .ite ok.frame.putBit ?_
    split
    exacts [ok, ok.frame.putBit.abandonRota.engBecomes.moveTask.putBit.put.put]

theorem detachNow (ok : h.Canonical) : h.detachNow.Canonical := by
  unfold Hw.detachNow
  split
  exacts [ok, ok.ite ok.frame.wr.putBit.put.engBecomes.raise]

theorem keepSixteen (ok : h.Canonical) {n} : (h.keepSixteen n).Canonical := by
  induction n generalizing h with
  | zero => exact ok
  | succ n ih =>
    unfold Hw.keepSixteen
    refine ok.ite ?_
    split
    exacts [ih ok.engBecomes, ok]

theorem placeTask (ok : h.Canonical) {t e reason} : (h.placeTask t e reason).Canonical :=
  (ok.moveTask.setTask.setTaskState.ite ok.moveTask).bind fun ok => ok.restartBg.ite ok

theorem fitCadence (ok : h.Canonical) {c} : (h.fitCadence c).Canonical :=
  ok.each fun _ _ ok => ok.ite (ok.foldl fun _ _ ok => ok.unplace).frame

theorem execPlacement (ok : s.hw.Canonical) {p} : NextCanonical (Machine.execPlacement p s) := by
  refine ok.run fun _ ok => ok.ite (.frame (foldl_fst ok.detachNow.attachNow.keepSixteen fun _ _ ok => ?_))
  split
  · exact ok
  · split
    exacts [ok.placeTask, ok.unplace]

theorem execCeaReplace (ok : s.hw.Canonical) {v a} : NextCanonical (Machine.execCeaReplace v a s) :=
  ok.run fun _ ok => ok.busWrite fun _ ok => ok.frame.ite ok

/-! ### `Sys2Proof/Machine/Pdu.lean` -/

theorem pduDiscard (ok : h.Canonical) : h.pduDiscard.Canonical := ok.sat

theorem execPduFrameRx (ok : s.hw.Canonical) {b} : NextCanonical (Machine.execPduFrameRx b s) := by
  unfold Machine.execPduFrameRx
  refine ok.run fun _ ok => .ite ok (.ite ok.pduDiscard (.ite ok.pduDiscard ?_))
  split
  · exact ok.putBit.pduDiscard
  · dsimp only
    split
    exacts [ok.sat, ok.frame]

theorem execPduStore (ok : s.hw.Canonical) {u} : NextCanonical (Machine.execPduStore u s) := by
  unfold Machine.execPduStore
  refine ok.run fun _ ok => ?_
  split
  exacts [ok, ok.frame.setPdu.put.put.wr.ifThen fun ok => ok.putBit]

theorem execPduSend (ok : s.hw.Canonical) : NextCanonical (Machine.execPduSend s) := by
  unfold Machine.execPduSend
  refine ok.run fun _ ok => ?_
  split
  exacts [ok, ok.frame.hand.put.put]

theorem execPduEntryWrite (ok : s.hw.Canonical) {u w v a} :
    NextCanonical (Machine.execPduEntryWrite u w v a s) :=
  ok.run fun _ ok => ok.busWrite fun _ ok => ok.refuse.ite (ok.refuse.ite (ok.storeReg.ifThen fun ok
      => ok.setPdu.put))

theorem cadOff (ok : h.Canonical) {c} : (h.cadOff c).Canonical :=
  (ok.foldl fun _ _ ok => ok.dropRun.setTask).setCad.trimKept

theorem nmMisses (ok : h.Canonical) {c} : (h.nmMisses c).Canonical := ok.raiseIf

theorem execCadenceEnable (ok : s.hw.Canonical) {c v a} :
    NextCanonical (Machine.execCadenceEnable c v a s) := by
  unfold Machine.execCadenceEnable
  refine ok.run fun _ ok => ok.busWrite fun _ ok => .ite (ok.refuse.ite (ok.ite
      ok.cadOff.putBit.nmMisses)) (.ite ok.storeReg ?_)
  split
  exacts [ok.refuse, ok.storeReg.setCad.fitCadence]

theorem execBankWrite (ok : s.hw.Canonical) {t n v a} : NextCanonical (Machine.execBankWrite t n v a s) :=
  ok.run fun _ ok => ok.busWrite fun _ ok => ok.refuse.ite (ok.storeReg.putBit.capture.ite
      (ok.storeReg.putBit.capture.ite (ok.storeReg.putBit.frame.ifThen fun ok => ok.wr)))

/-! ### `Sys2Proof/Machine/Forces.lean` -/

theorem execFrcPermitWrite (ok : s.hw.Canonical) {v a} : NextCanonical (Machine.execFrcPermitWrite v a s) :=
  ok.run fun _ ok => ok.busWrite fun _ ok => ok.refuse.ite ok.put

theorem execForceWrite (ok : s.hw.Canonical) {f v a} : NextCanonical (Machine.execForceWrite f v a s) :=
  ok.run fun _ ok => ok.busWrite fun _ ok => ok.wr.frame.frcCounts.ite (ok.refuse.ite (ok.refuse.ite
      (ok.refuse.ite ok.wr.frame.frcCounts)))

/-! ### `Sys2Proof/Machine/Gorpen.lean` -/

theorem takeTrap (ok : h.Canonical) {t r code} : (h.takeTrap t r code).Canonical := ok.haltRun.ite ok.endPhase

theorem retire (ok : h.Canonical) {t r addr x} : (h.retire t r addr x).Canonical := by
  unfold Hw.retire
  split
  exacts [ok.haltRun.ite ok.setRun, ok.endPhase, ok.takeTrap, ok.endPhase, ok.poolEcc]

theorem beginBg (ok : h.Canonical) {t r} : (h.beginBg t r).1.Canonical := by
  unfold Hw.beginBg
  split
  exacts [ok.applyForces, ok]

theorem ranNow (ok : h.Canonical) {t r w} : (h.ranNow t r w).Canonical := ok.setEng.ite ok.setEng.setTask

theorem loadEcc (ok : h.Canonical) {fetch load const a} : (h.loadEcc fetch load const a).Canonical := by
  unfold Hw.loadEcc
  dsimp only
  split
  · exact (ok.sat.raise.ite ok).sat.raise
  · exact (ok.sat.raise.ite ok).sat.raise
  · exact (ok.sat.raise.ite ok).frame.sat.wr.raise
  · exact ok.sat.raise.ite ok

theorem engineStep (ok : h.Canonical) {e fetch op f load} : (h.engineStep e fetch op f load).Canonical := by
  unfold Hw.engineStep
  split
  · exact ok
  · next t r _ =>
    have started := ok.beginBg (t := t) (r := r)
    exact started.haltRun.ite ((((started.frame.sat.wr.raise).ite started).takeTrap.ranNow).ite
      (started.takeTrap.ranNow.ite (started.takeTrap.ranNow.ite (ok.ite started.loadEcc.retire.ranNow))))

theorem execNop (ok : s.hw.Canonical) {k} : NextCanonical (Machine.execNop k s) := by
  unfold Machine.execNop
  refine ok.run fun _ ok => ?_
  split
  exacts [ok.fireCue fun _ _ _ _ _ ok => ok, ok.engineStep]

theorem execAlu (ok : s.hw.Canonical) {e fetch} : NextCanonical (Machine.execAlu e fetch s) :=
  ok.run fun _ ok => ok.engineStep

theorem execLogic (ok : s.hw.Canonical) {e fetch} : NextCanonical (Machine.execLogic e fetch s) :=
  ok.run fun _ ok => ok.engineStep

theorem execCmp (ok : s.hw.Canonical) {e fetch} : NextCanonical (Machine.execCmp e fetch s) :=
  ok.run fun _ ok => ok.engineStep

theorem execCvt (ok : s.hw.Canonical) {e fetch} : NextCanonical (Machine.execCvt e fetch s) :=
  ok.run fun _ ok => ok.engineStep

theorem execRnd (ok : s.hw.Canonical) {e fetch} : NextCanonical (Machine.execRnd e fetch s) :=
  ok.run fun _ ok => ok.engineStep

theorem execBool (ok : s.hw.Canonical) {e fetch} : NextCanonical (Machine.execBool e fetch s) :=
  ok.run fun _ ok => ok.engineStep

theorem execSel (ok : s.hw.Canonical) {e fetch} : NextCanonical (Machine.execSel e fetch s) :=
  ok.run fun _ ok => ok.engineStep

theorem execBtst (ok : s.hw.Canonical) {e fetch} : NextCanonical (Machine.execBtst e fetch s) :=
  ok.run fun _ ok => ok.engineStep

theorem execBins (ok : s.hw.Canonical) {e fetch} : NextCanonical (Machine.execBins e fetch s) :=
  ok.run fun _ ok => ok.engineStep

theorem execLi (ok : s.hw.Canonical) {e fetch} : NextCanonical (Machine.execLi e fetch s) :=
  ok.run fun _ ok => ok.engineStep

theorem execLih (ok : s.hw.Canonical) {e fetch} : NextCanonical (Machine.execLih e fetch s) :=
  ok.run fun _ ok => ok.engineStep

theorem execAddi (ok : s.hw.Canonical) {e fetch} : NextCanonical (Machine.execAddi e fetch s) :=
  ok.run fun _ ok => ok.engineStep

theorem execLd (ok : s.hw.Canonical) {e fetch load} : NextCanonical (Machine.execLd e fetch load s) :=
  ok.run fun _ ok => ok.engineStep

theorem execSt (ok : s.hw.Canonical) {e fetch} : NextCanonical (Machine.execSt e fetch s) :=
  ok.run fun _ ok => ok.engineStep.bgRestart

theorem execLdx (ok : s.hw.Canonical) {e fetch load} : NextCanonical (Machine.execLdx e fetch load s) :=
  ok.run fun _ ok => ok.engineStep

theorem execStx (ok : s.hw.Canonical) {e fetch} : NextCanonical (Machine.execStx e fetch s) :=
  ok.run fun _ ok => ok.engineStep.bgRestart

theorem execLdb (ok : s.hw.Canonical) {e fetch load} : NextCanonical (Machine.execLdb e fetch load s) :=
  ok.run fun _ ok => ok.engineStep

theorem execStb (ok : s.hw.Canonical) {e fetch} : NextCanonical (Machine.execStb e fetch s) :=
  ok.run fun _ ok => ok.engineStep.bgRestart

theorem execTcv (ok : s.hw.Canonical) {e fetch} : NextCanonical (Machine.execTcv e fetch s) :=
  ok.run fun _ ok => ok.engineStep

theorem execBr (ok : s.hw.Canonical) {e fetch} : NextCanonical (Machine.execBr e fetch s) :=
  ok.run fun _ ok => ok.engineStep

theorem execBrk (ok : s.hw.Canonical) {e fetch} : NextCanonical (Machine.execBrk e fetch s) :=
  ok.run fun _ ok => ok.engineStep

theorem execLoop (ok : s.hw.Canonical) {e fetch} : NextCanonical (Machine.execLoop e fetch s) :=
  ok.run fun _ ok => ok.engineStep

theorem execCall (ok : s.hw.Canonical) {e fetch} : NextCanonical (Machine.execCall e fetch s) :=
  ok.run fun _ ok => ok.engineStep

theorem execRet (ok : s.hw.Canonical) {e fetch} : NextCanonical (Machine.execRet e fetch s) :=
  ok.run fun _ ok => ok.engineStep

theorem execEndRun (ok : s.hw.Canonical) {e fetch} : NextCanonical (Machine.execEndRun e fetch s) :=
  ok.run fun _ ok => ok.engineStep

theorem execTrap (ok : s.hw.Canonical) {e fetch} : NextCanonical (Machine.execTrap e fetch s) :=
  ok.run fun _ ok => ok.engineStep

theorem execPrim (ok : s.hw.Canonical) {e fetch load} : NextCanonical (Machine.execPrim e fetch load s) :=
  ok.run fun _ ok => ok.engineStep

/-! ### `Sys2Proof/Machine/Debug.lean` -/

theorem goOn (ok : h.Canonical) {step} : (h.goOn step).Canonical := by
  unfold Hw.goOn
  split
  · exact ok
  · dsimp only
    split
    exacts [ok.putBit.setEngState.endPhase, ok.putBit.setEngState.setRun]

theorem askHalt (ok : h.Canonical) : h.askHalt.Canonical := by
  unfold Hw.askHalt
  refine .ite ok ?_
  dsimp only
  split
  exacts [ok.ite (ok.haltRun.ite ok.frame), ok.frame]

theorem dbgHaltWrite (ok : h.Canonical) {v} : (h.dbgHaltWrite v).Canonical :=
  (ok.goOn.raise.ite ok).ite (ok.goOn.ite (ok.askHalt.ite ok))

theorem execDbgHalt (ok : s.hw.Canonical) {v a} : NextCanonical (Machine.execDbgHalt v a s) :=
  ok.run fun _ ok => ok.busWrite fun _ ok => ok.dbgHaltWrite

theorem execDbgResume (ok : s.hw.Canonical) {v a} : NextCanonical (Machine.execDbgResume v a s) :=
  ok.run fun _ ok => ok.busWrite fun _ ok => ok.dbgHaltWrite

theorem execDbgStep (ok : s.hw.Canonical) {v a} : NextCanonical (Machine.execDbgStep v a s) :=
  ok.run fun _ ok => ok.busWrite fun _ ok => ok.dbgHaltWrite

theorem detach (ok : h.Canonical) : h.detach.Canonical :=
  ok.frame.putBit.ifElse fun ok => (ok.goOn.raise.ite ok).frame

theorem dbgAttachWrite (ok : h.Canonical) {v a} : (h.dbgAttachWrite v a).Canonical :=
  (ok.refuse.ite (ok.refuse.ite ok.abandonRota.put.putBit.frame)).ite (ok.put.ite ok.put.detach.putBit)

theorem execDbgAttach (ok : s.hw.Canonical) {v a} : NextCanonical (Machine.execDbgAttach v a s) :=
  ok.run fun _ ok => ok.busWrite fun _ ok => ok.dbgAttachWrite

theorem execDbgDetach (ok : s.hw.Canonical) {v a} : NextCanonical (Machine.execDbgDetach v a s) :=
  ok.run fun _ ok => ok.busWrite fun _ ok => ok.dbgAttachWrite

theorem execDbgRegisterWrite (ok : s.hw.Canonical) {n v a} :
    NextCanonical (Machine.execDbgRegisterWrite n v a s) := by
  unfold Machine.execDbgRegisterWrite
  refine ok.run fun _ ok => ok.busWrite fun _ ok => ?_
  split
  exacts [ok.refuse, ok.storeReg.setRun]

theorem execAuthExpired (ok : s.hw.Canonical) : NextCanonical (Machine.execAuthExpired s) :=
  ok.run fun _ ok => ok.ite (ok.put.ite (ok.put.put.frame.foldl fun _ _ ok =>
      ok.put.wr).frcCounts.detach.raise)

/-! ### `Sys2Proof/Machine/Twin.lean` -/

theorem altSend (ok : h.Canonical) {typ sub tick flags payload} :
    (h.altSend typ sub tick flags payload).Canonical :=
  ok.ite ok.hand

theorem dualAuthority (ok : h.Canonical) {f was} : (h.dualAuthority f was).Canonical :=
  ok.ite (ok.raiseIf.ite ok.raiseIf.frame)

theorem peerSeen (ok : h.Canonical) {f} : (h.peerSeen f).Canonical := ok.wr.putBit.dualAuthority

theorem exrexRx (ok : h.Canonical) {b t bad f} (hb : ∀ g, g.Canonical → (bad g).Canonical)
    (hf : ∀ x g, g.Canonical → (f x g).Canonical) : (h.exrexRx b t bad f).Canonical := by
  unfold Hw.exrexRx
  refine ok.ite ?_
  split
  exacts [hb _ ok.sat, (hf _ _ ok.peerSeen).ite ok]

theorem setTw (ok : h.Canonical) {st} : (h.setTw st).Canonical := ok.put

theorem expectBeats (ok : h.Canonical) : h.expectBeats.Canonical := ok.frame

theorem enterHello (ok : h.Canonical) : h.enterHello.Canonical := ok.setTw.frame

theorem enterSync (ok : h.Canonical) : h.enterSync.Canonical := ok.setTw.frame

theorem enterHolder (ok : h.Canonical) : h.enterHolder.Canonical := ok.setTw.frame.raise

theorem execTwnEnable (ok : s.hw.Canonical) {v a} : NextCanonical (Machine.execTwnEnable v a s) :=
  ok.run fun _ ok => ok.busWrite fun _ ok => ok.refuse.ite (ok.refuse.ite ((ok.refuse.ite
      (ok.storeReg.frame.enterHello.put.ifElse fun ok => ok.takeAuthority)).ite (ok.storeReg.ifThen fun
      ok => ok.frame.setTw.putBit.putBit)))

theorem execHelloSend (ok : s.hw.Canonical) : NextCanonical (Machine.execHelloSend s) :=
  ok.run fun _ ok => ok.ite ok.frame.exrexSend

theorem execHelloRx (ok : s.hw.Canonical) {b} : NextCanonical (Machine.execHelloRx b s) :=
  ok.run fun _ ok => ok.exrexRx (fun _ ok => ok) fun _ _ ok => (ok.frame.raise.ite
      (ok.frame.expectBeats.enterHolder.ite ok.frame.expectBeats.enterSync)).ite (ok.enterHello.ite ok)

theorem execAloneTimeout (ok : s.hw.Canonical) : NextCanonical (Machine.execAloneTimeout s) :=
  ok.run fun _ ok => ok.ite (ok.setTw.ite ok.setTw.takeAuthority)

theorem execHeartbeatSend (ok : s.hw.Canonical) : NextCanonical (Machine.execHeartbeatSend s) :=
  ok.run fun _ ok => ok.ite ok.frame.altSend.exrexSend

theorem execHeartbeatRx (ok : s.hw.Canonical) {b} : NextCanonical (Machine.execHeartbeatRx b s) :=
  ok.run fun _ ok => ok.exrexRx (fun _ ok => ok) fun _ _ ok => ok.put.expectBeats.ifThen fun ok =>
      ok.frame

theorem peerLost (ok : h.Canonical) : h.peerLost.Canonical :=
  ok.ite (ok.setTw.raise.frame.ifElse fun ok' => ok'.takeAuthority.ite ok.setTw.raise.frame)

theorem execHeartbeatMiss (ok : s.hw.Canonical) : NextCanonical (Machine.execHeartbeatMiss s) := by
  unfold Machine.execHeartbeatMiss
  refine ok.run fun _ ok => .ite ok ?_
  split
  exacts [ok, ok.frame.sat.satF.raise.ifThen fun ok => ok.peerLost]

theorem execImageSegmentRx (ok : s.hw.Canonical) {b} : NextCanonical (Machine.execImageSegmentRx b s) := by
  unfold Machine.execImageSegmentRx
  refine ok.run fun _ ok => ok.exrexRx (fun _ ok => ok) fun _ _ ok => .ite ok (.ite ok ?_)
  dsimp only
  split
  exacts [ok.setTwinCad.setTwinCad.placeImage.releaseTasks, ok.setTwinCad]

theorem execImageTimeout (ok : s.hw.Canonical) {c} : NextCanonical (Machine.execImageTimeout c s) :=
  ok.run fun _ ok => ok.ite ok.setTwinCad.sat.releaseTasks

theorem execSignatureSend (ok : s.hw.Canonical) {c} : NextCanonical (Machine.execSignatureSend c s) := by
  unfold Machine.execSignatureSend
  refine ok.run fun _ ok => ?_
  dsimp only
  split
  exacts [ok, ok.setTwinCad.exrexSend]

theorem execSignatureRx (ok : s.hw.Canonical) {b} : NextCanonical (Machine.execSignatureRx b s) := by
  unfold Machine.execSignatureRx
  refine ok.run fun _ ok => ok.exrexRx (fun _ ok => ok) fun _ _ ok => .ite ok (.ite
      ok.setTwinCad.sat ?_)
  split
  exacts [ok.compareSigs.ite ok, ok.setTwinCad]

theorem twinWrite (ok : h.Canonical) {ofs bs} : (h.twinWrite ofs bs).Canonical := ok.poolWrite.recordDrain

theorem execStateRx (ok : s.hw.Canonical) {b} : NextCanonical (Machine.execStateRx b s) :=
  ok.run fun _ ok => ok.exrexRx (fun _ ok => ok.enterSync.ite ok) fun _ _ ok => (ok.enterSync.ite
      ok).bind fun ok => ok.ite ((ok.foldl fun _ _ ok => ok.twinWrite).ite (ok.ite ok.twinWrite.frame))

theorem declareRefused (ok : h.Canonical) : h.declareRefused.Canonical := ok.frame.raise

theorem declareFaulty (ok : h.Canonical) {cause} : (h.declareFaulty cause).2.Canonical :=
  ok.putBit.frame.raise.bind fun ok => ok.ite_snd (ok.ite_snd (ok.frame.altSend.exrexSend.ite_snd
      ok.declareRefused))

theorem execTwnDeclare (ok : s.hw.Canonical) {d} : NextCanonical (Machine.execTwnDeclare d s) := by
  unfold Machine.execTwnDeclare
  refine ok.run fun _ ok => ?_
  split
  · refine ok.busWrite fun _ ok => .ite ok ?_
    split
    · next e => exact ok.declareFaulty.snd e
    · next e => exact (ok.declareFaulty.snd e).refuse
  · exact ok.putBit.declareFaulty.ite ok.putBit

theorem execDeclareRx (ok : s.hw.Canonical) {b} : NextCanonical (Machine.execDeclareRx b s) :=
  ok.run fun _ ok => ok.exrexRx (fun _ ok => ok) fun _ _ ok => ok.exrexSend.ifThen fun ok =>
      ok.frame

theorem execAckRx (ok : s.hw.Canonical) {b} : NextCanonical (Machine.execAckRx b s) := by
  unfold Machine.execAckRx
  refine ok.run fun _ ok => ok.exrexRx (fun _ ok => ok) fun _ _ ok => ?_
  dsimp only
  split
  exacts [ok, ok.ite (ok.declareRefused.ite ok.frame)]

theorem execDeclareDeadline (ok : s.hw.Canonical) : NextCanonical (Machine.execDeclareDeadline s) :=
  ok.run fun _ ok => ok.declareRefused.ite ok

theorem execTwnResync (ok : s.hw.Canonical) {v a} : NextCanonical (Machine.execTwnResync v a s) :=
  ok.run fun _ ok => ok.busWrite fun _ ok => ok.ite (ok.refuse.ite ok.enterHolder)

theorem execExrexLaneLoss (ok : s.hw.Canonical) {lane locked} :
    NextCanonical (Machine.execExrexLaneLoss lane locked s) :=
  ok.run fun _ ok => ok.ite (ok.putBit.putBit.raise.ite (ok.putBit.putBit.ifThen fun ok =>
      ok.frame.raise.ifThen fun ok => ok.setTw.frame))

theorem execTwnCntClr (ok : s.hw.Canonical) {v a} : NextCanonical (Machine.execTwnCntClr v a s) :=
  ok.run fun _ ok => ok.busWrite fun _ ok => ok.each fun _ _ ok => ok.wr.ite ok

theorem twinTick (ok : h.Canonical) : h.twinTick.Canonical := by
  unfold Hw.twinTick
  dsimp only
  split
  exacts [ok.frame, ok.frame.exrexSend]

/-! ### `Sys2Proof/Machine/Reset.lean` -/

theorem keepLcs (ok : h.Canonical) {f} (hf : ∀ g, g.Canonical → (f g).Canonical) : (h.keepLcs f).Canonical := (hf h ok).wr

theorem dropRegs (ok : h.Canonical) {d} : (h.dropRegs d).Canonical := filter_canon _ _ _ ok

theorem loseTime (ok : h.Canonical) : h.loseTime.Canonical :=
  (ok.each fun _ _ ok => ok.setCorr).dropRegs.frame.foldl fun _ _ ok => ok.wr

theorem loseSecurity (ok : h.Canonical) : h.loseSecurity.Canonical :=
  ok.keepLcs fun _ ok => ok.dropRegs.frame

theorem unplaceAll (ok : h.Canonical) : h.unplaceAll.Canonical := ok.frame

theorem loseL3 (ok : h.Canonical) : h.loseL3.Canonical := ok.unplaceAll.dropRegs.frame

theorem loseEngines (ok : h.Canonical) {d} : (h.loseEngines d).Canonical :=
  (ok.dropRegs.each fun _ _ ok => ok.setEngState.putBit.ite ok).frame

theorem loseArray (ok : h.Canonical) : h.loseArray.Canonical := ok.dropRegs.frame

theorem loseSwitch (ok : h.Canonical) : h.loseSwitch.Canonical := ok.dropRegs.frame

theorem losePorts (ok : h.Canonical) {d} : (h.losePorts d).Canonical :=
  ((ok.frame.foldl fun _ _ ok => ok.linkHeld).ite ok.frame).dropRegs.frame

theorem loseT1 (ok : h.Canonical) {refresh} : (h.loseT1 refresh).Canonical :=
  ok.dropRegs.ite ok.dropRegs.frame

theorem domainLost (ok : h.Canonical) {d refresh} : (h.domainLost d refresh).Canonical := by
  unfold Hw.domainLost
  split
  · exact ok.loseSecurity
  · exact ok.loseL3
  · exact ok.loseEngines
  · exact ok.loseEngines
  · exact ok.loseArray
  · exact ok.loseTime
  · exact ok.loseSwitch
  · exact ok.losePorts
  · exact ok.losePorts
  · exact ok.losePorts
  · exact ok.losePorts
  · exact ok.losePorts
  · exact ok.dropRegs.frame
  · exact ok.loseT1
  · exact ok.dropRegs.frame
  · exact ok.dropRegs.frame
  · exact ok.dropRegs.frame
  · exact ok.dropRegs.frame
  · exact ok.dropRegs.frame
  · exact ok

theorem coresLost (ok : h.Canonical) {d} : (h.coresLost d).Canonical := ok.frame

theorem domainOff (ok : h.Canonical) {d refresh} : (h.domainOff d refresh).Canonical :=
  ok.domainLost.coresLost.putBit

theorem slotResume (ok : h.Canonical) {n} : (h.slotResume n).Canonical :=
  ok.setTcuState.setSlot.ite (ok.ite (ok.enterHoldover.ite ok.put))

theorem domainUp (ok : h.Canonical) {d} : (h.domainUp d).Canonical :=
  (ok.putBit.foldl fun _ _ ok => ok.slotResume).ite (ok.putBit.frame.ite (ok.putBit.nmuPd17Up.ite
      (ok.putBit.frame.ite ok.putBit.frame)))

theorem execPdDone (ok : s.hw.Canonical) : NextCanonical (Machine.execPdDone s) := by
  unfold Machine.execPdDone
  refine ok.run fun _ ok => ?_
  split
  exacts [ok, (ok.frame.domainUp.ite ok.frame.domainOff).putBit.pwrLast.raise.pwrGo]

theorem powerInOrder (ok : h.Canonical) {ds} : (h.powerInOrder ds).Canonical :=
  (ok.foldl fun _ _ ok => ok.pwrQueue).pwrGo

theorem pwrReset (ok : h.Canonical) : h.pwrReset.Canonical := (ok.wr.each fun _ _ ok => ok.wr).frame

theorem bootReset (ok : h.Canonical) {fired} : (h.bootReset fired).Canonical :=
  ok.frame.put.putBit.wr.wr.wr.put.putBit.put.each fun _ _ ok => ok.wr

theorem lastPage (ok : h.Canonical) : h.lastPage.Canonical := by
  unfold Hw.lastPage
  split
  exacts [ok.flPage.ite ok, ok]

theorem lcsTakes (ok : h.Canonical) : h.lcsTakes.Canonical := by
  unfold Hw.lcsTakes
  split
  exacts [ok, (ok.put.ite ok).put.putBit.frame]

theorem sinceReset (ok : h.Canonical) : h.sinceReset.Canonical := ok.frame

theorem mainReset (ok : h.Canonical) {cause} : (h.mainReset cause).Canonical :=
  ((ok.frame.put.logicLost.ite ok.frame.put).lastPage.foldl fun _ _ ok =>
      ok.domainOff).frame.bootReset.lcsTakes.pwrReset.sinceReset

theorem execMainLogicReset (ok : s.hw.Canonical) {mv} : NextCanonical (Machine.execMainLogicReset mv s) :=
  ok.run fun _ ok => ok.vbatMeasured.ifElse fun ok => ok.raiseIf.mainReset

theorem execResetN (ok : s.hw.Canonical) {low} : NextCanonical (Machine.execResetN low s) :=
  ok.run fun _ ok => ok.frame.mainReset.ite ok.frame

theorem execSysResetReq (ok : s.hw.Canonical) {v a} : NextCanonical (Machine.execSysResetReq v a s) :=
  ok.run fun _ ok => ok.busWrite fun _ ok => ok.refuse.ite ok.mainReset

theorem execSysWdog (ok : s.hw.Canonical) {v a} : NextCanonical (Machine.execSysWdog v a s) :=
  ok.run fun _ ok => ok.busWrite fun _ ok => ok.put.frame.ite (ok.ite (ok.mainReset.ite ok.frame))

theorem execSysWdogExpiry (ok : s.hw.Canonical) : NextCanonical (Machine.execSysWdogExpiry s) :=
  ok.run fun _ ok => ok.mainReset.ite ok

theorem execBootRecover (ok : s.hw.Canonical) {v a} : NextCanonical (Machine.execBootRecover v a s) :=
  ok.run fun _ ok => ok.busWrite fun _ ok => ok.ite (ok.refuse.ite ok.frame.mainReset)

theorem activateNow (ok : h.Canonical) : h.activateNow.Canonical := ok.raise.mainReset

theorem activateEff (ok : h.Canonical) {arg v tc idx} : (Machine.activateEff arg v tc idx h).Canonical :=
  ok.ite (ok.defer.raise.ite ok.activateNow)

theorem execActivate (ok : s.hw.Canonical) {c} : NextCanonical (Machine.execActivate c s) :=
  ok.run fun _ ok => ok.fireCue fun _ _ _ _ _ ok => ok.activateEff

theorem straps (ok : h.Canonical) {mode root secondary} : (h.straps mode root secondary).Canonical :=
  ok.put.putBit.putBit

theorem execResetRelease (ok : s.hw.Canonical) {bootMode twinRole spanRole} :
    NextCanonical (Machine.execResetRelease bootMode twinRole spanRole s) :=
  ok.run fun _ ok => ok.ite ok.frame.put.incF.straps.powerInOrder

theorem vbatLost : h.vbatLost.Canonical := (Hw.Canonical.of_regsOk rfl).wr.wr.wr.wr

theorem execVbatLoss (ok : s.hw.Canonical) : NextCanonical (Machine.execVbatLoss s) :=
  ok.run fun _ _ => .vbatLost

theorem execVbatPowerOn (ok : s.hw.Canonical) {mv} : NextCanonical (Machine.execVbatPowerOn mv s) :=
  ok.run fun _ ok => ok.ite ok.frame.lcsTakes.wr.stagePower.vbatMeasured

theorem sleepWithdrawn (ok : h.Canonical) {ds} : (h.sleepWithdrawn ds).Canonical := by
  unfold Hw.sleepWithdrawn
  refine ok.foldl fun _ _ ok => ?_
  split
  exacts [ok.ite ok.pwrWithdraw, ok]

theorem execModuleWake (ok : s.hw.Canonical) : NextCanonical (Machine.execModuleWake s) :=
  ok.run fun _ ok => ok.ite (ok.frame.mainReset.ite ok.frame.sleepWithdrawn.powerInOrder.raise)

theorem runDeferred (ok : h.Canonical) {good d} : (h.runDeferred good d).Canonical := by
  unfold Hw.runDeferred
  refine .ite ok ?_
  split
  · exact ok.frame
  · exact ok.persistCheck.keyEnd
  · exact ok.enrol.keyEnd
  · exact ok.lcsBurn.putBit
  · exact ok.arbBurn
  · exact ok.pkRevoke
  · exact ok
  · exact ok.dumpGo
  · exact ok.activateNow
  · exact ok.updErase
  · exact ok.recoveryWrite

theorem execHoldExit (ok : s.hw.Canonical) {mv good} : NextCanonical (Machine.execHoldExit mv good s) :=
  ok.run fun _ ok => ok.vbatMeasured.ifElse fun ok => ok.frame.putBit.put.wr.raise.foldl fun _ _ ok =>
      ok.runDeferred

theorem in48Back (ok : h.Canonical) {c} : (h.in48Back c).Canonical :=
  ok.ite (ok.openWindow.ifElse fun ok => ok.showDriven)

theorem execIn48Fault (ok : s.hw.Canonical) {uv ov tens} : NextCanonical (Machine.execIn48Fault uv ov tens s) :=
  ok.run fun _ ok => ok.put.raiseIf.raiseIf.putBit.putBit.bind fun ok => (ok.each fun _ _ ok =>
      ok.in48Back).ite ok

/-! ### `Sys2Proof/Machine/CueFire.lean` -/

theorem cueEff (ok : h.Canonical) {act a a' a2 a3} : (Machine.cueEff act a a' a2 a3 h).Canonical := by
  unfold Machine.cueEff
  split
  · exact ok.latchEff
  · exact ok.commitEff
  · exact ok.adcBurstEff
  · exact ok.gateEff
  · exact ok.holdEff
  · exact ok.pwmAlignEff
  · exact ok.canTxEff
  · exact ok.linSlotEff
  · exact ok.rioPollEff
  · exact ok.rioSendEff
  · exact ok.dmaTrigEff
  · exact ok.evtPulseEff
  · exact ok.tcCaptureEff
  · exact ok.swapEff
  · exact ok.activateEff
  · exact ok

theorem fireEntry (ok : h.Canonical) {i v e} : (h.fireEntry i v e).Canonical :=
  ok.fireAt fun _ ok => ok.cueEff

theorem fireDue (ok : h.Canonical) {n v} : (h.fireDue n v).Canonical := ok.foldl fun _ _ ok => ok.fireEntry

theorem fireMust (ok : h.Canonical) {n lo hi v} : (h.fireMust n lo hi v).Canonical :=
  (ok.foldl fun _ _ ok => ok.fireEntry).raiseIf

theorem latchSkipped (ok : h.Canonical) {i k e} : (h.latchSkipped i k e).Canonical := ok.setCad.ite ok

theorem skipSpan (ok : h.Canonical) {half n lo hi} : (h.skipSpan half n lo hi).Canonical :=
  (ok.foldl fun _ _ ok => ok.ite ok.sat.latchSkipped).raiseIf

theorem noteSkips (ok : h.Canonical) {a b} : (h.noteSkips a b).Canonical := by
  unfold Hw.noteSkips
  split
  exacts [ok, ok.wr, ok.wr, ok.wr]

theorem swapCheck (ok : h.Canonical) {c} : (h.swapCheck c).Canonical :=
  (ok.setCad.ite ok).ite (ok.ite (ok.setCad.raise.foldl fun _ _ ok => ok.noteSafe.ite
      ok.noteSafe.setTaskState).gate)

theorem carrySwap (ok : h.Canonical) : h.carrySwap.Canonical :=
  ok.swapHalves.passMarks.ifThen fun ok => ok.foldl fun _ _ ok => ok.swapCheck

theorem noteStep (ok : h.Canonical) {n} : (h.noteStep n).Canonical :=
  (ok.foldl fun _ _ ok => ok.setCad).frame

theorem takeStep (ok : h.Canonical) {n upTo} : (h.takeStep n upTo).Canonical :=
  ok.setSlot.putBit.incF.tcuEvent

theorem passWhole (ok : h.Canonical) {n b upTo} : (h.passWhole n b upTo).Canonical :=
  ok.noteSkips.skipSpan.fireMust.fireDue

theorem passed (ok : h.Canonical) {n b upTo swap} : (h.passed n b upTo swap).Canonical := by
  unfold Hw.passed
  dsimp only
  split
  · exact ok.passWhole
  · exact ok.carrySwap.passWhole.ite (ok.noteSkips.skipSpan.skipSpan.fireMust.carrySwap.fireMust.fireDue.ite
      (ok.passWhole.carrySwap.ite ok.passWhole))

theorem stepSlot (ok : h.Canonical) {n b d} : (h.stepSlot n b d).Canonical := by
  unfold Hw.stepSlot
  refine .renewHorizons (.ite (ok.setSlot.fireDue.ite ok.setSlot).takeStep.noteStep.passed ?_)
  split
  · exact (ok.setSlot.fireDue.ite ok.setSlot).takeStep.noteStep.ifThen fun ok => ok.carrySwap
  · exact (ok.setSlot.fireDue.ite ok.setSlot).takeStep.noteStep

theorem execTimecodeStep (ok : s.hw.Canonical) {n} : NextCanonical (Machine.execTimecodeStep n s) := by
  unfold Machine.execTimecodeStep
  refine ok.run fun _ ok => ?_
  split
  exacts [ok.stepSlot.ite ok, ok]

theorem execSwapDone (ok : s.hw.Canonical) : NextCanonical (Machine.execSwapDone s) := by
  unfold Machine.execSwapDone
  refine ok.run fun _ ok => ?_
  split
  exacts [ok.ite (ok.fireDue.ite ok).carrySwap.renewHorizons, ok]

theorem fireLate (ok : h.Canonical) : h.fireLate.Canonical :=
  ok.ite (ok.cueNow.frame.foldl fun _ _ ok => ok.fireChecked fun _ ok => ok.cueEff)

theorem stepNow (ok : h.Canonical) {n} : (h.stepNow n).Canonical := by
  unfold Hw.stepNow
  split
  exacts [ok.stepSlot.ite ok, ok]

theorem execSourceQualified (ok : s.hw.Canonical) {n src rate x} :
    NextCanonical (Machine.execSourceQualified n src rate x s) :=
  ok.run fun _ ok => ok.ite ok.qualify.stepNow.shaftAt

theorem measured (ok : h.Canonical) {n src rate tickNs} : (h.measured n src rate tickNs).Canonical :=
  ok.ite ok.rebase.wr.setSlot.putBit.judge.stepNow.shaftAt

theorem execCorrectionMeasured (ok : s.hw.Canonical) {n m ns} :
    NextCanonical (Machine.execCorrectionMeasured n m ns s) := by
  unfold Machine.execCorrectionMeasured
  refine ok.run fun _ ok => .ite ok ?_
  split
  exacts [ok.measured, ok.encoderEdge.ite ok]

theorem pwmFree (ok : h.Canonical) {n} : (h.pwmFree n).Canonical := ok.each fun _ _ ok => ok.putBit.ite ok

theorem execTcuSrcWrite (ok : s.hw.Canonical) {n v a} : NextCanonical (Machine.execTcuSrcWrite n v a s) :=
  ok.run fun _ ok => ok.busWrite fun _ ok => ok.refuse.ite (ok.rebase.storeReg.sourceChanged.ifThen fun
      ok => ok.pwmFree)

/-! ### `Sys2Proof/Machine/Health.lean` -/

theorem engineReady (ok : h.Canonical) {e} : (h.engineReady e).Canonical := ok.engBecomes

theorem judged (ok : h.Canonical) {e r} : (h.judged e r).Canonical :=
  ok.ite (ok.wr.raise.retireEngine.ite (ok.wr.wr.engineReady.ite ok.wr.wr.raise.raise.retireEngine))

theorem execStartupTest (ok : s.hw.Canonical) {pd8 res} : NextCanonical (Machine.execStartupTest pd8 res s) :=
  ok.run fun _ ok => ok.ite (ok.each fun _ _ ok => ok.judged).putBit

theorem execSpareRota (ok : s.hw.Canonical) : NextCanonical (Machine.execSpareRota s) := by
  unfold Machine.execSpareRota
  refine ok.run fun _ ok => .ite ok ?_
  dsimp only
  split
  exacts [ok.frame, ok.frame.ite (ok.frame.ite ok.frame.setEngState.put)]

theorem execDailies (ok : s.hw.Canonical) : NextCanonical (Machine.execDailies s) :=
  ok.run fun _ ok => ok.ite ((ok.inc.each fun _ _ ok => ok.wr).frame.bind fun ok => ok.raise.hand.ite
      ok.raise)

/-! ### `Sys2Proof/Machine/Jobs.lean` -/

theorem setJobs (ok : h.Canonical) {q l} : (h.setJobs q l).Canonical := ok.frame.put

theorem execJobSubmit (ok : s.hw.Canonical) {q v a} : NextCanonical (Machine.execJobSubmit q v a s) :=
  ok.run fun _ ok => ok.busWrite fun _ ok => ok.refuse.ite (ok.refuse.ite ok.setJobs)

theorem jobDone (ok : h.Canonical) {q j d code} : (h.jobDone q j d code).Canonical :=
  ok.memWrite.setJobs.incF.raiseIf

theorem runJob (ok : h.Canonical) {q op f} (hf : ∀ d j g, g.Canonical → (f d j g).2.Canonical) :
    (h.runJob q op f).Canonical := by
  unfold Hw.runJob
  refine ok.ite ?_
  split
  · exact ok
  · split
    · next e => exact (ok.memRead.snd e).setJobs.incF
    · next e =>
      have ok := ok.memRead.snd e
      exact ok.jobDone.ite (ok.ite (hf _ _ _ ok).jobDone)

theorem jobOut (ok : h.Canonical) {addr bs j} : (h.jobOut addr bs j).2.Canonical := ok.memWrite

theorem jobIn (ok : h.Canonical) {addr n j f} (hf : ∀ bs g, g.Canonical → (f bs g).2.Canonical) :
    (h.jobIn addr n j f).2.Canonical := by
  unfold Hw.jobIn
  split
  · next e => exact ok.memRead.snd e
  · next e => exact hf _ _ (ok.memRead.snd e)

theorem execCryAes (ok : s.hw.Canonical) {q} : NextCanonical (Machine.execCryAes q s) := by
  unfold Machine.execCryAes
  refine ok.run fun _ ok => ok.runJob fun _ _ _ ok => .ite_snd ok ?_
  split
  · exact ok
  · exact ok.jobIn fun _ _ ok => ok.jobOut.ite_snd (ok.jobIn fun _ _ ok => ok.jobOut.ite_snd
      (ok.jobOut.ite_snd ((ok.jobOut.jobOut.ite_snd ok.jobOut).ite_snd (ok.jobOut.ite_snd ok.jobOut))))

theorem execCrySha (ok : s.hw.Canonical) {q} : NextCanonical (Machine.execCrySha q s) :=
  ok.run fun _ ok => ok.runJob fun _ _ _ ok => ok.ite_snd (ok.jobIn fun _ _ ok => ok.jobOut)

theorem execCryHmac (ok : s.hw.Canonical) {q} : NextCanonical (Machine.execCryHmac q s) := by
  unfold Machine.execCryHmac
  refine ok.run fun _ ok => ok.runJob fun _ _ _ ok => .ite_snd ok ?_
  split
  exacts [ok, ok.jobIn fun _ _ ok => ok.jobOut]

theorem execCryCmac (ok : s.hw.Canonical) {q} : NextCanonical (Machine.execCryCmac q s) := by
  unfold Machine.execCryCmac
  refine ok.run fun _ ok => ok.runJob fun _ _ _ ok => ?_
  split
  exacts [ok, ok.jobIn fun _ _ ok => ok.jobOut.ite_snd (ok.jobIn fun _ _ ok => ok)]

theorem execEcdsaSign (ok : s.hw.Canonical) {q} : NextCanonical (Machine.execEcdsaSign q s) := by
  unfold Machine.execEcdsaSign
  refine ok.run fun _ ok => ok.runJob fun _ _ _ ok => .ite_snd ok ?_
  split
  exacts [ok, ok.ite_snd (ok.jobIn fun _ _ ok => ok.freeBytes.jobOut)]

theorem execEcdsaVerify (ok : s.hw.Canonical) {q} : NextCanonical (Machine.execEcdsaVerify q s) :=
  ok.run fun _ ok => ok.runJob fun _ _ _ ok => ok.ite_snd (ok.jobIn fun _ _ ok => ok.jobIn fun _ _ ok
      => ok)

theorem execEd25519Sign (ok : s.hw.Canonical) {q} : NextCanonical (Machine.execEd25519Sign q s) := by
  unfold Machine.execEd25519Sign
  refine ok.run fun _ ok => ok.runJob fun _ _ _ ok => .ite_snd ok ?_
  split
  exacts [ok, ok.ite_snd (ok.jobIn fun _ _ ok => ok.jobOut)]

theorem execEd25519Verify (ok : s.hw.Canonical) {q} : NextCanonical (Machine.execEd25519Verify q s) :=
  ok.run fun _ ok => ok.runJob fun _ _ _ ok => ok.ite_snd (ok.jobIn fun _ _ ok => ok.jobIn fun _ _ ok
      => ok)

/-! ### `Sys2Proof/Machine/Takes.lean` -/

theorem takeDrain (ok : h.Canonical) {p which} : (h.takeDrain p which).Canonical :=
  ok.foldl fun _ _ ok => ok.poolWrite.ite ok

theorem takeLoad (ok : h.Canonical) {base area snap l start} : (h.takeLoad base area snap l start).Canonical :=
  (ok.frame.foldl fun _ _ ok => ok.takeDrain).setRelState.frame

theorem takeStart (ok : h.Canonical) : h.takeStart.Canonical := by
  unfold Hw.takeStart
  refine .ite ok.put ?_
  dsimp only
  split
  · exact ok.put
  · split
    exacts [ok.put, ok.put.takeLoad.ite ok.put]

theorem execTakeGo (ok : s.hw.Canonical) {v a} : NextCanonical (Machine.execTakeGo v a s) :=
  ok.run fun _ ok => ok.busWrite fun _ ok => ok.putBit.ite (ok.refuse.ite (ok.refuse.ite
      ok.putBit.takeStart))

theorem takeTask (ok : h.Canonical) {eng seq t} : (h.takeTask eng seq t).Canonical :=
  ok.setTaskState.ite (ok.dropRun.setTask.ifThen fun ok => ok.startRun)

theorem takeLatch (ok : h.Canonical) {x r} : (h.takeLatch x r).Canonical :=
  (ok.foldl fun _ _ ok => ok.applyForces).frame.setCad.poolWriteAt.wr.foldl fun _ _ ok => ok.takeTask

theorem takeDiverge (ok : h.Canonical) {c t} : (h.takeDiverge c t).Canonical := (ok.wr.ite ok).satF.raise

theorem takeStop (ok : h.Canonical) : h.takeStop.Canonical :=
  (ok.foldl fun _ _ ok => (ok.foldl fun _ _ ok =>
      ok.dropRun.setTask).setCad).putBit.setRelState.frame.trimKept

theorem commitTake {x : CommitAcc} (ok : x.hw.Canonical) {w} : (x.take w).hw.Canonical := by
  unfold CommitAcc.take
  refine ite_hw ?equal (ite_hw ok.setTask.setLast.setTaskState ?_)
  case equal =>
    refine commitEqual (x := ⟨_, _, _, _⟩) ?_
    exact ok.setTask
  exact ite_hw ok.dropRun.setTask.setTaskState.noteSafe ok.dropRun.setTask.setLast

theorem takeCommit (ok : h.Canonical) {c p} : (h.takeCommit c p).Canonical := by
  unfold Hw.takeCommit
  dsimp only
  refine .bind (.trimKept (.setCad (.wr (.raiseG (.inc (.foldl ?_ fun _ _ ok => ok.poolWrite)))))) fun ok => ok.ite ?_
  · exact foldl_hw ok fun _ _ ok => ok.commitTake
  · exact ok.takeDiverge.takeStop.ite ok.takeDiverge

theorem takeForce (ok : h.Canonical) {p} : (h.takeForce p).Canonical :=
  (ok.each fun _ _ ok => ok.wr).frame.frcCounts

theorem takeBank (ok : h.Canonical) {p} : (h.takeBank p).Canonical := ok.foldl fun _ _ ok => ok.putBit.wr

theorem takeRecord (ok : h.Canonical) {x r rest} : (h.takeRecord x r rest).Canonical := by
  unfold Hw.takeRecord
  refine .ite ok.put.takeStop (.ite ok ?_)
  dsimp only
  split
  · exact ok.frame.takeCommit.ite ok.frame
  · exact ok.frame.takeDrain
  · exact ok.frame.takeForce
  · exact ok.frame.takeBank
  · exact ok.frame

theorem execTakeCycle (ok : s.hw.Canonical) : NextCanonical (Machine.execTakeCycle s) := by
  unfold Machine.execTakeCycle
  refine ok.run fun _ ok => ?_
  split
  · exact ok
  · split
    · exact ok.takeLatch
    · split
      exacts [ok, ok.ite ok.takeRecord]

theorem execTakeEnd (ok : s.hw.Canonical) : NextCanonical (Machine.execTakeEnd s) := by
  unfold Machine.execTakeEnd
  refine ok.run fun _ ok => ?_
  split
  · exact ok
  · split
    exacts [ok.takeStop.raise, ok.takeStop.raise.ite ok]

/-! ### `Sys2Proof/Machine/RegRead.lean` -/

theorem ceBusy (ok : h.Canonical) {e} : (h.ceBusy e).2.Canonical := ok.freeWord.ite_snd ok

theorem readValue (ok : h.Canonical) {k a} : (h.readValue k a).2.Canonical := by
  unfold Hw.readValue
  dsimp only
  split
  exacts [ok, ok.ite_snd (ok.ite_snd (ok.ite_snd (ok.holdLeft.ite_snd (ok.ceBusy.ite_snd ok))))]

theorem readAt (ok : h.Canonical) {k a} : (h.readAt k a).Canonical := by
  unfold Hw.readAt
  refine .ite ?_ ?_
  · split
    · next e =>
        split
        · next e' => exact ((ok.readValue.snd e).readValue.snd e').frame.answer
  · split
    · exact ok.frame.answer
    · split
      · next e' => exact (ok.readValue.snd e').answer

theorem asHw (ok : h.Canonical) {f} (hf : ∀ s, s.hw.Canonical → NextCanonical (f s)) : (h.asHw f).Canonical := by
  have k := hf { hw := h } ok
  unfold Hw.asHw
  split
  · next e => rwa [e] at k
  · exact ok

theorem regAccess (ok : h.Canonical) {addr width a f} (hf : ∀ k g, g.Canonical → (f k g).Canonical) :
    (h.regAccess addr width a f).Canonical := by
  unfold Hw.regAccess
  split
  · exact ok.errResp
  · exact (hf _ _ ok).ite (ok.ite (ok.errResp.ite (ok.capture.errResp.ite ok.capture.errResp)))

theorem regRead (ok : h.Canonical) {addr width a} : (h.regRead addr width a).Canonical :=
  ok.regAccess fun _ _ ok => (ok.asHw fun _ ok => ok.execKeyRngRead).ite (ok.access fun _ ok =>
      ok.readAt)

theorem execLowerRegisterRead (ok : s.hw.Canonical) {r a} :
    NextCanonical (Machine.execLowerRegisterRead r a s) :=
  ok.run fun _ ok => ok.regRead

theorem execUpperRegisterRead (ok : s.hw.Canonical) {r a} :
    NextCanonical (Machine.execUpperRegisterRead r a s) :=
  ok.run fun _ ok => ok.regRead

/-! ### `Sys2Proof/Machine/RegWrite.lean` -/

theorem plain (ok : h.Canonical) {k v a} : (h.plain k v a).Canonical := ok.busWrite fun _ ok => ok.storeReg

theorem checked (ok : h.Canonical) {k v a code f} (hf : ∀ g, g.Canonical → (f g).Canonical) :
    (h.checked k v a code f).Canonical := by
  refine ok.busWrite fun g ok => ?_
  split
  exacts [ok.refuse, hf _ ok.storeReg]

theorem unitPorts (ok : h.Canonical) {was} : (Hw.unitPorts was h).Canonical :=
  ok.foldl fun _ _ ok => ok.linkResumed.ite (ok.linkHeld.ite ok)

theorem headerWrite (ok : h.Canonical) {page o v a} : (h.headerWrite page o v a).Canonical := by
  unfold Hw.headerWrite
  dsimp only
  split
  · exact ok.asHw fun _ ok => ok.execWorldWrite
  · exact (ok.asHw fun _ ok => ok.execCanEnable).ite ((ok.asHw fun _ ok => ok.execRelEnable).ite
      (ok.busWrite fun _ ok => ok.storeReg.unitPorts.ifThen fun ok => ok.putBit))
  · exact ok.busWrite fun _ ok => ok.wr.newEdges
  · exact ok.asHw fun _ ok => ok.execEvtClrWrite
  · exact ok.asHw fun _ ok => ok.execEvtSetWrite
  · exact ok.asHw fun _ ok => ok.execErrCapClear
  · exact ok.asHw fun _ ok => ok.execLockWrite
  · exact ok.plain

theorem systemWrite (ok : h.Canonical) {blk k o v a} : (h.systemWrite blk k o v a).Canonical := by
  unfold Hw.systemWrite
  split
  · exact (ok.asHw fun _ ok => ok.execSysResetReq).ite ((ok.asHw fun _ ok => ok.execSysWdog).ite
      ((ok.checked fun _ ok => ok.frame.ite ok).ite ok.plain))
  · refine .ite (ok.asHw fun _ ok => ok.execPwrOn) (.ite (ok.asHw fun _ ok => ok.execPwrOff) ?_)
    split
    · exact ok.asHw fun _ ok => ok.execPwrClkOff
    · split
      exacts [ok.asHw fun _ ok => ok.execPwrClkOn, ok.plain]
  · exact (ok.checked fun _ ok => ok).ite ((ok.asHw fun _ ok => ok.execSupCntClr).ite ok.plain)
  · split
    exacts [ok.asHw fun _ ok => ok.execEvrRouteWrite, ok.plain]

theorem bootWrite (ok : h.Canonical) {k v a} : (h.bootWrite k v a).Canonical :=
  (ok.asHw fun _ ok => ok.execBootPkRev).ite ((ok.asHw fun _ ok => ok.execBootRecover).ite ((ok.busWrite fun
      _ ok => ok.flCommand).ite ((ok.asHw fun _ ok => ok.execUpdateGo).ite ((ok.asHw fun _ ok =>
      ok.execActArm).ite ((ok.asHw fun _ ok => ok.execBootRcvCommit).ite (ok.checked fun _ ok => ok))))))

theorem twnWrite (ok : h.Canonical) {k o v a} : (h.twnWrite k o v a).Canonical :=
  (ok.asHw fun _ ok => ok.execTwnEnable).ite ((ok.asHw fun _ ok => ok.execTwnDeclare).ite ((ok.asHw fun _
      ok => ok.execTwnResync).ite ((ok.asHw fun _ ok => ok.execTwnCntClr).ite (ok.checked fun _ ok =>
      ok))))

theorem tcuWrite (ok : h.Canonical) {k o v a} : (h.tcuWrite k o v a).Canonical := by
  unfold Hw.tcuWrite
  refine .ite (ok.asHw fun _ ok => ok.execTcuBaseTickWrite) ?_
  split
  · exact ok.plain
  · split
    · exact ok.asHw fun _ ok => ok.execTcuSrcWrite
    · exact ok.checked fun _ ok => ok
    · exact ok.checked fun _ ok => ok.slewLimit
    · exact ok.plain

theorem cueWrite (ok : h.Canonical) {k v a} : (h.cueWrite k v a).Canonical :=
  (ok.asHw fun _ ok => ok.execCueIdxWrite).ite ((ok.asHw fun _ ok => ok.execCueW3Write).ite ((ok.asHw fun _
      ok => ok.execCueSwapRequest).ite ((ok.asHw fun _ ok => ok.execCueCopy).ite ((ok.asHw fun _ ok =>
      ok.execCueCntClr).ite ok.plain))))

theorem taskOff (ok : h.Canonical) {t} : (h.taskOff t).Canonical := ok.dropRun.setTask.put.setTaskState

theorem taskWrite (ok : h.Canonical) {t w v a} : (h.taskWrite t w v a).Canonical :=
  ok.busWrite fun _ ok => ok.refuse.ite (ok.refuse.ite (ok.taskOff.putBit.ite ((ok.refuse.ite
      ok.storeReg.setTask).ite ok.storeReg)))

theorem ceaWrite (ok : h.Canonical) {k o v a} : (h.ceaWrite k o v a).Canonical := by
  unfold Hw.ceaWrite
  refine .ite (ok.asHw fun _ ok => ok.execCeaTaskRestart) (.ite (ok.asHw fun _ ok => ok.execCeaReplace)
      (.ite (ok.busWrite fun _ ok => ok.wr.newEdges) (.ite (ok.asHw fun _ ok => ok.execEvtClrWrite) (.ite
      (ok.asHw fun _ ok => ok.execEvtSetWrite) ?_))))
  split
  · exact (ok.asHw fun _ ok => ok.execCadenceEnable).ite (ok.checked fun _ ok => ok)
  · split
    · exact ok.taskWrite
    · split
      exacts [ok.asHw fun _ ok => ok.execPduEntryWrite, ok.plain]

theorem pgmWrite (ok : h.Canonical) {k o v a} : (h.pgmWrite k o v a).Canonical := by
  unfold Hw.pgmWrite
  split
  exacts [(ok.asHw fun _ ok => ok.execBankWrite).ite ok.plain, ok.plain]

theorem frcWrite (ok : h.Canonical) {k o v a} : (h.frcWrite k o v a).Canonical := by
  unfold Hw.frcWrite
  refine .ite (ok.asHw fun _ ok => ok.execFrcPermitWrite) (.ite (ok.busWrite fun _ ok => ok.storeReg.frame)
      (.ite (ok.busWrite fun _ ok => ok.chgCtrlWrite) (.ite (ok.checked fun _ ok => ok) ?_)))
  split
  exacts [(ok.asHw fun _ ok => ok.execForceWrite).ite ok.plain, ok.plain]

theorem dbgWrite (ok : h.Canonical) {k o v a} : (h.dbgWrite k o v a).Canonical := by
  unfold Hw.dbgWrite
  refine .ite (ok.busWrite fun _ ok => ok.dbgAttachWrite) (.ite (ok.busWrite fun _ ok => ok.dbgHaltWrite)
      ?_)
  split
  exacts [ok.asHw fun _ ok => ok.execDbgRegisterWrite, ok.plain]

theorem swcWrite (ok : h.Canonical) {k o v a} : (h.swcWrite k o v a).Canonical := by
  unfold Hw.swcWrite
  refine .ite (ok.asHw fun _ ok => ok.execSwcCntClr) (.ite (ok.checked fun _ ok => ok) (.ite (ok.checked fun
      _ ok => ok) ?_))
  split
  · split
    · exact ok.checked fun _ ok => ok.lagSync
    · exact ok.busWrite fun _ ok => ok.refuse.ite ok.touch.storeReg.settle
    · exact ok.plain
  · exact ok.plain

theorem grnWrite (ok : h.Canonical) {k o v a} : (h.grnWrite k o v a).Canonical :=
  (ok.asHw fun _ ok => ok.execGrnCntClr).ite ((ok.busWrite fun _ ok => ok.refuse.ite
      ok.storeReg.grnSync).ite ((ok.busWrite fun _ ok => ok.storeReg.grnSync.raiseIf).ite ok.plain))

theorem loftWrite (ok : h.Canonical) {k o v a} : (h.loftWrite k o v a).Canonical :=
  (ok.asHw fun _ ok => ok.execLoftCntClr).ite ((ok.busWrite fun _ ok => ok.refuse.ite (ok.refuse.ite
      (ok.refuse.ite ok.storeReg))).ite ((ok.checked fun _ ok => ok).ite ((ok.checked fun _ ok => ok).ite
      ok.plain)))

theorem tableWrite (ok : h.Canonical) {k v a} : (h.tableWrite k v a).Canonical := by
  unfold Hw.tableWrite
  refine .ite ?_ (.ite ?_ (.ite ?_ ((ok.checked fun _ ok => ok).ite ((ok.checked fun _ ok => ok).ite
      ok.plain))))
  · split
    · exact ok.asHw fun _ ok => ok.execFdbRead
    · exact ok.asHw fun _ ok => ok.execFdbWrite
    · exact ok.asHw fun _ ok => ok.execFdbLookup
    · exact ok.asHw fun _ ok => ok.execFdbDelete
    · exact ok.asHw fun _ ok => ok.execFdbFlushFid
    · exact ok.asHw fun _ ok => ok.execFdbFlushPort
    · exact ok.busWrite fun _ ok => ok.refuse
  · split
    · exact ok.asHw fun _ ok => ok.execStrmRead
    · exact ok.asHw fun _ ok => ok.execStrmWrite
    · exact ok.asHw fun _ ok => ok.execStrmLookup
    · exact ok.asHw fun _ ok => ok.execStrmDelete
    · exact ok.busWrite fun _ ok => ok.refuse
  · split
    · exact ok.asHw fun _ ok => ok.execMsecRead
    · exact ok.asHw fun _ ok => ok.execMsecWrite
    · exact ok.asHw fun _ ok => ok.execMsecDelete
    · exact ok.busWrite fun _ ok => ok.refuse

theorem ethPageWrite (ok : h.Canonical) {p o v a} : (h.ethPageWrite p o v a).Canonical := by
  unfold Hw.ethPageWrite
  refine .ite (ok.asHw fun _ ok => ok.execEthCntClr) (.ite (ok.busWrite fun _ ok => ok) ?_)
  split
  exacts [(ok.asHw fun _ ok => ok.execPtpInstanceEnable).ite ok.plain, ok.ethWrite]

theorem canPageWrite (ok : h.Canonical) {n o v a} : (h.canPageWrite n o v a).Canonical := by
  unfold Hw.canPageWrite
  refine .ite (ok.asHw fun _ ok => ok.execCanRecov) (.ite (ok.asHw fun _ ok => ok.execCanTxreq) (.ite
      (ok.asHw fun _ ok => ok.execCanCntClr) ?_))
  split
  · exact ok.asHw fun _ ok => ok.execCanObjectWrite
  · refine .ite (ok.busWrite fun _ ok => ok.refuse.ite ok.setCan) (.ite (ok.busWrite fun _ ok => ok)
      (ok.busWrite fun _ ok => ?_))
    split
    exacts [ok.refuse, ok.storeReg]

theorem zoneWrite (ok : h.Canonical) {k o v a} : (h.zoneWrite k o v a).Canonical := by
  unfold Hw.zoneWrite
  refine .ite (ok.asHw fun _ ok => ok.execRioCntClr) (.ite (ok.asHw fun _ ok => ok.execTunCntClr) ?_)
  split
  · exact ok.plain
  · exact (ok.checked fun _ ok => ok.routeStored).ite ((ok.asHw fun _ ok => ok.execStationEnable).ite
      (ok.checked fun _ ok => ok))

theorem nmuWrite (ok : h.Canonical) {k o v a} : (h.nmuWrite k o v a).Canonical := by
  unfold Hw.nmuWrite
  refine .ite (ok.asHw fun _ ok => ok.execNmuVoteWrite) ?_
  split
  · exact (ok.asHw fun _ ok => ok.execNmChannelEnable).ite (ok.checked fun _ ok => ok)
  · refine ok.busWrite fun _ ok => ?_
    split
    exacts [ok.refuse, ok.storeReg.wakeIoEnds]

theorem spnWrite (ok : h.Canonical) {k o v a} : (h.spnWrite k o v a).Canonical := by
  unfold Hw.spnWrite
  refine .ite (ok.asHw fun _ ok => ok.execSpanLinkEnable) (.ite (ok.asHw fun _ ok => ok.execSpnElogRdWrite)
      ?_)
  split
  · exact ok.asHw fun _ ok => ok.execSpnFlush
  · split
    · exact ok.checked fun _ ok => ok
    · split
      exacts [ok.checked fun _ ok => ok, ok.checked fun _ ok => ok]

theorem pssWrite (ok : h.Canonical) {k o v a} : (h.pssWrite k o v a).Canonical := by
  unfold Hw.pssWrite
  refine .ite (ok.asHw fun _ ok => ok.execPssHb) (.ite (ok.asHw fun _ ok => ok.execPssRelease) (.ite
      (ok.asHw fun _ ok => ok.execMapProg) (.ite (ok.busWrite fun _ ok => ok.takeCtrlWrite) ?_)))
  split
  exacts [ok.asHw fun _ ok => ok.execPssTakeWrite, ok.checked fun _ ok => ok]

theorem channelWrite (ok : h.Canonical) {blk i k o v a} : (h.channelWrite blk i k o v a).Canonical := by
  unfold Hw.channelWrite
  split
  · split
    · exact ok.plain
    · dsimp only
      split
      · exact ok.asHw fun _ ok => ok.execPwmConfigWrite
      · exact ok.asHw fun _ ok => ok.execPchCmdWrite
      · exact ok.asHw fun _ ok => ok.execRearm
      · refine ok.busWrite fun _ ok => ?_
        split
        exacts [ok.refuse, ok.storeReg]
  · split
    · exact ok.asHw fun _ ok => ok.execProfileWrite
    · exact (ok.checked fun _ ok => ok.ambConfigured).ite (ok.checked fun _ ok => ok)
  · split
    exacts [ok.checked fun _ ok => ok, ok.plain]

theorem memoryWrite (ok : h.Canonical) {blk i k o v a} : (h.memoryWrite blk i k o v a).Canonical := by
  unfold Hw.memoryWrite
  split
  · refine .ite (ok.asHw fun _ ok => ok.execT0PoolWrite) ?_
    split
    exacts [ok.checked fun _ ok => ok.rveSync, ok.checked fun _ ok => ok.rveSync]
  · exact (ok.asHw fun _ ok => ok.execXltInvalidate).ite (ok.checked fun _ ok => ok)
  · split
    exacts [ok.plain, (ok.busWrite fun _ ok => ok.dmaCtrl).ite (ok.checked fun _ ok => ok)]
  · exact (ok.asHw fun _ ok => ok.execMemcCntClr).ite (ok.checked fun _ ok => ok)

theorem wgtWrite (ok : h.Canonical) {k o v a} : (h.wgtWrite k o v a).Canonical := by
  unfold Hw.wgtWrite
  refine .ite (ok.asHw fun _ ok => ok.execWgtDeny) (.ite (ok.asHw fun _ ok => ok.execHoldMarkWrite) (.ite
      (ok.checked fun _ ok => ok) (.ite (ok.checked fun _ ok => ok) ?_)))
  split
  · exact ok.asHw fun _ ok => ok.execHoldMarkWrite
  · split
    exacts [ok.checked fun _ ok => ok, ok.plain]

theorem keyWrite (ok : h.Canonical) {k v a} : (h.keyWrite k v a).Canonical := by
  unfold Hw.keyWrite
  refine .ite ?_ ((ok.asHw fun _ ok => ok.execLcsAdvance).ite ((ok.asHw fun _ ok => ok.execRngRestart).ite
      ok.plain))
  split
  · exact ok.asHw fun _ ok => ok.execGenerate
  · exact ok.asHw fun _ ok => ok.execDerive
  · exact ok.asHw fun _ ok => ok.execKeyImport
  · exact ok.asHw fun _ ok => ok.execKeyExport
  · exact ok.asHw fun _ ok => ok.execClear
  · exact ok.asHw fun _ ok => ok.execRevoke
  · exact ok.asHw fun _ ok => ok.execNarrow
  · exact ok.asHw fun _ ok => ok.execPubkey
  · exact ok.asHw fun _ ok => ok.execPersistSave
  · exact ok.asHw fun _ ok => ok.execPersistLoad
  · exact ok.asHw fun _ ok => ok.execPersistCheck
  · exact ok.asHw fun _ ok => ok.execChallenge
  · exact ok.asHw fun _ ok => ok.execEnrol
  · exact ok.keyCommand fun _ ok => ok

theorem cryptoWrite (ok : h.Canonical) {blk i k o v a} : (h.cryptoWrite blk i k o v a).Canonical := by
  unfold Hw.cryptoWrite
  split
  · refine .ite (ok.busWrite fun _ ok => ok.frame) ?_
    split
    exacts [(ok.asHw fun _ ok => ok.execJobSubmit).ite ok.plain, ok.plain]
  · dsimp only
    split
    · exact ok.asHw fun _ ok => ok.execCvuCfgWrite
    · exact ok.asHw fun _ ok => ok.execCvuStart
    · exact ok.asHw fun _ ok => ok.execCvuData
    · exact ok.asHw fun _ ok => ok.execCvuData
    · exact ok.asHw fun _ ok => ok.execCvuData
    · exact ok.asHw fun _ ok => ok.execCvuExpect
    · exact ok.asHw fun _ ok => ok.execCvuAliveIn
    · exact ok.plain

theorem vptWrite (ok : h.Canonical) {k o v a} : (h.vptWrite k o v a).Canonical := by
  unfold Hw.vptWrite
  refine .ite ?_ ?_
  · split
    · exact ok.asHw fun _ ok => ok.execFreeze
    · exact ok.asHw fun _ ok => ok.execThaw
    · exact ok.asHw fun _ ok => ok.execSave
    · exact ok.asHw fun _ ok => ok.execRestore
    · exact ok.asHw fun _ ok => ok.execClearCounters
    · exact ok.busWrite fun _ ok => ok.refuse
  · split
    · exact ok.busWrite fun _ ok => ok.vpWrite_
    · split
      · exact (ok.asHw fun _ ok => ok.execTxDoorbell).ite (ok.asHw fun _ ok => ok.execRxDoorbell)
      · exact ok.plain

theorem relPageWrite (ok : h.Canonical) {k o v a} : (h.relPageWrite k o v a).Canonical :=
  (ok.asHw fun _ ok => ok.execRelTrigSw).ite ((ok.asHw fun _ ok => ok.execRelRearm).ite ((ok.asHw fun _ ok
      => ok.execDump).ite ((ok.asHw fun _ ok => ok.execTakeGo).ite ((ok.checked fun _ ok => ok).ite
      ((ok.busWrite fun _ ok => ok.refuse.ite (ok.refuse.ite ok.storeReg)).ite ok.plain)))))

theorem writeAt (ok : h.Canonical) {k v a} : (h.writeAt k v a).Canonical := by
  unfold Hw.writeAt
  dsimp only
  split
  · exact ok.access fun _ ok => ok
  · refine .ite ok.headerWrite ?_
    split
    · exact ok.systemWrite
    · exact ok.systemWrite
    · exact ok.systemWrite
    · exact ok.systemWrite
    · exact ok.bootWrite
    · exact ok.plain
    · exact ok.plain
    · exact ok.twnWrite
    · exact ok.tcuWrite
    · exact ok.cueWrite
    · exact ok.ceaWrite
    · exact (ok.asHw fun _ ok => ok.execImpCntClr).ite ok.plain
    · exact ok.pgmWrite
    · exact ok.frcWrite
    · exact ok.dbgWrite
    · exact ok.swcWrite
    · exact ok.grnWrite
    · exact ok.loftWrite
    · exact ok.tableWrite
    · exact ok.tableWrite
    · exact ok.tableWrite
    · exact ok.ethPageWrite
    · exact ok.canPageWrite
    · exact ok.checked fun _ ok => ok.ite ok.linLatch
    · exact ok.nmuWrite
    · exact ok.zoneWrite
    · exact ok.zoneWrite
    · exact ok.spnWrite
    · exact ok.pssWrite
    · exact ok.channelWrite
    · exact ok.channelWrite
    · exact ok.channelWrite
    · exact ok.memoryWrite
    · exact ok.memoryWrite
    · exact ok.memoryWrite
    · exact ok.memoryWrite
    · exact ok.wgtWrite
    · exact ok.keyWrite
    · exact ok.cryptoWrite
    · exact ok.cryptoWrite
    · exact ok.vptWrite
    · exact ok.relPageWrite

theorem regWrite (ok : h.Canonical) {addr width v a} : (h.regWrite addr width v a).Canonical :=
  ok.regAccess fun _ _ ok => ok.writeAt

theorem execRegisterWrite (ok : s.hw.Canonical) {addr width v a} :
    NextCanonical (Machine.execRegisterWrite addr width v a s) :=
  ok.run fun _ ok => ok.regWrite

/-! ### `Sys2Proof/Machine/Dma.lean` -/

theorem quiet (ok : h.Canonical) {old} : (Hw.quiet old h).Canonical := ok.frame

theorem spanTrip (ok : h.Canonical) {addr o n data a got fin} :
    (h.spanTrip addr o n data a got fin).2.Canonical := by
  unfold Hw.spanTrip
  extract_lets out ends
  have answered : out.Canonical := ok.outbound
  have ended {g x} (ok : g.Canonical) : (ends g x).2.Canonical := by
    unfold ends
    split
    exacts [ok, ok.spanFails, ok.spanFails, ok.spanFails, ok.spanFails]
  split
  · exact ended answered.frame.spanSync
  · split
    · split
      · exact ended answered.frame.spanOut
      · exact answered
    · exact answered.ite_snd answered

theorem reach (ok : h.Canonical) {addr n a ecc got fin} : (h.reach addr n a ecc got fin).2.Canonical := by
  unfold Hw.reach
  refine .ite_snd ok.regRead.quiet ?_
  split
  · refine .ite_snd ok.gateRefused (.ite_snd ok ?_)
    split
    · next e => exact (ok.spanTrip.snd e).quiet
    · next e => exact (ok.spanTrip.snd e).quiet
  · split
    · next e' => exact ok.memRead.snd e'
    · next e' => exact (ok.memRead.snd e').ifThen fun ok => ok.memcError
  · exact ok

theorem put_ (ok : h.Canonical) {addr bs a fin} : (h.put_ addr bs a fin).2.Canonical := by
  unfold Hw.put_
  refine ok.regWrite.quiet.ite_snd (.ite_snd (.ite_snd ?file ok) ?_)
  case file => dsimp only; exact ok.fileWrite
  split
  · refine ok.gateRefused.ite_snd (ok.ite_snd ?_)
    split
    · next e => exact (ok.spanTrip.snd e).quiet
    · next e => exact (ok.spanTrip.snd e).quiet
  · exact ok.memWrite

theorem dmaBus (ok : h.Canonical) {d c va write} : (h.dmaBus d c va write).2.Canonical :=
  ok.translate.ite_snd (ok.ite_snd ok)

theorem dmaRead (ok : h.Canonical) {d c va n ecc got fin} : (h.dmaRead d c va n ecc got fin).2.Canonical := by
  unfold Hw.dmaRead
  split
  · next e => exact ok.dmaBus.snd e
  · next e => exact (ok.dmaBus.snd e).reach

theorem dmaWrite (ok : h.Canonical) {d c va bs fin} : (h.dmaWrite d c va bs fin).2.Canonical := by
  unfold Hw.dmaWrite
  split
  · next e => exact ok.dmaBus.snd e
  · next e => exact (ok.dmaBus.snd e).put_

theorem burstReads (ok : h.Canonical) {d c seen l start} : (h.burstReads d c seen l start).2.2.Canonical := by
  unfold Hw.burstReads
  refine ok.foldl_snd3 fun p a ok => ?_
  dsimp only
  split
  · exact ok
  · split
    · next e => exact ok.dmaRead.snd e
    · next e => exact ok.dmaRead.snd e

theorem burstWrites (ok : h.Canonical) {d c seen l start} : (h.burstWrites d c seen l start).2.2.Canonical := by
  unfold Hw.burstWrites
  refine ok.foldl_snd3 fun p a ok => ?_
  dsimp only
  split
  · exact ok
  · split
    · next e => exact ok.dmaWrite.snd e
    · next e => exact ok.dmaWrite.snd e

theorem dmaReadBurst (ok : h.Canonical) {d c w seen} : (h.dmaReadBurst d c w seen).Canonical := by
  unfold Hw.dmaReadBurst
  dsimp only
  refine ok.burstReads.ite ?_
  split
  exacts [ok.burstReads.setDma, ok.burstReads.setDma.dmaFault]

theorem dmaWriteBurst (ok : h.Canonical) {d c w seen} : (h.dmaWriteBurst d c w seen).Canonical := by
  unfold Hw.dmaWriteBurst
  dsimp only
  split
  · exact ok
  · refine ok.burstWrites.wr.ite ?_
    split
    exacts [ok.burstWrites.wr.setDma, ok.burstWrites.wr.setDma.dmaFault]

theorem dmaRoom (ok : h.Canonical) {d c n} : (h.dmaRoom d c n).Canonical := by
  induction n generalizing h with
  | zero => exact ok
  | succ n ih =>
    unfold Hw.dmaRoom
    refine ok.ite ?_
    dsimp only
    split
    exacts [ok, ih ok.setDma]

theorem dmaAhead (ok : h.Canonical) {d c w l} : (h.dmaAhead d c w l).Canonical := by
  induction l generalizing h with
  | nil => exact ok
  | cons x l ih => exact (ih ok.dmaReadBurst).ite ok

theorem dmaFetch (ok : h.Canonical) {d c seen} : (h.dmaFetch d c seen).Canonical := by
  unfold Hw.dmaFetch
  dsimp only
  split
  · next e => exact (ok.dmaRead.snd e).dmaFault
  · next e => exact (ok.dmaRead.snd e).dmaAborted.ite (ok.dmaRead.snd e).setDma.wr

theorem dmaAges (ok : h.Canonical) {d c ripe} : (h.dmaAges d c ripe).Canonical :=
  ok.each fun _ _ ok => ok.ite (ok.setDma.ite (ok.setDma.ite ok.setDma))

theorem dmaBurst (ok : h.Canonical) {d c rds w} : (h.dmaBurst d c rds w).Canonical := by
  unfold Hw.dmaBurst
  split
  · exact ok.dmaFetch
  · exact (ok.dmaRoom.dmaReadBurst.ite ok).ifElse fun ok => ok.dmaWriteBurst.dmaAhead

theorem execBurstGrant (ok : s.hw.Canonical) {d rds w} : NextCanonical (Machine.execBurstGrant d rds w s) := by
  unfold Machine.execBurstGrant
  refine ok.run fun _ ok => .ite ok ?_
  split
  exacts [ok, ok.dmaAges.dmaBurst]

theorem dmaNext (ok : h.Canonical) {d c w} : (h.dmaNext d c w).Canonical :=
  ok.wr.raiseIf.setDma.dmaEnter.ite ok.wr.raiseIf.wrPair.wr.setDma

theorem execDescriptorDone (ok : s.hw.Canonical) {d c w} :
    NextCanonical (Machine.execDescriptorDone d c w s) := by
  unfold Machine.execDescriptorDone
  refine ok.run fun _ ok => ?_
  dsimp only
  split
  · refine .ite ok ?_
    split
    · next e => exact (ok.dmaWrite.snd e).dmaFault
    · next e => exact (ok.dmaWrite.snd e).dmaNext
  · exact ok

/-! ### `Sys2Proof/Machine/SpanIn.lean` -/

theorem inCompletion (ok : h.Canonical) {tag fn status d} : (h.inCompletion tag fn status d).Canonical :=
  ok.spanOut.ite ok

theorem vfRefused (ok : h.Canonical) {read tag fn} : (h.vfRefused read tag fn).Canonical :=
  ok.inCompletion.ite ok

theorem inRefused (ok : h.Canonical) {win read addr rid tag fn} :
    (h.inRefused win read addr rid tag fn).Canonical :=
  ok.spanLog.raise.spanReport.ifThen fun ok => ok.inCompletion

theorem inGated (ok : h.Canonical) {win read addr rid tag} : (h.inGated win read addr rid tag).Canonical :=
  ok.spanLog.spanReport.ifThen fun ok => ok.inCompletion

theorem inRead (ok : h.Canonical) {bar addr n base rid tag} : (h.inRead bar addr n base rid tag).Canonical := by
  unfold Hw.inRead
  split
  · exact ok.inRefused
  · refine .ite ok.inRefused ?_
    split
    · next e => exact (ok.reach.snd e).inCompletion
    · next e => exact (ok.reach.snd e).inGated

theorem inWrite (ok : h.Canonical) {bar addr d base rid} : (h.inWrite bar addr d base rid).Canonical := by
  unfold Hw.inWrite
  split
  · exact ok.inRefused
  · refine .ite ok.inRefused ?_
    split
    · next e => exact ok.put_.snd e
    · next e => exact (ok.put_.snd e).inGated

theorem vfStore (ok : h.Canonical) {v o x far} : (h.vfStore v o x far).Canonical := by
  unfold Hw.vfStore
  split
  · refine .ite ok ?_
    split
    exacts [ok.vpDoorbell, ok.vpDoorbell, ok]
  · exact ok.msixWrite.ite ok

theorem execInboundRequest (ok : s.hw.Canonical) {q base rid tag} :
    NextCanonical (Machine.execInboundRequest q base rid tag s) := by
  unfold Machine.execInboundRequest
  refine ok.run fun _ ok => .ite ok ?_
  split
  · exact ok.inRead
  · exact ok.inWrite
  · exact ok.inCompletion.ite ok.vfRefused
  · exact ok.vfStore.ite ok.vfRefused
  · exact ok.inRefused.ite ok.msixWrite
  · exact ok.spanLog.spanReport.ifElse fun ok => ok.inCompletion
  · exact ok.spanLog.ite ok

/-! ### `Sys2Proof/Machine/Dispatch.lean` -/

theorem exec (ok : s.hw.Canonical) {i} : NextCanonical (Machine.exec i s) := by
  unfold Machine.exec
  split
  · exact ok.execRegisterWrite
  · exact ok.execLowerRegisterRead
  · exact ok.execUpperRegisterRead
  · exact ok.execEvtClrWrite
  · exact ok.execEvtSetWrite
  · exact ok.execErrCapClear
  · exact ok.execLockWrite
  · exact ok.execWorldWrite
  · exact ok.execTcuBaseTickWrite
  · exact ok.execTcuSrcWrite
  · exact ok.execSourceQualified
  · exact ok.execSourceLost
  · exact ok.execHoldLimitExpiry
  · exact ok.execAngStall
  · exact ok.execCorrectionMeasured
  · exact ok.execSlewDone
  · exact ok.execTimecodeStep
  · exact ok.execCueIdxWrite
  · exact ok.execCueW3Write
  · exact ok.execCueSwapRequest
  · exact ok.execSwapDone
  · exact ok.execCueCopy
  · exact ok.execCopyDone
  · exact ok.execCueCntClr
  · exact ok.execNop
  · exact ok.execLatch
  · exact ok.execImageReady
  · exact ok.execCommit
  · exact ok.execDrainEnd
  · exact ok.execRerunStart
  · exact ok.execRetryWindowEnd
  · exact ok.execEngineSelftest
  · exact ok.execSelftestDone
  · exact ok.execPlacement
  · exact ok.execCeaReplace
  · exact ok.execBgCommit
  · exact ok.execBgRipe
  · exact ok.execCeaTaskRestart
  · exact ok.execCadenceEnable
  · exact ok.execPduFrameRx
  · exact ok.execPduStore
  · exact ok.execPduSend
  · exact ok.execPduEntryWrite
  · exact ok.execBankWrite
  · exact ok.execAlu
  · exact ok.execLogic
  · exact ok.execCmp
  · exact ok.execCvt
  · exact ok.execRnd
  · exact ok.execBool
  · exact ok.execSel
  · exact ok.execBtst
  · exact ok.execBins
  · exact ok.execLi
  · exact ok.execLih
  · exact ok.execAddi
  · exact ok.execLd
  · exact ok.execSt
  · exact ok.execLdx
  · exact ok.execStx
  · exact ok.execLdb
  · exact ok.execStb
  · exact ok.execTcv
  · exact ok.execBr
  · exact ok.execBrk
  · exact ok.execLoop
  · exact ok.execCall
  · exact ok.execRet
  · exact ok.execEndRun
  · exact ok.execTrap
  · exact ok.execPrim
  · exact ok.execChgArm
  · exact ok.execChgCancel
  · exact ok.execForceWrite
  · exact ok.execFrcPermitWrite
  · exact ok.execAuthExpired
  · exact ok.execDbgAttach
  · exact ok.execDbgDetach
  · exact ok.execDbgHalt
  · exact ok.execDbgResume
  · exact ok.execDbgStep
  · exact ok.execDbgRegisterWrite
  · exact ok.execPchCmdWrite
  · exact ok.execPwmPeriodStart
  · exact ok.execPwmAlign
  · exact ok.execShortTrip
  · exact ok.execLimDwellExpiry
  · exact ok.execOvertempShutdown
  · exact ok.execTempRestart
  · exact ok.execRetryReset
  · exact ok.execWireModelUpdate
  · exact ok.execWindowEnd
  · exact ok.execBusDip
  · exact ok.execBusDipEnd
  · exact ok.execBusOverload
  · exact ok.execRearm
  · exact ok.execPchCntClr
  · exact ok.execOlOnDetect
  · exact ok.execOffTestPhase
  · exact ok.execAmbientSample
  · exact ok.execAmbFallback
  · exact ok.execProfileWrite
  · exact ok.execPwmConfigWrite
  · exact ok.execPssHb
  · exact ok.execPssWatchdogExpiry
  · exact ok.execPssRelease
  · exact ok.execPssRestart
  · exact ok.execPssStart
  · exact ok.execHoldWindowEnd
  · exact ok.execLhSample
  · exact ok.execMapProg
  · exact ok.execMapProgDone
  · exact ok.execPssTakeWrite
  · exact ok.execTakeover
  · exact ok.execTakeClr
  · exact ok.execFrameRx
  · exact ok.execLoftWriteDone
  · exact ok.execLoftStage
  · exact ok.execEgressSelect
  · exact ok.execFrameTxDone
  · exact ok.execLinkDown
  · exact ok.execLinkUp
  · exact ok.execGraceExpiry
  · exact ok.execLagRemap
  · exact ok.execFdbAgeing
  · exact ok.execFdbRead
  · exact ok.execFdbWrite
  · exact ok.execFdbLookup
  · exact ok.execFdbDelete
  · exact ok.execFdbFlushFid
  · exact ok.execFdbFlushPort
  · exact ok.execStrmRead
  · exact ok.execStrmWrite
  · exact ok.execStrmLookup
  · exact ok.execStrmDelete
  · exact ok.execSeqRecoveryReset
  · exact ok.execSwcCntClr
  · exact ok.execGrnCntClr
  · exact ok.execLoftCntClr
  · exact ok.execMdioFrame
  · exact ok.execMdioDone
  · exact ok.execCableGo
  · exact ok.execCableTestDone
  · exact ok.execSqiReport
  · exact ok.execTransmitOpportunity
  · exact ok.execPlcaCollision
  · exact ok.execGate
  · exact ok.execHold
  · exact ok.execVerifyTimeout
  · exact ok.execMsecRead
  · exact ok.execMsecWrite
  · exact ok.execMsecDelete
  · exact ok.execPtpInstanceEnable
  · exact ok.execSyncRx
  · exact ok.execSyncInterval
  · exact ok.execSyncReceiptTimeout
  · exact ok.execPdelayExchange
  · exact ok.execTc10SleepRequest
  · exact ok.execTc10SleepNak
  · exact ok.execTc10PartnerSleep
  · exact ok.execTc10Wake
  · exact ok.execEthCntClr
  · exact ok.execCanFrameEnd
  · exact ok.execFrameStore
  · exact ok.execCanTx
  · exact ok.execCanTxreq
  · exact ok.execMacReady
  · exact ok.execArbitrationStart
  · exact ok.execTxOk
  · exact ok.execErrorDetected
  · exact ok.execRecessiveSequence
  · exact ok.execCanRecov
  · exact ok.execAgeDrop
  · exact ok.execCanDisable
  · exact ok.execCanEnable
  · exact ok.execCanObjectWrite
  · exact ok.execCanCntClr
  · exact ok.execLinSlot
  · exact ok.execLinHeaderRx
  · exact ok.execLinResponseEnd
  · exact ok.execSheafRx
  · exact ok.execSegmentRx
  · exact ok.execRioPoll
  · exact ok.execRioSend
  · exact ok.execSheafSend
  · exact ok.execSegmentSend
  · exact ok.execStationEnable
  · exact ok.execRioCntClr
  · exact ok.execTunnelSend
  · exact ok.execNtscfRx
  · exact ok.execPresentationTime
  · exact ok.execTunCntClr
  · exact ok.execNmChannelEnable
  · exact ok.execNmuVoteWrite
  · exact ok.execNmFrameRx
  · exact ok.execNmFrameSend
  · exact ok.execRepeatTimeExpiry
  · exact ok.execNmTimeout
  · exact ok.execPnTimeout
  · exact ok.execWaitSleepExpiry
  · exact ok.execCommitWindowEnd
  · exact ok.execWake
  · exact ok.execWakeSequence
  · exact ok.execWakeInput
  · exact ok.execSelectiveWakeFrame
  · exact ok.execKeepAwake
  · exact ok.execSpanLinkEnable
  · exact ok.execSpanLinkUp
  · exact ok.execOutboundAccess
  · exact ok.execSpnFlush
  · exact ok.execCompletionRx
  · exact ok.execCompletionTimeout
  · exact ok.execInboundRequest
  · exact ok.execSpanLinkDown
  · exact ok.execFlr
  · exact ok.execVfChange
  · exact ok.execMsixSend
  · exact ok.execSpnElogRdWrite
  · exact ok.execEpochEnd
  · exact ok.execUnitMove
  · exact ok.execT0PoolWrite
  · exact ok.execScrub
  · exact ok.execMemcCntClr
  · exact ok.execImpCntClr
  · exact ok.execXltInvalidate
  · exact ok.execInvDone
  · exact ok.execDmaGo
  · exact ok.execDmaTrig
  · exact ok.execDmaEventTrigger
  · exact ok.execBurstGrant
  · exact ok.execDescriptorDone
  · exact ok.execDmaPark
  · exact ok.execDmaResume
  · exact ok.execDmaAbort
  · exact ok.execTxDoorbell
  · exact ok.execRxDoorbell
  · exact ok.execVpFrameGathered
  · exact ok.execVpDeliver
  · exact ok.execVpNotify
  · exact ok.execPortEnable
  · exact ok.execPortRemoved
  · exact ok.execVpFault
  · exact ok.execFreeze
  · exact ok.execThaw
  · exact ok.execSave
  · exact ok.execRestore
  · exact ok.execClearCounters
  · exact ok.execVpRingResize
  · exact ok.execWgtLockAll
  · exact ok.execHoldMarkWrite
  · exact ok.execHoldTimeout
  · exact ok.execWgtDeny
  · exact ok.execMworldWrite
  · exact ok.execGenerate
  · exact ok.execDerive
  · exact ok.execKeyImport
  · exact ok.execKeyExport
  · exact ok.execClear
  · exact ok.execRevoke
  · exact ok.execNarrow
  · exact ok.execPubkey
  · exact ok.execPersistSave
  · exact ok.execPersistLoad
  · exact ok.execPersistCheck
  · exact ok.execChallenge
  · exact ok.execEnrol
  · exact ok.execRootReconstruct
  · exact ok.execRemask
  · exact ok.execRngFail
  · exact ok.execRngRestart
  · exact ok.execKeyRngRead
  · exact ok.execLcsAdvance
  · exact ok.execJobSubmit
  · exact ok.execCryAes
  · exact ok.execCrySha
  · exact ok.execCryHmac
  · exact ok.execCryCmac
  · exact ok.execEcdsaSign
  · exact ok.execEcdsaVerify
  · exact ok.execEd25519Sign
  · exact ok.execEd25519Verify
  · exact ok.execCvuCfgWrite
  · exact ok.execCvuStart
  · exact ok.execCvuData
  · exact ok.execCvuExpect
  · exact ok.execCvuAliveIn
  · exact ok.execTwnEnable
  · exact ok.execHelloSend
  · exact ok.execHelloRx
  · exact ok.execAloneTimeout
  · exact ok.execHeartbeatSend
  · exact ok.execHeartbeatRx
  · exact ok.execHeartbeatMiss
  · exact ok.execImageSegmentRx
  · exact ok.execImageTimeout
  · exact ok.execSignatureSend
  · exact ok.execSignatureRx
  · exact ok.execStateRx
  · exact ok.execTwnDeclare
  · exact ok.execDeclareRx
  · exact ok.execAckRx
  · exact ok.execDeclareDeadline
  · exact ok.execTwnResync
  · exact ok.execExrexLaneLoss
  · exact ok.execTwnCntClr
  · exact ok.execSpareRota
  · exact ok.execStartupTest
  · exact ok.execDailies
  · exact ok.execSlate
  · exact ok.execGap
  · exact ok.execSnapshot
  · exact ok.execSnapEnd
  · exact ok.execTrigger
  · exact ok.execRelTrigSw
  · exact ok.execPostEnd
  · exact ok.execRelRearm
  · exact ok.execRelEnable
  · exact ok.execDump
  · exact ok.execDumpDone
  · exact ok.execTakeGo
  · exact ok.execTakeCycle
  · exact ok.execTakeEnd
  · exact ok.execStageRom
  · exact ok.execLoaderCheck
  · exact ok.execImageCheck
  · exact ok.execUnitReload
  · exact ok.execRecoveryEntry
  · exact ok.execFlashErase
  · exact ok.execFlashProgram
  · exact ok.execFlashVerify
  · exact ok.execFlDone
  · exact ok.execUpdateGo
  · exact ok.execUpdDone
  · exact ok.execActArm
  · exact ok.execActivate
  · exact ok.execBootRecover
  · exact ok.execBootPkRev
  · exact ok.execQuery
  · exact ok.execData
  · exact ok.execRecoveryCommit
  · exact ok.execBootRcvCommit
  · exact ok.execHoldEnter
  · exact ok.execHoldExit
  · exact ok.execVbatHigh
  · exact ok.execIn48Fault
  · exact ok.execVbatPowerOn
  · exact ok.execMainLogicReset
  · exact ok.execResetN
  · exact ok.execResetRelease
  · exact ok.execSysResetReq
  · exact ok.execSysWdog
  · exact ok.execSysWdogExpiry
  · exact ok.execPwrOn
  · exact ok.execPwrOff
  · exact ok.execPwrClkOff
  · exact ok.execPwrClkOn
  · exact ok.execPdDone
  · exact ok.execModuleSleep
  · exact ok.execModuleWake
  · exact ok.execSupCntClr
  · exact ok.execEvrRouteWrite
  · exact ok.execEventDelivery
  · exact ok.execEvtPulse
  · exact ok.execTcCapture
  · exact ok.execSwap
  · exact ok.execAdcBurst
  · exact ok.execBurstComplete
  · exact ok.execTempInputSample
  · exact ok.execVbatLoss
  · exact ok.execVerifyResponseRx
  · exact ok.execTc10SleepAck
  · exact ok.execSpanPerstNChange
  · exact ok.execTxBucketHoldsLength
  · exact ok.execRefreshRateChange

/-! ### `Sys2Proof/Machine/Tick.lean` -/

theorem restartDue (ok : h.Canonical) : h.restartDue.Canonical := by
  unfold Hw.restartDue
  split
  exacts [ok.freeWord.frame.mainReset.ite ok, ok]

theorem tick (ok : h.Canonical) : h.tick.Canonical := ok.passMarks.frame.fireLate.twinTick.restartDue

end Hw.Canonical

/-- A step from a module whose registers are canonical answers a module whose registers are canonical: a command by
`Hw.Canonical.exec`, the passing of a cycle by `Hw.Canonical.tick`. -/
theorem step_nextCanonical {s : State} (ok : s.hw.Canonical) : NextCanonical (step s) := by
  unfold step
  split
  case h_1 c rest _ => exact Hw.Canonical.exec (s := { s with pending := rest }) ok
  case h_2 => exact ok.tick

/-- Settles O33: no step answers a next state whose registers are not canonical. -/
theorem stepKeepsRegistersCanonical : Obligations.StepKeepsRegistersCanonical := by
  intro s t ok next
  have kept := step_nextCanonical ok
  rw [next] at kept
  exact kept

end Sys2Proof.Machine

/-! # The timecode and cue sheet family

The commands of the timecode unit and of the cue sheet: what a write that reaches its register, a cue that acts and an
event of a slot leave, and the statements on them. -/

namespace Sys2Proof.Machine

/-! ## Writes that reach their register and cues that act -/

section Runs

variable {s : State}

theorem State.next_congr {g k : Hw} (e : g = k) :
    (.next (s.withHw g) : Host.Outcome State Fault Refusal) = .next (s.withHw k) := by rw [e]

/-- The outcome of a register write whose gates are open. -/
theorem State.run_busWrite_takes {k : Nat} {a : Attr} {f : Hw → Hw} (t : s.hw.takes k a = true) :
    s.run (fun h => h.busWrite k a f) = .next (s.withHw (f (s.hw.answer 0))) := by
  rw [State.run, Hw.busWrite_takes _ _ _ _ t]

/-- The outcome of a cue that acts: its action works on the module with the entry fired, and reads the entry there. -/
theorem State.run_fireCue_acts {c : CueRef} {act v : Nat} {eff : Nat → Nat → Nat → Nat → Hw → Hw}
    (t : s.hw.cueActs c act v = true) :
    s.run (fun h => h.fireCue c act eff) = .next (s.withHw (eff (cueArg ((s.hw.cueFired c.idx).cueOf c)) v
      (cueTc ((s.hw.cueFired c.idx).cueOf c)) c.idx (s.hw.cueFired c.idx))) := by
  rw [State.run, Hw.fireCue_acts _ _ _ _ _ t, Hw.cueFired_cueOf]

end Runs

/-! ## The base tick -/

theorem Hw.netOrLocEnabled_iff (h : Hw) :
    h.netOrLocEnabled = true ↔ ∃ n : Fin 4, h.bit (TCU_SRC n) 31 = true ∧ (h.tcuSource n = 1 ∨ h.tcuSource n = 4) := by
  simp only [Hw.netOrLocEnabled, List.any_eq_true, List.mem_range, Bool.and_eq_true, Bool.or_eq_true, beq_iff_eq]
  exact ⟨fun ⟨n, lt, q⟩ => ⟨⟨n, lt⟩, q⟩, fun ⟨n, q⟩ => ⟨n, n.isLt, q⟩⟩

/-- No slot with source NET or LOC is enabled when each slot is off or has another source. -/
theorem Hw.netOrLocEnabled_eq_false {h : Hw}
    (idle : ∀ n : Fin 4, h.bit (TCU_SRC n) 31 = false ∨ (h.tcuSource n ≠ 1 ∧ h.tcuSource n ≠ 4)) :
    h.netOrLocEnabled = false := by
  rw [← Bool.not_eq_true, Hw.netOrLocEnabled_iff]
  rintro ⟨n, on, source⟩
  obtain off | ⟨net, loc⟩ := idle n
  · exact absurd on (by simp [off])
  · exact source.elim net loc

section BaseTick

variable {s : State} {v : Word} {a : Attr} (t : s.hw.takes TCU_BASE_TICK a = true)
include t

theorem execTcuBaseTickWrite_busy (busy : (s.hw.answer 0).netOrLocEnabled = true) :
    exec (.tcuBaseTickWrite v a) s = .next (s.withHw ((s.hw.answer 0).refuse TCU_BASE_TICK 0x0100 a)) := by
  show execTcuBaseTickWrite v a s = _
  rw [execTcuBaseTickWrite, State.run_busWrite_takes t, if_pos busy]

variable (idle : (s.hw.answer 0).netOrLocEnabled = false)
include idle

theorem execTcuBaseTickWrite_outside (outside : v.toNat < 25_000 ∨ 10_000_000 < v.toNat) :
    exec (.tcuBaseTickWrite v a) s = .next (s.withHw ((s.hw.answer 0).refuse TCU_BASE_TICK 0x0101 a)) := by
  show execTcuBaseTickWrite v a s = _
  rw [execTcuBaseTickWrite, State.run_busWrite_takes t, if_neg (by simp [idle]), if_pos outside]

theorem execTcuBaseTickWrite_stores (least : 25_000 ≤ v.toNat) (most : v.toNat ≤ 10_000_000) :
    exec (.tcuBaseTickWrite v a) s = .next (s.withHw ((s.hw.answer 0).wr TCU_BASE_TICK v.toNat)) := by
  show execTcuBaseTickWrite v a s = _
  rw [execTcuBaseTickWrite, State.run_busWrite_takes t, if_neg (by simp [idle]), if_neg (by omega)]

end BaseTick

/-- Settles O42: the three outcomes of the write, by whether a NET or LOC slot is enabled and the value is in range. -/
theorem baseTickWrite : Obligations.BaseTickWrite := by
  refine ⟨by decide +kernel, ?busy, ?outside, ?inside⟩
  case busy =>
    rintro s _ v n a t rfl on source
    exact execTcuBaseTickWrite_busy t ((Hw.netOrLocEnabled_iff _).mpr ⟨n, on, source⟩)
  case outside =>
    rintro s _ v a t rfl idle outside
    exact execTcuBaseTickWrite_outside t (Hw.netOrLocEnabled_eq_false idle) outside
  case inside =>
    rintro s _ v a t rfl idle ⟨least, most⟩
    exact execTcuBaseTickWrite_stores t (Hw.netOrLocEnabled_eq_false idle) least most

/-! ## The source of a slot -/

section Source

variable {s : State} {n : Fin 4}

/-- A listed source code (Table 01.12) is stored; of a slot that was on neither NET nor LOC no generator runs free (R232). -/
theorem execTcuSrcWrite_stores {v : Word} {a : Attr} (t : s.hw.takes (TCU_SRC n) a = true) (listed : fld v.toNat 2 0 < 5)
    (net : (s.hw.answer 0).tcuSource n ≠ 1) (loc : (s.hw.answer 0).tcuSource n ≠ 4) :
    exec (.tcuSrcWrite n v a) s = .next (s.withHw ((((s.hw.answer 0).rebase n).storeReg (TCU_SRC n) v.toNat).sourceChanged n
      ((s.hw.answer 0).rd (TCU_SRC n)) ((s.hw.answer 0).tickNs n))) := by
  show execTcuSrcWrite n v a s = _
  rw [execTcuSrcWrite, State.run_busWrite_takes t, if_neg (Nat.not_le.mpr listed)]
  exact State.next_congr (if_neg fun paced => paced.1.elim net loc)

/-- The module once the rate learned and the tick length of a qualified source are taken; a shaft stands at the slot's value. -/
def Hw.rateTaken (h : Hw) (n : Nat) (rate : Int) (tickNs : Nat) : Hw :=
  let k := (h.rebase n).wr (TCU_RATE n) (unsgn 32 rate)
  let k := k.setSlot n { k.slot n with tickNs := tickNs, run := true }
  if k.tcuSource n = 2 then k.setSlot n { k.slot n with pos := (k.slot n).val, edgeNs := 0 } else k

/-- A slot that had no value takes the source's. -/
def Hw.firstValue (h : Hw) (n x : Nat) : Hw :=
  ((h.setSlot n { h.slot n with val := x, stamp := h.now, hasVal := true, mark := x }).setTcuState n 2).tcuEvent n 0

/-- A good source makes an ACQUIRING slot LOCKED; one that had no value takes the source's (R24, R30). -/
theorem Hw.qualify_firstValue {h : Hw} {n : Nat} {src : Ratio} {rate : Int} {tickNs : Nat} {seen : List Nat}
    (acquiring : h.tcuState n = 1) (good : h.sourceGood n seen = true)
    (fresh : ((h.rateTaken n rate tickNs).slot n).hasVal = false) :
    h.qualify n src rate tickNs seen =
      (h.rateTaken n rate tickNs).firstValue n (unitsOf ((h.rebase n).sourceValue n src)) := by
  have goes : ¬ (h.tcuState n = 0 ∨ h.tcuState n = 2 ∨ (!h.sourceGood n seen) = true) := by simp [acquiring, good]
  rw [Hw.qualify, if_neg goes]
  exact if_neg (by rw [← Bool.not_eq_true] at fresh; exact fresh)

theorem execSourceQualified_firstValue {src : Ratio} {rate : Int} {tickNs : Nat} {seen : List Nat}
    (live : s.hw.live pgTCU = true) (acquiring : s.hw.tcuState n = 1) (good : s.hw.sourceGood n seen = true)
    (fresh : ((s.hw.rateTaken n rate tickNs).slot n).hasVal = false) :
    exec (.sourceQualified n src rate ⟨tickNs, seen⟩) s = .next (s.withHw
      ((((s.hw.rateTaken n rate tickNs).firstValue n (unitsOf ((s.hw.rebase n).sourceValue n src))).stepNow n).shaftAt n
        (unitsOf src))) := by
  have goes : ¬ (!s.hw.live pgTCU || s.hw.tcuState n == 2) = true := by simp [live, acquiring]
  show execSourceQualified n src rate ⟨tickNs, seen⟩ s = _
  rw [execSourceQualified, State.run, if_neg goes, Hw.qualify_firstValue acquiring good fresh]

/-- A LOCKED slot that loses its source counts the loss and holds over (R27). -/
theorem Hw.loseSource_locked {h : Hw} {n : Nat} (locked : h.tcuState n = 2) :
    h.loseSource n = (((h.setCorr n 0 0).putBit (TCU_QUAL n) 4 false).incF (TCU_QUAL n) 23 16).enterHoldover n := if_pos locked

theorem execSourceLost_loses {fault : Bool} (gone : s.hw.sourceGone n = true) (on : s.hw.tcuState n ≠ 0) :
    exec (.sourceLost n fault) s =
      .next (s.withHw ((s.hw.raiseIf (fault && s.hw.tcuSource n != 1) pgTCU (6 * n + 5)).loseSource n)) := by
  have goes : ¬ (!s.hw.sourceGone n || s.hw.tcuState n == 0) = true := by simp [gone, on]
  show execSourceLost n fault s = _
  rw [execSourceLost, State.run, if_neg goes]

theorem execHoldLimitExpiry_expires (holds : s.hw.tcuState n = 3)
    (late : (s.hw.slot n).limAt + s.hw.rd (TCU_HOLD_LIMIT n) * 1_200_000 ≤ s.hw.now) :
    exec (.holdLimitExpiry n) s = .next (s.withHw (s.hw.enterFreerun n)) := by
  show execHoldLimitExpiry n s = _
  rw [execHoldLimitExpiry, State.run, if_pos ⟨holds, late⟩]

/-- A shaft without an edge for `STALL` ms holds the phase of its slot (R25). -/
theorem execAngStall_stalls (shaft : s.hw.onShaft n = true)
    (late : (s.hw.slot n).edgeAt + s.hw.get (TCU_SRCCFG n) 23 16 * 1_200_000 ≤ s.hw.now) :
    exec (.angStall n) s = .next (s.withHw ((((s.hw.rebase n).setSlot n
      { (s.hw.rebase n).slot n with run := false }).putBit (TCU_QUAL n) 4 true).tcuEvent n 4)) := by
  show execAngStall n s = _
  rw [execAngStall, State.run, if_pos ⟨shaft, late⟩]

end Source

/-! ## Corrections of a slot -/

section Corrections

variable {s : State} {n : Fin 4}

/-- The module once a measurement has given a slot its rate and tick length, and shown that it is not stalled. -/
def Hw.rateMeasured (h : Hw) (n : Nat) (rate : Int) (tickNs : Nat) : Hw :=
  let k := (h.rebase n).wr (TCU_RATE n) (unsgn 32 rate)
  (k.setSlot n { k.slot n with tickNs := tickNs, run := true }).putBit (TCU_QUAL n) 4 false

/-- A source that reports is compared with the slot. -/
theorem Hw.measured_reports {h : Hw} {n : Nat} {src : Ratio} {rate : Int} {tickNs : Nat}
    (reports : h.tcuSource n ≠ 1 ∨ h.ptpReports (h.slotPtp n) = true) :
    h.measured n src rate tickNs =
      (((h.rateMeasured n rate tickNs).judge n (measure ((h.rebase n).sourceValue n src)
        ((h.rateMeasured n rate tickNs).slotVal n)) false).stepNow n).shaftAt n (unitsOf ((h.rebase n).sourceValue n src)) := by
  have goes : ¬ (h.tcuSource n = 1 ∧ (!h.ptpReports (h.slotPtp n)) = true) := by
    rintro ⟨net, silent⟩
    obtain q | q := reports
    · exact q net
    · simp [q] at silent
  rw [Hw.measured, if_neg goes]
  rfl

section Locked

variable (live : s.hw.live pgTCU = true)
include live

theorem execCorrectionMeasured_source (locked : s.hw.tcuState n = 2) (src : Ratio) (rate : Int) (tickNs : Nat) :
    exec (.correctionMeasured n (.source src rate) tickNs) s = .next (s.withHw (s.hw.measured n src rate tickNs)) := by
  have goes : ¬ (!s.hw.live pgTCU || s.hw.tcuState n != 2) = true := by simp [live, locked]
  show execCorrectionMeasured n (.source src rate) tickNs s = _
  rw [execCorrectionMeasured, State.run, if_neg goes]

theorem execCorrectionMeasured_edge (shaft : s.hw.onShaft n = true) (fwd : Bool) (gapNs : Nat) :
    exec (.correctionMeasured n (.edge fwd) gapNs) s = .next (s.withHw (s.hw.encoderEdge n fwd gapNs)) := by
  have locked : s.hw.tcuState n = 2 := by
    simp only [Hw.onShaft, Bool.and_eq_true, decide_eq_true_eq] at shaft
    exact shaft.2
  have goes : ¬ (!s.hw.live pgTCU || s.hw.tcuState n != 2) = true := by simp [live, locked]
  show execCorrectionMeasured n (.edge fwd) gapNs s = _
  rw [execCorrectionMeasured, State.run, if_neg goes]
  exact State.next_congr (if_pos shaft)

end Locked

theorem execSlewDone_ends (slews : s.hw.bit (TCU_QUAL n) 3 = true) (used : s.hw.slotCorr n = 0) :
    exec (.slewDone n) s = .next (s.withHw (s.hw.setCorr n 0 0)) := by
  show execSlewDone n s = _
  rw [execSlewDone, State.run, if_pos (by simp [slews, used])]

theorem execTimecodeStep_steps {b : Nat} {d : Int} (waits : (s.hw.slot n).step = some (b, d)) (due : b ≤ s.hw.slotVal n) :
    exec (.timecodeStep n) s = .next (s.withHw (s.hw.stepSlot n b d.toNat)) := by
  show execTimecodeStep n s = _
  simp only [execTimecodeStep, State.run, waits, if_pos due]

end Corrections

/-- Settles O2: each command of the timecode unit on the branch that its conditions name. -/
theorem timecodeCommandsComplete : Obligations.TimecodeCommandsComplete := by
  refine ⟨?baseTick, ?src, ?qualified, ?lost, ?holdLimit, ?stall, ?measured, ?edge, ?slewDone, ?step, ?capture⟩
  case baseTick => rintro s _ v a t rfl idle least most; exact execTcuBaseTickWrite_stores t idle least most
  case src => rintro s _ n v a t rfl listed net loc; exact execTcuSrcWrite_stores t listed net loc
  case qualified =>
    rintro s _ n src rate tickNs seen _ _ _ rfl rfl rfl rfl live acquiring good fresh
    exact execSourceQualified_firstValue live acquiring good fresh
  case lost =>
    rintro s _ n fault _ rfl rfl gone on locked
    rw [execSourceLost_loses gone on, Hw.loseSource_locked locked]
  case holdLimit => rintro s _ n rfl holds late; exact execHoldLimitExpiry_expires holds late
  case stall => rintro s _ n rfl shaft late; exact execAngStall_stalls shaft late
  case measured =>
    rintro s _ n src rate tickNs _ _ _ rfl rfl rfl rfl live locked reports
    rw [execCorrectionMeasured_source live locked, Hw.measured_reports reports]
    rfl
  case edge =>
    rintro s _ n fwd gapNs _ _ rfl rfl rfl live shaft
    exact execCorrectionMeasured_edge live shaft fwd gapNs
  case slewDone => rintro s _ n rfl slews used; exact execSlewDone_ends slews used
  case step => rintro s _ n b d rfl waits due; exact execTimecodeStep_steps waits due
  case capture =>
    rintro s _ _ c v acts rfl rfl
    show execTcCapture c s = _
    rw [execTcCapture, State.run_fireCue_acts acts, tcCaptureEff]

/-! ## The cue sheet: words, swaps and copies -/

theorem Hw.swapOrCopy_iff (h : Hw) : h.swapOrCopy = true ↔ h.cue.swap.isSome = true ∨ h.cue.copying = true := by
  rw [Hw.swapOrCopy, Bool.or_eq_true]

theorem Hw.swapOrCopy_eq_false {h : Hw} (swap : h.cue.swap = none) (copying : h.cue.copying = false) : h.swapOrCopy = false := by
  rw [Hw.swapOrCopy, swap, copying]
  rfl

section Word

variable {s : State} {v : Word} {a : Attr}

/-- The entry that the four words make up. -/
def Hw.cueWords (h : Hw) : CueWord :=
  BitVec.ofNat 128 (h.rd CUE_W0 + 2 ^ 32 * h.rd CUE_W1 + 2 ^ 64 * h.rd CUE_W2 + 2 ^ 96 * h.rd CUE_W3)

variable (t : s.hw.takes CUE_W3 a = true)
include t

theorem execCueW3Write_discards (busy : (s.hw.answer 0).swapOrCopy = true) :
    exec (.cueW3Write v a) s = .next (s.withHw ((s.hw.answer 0).refuse CUE_W3 0x0103 a)) := by
  show execCueW3Write v a s = _
  rw [execCueW3Write, State.run_busWrite_takes t, if_pos busy]

/-- A listed entry that its writer may own is filed in the shadow half (R45, R46, R49). -/
theorem execCueW3Write_files {g : Hw} (idle : (s.hw.answer 0).swapOrCopy = false)
    (e : g = (s.hw.answer 0).wr CUE_W3 v.toNat) (listed : entryOk g.cueWords = true)
    (owned : cueFld g.cueWords 123 123 = 1 → a.secure = true) :
    exec (.cueW3Write v a) s = .next (s.withHw ((g.setHalf (1 - g.activeHalf)
      (store zeroCue (g.half (1 - g.activeHalf)) (g.get CUE_IDX 11 0) g.cueWords)).cueIdxNext)) := by
  have known : (!entryOk g.cueWords) = false := by rw [listed]; rfl
  have allowed : (decide (cueFld g.cueWords 123 123 = 1) && !a.secure) = false := by
    cases secure : a.secure
    · simpa [secure] using owned
    · simp
  subst e
  show execCueW3Write v a s = _
  rw [execCueW3Write, State.run_busWrite_takes t, if_neg (by simp [idle])]
  exact State.next_congr ((if_neg (ne_true_of_eq_false known)).trans (if_neg (ne_true_of_eq_false allowed)))

end Word

section Request

variable {s : State} {v : Word} {a : Attr} (t : s.hw.takes CUE_SWAP a = true) (req : fld v.toNat 31 31 = 1)
include t req

theorem execCueSwapRequest_discards (busy : (s.hw.answer 0).swapOrCopy = true) :
    exec (.cueSwapRequest v a) s = .next (s.withHw (((s.hw.answer 0).refuse CUE_SWAP 0x0103 a).raise pgCUE 5)) := by
  show execCueSwapRequest v a s = _
  rw [execCueSwapRequest, State.run_busWrite_takes t, if_neg (by simp [req]), if_pos busy]

/-- A request for a tick that has not passed makes the swap pending at it (R50). -/
theorem execCueSwapRequest_pends {g : Hw} {b : Nat} (idle : (s.hw.answer 0).swapOrCopy = false)
    (e : g = (((s.hw.answer 0).put CUE_SWAP 29 28 (fld v.toNat 29 28)).put CUE_SWAP 7 0
      (fld v.toNat 7 0)).putBit CUE_SWAP 31 true)
    (at_b : b = (2 ^ 32 * g.get CUE_SWAP 7 0 + g.rd CUE_SWAP_AT_LO) * tickUnit) (ahead : g.slotVal (g.get CUE_SWAP 29 28) ≤ b) :
    exec (.cueSwapRequest v a) s = .next (s.withHw (g.swapPending (g.get CUE_SWAP 29 28) b)) := by
  subst e at_b
  show execCueSwapRequest v a s = _
  rw [execCueSwapRequest, State.run_busWrite_takes t, if_neg (by simp [req]), if_neg (by simp [idle])]
  exact State.next_congr (congrArg (Hw.swapPending _ _) (if_neg (Nat.not_lt.mpr ahead)))

end Request

section Copy

variable {s : State} {v : Word} {a : Attr}

theorem execCueCopy_discards (t : s.hw.takes CUE_COPY a = true) (busy : (s.hw.answer 0).swapOrCopy = true) :
    exec (.cueCopy v a) s = .next (s.withHw ((s.hw.answer 0).refuse CUE_COPY 0x0103 a)) := by
  show execCueCopy v a s = _
  rw [execCueCopy, State.run_busWrite_takes t, if_pos busy]

theorem execCueCopy_starts {h : Hw} (t : s.hw.takes CUE_COPY a = true) (e : h = s.hw.answer 0) (idle : h.swapOrCopy = false)
    (go : fld v.toNat 0 0 = 1) :
    exec (.cueCopy v a) s = .next (s.withHw
      (({ h with cue := { h.cue with copying := true, copyAt := h.now } } : Hw).putBit (STATUS pgCUE) 1 true)) := by
  subst e
  show execCueCopy v a s = _
  rw [execCueCopy, State.run_busWrite_takes t, if_neg (by simp [idle]), if_pos go]

theorem execCopyDone_ends {h : Hw} (e : h = s.hw) (copying : h.cue.copying = true) (late : h.cue.copyAt + 4096 ≤ h.now) :
    exec .copyDone s = .next (s.withHw (({ h.setHalf (1 - h.activeHalf) (h.half h.activeHalf) with
      cue := { (h.setHalf (1 - h.activeHalf) (h.half h.activeHalf)).cue with copying := false } } : Hw).putBit
        (STATUS pgCUE) 1 false)) := by
  subst e
  show execCopyDone s = _
  rw [execCopyDone, State.run, if_pos (by simp [copying, late])]

theorem execSwapDone_swaps {n b : Nat} (swap : s.hw.cue.swap = some (n, b)) (due : b ≤ s.hw.slotVal n) :
    exec .swapDone s =
      .next (s.withHw ((if s.hw.cuesFire n then s.hw.fireDue n b else s.hw).carrySwap.renewHorizons)) := by
  show execSwapDone s = _
  simp only [execSwapDone, State.run, swap, if_neg (Nat.not_lt.mpr due)]

theorem execCueCntClr_clears (t : s.hw.takes CUE_CNT_CLR a = true) (skip : fld v.toNat 0 0 = 1) (crowd : fld v.toNat 1 1 = 1)
    (refused : fld v.toNat 2 2 = 1) :
    exec (.cueCntClr v a) s =
      .next (s.withHw ((((s.hw.answer 0).wr CUE_SKIP_CNT 0).wr CUE_CROWD_CNT 0).wr CUE_REFUSE_CNT 0)) := by
  show execCueCntClr v a s = _
  rw [execCueCntClr, State.run_busWrite_takes t]
  simp only [skip, crowd, refused, if_true]

end Copy

/-! ## The cues that act on no other block -/

theorem evtPulseEff_listed {h : Hw} {arg v tc i : Nat} (listed : (lineSource (fld arg 10 0)).isSome = true) :
    evtPulseEff arg v tc i h = if h.lineHigh (fld arg 10 0) then h else h.edge (fld arg 10 0) := by
  cases high : h.lineHigh (fld arg 10 0) <;> simp [evtPulseEff, listed, high]

theorem swapEff_busy {h : Hw} {arg v tc i : Nat} (busy : h.swapOrCopy = true) :
    swapEff arg v tc i h = (h.capture pgCUE 0x0103 (busAddr CUE_SWAP) (ownAttr 0)).raise pgCUE 5 := if_pos busy

theorem swapEff_idle {h : Hw} {arg v tc i : Nat} (idle : h.swapOrCopy = false) :
    swapEff arg v tc i h = h.swapPending tc ((v / tickUnit + 1) * tickUnit) := if_neg (by simp [idle])

theorem exec_evtPulse (c : CueRef) (s : State) :
    exec (.evtPulse c) s = s.run fun h => h.fireCue c 0x40 evtPulseEff := rfl

theorem exec_swap (c : CueRef) (s : State) : exec (.swap c) s = s.run fun h => h.fireCue c 0x50 swapEff := rfl

/-- Settles O3: each command of the cue sheet, and each cue, on the branch that its conditions name. -/
theorem cueSheetCommandsComplete : Obligations.CueSheetCommandsComplete := by
  refine ⟨?idx, ?w3, ?request, ?swapDone, ?copy, ?copyDone, ?cntClr, ?nop, ?evtPulse, ?swap⟩
  case idx =>
    rintro s _ _ v a _ t rfl rfl rfl
    show execCueIdxWrite v a s = _
    rw [execCueIdxWrite, State.run_busWrite_takes t]
  case w3 => rintro s _ g v a _ t rfl idle e rfl listed owned; exact execCueW3Write_files t idle e listed owned
  case request =>
    rintro s _ g v a b t rfl idle req e at_b ahead
    exact execCueSwapRequest_pends t req idle e at_b ahead
  case swapDone => rintro s _ n b rfl swap due; exact execSwapDone_swaps swap due
  case copy => intro s h v a t e idle go; exact execCueCopy_starts t e idle go
  case copyDone => intro s h e copying late; exact execCopyDone_ends e copying late
  case cntClr => rintro s _ v a t rfl skip crowd refused; exact execCueCntClr_clears t skip crowd refused
  case nop =>
    rintro s _ c v acts rfl
    show execNop (.cue c) s = _
    exact State.run_fireCue_acts acts
  case evtPulse =>
    rintro s _ c v acts rfl listed
    rw [exec_evtPulse, State.run_fireCue_acts acts, evtPulseEff_listed listed]
  case swap =>
    rintro s _ c v acts rfl idle
    rw [exec_swap, State.run_fireCue_acts acts, swapEff_idle idle]

/-- Settles O43: what is discarded while a swap is pending or a copy runs. -/
theorem pendingSwapDiscards : Obligations.PendingSwapDiscards := by
  refine ⟨?word, ?copy, ?request, ?swapCue, ?copyBusy⟩
  case word => rintro s _ v a t rfl busy; exact execCueW3Write_discards t ((Hw.swapOrCopy_iff _).mpr busy)
  case copy => rintro s _ v a t rfl busy; exact execCueCopy_discards t ((Hw.swapOrCopy_iff _).mpr busy)
  case request => rintro s _ v a t rfl busy req; exact execCueSwapRequest_discards t req ((Hw.swapOrCopy_iff _).mpr busy)
  case swapCue =>
    rintro s _ c v acts rfl busy
    rw [exec_swap, State.run_fireCue_acts acts, swapEff_busy ((Hw.swapOrCopy_iff _).mpr busy)]
  case copyBusy =>
    intro s h v a t e swap copying go
    exact execCueCopy_starts t e (Hw.swapOrCopy_eq_false swap copying) go

end Sys2Proof.Machine

/-! # The cycle engine family

The commands of the cycle engine array, of cadences, PDUs and program banks, and of the memories: what a write that
reaches its register, a cue that acts and an event leave, and the statements on them. -/

namespace Sys2Proof.Machine

/-! ## The cues of a cadence, its image and its drain -/

section Cadences

/-- A cue of a cadence's own entry reaches a cadence that runs (R101, R102, R113). -/
theorem Hw.cadCue_reaches {h : Hw} {k i own : Nat} (f : Hw → Hw) (array : h.ceaOn = true) (on : h.cadEn k = true) (entry : own = i)
    (runs : (h.cad k).suspended = false) (free : h.twinWaits k = false) : h.cadCue k i own f = f h := by
  simp [Hw.cadCue, array, on, entry, runs, free]

theorem latchEff_reaches {h : Hw} {arg v tc i : Nat} (array : h.ceaOn = true) (on : h.cadEn (fld arg 5 0) = true)
    (entry : h.cadLatchIdx (fld arg 5 0) = i) (runs : (h.cad (fld arg 5 0)).suspended = false)
    (free : h.twinWaits (fld arg 5 0) = false) : latchEff arg v tc i h = h.latchCue (fld arg 5 0) v := by
  rw [latchEff]
  exact Hw.cadCue_reaches (fun h => h.latchCue _ v) array on entry runs free

theorem commitEff_reaches {h : Hw} {arg v tc i : Nat} (array : h.ceaOn = true) (on : h.cadEn (fld arg 5 0) = true)
    (entry : h.cadCommitIdx (fld arg 5 0) = i) (runs : (h.cad (fld arg 5 0)).suspended = false)
    (free : h.twinWaits (fld arg 5 0) = false) : commitEff arg v tc i h = h.commitCue (fld arg 5 0) v := by
  rw [commitEff]
  exact Hw.cadCue_reaches (fun h => h.commitCue _ v) array on entry runs free

variable {s : State}

theorem execImageReady_places {c : Fin 64} (live : s.hw.live pgCEA = true) (latched : (s.hw.cad c).latched = true)
    (waits : (s.hw.cad c).ready = false) (single : s.hw.twinned c = false) :
    exec (.imageReady c) s = .next (s.withHw ((s.hw.placeImage c (s.hw.cad c).img).releaseTasks c)) := by
  have goes : ¬ (!s.hw.live pgCEA || !(s.hw.cad c).latched || (s.hw.cad c).ready) = true := by simp [live, latched, waits]
  have alone : (s.hw.twinned c && s.hw.twState == twInStep) = false := by rw [single, Bool.false_and]
  show execImageReady c s = _
  rw [execImageReady, State.run, if_neg goes, alone]
  rfl

theorem execDrainEnd_ends {c : Fin 64} {d : Drain} {rest : List Drain} (front : s.hw.cea.drains = d :: rest) (own : d.cad = c.val) :
    exec (.drainEnd c) s = .next (s.withHw (s.hw.drainEnd d rest)) := by
  show execDrainEnd c s = _
  simp only [execDrainEnd, State.run, front, if_pos own]

end Cadences

/-! ## Reruns -/

section Reruns

variable {s : State} {t : Fin 512} {x : Rerun} (retry : (s.hw.task t).retry = some x) (live : s.hw.live pgCEA = true)
include retry live

theorem execRerunStart_starts (waits : x.started = false)
    (idle : s.hw.cea.runs.any (fun r => r.2.engine == x.engine && r.2.rerun) = false)
    (foremost : ∀ u < 512, ∀ y, (s.hw.task u).retry = some y → y.engine = x.engine → y.started = false → y.failed = false →
      s.hw.taskCrit u < s.hw.taskCrit t ∨ s.hw.taskCrit u = s.hw.taskCrit t ∧ t.val ≤ u) :
    exec (.rerunStart t) s = .next (s.withHw ((s.hw.setTask t { s.hw.task t with retry := some { x with started := true } }).startRun t
      { engine := x.engine, rerun := true, seq := x.seq, img := x.img, imgLen := x.imgLen, refs := x.refs })) := by
  show execRerunStart t s = _
  simp only [execRerunStart, State.run, retry]
  refine State.next_congr (if_neg ?_)
  rw [live, waits, idle, Bool.not_true, Bool.false_or, Bool.false_or, Bool.false_or, Bool.not_eq_true', Bool.not_eq_false,
    List.isEmpty_iff, List.filter_eq_nil_iff]
  intro u lt rival
  cases other : (s.hw.task u).retry with
  | none => simp [other] at rival
  | some y =>
    simp only [other, Bool.and_eq_true, Bool.or_eq_true, Bool.not_eq_true', beq_iff_eq, decide_eq_true_eq] at rival
    obtain ⟨-, ⟨⟨engine, started⟩, failed⟩, before⟩ := rival
    have := foremost u (List.mem_range.mp lt) y other engine started failed
    omega

theorem execRetryWindowEnd_drops (unequal : x.equal = false) (passed : s.hw.windowOver t x = true) :
    exec (.retryWindowEnd t) s = .next (s.withHw (
      let g := if x.failed then s.hw else s.hw.rerunFailed t 3
      g.setTask t { g.task t with retry := none })) := by
  have goes : ¬ (!s.hw.live pgCEA || x.equal || !s.hw.windowOver t x) = true := by simp [live, unequal, passed]
  show execRetryWindowEnd t s = _
  simp only [execRetryWindowEnd, State.run, retry, if_neg goes]

end Reruns

/-! ## Self-tests and placement -/

section Engines

variable {s : State} {e : Fin 18}

/-- Only an engine that has an heir names one to take its tasks. -/
theorem Hw.heir_of_heirOf {h : Hw} {x : EngSt} {k : Nat} (heir : h.heirOf x = some k) : x.heir ≠ none := by
  intro none
  simp [Hw.heirOf, none] at heir

theorem execEngineSelftest_starts {k : Nat} {g : Hw}
    (e_g : g = if s.hw.engState k = engActive then s.hw else s.hw.engBecomes k engActive 5)
    (live : s.hw.live pgCEA = true) (boundary : s.hw.tickBoundary 0 = true) (suspect : (s.hw.eng e).suspect = true)
    (idle : s.hw.engBusy e = false) (serves : s.hw.engState e = engActive ∨ s.hw.engState e = engRerun)
    (heir : s.hw.heirOf (s.hw.eng e) = some k) :
    exec (.engineSelftest e) s = .next (s.withHw
      ((((g.engTasks e).foldl (fun (h : Hw) t => h.moveTask t k 5) g).setEngState e engSelftest).clearSuspect e true)) := by
  have goes : ¬ (!s.hw.live pgCEA || !s.hw.tickBoundary 0 || !(s.hw.eng e).suspect || s.hw.engBusy e ||
      !(s.hw.engState e == engActive || s.hw.engState e == engRerun)) = true := by
    simpa [live, boundary, suspect, idle, or_iff_not_imp_left] using serves
  have gives : ¬ (s.hw.engState e = engActive ∧ (s.hw.eng e).heir = none) := fun q => Hw.heir_of_heirOf heir q.2
  subst e_g
  show execEngineSelftest e s = _
  simp only [execEngineSelftest, State.run, if_neg goes, if_neg gives, heir]

theorem execSelftestDone_returns {g r t : Hw} (e_g : g = s.hw.wr (CE_SELFTEST e) (2 ^ 31 + 0xC3A5))
    (e_r : r = if s.hw.hlt.testing = some e.val then { g with hlt := { g.hlt with testing := none } } else g)
    (e_t : t = if (r.eng e).afterMismatch then
      { r.sat (CE_TRANSIENT_CNT e) with hlt := { r.hlt with transients := satAdd r.hlt.transients 1 } } else r)
    (live : s.hw.live (pgCE e) = true) (tests : s.hw.engState e = engSelftest) :
    exec (.selftestDone e 0xC3A5 true true) s = .next (s.withHw (if s.hw.hlt.testing = some e.val then
      (t.clearSuspect e).setEngState e engSpare else (t.clearSuspect e).engBecomes e engSpare 5)) := by
  have goes : ¬ (!s.hw.live (pgCE e) || decide (s.hw.engState e ≠ engSelftest)) = true := by simp [live, tests]
  subst e_g e_r e_t
  show execSelftestDone e 0xC3A5 true true s = _
  simp only [execSelftestDone, State.run, if_neg goes]
  by_cases rota : s.hw.hlt.testing = some e.val
  · simp [rota]
  · simp [rota]

/-- One step of a placement: the next task, and where those before it went. It is placed where it fits, or taken off its engine. -/
def Hw.placeNext (wish : List (Nat × Nat)) (reason : Nat) (x : Hw × List (Nat × Nat)) (t : Nat) : Hw × List (Nat × Nat) :=
  if x.1.dbgOn t then x
  else match x.1.placeFor x.1.cost wish x.2 t with
    | some e => (x.1.placeTask t e reason, (t, e) :: x.2)
    | none => (x.1.unplace t, x.2)

/-- The module once a request to place the tasks again is served. -/
def Hw.replaceServed (h : Hw) : Hw := { h with cea := { h.cea with replace := false } }

/-- A placement goes through the tasks in their order, each step that of `Hw.placeNext`. -/
theorem execPlacement_places {p : List (Fin 512 × Fin 18)} {g : Hw}
    {place : Hw × List (Nat × Nat) → Nat → Hw × List (Nat × Nat)}
    (e_g : g = Hw.keepSixteen 18 s.hw.detachNow.attachNow) (live : s.hw.live pgCEA = true) (boundary : s.hw.tickBoundary 0 = true)
    (next : ∀ x t, place x t =
      Hw.placeNext (p.map fun x => (x.1.val, x.2.val)) (if s.hw.cea.replace then 6 else 5) x t) :
    exec (.placement p) s = .next (s.withHw (g.placeOrder.foldl place (g, [])).1.replaceServed) := by
  have goes : ¬ (!s.hw.live pgCEA || !s.hw.tickBoundary 0) = true := by simp [live, boundary]
  subst e_g
  show execPlacement p s = _
  rw [execPlacement, State.run, if_neg goes]
  refine State.next_congr (congrArg Hw.replaceServed (congrArg Prod.fst (List.foldl_ext _ _ _ fun x t _ => ?_)))
  rw [next]
  rfl

end Engines

/-! ## Requests to the array -/

section Requests

variable {s : State} {v : Word} {a : Attr}

theorem execCeaReplace_requests {h : Hw} (t : s.hw.takes CEA_REPLACE a = true) (e : h = s.hw.answer 0) (go : fld v.toNat 0 0 = 1) :
    exec (.ceaReplace v a) s = .next (s.withHw { h with cea := { h.cea with replace := true } }) := by
  subst e
  show execCeaReplace v a s = _
  rw [execCeaReplace, State.run_busWrite_takes t, if_pos go]

theorem execCeaTaskRestart_requests {h : Hw} (t : s.hw.takes CEA_TASK_RESTART a = true) (e : h = s.hw.answer 0)
    (halted : h.taskState (fld v.toNat 8 0) = 5) : exec (.ceaTaskRestart v a) s =
      .next (s.withHw (h.setTask (fld v.toNat 8 0) { h.task (fld v.toNat 8 0) with restart := true })) := by
  subst e
  show execCeaTaskRestart v a s = _
  rw [execCeaTaskRestart, State.run_busWrite_takes t]
  exact State.next_congr (if_pos halted)

end Requests

/-! ## Background tasks -/

section Background

variable {s : State} {t : Fin 512} (live : s.hw.live pgCEA = true) (bg : s.hw.taskBg t = true)
include live bg

theorem execBgRipe_ripens (on : s.hw.taskEn t = true) (limited : s.hw.get (CEA_TASK t 3) 13 0 ≠ 0)
    (fresh : (s.hw.task t).ripe ≠ some (s.hw.tick32 0))
    (late : s.hw.get (CEA_TASK t 3) 13 0 ≤ (s.hw.tick32 0 + 2 ^ 32 - (s.hw.task t).ranAt) % 2 ^ 32) :
    exec (.bgRipe t) s = .next (s.withHw ((s.hw.setTask t { s.hw.task t with
      ripe := some (s.hw.tick32 0), ranAt := (s.hw.tick32 0 + 1) % 2 ^ 32, spent := 0 }).raise pgCEA 12)) := by
  show execBgRipe t s = _
  rw [execBgRipe, State.run, if_neg (by simpa [live, on, bg, limited, fresh] using late)]

/-- A commit whose compare was checked ends the wait of its task for the lock-step flag to clear (R194). -/
def Hw.flagCleared (h : Hw) (t : Nat) (unchecked : Bool) : Hw :=
  if h.dbg.clearing = some t ∧ unchecked = false then
    ({ h with dbg := { h.dbg with clearing := none } }.putBit (STATUS pgCEA) 1 false).raise pgDBG 3
  else h

/-- A background change that names the task switches at its commit, if the migration fits into the tick (R164). -/
def Hw.bgSwitched (h : Hw) (t : Nat) (buf : WBuf) : Hw :=
  if h.chgState = 1 ∧ h.jobBg ∧ h.jobTasks.any (fun j => j.task == t) ∧
      h.migFits (drainUnits buf + (h.cea.drains.map (fun d => drainUnits d.words)).foldl (· + ·) 0) h.tickTime then
    h.chgSwitch
  else h

/-- The next run of a background task begins from the committed state (R110). -/
def Hw.bgBeginsAnew (h : Hw) (t : Nat) : Hw :=
  let y := h.setTask t { h.task t with outcome := .idle, buf := [], outs := [], unchecked := false }
  (if y.taskEn t && decide (y.taskEng t < 18) then y.restartBg t (y.taskEng t) else y).bgRestart.relSnapTry

theorem execBgCommit_commits {buf : WBuf} {g r : Hw} {ws : List (Nat × BitVec 64)} (e_buf : buf = s.hw.drainOf t)
    (e_g : g = buf.foldl (fun (h : Hw) e => h.poolWrite (8 * e.1) (leBytes 8 (mergeEnt (h.poolWord e.1) e.2).toNat)) s.hw)
    (e_ws : ws = buf.map fun e => (e.1, g.poolWord e.1))
    (e_r : r = ((g.drainTime buf).twinDrain ws).recordDrain 4 g.tc0Words (ws.length + 1) ws)
    (boundary : s.hw.tickBoundary 0 = true) (equal : (s.hw.task t).outcome = .equal)
    (earlier : (s.hw.task t).doneTick ≠ s.hw.tick32 0) : exec (.bgCommit t) s = .next (s.withHw
      ((((r.flagCleared t (s.hw.task t).unchecked).setLast t 0).bgSwitched t buf).bgBeginsAnew t)) := by
  subst e_buf e_g e_ws e_r
  show execBgCommit t s = _
  rw [execBgCommit, State.run, if_neg (by simp [live, boundary, bg, equal, earlier])]
  refine State.next_congr (congrArg (Hw.bgBeginsAnew · t) ((if_congr ?switch rfl rfl).trans
    (congrArg (fun h => Hw.bgSwitched (Hw.setLast h t 0) t _) (if_congr ?clear rfl rfl))))
  case switch => simp only [Bool.and_eq_true, beq_iff_eq, and_assoc]
  case clear => simp only [Bool.and_eq_true, beq_iff_eq, Bool.not_eq_true']

end Background
/-- Settles O4: each command of the array, and each cue of a cadence, on the branch that its conditions name. -/
theorem arrayCommandsComplete : Obligations.ArrayCommandsComplete := by
  refine ⟨?latch, ?commit, ?imageReady, ?drainEnd, ?rerunStart, ?retryWindowEnd, ?engineSelftest, ?selftestDone, ?placement,
    ?ceaReplace, ?bgCommit, ?bgRipe, ?ceaTaskRestart⟩
  case latch =>
    rintro s _ _ c v acts rfl rfl array on entry runs free
    show execLatch c s = _
    rw [execLatch, State.run_fireCue_acts acts, latchEff_reaches array on entry runs free]
  case commit =>
    rintro s _ _ c v acts rfl rfl array on entry runs free
    show execCommit c s = _
    rw [execCommit, State.run_fireCue_acts acts, commitEff_reaches array on entry runs free]
  case imageReady => rintro s _ c rfl live latched waits single; exact execImageReady_places live latched waits single
  case drainEnd => rintro s _ d rest c rfl front own; exact execDrainEnd_ends front own
  case rerunStart => rintro s _ t x rfl live retry waits idle foremost; exact execRerunStart_starts retry live waits idle foremost
  case retryWindowEnd => rintro s _ t x rfl retry live unequal passed; exact execRetryWindowEnd_drops retry live unequal passed
  case engineSelftest =>
    rintro s _ e k g rfl e_g live boundary suspect idle serves heir
    exact execEngineSelftest_starts e_g live boundary suspect idle serves heir
  case selftestDone =>
    rintro s _ e g r t rfl e_g e_r e_t live tests
    exact execSelftestDone_returns e_g e_r e_t live tests
  case placement =>
    rintro s _ p g _ rfl e_g rfl live boundary
    exact execPlacement_places e_g live boundary fun _ _ => rfl
  case ceaReplace => intro s h v a t e go; exact execCeaReplace_requests t e go
  case bgCommit =>
    rintro s _ t _ _ _ rfl rfl rfl rfl live boundary bg equal late
    exact execBgCommit_commits live bg rfl rfl rfl rfl boundary equal late
  case bgRipe => rintro s _ t rfl live on bg limited fresh late; exact execBgRipe_ripens live bg on limited fresh late
  case ceaTaskRestart => intro s h v a t e halted; exact execCeaTaskRestart_requests t e halted

/-! ## Cadence entries -/

/-- A cadence that passes its checks is stored and starts anew (R69, R72, R74). -/
theorem execCadenceEnable_enables {s : State} {k : Fin 64} {v : Word} {a : Attr} {h g : Hw} (t : s.hw.takes (CEA_CAD k 0) a = true)
    (e : h = s.hw.answer 0) (e_g : g = h.storeReg (CEA_CAD k 0) v.toNat) (off : h.cadEn k = false) (on : g.cadEn k = true)
    (sound : g.cadRefuses k = none) : exec (.cadenceEnable k v a) s = .next (s.withHw ((g.setCad k {}).fitCadence k)) := by
  subst e e_g
  show execCadenceEnable k v a s = _
  rw [execCadenceEnable, State.run_busWrite_takes t]
  simp only [off, on, sound, Bool.not_true, Bool.false_eq_true, if_false]

/-! ## Process data units -/

section Pdus

variable {s : State}

/-- A PDU frame with a right CRC, no reserved flag and the length of an entry that takes it is queued (R90). -/
theorem execPduFrameRx_queues {b p : List Byte} {o vid src len u : Nat} (live : s.hw.live pgCEA = true) (array : s.hw.ceaOn = true)
    (e_o : o = if beNat (slice b 12 2) = 0x8100 then 16 else 12) (etype : beNat (slice b o 2) = s.hw.get CEA_PDU_ETYPE 15 0)
    (e_vid : vid = beNat (slice b 14 2) % 0x1000) (e_src : src = beNat (slice b 6 6)) (e_p : p = b.drop (o + 2))
    (e_len : len = beNat (slice p 6 2)) (whole : 12 + len ≤ p.length)
    (crc : leNat (slice p (8 + len) 4) = crc32 (p.take (8 + len))) (zero : (p.getD 5 0).toNat = 0)
    (flags : (p.getD 4 0).toNat &&& 0xF9 = 0) (length : s.hw.pduBad (beNat (slice p 0 2)) len = none)
    (found : (List.range 256).find? (fun u => s.hw.pduEn u && !s.hw.pduTx u &&
      decide (s.hw.get (CEA_PDU u 1) 31 16 = beNat (slice p 0 2)) && decide (s.hw.pduLen u = len) &&
      (!s.hw.bit (CEA_PDU u 0) 29 || (decide (beNat (slice b 12 2) = 0x8100) && decide (vid = s.hw.get (CEA_PDU u 0) 11 0))) &&
      (!s.hw.bit (CEA_PDU u 0) 28 || decide (src = s.hw.pduMac u))) = some u) :
    exec (.pduFrameRx b) s = .next (s.withHw { s.hw with cea := { s.hw.cea with pduIn := s.hw.cea.pduIn ++
      [{ entry := u, seq := beNat (slice p 2 2), flags := (p.getD 4 0).toNat, data := slice p 8 len }] } }) := by
  have goes : ¬ (!s.hw.live pgCEA || !s.hw.ceaOn || decide (beNat (slice b o 2) ≠ s.hw.get CEA_PDU_ETYPE 15 0)) = true := by
    simp [live, array, etype]
  have intact : ¬ (p.length < 12 + len ∨ leNat (slice p (8 + len) 4) ≠ crc32 (p.take (8 + len))) := by simp [whole, crc]
  have plain : ¬ ((p.getD 5 0).toNat ≠ 0 ∨ (p.getD 4 0).toNat &&& 0xF9 ≠ 0) := by simp only [zero, flags]; decide
  show execPduFrameRx b s = _
  simp only [execPduFrameRx, State.run, decide_eq_true_eq, ← e_o, ← e_vid, ← e_src, ← e_p, ← e_len]
  rw [if_neg goes, if_neg intact, if_neg plain]
  simp only [length, found]

/-- The oldest frame of an entry goes into the half that is not current; one that was not taken is lost (R90). -/
theorem execPduStore_stores {u : Fin 256} {m : PduMsg} {g r : Hw}
    (e_g : g = { s.hw with cea := { s.hw.cea with
      pduIn := s.hw.cea.pduIn.erase m
      pduRam := s.hw.cea.pduRam.write (s.hw.pduBuf u + (1 - (s.hw.pdu u).half) * s.hw.pduHalf u) m.data } })
    (e_r : r = (((g.setPdu u { half := 1 - (s.hw.pdu u).half, fresh := true, flags := m.flags, stored := true }).put
      (CEA_PDU u 5) 31 16 m.seq).put (CEA_PDU u 5) 15 0 (s.hw.get (CEA_PDU u 5) 15 0 + 1)).wr (CEA_PDU u 6) (s.hw.tick32 0))
    (oldest : s.hw.cea.pduIn.find? (fun m => m.entry == u.val) = some m) : exec (.pduStore u) s =
      .next (s.withHw (if (s.hw.pdu u).stored && (s.hw.pdu u).fresh then r.putBit (CEA_PDU u 7) 1 true else r)) := by
  subst e_g e_r
  show execPduStore u s = _
  simp only [execPduStore, State.run, oldest]
  rfl

/-- The frame of a released PDU (R92). -/
def Hw.pduFrame (h : Hw) (m : PduMsg) (body : List Byte) (tag : Option (Nat × Nat)) : List Byte :=
  padFrame (etherHead (h.pduMac m.entry) (2 ^ 32 * h.get RIO_MAC_HI 15 0 + h.rd RIO_MAC_LO) tag (h.get CEA_PDU_ETYPE 15 0) ++
    body ++ leBytes 4 (crc32 body))

theorem execPduSend_sends {m : PduMsg} {rest : List PduMsg} {g : Hw} {body : List Byte} {tag : Option (Nat × Nat)} {f : List Byte}
    (e_g : g = { s.hw with cea := { s.hw.cea with pduOut := rest } })
    (e_body : body = beBytes 2 (g.get (CEA_PDU m.entry 1) 31 16) ++ beBytes 2 (g.get (CEA_PDU m.entry 5) 31 16) ++
      beBytes 1 m.flags ++ [0] ++ beBytes 2 m.data.length ++ m.data)
    (e_tag : tag = if g.bit (CEA_PDU m.entry 0) 29 then
      some (g.get (CEA_PDU m.entry 0) 26 24, g.get (CEA_PDU m.entry 0) 11 0) else none)
    (e_f : f = g.pduFrame m body tag) (front : s.hw.cea.pduOut = m :: rest) :
    exec .pduSend s = .next (s.withHw (((g.hand 38 f).put (CEA_PDU m.entry 5) 31 16
      ((g.hand 38 f).get (CEA_PDU m.entry 5) 31 16 + 1)).put (CEA_PDU m.entry 5) 15 0
      ((g.hand 38 f).get (CEA_PDU m.entry 5) 15 0 + 1))) := by
  subst e_g e_body e_tag e_f
  show execPduSend s = _
  simp only [execPduSend, State.run, front]
  rfl

/-- A word of an entry that no enabled cadence maps is stored; word 0 that enables the entry starts its count anew (R91, R93). -/
theorem execPduEntryWrite_stores {u : Fin 256} {w : Fin 8} {v : Word} {a : Attr} {h g : Hw} (t : s.hw.takes (CEA_PDU u w) a = true)
    (e : h = s.hw.answer 0) (e_g : g = h.storeReg (CEA_PDU u w) v.toNat) (unmapped : w.val ≤ 4 → h.pduMapped u = false)
    (sound : g.pduRefuses u w = false) : exec (.pduEntryWrite u w v a) s = .next (s.withHw
      (if w.val = 0 ∧ g.pduEn u = true ∧ h.pduEn u = false then (g.setPdu u {}).put (CEA_PDU u 5) 15 0 0 else g)) := by
  have loose : ¬ (decide (w.val ≤ 4) && h.pduMapped u) = true := by
    by_cases low : w.val ≤ 4
    · simp [unmapped low]
    · simp [low]
  subst e e_g
  show execPduEntryWrite u w v a s = _
  rw [execPduEntryWrite, State.run_busWrite_takes t, if_neg loose]
  refine State.next_congr ((if_neg (by simp [sound])).trans (if_congr ?_ rfl rfl))
  simp only [Bool.and_eq_true, decide_eq_true_eq, Bool.not_eq_true', and_assoc]

end Pdus

/-! ## Program banks -/

/-- A bank that a task may use, with a header and a CRC that hold, is valid with the task's time in it (R117, R156, R160). -/
theorem execBankWrite_validates {s : State} {t : Fin 512} {n : Fin 2} {v : Word} {a : Attr} {k b : Nat} {h g m x : Hw}
    (e_k : k = if n.val = 0 then PGM_TASK_BANK0 t else PGM_TASK_BANK1 t) (tk : s.hw.takes k a = true) (e : h = s.hw.answer 0)
    (e_g : g = h.storeReg k v.toNat) (e_b : b = g.get k 16 0 * 64) (e_m : m = g.putBit (PGM_TASK_SEL t) (8 + n.val) true)
    (e_x : x = { m with cea := { m.cea with wcets := file m.cea.wcets (2 * t + n) (g.progWord (b + 0x1C)) } })
    (free : h.get (PGM_TASK_SEL t) 0 0 = n.val → h.taskEn t = false ∧ h.inJob t = false)
    (code : b + 0x40 + 4 * g.progWord (b + 0x08) ≤ 0x80_0000)
    (consts : b + g.progWord (b + 0x14) + g.progWord (b + 0x18) ≤ 0x80_0000) (head : g.bankHeadOk t b = true)
    (crc : g.bankCrcOk b = true) : exec (.bankWrite t n v a) s = .next (s.withHw
      (if h.get (PGM_TASK_SEL t) 0 0 = n.val then x.wr (PGM_TASK_WCET t) (g.progWord (b + 0x1C)) else x)) := by
  have unused : ¬ (h.get (PGM_TASK_SEL t) 0 0 == n.val && (h.taskEn t || h.inJob t)) = true := by
    by_cases own : h.get (PGM_TASK_SEL t) 0 0 = n.val
    · simp [free own]
    · simp [own]
  have inside : ¬ (!(decide (b + 0x40 + 4 * g.progWord (b + 0x08) ≤ 0x80_0000) &&
      decide (b + g.progWord (b + 0x14) + g.progWord (b + 0x18) ≤ 0x80_0000)) || !g.bankCrcOk b) = true := by
    simp [code, consts, crc]
  have headed : ¬ (!g.bankHeadOk t b) = true := by simp [head]
  subst e_x e_m e_b e_g e_k e
  show execBankWrite t n v a s = _
  rw [execBankWrite, State.run_busWrite_takes tk, if_neg unused]
  exact State.next_congr ((if_neg headed).trans (if_neg inside))

/-- Settles O5: each command of a cadence, a PDU and a bank on the branch that its conditions name. -/
theorem cadenceAndPduCommandsComplete : Obligations.CadenceAndPduCommandsComplete := by
  refine ⟨?cadenceEnable, ?pduFrameRx, ?pduStore, ?pduSend, ?pduEntryWrite, ?bankWrite⟩
  case cadenceEnable => intro s h k v g a t e e_g off on sound; exact execCadenceEnable_enables t e e_g off on sound
  case pduFrameRx =>
    rintro s _ b p o vid src len u rfl live array e_o etype e_vid e_src e_p e_len whole crc zero flags length found
    exact execPduFrameRx_queues live array e_o etype e_vid e_src e_p e_len whole crc zero flags length found
  case pduStore => rintro s _ u m g r rfl e_g e_r oldest; exact execPduStore_stores e_g e_r oldest
  case pduSend =>
    rintro s _ m rest g body tag f rfl e_g e_body e_tag e_f front
    exact execPduSend_sends e_g e_body e_tag e_f front
  case pduEntryWrite => intro s h u w v g a t e e_g unmapped sound; exact execPduEntryWrite_stores t e e_g unmapped sound
  case bankWrite =>
    intro s h t n v k g b m x a tk e e_k e_g e_b e_m e_x free code consts head crc
    exact execBankWrite_validates e_k tk e e_g e_b e_m e_x free code consts head crc

/-! ## Memories -/

section Moves

variable {s : State}

/-- At the end of an epoch moves are planned, and share changes are taken up where the ports run (R502, R504, R543). -/
theorem execEpochEnd_plans {heat : List (Fin 512 × Nat)} {samples : List (BitVec 18 × Nat)} {util : Fin 101} {k g : Hw}
    (e_k : k = { s.hw with mem := { s.hw.mem with epochAt := s.hw.now } })
    (e_g : g = k.epochPlan (heat.map (fun x => (x.1.val, x.2))) (samples.map (fun x => (x.1.toNat, x.2))) util)
    (ended : s.hw.epochOver = true) : exec (.epochEnd heat samples util) s =
      .next (s.withHw (if g.live pgVPT then g.vpShares.serveShares else g).rveSync) := by
  subst e_g e_k
  show execEpochEnd heat samples util s = _
  rw [execEpochEnd, State.run, if_neg (by simp [ended])]

theorem execUnitMove_live (live : s.hw.live pgRVE = true) (frame : Fin 512) (o : MoveEnd) :
    exec (.unitMove frame o) s = .next (s.withHw (s.hw.unitMove frame o).serveShares) := by
  show execUnitMove frame o s = _
  rw [execUnitMove, State.run, if_pos live]

end Moves

section UnitMove

variable {h : Hw} {frame : Fin 512} {m : Move} (next : h.nextMove = some m) (budget : h.mem.moved < h.get RVE_MIG_BW 7 0)
  (movable : h.heldInT1 m.unit = false)
include next budget movable

/-- A unit that goes up to a free frame of the pool is copied there, and the frame map names it (R505). -/
theorem Hw.unitMove_promotes {x : MemSt} (up : m.promote = true)
    (e : x = { h.mem with
      t0 := h.mem.t0.splice (frame.val * 0x1_0000) 0x1_0000 h.mem.t1 (m.unit * 0x1_0000)
      frames := file h.mem.frames frame.val m.unit })
    (below : h.frameOf m.unit = none) (pool : 512 - h.get RVE_T0_POOL 9 0 ≤ frame.val)
    (free : h.mem.frames.any (fun x => x.1 == frame.val) = false) :
    h.unitMove frame .done = ((({ h with mem := x } : Hw).moveEnds m 1 inT1 frame.val).inc RVE_MOVES).rveSync := by
  have moves : ¬ (m.promote && (h.frameOf m.unit).isSome || !m.promote && (h.frameOf m.unit).isNone ||
      h.heldInT1 m.unit) = true := by simp [up, below, movable]
  have fits : ¬ (m.promote && !(decide (512 - h.get RVE_T0_POOL 9 0 ≤ frame.val) &&
      !h.mem.frames.any (fun x => x.1 == frame.val))) = true := by simp [pool, free]
  subst e
  simp only [Hw.unitMove, next, if_neg (Nat.not_le.mpr budget), if_neg moves, if_neg fits]
  simp only [below, up, Option.getD_none, if_true]

/-- A unit that goes down is copied to its place in T1, and its frame is free again (R505). -/
theorem Hw.unitMove_demotes {f : Nat} {x : MemSt} (down : m.promote = false)
    (e : x = { h.mem with
      t1 := h.mem.t1.splice (m.unit * 0x1_0000) 0x1_0000 h.mem.t0 (f * 0x1_0000)
      frames := unfile h.mem.frames f })
    (above : h.frameOf m.unit = some f) :
    h.unitMove frame .done = ((({ h with mem := x } : Hw).moveEnds m 2 f inT1).inc RVE_MOVES).rveSync := by
  have moves : ¬ (m.promote && (h.frameOf m.unit).isSome || !m.promote && (h.frameOf m.unit).isNone ||
      h.heldInT1 m.unit) = true := by simp [down, above, movable]
  subst e
  simp only [Hw.unitMove, next, if_neg (Nat.not_le.mpr budget), if_neg moves]
  simp only [above, down, Option.getD_some, Bool.false_and, Bool.false_eq_true, if_false]

end UnitMove

section Counters

variable {s : State} {v : Word} {a : Attr}

/-- The pool takes a size that exists (R498, R503). -/
theorem execT0PoolWrite_takes {h : Hw} (t : s.hw.takes RVE_T0_POOL a = true) (e : h = s.hw.answer 0) (size : fld v.toNat 9 0 ≤ 512) :
    exec (.t0PoolWrite v a) s = .next (s.withHw (h.put RVE_T0_POOL 9 0 (fld v.toNat 9 0)).rveSync) := by
  subst e
  show execT0PoolWrite v a s = _
  rw [execT0PoolWrite, State.run_busWrite_takes t, if_neg (Nat.not_lt.mpr size)]

/-- A scrub pass counts the corrected errors, reports the others and ends with its event (R529). -/
theorem execScrub_reports {ce : BitVec 16} {ue : List (BitVec 34)} {k g : Hw}
    (e_k : k = { s.hw with mem := { s.hw.mem with scrubAt := s.hw.now } })
    (e_g : g = (({ k with hlt := { k.hlt with ce := k.hlt.ce + ce.toNat } } : Hw).sat MEMC_T1_CE ce.toNat).raiseIf
      (decide (ce ≠ 0)) pgMEMC 0)
    (live : s.hw.live pgMEMC = true) (due : s.hw.mem.scrubAt + s.hw.get MEMC_SCRUB 7 0 * 4_320_000_000_000 ≤ s.hw.now) :
    exec (.scrub ce ue) s = .next (s.withHw
      ((ue.foldl (fun (h : Hw) o => h.memcError .t1 o.toNat .uncorrectable) g).raise pgMEMC 2)) := by
  have goes : ¬ (!s.hw.live pgMEMC ||
      decide (s.hw.now < s.hw.mem.scrubAt + s.hw.get MEMC_SCRUB 7 0 * 4_320_000_000_000)) = true := by simp [live, due]
  subst e_g e_k
  show execScrub ce ue s = _
  rw [execScrub, State.run, if_neg goes]

theorem execMemcCntClr_clears {h : Hw} (t : s.hw.takes MEMC_CNT_CLR a = true) (e : h = s.hw.answer 0) (t1Ce : fld v.toNat 0 0 = 1)
    (t1Ue : fld v.toNat 1 1 = 1) (t0Ce : fld v.toNat 2 2 = 1) (t0Ue : fld v.toNat 3 3 = 1) : exec (.memcCntClr v a) s =
      .next (s.withHw ((((h.wr MEMC_T1_CE 0).wr MEMC_T1_UE 0).wr MEMC_T0_CE 0).wr MEMC_T0_UE 0)) := by
  subst e
  show execMemcCntClr v a s = _
  rw [execMemcCntClr, State.run_busWrite_takes t]
  simp only [List.zipIdx_cons, List.zipIdx_nil, List.foldl_cons, List.foldl_nil, Nat.reduceAdd, t1Ce, t1Ue, t0Ce, t0Ue, if_true]

theorem execImpCntClr_clears {h : Hw} (t : s.hw.takes IMP_CNT_CLR a = true) (e : h = s.hw.answer 0) (peak : fld v.toNat 0 0 = 1)
    (drain : fld v.toNat 1 1 = 1) (ce : fld v.toNat 2 2 = 1) (ue : fld v.toNat 3 3 = 1) (restarts : fld v.toNat 4 4 = 1) :
    exec (.impCntClr v a) s = .next (s.withHw
      (((((h.wr IMP_RET_PEAK 0).wr IMP_DRAIN_MAX 0).wr IMP_ECC_CE 0).wr IMP_ECC_UE 0).wr IMP_BG_RESTART_CNT 0)) := by
  subst e
  have five : List.range 5 = [0, 1, 2, 3, 4] := rfl
  show execImpCntClr v a s = _
  rw [execImpCntClr, State.run_busWrite_takes t]
  simp only [each, five, List.foldl_cons, List.foldl_nil, peak, drain, ce, ue, restarts, if_true]
  rfl

end Counters

section Translations

variable {s : State}

/-- An invalidation drops the translations in its scope and shows that it runs (R513). -/
theorem execXltInvalidate_drops {v : Word} {a : Attr} {h g : Hw} (t : s.hw.takes XLT_INV a = true) (e : h = s.hw.answer 0)
    (e_g : g = h.storeReg XLT_INV v.toNat) (idle : h.bit (STATUS pgXLT) 0 = false) (go : g.bit XLT_INV 31 = true) :
    exec (.xltInvalidate v a) s = .next (s.withHw (({ g with mem :=
      { g.mem with xlat := g.mem.xlat.filter (fun x => !g.xltInScope x) } } : Hw).putBit (STATUS pgXLT) 0 true)) := by
  have accepted : ¬ (decide (fld v.toNat 31 31 = 1) && h.bit (STATUS pgXLT) 0) = true := by simp [idle]
  subst e e_g
  show execXltInvalidate v a s = _
  rw [execXltInvalidate, State.run_busWrite_takes t, if_neg accepted]
  exact State.next_congr (if_pos go)

theorem execInvDone_ends (runs : s.hw.bit (STATUS pgXLT) 0 = true) : exec .invDone s =
    .next (s.withHw (((s.hw.putBit (STATUS pgXLT) 0 false).putBit XLT_INV 31 false).raise pgXLT 1)) := by
  show execInvDone s = _
  rw [execInvDone, State.run, if_pos runs]

theorem execRefreshRateChange_shows (live : s.hw.live pgMEMC = true) (m : Fin 3) : exec (.refreshRateChange m) s =
    .next (s.withHw ((s.hw.wr MEMC_REFRESH (2 ^ m.val)).raiseIf (decide (s.hw.rd MEMC_REFRESH < 2 ^ m.val)) pgMEMC 3)) := by
  show execRefreshRateChange m s = _
  rw [execRefreshRateChange, State.run, if_pos live]

end Translations

/-- Settles O16: each command of the memories on the branch that its conditions name; a move up and a move down are the two
cases of `Hw.unitMove`. -/
theorem memoryCommandsComplete : Obligations.MemoryCommandsComplete := by
  refine ⟨?epochEnd, ?unitMove, ?unitMoveDown, ?t0Pool, ?scrub, ?memcCntClr, ?impCntClr, ?xltInvalidate, ?invDone, ?refresh⟩
  case epochEnd => rintro s _ heat samples util k g rfl e_k e_g ended; exact execEpochEnd_plans e_k e_g ended
  case unitMove =>
    rintro s _ frame m x rfl e live next up budget below movable pool free
    rw [execUnitMove_live live, Hw.unitMove_promotes next budget movable up e below pool free]
  case unitMoveDown =>
    rintro s _ frame m f x rfl e live next down budget above movable
    rw [execUnitMove_live live, Hw.unitMove_demotes next budget movable down e above]
  case t0Pool => intro s h v a t e size; exact execT0PoolWrite_takes t e size
  case scrub => rintro s _ ce ue k g rfl e_k e_g live due; exact execScrub_reports e_k e_g live due
  case memcCntClr => intro s h v a t e t1Ce t1Ue t0Ce t0Ue; exact execMemcCntClr_clears t e t1Ce t1Ue t0Ce t0Ue
  case impCntClr => intro s h v a t e peak drain ce ue restarts; exact execImpCntClr_clears t e peak drain ce ue restarts
  case xltInvalidate => intro s h v g a t e e_g idle go; exact execXltInvalidate_drops t e e_g idle go
  case invDone => rintro s _ rfl runs; exact execInvDone_ends runs
  case refresh => rintro s _ m rfl live; exact execRefreshRateChange_shows live m

end Sys2Proof.Machine

/-! # The Gorpen code family

What each instruction computes from the run's primary values, how an engine's step retires it, and the statements on
instructions and on bool loads. -/

namespace Sys2Proof.Machine

/-! ## Computing on registers and booleans -/

section Registers

variable {r : Run} {w : Nat}

theorem gNop_goes (zero : fld w 25 0 = 0) : gNop r w = .ok (.go r.after) := by
  rw [gNop, decide_eq_false (not_not.mpr zero)]
  rfl

/-- ABS, MOV and NEG take one operand, the other functions two. -/
theorem gAlu_computes {v : Int} (listed : (aluTypes (gFn w)).contains (gTy w) = true) (d : gTy w = 7 → gD w % 2 = 0)
    (a : gTy w = 7 → gA w % 2 = 0) (b : gTy w = 7 → gFn w ≠ 0 ∧ gFn w ≠ 6 ∧ gFn w ≠ 7 → gB w % 2 = 0)
    (value : aluVal (gFn w) (gTy w) (r.val (gTy w) (gA w))
      (if gFn w = 0 ∨ gFn w = 6 ∨ gFn w = 7 then 0 else r.val (gTy w) (gB w)) = .ok v) :
    gAlu r w = .ok (.go (r.setVal (gTy w) (gD w) v).after) := by
  have operands : (!(decide (gFn w = 0) || decide (gFn w = 6) || decide (gFn w = 7))) =
      !decide (gFn w = 0 ∨ gFn w = 6 ∨ gFn w = 7) := by rw [Bool.decide_or, Bool.decide_or, Bool.or_assoc]
  simp only [gAlu, listed, Bool.not_true, trapIf_no, pairOk_even d, pairOk_even a, ok_bind, operands]
  by_cases unary : gFn w = 0 ∨ gFn w = 6 ∨ gFn w = 7
  · rw [if_pos unary] at value
    simp only [unary, decide_true, Bool.not_true, Bool.false_eq_true, if_false, value, ok_bind]
    rfl
  · have pair : gTy w = 7 → gB w % 2 = 0 := fun time => b time (by simpa using unary)
    rw [if_neg unary] at value
    simp only [unary, decide_false, Bool.not_false, if_true, pairOk_even pair, value, ok_bind]
    rfl

theorem gLogic_computes (word : tyWord (gTy w) = true) (fn : gFn w ≤ 0x0A) : gLogic r w = .ok (.go (r.setVal (gTy w) (gD w)
    (logicVal (gFn w) (tyBits (gTy w)) (r.val (gTy w) (gA w)).toNat (r.val (gTy w) (gB w)).toNat
      (r.val 1 (gB w) % ((tyBits (gTy w) : Nat) : Int)).toNat : Nat)).after) := by
  have legal : (!tyWord (gTy w) || decide (gFn w > 0x0A)) = false := by simpa [word] using fn
  rw [gLogic, legal]
  rfl

theorem gCmp_computes (fn : gFn w ≤ 5) (d : gD w < 16) (a : gTy w = 7 → gA w % 2 = 0) (b : gTy w = 7 → gB w % 2 = 0) : gCmp r w =
    .ok (.go (r.setBool (gD w) (relVal (gFn w) (gTy w) (r.val (gTy w) (gA w)) (r.val (gTy w) (gB w)))).after) := by
  rw [gCmp, decide_eq_false (Nat.not_lt.mpr fn), boolOk_lt d, pairOk_even a, pairOk_even b]
  rfl

theorem gCvt_computes {v : Int} (ty : gFn w ≤ 7) (fromReal : ¬ (gTy w = 3 ∧ tyWord (gFn w) = true))
    (toReal : ¬ (tyWord (gTy w) = true ∧ gFn w = 3)) (d : gFn w = 7 → gD w % 2 = 0) (a : gTy w = 7 → gA w % 2 = 0)
    (value : cvtVal (gTy w) (gFn w) (r.val (gTy w) (gA w)) = .ok v) :
    gCvt r w = .ok (.go (r.setVal (gFn w) (gD w) v).after) := by
  have legal : (decide (gFn w > 7) || (decide (gTy w = 3) && tyWord (gFn w)) || (tyWord (gTy w) && decide (gFn w = 3))) = false := by
    rw [← Bool.not_eq_true]
    simp only [Bool.or_eq_true, Bool.and_eq_true, decide_eq_true_eq, not_or]
    exact ⟨⟨Nat.not_lt.mpr ty, fromReal⟩, toReal⟩
  rw [gCvt, legal, pairOk_even d, pairOk_even a, value]
  rfl

theorem gRnd_computes {v : Nat} (real : gTy w = 3) (fn : gFn w ≤ 4) (value : fRnd (gFn w) (r.val 3 (gA w)).toNat = .ok v) :
    gRnd r w = .ok (.go (r.setVal 3 (gD w) (v : Int)).after) := by
  have legal : (decide (gTy w ≠ 3) || decide (gFn w > 4)) = false := by simpa [real] using fn
  rw [gRnd, legal, value]
  rfl

/-- BNOT and BMOV take one operand, BSET and BCLR none. -/
theorem gBool_computes {x y : Bool} (fn : gFn w ≤ 7) (d : gD w < 16) (a : gFn w ≤ 5 → gA w < 16) (b : gFn w ≤ 3 → gB w < 16)
    (e_x : x = r.bool (gA w % 16)) (e_y : y = r.bool (gB w % 16)) : gBool r w =
      .ok (.go (r.setBool (gD w) ([x && y, x || y, x != y, x == y, !x, x, true, false].getD (gFn w) false)).after) := by
  subst e_x e_y
  have first : gFn w ≤ 5 → boolOk (gA w) = .ok () := fun le => boolOk_lt (a le)
  have second : gFn w ≤ 3 → boolOk (gB w) = .ok () := fun le => boolOk_lt (b le)
  rw [gBool, decide_eq_false (Nat.not_lt.mpr fn), boolOk_lt d]
  generalize gFn w = f at *
  interval_cases f
  all_goals
    simp only [Nat.reduceLeDiff, if_true, if_false, first, second]
    rfl

theorem gSel_computes (fn : gFn w ≤ 15) (d : gTy w = 7 → gD w % 2 = 0) (a : gTy w = 7 → gA w % 2 = 0) (b : gTy w = 7 → gB w % 2 = 0) :
    gSel r w = .ok (.go (r.setVal (gTy w) (gD w) (r.val (gTy w) (if r.bool (gFn w) then gA w else gB w))).after) := by
  rw [gSel, decide_eq_false (Nat.not_lt.mpr fn), pairOk_even d, pairOk_even a, pairOk_even b]
  rfl

theorem gBtst_copies (d : gD w < 16) : gBtst r w = .ok (.go ({ r with
    b := BitVec.ofNat 16 (setBit r.b.toNat (gD w) (decide (fld (r.raw (gA w)) (fld w 4 0) (fld w 4 0) = 1))) } : Run).after) := by
  rw [gBtst, boolOk_lt d]
  rfl

theorem gBins_inserts (a : gA w < 16) : gBins r w = .ok (.go (r.setRaw (gD w)
    (setFld (r.raw (gD w)) (fld w 4 0) (fld w 4 0) (fld r.b.toNat (gA w) (gA w)))).after) := by
  rw [gBins, boolOk_lt a]
  rfl

theorem gLi_computes (form : fld w 17 16 = 0) (d : gMTy w = 7 → gD w % 2 = 0) : gLi r w = .ok (.go (r.setVal (gMTy w) (gD w)
    (if gMTy w = 3 then ((gImm w * 2 ^ 16 : Nat) : Int) else if gMTy w = 0 ∨ gMTy w = 1 ∨ gMTy w = 7 then sgn 16 (gImm w)
      else (gImm w : Int))).after) := by
  rw [gLi, decide_eq_false (not_not.mpr form), pairOk_even d]
  simp only [trapIf_no, ok_bind, Bool.or_eq_true, decide_eq_true_eq, or_assoc]
  rfl

theorem gLih_computes (form : fld w 17 16 = 2) (d : gMTy w = 7 → gD w % 2 = 0) : gLih r w = .ok (.go (
    if gMTy w = 3 then r.setRaw (gD w) (setFld (r.raw (gD w) % 2 ^ 32) 15 0 (gImm w))
    else if tyWord (gMTy w) then r.setVal (gMTy w) (gD w) (((r.val (gMTy w) (gD w)).toNat ||| gImm w * 2 ^ 16 : Nat) : Int)
    else r.setVal (gMTy w) (gD w) (wrapTy (gMTy w) (r.val (gMTy w) (gD w) + ((gImm w * 2 ^ 16 : Nat) : Int)))).after) := by
  rw [gLih, decide_eq_false (not_not.mpr form), pairOk_even d]
  by_cases real : gMTy w = 3
  · simp only [real, if_true]
    rfl
  · simp only [real, if_false, trapIf_no, ok_bind]
    split
    · rfl
    · rfl

end Registers

/-! ## Loads and stores -/

section Memory

variable {h : Hw} {c : GCtx} {r x : Run} {w : Nat} {v : Int}

theorem Hw.gLd_sets {sp ty d : Nat} {k : Int} (load : h.gLoad c r sp ty (k * (tySize ty : Int)) = .ok v) :
    h.gLd c r sp ty d k = .ok (.go (if ty = 8 then r.setBool d (decide (v = 1)) else r.setVal ty d v).after) := by
  rw [Hw.gLd, load]
  rfl

theorem Hw.gLoadI_sets (d : gMTy w = 7 → gD w % 2 = 0)
    (load : h.gLoad c r (gSp w) (gMTy w) ((gImm w : Int) * (tySize (gMTy w) : Int)) = .ok v) :
    h.gLoadI c r w = .ok (.go (r.setVal (gMTy w) (gD w) v).after) := by
  rw [Hw.gLoadI, pairOk_even d, ok_bind, Hw.gLd_sets load, if_neg (gMTy_lt w).ne]

theorem Hw.gLoadX_sets (d : gMTy w = 7 → gD w % 2 = 0)
    (load : h.gLoad c r (gSp w) (gMTy w) (((gXOff w : Int) + r.val 1 (gB w)) * (tySize (gMTy w) : Int)) = .ok v) :
    h.gLoadX c r w = .ok (.go (r.setVal (gMTy w) (gD w) v).after) := by
  rw [Hw.gLoadX, pairOk_even d, ok_bind, Hw.gLd_sets load, if_neg (gMTy_lt w).ne]

theorem Hw.gLoadB_sets (ty : gMTy w = 0) (d : gD w < 16)
    (load : h.gLoad c r (gSp w) 8 ((gImm w : Int) * (tySize 8 : Int)) = .ok v) :
    h.gLoadB c r w = .ok (.go (r.setBool (gD w) (decide (v = 1))).after) := by
  rw [Hw.gLoadB, decide_eq_false (not_not.mpr ty), trapIf_no, ok_bind, boolOk_lt d, ok_bind, Hw.gLd_sets load, if_pos rfl]

theorem gStore_stores (inst : gSp w = 0) (d : gMTy w = 7 → gD w % 2 = 0)
    (store : c.store r (gMTy w) ((gImm w : Int) * (tySize (gMTy w) : Int)) (r.val (gMTy w) (gD w)) = .ok x) :
    gStore c r w = .ok (.go x.after) := by
  rw [gStore, decide_eq_false (not_not.mpr inst), pairOk_even d, store]
  rfl

theorem gStoreX_stores (inst : gSp w = 0) (d : gMTy w = 7 → gD w % 2 = 0)
    (store : c.store r (gMTy w) (((gXOff w : Int) + r.val 1 (gB w)) * (tySize (gMTy w) : Int)) (r.val (gMTy w) (gD w)) = .ok x) :
    gStoreX c r w = .ok (.go x.after) := by
  rw [gStoreX, decide_eq_false (not_not.mpr inst), pairOk_even d, store]
  rfl

theorem gStoreB_stores (ty : gMTy w = 0) (inst : gSp w = 0) (d : gD w < 16)
    (store : c.store r 8 (gImm w : Int) (if r.bool (gD w) then 1 else 0) = .ok x) : gStoreB c r w = .ok (.go x.after) := by
  rw [gStoreB, decide_eq_false (not_not.mpr ty), decide_eq_false (not_not.mpr inst), boolOk_lt d, store]
  rfl

theorem gTcv_reads (zero : gA w = 0) (d : fld w 1 0 ≠ 3 → gD w % 2 = 0) : gTcv c r w = .ok (.go (
    if fld w 1 0 = 3 then r.setVal 2 (gD w) (c.time r 3) else r.setVal 7 (gD w) (c.time r (fld w 1 0))).after) := by
  rw [gTcv, decide_eq_false (not_not.mpr zero)]
  by_cases cycle : fld w 1 0 = 3
  · simp only [cycle, if_true]
    rfl
  · simp only [cycle, if_false, pairOk_even fun _ => d cycle]
    rfl

theorem Hw.gPrim_computes (value : h.prim c r w = .ok x) : h.gPrim c r w = .ok (.go x.after) := by
  rw [Hw.gPrim, value]
  rfl

end Memory

/-! ## Branches, loops and calls -/

section Control

variable {r : Run} {w : Nat} {b : Bool}

theorem gBr_branches (cond : gCond r w = .ok b) (zero : fld w 19 16 = 0) (imm : gImm w ≠ 0) :
    gBr r w = .ok (.go { r with pc := if b then r.pc + gImm w else r.pc + 1 }) := by
  rw [gBr, decide_eq_false (not_not.mpr zero), decide_eq_false imm, cond]
  rfl

theorem gBrk_leaves {l : LoopSt} {ls : List LoopSt} (cond : gCond r w = .ok b) (zero : fld w 19 16 = 0) (imm : gImm w = 0)
    (inside : b = true → r.loops = l :: ls) : gBrk r w =
      .ok (.go (if b then ({ r with pc := l.stop, loops := ls } : Run).setVal 1 l.reg (l.i : Int) else r.after)) := by
  rw [gBrk, decide_eq_false (not_not.mpr zero), decide_eq_false (not_not.mpr imm), cond]
  cases b with
  | false => rfl
  | true =>
    simp only [inside rfl]
    rfl

/-- A loop of no iteration is passed over; another puts its entry on the stack (R144). -/
theorem gLoop_begins (max : gMax w ≠ 0) (len : gLen w ≠ 0)
    (room : r.loops.length + (r.frames.map (fun f => f.loops.length)).foldl (· + ·) 0 < 4) {n : Nat} {x : Run}
    (e_n : n = min (r.val 1 (gD w)).toNat (gMax w)) (e_x : x = r.setVal 1 (gD w) 0) : gLoop r w = .ok (.go (
      if n = 0 then { x with pc := x.pc + gLen w + 1 }
      else { x with pc := x.pc + 1, loops := ⟨x.pc + 1, x.pc + gLen w + 1, n, 0, gD w⟩ :: x.loops })) := by
  rw [gLoop, decide_eq_false max, decide_eq_false len, decide_eq_false (Nat.not_le.mpr room)]
  simp only [Bool.or_self, trapIf_no, ok_bind, ← e_n, ← e_x]
  split
  · rfl
  · rfl

theorem gCall_enters (zero : fld w 25 22 = 0) (room : r.frames.length < 8) :
    gCall r w = .ok (.go { r with pc := gTgt w, frames := ⟨r.pc + 1, r.loops⟩ :: r.frames, loops := [] }) := by
  rw [gCall, decide_eq_false (not_not.mpr zero), decide_eq_false (Nat.not_le.mpr room)]
  rfl

theorem gRet_returns {f : Frame} {fs : List Frame} (zero : fld w 25 0 = 0) (called : r.frames = f :: fs) :
    gRet r w = .ok (.go { r with pc := f.ret, frames := fs, loops := f.loops }) := by
  rw [gRet, decide_eq_false (not_not.mpr zero), called]
  rfl

/-- RET at depth 0 ends the run (R132). -/
theorem gRet_ends (zero : fld w 25 0 = 0) (outer : r.frames = []) : gRet r w = .ok .ended := by
  rw [gRet, decide_eq_false (not_not.mpr zero), outer]
  rfl

theorem gEnd_ends (zero : fld w 25 0 = 0) : gEnd w = .ok .ended := by
  rw [gEnd, decide_eq_false (not_not.mpr zero)]
  rfl

theorem gTrap_traps (cond : gCond r w = .ok b) (zero : fld w 19 16 = 0) (imm : gImm w = 0) :
    gTrap r w = if b then .error (.trap tUser) else .ok (.go r.after) := by
  rw [gTrap, decide_eq_false (not_not.mpr zero), decide_eq_false (not_not.mpr imm), cond]
  cases b
  · rfl
  · rfl

end Control

/-! ## Bool loads -/

theorem leNat_singleton (b : Byte) : leNat [b] = b.toNat := by rw [leNat, leNat, Nat.mul_zero, Nat.add_zero]

/-- A byte is the number 0 or 1 exactly when it is 0x00 or 0x01. -/
theorem byte_toNat_le_one_iff (b : Byte) : b.toNat ≤ 1 ↔ b = 0 ∨ b = 1 := by
  rw [BitVec.toNat_eq, BitVec.toNat_eq]
  show b.toNat ≤ 1 ↔ b.toNat = 0 ∨ b.toNat = 1
  omega

/-- Settles O56: the byte 0x00, the byte 0x01 and any other byte. -/
theorem boolsAreZeroOrOne : Obligations.BoolsAreZeroOrOne := by
  refine ⟨rfl, fun h c r sp ofs b bytes => ?_⟩
  have loads : h.gLoad c r sp 8 ofs = (do trapIf (decide (b.toNat > 1)) tBadBool; pure (b.toNat : Int)) := by
    rw [Hw.gLoad, bytes, ok_bind, if_pos rfl, leNat_singleton]
  by_cases zero : b = 0
  · rw [loads, zero]; rfl
  · by_cases one : b = 1
    · rw [loads, one]; rfl
    · have other : decide (b.toNat > 1) = true := by
        have := (byte_toNat_le_one_iff b).not.mpr (not_or.mpr ⟨zero, one⟩)
        simpa using this
      rw [loads, other, if_neg zero, if_neg one]
      rfl

/-! ## An instruction that an engine executes -/

section Steps

variable {h g : Hw} {e t op : Nat} {r : Run} {w : Nat} {fetch load : Ecc} {f : Hw → GCtx → Run → Nat → G GDone}
  (word : h.executes e t r w = true) (own : gOp w = op) (fetched : fetch ≠ .uncorrectable) (loaded : load ≠ .uncorrectable)
  (seen : g = h.eccSeen fetch load t r w)
include word own fetched loaded seen

theorem Hw.engineStep_goes {x : Run} (does : f g (h.gCtx t r) r.counted w = .ok (.go x)) :
    h.engineStep e fetch op f load = (g.goesOn t r x).ranNow t r.counted w := by
  rw [Hw.engineStep_executes h e t r w op fetch load f g word own fetched loaded seen, does, Hw.retire_go]

theorem Hw.engineStep_ends (does : f g (h.gCtx t r) r.counted w = .ok .ended) :
    h.engineStep e fetch op f load = (g.endPhase t r.counted 0).ranNow t r.counted w := by
  rw [Hw.engineStep_executes h e t r w op fetch load f g word own fetched loaded seen, does, Hw.retire_ended]

theorem Hw.engineStep_traps {code : Nat} (does : f g (h.gCtx t r) r.counted w = .error (.trap code)) :
    h.engineStep e fetch op f load = (g.takeTrap t r.counted code).ranNow t r.counted w := by
  rw [Hw.engineStep_executes h e t r w op fetch load f g word own fetched loaded seen, does]
  rfl

end Steps

/-- Settles O6: each instruction is the engine's step with what the instruction computes. -/
theorem gorpenInstructionsComplete : Obligations.GorpenInstructionsComplete := by
  have noLoad : Ecc.clean ≠ .uncorrectable := by decide
  refine ⟨?nop, ?alu, ?logic, ?cmp, ?cvt, ?rnd, ?bool, ?sel, ?btst, ?bins, ?li, ?lih, ?addi, ?ld, ?st, ?ldx, ?stx, ?ldb, ?stb, ?tcv,
    ?br, ?brk, ?loop, ?call, ?ret, ?retEnd, ?endRun, ?trap, ?prim⟩
  case nop =>
    rintro s _ e fetch t r w _ g rfl word op fetched rfl seen zero
    exact State.next_congr (Hw.engineStep_goes word op fetched noLoad seen (gNop_goes zero))
  case alu =>
    rintro s _ e fetch t r w _ g v rfl word op fetched rfl seen listed d a b value
    exact State.next_congr (Hw.engineStep_goes word op fetched noLoad seen (gAlu_computes listed d a b value))
  case logic =>
    rintro s _ e fetch t r w _ g _ rfl word op fetched rfl seen ty fn rfl
    exact State.next_congr (Hw.engineStep_goes word op fetched noLoad seen (gLogic_computes ty fn))
  case cmp =>
    rintro s _ e fetch t r w _ g rfl word op fetched rfl seen fn d a b
    exact State.next_congr (Hw.engineStep_goes word op fetched noLoad seen (gCmp_computes fn d a b))
  case cvt =>
    rintro s _ e fetch t r w _ g v rfl word op fetched rfl seen ty fromReal toReal d a value
    exact State.next_congr (Hw.engineStep_goes word op fetched noLoad seen (gCvt_computes ty fromReal toReal d a value))
  case rnd =>
    rintro s _ e fetch t r w _ g v rfl word op fetched rfl seen real fn value
    exact State.next_congr (Hw.engineStep_goes word op fetched noLoad seen (gRnd_computes real fn value))
  case bool =>
    rintro s _ e fetch t r w _ g _ _ _ rfl word op fetched rfl seen fn d a b e_x e_y rfl
    exact State.next_congr (Hw.engineStep_goes word op fetched noLoad seen (gBool_computes fn d a b e_x e_y))
  case sel =>
    rintro s _ e fetch t r w _ g rfl word op fetched rfl seen fn d a b
    exact State.next_congr (Hw.engineStep_goes word op fetched noLoad seen (gSel_computes fn d a b))
  case btst =>
    rintro s _ e fetch t r w _ g rfl word op fetched rfl seen d
    exact State.next_congr (Hw.engineStep_goes word op fetched noLoad seen (gBtst_copies d))
  case bins =>
    rintro s _ e fetch t r w _ g rfl word op fetched rfl seen a
    exact State.next_congr (Hw.engineStep_goes word op fetched noLoad seen (gBins_inserts a))
  case li =>
    rintro s _ e fetch t r w _ g _ rfl word op fetched rfl seen form d rfl
    exact State.next_congr (Hw.engineStep_goes word op fetched noLoad seen (gLi_computes form d))
  case lih =>
    rintro s _ e fetch t r w _ g _ rfl word op fetched rfl seen form d rfl
    exact State.next_congr (Hw.engineStep_goes word op fetched noLoad seen (gLih_computes form d))
  case addi =>
    rintro s _ e fetch t r w _ g rfl word op fetched rfl seen
    exact State.next_congr (Hw.engineStep_goes word op fetched noLoad seen rfl)
  case ld =>
    rintro s _ e fetch load t r w _ g v _ rfl word op fetched loaded rfl seen rfl d value
    exact State.next_congr (Hw.engineStep_goes word op fetched loaded seen (Hw.gLoadI_sets d value))
  case st =>
    rintro s _ e fetch t r w _ g x _ rfl word op fetched rfl seen rfl inst d store
    exact State.next_congr (congrArg Hw.bgRestart
      (Hw.engineStep_goes word op fetched noLoad seen (gStore_stores inst d store)))
  case ldx =>
    rintro s _ e fetch load t r w _ g v _ rfl word op fetched loaded rfl seen rfl d value
    exact State.next_congr (Hw.engineStep_goes word op fetched loaded seen (Hw.gLoadX_sets d value))
  case stx =>
    rintro s _ e fetch t r w _ g x _ rfl word op fetched rfl seen rfl inst d store
    exact State.next_congr (congrArg Hw.bgRestart
      (Hw.engineStep_goes word op fetched noLoad seen (gStoreX_stores inst d store)))
  case ldb =>
    rintro s _ e fetch load t r w _ g v _ rfl word op fetched loaded rfl seen rfl ty d value
    exact State.next_congr (Hw.engineStep_goes word op fetched loaded seen (Hw.gLoadB_sets ty d value))
  case stb =>
    rintro s _ e fetch t r w _ g x _ rfl word op fetched rfl seen rfl ty inst d store
    exact State.next_congr (congrArg Hw.bgRestart
      (Hw.engineStep_goes word op fetched noLoad seen (gStoreB_stores ty inst d store)))
  case tcv =>
    rintro s _ e fetch t r w _ g _ rfl word op fetched rfl seen rfl zero d
    exact State.next_congr (Hw.engineStep_goes word op fetched noLoad seen (gTcv_reads zero d))
  case br =>
    rintro s _ e fetch t r w _ g _ rfl word op fetched rfl seen rfl zero imm mode
    exact State.next_congr (Hw.engineStep_goes word op fetched noLoad seen (gBr_branches (gCond_ok mode) zero imm))
  case brk =>
    rintro s _ e fetch t r w _ g _ l ls rfl word op fetched rfl seen rfl zero imm mode inside
    exact State.next_congr (Hw.engineStep_goes word op fetched noLoad seen (gBrk_leaves (gCond_ok mode) zero imm inside))
  case loop =>
    rintro s _ e fetch t r w _ g n x rfl word op fetched rfl seen max len room e_n e_x
    exact State.next_congr (Hw.engineStep_goes word op fetched noLoad seen (gLoop_begins max len room e_n e_x))
  case call =>
    rintro s _ e fetch t r w _ g rfl word op fetched rfl seen zero room
    exact State.next_congr (Hw.engineStep_goes word op fetched noLoad seen (gCall_enters zero room))
  case ret =>
    rintro s _ e fetch t r w _ g f fs rfl word op fetched rfl seen zero called
    exact State.next_congr (Hw.engineStep_goes word op fetched noLoad seen (gRet_returns zero called))
  case retEnd =>
    rintro s _ e fetch t r w _ g rfl word op fetched rfl seen zero outer
    exact State.next_congr (Hw.engineStep_ends word op fetched noLoad seen (gRet_ends zero outer))
  case endRun =>
    rintro s _ e fetch t r w _ g rfl word op fetched rfl seen zero
    exact State.next_congr (Hw.engineStep_ends word op fetched noLoad seen (gEnd_ends zero))
  case trap =>
    rintro s _ e fetch t r w _ g b rfl word op fetched rfl seen e_b zero imm mode
    have outcome := gTrap_traps (e_b ▸ gCond_ok mode) zero imm
    cases b with
    | false => exact State.next_congr (Hw.engineStep_goes word op fetched noLoad seen outcome)
    | true => exact State.next_congr (Hw.engineStep_traps word op fetched noLoad seen outcome)
  case prim =>
    rintro s _ e fetch load t r w _ g x _ rfl word op fetched loaded rfl seen rfl value
    exact State.next_congr (Hw.engineStep_goes word op fetched loaded seen (Hw.gPrim_computes value))

end Sys2Proof.Machine

/-! # The program change, force and debugger family

What a write that reaches the registers of the change job, of a force entry and of the debugger leaves, the end of a service
authorisation, and the statements on them. -/

namespace Sys2Proof.Machine

/-! ## The bits that a command sets in its word -/

theorem fld_or_set {x b : Nat} (v : Nat) (set : x.testBit b = true) : fld (v ||| x) b b = 1 := by simp [fld_or_bit, set]

theorem fld_or_clear {v x b : Nat} (left : v.testBit b = false) (right : x.testBit b = false) : fld (v ||| x) b b = 0 := by
  simp [fld_or_bit, left, right]

/-! ## The change job -/

theorem Hw.chgArmed_iff (h : Hw) : h.chgArmed = true ↔ h.chgState = 1 ∨ h.chgState = 2 := by
  rw [Hw.chgArmed, Bool.or_eq_true, beq_iff_eq, beq_iff_eq]

section ChangeControl

variable {h : Hw} {v : Nat} {a : Attr}

/-- A job that nothing refuses is armed with its predicted time (R162, R172). -/
theorem Hw.chgCtrlWrite_arms {g : Hw} {p : Nat × Hw}
    (e_g : g = h.storeReg FRC_CHG_CTRL (setFld (v &&& 0x0001_3FFF) 30 30 (h.get FRC_CHG_CTRL 30 30)))
    (e_p : p = g.freeDiv (5 * g.migCycles) 3) (idle : h.chgArmed = false) (arm : fld v 31 31 = 1) (sound : g.jobRefuses = none) :
    h.chgCtrlWrite v a = ((((p.2.setChg 1).put FRC_CHG_STATUS 23 8 0).wr FRC_CHG_TIME p.1).wr FRC_CHG_CLIP 0).put
      FRC_CHG_CTRL 31 30 2 := by
  subst e_p e_g
  simp only [Hw.chgCtrlWrite, idle, arm, sound, Bool.false_eq_true, one_ne_zero, if_false]

theorem Hw.chgCtrlWrite_cancels (waits : h.chgState = 1) (cancel : fld v 30 30 = 1) :
    h.chgCtrlWrite v a = (h.chgOver 5).putBit FRC_CHG_CTRL 30 true := by
  rw [Hw.chgCtrlWrite, if_pos ((Hw.chgArmed_iff h).mpr (.inl waits)), if_pos cancel, if_pos waits]

/-- A cancellation comes too late once the migration has started (R163). -/
theorem Hw.chgCtrlWrite_migrating (migrates : h.chgState = 2) (cancel : fld v 30 30 = 1) : h.chgCtrlWrite v a = h := by
  rw [Hw.chgCtrlWrite, if_pos ((Hw.chgArmed_iff h).mpr (.inr migrates)), if_pos cancel, if_neg (by simp [migrates])]

theorem Hw.chgCtrlWrite_refuses (armed : h.chgArmed = true) (keep : fld v 30 30 = 0) :
    h.chgCtrlWrite v a = h.refuse FRC_CHG_CTRL 0x0103 a := by
  rw [Hw.chgCtrlWrite, if_pos armed, if_neg (by simp [keep])]

end ChangeControl

section ChangeCommands

variable {s : State} {v : Word} {a : Attr} (t : s.hw.takes FRC_CHG_CTRL a = true)
include t

theorem exec_chgArm_takes :
    exec (.chgArm v a) s = .next (s.withHw ((s.hw.answer 0).chgCtrlWrite (v.toNat ||| 0x8000_0000) a)) :=
  State.run_busWrite_takes t

theorem exec_chgCancel_takes :
    exec (.chgCancel v a) s = .next (s.withHw ((s.hw.answer 0).chgCtrlWrite (v.toNat ||| 0x4000_0000) a)) :=
  State.run_busWrite_takes t

end ChangeCommands

/-! ## The registers of the change job -/

/-- A refusal replaces the answer that the access had. -/
theorem Hw.refuse_answer (h : Hw) (x k code : Nat) (a : Attr) : (h.answer x).refuse k code a = h.refuse k code a := by
  cases valid : h.bit (ERR_CAP0 (k / 0x10000)) 31 with
  | true => simp only [Hw.refuse, Hw.capture, Hw.bit_answer, valid, if_true]; rfl
  | false => simp only [Hw.refuse, Hw.capture, Hw.bit_answer, valid, Bool.false_eq_true, if_false]; rfl

/-- A checked write whose check fails is refused with the code of the check. -/
theorem Hw.checked_refuses {h : Hw} {k c : Nat} {v : Word} {a : Attr} {code : Hw → Option Nat} {after : Hw → Hw}
    (t : h.takes k a = true) (bad : code (h.answer 0) = some c) : h.checked k v a code after = h.refuse k c a := by
  simp only [Hw.checked, Hw.busWrite_takes _ _ _ _ t, bad, Hw.refuse_answer]

/-- The offsets of the job registers on the FRC page (R163). -/
def jobOffset (o : Nat) : Prop := 0x208 ≤ o ∧ o ≤ 0x210 ∨ 0x300 ≤ o ∧ o ≤ 0x3FC

theorem between_jobOffset {o : Nat} (job : jobOffset o) : (between o 0x208 0x210 || between o 0x300 0x3FC) = true := by
  simpa [between, jobOffset] using job

theorem Hw.writeAt_frc {h : Hw} {k : Nat} {v : Word} {a : Attr} (page : k / 0x10000 = pgFRC) (body : 0x100 ≤ k % 0x10000) :
    h.writeAt k v a = h.frcWrite k (k % 0x10000) v a := by
  obtain ⟨r, row, blk⟩ : ∃ r, pageRow (k / 0x10000) = some r ∧ r.blk = .frc := by rw [page]; exact ⟨_, rfl, rfl⟩
  simp only [Hw.writeAt, row, if_neg (Nat.not_lt.mpr body), blk]

/-- A job register is written only while no job is armed or migrates (R163). -/
theorem Hw.frcWrite_jobRegister {h : Hw} {k : Nat} {v : Word} {a : Attr} (job : jobOffset (k % 0x10000)) :
    h.frcWrite k (k % 0x10000) v a = h.checked k v a fun h => when_ h.chgArmed 0x0103 := by
  have other {j : Nat} (out : ¬ jobOffset (j % 0x10000)) : k ≠ j := fun e => out (e ▸ job)
  have permit : k ≠ FRC_PERMIT := other (by simp [jobOffset])
  have auth : k ≠ FRC_AUTH := other (by simp [jobOffset])
  have control : k ≠ FRC_CHG_CTRL := other (by simp [jobOffset])
  rw [Hw.frcWrite, if_neg permit, if_neg auth, if_neg control, if_pos (between_jobOffset job)]

theorem exec_registerWrite_jobRegister_refuses {s : State} {k : Nat} {v : Word} {a : Attr} (t : s.hw.takes k a = true)
    (armed : s.hw.chgArmed = true) (page : k / 0x10000 = pgFRC) (al : k % 4 = 0) (job : jobOffset (k % 0x10000)) :
    exec (.registerWrite (0xF000_0000 + k) 4 v a) s = .next (s.withHw (s.hw.refuse k 0x0103 a)) := by
  have lt : k < 0x400_0000 := by simp only [pgFRC] at page; omega
  have body : 0x100 ≤ k % 0x10000 := by unfold jobOffset at job; omega
  have bad : when_ (s.hw.answer 0).chgArmed 0x0103 = some 0x0103 := if_pos armed
  rw [exec_registerWrite, Hw.regWrite, Hw.regAccess_aligned _ _ _ lt al, Hw.writeAt_frc page body, Hw.frcWrite_jobRegister job,
    Hw.checked_refuses t bad]

/-- Settles O44: the job registers and the control word of a job that is armed or migrates, and its cancellation before and
after the migration has started. -/
theorem armedJobKeepsItsRegisters : Obligations.ArmedJobKeepsItsRegisters := by
  refine ⟨?registers, ?control, ?cancelled, ?migrating⟩
  case registers =>
    intro s k v a t state page al job
    exact exec_registerWrite_jobRegister_refuses t ((Hw.chgArmed_iff _).mpr state) page al job
  case control =>
    rintro s _ v a t rfl state keep
    rw [exec_chgArm_takes t, Hw.chgCtrlWrite_refuses ((Hw.chgArmed_iff _).mpr state) keep]
  case cancelled =>
    rintro s _ v a t rfl waits
    rw [exec_chgCancel_takes t, Hw.chgCtrlWrite_cancels waits (fld_or_set _ rfl), Hw.chgOver]
  case migrating =>
    rintro s _ v a t rfl migrates
    rw [exec_chgCancel_takes t, Hw.chgCtrlWrite_migrating migrates (fld_or_set _ rfl)]

/-! ## Forces -/

/-- The entry stands suspended with a new type that is not the type of `e` (R185). -/
def Hw.forceKeptOut (h : Hw) (f : Nat) (e : ForceEnt) : Bool :=
  match find? h.frc.entries f with
  | some x => x.state == 2 && e.ty != x.newTy
  | none => false

/-- The entry that a force's words give: of the owner of an image only the number of a cadence counts. -/
def ForceEnt.owned (w : ForceEnt) : ForceEnt := if w.image then { w with owner := w.owner % 64 } else w

theorem ForceEnt.owned_state (w : ForceEnt) : w.owned.state = w.state := by
  unfold ForceEnt.owned
  split <;> rfl

section Forces

variable {s : State} {f : Fin 1024} {v : Word} {a : Attr} {h g : Hw} (t : s.hw.takes (FRC_FORCE f 1) a = true)
  (e_h : h = s.hw.answer 0) (e_g : g = h.wr (FRC_FORCE f 1) v.toNat)
include t e_h e_g

/-- A force whose words hold, that is permitted and overlaps no other, takes its entry (R175, R182). -/
theorem execForceWrite_accepts {e : ForceEnt} (e_e : e = (g.forceWords f).owned) (active : e.state = 1)
    (typed : (symTy e.ty).isNone = false) (place : g.forcePlaceOk e = true) (value : forceValueOk e.ty e.value = true)
    (kept : h.forceKeptOut f e = false) (permit : g.forceForbidden e = false) (apart : g.forceOverlaps f e = false) :
    exec (.forceWrite f v a) s = .next (s.withHw
      (({ g with frc := { g.frc with entries := file g.frc.entries f { e with newTy := 0 } } } : Hw).frcCounts)) := by
  have used : ¬ e.state = 0 := by simp [active]
  have sound : ¬ (e.state ≠ 1 ∨ (symTy e.ty).isNone = true ∨ (!g.forcePlaceOk e) = true ∨ (!forceValueOk e.ty e.value) = true ∨
      h.forceKeptOut f e = true) := by simp [active, typed, place, value, kept]
  subst e_e e_g e_h
  exact (State.run_busWrite_takes t).trans (State.next_congr ((if_neg used).trans ((if_neg sound).trans
    ((if_neg (ne_true_of_eq_false permit)).trans (if_neg (ne_true_of_eq_false apart))))))

/-- A force entry with state 0 is free (R175). -/
theorem execForceWrite_frees (free : (g.forceWords f).state = 0) : exec (.forceWrite f v a) s = .next (s.withHw
    (({ g with frc := { g.frc with entries := unfile g.frc.entries f } } : Hw).frcCounts)) := by
  have unused : (g.forceWords f).owned.state = 0 := by rw [ForceEnt.owned_state, free]
  subst e_g e_h
  exact (State.run_busWrite_takes t).trans (State.next_congr (if_pos unused))

end Forces

/-! ## Permits and the service authorisation -/

/-- A write that clears permits needs nothing; one that sets any comes from a Secure master in a permitted state (R183). -/
theorem execFrcPermitWrite_takes {s : State} {v : Word} {a : Attr} {h : Hw} (t : s.hw.takes FRC_PERMIT a = true)
    (e_h : h = s.hw.answer 0)
    (may : fld v.toNat 2 0 &&& (7 - h.get FRC_PERMIT 2 0) ≠ 0 →
      a.secure = true ∧ (h.lcsOpen = true ∨ (h.lcs = 0 ∨ h.lcs = 2) ∧ h.authLeft ≠ 0)) :
    exec (.frcPermitWrite v a) s = .next (s.withHw (h.put FRC_PERMIT 2 0 (fld v.toNat 2 0))) := by
  have allowed : ¬ (decide (fld v.toNat 2 0 &&& (7 - h.get FRC_PERMIT 2 0) ≠ 0) &&
      !(a.secure && (h.lcsOpen || ((h.lcs == 0 || h.lcs == 2) && decide (h.authLeft ≠ 0))))) = true := by
    by_cases sets : fld v.toNat 2 0 &&& (7 - h.get FRC_PERMIT 2 0) = 0
    · simp [sets]
    · obtain ⟨secure, permitted⟩ := may sets
      simpa [sets, secure, or_iff_not_imp_left] using permitted
  subst e_h
  exact (State.run_busWrite_takes t).trans (State.next_congr (if_neg allowed))

/-- Permits are withdrawn, and active forces leave their entries, each reported as released at expiry (R184). -/
def Hw.forcesReleased (g : Hw) : Hw :=
  (g.frc.entries.filter (fun f => f.2.state == 1)).foldl
    (fun (h : Hw) f => (h.put (FRC_FORCE f.1 1) 31 30 0).wr FRC_REPORT (4 * 2 ^ 28 + f.1))
    { g.put FRC_PERMIT 2 0 0 with frc := { g.frc with entries := g.frc.entries.filter (fun f => f.2.state != 1) } }

/-- An authorisation whose seconds have run out ends; MANUFACTURE and RETURN need none (R183, R184). -/
theorem execAuthExpired_ends {s : State} {g : Hw} (e_g : g = s.hw.put FRC_AUTH 15 0 0) (live : s.hw.live pgFRC = true)
    (granted : s.hw.get FRC_AUTH 15 0 ≠ 0) (spent : s.hw.authLeft = 0) :
    exec .authExpired s = .next (s.withHw
      (if g.lcsOpen = true then g else (g.forcesReleased.frcCounts.detach).raise pgFRC 8)) := by
  have ends : ¬ (!s.hw.live pgFRC || decide (s.hw.get FRC_AUTH 15 0 = 0) || decide (s.hw.authLeft ≠ 0)) = true := by
    simp [live, granted, spent]
  subst e_g
  exact State.next_congr (if_neg ends)

/-! ## The debugger -/

section Attachment

variable {h : Hw} {v : Nat} {a : Attr}

/-- A request that nothing stands against is noted; the attachment follows at a placement (R187). -/
theorem Hw.dbgAttachWrite_notes {x : Nat} (e_x : x = fld v 8 0) (req : fld v 31 31 = 1) (permit : h.bit FRC_PERMIT 2 = true)
    (loose : h.bit DBG_STATE 31 = false) (unasked : h.dbg.want = none)
    (spare : (h.abandonRota.firstEng engSpare).isNone = false) (unnamed : h.inJob x = false) :
    h.dbgAttachWrite v a = { (h.abandonRota.put DBG_ATTACH 8 0 x).putBit DBG_ATTACH 31 true with
      dbg := { h.dbg with want := some x, leaving := false } } := by
  have permitted : ¬ (!h.bit FRC_PERMIT 2) = true := by simp [permit]
  have free : ¬ (h.bit DBG_STATE 31 || h.dbg.want.isSome || (h.abandonRota.firstEng engSpare).isNone || h.inJob x) = true := by
    simp [loose, unasked, spare, unnamed]
  subst e_x
  exact (if_pos req).trans ((if_neg permitted).trans (if_neg free))

theorem Hw.dbgAttachWrite_detaches {g : Hw} (e_g : g = (h.put DBG_ATTACH 8 0 (fld v 8 0)).detach) (noReq : fld v 31 31 = 0)
    (detach : fld v 30 30 = 1) : h.dbgAttachWrite v a = g.putBit DBG_ATTACH 30 g.dbg.leaving := by
  subst e_g
  simp only [Hw.dbgAttachWrite, noReq, detach, zero_ne_one, one_ne_zero, if_false]

end Attachment

section Halting

variable {h : Hw} {v : Nat}

theorem Hw.dbgHaltWrite_halts (noResume : fld v 1 1 = 0) (noStep : fld v 2 2 = 0) (go : fld v 0 0 = 1) :
    h.dbgHaltWrite v = h.askHalt := by
  rw [Hw.dbgHaltWrite, if_neg (by simp [noResume]), if_neg (by simp [noStep]), if_pos go]

theorem Hw.dbgHaltWrite_resumes (halted : h.haltedRun.isSome = true) (resume : fld v 1 1 = 1) :
    h.dbgHaltWrite v = (h.goOn false).raise pgDBG 1 := by
  rw [Hw.dbgHaltWrite, if_pos resume, if_pos halted]

theorem Hw.dbgHaltWrite_steps (noResume : fld v 1 1 = 0) (step : fld v 2 2 = 1) : h.dbgHaltWrite v = h.goOn true := by
  rw [Hw.dbgHaltWrite, if_neg (by simp [noResume]), if_pos step]

end Halting

/-- The run with register `n` of the DBG page written: a `g`'s low half, the upper bits of all `g`, or the booleans (R192). -/
def Run.dbgSet (r : Run) (n : Nat) (v : Word) : Run :=
  if n < 32 then r.setRaw n (r.raw n / 2 ^ 32 * 2 ^ 32 + v.toNat)
  else if n = 32 then (List.range 32).foldl (fun (r : Run) i => r.setRaw i (r.raw i % 2 ^ 32 + fld v.toNat i i * 2 ^ 32)) r
  else { r with b := BitVec.ofNat 16 v.toNat }

section DebugCommands

variable {s : State} {v : Word} {a : Attr}

theorem exec_dbgAttach_takes (t : s.hw.takes DBG_ATTACH a = true) :
    exec (.dbgAttach v a) s = .next (s.withHw ((s.hw.answer 0).dbgAttachWrite (v.toNat ||| 0x8000_0000) a)) :=
  State.run_busWrite_takes t

theorem exec_dbgDetach_takes (t : s.hw.takes DBG_ATTACH a = true) : exec (.dbgDetach v a) s =
    .next (s.withHw ((s.hw.answer 0).dbgAttachWrite (v.toNat &&& 0x7FFF_FFFF ||| 0x4000_0000) a)) :=
  State.run_busWrite_takes t

theorem exec_dbgHalt_takes (t : s.hw.takes DBG_HALT a = true) :
    exec (.dbgHalt v a) s = .next (s.withHw ((s.hw.answer 0).dbgHaltWrite (v.toNat ||| 1))) :=
  State.run_busWrite_takes t

theorem exec_dbgResume_takes (t : s.hw.takes DBG_HALT a = true) :
    exec (.dbgResume v a) s = .next (s.withHw ((s.hw.answer 0).dbgHaltWrite (v.toNat ||| 2))) :=
  State.run_busWrite_takes t

theorem exec_dbgStep_takes (t : s.hw.takes DBG_HALT a = true) :
    exec (.dbgStep v a) s = .next (s.withHw ((s.hw.answer 0).dbgHaltWrite (v.toNat ||| 4))) :=
  State.run_busWrite_takes t

/-- A register of a halted run is written in the run and in its window (R192). -/
theorem execDbgRegisterWrite_sets {n : Fin 34} {t : Nat} {r : Run} (tk : s.hw.takes (dbgReg n) a = true)
    (halted : (s.hw.answer 0).haltedRun = some (t, r)) : exec (.dbgRegisterWrite n v a) s =
      .next (s.withHw (((s.hw.answer 0).storeReg (dbgReg n) v.toNat).setRun t (r.dbgSet n v))) := by
  refine (State.run_busWrite_takes tk).trans ?_
  simp only [halted]
  rfl

end DebugCommands

/-- Settles O7: each command of the change job, the forces and the debugger on the branch that its conditions name. -/
theorem changeForceAndDebugCommandsComplete : Obligations.ChangeForceAndDebugCommandsComplete := by
  refine ⟨?chgArm, ?chgCancel, ?forceWrite, ?forceFree, ?permit, ?authExpired, ?dbgAttach, ?dbgDetach, ?dbgHalt, ?dbgResume,
    ?dbgStep, ?dbgRegister⟩
  case chgArm =>
    rintro s _ v g p a t rfl e_g e_p idle sound
    rw [exec_chgArm_takes t, Hw.chgCtrlWrite_arms e_g e_p idle (fld_or_set _ rfl) sound]
  case chgCancel =>
    rintro s _ v a t rfl waits
    rw [exec_chgCancel_takes t, Hw.chgCtrlWrite_cancels waits (fld_or_set _ rfl)]
  case forceWrite =>
    rintro s h f v g _ e a t e_h e_g rfl e_e active typed place value kept permit apart
    exact execForceWrite_accepts t e_h e_g e_e active typed place value kept permit apart
  case forceFree =>
    intro s h f v g a t e_h e_g _ free
    exact execForceWrite_frees t e_h e_g free
  case permit => intro s h v a t e_h may; exact execFrcPermitWrite_takes t e_h may
  case authExpired =>
    rintro s _ g _ rfl e_g rfl live granted spent
    exact execAuthExpired_ends e_g live granted spent
  case dbgAttach =>
    rintro s _ v x g a t rfl rfl e_x permit loose unasked spare unnamed
    rw [exec_dbgAttach_takes t, Hw.dbgAttachWrite_notes e_x (fld_or_set _ rfl) permit loose unasked spare unnamed]
  case dbgDetach =>
    rintro s _ v g a t rfl e_g
    have noReq : (v.toNat &&& 0x7FFF_FFFF).testBit 31 = false := by
      rw [Nat.testBit_and]
      exact Bool.and_false _
    rw [exec_dbgDetach_takes t, Hw.dbgAttachWrite_detaches e_g (fld_or_clear noReq rfl) (fld_or_set _ rfl)]
  case dbgHalt =>
    rintro s _ v a t rfl noResume noStep _
    rw [exec_dbgHalt_takes t, Hw.dbgHaltWrite_halts (fld_or_clear noResume rfl) (fld_or_clear noStep rfl)
      (fld_or_set _ rfl)]
  case dbgResume =>
    rintro s _ v a t rfl halted
    rw [exec_dbgResume_takes t, Hw.dbgHaltWrite_resumes halted (fld_or_set _ rfl)]
  case dbgStep =>
    rintro s _ v a t rfl noResume
    rw [exec_dbgStep_takes t, Hw.dbgHaltWrite_steps (fld_or_clear noResume rfl) (fld_or_set _ rfl)]
  case dbgRegister =>
    rintro s _ n v x r a t rfl halted
    exact execDbgRegisterWrite_sets t halted

end Sys2Proof.Machine

/-! # The power channel, event and analog input family

What a write that reaches the registers of the power channels, of the load-path monitor, of the power stage supervisor and of event
routing leaves, their cues and events, the bursts of the analog inputs, and the statements on them. -/

namespace Sys2Proof.Machine

/-! ## Commands and periods of a channel -/

section ChannelCommands

variable {s : State} {c : Fin 72}

/-- A command written directly reaches a channel in IN_CHARGE that no cadence maps (R207, R245). -/
theorem execPchCmdWrite_commands {v : Word} {a : Attr} (t : s.hw.takes (cCmd c) a = true)
    (unmapped : (s.hw.answer 0).chanMapped c = false) (charge : (s.hw.answer 0).inCharge = true) :
    exec (.pchCmdWrite c v a) s = .next (s.withHw ((s.hw.answer 0).command c (v.toNat &&& 0xC000_3FFF))) := by
  show execPchCmdWrite c v a s = _
  rw [execPchCmdWrite, State.run_busWrite_takes t, if_neg (by simp [unmapped, charge])]

theorem execPwmPeriodStart_begins (due : s.hw.periodDue c = true) :
    exec (.pwmPeriodStart c) s = .next (s.withHw (s.hw.beginPeriod c)) := by
  show execPwmPeriodStart c s = _
  rw [execPwmPeriodStart, State.run, if_pos due]

end ChannelCommands

/-! ## Trips of a channel -/

/-- A trip under R211 or R212 of a channel that a trip can take: it is counted, and its event raised (R216, R241). -/
theorem Hw.tripOver_trips {h : Hw} {c st cause : Nat} (takes : h.canTrip c = true) : h.tripOver c st cause =
    (((h.trip c st cause).putBit (cState c) 15 (h.neighWindow c)).satF (cCnt c) 31 24).raise (pgPCH (c / 8)) (4 * (c % 8)) := by
  rw [Hw.tripOver, if_neg (by simp [takes])]

/-- The trip state of an over-temperature: latched where restarts are off or used up, else waiting for one (R221). -/
def Hw.overtempState (h : Hw) (c : Nat) : Nat :=
  if h.get (cCfg c) 31 30 = 1 ∨ h.get (cState c) 23 20 = h.get (cCfg c) 29 26 then stTempLatch else stTempWait

section Trips

variable {s : State} {c : Fin 72}

theorem execLimDwellExpiry_trips {load : BitVec 16} {ps : List LimPulse}
    (draws : (s.hw.chanLimit c).num < load.toNat * (s.hw.chanLimit c).den)
    (dwelt : s.hw.get (cCfg c) 15 8 * 100_000 < regulated ps) :
    exec (.limDwellExpiry ⟨c, load, ps⟩) s = .next (s.withHw (s.hw.tripOver c stTripLimit 2)) := by
  show execLimDwellExpiry ⟨c, load, ps⟩ s = _
  exact State.next_congr (if_pos ⟨draws, dwelt⟩)

theorem execOvertempShutdown_trips {g : Hw} (e : g = s.hw.setChan c { s.hw.chan c with hot := true })
    (takes : g.canTrip c = true) : exec (.overtempShutdown c) s = .next (s.withHw
      (((g.trip c (g.overtempState c) 4).satF (cCnt c) 15 8).raise (pgPCH (c / 8)) (4 * (c % 8) + 2))) := by
  subst e
  show execOvertempShutdown c s = _
  rw [execOvertempShutdown, State.run, if_neg (by simp [takes])]
  rfl

/-- A channel in TEMP_WAIT restarts when its junction has cooled, unless it has tripped in the hold window (R221, R254). -/
theorem execTempRestart_restarts {g : Hw} (e : g = s.hw.setChan c { s.hw.chan c with hot := false })
    (released : g.heldTrip c = false) (waits : g.chState c = stTempWait) :
    exec (.tempRestart c) s = .next (s.withHw (g.tempRestart c)) := by
  subst e
  show execTempRestart c s = _
  rw [execTempRestart, State.run, if_neg (by simp [released]), if_pos waits]

theorem execRetryReset_clears (driven : s.hw.driven c = true) (held : (s.hw.chan c).onAt + 1_200_000_000 ≤ s.hw.now) :
    exec (.retryReset c) s = .next (s.withHw (s.hw.put (cState c) 23 20 0)) := by
  show execRetryReset c s = _
  rw [execRetryReset, State.run, if_pos (by simp [driven, held])]

/-- A trip state other than TEMP_WAIT whose cause has ended is left by REARM (R217, R254). -/
theorem Hw.pchClrWrite_rearms {h : Hw} {c v : Nat} (rearm : fld v 0 0 = 1) (keep : fld v 1 1 = 0) (tripped : h.tripped c = true)
    (unwaiting : h.chState c ≠ stTempWait) (ended : h.causeEnded c = true) (released : h.heldTrip c = false) :
    h.pchClrWrite c v = h.rearm c := by
  have counters : (if fld v 1 1 = 1 then h.wr (cCnt c) 0 else h) = h := if_neg (by simp [keep])
  rw [Hw.pchClrWrite, counters, if_pos (by simp [rearm, tripped, unwaiting, ended, released])]

theorem Hw.pchClrWrite_clears {h : Hw} {c v : Nat} (noRearm : fld v 0 0 = 0) (clear : fld v 1 1 = 1) :
    h.pchClrWrite c v = h.wr (cCnt c) 0 := by
  rw [Hw.pchClrWrite, if_neg (by simp [noRearm]), if_pos clear]

end Trips

/-! ## The wire model -/

/-- The samples of 1 ms are shown (R208). -/
def Hw.samplesShown (h : Hw) (c : Nat) (m : ChanSample) : Hw :=
  let g := { h with hlt := { h.hlt with junction := max h.hlt.junction m.die.toNat } }
  let g := (g.put (cMeas c) 23 16 m.die.toNat).put (cMeas c) 15 0 m.current.toNat
  g.putBit (cState c) 12 (m.limiting && g.driven c)

/-- The temperature of a channel's wire 1 ms on (R222). -/
def Hw.nextTheta (h : Hw) (c i2 : Nat) : Int :=
  wireStep (h.chan c).theta ((((h.ambient (h.get (cWire c) 9 8) : Nat) : Int) - 50) * degree) (h.get (cWire c) 23 16)
    (h.get (cWire c) 31 28) i2

/-- The wire of a channel takes a temperature, and shows it. -/
def Hw.setTheta (h : Hw) (c : Nat) (th : Int) : Hw :=
  (h.setChan c { h.chan c with theta := th }).put (cMeas c) 31 24 (wireT th)

/-- Trip temperature of a channel's wire (R223). -/
def Hw.thetaTrip (h : Hw) (c : Nat) : Int := ((tripTemp (h.get (cWire c) 27 24) : Nat) : Int) * degree

/-- How far below its trip temperature a wire warns (R223). -/
def Hw.thetaMargin (h : Hw) (c : Nat) : Int := ((h.get (cWire c) 7 0 : Nat) : Int) * degree

/-- A warning shows, and raises its event when it is new (R223). -/
def Hw.wireWarned (h : Hw) (c : Nat) (warn : Bool) : Hw :=
  (h.putBit (cState c) 11 warn).raiseIf (warn && !h.bit (cState c) 11) (pgPCH (c / 8)) (4 * (c % 8) + 1)

/-- A driven channel trips at its wire's trip temperature; a tripped one shows whether the wire is still hot (R223). -/
def Hw.wireJudged (h : Hw) (c : Nat) (th trip : Int) : Hw :=
  if h.canTrip c && decide (th ≥ trip) then ((h.trip c stTripWire 3).putBit (cState c) 10 true).satF (cCnt c) 23 16
  else
    let y := h.putBit (cState c) 10 (decide (h.chState c = stTripWire) && decide (th > trip - 30 * degree))
    if (y.chan c).ctl = .limp && y.tripped c then y.limpFollow c else y

/-- While the controller runs, the model takes its step, warns and trips. -/
theorem execWireModelUpdate_steps {s : State} {c : Fin 72} {m : ChanSample} {g r : Hw} {th trip : Int} {warn : Bool}
    (e_g : g = s.hw.samplesShown c m) (running : g.stage.running = true) (e_th : th = g.nextTheta c m.i2)
    (e_r : r = g.setTheta c th) (e_trip : trip = r.thetaTrip c) (e_warn : warn = decide (th ≥ trip - r.thetaMargin c)) :
    exec (.wireModelUpdate c m) s = .next (s.withHw ((r.wireWarned c warn).wireJudged c th trip)) := by
  have goes : ¬ (!(s.hw.samplesShown c m).stage.running) = true := by simp [← e_g, running]
  subst e_warn e_trip e_r e_th e_g
  show execWireModelUpdate c m s = _
  exact State.next_congr (if_neg goes)

/-! ## Windows and busbars -/

section Busbars

variable {s : State}

/-- The limit returns to `LIM` when the window's clock has reached its set length (R213, R214). -/
theorem execWindowEnd_closes {c : Fin 72} (window : s.hw.window c = true) (past : s.hw.windowLen c ≤ s.hw.windowTime c) :
    exec (.windowEnd c) s = .next (s.withHw (if (s.hw.closeWindow c).chState c = stInrush then (s.hw.closeWindow c).showDriven c
      else s.hw.closeWindow c)) := by
  show execWindowEnd c s = _
  rw [execWindowEnd, State.run, if_neg (by simp [window, past])]

theorem execBusDip_stops {b : Fin 3} (steady : find? s.hw.stage.dips b.val = none) : exec (.busDip b) s =
    .next (s.withHw { s.hw with stage := { s.hw.stage with dips := file s.hw.stage.dips b s.hw.now } }) := by
  show execBusDip b s = _
  rw [execBusDip, State.run, if_neg (by simp [steady])]

/-- The clocks of the windows on a busbar run on after its dip, which is counted and shown (R215). -/
theorem execBusDipEnd_resumes {b : Fin 3} {us : BitVec 32} {g k : Hw}
    (e_g : g = each 72 (fun c h => if chanBus c == b.val && h.window c then h.clockResumes c else h) s.hw)
    (e_k : k = { g with stage := { g.stage with dips := unfile g.stage.dips b.val } })
    (dips : (find? s.hw.stage.dips b.val).isNone = false) : exec (.busDipEnd b us) s = .next (s.withHw
      (((k.wr LPM_DIP_LAST (b.val * 2 ^ 30 + min 0xFF_FFFF us.toNat)).sat LPM_DIP_CNT).raise pgLPM 1)) := by
  subst e_k e_g
  show execBusDipEnd b us s = _
  rw [execBusDipEnd, State.run, if_neg (by simp [dips])]

end Busbars

/-! ## Tests of the load -/

section LoadTests

variable {s : State} {c : Fin 72}

/-- Samples over 10 ms in which the channel was driven set the flag when all are low, and clear it when none is (R235). -/
theorem execOlOnDetect_judges {cur : List (BitVec 16)} (driven : s.hw.driven c = true) (on : (s.hw.chan c).gate ≠ .blank)
    (pulsed : (s.hw.chan c).gen = true → 30_000 * 10_000 * (s.hw.pwmLen c).den ≤ (s.hw.pwmLen c).num * (s.hw.chan c).duty)
    (held : (s.hw.chan c).onAt + 12_000_000 ≤ s.hw.now) (nonempty : cur.isEmpty = false) :
    exec (.olOnDetect c cur) s = .next (s.withHw
      (if cur.all (fun i => decide (i.toNat < s.hw.get (cDiag c) 15 0)) then s.hw.loadFlag c 5 true
      else if cur.all (fun i => !decide (i.toNat < s.hw.get (cDiag c) 15 0)) then s.hw.loadFlag c 5 false else s.hw)) := by
  have sampled : ((s.hw.chan c).gate != .blank && (!(s.hw.chan c).gen ||
      decide (30_000 * 10_000 * (s.hw.pwmLen c).den ≤ (s.hw.pwmLen c).num * (s.hw.chan c).duty))) = true := by
    simpa [on, or_iff_not_imp_left] using pulsed
  show execOlOnDetect c cur s = _
  simp only [execOlOnDetect, State.run]
  exact State.next_congr (if_neg (by simp only [sampled]; simp [driven, held, nonempty]))

theorem execOffTestPhase_judges {pullUp high : Bool} (off : s.hw.offTested c = true) :
    exec (.offTestPhase c pullUp high) s = .next (s.withHw
      (if pullUp then (if s.hw.bit (cDiag c) 31 then s.hw.loadFlag c 6 high else s.hw)
      else if s.hw.bit (cDiag c) 30 then s.hw.loadFlag c 7 high else s.hw)) := by
  show execOffTestPhase c pullUp high s = _
  rw [execOffTestPhase, State.run, if_neg (by simp [off])]

end LoadTests

/-- Settles O8: each command of the power channels on the branch that its conditions name. -/
theorem powerChannelCommandsComplete : Obligations.PowerChannelCommandsComplete := by
  refine ⟨?cmdWrite, ?periodStart, ?align, ?short, ?limit, ?overtemp, ?tempRestart, ?retryReset, ?wireModel, ?windowEnd, ?dip,
    ?dipEnd, ?overload, ?rearm, ?cntClr, ?olOn, ?offTest⟩
  case cmdWrite => rintro s _ c v a t rfl unmapped charge; exact execPchCmdWrite_commands t unmapped charge
  case periodStart => rintro s _ c rfl due; exact execPwmPeriodStart_begins due
  case align =>
    rintro s _ c v acts rfl
    show execPwmAlign c s = _
    exact State.run_fireCue_acts acts
  case short => rintro s _ c rfl takes; exact State.next_congr (Hw.tripOver_trips takes)
  case limit =>
    rintro s _ c load ps rfl takes draws dwelt
    rw [execLimDwellExpiry_trips draws dwelt, Hw.tripOver_trips takes]
  case overtemp => rintro s _ c g _ rfl e rfl takes; exact execOvertempShutdown_trips e takes
  case tempRestart => rintro s _ c g rfl e released waits; exact execTempRestart_restarts e released waits
  case retryReset => rintro s _ c rfl driven held; exact execRetryReset_clears driven held
  case wireModel =>
    rintro s _ c m th trip warn g rfl e_g running e_th e_trip e_warn
    exact execWireModelUpdate_steps e_g running e_th rfl e_trip e_warn
  case windowEnd => rintro s _ c rfl window past; exact execWindowEnd_closes window past
  case dip => rintro s _ b rfl steady; exact execBusDip_stops steady
  case dipEnd => rintro s _ b us g k rfl e_g e_k dips; exact execBusDipEnd_resumes e_g e_k dips
  case overload => rintro s _ b cur volt _ rfl rfl; rfl
  case rearm =>
    rintro s _ c v a t rfl rearm keep tripped unwaiting ended released
    show execRearm c v a s = _
    rw [execRearm, State.run_busWrite_takes t, Hw.pchClrWrite_rearms rearm keep tripped unwaiting ended released]
  case cntClr =>
    rintro s _ c v a t rfl clear noRearm
    show execPchCntClr c v a s = _
    rw [execPchCntClr, State.run_busWrite_takes t, Hw.pchClrWrite_clears noRearm clear]
  case olOn =>
    rintro s _ c cur _ rfl rfl driven on pulsed held nonempty
    exact execOlOnDetect_judges driven on pulsed held nonempty
  case offTest => rintro s _ c pullUp high rfl off; exact execOffTestPhase_judges off

/-! ## The tables of the load-path monitor -/

section LoadPath

variable {s : State} {v : Word} {a : Attr}

section Ambient

variable {n : Fin 4}

/-- A source with an input takes the input's fresh temperature (R225). -/
theorem execAmbientSample_fresh {x : Nat} (input : s.hw.bit (LPM_AMB_CFG n) 31 = true) (fresh : s.hw.ambFresh n = some x) :
    exec (.ambientSample n) s = .next (s.withHw ((s.hw.wr (LPM_AMB_VAL n) (min 255 x)).ambStamp n)) := by
  show execAmbientSample n s = _
  simp only [execAmbientSample, State.run, if_neg (show ¬ (!s.hw.bit (LPM_AMB_CFG n) 31) = true by simp [input]), fresh]

theorem execAmbientSample_fixed (without : s.hw.bit (LPM_AMB_CFG n) 31 = false) :
    exec (.ambientSample n) s = .next (s.withHw (s.hw.wr (LPM_AMB_VAL n) (s.hw.get (LPM_AMB_CFG n) 15 8))) := by
  show execAmbientSample n s = _
  rw [execAmbientSample, State.run, if_pos (by simp [without])]

/-- A source without a fresh value for 100 ms falls back to its fixed one (R225). -/
theorem execAmbFallback_falls (input : s.hw.bit (LPM_AMB_CFG n) 31 = true) (valid : s.hw.bit (LPM_AMB_VAL n) 31 = false)
    (late : (find? s.hw.stage.amb n.val).getD 0 + 120_000_000 ≤ s.hw.now) : exec (.ambFallback n) s = .next (s.withHw
      ((s.hw.wr (LPM_AMB_VAL n) (2 ^ 31 + s.hw.get (LPM_AMB_CFG n) 15 8)).raise pgLPM 3)) := by
  show execAmbFallback n s = _
  rw [execAmbFallback, State.run, if_pos (by simp [input, valid, late])]

end Ambient

/-- A word of a profile in no channel's use is stored; the CRC word of a good record makes the profile valid (R219, R220). -/
theorem execProfileWrite_stores {p : Fin 8} {w : Fin 32} {g : Hw} (t : s.hw.takes (LPM_PROF p w) a = true)
    (e : g = ((s.hw.answer 0).storeReg (LPM_PROF p w) v.toNat).putBit LPM_PROF_VALID p false)
    (idle : (s.hw.answer 0).profileBusy p = false) (good : w.val = 1 → g.profileOk p = true) :
    exec (.profileWrite p w v a) s = .next (s.withHw (if w.val = 1 then g.putBit LPM_PROF_VALID p true else g)) := by
  show execProfileWrite p w v a s = _
  rw [execProfileWrite, State.run_busWrite_takes t, if_neg (by simp [idle])]
  subst e
  by_cases crc : w.val = 1
  · exact State.next_congr ((if_neg (not_not.mpr crc)).trans ((if_pos (good crc)).trans (if_pos crc).symm))
  · exact State.next_congr ((if_pos crc).trans (if_neg crc).symm)

/-- An open channel takes a ratio of the base tick that gives a period of 40 µs to 10 ms, on a slot that paces it (R227, R240). -/
theorem execPwmConfigWrite_stores {c : Fin 72} {h : Hw} (t : s.hw.takes (cPwm c) a = true) (e : h = s.hw.answer 0)
    (opened : h.cfgOpen c = true) (num : fld v.toNat 23 16 ≠ 0) (den : fld v.toNat 15 8 ≠ 0)
    (paces : h.slotPwmOk (fld v.toNat 31 30) = true) (least : 40_000 * fld v.toNat 15 8 ≤ fld v.toNat 23 16 * h.rd TCU_BASE_TICK)
    (most : fld v.toNat 23 16 * h.rd TCU_BASE_TICK ≤ 10_000_000 * fld v.toNat 15 8) :
    exec (.pwmConfigWrite c v a) s = .next (s.withHw (((if fld v.toNat 31 30 = h.get (cPwm c) 31 30 then h
      else h.setChan c { h.chan c with anchor := 0 }).storeReg (cPwm c) v.toNat).putBit (cState c) 3 false)) := by
  have shut : ¬ (!h.cfgOpen c) = true := by simp [opened]
  have unpaced : ¬ (!h.slotPwmOk (fld v.toNat 31 30) || decide (fld v.toNat 23 16 * h.rd TCU_BASE_TICK < 40_000 * fld v.toNat 15 8) ||
      decide (fld v.toNat 23 16 * h.rd TCU_BASE_TICK > 10_000_000 * fld v.toNat 15 8)) = true := by simp [paces, least, most]
  subst e
  show execPwmConfigWrite c v a s = _
  rw [execPwmConfigWrite, State.run_busWrite_takes t, if_neg shut, if_neg (by simp [num, den]), if_neg unpaced]

end LoadPath

/-! ## Heartbeats, losses and restarts -/

section Supervision

variable {s : State} {v : Word} {a : Attr}

/-- A heartbeat with the expected value and its complement starts the watchdog anew (R247). -/
theorem execPssHb_beats {h : Hw} (t : s.hw.takes PSS_HB a = true) (e : h = s.hw.answer 0) (running : h.stage.running = true)
    (beat : fld v.toNat 15 0 = h.get PSS_HB_NEXT 15 0) (complement : fld v.toNat 31 16 = 0xFFFF - h.get PSS_HB_NEXT 15 0) :
    exec (.pssHb v a) s = .next (s.withHw { h.put PSS_HB_NEXT 15 0 (h.get PSS_HB_NEXT 15 0 + 1) with
      stage := { h.stage with bad := 0, beatAt := h.now } }) := by
  have runs : ¬ (!h.stage.running) = true := by simp [running]
  subst e
  show execPssHb v a s = _
  rw [execPssHb, State.run_busWrite_takes t, if_neg runs]
  exact State.next_congr (if_pos ⟨beat, complement⟩)

theorem execPssWatchdogExpiry_expires (charge : s.hw.inCharge = true)
    (late : s.hw.stage.beatAt + s.hw.get PSS_CFG 7 0 * 1_200_000 ≤ s.hw.now) :
    exec .pssWatchdogExpiry s = .next (s.withHw (s.hw.logicLost 3)) := by
  show execPssWatchdogExpiry s = _
  rw [execPssWatchdogExpiry, State.run, if_pos (by simp [charge, late])]

theorem execPssRelease_releases (t : s.hw.takes PSS_RELEASE a = true) (release : fld v.toNat 0 0 = 1)
    (running : (s.hw.answer 0).stage.running = true) :
    exec (.pssRelease v a) s = .next (s.withHw ((s.hw.answer 0).logicLost 5)) := by
  show execPssRelease v a s = _
  rw [execPssRelease, State.run_busWrite_takes t, if_pos (by simp only [release, running]; rfl)]

/-- While the controller restarts the pins command the channels (R250, R259). -/
theorem execPssRestart_restarts {g : Hw} (e : g = ((s.hw.sat PSS_RESTART_CNT).raise pgPSS 8).setCharge 0)
    (running : s.hw.stage.running = true) : exec .pssRestart s = .next (s.withHw
      ({ g with stage := { g.stage with running := false, fromVbat := false } } : Hw).hardwarePath) := by
  subst e
  show execPssRestart s = _
  rw [execPssRestart, State.run, if_neg (by simp [running])]

/-- The slots whose record does not hold (R262). -/
def Hw.badSlots (h : Hw) : List Nat := h.stage.used.filter (fun n => !h.otpOk n)

/-- The map status shows the slots in use and the bad ones, which raise an event (R263). -/
def Hw.slotsShown (h : Hw) : Hw :=
  (h.wr PSS_MAP_STATUS (h.stage.used.foldl (fun x n => x + 2 ^ (4 + n)) 0 + h.badSlots.foldl (fun x n => x + 2 ^ (8 + n)) 0)).raiseIf
    (!h.badSlots.isEmpty) pgPSS 7

/-- The controller runs, in limp-home, and shows why it has started (R246). -/
def Hw.stageStarted (m : Hw) : Hw :=
  (({ m with stage := { m.stage with running := true, bad := 0, prog := none } } : Hw).put (STATUS pgPSS) 11 8
    (if m.stage.fromVbat then 1 else 6)).setCharge 0

/-- The ROM default is taken where no slot holds (R263). -/
theorem Hw.takeMap_rom {h : Hw} (noSlot : (h.stage.used.filter (fun n => h.otpOk n)).getLast? = none) : h.takeMap =
    ((each 18 (fun w (h : Hw) => h.wr (PSS_MAP w) (romMap w)) h).put PSS_MAP_STATUS 1 0 0).putBit (STATUS pgPSS) 16 false := by
  simp only [Hw.takeMap, noSlot]

/-- Else the map of the highest-numbered good slot is (R263). -/
theorem Hw.takeMap_slot {h : Hw} {n : Nat} (last : (h.stage.used.filter (fun n => h.otpOk n)).getLast? = some n) : h.takeMap =
    ((each 18 (fun w (h : Hw) => h.wr (PSS_MAP w) (h.otpMap n (w + 1))) h).put PSS_MAP_STATUS 1 0 n).putBit (STATUS pgPSS) 16
      true := by
  simp only [Hw.takeMap, last]

theorem execPssStart_starts {m : Hw} (e : m = s.hw.slotsShown.takeMap) (stopped : s.hw.stage.running = false)
    (powered : s.hw.sys.vbatOff = false) : exec .pssStart s = .next (s.withHw
      (if m.stage.fromVbat then m.stageStarted.wiresStart else m.stageStarted).hardwarePath) := by
  subst e
  show execPssStart s = _
  rw [execPssStart, State.run, if_neg (by simp [stopped, powered])]
  rfl

/-- The channels on hold go to limp-home when the hold window ends (R252). -/
theorem execHoldWindowEnd_ends (holds : s.hw.charge = 1)
    (late : s.hw.stage.holdAt + s.hw.get PSS_CFG 23 16 * 12_000_000 ≤ s.hw.now) : exec .holdWindowEnd s = .next (s.withHw
      (((each 72 (fun c h => if (h.chan c).ctl = .hold then h.toLimp c else h) s.hw).setCharge 0).raise pgPSS 3)) := by
  show execHoldWindowEnd s = _
  rw [execHoldWindowEnd, State.run, if_neg (by simp [holds, late])]

/-- A third equal sample of a new level is accepted, and the channels in limp-home follow it (R257). -/
theorem execLhSample_samples {p : Fin 16} {level : Bool} {x : Pin} {n : Nat} {g : Hw}
    (e_g : g = { s.hw with stage := { s.hw.stage with pins := file s.hw.stage.pins p { level := level, same := n } } })
    (e_x : x = (find? s.hw.stage.pins p).getD {}) (e_n : n = if x.level = level then min 3 (x.same + 1) else 1)
    (powered : s.hw.sys.vbatOff = false) : exec (.lhSample p level) s = .next (s.withHw
      (if n < 3 ∨ g.bit PSS_LH_IN p = level then g
      else each 72 (fun c h => if (h.chan c).ctl = .limp then h.limpFollow c else h) (g.putBit PSS_LH_IN p level))) := by
  have on : g.sys.vbatOff = false := by rw [e_g, ← powered]
  have same : (n < 3 || g.bit PSS_LH_IN p == level || g.sys.vbatOff) = true ↔ n < 3 ∨ g.bit PSS_LH_IN p = level := by
    simp [on]
  subst e_n e_x e_g
  show execLhSample p level s = _
  exact State.next_congr (if_congr same rfl rfl)

end Supervision

/-! ## The limp-home map -/

section MapProgramming

variable {s : State}

/-- The record of the staged map: its header, its words and their CRC (R262). -/
def Hw.stagedRecord (h : Hw) : List Nat :=
  let words := 0x4C48_0001 :: (List.range 18).map (fun w => h.rd (PSS_MAP_STAGE w))
  words ++ [crc32 (wordBytes words)]

/-- A good map goes into the lowest free slot, after Hold where the module is in Hold (R264). -/
theorem execMapProg_programs {v : Word} {a : Attr} {h g : Hw} {n : Nat} (t : s.hw.takes PSS_MAP_PROG a = true)
    (e_h : h = s.hw.answer 0)
    (e_g : g = ({ h with stage := { h.stage with prog := some n, record := h.stagedRecord } } : Hw).putBit PSS_MAP_STATUS 16 true)
    (secure : a.secure = true) (lcs : h.lcs = 0 ∨ h.lcs = 1 ∨ h.lcs = 3) (key : v.toNat = 0x4C48_4D50)
    (sound : (List.range 18).all (fun w => mapWordOk (h.rd (PSS_MAP_STAGE w))) = true) (idle : h.stage.prog = none)
    (running : h.stage.running = true) (free : (List.range 4).find? (fun n => !h.stage.used.contains n) = some n) :
    exec (.mapProg v a) s = .next (s.withHw (if g.inHold then g.defer .mapProg else g)) := by
  have permitted : ¬ (!a.secure || !(h.lcs = 0 || h.lcs = 1 || h.lcs = 3)) = true := by
    simpa [secure, or_iff_not_imp_left] using lcs
  subst e_g e_h
  show execMapProg v a s = _
  simp only [execMapProg, State.run_busWrite_takes t, if_neg permitted, key, sound, idle, running, free]
  rfl

/-- A slot after its programming: its words read back, or zeros, and the slot is used (R264). -/
def Hw.slotWritten (h : Hw) (n : Nat) (good : Bool) : Hw :=
  let otp := (List.range 20).foldl (fun l w => store zeroNat l (20 * n + w) (if good then h.stage.record.getD w 0 else 0)) h.stage.otp
  (({ h with stage := { h.stage with otp := otp, used := h.stage.used ++ [n], prog := none, record := [] } } : Hw).putBit
    PSS_MAP_STATUS 16 false).putBit PSS_MAP_STATUS (4 + n) true

theorem execMapProgDone_ends {good : Bool} {n : Nat} {g : Hw} (e : g = s.hw.slotWritten n good) (programs : s.hw.stage.prog = some n)
    (awake : s.hw.inHold = false) : exec (.mapProgDone good) s = .next (s.withHw
      (if good then (g.putBit PSS_MAP_STATUS 3 true).raise pgPSS 6
      else ((g.putBit PSS_MAP_STATUS (8 + n) true).capture pgPSS 0x0106 (busAddr PSS_MAP_PROG) (ownAttr 0)).raise pgPSS 7)) := by
  subst e
  show execMapProgDone good s = _
  simp only [execMapProgDone, State.run, programs, awake, Bool.false_eq_true, if_false]
  rfl

end MapProgramming

/-! ## Takeover -/

section Takeover

variable {h : Hw}

/-- GO with all take words written: every channel is taken, and the watchdog starts (R266 to R268). -/
theorem Hw.takeover_takes {x : Hw} {a : Attr} (e : x = ((each 72 (fun c h => h.takeChannel c) h).setCharge 2).takeClear)
    (running : h.stage.running = true) (out : h.charge ≠ 2) (complete : h.takeComplete = true) : h.takeover a =
    ({ x with stage := { x.stage with bad := 0, beatAt := x.now } } : Hw).raise pgPSS 4 := by
  subst e
  rw [Hw.takeover, if_neg (by simp [running]), if_neg out, if_neg (by simp [complete])]

theorem Hw.takeCtrlWrite_goes {v : Nat} {a : Attr} (go : fld v 0 0 = 1) (keep : fld v 1 1 = 0) :
    h.takeCtrlWrite v a = h.takeover a := by
  rw [Hw.takeCtrlWrite, if_neg (by simp [keep]), if_pos go]

theorem Hw.takeCtrlWrite_clears {v : Nat} {a : Attr} (stay : fld v 0 0 = 0) (clear : fld v 1 1 = 1) :
    h.takeCtrlWrite v a = h.takeClear := by
  rw [Hw.takeCtrlWrite, if_pos clear, if_neg (by simp [stay])]

end Takeover

/-- Settles O9: each command of the load-path monitor's tables and of the supervisor on the branch that its conditions name. -/
theorem stageConfigurationAndSupervisorCommandsComplete : Obligations.StageConfigurationAndSupervisorCommandsComplete := by
  refine ⟨?ambient, ?ambientFixed, ?ambFallback, ?profile, ?pwmConfig, ?hb, ?watchdog, ?release, ?restart, ?startRom, ?startSlot,
    ?holdWindow, ?lhSample, ?mapProg, ?mapProgDone, ?takeWrite, ?takeover, ?takeClr⟩
  case ambient => rintro s _ n x rfl input fresh; exact execAmbientSample_fresh input fresh
  case ambientFixed => rintro s _ n rfl without; exact execAmbientSample_fixed without
  case ambFallback => rintro s _ n rfl input valid late; exact execAmbFallback_falls input valid late
  case profile => rintro s _ p w v g a t rfl e idle good; exact execProfileWrite_stores t e idle good
  case pwmConfig =>
    intro s h c v a t e opened num den paces least most
    exact execPwmConfigWrite_stores t e opened num den paces least most
  case hb => intro s h v a t e running beat complement; exact execPssHb_beats t e running beat complement
  case watchdog => rintro s _ rfl charge late; exact execPssWatchdogExpiry_expires charge late
  case release => rintro s _ v a t rfl release running _; exact execPssRelease_releases t release running
  case restart => rintro s _ g rfl e running; exact execPssRestart_restarts e running
  case startRom =>
    rintro s _ _ _ m _ rfl rfl rfl e rfl stopped powered noSlot
    exact execPssStart_starts (e.trans (Hw.takeMap_rom noSlot).symm) stopped powered
  case startSlot =>
    rintro s _ n _ _ m _ rfl rfl rfl e rfl stopped powered last
    exact execPssStart_starts (e.trans (Hw.takeMap_slot last).symm) stopped powered
  case holdWindow => rintro s _ rfl holds late; exact execHoldWindowEnd_ends holds late
  case lhSample => rintro s _ p level x n g rfl e_g e_x e_n powered; exact execLhSample_samples e_g e_x e_n powered
  case mapProg =>
    intro s h v n g a t e_h e_g secure lcs key sound idle running free
    exact execMapProg_programs t e_h e_g secure lcs key sound idle running free
  case mapProgDone =>
    rintro s _ n good otp g rfl e e_otp programs awake
    rw [e_otp] at e
    exact execMapProgDone_ends e programs awake
  case takeWrite =>
    rintro s _ c v a t rfl
    show execPssTakeWrite c v a s = _
    rw [execPssTakeWrite, State.run_busWrite_takes t]
  case takeover =>
    rintro s _ v x a t rfl e go keep running out complete
    show execTakeover v a s = _
    rw [execTakeover, State.run_busWrite_takes t, Hw.takeCtrlWrite_goes go keep, Hw.takeover_takes e running out complete]
  case takeClr =>
    rintro s _ v a t rfl stay clear
    show execTakeClr v a s = _
    rw [execTakeClr, State.run_busWrite_takes t, Hw.takeCtrlWrite_clears stay clear]

/-! ## Event routing -/

section Routing

variable {s : State} {e : Fin 2048}

/-- A Secure master's listed route is stored, and a line that is high when it is enabled is delivered once (R706, R729). -/
theorem execEvrRouteWrite_routes {v : Word} {a : Attr} {h g : Hw} (t : s.hw.takes (EVR_ROUTE e) a = true) (e_h : h = s.hw.answer 0)
    (e_g : g = h.storeReg (EVR_ROUTE e) v.toNat)
    (listed : ¬ (11 < fld v.toNat 27 24 ∨ 8 < fld v.toNat 19 16 ∨ fld v.toNat 10 0 = 0)) (secure : a.secure = true) :
    exec (.evrRouteWrite e v a) s = .next (s.withHw
      (if !h.bit (EVR_ROUTE e) 31 && g.bit (EVR_ROUTE e) 31 && g.lineHigh e then g.deliver e else g)) := by
  subst e_g e_h
  show execEvrRouteWrite e v a s = _
  rw [execEvrRouteWrite, State.run_busWrite_takes t, if_neg listed, if_neg (by simp [secure])]

variable {x : EvEdge} {rest : List EvEdge} (front : s.hw.edges = x :: rest)
include front

/-- The edge held longest goes into the file that its route named (R706, R565). -/
theorem execEventDelivery_delivers (line : x.line = e.val) : exec (.eventDelivery e) s = .next (s.withHw
    { s.hw with edges := rest, ints := if s.hw.ints.contains x.dest then s.hw.ints else s.hw.ints ++ [x.dest] }) := by
  show execEventDelivery e s = _
  simp only [execEventDelivery, State.run, front, if_pos line]

/-- No edge passes the one held longest. -/
theorem execEventDelivery_waits (other : ¬ x.line = e.val) : exec (.eventDelivery e) s = .next (s.withHw s.hw) := by
  show execEventDelivery e s = _
  simp only [execEventDelivery, State.run, front, if_neg other]

end Routing

/-! ## The analog inputs -/

/-- An enabled burst that does not run starts (R708). -/
theorem adcBurstEff_starts {h : Hw} {arg v tc i n : Nat} (e : n = fld arg 3 0) (idle : (find? h.ain.running n).isSome = false)
    (on : h.bit (AIN_BURST_W1 n) 31 = true) : adcBurstEff arg v tc i h =
    { h with ain := { h.ain with running := file h.ain.running n { tick := nowLo v, at_ := h.now } } } := by
  subst e
  exact if_neg (by simp [idle, on])

/-- The bytes of a burst's record: the tick of its start and its samples (R708). -/
def burstRecord (x : Burst) (samples : List Nat) : List Byte := leBytes 4 x.tick ++ samples.flatMap (leBytes 2)

/-- The record of a burst is updated in one step (R708). -/
def Hw.recordTaken (h : Hw) (b : Nat) (bytes : List Byte) : Hw :=
  each 32 (fun w h => if 4 * w < bytes.length then h.wr (AIN_RES b w) (leNat (slice bytes (4 * w) 4)) else h) h

section Inputs

variable {s : State}

theorem execBurstComplete_ends {b : Fin 16} {mv : List (BitVec 16)} {vbat : BitVec 16} {x : Burst} {g : Hw} {r : List Nat × Hw}
    (e_g : g = { s.hw with ain := { s.hw.ain with running := unfile s.hw.ain.running b } })
    (e_r : r = g.sampleInputs vbat.toNat (g.burstInputs b) (mv.map (·.toNat))) (live : s.hw.live pgAIN = true)
    (runs : find? s.hw.ain.running b = some x) (done : s.hw.burstDone b x = true) :
    exec (.burstComplete b mv vbat) s = .next (s.withHw (r.2.recordTaken b (burstRecord x r.1))) := by
  have goes : ¬ (!s.hw.live pgAIN || !s.hw.burstDone b x) = true := by simp [live, done]
  subst e_r e_g
  show execBurstComplete b mv vbat s = _
  simp only [execBurstComplete, State.run, runs, if_neg goes]
  rfl

theorem execTempInputSample_samples {i : Fin 48} {mv vbat : BitVec 16} {g : Hw}
    (e : g = { s.hw with ain := { s.hw.ain with polledAt := file s.hw.ain.polledAt i s.hw.now } }) (due : s.hw.pollDue i = true) :
    exec (.tempInputSample i mv vbat) s = .next (s.withHw (g.sampleInput i mv.toNat vbat.toNat).2) := by
  subst e
  show execTempInputSample i mv vbat s = _
  rw [execTempInputSample, State.run, if_pos due]

end Inputs

/-- Settles O27: each command of event routing and of the analog inputs on the branch that its conditions name. -/
theorem eventAndAnalogCommandsComplete : Obligations.EventAndAnalogCommandsComplete := by
  refine ⟨?route, ?delivery, ?waits, ?burst, ?burstComplete, ?sample⟩
  case route => intro s h e v g a t e_h e_g listed secure; exact execEvrRouteWrite_routes t e_h e_g listed secure
  case delivery => rintro s _ e x rest rfl front line; exact execEventDelivery_delivers front line
  case waits => rintro s _ e x rest rfl front other; exact execEventDelivery_waits front other
  case burst =>
    rintro s _ n c v acts rfl e idle on
    show execAdcBurst c s = _
    rw [execAdcBurst, State.run_fireCue_acts acts, adcBurstEff_starts e idle on]
  case burstComplete =>
    rintro s _ b mv vbat x g r _ rfl e_g e_r rfl live runs done
    exact execBurstComplete_ends e_g e_r live runs done
  case sample => rintro s _ i mv vbat g rfl e due; exact execTempInputSample_samples e due

end Sys2Proof.Machine

/-! # The family of a further loss of the main logic

What the shared operations leave in the registers, and the statement on a loss while the supervisor is not in charge. -/

namespace Sys2Proof.Machine

/-! ## Saturating counters and raised events -/

theorem satAdd_lt (v n : Nat) : satAdd v n < 2 ^ 32 := by
  rw [satAdd]
  split <;> omega

section Registers

variable {h : Hw} (ok : h.regsOk = true)
include ok

theorem Hw.rd_sat_same (k n : Nat) : (h.sat k n).rd k = satAdd (h.rd k) n := by
  rw [Hw.sat, Hw.rd_wr_same ok, Nat.mod_eq_of_lt (satAdd_lt _ _)]

theorem Hw.rd_sat_other {k j : Nat} (n : Nat) (ne : j ≠ k) : (h.sat k n).rd j = h.rd j := Hw.rd_wr_other ok _ ne

/-- Raising an event writes the raw event register of its group and no other (R13). -/
theorem Hw.rd_raiseG_other {page g j : Nat} (b : Nat) (ne : j ≠ evRaw page g) : (h.raiseG page g b).rd j = h.rd j := by
  have bitSet : (h.putBit (evRaw page g) b true).rd j = h.rd j := Hw.rd_put_other ok _ _ _ ne
  rw [Hw.raiseG]
  split
  · rfl
  · dsimp only
    split <;> exact bitSet

theorem Hw.rd_raise_other {page j : Nat} (b : Nat) (ne : j ≠ EVT_RAW page) : (h.raise page b).rd j = h.rd j :=
  Hw.rd_raiseG_other ok b ne

end Registers

/-! ## A loss noted -/

/-- The supervisor notes a loss: its cause, its count and its event (R248). -/
def Hw.lossNoted (h : Hw) (cause : Nat) : Hw :=
  ((h.put (STATUS pgPSS) 11 8 cause).sat PSS_LOSS_CNT).raise pgPSS 0

/-- Noting a loss changes registers, the lines that rose in this cycle and the edges taken for delivery only. -/
theorem Hw.lossNoted_only (h : Hw) (cause : Nat) : h.lossNoted cause = { h with
    regs := (h.lossNoted cause).regs, edges := (h.lossNoted cause).edges, rose := (h.lossNoted cause).rose } :=
  Hw.raiseG_only _ pgPSS 0 0

section LossNoted

variable {h : Hw} (ok : h.regsOk = true) (cause : Nat)
include ok

/-- Noting a loss counts it and writes the cause into the status, beside the raised event (R248). -/
theorem Hw.rd_lossNoted {j : Nat} (event : j ≠ EVT_RAW pgPSS) : (h.lossNoted cause).rd j =
    if j = PSS_LOSS_CNT then satAdd (h.rd PSS_LOSS_CNT) 1 else (h.put (STATUS pgPSS) 11 8 cause).rd j := by
  have okPut : (h.put (STATUS pgPSS) 11 8 cause).regsOk = true := Hw.wr_regsOk h ok _ _
  have okSat : ((h.put (STATUS pgPSS) 11 8 cause).sat PSS_LOSS_CNT).regsOk = true := Hw.wr_regsOk _ okPut _ _
  rw [Hw.lossNoted, Hw.rd_raise_other okSat _ event]
  split
  case isTrue count => rw [count, Hw.rd_sat_same okPut, Hw.rd_put_other ok _ _ _ (by decide)]
  case isFalse other => exact Hw.rd_sat_other okPut _ other

theorem Hw.rd_lossNoted_count : (h.lossNoted cause).rd PSS_LOSS_CNT = satAdd (h.rd PSS_LOSS_CNT) 1 := by
  rw [Hw.rd_lossNoted ok _ (by decide), if_pos rfl]

theorem Hw.rd_lossNoted_other {j : Nat} (status : j ≠ STATUS pgPSS) (count : j ≠ PSS_LOSS_CNT) (event : j ≠ EVT_RAW pgPSS) :
    (h.lossNoted cause).rd j = h.rd j := by
  rw [Hw.rd_lossNoted ok _ event, if_neg count, Hw.rd_put_other ok _ _ _ status]

theorem Hw.get_lossNoted_status (hi lo : Nat) :
    (h.lossNoted cause).get (STATUS pgPSS) hi lo = (h.put (STATUS pgPSS) 11 8 cause).get (STATUS pgPSS) hi lo := by
  rw [Hw.get, Hw.rd_lossNoted ok _ (by decide), if_neg (by decide), Hw.get]

theorem Hw.get_lossNoted_cause : (h.lossNoted cause).get (STATUS pgPSS) 11 8 = cause % 16 := by
  rw [Hw.get_lossNoted_status ok]
  exact Hw.get_put_same ok _ _ (by decide) (by decide)

theorem Hw.charge_lossNoted : (h.lossNoted cause).charge = h.charge := by
  rw [Hw.charge, Hw.get_lossNoted_status ok, Hw.get_put_apart ok _ _ (by decide) (by decide) (by decide), Hw.charge]

/-- A loss during HOLD or LIMP is noted and nothing more (R253): the channels' policies apply to a loss in IN_CHARGE alone. -/
theorem Hw.logicLost_outOfCharge (out : h.charge ≠ 2) : h.logicLost cause = h.lossNoted cause := by
  have stays : (h.lossNoted cause).charge ≠ 2 := by rwa [Hw.charge_lossNoted ok]
  exact if_pos stays

end LossNoted

/-- Settles O45: out of charge a loss is only noted, and noting it writes three registers. -/
theorem furtherLossOnlyUpdatesCause : Obligations.FurtherLossOnlyUpdatesCause := by
  intro h cause ok out
  rw [Hw.logicLost_outOfCharge ok cause out]
  exact ⟨Hw.lossNoted_only h cause, Hw.get_lossNoted_cause ok cause, Hw.charge_lossNoted ok cause,
    Hw.rd_lossNoted_count ok cause, fun _ => Hw.rd_lossNoted_other ok cause⟩

end Sys2Proof.Machine

/-! # Memories in canonical form

Every function of the model that answers a module keeps the memories canonical: one lemma for each of them, named after
it, in the order of the model's files, as for the registers above. A module whose memories are those of `h` inherits the
form by `Hw.MemCanon.frame`; a memory that is stored to keeps it by the laws of `store`, `Mem.write`, `Mem.splice` and
`List.filter`; everything else is built from the functions before it. -/

namespace Sys2Proof.Machine

/-! ## Tables and byte memories -/

/-- Settles O37: a byte of the memory after the store, by whether its address is among the stored ones. -/
theorem memoryReadAfterWrite : Obligations.MemoryReadAfterWrite := by
  intro m bs a x ok
  refine ⟨Mem.write_wf bs m a ok, ?_⟩
  split
  case isTrue inside =>
    obtain ⟨i, rfl⟩ := Nat.exists_eq_add_of_le inside.1
    simp only [Nat.add_sub_cancel_left]
    exact Mem.get_write_inside bs m a i (by omega) ok
  case isFalse outside => exact Mem.get_write_outside bs m a x ok (by omega)

/-- A canonical table from `lo` lists keys from `lo` on, none with its default, in rising order. -/
theorem canonFrom_iff {α : Type} [DecidableEq α] {d : Nat → α} {lo : Nat} {l : List (Nat × α)} :
    canonFrom d lo l = true ↔ (∀ e ∈ l, lo ≤ e.1 ∧ e.2 ≠ d e.1) ∧ l.Pairwise (fun x y => x.1 < y.1) := by
  induction l generalizing lo with
  | nil => simp [canonFrom]
  | cons e t ih =>
    obtain ⟨k, v⟩ := e
    simp only [canonFrom, Bool.and_eq_true, decide_eq_true_eq, ih, List.forall_mem_cons, List.pairwise_cons]
    constructor
    · rintro ⟨⟨le, ne⟩, rest, rising⟩
      exact ⟨⟨⟨le, ne⟩, fun x mem => ⟨by have := (rest x mem).1; omega, (rest x mem).2⟩⟩,
        fun x mem => (rest x mem).1, rising⟩
    · rintro ⟨⟨⟨le, ne⟩, rest⟩, above, rising⟩
      exact ⟨⟨le, ne⟩, fun x mem => ⟨above x mem, (rest x mem).2⟩, rising⟩

/-- A canonical memory lists no byte that is 0, and each address once, in rising order. -/
theorem Mem.wf_iff {m : Mem} : m.wf = true ↔ (∀ e ∈ m, e.2 ≠ 0) ∧ m.Pairwise (fun x y => x.1 < y.1) := by
  simp [Mem.wf, canon, canonFrom_iff, zeroByte]

/-- Part of a memory taken from another keeps the canonical form: what lies below the part, the part and what lies above it
follow one another. -/
theorem Mem.splice_wf {dst src : Mem} (okDst : dst.wf = true) (okSrc : src.wf = true) (upTo n fr : Nat) :
    (dst.splice upTo n src fr).wf = true := by
  obtain ⟨dstBytes, dstRises⟩ := Mem.wf_iff.mp okDst
  obtain ⟨srcBytes, srcRises⟩ := Mem.wf_iff.mp okSrc
  rw [Mem.wf_iff, Mem.splice]
  refine ⟨?bytes, ?rises⟩
  case bytes =>
    simp only [List.mem_append, List.mem_map, List.mem_filter]
    rintro e ((⟨below, -⟩ | ⟨x, ⟨part, -⟩, rfl⟩) | ⟨above, -⟩)
    exacts [dstBytes e below, srcBytes x part, dstBytes e above]
  case rises =>
    refine List.pairwise_append.mpr
      ⟨List.pairwise_append.mpr ⟨dstRises.filter _, ?part, ?belowPart⟩, dstRises.filter _, ?above⟩
    case part =>
      refine List.pairwise_map.mpr (List.Pairwise.imp_of_mem ?_ (srcRises.filter _))
      simp only [List.mem_filter, Bool.and_eq_true, decide_eq_true_eq]
      omega
    case belowPart =>
      simp only [List.mem_map, List.mem_filter, Bool.and_eq_true, decide_eq_true_eq]
      rintro x ⟨-, below⟩ _ ⟨y, ⟨-, within⟩, rfl⟩
      dsimp only
      omega
    case above =>
      simp only [List.mem_append, List.mem_map, List.mem_filter, Bool.and_eq_true, decide_eq_true_eq]
      rintro x (⟨-, below⟩ | ⟨y, ⟨-, within⟩, rfl⟩) z ⟨-, above⟩
      · omega
      · dsimp only
        omega

theorem poolPut_wf {m : Mem} (ok : m.wf = true) (ws : WBuf) : (poolPut m ws).wf = true := by
  unfold poolPut
  induction ws generalizing m with
  | nil => exact ok
  | cons e ws ih => exact ih (Mem.write_wf _ _ _ ok)

/-- Filing a value under a key of a presence list keeps a condition on its values. -/
theorem all_file {α : Type} {p : α → Bool} {l : List (Nat × α)} (ok : l.all (fun e => p e.2) = true) (k : Nat) {v : α}
    (holds : p v = true) : (file l k v).all (fun e => p e.2) = true := by
  induction l with
  | nil => simpa [file] using holds
  | cons e t ih =>
    obtain ⟨j, w⟩ := e
    simp only [List.all_cons, Bool.and_eq_true] at ok
    unfold file
    split
    · simp [holds, ok]
    · split <;> simp [holds, ok, ih ok.2]

/-- What a presence list holds under a key meets the condition on its values. -/
theorem all_find? {α : Type} {p : α → Bool} {l : List (Nat × α)} (ok : l.all (fun e => p e.2) = true) {k : Nat} {v : α}
    (found : find? l k = some v) : p v = true := by
  induction l with
  | nil => exact absurd found (by simp [find?])
  | cons e t ih =>
    obtain ⟨j, w⟩ := e
    simp only [List.all_cons, Bool.and_eq_true] at ok
    unfold find? at found
    split at found
    · exact Option.some.inj found ▸ ok.1
    · exact ih ok.2 found

/-! ## The memories of a module -/

/-- The memories of a module are in canonical form (`Hw.memsOk` by name of memory). -/
structure Hw.MemCanon (h : Hw) : Prop where
  t0 : h.mem.t0.wf = true
  t1 : h.mem.t1.wf = true
  flash : canon erasedByte h.mem.flash = true
  cells : h.mem.cells.wf = true
  prog : h.cea.prog.wf = true
  pool : h.cea.pool.wf = true
  pduRam : h.cea.pduRam.wf = true
  cans : h.zone.cans.all (fun c => c.2.ram.wf) = true

theorem Hw.memCanon_iff {h : Hw} : h.MemCanon ↔ h.memsOk = true := by
  simp only [Hw.memsOk, Bool.and_eq_true, and_assoc]
  exact ⟨fun ⟨t0, t1, flash, cells, prog, pool, pduRam, cans⟩ => ⟨t0, t1, flash, cells, prog, pool, pduRam, cans⟩,
    fun ⟨t0, t1, flash, cells, prog, pool, pduRam, cans⟩ => ⟨t0, t1, flash, cells, prog, pool, pduRam, cans⟩⟩

/-- A step, where it answers a next state, answers one whose memories are in canonical form. -/
def NextMemCanon : Host.Outcome State Fault Refusal → Prop
  | .next t => t.hw.MemCanon
  | _ => True

namespace Hw.MemCanon

variable {h g : Hw} {s : State}

/-- A change of anything but the memories. -/
theorem frame (ok : h.MemCanon)
    {regs resp shadow edges rose took free now ints cores pwr held sys ain tcu0 tcu1 tcu2 tcu3 cue frc dbg stage sw nmu key
      cry cvus span vpt rel twn hlt boot}
    {kept seq drains cads tasks runs engs pdus pduIn pduOut wcets replace outAt before}
    {frames moves moved epochAt scrubAt logSince xlat dma} {lins linRx stns rioCnt routes tunCnt handed} :
    Hw.MemCanon ⟨regs, resp, shadow, edges, rose, took, free, now, ints, cores, pwr, held, sys, ain, tcu0, tcu1, tcu2, tcu3,
      cue, ⟨h.cea.pool, h.cea.prog, h.cea.pduRam, kept, seq, drains, cads, tasks, runs, engs, pdus, pduIn, pduOut, wcets,
        replace, outAt, before⟩, frc, dbg, stage,
      ⟨h.mem.t0, h.mem.t1, h.mem.flash, h.mem.cells, frames, moves, moved, epochAt, scrubAt, logSince, xlat, dma⟩,
      ⟨h.zone.cans, lins, linRx, stns, rioCnt, routes, tunCnt, handed⟩, sw, nmu, key, cry, cvus, span, vpt, rel, twn, hlt,
      boot⟩ :=
  ⟨ok.t0, ok.t1, ok.flash, ok.cells, ok.prog, ok.pool, ok.pduRam, ok.cans⟩

theorem wr (ok : h.MemCanon) {k v} : (h.wr k v).MemCanon := ok.frame

theorem ite {c : Prop} {d : Decidable c} (a : h.MemCanon) (b : g.MemCanon) : (if c then h else g).MemCanon := by
  split
  exacts [a, b]

/-- A branch that goes on from the other. -/
theorem ifThen {c : Prop} {d : Decidable c} (ok : h.MemCanon) (f : h.MemCanon → g.MemCanon) :
    (if c then g else h).MemCanon := (f ok).ite ok

theorem ifElse {c : Prop} {d : Decidable c} (ok : h.MemCanon) (f : h.MemCanon → g.MemCanon) :
    (if c then h else g).MemCanon := ok.ite (f ok)

/-- What follows from an intermediate module. -/
theorem bind (ok : h.MemCanon) (f : h.MemCanon → g.MemCanon) : g.MemCanon := f ok

theorem ite_snd {α : Type} {c : Prop} {d : Decidable c} {p q : α × Hw} (a : p.2.MemCanon) (b : q.2.MemCanon) :
    (if c then p else q).2.MemCanon := by
  split
  exacts [a, b]

theorem ite_snd2 {α β : Type} {c : Prop} {d : Decidable c} {p q : α × β × Hw} (a : p.2.2.MemCanon)
    (b : q.2.2.MemCanon) : (if c then p else q).2.2.MemCanon := by
  split
  exacts [a, b]

theorem foldl {α : Type} {l : List α} {f : Hw → α → Hw} (ok : h.MemCanon)
    (hf : ∀ g a, g.MemCanon → (f g a).MemCanon) : (l.foldl f h).MemCanon :=
  List.foldlRecOn l f (motive := Hw.MemCanon) ok fun h ok a _ => hf h a ok

theorem each {n : Nat} {f : Nat → Hw → Hw} (ok : h.MemCanon)
    (hf : ∀ i g, g.MemCanon → (f i g).MemCanon) : (each n f h).MemCanon :=
  foldl ok fun g i ok => hf i g ok

theorem run (ok : s.hw.MemCanon) {f : Hw → Hw} (hf : ∀ g, g.MemCanon → (f g).MemCanon) : NextMemCanon (s.run f) :=
  hf s.hw ok

theorem foldl_snd {α β : Type} {l : List α} {f : β × Hw → α → β × Hw} {p : β × Hw} (ok : p.2.MemCanon)
    (hf : ∀ p a, p.2.MemCanon → (f p a).2.MemCanon) : (l.foldl f p).2.MemCanon :=
  List.foldlRecOn l f (motive := fun p => p.2.MemCanon) ok fun p ok a _ => hf p a ok

theorem foldl_snd2 {α β γ : Type} {l : List α} {f : β × γ × Hw → α → β × γ × Hw} {p : β × γ × Hw}
    (ok : p.2.2.MemCanon) (hf : ∀ p a, p.2.2.MemCanon → (f p a).2.2.MemCanon) : (l.foldl f p).2.2.MemCanon :=
  List.foldlRecOn l f (motive := fun p => p.2.2.MemCanon) ok fun p ok a _ => hf p a ok

theorem foldl_hw {α : Type} {l : List α} {f : CommitAcc → α → CommitAcc} {x : CommitAcc} (ok : x.hw.MemCanon)
    (hf : ∀ x a, x.hw.MemCanon → (f x a).hw.MemCanon) : (l.foldl f x).hw.MemCanon :=
  List.foldlRecOn l f (motive := fun x => x.hw.MemCanon) ok fun x ok a _ => hf x a ok

theorem snd {α : Type} {p : α × Hw} {a : α} (ok : p.2.MemCanon) (e : p = (a, g)) : g.MemCanon := by
  subst e
  exact ok

theorem snd2 {α β : Type} {p : α × β × Hw} {a : α} {b : β} (ok : p.2.2.MemCanon) (e : p = (a, b, g)) : g.MemCanon := by
  subst e
  exact ok

theorem pair {α : Type} {a : α} (ok : h.MemCanon) : (a, h).2.MemCanon := ok

theorem pair2 {α β : Type} {a : α} {b : β} (ok : h.MemCanon) : (a, b, h).2.2.MemCanon := ok

theorem foldl_snd3 {α β γ δ : Type} {l : List α} {f : β × γ × δ × Hw → α → β × γ × δ × Hw} {p : β × γ × δ × Hw}
    (ok : p.2.2.2.MemCanon) (hf : ∀ p a, p.2.2.2.MemCanon → (f p a).2.2.2.MemCanon) :
    (l.foldl f p).2.2.2.MemCanon :=
  List.foldlRecOn l f (motive := fun p => p.2.2.2.MemCanon) ok fun p ok a _ => hf p a ok

theorem foldl_fst {α β : Type} {l : List α} {f : Hw × β → α → Hw × β} {p : Hw × β} (ok : p.1.MemCanon)
    (hf : ∀ p a, p.1.MemCanon → (f p a).1.MemCanon) : (l.foldl f p).1.MemCanon :=
  List.foldlRecOn l f (motive := fun p => p.1.MemCanon) ok fun p ok a _ => hf p a ok

theorem ite_hw {c : Prop} {d : Decidable c} {x y : CommitAcc} (a : x.hw.MemCanon) (b : y.hw.MemCanon) :
    (if c then x else y).hw.MemCanon := by
  split
  exacts [a, b]

/-! ### `Sys2Proof/Machine/Ops.lean` -/

theorem capture (ok : h.MemCanon) {page code addr a d} : (h.capture page code addr a d).MemCanon := by
  unfold Hw.capture
  split
  exacts [ok.frame, ok.frame]

theorem raiseG (ok : h.MemCanon) {page i b} : (h.raiseG page i b).MemCanon := by
  unfold Hw.raiseG
  split
  · exact ok
  · dsimp only
    split
    exacts [ok.frame, ok.frame]

theorem put (ok : h.MemCanon) {k hi lo x} : (h.put k hi lo x).MemCanon := ok.wr

theorem putBit (ok : h.MemCanon) {k b x} : (h.putBit k b x).MemCanon := ok.put

theorem sat (ok : h.MemCanon) {k n} : (h.sat k n).MemCanon := ok.wr

theorem inc (ok : h.MemCanon) {k n} : (h.inc k n).MemCanon := ok.wr

theorem satF (ok : h.MemCanon) {k hi lo} : (h.satF k hi lo).MemCanon := ok.put

theorem incF (ok : h.MemCanon) {k hi lo} : (h.incF k hi lo).MemCanon := ok.put

theorem wrPair (ok : h.MemCanon) {lo hi v} : (h.wrPair lo hi v).MemCanon := ok.wr.wr

theorem deliver (ok : h.MemCanon) {e} : (h.deliver e).MemCanon := ok.frame

theorem edge (ok : h.MemCanon) {e} : (h.edge e).MemCanon := ok.frame

theorem raise (ok : h.MemCanon) {page b} : (h.raise page b).MemCanon := ok.raiseG

theorem raiseIf (ok : h.MemCanon) {c page b} : (h.raiseIf c page b).MemCanon := ok.raise.ite ok

theorem newEdges (ok : h.MemCanon) {old page i} : (Hw.newEdges old h page i).MemCanon := by
  refine ok.each fun b g ok => ?_
  split
  exacts [ok, ok.edge.ite ok]

theorem answer (ok : h.MemCanon) {v} : (h.answer v).MemCanon := ok.frame

theorem errResp (ok : h.MemCanon) : h.errResp.MemCanon := ok.frame

theorem refuse (ok : h.MemCanon) {k code a} : (h.refuse k code a).MemCanon := ok.capture.errResp

theorem access (ok : h.MemCanon) {k a f} (hf : ∀ g, g.MemCanon → (f g).MemCanon) : (h.access k a f).MemCanon :=
  ok.ite (ok.errResp.ite (ok.capture.errResp.ite (ok.refuse.ite (hf _ ok.answer))))

theorem busWrite (ok : h.MemCanon) {k a f} (hf : ∀ g, g.MemCanon → (f g).MemCanon) : (h.busWrite k a f).MemCanon :=
  ok.access fun g ok => ok.refuse.ite (hf g ok)

theorem storeReg (ok : h.MemCanon) {k v} : (h.storeReg k v).MemCanon := by
  unfold Hw.storeReg
  split
  exacts [ok, ok.wr]

theorem freeWord (ok : h.MemCanon) : h.freeWord.2.MemCanon := ok.frame

theorem freeByte (ok : h.MemCanon) : h.freeByte.2.MemCanon := ok.frame

theorem freeBytes (ok : h.MemCanon) {n} : (h.freeBytes n).2.MemCanon := by
  induction n generalizing h with
  | zero => exact ok
  | succ n ih => exact ih ok.freeByte

theorem freeDiv (ok : h.MemCanon) {a b} : (h.freeDiv a b).2.MemCanon := ok.ite_snd ok.frame

/-! ### `Sys2Proof/Machine/Timecode.lean` -/

theorem setSlot (ok : h.MemCanon) {n t} : (h.setSlot n t).MemCanon :=
  ok.frame.ite (ok.frame.ite (ok.frame.ite ok.frame))

theorem rebase (ok : h.MemCanon) {n} : (h.rebase n).MemCanon := ok.setSlot

theorem tcuEvent (ok : h.MemCanon) {n m} : (h.tcuEvent n m).MemCanon := ok.raise

theorem setPtp (ok : h.MemCanon) {i x} : (h.setPtp i x).MemCanon := ok.frame

theorem leaveAcquiring (ok : h.MemCanon) {n old} : (h.leaveAcquiring n old).MemCanon := ok.setSlot.ite ok

theorem setTcuState (ok : h.MemCanon) {n st} : (h.setTcuState n st).MemCanon :=
  (ok.setSlot.ite ok).put.leaveAcquiring

theorem enterHoldover (ok : h.MemCanon) {n} : (h.enterHoldover n).MemCanon :=
  ok.rebase.setSlot.setTcuState.tcuEvent

theorem enterFreerun (ok : h.MemCanon) {n} : (h.enterFreerun n).MemCanon :=
  ok.rebase.setSlot.setTcuState.tcuEvent

theorem setCorr (ok : h.MemCanon) {n c ppm} : (h.setCorr n c ppm).MemCanon := ok.rebase.setSlot.putBit

theorem planStep (ok : h.MemCanon) {n c} : (h.planStep n c).MemCanon := ok.setCorr.setSlot

theorem judge (ok : h.MemCanon) {n d relock} : (h.judge n d relock).MemCanon :=
  ok.setCorr.ite ((ok.setCorr.ite ok.setCorr.setSlot).ite ((ok.planStep.ite ok.setCorr).ite (ok.setCorr.ite
      ok.planStep)))

theorem execTcuBaseTickWrite (ok : s.hw.MemCanon) {v a} : NextMemCanon (Machine.execTcuBaseTickWrite v a s) :=
  ok.run fun _ ok => ok.busWrite fun _ ok => ok.refuse.ite (ok.refuse.ite ok.wr)

theorem sourceChanged (ok : h.MemCanon) {n old len} : (h.sourceChanged n old len).MemCanon :=
  ok.ite (ok.setCorr.setSlot.put.putBit.ite ((ok.setCorr.putBit.ifElse fun ok => ok.setSlot).bind fun ok =>
      ok.enterFreerun.ite (ok.enterHoldover.ite ok.put)))

theorem loseSource (ok : h.MemCanon) {n} : (h.loseSource n).MemCanon :=
  ok.setCorr.putBit.incF.enterHoldover.ite ok

theorem execSourceLost (ok : s.hw.MemCanon) {n fault} : NextMemCanon (Machine.execSourceLost n fault s) :=
  ok.run fun _ ok => ok.ite ok.raiseIf.loseSource

theorem execHoldLimitExpiry (ok : s.hw.MemCanon) {n} : NextMemCanon (Machine.execHoldLimitExpiry n s) :=
  ok.run fun _ ok => ok.enterFreerun.ite ok

theorem execAngStall (ok : s.hw.MemCanon) {n} : NextMemCanon (Machine.execAngStall n s) :=
  ok.run fun _ ok => ok.rebase.setSlot.putBit.tcuEvent.ite ok

theorem execSlewDone (ok : s.hw.MemCanon) {n} : NextMemCanon (Machine.execSlewDone n s) :=
  ok.run fun _ ok => ok.setCorr.ite ok

theorem slewLimit (ok : h.MemCanon) {n} : (h.slewLimit n).MemCanon := ok.rebase.setSlot.ite ok

theorem shaftAt (ok : h.MemCanon) {n p} : (h.shaftAt n p).MemCanon := ok.setSlot.ite ok

theorem encoderEdge (ok : h.MemCanon) {n fwd gapNs} : (h.encoderEdge n fwd gapNs).MemCanon :=
  ok.rebase.setSlot.putBit

theorem qualify (ok : h.MemCanon) {n src rate tickNs seen} : (h.qualify n src rate tickNs seen).MemCanon :=
  ok.ite (ok.rebase.wr.setSlot.bind fun ok => (ok.setSlot.ite ok).judge.setTcuState.tcuEvent.ite
      (ok.setSlot.ite ok).setSlot.setTcuState.tcuEvent)

/-! ### `Sys2Proof/Machine/CueSheet.lean` -/

theorem setHalf (ok : h.MemCanon) {i l} : (h.setHalf i l).MemCanon := ok.frame.ite ok.frame

theorem execCueIdxWrite (ok : s.hw.MemCanon) {v a} : NextMemCanon (Machine.execCueIdxWrite v a s) :=
  ok.run fun _ ok => ok.busWrite fun _ ok => ok.storeReg.wr.wr.wr.wr

theorem cueIdxNext (ok : h.MemCanon) : h.cueIdxNext.MemCanon := ok.incF

theorem execCueW3Write (ok : s.hw.MemCanon) {v a} : NextMemCanon (Machine.execCueW3Write v a s) :=
  ok.run fun _ ok => ok.busWrite fun _ ok => ok.refuse.ite (ok.wr.refuse.cueIdxNext.ite
      (ok.wr.refuse.cueIdxNext.ite ok.wr.setHalf.cueIdxNext))

theorem swapPending (ok : h.MemCanon) {tc b} : (h.swapPending tc b).MemCanon := ok.frame.putBit.putBit

theorem execCueSwapRequest (ok : s.hw.MemCanon) {v a} : NextMemCanon (Machine.execCueSwapRequest v a s) :=
  ok.run fun _ ok => ok.busWrite fun _ ok => ok.put.put.ite (ok.refuse.raise.ite
      ok.put.put.putBit.swapPending)

theorem swapHalves (ok : h.MemCanon) : h.swapHalves.MemCanon := ok.frame.raise

theorem execCueCopy (ok : s.hw.MemCanon) {v a} : NextMemCanon (Machine.execCueCopy v a s) :=
  ok.run fun _ ok => ok.busWrite fun _ ok => ok.refuse.ite (ok.frame.putBit.ite ok)

theorem execCopyDone (ok : s.hw.MemCanon) : NextMemCanon (Machine.execCopyDone s) :=
  ok.run fun _ ok => ok.setHalf.frame.putBit.ite ok

theorem execCueCntClr (ok : s.hw.MemCanon) {v a} : NextMemCanon (Machine.execCueCntClr v a s) :=
  ok.run fun _ ok => ok.busWrite fun _ ok => ((ok.wr.ite ok).ifThen fun ok => ok.wr).bind fun ok =>
      ok.wr.ite ok

theorem fireChecked (ok : h.MemCanon) {e f} (hf : ∀ g, g.MemCanon → (f g).MemCanon) : (h.fireChecked e f).MemCanon :=
  ok.sat.raise.ite (ok.sat.ite (hf h ok))

theorem cueNow (ok : h.MemCanon) : h.cueNow.MemCanon := ok.ite ok.frame

theorem passMarks (ok : h.MemCanon) : h.passMarks.MemCanon := ok.each fun _ _ ok => ok.setSlot

theorem fireAt (ok : h.MemCanon) {i v e f} (hf : ∀ g, g.MemCanon → (f g).MemCanon) : (h.fireAt i v e f).MemCanon :=
  (ok.cueNow.frame.fireChecked hf).ite ok.cueNow.frame.sat.raise

theorem cueTaken (ok : h.MemCanon) {i} : (h.cueTaken i).MemCanon := ok.cueNow.frame

theorem fireCue (ok : h.MemCanon) {c act f} (hf : ∀ i j k l g, g.MemCanon → (f i j k l g).MemCanon) :
    (h.fireCue c act f).MemCanon := by
  unfold Hw.fireCue
  refine .ite ?_ ok
  split
  exacts [ok.cueTaken.fireAt (hf _ _ _ _), ok]

theorem evtPulseEff (ok : h.MemCanon) {arg v tc idx} : (Machine.evtPulseEff arg v tc idx h).MemCanon :=
  ok.edge.ite ok

theorem tcCaptureEff (ok : h.MemCanon) {arg v tc idx} : (Machine.tcCaptureEff arg v tc idx h).MemCanon :=
  ok.wr.wr

theorem swapEff (ok : h.MemCanon) {arg v tc idx} : (Machine.swapEff arg v tc idx h).MemCanon :=
  ok.capture.raise.ite ok.swapPending

theorem execEvtPulse (ok : s.hw.MemCanon) {c} : NextMemCanon (Machine.execEvtPulse c s) :=
  ok.run fun _ ok => ok.fireCue fun _ _ _ _ _ ok => ok.evtPulseEff

theorem execTcCapture (ok : s.hw.MemCanon) {c} : NextMemCanon (Machine.execTcCapture c s) :=
  ok.run fun _ ok => ok.fireCue fun _ _ _ _ _ ok => ok.tcCaptureEff

theorem execSwap (ok : s.hw.MemCanon) {c} : NextMemCanon (Machine.execSwap c s) :=
  ok.run fun _ ok => ok.fireCue fun _ _ _ _ _ ok => ok.swapEff

/-! ### `Sys2Proof/Machine/Array.lean` -/

theorem setCad (ok : h.MemCanon) {c x} : (h.setCad c x).MemCanon := ok.frame

theorem setTask (ok : h.MemCanon) {t x} : (h.setTask t x).MemCanon := ok.frame

theorem setEng (ok : h.MemCanon) {e x} : (h.setEng e x).MemCanon := ok.frame

theorem setRun (ok : h.MemCanon) {t r} : (h.setRun t r).MemCanon := ok.frame

theorem dropRun (ok : h.MemCanon) {t} : (h.dropRun t).MemCanon := ok.frame

theorem setEngState (ok : h.MemCanon) {e st} : (h.setEngState e st).MemCanon := ok.put.put.put.put.put

theorem clearSuspect (ok : h.MemCanon) {e testing} : (h.clearSuspect e testing).MemCanon := ok.setEng

theorem beforeOut (ok : h.MemCanon) {ks} : (h.beforeOut ks).MemCanon := ok.frame

theorem setTaskState (ok : h.MemCanon) {t st} : (h.setTaskState t st).MemCanon := ok.put

theorem setLast (ok : h.MemCanon) {t x} : (h.setLast t x).MemCanon := ok.put

theorem trimKept (ok : h.MemCanon) : h.trimKept.MemCanon := (ok.frame.put.wr.ite ok.frame.put).raiseIf

theorem keep (ok : h.MemCanon) {seq ws} : (h.keep seq ws).MemCanon := ok.frame

theorem setPool (ok : h.MemCanon) {m : Mem} (wf : m.wf = true) {kept drains} :
    Hw.MemCanon { h with cea := { h.cea with pool := m, kept := kept, drains := drains } } :=
  { ok with pool := wf }

theorem poolWriteAt (ok : h.MemCanon) {seq a bs} : (h.poolWriteAt seq a bs).MemCanon :=
  trimKept (ok.keep.setPool (poolPut_wf ok.pool _))

theorem poolWrite (ok : h.MemCanon) {a bs} : (h.poolWrite a bs).MemCanon := ok.frame.poolWriteAt

/-! ### `Sys2Proof/Machine/Worlds.lean` -/

theorem execEvtClrWrite (ok : s.hw.MemCanon) {page g v again a} :
    NextMemCanon (Machine.execEvtClrWrite page g v again a s) :=
  ok.run fun _ ok => ok.busWrite fun _ ok => ok.wr.newEdges.ite ok

theorem execEvtSetWrite (ok : s.hw.MemCanon) {page g v a} :
    NextMemCanon (Machine.execEvtSetWrite page g v a s) :=
  ok.run fun _ ok => ok.busWrite fun _ ok => ok.wr.newEdges.ite ok

theorem execErrCapClear (ok : s.hw.MemCanon) {page v fresh a} :
    NextMemCanon (Machine.execErrCapClear page v fresh a s) := by
  unfold Machine.execErrCapClear
  refine ok.run fun _ ok => ok.busWrite fun _ ok => ?_
  dsimp only
  split
  exacts [ok.wr.wr.wr.wr.ite ok, (ok.wr.wr.wr.wr.ite ok).capture]

theorem lockAll (ok : h.MemCanon) : h.lockAll.MemCanon :=
  (ok.foldl fun _ _ ok => ok.putBit).putBit.putBit.putBit.raise

theorem lockWrite (ok : h.MemCanon) {page v} : (h.lockWrite page v).MemCanon := ok.wr.lockAll.ite ok.wr

theorem execLockWrite (ok : s.hw.MemCanon) {page v a} : NextMemCanon (Machine.execLockWrite page v a s) :=
  ok.run fun _ ok => ok.busWrite fun _ ok => ok.lockWrite

theorem execWgtLockAll (ok : s.hw.MemCanon) {v a} : NextMemCanon (Machine.execWgtLockAll v a s) :=
  ok.run fun _ ok => ok.busWrite fun _ ok => ok.lockWrite.ifThen fun ok => ok.lockAll

theorem execWorldWrite (ok : s.hw.MemCanon) {page v a} : NextMemCanon (Machine.execWorldWrite page v a s) :=
  ok.run fun _ ok => ok.refuse.ite (ok.access fun _ ok => ok.refuse.ite (ok.ite ok.put))

theorem putPend (ok : h.MemCanon) {r x} : (h.putPend r x).MemCanon := ok.putBit.ite ok.putBit

theorem dropHeld (ok : h.MemCanon) {r} : (h.dropHeld r).MemCanon := ok.frame.putPend

theorem pwrLast (ok : h.MemCanon) {r result} : (h.pwrLast r result).MemCanon := ok.wr

theorem refuseHeld (ok : h.MemCanon) {r cause tick} : (h.refuseHeld r cause tick).MemCanon :=
  ok.dropHeld.wr.wr.incF.pwrLast.raise.raise

theorem gateRefused (ok : h.MemCanon) {addr a} : (h.gateRefused addr a).MemCanon := ok.sat.capture.raise

/-! ### `Sys2Proof/Machine/Memory.lean` -/

theorem setT1 (ok : h.MemCanon) {o b} : (h.setT1 o b).MemCanon := by
  unfold Hw.setT1
  split
  exacts [{ ok with t0 := Mem.set_wf _ ok.t0 _ _ }, { ok with t1 := Mem.set_wf _ ok.t1 _ _ }]

theorem memGate (ok : h.MemCanon) {addr write a} : (h.memGate addr write a).2.MemCanon := by
  unfold Hw.memGate
  split
  · exact ok
  · refine .ite_snd ok.gateRefused (.ite_snd ok ?_)
    split
    exacts [ok.capture.ite_snd ok, ok.capture.ite_snd ok, ok.capture.ite_snd ok, ok, ok]

theorem readLines (ok : h.MemCanon) {a l bs} : (Hw.readLines a l bs h).2.MemCanon := by
  induction l generalizing bs h with
  | nil => exact ok
  | cons x l ih =>
    unfold Hw.readLines
    split
    · next e => exact ok.memGate.snd e
    · next e => exact ih (ok.memGate.snd e)

theorem memRead (ok : h.MemCanon) {addr n a} : (h.memRead addr n a).2.MemCanon := ok.readLines

theorem spaceWrite (ok : h.MemCanon) {sp o bs} : (h.spaceWrite sp o bs).MemCanon := by
  unfold Hw.spaceWrite
  split
  exacts [{ ok with t0 := Mem.write_wf _ _ _ ok.t0 }, ok.foldl_snd fun _ _ ok => ok.setT1,
    { ok with prog := Mem.write_wf _ _ _ ok.prog }, ok.poolWrite, ok]

theorem writeLines (ok : h.MemCanon) {a l bs} : (Hw.writeLines a l bs h).2.MemCanon := by
  induction l generalizing bs h with
  | nil => exact ok
  | cons x l ih =>
    unfold Hw.writeLines
    split
    · next e => exact ok.memGate.snd e
    · next e => exact ih (ok.memGate.snd e).spaceWrite

theorem memWrite (ok : h.MemCanon) {addr bs a} : (h.memWrite addr bs a).2.MemCanon := ok.writeLines

theorem memWord (ok : h.MemCanon) {addr n a} : (h.memWord addr n a).2.MemCanon := by
  unfold Hw.memWord
  split
  · next e => exact ok.memRead.snd e
  · next e => exact ok.memRead.snd e

/-! ### `Sys2Proof/Machine/Flash.lean` -/

theorem flashErase (ok : h.MemCanon) {o n} : (h.flashErase o n).MemCanon :=
  { ok with flash := filter_canon _ _ _ ok.flash }

theorem flashPut (ok : h.MemCanon) {o b} : (h.flashPut o b).MemCanon :=
  .ite { ok with flash := store_canon _ _ ok.flash _ _ } { ok with flash := store_canon _ _ ok.flash _ _ }

theorem flashProgram (ok : h.MemCanon) {o bs} : (h.flashProgram o bs).MemCanon :=
  ok.foldl_snd fun _ _ ok => ok.flashPut

theorem flashReplace (ok : h.MemCanon) {o bs} : (h.flashReplace o bs).MemCanon := ok.flashErase.flashProgram

/-! ### `Sys2Proof/Machine/Can.lean` -/

/-- The data RAM of a controller is canonical, whether the controller has state of its own or none yet. -/
theorem can_ram (ok : h.MemCanon) (n : Nat) : (h.can n).ram.wf = true := by
  unfold Hw.can
  cases found : find? h.zone.cans n with
  | none => rfl
  | some c => exact all_find? (p := fun c => c.ram.wf) ok.cans found

theorem setCanRam (ok : h.MemCanon) {n} {c : CanSt} (ram : c.ram.wf = true) : (h.setCan n c).MemCanon :=
  { ok with cans := all_file (p := fun c : CanSt => c.ram.wf) ok.cans n ram }

/-- A change of anything but the data RAM of a controller. -/
theorem setCan (ok : h.MemCanon) {n tx again ready aged rx counting waiting stopping stopBy pendAt ignore cnt} :
    (h.setCan n ⟨(h.can n).ram, tx, again, ready, aged, rx, counting, waiting, stopping, stopBy, pendAt, ignore,
      cnt⟩).MemCanon :=
  ok.setCanRam (ok.can_ram n)

theorem canCount (ok : h.MemCanon) {n k} : (h.canCount n k).MemCanon := ok.setCan

theorem setObjData (ok : h.MemCanon) {n o bs upto} : (h.setObjData n o bs upto).MemCanon :=
  ok.setCanRam (Mem.write_wf _ _ _ (ok.can_ram n))

theorem setPending (ok : h.MemCanon) {n o x} : (h.setPending n o x).MemCanon := ok.putBit.putBit

theorem objFlag (ok : h.MemCanon) {n o b} : (h.objFlag n o b).MemCanon := ok.putBit

theorem unpend (ok : h.MemCanon) {n o} : (h.unpend n o).MemCanon := ok.setCan.setPending

theorem objRevoked (ok : h.MemCanon) {n o} : (h.objRevoked n o).MemCanon := (ok.ite ok.unpend).objFlag.raise

theorem makePending (ok : h.MemCanon) {n o} : (h.makePending n o).MemCanon :=
  (ok.objRevoked.ite (ok.objFlag.ite ok.wrPair.setCan.setPending)).ite (ok.objFlag.ite ok.setCan.setPending)

theorem canTrigger (ok : h.MemCanon) {n o cue} : (h.canTrigger n o cue).MemCanon :=
  ok.setCan.ite ((ok.objFlag.canCount.ite ok.objFlag).ite ok.makePending)

theorem canUpdate (ok : h.MemCanon) {n o send dlc bs} : (h.canUpdate n o send dlc bs).MemCanon :=
  ok.objFlag.ite (ok.put.setObjData.setCan.ifThen fun ok => ok.canTrigger)

theorem canTxEff (ok : h.MemCanon) {arg v tc idx} : (Machine.canTxEff arg v tc idx h).MemCanon :=
  ok.canTrigger.ite ok.canCount

theorem execCanTx (ok : s.hw.MemCanon) {c} : NextMemCanon (Machine.execCanTx c s) :=
  ok.run fun _ ok => ok.fireCue fun _ _ _ _ _ ok => ok.canTxEff

theorem execCanTxreq (ok : s.hw.MemCanon) {n v a} : NextMemCanon (Machine.execCanTxreq n v a s) :=
  ok.run fun _ ok => ok.busWrite fun _ ok => ok.canTrigger.ite ok.refuse

theorem execMacReady (ok : s.hw.MemCanon) {n o} : NextMemCanon (Machine.execMacReady n o s) :=
  ok.run fun _ ok => ok.setCan.ite ok

theorem loopDelay (ok : h.MemCanon) {n f} : (h.loopDelay n f).MemCanon := ok.frame.put.ite ok

theorem execArbitrationStart (ok : s.hw.MemCanon) {n won} :
    NextMemCanon (Machine.execArbitrationStart n won s) := by
  unfold Machine.execArbitrationStart
  refine ok.run fun _ ok => .ite ok ?_
  dsimp only
  split
  · exact ok.foldl fun _ _ ok => ok.objRevoked
  · exact (ok.foldl fun _ _ ok => ok.objRevoked).setCan.objFlag.loopDelay.ite (ok.foldl fun _ _ ok =>
      ok.objRevoked).canCount

theorem ageDrop (ok : h.MemCanon) {n o} : (h.ageDrop n o).MemCanon := ok.unpend.objFlag.canCount.raise

theorem execAgeDrop (ok : s.hw.MemCanon) {n o} : NextMemCanon (Machine.execAgeDrop n o s) :=
  ok.run fun _ ok => ok.ite (ok.setCan.ite ok.ageDrop)

theorem offBus (ok : h.MemCanon) {n} : (h.offBus n).MemCanon := by
  unfold Hw.offBus
  split
  exacts [ok, ok.setCan.putBit]

theorem attemptFails (ok : h.MemCanon) {n} : (h.attemptFails n).MemCanon := by
  unfold Hw.attemptFails
  split
  · exact ok
  · exact ok.offBus.setCan.bind fun ok => (ok.ageDrop.makePending.ite ok.ageDrop).ite (ok.objRevoked.ite
      ok)

theorem canStopNow (ok : h.MemCanon) {n} : (h.canStopNow n).MemCanon := ok.setCan.putBit.ite ok

theorem notAlone (ok : h.MemCanon) {n} : (h.notAlone n).MemCanon := ok.putBit.put

theorem busOff (ok : h.MemCanon) {n} : (h.busOff n).MemCanon :=
  ok.attemptFails.setCan.put.put.canCount.raise

theorem canState (ok : h.MemCanon) {n} : (h.canState n).MemCanon :=
  ok.ite (ok.busOff.ite (ok.put.raiseIf.ite ok.put))

theorem errUp (ok : h.MemCanon) {n tec k} : (h.errUp n tec k).MemCanon := ok.ite (ok.put.ite ok.put)

theorem tecDown (ok : h.MemCanon) {n} : (h.tecDown n).MemCanon := ok.ite ok.put.canState

theorem recDown (ok : h.MemCanon) {n} : (h.recDown n).MemCanon := ok.ite ok.put.canState

theorem errFound (ok : h.MemCanon) {n sending err waived xlData} :
    (h.errFound n sending err waived xlData).MemCanon :=
  ((ok.put.ite ok.put.canCount).ifElse fun ok => ok.errUp).bind fun ok => ((ok.satF.putBit.raise.ite
      ok.satF).ite ok).bind fun ok => ((ok.setCan.ite ok).ifThen fun ok =>
      ok.attemptFails).canState.canStopNow

theorem canLapse (ok : h.MemCanon) {n} : (h.canLapse n).MemCanon := ok.attemptFails.canStopNow.ite ok

theorem canPex (ok : h.MemCanon) {n sending} : (h.canPex n sending).MemCanon :=
  ok.setCan.canCount.canStopNow.ite ok.errFound

theorem execErrorDetected (ok : s.hw.MemCanon) {n sending e} :
    NextMemCanon (Machine.execErrorDetected n sending e s) := by
  unfold Machine.execErrorDetected
  refine ok.run fun _ ok => .ite ok.canLapse ?_
  split
  · exact ok.canLapse.errFound
  · exact ok.canLapse.canPex
  · exact ok.canLapse.ite ok.canLapse.errUp.canState
  · exact ok.canLapse.errUp.canState
  · exact ok.canLapse.errUp.canState
  · exact ok.canLapse.errUp.canState
  · exact ok.canLapse.errUp.canState

theorem execRecessiveSequence (ok : s.hw.MemCanon) {n} : NextMemCanon (Machine.execRecessiveSequence n s) :=
  ok.run fun _ ok => ok.ite ((ok.ite (ok.put.ite ok.put.setCan.put.put.put.putBit.putBit.raise)).ite
      ok.setCan.putBit)

theorem execCanRecov (ok : s.hw.MemCanon) {n v a} : NextMemCanon (Machine.execCanRecov n v a s) :=
  ok.run fun _ ok => ok.busWrite fun _ ok => ok.ite (ok.refuse.ite (ok.ite (ok.putBit.ite
      ok.setCan.put.putBit)))

theorem canCtrl (ok : h.MemCanon) {n v busy a} : (h.canCtrl n v busy a).MemCanon :=
  ok.canLapse.ite ((ok.canLapse.refuse.ite ok.canLapse.setCan.put.putBit).ite
      (ok.canLapse.putBit.put.putBit.setCan.ifElse fun ok => ok.putBit))

theorem execCanEnable (ok : s.hw.MemCanon) {n v a} : NextMemCanon (Machine.execCanEnable n v a s) :=
  ok.run fun _ ok => ok.busWrite fun _ ok => ok.canCtrl

theorem execCanDisable (ok : s.hw.MemCanon) {n v busy a} :
    NextMemCanon (Machine.execCanDisable n v busy a s) :=
  ok.run fun _ ok => ok.busWrite fun _ ok => ok.canCtrl

theorem objTrim (ok : h.MemCanon) {n o} : (h.objTrim n o).MemCanon :=
  (ok.ite ok.put).ifThen fun ok => ok.put

theorem execCanObjectWrite (ok : s.hw.MemCanon) {n o w v a} :
    NextMemCanon (Machine.execCanObjectWrite n o w v a s) :=
  ok.run fun _ ok => ok.busWrite fun _ ok => ok.refuse.ite (ok.refuse.ite (ok.refuse.ite
      ok.storeReg.objTrim))

theorem execCanCntClr (ok : s.hw.MemCanon) {n v a} : NextMemCanon (Machine.execCanCntClr n v a s) :=
  ok.run fun _ ok => ok.busWrite fun _ ok => ok.setCan

theorem execFrameStore (ok : s.hw.MemCanon) {n} : NextMemCanon (Machine.execFrameStore n s) := by
  unfold Machine.execFrameStore
  refine ok.run fun _ ok => ?_
  split
  · exact ok
  · refine .ite (.raise (.canCount (.objFlag (.canCount (.objFlag (.incF ?_)))))) (.canCount (.objFlag (.incF
      ?_)))
    · split
      · exact ok.setCan.setObjData.put.putBit.put.put.put.putBit.wr.wr.wr
      · exact ok.setCan.setObjData.put.putBit.put.put.put.putBit.wr.wr.wr.wrPair
    · split
      · exact ok.setCan.setObjData.put.putBit.put.put.put.putBit.wr.wr.wr
      · exact ok.setCan.setObjData.put.putBit.put.put.put.putBit.wr.wr.wr.wrPair

theorem canKeysRevoked (ok : h.MemCanon) {slots} : (h.canKeysRevoked slots).MemCanon :=
  ok.each fun _ _ ok => ok.each fun _ _ ok => ok.objRevoked.ite ok

/-! ### `Sys2Proof/Machine/Tables.lean` -/

theorem setFdb (ok : h.MemCanon) {t i w v} : (h.setFdb t i w v).MemCanon := ok.frame

theorem setStrm (ok : h.MemCanon) {t i w v} : (h.setStrm t i w v).MemCanon := ok.frame

theorem fdbUsed (ok : h.MemCanon) : h.fdbUsed.MemCanon := ok.wr

theorem tableWorks (ok : h.MemCanon) {k limit} : (h.tableWorks k limit).MemCanon := ok.frame

theorem tableCommand (ok : h.MemCanon) {k op v a size f} (hf : ∀ t i g, g.MemCanon → (f t i g).2.2.MemCanon) :
    (h.tableCommand k op v a size f).MemCanon :=
  ok.busWrite fun g ok => ok.refuse.ite (ok.refuse.ite (hf _ _ g ok).wr.tableWorks)

theorem fdbCommand (ok : h.MemCanon) {op v a f} (hf : ∀ t i g, g.MemCanon → (f t i g).2.2.MemCanon) :
    (h.fdbCommand op v a f).MemCanon :=
  ok.tableCommand hf

theorem strmCommand (ok : h.MemCanon) {op v a f} (hf : ∀ t i g, g.MemCanon → (f t i g).2.2.MemCanon) :
    (h.strmCommand op v a f).MemCanon :=
  ok.tableCommand hf

theorem execFdbRead (ok : s.hw.MemCanon) {v a} : NextMemCanon (Machine.execFdbRead v a s) :=
  ok.run fun _ ok => ok.fdbCommand fun _ _ _ ok => ok.each fun _ _ ok => ok.wr

theorem execFdbWrite (ok : s.hw.MemCanon) {v a} : NextMemCanon (Machine.execFdbWrite v a s) :=
  ok.run fun _ ok => ok.fdbCommand fun _ _ _ ok => (ok.each fun _ _ ok => ok.setFdb).fdbUsed

theorem execFdbLookup (ok : s.hw.MemCanon) {v a} : NextMemCanon (Machine.execFdbLookup v a s) := by
  unfold Machine.execFdbLookup
  refine ok.run fun _ ok => ok.fdbCommand fun _ _ _ ok => ?_
  split
  exacts [ok, ok]

theorem execFdbDelete (ok : s.hw.MemCanon) {v a} : NextMemCanon (Machine.execFdbDelete v a s) :=
  ok.run fun _ ok => ok.fdbCommand fun _ _ _ ok => (ok.each fun _ _ ok => ok.setFdb).fdbUsed

theorem fdbClear (ok : h.MemCanon) {i} : (h.fdbClear i).MemCanon := ok.each fun _ _ ok => ok.setFdb

theorem fdbFlush (ok : h.MemCanon) {p} : (h.fdbFlush p).MemCanon :=
  (ok.foldl fun _ _ ok => ok.fdbClear).fdbUsed

theorem execFdbFlushFid (ok : s.hw.MemCanon) {v a} : NextMemCanon (Machine.execFdbFlushFid v a s) :=
  ok.run fun _ ok => ok.fdbCommand fun _ _ _ ok => ok.fdbFlush

theorem execFdbFlushPort (ok : s.hw.MemCanon) {v a} : NextMemCanon (Machine.execFdbFlushPort v a s) :=
  ok.run fun _ ok => ok.fdbCommand fun _ _ _ ok => ok.fdbFlush

theorem execFdbAgeing (ok : s.hw.MemCanon) : NextMemCanon (Machine.execFdbAgeing s) :=
  ok.run fun _ ok => ok.ite (ok.foldl fun _ _ ok => ok.fdbClear.ite ok.setFdb).fdbUsed

theorem execStrmRead (ok : s.hw.MemCanon) {v a} : NextMemCanon (Machine.execStrmRead v a s) :=
  ok.run fun _ ok => ok.strmCommand fun _ _ _ ok => ok.each fun _ _ ok => ok.wr

theorem execStrmWrite (ok : s.hw.MemCanon) {v a} : NextMemCanon (Machine.execStrmWrite v a s) :=
  ok.run fun _ ok => (ok.busWrite fun _ ok => ok.refuse).ite (ok.strmCommand fun _ _ _ ok =>
      ((ok.each fun _ _ ok => ok.setStrm).ifThen fun ok => ok.setStrm).ifThen fun ok => ok.frame)

theorem execStrmLookup (ok : s.hw.MemCanon) {v a} : NextMemCanon (Machine.execStrmLookup v a s) := by
  unfold Machine.execStrmLookup
  refine ok.run fun _ ok => ok.strmCommand fun _ _ _ ok => ?_
  split
  exacts [ok, ok]

theorem execStrmDelete (ok : s.hw.MemCanon) {v a} : NextMemCanon (Machine.execStrmDelete v a s) :=
  ok.run fun _ ok => ok.strmCommand fun _ _ _ ok => ok.each fun _ _ ok => ok.setStrm

theorem swCount (ok : h.MemCanon) {space index num n} : (h.swCount space index num n).MemCanon := ok.frame

theorem execSeqRecoveryReset (ok : s.hw.MemCanon) {n} : NextMemCanon (Machine.execSeqRecoveryReset n s) :=
  ok.run fun _ ok => ok.ite ok.setStrm.setStrm.swCount.raise

theorem execSwcCntClr (ok : s.hw.MemCanon) {v a} : NextMemCanon (Machine.execSwcCntClr v a s) :=
  ok.run fun _ ok => ok.busWrite fun _ ok => ok.refuse.ite ok.frame

theorem execGrnCntClr (ok : s.hw.MemCanon) {v a} : NextMemCanon (Machine.execGrnCntClr v a s) :=
  ok.run fun _ ok => ok.busWrite fun _ ok => ((ok.wr.ite ok).ifThen fun ok => ok.wr).bind fun ok =>
      ok.wr.ite ok

theorem execLoftCntClr (ok : s.hw.MemCanon) {v a} : NextMemCanon (Machine.execLoftCntClr v a s) :=
  ok.run fun _ ok => ok.busWrite fun _ ok => ok.wr.ite ok

/-! ### `Sys2Proof/Machine/Granary.lean` -/

theorem setQueue (ok : h.MemCanon) {q x} : (h.setQueue q x).MemCanon := ok.frame

theorem setDesc (ok : h.MemCanon) {d x} : (h.setDesc d x).MemCanon := ok.frame

theorem noteFree (ok : h.MemCanon) {n} : (h.noteFree n).MemCanon := ok.frame

theorem grnSync (ok : h.MemCanon) : h.grnSync.MemCanon := by
  unfold Hw.grnSync
  refine .bind ?_ fun ok => ok.wr.ite ok
  exact (Hw.MemCanon.raiseIf (.raiseIf (.noteFree (.bind ok.wr.wr fun ok => ok.wr.ite ok)))).wr.wr

theorem storeCells (ok : h.MemCanon) {cs bs} : (h.storeCells cs bs).MemCanon :=
  { ok with
    cells := List.foldlRecOn cs _ (motive := fun x : Nat × Mem => x.2.wf = true) ok.cells
      fun _ stored _ _ => Mem.write_wf _ _ _ stored }

theorem newFrame (ok : h.MemCanon) {f bs} : (h.newFrame f bs).2.MemCanon := ok.storeCells.frame

theorem link (ok : h.MemCanon) {q d} : (h.link q d).MemCanon := ok.setQueue

theorem unlink (ok : h.MemCanon) {q d} : (h.unlink q d).MemCanon :=
  ok.frame.ite (ok.frame.ite ok.frame)

theorem dropLink (ok : h.MemCanon) {q d k} : (h.dropLink q d k).MemCanon := ok.swCount.unlink

theorem pushOut (ok : h.MemCanon) {q c n} (e : h.pushOut q c n = some g) : g.MemCanon := by
  unfold Hw.pushOut at e
  dsimp only at e
  split at e
  · cases e
  · cases e
    exact (ok.foldl fun _ _ ok => ok.dropLink).sat.raise

theorem spill (ok : h.MemCanon) {q f bs} (e : h.spill q f bs = some g) : g.MemCanon := by
  unfold Hw.spill at e
  dsimp only at e
  split at e
  · cases e
  · cases e
    refine .raise (.swCount ?_)
    split <;> split <;> exact ok.storeCells.frame

theorem place (ok : h.MemCanon) {q f bs shr} : (h.place q f bs shr).MemCanon :=
  (ok.storeCells.setDesc.setQueue.ifThen fun ok => ok.frame).link

theorem admitDrop (ok : h.MemCanon) : h.admitDrop.MemCanon := ok.sat.raise

theorem admitOne (ok : h.MemCanon) {q f bs} : (h.admitOne q f bs).MemCanon := by
  unfold Hw.admitOne
  refine ok.swCount.ite (ok.place.ite (ok.place.ite ?_))
  split
  · next e =>
    split at e
    · exact (ok.pushOut e).place
    · cases e
  · refine .ite ?_ ok.swCount.admitDrop
    split
    · next e => exact ok.spill e
    · exact ok.raise.swCount.admitDrop

theorem admitMany (ok : h.MemCanon) {qs f bs} : (h.admitMany qs f bs).MemCanon :=
  ((ok.foldl fun _ _ ok => ok.swCount).foldl fun _ _ ok => ok.swCount).bind fun ok => (ok.ite
      ok.admitDrop).ifElse fun ok => ok.storeCells.frame.foldl fun _ _ ok => ok.setQueue.link

theorem entered (ok : h.MemCanon) {qs f bs} : (h.entered qs f bs).MemCanon := by
  unfold Hw.entered
  refine .ite (ok.foldl fun _ _ ok => ok.swCount).admitDrop ?_
  split
  exacts [ok, ok.admitOne, ok.admitMany]

theorem t1Write (ok : h.MemCanon) {o bs} : (h.t1Write o bs).MemCanon := ok.spaceWrite

theorem writeRecord (ok : h.MemCanon) {q x f} : (h.writeRecord q x f).MemCanon := by
  unfold Hw.writeRecord
  dsimp only
  split
  exacts [ok.t1Write.t1Write.ifThen fun ok => ok.t1Write, ok.t1Write.t1Write]

theorem execLoftWriteDone (ok : s.hw.MemCanon) : NextMemCanon (Machine.execLoftWriteDone s) := by
  unfold Machine.execLoftWriteDone
  refine ok.run fun _ ok => ?_
  split
  · exact ok
  · dsimp only
    split
    exacts [ok.frame, ok.writeRecord.frame.grnSync]

theorem runTake (ok : h.MemCanon) {q d fs} : (h.runTake q d fs).MemCanon :=
  ok.frame.setDesc.ifThen fun ok => ok.unlink

theorem loftStage (ok : h.MemCanon) {q e} : (h.loftStage q e).MemCanon := by
  unfold Hw.loftStage
  split
  · exact ok
  · dsimp only
    split
    · exact ok
    · refine .ite ok ?_
      split
      · exact ok.swCount.raise.runTake.grnSync
      · exact ok.swCount.raise.unlink.grnSync
      · exact ok.newFrame.frame.runTake.grnSync

/-! ### `Sys2Proof/Machine/Msec.lean` -/

theorem setSec (ok : h.MemCanon) {t i w v} : (h.setSec t i w v).MemCanon := ok.frame

theorem msecCommand (ok : h.MemCanon) {op v a f} (hf : ∀ t i g, g.MemCanon → (f t i g).2.2.MemCanon) :
    (h.msecCommand op v a f).MemCanon :=
  ok.tableCommand hf

theorem execMsecRead (ok : s.hw.MemCanon) {v a} : NextMemCanon (Machine.execMsecRead v a s) :=
  ok.run fun _ ok => ok.msecCommand fun _ _ _ ok => ok.each fun _ _ ok => ok.wr

theorem execMsecWrite (ok : s.hw.MemCanon) {v a} : NextMemCanon (Machine.execMsecWrite v a s) := by
  unfold Machine.execMsecWrite
  refine ok.run fun _ ok => ?_
  dsimp only
  split
  · exact ok.busWrite fun _ ok => ok.refuse
  · exact ok.msecCommand fun _ _ _ ok => ok.each fun _ _ ok => ok.setSec

theorem execMsecDelete (ok : s.hw.MemCanon) {v a} : NextMemCanon (Machine.execMsecDelete v a s) :=
  ok.run fun _ ok => ok.msecCommand fun _ _ _ ok => ok.each fun _ _ ok => ok.setSec

theorem msecKeysRevoked (ok : h.MemCanon) {slots} : (h.msecKeysRevoked slots).MemCanon :=
  ok.ite (ok.foldl fun _ _ ok => ok.setSec).raise

theorem setSaPn (ok : h.MemCanon) {i pn} : (h.setSaPn i pn).MemCanon := ok.setSec.setSec

theorem pnUsed (ok : h.MemCanon) {i} : (h.pnUsed i).MemCanon := ok.ite ok.setSaPn.raiseIf.raiseIf

theorem saCount (ok : h.MemCanon) {i hi lo} : (h.saCount i hi lo).MemCanon := ok.setSec

theorem msecValidate (ok : h.MemCanon) {p b} : (h.msecValidate p b).2.MemCanon := by
  unfold Hw.msecValidate
  dsimp only
  refine .ite_snd ok (.ite_snd (ok.ite_snd ok) (.ite_snd ok (.ite_snd ok ?_)))
  split
  · exact ok
  · exact ok.ite_snd (ok.saCount.raise.pair.ite_snd (ok.setSaPn.ite_snd (ok.saCount.raise.pair.ite_snd ok.saCount)))

/-! ### `Sys2Proof/Machine/Egress.lean` -/

theorem setPort (ok : h.MemCanon) {p x} : (h.setPort p x).MemCanon := ok.frame

theorem ethCount (ok : h.MemCanon) {p k n} : (h.ethCount p k n).MemCanon := ok.frame.ite ok

theorem touch (ok : h.MemCanon) {p} : (h.touch p).MemCanon := ok.setPort.wr.wr.ite ok.setPort

theorem settle (ok : h.MemCanon) {p} : (h.settle p).MemCanon := ok.setPort.setPort

theorem renewHorizons (ok : h.MemCanon) : h.renewHorizons.MemCanon :=
  ok.each fun _ _ ok => ok.ite ok.setPort.putBit

theorem startFrame (ok : h.MemCanon) {p c d wire sa} : (h.startFrame p c d wire sa).MemCanon := ok.setPort

theorem resumeFrame (ok : h.MemCanon) {p f} : (h.resumeFrame p f).MemCanon := ok.setPort

theorem select (ok : h.MemCanon) {p ecc n l} : (h.select p ecc n l).MemCanon := by
  induction n generalizing h l with
  | zero => exact ok
  | succ n ih =>
    unfold Hw.select
    dsimp only
    split
    · exact ok
    · split
      · exact ok.resumeFrame
      · refine (ih ok.swCount.raise).ite ((ih ok.dropLink.raise).ite (ok.dropLink.raise.ite ?_))
        split
        exacts [ih ok.raiseIf.ethCount.unlink, ok.raiseIf.startFrame]

theorem preempt (ok : h.MemCanon) {p} : (h.preempt p).2.MemCanon := by
  unfold Hw.preempt
  split
  exacts [ok, ok.ite_snd ok.setPort.ethCount.ethCount]

theorem execEgressSelect (ok : s.hw.MemCanon) {p e} : NextMemCanon (Machine.execEgressSelect p e s) := by
  unfold Machine.execEgressSelect
  refine ok.run fun _ ok => .ite ok (.ite (.settle ?_) (.grnSync (.settle (.ite (.setPort (.select ?_))
      (.select ?_)))))
  · split
    exacts [ok.touch, ok.touch.preempt.ite_snd ok.touch]
  · split
    exacts [ok.touch, ok.touch.preempt.ite_snd ok.touch]
  · split
    exacts [ok.touch, ok.touch.preempt.ite_snd ok.touch]

theorem execFrameTxDone (ok : s.hw.MemCanon) {p} : NextMemCanon (Machine.execFrameTxDone p s) := by
  unfold Machine.execFrameTxDone
  refine ok.run fun _ ok => ?_
  dsimp only
  split
  · exact ok
  · refine .ite ok (.grnSync (.settle (.unlink (.setPort ?_))))
    split
    · exact (ok.touch.swCount.swCount.ethCount.ethCount.ifThen fun ok => ok.ethCount).pnUsed
    · exact ok.touch.swCount.swCount.ethCount.ethCount.ifThen fun ok => ok.ethCount

theorem execTransmitOpportunity (ok : s.hw.MemCanon) {o} :
    NextMemCanon (Machine.execTransmitOpportunity o s) :=
  ok.run fun _ ok => ok.ite (ok.ite ok.setPort)

theorem execPlcaCollision (ok : s.hw.MemCanon) {p} : NextMemCanon (Machine.execPlcaCollision p s) := by
  unfold Machine.execPlcaCollision
  refine ok.run fun _ ok => ?_
  dsimp only
  split
  · exact ok
  · exact ok.ite (ok.touch.ethCount.raiseIf.setPort.setPort.settle.ite
      ok.touch.ethCount.raiseIf.setPort.ethCount.setPort.unlink.settle.grnSync)

theorem gateEff (ok : h.MemCanon) {arg v tc idx} : (Machine.gateEff arg v tc idx h).MemCanon := by
  unfold Machine.gateEff
  refine .ite ok (.renewHorizons (.settle ?_))
  split
  · exact ok.touch.put.setPort.ifThen fun ok => ok.preempt.ite ok.preempt.ethCount.raise
  · exact ok.touch.put.setPort

theorem execGate (ok : s.hw.MemCanon) {c} : NextMemCanon (Machine.execGate c s) :=
  ok.run fun _ ok => ok.fireCue fun _ _ _ _ _ ok => ok.gateEff

theorem holdEff (ok : h.MemCanon) {arg v tc idx} : (Machine.holdEff arg v tc idx h).MemCanon := by
  unfold Machine.holdEff
  refine .ite ok (.settle ?_)
  split
  exacts [ok.touch.setPort.ifThen fun ok => ok.preempt, ok.touch.setPort]

theorem execHold (ok : s.hw.MemCanon) {c} : NextMemCanon (Machine.execHold c s) :=
  ok.run fun _ ok => ok.fireCue fun _ _ _ _ _ ok => ok.holdEff

/-! ### `Sys2Proof/Machine/SwitchRx.lean` -/

theorem lagSync (ok : h.MemCanon) : h.lagSync.MemCanon := ok.each fun _ _ ok => ok.ite ok.put.raise

theorem lagChoose (ok : h.MemCanon) {g b} : (h.lagChoose g b).2.MemCanon := by
  unfold Hw.lagChoose
  split
  · split
    exacts [ok, ok.frame]
  · exact ok

theorem execLagRemap (ok : s.hw.MemCanon) {g b} : NextMemCanon (Machine.execLagRemap g b s) := by
  unfold Machine.execLagRemap
  refine ok.run fun _ ok => ?_
  dsimp only
  split
  · exact ok
  · split
    exacts [ok.ite ok.frame, ok]

theorem meterColour (ok : h.MemCanon) {m len} : (h.meterColour m len).2.MemCanon :=
  ok.frame.ite_snd (ok.frame.ite_snd ok.frame)

theorem seqFunction (ok : h.MemCanon) {f b} : (h.seqFunction f b).2.MemCanon := by
  unfold Hw.seqFunction
  dsimp only
  split
  · exact ok
  · exact ok.setStrm.swCount
  · exact ok.swCount.ite_snd ((((ok.setStrm.setStrm.ite ok).ifThen fun ok => ok.swCount).ifThen fun ok =>
      ok.swCount).raiseIf.swCount.ite_snd (((ok.setStrm.setStrm.ite ok).ifThen fun ok => ok.swCount).ifThen
      fun ok => ok.swCount).raiseIf.swCount)

theorem streamStep (ok : h.MemCanon) {vid b} : (h.streamStep vid b).2.MemCanon := by
  unfold Hw.streamStep
  dsimp only
  split
  · exact ok
  · refine .ite_snd ok.swCount.swCount (.ite_snd (ok.swCount.swCount.ifThen fun ok =>
      ok.setStrm.raise).pair
      (.ite_snd ok.swCount.swCount.raise.pair (.ite_snd (ok.swCount.meterColour.ite_snd ok.swCount).swCount.raise.pair
      (.ite_snd ?_ ((ok.swCount.meterColour.ite_snd ok.swCount).ifThen fun ok => ok.swCount).swCount))))
    generalize recovered : Hw.seqFunction _ _ _ = r
    have ok : r.2.MemCanon := by
      rw [← recovered]
      exact ((ok.swCount.meterColour.ite_snd ok.swCount).ifThen fun ok => ok.swCount).swCount.seqFunction
    split
    exacts [ok, ok]

theorem learn (ok : h.MemCanon) {p mac fid} : (h.learn p mac fid).MemCanon := by
  unfold Hw.learn
  split
  · dsimp only
    split
    exacts [ok.swCount.raise, ok.setFdb.setFdb.setFdb.setFdb.fdbUsed]
  · exact (ok.setFdb.ite ok.raise).ite (ok.setFdb.ite ok.setFdb.setFdb.raise)

theorem destinations (ok : h.MemCanon) {p vid bucket l} : (h.destinations p vid bucket l).2.MemCanon := by
  unfold Hw.destinations
  refine ok.foldl_snd fun _ _ ok => ?_
  split
  · exact ok
  · split
    · next e => exact ok.lagChoose.snd e
    · next e => exact ok.lagChoose.snd e

theorem swReceive (ok : h.MemCanon) {p b} : (h.swReceive p b).MemCanon := by
  unfold Hw.swReceive
  refine .ite ok (.ite ok.swCount.swCount.swCount.raise (.ite ok.swCount.swCount.swCount (.ite
      ok.swCount.swCount.swCount ?_)))
  split
  · next e => exact (ok.swCount.swCount.streamStep.snd e).swCount
  · next e =>
      refine .ite (ok.swCount.swCount.streamStep.snd e).swCount (.ite (ok.swCount.swCount.streamStep.snd
          e).swCount.raise ?_)
      dsimp only
      split
      · exact (ok.swCount.swCount.streamStep.snd e).ifThen fun ok => ok.learn
      · exact (((ok.swCount.swCount.streamStep.snd e).ifThen fun ok => ok.learn).ifThen fun ok =>
          ok.swCount).destinations.swCount.ite (((((ok.swCount.swCount.streamStep.snd e).ifThen fun ok =>
          ok.learn).ifThen fun ok => ok.swCount).destinations.foldl fun _ _ ok => ok.touch).entered.foldl
          fun _ _ ok => ok.settle).grnSync

theorem execFrameRx (ok : s.hw.MemCanon) {p b frags broken} :
    NextMemCanon (Machine.execFrameRx p b frags broken s) := by
  unfold Machine.execFrameRx
  refine ok.run fun _ ok => .ite (.swReceive ?_) (.ite ok (.ite (ok.ethCount.ite ok).ethCount (.ite
      (ok.ethCount.ite ok).ethCount (.ite (ok.ethCount.ite ok).ethCount (.ite (ok.ethCount.ite
      ok).ethCount ?_)))))
  · split
    exacts [ok.frame.ite ok, ok]
  · dsimp only
    split
    · next e => exact (ok.ethCount.ite ok).ethCount.ethCount.msecValidate.snd e
    · next e => exact ((ok.ethCount.ite ok).ethCount.ethCount.msecValidate.snd e).ifElse fun ok =>
        ok.swReceive

/-! ### `Sys2Proof/Machine/Ports.lean` -/

theorem execLoftStage (ok : s.hw.MemCanon) {q e} : NextMemCanon (Machine.execLoftStage q e s) :=
  ok.run fun _ ok => ok.ite ok.touch.loftStage.settle

theorem flushPort (ok : h.MemCanon) {p} : (h.flushPort p).MemCanon :=
  (ok.each fun _ _ ok => ok.foldl fun _ _ ok => ok.dropLink).setPort.put.raise.settle.grnSync.lagSync

theorem abortFrame (ok : h.MemCanon) {p f} : (h.abortFrame p f).MemCanon := by
  unfold Hw.abortFrame
  refine .unlink (.raise (.swCount ?_))
  split
  exacts [ok.pnUsed, ok]

theorem linkHeld (ok : h.MemCanon) {p} : (h.linkHeld p).MemCanon := by
  refine ok.ite (.bind (.grnSync (.settle (.raise (.put (.setPort ?_))))) fun ok => ok.flushPort.ite ok)
  cases ((h.touch p).port p).tx with
  | none =>
    cases ((h.touch p).port p).pre
    exacts [ok.touch, ok.touch.abortFrame]
  | some sending =>
    cases ((h.touch p).port p).pre
    exacts [ok.touch.abortFrame, ok.touch.abortFrame.abortFrame]

theorem pmacSync (ok : h.MemCanon) {p} : (h.pmacSync p).MemCanon :=
  ok.ite (ok.put.ite (ok.put.ite (ok.put.ite (ok.put.setPort.ite ok))))

theorem linkDown (ok : h.MemCanon) {p} : (h.linkDown p).MemCanon :=
  (ok.putBit.putBit.putBit.raise.pmacSync.ite ok).linkHeld

theorem execLinkDown (ok : s.hw.MemCanon) {p} : NextMemCanon (Machine.execLinkDown p s) :=
  ok.run fun _ ok => ok.linkDown

theorem windowDrop (ok : h.MemCanon) {q before} : (h.windowDrop q before).MemCanon :=
  (ok.foldl fun _ _ ok => (ok.ite ok.frame.runTake).ite (ok.dropLink.ite ok)).raiseIf

theorem linkResumed (ok : h.MemCanon) {p} : (h.linkResumed p).MemCanon := by
  unfold Hw.linkResumed
  dsimp only
  split
  · refine ((ok.flushPort.ite ok).touch.each fun _ _ ok => ?_).put.raise.settle.grnSync
    split
    exacts [ok.windowDrop.ite ok, ok]
  · exact (ok.flushPort.ite ok).put.settle.lagSync
  · exact ok.flushPort.ite ok

theorem execLinkUp (ok : s.hw.MemCanon) {p} : NextMemCanon (Machine.execLinkUp p s) :=
  ok.run fun _ ok => ok.linkResumed.ite (ok.ite ((ok.putBit.putBit.ifThen fun ok => ok.putBit).bind fun
      ok => (ok.put.ite ok).setPort.raiseIf.pmacSync.linkResumed))

theorem execGraceExpiry (ok : s.hw.MemCanon) {p} : NextMemCanon (Machine.execGraceExpiry p s) :=
  ok.run fun _ ok => ok.flushPort.ite ok

theorem ethAfter (ok : h.MemCanon) {p o old} : (h.ethAfter p o old).MemCanon :=
  ((ok.put.setPort.ite ok).ifThen fun ok => ok.linkDown).ite (((ok.putBit.ite ok).ifThen fun ok =>
      ok.linkDown).ite (ok.pmacSync.ite ok))

theorem ethWrite (ok : h.MemCanon) {p o v a} : (h.ethWrite p o v a).MemCanon := by
  unfold Hw.ethWrite
  refine ok.busWrite fun _ ok => ?_
  split
  exacts [ok.refuse, ok.touch.storeReg.ethAfter.settle.ite ok.storeReg.ethAfter]

theorem execMdioFrame (ok : s.hw.MemCanon) {p v a} : NextMemCanon (Machine.execMdioFrame p v a s) :=
  ok.run fun _ ok => ok.ethWrite

theorem execMdioDone (ok : s.hw.MemCanon) {p data} : NextMemCanon (Machine.execMdioDone p data s) :=
  ok.run fun _ ok => (ok.putBit.put.ite ok.putBit).ite ok

theorem execCableGo (ok : s.hw.MemCanon) {p v a} : NextMemCanon (Machine.execCableGo p v a s) :=
  ok.run fun _ ok => ok.ethWrite

theorem execCableTestDone (ok : s.hw.MemCanon) {p res dist} :
    NextMemCanon (Machine.execCableTestDone p res dist s) :=
  ok.run fun _ ok => ok.putBit.putBit.put.put.ite ok

theorem execSqiReport (ok : s.hw.MemCanon) {p sqi} : NextMemCanon (Machine.execSqiReport p sqi s) :=
  ok.run fun _ ok => ok.ite ok.put.setPort.raiseIf

theorem execVerifyTimeout (ok : s.hw.MemCanon) {p} : NextMemCanon (Machine.execVerifyTimeout p s) :=
  ok.run fun _ ok => ok.ite (ok.setPort.ite ok.put.raise)

theorem execVerifyResponseRx (ok : s.hw.MemCanon) {p} : NextMemCanon (Machine.execVerifyResponseRx p s) :=
  ok.run fun _ ok => ok.ite ok.put

theorem execEthCntClr (ok : s.hw.MemCanon) {p v a} : NextMemCanon (Machine.execEthCntClr p v a s) := by
  unfold Machine.execEthCntClr
  refine ok.run fun _ ok => ok.busWrite fun _ ok => ?_
  split
  exacts [ok.refuse, ok.frame]

theorem ptpLost (ok : h.MemCanon) {i} : (h.ptpLost i).MemCanon :=
  ok.each fun _ _ ok => ok.loseSource.ite ok

theorem execPtpInstanceEnable (ok : s.hw.MemCanon) {i v a} :
    NextMemCanon (Machine.execPtpInstanceEnable i v a s) :=
  ok.run fun _ ok => ok.busWrite fun _ ok => ok.refuse.ite (ok.refuse.ite (ok.storeReg.bind fun ok =>
      (ok.ite ok.setPtp.put.putBit).ite (ok.ptpLost.ite ok).put.putBit))

theorem execSyncRx (ok : s.hw.MemCanon) {i offset time corr} :
    NextMemCanon (Machine.execSyncRx i offset time corr s) :=
  ok.run fun _ ok => ok.ite ok.ethCount.setPtp.wr.incF.putBit

theorem sendPtp (ok : h.MemCanon) {p b} : (h.sendPtp p b).MemCanon := ok.ite ok.touch.entered.settle.grnSync

theorem sendSync (ok : h.MemCanon) {p i origin corr ratio} : (h.sendSync p i origin corr ratio).MemCanon :=
  ok.ethCount.sendPtp.ite ok.ethCount.sendPtp.sendPtp

theorem syncAll (ok : h.MemCanon) {i origin corr ratio} : (h.syncAll i origin corr ratio).MemCanon :=
  (ok.foldl fun _ _ ok => ok.sendSync.ite ok).setPtp

theorem execSyncInterval (ok : s.hw.MemCanon) {i ratio} : NextMemCanon (Machine.execSyncInterval i ratio s) :=
  ok.run fun _ ok => ok.ite ((ok.ite ok.setPtp.wr.putBit.syncAll).ite ((ok.setPtp.ite ok).ite
      (ok.setPtp.ite ok.setPtp.syncAll)))

theorem execSyncReceiptTimeout (ok : s.hw.MemCanon) {i} : NextMemCanon (Machine.execSyncReceiptTimeout i s) :=
  ok.run fun _ ok => ok.ite ok.setPtp.putBit.ptpLost

theorem execPdelayExchange (ok : s.hw.MemCanon) {p delay} :
    NextMemCanon (Machine.execPdelayExchange p delay s) :=
  ok.run fun _ ok => ok.ite ok.setPort

/-! ### `Sys2Proof/Machine/Power.lean` -/

theorem sleepCheck (ok : h.MemCanon) : h.sleepCheck.MemCanon := ok.frame.raise.ite ok

theorem pwrStart (ok : h.MemCanon) {n} : (h.pwrStart n).MemCanon := by
  induction n generalizing h with
  | zero => exact ok
  | succ n ih =>
    unfold Hw.pwrStart
    refine ok.ite ?_
    split
    · exact ok
    · exact (ih ok.frame.putBit.pwrLast).ite ((ih ok.frame.putBit.pwrLast.raise).ite ok.frame)

theorem pwrGo (ok : h.MemCanon) : h.pwrGo.MemCanon := ok.pwrStart.sleepCheck

theorem pwrQueue (ok : h.MemCanon) {r} : (h.pwrQueue r).MemCanon := ok.frame.putBit

theorem pwrWithdraw (ok : h.MemCanon) {x} : (h.pwrWithdraw x).MemCanon := ok.dropHeld.frame.putBit.pwrLast

theorem clkCarry (ok : h.MemCanon) {r} : (h.clkCarry r).MemCanon := ok.putBit.pwrLast

theorem pwrCarry (ok : h.MemCanon) {r} : (h.pwrCarry r).MemCanon :=
  ok.clkCarry.ite ((ok.foldl fun _ _ ok => ok.pwrQueue).pwrQueue.pwrGo.ite ok.pwrQueue.pwrGo)

theorem pwrRequest (ok : h.MemCanon) {r byCtl} : (h.pwrRequest r byCtl).MemCanon := by
  unfold Hw.pwrRequest
  dsimp only
  split
  · exact ok.ite (ok.pwrWithdraw.ite ok.pwrCarry)
  · exact ok.pwrLast.raise.ite (ok.frame.putPend.pwrLast.raise.raise.ite ok.pwrCarry)

theorem execPwrOn (ok : s.hw.MemCanon) {v a} : NextMemCanon (Machine.execPwrOn v a s) :=
  ok.run fun _ ok => ok.busWrite fun _ ok => ok.foldl fun _ _ ok => ok.pwrRequest

theorem execPwrOff (ok : s.hw.MemCanon) {v a} : NextMemCanon (Machine.execPwrOff v a s) :=
  ok.run fun _ ok => ok.busWrite fun _ ok => ok.foldl fun _ _ ok => ok.pwrRequest

theorem execPwrClkOff (ok : s.hw.MemCanon) {m v a} : NextMemCanon (Machine.execPwrClkOff m v a s) :=
  ok.run fun _ ok => ok.busWrite fun _ ok => ok.foldl fun _ _ ok => ok.pwrRequest

theorem execPwrClkOn (ok : s.hw.MemCanon) {m v a} : NextMemCanon (Machine.execPwrClkOn m v a s) :=
  ok.run fun _ ok => ok.busWrite fun _ ok => ok.foldl fun _ _ ok => ok.pwrRequest

theorem releaseHeld (ok : h.MemCanon) : h.releaseHeld.MemCanon :=
  ok.foldl fun _ _ ok => ok.ite ok.dropHeld.raise.pwrCarry

theorem execHoldMarkWrite (ok : s.hw.MemCanon) {m v a} : NextMemCanon (Machine.execHoldMarkWrite m v a s) :=
  ok.run fun _ ok => ok.busWrite fun _ ok => ok.storeReg.releaseHeld

theorem execHoldTimeout (ok : s.hw.MemCanon) {clk target} :
    NextMemCanon (Machine.execHoldTimeout clk target s) := by
  unfold Machine.execHoldTimeout
  refine ok.run fun _ ok => ?_
  split
  exacts [ok, ok.ite ok.refuseHeld.sleepCheck]

theorem execWgtDeny (ok : s.hw.MemCanon) {v timeout a} :
    NextMemCanon (Machine.execWgtDeny v timeout a s) := by
  unfold Machine.execWgtDeny
  refine ok.run fun _ ok => ok.busWrite fun _ ok => .ite ok.refuse ?_
  split
  exacts [ok.refuse, ok.refuseHeld.sleepCheck]

theorem execModuleSleep (ok : s.hw.MemCanon) : NextMemCanon (Machine.execModuleSleep s) :=
  ok.run fun _ ok => ok.ite (ok.frame.foldl fun _ _ ok => ok.pwrRequest).sleepCheck

theorem execEvrRouteWrite (ok : s.hw.MemCanon) {e v a} : NextMemCanon (Machine.execEvrRouteWrite e v a s) :=
  ok.run fun _ ok => ok.busWrite fun _ ok => ok.refuse.ite (ok.refuse.ite (ok.storeReg.ifThen fun ok
      => ok.deliver))

theorem execEventDelivery (ok : s.hw.MemCanon) {e} : NextMemCanon (Machine.execEventDelivery e s) := by
  unfold Machine.execEventDelivery
  refine ok.run fun _ ok => ?_
  split
  exacts [ok, ok.frame.ite ok]

theorem ntcTemp (ok : h.MemCanon) {x} : (h.ntcTemp x).2.2.MemCanon := by
  unfold Hw.ntcTemp
  refine ok.ite_snd2 (ok.ite_snd2 ?_)
  split
  exacts [ok, ok.freeDiv]

theorem sampleInput (ok : h.MemCanon) {i mv vbat} : (h.sampleInput i mv vbat).2.MemCanon := by
  unfold Hw.sampleInput
  refine .ite_snd ok.putBit (.ite_snd ?_ ok)
  split
  · next e => exact (ok.ntcTemp.snd2 e).frame.raiseIf

theorem sampleInputs (ok : h.MemCanon) {vbat is mvs} : (h.sampleInputs vbat is mvs).2.MemCanon := by
  induction is generalizing h mvs with
  | nil => exact ok
  | cons i is ih =>
    cases mvs with
    | nil => exact ih ok
    | cons mv mvs => exact ih ok.sampleInput

theorem adcBurstEff (ok : h.MemCanon) {arg v tc idx} : (Machine.adcBurstEff arg v tc idx h).MemCanon :=
  ok.sat.raise.ite ok.frame

theorem execAdcBurst (ok : s.hw.MemCanon) {c} : NextMemCanon (Machine.execAdcBurst c s) :=
  ok.run fun _ ok => ok.fireCue fun _ _ _ _ _ ok => ok.adcBurstEff

theorem execBurstComplete (ok : s.hw.MemCanon) {b mv vbat} :
    NextMemCanon (Machine.execBurstComplete b mv vbat s) := by
  unfold Machine.execBurstComplete
  refine ok.run fun _ ok => ?_
  split
  exacts [ok, ok.ite (ok.frame.sampleInputs.each fun _ _ ok => ok.wr.ite ok)]

theorem execTempInputSample (ok : s.hw.MemCanon) {i mv vbat} :
    NextMemCanon (Machine.execTempInputSample i mv vbat s) :=
  ok.run fun _ ok => ok.frame.sampleInput.ite ok

theorem vbatMeasured (ok : h.MemCanon) {mv} : (h.vbatMeasured mv).MemCanon :=
  (ok.frame.ite ok.frame).ifThen fun ok => ok.wr

theorem execHoldEnter (ok : s.hw.MemCanon) {mv} : NextMemCanon (Machine.execHoldEnter mv s) :=
  ok.run fun _ ok => ok.vbatMeasured.ifElse fun ok => ok.frame.putBit.sat.raise

theorem execVbatHigh (ok : s.hw.MemCanon) {mv} : NextMemCanon (Machine.execVbatHigh mv s) :=
  ok.run fun _ ok => ok.vbatMeasured.putBit.raiseIf

theorem execSupCntClr (ok : s.hw.MemCanon) {v a} : NextMemCanon (Machine.execSupCntClr v a s) :=
  ok.run fun _ ok => ok.busWrite fun _ ok => ((ok.wr.ite ok).ifThen fun ok => ok.wr).bind fun ok =>
      (ok.wr.ite ok).ifThen fun ok => ok.wr

theorem defer (ok : h.MemCanon) {d} : (h.defer d).MemCanon := ok.frame.put

/-! ### `Sys2Proof/Machine/Keys.lean` -/

theorem mirrorOdd (ok : h.MemCanon) {d} : (h.mirrorOdd d).MemCanon := ok.wr.wr.ite ok

theorem commitKey (ok : h.MemCanon) {d w0 key parent} : (h.commitKey d w0 key parent).MemCanon :=
  ok.freeBytes.frame.wr.wr.mirrorOdd

theorem keyEnd {r : Nat × Hw} (ok : r.2.MemCanon) : (h.keyEnd r).MemCanon := ok.put.putBit.raise

theorem keyCommand (ok : h.MemCanon) {op v a f} (hf : ∀ g, g.MemCanon → (f g).2.MemCanon) :
    (h.keyCommand op v a f).MemCanon :=
  ok.busWrite fun _ ok => ok.refuse.ite (keyEnd (ok.wr.ite_snd (hf _ ok.wr)))

theorem execGenerate (ok : s.hw.MemCanon) {v a} : NextMemCanon (Machine.execGenerate v a s) := by
  refine ok.run fun _ ok => ok.keyCommand fun _ ok => ok.ite_snd (ok.ite_snd (ok.ite_snd ?_))
  split
  next e =>
    dsimp only
    exact (ok.freeBytes.snd e).commitKey

theorem execDerive (ok : s.hw.MemCanon) {v a} : NextMemCanon (Machine.execDerive v a s) := by
  refine ok.run fun _ ok => ok.keyCommand fun _ ok => ?_
  refine ok.ite_snd (ok.ite_snd (ok.ite_snd (ok.ite_snd (ok.ite_snd ?_))))
  split
  · next e => exact ok.memRead.snd e
  · next e =>
    dsimp only
    exact (ok.memRead.snd e).commitKey

theorem execKeyImport (ok : s.hw.MemCanon) {v a} : NextMemCanon (Machine.execKeyImport v a s) := by
  refine ok.run fun _ ok => ok.keyCommand fun _ ok => ?_
  refine ok.ite_snd (ok.ite_snd (ok.ite_snd (ok.ite_snd (ok.ite_snd ?_))))
  split
  · next e => exact ok.memRead.snd e
  · next e =>
    split
    · exact ok.memRead.snd e
    · dsimp only
      exact (ok.memRead.snd e).commitKey

theorem keyOut (ok : h.MemCanon) {bs a} : (h.keyOut bs a).2.MemCanon := ok.memWrite

theorem execKeyExport (ok : s.hw.MemCanon) {v a} : NextMemCanon (Machine.execKeyExport v a s) :=
  ok.run fun _ ok => ok.keyCommand fun _ ok => ok.ite_snd (ok.ite_snd (ok.ite_snd (ok.ite_snd
      ok.keyOut)))

theorem revokeSlots (ok : h.MemCanon) {l} : (h.revokeSlots l).MemCanon :=
  ok.ite (ok.foldl fun _ _ ok => ok.putBit.mirrorOdd).raise.canKeysRevoked.msecKeysRevoked

theorem execClear (ok : s.hw.MemCanon) {v a} : NextMemCanon (Machine.execClear v a s) :=
  ok.run fun _ ok => ok.keyCommand fun _ ok => ok.ite_snd
      (ok.revokeSlots.canKeysRevoked.msecKeysRevoked.putBit.putBit.bind fun ok => (ok.putBit.putBit.ite
      ok).frame)

theorem execRevoke (ok : s.hw.MemCanon) {v a} : NextMemCanon (Machine.execRevoke v a s) :=
  ok.run fun _ ok => ok.keyCommand fun _ ok => ok.ite_snd ok.revokeSlots.frame

theorem execNarrow (ok : s.hw.MemCanon) {v a} : NextMemCanon (Machine.execNarrow v a s) :=
  ok.run fun _ ok => ok.keyCommand fun _ ok => ok.ite_snd (ok.ite_snd ok.wr.mirrorOdd.frame)

theorem execPubkey (ok : s.hw.MemCanon) {v a} : NextMemCanon (Machine.execPubkey v a s) :=
  ok.run fun _ ok => ok.keyCommand fun _ ok => ok.ite_snd (ok.ite_snd (ok.ite_snd (ok.ite_snd
      ok.keyOut)))

theorem execPersistSave (ok : s.hw.MemCanon) {v a} : NextMemCanon (Machine.execPersistSave v a s) :=
  ok.run fun _ ok => ok.keyCommand fun _ ok => ok.ite_snd (ok.ite_snd ok.keyOut)

theorem loadRecord (ok : h.MemCanon) {l seq copy} : (h.loadRecord l seq copy).MemCanon :=
  (ok.foldl fun _ _ ok => ok.ite ok.commitKey).wr.wr

theorem notFresh (ok : h.MemCanon) : h.notFresh.MemCanon := ok.frame

theorem execPersistLoad (ok : s.hw.MemCanon) {v a} : NextMemCanon (Machine.execPersistLoad v a s) := by
  refine ok.run fun _ ok => ok.keyCommand fun _ ok => .ite_snd ok (.ite_snd ok ?_)
  dsimp only
  split
  · next e => exact ok.notFresh.memRead.snd e
  · next e =>
    have ok := ok.notFresh.memRead.snd e
    split
    · next e => exact ok.memRead.snd e
    · next e =>
      have ok := ok.memRead.snd e
      split
      exacts [ok.loadRecord.ite ok.loadRecord, ok.loadRecord.raiseIf, ok.loadRecord.raiseIf, ok.raise.pair]

theorem persistCheck (ok : h.MemCanon) {a} : (h.persistCheck a).2.MemCanon := by
  unfold Hw.persistCheck
  refine .ite_snd ok ?_
  split
  · next e => exact ok.memRead.snd e
  · next e => exact (ok.memRead.snd e).wr.wr.ite_snd (ok.memRead.snd e)

theorem keyDefers (ok : h.MemCanon) {op v a d f} (hf : ∀ g, g.MemCanon → (f g).2.MemCanon) :
    (h.keyDefers op v a d f).MemCanon :=
  (ok.busWrite fun _ ok => ok.refuse.ite ok.wr.defer).ite (ok.keyCommand hf)

theorem execPersistCheck (ok : s.hw.MemCanon) {v a} : NextMemCanon (Machine.execPersistCheck v a s) :=
  ok.run fun _ ok => ok.keyDefers fun _ ok => ok.persistCheck

theorem execChallenge (ok : s.hw.MemCanon) {v a} : NextMemCanon (Machine.execChallenge v a s) :=
  ok.run fun _ ok => ok.keyCommand fun _ ok => ok.ite_snd (ok.frame.each fun _ _ ok => ok.wr)

theorem rootIn (ok : h.MemCanon) : h.rootIn.MemCanon := ok.frame.wr.wr.putBit

theorem enrol (ok : h.MemCanon) : h.enrol.2.MemCanon := ok.ite_snd (ok.ite_snd (ok.ite_snd ok.frame.rootIn))

theorem execEnrol (ok : s.hw.MemCanon) {v a} : NextMemCanon (Machine.execEnrol v a s) :=
  ok.run fun _ ok => ok.keyDefers fun _ ok => ok.enrol

theorem execRootReconstruct (ok : s.hw.MemCanon) {good pkBad} :
    NextMemCanon (Machine.execRootReconstruct good pkBad s) :=
  ok.run fun _ ok => ok.ite (ok.frame.putBit.rootIn.ite ok.frame.putBit.putBit.raise).raiseIf

theorem execRemask (ok : s.hw.MemCanon) : NextMemCanon (Machine.execRemask s) := by
  refine ok.run fun _ ok => ok.ite (.bind (.frame ?_) fun ok => ok.inc.ite ok)
  split
  exacts [ok.freeBytes.frame, ok]

theorem execRngFail (ok : s.hw.MemCanon) {apt} : NextMemCanon (Machine.execRngFail apt s) :=
  ok.run fun _ ok => ok.ite (ok.satF.ite ok.satF).putBit.raise

theorem execRngRestart (ok : s.hw.MemCanon) {v a} : NextMemCanon (Machine.execRngRestart v a s) :=
  ok.run fun _ ok => ok.busWrite fun _ ok => ok.putBit.ite ok

theorem sensitiveRead (ok : h.MemCanon) {k a f} (hf : ∀ g, g.MemCanon → (f g).MemCanon) :
    (h.sensitiveRead k a f).MemCanon :=
  ok.access fun g ok => ok.refuse.ite (hf g ok)

theorem glean (ok : h.MemCanon) {w mid} : (h.glean w mid).MemCanon := ok.inc.wr.wr.wr.wr.wr

theorem execKeyRngRead (ok : s.hw.MemCanon) {ready a} : NextMemCanon (Machine.execKeyRngRead ready a s) :=
  ok.run fun _ ok => ok.sensitiveRead fun _ ok => ok.refuse.ite ok.frame.glean.answer

theorem lcsBurn (ok : h.MemCanon) {t} : (h.lcsBurn t).MemCanon := ok.frame.putBit.raise

theorem execLcsAdvance (ok : s.hw.MemCanon) {v a} : NextMemCanon (Machine.execLcsAdvance v a s) :=
  ok.run fun _ ok => ok.busWrite fun _ ok => ok.refuse.ite (ok.putBit.defer.ite ok.lcsBurn)

/-! ### `Sys2Proof/Machine/Programmer.lean` -/

theorem flEnd (ok : h.MemCanon) {result} : (h.flEnd result).MemCanon := ok.frame.raise

theorem flCommand (ok : h.MemCanon) {v a} : (h.flCommand v a).MemCanon :=
  ok.refuse.ite (ok.refuse.ite (ok.refuse.ite (ok.wr.wr.flEnd.ite (ok.wr.wr.putBit.defer.ite
      ok.frame))))

theorem execFlashErase (ok : s.hw.MemCanon) {v a} : NextMemCanon (Machine.execFlashErase v a s) :=
  ok.run fun _ ok => ok.busWrite fun _ ok => ok.flCommand

theorem execFlashProgram (ok : s.hw.MemCanon) {v a} : NextMemCanon (Machine.execFlashProgram v a s) :=
  ok.run fun _ ok => ok.busWrite fun _ ok => ok.flCommand

theorem execFlashVerify (ok : s.hw.MemCanon) {v a} : NextMemCanon (Machine.execFlashVerify v a s) :=
  ok.run fun _ ok => ok.busWrite fun _ ok => ok.flCommand

theorem flPage (ok : h.MemCanon) : h.flPage.MemCanon := by
  unfold Hw.flPage
  split
  · exact ok
  · split
    · next e => exact (ok.memRead.snd e).flEnd
    · next e => exact (ok.memRead.snd e).flashProgram.wr.flEnd.ite (ok.memRead.snd e).flashProgram.frame

theorem flVerify (ok : h.MemCanon) {o} : (h.flVerify o).MemCanon := by
  unfold Hw.flVerify
  split
  · next e => exact (ok.memRead.snd e).flEnd
  · next e => exact (ok.memRead.snd e).wr.flEnd

theorem execFlDone (ok : s.hw.MemCanon) {good pages} : NextMemCanon (Machine.execFlDone good pages s) := by
  unfold Machine.execFlDone
  refine ok.run fun _ ok => ?_
  split
  · exact ok
  · refine .ite ok (.ite ok.flEnd ?_)
    split
    · exact ok.frame.flashErase.wr.flEnd
    · exact ok.flPage.frame.ite (ok.each fun _ _ ok => ok.flPage)
    · exact ok.flVerify

theorem updErase (ok : h.MemCanon) : h.updErase.MemCanon := ok.flashErase

theorem execUpdateGo (ok : s.hw.MemCanon) {v a} : NextMemCanon (Machine.execUpdateGo v a s) := by
  unfold Machine.execUpdateGo
  refine ok.run fun _ ok => ok.busWrite fun _ ok => .ite ok.refuse (.ite ok (.ite ok.refuse ?_))
  dsimp only
  split
  · exact ok.putBit.memRead.wr
  · exact ok.putBit.memRead.frame.defer.ite ok.putBit.memRead.frame.updErase

theorem execUpdDone (ok : s.hw.MemCanon) {good} : NextMemCanon (Machine.execUpdDone good s) := by
  unfold Machine.execUpdDone
  refine ok.run fun _ ok => ?_
  split
  · exact ok
  · refine .ite ok ?_
    dsimp only
    split
    · next e => exact (ok.frame.memRead.snd e).wr.raise
    · next e => exact (ok.frame.memRead.snd e).flashProgram.wr.raise.ite (ok.frame.memRead.snd e).wr.raise

theorem execActArm (ok : s.hw.MemCanon) {v a} : NextMemCanon (Machine.execActArm v a s) :=
  ok.run fun _ ok => ok.busWrite fun _ ok => ok.refuse.ite ok.putBit

theorem pkRevoke (ok : h.MemCanon) {keys} : (h.pkRevoke keys).MemCanon := ok.put

theorem execBootPkRev (ok : s.hw.MemCanon) {v a} : NextMemCanon (Machine.execBootPkRev v a s) :=
  ok.run fun _ ok => ok.busWrite fun _ ok => ok.refuse.ite (ok.refuse.ite (ok.defer.ite
      ok.pkRevoke))

/-! ### `Sys2Proof/Machine/Lin.lean` -/

theorem linStart (ok : h.MemCanon) {l f} : (h.linStart l f).MemCanon := ok.frame.putBit

theorem linEnd (ok : h.MemCanon) {l} : (h.linEnd l).MemCanon := ok.frame.putBit

theorem linLatch (ok : h.MemCanon) {l b} : (h.linLatch l b).MemCanon := by
  unfold Hw.linLatch
  split
  exacts [ok.linStart.ite ok, ok]

theorem linSlotEff (ok : h.MemCanon) {arg v tc idx} : (Machine.linSlotEff arg v tc idx h).MemCanon :=
  ok.sat.ite (ok.sat.raise.ite ok.linStart.put)

theorem execLinSlot (ok : s.hw.MemCanon) {c} : NextMemCanon (Machine.execLinSlot c s) :=
  ok.run fun _ ok => ok.fireCue fun _ _ _ _ _ ok => ok.linSlotEff

theorem execLinHeaderRx (ok : s.hw.MemCanon) {l fid} : NextMemCanon (Machine.execLinHeaderRx l fid s) := by
  unfold Machine.execLinHeaderRx
  refine ok.run fun _ ok => .ite ok ?_
  split
  exacts [ok, ok.linStart]

theorem linStatus (ok : h.MemCanon) {l f bits} : (h.linStatus l f bits).MemCanon := ok.put.put.put

theorem execLinResponseEnd (ok : s.hw.MemCanon) {l r} : NextMemCanon (Machine.execLinResponseEnd l r s) := by
  unfold Machine.execLinResponseEnd
  refine ok.run fun _ ok' => ?_
  split
  · exact ok'
  · exact ok'.linEnd.linStatus.raise.ifElse fun ok'' => ok'.linEnd.linStatus.ite (ok'.linEnd.linStatus.raise.ite
      (ok'.frame.incF.putBit.ite (ok'.linEnd.linStatus.raise.ite ok'')))

/-! ### `Sys2Proof/Machine/Rio.lean` -/

theorem setStn (ok : h.MemCanon) {s' x} : (h.setStn s' x).MemCanon := ok.frame

theorem rioCount (ok : h.MemCanon) {s' k} : (h.rioCount s' k).MemCanon := ok.frame

theorem setStnState (ok : h.MemCanon) {s' st} : (h.setStnState s' st).MemCanon := ok.put.putBit

theorem hand (ok : h.MemCanon) {port bytes} : (h.hand port bytes).MemCanon := ok.frame

theorem stnEther (ok : h.MemCanon) {s' b} : (h.stnEther s' b).MemCanon := ok.hand

theorem segSend (ok : h.MemCanon) {s'} : (h.segSend s').MemCanon := by
  unfold Hw.segSend
  refine .ite ok ?_
  dsimp only
  split
  exacts [ok.setStn, ok.setStn.canUpdate]

theorem stnSegments (ok : h.MemCanon) {s' b} : (h.stnSegments s' b).MemCanon :=
  ok.setStn.segSend.ite (ok.rioCount.ite ok).setStn

theorem stnSend (ok : h.MemCanon) {s' b} : (h.stnSend s' b).MemCanon := ok.stnSegments.ite ok.stnEther

theorem sendOut (ok : h.MemCanon) {s' o} : (h.sendOut s' o).MemCanon := ok.setStn.put.rioCount.stnSend

theorem sendHeartbeat (ok : h.MemCanon) {s'} : (h.sendHeartbeat s').MemCanon :=
  ok.incF.setStn.rioCount.stnSend

theorem releaseSheaf (ok : h.MemCanon) {s' payload ref safe unchecked} :
    (h.releaseSheaf s' payload ref safe unchecked).MemCanon :=
  ok.incF.setStn

theorem execSheafSend (ok : s.hw.MemCanon) {s'} : NextMemCanon (Machine.execSheafSend s' s) := by
  unfold Machine.execSheafSend
  refine ok.run fun _ ok => ?_
  split
  exacts [ok, ok.ite ok.sendOut]

theorem execSegmentSend (ok : s.hw.MemCanon) {s'} : NextMemCanon (Machine.execSegmentSend s' s) :=
  ok.run fun _ ok => ok.segSend.ite ok

theorem rioPollEff (ok : h.MemCanon) {arg v tc idx} : (Machine.rioPollEff arg v tc idx h).MemCanon :=
  ok.sat.ite ok.rioCount.stnSend

theorem rioSendEff (ok : h.MemCanon) {arg v tc idx} : (Machine.rioSendEff arg v tc idx h).MemCanon := by
  unfold Machine.rioSendEff
  refine .ite ok.sat (.ite ok ?_)
  split
  exacts [ok.sendOut, ok.sendHeartbeat]

theorem execRioPoll (ok : s.hw.MemCanon) {c} : NextMemCanon (Machine.execRioPoll c s) :=
  ok.run fun _ ok => ok.fireCue fun _ _ _ _ _ ok => ok.rioPollEff

theorem execRioSend (ok : s.hw.MemCanon) {c} : NextMemCanon (Machine.execRioSend c s) :=
  ok.run fun _ ok => ok.fireCue fun _ _ _ _ _ ok => ok.rioSendEff

theorem storeSheaf (ok : h.MemCanon) {s' seq alive payload} : (h.storeSheaf s' seq alive payload).MemCanon :=
  (ok.setStn.wr.putBit.ite (ok.setStn.wr.putBit.raise.ite ok.setStn.wr)).bind fun ok => (ok.setStnState.ite
      ok).rioCount

theorem takeSheaf (ok : h.MemCanon) {s' b} : (h.takeSheaf s' b).MemCanon :=
  ok.rioCount.ite (ok.rioCount.raise.ite (ok.rioCount.ite (((ok.rioCount.raise.ite ok).put.ifThen fun ok =>
      ok.setStn.rioCount.raise).bind fun ok => ok.setStn.storeSheaf.ite ok.setStn.rioCount)))

theorem execSheafRx (ok : s.hw.MemCanon) {m b} : NextMemCanon (Machine.execSheafRx m b s) :=
  ok.run fun _ ok => ok.ite (ok.rioCount.raise.ite ok.takeSheaf)

theorem segErr (ok : h.MemCanon) {s'} : (h.segErr s').MemCanon := ok.setStn.rioCount.raise

theorem execSegmentRx (ok : s.hw.MemCanon) {s'} : NextMemCanon (Machine.execSegmentRx s' s) := by
  unfold Machine.execSegmentRx
  refine ok.run fun _ ok => .ite ok ?_
  dsimp only
  split
  · exact ok.putBit.putBit.segErr
  · exact ok.putBit.putBit.segErr.ite (ok.putBit.putBit.setStn.takeSheaf.ite ok.putBit.putBit.setStn)

theorem execStationEnable (ok : s.hw.MemCanon) {s' v a} :
    NextMemCanon (Machine.execStationEnable s' v a s) := by
  unfold Machine.execStationEnable
  refine ok.run fun _ ok => ok.busWrite fun _ ok => ?_
  split
  · exact ok.refuse
  · exact ok.storeReg.setStn.setStnState.put.ite (ok.storeReg.ifThen fun ok => ok.setStnState)

theorem stationDeadline (ok : h.MemCanon) {s'} : (h.stationDeadline s').MemCanon :=
  (ok.setStnState.put.setStn.put.raise.ite (ok.put.ite ((ok.put.rioCount.ifThen fun ok =>
      ok.setStnState.rioCount.put.raise).ite ok))).setStn

theorem stationLatched (ok : h.MemCanon) {s'} : (h.stationLatched s').MemCanon := ok.setStn

theorem execRioCntClr (ok : s.hw.MemCanon) {v a} : NextMemCanon (Machine.execRioCntClr v a s) :=
  ok.run fun _ ok => ok.busWrite fun _ ok => ok.frame

/-! ### `Sys2Proof/Machine/Boot.lean` -/

theorem arbBurn (ok : h.MemCanon) {main svn} : (h.arbBurn main svn).MemCanon := (ok.put.ite ok.put).raise

theorem arbAdvance (ok : h.MemCanon) {kind svn} : (h.arbAdvance kind svn).MemCanon :=
  ok.ite (ok.defer.ite ok.arbBurn)

theorem bootStage (ok : h.MemCanon) {st} : (h.bootStage st).MemCanon := ok.put.wr

theorem toRecovery (ok : h.MemCanon) {reason} : (h.toRecovery reason).MemCanon := ok.frame

theorem execStageRom (ok : s.hw.MemCanon) : NextMemCanon (Machine.execStageRom s) :=
  ok.run fun _ ok => ok.bootStage.ite ok

theorem execLoaderCheck (ok : s.hw.MemCanon) : NextMemCanon (Machine.execLoaderCheck s) := by
  refine ok.run fun g ok => ok.ite ?_
  extract_lets good
  clear_value good
  split
  · exact ok.toRecovery
  · extract_lets g'
    have advanced : g'.MemCanon := ok.arbAdvance.bootStage
    split
    · exact advanced.toRecovery
    · exact advanced.ite advanced.toRecovery

theorem execImageCheck (ok : s.hw.MemCanon) : NextMemCanon (Machine.execImageCheck s) := by
  unfold Machine.execImageCheck
  refine ok.run fun _ ok => .ite ok ?_
  extract_lets n b g _ booted
  have ok : g.MemCanon := ok.spaceWrite
  clear_value g
  have advanced : (booted.arbAdvance 1 (imgSvn b)).MemCanon := arbAdvance ok.frame
  split
  exacts [ok.toRecovery, advanced.wr.bootStage]

theorem execUnitReload (ok : s.hw.MemCanon) : NextMemCanon (Machine.execUnitReload s) := by
  unfold Machine.execUnitReload
  refine ok.run fun _ ok => ?_
  split
  · exact ok
  · refine .bootStage ?_
    split
    exacts [ok.frame.spaceWrite.frame, ok.frame]

theorem backbone (ok : h.MemCanon) {b} : (h.backbone b).MemCanon :=
  (ok.wr.each fun _ _ ok => ok.wr.wr.wr).wr.wr

theorem uidAddress (ok : h.MemCanon) : h.uidAddress.MemCanon := ok.wr.wr

theorem withBase (ok : h.MemCanon) {a} : (h.withBase a).MemCanon := by
  unfold Hw.withBase
  split
  exacts [ok.backbone, ok.uidAddress]

theorem stagingWindow (ok : h.MemCanon) : h.stagingWindow.MemCanon := ok.ite ok.wr.wr.wr.putBit

theorem inRecovery (ok : h.MemCanon) {r} : (h.inRecovery r).MemCanon := ok.frame.putBit.put.putBit

theorem recoverySettings (ok : h.MemCanon) : h.recoverySettings.MemCanon :=
  ok.withBase.stagingWindow.ite ok.withBase

theorem execRecoveryEntry (ok : s.hw.MemCanon) : NextMemCanon (Machine.execRecoveryEntry s) := by
  unfold Machine.execRecoveryEntry
  refine ok.run fun _ ok => ?_
  split
  exacts [ok, ok.inRecovery.recoverySettings.raise]

theorem recoveryAnswer (ok : h.MemCanon) {p host seq status result} :
    (h.recoveryAnswer p host seq status result).MemCanon :=
  ok.frame

theorem execQuery (ok : s.hw.MemCanon) {p b} : NextMemCanon (Machine.execQuery p b s) := by
  unfold Machine.execQuery
  refine ok.run fun _ ok => ?_
  split
  exacts [ok, ok.recoveryAnswer]

theorem execData (ok : s.hw.MemCanon) {p b} : NextMemCanon (Machine.execData p b s) := by
  unfold Machine.execData
  refine ok.run fun _ ok => ?_
  split
  exacts [ok, ok.recoveryAnswer.ite ok.memWrite.recoveryAnswer]

theorem commitAnswer (ok : h.MemCanon) {answer result} : (h.commitAnswer answer result).MemCanon := by
  unfold Hw.commitAnswer
  split
  exacts [ok.recoveryAnswer, ok]

theorem recoveryWrite (ok : h.MemCanon) {kind n good answer} :
    (h.recoveryWrite kind n good answer).MemCanon := by
  unfold Hw.recoveryWrite
  split
  · next e => exact (ok.memRead.snd e).commitAnswer
  · next e => exact (ok.memRead.snd e).commitAnswer.ite ((ok.memRead.snd e).flashErase.flashProgram.ite
      (ok.memRead.snd e).flashErase.flashProgram.flashErase.flashProgram).commitAnswer.frame

theorem recoveryCommit (ok : h.MemCanon) {n good answer} : (h.recoveryCommit n good answer).MemCanon := by
  unfold Hw.recoveryCommit
  split
  · next e => exact (ok.memRead.snd e).commitAnswer
  · next e => exact (ok.memRead.snd e).commitAnswer.ite (((ok.memRead.snd e).ifThen fun ok => ok.frame).bind
      fun ok => ok.defer.ite ok.recoveryWrite)

theorem execRecoveryCommit (ok : s.hw.MemCanon) {p b good} :
    NextMemCanon (Machine.execRecoveryCommit p b good s) := by
  unfold Machine.execRecoveryCommit
  refine ok.run fun _ ok => ?_
  split
  exacts [ok, ok.recoveryCommit]

theorem execBootRcvCommit (ok : s.hw.MemCanon) {v a good} :
    NextMemCanon (Machine.execBootRcvCommit v a good s) :=
  ok.run fun _ ok => ok.busWrite fun _ ok => ok.recoveryCommit.ite ok

/-! ### `Sys2Proof/Machine/Tunnel.lean` -/

theorem setRoute (ok : h.MemCanon) {r x} : (h.setRoute r x).MemCanon := ok.frame

theorem tunCount (ok : h.MemCanon) {r k} : (h.tunCount r k).MemCanon := ok.frame

theorem tunSend (ok : h.MemCanon) {r} : (h.tunSend r).MemCanon := ok.ite ok.setRoute.tunCount.hand

theorem tunAdd (ok : h.MemCanon) {r m} : (h.tunAdd r m).MemCanon :=
  (ok.tunSend.ite ok).setRoute.tunCount.bind fun ok => ok.tunSend.ite ok

theorem tunnelTake (ok : h.MemCanon) {n f sent} : (h.tunnelTake n f sent).MemCanon := by
  unfold Hw.tunnelTake
  refine .ite ok ?_
  split
  exacts [ok, ok.foldl fun _ _ ok => ok.tunAdd]

theorem execTunnelSend (ok : s.hw.MemCanon) {r} : NextMemCanon (Machine.execTunnelSend r s) :=
  ok.run fun _ ok => ok.ite ok.tunSend

theorem rtLoad (ok : h.MemCanon) {r f time} : (h.rtLoad r f time).MemCanon := by
  unfold Hw.rtLoad
  dsimp only
  split
  · exact ok.tunCount.raise
  · refine .ite ok ?_
    split
    · exact (ok.putBit.put.put.putBit.put.put.putBit.ifThen fun ok => ok.wr).canUpdate.ifThen fun ok =>
        ok.setRoute
    · exact (ok.putBit.put.put.putBit.put.put.putBit.ifThen fun ok => ok.wr).canUpdate

theorem rtPlay (ok : h.MemCanon) {r f ts} : (h.rtPlay r f ts).MemCanon := by
  unfold Hw.rtPlay
  split
  · exact ok.rtLoad
  · exact ok.tunCount.rtLoad.ite ((ok.tunCount.raise.tunCount.ite ok.tunCount.raise.rtLoad).ite
      (ok.tunCount.raise.ite ok.rtLoad))

theorem fragErr (ok : h.MemCanon) {r} : (h.fragErr r).MemCanon := ok.setRoute.tunCount.raise

theorem rtMsg (ok : h.MemCanon) {r m head} : (h.rtMsg r m head).MemCanon := by
  unfold Hw.rtMsg
  dsimp only
  split
  · exact ok.tunCount.ite ok.tunCount.rtPlay
  · refine .ite ((ok.tunCount.fragErr.ite ok.tunCount).fragErr.ifElse fun ok' => ((ok.tunCount.fragErr.ite
      ok.tunCount).rtPlay.ite ok').ite (ok.tunCount.fragErr.ite ok.tunCount).setRoute) ?_
    split
    exacts [ok.tunCount.fragErr, ok.tunCount.setRoute.rtPlay.ite ok.tunCount.fragErr]

theorem rtSeq (ok : h.MemCanon) {r seq} : (h.rtSeq r seq).MemCanon :=
  ok.setRoute.tunCount.raise.ite ok.setRoute

theorem execNtscfRx (ok : s.hw.MemCanon) {b} : NextMemCanon (Machine.execNtscfRx b s) := by
  unfold Machine.execNtscfRx
  refine ok.run fun _ ok => .ite ok ((ok.foldl fun _ _ ok => ok.rtSeq).foldl fun _ _ ok => ?_)
  split
  · exact ok
  · split
    exacts [ok.sat.raise, ok.rtMsg]

theorem execPresentationTime (ok : s.hw.MemCanon) {r o} : NextMemCanon (Machine.execPresentationTime r o s) :=
  ok.run fun _ ok => ok.setRoute.canTrigger.ite ok

theorem execTunCntClr (ok : s.hw.MemCanon) {v a} : NextMemCanon (Machine.execTunCntClr v a s) :=
  ok.run fun _ ok => ok.busWrite fun _ ok => ok.frame

theorem routeStored (ok : h.MemCanon) {r w} : (h.routeStored r w).MemCanon := ok.setRoute.ite ok

/-! ### `Sys2Proof/Machine/CanFrames.lean` -/

theorem authFail (ok : h.MemCanon) {n o} : (h.authFail n o).MemCanon := ok.objFlag.canCount.raise

theorem rxMatched (ok : h.MemCanon) {n o f} : (h.rxMatched n o f).MemCanon :=
  ok.objFlag.canCount.ite ((ok.objFlag.raise.ite (ok.authFail.ite (ok.setCan.ite ok.authFail))).ite ok.setCan)

theorem execCanFrameEnd (ok : s.hw.MemCanon) {n f} : NextMemCanon (Machine.execCanFrameEnd n f s) := by
  unfold Machine.execCanFrameEnd
  refine ok.run fun _ ok => .ite ok.canLapse (.ite ok.canLapse.canPex (.canStopNow (.ite
      ok.canLapse.recDown.notAlone.canCount.canCount (.tunnelTake ?_))))
  split
  · exact ok.canLapse.recDown.notAlone.canCount
  · exact ok.canLapse.recDown.notAlone.canCount.rxMatched

theorem execTxOk (ok : s.hw.MemCanon) {n} : NextMemCanon (Machine.execTxOk n s) := by
  unfold Machine.execTxOk
  refine ok.run fun _ ok => ?_
  dsimp only
  split
  · exact ok.canLapse
  · exact (ok.canLapse.offBus.unpend.wr.canCount.tecDown.notAlone.setCan.objFlag.raise.ite
      (ok.canLapse.offBus.unpend.wr.canCount.tecDown.notAlone.setCan.ifThen fun ok =>
      ok.makePending)).tunnelTake.canStopNow

/-! ### `Sys2Proof/Machine/Channels.lean` -/

theorem setChan (ok : h.MemCanon) {c x} : (h.setChan c x).MemCanon := ok.frame

theorem chStatus (ok : h.MemCanon) {c} : (h.chStatus c).MemCanon := ok.putBit.putBit

theorem setChState (ok : h.MemCanon) {c st} : (h.setChState c st).MemCanon := ok.put.chStatus

theorem setGate (ok : h.MemCanon) {c g} : (h.setGate c g).MemCanon := ok.setChan.chStatus

theorem closeWindow (ok : h.MemCanon) {c} : (h.closeWindow c).MemCanon := ok.putBit.putBit

theorem openWindow (ok : h.MemCanon) {c} : (h.openWindow c).MemCanon :=
  ok.setChan.putBit.putBit.ifElse fun ok' => (ok'.putBit.ite ok.setChan.putBit).ite ok.setChan.putBit

theorem cmdFlags (ok : h.MemCanon) {c w} : (h.cmdFlags c w).MemCanon :=
  ok.putBit.ite (ok.putBit.ite ok.putBit.putBit)

theorem showDriven (ok : h.MemCanon) {c} : (h.showDriven c).MemCanon := ok.setChState.ite ok.setChState

theorem undrive (ok : h.MemCanon) {c gen} : (h.undrive c gen).MemCanon := ok.setChan.putBit

theorem switchOff (ok : h.MemCanon) {c gen} : (h.switchOff c gen).MemCanon :=
  (ok.setChan.ite ok).undrive.closeWindow.setChState

theorem drive (ok : h.MemCanon) {c g wasDriven} : (h.drive c g wasDriven).MemCanon :=
  (ok.setGate.ite ok.setGate.setChan.openWindow).showDriven

theorem limpFollow (ok : h.MemCanon) {c} : (h.limpFollow c).MemCanon :=
  (ok.put.putBit.undrive.setChState.ite ok.undrive).ite (((ok.setChan.setGate.ifElse fun ok =>
      ok.setChan).bind fun ok => (ok.ite ok.openWindow).setChState).ite ok.undrive.closeWindow.setChState)

theorem followStanding (ok : h.MemCanon) {c} : (h.followStanding c).MemCanon := by
  unfold Hw.followStanding
  dsimp only
  split
  · exact ok.setChState.limpFollow
  · exact ok.switchOff
  · exact ok.switchOff.ite (ok.setChan.drive.ite ok.setChState.setChan)

theorem rearm (ok : h.MemCanon) {c} : (h.rearm c).MemCanon := ok.put.putBit.setChState.followStanding

theorem applyStatic (ok : h.MemCanon) {c w} : (h.applyStatic c w).MemCanon :=
  ok.switchOff.ite ok.setChan.drive

theorem applyPeriod (ok : h.MemCanon) {c} : (h.applyPeriod c).MemCanon := by
  unfold Hw.applyPeriod
  dsimp only
  split
  exacts [ok.applyStatic.ite (ok.switchOff.ite ok.setChan.drive), ok.setGate.ite ok]

theorem beginPeriod (ok : h.MemCanon) {c} : (h.beginPeriod c).MemCanon :=
  (ok.putBit.ite (ok.ite ok.putBit)).setChan.bind fun ok => ok.ite ok.applyPeriod

theorem command (ok : h.MemCanon) {c raw} : (h.command c raw).MemCanon :=
  ok.beforeOut.cmdFlags.wr.bind fun ok => ok.setChan.ite ((ok.setChan.rearm.ite ok.setChan).ite
      ((ok.setChan.setChan.ifThen fun ok => ok.applyPeriod).ite ok.setChan.applyStatic))

theorem channelCommand (ok : h.MemCanon) {c w} : (h.channelCommand c w).MemCanon :=
  ok.command.ite ok.sat.raiseIf.frame

theorem execPchCmdWrite (ok : s.hw.MemCanon) {c v a} : NextMemCanon (Machine.execPchCmdWrite c v a s) :=
  ok.run fun _ ok => ok.busWrite fun _ ok => ok.refuse.ite ok.command

theorem execPwmPeriodStart (ok : s.hw.MemCanon) {c} : NextMemCanon (Machine.execPwmPeriodStart c s) :=
  ok.run fun _ ok => ok.beginPeriod.ite ok

theorem pwmAlignEff (ok : h.MemCanon) {arg v tc idx} : (Machine.pwmAlignEff arg v tc idx h).MemCanon :=
  ok.each fun _ _ ok => ok.setChan.beginPeriod.ite ok.setChan

theorem execPwmAlign (ok : s.hw.MemCanon) {c} : NextMemCanon (Machine.execPwmAlign c s) :=
  ok.run fun _ ok => ok.fireCue fun _ _ _ _ _ ok => ok.pwmAlignEff

theorem trip (ok : h.MemCanon) {c st cause} : (h.trip c st cause).MemCanon :=
  ok.undrive.closeWindow.setChan.put.setChState

theorem tripOver (ok : h.MemCanon) {c st cause} : (h.tripOver c st cause).MemCanon :=
  ok.ite ok.trip.putBit.satF.raise

theorem execShortTrip (ok : s.hw.MemCanon) {c} : NextMemCanon (Machine.execShortTrip c s) :=
  ok.run fun _ ok => ok.tripOver

theorem execLimDwellExpiry (ok : s.hw.MemCanon) {x} : NextMemCanon (Machine.execLimDwellExpiry x s) :=
  ok.run fun _ ok => ok.tripOver.ite ok

theorem execOvertempShutdown (ok : s.hw.MemCanon) {c} : NextMemCanon (Machine.execOvertempShutdown c s) :=
  ok.run fun _ ok => ok.setChan.ite ok.setChan.trip.satF.raise

theorem tempRestart (ok : h.MemCanon) {c} : (h.tempRestart c).MemCanon := ok.put.setChState.followStanding

theorem execTempRestart (ok : s.hw.MemCanon) {c} : NextMemCanon (Machine.execTempRestart c s) :=
  ok.run fun _ ok => ok.setChan.ite (ok.setChan.tempRestart.ite (ok.setChan.limpFollow.ite ok.setChan))

theorem execRetryReset (ok : s.hw.MemCanon) {c} : NextMemCanon (Machine.execRetryReset c s) :=
  ok.run fun _ ok => ok.put.ite ok

theorem execWireModelUpdate (ok : s.hw.MemCanon) {c m} : NextMemCanon (Machine.execWireModelUpdate c m s) :=
  ok.run fun _ ok => ok.frame.put.put.putBit.ifElse fun ok => ok.setChan.put.putBit.raiseIf.bind fun ok
      => ok.trip.putBit.satF.ite (ok.putBit.limpFollow.ite ok.putBit)

theorem execWindowEnd (ok : s.hw.MemCanon) {c} : NextMemCanon (Machine.execWindowEnd c s) :=
  ok.run fun _ ok => ok.ite (ok.closeWindow.ifThen fun ok => ok.showDriven)

theorem execBusDip (ok : s.hw.MemCanon) {b} : NextMemCanon (Machine.execBusDip b s) :=
  ok.run fun _ ok => ok.ite ok.frame

theorem clockResumes (ok : h.MemCanon) {c} : (h.clockResumes c).MemCanon := ok.setChan.putBit

theorem execBusDipEnd (ok : s.hw.MemCanon) {b us} : NextMemCanon (Machine.execBusDipEnd b us s) :=
  ok.run fun _ ok => ok.ite (ok.each fun _ _ ok => ok.clockResumes.ite ok).frame.wr.sat.raise

theorem execBusOverload (ok : s.hw.MemCanon) {b cur volt} :
    NextMemCanon (Machine.execBusOverload b cur volt s) :=
  ok.run fun _ ok => ok.wr.raiseIf

theorem pchClrWrite (ok : h.MemCanon) {c v} : (h.pchClrWrite c v).MemCanon :=
  (ok.wr.ite ok).rearm.ite (ok.wr.ite ok)

theorem execRearm (ok : s.hw.MemCanon) {c v a} : NextMemCanon (Machine.execRearm c v a s) :=
  ok.run fun _ ok => ok.busWrite fun _ ok => ok.pchClrWrite

theorem execPchCntClr (ok : s.hw.MemCanon) {c v a} : NextMemCanon (Machine.execPchCntClr c v a s) :=
  ok.run fun _ ok => ok.busWrite fun _ ok => ok.pchClrWrite

theorem loadFlag (ok : h.MemCanon) {c b x} : (h.loadFlag c b x).MemCanon :=
  ok.putBit.satF.raise.ite ok.putBit

theorem execOlOnDetect (ok : s.hw.MemCanon) {c cur} : NextMemCanon (Machine.execOlOnDetect c cur s) :=
  ok.run fun _ ok => ok.ite (ok.loadFlag.ite (ok.loadFlag.ite ok))

theorem execOffTestPhase (ok : s.hw.MemCanon) {c pullUp high} :
    NextMemCanon (Machine.execOffTestPhase c pullUp high s) :=
  ok.run fun _ ok => ok.ite ((ok.loadFlag.ite ok).ite (ok.loadFlag.ite ok))

theorem ambStamp (ok : h.MemCanon) {n} : (h.ambStamp n).MemCanon := ok.frame

theorem execAmbientSample (ok : s.hw.MemCanon) {n} : NextMemCanon (Machine.execAmbientSample n s) := by
  unfold Machine.execAmbientSample
  refine ok.run fun _ ok => .ite ok.wr ?_
  split
  exacts [ok.wr.ambStamp, ok]

theorem ambConfigured (ok : h.MemCanon) {n was} : (h.ambConfigured n was).MemCanon :=
  ok.wr.ambStamp.ite (ok.wr.ite ok)

theorem execAmbFallback (ok : s.hw.MemCanon) {n} : NextMemCanon (Machine.execAmbFallback n s) :=
  ok.run fun _ ok => ok.wr.raise.ite ok

theorem execProfileWrite (ok : s.hw.MemCanon) {p w v a} : NextMemCanon (Machine.execProfileWrite p w v a s) :=
  ok.run fun _ ok => ok.busWrite fun _ ok => ok.refuse.ite (ok.storeReg.putBit.bind fun ok => ok.ite
      (ok.putBit.ite ok.capture.raise))

theorem execPwmConfigWrite (ok : s.hw.MemCanon) {c v a} : NextMemCanon (Machine.execPwmConfigWrite c v a s) :=
  ok.run fun _ ok => ok.busWrite fun _ ok => ok.refuse.ite (ok.refuse.ite (ok.refuse.ite (ok.ite
      ok.setChan).storeReg.putBit))

/-! ### `Sys2Proof/Machine/CheckValue.lean` -/

theorem setCvu (ok : h.MemCanon) {n x} : (h.setCvu n x).MemCanon := ok.frame

theorem execCvuCfgWrite (ok : s.hw.MemCanon) {n v a} : NextMemCanon (Machine.execCvuCfgWrite n v a s) :=
  ok.run fun _ ok => ok.busWrite fun _ ok => ok.refuse.ite (ok.storeReg.ifElse fun ok =>
      ok.putBit).wrPair.wrPair.setCvu

theorem execCvuStart (ok : s.hw.MemCanon) {n v a} : NextMemCanon (Machine.execCvuStart n v a s) :=
  ok.run fun _ ok => ok.busWrite fun _ ok => ok.ite (ok.setCvu.wr.ifThen fun ok => ok.put)

theorem execCvuData (ok : s.hw.MemCanon) {n w v a} : NextMemCanon (Machine.execCvuData n w v a s) :=
  ok.run fun _ ok => ok.busWrite fun _ ok => ok.setCvu.inc

theorem execCvuExpect (ok : s.hw.MemCanon) {n v a} : NextMemCanon (Machine.execCvuExpect n v a s) :=
  ok.run fun _ ok => ok.busWrite fun _ ok => ok.wr.putBit.raiseIf

theorem execCvuAliveIn (ok : s.hw.MemCanon) {n v a} : NextMemCanon (Machine.execCvuAliveIn n v a s) :=
  ok.run fun _ ok => ok.busWrite fun _ ok => ok.ite ok.setCvu.wr.raiseIf

/-! ### `Sys2Proof/Machine/Reel.lean` -/

theorem setRelState (ok : h.MemCanon) {x} : (h.setRelState x).MemCanon := ok.put.putBit

theorem relWrite (ok : h.MemCanon) {addr bs} : (h.relWrite addr bs).MemCanon := ok.memWrite

theorem relHold (ok : h.MemCanon) {short} : (h.relHold short).MemCanon :=
  (ok.putBit.ite ok).setRelState.wr.wr.raise

theorem relControl (ok : h.MemCanon) : h.relControl.MemCanon := ok.relWrite

theorem relPut (ok : h.MemCanon) {kind sub payload} : (h.relPut kind sub payload).MemCanon :=
  ok.relHold.ite (ok.relWrite.ite ok).relWrite.frame

theorem relEnqueue (ok : h.MemCanon) {n} : (h.relEnqueue n).MemCanon := ok.frame

theorem relGap (ok : h.MemCanon) : h.relGap.MemCanon := ok.ite ok.frame.relEnqueue.relPut.raise

theorem record (ok : h.MemCanon) {kind sub payload} : (h.record kind sub payload).MemCanon :=
  ok.ite (ok.frame.ite (ok.relGap.relEnqueue.relPut.ite ok.relGap))

theorem recordDrain (ok : h.MemCanon) {flags inst n ws} : (h.recordDrain flags inst n ws).MemCanon := by
  induction n generalizing h ws with
  | zero => exact ok
  | succ n ih => exact ok.ite (ih ok.record)

/-- The pool as its words read now: the drains in progress put theirs over it. -/
theorem poolNow (ok : h.MemCanon) : h.poolNow.wf = true :=
  List.foldlRecOn h.cea.drains _ (motive := fun m : Mem => m.wf = true) ok.pool fun _ put _ _ => poolPut_wf put _

theorem t1Splice (ok : h.MemCanon) {o n src} (okSrc : src.wf = true) : (h.t1Splice o n src).MemCanon := by
  refine List.foldlRecOn h.mem.frames _ (motive := fun m : MemSt => Hw.MemCanon { h with mem := m })
    { ok with t1 := Mem.splice_wf ok.t1 okSrc _ _ _ } fun m copied f _ => ?_
  dsimp only
  split
  exacts [{ copied with t0 := Mem.splice_wf copied.t0 okSrc _ _ _ }, copied]

theorem relSnapTry (ok : h.MemCanon) : h.relSnapTry.MemCanon :=
  ok.ite (ok.frame.ite (ok.record.frame.t1Splice ok.record.frame.poolNow))

theorem relTrigger (ok : h.MemCanon) {src} : (h.relTrigger src).MemCanon :=
  ok.ite (ok.record.ite (ok.sat.ite (ok.ite (ok.frame.ite
      ok).record.frame.wr.put.setRelState.raise.relSnapTry)))

/-! ### `Sys2Proof/Machine/ForceTable.lean` -/

theorem frcCounts (ok : h.MemCanon) : h.frcCounts.MemCanon := ok.wr.wr

theorem applyForces (ok : h.MemCanon) {image owner} : (h.applyForces image owner).MemCanon := by
  unfold Hw.applyForces
  refine ok.frame.raiseIf.raiseIf.foldl fun _ _ ok => ?_
  split
  exacts [ok.record, ok]

/-! ### `Sys2Proof/Machine/Compare.lean` -/

theorem haltRun (ok : h.MemCanon) {t r cause} : (h.haltRun t r cause).MemCanon := by
  unfold Hw.haltRun
  extract_lets r g g1 g2 shown
  have ok : shown.MemCanon := each ok.frame fun _ _ ok => ok.wr
  exact raise ok.frame

theorem startRun (ok : h.MemCanon) {t r} : (h.startRun t r).MemCanon := ok.setRun.haltRun.ite ok.setRun

theorem noteMismatch (ok : h.MemCanon) {t e} : (h.noteMismatch t e).MemCanon :=
  (ok.raise.raise.frame.sat.satF.ifElse fun ok => ok.satF).setEng

theorem noteOverrun (ok : h.MemCanon) {t} : (h.noteOverrun t).MemCanon :=
  (ok.setTask.satF.satF.ifElse fun ok => ok.satF).frame.raise

theorem abandonRota (ok : h.MemCanon) : h.abandonRota.MemCanon := by
  unfold Hw.abandonRota
  split
  exacts [ok, ok.ite ok.frame.satF.setEngState]

theorem assignSpare (ok : h.MemCanon) {t r} : (h.assignSpare t r).MemCanon := by
  unfold Hw.assignSpare
  dsimp only
  split
  · exact ok.abandonRota.setTask.setEng.setEngState
  · split
    exacts [ok.abandonRota.setTask.setEng, ok.abandonRota.raise]

theorem rerunFailed (ok : h.MemCanon) {t result} : (h.rerunFailed t result).MemCanon := by
  unfold Hw.rerunFailed
  split
  · exact ok
  · exact ok.dropRun.wr.raise.setLast.setTask.noteOverrun.bind fun ok => (ok.setTask.ite ok).trimKept

theorem rerunEqual (ok : h.MemCanon) {t r} : (h.rerunEqual t r).MemCanon := by
  unfold Hw.rerunEqual
  split
  exacts [ok.dropRun, ok.frame.raise.setTask.trimKept]

theorem restartBg (ok : h.MemCanon) {t e} : (h.restartBg t e).MemCanon := ok.setTask.startRun

theorem bgRestart (ok : h.MemCanon) : h.bgRestart.MemCanon :=
  (ok.foldl fun _ _ ok => ok.restartBg.sat.raise).trimKept

theorem compared (ok : h.MemCanon) {t r e} : (h.compared t r e).MemCanon := by
  refine .ite ?differs (.ite ?trapped ?equal)
  case differs =>
    exact ok.inc.noteMismatch.bind fun ok =>
      ok.setLast.restartBg.ite (ok.rerunFailed.ite ok.dropRun.setTask.assignSpare)
  case trapped =>
    exact ok.inc.raise.raise.setTask.bind fun ok => ok.setLast.restartBg.ite (ok.rerunFailed.ite ok.dropRun.setTask)
  case equal => exact ok.inc.rerunEqual.ite ok.inc.dropRun.setTask

theorem endUnchecked (ok : h.MemCanon) {t r trap} : (h.endUnchecked t r trap).MemCanon :=
  (ok.ite ok.putBit.raise).raise.raise.dropRun.setTask.ite (ok.ite ok.putBit.raise).dropRun.setTask

theorem endPhase (ok : h.MemCanon) {t r trap} : (h.endPhase t r trap).MemCanon := by
  unfold Hw.endPhase
  refine .ite (ok.wr.wr.ite ok).endUnchecked ?_
  split
  exacts [(ok.wr.wr.ite ok).setRun, (ok.wr.wr.ite ok).compared]

theorem poolEcc (ok : h.MemCanon) {t a} : (h.poolEcc t a).MemCanon :=
  ok.frame.sat.wr.raise.dropRun.setTask.setTaskState.trimKept

/-! ### `Sys2Proof/Machine/TwinCore.lean` -/

theorem setTwinCad (ok : h.MemCanon) {c x} : (h.setTwinCad c x).MemCanon := ok.frame

theorem exrexSend (ok : h.MemCanon) {typ sub part tick flags payload} :
    (h.exrexSend typ sub part tick flags payload).MemCanon :=
  ok.ite ok.frame

theorem takeAuthority (ok : h.MemCanon) {cause} : (h.takeAuthority cause).MemCanon :=
  ok.frame.incF.put.putBit.wr.raise

theorem yieldAuthority (ok : h.MemCanon) {cause} : (h.yieldAuthority cause).MemCanon :=
  ok.frame.put.putBit.wr.raise

theorem twinCommitCue (ok : h.MemCanon) {c} : (h.twinCommitCue c).MemCanon := by
  refine ok.ite ?_
  extract_lets h1 h2 x
  have yielded : h1.MemCanon := by
    unfold h1
    split
    exacts [ok.yieldAuthority, ok]
  have taken : h2.MemCanon := by
    unfold h2
    split
    exacts [yielded.takeAuthority.ite yielded, yielded]
  split
  · exact taken.setTwinCad.sat.ite taken.setTwinCad
  · exact taken

theorem twinLatchCue (ok : h.MemCanon) {c tick} : (h.twinLatchCue c tick).MemCanon :=
  ok.ite (ok.setTwinCad.ifThen fun ok => ok.put.raise)

theorem compareSigs (ok : h.MemCanon) {c own peer} : (h.compareSigs c own peer).MemCanon :=
  ok.setTwinCad.ite (ok.setTwinCad.sat.raise.ifThen fun ok => ok.put.setTwinCad.raise)

theorem ownSig (ok : h.MemCanon) {c tick sig} : (h.ownSig c tick sig).MemCanon := by
  unfold Hw.ownSig
  refine .ite ok (.ite ok.setTwinCad ?_)
  dsimp only
  split
  exacts [ok.setTwinCad.compareSigs.ite ok.setTwinCad.setTwinCad, ok.setTwinCad.setTwinCad]

theorem sendImage (ok : h.MemCanon) {c tick img} : (h.sendImage c tick img).MemCanon :=
  ok.foldl fun _ _ ok => ok.exrexSend

theorem twinDrain (ok : h.MemCanon) {ws} : (h.twinDrain ws).MemCanon :=
  (ok.foldl fun _ _ ok => ok.ite ok.exrexSend).ite ok

/-! ### `Sys2Proof/Machine/Outputs.lean` -/

theorem setPdu (ok : h.MemCanon) {u x} : (h.setPdu u x).MemCanon := ok.frame

theorem linUpdate (ok : h.MemCanon) {l b bs} : (h.linUpdate l b bs).MemCanon := ok.beforeOut.wr.wr.linLatch

theorem releaseOut (ok : h.MemCanon) {x} : (h.releaseOut x).MemCanon := by
  unfold Hw.releaseOut
  dsimp only
  split
  · exact ok.each fun _ _ ok => ok.channelCommand
  · exact ok.releaseSheaf
  · exact ok.canUpdate.ite ok.linUpdate
  · exact { ok with pduRam := Mem.write_wf _ _ _ ok.pduRam }
  · exact ok

theorem gate (ok : h.MemCanon) {xs} : (h.gate xs).MemCanon :=
  ok.ite (ok.foldl fun _ _ ok => ok.ite ok.releaseOut)

theorem noteSafe (ok : h.MemCanon) {t} : (h.noteSafe t).MemCanon := ok.frame.setLast.raise

/-! ### `Sys2Proof/Machine/Change.lean` -/

theorem setChg (ok : h.MemCanon) {st} : (h.setChg st).MemCanon := ok.put

theorem chgOver (ok : h.MemCanon) {st} : (h.chgOver st).MemCanon := ok.frame

theorem chgCtrlWrite (ok : h.MemCanon) {v a} : (h.chgCtrlWrite v a).MemCanon := by
  unfold Hw.chgCtrlWrite
  refine .ite ((ok.chgOver.putBit.ite ok).ite ok.refuse) (.ite ok.storeReg ?_)
  split
  · exact ok.setChg.put.refuse
  · split
    · next e => exact (ok.storeReg.freeDiv.snd e).setChg.put.wr.wr.put

theorem execChgArm (ok : s.hw.MemCanon) {v a} : NextMemCanon (Machine.execChgArm v a s) :=
  ok.run fun _ ok => ok.busWrite fun _ ok => ok.chgCtrlWrite

theorem execChgCancel (ok : s.hw.MemCanon) {v a} : NextMemCanon (Machine.execChgCancel v a s) :=
  ok.run fun _ ok => ok.busWrite fun _ ok => ok.chgCtrlWrite

theorem chgPostpone (ok : h.MemCanon) : h.chgPostpone.MemCanon :=
  ok.frame.put.raise.ifThen fun ok => ok.chgOver.put.raise

theorem chgCommit (ok : h.MemCanon) {c v good full} : (h.chgCommit c v good full).MemCanon :=
  ok.ite ((ok.frame.ite ok.chgPostpone).ite (ok.chgPostpone.ite ok))

theorem showForce (ok : h.MemCanon) {f e} : (h.showForce f e).MemCanon := ok.put.put.put

theorem rekey (ok : h.MemCanon) {mig base f e} : (h.rekey mig base f e).MemCanon := by
  unfold Hw.rekey
  dsimp only
  split
  · exact (ok.frame.showForce.record.ifElse fun ok => ok.wr.raise).ite ok.frame.put.record.wr.raise
  · exact ok.frame.put.record.wr.raise

theorem bankRecord (ok : h.MemCanon) {ts} : (h.bankRecord ts).MemCanon := ok.record

theorem chgSwitch (ok : h.MemCanon) : h.chgSwitch.MemCanon :=
  (((((ok.foldl fun _ _ ok => ok.poolWrite).recordDrain.ifElse fun ok => ok.wr.raise).foldl fun _ _ ok =>
      ok.wr.wr.putBit.wr).ifElse fun ok => ok.wr).bankRecord.foldl fun _ _ ok => ok.foldl fun _ _ ok =>
      ok.rekey).frame.chgOver.raise.raise

/-! ### `Sys2Proof/Machine/Nmu.lean` -/

theorem setNmCh (ok : h.MemCanon) {c x} : (h.setNmCh c x).MemCanon := ok.frame

theorem nmAllAsleep (ok : h.MemCanon) : h.nmAllAsleep.MemCanon := ok.frame.raiseIf

theorem wakeIoEnds (ok : h.MemCanon) {was} : (h.wakeIoEnds was).MemCanon := ok.frame.ite ok

theorem nmEnter (ok : h.MemCanon) {c st} : (h.nmEnter c st).MemCanon :=
  (ok.put.setNmCh.ifThen fun ok => ok.setCan).raiseIf.raiseIf.nmAllAsleep.wakeIoEnds

theorem execNmChannelEnable (ok : s.hw.MemCanon) {c v a} :
    NextMemCanon (Machine.execNmChannelEnable c v a s) :=
  ok.run fun _ ok => ok.busWrite fun _ ok => ok.refuse.ite (ok.refuse.ite (ok.storeReg.raiseIf.bind
      fun ok => ok.nmEnter.ite (ok.nmEnter.ite ok)))

theorem nmStartWake (ok : h.MemCanon) {c code} : (h.nmStartWake c code).MemCanon :=
  ok.setNmCh.foldl fun _ _ ok => ok.ite ok.pwrRequest

theorem nmApply (ok : h.MemCanon) {code c} : (h.nmApply code c).MemCanon :=
  (ok.ite ok.nmStartWake).ite (ok.nmEnter.ite (ok.setNmCh.nmEnter.ite (ok.setNmCh.nmEnter.raise.ite ok)))

theorem nmWake (ok : h.MemCanon) {code chs detail} : (h.nmWake code chs detail).MemCanon :=
  ok.frame.raise.bind fun ok => (ok.foldl fun _ _ ok => ok.nmApply).ite (ok.frame.ite
      ok.frame.pwrRequest)

theorem nmuPd17Up (ok : h.MemCanon) : h.nmuPd17Up.MemCanon := ok.frame.foldl fun _ _ ok => ok.nmApply

theorem wakeIn (ok : h.MemCanon) {n} : (h.wakeIn n).MemCanon := ok.ite ok.nmWake

theorem execWake (ok : s.hw.MemCanon) {code unit} : NextMemCanon (Machine.execWake code unit s) := by
  unfold Machine.execWake
  refine ok.run fun _ ok => ?_
  dsimp only
  split
  · exact ok
  · exact ok.ite ok.nmWake
  · exact ok.nmWake.ite ok
  · exact ok.nmWake.ite ok
  · exact ok.nmWake
  · exact ok.ite ok.nmWake
  · exact ok.ite ok.wakeIn
  · exact ok.wakeIn
  · exact ok.ite ok.nmWake
  · exact ok.ite ok.nmWake

theorem execWakeInput (ok : s.hw.MemCanon) {n} : NextMemCanon (Machine.execWakeInput n s) :=
  ok.run fun _ ok => ok.wakeIn

theorem voteChange (ok : h.MemCanon) {c on} : (h.voteChange c on).MemCanon :=
  (ok.putBit.ite (ok.putBit.nmWake.ifThen fun ok => ok.nmEnter)).ite (ok.putBit.nmEnter.ite
      ok.putBit.nmAllAsleep)

theorem execNmuVoteWrite (ok : s.hw.MemCanon) {v a} : NextMemCanon (Machine.execNmuVoteWrite v a s) :=
  ok.run fun _ ok => ok.busWrite fun _ ok => ok.each fun _ _ ok => ok.ite ok.voteChange

theorem kaCredit (ok : h.MemCanon) {c src cbv} : (h.kaCredit c src cbv).MemCanon := by
  unfold Hw.kaCredit
  dsimp only
  split
  exacts [ok, ok.setNmCh]

theorem nmRestart (ok : h.MemCanon) {c request} : (h.nmRestart c request).MemCanon := ok.setNmCh

theorem execNmFrameRx (ok : s.hw.MemCanon) {c data} : NextMemCanon (Machine.execNmFrameRx c data s) :=
  ok.run fun _ ok => ok.ite (ok.kaCredit.nmRestart.bind fun ok => ok.nmWake.ite (ok.nmEnter.ite
      (ok.nmEnter.ite ok)))

theorem execNmFrameSend (ok : s.hw.MemCanon) {c} : NextMemCanon (Machine.execNmFrameSend c s) :=
  ok.run fun _ ok => ok.ite (ok.setNmCh.canUpdate.ite ok.setNmCh.hand)

theorem nmLatch (ok : h.MemCanon) {cad} : (h.nmLatch cad).MemCanon :=
  ok.each fun _ _ ok => ok.setNmCh.ite ok

theorem execRepeatTimeExpiry (ok : s.hw.MemCanon) {c} : NextMemCanon (Machine.execRepeatTimeExpiry c s) :=
  ok.run fun _ ok => ok.nmEnter.ite ok

theorem execNmTimeout (ok : s.hw.MemCanon) {c} : NextMemCanon (Machine.execNmTimeout c s) :=
  ok.run fun _ ok => ok.nmEnter.ite ok

theorem execPnTimeout (ok : s.hw.MemCanon) {c} : NextMemCanon (Machine.execPnTimeout c s) :=
  ok.run fun _ ok => ok.nmEnter.ite ok

theorem execWaitSleepExpiry (ok : s.hw.MemCanon) {c} : NextMemCanon (Machine.execWaitSleepExpiry c s) :=
  ok.run fun _ ok => ok.nmEnter.ite ok

theorem calls (ok : h.MemCanon) {p kind} : (h.calls p kind).MemCanon := ok.frame

theorem askSleep (ok : h.MemCanon) {p} : (h.askSleep p).MemCanon := ok.frame

theorem wakeLink (ok : h.MemCanon) {p} : (h.wakeLink p).MemCanon :=
  (ok.ite (ok.put.calls.ite (ok.ite ok.calls))).ite (ok.calls.ite ok)

theorem execCommitWindowEnd (ok : s.hw.MemCanon) {c} : NextMemCanon (Machine.execCommitWindowEnd c s) :=
  ok.run fun _ ok => ok.ite (((ok.nmEnter.raise.frame.foldl fun _ _ ok => ok.calls).each fun _ _ ok =>
      ok.askSleep.ite ok).each fun _ _ ok => ok.linkDown.ite ok)

theorem execWakeSequence (ok : s.hw.MemCanon) {c} : NextMemCanon (Machine.execWakeSequence c s) := by
  unfold Machine.execWakeSequence
  refine ok.run fun _ ok => ?_
  split
  · exact ok
  · exact ok.ite ((ok.frame.foldl fun _ _ ok => ok.calls).each fun _ _ ok => ok.wakeLink.ite
      ok).setNmCh.nmEnter

theorem execSelectiveWakeFrame (ok : s.hw.MemCanon) {n f} :
    NextMemCanon (Machine.execSelectiveWakeFrame n f s) := by
  unfold Machine.execSelectiveWakeFrame
  refine ok.run fun _ ok => .ite ok (.ite ok (.ite (ok.frame.nmWake.ite ok.frame) ?_))
  dsimp only
  split
  exacts [ok.frame.nmWake.ite ok.frame, ok.frame]

theorem execKeepAwake (ok : s.hw.MemCanon) {c} : NextMemCanon (Machine.execKeepAwake c s) := by
  unfold Machine.execKeepAwake
  refine ok.run fun _ ok => ?_
  dsimp only
  split
  · exact ok
  · refine .ite ok (ok.setNmCh.wr.wr.wr.wr.each fun _ _ ok => ?_).raise
    split
    exacts [ok.wr.wr, ok.wr.wr]

theorem execTc10SleepRequest (ok : s.hw.MemCanon) {p} : NextMemCanon (Machine.execTc10SleepRequest p s) :=
  ok.run fun _ ok => ok.askSleep.ite ok

theorem execTc10SleepAck (ok : s.hw.MemCanon) {p} : NextMemCanon (Machine.execTc10SleepAck p s) :=
  ok.run fun _ ok => ok.put.linkDown.ite ok

theorem execTc10SleepNak (ok : s.hw.MemCanon) {p} : NextMemCanon (Machine.execTc10SleepNak p s) :=
  ok.run fun _ ok => ok.put.raise.ite ok

theorem execTc10PartnerSleep (ok : s.hw.MemCanon) {p} : NextMemCanon (Machine.execTc10PartnerSleep p s) :=
  ok.run fun _ ok => ok.ite (ok.put.calls.linkDown.ite ok.calls)

theorem execTc10Wake (ok : s.hw.MemCanon) {p} : NextMemCanon (Machine.execTc10Wake p s) := by
  unfold Machine.execTc10Wake
  refine ok.run fun _ ok => ?_
  dsimp only
  split
  · exact ok
  · exact ok.ite ((ok.ite (ok.put.ite (ok.put.ite ok)).raise).nmWake.ifThen fun ok => ok.each fun _ _
      ok => ok.wakeLink.ite ok)

/-! ### `Sys2Proof/Machine/Image.lean` -/

theorem linRecord (ok : h.MemCanon) {l b} : (h.linRecord l b).2.MemCanon := ok.frame

theorem pduRecord (ok : h.MemCanon) {u} : (h.pduRecord u).2.MemCanon := ok.setPdu

theorem latchEntry (ok : h.MemCanon) {c v m} : (h.latchEntry c v m).2.MemCanon := by
  unfold Hw.latchEntry
  dsimp only
  split
  exacts [ok, ok, ok.ite_snd ok.linRecord, ok.pduRecord, ok, ok, ok]

theorem buildImage (ok : h.MemCanon) {c v} : (h.buildImage c v).2.MemCanon := by
  unfold Hw.buildImage
  refine ok.foldl_snd fun _ _ ok => ?_
  split
  · next e => exact ok.latchEntry.snd e

theorem lostCommit (ok : h.MemCanon) {c} : (h.lostCommit c).MemCanon :=
  ok.satF.raise.setCad.foldl fun _ _ ok => ok.ite ok.dropRun.setTask

theorem lockstepPeriod (ok : h.MemCanon) {c} : (h.lockstepPeriod c).MemCanon := by
  unfold Hw.lockstepPeriod
  split
  exacts [ok, ok.ite (ok.frame.putBit.setCad.raise.ite ok.setCad)]

theorem taskLatch (ok : h.MemCanon) {t} : (h.taskLatch t).MemCanon :=
  (ok.setTask.setTaskState.ite ok).applyForces.ifElse fun ok' => (ok.setTask.setTaskState.ite
      ok).setTaskState.ite (ok'.setTask.ite ok'.setTask.setTaskState)

theorem latchCue (ok : h.MemCanon) {c v} : (h.latchCue c v).MemCanon := by
  unfold Hw.latchCue
  dsimp only
  refine .trimKept (.wr (.setCad (.frame (.foldl (.buildImage ?_) fun _ _ ok => ok.stationLatched))))
  refine .foldl (.applyForces ?_) fun _ _ ok => ok.taskLatch
  refine .bind (.foldl ?_ fun _ _ ok => ok.stationDeadline) fun ok => ok.nmLatch.ite ok
  exact (ok.lostCommit.ite ok).lockstepPeriod.twinLatchCue

theorem cadCue (ok : h.MemCanon) {c i j f} (hf : ∀ g, g.MemCanon → (f g).MemCanon) : (h.cadCue c i j f).MemCanon :=
  ok.ite (ok.raise.ite (ok.ite (hf h ok)))

theorem latchEff (ok : h.MemCanon) {arg v tc idx} : (Machine.latchEff arg v tc idx h).MemCanon := by
  unfold Machine.latchEff
  exact ok.cadCue fun _ ok => ok.latchCue

theorem execLatch (ok : s.hw.MemCanon) {c} : NextMemCanon (Machine.execLatch c s) :=
  ok.run fun _ ok => ok.fireCue fun _ _ _ _ _ ok => ok.latchEff

theorem releaseTasks (ok : h.MemCanon) {c} : (h.releaseTasks c).MemCanon :=
  ok.foldl fun _ _ ok => ok.startRun.ite ok

theorem placeImage (ok : h.MemCanon) {c img} : (h.placeImage c img).MemCanon :=
  ok.poolWriteAt.bgRestart.setCad

theorem execImageReady (ok : s.hw.MemCanon) {c} : NextMemCanon (Machine.execImageReady c s) := by
  unfold Machine.execImageReady
  refine ok.run fun _ ok => .ite ok (.ite ?_ (ok.placeImage.ifThen fun ok => ok.sendImage).releaseTasks)
  dsimp only
  split
  exacts [ok.placeImage.placeImage.releaseTasks, ok.placeImage.setTwinCad]

theorem execCeaTaskRestart (ok : s.hw.MemCanon) {v a} : NextMemCanon (Machine.execCeaTaskRestart v a s) :=
  ok.run fun _ ok => ok.busWrite fun _ ok => ok.setTask.ite ok

theorem execImpCntClr (ok : s.hw.MemCanon) {v a} : NextMemCanon (Machine.execImpCntClr v a s) :=
  ok.run fun _ ok => ok.busWrite fun _ ok => ok.each fun _ _ ok => ok.wr.ite ok

/-! ### `Sys2Proof/Machine/Commit.lean` -/

theorem beginDrain (ok : h.MemCanon) {d} : (h.beginDrain d).MemCanon := ok.frame

theorem emptySheaves (ok : h.MemCanon) {c} : (h.emptySheaves c).MemCanon :=
  ok.ite (ok.foldl fun _ _ ok => ok.releaseSheaf)

theorem lockstepCommit (ok : h.MemCanon) {c good} : (h.lockstepCommit c good).MemCanon := by
  unfold Hw.lockstepCommit
  split
  exacts [ok.setCad.ite ok, ok]

theorem emptyCommit (ok : h.MemCanon) {c v} : (h.emptyCommit c v).MemCanon :=
  ok.satF.lockstepCommit.setCad.beginDrain.chgCommit

theorem commitSafe {x : CommitAcc} (ok : x.hw.MemCanon) {t} : (x.safe t).hw.MemCanon := ok.noteSafe

theorem commitEqual {x : CommitAcc} (ok : x.hw.MemCanon) {t last} : (x.commit t last).hw.MemCanon :=
  (ok.setTask.ite ok.setTask.put).setLast.setTaskState

theorem commitOverrun {x : CommitAcc} (ok : x.hw.MemCanon) {t last} : (x.overrun t last).hw.MemCanon :=
  have stopped := ok.dropRun.setTask.noteOverrun.setLast
  ite_hw stopped.setTaskState.noteSafe stopped

theorem commitTask {x : CommitAcc} (ok : x.hw.MemCanon) {t} : (x.task t).hw.MemCanon := by
  unfold CommitAcc.task
  refine ite_hw (ite_hw ok.commitSafe ok) (ite_hw ok.setLast ?_)
  split
  · refine ite_hw (commitOverrun ?late) (ite_hw (ite_hw (commitSafe ?opened) ?opened) (ite_hw ok.commitEqual ?failed))
    case late => exact ok.dropRun.setTask
    case opened => exact ok.setTask.setLast.setTaskState
    case failed =>
      refine ite_hw (commitSafe (.setTaskState ?ended)) ?ended
      exact (ok.ite ok.rerunFailed).setTask
  · split
    · exact ok.commitEqual
    · exact ok.commitOverrun
    · exact ok.commitOverrun
    · exact ok.commitOverrun
    · refine ite_hw (commitSafe ?_) ok
      exact ok.setTaskState

theorem fullCommit (ok : h.MemCanon) {c v} : (h.fullCommit c v).MemCanon := by
  unfold Hw.fullCommit
  dsimp only
  refine .bgRestart (.trimKept (.chgCommit (.beginDrain (.setCad (.ownSig (.lockstepCommit (.inc ?_)))))))
  exact .emptySheaves (.gate (foldl_hw ok fun _ _ ok => ok.commitTask))

theorem commitCue (ok : h.MemCanon) {c v} : (h.commitCue c v).MemCanon :=
  ok.twinCommitCue.fullCommit.ite ok.twinCommitCue.emptyCommit

theorem commitEff (ok : h.MemCanon) {arg v tc idx} : (Machine.commitEff arg v tc idx h).MemCanon :=
  ok.cadCue fun _ ok => ok.commitCue

theorem execCommit (ok : s.hw.MemCanon) {c} : NextMemCanon (Machine.execCommit c s) :=
  ok.run fun _ ok => ok.fireCue fun _ _ _ _ _ ok => ok.commitEff

theorem drainTime (ok : h.MemCanon) {ws} : (h.drainTime ws).MemCanon := by
  unfold Hw.drainTime
  split
  · next e => exact (ok.freeDiv.snd e).ifThen fun ok => ok.wr

theorem drainEnd (ok : h.MemCanon) {d rest} : (h.drainEnd d rest).MemCanon := by
  unfold Hw.drainEnd
  have drained := ok.setPool (poolPut_wf ok.pool d.words) (kept := h.cea.kept) (drains := rest)
  refine .relSnapTry (.bind (.bind ?_ fun ok => ok.record.ite ok) fun ok => ok.chgSwitch.ite ok)
  split
  · exact drained.drainTime.raiseG.twinDrain.recordDrain.ifThen fun ok => ok.record
  · exact drained.drainTime.raiseG.twinDrain.recordDrain

theorem execDrainEnd (ok : s.hw.MemCanon) {c} : NextMemCanon (Machine.execDrainEnd c s) := by
  unfold Machine.execDrainEnd
  refine ok.run fun _ ok => ?_
  split
  exacts [ok.drainEnd.ite ok, ok]

theorem execBgCommit (ok : s.hw.MemCanon) {t} : NextMemCanon (Machine.execBgCommit t s) :=
  ok.run fun _ ok => ok.ite ((ok.foldl fun _ _ ok => ok.poolWrite).drainTime.twinDrain.recordDrain.bind
      fun ok => (ok.frame.putBit.raise.ite ok).setLast.bind fun ok => ((ok.chgSwitch.ite
      ok).setTask.ifThen fun ok => ok.restartBg).bgRestart.relSnapTry)

theorem execBgRipe (ok : s.hw.MemCanon) {t} : NextMemCanon (Machine.execBgRipe t s) :=
  ok.run fun _ ok => ok.ite ok.setTask.raise

/-! ### `Sys2Proof/Machine/Cores.lean` -/

theorem writeBack (ok : h.MemCanon) {c dirty} : (h.writeBack c dirty).MemCanon :=
  ok.foldl fun _ _ ok => ok.memWrite

theorem mworldWrite (ok : h.MemCanon) {c v dirty} : (h.mworldWrite c v dirty).MemCanon :=
  ok.ite ok.writeBack.frame

theorem execMworldWrite (ok : s.hw.MemCanon) {core v mMode dirty} :
    NextMemCanon (Machine.execMworldWrite core v mMode dirty s) :=
  ok.run fun _ ok => ok.mworldWrite.answer.ite ok.errResp

/-! ### `Sys2Proof/Machine/Translate.lean` -/

theorem walk (ok : h.MemCanon) {a va root write f n table} (hf : ∀ g x, g.MemCanon → (f g x).2.MemCanon) :
    (h.walk a va root write f n table).2.MemCanon := by
  induction n generalizing h root table with
  | zero => exact ok
  | succ n ih =>
    unfold Hw.walk
    dsimp only
    split
    · next e => exact (hf _ _ ok).snd e
    · next e =>
      have ok := (hf _ _ ok).snd e
      refine ok.ite_snd ?_
      split
      · next e => exact ok.memWord.snd e
      · next e =>
        have ok := ok.memWord.snd e
        exact ok.ite_snd ((ih ok).ite_snd (ok.ite_snd (ok.ite_snd ok)))

theorem stage2 (ok : h.MemCanon) {a mode root gpa write} : (h.stage2 a mode root gpa write).2.MemCanon :=
  ok.ite_snd (ok.ite_snd (ok.walk fun _ _ ok => ok))

theorem translateWalk (ok : h.MemCanon) {a vmid va write} : (h.translateWalk a vmid va write).2.MemCanon := by
  unfold Hw.translateWalk
  dsimp only
  split
  · next e => exact ok.memRead.snd e
  · next e =>
    have ok := ok.memRead.snd e
    refine ok.ite_snd (ok.stage2.ite_snd (ok.ite_snd ?_))
    generalize walked : Hw.walk _ _ _ _ _ _ _ _ = r
    have first : r.2.MemCanon := by
      rw [← walked]
      refine ok.walk fun _ _ ok => ?_
      split
      · next e => exact ok.stage2.snd e
      · next e => exact ok.stage2.snd e
    split
    · exact first
    · refine ite_snd ?_ ?_
      · exact first
      split
      · next e => exact first.stage2.snd e
      · next e => exact first.stage2.snd e

theorem xltFault (ok : h.MemCanon) {cause mid vmid} : (h.xltFault cause mid vmid).MemCanon :=
  ok.sat.wr.raise

theorem translate (ok : h.MemCanon) {secure mid vmid va write} :
    (h.translate secure mid vmid va write).2.MemCanon := by
  unfold Hw.translate
  refine .ite_snd ok.xltFault ?_
  split
  · exact ok
  · split
    · next e => exact (ok.translateWalk.snd e).xltFault
    · next e => exact (ok.translateWalk.snd e).xltFault.ite_snd (ok.translateWalk.snd e).frame

theorem execXltInvalidate (ok : s.hw.MemCanon) {v a} : NextMemCanon (Machine.execXltInvalidate v a s) :=
  ok.run fun _ ok => ok.busWrite fun _ ok => ok.refuse.ite (ok.storeReg.ifThen fun ok =>
      ok.frame.putBit)

theorem execInvDone (ok : s.hw.MemCanon) : NextMemCanon (Machine.execInvDone s) :=
  ok.run fun _ ok => ok.putBit.putBit.raise.ite ok

theorem memcError (ok : h.MemCanon) {sp ofs e} : (h.memcError sp ofs e).MemCanon := by
  unfold Hw.memcError
  split
  exacts [ok.frame.sat.raise, ok.sat.raise, ok.frame.sat.wrPair.raise, ok.frame.sat.wr.raise, ok]

theorem execScrub (ok : s.hw.MemCanon) {ce ue} : NextMemCanon (Machine.execScrub ce ue s) :=
  ok.run fun _ ok => ok.ite (ok.frame.sat.raiseIf.foldl fun _ _ ok => ok.memcError).raise

theorem execMemcCntClr (ok : s.hw.MemCanon) {v a} : NextMemCanon (Machine.execMemcCntClr v a s) :=
  ok.run fun _ ok => ok.busWrite fun _ ok => ok.foldl fun _ _ ok => ok.wr.ite ok

theorem execRefreshRateChange (ok : s.hw.MemCanon) {m} : NextMemCanon (Machine.execRefreshRateChange m s) :=
  ok.run fun _ ok => ok.wr.raiseIf.ite ok

/-! ### `Sys2Proof/Machine/Reeve.lean` -/

theorem reeveLog (ok : h.MemCanon) {kind reason subject fr upTo} :
    (h.reeveLog kind reason subject fr upTo).MemCanon :=
  ok.frame.raiseIf.record

theorem rveSync (ok : h.MemCanon) : h.rveSync.MemCanon := ok.put.each fun _ _ ok => ok.put

theorem execT0PoolWrite (ok : s.hw.MemCanon) {v a} : NextMemCanon (Machine.execT0PoolWrite v a s) :=
  ok.run fun _ ok => ok.busWrite fun _ ok => ok.refuse.ite ok.put.rveSync

theorem queueMove (ok : h.MemCanon) {promote u reason} : (h.queueMove promote u reason).MemCanon := ok.frame

theorem notPlaced (ok : h.MemCanon) {u reason} : (h.notPlaced u reason).MemCanon := ok.reeveLog.raiseIf

theorem planPinned (ok : h.MemCanon) {heat u} : (h.planPinned heat u).MemCanon := by
  unfold Hw.planPinned
  refine .ite ok.notPlaced (.ite ok.queueMove ?_)
  split
  exacts [ok.notPlaced, ok.notPlaced.ite ok.queueMove.queueMove]

theorem planHot (ok : h.MemCanon) {heat n u hot} : (h.planHot heat n u hot).2.2.MemCanon := by
  unfold Hw.planHot
  refine ok.ite_snd2 (ok.notPlaced.pair2.ite_snd2 (ok.queueMove.ite_snd2 ?_))
  split
  exacts [ok, ok.ite_snd2 (ok.queueMove.queueMove.ite_snd2 ok)]

theorem epochPlan (ok : h.MemCanon) {heat samples util} : (h.epochPlan heat samples util).MemCanon :=
  (((ok.frame.foldl fun _ _ ok => ok.ite ok.planPinned).foldl fun _ _ ok => ok.queueMove).foldl_snd2 fun _
      _ ok => ok.ite_snd2 ok.planHot).put.bind fun ok => ok.ite ok.wr.reeveLog

theorem moveEnds (ok : h.MemCanon) {m kind fr upTo} : (h.moveEnds m kind fr upTo).MemCanon :=
  ok.frame.reeveLog

theorem unitMove (ok : h.MemCanon) {frame o} : (h.unitMove frame o).MemCanon := by
  unfold Hw.unitMove
  split
  · exact ok
  · refine .ite ok (.ite ok.frame (.ite (ok.ite ok.frame.notPlaced) ?_))
    dsimp only
    split
    · exact ok.moveEnds.sat.raise
    · exact (ok.memcError.ite ok.memcError).moveEnds.sat.raise.raise
    · refine .rveSync (.inc (.moveEnds ?_))
      split
      exacts [{ ok with t0 := Mem.splice_wf ok.t0 ok.t1 _ _ _ }, { ok with t1 := Mem.splice_wf ok.t1 ok.t0 _ _ _ }]

theorem intPend (ok : h.MemCanon) {c f eiid} : (h.intPend c f eiid).MemCanon := ok.ite ok.frame

theorem fileWrite (ok : h.MemCanon) {addr v a} : (h.fileWrite addr v a).2.MemCanon := by
  unfold Hw.fileWrite
  split
  exacts [ok, ok.gateRefused.ite_snd (ok.intPend.ite_snd ok)]

theorem msgWrite (ok : h.MemCanon) {addr v a} : (h.msgWrite addr v a).2.MemCanon :=
  ok.fileWrite.ite_snd ok.memWrite

theorem spanOut (ok : h.MemCanon) {l} : (h.spanOut l).MemCanon := ok.frame

theorem msixSend (ok : h.MemCanon) {f vec} : (h.msixSend f vec).MemCanon := ok.spanOut

theorem msixFire (ok : h.MemCanon) {f vec} : (h.msixFire f vec).MemCanon :=
  (ok.msixSend.ite ok).ite ok.frame

theorem msixWrite (ok : h.MemCanon) {f vec o v} : (h.msixWrite f vec o v).MemCanon :=
  (ok.frame.ite (ok.frame.msixFire.ite ok.frame)).ite ok.frame

theorem execMsixSend (ok : s.hw.MemCanon) {v} : NextMemCanon (Machine.execMsixSend v s) :=
  ok.run fun _ ok => ok.frame.msixFire.ite ok

/-! ### `Sys2Proof/Machine/VirtualPort.lean` -/

theorem setVp (ok : h.MemCanon) {n x} : (h.setVp n x).MemCanon := ok.frame

theorem vpEvent (ok : h.MemCanon) {n e} : (h.vpEvent n e).MemCanon := ok.wr.raise

theorem vpCount (ok : h.MemCanon) {n k x} : (h.vpCount n k x).MemCanon := ok.setVp

theorem vpBus (ok : h.MemCanon) {n addr write} : (h.vpBus n addr write).2.MemCanon := by
  unfold Hw.vpBus
  refine .ite_snd ?_ ok
  split
  · next e => exact ok.translate.snd e
  · next e => exact ok.translate.snd e

theorem vpRead (ok : h.MemCanon) {n addr len far} : (h.vpRead n addr len far).2.MemCanon := by
  unfold Hw.vpRead
  split
  · exact ok.ite_snd ok
  · refine ok.foldl_snd fun _ _ ok => ?_
    split
    · exact ok
    · split
      · next e => exact ok.vpBus.snd e
      · next e =>
          split
          · next e' => exact (ok.vpBus.snd e).memRead.snd e'
          · next e' => exact (ok.vpBus.snd e).memRead.snd e'

theorem vpWrite (ok : h.MemCanon) {n addr bs} : (h.vpWrite n addr bs).2.MemCanon := by
  unfold Hw.vpWrite
  split
  · exact ok.spanOut.ite_snd ok
  · refine ok.foldl_snd2 fun p l ok => ?_
    refine ok.ite_snd2 ?_
    split
    · next e => exact ok.vpBus.snd e
    · next e =>
      have ok := ok.vpBus.snd e
      split
      · next e => exact ok.memWrite.snd e
      · next e => exact ok.memWrite.snd e

theorem vpTake (ok : h.MemCanon) {n tx rx} : (h.vpTake n tx rx).MemCanon := ok.setVp

theorem vpUnwait (ok : h.MemCanon) {n} : (h.vpUnwait n).MemCanon := ok.vpTake.setVp

theorem vpFault (ok : h.MemCanon) {n side addr} : (h.vpFault n side addr).MemCanon :=
  ok.vpUnwait.setVp.vpEvent

theorem vpNotify (ok : h.MemCanon) {n} : (h.vpNotify n).MemCanon := by
  unfold Hw.vpNotify
  dsimp only
  split
  exacts [ok.setVp.msixFire, ok.setVp.msgWrite]

theorem vpCompleted (ok : h.MemCanon) {n} : (h.vpCompleted n).MemCanon := ok.vpNotify.ite ok.setVp

theorem vpDescs (ok : h.MemCanon) {n base head far stop k l} :
    (h.vpDescs n base head far stop k l).2.MemCanon := by
  induction k generalizing h l with
  | zero => exact ok
  | succ k ih =>
    unfold Hw.vpDescs
    refine ok.ite_snd ?_
    dsimp only
    split
    · next e => exact ok.vpRead.snd e
    · next e => exact ih (ok.vpRead.snd e)

theorem vpDropHeld (ok : h.MemCanon) {n f} : (h.vpDropHeld n f).MemCanon := ok.setVp.wr

theorem vpFill (ok : h.MemCanon) {n head f i l bs} : (h.vpFill n head f i l bs).2.MemCanon := by
  induction l generalizing h i bs with
  | nil => exact ok
  | cons d l ih =>
    unfold Hw.vpFill
    dsimp only
    split
    · next e => exact ok.vpWrite.snd e
    · next e =>
      have ok := ok.vpWrite.snd e
      split
      · next e => exact ok.vpWrite.snd e
      · next e => exact ih (ok.vpWrite.snd e)

theorem vpDrain (ok : h.MemCanon) {n far k} : (h.vpDrain n far k).MemCanon := by
  induction k generalizing h with
  | zero => exact ok
  | succ k ih =>
    unfold Hw.vpDrain
    split
    · exact ok
    · refine ok.ite ?_
      dsimp only
      split
      · next e => exact (ok.vpDescs.snd e).vpFault
      · next e =>
        have ok := ok.vpDescs.snd e
        refine ok.ite ?_
        split
        · next e => exact (ok.vpFill.snd e).vpFault
        · next e => exact ih (ok.vpFill.snd e).put.vpDropHeld.vpCount.vpCount.vpCompleted

theorem vpDeliver (ok : h.MemCanon) {n b far} : (h.vpDeliver n b far).MemCanon :=
  ok.vpCount.ite (ok.vpCount.vpEvent.ite ok.vpTake.wr.setVp.vpDrain)

theorem vpDeliverAll (ok : h.MemCanon) {l b far} : (h.vpDeliverAll l b far).MemCanon :=
  ok.foldl fun _ _ ok => ok.vpDeliver

theorem vpTxBack (ok : h.MemCanon) {n descs status} : (h.vpTxBack n descs status).2.MemCanon :=
  ok.foldl_snd fun _ _ ok => ok.ite_snd ok.vpWrite

theorem vpTxPast (ok : h.MemCanon) {n descs irq} : (h.vpTxPast n descs irq).MemCanon :=
  ok.put.vpCompleted.ite ok.put

theorem vpTxDone (ok : h.MemCanon) {n descs status irq} : (h.vpTxDone n descs status irq).MemCanon := by
  unfold Hw.vpTxDone
  split
  · next e => exact (ok.vpTxBack.snd e).vpFault
  · next e => exact (ok.vpTxBack.snd e).vpTxPast

theorem vpHandOn (ok : h.MemCanon) {n w far} : (h.vpHandOn n w far).MemCanon := by
  unfold Hw.vpHandOn
  split
  · next e => exact (ok.vpTxBack.snd e).vpFault
  · next e => exact (ok.vpTxBack.snd e).vpTake.vpUnwait.vpCount.vpCount.bind fun ok => ((ok.ite
      ok.vpCount).vpDeliverAll.ifThen fun ok => ok.hand).vpTxPast

theorem vpGather (ok : h.MemCanon) {n far now} : (h.vpGather n far now).MemCanon := by
  unfold Hw.vpGather
  dsimp only
  split
  · next e => exact (ok.vpDescs.snd e).vpFault
  · next e =>
    have ok := ok.vpDescs.snd e
    refine ok.ite (ok.vpTxDone.ite (ok.vpTxDone.ite ?_))
    generalize gathered : List.foldl _ _ _ = r
    have read : r.2.MemCanon := by
      rw [← gathered]
      refine foldl_snd ok fun p a ok => ?_
      split
      · exact ok
      · split
        · next e => exact ok.vpRead.snd e
        · next e => exact ok.vpRead.snd e
    split
    · exact read.vpFault
    · exact read.vpCount.vpEvent.vpTxDone.ite (read.vpTxDone.ite (read.vpHandOn.ite read.setVp))

/-! ### `Sys2Proof/Machine/VirtualPorts.lean` -/

theorem vpDoorbell (ok : h.MemCanon) {n tx v far} : (h.vpDoorbell n tx v far).MemCanon :=
  ok.sat.vpEvent.ite (ok.put.ite ok.put.vpDrain)

theorem execTxDoorbell (ok : s.hw.MemCanon) {n v a} : NextMemCanon (Machine.execTxDoorbell n v a s) :=
  ok.run fun _ ok => ok.busWrite fun _ ok => ok.vpDoorbell

theorem execRxDoorbell (ok : s.hw.MemCanon) {n v far a} : NextMemCanon (Machine.execRxDoorbell n v far a s) :=
  ok.run fun _ ok => ok.busWrite fun _ ok => ok.vpDoorbell

theorem execVpFrameGathered (ok : s.hw.MemCanon) {n far} :
    NextMemCanon (Machine.execVpFrameGathered n far s) :=
  ok.run fun _ ok => ok.ite ok.vpGather

theorem execTxBucketHoldsLength (ok : s.hw.MemCanon) {n far} :
    NextMemCanon (Machine.execTxBucketHoldsLength n far s) := by
  unfold Machine.execTxBucketHoldsLength
  refine ok.run fun _ ok => ?_
  split
  exacts [ok, ok.vpHandOn.ite ok]

theorem execVpDeliver (ok : s.hw.MemCanon) {host b far} : NextMemCanon (Machine.execVpDeliver host b far s) :=
  ok.run fun _ ok => ok.ite (ok.sat.ite ok.vpDeliverAll)

theorem execVpNotify (ok : s.hw.MemCanon) {n} : NextMemCanon (Machine.execVpNotify n s) :=
  ok.run fun _ ok => ok.vpNotify.ite ok

theorem vpRingsZero (ok : h.MemCanon) {n} : (h.vpRingsZero n).MemCanon := ok.wr.wr

theorem vpWrite_ (ok : h.MemCanon) {w v a} : (h.vpWrite_ w v a).MemCanon := by
  unfold Hw.vpWrite_
  dsimp only
  split
  · exact ok.refuse
  · exact ((((ok.vpTake.ite ok).ifThen fun ok => ok.setVp).frame.ifThen fun ok => ok.setVp).ite
      (((ok.vpTake.ite ok).ifThen fun ok => ok.setVp).frame.setVp.ite (((ok.vpTake.ite ok).ifThen fun ok =>
      ok.setVp).frame.ifThen fun ok => ok.vpRingsZero))).ite (((ok.vpTake.ite ok).ifThen fun ok =>
      ok.setVp).frame.vpRingsZero.ite (((ok.vpTake.ite ok).ifThen fun ok => ok.setVp).frame.ifThen fun ok =>
      ok.setVp))

theorem execPortEnable (ok : s.hw.MemCanon) {v a} : NextMemCanon (Machine.execPortEnable v a s) :=
  ok.run fun _ ok => ok.busWrite fun _ ok => ok.vpWrite_

theorem execVpRingResize (ok : s.hw.MemCanon) {w v a} : NextMemCanon (Machine.execVpRingResize w v a s) :=
  ok.run fun _ ok => ok.busWrite fun _ ok => ok.vpWrite_

theorem vpDiscard (ok : h.MemCanon) {n} : (h.vpDiscard n).MemCanon := ok.foldl fun _ _ ok => ok.vpDropHeld

theorem execPortRemoved (ok : s.hw.MemCanon) {n far} : NextMemCanon (Machine.execPortRemoved n far s) := by
  unfold Machine.execPortRemoved
  refine ok.run fun _ ok => .ite ok (.vpEvent (.setVp (.ite (.vpNotify (.vpDiscard ?_)) (.vpDiscard ?_))))
  · split
    exacts [ok.vpHandOn, ok]
  · split
    exacts [ok.vpHandOn, ok]

theorem execVpFault (ok : s.hw.MemCanon) {n side addr} : NextMemCanon (Machine.execVpFault n side addr s) :=
  ok.run fun _ ok => ok.vpFault.ite ok

theorem vpCommand (ok : h.MemCanon) {op v a f} (hf : ∀ n g, g.MemCanon → (f n g).2.MemCanon) :
    (h.vpCommand op v a f).MemCanon :=
  ok.busWrite fun _ ok => ok.refuse.ite (hf _ _ ok.wr).put

theorem execFreeze (ok : s.hw.MemCanon) {v gathering far a} :
    NextMemCanon (Machine.execFreeze v gathering far a s) := by
  unfold Machine.execFreeze
  refine ok.run fun _ ok => ok.vpCommand fun _ _ ok => .ite_snd ok (.ite_snd ?_ (.pair (.vpEvent (.setVp ?_))))
  · dsimp only
    split
    exacts [ok.vpHandOn, ok.vpGather.ite ok]
  · split
    exacts [ok.vpHandOn, ok.vpGather.ite ok]

theorem execThaw (ok : s.hw.MemCanon) {v far a} : NextMemCanon (Machine.execThaw v far a s) :=
  ok.run fun _ ok => ok.vpCommand fun _ _ ok => ok.ite_snd (ok.setVp.vpNotify.ite ok.setVp).vpDrain

theorem execSave (ok : s.hw.MemCanon) {v a} : NextMemCanon (Machine.execSave v a s) := by
  unfold Machine.execSave
  refine ok.run fun _ ok => ok.vpCommand fun _ _ ok => .ite_snd ok ?_
  split
  · next e => exact ok.memWrite.snd e
  · next e => exact (ok.memWrite.snd e).vpEvent.pair

theorem vpRestored (ok : h.MemCanon) {n b} : (h.vpRestored n b).MemCanon := ok.frame.setVp.wr.wr

theorem execRestore (ok : s.hw.MemCanon) {v a} : NextMemCanon (Machine.execRestore v a s) := by
  unfold Machine.execRestore
  refine ok.run fun _ ok => ok.vpCommand fun _ _ ok => .ite_snd ok ?_
  split
  · next e => exact ok.memRead.snd e
  · next e => exact (ok.memRead.snd e).ite_snd ((ok.memRead.snd e).ite_snd (ok.memRead.snd
      e).vpRestored.vpEvent.pair)

theorem execClearCounters (ok : s.hw.MemCanon) {v a} : NextMemCanon (Machine.execClearCounters v a s) :=
  ok.run fun _ ok => ok.vpCommand fun _ _ ok => ok.setVp

theorem vpFlr (ok : h.MemCanon) {v} : (h.vpFlr v).MemCanon :=
  ok.foldl fun _ _ ok => ok.ite ok.vpDiscard.vpUnwait.setVp.vpRingsZero.vpEvent

theorem vpShares (ok : h.MemCanon) : h.vpShares.MemCanon := ok.frame.foldl fun _ _ ok => ok.setVp

theorem vpShareTaken (ok : h.MemCanon) {n new} : (h.vpShareTaken n new).MemCanon := ok.ite ok.setVp.reeveLog

theorem serveShares (ok : h.MemCanon) : h.serveShares.MemCanon :=
  (ok.frame.foldl fun _ _ ok => ok.vpShareTaken).ite ok

theorem execUnitMove (ok : s.hw.MemCanon) {frame o} : NextMemCanon (Machine.execUnitMove frame o s) :=
  ok.run fun _ ok => ok.unitMove.serveShares.ite ok

theorem execEpochEnd (ok : s.hw.MemCanon) {heat samples util} :
    NextMemCanon (Machine.execEpochEnd heat samples util s) :=
  ok.run fun _ ok => ok.ite (ok.frame.epochPlan.ifThen fun ok => ok.vpShares.serveShares).rveSync

/-! ### `Sys2Proof/Machine/Span.lean` -/

theorem spanSync (ok : h.MemCanon) : h.spanSync.MemCanon := ok.put

theorem spanAnswer (ok : h.MemCanon) {u err data} : (h.spanAnswer u err data).MemCanon :=
  ok.frame.errResp.ite ok.frame.answer

theorem spanReport (ok : h.MemCanon) : h.spanReport.MemCanon := ok.ite ok.spanOut

theorem spanFails (ok : h.MemCanon) {x code} : (h.spanFails x code).MemCanon := ok.capture.raise.spanAnswer

theorem spanLog (ok : h.MemCanon) {inbound win count code addr rid tag} :
    (h.spanLog inbound win count code addr rid tag).MemCanon :=
  ok.wr.wr.wr.wr.incF.raise.raiseIf

theorem spanPump (ok : h.MemCanon) {credit tag} : (h.spanPump credit tag).MemCanon := by
  refine .spanSync (.frame (ok.foldl_snd fun _ _ ok => ?_))
  dsimp only
  split
  · split
    exacts [ok.spanOut, ok]
  · split
    · exact ok
    · split
      exacts [ok, ok.frame]

theorem outbound (ok : h.MemCanon) {addr o n data a credit tag} :
    (h.outbound addr o n data a credit tag).MemCanon := by
  unfold Hw.outbound
  split
  · exact ok.capture.spanAnswer
  · refine ok.capture.spanAnswer.ite (ok.spanFails.ite ?_)
    refine .spanPump ?_
    refine .ite ?_ ?_
    · exact .spanAnswer ok.frame
    · exact ok.frame

theorem execOutboundAccess (ok : s.hw.MemCanon) {o n data credit tag a} :
    NextMemCanon (Machine.execOutboundAccess o n data credit tag a s) :=
  ok.run fun _ ok => ok.gateRefused.errResp.ite (ok.capture.errResp.ite ok.outbound)

theorem execSpnFlush (ok : s.hw.MemCanon) {w credit tag a} :
    NextMemCanon (Machine.execSpnFlush w credit tag a s) :=
  ok.run fun _ ok => ok.busWrite fun _ ok => ok.outbound.ite ok.capture.errResp

theorem cplTimeout (ok : h.MemCanon) {x} : (h.cplTimeout x).MemCanon := ok.spanFails.spanReport

theorem execCompletionRx (ok : s.hw.MemCanon) {tag c credit} :
    NextMemCanon (Machine.execCompletionRx tag c credit s) := by
  unfold Machine.execCompletionRx
  refine ok.run fun _ ok => ?_
  split
  · exact ok
  · refine .spanPump (.ite ok.frame.spanSync.cplTimeout ?_)
    split
    · exact ok.frame.spanSync.spanAnswer
    · exact ok.frame.spanSync.spanFails
    · exact ok.frame.spanSync.spanFails
    · exact ok.frame.spanSync.spanFails.spanReport

theorem execCompletionTimeout (ok : s.hw.MemCanon) {tag credit} :
    NextMemCanon (Machine.execCompletionTimeout tag credit s) := by
  unfold Machine.execCompletionTimeout
  refine ok.run fun _ ok => ?_
  split
  exacts [ok, ok.frame.spanSync.cplTimeout.spanPump.ite ok]

theorem spanDown (ok : h.MemCanon) : h.spanDown.MemCanon := by
  unfold Hw.spanDown
  refine .ite ok (.raise ?_)
  split
  · refine ((ok.frame.spanSync.putBit.putBit.freeWord.put.put.foldl fun _ _ ok => ok.spanFails).foldl fun _ _
      ok => ?_).spanLog
    split
    exacts [ok.spanFails, ok]
  · refine (ok.frame.spanSync.putBit.putBit.freeWord.put.put.foldl fun _ _ ok => ok.spanFails).foldl fun _ _
      ok => ?_
    split
    exacts [ok.spanFails, ok]

theorem execSpanLinkDown (ok : s.hw.MemCanon) : NextMemCanon (Machine.execSpanLinkDown s) :=
  ok.run fun _ ok => ok.spanDown

theorem spanCfgWrite (ok : h.MemCanon) {v a} : (h.spanCfgWrite v a).MemCanon := by
  unfold Hw.spanCfgWrite
  split
  exacts [ok.refuse, ok.storeReg.ite ok.storeReg.spanDown]

theorem execSpanLinkEnable (ok : s.hw.MemCanon) {v a} : NextMemCanon (Machine.execSpanLinkEnable v a s) :=
  ok.run fun _ ok => ok.busWrite fun _ ok => ok.spanCfgWrite

theorem execSpanLinkUp (ok : s.hw.MemCanon) {speed lanes} :
    NextMemCanon (Machine.execSpanLinkUp speed lanes s) :=
  ok.run fun _ ok => ok.ite ok.freeWord.putBit.put.put.put.putBit.raise

theorem execSpanPerstNChange (ok : s.hw.MemCanon) {level} :
    NextMemCanon (Machine.execSpanPerstNChange level s) :=
  ok.run fun _ ok => ok.frame.ite ok.frame.spanDown

theorem spanFlr (ok : h.MemCanon) {v} : (h.spanFlr v).MemCanon := ok.frame.vpFlr.put.raise

theorem execFlr (ok : s.hw.MemCanon) {v} : NextMemCanon (Machine.execFlr v s) :=
  ok.run fun _ ok => ok.spanFlr.ite ok

theorem execVfChange (ok : s.hw.MemCanon) {en num} : NextMemCanon (Machine.execVfChange en num s) :=
  ok.run fun _ ok => ok.ite (ok.putBit.put.ifThen fun ok => ok.each fun _ _ ok => ok.spanFlr).raiseIf

theorem execSpnElogRdWrite (ok : s.hw.MemCanon) {v a} : NextMemCanon (Machine.execSpnElogRdWrite v a s) :=
  ok.run fun _ ok => ok.busWrite fun _ ok => ok.storeReg

/-! ### `Sys2Proof/Machine/DmaCore.lean` -/

theorem setDma (ok : h.MemCanon) {d c x} : (h.setDma d c x).MemCanon := ok.frame

theorem dmaSync (ok : h.MemCanon) {d} : (h.dmaSync d).MemCanon := ok.putBit

theorem dmaEnter (ok : h.MemCanon) {d c st cause side} : (h.dmaEnter d c st cause side).MemCanon :=
  ok.wr.dmaSync

theorem dmaStart (ok : h.MemCanon) {d c} : (h.dmaStart d c).MemCanon := ok.wr.wr.wr.setDma.dmaEnter

theorem dmaTrigger (ok : h.MemCanon) {d c} : (h.dmaTrigger d c).MemCanon := ok.sat.ite ok.dmaStart

theorem dmaTrigEff (ok : h.MemCanon) {arg v tc idx} : (Machine.dmaTrigEff arg v tc idx h).MemCanon :=
  ok.dmaTrigger.ite ok

theorem execDmaTrig (ok : s.hw.MemCanon) {c} : NextMemCanon (Machine.execDmaTrig c s) :=
  ok.run fun _ ok => ok.fireCue fun _ _ _ _ _ ok => ok.dmaTrigEff

theorem execDmaEventTrigger (ok : s.hw.MemCanon) {e} : NextMemCanon (Machine.execDmaEventTrigger e s) :=
  ok.run fun _ ok => (ok.frame.each fun _ _ ok => ok.dmaTrigger.ite ok).ite ok

theorem dmaGo (ok : h.MemCanon) {d c a} : (h.dmaGo d c a).MemCanon := ok.refuse.ite (ok.dmaTrigger.ite ok)

theorem dmaResume (ok : h.MemCanon) {d c a} : (h.dmaResume d c a).MemCanon :=
  ok.setDma.dmaEnter.ite ok.refuse

theorem dmaAborted (ok : h.MemCanon) {d c cause side addr} : (h.dmaAborted d c cause side addr).MemCanon :=
  ok.wrPair.wr.setDma.dmaEnter.raise

theorem dmaAbort (ok : h.MemCanon) {d c a} : (h.dmaAbort d c a).MemCanon :=
  ok.freeWord.dmaAborted.ite ok.refuse

theorem dmaCtrl (ok : h.MemCanon) {d c v a} : (h.dmaCtrl d c v a).MemCanon :=
  ok.dmaAbort.ite (ok.dmaResume.ite (ok.dmaGo.ite ok))

theorem execDmaGo (ok : s.hw.MemCanon) {d c a} : NextMemCanon (Machine.execDmaGo d c a s) :=
  ok.run fun _ ok => ok.busWrite fun _ ok => ok.dmaGo

theorem execDmaResume (ok : s.hw.MemCanon) {d c a} : NextMemCanon (Machine.execDmaResume d c a s) :=
  ok.run fun _ ok => ok.busWrite fun _ ok => ok.dmaResume

theorem execDmaAbort (ok : s.hw.MemCanon) {d c a} : NextMemCanon (Machine.execDmaAbort d c a s) :=
  ok.run fun _ ok => ok.busWrite fun _ ok => ok.dmaAbort

theorem dmaFault (ok : h.MemCanon) {d c cause side addr} : (h.dmaFault d c cause side addr).MemCanon :=
  ok.setDma.ite ok.dmaAborted

theorem execDmaPark (ok : s.hw.MemCanon) {d c} : NextMemCanon (Machine.execDmaPark d c s) := by
  unfold Machine.execDmaPark
  refine ok.run fun _ ok => ?_
  dsimp only
  split
  exacts [ok, ok.wrPair.wr.dmaEnter.raise.ite ok]

/-! ### `Sys2Proof/Machine/Recorder.lean` -/

theorem slated (ok : h.MemCanon) {no} : (h.slated no).MemCanon := ok.frame.relControl.ite ok

theorem execSlate (ok : s.hw.MemCanon) : NextMemCanon (Machine.execSlate s) :=
  ok.run fun _ ok => ok.ite ok.record.slated.frame

theorem execGap (ok : s.hw.MemCanon) : NextMemCanon (Machine.execGap s) :=
  ok.run fun _ ok => ok.relGap.ite ok

theorem execSnapshot (ok : s.hw.MemCanon) : NextMemCanon (Machine.execSnapshot s) :=
  ok.run fun _ ok => ok.frame.relSnapTry.ite ok.relSnapTry

theorem execSnapEnd (ok : s.hw.MemCanon) : NextMemCanon (Machine.execSnapEnd s) := by
  unfold Machine.execSnapEnd
  refine ok.run fun _ ok => ?_
  split
  exacts [ok, ok.frame.ite ok.record.frame.raise.relSnapTry]

theorem execTrigger (ok : s.hw.MemCanon) {lines} : NextMemCanon (Machine.execTrigger lines s) :=
  ok.run fun _ ok => ok.frame.ite ok.frame.relTrigger

theorem execRelTrigSw (ok : s.hw.MemCanon) {v a} : NextMemCanon (Machine.execRelTrigSw v a s) :=
  ok.run fun _ ok => ok.busWrite fun _ ok => ok.relTrigger.ite ok

theorem execPostEnd (ok : s.hw.MemCanon) : NextMemCanon (Machine.execPostEnd s) :=
  ok.run fun _ ok => ok.relHold.ite ok

theorem relBegin (ok : h.MemCanon) {x} : (h.relBegin x).MemCanon :=
  ok.frame.putBit.put.setRelState.relSnapTry

theorem execRelRearm (ok : s.hw.MemCanon) {v a} : NextMemCanon (Machine.execRelRearm v a s) :=
  ok.run fun _ ok => ok.busWrite fun _ ok => ok.ite (ok.refuse.ite ok.relBegin)

theorem relAdopt (ok : h.MemCanon) (e : h.relAdopt = some g) : g.MemCanon := by
  unfold Hw.relAdopt at e
  dsimp only at e
  split at e
  · cases e
  · cases e
    exact ok.frame.wr.wr.putBit.put.relHold

theorem relStart (ok : h.MemCanon) : h.relStart.MemCanon := by
  unfold Hw.relStart
  refine .ite ok.frame ?_
  dsimp only
  split
  · next e =>
    split at e
    · exact ok.relAdopt e
    · cases e
  · exact ok.wr.relBegin

theorem relStop (ok : h.MemCanon) : h.relStop.MemCanon := ok.frame

theorem execRelEnable (ok : s.hw.MemCanon) {v a} : NextMemCanon (Machine.execRelEnable v a s) :=
  ok.run fun _ ok => ok.busWrite fun _ ok => ok.refuse.ite (ok.refuse.ite (ok.wr.relStart.ite
      (ok.wr.relStop.ite ok.wr)))

theorem readAll (ok : h.MemCanon) {l} : (h.readAll l).2.MemCanon := by
  induction l generalizing h with
  | nil => exact ok
  | cons x l ih =>
    unfold Hw.readAll
    split
    · next e => exact ok.memRead.snd e
    · next e =>
      have ok := ok.memRead.snd e
      split
      · next e => exact (ih ok).snd e
      · next e => exact (ih ok).snd e

theorem dumpStream (ok : h.MemCanon) : h.dumpStream.2.MemCanon := by
  unfold Hw.dumpStream
  dsimp only
  split
  · next e => exact ok.readAll.snd e
  · next e => exact ok.readAll.snd e

theorem dumpFrames (ok : h.MemCanon) {l} : (h.dumpFrames l).MemCanon := ok.each fun _ _ ok => ok.hand

theorem dumpGo (ok : h.MemCanon) : h.dumpGo.MemCanon := by
  unfold Hw.dumpGo
  split
  · next e => exact (ok.dumpStream.snd e).frame
  · next e => exact (ok.dumpStream.snd e).dumpFrames.ite (ok.dumpStream.snd e).flashReplace

theorem execDump (ok : s.hw.MemCanon) {v a} : NextMemCanon (Machine.execDump v a s) :=
  ok.run fun _ ok => ok.busWrite fun _ ok => ok.put.ite (ok.refuse.ite (ok.refuse.ite
      (ok.frame.defer.ite ok.frame.dumpGo)))

theorem execDumpDone (ok : s.hw.MemCanon) : NextMemCanon (Machine.execDumpDone s) :=
  ok.run fun _ ok => ok.ite ok.wr.setRelState.raise

/-! ### `Sys2Proof/Machine/Supervisor.lean` -/

theorem setCharge (ok : h.MemCanon) {x} : (h.setCharge x).MemCanon := ok.frame

theorem toLimp (ok : h.MemCanon) {c} : (h.toLimp c).MemCanon := ok.setChan.limpFollow

theorem toHold (ok : h.MemCanon) {c} : (h.toHold c).MemCanon := ok.setChan.ite ok.setChan.setChState

theorem toOff (ok : h.MemCanon) {c} : (h.toOff c).MemCanon := ok.setChan.setChan.ite ok.setChan.switchOff

theorem logicLost (ok : h.MemCanon) {cause} : (h.logicLost cause).MemCanon := by
  unfold Hw.logicLost
  refine .ite ok.put.sat.raise (.ite (ok.put.sat.raise.each fun _ _ ok => ?_).frame.raise
      (ok.put.sat.raise.each fun _ _ ok => ?_).setCharge.raise)
  · split
    exacts [ok.toHold.ite ok.toLimp, ok.toLimp, ok.toOff]
  · split
    exacts [ok.toHold.ite ok.toLimp, ok.toLimp, ok.toOff]

theorem execPssHb (ok : s.hw.MemCanon) {v a} : NextMemCanon (Machine.execPssHb v a s) :=
  ok.run fun _ ok => ok.busWrite fun _ ok => ok.ite (ok.frame.ite (ok.raise.ite
      (ok.raise.frame.logicLost.ite ok.raise.frame)))

theorem execPssWatchdogExpiry (ok : s.hw.MemCanon) : NextMemCanon (Machine.execPssWatchdogExpiry s) :=
  ok.run fun _ ok => ok.logicLost.ite ok

theorem execPssRelease (ok : s.hw.MemCanon) {v a} : NextMemCanon (Machine.execPssRelease v a s) :=
  ok.run fun _ ok => ok.busWrite fun _ ok => ok.logicLost.ite ok

theorem hardwarePath (ok : h.MemCanon) : h.hardwarePath.MemCanon :=
  ok.each fun _ _ ok => ok.toLimp.ite ok.closeWindow.toLimp

theorem execPssRestart (ok : s.hw.MemCanon) : NextMemCanon (Machine.execPssRestart s) :=
  ok.run fun _ ok => ok.ite ok.sat.raise.frame.hardwarePath

theorem takeMap (ok : h.MemCanon) : h.takeMap.MemCanon := by
  unfold Hw.takeMap
  split
  exacts [(ok.each fun _ _ ok => ok.wr).put.putBit, (ok.each fun _ _ ok => ok.wr).put.putBit]

theorem stagePower (ok : h.MemCanon) : h.stagePower.MemCanon := ok.takeMap.hardwarePath

theorem wiresStart (ok : h.MemCanon) : h.wiresStart.MemCanon := ok.each fun _ _ ok => ok.setChan

theorem execPssStart (ok : s.hw.MemCanon) : NextMemCanon (Machine.execPssStart s) :=
  ok.run fun _ ok => ok.ite (ok.wr.raiseIf.takeMap.frame.put.setCharge.bind fun ok => (ok.wiresStart.ite
      ok).hardwarePath)

theorem execHoldWindowEnd (ok : s.hw.MemCanon) : NextMemCanon (Machine.execHoldWindowEnd s) :=
  ok.run fun _ ok => ok.ite (ok.each fun _ _ ok => ok.toLimp.ite ok).setCharge.raise

theorem execLhSample (ok : s.hw.MemCanon) {p level} : NextMemCanon (Machine.execLhSample p level s) :=
  ok.run fun _ ok => ok.frame.ite (ok.frame.putBit.each fun _ _ ok => ok.limpFollow.ite ok)

theorem execMapProg (ok : s.hw.MemCanon) {v a} : NextMemCanon (Machine.execMapProg v a s) := by
  unfold Machine.execMapProg
  refine ok.run fun _ ok => ok.busWrite fun _ ok => .ite ok.refuse (.ite ok.refuse (.ite ok.refuse
      (.ite ok ?_)))
  split
  exacts [ok.refuse, ok.frame.putBit.ifThen fun ok => ok.defer]

theorem execMapProgDone (ok : s.hw.MemCanon) {good} : NextMemCanon (Machine.execMapProgDone good s) := by
  unfold Machine.execMapProgDone
  refine ok.run fun _ ok => ?_
  split
  · exact ok
  · exact ok.ite (ok.frame.putBit.putBit.putBit.raise.ite ok.frame.putBit.putBit.putBit.capture.raise)

theorem execPssTakeWrite (ok : s.hw.MemCanon) {c v a} : NextMemCanon (Machine.execPssTakeWrite c v a s) :=
  ok.run fun _ ok => ok.busWrite fun _ ok => ok.storeReg.putBit

theorem takeChannel (ok : h.MemCanon) {c} : (h.takeChannel c).MemCanon := by
  unfold Hw.takeChannel
  extract_lets raw w x held x' h'
  have ok : h'.MemCanon := ok.setChan.cmdFlags.wr
  refine .ite (ok.ite ok.tempRestart) (.ite (ok.rearm.ite ok) (.ite ?held (.ite ?driven ?off)))
  case held => exact ok.setChan.showDriven.ite ok.setChan.setChState
  case driven => exact ok.switchOff.ite (ok.setChan.showDriven.ite ok.setChan.showDriven)
  case off => exact ok.setChan.setChState.ite (ok.setChan.drive.ite ok.setChan.setChState)

theorem takeClear (ok : h.MemCanon) : h.takeClear.MemCanon := ok.each fun _ _ ok => ok.wr

theorem takeover (ok : h.MemCanon) {a} : (h.takeover a).MemCanon := by
  refine ok.ite (ok.refuse.raise.ite (ok.refuse.raise.ite ?_))
  extract_lets taken g
  have ok : g.MemCanon := (ok.each fun _ _ ok => ok.takeChannel).setCharge.takeClear
  exact raise ok.frame

theorem takeCtrlWrite (ok : h.MemCanon) {v a} : (h.takeCtrlWrite v a).MemCanon :=
  (ok.takeover.ite ok).ifThen fun ok => ok.takeClear

theorem execTakeover (ok : s.hw.MemCanon) {v a} : NextMemCanon (Machine.execTakeover v a s) :=
  ok.run fun _ ok => ok.busWrite fun _ ok => ok.takeCtrlWrite

theorem execTakeClr (ok : s.hw.MemCanon) {v a} : NextMemCanon (Machine.execTakeClr v a s) :=
  ok.run fun _ ok => ok.busWrite fun _ ok => ok.takeCtrlWrite

theorem holdLeft (ok : h.MemCanon) : h.holdLeft.2.MemCanon := ok.ite_snd ok.freeDiv

/-! ### `Sys2Proof/Machine/Place.lean` -/

theorem execRerunStart (ok : s.hw.MemCanon) {t} : NextMemCanon (Machine.execRerunStart t s) := by
  unfold Machine.execRerunStart
  refine ok.run fun _ ok => ?_
  split
  exacts [ok, ok.ite ok.setTask.startRun]

theorem execRetryWindowEnd (ok : s.hw.MemCanon) {t} : NextMemCanon (Machine.execRetryWindowEnd t s) := by
  unfold Machine.execRetryWindowEnd
  refine ok.run fun _ ok => ?_
  split
  exacts [ok, ok.ite (ok.ite ok.rerunFailed).setTask]

theorem moveTask (ok : h.MemCanon) {t e reason} : (h.moveTask t e reason).MemCanon := by
  unfold Hw.moveTask
  refine .ite ok ?_
  dsimp only
  split
  exacts [ok.put.reeveLog.ifThen fun ok => ok.setRun, ok.put.reeveLog]

theorem engBecomes (ok : h.MemCanon) {e st reason} : (h.engBecomes e st reason).MemCanon :=
  ok.setEngState.reeveLog

theorem unplace (ok : h.MemCanon) {t} : (h.unplace t).MemCanon :=
  ok.ite (ok.dropRun.ite ok).put.setTaskState.setTask.raise

/-- The array as it was in `h`, but for a placement asked for, in a module that has changed elsewhere. -/
theorem withArrayOf (ok : g.MemCanon) (before : h.MemCanon) :
    Hw.MemCanon { g with cea := { h.cea with replace := true } } :=
  { ok with prog := before.prog, pool := before.pool, pduRam := before.pduRam }

theorem execEngineSelftest (ok : s.hw.MemCanon) {e} : NextMemCanon (Machine.execEngineSelftest e s) := by
  unfold Machine.execEngineSelftest
  refine ok.run fun h ok => .ite ok (.ite ok.clearSuspect (.clearSuspect (.setEngState ?_)))
  split
  · exact (ok.ite ok.engBecomes).foldl fun _ _ ok => ok.moveTask
  · exact withArrayOf (ok.foldl fun _ _ ok => ok.unplace) ok

theorem retireEngine (ok : h.MemCanon) {e} : (h.retireEngine e).MemCanon :=
  ok.setEngState.clearSuspect.raise.raise.putBit.raiseIf

theorem execSelftestDone (ok : s.hw.MemCanon) {e sig detected equal} :
    NextMemCanon (Machine.execSelftestDone e sig detected equal s) :=
  ok.run fun _ ok => ok.ite ((ok.frame.ite ok.wr).bind fun ok => ((ok.frame.ite
      ok).clearSuspect.bind fun ok => ok.setEngState.ite ok.engBecomes).ite ok.raise.raise.retireEngine)

theorem attachNow (ok : h.MemCanon) : h.attachNow.MemCanon := by
  unfold Hw.attachNow
  split
  · exact ok
  · refine .ite ok.frame.putBit ?_
    split
    exacts [ok, ok.frame.putBit.abandonRota.engBecomes.moveTask.putBit.put.put]

theorem detachNow (ok : h.MemCanon) : h.detachNow.MemCanon := by
  unfold Hw.detachNow
  split
  exacts [ok, ok.ite ok.frame.wr.putBit.put.engBecomes.raise]

theorem keepSixteen (ok : h.MemCanon) {n} : (h.keepSixteen n).MemCanon := by
  induction n generalizing h with
  | zero => exact ok
  | succ n ih =>
    unfold Hw.keepSixteen
    refine ok.ite ?_
    split
    exacts [ih ok.engBecomes, ok]

theorem placeTask (ok : h.MemCanon) {t e reason} : (h.placeTask t e reason).MemCanon :=
  (ok.moveTask.setTask.setTaskState.ite ok.moveTask).bind fun ok => ok.restartBg.ite ok

theorem fitCadence (ok : h.MemCanon) {c} : (h.fitCadence c).MemCanon :=
  ok.each fun _ _ ok => ok.ite (withArrayOf (ok.foldl fun _ _ ok => ok.unplace) ok)

theorem setReplace (ok : h.MemCanon) {b} : Hw.MemCanon { h with cea := { h.cea with replace := b } } := ok.frame

theorem execPlacement (ok : s.hw.MemCanon) {p} : NextMemCanon (Machine.execPlacement p s) := by
  refine ok.run fun _ ok => ok.ite (setReplace (foldl_fst ok.detachNow.attachNow.keepSixteen fun _ _ ok => ?_))
  split
  · exact ok
  · split
    exacts [ok.placeTask, ok.unplace]

theorem execCeaReplace (ok : s.hw.MemCanon) {v a} : NextMemCanon (Machine.execCeaReplace v a s) :=
  ok.run fun _ ok => ok.busWrite fun _ ok => ok.frame.ite ok

/-! ### `Sys2Proof/Machine/Pdu.lean` -/

theorem pduDiscard (ok : h.MemCanon) : h.pduDiscard.MemCanon := ok.sat

theorem execPduFrameRx (ok : s.hw.MemCanon) {b} : NextMemCanon (Machine.execPduFrameRx b s) := by
  unfold Machine.execPduFrameRx
  refine ok.run fun _ ok => .ite ok (.ite ok.pduDiscard (.ite ok.pduDiscard ?_))
  split
  · exact ok.putBit.pduDiscard
  · dsimp only
    split
    exacts [ok.sat, ok.frame]

theorem execPduStore (ok : s.hw.MemCanon) {u} : NextMemCanon (Machine.execPduStore u s) := by
  unfold Machine.execPduStore
  refine ok.run fun _ ok => ?_
  split
  · exact ok
  · extract_lets _ taken x half lost ram _ g g1 g2
    have ok : g.MemCanon := { ok with pduRam := Mem.write_wf _ _ _ ok.pduRam }
    have ok : g2.MemCanon := ok.frame
    exact ok.ifThen fun ok => ok.putBit

theorem execPduSend (ok : s.hw.MemCanon) : NextMemCanon (Machine.execPduSend s) := by
  unfold Machine.execPduSend
  refine ok.run fun _ ok => ?_
  split
  exacts [ok, ok.frame.hand.put.put]

theorem execPduEntryWrite (ok : s.hw.MemCanon) {u w v a} :
    NextMemCanon (Machine.execPduEntryWrite u w v a s) :=
  ok.run fun _ ok => ok.busWrite fun _ ok => ok.refuse.ite (ok.refuse.ite (ok.storeReg.ifThen fun ok
      => ok.setPdu.put))

theorem cadOff (ok : h.MemCanon) {c} : (h.cadOff c).MemCanon :=
  (ok.foldl fun _ _ ok => ok.dropRun.setTask).setCad.trimKept

theorem nmMisses (ok : h.MemCanon) {c} : (h.nmMisses c).MemCanon := ok.raiseIf

theorem execCadenceEnable (ok : s.hw.MemCanon) {c v a} :
    NextMemCanon (Machine.execCadenceEnable c v a s) := by
  unfold Machine.execCadenceEnable
  refine ok.run fun _ ok => ok.busWrite fun _ ok => .ite (ok.refuse.ite (ok.ite
      ok.cadOff.putBit.nmMisses)) (.ite ok.storeReg ?_)
  split
  exacts [ok.refuse, ok.storeReg.setCad.fitCadence]

theorem execBankWrite (ok : s.hw.MemCanon) {t n v a} : NextMemCanon (Machine.execBankWrite t n v a s) :=
  ok.run fun _ ok => ok.busWrite fun _ ok => ok.refuse.ite (ok.storeReg.putBit.capture.ite
      (ok.storeReg.putBit.capture.ite (ok.storeReg.frame.ifThen fun ok => ok.wr)))

/-! ### `Sys2Proof/Machine/Forces.lean` -/

theorem execFrcPermitWrite (ok : s.hw.MemCanon) {v a} : NextMemCanon (Machine.execFrcPermitWrite v a s) :=
  ok.run fun _ ok => ok.busWrite fun _ ok => ok.refuse.ite ok.put

theorem execForceWrite (ok : s.hw.MemCanon) {f v a} : NextMemCanon (Machine.execForceWrite f v a s) :=
  ok.run fun _ ok => ok.busWrite fun _ ok => ok.frame.frcCounts.ite (ok.refuse.ite (ok.refuse.ite
      (ok.refuse.ite ok.frame.frcCounts)))

/-! ### `Sys2Proof/Machine/Gorpen.lean` -/

theorem takeTrap (ok : h.MemCanon) {t r code} : (h.takeTrap t r code).MemCanon := ok.haltRun.ite ok.endPhase

theorem retire (ok : h.MemCanon) {t r addr x} : (h.retire t r addr x).MemCanon := by
  unfold Hw.retire
  split
  exacts [ok.haltRun.ite ok.setRun, ok.endPhase, ok.takeTrap, ok.endPhase, ok.poolEcc]

theorem beginBg (ok : h.MemCanon) {t r} : (h.beginBg t r).1.MemCanon := by
  unfold Hw.beginBg
  split
  exacts [ok.applyForces, ok]

theorem ranNow (ok : h.MemCanon) {t r w} : (h.ranNow t r w).MemCanon := ok.setEng.ite ok.setEng.setTask

theorem loadEcc (ok : h.MemCanon) {fetch load const a} : (h.loadEcc fetch load const a).MemCanon := by
  unfold Hw.loadEcc
  dsimp only
  split
  · exact (ok.sat.raise.ite ok).sat.raise
  · exact (ok.sat.raise.ite ok).sat.raise
  · exact (ok.sat.raise.ite ok).frame.sat.wr.raise
  · exact ok.sat.raise.ite ok

theorem engineStep (ok : h.MemCanon) {e fetch op f load} : (h.engineStep e fetch op f load).MemCanon := by
  unfold Hw.engineStep
  split
  · exact ok
  · next t r _ =>
    have started := ok.beginBg (t := t) (r := r)
    exact started.haltRun.ite ((((started.frame.sat.wr.raise).ite started).takeTrap.ranNow).ite
      (started.takeTrap.ranNow.ite (started.takeTrap.ranNow.ite (ok.ite started.loadEcc.retire.ranNow))))

theorem execNop (ok : s.hw.MemCanon) {k} : NextMemCanon (Machine.execNop k s) := by
  unfold Machine.execNop
  refine ok.run fun _ ok => ?_
  split
  exacts [ok.fireCue fun _ _ _ _ _ ok => ok, ok.engineStep]

theorem execAlu (ok : s.hw.MemCanon) {e fetch} : NextMemCanon (Machine.execAlu e fetch s) :=
  ok.run fun _ ok => ok.engineStep

theorem execLogic (ok : s.hw.MemCanon) {e fetch} : NextMemCanon (Machine.execLogic e fetch s) :=
  ok.run fun _ ok => ok.engineStep

theorem execCmp (ok : s.hw.MemCanon) {e fetch} : NextMemCanon (Machine.execCmp e fetch s) :=
  ok.run fun _ ok => ok.engineStep

theorem execCvt (ok : s.hw.MemCanon) {e fetch} : NextMemCanon (Machine.execCvt e fetch s) :=
  ok.run fun _ ok => ok.engineStep

theorem execRnd (ok : s.hw.MemCanon) {e fetch} : NextMemCanon (Machine.execRnd e fetch s) :=
  ok.run fun _ ok => ok.engineStep

theorem execBool (ok : s.hw.MemCanon) {e fetch} : NextMemCanon (Machine.execBool e fetch s) :=
  ok.run fun _ ok => ok.engineStep

theorem execSel (ok : s.hw.MemCanon) {e fetch} : NextMemCanon (Machine.execSel e fetch s) :=
  ok.run fun _ ok => ok.engineStep

theorem execBtst (ok : s.hw.MemCanon) {e fetch} : NextMemCanon (Machine.execBtst e fetch s) :=
  ok.run fun _ ok => ok.engineStep

theorem execBins (ok : s.hw.MemCanon) {e fetch} : NextMemCanon (Machine.execBins e fetch s) :=
  ok.run fun _ ok => ok.engineStep

theorem execLi (ok : s.hw.MemCanon) {e fetch} : NextMemCanon (Machine.execLi e fetch s) :=
  ok.run fun _ ok => ok.engineStep

theorem execLih (ok : s.hw.MemCanon) {e fetch} : NextMemCanon (Machine.execLih e fetch s) :=
  ok.run fun _ ok => ok.engineStep

theorem execAddi (ok : s.hw.MemCanon) {e fetch} : NextMemCanon (Machine.execAddi e fetch s) :=
  ok.run fun _ ok => ok.engineStep

theorem execLd (ok : s.hw.MemCanon) {e fetch load} : NextMemCanon (Machine.execLd e fetch load s) :=
  ok.run fun _ ok => ok.engineStep

theorem execSt (ok : s.hw.MemCanon) {e fetch} : NextMemCanon (Machine.execSt e fetch s) :=
  ok.run fun _ ok => ok.engineStep.bgRestart

theorem execLdx (ok : s.hw.MemCanon) {e fetch load} : NextMemCanon (Machine.execLdx e fetch load s) :=
  ok.run fun _ ok => ok.engineStep

theorem execStx (ok : s.hw.MemCanon) {e fetch} : NextMemCanon (Machine.execStx e fetch s) :=
  ok.run fun _ ok => ok.engineStep.bgRestart

theorem execLdb (ok : s.hw.MemCanon) {e fetch load} : NextMemCanon (Machine.execLdb e fetch load s) :=
  ok.run fun _ ok => ok.engineStep

theorem execStb (ok : s.hw.MemCanon) {e fetch} : NextMemCanon (Machine.execStb e fetch s) :=
  ok.run fun _ ok => ok.engineStep.bgRestart

theorem execTcv (ok : s.hw.MemCanon) {e fetch} : NextMemCanon (Machine.execTcv e fetch s) :=
  ok.run fun _ ok => ok.engineStep

theorem execBr (ok : s.hw.MemCanon) {e fetch} : NextMemCanon (Machine.execBr e fetch s) :=
  ok.run fun _ ok => ok.engineStep

theorem execBrk (ok : s.hw.MemCanon) {e fetch} : NextMemCanon (Machine.execBrk e fetch s) :=
  ok.run fun _ ok => ok.engineStep

theorem execLoop (ok : s.hw.MemCanon) {e fetch} : NextMemCanon (Machine.execLoop e fetch s) :=
  ok.run fun _ ok => ok.engineStep

theorem execCall (ok : s.hw.MemCanon) {e fetch} : NextMemCanon (Machine.execCall e fetch s) :=
  ok.run fun _ ok => ok.engineStep

theorem execRet (ok : s.hw.MemCanon) {e fetch} : NextMemCanon (Machine.execRet e fetch s) :=
  ok.run fun _ ok => ok.engineStep

theorem execEndRun (ok : s.hw.MemCanon) {e fetch} : NextMemCanon (Machine.execEndRun e fetch s) :=
  ok.run fun _ ok => ok.engineStep

theorem execTrap (ok : s.hw.MemCanon) {e fetch} : NextMemCanon (Machine.execTrap e fetch s) :=
  ok.run fun _ ok => ok.engineStep

theorem execPrim (ok : s.hw.MemCanon) {e fetch load} : NextMemCanon (Machine.execPrim e fetch load s) :=
  ok.run fun _ ok => ok.engineStep

/-! ### `Sys2Proof/Machine/Debug.lean` -/

theorem goOn (ok : h.MemCanon) {step} : (h.goOn step).MemCanon := by
  unfold Hw.goOn
  split
  · exact ok
  · dsimp only
    split
    exacts [ok.putBit.setEngState.endPhase, ok.putBit.setEngState.setRun]

theorem askHalt (ok : h.MemCanon) : h.askHalt.MemCanon := by
  unfold Hw.askHalt
  refine .ite ok ?_
  dsimp only
  split
  exacts [ok.ite (ok.haltRun.ite ok.frame), ok.frame]

theorem dbgHaltWrite (ok : h.MemCanon) {v} : (h.dbgHaltWrite v).MemCanon :=
  (ok.goOn.raise.ite ok).ite (ok.goOn.ite (ok.askHalt.ite ok))

theorem execDbgHalt (ok : s.hw.MemCanon) {v a} : NextMemCanon (Machine.execDbgHalt v a s) :=
  ok.run fun _ ok => ok.busWrite fun _ ok => ok.dbgHaltWrite

theorem execDbgResume (ok : s.hw.MemCanon) {v a} : NextMemCanon (Machine.execDbgResume v a s) :=
  ok.run fun _ ok => ok.busWrite fun _ ok => ok.dbgHaltWrite

theorem execDbgStep (ok : s.hw.MemCanon) {v a} : NextMemCanon (Machine.execDbgStep v a s) :=
  ok.run fun _ ok => ok.busWrite fun _ ok => ok.dbgHaltWrite

theorem detach (ok : h.MemCanon) : h.detach.MemCanon :=
  ok.frame.putBit.ifElse fun ok => (ok.goOn.raise.ite ok).frame

theorem dbgAttachWrite (ok : h.MemCanon) {v a} : (h.dbgAttachWrite v a).MemCanon :=
  (ok.refuse.ite (ok.refuse.ite ok.abandonRota.frame)).ite (ok.put.ite ok.put.detach.putBit)

theorem execDbgAttach (ok : s.hw.MemCanon) {v a} : NextMemCanon (Machine.execDbgAttach v a s) :=
  ok.run fun _ ok => ok.busWrite fun _ ok => ok.dbgAttachWrite

theorem execDbgDetach (ok : s.hw.MemCanon) {v a} : NextMemCanon (Machine.execDbgDetach v a s) :=
  ok.run fun _ ok => ok.busWrite fun _ ok => ok.dbgAttachWrite

theorem execDbgRegisterWrite (ok : s.hw.MemCanon) {n v a} :
    NextMemCanon (Machine.execDbgRegisterWrite n v a s) := by
  unfold Machine.execDbgRegisterWrite
  refine ok.run fun _ ok => ok.busWrite fun _ ok => ?_
  split
  exacts [ok.refuse, ok.storeReg.setRun]

theorem execAuthExpired (ok : s.hw.MemCanon) : NextMemCanon (Machine.execAuthExpired s) :=
  ok.run fun _ ok => ok.ite (ok.put.ite (ok.frame.foldl fun _ _ ok =>
      ok.put.wr).frcCounts.detach.raise)

/-! ### `Sys2Proof/Machine/Twin.lean` -/

theorem altSend (ok : h.MemCanon) {typ sub tick flags payload} :
    (h.altSend typ sub tick flags payload).MemCanon :=
  ok.ite ok.hand

theorem dualAuthority (ok : h.MemCanon) {f was} : (h.dualAuthority f was).MemCanon :=
  ok.ite (ok.raiseIf.ite ok.raiseIf.frame)

theorem peerSeen (ok : h.MemCanon) {f} : (h.peerSeen f).MemCanon := ok.wr.putBit.dualAuthority

theorem exrexRx (ok : h.MemCanon) {b t bad f} (hb : ∀ g, g.MemCanon → (bad g).MemCanon)
    (hf : ∀ x g, g.MemCanon → (f x g).MemCanon) : (h.exrexRx b t bad f).MemCanon := by
  unfold Hw.exrexRx
  refine ok.ite ?_
  split
  exacts [hb _ ok.sat, (hf _ _ ok.peerSeen).ite ok]

theorem setTw (ok : h.MemCanon) {st} : (h.setTw st).MemCanon := ok.put

theorem expectBeats (ok : h.MemCanon) : h.expectBeats.MemCanon := ok.frame

theorem enterHello (ok : h.MemCanon) : h.enterHello.MemCanon := ok.frame

theorem enterSync (ok : h.MemCanon) : h.enterSync.MemCanon := ok.frame

theorem enterHolder (ok : h.MemCanon) : h.enterHolder.MemCanon := ok.frame.raise

theorem execTwnEnable (ok : s.hw.MemCanon) {v a} : NextMemCanon (Machine.execTwnEnable v a s) := by
  unfold Machine.execTwnEnable
  refine ok.run fun _ ok => ok.busWrite fun _ ok => ?_
  extract_lets was g entered left
  have okStored : g.MemCanon := ok.storeReg
  have okEntered : entered.MemCanon := okStored.frame
  exact ok.refuse.ite (ok.refuse.ite ((ok.refuse.ite (okEntered.ifElse fun ok => ok.takeAuthority)).ite
    (okStored.ifThen fun ok => ok.frame)))

theorem execHelloSend (ok : s.hw.MemCanon) : NextMemCanon (Machine.execHelloSend s) :=
  ok.run fun _ ok => ok.ite ok.frame.exrexSend

theorem execHelloRx (ok : s.hw.MemCanon) {b} : NextMemCanon (Machine.execHelloRx b s) :=
  ok.run fun _ ok => ok.exrexRx (fun _ ok => ok) fun _ _ ok => (ok.frame.raise.ite
      (ok.frame.expectBeats.enterHolder.ite ok.frame.expectBeats.enterSync)).ite (ok.enterHello.ite ok)

theorem execAloneTimeout (ok : s.hw.MemCanon) : NextMemCanon (Machine.execAloneTimeout s) :=
  ok.run fun _ ok => ok.ite (ok.setTw.ite ok.setTw.takeAuthority)

theorem execHeartbeatSend (ok : s.hw.MemCanon) : NextMemCanon (Machine.execHeartbeatSend s) :=
  ok.run fun _ ok => ok.ite ok.frame.altSend.exrexSend

theorem execHeartbeatRx (ok : s.hw.MemCanon) {b} : NextMemCanon (Machine.execHeartbeatRx b s) :=
  ok.run fun _ ok => ok.exrexRx (fun _ ok => ok) fun _ _ ok => ok.put.expectBeats.ifThen fun ok =>
      ok.frame

theorem peerLost (ok : h.MemCanon) : h.peerLost.MemCanon :=
  ok.ite (ok.setTw.raise.frame.ifElse fun ok' => ok'.takeAuthority.ite ok.setTw.raise.frame)

theorem execHeartbeatMiss (ok : s.hw.MemCanon) : NextMemCanon (Machine.execHeartbeatMiss s) := by
  unfold Machine.execHeartbeatMiss
  refine ok.run fun _ ok => .ite ok ?_
  split
  exacts [ok, ok.frame.sat.satF.raise.ifThen fun ok => ok.peerLost]

theorem execImageSegmentRx (ok : s.hw.MemCanon) {b} : NextMemCanon (Machine.execImageSegmentRx b s) := by
  unfold Machine.execImageSegmentRx
  refine ok.run fun _ ok => ok.exrexRx (fun _ ok => ok) fun _ _ ok => .ite ok (.ite ok ?_)
  dsimp only
  split
  exacts [ok.setTwinCad.setTwinCad.placeImage.releaseTasks, ok.setTwinCad]

theorem execImageTimeout (ok : s.hw.MemCanon) {c} : NextMemCanon (Machine.execImageTimeout c s) :=
  ok.run fun _ ok => ok.ite ok.setTwinCad.sat.releaseTasks

theorem execSignatureSend (ok : s.hw.MemCanon) {c} : NextMemCanon (Machine.execSignatureSend c s) := by
  unfold Machine.execSignatureSend
  refine ok.run fun _ ok => ?_
  dsimp only
  split
  exacts [ok, ok.setTwinCad.exrexSend]

theorem execSignatureRx (ok : s.hw.MemCanon) {b} : NextMemCanon (Machine.execSignatureRx b s) := by
  unfold Machine.execSignatureRx
  refine ok.run fun _ ok => ok.exrexRx (fun _ ok => ok) fun _ _ ok => .ite ok (.ite
      ok.setTwinCad.sat ?_)
  split
  exacts [ok.compareSigs.ite ok, ok.setTwinCad]

theorem twinWrite (ok : h.MemCanon) {ofs bs} : (h.twinWrite ofs bs).MemCanon := ok.poolWrite.recordDrain

theorem execStateRx (ok : s.hw.MemCanon) {b} : NextMemCanon (Machine.execStateRx b s) :=
  ok.run fun _ ok => ok.exrexRx (fun _ ok => ok.enterSync.ite ok) fun _ _ ok => (ok.enterSync.ite
      ok).bind fun ok => ok.ite ((ok.foldl fun _ _ ok => ok.twinWrite).ite (ok.ite ok.twinWrite.frame))

theorem declareRefused (ok : h.MemCanon) : h.declareRefused.MemCanon := ok.frame.raise

theorem declareFaulty (ok : h.MemCanon) {cause} : (h.declareFaulty cause).2.MemCanon :=
  ok.frame.raise.bind fun ok => ok.ite_snd (ok.ite_snd (ok.frame.altSend.exrexSend.ite_snd
      ok.declareRefused))

theorem execTwnDeclare (ok : s.hw.MemCanon) {d} : NextMemCanon (Machine.execTwnDeclare d s) := by
  unfold Machine.execTwnDeclare
  refine ok.run fun _ ok => ?_
  split
  · refine ok.busWrite fun _ ok => .ite ok ?_
    split
    · next e => exact ok.declareFaulty.snd e
    · next e => exact (ok.declareFaulty.snd e).refuse
  · exact ok.putBit.declareFaulty.ite ok.putBit

theorem execDeclareRx (ok : s.hw.MemCanon) {b} : NextMemCanon (Machine.execDeclareRx b s) :=
  ok.run fun _ ok => ok.exrexRx (fun _ ok => ok) fun _ _ ok => ok.exrexSend.ifThen fun ok =>
      ok.frame

theorem execAckRx (ok : s.hw.MemCanon) {b} : NextMemCanon (Machine.execAckRx b s) := by
  unfold Machine.execAckRx
  refine ok.run fun _ ok => ok.exrexRx (fun _ ok => ok) fun _ _ ok => ?_
  dsimp only
  split
  exacts [ok, ok.ite (ok.declareRefused.ite ok.frame)]

theorem execDeclareDeadline (ok : s.hw.MemCanon) : NextMemCanon (Machine.execDeclareDeadline s) :=
  ok.run fun _ ok => ok.declareRefused.ite ok

theorem execTwnResync (ok : s.hw.MemCanon) {v a} : NextMemCanon (Machine.execTwnResync v a s) :=
  ok.run fun _ ok => ok.busWrite fun _ ok => ok.ite (ok.refuse.ite ok.enterHolder)

theorem execExrexLaneLoss (ok : s.hw.MemCanon) {lane locked} :
    NextMemCanon (Machine.execExrexLaneLoss lane locked s) :=
  ok.run fun _ ok => ok.ite (ok.putBit.putBit.raise.ite (ok.putBit.putBit.ifThen fun ok =>
      ok.frame.raise.ifThen fun ok => ok.frame))

theorem execTwnCntClr (ok : s.hw.MemCanon) {v a} : NextMemCanon (Machine.execTwnCntClr v a s) :=
  ok.run fun _ ok => ok.busWrite fun _ ok => ok.each fun _ _ ok => ok.wr.ite ok

theorem twinTick (ok : h.MemCanon) : h.twinTick.MemCanon := by
  unfold Hw.twinTick
  dsimp only
  split
  exacts [ok.frame, ok.frame.exrexSend]

/-! ### `Sys2Proof/Machine/Reset.lean` -/

theorem keepLcs (ok : h.MemCanon) {f} (hf : ∀ g, g.MemCanon → (f g).MemCanon) : (h.keepLcs f).MemCanon := (hf h ok).wr

theorem dropRegs (ok : h.MemCanon) {d} : (h.dropRegs d).MemCanon := ok.frame

theorem loseTime (ok : h.MemCanon) : h.loseTime.MemCanon := by
  unfold Hw.loseTime
  extract_lets g kept lost
  have ok : g.MemCanon := ok.each fun _ _ ok => ok.setCorr
  exact foldl ok.frame fun _ _ ok => ok.wr

theorem loseSecurity (ok : h.MemCanon) : h.loseSecurity.MemCanon :=
  ok.keepLcs fun _ ok => ok.frame

theorem unplaceAll (ok : h.MemCanon) : h.unplaceAll.MemCanon :=
  { ok with
    t1 := List.foldlRecOn h.mem.frames _ (motive := fun m : Mem => m.wf = true) ok.t1
      fun _ copied _ _ => Mem.splice_wf copied ok.t0 _ _ _ }

theorem loseL3 (ok : h.MemCanon) : h.loseL3.MemCanon := ok.unplaceAll.frame

theorem loseEngines (ok : h.MemCanon) {d} : (h.loseEngines d).MemCanon :=
  (ok.dropRegs.each fun _ _ ok => ok.setEngState.putBit.ite ok).frame

theorem loseArray (ok : h.MemCanon) : h.loseArray.MemCanon :=
  { ok with prog := rfl, pool := rfl, pduRam := rfl }

theorem loseSwitch (ok : h.MemCanon) : h.loseSwitch.MemCanon := { ok with cells := rfl }

theorem losePorts (ok : h.MemCanon) {d} : (h.losePorts d).MemCanon :=
  ((ok.frame.foldl fun _ _ ok => ok.linkHeld).ite ok.frame).frame

theorem loseT1 (ok : h.MemCanon) {refresh} : (h.loseT1 refresh).MemCanon :=
  ok.dropRegs.ite { ok with t1 := rfl }

theorem domainLost (ok : h.MemCanon) {d refresh} : (h.domainLost d refresh).MemCanon := by
  unfold Hw.domainLost
  split
  · exact ok.loseSecurity
  · exact ok.loseL3
  · exact ok.loseEngines
  · exact ok.loseEngines
  · exact ok.loseArray
  · exact ok.loseTime
  · exact ok.loseSwitch
  · exact ok.losePorts
  · exact ok.losePorts
  · exact ok.losePorts
  · exact ok.losePorts
  · exact ok.losePorts
  · exact { ok with cans := rfl }
  · exact ok.loseT1
  · exact ok.frame
  · exact ok.frame
  · exact ok.frame
  · exact ok.frame
  · exact ok.frame
  · exact ok

theorem coresLost (ok : h.MemCanon) {d} : (h.coresLost d).MemCanon := ok.frame

theorem domainOff (ok : h.MemCanon) {d refresh} : (h.domainOff d refresh).MemCanon :=
  ok.domainLost.coresLost.putBit

theorem slotResume (ok : h.MemCanon) {n} : (h.slotResume n).MemCanon :=
  ok.setTcuState.setSlot.ite (ok.ite (ok.enterHoldover.ite ok.put))

theorem domainUp (ok : h.MemCanon) {d} : (h.domainUp d).MemCanon :=
  (ok.putBit.foldl fun _ _ ok => ok.slotResume).ite (ok.frame.ite (ok.putBit.nmuPd17Up.ite
      (ok.frame.ite ok.frame)))

theorem execPdDone (ok : s.hw.MemCanon) : NextMemCanon (Machine.execPdDone s) := by
  unfold Machine.execPdDone
  refine ok.run fun _ ok => ?_
  split
  exacts [ok, (ok.frame.domainUp.ite ok.frame.domainOff).putBit.pwrLast.raise.pwrGo]

theorem powerInOrder (ok : h.MemCanon) {ds} : (h.powerInOrder ds).MemCanon :=
  (ok.foldl fun _ _ ok => ok.pwrQueue).pwrGo

theorem pwrReset (ok : h.MemCanon) : h.pwrReset.MemCanon := by
  unfold Hw.pwrReset
  extract_lets g
  have ok : g.MemCanon := ok.wr.each fun _ _ ok => ok.wr
  exact ok.frame

theorem bootReset (ok : h.MemCanon) {fired} : (h.bootReset fired).MemCanon :=
  ok.frame.put.putBit.wr.wr.wr.put.putBit.put.each fun _ _ ok => ok.wr

theorem lastPage (ok : h.MemCanon) : h.lastPage.MemCanon := by
  unfold Hw.lastPage
  split
  exacts [ok.flPage.ite ok, ok]

theorem lcsTakes (ok : h.MemCanon) : h.lcsTakes.MemCanon := by
  unfold Hw.lcsTakes
  split
  exacts [ok, (ok.put.ite ok).frame]

theorem sinceReset (ok : h.MemCanon) : h.sinceReset.MemCanon := ok.frame

theorem mainReset (ok : h.MemCanon) {cause} : (h.mainReset cause).MemCanon := by
  unfold Hw.mainReset
  extract_lets _ noted put lost last off _ g
  have ok : put.MemCanon := ok.frame
  have ok : lost.MemCanon := ok.ifThen fun ok => ok.logicLost
  have ok : off.MemCanon := ok.lastPage.foldl fun _ _ ok => ok.domainOff
  have ok : g.MemCanon := ok.frame
  exact ok.bootReset.lcsTakes.pwrReset.sinceReset

theorem execMainLogicReset (ok : s.hw.MemCanon) {mv} : NextMemCanon (Machine.execMainLogicReset mv s) :=
  ok.run fun _ ok => ok.vbatMeasured.ifElse fun ok => ok.raiseIf.mainReset

theorem execResetN (ok : s.hw.MemCanon) {low} : NextMemCanon (Machine.execResetN low s) :=
  ok.run fun _ ok => ok.frame.mainReset.ite ok.frame

theorem execSysResetReq (ok : s.hw.MemCanon) {v a} : NextMemCanon (Machine.execSysResetReq v a s) :=
  ok.run fun _ ok => ok.busWrite fun _ ok => ok.refuse.ite ok.mainReset

theorem execSysWdog (ok : s.hw.MemCanon) {v a} : NextMemCanon (Machine.execSysWdog v a s) :=
  ok.run fun _ ok => ok.busWrite fun _ ok => ok.frame.ite (ok.ite (ok.mainReset.ite ok.frame))

theorem execSysWdogExpiry (ok : s.hw.MemCanon) : NextMemCanon (Machine.execSysWdogExpiry s) :=
  ok.run fun _ ok => ok.mainReset.ite ok

theorem execBootRecover (ok : s.hw.MemCanon) {v a} : NextMemCanon (Machine.execBootRecover v a s) :=
  ok.run fun _ ok => ok.busWrite fun _ ok => ok.ite (ok.refuse.ite ok.frame.mainReset)

theorem activateNow (ok : h.MemCanon) : h.activateNow.MemCanon := ok.raise.mainReset

theorem activateEff (ok : h.MemCanon) {arg v tc idx} : (Machine.activateEff arg v tc idx h).MemCanon :=
  ok.ite (ok.defer.raise.ite ok.activateNow)

theorem execActivate (ok : s.hw.MemCanon) {c} : NextMemCanon (Machine.execActivate c s) :=
  ok.run fun _ ok => ok.fireCue fun _ _ _ _ _ ok => ok.activateEff

theorem straps (ok : h.MemCanon) {mode root secondary} : (h.straps mode root secondary).MemCanon :=
  ok.put.putBit.putBit

theorem execResetRelease (ok : s.hw.MemCanon) {bootMode twinRole spanRole} :
    NextMemCanon (Machine.execResetRelease bootMode twinRole spanRole s) :=
  ok.run fun _ ok => ok.ite ok.frame.put.incF.straps.powerInOrder

theorem vbatLost (ok : h.MemCanon) : h.vbatLost.MemCanon := ⟨rfl, rfl, ok.flash, rfl, rfl, rfl, rfl, rfl⟩

theorem execVbatLoss (ok : s.hw.MemCanon) : NextMemCanon (Machine.execVbatLoss s) :=
  ok.run fun _ ok => ok.vbatLost

theorem execVbatPowerOn (ok : s.hw.MemCanon) {mv} : NextMemCanon (Machine.execVbatPowerOn mv s) :=
  ok.run fun _ ok => ok.ite ok.frame.lcsTakes.wr.stagePower.vbatMeasured

theorem sleepWithdrawn (ok : h.MemCanon) {ds} : (h.sleepWithdrawn ds).MemCanon := by
  unfold Hw.sleepWithdrawn
  refine ok.foldl fun _ _ ok => ?_
  split
  exacts [ok.ite ok.pwrWithdraw, ok]

theorem execModuleWake (ok : s.hw.MemCanon) : NextMemCanon (Machine.execModuleWake s) :=
  ok.run fun _ ok => ok.ite (ok.frame.mainReset.ite ok.frame.sleepWithdrawn.powerInOrder.raise)

theorem runDeferred (ok : h.MemCanon) {good d} : (h.runDeferred good d).MemCanon := by
  unfold Hw.runDeferred
  refine .ite ok ?_
  split
  · exact ok.frame
  · exact ok.persistCheck.keyEnd
  · exact ok.enrol.keyEnd
  · exact ok.lcsBurn.putBit
  · exact ok.arbBurn
  · exact ok.pkRevoke
  · exact ok
  · exact ok.dumpGo
  · exact ok.activateNow
  · exact ok.updErase
  · exact ok.recoveryWrite

theorem execHoldExit (ok : s.hw.MemCanon) {mv good} : NextMemCanon (Machine.execHoldExit mv good s) :=
  ok.run fun _ ok => ok.vbatMeasured.ifElse fun ok => ok.frame.putBit.put.wr.raise.foldl fun _ _ ok =>
      ok.runDeferred

theorem in48Back (ok : h.MemCanon) {c} : (h.in48Back c).MemCanon :=
  ok.ite (ok.openWindow.ifElse fun ok => ok.showDriven)

theorem execIn48Fault (ok : s.hw.MemCanon) {uv ov tens} : NextMemCanon (Machine.execIn48Fault uv ov tens s) :=
  ok.run fun _ ok => ok.put.raiseIf.raiseIf.putBit.putBit.bind fun ok => (ok.each fun _ _ ok =>
      ok.in48Back).ite ok

/-! ### `Sys2Proof/Machine/CueFire.lean` -/

theorem cueEff (ok : h.MemCanon) {act a a' a2 a3} : (Machine.cueEff act a a' a2 a3 h).MemCanon := by
  unfold Machine.cueEff
  split
  · exact ok.latchEff
  · exact ok.commitEff
  · exact ok.adcBurstEff
  · exact ok.gateEff
  · exact ok.holdEff
  · exact ok.pwmAlignEff
  · exact ok.canTxEff
  · exact ok.linSlotEff
  · exact ok.rioPollEff
  · exact ok.rioSendEff
  · exact ok.dmaTrigEff
  · exact ok.evtPulseEff
  · exact ok.tcCaptureEff
  · exact ok.swapEff
  · exact ok.activateEff
  · exact ok

theorem fireEntry (ok : h.MemCanon) {i v e} : (h.fireEntry i v e).MemCanon :=
  ok.fireAt fun _ ok => ok.cueEff

theorem fireDue (ok : h.MemCanon) {n v} : (h.fireDue n v).MemCanon := ok.foldl fun _ _ ok => ok.fireEntry

theorem fireMust (ok : h.MemCanon) {n lo hi v} : (h.fireMust n lo hi v).MemCanon :=
  (ok.foldl fun _ _ ok => ok.fireEntry).raiseIf

theorem latchSkipped (ok : h.MemCanon) {i k e} : (h.latchSkipped i k e).MemCanon := ok.setCad.ite ok

theorem skipSpan (ok : h.MemCanon) {half n lo hi} : (h.skipSpan half n lo hi).MemCanon :=
  (ok.foldl fun _ _ ok => ok.ite ok.sat.latchSkipped).raiseIf

theorem noteSkips (ok : h.MemCanon) {a b} : (h.noteSkips a b).MemCanon := by
  unfold Hw.noteSkips
  split
  exacts [ok, ok.wr, ok.wr, ok.wr]

theorem swapCheck (ok : h.MemCanon) {c} : (h.swapCheck c).MemCanon :=
  (ok.setCad.ite ok).ite (ok.ite (ok.setCad.raise.foldl fun _ _ ok => ok.noteSafe.ite
      ok.noteSafe.setTaskState).gate)

theorem carrySwap (ok : h.MemCanon) : h.carrySwap.MemCanon :=
  ok.swapHalves.passMarks.ifThen fun ok => ok.foldl fun _ _ ok => ok.swapCheck

theorem noteStep (ok : h.MemCanon) {n} : (h.noteStep n).MemCanon :=
  (ok.foldl fun _ _ ok => ok.setCad).frame

theorem takeStep (ok : h.MemCanon) {n upTo} : (h.takeStep n upTo).MemCanon :=
  ok.setSlot.putBit.incF.tcuEvent

theorem passWhole (ok : h.MemCanon) {n b upTo} : (h.passWhole n b upTo).MemCanon :=
  ok.noteSkips.skipSpan.fireMust.fireDue

theorem passed (ok : h.MemCanon) {n b upTo swap} : (h.passed n b upTo swap).MemCanon := by
  unfold Hw.passed
  dsimp only
  split
  · exact ok.passWhole
  · exact ok.carrySwap.passWhole.ite (ok.noteSkips.skipSpan.skipSpan.fireMust.carrySwap.fireMust.fireDue.ite
      (ok.passWhole.carrySwap.ite ok.passWhole))

theorem stepSlot (ok : h.MemCanon) {n b d} : (h.stepSlot n b d).MemCanon := by
  unfold Hw.stepSlot
  refine .renewHorizons (.ite (ok.setSlot.fireDue.ite ok.setSlot).takeStep.noteStep.passed ?_)
  split
  · exact (ok.setSlot.fireDue.ite ok.setSlot).takeStep.noteStep.ifThen fun ok => ok.carrySwap
  · exact (ok.setSlot.fireDue.ite ok.setSlot).takeStep.noteStep

theorem execTimecodeStep (ok : s.hw.MemCanon) {n} : NextMemCanon (Machine.execTimecodeStep n s) := by
  unfold Machine.execTimecodeStep
  refine ok.run fun _ ok => ?_
  split
  exacts [ok.stepSlot.ite ok, ok]

theorem execSwapDone (ok : s.hw.MemCanon) : NextMemCanon (Machine.execSwapDone s) := by
  unfold Machine.execSwapDone
  refine ok.run fun _ ok => ?_
  split
  exacts [ok.ite (ok.fireDue.ite ok).carrySwap.renewHorizons, ok]

theorem fireLate (ok : h.MemCanon) : h.fireLate.MemCanon :=
  ok.ite (ok.cueNow.frame.foldl fun _ _ ok => ok.fireChecked fun _ ok => ok.cueEff)

theorem stepNow (ok : h.MemCanon) {n} : (h.stepNow n).MemCanon := by
  unfold Hw.stepNow
  split
  exacts [ok.stepSlot.ite ok, ok]

theorem execSourceQualified (ok : s.hw.MemCanon) {n src rate x} :
    NextMemCanon (Machine.execSourceQualified n src rate x s) :=
  ok.run fun _ ok => ok.ite ok.qualify.stepNow.shaftAt

theorem measured (ok : h.MemCanon) {n src rate tickNs} : (h.measured n src rate tickNs).MemCanon :=
  ok.ite ok.rebase.wr.setSlot.putBit.judge.stepNow.shaftAt

theorem execCorrectionMeasured (ok : s.hw.MemCanon) {n m ns} :
    NextMemCanon (Machine.execCorrectionMeasured n m ns s) := by
  unfold Machine.execCorrectionMeasured
  refine ok.run fun _ ok => .ite ok ?_
  split
  exacts [ok.measured, ok.encoderEdge.ite ok]

theorem pwmFree (ok : h.MemCanon) {n} : (h.pwmFree n).MemCanon := ok.each fun _ _ ok => ok.putBit.ite ok

theorem execTcuSrcWrite (ok : s.hw.MemCanon) {n v a} : NextMemCanon (Machine.execTcuSrcWrite n v a s) :=
  ok.run fun _ ok => ok.busWrite fun _ ok => ok.refuse.ite (ok.rebase.storeReg.sourceChanged.ifThen fun
      ok => ok.pwmFree)

/-! ### `Sys2Proof/Machine/Health.lean` -/

theorem engineReady (ok : h.MemCanon) {e} : (h.engineReady e).MemCanon := ok.engBecomes

theorem judged (ok : h.MemCanon) {e r} : (h.judged e r).MemCanon :=
  ok.ite (ok.wr.raise.retireEngine.ite (ok.wr.wr.engineReady.ite ok.wr.wr.raise.raise.retireEngine))

theorem execStartupTest (ok : s.hw.MemCanon) {pd8 res} : NextMemCanon (Machine.execStartupTest pd8 res s) :=
  ok.run fun _ ok => ok.ite (ok.each fun _ _ ok => ok.judged).putBit

theorem execSpareRota (ok : s.hw.MemCanon) : NextMemCanon (Machine.execSpareRota s) := by
  unfold Machine.execSpareRota
  refine ok.run fun _ ok => .ite ok ?_
  dsimp only
  split
  exacts [ok.frame, ok.frame.ite (ok.frame.ite ok.frame.setEngState.put)]

theorem execDailies (ok : s.hw.MemCanon) : NextMemCanon (Machine.execDailies s) := by
  unfold Machine.execDailies
  refine ok.run fun _ ok => ok.ite ?_
  extract_lets counted ws sent shown x g raised
  have ok : shown.MemCanon := ok.inc.each fun _ _ ok => ok.wr
  have ok : raised.MemCanon := raise ok.frame
  exact ok.hand.ite ok

/-! ### `Sys2Proof/Machine/Jobs.lean` -/

theorem setJobs (ok : h.MemCanon) {q l} : (h.setJobs q l).MemCanon := ok.frame.put

theorem execJobSubmit (ok : s.hw.MemCanon) {q v a} : NextMemCanon (Machine.execJobSubmit q v a s) :=
  ok.run fun _ ok => ok.busWrite fun _ ok => ok.refuse.ite (ok.refuse.ite ok.setJobs)

theorem jobDone (ok : h.MemCanon) {q j d code} : (h.jobDone q j d code).MemCanon :=
  ok.memWrite.setJobs.incF.raiseIf

theorem runJob (ok : h.MemCanon) {q op f} (hf : ∀ d j g, g.MemCanon → (f d j g).2.MemCanon) :
    (h.runJob q op f).MemCanon := by
  unfold Hw.runJob
  refine ok.ite ?_
  split
  · exact ok
  · split
    · next e => exact (ok.memRead.snd e).setJobs.incF
    · next e =>
      have ok := ok.memRead.snd e
      exact ok.jobDone.ite (ok.ite (hf _ _ _ ok).jobDone)

theorem jobOut (ok : h.MemCanon) {addr bs j} : (h.jobOut addr bs j).2.MemCanon := ok.memWrite

theorem jobIn (ok : h.MemCanon) {addr n j f} (hf : ∀ bs g, g.MemCanon → (f bs g).2.MemCanon) :
    (h.jobIn addr n j f).2.MemCanon := by
  unfold Hw.jobIn
  split
  · next e => exact ok.memRead.snd e
  · next e => exact hf _ _ (ok.memRead.snd e)

theorem execCryAes (ok : s.hw.MemCanon) {q} : NextMemCanon (Machine.execCryAes q s) := by
  unfold Machine.execCryAes
  refine ok.run fun _ ok => ok.runJob fun _ _ _ ok => .ite_snd ok ?_
  split
  · exact ok
  · exact ok.jobIn fun _ _ ok => ok.jobOut.ite_snd (ok.jobIn fun _ _ ok => ok.jobOut.ite_snd
      (ok.jobOut.ite_snd ((ok.jobOut.jobOut.ite_snd ok.jobOut).ite_snd (ok.jobOut.ite_snd ok.jobOut))))

theorem execCrySha (ok : s.hw.MemCanon) {q} : NextMemCanon (Machine.execCrySha q s) :=
  ok.run fun _ ok => ok.runJob fun _ _ _ ok => ok.ite_snd (ok.jobIn fun _ _ ok => ok.jobOut)

theorem execCryHmac (ok : s.hw.MemCanon) {q} : NextMemCanon (Machine.execCryHmac q s) := by
  unfold Machine.execCryHmac
  refine ok.run fun _ ok => ok.runJob fun _ _ _ ok => .ite_snd ok ?_
  split
  exacts [ok, ok.jobIn fun _ _ ok => ok.jobOut]

theorem execCryCmac (ok : s.hw.MemCanon) {q} : NextMemCanon (Machine.execCryCmac q s) := by
  unfold Machine.execCryCmac
  refine ok.run fun _ ok => ok.runJob fun _ _ _ ok => ?_
  split
  exacts [ok, ok.jobIn fun _ _ ok => ok.jobOut.ite_snd (ok.jobIn fun _ _ ok => ok)]

theorem execEcdsaSign (ok : s.hw.MemCanon) {q} : NextMemCanon (Machine.execEcdsaSign q s) := by
  unfold Machine.execEcdsaSign
  refine ok.run fun _ ok => ok.runJob fun _ _ _ ok => .ite_snd ok ?_
  split
  exacts [ok, ok.ite_snd (ok.jobIn fun _ _ ok => ok.freeBytes.jobOut)]

theorem execEcdsaVerify (ok : s.hw.MemCanon) {q} : NextMemCanon (Machine.execEcdsaVerify q s) :=
  ok.run fun _ ok => ok.runJob fun _ _ _ ok => ok.ite_snd (ok.jobIn fun _ _ ok => ok.jobIn fun _ _ ok
      => ok)

theorem execEd25519Sign (ok : s.hw.MemCanon) {q} : NextMemCanon (Machine.execEd25519Sign q s) := by
  unfold Machine.execEd25519Sign
  refine ok.run fun _ ok => ok.runJob fun _ _ _ ok => .ite_snd ok ?_
  split
  exacts [ok, ok.ite_snd (ok.jobIn fun _ _ ok => ok.jobOut)]

theorem execEd25519Verify (ok : s.hw.MemCanon) {q} : NextMemCanon (Machine.execEd25519Verify q s) :=
  ok.run fun _ ok => ok.runJob fun _ _ _ ok => ok.ite_snd (ok.jobIn fun _ _ ok => ok.jobIn fun _ _ ok
      => ok)

/-! ### `Sys2Proof/Machine/Takes.lean` -/

theorem takeDrain (ok : h.MemCanon) {p which} : (h.takeDrain p which).MemCanon :=
  ok.foldl fun _ _ ok => ok.poolWrite.ite ok

theorem takeLoad (ok : h.MemCanon) {base area snap l start} : (h.takeLoad base area snap l start).MemCanon := by
  unfold Hw.takeLoad
  extract_lets img _ g left early drained
  have ok : g.MemCanon := ok.setPool (Mem.write_wf img [] 0 rfl)
  have ok : drained.MemCanon := ok.foldl fun _ _ ok => ok.takeDrain
  exact ok.frame

theorem takeStart (ok : h.MemCanon) : h.takeStart.MemCanon := by
  unfold Hw.takeStart
  refine .ite ok.put ?_
  dsimp only
  split
  · exact ok.put
  · split
    exacts [ok.put, ok.put.takeLoad.ite ok.put]

theorem execTakeGo (ok : s.hw.MemCanon) {v a} : NextMemCanon (Machine.execTakeGo v a s) :=
  ok.run fun _ ok => ok.busWrite fun _ ok => ok.putBit.ite (ok.refuse.ite (ok.refuse.ite
      ok.putBit.takeStart))

theorem takeTask (ok : h.MemCanon) {eng seq t} : (h.takeTask eng seq t).MemCanon :=
  ok.setTaskState.ite (ok.dropRun.setTask.ifThen fun ok => ok.startRun)

theorem takeLatch (ok : h.MemCanon) {x r} : (h.takeLatch x r).MemCanon := by
  unfold Hw.takeLatch
  extract_lets c p words engOf forced seq _ g _ latched
  have ok : forced.MemCanon := ok.foldl fun _ _ ok => ok.applyForces
  clear_value forced
  have ok : latched.MemCanon := ok.frame
  exact ok.poolWriteAt.wr.foldl fun _ _ ok => ok.takeTask

theorem takeDiverge (ok : h.MemCanon) {c t} : (h.takeDiverge c t).MemCanon := (ok.wr.ite ok).satF.raise

theorem takeStop (ok : h.MemCanon) : h.takeStop.MemCanon :=
  (ok.foldl fun _ _ ok => (ok.foldl fun _ _ ok =>
      ok.dropRun.setTask).setCad).frame.trimKept

theorem commitTake {x : CommitAcc} (ok : x.hw.MemCanon) {w} : (x.take w).hw.MemCanon := by
  unfold CommitAcc.take
  refine ite_hw ?equal (ite_hw ok.setTask.setLast.setTaskState ?_)
  case equal =>
    refine commitEqual (x := ⟨_, _, _, _⟩) ?_
    exact ok.setTask
  exact ite_hw ok.dropRun.setTask.setTaskState.noteSafe ok.dropRun.setTask.setLast

theorem takeCommit (ok : h.MemCanon) {c p} : (h.takeCommit c p).MemCanon := by
  unfold Hw.takeCommit
  dsimp only
  refine .bind (.trimKept (.setCad (.wr (.raiseG (.inc (.foldl ?_ fun _ _ ok => ok.poolWrite)))))) fun ok => ok.ite ?_
  · exact foldl_hw ok fun _ _ ok => ok.commitTake
  · exact ok.takeDiverge.takeStop.ite ok.takeDiverge

theorem takeForce (ok : h.MemCanon) {p} : (h.takeForce p).MemCanon := by
  unfold Hw.takeForce
  extract_lets w e same f g l
  have ok : g.MemCanon := ok.each fun _ _ ok => ok.wr
  exact ok.frame

theorem takeBank (ok : h.MemCanon) {p} : (h.takeBank p).MemCanon := ok.foldl fun _ _ ok => ok.putBit.wr

theorem takeRecord (ok : h.MemCanon) {x r rest} : (h.takeRecord x r rest).MemCanon := by
  unfold Hw.takeRecord
  refine .ite ok.put.takeStop (.ite ok ?_)
  dsimp only
  split
  · exact ok.frame.takeCommit.ite ok.frame
  · exact ok.frame.takeDrain
  · exact ok.frame.takeForce
  · exact ok.frame.takeBank
  · exact ok.frame

theorem execTakeCycle (ok : s.hw.MemCanon) : NextMemCanon (Machine.execTakeCycle s) := by
  unfold Machine.execTakeCycle
  refine ok.run fun _ ok => ?_
  split
  · exact ok
  · split
    · exact ok.takeLatch
    · split
      exacts [ok, ok.ite ok.takeRecord]

theorem execTakeEnd (ok : s.hw.MemCanon) : NextMemCanon (Machine.execTakeEnd s) := by
  unfold Machine.execTakeEnd
  refine ok.run fun _ ok => ?_
  split
  · exact ok
  · split
    exacts [ok.takeStop.raise, ok.takeStop.raise.ite ok]

/-! ### `Sys2Proof/Machine/RegRead.lean` -/

theorem ceBusy (ok : h.MemCanon) {e} : (h.ceBusy e).2.MemCanon := ok.freeWord.ite_snd ok

theorem readValue (ok : h.MemCanon) {k a} : (h.readValue k a).2.MemCanon := by
  unfold Hw.readValue
  dsimp only
  split
  exacts [ok, ok.ite_snd (ok.ite_snd (ok.ite_snd (ok.holdLeft.ite_snd (ok.ceBusy.ite_snd ok))))]

theorem readAt (ok : h.MemCanon) {k a} : (h.readAt k a).MemCanon := by
  unfold Hw.readAt
  refine .ite ?_ ?_
  · split
    · next e =>
        split
        · next e' => exact ((ok.readValue.snd e).readValue.snd e').frame.answer
  · split
    · exact ok.frame.answer
    · split
      · next e' => exact (ok.readValue.snd e').answer

theorem asHw (ok : h.MemCanon) {f} (hf : ∀ s, s.hw.MemCanon → NextMemCanon (f s)) : (h.asHw f).MemCanon := by
  have k := hf { hw := h } ok
  unfold Hw.asHw
  split
  · next e => rwa [e] at k
  · exact ok

theorem regAccess (ok : h.MemCanon) {addr width a f} (hf : ∀ k g, g.MemCanon → (f k g).MemCanon) :
    (h.regAccess addr width a f).MemCanon := by
  unfold Hw.regAccess
  split
  · exact ok.errResp
  · exact (hf _ _ ok).ite (ok.ite (ok.errResp.ite (ok.capture.errResp.ite ok.capture.errResp)))

theorem regRead (ok : h.MemCanon) {addr width a} : (h.regRead addr width a).MemCanon :=
  ok.regAccess fun _ _ ok => (ok.asHw fun _ ok => ok.execKeyRngRead).ite (ok.access fun _ ok =>
      ok.readAt)

theorem execLowerRegisterRead (ok : s.hw.MemCanon) {r a} :
    NextMemCanon (Machine.execLowerRegisterRead r a s) :=
  ok.run fun _ ok => ok.regRead

theorem execUpperRegisterRead (ok : s.hw.MemCanon) {r a} :
    NextMemCanon (Machine.execUpperRegisterRead r a s) :=
  ok.run fun _ ok => ok.regRead

/-! ### `Sys2Proof/Machine/RegWrite.lean` -/

theorem plain (ok : h.MemCanon) {k v a} : (h.plain k v a).MemCanon := ok.busWrite fun _ ok => ok.storeReg

theorem checked (ok : h.MemCanon) {k v a code f} (hf : ∀ g, g.MemCanon → (f g).MemCanon) :
    (h.checked k v a code f).MemCanon := by
  refine ok.busWrite fun g ok => ?_
  split
  exacts [ok.refuse, hf _ ok.storeReg]

theorem unitPorts (ok : h.MemCanon) {was} : (Hw.unitPorts was h).MemCanon :=
  ok.foldl fun _ _ ok => ok.linkResumed.ite (ok.linkHeld.ite ok)

theorem headerWrite (ok : h.MemCanon) {page o v a} : (h.headerWrite page o v a).MemCanon := by
  unfold Hw.headerWrite
  dsimp only
  split
  · exact ok.asHw fun _ ok => ok.execWorldWrite
  · exact (ok.asHw fun _ ok => ok.execCanEnable).ite ((ok.asHw fun _ ok => ok.execRelEnable).ite
      (ok.busWrite fun _ ok => ok.storeReg.unitPorts.ifThen fun ok => ok.putBit))
  · exact ok.busWrite fun _ ok => ok.wr.newEdges
  · exact ok.asHw fun _ ok => ok.execEvtClrWrite
  · exact ok.asHw fun _ ok => ok.execEvtSetWrite
  · exact ok.asHw fun _ ok => ok.execErrCapClear
  · exact ok.asHw fun _ ok => ok.execLockWrite
  · exact ok.plain

theorem systemWrite (ok : h.MemCanon) {blk k o v a} : (h.systemWrite blk k o v a).MemCanon := by
  unfold Hw.systemWrite
  split
  · exact (ok.asHw fun _ ok => ok.execSysResetReq).ite ((ok.asHw fun _ ok => ok.execSysWdog).ite
      ((ok.checked fun _ ok => ok.frame.ite ok).ite ok.plain))
  · refine .ite (ok.asHw fun _ ok => ok.execPwrOn) (.ite (ok.asHw fun _ ok => ok.execPwrOff) ?_)
    split
    · exact ok.asHw fun _ ok => ok.execPwrClkOff
    · split
      exacts [ok.asHw fun _ ok => ok.execPwrClkOn, ok.plain]
  · exact (ok.checked fun _ ok => ok).ite ((ok.asHw fun _ ok => ok.execSupCntClr).ite ok.plain)
  · split
    exacts [ok.asHw fun _ ok => ok.execEvrRouteWrite, ok.plain]

theorem bootWrite (ok : h.MemCanon) {k v a} : (h.bootWrite k v a).MemCanon :=
  (ok.asHw fun _ ok => ok.execBootPkRev).ite ((ok.asHw fun _ ok => ok.execBootRecover).ite ((ok.busWrite fun
      _ ok => ok.flCommand).ite ((ok.asHw fun _ ok => ok.execUpdateGo).ite ((ok.asHw fun _ ok =>
      ok.execActArm).ite ((ok.asHw fun _ ok => ok.execBootRcvCommit).ite (ok.checked fun _ ok => ok))))))

theorem twnWrite (ok : h.MemCanon) {k o v a} : (h.twnWrite k o v a).MemCanon :=
  (ok.asHw fun _ ok => ok.execTwnEnable).ite ((ok.asHw fun _ ok => ok.execTwnDeclare).ite ((ok.asHw fun _
      ok => ok.execTwnResync).ite ((ok.asHw fun _ ok => ok.execTwnCntClr).ite (ok.checked fun _ ok =>
      ok))))

theorem tcuWrite (ok : h.MemCanon) {k o v a} : (h.tcuWrite k o v a).MemCanon := by
  unfold Hw.tcuWrite
  refine .ite (ok.asHw fun _ ok => ok.execTcuBaseTickWrite) ?_
  split
  · exact ok.plain
  · split
    · exact ok.asHw fun _ ok => ok.execTcuSrcWrite
    · exact ok.checked fun _ ok => ok
    · exact ok.checked fun _ ok => ok.slewLimit
    · exact ok.plain

theorem cueWrite (ok : h.MemCanon) {k v a} : (h.cueWrite k v a).MemCanon :=
  (ok.asHw fun _ ok => ok.execCueIdxWrite).ite ((ok.asHw fun _ ok => ok.execCueW3Write).ite ((ok.asHw fun _
      ok => ok.execCueSwapRequest).ite ((ok.asHw fun _ ok => ok.execCueCopy).ite ((ok.asHw fun _ ok =>
      ok.execCueCntClr).ite ok.plain))))

theorem taskOff (ok : h.MemCanon) {t} : (h.taskOff t).MemCanon := ok.dropRun.setTask.put.setTaskState

theorem taskWrite (ok : h.MemCanon) {t w v a} : (h.taskWrite t w v a).MemCanon :=
  ok.busWrite fun _ ok => ok.refuse.ite (ok.refuse.ite (ok.taskOff.putBit.ite ((ok.refuse.ite
      ok.storeReg.setTask).ite ok.storeReg)))

theorem ceaWrite (ok : h.MemCanon) {k o v a} : (h.ceaWrite k o v a).MemCanon := by
  unfold Hw.ceaWrite
  refine .ite (ok.asHw fun _ ok => ok.execCeaTaskRestart) (.ite (ok.asHw fun _ ok => ok.execCeaReplace)
      (.ite (ok.busWrite fun _ ok => ok.wr.newEdges) (.ite (ok.asHw fun _ ok => ok.execEvtClrWrite) (.ite
      (ok.asHw fun _ ok => ok.execEvtSetWrite) ?_))))
  split
  · exact (ok.asHw fun _ ok => ok.execCadenceEnable).ite (ok.checked fun _ ok => ok)
  · split
    · exact ok.taskWrite
    · split
      exacts [ok.asHw fun _ ok => ok.execPduEntryWrite, ok.plain]

theorem pgmWrite (ok : h.MemCanon) {k o v a} : (h.pgmWrite k o v a).MemCanon := by
  unfold Hw.pgmWrite
  split
  exacts [(ok.asHw fun _ ok => ok.execBankWrite).ite ok.plain, ok.plain]

theorem frcWrite (ok : h.MemCanon) {k o v a} : (h.frcWrite k o v a).MemCanon := by
  unfold Hw.frcWrite
  refine .ite (ok.asHw fun _ ok => ok.execFrcPermitWrite) (.ite (ok.busWrite fun _ ok => ok.storeReg.frame)
      (.ite (ok.busWrite fun _ ok => ok.chgCtrlWrite) (.ite (ok.checked fun _ ok => ok) ?_)))
  split
  exacts [(ok.asHw fun _ ok => ok.execForceWrite).ite ok.plain, ok.plain]

theorem dbgWrite (ok : h.MemCanon) {k o v a} : (h.dbgWrite k o v a).MemCanon := by
  unfold Hw.dbgWrite
  refine .ite (ok.busWrite fun _ ok => ok.dbgAttachWrite) (.ite (ok.busWrite fun _ ok => ok.dbgHaltWrite)
      ?_)
  split
  exacts [ok.asHw fun _ ok => ok.execDbgRegisterWrite, ok.plain]

theorem swcWrite (ok : h.MemCanon) {k o v a} : (h.swcWrite k o v a).MemCanon := by
  unfold Hw.swcWrite
  refine .ite (ok.asHw fun _ ok => ok.execSwcCntClr) (.ite (ok.checked fun _ ok => ok) (.ite (ok.checked fun
      _ ok => ok) ?_))
  split
  · split
    · exact ok.checked fun _ ok => ok.lagSync
    · exact ok.busWrite fun _ ok => ok.refuse.ite ok.touch.storeReg.settle
    · exact ok.plain
  · exact ok.plain

theorem grnWrite (ok : h.MemCanon) {k o v a} : (h.grnWrite k o v a).MemCanon :=
  (ok.asHw fun _ ok => ok.execGrnCntClr).ite ((ok.busWrite fun _ ok => ok.refuse.ite
      ok.storeReg.grnSync).ite ((ok.busWrite fun _ ok => ok.storeReg.grnSync.raiseIf).ite ok.plain))

theorem loftWrite (ok : h.MemCanon) {k o v a} : (h.loftWrite k o v a).MemCanon :=
  (ok.asHw fun _ ok => ok.execLoftCntClr).ite ((ok.busWrite fun _ ok => ok.refuse.ite (ok.refuse.ite
      (ok.refuse.ite ok.storeReg))).ite ((ok.checked fun _ ok => ok).ite ((ok.checked fun _ ok => ok).ite
      ok.plain)))

theorem tableWrite (ok : h.MemCanon) {k v a} : (h.tableWrite k v a).MemCanon := by
  unfold Hw.tableWrite
  refine .ite ?_ (.ite ?_ (.ite ?_ ((ok.checked fun _ ok => ok).ite ((ok.checked fun _ ok => ok).ite
      ok.plain))))
  · split
    · exact ok.asHw fun _ ok => ok.execFdbRead
    · exact ok.asHw fun _ ok => ok.execFdbWrite
    · exact ok.asHw fun _ ok => ok.execFdbLookup
    · exact ok.asHw fun _ ok => ok.execFdbDelete
    · exact ok.asHw fun _ ok => ok.execFdbFlushFid
    · exact ok.asHw fun _ ok => ok.execFdbFlushPort
    · exact ok.busWrite fun _ ok => ok.refuse
  · split
    · exact ok.asHw fun _ ok => ok.execStrmRead
    · exact ok.asHw fun _ ok => ok.execStrmWrite
    · exact ok.asHw fun _ ok => ok.execStrmLookup
    · exact ok.asHw fun _ ok => ok.execStrmDelete
    · exact ok.busWrite fun _ ok => ok.refuse
  · split
    · exact ok.asHw fun _ ok => ok.execMsecRead
    · exact ok.asHw fun _ ok => ok.execMsecWrite
    · exact ok.asHw fun _ ok => ok.execMsecDelete
    · exact ok.busWrite fun _ ok => ok.refuse

theorem ethPageWrite (ok : h.MemCanon) {p o v a} : (h.ethPageWrite p o v a).MemCanon := by
  unfold Hw.ethPageWrite
  refine .ite (ok.asHw fun _ ok => ok.execEthCntClr) (.ite (ok.busWrite fun _ ok => ok) ?_)
  split
  exacts [(ok.asHw fun _ ok => ok.execPtpInstanceEnable).ite ok.plain, ok.ethWrite]

theorem canPageWrite (ok : h.MemCanon) {n o v a} : (h.canPageWrite n o v a).MemCanon := by
  unfold Hw.canPageWrite
  refine .ite (ok.asHw fun _ ok => ok.execCanRecov) (.ite (ok.asHw fun _ ok => ok.execCanTxreq) (.ite
      (ok.asHw fun _ ok => ok.execCanCntClr) ?_))
  split
  · exact ok.asHw fun _ ok => ok.execCanObjectWrite
  · refine .ite (ok.busWrite fun _ ok => ok.refuse.ite
      (ok.setCanRam (Mem.write_wf _ _ _ (ok.can_ram n)))) (.ite (ok.busWrite fun _ ok => ok)
      (ok.busWrite fun _ ok => ?_))
    split
    exacts [ok.refuse, ok.storeReg]

theorem zoneWrite (ok : h.MemCanon) {k o v a} : (h.zoneWrite k o v a).MemCanon := by
  unfold Hw.zoneWrite
  refine .ite (ok.asHw fun _ ok => ok.execRioCntClr) (.ite (ok.asHw fun _ ok => ok.execTunCntClr) ?_)
  split
  · exact ok.plain
  · exact (ok.checked fun _ ok => ok.routeStored).ite ((ok.asHw fun _ ok => ok.execStationEnable).ite
      (ok.checked fun _ ok => ok))

theorem nmuWrite (ok : h.MemCanon) {k o v a} : (h.nmuWrite k o v a).MemCanon := by
  unfold Hw.nmuWrite
  refine .ite (ok.asHw fun _ ok => ok.execNmuVoteWrite) ?_
  split
  · exact (ok.asHw fun _ ok => ok.execNmChannelEnable).ite (ok.checked fun _ ok => ok)
  · refine ok.busWrite fun _ ok => ?_
    split
    exacts [ok.refuse, ok.storeReg.wakeIoEnds]

theorem spnWrite (ok : h.MemCanon) {k o v a} : (h.spnWrite k o v a).MemCanon := by
  unfold Hw.spnWrite
  refine .ite (ok.asHw fun _ ok => ok.execSpanLinkEnable) (.ite (ok.asHw fun _ ok => ok.execSpnElogRdWrite)
      ?_)
  split
  · exact ok.asHw fun _ ok => ok.execSpnFlush
  · split
    · exact ok.checked fun _ ok => ok
    · split
      exacts [ok.checked fun _ ok => ok, ok.checked fun _ ok => ok]

theorem pssWrite (ok : h.MemCanon) {k o v a} : (h.pssWrite k o v a).MemCanon := by
  unfold Hw.pssWrite
  refine .ite (ok.asHw fun _ ok => ok.execPssHb) (.ite (ok.asHw fun _ ok => ok.execPssRelease) (.ite
      (ok.asHw fun _ ok => ok.execMapProg) (.ite (ok.busWrite fun _ ok => ok.takeCtrlWrite) ?_)))
  split
  exacts [ok.asHw fun _ ok => ok.execPssTakeWrite, ok.checked fun _ ok => ok]

theorem channelWrite (ok : h.MemCanon) {blk i k o v a} : (h.channelWrite blk i k o v a).MemCanon := by
  unfold Hw.channelWrite
  split
  · split
    · exact ok.plain
    · dsimp only
      split
      · exact ok.asHw fun _ ok => ok.execPwmConfigWrite
      · exact ok.asHw fun _ ok => ok.execPchCmdWrite
      · exact ok.asHw fun _ ok => ok.execRearm
      · refine ok.busWrite fun _ ok => ?_
        split
        exacts [ok.refuse, ok.storeReg]
  · split
    · exact ok.asHw fun _ ok => ok.execProfileWrite
    · exact (ok.checked fun _ ok => ok.ambConfigured).ite (ok.checked fun _ ok => ok)
  · split
    exacts [ok.checked fun _ ok => ok, ok.plain]

theorem memoryWrite (ok : h.MemCanon) {blk i k o v a} : (h.memoryWrite blk i k o v a).MemCanon := by
  unfold Hw.memoryWrite
  split
  · refine .ite (ok.asHw fun _ ok => ok.execT0PoolWrite) ?_
    split
    exacts [ok.checked fun _ ok => ok.rveSync, ok.checked fun _ ok => ok.rveSync]
  · exact (ok.asHw fun _ ok => ok.execXltInvalidate).ite (ok.checked fun _ ok => ok)
  · split
    exacts [ok.plain, (ok.busWrite fun _ ok => ok.dmaCtrl).ite (ok.checked fun _ ok => ok)]
  · exact (ok.asHw fun _ ok => ok.execMemcCntClr).ite (ok.checked fun _ ok => ok)

theorem wgtWrite (ok : h.MemCanon) {k o v a} : (h.wgtWrite k o v a).MemCanon := by
  unfold Hw.wgtWrite
  refine .ite (ok.asHw fun _ ok => ok.execWgtDeny) (.ite (ok.asHw fun _ ok => ok.execHoldMarkWrite) (.ite
      (ok.checked fun _ ok => ok) (.ite (ok.checked fun _ ok => ok) ?_)))
  split
  · exact ok.asHw fun _ ok => ok.execHoldMarkWrite
  · split
    exacts [ok.checked fun _ ok => ok, ok.plain]

theorem keyWrite (ok : h.MemCanon) {k v a} : (h.keyWrite k v a).MemCanon := by
  unfold Hw.keyWrite
  refine .ite ?_ ((ok.asHw fun _ ok => ok.execLcsAdvance).ite ((ok.asHw fun _ ok => ok.execRngRestart).ite
      ok.plain))
  split
  · exact ok.asHw fun _ ok => ok.execGenerate
  · exact ok.asHw fun _ ok => ok.execDerive
  · exact ok.asHw fun _ ok => ok.execKeyImport
  · exact ok.asHw fun _ ok => ok.execKeyExport
  · exact ok.asHw fun _ ok => ok.execClear
  · exact ok.asHw fun _ ok => ok.execRevoke
  · exact ok.asHw fun _ ok => ok.execNarrow
  · exact ok.asHw fun _ ok => ok.execPubkey
  · exact ok.asHw fun _ ok => ok.execPersistSave
  · exact ok.asHw fun _ ok => ok.execPersistLoad
  · exact ok.asHw fun _ ok => ok.execPersistCheck
  · exact ok.asHw fun _ ok => ok.execChallenge
  · exact ok.asHw fun _ ok => ok.execEnrol
  · exact ok.keyCommand fun _ ok => ok

theorem cryptoWrite (ok : h.MemCanon) {blk i k o v a} : (h.cryptoWrite blk i k o v a).MemCanon := by
  unfold Hw.cryptoWrite
  split
  · refine .ite (ok.busWrite fun _ ok => ok.frame) ?_
    split
    exacts [(ok.asHw fun _ ok => ok.execJobSubmit).ite ok.plain, ok.plain]
  · dsimp only
    split
    · exact ok.asHw fun _ ok => ok.execCvuCfgWrite
    · exact ok.asHw fun _ ok => ok.execCvuStart
    · exact ok.asHw fun _ ok => ok.execCvuData
    · exact ok.asHw fun _ ok => ok.execCvuData
    · exact ok.asHw fun _ ok => ok.execCvuData
    · exact ok.asHw fun _ ok => ok.execCvuExpect
    · exact ok.asHw fun _ ok => ok.execCvuAliveIn
    · exact ok.plain

theorem vptWrite (ok : h.MemCanon) {k o v a} : (h.vptWrite k o v a).MemCanon := by
  unfold Hw.vptWrite
  refine .ite ?_ ?_
  · split
    · exact ok.asHw fun _ ok => ok.execFreeze
    · exact ok.asHw fun _ ok => ok.execThaw
    · exact ok.asHw fun _ ok => ok.execSave
    · exact ok.asHw fun _ ok => ok.execRestore
    · exact ok.asHw fun _ ok => ok.execClearCounters
    · exact ok.busWrite fun _ ok => ok.refuse
  · split
    · exact ok.busWrite fun _ ok => ok.vpWrite_
    · split
      · exact (ok.asHw fun _ ok => ok.execTxDoorbell).ite (ok.asHw fun _ ok => ok.execRxDoorbell)
      · exact ok.plain

theorem relPageWrite (ok : h.MemCanon) {k o v a} : (h.relPageWrite k o v a).MemCanon :=
  (ok.asHw fun _ ok => ok.execRelTrigSw).ite ((ok.asHw fun _ ok => ok.execRelRearm).ite ((ok.asHw fun _ ok
      => ok.execDump).ite ((ok.asHw fun _ ok => ok.execTakeGo).ite ((ok.checked fun _ ok => ok).ite
      ((ok.busWrite fun _ ok => ok.refuse.ite (ok.refuse.ite ok.storeReg)).ite ok.plain)))))

theorem writeAt (ok : h.MemCanon) {k v a} : (h.writeAt k v a).MemCanon := by
  unfold Hw.writeAt
  dsimp only
  split
  · exact ok.access fun _ ok => ok
  · refine .ite ok.headerWrite ?_
    split
    · exact ok.systemWrite
    · exact ok.systemWrite
    · exact ok.systemWrite
    · exact ok.systemWrite
    · exact ok.bootWrite
    · exact ok.plain
    · exact ok.plain
    · exact ok.twnWrite
    · exact ok.tcuWrite
    · exact ok.cueWrite
    · exact ok.ceaWrite
    · exact (ok.asHw fun _ ok => ok.execImpCntClr).ite ok.plain
    · exact ok.pgmWrite
    · exact ok.frcWrite
    · exact ok.dbgWrite
    · exact ok.swcWrite
    · exact ok.grnWrite
    · exact ok.loftWrite
    · exact ok.tableWrite
    · exact ok.tableWrite
    · exact ok.tableWrite
    · exact ok.ethPageWrite
    · exact ok.canPageWrite
    · exact ok.checked fun _ ok => ok.ite ok.linLatch
    · exact ok.nmuWrite
    · exact ok.zoneWrite
    · exact ok.zoneWrite
    · exact ok.spnWrite
    · exact ok.pssWrite
    · exact ok.channelWrite
    · exact ok.channelWrite
    · exact ok.channelWrite
    · exact ok.memoryWrite
    · exact ok.memoryWrite
    · exact ok.memoryWrite
    · exact ok.memoryWrite
    · exact ok.wgtWrite
    · exact ok.keyWrite
    · exact ok.cryptoWrite
    · exact ok.cryptoWrite
    · exact ok.vptWrite
    · exact ok.relPageWrite

theorem regWrite (ok : h.MemCanon) {addr width v a} : (h.regWrite addr width v a).MemCanon :=
  ok.regAccess fun _ _ ok => ok.writeAt

theorem execRegisterWrite (ok : s.hw.MemCanon) {addr width v a} :
    NextMemCanon (Machine.execRegisterWrite addr width v a s) :=
  ok.run fun _ ok => ok.regWrite

/-! ### `Sys2Proof/Machine/Dma.lean` -/

theorem quiet (ok : h.MemCanon) {old} : (Hw.quiet old h).MemCanon := ok.frame

theorem spanTrip (ok : h.MemCanon) {addr o n data a got fin} :
    (h.spanTrip addr o n data a got fin).2.MemCanon := by
  unfold Hw.spanTrip
  extract_lets out ends
  have answered : out.MemCanon := ok.outbound
  have ended {g x} (ok : g.MemCanon) : (ends g x).2.MemCanon := by
    unfold ends
    split
    exacts [ok, ok.spanFails, ok.spanFails, ok.spanFails, ok.spanFails]
  split
  · exact ended answered.frame.spanSync
  · split
    · split
      · exact ended answered.frame.spanOut
      · exact answered
    · exact answered.ite_snd answered

theorem reach (ok : h.MemCanon) {addr n a ecc got fin} : (h.reach addr n a ecc got fin).2.MemCanon := by
  unfold Hw.reach
  refine .ite_snd ok.regRead.quiet ?_
  split
  · refine .ite_snd ok.gateRefused (.ite_snd ok ?_)
    split
    · next e => exact (ok.spanTrip.snd e).quiet
    · next e => exact (ok.spanTrip.snd e).quiet
  · split
    · next e' => exact ok.memRead.snd e'
    · next e' => exact (ok.memRead.snd e').ifThen fun ok => ok.memcError
  · exact ok

theorem put_ (ok : h.MemCanon) {addr bs a fin} : (h.put_ addr bs a fin).2.MemCanon := by
  unfold Hw.put_
  refine ok.regWrite.quiet.ite_snd (.ite_snd (.ite_snd ?file ok) ?_)
  case file => dsimp only; exact ok.fileWrite
  split
  · refine ok.gateRefused.ite_snd (ok.ite_snd ?_)
    split
    · next e => exact (ok.spanTrip.snd e).quiet
    · next e => exact (ok.spanTrip.snd e).quiet
  · exact ok.memWrite

theorem dmaBus (ok : h.MemCanon) {d c va write} : (h.dmaBus d c va write).2.MemCanon :=
  ok.translate.ite_snd (ok.ite_snd ok)

theorem dmaRead (ok : h.MemCanon) {d c va n ecc got fin} : (h.dmaRead d c va n ecc got fin).2.MemCanon := by
  unfold Hw.dmaRead
  split
  · next e => exact ok.dmaBus.snd e
  · next e => exact (ok.dmaBus.snd e).reach

theorem dmaWrite (ok : h.MemCanon) {d c va bs fin} : (h.dmaWrite d c va bs fin).2.MemCanon := by
  unfold Hw.dmaWrite
  split
  · next e => exact ok.dmaBus.snd e
  · next e => exact (ok.dmaBus.snd e).put_

theorem burstReads (ok : h.MemCanon) {d c seen l start} : (h.burstReads d c seen l start).2.2.MemCanon := by
  unfold Hw.burstReads
  refine ok.foldl_snd3 fun p a ok => ?_
  dsimp only
  split
  · exact ok
  · split
    · next e => exact ok.dmaRead.snd e
    · next e => exact ok.dmaRead.snd e

theorem burstWrites (ok : h.MemCanon) {d c seen l start} : (h.burstWrites d c seen l start).2.2.MemCanon := by
  unfold Hw.burstWrites
  refine ok.foldl_snd3 fun p a ok => ?_
  dsimp only
  split
  · exact ok
  · split
    · next e => exact ok.dmaWrite.snd e
    · next e => exact ok.dmaWrite.snd e

theorem dmaReadBurst (ok : h.MemCanon) {d c w seen} : (h.dmaReadBurst d c w seen).MemCanon := by
  unfold Hw.dmaReadBurst
  dsimp only
  refine ok.burstReads.ite ?_
  split
  exacts [ok.burstReads.setDma, ok.burstReads.setDma.dmaFault]

theorem dmaWriteBurst (ok : h.MemCanon) {d c w seen} : (h.dmaWriteBurst d c w seen).MemCanon := by
  unfold Hw.dmaWriteBurst
  dsimp only
  split
  · exact ok
  · refine ok.burstWrites.wr.ite ?_
    split
    exacts [ok.burstWrites.wr.setDma, ok.burstWrites.wr.setDma.dmaFault]

theorem dmaRoom (ok : h.MemCanon) {d c n} : (h.dmaRoom d c n).MemCanon := by
  induction n generalizing h with
  | zero => exact ok
  | succ n ih =>
    unfold Hw.dmaRoom
    refine ok.ite ?_
    dsimp only
    split
    exacts [ok, ih ok.setDma]

theorem dmaAhead (ok : h.MemCanon) {d c w l} : (h.dmaAhead d c w l).MemCanon := by
  induction l generalizing h with
  | nil => exact ok
  | cons x l ih => exact (ih ok.dmaReadBurst).ite ok

theorem dmaFetch (ok : h.MemCanon) {d c seen} : (h.dmaFetch d c seen).MemCanon := by
  unfold Hw.dmaFetch
  dsimp only
  split
  · next e => exact (ok.dmaRead.snd e).dmaFault
  · next e => exact (ok.dmaRead.snd e).dmaAborted.ite (ok.dmaRead.snd e).setDma.wr

theorem dmaAges (ok : h.MemCanon) {d c ripe} : (h.dmaAges d c ripe).MemCanon :=
  ok.each fun _ _ ok => ok.ite (ok.setDma.ite (ok.setDma.ite ok.setDma))

theorem dmaBurst (ok : h.MemCanon) {d c rds w} : (h.dmaBurst d c rds w).MemCanon := by
  unfold Hw.dmaBurst
  split
  · exact ok.dmaFetch
  · exact (ok.dmaRoom.dmaReadBurst.ite ok).ifElse fun ok => ok.dmaWriteBurst.dmaAhead

theorem execBurstGrant (ok : s.hw.MemCanon) {d rds w} : NextMemCanon (Machine.execBurstGrant d rds w s) := by
  unfold Machine.execBurstGrant
  refine ok.run fun _ ok => .ite ok ?_
  split
  exacts [ok, ok.dmaAges.dmaBurst]

theorem dmaNext (ok : h.MemCanon) {d c w} : (h.dmaNext d c w).MemCanon :=
  ok.wr.raiseIf.setDma.dmaEnter.ite ok.wr.raiseIf.wrPair.wr.setDma

theorem execDescriptorDone (ok : s.hw.MemCanon) {d c w} :
    NextMemCanon (Machine.execDescriptorDone d c w s) := by
  unfold Machine.execDescriptorDone
  refine ok.run fun _ ok => ?_
  dsimp only
  split
  · refine .ite ok ?_
    split
    · next e => exact (ok.dmaWrite.snd e).dmaFault
    · next e => exact (ok.dmaWrite.snd e).dmaNext
  · exact ok

/-! ### `Sys2Proof/Machine/SpanIn.lean` -/

theorem inCompletion (ok : h.MemCanon) {tag fn status d} : (h.inCompletion tag fn status d).MemCanon :=
  ok.spanOut.ite ok

theorem vfRefused (ok : h.MemCanon) {read tag fn} : (h.vfRefused read tag fn).MemCanon :=
  ok.inCompletion.ite ok

theorem inRefused (ok : h.MemCanon) {win read addr rid tag fn} :
    (h.inRefused win read addr rid tag fn).MemCanon :=
  ok.spanLog.raise.spanReport.ifThen fun ok => ok.inCompletion

theorem inGated (ok : h.MemCanon) {win read addr rid tag} : (h.inGated win read addr rid tag).MemCanon :=
  ok.spanLog.spanReport.ifThen fun ok => ok.inCompletion

theorem inRead (ok : h.MemCanon) {bar addr n base rid tag} : (h.inRead bar addr n base rid tag).MemCanon := by
  unfold Hw.inRead
  split
  · exact ok.inRefused
  · refine .ite ok.inRefused ?_
    split
    · next e => exact (ok.reach.snd e).inCompletion
    · next e => exact (ok.reach.snd e).inGated

theorem inWrite (ok : h.MemCanon) {bar addr d base rid} : (h.inWrite bar addr d base rid).MemCanon := by
  unfold Hw.inWrite
  split
  · exact ok.inRefused
  · refine .ite ok.inRefused ?_
    split
    · next e => exact ok.put_.snd e
    · next e => exact (ok.put_.snd e).inGated

theorem vfStore (ok : h.MemCanon) {v o x far} : (h.vfStore v o x far).MemCanon := by
  unfold Hw.vfStore
  split
  · refine .ite ok ?_
    split
    exacts [ok.vpDoorbell, ok.vpDoorbell, ok]
  · exact ok.msixWrite.ite ok

theorem execInboundRequest (ok : s.hw.MemCanon) {q base rid tag} :
    NextMemCanon (Machine.execInboundRequest q base rid tag s) := by
  unfold Machine.execInboundRequest
  refine ok.run fun _ ok => .ite ok ?_
  split
  · exact ok.inRead
  · exact ok.inWrite
  · exact ok.inCompletion.ite ok.vfRefused
  · exact ok.vfStore.ite ok.vfRefused
  · exact ok.inRefused.ite ok.msixWrite
  · exact ok.spanLog.spanReport.ifElse fun ok => ok.inCompletion
  · exact ok.spanLog.ite ok

/-! ### `Sys2Proof/Machine/Dispatch.lean` -/

theorem exec (ok : s.hw.MemCanon) {i} : NextMemCanon (Machine.exec i s) := by
  unfold Machine.exec
  split
  · exact ok.execRegisterWrite
  · exact ok.execLowerRegisterRead
  · exact ok.execUpperRegisterRead
  · exact ok.execEvtClrWrite
  · exact ok.execEvtSetWrite
  · exact ok.execErrCapClear
  · exact ok.execLockWrite
  · exact ok.execWorldWrite
  · exact ok.execTcuBaseTickWrite
  · exact ok.execTcuSrcWrite
  · exact ok.execSourceQualified
  · exact ok.execSourceLost
  · exact ok.execHoldLimitExpiry
  · exact ok.execAngStall
  · exact ok.execCorrectionMeasured
  · exact ok.execSlewDone
  · exact ok.execTimecodeStep
  · exact ok.execCueIdxWrite
  · exact ok.execCueW3Write
  · exact ok.execCueSwapRequest
  · exact ok.execSwapDone
  · exact ok.execCueCopy
  · exact ok.execCopyDone
  · exact ok.execCueCntClr
  · exact ok.execNop
  · exact ok.execLatch
  · exact ok.execImageReady
  · exact ok.execCommit
  · exact ok.execDrainEnd
  · exact ok.execRerunStart
  · exact ok.execRetryWindowEnd
  · exact ok.execEngineSelftest
  · exact ok.execSelftestDone
  · exact ok.execPlacement
  · exact ok.execCeaReplace
  · exact ok.execBgCommit
  · exact ok.execBgRipe
  · exact ok.execCeaTaskRestart
  · exact ok.execCadenceEnable
  · exact ok.execPduFrameRx
  · exact ok.execPduStore
  · exact ok.execPduSend
  · exact ok.execPduEntryWrite
  · exact ok.execBankWrite
  · exact ok.execAlu
  · exact ok.execLogic
  · exact ok.execCmp
  · exact ok.execCvt
  · exact ok.execRnd
  · exact ok.execBool
  · exact ok.execSel
  · exact ok.execBtst
  · exact ok.execBins
  · exact ok.execLi
  · exact ok.execLih
  · exact ok.execAddi
  · exact ok.execLd
  · exact ok.execSt
  · exact ok.execLdx
  · exact ok.execStx
  · exact ok.execLdb
  · exact ok.execStb
  · exact ok.execTcv
  · exact ok.execBr
  · exact ok.execBrk
  · exact ok.execLoop
  · exact ok.execCall
  · exact ok.execRet
  · exact ok.execEndRun
  · exact ok.execTrap
  · exact ok.execPrim
  · exact ok.execChgArm
  · exact ok.execChgCancel
  · exact ok.execForceWrite
  · exact ok.execFrcPermitWrite
  · exact ok.execAuthExpired
  · exact ok.execDbgAttach
  · exact ok.execDbgDetach
  · exact ok.execDbgHalt
  · exact ok.execDbgResume
  · exact ok.execDbgStep
  · exact ok.execDbgRegisterWrite
  · exact ok.execPchCmdWrite
  · exact ok.execPwmPeriodStart
  · exact ok.execPwmAlign
  · exact ok.execShortTrip
  · exact ok.execLimDwellExpiry
  · exact ok.execOvertempShutdown
  · exact ok.execTempRestart
  · exact ok.execRetryReset
  · exact ok.execWireModelUpdate
  · exact ok.execWindowEnd
  · exact ok.execBusDip
  · exact ok.execBusDipEnd
  · exact ok.execBusOverload
  · exact ok.execRearm
  · exact ok.execPchCntClr
  · exact ok.execOlOnDetect
  · exact ok.execOffTestPhase
  · exact ok.execAmbientSample
  · exact ok.execAmbFallback
  · exact ok.execProfileWrite
  · exact ok.execPwmConfigWrite
  · exact ok.execPssHb
  · exact ok.execPssWatchdogExpiry
  · exact ok.execPssRelease
  · exact ok.execPssRestart
  · exact ok.execPssStart
  · exact ok.execHoldWindowEnd
  · exact ok.execLhSample
  · exact ok.execMapProg
  · exact ok.execMapProgDone
  · exact ok.execPssTakeWrite
  · exact ok.execTakeover
  · exact ok.execTakeClr
  · exact ok.execFrameRx
  · exact ok.execLoftWriteDone
  · exact ok.execLoftStage
  · exact ok.execEgressSelect
  · exact ok.execFrameTxDone
  · exact ok.execLinkDown
  · exact ok.execLinkUp
  · exact ok.execGraceExpiry
  · exact ok.execLagRemap
  · exact ok.execFdbAgeing
  · exact ok.execFdbRead
  · exact ok.execFdbWrite
  · exact ok.execFdbLookup
  · exact ok.execFdbDelete
  · exact ok.execFdbFlushFid
  · exact ok.execFdbFlushPort
  · exact ok.execStrmRead
  · exact ok.execStrmWrite
  · exact ok.execStrmLookup
  · exact ok.execStrmDelete
  · exact ok.execSeqRecoveryReset
  · exact ok.execSwcCntClr
  · exact ok.execGrnCntClr
  · exact ok.execLoftCntClr
  · exact ok.execMdioFrame
  · exact ok.execMdioDone
  · exact ok.execCableGo
  · exact ok.execCableTestDone
  · exact ok.execSqiReport
  · exact ok.execTransmitOpportunity
  · exact ok.execPlcaCollision
  · exact ok.execGate
  · exact ok.execHold
  · exact ok.execVerifyTimeout
  · exact ok.execMsecRead
  · exact ok.execMsecWrite
  · exact ok.execMsecDelete
  · exact ok.execPtpInstanceEnable
  · exact ok.execSyncRx
  · exact ok.execSyncInterval
  · exact ok.execSyncReceiptTimeout
  · exact ok.execPdelayExchange
  · exact ok.execTc10SleepRequest
  · exact ok.execTc10SleepNak
  · exact ok.execTc10PartnerSleep
  · exact ok.execTc10Wake
  · exact ok.execEthCntClr
  · exact ok.execCanFrameEnd
  · exact ok.execFrameStore
  · exact ok.execCanTx
  · exact ok.execCanTxreq
  · exact ok.execMacReady
  · exact ok.execArbitrationStart
  · exact ok.execTxOk
  · exact ok.execErrorDetected
  · exact ok.execRecessiveSequence
  · exact ok.execCanRecov
  · exact ok.execAgeDrop
  · exact ok.execCanDisable
  · exact ok.execCanEnable
  · exact ok.execCanObjectWrite
  · exact ok.execCanCntClr
  · exact ok.execLinSlot
  · exact ok.execLinHeaderRx
  · exact ok.execLinResponseEnd
  · exact ok.execSheafRx
  · exact ok.execSegmentRx
  · exact ok.execRioPoll
  · exact ok.execRioSend
  · exact ok.execSheafSend
  · exact ok.execSegmentSend
  · exact ok.execStationEnable
  · exact ok.execRioCntClr
  · exact ok.execTunnelSend
  · exact ok.execNtscfRx
  · exact ok.execPresentationTime
  · exact ok.execTunCntClr
  · exact ok.execNmChannelEnable
  · exact ok.execNmuVoteWrite
  · exact ok.execNmFrameRx
  · exact ok.execNmFrameSend
  · exact ok.execRepeatTimeExpiry
  · exact ok.execNmTimeout
  · exact ok.execPnTimeout
  · exact ok.execWaitSleepExpiry
  · exact ok.execCommitWindowEnd
  · exact ok.execWake
  · exact ok.execWakeSequence
  · exact ok.execWakeInput
  · exact ok.execSelectiveWakeFrame
  · exact ok.execKeepAwake
  · exact ok.execSpanLinkEnable
  · exact ok.execSpanLinkUp
  · exact ok.execOutboundAccess
  · exact ok.execSpnFlush
  · exact ok.execCompletionRx
  · exact ok.execCompletionTimeout
  · exact ok.execInboundRequest
  · exact ok.execSpanLinkDown
  · exact ok.execFlr
  · exact ok.execVfChange
  · exact ok.execMsixSend
  · exact ok.execSpnElogRdWrite
  · exact ok.execEpochEnd
  · exact ok.execUnitMove
  · exact ok.execT0PoolWrite
  · exact ok.execScrub
  · exact ok.execMemcCntClr
  · exact ok.execImpCntClr
  · exact ok.execXltInvalidate
  · exact ok.execInvDone
  · exact ok.execDmaGo
  · exact ok.execDmaTrig
  · exact ok.execDmaEventTrigger
  · exact ok.execBurstGrant
  · exact ok.execDescriptorDone
  · exact ok.execDmaPark
  · exact ok.execDmaResume
  · exact ok.execDmaAbort
  · exact ok.execTxDoorbell
  · exact ok.execRxDoorbell
  · exact ok.execVpFrameGathered
  · exact ok.execVpDeliver
  · exact ok.execVpNotify
  · exact ok.execPortEnable
  · exact ok.execPortRemoved
  · exact ok.execVpFault
  · exact ok.execFreeze
  · exact ok.execThaw
  · exact ok.execSave
  · exact ok.execRestore
  · exact ok.execClearCounters
  · exact ok.execVpRingResize
  · exact ok.execWgtLockAll
  · exact ok.execHoldMarkWrite
  · exact ok.execHoldTimeout
  · exact ok.execWgtDeny
  · exact ok.execMworldWrite
  · exact ok.execGenerate
  · exact ok.execDerive
  · exact ok.execKeyImport
  · exact ok.execKeyExport
  · exact ok.execClear
  · exact ok.execRevoke
  · exact ok.execNarrow
  · exact ok.execPubkey
  · exact ok.execPersistSave
  · exact ok.execPersistLoad
  · exact ok.execPersistCheck
  · exact ok.execChallenge
  · exact ok.execEnrol
  · exact ok.execRootReconstruct
  · exact ok.execRemask
  · exact ok.execRngFail
  · exact ok.execRngRestart
  · exact ok.execKeyRngRead
  · exact ok.execLcsAdvance
  · exact ok.execJobSubmit
  · exact ok.execCryAes
  · exact ok.execCrySha
  · exact ok.execCryHmac
  · exact ok.execCryCmac
  · exact ok.execEcdsaSign
  · exact ok.execEcdsaVerify
  · exact ok.execEd25519Sign
  · exact ok.execEd25519Verify
  · exact ok.execCvuCfgWrite
  · exact ok.execCvuStart
  · exact ok.execCvuData
  · exact ok.execCvuExpect
  · exact ok.execCvuAliveIn
  · exact ok.execTwnEnable
  · exact ok.execHelloSend
  · exact ok.execHelloRx
  · exact ok.execAloneTimeout
  · exact ok.execHeartbeatSend
  · exact ok.execHeartbeatRx
  · exact ok.execHeartbeatMiss
  · exact ok.execImageSegmentRx
  · exact ok.execImageTimeout
  · exact ok.execSignatureSend
  · exact ok.execSignatureRx
  · exact ok.execStateRx
  · exact ok.execTwnDeclare
  · exact ok.execDeclareRx
  · exact ok.execAckRx
  · exact ok.execDeclareDeadline
  · exact ok.execTwnResync
  · exact ok.execExrexLaneLoss
  · exact ok.execTwnCntClr
  · exact ok.execSpareRota
  · exact ok.execStartupTest
  · exact ok.execDailies
  · exact ok.execSlate
  · exact ok.execGap
  · exact ok.execSnapshot
  · exact ok.execSnapEnd
  · exact ok.execTrigger
  · exact ok.execRelTrigSw
  · exact ok.execPostEnd
  · exact ok.execRelRearm
  · exact ok.execRelEnable
  · exact ok.execDump
  · exact ok.execDumpDone
  · exact ok.execTakeGo
  · exact ok.execTakeCycle
  · exact ok.execTakeEnd
  · exact ok.execStageRom
  · exact ok.execLoaderCheck
  · exact ok.execImageCheck
  · exact ok.execUnitReload
  · exact ok.execRecoveryEntry
  · exact ok.execFlashErase
  · exact ok.execFlashProgram
  · exact ok.execFlashVerify
  · exact ok.execFlDone
  · exact ok.execUpdateGo
  · exact ok.execUpdDone
  · exact ok.execActArm
  · exact ok.execActivate
  · exact ok.execBootRecover
  · exact ok.execBootPkRev
  · exact ok.execQuery
  · exact ok.execData
  · exact ok.execRecoveryCommit
  · exact ok.execBootRcvCommit
  · exact ok.execHoldEnter
  · exact ok.execHoldExit
  · exact ok.execVbatHigh
  · exact ok.execIn48Fault
  · exact ok.execVbatPowerOn
  · exact ok.execMainLogicReset
  · exact ok.execResetN
  · exact ok.execResetRelease
  · exact ok.execSysResetReq
  · exact ok.execSysWdog
  · exact ok.execSysWdogExpiry
  · exact ok.execPwrOn
  · exact ok.execPwrOff
  · exact ok.execPwrClkOff
  · exact ok.execPwrClkOn
  · exact ok.execPdDone
  · exact ok.execModuleSleep
  · exact ok.execModuleWake
  · exact ok.execSupCntClr
  · exact ok.execEvrRouteWrite
  · exact ok.execEventDelivery
  · exact ok.execEvtPulse
  · exact ok.execTcCapture
  · exact ok.execSwap
  · exact ok.execAdcBurst
  · exact ok.execBurstComplete
  · exact ok.execTempInputSample
  · exact ok.execVbatLoss
  · exact ok.execVerifyResponseRx
  · exact ok.execTc10SleepAck
  · exact ok.execSpanPerstNChange
  · exact ok.execTxBucketHoldsLength
  · exact ok.execRefreshRateChange

/-! ### `Sys2Proof/Machine/Tick.lean` -/

theorem restartDue (ok : h.MemCanon) : h.restartDue.MemCanon := by
  unfold Hw.restartDue
  split
  exacts [ok.frame.mainReset.ite ok, ok]

theorem tick (ok : h.MemCanon) : h.tick.MemCanon := ok.passMarks.frame.fireLate.twinTick.restartDue

end Hw.MemCanon

/-- A step from a module whose memories are canonical answers a module whose memories are canonical: a command by
`Hw.MemCanon.exec`, the passing of a cycle by `Hw.MemCanon.tick`. -/
theorem step_nextMemCanon {s : State} (ok : s.hw.MemCanon) : NextMemCanon (step s) := by
  unfold step
  split
  case h_1 c rest _ => exact Hw.MemCanon.exec (s := { s with pending := rest }) ok
  case h_2 => exact ok.tick

/-- Settles O34: no step answers a next state whose memories are not canonical. -/
theorem stepKeepsMemoriesCanonical : Obligations.StepKeepsMemoriesCanonical := by
  intro s t ok next
  have kept := step_nextMemCanon (Hw.memCanon_iff.mpr ok)
  rw [next] at kept
  exact Hw.memCanon_iff.mp kept

end Sys2Proof.Machine

/-! # The switch core family

The commands of the switch core, of its tables and of the Loft on the branch that their conditions name, and the
statements on them. -/

namespace Sys2Proof.Machine

/-! ## The forwarding table -/

/-- The pieces of an address fold to 12 bits. -/
theorem macFold_lt (mac : Nat) : macFold mac < 2 ^ 12 :=
  Nat.xor_lt_two_pow (Nat.xor_lt_two_pow (Nat.xor_lt_two_pow (fld_lt mac 11 0) (fld_lt mac 23 12))
    (fld_lt mac 35 24)) (fld_lt mac 47 36)

/-- An entry that is found lies in the set of the address and the FID, is valid, and holds both (R305). -/
theorem Hw.fdbFind_eq_some {h : Hw} {mac fid i : Nat} (found : h.fdbFind mac fid = some i) :
    (∃ way < 4, i = way + 4 * ((macFold mac ^^^ fid) % 4096)) ∧ h.fdb 0 i 0 = mac % 2 ^ 32 ∧ fld (h.fdb 0 i 1) 31 31 = 1 ∧
      fld (h.fdb 0 i 1) 15 0 = mac / 2 ^ 32 ∧ fld (h.fdb 0 i 1) 27 16 = fid := by
  have holds := List.find?_some found
  have among := List.mem_of_find?_eq_some found
  simp only [List.mem_map, List.mem_range] at among
  simp only [Bool.and_eq_true, decide_eq_true_eq] at holds
  obtain ⟨way, lt, at_i⟩ := among
  obtain ⟨⟨⟨lower, valid⟩, upper⟩, fidHeld⟩ := holds
  exact ⟨⟨way, lt, at_i.symm⟩, lower, valid, upper, fidHeld⟩

/-- Settles O46: the entry found is one of the four ways of the set, whose number is below 4096 already. -/
theorem forwardingSetOfAddress : Obligations.ForwardingSetOfAddress := by
  intro h mac fid i _ fidLt found
  obtain ⟨⟨way, wayLt, rfl⟩, lower, valid, upper, fidHeld⟩ := Hw.fdbFind_eq_some found
  have setLt : macFold mac ^^^ fid < 4096 := Nat.xor_lt_two_pow (macFold_lt mac) fidLt
  rw [Nat.mod_eq_of_lt setLt] at *
  refine ⟨by omega, ?set, valid, by omega, fidHeld⟩
  case set => rw [show (way + 4 * (macFold mac ^^^ fid)) / 4 = macFold mac ^^^ fid by omega, macFold]

/-! ## Commands of a table -/

section TableCommands

variable {s : State} {h : Hw} {v : Word} {t i : Nat} {a : Attr}

/-- A table command on an entry in range, to a table that is free: its effect, the operation, the result, the table and the index
shown, and a time for which the table works (R316). -/
theorem State.run_tableCommand_takes {k : Nat} {size : Nat → Nat} (op : Nat) (f : Nat → Nat → Hw → Nat × Nat × Hw)
    (takes : s.hw.takes k a = true) (e : h = s.hw.answer 0) (e_t : t = fld v.toNat 23 22) (e_i : i = fld v.toNat 13 0)
    (inside : i < size t) (idle : h.tableBusy k = false) :
    s.run (fun h => h.tableCommand k op v.toNat a size f) =
      .next (s.withHw (((f t i h).2.2.wr k (op * 2 ^ 28 + (f t i h).1 * 2 ^ 24 + t * 2 ^ 22 + (f t i h).2.1)).tableWorks k
        (if 5 ≤ op then 24_000 else 120))) := by
  subst e e_t e_i
  unfold Hw.tableCommand
  rw [State.run_busWrite_takes takes, if_neg (by simp [idle]), if_neg (Nat.not_le.mpr inside)]

section Entry

variable (e : h = s.hw.answer 0) (e_t : t = fld v.toNat 23 22) (e_i : i = fld v.toNat 13 0)
include e e_t e_i

/-- A lookup in the forwarding table shows the entry that it finds (R305, R316). -/
theorem execFdbLookup_finds {j : Nat} (takes : s.hw.takes FDB_CMD a = true) (inside : i < fdbSize t) (forwarding : t = 0)
    (found : h.fdbFind (h.keyMac (FDB_DATA 0) (FDB_DATA 1)) (h.get (FDB_DATA 1) 27 16) = some j)
    (idle : h.tableBusy FDB_CMD = false) : exec (.fdbLookup v a) s =
      .next (s.withHw ((h.wr FDB_CMD (3 * 2 ^ 28 + 0 * 2 ^ 24 + t * 2 ^ 22 + j)).tableWorks FDB_CMD 120)) := by
  show execFdbLookup v a s = _
  unfold execFdbLookup Hw.fdbCommand
  rw [State.run_tableCommand_takes 3 _ takes e e_t e_i inside idle]
  simp only [if_pos forwarding, found]
  rfl

/-- A lookup in the stream table shows the entry that it finds (R308, R316). -/
theorem execStrmLookup_finds {j : Nat} (takes : s.hw.takes STRM_CMD a = true) (inside : i < strmSize t) (streams : t = 0)
    (found : h.strmFind (h.get (STRM_DATA 1) 30 30) (h.keyMac (STRM_DATA 0) (STRM_DATA 1)) (h.get (STRM_DATA 1) 27 16) = some j)
    (idle : h.tableBusy STRM_CMD = false) : exec (.strmLookup v a) s =
      .next (s.withHw ((h.wr STRM_CMD (3 * 2 ^ 28 + 0 * 2 ^ 24 + t * 2 ^ 22 + j)).tableWorks STRM_CMD 120)) := by
  show execStrmLookup v a s = _
  unfold execStrmLookup Hw.strmCommand
  rw [State.run_tableCommand_takes 3 _ takes e e_t e_i inside idle]
  simp only [if_pos streams, found]
  rfl

/-- A write of a stream table's entry: a sequence entry needs a reset time, a stream stays blocked only where it was, and a meter
starts anew (R309, R311, R316). -/
theorem execStrmWrite_stores {g r : Hw} (takes : s.hw.takes STRM_CMD a = true)
    (e_g : g = each 4 (fun w (h : Hw) => h.setStrm t i w (h.rd (STRM_DATA w) &&& strmMask t w)) h)
    (e_r : r = if t = 0 then g.setStrm 0 i 3 (setFld (g.strm 0 i 3) 30 30
      (fld (h.strm 0 i 3) 30 30 * fld (h.rd (STRM_DATA 3)) 30 30)) else g)
    (inside : i < strmSize t) (resets : ¬ (t = 2 ∧ h.get (STRM_DATA 0) 15 0 = 0)) (idle : h.tableBusy STRM_CMD = false) :
    exec (.strmWrite v a) s = .next (s.withHw (((if t = 1 then { r with sw := { r.sw with meters := unfile r.sw.meters i } }
      else r).wr STRM_CMD (2 * 2 ^ 28 + 0 * 2 ^ 24 + t * 2 ^ 22 + i)).tableWorks STRM_CMD 120)) := by
  have accepted : ¬ (fld v.toNat 23 22 = 2 ∧ s.hw.get (STRM_DATA 0) 15 0 = 0 ∧ (!s.hw.tableBusy STRM_CMD) = true) := by
    rintro ⟨sequence, never, -⟩
    exact resets ⟨e_t.trans sequence, e ▸ never⟩
  subst e_r e_g
  show execStrmWrite v a s = _
  rw [execStrmWrite, State.run, if_neg accepted]
  exact State.run_tableCommand_takes 2 _ takes e e_t e_i inside idle

end Entry

end TableCommands

/-! ## Frames -/

section Frames

variable {s : State} {p : Fin 40}

/-- A good frame on a port that is up is counted and goes on as the MACsec check gives it (R321, R351). -/
theorem execFrameRx_good {b x : List Byte} {frags : BitVec 8} {g r : Hw}
    (e_g : g = ((if p.val < 12 then s.hw.ethCount p 8 frags.toNat else s.hw).ethCount p 0).ethCount p 1 b.length)
    (e_r : r = (g.msecValidate p (b.take (b.length - 4))).2) (outer : p.val < 36) (live : s.hw.live (pgETH p) = true)
    (enabled : s.hw.bit (ETH_CFG p) 31 = true) (up : s.hw.bit (ETH_PHY_STAT p) 31 = true) (long : 64 ≤ b.length)
    (check : b.drop (b.length - 4) = fcs (b.take (b.length - 4))) (data : beNat (slice b 12 2) ≠ 0x8808)
    (valid : (g.msecValidate p (b.take (b.length - 4))).1 = some x) :
    exec (.frameRx p b frags false) s = .next (s.withHw (if ptpFrame x then r else r.swReceive p x)) := by
  have validated : g.msecValidate p (b.take (b.length - 4)) = (some x, r) := Prod.ext valid e_r.symm
  subst e_g
  show execFrameRx p b frags false s = _
  rw [execFrameRx, State.run, if_neg (Nat.not_le.mpr outer), if_neg (by simp [live, enabled, up])]
  simp only [Bool.and_false, Bool.false_eq_true, if_false]
  rw [if_neg (by simp [check]; omega), if_neg (Nat.not_lt.mpr long), if_neg data, validated]

/-- A frame that a block has handed to an inner port goes to the switch core (R273). -/
theorem execFrameRx_handed {b : List Byte} (inner : 36 ≤ p.val)
    (handed : s.hw.zone.handed.find? (fun x => decide (x.1 = p.val)) = some (p.val, b)) (frags : BitVec 8) (broken : Bool) :
    exec (.frameRx p b frags broken) s = .next (s.withHw
      (({ s.hw with zone := { s.hw.zone with handed := s.hw.zone.handed.erase (p.val, b) } } : Hw).swReceive p b)) := by
  show execFrameRx p b frags broken s = _
  rw [execFrameRx, State.run, if_pos inner, handed]
  exact State.next_congr (congrArg (Hw.swReceive · p b) (if_pos rfl))

end Frames

/-! ## The Loft, egress and links -/

section Ports

variable {s : State} {p : Fin 40}

/-- A Loft write ends: its record is in T1, its cells are free, and its frame is marked as written (R286). -/
theorem execLoftWriteDone_ends {d : Nat} {ds : List Nat} {f : LoftFrame} {g : Hw}
    (e_g : g = (s.hw.writeRecord (s.hw.queueOf d) (s.hw.desc d) f).freeCells f.cells) (queued : s.hw.sw.loftQ = d :: ds)
    (next : (s.hw.desc d).frames.find? (fun f => !f.written) = some f) :
    exec .loftWriteDone s = .next (s.withHw (let m := g.setDesc d { s.hw.desc d with
        frames := (s.hw.desc d).frames.map (fun (y : LoftFrame) =>
          if y.block = f.block ∧ y.ofs = f.ofs then { y with written := true, cells := [] } else y) }
      ({ m with sw := { m.sw with loftQ := ds, head := m.sw.head - f.cells.length } } : Hw).grnSync)) := by
  subst e_g
  show execLoftWriteDone s = _
  rw [execLoftWriteDone, State.run]
  simp only [queued, next]

theorem execLoftStage_live (live : s.hw.live pgLOFT = true) (q : Fin 320) (e : LoftRead) : exec (.loftStage q e) s =
    .next (s.withHw (((s.hw.touch (q / 8)).loftStage q e).settle (q / 8))) := by
  show execLoftStage q e s = _
  rw [execLoftStage, State.run, if_neg (by simp [live])]

/-- A port without a frame on the wire selects one, once the time after the frame before is over (R293 to R296). -/
theorem execEgressSelect_selects {e : Ecc} {g : Hw} (e_g : g = (s.hw.touch p).select p e ((s.hw.touch p).portLinks p + 9) [])
    (sends : s.hw.canSend p = true) (idle : ((s.hw.touch p).port p).tx = none)
    (free : ((s.hw.touch p).port p).freeAt ≤ (s.hw.touch p).now) : exec (.egressSelect p e) s =
      .next (s.withHw (((if (g.port p).tx.isNone then g.setPort p { g.port p with turn := 0 } else g).settle p).grnSync)) := by
  subst e_g
  show execEgressSelect p e s = _
  rw [execEgressSelect, State.run, if_neg (by simp [sends])]
  simp only [idle]
  rw [if_neg (by simpa using free)]

/-- A sent frame is counted, its packet number is used up, and its link goes (R297, R349). -/
theorem execFrameTxDone_ends {f : TxFrame} {g x y : Hw}
    (e_g : g = ((((s.hw.touch p).swCount 1 (8 * p + f.cls) 0).swCount 1 (8 * p + f.cls) 1
      ((s.hw.touch p).desc f.desc).len).ethCount p 5).ethCount p 6 f.wire.length)
    (e_x : x = if 0 < f.fragments then g.ethCount p 7 else g) (e_y : y = match f.sa with | some i => x.pnUsed i | none => x)
    (sending : (s.hw.port p).tx = some f) (ended : s.hw.txEnded p f = true) : exec (.frameTxDone p) s =
      .next (s.withHw ((((y.setPort p { y.port p with
        tx := none, freeAt := y.now + y.wireCycles p 12, turnEnd := y.now + 120 * 128 }).unlink (8 * p + f.cls) f.desc).settle
        p).grnSync)) := by
  subst e_y e_x e_g
  show execFrameTxDone p s = _
  rw [execFrameTxDone, State.run]
  simp only [sending]
  exact State.next_congr (if_neg (by simp [ended]))

/-- The link of an enabled port comes up: its status shows it, and its event rises where it was down (R299, R322). -/
theorem execLinkUp_outer {g x y k : Hw} (e_g : g = (s.hw.putBit (ETH_PHY_STAT p) 31 true).putBit (STATUS (pgETH p)) 0 true)
    (e_x : x = if 28 ≤ p.val then g.putBit (ETH_PHY_STAT p) 24 (g.bit (ETH_PLCA p) 31) else g)
    (e_y : y = if 4 ≤ p.val ∧ p.val < 28 then x.put (ETH_TC10 p) 2 0 0 else x)
    (e_k : k = y.setPort p { y.port p with sqiAt := y.now }) (outer : p.val < 36) (live : s.hw.live (pgETH p) = true)
    (enabled : s.hw.bit (ETH_CFG p) 31 = true) (normal : s.hw.get (ETH_PHY p) 29 27 = 0) : exec (.linkUp p) s =
      .next (s.withHw (((k.raiseIf (!s.hw.bit (ETH_PHY_STAT p) 31) (pgETH p) 0).pmacSync p).linkResumed p)) := by
  subst e_k e_y e_x e_g
  show execLinkUp p s = _
  rw [execLinkUp, State.run, if_neg (Nat.not_le.mpr outer), if_neg (by simp [live, enabled, normal])]

/-- The frames of a port that has lost its link are flushed once its grace is over (R300). -/
theorem execGraceExpiry_flushes (held : s.hw.get (SWC_LINK p) 1 0 = 1)
    (passed : 120_000 * s.hw.get (SWC_LINK p) 24 16 ≤ s.hw.now - (s.hw.port p).downAt) :
    exec (.graceExpiry p) s = .next (s.withHw (s.hw.flushPort p)) := by
  show execGraceExpiry p s = _
  rw [execGraceExpiry, State.run, if_pos ⟨held, passed⟩]

end Ports

/-- A bucket of an aggregation group moves to another member once no frame of it is queued (R303). -/
theorem execLagRemap_moves {s : State} {g : Fin 8} {b : Fin 64} {p m : Nat}
    (mapped : s.hw.sw.lag.get (g.val * 64 + b.val) = p + 1) (target : s.hw.lagTarget g b = some m)
    (drained : (List.range 8).any (fun c => (s.hw.queue (8 * p + c)).links.any (fun d => if (s.hw.desc d).typ = 1 then
      (s.hw.desc d).frames.any (fun f => f.bucket == b.val) else (s.hw.desc d).bucket == b.val)) = false) :
    exec (.lagRemap g b) s = .next (s.withHw
      { s.hw with sw := { s.hw.sw with lag := s.hw.sw.lag.set (g.val * 64 + b.val) (m + 1) } }) := by
  show execLagRemap g b s = _
  rw [execLagRemap, State.run]
  simp only [mapped, target, drained, Bool.false_eq_true, if_false]

/-! ## Ageing, recovery and counters -/

theorem execFdbAgeing_live {s : State} (live : s.hw.live pgFDB = true) : exec .fdbAgeing s = .next (s.withHw
    (((s.hw.fdbEntries.filter (fun i => decide (fld (s.hw.fdb 0 i 1) 30 30 = 0))).foldl (fun (h : Hw) i =>
      if fld (h.fdb 0 i 1) 29 28 = 3 then h.fdbClear i
      else h.setFdb 0 i 1 (setFld (h.fdb 0 i 1) 29 28 (fld (h.fdb 0 i 1) 29 28 + 1))) s.hw).fdbUsed)) := by
  show execFdbAgeing s = _
  rw [execFdbAgeing, State.run, if_neg (by simp [live])]

/-- A sequence function that is in use starts anew (R311). -/
theorem execSeqRecoveryReset_resets {s : State} {n : Fin 1024} (live : s.hw.live pgSTRM = true)
    (used : fld (s.hw.strm 2 n 0) 31 31 = 1) : exec (.seqRecoveryReset n) s =
      .next (s.withHw ((((s.hw.setStrm 2 n 1 0).setStrm 2 n 2 0).swCount 3 n 5).raise pgSTRM 3)) := by
  show execSeqRecoveryReset n s = _
  rw [execSeqRecoveryReset, State.run, if_neg (by simp [live, used])]

section Counters

variable {s : State} {h : Hw} {v : Word} {a : Attr} (e : h = s.hw.answer 0)
include e

theorem execSwcCntClr_clears (takes : s.hw.takes SWC_CNT_CLR a = true) (valid : cntValid v.toNat = true) :
    exec (.swcCntClr v a) s = .next (s.withHw { h with sw := { h.sw with cnt := h.sw.cnt.set (cntKey v.toNat) 0 } }) := by
  subst e
  show execSwcCntClr v a s = _
  rw [execSwcCntClr, State.run_busWrite_takes takes, if_neg (by simp [valid])]

/-- The least number of free cells starts at the present one, and the counts of the Granary at 0 (Table 07.11). -/
theorem execGrnCntClr_clears (takes : s.hw.takes GRN_CNT_CLR a = true) (least : fld v.toNat 0 0 = 1) (push : fld v.toNat 1 1 = 1)
    (drop : fld v.toNat 2 2 = 1) : exec (.grnCntClr v a) s =
      .next (s.withHw (((h.wr GRN_FREE_MIN (h.rd GRN_FREE)).wr GRN_PUSH_CNT 0).wr GRN_ADMIT_DROP 0)) := by
  subst e
  show execGrnCntClr v a s = _
  rw [execGrnCntClr, State.run_busWrite_takes takes]
  simp only [least, push, drop, if_true]

theorem execLoftCntClr_clears (takes : s.hw.takes LOFT_CNT_CLR a = true) (peak : fld v.toNat 0 0 = 1) :
    exec (.loftCntClr v a) s = .next (s.withHw (h.wr LOFT_PEAK (h.rd LOFT_USED))) := by
  subst e
  show execLoftCntClr v a s = _
  rw [execLoftCntClr, State.run_busWrite_takes takes, if_pos peak]

end Counters

/-- Settles O10: each command of the switch core, its tables and the Loft on the branch that its conditions name; a table's
command by `State.run_tableCommand_takes`. -/
theorem switchCommandsComplete : Obligations.SwitchCommandsComplete := by
  refine ⟨?frameRx, ?frameRxInner, ?loftWriteDone, ?loftStage, ?egressSelect, ?frameTxDone, ?linkDown, ?linkUp, ?graceExpiry,
    ?lagRemap, ?fdbAgeing, ?fdbRead, ?fdbWrite, ?fdbLookup, ?fdbDelete, ?fdbFlushFid, ?fdbFlushPort, ?strmRead, ?strmWrite,
    ?strmLookup, ?strmDelete, ?seqRecoveryReset, ?swcCntClr, ?grnCntClr, ?loftCntClr⟩
  case frameRx =>
    rintro s _ p b x frags g r rfl e_g e_r outer live enabled up long check data valid
    exact execFrameRx_good e_g e_r outer live enabled up long check data valid
  case frameRxInner => rintro s _ p b frags broken rfl inner handed; exact execFrameRx_handed inner handed frags broken
  case loftWriteDone => rintro s _ d ds f g rfl e_g queued next; exact execLoftWriteDone_ends e_g queued next
  case loftStage => rintro s _ q e rfl live; exact execLoftStage_live live q e
  case egressSelect => rintro s _ p e g rfl e_g sends idle free; exact execEgressSelect_selects e_g sends idle free
  case frameTxDone =>
    rintro s _ p f g x y rfl e_g e_x e_y sending ended
    exact execFrameTxDone_ends e_g e_x e_y sending ended
  case linkDown => rintro s _ p rfl; rfl
  case linkUp =>
    rintro s _ p g x y k rfl e_g e_x e_y e_k outer live enabled normal
    exact execLinkUp_outer e_g e_x e_y e_k outer live enabled normal
  case graceExpiry => rintro s _ p rfl held passed; exact execGraceExpiry_flushes held passed
  case lagRemap => rintro s _ g b p m rfl mapped target drained; exact execLagRemap_moves mapped target drained
  case fdbAgeing => rintro s _ rfl live; exact execFdbAgeing_live live
  case fdbRead | fdbWrite | fdbDelete | fdbFlushFid | fdbFlushPort | strmRead | strmDelete =>
    intro s h v t i a takes e e_t e_i inside idle
    exact State.run_tableCommand_takes _ _ takes e e_t e_i inside idle
  case fdbLookup =>
    intro s h v t i j a takes e e_t e_i inside forwarding found idle
    exact execFdbLookup_finds e e_t e_i takes inside forwarding found idle
  case strmWrite =>
    intro s h v t i g r a takes e e_g e_r e_t e_i inside resets idle
    exact execStrmWrite_stores e e_t e_i takes e_g e_r inside resets idle
  case strmLookup =>
    intro s h v t i j a takes e e_t e_i inside streams found idle
    exact execStrmLookup_finds e e_t e_i takes inside streams found idle
  case seqRecoveryReset => rintro s _ n rfl live used; exact execSeqRecoveryReset_resets live used
  case swcCntClr => intro s h v a takes e valid; exact execSwcCntClr_clears e takes valid
  case grnCntClr => intro s h v a takes e least push drop; exact execGrnCntClr_clears e takes least push drop
  case loftCntClr => intro s h v a takes e peak; exact execLoftCntClr_clears e takes peak

end Sys2Proof.Machine

/-! # The family of the Ethernet ports

The commands of the ports, of PTP, of TC10 and of the MACsec tables on the branch that their conditions name, and the
statement on them. -/

namespace Sys2Proof.Machine

/-! ## Registers of a port -/

section PortWrites

variable {s : State} {h : Hw} {p : Fin 36} {v : Word} {a : Attr} (e : h = s.hw.answer 0)
include e

/-- An accepted write to a port register other than `ETH_CFG` and the two shapers stores the register's fields and acts: no shaper
credit has to be brought up to date for it. -/
theorem State.run_ethWrite_stores {o w : Nat} (takes : s.hw.takes (at_ (pgETH p) o) a = true)
    (accepted : h.ethRefuses p o w = none) (unshaped : ¬ (o = 0x120 ∨ o = 0x124 ∨ o = 0x100)) :
    s.run (fun h => h.ethWrite p o w a) = .next (s.withHw
      ((h.storeReg (at_ (pgETH p) o) (w &&& ethKeep p o)).ethAfter p o (h.rd (at_ (pgETH p) o)))) := by
  subst e
  unfold Hw.ethWrite
  rw [State.run_busWrite_takes takes]
  simp only [accepted, if_neg unshaped]

/-- A cleared counter of a port starts at 0 (Table 08.7). -/
theorem execEthCntClr_clears (takes : s.hw.takes (ETH_CNT_CLR p) a = true) (accepted : h.ethRefuses p 0x17C v.toNat = none) :
    exec (.ethCntClr p v a) s = .next (s.withHw
      { h with sw := { h.sw with eth := h.sw.eth.set (p * 32 + fld v.toNat 4 0) 0 } }) := by
  subst e
  show execEthCntClr p v a s = _
  rw [execEthCntClr, State.run_busWrite_takes takes]
  simp only [accepted]

end PortWrites

/-! ## Signal quality, PLCA and preemption -/

section Segments

variable {s : State} {p : Fin 36}

/-- A due report of the signal quality counts towards an alarm where it lies below the threshold (R325). -/
theorem execSqiReport_reports {sqi : Fin 8} {n : Nat} {g : Hw} (e_g : g = s.hw.put (ETH_PHY_STAT p) 2 0 sqi)
    (e_n : n = if sqi.val < g.get (ETH_PHY p) 23 20 then (g.port p).lowSqi + 1 else 0) (least : 4 ≤ p.val) (most : p.val < 28)
    (up : s.hw.bit (ETH_PHY_STAT p) 31 = true) (due : (s.hw.port p).sqiAt + 1_200_000 ≤ s.hw.now) :
    exec (.sqiReport p sqi) s = .next (s.withHw
      ((g.setPort p { g.port p with lowSqi := n, sqiAt := g.now }).raiseIf (decide (n = 10)) (pgETH p) 4)) := by
  subst e_n e_g
  show execSqiReport p sqi s = _
  rw [execSqiReport, State.run]
  exact State.next_congr (if_neg (by simp [up]; omega))

section Plca

variable {id : BitVec 8} (multidrop : 28 ≤ p.val) (live : s.hw.live (pgETH p) = true)
  (enabled : s.hw.bit (ETH_CFG p) 31 = true) (plca : s.hw.bit (ETH_PLCA p) 31 = true)
include multidrop live enabled plca

/-- The coordinator, node 0, gives the opportunity of the node whose turn it is (R328). -/
theorem execTransmitOpportunity_coordinates {x : PortSt} {n : Nat} (e_x : x = s.hw.port p)
    (e_n : n = s.hw.get (ETH_PLCA p) 19 16) (coordinator : s.hw.get (ETH_PLCA p) 26 24 = 0) (next : id.toNat = x.plca) :
    exec (.transmitOpportunity ⟨p, id⟩) s = .next (s.withHw (s.hw.setPort p
      (let y : PortSt := { x with
        plca := if id.toNat + 1 < n then id.toNat + 1 else 0
        beacons := if id.toNat = 0 then x.beacons + 1 else x.beacons }
      if id.toNat = 0 then
        { y with turn := 1 + s.hw.get (ETH_PLCA p) 7 0, turnEnd := s.hw.now + 120 * s.hw.get (ETH_PLCA p) 15 8 }
      else { y with turn := 0 }))) := by
  subst e_x e_n
  show execTransmitOpportunity ⟨p, id⟩ s = _
  rw [execTransmitOpportunity, State.run]
  refine State.next_congr ((if_neg (by simp [multidrop, live, enabled, plca])).trans ((if_neg (by simp [next])).trans ?_))
  simp only [coordinator, if_true]

/-- Another node follows the coordinator's opportunities and takes its own (R328). -/
theorem execTransmitOpportunity_follows (follower : s.hw.get (ETH_PLCA p) 26 24 ≠ 0) :
    exec (.transmitOpportunity ⟨p, id⟩) s = .next (s.withHw (s.hw.setPort p
      (if id.toNat = s.hw.get (ETH_PLCA p) 26 24 then
        { s.hw.port p with turn := 1 + s.hw.get (ETH_PLCA p) 7 0, turnEnd := s.hw.now + 120 * s.hw.get (ETH_PLCA p) 15 8 }
      else { s.hw.port p with turn := 0 }))) := by
  show execTransmitOpportunity ⟨p, id⟩ s = _
  rw [execTransmitOpportunity, State.run]
  refine State.next_congr ((if_neg (by simp [multidrop, live, enabled, plca])).trans ((if_neg (by simp [follower])).trans ?_))
  simp only [if_neg follower]

end Plca

/-- A collision is counted, and the frame on the wire starts again while it has tries left (R330). -/
theorem execPlcaCollision_retries {f : TxFrame} {g x : Hw}
    (e_g : g = ((s.hw.touch p).ethCount p 12).raiseIf ((s.hw.touch p).bit (ETH_PLCA p) 31 &&
      (match ((s.hw.touch p).port p).lastColl with
        | some t => decide (120_000_000 ≤ (s.hw.touch p).now - t)
        | none => true)) (pgETH p) 7)
    (e_x : x = g.setPort p { g.port p with lastColl := some g.now }) (sending : (s.hw.port p).tx = some f)
    (multidrop : 28 ≤ p.val) (left : f.tries < 16) :
    exec (.plcaCollision p) s = .next (s.withHw
      ((x.setPort p { x.port p with tx := some { f with tries := f.tries + 1, start := x.now } }).settle p)) := by
  subst e_x e_g
  show execPlcaCollision p s = _
  rw [execPlcaCollision, State.run]
  simp only [sending]
  exact State.next_congr ((if_neg (Nat.not_lt.mpr multidrop)).trans (if_pos left))

/-- A verify frame without a response is followed by another, up to the third, and then verification has failed (R341). -/
theorem execVerifyTimeout_retries (preempts : p.val < 12) (verifying : s.hw.get (ETH_PMAC p) 10 8 = 1)
    (passed : (s.hw.port p).verifyAt + 1_200_000 * s.hw.get (ETH_PMAC p) 23 16 ≤ s.hw.now) :
    exec (.verifyTimeout p) s = .next (s.withHw
      (if (s.hw.port p).verify < 3 then
        s.hw.setPort p { s.hw.port p with verify := (s.hw.port p).verify + 1, verifyAt := s.hw.now }
      else (s.hw.put (ETH_PMAC p) 10 8 3).raise (pgETH p) 2)) := by
  show execVerifyTimeout p s = _
  rw [execVerifyTimeout, State.run]
  exact State.next_congr (if_neg (by simp only [verifying]; omega))

theorem execVerifyResponseRx_verifies (preempts : p.val < 12) (verifying : s.hw.get (ETH_PMAC p) 10 8 = 1) :
    exec (.verifyResponseRx p) s = .next (s.withHw (s.hw.put (ETH_PMAC p) 10 8 2)) := by
  show execVerifyResponseRx p s = _
  rw [execVerifyResponseRx, State.run, if_neg (by simp [verifying, preempts])]

end Segments

/-! ## MACsec tables -/

/-- A write of a MACsec entry that no check refuses stores its words, without those that its table does not have (R346, R347). -/
theorem execMsecWrite_stores {s : State} {h : Hw} {v : Word} {t i : Nat} {a : Attr} (takes : s.hw.takes MSEC_CMD a = true)
    (e : h = s.hw.answer 0) (e_t : t = fld v.toNat 23 22) (e_i : i = fld v.toNat 13 0) (inside : i < secSize t)
    (accepted : s.hw.secRefuses t i (fun w => s.hw.rd (MSEC_DATA w)) = none) (idle : h.tableBusy MSEC_CMD = false) :
    exec (.msecWrite v a) s = .next (s.withHw
      (((each 7 (fun w (h : Hw) => h.setSec t i w (h.rd (MSEC_DATA w) &&& secMask t w)) h).wr MSEC_CMD
        (2 * 2 ^ 28 + 0 * 2 ^ 24 + t * 2 ^ 22 + i)).tableWorks MSEC_CMD 120)) := by
  show execMsecWrite v a s = _
  rw [execMsecWrite, State.run]
  simp only [← e_t, ← e_i, accepted, ite_self]
  exact State.run_tableCommand_takes 2 _ takes e e_t e_i inside idle

/-! ## PTP -/

section Ptp

variable {s : State} {i : Fin 4}

/-- A PTP domain's clock with values in range and the roles of its ports in order starts without a grandmaster's time (R353). -/
theorem execPtpInstanceEnable_starts {h g : Hw} {v : Word} {x : PtpSt} {a : Attr}
    (takes : s.hw.takes (ETH_PTPI_CFG 0 i) a = true) (e : h = s.hw.answer 0) (e_g : g = h.storeReg (ETH_PTPI_CFG 0 i) v.toNat)
    (e_x : x = { g.ptp i with time := g.ptpTime i, at_ := g.now, good := 0, seen := false, sentAt := none })
    (enables : fld v.toNat 31 31 = 1) (domain : fld v.toNat 23 16 ≤ 127) (sync : fld v.toNat 15 8 = 0 ∨ 0xF9 ≤ fld v.toNat 15 8)
    (pdelay : fld v.toNat 7 0 ≤ 3 ∨ 0xFD ≤ fld v.toNat 7 0)
    (roles : (h.ptpPorts i 2).length = 1 ∧ fld v.toNat 30 30 = 0 ∨ h.ptpPorts i 2 = [] ∧ fld v.toNat 30 30 = 1)
    (off : h.ptpOn i = false) :
    exec (.ptpInstanceEnable i v a) s = .next (s.withHw
      (((g.setPtp i x).put (ETH_PTPI_STAT 0 i) 29 24 ((h.ptpPorts i 2).headD 0x3F)).putBit (ETH_PTPI_STAT 0 i) 31 false)) := by
  have inRange : ¬ (127 < fld v.toNat 23 16 ∨ ¬ (fld v.toNat 15 8 = 0 ∨ 0xF9 ≤ fld v.toNat 15 8) ∨
      ¬ (fld v.toNat 7 0 ≤ 3 ∨ 0xFD ≤ fld v.toNat 7 0)) := by omega
  have rolesHold : (((h.ptpPorts i 2).length == 1 && fld v.toNat 30 30 == 0) ||
      ((h.ptpPorts i 2).isEmpty && fld v.toNat 30 30 == 1)) = true := by simpa using roles
  subst e_x e_g e
  show execPtpInstanceEnable i v a s = _
  rw [execPtpInstanceEnable, State.run_busWrite_takes takes]
  refine State.next_congr ((if_neg inRange).trans ((if_neg (by simp only [rolesHold]; simp)).trans ((if_pos enables).trans ?_)))
  exact if_neg (by simp [off])

variable (on : s.hw.ptpOn i = true)
include on

/-- A Sync on the SLAVE port of a follower gives the grandmaster's time and the offset measured (R354). -/
theorem execSyncRx_takes {offset : Int} {time corr p : Nat} {g : Hw} (e_p : p = s.hw.get (ETH_PTPI_STAT 0 i) 29 24)
    (e_g : g = (s.hw.ethCount p 14).setPtp i { s.hw.ptp i with
      time := time, at_ := s.hw.now, corr := corr
      good := if offset.natAbs ≤ 100 then min 8 ((s.hw.ptp i).good + 1) else 0, seen := true })
    (listens : p ≠ 0x3F) (up : s.hw.bit (ETH_PHY_STAT p) 31 = true) (capable : s.hw.asCapable p = true) :
    exec (.syncRx i offset time corr) s = .next (s.withHw
      (((g.wr (ETH_PTPI_OFS 0 i) (unsgn 32 (max (-(2 ^ 31)) (min (2 ^ 31 - 1) offset)))).incF (ETH_PTPI_STAT 0 i) 15 0).putBit
        (ETH_PTPI_STAT 0 i) 31 true)) := by
  subst e_g e_p
  show execSyncRx i offset time corr s = _
  rw [execSyncRx, State.run]
  exact State.next_congr (if_neg (by simp [on, listens, up, capable]))

/-- A grandmaster whose interval is over sends Sync with its own time (R354). -/
theorem execSyncInterval_sends {ratio : Ratio} {g : Hw}
    (e_g : g = s.hw.setPtp i { s.hw.ptp i with sentAt := some s.hw.now, good := min 8 ((s.hw.ptp i).good + 1) })
    (grandmaster : s.hw.bit (ETH_PTPI_CFG 0 i) 30 = true)
    (due : (s.hw.ptp i).sentAt.any (fun t => decide (s.hw.now < t + s.hw.syncCycles i)) = false) :
    exec (.syncInterval i ratio) s = .next (s.withHw
      (((g.wr (ETH_PTPI_OFS 0 i) 0).putBit (ETH_PTPI_STAT 0 i) 31 true).syncAll i (g.ptpTime i) 0 ratio)) := by
  subst e_g
  show execSyncInterval i ratio s = _
  rw [execSyncInterval, State.run]
  exact State.next_congr ((if_neg (by simp [on])).trans ((if_pos grandmaster).trans (if_neg (by simp [due]))))

/-- A follower sends on the Sync that it has taken, with the residence time and the link delay added (R354). -/
theorem execSyncInterval_relays {ratio : Ratio} {x : PtpSt} {g : Hw} {d stay : Nat} (e_x : x = s.hw.ptp i)
    (e_g : g = s.hw.setPtp i { x with seen := false }) (e_d : d = g.linkDelay (g.get (ETH_PTPI_STAT 0 i) 29 24))
    (e_stay : stay = (g.now - x.at_) * 5 / 6) (relay : s.hw.bit (ETH_PTPI_CFG 0 i) 30 = false) (seen : x.seen = true)
    (fresh : stay ≤ 1_000_000) :
    exec (.syncInterval i ratio) s = .next (s.withHw (g.syncAll i (x.time - d - x.corr / 2 ^ 16)
      (x.corr + (stay + d) * ratio.num * 2 ^ 16 / max 1 ratio.den) ratio)) := by
  subst e_stay e_d e_g e_x
  show execSyncInterval i ratio s = _
  rw [execSyncInterval, State.run]
  exact State.next_congr ((if_neg (by simp [on])).trans ((if_neg (by simp [relay])).trans ((if_neg (by simp [seen])).trans
    (if_neg (Nat.not_lt.mpr fresh)))))

theorem execSyncReceiptTimeout_loses (late : s.hw.syncLate i = true) : exec (.syncReceiptTimeout i) s = .next (s.withHw
    (((s.hw.setPtp i { s.hw.ptp i with good := 0, seen := false }).putBit (ETH_PTPI_STAT 0 i) 31 false).ptpLost i)) := by
  show execSyncReceiptTimeout i s = _
  rw [execSyncReceiptTimeout, State.run, if_neg (by simp [on, late])]

end Ptp

theorem execPdelayExchange_measures {s : State} {p : Fin 36} (delay : Nat) (up : s.hw.bit (ETH_PHY_STAT p) 31 = true)
    (measured : s.hw.bit (ETH_PTP p) 12 = false) : exec (.pdelayExchange p delay) s = .next (s.withHw (s.hw.setPort p
      { s.hw.port p with
        pdelay := delay, pdelayGood := if delay < 800 then min 2 ((s.hw.port p).pdelayGood + 1) else 0 })) := by
  show execPdelayExchange p delay s = _
  rw [execPdelayExchange, State.run, if_neg (by simp [up, measured])]

/-! ## TC10 -/

section Tc10

variable {s : State} {p : Fin 36}

theorem execTc10SleepRequest_asks (awake : s.hw.tc10In p 0 = true) (permitted : s.hw.sleepPermitted p = true) :
    exec (.tc10SleepRequest p) s = .next (s.withHw (s.hw.askSleep p)) := by
  show execTc10SleepRequest p s = _
  rw [execTc10SleepRequest, State.run, if_pos (by simp [awake, permitted])]

theorem execTc10SleepNak_wakes (asked : s.hw.tc10In p 1 = true) (denied : s.hw.sleepWaits p = false) :
    exec (.tc10SleepNak p) s = .next (s.withHw ((s.hw.put (ETH_TC10 p) 2 0 0).raise (pgETH p) 6)) := by
  show execTc10SleepNak p s = _
  rw [execTc10SleepNak, State.run, if_pos (by simp [asked, denied])]

theorem execTc10SleepAck_sleeps (asked : s.hw.tc10In p 1 = true) (waits : s.hw.sleepWaits p = true) :
    exec (.tc10SleepAck p) s = .next (s.withHw ((s.hw.put (ETH_TC10 p) 2 0 2).linkDown p)) := by
  show execTc10SleepAck p s = _
  rw [execTc10SleepAck, State.run, if_pos (by simp [asked, waits])]

/-- The partner's request is acknowledged and the link sleeps, or it is refused (R358). -/
theorem execTc10PartnerSleep_answers (awake : s.hw.tc10In p 0 = true ∨ s.hw.tc10In p 1 = true) :
    exec (.tc10PartnerSleep p) s = .next (s.withHw
      (if s.hw.sleepPermitted p then ((s.hw.put (ETH_TC10 p) 2 0 2).calls p 3).linkDown p else s.hw.calls p 4)) := by
  have handshake : (s.hw.tc10In p 0 || s.hw.tc10In p 1) = true := by simpa using awake
  show execTc10PartnerSleep p s = _
  rw [execTc10PartnerSleep, State.run, if_neg (by simp [handshake])]

section Wake

variable {w fwd : Nat} {r : Hw} (least : 4 ≤ p.val) (most : p.val < 28) (wakes : fld w 31 31 ≠ 0)
include least most wakes

/-- A wake-up on a port that is powered wakes its link and its channel, and the links that it forwards to (R359). -/
theorem execTc10Wake_live {g : Hw}
    (e_g : g = if fld w 2 0 = 1 then s.hw.put (ETH_TC10 p) 2 0 0
      else if fld w 2 0 = 2 then s.hw.put (ETH_TC10 p) 2 0 3 else s.hw)
    (e_r : r = (g.raise (pgETH p) 5).nmWake 4 ((g.raise (pgETH p) 5).chOfTc10 p) p) (live : s.hw.live (pgETH p) = true)
    (e_w : w = s.hw.rd (ETH_TC10 p)) (e_fwd : fwd = s.hw.rd (ETH_TC10_FWD p)) :
    exec (.tc10Wake p) s = .next (s.withHw (if fld w 30 30 = 1 then
      each 24 (fun i (h : Hw) => if fld fwd i i = 1 then h.wakeLink (i + 4) else h) r else r)) := by
  subst e_r e_g e_w e_fwd
  show execTc10Wake p s = _
  rw [execTc10Wake, State.run]
  simp only [live, if_true]
  exact State.next_congr (if_neg (by omega))

/-- A port without power wakes by the configuration held for it (R359). -/
theorem execTc10Wake_unpowered (e_r : r = s.hw.nmWake 4 (s.hw.chOfTc10 p) p) (off : s.hw.live (pgETH p) = false)
    (held : find? s.hw.nmu.tc10 p.val = some (w, fwd)) :
    exec (.tc10Wake p) s = .next (s.withHw (if fld w 30 30 = 1 then
      each 24 (fun i (h : Hw) => if fld fwd i i = 1 then h.wakeLink (i + 4) else h) r else r)) := by
  subst e_r
  show execTc10Wake p s = _
  rw [execTc10Wake, State.run]
  simp only [off, held, Bool.false_eq_true, if_false]
  exact State.next_congr (if_neg (by omega))

end Wake

end Tc10

/-- Settles O11: each command of the ports, PTP, TC10 and the MACsec tables on the branch that its conditions name; a MACsec
table's command by `State.run_tableCommand_takes`. -/
theorem portCommandsComplete : Obligations.PortCommandsComplete := by
  refine ⟨?mdioFrame, ?cableGo, ?mdioDone, ?cableTestDone, ?sqiReport, ?coordinator, ?follower, ?collision, ?gate, ?hold,
    ?verifyTimeout, ?msecRead, ?msecWrite, ?msecDelete, ?ptpEnable, ?syncRx, ?grandmaster, ?relay, ?syncLost, ?pdelay,
    ?sleepRequest, ?sleepNak, ?partnerSleep, ?sleepAck, ?wake, ?wakeOff, ?verified, ?cntClr⟩
  case mdioFrame | cableGo =>
    intro s h p v a takes e accepted
    exact State.run_ethWrite_stores e takes accepted (by decide)
  case mdioDone => rintro s _ p data rfl busy; exact State.next_congr (if_pos busy)
  case cableTestDone => rintro s _ p res dist rfl testing; exact State.next_congr (if_pos testing)
  case sqiReport =>
    rintro s _ p sqi n g rfl e_g least most up due e_n
    exact execSqiReport_reports e_g e_n least most up due
  case coordinator =>
    rintro s _ p id x n rfl e_x e_n multidrop live enabled plca coordinator next
    exact execTransmitOpportunity_coordinates multidrop live enabled plca e_x e_n coordinator next
  case follower =>
    rintro s _ p id rfl multidrop live enabled plca follower
    exact execTransmitOpportunity_follows multidrop live enabled plca follower
  case collision =>
    rintro s _ p f g x rfl e_g e_x sending multidrop left
    exact execPlcaCollision_retries e_g e_x sending multidrop left
  case gate | hold => rintro s _ c v acts rfl _; exact State.run_fireCue_acts acts
  case verifyTimeout => rintro s _ p rfl preempts verifying passed; exact execVerifyTimeout_retries preempts verifying passed
  case msecRead | msecDelete =>
    intro s h v t i a takes e e_t e_i inside idle
    exact State.run_tableCommand_takes _ _ takes e e_t e_i inside idle
  case msecWrite =>
    intro s h v t i a takes e e_t e_i inside accepted idle
    exact execMsecWrite_stores takes e e_t e_i inside accepted idle
  case ptpEnable =>
    intro s h i v g x a takes e e_g e_x enables domain sync pdelay roles off
    exact execPtpInstanceEnable_starts takes e e_g e_x enables domain sync pdelay roles off
  case syncRx =>
    rintro s _ i offset time corr p g rfl e_p e_g on listens up capable
    exact execSyncRx_takes on e_p e_g listens up capable
  case grandmaster =>
    rintro s _ i ratio g rfl e_g on grandmaster due
    exact execSyncInterval_sends on e_g grandmaster due
  case relay =>
    rintro s _ i ratio x g d stay rfl e_x e_g e_d e_stay on relay seen fresh
    exact execSyncInterval_relays on e_x e_g e_d e_stay relay seen fresh
  case syncLost => rintro s _ i rfl on late; exact execSyncReceiptTimeout_loses on late
  case pdelay => rintro s _ p delay rfl up measured; exact execPdelayExchange_measures delay up measured
  case sleepRequest => rintro s _ p rfl awake permitted; exact execTc10SleepRequest_asks awake permitted
  case sleepNak => rintro s _ p rfl asked denied; exact execTc10SleepNak_wakes asked denied
  case partnerSleep => rintro s _ p rfl awake; exact execTc10PartnerSleep_answers awake
  case sleepAck => rintro s _ p rfl asked waits; exact execTc10SleepAck_sleeps asked waits
  case wake =>
    rintro s _ p w fwd g r rfl e_g e_r least most live e_w e_fwd wakes
    exact execTc10Wake_live least most wakes e_g e_r live e_w e_fwd
  case wakeOff =>
    rintro s _ p w fwd r rfl e_r least most off held wakes
    exact execTc10Wake_unpowered least most wakes e_r off held
  case verified => rintro s _ p rfl preempts verifying; exact execVerifyResponseRx_verifies preempts verifying
  case cntClr => intro s h p v a takes e accepted; exact execEthCntClr_clears e takes accepted

end Sys2Proof.Machine

/-! # The CAN and LIN family

The commands of the CAN controllers and the LIN channels: what a trigger, a write of a controller's CTRL and a LIN_SLOT cue do
on the branch that their conditions name, and the statements on the commands. -/

namespace Sys2Proof.Machine

/-! ## Triggers of a CAN transmit object -/

/-- A trigger of an object that is neither on the bus nor pending makes it pending (R378). -/
theorem Hw.canTrigger_idle {h : Hw} {n o : Nat} (offBus : h.bit (CAN_OBJ n o 6) 22 = false)
    (idle : h.objPending n o = false) (cue : Bool) : h.canTrigger n o cue = h.makePending n o := by
  rw [Hw.canTrigger, if_neg (by simp [offBus]), if_neg (by simp [idle])]

/-- A CAN_TX cue that names a valid transmit object triggers it (R378). -/
theorem canTxEff_triggers {h : Hw} {arg : Nat} (v tc i : Nat) (valid : h.objValid (fld arg 11 8) (fld arg 6 0) = true)
    (transmit : h.objTx (fld arg 11 8) (fld arg 6 0) = true) :
    canTxEff arg v tc i h = h.canTrigger (fld arg 11 8) (fld arg 6 0) true :=
  if_pos (by simp [valid, transmit])

/-! ## Transmission and reception -/

section Frames

variable {s : State} {n : Fin 16}

/-- The frame queued first is stored in its object, which shows it as new, and as lost where one was new already (R372). -/
theorem execFrameStore_stores {r : RxFrame} {rs : List RxFrame} {g x y : Hw}
    (e_g : g = (s.hw.setCan n { s.hw.can n with rx := rs }).setObjData n r.obj r.frame.data
      ((s.hw.setCan n { s.hw.can n with rx := rs }).objCap n r.obj))
    (e_x : x = ((((((g.put (CAN_OBJ n r.obj 1) 31 30 r.frame.fmt.val).putBit (CAN_OBJ n r.obj 1) 29 r.frame.brs).put
      (CAN_OBJ n r.obj 1) 10 0 r.frame.dlc.toNat).put (CAN_OBJ n r.obj 3) 23 16 r.frame.sdt.toNat).put (CAN_OBJ n r.obj 3) 15 8
      r.frame.vcid.toNat).putBit (CAN_OBJ n r.obj 3) 0 r.frame.sec))
    (e_y : y = ((x.wr (CAN_OBJ n r.obj 4) r.frame.af.toNat).wr (CAN_OBJ n r.obj 7) r.ts).wr (CAN_OBJ n r.obj 8)
      ((if r.frame.ide then 2 ^ 29 else 0) + r.frame.id.toNat))
    (queued : (s.hw.can n).rx = r :: rs) (unauthenticated : r.fv = none) :
    exec (.frameStore n) s = .next (s.withHw (if y.bit (CAN_OBJ n r.obj 6) 30
      then (((((y.incF (CAN_OBJ n r.obj 6) 15 0).objFlag n r.obj 30).canCount n 2).objFlag n r.obj 29).canCount n 11).raise
        (pgCAN n) 5
      else ((y.incF (CAN_OBJ n r.obj 6) 15 0).objFlag n r.obj 30).canCount n 2)) := by
  subst e_y e_x e_g
  show execFrameStore n s = _
  rw [execFrameStore, State.run]
  simp only [queued, unauthenticated]

/-- A controller on the bus, free to send, offers its object: it goes on the bus, or loses (R379, R380). -/
theorem execArbitrationStart_offers {won : Bool} {o : Nat} {g : Hw}
    (e_g : g = ((List.range 128).filter (fun o => s.hw.objPending n o && s.hw.objAuth n o && !s.hw.objKeyOk n o)).foldl
      (fun (h : Hw) o => h.objRevoked n o) s.hw)
    (on : s.hw.canOn n = true) (enabled : s.hw.bit (CTRL (pgCAN n)) 0 = true) (counts : s.hw.canFrozen n = false)
    (idle : (s.hw.can n).tx = none) (offered : g.offered n = some o) :
    exec (.arbitrationStart n won) s = .next (s.withHw (if won then
        ((g.setCan n { g.can n with tx := some (o, g.objFrame n o), again := false }).objFlag n o 22).loopDelay n (g.objFrame n o)
      else g.canCount n 8)) := by
  subst e_g
  show execArbitrationStart n won s = _
  rw [execArbitrationStart, State.run, if_neg (by simp [on, enabled, counts, idle])]
  simp only [offered]

/-- An acknowledged frame is counted and its object freed, triggered again, or shown as revoked (R378, R383, R396). -/
theorem execTxOk_frees {o : Nat} {f : CanFrame} {k r g x y : Hw} (e_k : k = s.hw.canLapse n)
    (e_r : r = (k.offBus n).unpend n o) (e_g : g = r.wr (CAN_OBJ n o 7) (r.tick32 (r.get (CAN_CFG n) 25 24)))
    (e_x : x = ((g.canCount n 0).tecDown n).notAlone n) (e_y : y = x.setCan n { x.can n with again := false })
    (sending : (k.can n).tx = some (o, f)) :
    exec (.txOk n) s = .next (s.withHw (((if y.objAuth n o && !y.objKeyOk n o then (y.objFlag n o 24).raise (pgCAN n) 7
      else if (k.can n).again then y.makePending n o else y).tunnelTake n f true).canStopNow n)) := by
  subst e_y e_x e_g e_r e_k
  show execTxOk n s = _
  rw [execTxOk, State.run]
  simp only [sending]

end Frames

/-! ## CTRL of a CAN controller -/

section Control

variable {h k : Hw} {n v : Nat} {busy : Bool} {a : Attr} (e_k : k = h.canLapse n)
include e_k

/-- A controller that is enabled waits to join its bus, or counts toward its recovery where it was bus-off (R405). -/
theorem Hw.canCtrl_enables (enables : fld v 0 0 = 1) (was : k.bit (CTRL (pgCAN n)) 0 = false)
    (admitted : (List.range 128).any (fun o => k.objValid n o && decide (k.get (CAN_CFG n) 31 30 < k.objFmt n o)) = false) :
    h.canCtrl n v busy a = ((k.setCan n { k.can n with
      waiting := !decide (k.get (CAN_ERR n) 31 30 = 2), stopping := false
      counting := decide (k.get (CAN_ERR n) 31 30 = 2) && k.bit (CAN_CFG n) 29 }).put (CAN_RECOV n) 7 0 0).putBit
        (CTRL (pgCAN n)) 0 true := by
  subst e_k
  have on : decide (fld v 0 0 = 1) = true := decide_eq_true enables
  unfold Hw.canCtrl
  exact (if_neg (by simp [on, was])).trans ((if_pos on).trans (if_neg (by simp only [admitted]; decide)))

/-- A controller that is disabled stops at once, or after the frame on its bus (R406). -/
theorem Hw.canCtrl_disables {g x : Hw} {go : Bool}
    (e_g : g = ((k.putBit (CTRL (pgCAN n)) 0 false).put (CAN_RECOV n) 7 0 0).putBit (CAN_RECOV n) 31 false)
    (e_go : go = ((g.can n).tx.isSome || (busy && g.bit (STATUS (pgCAN n)) 0)))
    (e_x : x = g.setCan n { g.can n with
      counting := false, waiting := false, stopping := go
      stopBy := g.now + 256 * (15 * (bitTiming true (g.rd (CAN_NBT n))).1 / 2) })
    (disables : fld v 0 0 = 0) (was : k.bit (CTRL (pgCAN n)) 0 = true) :
    h.canCtrl n v busy a = if go then x else x.putBit (STATUS (pgCAN n)) 0 false := by
  subst e_x e_go e_g e_k
  have off : decide (fld v 0 0 = 1) = false := by simp [disables]
  unfold Hw.canCtrl
  exact (if_neg (by simp [off, was])).trans (if_neg (by simp [off]))

end Control

/-! ## LIN slots and responses -/

section Slots

variable {h : Hw} {arg : Nat} (v tc i : Nat)

/-- A slot of a responder or of an invalid entry is only counted (R402). -/
theorem linSlotEff_ignored (ignored : h.bit (LIN_CFG (fld arg 10 8)) 31 = false ∨
    h.bit (LIN_SCH (fld arg 10 8) (fld arg 7 0)) 31 = false) :
    linSlotEff arg v tc i h = h.sat (LIN_CUE_IGN (fld arg 10 8)) :=
  if_pos <| by
    obtain responder | invalid := ignored
    · simp [responder]
    · simp [invalid]

section Commander

variable (enabled : h.bit (CTRL (pgLIN (fld arg 10 8))) 0 = true) (commander : h.bit (LIN_CFG (fld arg 10 8)) 31 = true)
  (valid : h.bit (LIN_SCH (fld arg 10 8) (fld arg 7 0)) 31 = true) (awake : h.nmu.linAsleep.contains (fld arg 10 8) = false)
include enabled commander valid awake

/-- A slot of an awake commander during a frame does not run: it is counted and raises SLOT_OVERRUN (R402). -/
theorem linSlotEff_overruns (during : (h.linFrame (fld arg 10 8)).isSome = true) :
    linSlotEff arg v tc i h = (h.sat (LIN_OVERRUN_CNT (fld arg 10 8))).raise (pgLIN (fld arg 10 8)) 3 :=
  (if_neg (by simp only [enabled, commander, valid, awake]; decide)).trans (if_pos during)

/-- A slot of an awake commander between frames starts its entry's frame (R398). -/
theorem linSlotEff_starts (between : (h.linFrame (fld arg 10 8)).isSome = false) :
    linSlotEff arg v tc i h = (h.linStart (fld arg 10 8) (h.linEntry (fld arg 10 8) (LIN_SCH (fld arg 10 8) (fld arg 7 0))
      (h.get (LIN_CFG (fld arg 10 8)) 28 24 + 21))).put (LIN_STAT (fld arg 10 8)) 7 0 (fld arg 7 0) :=
  (if_neg (by simp only [enabled, commander, valid, awake]; decide)).trans (if_neg (by simp [between]))

end Commander

end Slots

/-- A header on the bus of a responder starts the frame of the response entry that it names (R403). -/
theorem execLinHeaderRx_starts {s : State} {l : Fin 8} {fid : Fin 64} {f : Nat} (enabled : s.hw.bit (CTRL (pgLIN l)) 0 = true)
    (responder : s.hw.bit (LIN_CFG l) 31 = false)
    (named : (List.range 64).find? (fun f => s.hw.bit (LIN_RSP l f) 31 && decide (s.hw.get (LIN_RSP l f) 5 0 = fid.val)) = some f) :
    exec (.linHeaderRx l fid) s = .next (s.withHw (s.hw.linStart l (s.hw.linEntry l (LIN_RSP l f) 0))) := by
  show execLinHeaderRx l fid s = _
  rw [execLinHeaderRx, State.run, if_neg (by simp [enabled, responder])]
  simp only [named]

/-- A good response is stored in the buffer of its frame with the outcome shown (R400, R404). -/
theorem execLinResponseEnd_stores {s : State} {l : Fin 8} {r : LinSeen} {f : LinFrame} {d : List Byte} {g x y : Hw}
    (e_d : d = r.bytes.take f.len)
    (e_g : g = (s.hw.linEnd l).linStatus l f (if (s.hw.linEnd l).bit (LIN_BUF_ST l f.buf) 31 then 8 else 0))
    (e_x : x = (g.wr (LIN_BUF_DLO l f.buf) (leNat (slice d 0 4))).wr (LIN_BUF_DHI l f.buf) (leNat (slice d 4 4)))
    (e_y : y = { x with zone := { x.zone with linRx := x.zone.linRx.set (64 * l + f.buf) f.fid } })
    (inProgress : s.hw.linFrame l = some f) (read : r.readBack = false) (subscribed : f.pub = false) (answered : r.bytes ≠ [])
    (framed : r.framing = false) (whole : r.bytes.length = f.len + 1)
    (checked : (r.bytes.getD f.len 0).toNat = linChecksum f.enh f.fid d) :
    exec (.linResponseEnd l r) s =
      .next (s.withHw ((y.incF (LIN_BUF_ST l f.buf) 15 0).putBit (LIN_BUF_ST l f.buf) 31 true)) := by
  subst e_y e_x e_g e_d
  have good : (!r.framing && decide (r.bytes.length = f.len + 1) &&
      decide ((r.bytes.getD f.len 0).toNat = linChecksum f.enh f.fid (r.bytes.take f.len))) = true := by
    simp only [framed, whole, checked]; decide
  show execLinResponseEnd l r s = _
  rw [execLinResponseEnd, State.run]
  simp only [inProgress]
  exact State.next_congr ((if_neg (by simp [read])).trans ((if_neg (by simp [subscribed])).trans
    ((if_neg (by simp [answered])).trans (if_pos good))))

/-! ## The statements -/

/-- Settles O12: each command of the CAN controllers and the LIN channels on the branch that its conditions name; a trigger by
`Hw.canTrigger_idle`. -/
theorem canAndLinCommandsComplete : Obligations.CanAndLinCommandsComplete := by
  refine ⟨?canFrameEnd, ?frameStore, ?canTx, ?canTxreq, ?macReady, ?arbitrationStart, ?txOk, ?errorDetected,
    ?recessiveSequence, ?canRecov, ?ageDrop, ?canDisable, ?canEnable, ?canObjectWrite, ?canCntClr, ?linSlot, ?linHeaderRx,
    ?linResponseEnd⟩
  case canFrameEnd =>
    rintro s _ n f _ _ rfl rfl rfl on heeds admitted
    exact State.next_congr ((if_neg (by simp [on, heeds])).trans (if_neg (Nat.not_lt.mpr admitted)))
  case frameStore =>
    rintro s _ n r rs g x y rfl e_g e_x e_y queued unauthenticated
    exact execFrameStore_stores e_g e_x e_y queued unauthenticated
  case canTx =>
    rintro s _ _ _ c v acts rfl rfl rfl valid transmit offBus idle
    exact (State.run_fireCue_acts acts).trans (State.next_congr
      ((canTxEff_triggers _ _ _ valid transmit).trans (Hw.canTrigger_idle offBus idle true)))
  case canTxreq =>
    rintro s _ n v _ a takes rfl rfl valid transmit offBus idle
    exact (State.run_busWrite_takes takes).trans (State.next_congr
      ((if_pos (by simp only [valid, transmit]; decide)).trans (Hw.canTrigger_idle offBus idle false)))
  case macReady =>
    rintro s _ n o rfl pending authenticated notReady
    exact State.next_congr (if_pos (by simp only [pending, authenticated, notReady]; decide))
  case arbitrationStart =>
    rintro s _ n won o g rfl e_g on enabled counts idle offered
    exact execArbitrationStart_offers e_g on enabled counts idle offered
  case txOk =>
    rintro s _ n o f k r g x y rfl e_k e_r e_g e_x e_y sending
    exact execTxOk_frees e_k e_r e_g e_x e_y sending
  case errorDetected =>
    rintro s _ n sending e _ rfl rfl joined onBus
    exact State.next_congr (if_neg (by simp [joined, onBus]))
  case recessiveSequence =>
    rintro s _ n rfl enabled onBus
    exact State.next_congr ((if_neg (by simp [enabled])).trans (if_neg onBus))
  case canRecov =>
    rintro s _ n v a takes rfl go busOff stopped enabled
    exact (State.run_busWrite_takes takes).trans (State.next_congr ((if_neg (by omega)).trans
      ((if_neg (not_not.mpr busOff)).trans ((if_neg (by simp [enabled])).trans (if_neg (by simp [stopped]))))))
  case ageDrop =>
    rintro s _ n o rfl pending limited passed
    exact State.next_congr (if_neg (by simp only [pending, limited, Nat.not_lt.mpr passed]; decide))
  case canDisable =>
    rintro s _ n v busy k g go x a takes rfl e_k e_g e_go e_x disables was
    exact (State.run_busWrite_takes takes).trans (State.next_congr (Hw.canCtrl_disables e_k e_g e_go e_x disables was))
  case canEnable =>
    rintro s _ n v k a takes rfl e_k enables was admitted
    exact (State.run_busWrite_takes takes).trans (State.next_congr (Hw.canCtrl_enables e_k enables was admitted))
  case canObjectWrite =>
    rintro s _ n o w v _ a takes rfl rfl free sound keyed
    exact (State.run_busWrite_takes takes).trans (State.next_congr ((if_neg (by simpa using free)).trans
      ((if_neg (by simpa using sound)).trans (if_neg (by simpa using keyed)))))
  case canCntClr => rintro s _ n v a takes rfl; exact State.run_busWrite_takes takes
  case linSlot =>
    rintro s _ _ _ c v acts rfl rfl rfl enabled commander valid awake between
    exact (State.run_fireCue_acts acts).trans (State.next_congr
      (linSlotEff_starts _ _ _ enabled commander valid awake between))
  case linHeaderRx =>
    rintro s _ l fid f rfl enabled responder named
    exact execLinHeaderRx_starts enabled responder named
  case linResponseEnd =>
    rintro s _ l r f d g x y rfl e_d e_g e_x e_y inProgress read subscribed answered framed whole checked
    exact execLinResponseEnd_stores e_d e_g e_x e_y inProgress read subscribed answered framed whole checked

/-- Settles O47: a slot during a frame by `linSlotEff_overruns`, one that cannot run by `linSlotEff_ignored`. -/
theorem linSlotThatDoesNotRun : Obligations.LinSlotThatDoesNotRun := by
  refine ⟨?overrun, ?ignored⟩
  case overrun =>
    rintro s _ _ _ c v acts rfl rfl rfl enabled commander valid awake during
    exact (State.run_fireCue_acts acts).trans (State.next_congr
      (linSlotEff_overruns _ _ _ enabled commander valid awake during))
  case ignored =>
    rintro s _ _ _ c v acts rfl rfl rfl ignored
    exact (State.run_fireCue_acts acts).trans (State.next_congr (linSlotEff_ignored _ _ _ ignored))

end Sys2Proof.Machine

/-! # The remote station and tunnel family

The commands of the remote I/O stations and of the tunnel's routes: what a sheaf, a CAN segment, a station's cues and a write
that enables a station do on the branch that their conditions name, and the statement on the commands. -/

namespace Sys2Proof.Machine

/-! ## Sheaves and segments that arrive -/

/-- A sheaf for `RIO_MAC` that names an enabled station on Ethernet is taken, from the station's own address where its source is
checked (R411, R416). -/
theorem execSheafRx_takes {s : State} {m : MacPair} {b : List Byte} (on : s.hw.bit (CTRL pgRIO) 0 = true)
    (enabled : s.hw.stnEn (b.getD 1 0).toNat = true) (ethernet : s.hw.stnCan (b.getD 1 0).toNat = false)
    (addressed : m.dst.toNat = 2 ^ 32 * s.hw.get RIO_MAC_HI 15 0 + s.hw.rd RIO_MAC_LO)
    (authentic : s.hw.bit (RIO_STN (b.getD 1 0).toNat 0) 27 = true →
      m.src.toNat = 2 ^ 32 * s.hw.get (RIO_STN (b.getD 1 0).toNat 3) 15 0 + s.hw.rd (RIO_STN (b.getD 1 0).toNat 2)) :
    exec (.sheafRx m b) s = .next (s.withHw (s.hw.takeSheaf (b.getD 1 0).toNat b)) :=
  State.next_congr ((if_neg (by simp only [on, enabled, ethernet, addressed, ne_eq, not_true_eq_false]; decide)).trans
    (if_neg (by simpa using authentic)))

/-- A stored segment with `FIRST` 1 and not marked lost starts its station's sheaf over, and completes it where it is the last one
too (R420). -/
theorem execSegmentRx_first {s : State} {n : Fin 256} {k o : Nat} {d : List Byte} {g : Hw}
    (e_k : k = s.hw.get (RIO_STN n 4) 27 24) (e_o : o = s.hw.get (RIO_STN n 4) 14 8)
    (e_d : d = slice (s.hw.objData k o) 0 (canLen (s.hw.objFmt k o) (s.hw.objDlc k o)))
    (e_g : g = (s.hw.putBit (CAN_OBJ k o 6) 30 false).putBit (CAN_OBJ k o 6) 29 false)
    (on : s.hw.bit (CTRL pgRIO) 0 = true) (enabled : s.hw.stnEn n = true) (can : s.hw.stnCan n = true)
    (new : s.hw.bit (CAN_OBJ k o 6) 30 = true) (kept : s.hw.bit (CAN_OBJ k o 6) 29 = false)
    (first : fld (d.getD 0 0).toNat 7 7 = 1) :
    exec (.segmentRx n) s = .next (s.withHw (if fld (d.getD 0 0).toNat 6 6 = 1
      then (g.setStn n { g.stn n with part := none }).takeSheaf n (d.drop 1)
      else g.setStn n { g.stn n with part := some ((fld (d.getD 0 0).toNat 5 0 + 1) % 64, d.drop 1) })) := by
  subst e_g e_d e_o e_k
  show execSegmentRx n s = _
  rw [execSegmentRx, State.run, if_neg (by simp [on, enabled, can, new])]
  simp only [first, kept, decide_true, if_true, Bool.false_eq_true, if_false]

/-! ## The cues and the enabling of a station -/

section Cues

variable {h : Hw} {arg : Nat} (v tc i : Nat) (on : h.bit (CTRL pgRIO) 0 = true) (enabled : h.stnEn (fld arg 7 0) = true)
include on enabled

/-- A RIO_POLL cue for a station in polled mode is counted and sends one POLL with no payload (R422). -/
theorem rioPollEff_sends (polled : h.bit (RIO_STN (fld arg 7 0) 0) 29 = true) :
    rioPollEff arg v tc i h = (h.rioCount (fld arg 7 0) 10).stnSend (fld arg 7 0)
      (sheafBytes 3 (fld arg 7 0) [] 0 (h.get (RIO_ST (fld arg 7 0) 0) 15 0) 0 0) :=
  if_neg (by simp [on, enabled, polled])

/-- A RIO_SEND cue for a PRESENT station with `SEND_CUE` 1 sends the output sheaf released last, or a heartbeat (R423). -/
theorem rioSendEff_sends (waits : h.bit (RIO_STN (fld arg 7 0) 0) 28 = true) (serving : h.stnState (fld arg 7 0) = 2) :
    rioSendEff arg v tc i h = match (h.stn (fld arg 7 0)).out with
      | some o => h.sendOut (fld arg 7 0) o
      | none => h.sendHeartbeat (fld arg 7 0) :=
  (if_neg (by simp [on, enabled, waits])).trans (if_neg (not_not.mpr serving))

end Cues

/-- An output sheaf of an enabled station with `SEND_CUE` 0 goes out when it is released (R422, R424). -/
theorem execSheafSend_sends {s : State} {n : Fin 256} {o : OutSheaf} (released : (s.hw.stn n).out = some o)
    (free : s.hw.bit (RIO_STN n 0) 28 = false) (enabled : s.hw.stnEn n = true) (on : s.hw.bit (CTRL pgRIO) 0 = true) :
    exec (.sheafSend n) s = .next (s.withHw (s.hw.sendOut n o)) := by
  show execSheafSend n s = _
  rw [execSheafSend, State.run]
  simp only [released]
  exact State.next_congr (if_neg (by simp [free, enabled, on]))

/-- A sound word 0 that enables a station brings it to WAIT with no deadline missed (R428). -/
theorem execStationEnable_enters {s : State} {n : Fin 256} {v : Word} {a : Attr} {g : Hw}
    (takes : s.hw.takes (RIO_STN n 0) a = true) (e_g : g = (s.hw.answer 0).storeReg (RIO_STN n 0) v.toNat)
    (sound : (s.hw.answer 0).rioRefuses n 0 v.toNat = none) (was : (s.hw.answer 0).stnEn n = false)
    (enables : g.stnEn n = true) :
    exec (.stationEnable n v a) s = .next (s.withHw
      (((g.setStn n { g.stn n with heard := false }).setStnState n 1).put (RIO_ST n 0) 23 16 0)) := by
  subst e_g
  show execStationEnable n v a s = _
  rw [execStationEnable, State.run_busWrite_takes takes]
  simp only [sound]
  exact State.next_congr (if_pos (by simp [enables, was]))

/-! ## The statement -/

/-- Settles O13: each command of the stations and of the tunnel on the branch that its conditions name; a sheaf by
`execSheafRx_takes`, a segment by `execSegmentRx_first`. -/
theorem remoteStationAndTunnelCommandsComplete : Obligations.RemoteStationAndTunnelCommandsComplete := by
  refine ⟨?sheafRx, ?segmentRx, ?rioPoll, ?rioSend, ?sheafSend, ?segmentSend, ?stationEnable, ?rioCntClr, ?tunnelSend,
    ?ntscfRx, ?presentationTime, ?tunCntClr⟩
  case sheafRx =>
    rintro s _ dst src b _ rfl rfl on enabled ethernet addressed authentic
    exact execSheafRx_takes on enabled ethernet addressed authentic
  case segmentRx =>
    rintro s _ n k o d g rfl e_g e_k e_o e_d on enabled can new kept first
    exact execSegmentRx_first e_k e_o e_d e_g on enabled can new kept first
  case rioPoll =>
    rintro s _ _ c v acts rfl rfl on enabled polled
    exact (State.run_fireCue_acts acts).trans (State.next_congr (rioPollEff_sends _ _ _ on enabled polled))
  case rioSend =>
    rintro s _ _ c v acts rfl rfl on enabled waits serving
    exact (State.run_fireCue_acts acts).trans (State.next_congr (rioSendEff_sends _ _ _ on enabled waits serving))
  case sheafSend =>
    rintro s _ n o rfl released free enabled on
    exact execSheafSend_sends released free enabled on
  case segmentSend =>
    rintro s _ n rfl can
    exact State.next_congr (if_pos can)
  case stationEnable =>
    rintro s _ n v g a takes rfl e_g sound was enables
    exact execStationEnable_enters takes e_g sound was enables
  case rioCntClr => rintro s _ v a takes rfl; exact State.run_busWrite_takes takes
  case tunnelSend =>
    rintro s _ r rfl passed
    exact State.next_congr (if_neg (Nat.not_lt.mpr passed))
  case ntscfRx =>
    rintro s _ b _ _ rfl rfl rfl on ntscf
    exact State.next_congr (if_neg (by simp only [on, ntscf]; decide))
  case presentationTime =>
    rintro s _ r o rfl due
    exact State.next_congr (if_pos due)
  case tunCntClr => rintro s _ v a takes rfl; exact State.run_busWrite_takes takes

end Sys2Proof.Machine

/-! # The family of the queue and of the gates of a register

What a step does with the queue and with an empty one, the state after reset, and the gates that every command that writes a
register passes, and every access of a register by REGISTER_WRITE and the two reads. -/

namespace Sys2Proof.Machine

/-! ## The queue -/

/-- Settles O28: by the definition of a step. -/
theorem stepRunsTheFrontCommand : Obligations.StepRunsTheFrontCommand := by
  intro s c rest waiting
  rw [step, waiting]

/-- A step takes the front command off the queue and leaves its effect. -/
theorem step_cons (h : Hw) (c : Instr) (q : List Instr) : step ⟨h, c :: q⟩ = .next ⟨effect c h, q⟩ :=
  exec_effect c ⟨h, q⟩

/-- A step that answers a next state comes first in a run of one step more. -/
theorem run_succ {M : Host.Core} {s t : M.State} (n : Nat) (e : M.step s = .next t) : M.run (n + 1) s = M.run n t := by
  rw [Host.Core.run, e]

/-- Settles O31: by induction on the commands that wait. -/
theorem queueRunsInOrder : Obligations.QueueRunsInOrder := by
  intro q r
  induction q with
  | nil => exact fun h => rfl
  | cons c q ih => exact fun h => (run_succ q.length (step_cons h c (q ++ r))).trans (ih (effect c h))

/-- Settles O35: a step leaves the tail of the queue, whose commands were in the queue before. -/
theorem stepKeepsQueueWellFormed : Obligations.StepKeepsQueueWellFormed := by
  rintro ⟨h, q⟩ ok
  cases q with
  | nil => exact ⟨⟨h.tick, []⟩, rfl, rfl, ok⟩
  | cons c q => exact ⟨⟨effect c h, q⟩, step_cons h c q, rfl, fun x mem => ok x (List.mem_cons_of_mem c mem)⟩

/-! ## The state after reset -/

/-- Settles O32: no register and no memory of the state after reset lists anything. -/
theorem resetIsCanonical : Obligations.ResetIsCanonical :=
  ⟨⟨rfl, rfl⟩, rfl, fun _ => rfl, rfl, rfl⟩

/-! ## A step on an empty queue -/

theorem step_nil {s : State} (empty : s.pending = []) : step s = .next (s.withHw s.hw.tick) := by
  obtain ⟨h, q⟩ := s
  subst empty
  rfl

/-- Without a cue that waits deferred, none fires late. -/
theorem Hw.fireLate_none {h : Hw} (none : h.cue.late = []) : h.fireLate = h :=
  if_pos (by simp [none])

/-- Without a STATE segment to send, the twin's sent frames have been taken. -/
theorem Hw.twinTick_none {h : Hw} (none : h.twn.sendSeg = none) : h.twinTick = { h with twn := { h.twn with out := [] } } := by
  rw [Hw.twinTick]
  simp only [none]

/-- A restart that is not due does not come. -/
theorem Hw.restartDue_early {h : Hw} (early : ∀ t, h.boot.restartAt = some t → h.now < t) : h.restartDue = h := by
  rw [Hw.restartDue]
  cases e : h.boot.restartAt with
  | none => rfl
  | some t => exact if_neg (Nat.not_le.mpr (early t e))

/-- The module once the instants, the event edges and what was sent of the cycle that ends are over, as `Hw.tick` begins. -/
def Hw.cyclePassed (h : Hw) : Hw :=
  { h.passMarks with
    now := h.passMarks.now + 1, rose := [], took := [], span := { h.passMarks.span with out := [] }
    boot := { h.passMarks.boot with answers := [] } }

theorem Hw.tick_eq (h : Hw) : h.tick = h.cyclePassed.fireLate.twinTick.restartDue := rfl

/-- The cycle passes the instants up to each slot's present value, and no other part of the module but those named. -/
theorem Hw.cyclePassed_eq (h : Hw) : h.cyclePassed = { h with
    now := h.now + 1
    tcu0 := { h.tcu0 with mark := h.slotVal 0 + 1 }
    tcu1 := { h.tcu1 with mark := h.slotVal 1 + 1 }
    tcu2 := { h.tcu2 with mark := h.slotVal 2 + 1 }
    tcu3 := { h.tcu3 with mark := h.slotVal 3 + 1 }
    rose := []
    took := []
    span := { h.span with out := [] }
    boot := { h.boot with answers := [] } } := by
  rw [Hw.cyclePassed, Hw.passMarks_only]

/-- Settles O29: no deferred cue, no segment and no restart is due, so that the cycle passes by `Hw.cyclePassed_eq`. -/
theorem emptyQueueTicks : Obligations.EmptyQueueTicks := by
  refine ⟨fun s empty => step_nil empty, fun s empty noCue noSegment noRestart => ?_⟩
  refine (step_nil empty).trans (State.next_congr ?_)
  have passed := s.hw.cyclePassed_eq
  rw [Hw.tick_eq, Hw.fireLate_none (by rw [passed]; exact noCue), Hw.twinTick_none (by rw [passed]; exact noSegment),
    Hw.restartDue_early (by rw [passed]; exact noRestart), passed]

/-! ## The gates of a register -/

section Access

variable {h : Hw} {k : Nat} {a : Attr} (f : Hw → Hw)

theorem Hw.access_shut (shut : h.jtagShut a = true) : h.access k a f = h := by
  simp [Hw.access, shut]

variable (jtag : h.jtagShut a = false)
include jtag

theorem Hw.access_noPage (noPage : pageRow (k / 0x10000) = none) : h.access k a f = h.errResp := by
  simp [Hw.access, jtag, noPage]

variable (page : (pageRow (k / 0x10000)).isSome = true)
include page

theorem Hw.access_noPower (off : h.live (k / 0x10000) = false) :
    h.access k a f = (h.capture pgPWR 0x0102 (busAddr k) a).errResp := by
  simp [Hw.access, jtag, Option.isSome_iff_ne_none.mp page, off]

theorem Hw.access_wrongWorld (live : h.live (k / 0x10000) = true) (shut : h.gateOpen (k / 0x10000) a = false) :
    h.access k a f = h.refuse k 0x0002 a := by
  simp [Hw.access, jtag, Option.isSome_iff_ne_none.mp page, live, shut]

end Access

theorem Hw.busWrite_locked {h : Hw} {k : Nat} {a : Attr} (f : Hw → Hw) (opens : h.opens k a = true)
    (locked : h.locked k = true) : h.busWrite k a f = h.refuse k 0x0003 a := by
  rw [Hw.busWrite, Hw.access_opens h k a _ opens, if_pos (by simpa using locked), Hw.refuse_answer]

/-! ## Writes of a register -/

/-- The module `g` is what some write of register `k` with the attributes `a` leaves of the module `h`. -/
def Hw.WritesTo (h : Hw) (k : Nat) (a : Attr) (g : Hw) : Prop := ∃ f, g = h.busWrite k a f

section WritesTo

variable (h : Hw) (k : Nat) (a : Attr)

theorem Hw.writesTo_busWrite (f : Hw → Hw) : h.WritesTo k a (h.busWrite k a f) := ⟨f, rfl⟩

/-- An access of a register that is never locked is a write of it. -/
theorem Hw.writesTo_access (free : ∀ g : Hw, g.locked k = false) (f : Hw → Hw) : h.WritesTo k a (h.access k a f) :=
  ⟨f, congrArg (h.access k a) (funext fun g => by simp [free])⟩

theorem Hw.writesTo_tableCommand (op v : Nat) (size : Nat → Nat) (f : Nat → Nat → Hw → Nat × Nat × Hw) :
    h.WritesTo k a (h.tableCommand k op v a size f) := h.writesTo_busWrite k a _

/-- A key command writes `KEY_CMD`, in Hold too, where it waits. -/
theorem Hw.writesTo_keyDefers (op : Nat) (v : Word) (d : Deferred) (f : Hw → Nat × Hw) :
    h.WritesTo KEY_CMD a (h.keyDefers op v a d f) := by
  unfold Hw.keyDefers
  split
  · exact h.writesTo_busWrite _ a _
  · exact h.writesTo_busWrite _ a _

end WritesTo

/-- No block has a register among the header's offsets: its register map begins at 0x100 (Table 00.4). -/
theorem rowsOf_above_header (b : Blk) : (rowsOf b).all (fun r => decide (0x100 ≤ r.off)) = true := by
  cases b <;> rfl

/-- A register of the header other than `CTRL` is in no block's register map, and so is never locked (R10). -/
theorem Hw.locked_header {h : Hw} {k : Nat} (header : k % 0x10000 < 0x100) (ne : k % 0x10000 ≠ 0x10) :
    h.locked k = false := by
  have row : rowAt k = none := by
    unfold rowAt
    split
    · rfl
    · next r _ =>
      rw [if_neg ne, findRow, List.find?_eq_none]
      intro x mem
      have above := of_decide_eq_true (List.all_eq_true.mp (rowsOf_above_header r.blk) x mem)
      simp [Nat.not_le.mpr (Nat.lt_of_lt_of_le header above)]
  simp only [Hw.locked, row]

/-- A write of `WORLD` passes the gates of `WORLD`: a Normal master that they let in is refused as one that they do not. -/
theorem Hw.writesTo_worldWrite (h : Hw) (page : Fin 1024) (v : Word) (a : Attr) :
    h.WritesTo (WORLD page) a (h.asHw (execWorldWrite page v a)) := by
  have offset : (page.val * 0x10000 + 0xC) % 0x10000 = 0xC := by omega
  have page_eq : (page.val * 0x10000 + 0xC) / 0x10000 = page := by omega
  have unlocked : ∀ g : Hw, g.locked (WORLD page) = false :=
    fun g => Hw.locked_header (lt_of_eq_of_lt offset (by decide)) (ne_of_eq_of_ne offset (by decide))
  have bare : h.asHw (execWorldWrite page v a) = h.access (WORLD page) a (fun g =>
      if a.secure then (if g.bit (LOCK page) 0 then g.refuse (WORLD page) 0x0003 a
        else if page.val = pgWGT then g else g.put (WORLD page) 0 0 (fld v.toNat 0 0))
      else g.refuse (WORLD page) 0x0002 a) := by
    cases secure : a.secure with
    | true => simp [Hw.asHw, execWorldWrite, State.run, secure]
    | false =>
      simp only [Hw.asHw, execWorldWrite, State.run, secure, Hw.access, page_eq, Hw.refuse_answer]
      cases h.jtagShut a <;> cases pageRow page <;> cases h.live page <;> simp
  rw [bare]
  exact h.writesTo_access _ a unlocked _

/-- A write of a stream entry writes `STRM_CMD`, also where its filter is refused (Table 07.14). -/
theorem Hw.writesTo_strmWrite (h : Hw) (v : Word) (a : Attr) : h.WritesTo STRM_CMD a (h.asHw (execStrmWrite v a)) := by
  dsimp only [Hw.asHw, execStrmWrite, State.run]
  split
  · exact h.writesTo_busWrite ..
  · exact h.writesTo_tableCommand ..

/-- A write of a MACsec entry writes `MSEC_CMD`, also where the entry is refused (R346). -/
theorem Hw.writesTo_msecWrite (h : Hw) (v : Word) (a : Attr) : h.WritesTo MSEC_CMD a (h.asHw (execMsecWrite v a)) := by
  dsimp only [Hw.asHw, execMsecWrite, State.run]
  split
  · exact h.writesTo_busWrite ..
  · exact h.writesTo_tableCommand ..

/-- Every command that writes one register passes the gates of that register. -/
theorem exec_writesTo {c : Instr} {k : Nat} {a : Attr} (s : State) (q : registerOf c = some (k, a)) :
    ∃ g, s.hw.WritesTo k a g ∧ exec c s = .next (s.withHw g) := by
  cases c
  case worldWrite page v _ => cases q; exact ⟨_, s.hw.writesTo_worldWrite page v a, rfl⟩
  case fdbRead => cases q; exact ⟨_, s.hw.writesTo_tableCommand .., rfl⟩
  case fdbWrite => cases q; exact ⟨_, s.hw.writesTo_tableCommand .., rfl⟩
  case fdbLookup => cases q; exact ⟨_, s.hw.writesTo_tableCommand .., rfl⟩
  case fdbDelete => cases q; exact ⟨_, s.hw.writesTo_tableCommand .., rfl⟩
  case fdbFlushFid => cases q; exact ⟨_, s.hw.writesTo_tableCommand .., rfl⟩
  case fdbFlushPort => cases q; exact ⟨_, s.hw.writesTo_tableCommand .., rfl⟩
  case strmRead => cases q; exact ⟨_, s.hw.writesTo_tableCommand .., rfl⟩
  case strmWrite v _ => cases q; exact ⟨_, s.hw.writesTo_strmWrite v a, rfl⟩
  case strmLookup => cases q; exact ⟨_, s.hw.writesTo_tableCommand .., rfl⟩
  case strmDelete => cases q; exact ⟨_, s.hw.writesTo_tableCommand .., rfl⟩
  case msecRead => cases q; exact ⟨_, s.hw.writesTo_tableCommand .., rfl⟩
  case msecWrite v _ => cases q; exact ⟨_, s.hw.writesTo_msecWrite v a, rfl⟩
  case msecDelete => cases q; exact ⟨_, s.hw.writesTo_tableCommand .., rfl⟩
  case persistCheck => cases q; exact ⟨_, s.hw.writesTo_keyDefers .., rfl⟩
  case enrol => cases q; exact ⟨_, s.hw.writesTo_keyDefers .., rfl⟩
  case twnDeclare d =>
    cases d
    · cases q; exact ⟨_, s.hw.writesTo_busWrite .., rfl⟩
    · cases q
  all_goals cases q
  all_goals exact ⟨_, s.hw.writesTo_busWrite .., rfl⟩

/-! ### The blocks' rules of a register write -/

/-- The write that a command stands for is a write of the register that the command writes. -/
theorem Hw.writesTo_asHw {h : Hw} {c : Instr} {k k' : Nat} {a : Attr} (q : registerOf c = some (k', a)) (e : k' = k) :
    h.WritesTo k a (h.asHw (exec c)) := by
  subst e
  obtain ⟨g, w, run⟩ := exec_writesTo { hw := h } q
  unfold Hw.asHw
  rw [run]
  exact w

/-- A register in a run of `count` registers or groups of registers, `stride` apart, is in the group that `placeOf` finds. -/
theorem placeOf_some {o base stride count m : Nat} (e : placeOf o base stride count = some m) :
    base ≤ o ∧ (o - base) / stride = m ∧ m < count := by
  unfold placeOf at e
  split at e
  · next inside =>
    cases e
    exact ⟨inside.1, rfl, Nat.div_lt_of_lt_mul (by omega)⟩
  · cases e

section Places

variable {page k base stride count m r : Nat} (hp : k / 0x10000 = page)
include hp

/-- A register is the one at its offset of its page. -/
theorem at_offset {o : Nat} (ho : k % 0x10000 = o) : at_ page o = k := by
  rw [at_, ← hp, ← ho]
  omega

variable (e : placeOf (k % 0x10000) base stride count = some m)
include e

/-- A register at the place `m` of a run of registers that stand `stride` apart, `r` bytes into its group. -/
theorem at_place (hr : base ≤ k % 0x10000 → (k % 0x10000 - base) % stride = r) : at_ page (base + stride * m + r) = k := by
  obtain ⟨le, div, lt⟩ := placeOf_some e
  have split := Nat.div_add_mod (k % 0x10000 - base) stride
  rw [div, hr le] at split
  exact at_offset hp (by omega)

theorem at_placeOf [NeZero count] (hr : base ≤ k % 0x10000 → (k % 0x10000 - base) % stride = r) :
    at_ page (base + stride * (Fin.ofNat count m : Fin count) + r) = k := by
  rw [Fin.val_ofNat, Nat.mod_eq_of_lt (placeOf_some e).2.2]
  exact at_place hp e hr

/-- A register that is a word of the group `m` of a run of groups. -/
theorem at_word (al : k % 4 = 0) (hs : stride % 4 = 0) (hb : base % stride = 0) :
    at_ page (base + stride * m + 4 * (k % 0x10000 % stride / 4)) = k := by
  obtain ⟨le, -, -⟩ := placeOf_some e
  have word : k % 0x10000 % 4 = 0 := by omega
  have rest : (k % 0x10000 - base) % stride = k % 0x10000 % stride := by
    conv_rhs => rw [← Nat.sub_add_cancel le, Nat.add_mod, hb, Nat.add_zero, Nat.mod_mod]
  have whole : k % 0x10000 % stride % 4 = 0 := by
    rw [Nat.mod_mod_of_dvd _ (Nat.dvd_of_mod_eq_zero hs), word]
  rw [Nat.mul_div_cancel' (Nat.dvd_of_mod_eq_zero whole)]
  exact at_place hp e (fun _ => rest)

theorem at_wordOf [NeZero count] {words : Nat} [NeZero words] (al : k % 4 = 0) (hs : stride = 4 * words)
    (hb : base % stride = 0) : at_ page (base + stride * (Fin.ofNat count m : Fin count) +
      4 * (Fin.ofNat words (k % 0x10000 % stride / 4) : Fin words)) = k := by
  have inside : k % 0x10000 % stride / 4 < words :=
    Nat.div_lt_of_lt_mul (hs ▸ Nat.mod_lt _ (hs ▸ Nat.mul_pos (by decide) (Nat.pos_of_neZero words)))
  rw [Fin.val_ofNat words, Nat.mod_eq_of_lt inside, Fin.val_ofNat, Nat.mod_eq_of_lt (placeOf_some e).2.2]
  exact at_word hp e al (by omega) hb

end Places

/-- The upper register of a pair stands behind the lower one. -/
theorem at_add (page o x r : Nat) : at_ page (o + r + x) = at_ page (o + x + r) := by
  rw [Nat.add_right_comm]

/-- A debug register is one of a run (Table 04.4). -/
theorem dbgReg_eq (n : Fin 34) : dbgReg n = at_ pgDBG (0x200 + 4 * n) := by
  unfold dbgReg
  split
  · rfl
  split
  · next e => rw [e]
  · rw [show n.val = 33 by omega]

/-- The only page of a block. -/
theorem page_eq_first {page first : Nat} (least : first ≤ page) (most : page < first + 1) : page = first := by omega

/-- A page of a block by its index in the block. -/
theorem page_eq_add {page first : Nat} (least : first ≤ page) : page = first + (page - first) := by omega

theorem index_lt {page first count : Nat} (least : first ≤ page) (most : page < first + count) :
    page - first < count := by omega

section Blocks

variable (h : Hw) {k : Nat} (v : Word) (a : Attr)

theorem Hw.writesTo_plain : h.WritesTo k a (h.plain k v a) := h.writesTo_busWrite ..

theorem Hw.writesTo_checked (code : Hw → Option Nat) (after : Hw → Hw) : h.WritesTo k a (h.checked k v a code after) :=
  h.writesTo_busWrite ..

theorem Hw.writesTo_sys : h.WritesTo k a (h.systemWrite .sys k (k % 0x10000) v a) := by
  dsimp only [Hw.systemWrite]
  split
  · next e => exact Hw.writesTo_asHw (c := .sysResetReq v a) rfl e.symm
  split
  · next e => exact Hw.writesTo_asHw (c := .sysWdog v a) rfl e.symm
  split
  · exact h.writesTo_checked v a ..
  · exact h.writesTo_plain v a

theorem Hw.writesTo_sup : h.WritesTo k a (h.systemWrite .sup k (k % 0x10000) v a) := by
  dsimp only [Hw.systemWrite]
  split
  · exact h.writesTo_checked v a ..
  split
  · next e => exact Hw.writesTo_asHw (c := .supCntClr v a) rfl e.symm
  · exact h.writesTo_plain v a

theorem Hw.writesTo_boot : h.WritesTo k a (h.bootWrite k v a) := by
  dsimp only [Hw.bootWrite]
  split
  · next e => exact Hw.writesTo_asHw (c := .bootPkRev v a) rfl e.symm
  split
  · next e => exact Hw.writesTo_asHw (c := .bootRecover v a) rfl e.symm
  split
  · exact h.writesTo_busWrite ..
  split
  · next e => exact Hw.writesTo_asHw (c := .updateGo v a) rfl e.symm
  split
  · next e => exact Hw.writesTo_asHw (c := .actArm v a) rfl e.symm
  split
  · next e => exact Hw.writesTo_asHw (c := .bootRcvCommit v a true) rfl e.symm
  · exact h.writesTo_checked v a ..

theorem Hw.writesTo_twn : h.WritesTo k a (h.twnWrite k (k % 0x10000) v a) := by
  dsimp only [Hw.twnWrite]
  split
  · next e => exact Hw.writesTo_asHw (c := .twnEnable v a) rfl e.symm
  split
  · next e => exact Hw.writesTo_asHw (c := .twnDeclare (.write v a)) rfl e.symm
  split
  · next e => exact Hw.writesTo_asHw (c := .twnResync v a) rfl e.symm
  split
  · next e => exact Hw.writesTo_asHw (c := .twnCntClr v a) rfl e.symm
  · exact h.writesTo_checked v a ..

theorem Hw.writesTo_cue : h.WritesTo k a (h.cueWrite k v a) := by
  dsimp only [Hw.cueWrite]
  split
  · next e => exact Hw.writesTo_asHw (c := .cueIdxWrite v a) rfl e.symm
  split
  · next e => exact Hw.writesTo_asHw (c := .cueW3Write v a) rfl e.symm
  split
  · next e => exact Hw.writesTo_asHw (c := .cueSwapRequest v a) rfl e.symm
  split
  · next e => exact Hw.writesTo_asHw (c := .cueCopy v a) rfl e.symm
  split
  · next e => exact Hw.writesTo_asHw (c := .cueCntClr v a) rfl e.symm
  · exact h.writesTo_plain v a

theorem Hw.writesTo_grn : h.WritesTo k a (h.grnWrite k (k % 0x10000) v a) := by
  dsimp only [Hw.grnWrite]
  split
  · next e => exact Hw.writesTo_asHw (c := .grnCntClr v a) rfl e.symm
  split
  · exact h.writesTo_busWrite ..
  split
  · exact h.writesTo_busWrite ..
  · exact h.writesTo_plain v a

theorem Hw.writesTo_loft : h.WritesTo k a (h.loftWrite k (k % 0x10000) v a) := by
  dsimp only [Hw.loftWrite]
  split
  · next e => exact Hw.writesTo_asHw (c := .loftCntClr v a) rfl e.symm
  split
  · exact h.writesTo_busWrite ..
  split
  · exact h.writesTo_checked v a ..
  split
  · exact h.writesTo_checked v a ..
  · exact h.writesTo_plain v a

theorem Hw.writesTo_table : h.WritesTo k a (h.tableWrite k v a) := by
  dsimp only [Hw.tableWrite]
  split
  · next e =>
    subst e
    split
    · exact Hw.writesTo_asHw (c := .fdbRead v a) rfl rfl
    · exact Hw.writesTo_asHw (c := .fdbWrite v a) rfl rfl
    · exact Hw.writesTo_asHw (c := .fdbLookup v a) rfl rfl
    · exact Hw.writesTo_asHw (c := .fdbDelete v a) rfl rfl
    · exact Hw.writesTo_asHw (c := .fdbFlushFid v a) rfl rfl
    · exact Hw.writesTo_asHw (c := .fdbFlushPort v a) rfl rfl
    · exact h.writesTo_busWrite ..
  split
  · next e =>
    subst e
    split
    · exact Hw.writesTo_asHw (c := .strmRead v a) rfl rfl
    · exact Hw.writesTo_asHw (c := .strmWrite v a) rfl rfl
    · exact Hw.writesTo_asHw (c := .strmLookup v a) rfl rfl
    · exact Hw.writesTo_asHw (c := .strmDelete v a) rfl rfl
    · exact h.writesTo_busWrite ..
  split
  · next e =>
    subst e
    split
    · exact Hw.writesTo_asHw (c := .msecRead v a) rfl rfl
    · exact Hw.writesTo_asHw (c := .msecWrite v a) rfl rfl
    · exact Hw.writesTo_asHw (c := .msecDelete v a) rfl rfl
    · exact h.writesTo_busWrite ..
  split
  · exact h.writesTo_checked v a ..
  split
  · exact h.writesTo_checked v a ..
  · exact h.writesTo_plain v a

theorem Hw.writesTo_key : h.WritesTo k a (h.keyWrite k v a) := by
  dsimp only [Hw.keyWrite]
  split
  · next e =>
    subst e
    split
    · exact Hw.writesTo_asHw (c := .generate v a) rfl rfl
    · exact Hw.writesTo_asHw (c := .derive v a) rfl rfl
    · exact Hw.writesTo_asHw (c := .keyImport v a) rfl rfl
    · exact Hw.writesTo_asHw (c := .keyExport v a) rfl rfl
    · exact Hw.writesTo_asHw (c := .clear v a) rfl rfl
    · exact Hw.writesTo_asHw (c := .revoke v a) rfl rfl
    · exact Hw.writesTo_asHw (c := .narrow v a) rfl rfl
    · exact Hw.writesTo_asHw (c := .pubkey v a) rfl rfl
    · exact Hw.writesTo_asHw (c := .persistSave v a) rfl rfl
    · exact Hw.writesTo_asHw (c := .persistLoad v a) rfl rfl
    · exact Hw.writesTo_asHw (c := .persistCheck v a) rfl rfl
    · exact Hw.writesTo_asHw (c := .challenge v a) rfl rfl
    · exact Hw.writesTo_asHw (c := .enrol v a) rfl rfl
    · exact h.writesTo_busWrite ..
  split
  · next e => exact Hw.writesTo_asHw (c := .lcsAdvance v a) rfl e.symm
  split
  · next e => exact Hw.writesTo_asHw (c := .rngRestart v a) rfl e.symm
  · exact h.writesTo_plain v a

theorem Hw.writesTo_rel : h.WritesTo k a (h.relPageWrite k (k % 0x10000) v a) := by
  dsimp only [Hw.relPageWrite]
  split
  · next e => exact Hw.writesTo_asHw (c := .relTrigSw v a) rfl e.symm
  split
  · next e => exact Hw.writesTo_asHw (c := .relRearm v a) rfl e.symm
  split
  · next e => exact Hw.writesTo_asHw (c := .dump v a) rfl e.symm
  split
  · next e => exact Hw.writesTo_asHw (c := .takeGo v a) rfl e.symm
  split
  · exact h.writesTo_checked v a ..
  split
  · exact h.writesTo_busWrite ..
  · exact h.writesTo_plain v a

theorem Hw.writesTo_swc : h.WritesTo k a (h.swcWrite k (k % 0x10000) v a) := by
  dsimp only [Hw.swcWrite]
  split
  · next e => exact Hw.writesTo_asHw (c := .swcCntClr v a) rfl e.symm
  split
  · exact h.writesTo_checked v a ..
  split
  · exact h.writesTo_checked v a ..
  split
  · split
    · exact h.writesTo_checked v a ..
    · exact h.writesTo_busWrite ..
    · exact h.writesTo_plain v a
  · exact h.writesTo_plain v a

theorem Hw.writesTo_imp : h.WritesTo k a (if k = IMP_CNT_CLR then h.asHw (execImpCntClr v a) else h.plain k v a) := by
  split
  · next e => exact Hw.writesTo_asHw (c := .impCntClr v a) rfl e.symm
  · exact h.writesTo_plain v a

theorem Hw.writesTo_rve (i : Nat) : h.WritesTo k a (h.memoryWrite .rve i k (k % 0x10000) v a) := by
  dsimp only [Hw.memoryWrite]
  split
  · next e => exact Hw.writesTo_asHw (c := .t0PoolWrite v a) rfl e.symm
  split
  · exact h.writesTo_checked v a ..
  · exact h.writesTo_checked v a ..

theorem Hw.writesTo_xlt (i : Nat) : h.WritesTo k a (h.memoryWrite .xlt i k (k % 0x10000) v a) := by
  dsimp only [Hw.memoryWrite]
  split
  · next e => exact Hw.writesTo_asHw (c := .xltInvalidate v a) rfl e.symm
  · exact h.writesTo_checked v a ..

theorem Hw.writesTo_dma (i : Nat) : h.WritesTo k a (h.memoryWrite .dma i k (k % 0x10000) v a) := by
  dsimp only [Hw.memoryWrite]
  split
  · exact h.writesTo_plain v a
  split
  · exact h.writesTo_busWrite ..
  · exact h.writesTo_checked v a ..

theorem Hw.writesTo_memc (i : Nat) : h.WritesTo k a (h.memoryWrite .memc i k (k % 0x10000) v a) := by
  dsimp only [Hw.memoryWrite]
  split
  · next e => exact Hw.writesTo_asHw (c := .memcCntClr v a) rfl e.symm
  · exact h.writesTo_checked v a ..

theorem Hw.writesTo_ain (i : Nat) : h.WritesTo k a (h.channelWrite .ain i k (k % 0x10000) v a) := by
  dsimp only [Hw.channelWrite]
  split
  · exact h.writesTo_checked v a ..
  · exact h.writesTo_plain v a

theorem Hw.writesTo_pch {i : Nat} (page : k / 0x10000 = pgPCH i) (lt : i < 9) :
    h.WritesTo k a (h.channelWrite .pch i k (k % 0x10000) v a) := by
  dsimp only [Hw.channelWrite]
  split
  · exact h.writesTo_plain v a
  · next n place =>
    obtain ⟨-, -, lt'⟩ := placeOf_some place
    have channel : ((Fin.ofNat 72 (8 * i + n) : Fin 72) : Nat) = 8 * i + n := Nat.mod_eq_of_lt (by omega)
    have controller : (8 * i + n) / 8 = i := by omega
    have index : (8 * i + n) % 8 = n := by omega
    split
    · next o =>
      exact Hw.writesTo_asHw (c := .pwmConfigWrite (Fin.ofNat 72 (8 * i + n)) v a) rfl (by
        rw [channel, cPwm, controller, index]; exact (at_add ..).trans (at_place (r := 0xC) page place (fun _ => o)))
    · next o =>
      exact Hw.writesTo_asHw (c := .pchCmdWrite (Fin.ofNat 72 (8 * i + n)) v a) rfl (by
        rw [channel, cCmd, controller, index]; exact (at_add ..).trans (at_place (r := 0x14) page place (fun _ => o)))
    · next o =>
      exact Hw.writesTo_asHw (c := .rearm (Fin.ofNat 72 (8 * i + n)) v a) rfl (by
        rw [channel, controller, index]; exact (at_add ..).trans (at_place (r := 0x24) page place (fun _ => o)))
    · exact h.writesTo_busWrite ..

theorem Hw.writesTo_cvu {i : Nat} (page : k / 0x10000 = pgCVU i) (lt : i < 8) :
    h.WritesTo k a (h.cryptoWrite .cvu i k (k % 0x10000) v a) := by
  have unit : ((Fin.ofNat 8 i : Fin 8) : Nat) = i := Nat.mod_eq_of_lt lt
  dsimp only [Hw.cryptoWrite]
  split
  · next o => exact Hw.writesTo_asHw (c := .cvuCfgWrite (Fin.ofNat 8 i) v a) rfl (by rw [unit]; exact at_offset page o)
  · next o => exact Hw.writesTo_asHw (c := .cvuStart (Fin.ofNat 8 i) v a) rfl (by rw [unit]; exact at_offset page o)
  · next o => exact Hw.writesTo_asHw (c := .cvuData (Fin.ofNat 8 i) 0 v a) rfl (by rw [unit]; exact at_offset page o)
  · next o => exact Hw.writesTo_asHw (c := .cvuData (Fin.ofNat 8 i) 1 v a) rfl (by rw [unit]; exact at_offset page o)
  · next o => exact Hw.writesTo_asHw (c := .cvuData (Fin.ofNat 8 i) 2 v a) rfl (by rw [unit]; exact at_offset page o)
  · next o => exact Hw.writesTo_asHw (c := .cvuExpect (Fin.ofNat 8 i) v a) rfl (by rw [unit]; exact at_offset page o)
  · next o => exact Hw.writesTo_asHw (c := .cvuAliveIn (Fin.ofNat 8 i) v a) rfl (by rw [unit]; exact at_offset page o)
  · exact h.writesTo_plain v a

theorem Hw.writesTo_header (lt : k / 0x10000 < 1024) :
    h.WritesTo k a (h.headerWrite (k / 0x10000) (k % 0x10000) v a) := by
  have register : at_ (k / 0x10000) (k % 0x10000) = k := at_offset rfl rfl
  have page : ((Fin.ofNat 1024 (k / 0x10000) : Fin 1024) : Nat) = k / 0x10000 := Nat.mod_eq_of_lt lt
  dsimp only [Hw.headerWrite]
  rw [register]
  split
  · next o =>
    exact Hw.writesTo_asHw (c := .worldWrite (Fin.ofNat 1024 (k / 0x10000)) v a) rfl
      (by rw [page]; exact at_offset rfl o)
  · next o =>
    split
    · next can =>
      refine Hw.writesTo_asHw (c := .canEnable (Fin.ofNat 16 (k / 0x10000 - 0x070)) v a) rfl (at_offset ?_ o)
      show _ = 0x070 + (k / 0x10000 - 0x070) % 16
      omega
    split
    · next rel => exact Hw.writesTo_asHw (c := .relEnable v a) rfl (at_offset rel o)
    · exact h.writesTo_busWrite ..
  · exact h.writesTo_busWrite ..
  · next o =>
    exact Hw.writesTo_asHw (c := .evtClrWrite (Fin.ofNat 1024 (k / 0x10000)) 0 v 0 a) rfl
      (by rw [page]; exact (Nat.add_assoc _ 0x20 8).trans (at_offset rfl o))
  · next o =>
    exact Hw.writesTo_asHw (c := .evtSetWrite (Fin.ofNat 1024 (k / 0x10000)) 0 v a) rfl
      (by rw [page]; exact (Nat.add_assoc _ 0x20 0xC).trans (at_offset rfl o))
  · next o =>
    exact Hw.writesTo_asHw (c := .errCapClear (Fin.ofNat 1024 (k / 0x10000)) v none a) rfl
      (by rw [page]; exact at_offset rfl o)
  · next o =>
    exact Hw.writesTo_asHw (c := .lockWrite (Fin.ofNat 1024 (k / 0x10000)) v a) rfl
      (by rw [page]; exact at_offset rfl o)
  · exact h.writesTo_plain v a

theorem Hw.writesTo_tun (page : k / 0x10000 = pgTUN) : h.WritesTo k a (h.zoneWrite k (k % 0x10000) v a) := by
  dsimp only [Hw.zoneWrite]
  split
  · next e => exact Hw.writesTo_asHw (c := .rioCntClr v a) rfl e.symm
  split
  · next e => exact Hw.writesTo_asHw (c := .tunCntClr v a) rfl e.symm
  split
  · exact h.writesTo_plain v a
  · exact h.writesTo_checked v a ..

section Aligned

variable (al : k % 4 = 0)
include al

theorem Hw.writesTo_pwr (page : k / 0x10000 = pgPWR) : h.WritesTo k a (h.systemWrite .pwr k (k % 0x10000) v a) := by
  dsimp only [Hw.systemWrite]
  split
  · next e => exact Hw.writesTo_asHw (c := .pwrOn v a) rfl e.symm
  split
  · next e => exact Hw.writesTo_asHw (c := .pwrOff v a) rfl e.symm
  split
  · next m place =>
    exact Hw.writesTo_asHw (c := .pwrClkOff (Fin.ofNat 32 m) v a) rfl
      (at_placeOf (r := 0) page place (fun _ => by omega))
  split
  · next m place =>
    exact Hw.writesTo_asHw (c := .pwrClkOn (Fin.ofNat 32 m) v a) rfl
      (at_placeOf (r := 0) page place (fun _ => by omega))
  · exact h.writesTo_plain v a

theorem Hw.writesTo_evr (page : k / 0x10000 = pgEVR) : h.WritesTo k a (h.systemWrite .evr k (k % 0x10000) v a) := by
  dsimp only [Hw.systemWrite]
  split
  · next e place =>
    exact Hw.writesTo_asHw (c := .evrRouteWrite (Fin.ofNat 2048 e) v a) rfl
      (at_placeOf (r := 0) page place (fun _ => by omega))
  · exact h.writesTo_plain v a

theorem Hw.writesTo_tcu (page : k / 0x10000 = pgTCU) : h.WritesTo k a (h.tcuWrite k (k % 0x10000) v a) := by
  dsimp only [Hw.tcuWrite]
  split
  · next e => exact Hw.writesTo_asHw (c := .tcuBaseTickWrite v a) rfl e.symm
  split
  · exact h.writesTo_plain v a
  · next n place =>
    split
    · next first =>
      exact Hw.writesTo_asHw (c := .tcuSrcWrite (Fin.ofNat 4 n) v a) rfl
        (at_placeOf (r := 0) page place (fun _ => by omega))
    · exact h.writesTo_checked v a ..
    · exact h.writesTo_checked v a ..
    · exact h.writesTo_plain v a

theorem Hw.writesTo_cea (page : k / 0x10000 = pgCEA) : h.WritesTo k a (h.ceaWrite k (k % 0x10000) v a) := by
  dsimp only [Hw.ceaWrite]
  split
  · next e => exact Hw.writesTo_asHw (c := .ceaTaskRestart v a) rfl e.symm
  split
  · next e => exact Hw.writesTo_asHw (c := .ceaReplace v a) rfl e.symm
  split
  · exact h.writesTo_busWrite ..
  split
  · next o =>
    obtain o | o := o
    · rw [o]; exact Hw.writesTo_asHw (c := .evtClrWrite (Fin.ofNat 1024 pgCEA) 1 v 0 a) rfl (at_offset page o)
    · rw [o]; exact Hw.writesTo_asHw (c := .evtClrWrite (Fin.ofNat 1024 pgCEA) 2 v 0 a) rfl (at_offset page o)
  split
  · next o =>
    obtain o | o := o
    · rw [o]; exact Hw.writesTo_asHw (c := .evtSetWrite (Fin.ofNat 1024 pgCEA) 1 v a) rfl (at_offset page o)
    · rw [o]; exact Hw.writesTo_asHw (c := .evtSetWrite (Fin.ofNat 1024 pgCEA) 2 v a) rfl (at_offset page o)
  split
  · next c place =>
    split
    · next first =>
      exact Hw.writesTo_asHw (c := .cadenceEnable (Fin.ofNat 64 c) v a) rfl
        (at_placeOf (r := 0) page place (fun _ => by omega))
    · exact h.writesTo_checked v a ..
  split
  · next t place =>
    have register : CEA_TASK t (k % 0x10000 % 0x10 / 4) = k := at_word page place al (by decide) (by decide)
    rw [Hw.taskWrite, register]
    exact h.writesTo_busWrite ..
  split
  · next u place =>
    exact Hw.writesTo_asHw (c := .pduEntryWrite (Fin.ofNat 256 u) (Fin.ofNat 8 (k % 0x10000 % 0x20 / 4)) v a) rfl
      (at_wordOf page place al (by decide) (by decide))
  · exact h.writesTo_plain v a

theorem Hw.writesTo_pgm (page : k / 0x10000 = pgPGM) : h.WritesTo k a (h.pgmWrite k (k % 0x10000) v a) := by
  dsimp only [Hw.pgmWrite]
  split
  · next t place =>
    split
    · next bank =>
      obtain ⟨le, -, -⟩ := placeOf_some place
      obtain first | second : k % 0x10000 % 0x10 = 0 ∨ k % 0x10000 % 0x10 = 4 := by omega
      · rw [first]
        exact Hw.writesTo_asHw (c := .bankWrite (Fin.ofNat 512 t) 0 v a) rfl
          (at_placeOf (r := 0) page place (fun _ => by omega))
      · rw [second]
        exact Hw.writesTo_asHw (c := .bankWrite (Fin.ofNat 512 t) 1 v a) rfl
          ((at_add ..).trans (at_placeOf (r := 4) page place (fun _ => by omega)))
    · exact h.writesTo_plain v a
  · exact h.writesTo_plain v a

theorem Hw.writesTo_frc (page : k / 0x10000 = pgFRC) : h.WritesTo k a (h.frcWrite k (k % 0x10000) v a) := by
  dsimp only [Hw.frcWrite]
  split
  · next e => exact Hw.writesTo_asHw (c := .frcPermitWrite v a) rfl e.symm
  split
  · exact h.writesTo_busWrite ..
  split
  · exact h.writesTo_busWrite ..
  split
  · exact h.writesTo_checked v a ..
  split
  · next f place =>
    split
    · next second =>
      exact Hw.writesTo_asHw (c := .forceWrite (Fin.ofNat 1024 f) v a) rfl
        (at_placeOf (r := 4) page place (fun _ => by omega))
    · exact h.writesTo_plain v a
  · exact h.writesTo_plain v a

theorem Hw.writesTo_dbg (page : k / 0x10000 = pgDBG) : h.WritesTo k a (h.dbgWrite k (k % 0x10000) v a) := by
  dsimp only [Hw.dbgWrite]
  split
  · exact h.writesTo_busWrite ..
  split
  · exact h.writesTo_busWrite ..
  split
  · next n place =>
    exact Hw.writesTo_asHw (c := .dbgRegisterWrite (Fin.ofNat 34 n) v a) rfl
      ((dbgReg_eq _).trans (at_placeOf (r := 0) page place (fun _ => by omega)))
  · exact h.writesTo_plain v a

theorem Hw.writesTo_nmu (page : k / 0x10000 = pgNMU) : h.WritesTo k a (h.nmuWrite k (k % 0x10000) v a) := by
  dsimp only [Hw.nmuWrite]
  split
  · next e => exact Hw.writesTo_asHw (c := .nmuVoteWrite v a) rfl e.symm
  split
  · next c place =>
    split
    · next first =>
      exact Hw.writesTo_asHw (c := .nmChannelEnable (Fin.ofNat 24 c) v a) rfl
        (at_placeOf (r := 0) page place (fun _ => by omega))
    · exact h.writesTo_checked v a ..
  · exact h.writesTo_busWrite ..

theorem Hw.writesTo_rio (page : k / 0x10000 = pgRIO) : h.WritesTo k a (h.zoneWrite k (k % 0x10000) v a) := by
  dsimp only [Hw.zoneWrite]
  split
  · next e => exact Hw.writesTo_asHw (c := .rioCntClr v a) rfl e.symm
  split
  · next e => exact Hw.writesTo_asHw (c := .tunCntClr v a) rfl e.symm
  split
  · exact h.writesTo_plain v a
  split
  · exact h.writesTo_checked v a ..
  split
  · next s place _ first =>
    exact Hw.writesTo_asHw (c := .stationEnable (Fin.ofNat 256 s) v a) rfl
      (at_placeOf (r := 0) page place (fun _ => by omega))
  · exact h.writesTo_checked v a ..

theorem Hw.writesTo_spn (page : k / 0x10000 = pgSPN) : h.WritesTo k a (h.spnWrite k (k % 0x10000) v a) := by
  dsimp only [Hw.spnWrite]
  split
  · next e => exact Hw.writesTo_asHw (c := .spanLinkEnable v a) rfl e.symm
  split
  · next e => exact Hw.writesTo_asHw (c := .spnElogRdWrite v a) rfl e.symm
  split
  · next w place =>
    exact Hw.writesTo_asHw (c := .spnFlush (Fin.ofNat 16 w) true 0 a) rfl
      (at_placeOf (r := 0) page place (fun _ => by omega))
  split
  · exact h.writesTo_checked v a ..
  split
  · exact h.writesTo_checked v a ..
  · exact h.writesTo_checked v a ..

theorem Hw.writesTo_pss (page : k / 0x10000 = pgPSS) : h.WritesTo k a (h.pssWrite k (k % 0x10000) v a) := by
  dsimp only [Hw.pssWrite]
  split
  · next e => exact Hw.writesTo_asHw (c := .pssHb v a) rfl e.symm
  split
  · next e => exact Hw.writesTo_asHw (c := .pssRelease v a) rfl e.symm
  split
  · next e => exact Hw.writesTo_asHw (c := .mapProg v a) rfl e.symm
  split
  · exact h.writesTo_busWrite ..
  split
  · next c place =>
    exact Hw.writesTo_asHw (c := .pssTakeWrite (Fin.ofNat 72 c) v a) rfl
      (at_placeOf (r := 0) page place (fun _ => by omega))
  · exact h.writesTo_checked v a ..

theorem Hw.writesTo_lpm (i : Nat) (page : k / 0x10000 = pgLPM) :
    h.WritesTo k a (h.channelWrite .lpm i k (k % 0x10000) v a) := by
  dsimp only [Hw.channelWrite]
  split
  · next p place =>
    exact Hw.writesTo_asHw (c := .profileWrite (Fin.ofNat 8 p) (Fin.ofNat 32 (k % 0x10000 % 0x80 / 4)) v a) rfl
      (at_wordOf page place al (by decide) (by decide))
  split
  · exact h.writesTo_checked v a ..
  · exact h.writesTo_checked v a ..

theorem Hw.writesTo_wgt (page : k / 0x10000 = pgWGT) : h.WritesTo k a (h.wgtWrite k (k % 0x10000) v a) := by
  dsimp only [Hw.wgtWrite]
  split
  · next e => exact Hw.writesTo_asHw (c := .wgtDeny v false a) rfl e.symm
  split
  · next e => exact Hw.writesTo_asHw (c := .holdMarkWrite none v a) rfl e.symm
  split
  · exact h.writesTo_checked v a ..
  split
  · exact h.writesTo_checked v a ..
  split
  · next m place =>
    exact Hw.writesTo_asHw (c := .holdMarkWrite (some (Fin.ofNat 32 m)) v a) rfl
      (at_placeOf (r := 0) page place (fun _ => by omega))
  split
  · exact h.writesTo_checked v a ..
  · exact h.writesTo_plain v a

theorem Hw.writesTo_cry (i : Nat) (page : k / 0x10000 = pgCRY) : h.WritesTo k a (h.cryptoWrite .cry i k (k % 0x10000) v a) := by
  dsimp only [Hw.cryptoWrite]
  split
  · exact h.writesTo_busWrite ..
  split
  · next q place =>
    split
    · next first =>
      exact Hw.writesTo_asHw (c := .jobSubmit (Fin.ofNat 16 q) v a) rfl
        (at_placeOf (r := 0) page place (fun _ => by omega))
    · exact h.writesTo_plain v a
  · exact h.writesTo_plain v a

theorem Hw.writesTo_vpt (page : k / 0x10000 = pgVPT) : h.WritesTo k a (h.vptWrite k (k % 0x10000) v a) := by
  dsimp only [Hw.vptWrite]
  split
  · next e =>
    subst e
    split
    · exact Hw.writesTo_asHw (c := .freeze v false [] a) rfl rfl
    · exact Hw.writesTo_asHw (c := .thaw v [] a) rfl rfl
    · exact Hw.writesTo_asHw (c := .save v a) rfl rfl
    · exact Hw.writesTo_asHw (c := .restore v a) rfl rfl
    · exact Hw.writesTo_asHw (c := .clearCounters v a) rfl rfl
    · exact h.writesTo_busWrite ..
  split
  · next w place => exact (at_place (r := 0) page place (fun _ => by omega)) ▸ h.writesTo_busWrite ..
  split
  · next n place =>
    split
    · next first =>
      exact Hw.writesTo_asHw (c := .txDoorbell (Fin.ofNat 1024 n) v a) rfl
        (at_placeOf (r := 0) page place (fun _ => by omega))
    · next second =>
      exact Hw.writesTo_asHw (c := .rxDoorbell (Fin.ofNat 1024 n) v [] a) rfl
        ((at_add ..).trans (at_placeOf (r := 4) page place (fun _ => by omega)))
  · exact h.writesTo_plain v a

theorem Hw.writesTo_eth {n : Nat} (page : k / 0x10000 = pgETH n) (lt : n < 36) :
    h.WritesTo k a (h.ethPageWrite n (k % 0x10000) v a) := by
  have register : at_ (pgETH n) (k % 0x10000) = k := at_offset page rfl
  have port : ((Fin.ofNat 36 n : Fin 36) : Nat) = n := Nat.mod_eq_of_lt lt
  dsimp only [Hw.ethPageWrite]
  rw [register]
  split
  · next o => exact Hw.writesTo_asHw (c := .ethCntClr (Fin.ofNat 36 n) v a) rfl (by rw [port]; exact at_offset page o)
  split
  · exact h.writesTo_busWrite ..
  split
  · next i place =>
    split
    · next first =>
      split at place
      · next zero =>
        subst zero
        exact Hw.writesTo_asHw (c := .ptpInstanceEnable (Fin.ofNat 4 i) v a) rfl
          (at_placeOf (r := 0) page place (fun _ => by omega))
      · cases place
    · exact h.writesTo_plain v a
  · rw [Hw.ethWrite, register]
    exact h.writesTo_busWrite ..

theorem Hw.writesTo_can {n : Nat} (page : k / 0x10000 = pgCAN n) (lt : n < 16) :
    h.WritesTo k a (h.canPageWrite n (k % 0x10000) v a) := by
  have register : at_ (pgCAN n) (k % 0x10000) = k := at_offset page rfl
  have controller : ((Fin.ofNat 16 n : Fin 16) : Nat) = n := Nat.mod_eq_of_lt lt
  dsimp only [Hw.canPageWrite]
  rw [register]
  split
  · next o => exact Hw.writesTo_asHw (c := .canRecov (Fin.ofNat 16 n) v a) rfl (by rw [controller]; exact at_offset page o)
  split
  · next o => exact Hw.writesTo_asHw (c := .canTxreq (Fin.ofNat 16 n) v a) rfl (by rw [controller]; exact at_offset page o)
  split
  · next o => exact Hw.writesTo_asHw (c := .canCntClr (Fin.ofNat 16 n) v a) rfl (by rw [controller]; exact at_offset page o)
  split
  · next x place =>
    exact Hw.writesTo_asHw (c := .canObjectWrite (Fin.ofNat 16 n) (Fin.ofNat 128 x) (Fin.ofNat 16 (k % 0x10000 % 0x40 / 4)) v a)
      rfl (by rw [controller]; exact at_wordOf page place al (by decide) (by decide))
  split
  · exact h.writesTo_busWrite ..
  split
  · exact h.writesTo_busWrite ..
  · exact h.writesTo_busWrite ..

end Aligned

/-- Every write of a register by a master is a write of that register: it passes its gates (R6, R7, R10). -/
theorem Hw.writesTo_writeAt (lt : k < 0x400_0000) (al : k % 4 = 0) : h.WritesTo k a (h.writeAt k v a) := by
  unfold Hw.writeAt
  dsimp only
  split
  · next none =>
    exact h.writesTo_access k a (fun g => by simp only [Hw.locked, rowAt, none]) id
  · next r row =>
    split
    · exact h.writesTo_header v a (by omega)
    have mem := List.mem_of_find?_eq_some row
    have bounds := List.find?_some row
    simp only [Bool.and_eq_true, decide_eq_true_eq] at bounds
    obtain ⟨least, most⟩ := bounds
    simp only [pageTable, List.mem_cons, List.not_mem_nil, or_false] at mem
    obtain rfl | rfl | rfl | rfl | rfl | rfl | rfl | rfl | rfl | rfl | rfl | rfl | rfl | rfl |
      rfl | rfl | rfl | rfl | rfl | rfl | rfl | rfl | rfl | rfl | rfl | rfl | rfl | rfl |
      rfl | rfl | rfl | rfl | rfl | rfl | rfl | rfl | rfl | rfl | rfl | rfl | rfl | rfl := mem
    · exact h.writesTo_sys v a
    · exact h.writesTo_pwr v a al (page_eq_first least most)
    · exact h.writesTo_sup v a
    · exact h.writesTo_evr v a al (page_eq_first least most)
    · exact h.writesTo_boot v a
    · exact h.writesTo_plain v a
    · exact h.writesTo_tcu v a al (page_eq_first least most)
    · exact h.writesTo_cue v a
    · exact h.writesTo_cea v a al (page_eq_first least most)
    · exact h.writesTo_plain v a
    · exact h.writesTo_imp v a
    · exact h.writesTo_pgm v a al (page_eq_first least most)
    · exact h.writesTo_frc v a al (page_eq_first least most)
    · exact h.writesTo_swc v a
    · exact h.writesTo_grn v a
    · exact h.writesTo_loft v a
    · exact h.writesTo_table v a
    · exact h.writesTo_table v a
    · exact h.writesTo_eth v a al (page_eq_add least) (index_lt least most)
    · exact h.writesTo_table v a
    · exact h.writesTo_can v a al (page_eq_add least) (index_lt least most)
    · exact h.writesTo_checked v a ..
    · exact h.writesTo_nmu v a al (page_eq_first least most)
    · exact h.writesTo_rio v a al (page_eq_first least most)
    · exact h.writesTo_tun v a (page_eq_first least most)
    · exact h.writesTo_spn v a al (page_eq_first least most)
    · exact h.writesTo_twn v a
    · exact h.writesTo_pss v a al (page_eq_first least most)
    · exact h.writesTo_pch v a (page_eq_add least) (index_lt least most)
    · exact h.writesTo_lpm v a al _ (page_eq_first least most)
    · exact h.writesTo_ain v a _
    · exact h.writesTo_rve v a _
    · exact h.writesTo_xlt v a _
    · exact h.writesTo_dma v a _
    · exact h.writesTo_memc v a _
    · exact h.writesTo_wgt v a al (page_eq_first least most)
    · exact h.writesTo_key v a
    · exact h.writesTo_cry v a al _ (page_eq_first least most)
    · exact h.writesTo_cvu v a (page_eq_add least) (index_lt least most)
    · exact h.writesTo_vpt v a al (page_eq_first least most)
    · exact h.writesTo_rel v a
    · exact h.writesTo_dbg v a al (page_eq_first least most)

end Blocks

/-! ### Every access of a register -/

/-- What a read of a register by a master does, as `Hw.regRead` has it for an aligned access of a whole register. -/
def Hw.readOf (h : Hw) (k : Nat) (a : Attr) : Hw :=
  if k = KEY_RNG then h.asHw (execKeyRngRead true a) else h.access k a (fun h => h.readAt k a)

theorem Hw.regRead_eq (h : Hw) (addr width : Nat) (a : Attr) :
    h.regRead addr width a = h.regAccess addr width a fun k h => h.readOf k a := rfl

/-- A read of a register by a master is an access of that register; one of `KEY_RNG` is a sensitive one (R603). -/
theorem Hw.readOf_access (h : Hw) (k : Nat) (a : Attr) : ∃ f, h.readOf k a = h.access k a f := by
  unfold Hw.readOf
  split
  · next e =>
    subst e
    dsimp only [Hw.asHw, execKeyRngRead, State.run, Hw.sensitiveRead]
    exact ⟨_, rfl⟩
  · exact ⟨_, rfl⟩

/-- Each of the three register accesses of register `k` is an access of that register. -/
theorem exec_access {s : State} {c : Instr} {k : Nat} {v : Word} {a : Attr} (lt : k < 0x400_0000) (al : k % 4 = 0)
    (which : c = .registerWrite (0xF000_0000 + k) 4 v a ∨ c = .lowerRegisterRead ⟨0xF000_0000 + k, 4⟩ a ∨
      c = .upperRegisterRead ⟨0xF000_0000 + k, 4⟩ a) : ∃ f, exec c s = .next (s.withHw (s.hw.access k a f)) := by
  obtain ⟨fr, read⟩ := s.hw.readOf_access k a
  obtain ⟨fw, write⟩ := s.hw.writesTo_writeAt v a lt al
  obtain rfl | rfl | rfl := which
  · rw [exec_registerWrite, Hw.regWrite, Hw.regAccess_aligned _ _ _ lt al, write]
    exact ⟨_, rfl⟩
  · exact ⟨fr, State.next_congr ((Hw.regAccess_aligned _ _ _ lt al).trans read)⟩
  · exact ⟨fr, State.next_congr ((Hw.regAccess_aligned _ _ _ lt al).trans read)⟩

/-- The dead JTAG lands carry no access, whatever its width (R716). -/
theorem Hw.regAccess_shut {h : Hw} {addr width k : Nat} {a : Attr} {f : Nat → Hw → Hw} (at_k : regAt addr = some k)
    (shut : h.jtagShut a = true) (aligned : addr % 4 = 0 → f k h = h) : h.regAccess addr width a f = h := by
  simp only [Hw.regAccess, at_k, shut, if_true]
  split
  · next whole => exact aligned whole.2
  · rfl

/-- A module address of the register pages names the register at its offset. -/
theorem regAt_some {addr k : Nat} (at_k : regAt addr = some k) : addr = 0xF000_0000 + k ∧ k < 0x400_0000 := by
  unfold regAt at at_k
  split at at_k
  · rw [Option.some.injEq] at at_k
    omega
  · cases at_k

/-- Settles O38: a command that writes one register is a write of that register (`exec_writesTo`), and so meets its gates. -/
theorem closedGatesStopEveryRegisterCommand : Obligations.ClosedGatesStopEveryRegisterCommand := by
  refine ⟨?deadLands, ?noPage, ?noPower, ?wrongWorld⟩
  case deadLands =>
    intro s c k a q shut
    obtain ⟨_, ⟨f, rfl⟩, run⟩ := exec_writesTo s q
    exact run.trans (State.next_congr (Hw.access_shut _ shut))
  case noPage =>
    intro s c k a q jtag noPage
    obtain ⟨_, ⟨f, rfl⟩, run⟩ := exec_writesTo s q
    exact run.trans (State.next_congr (Hw.access_noPage _ jtag noPage))
  case noPower =>
    intro s c k a q jtag page off
    obtain ⟨_, ⟨f, rfl⟩, run⟩ := exec_writesTo s q
    exact run.trans (State.next_congr (Hw.access_noPower _ jtag page off))
  case wrongWorld =>
    intro s c k a q jtag page live shut
    obtain ⟨_, ⟨f, rfl⟩, run⟩ := exec_writesTo s q
    exact run.trans (State.next_congr (Hw.access_wrongWorld _ jtag page live shut))

/-- Settles O39: the three register accesses are accesses of their register (`exec_access`), and a write is a write of it. -/
theorem closedGatesStopEveryRegisterAccess : Obligations.ClosedGatesStopEveryRegisterAccess := by
  refine ⟨?deadLands, ?noPage, ?noPower, ?wrongWorld, ?locked⟩
  case deadLands =>
    intro s addr width k v a c at_k which shut
    obtain ⟨rfl, lt⟩ := regAt_some at_k
    obtain ⟨fr, read⟩ := s.hw.readOf_access k a
    obtain rfl | rfl | rfl := which
    · refine State.next_congr (Hw.regAccess_shut at_k shut fun al => ?_)
      obtain ⟨f, write⟩ := s.hw.writesTo_writeAt v a lt (by omega)
      exact write.trans (Hw.access_shut _ shut)
    · exact State.next_congr (Hw.regAccess_shut at_k shut fun _ => read.trans (Hw.access_shut _ shut))
    · exact State.next_congr (Hw.regAccess_shut at_k shut fun _ => read.trans (Hw.access_shut _ shut))
  case noPage =>
    intro s k v a c lt al which jtag noPage
    obtain ⟨f, run⟩ := exec_access lt al which
    exact run.trans (State.next_congr (Hw.access_noPage _ jtag noPage))
  case noPower =>
    intro s k v a c lt al which jtag page off
    obtain ⟨f, run⟩ := exec_access lt al which
    exact run.trans (State.next_congr (Hw.access_noPower _ jtag page off))
  case wrongWorld =>
    intro s k v a c lt al which jtag page live shut
    obtain ⟨f, run⟩ := exec_access lt al which
    exact run.trans (State.next_congr (Hw.access_wrongWorld _ jtag page live shut))
  case locked =>
    intro s k v a lt al opens locked
    obtain ⟨f, write⟩ := s.hw.writesTo_writeAt v a lt al
    rw [exec_registerWrite, Hw.regWrite, Hw.regAccess_aligned _ _ _ lt al, write]
    exact State.next_congr (Hw.busWrite_locked f opens locked)

end Sys2Proof.Machine

/-! # The network-management family

The commands of the network-management unit: what enabling a channel, an NM frame, a wake and the expiry of a
channel's times leave on the branch that their conditions name, and the statement on the commands. -/

namespace Sys2Proof.Machine

/-! ## Channels -/

/-- A sound word 0 that enables a channel brings it to READY (R447). -/
theorem execNmChannelEnable_readies {s : State} {c : Fin 24} {v : Word} {a : Attr} {g : Hw}
    (takes : s.hw.takes (NMU_CH c 0) a = true) (e_g : g = (s.hw.answer 0).storeReg (NMU_CH c 0) v.toNat)
    (clustered : fld v.toNat 15 8 ≠ 0) (partialOk : fld v.toNat 30 30 = 1 → c.val ≤ 11)
    (objectOk : fld v.toNat 31 31 = 1 → nmOnCan c = true → (s.hw.answer 0).nmObjOk c = true)
    (was : (s.hw.answer 0).bit (NMU_CH c 0) 31 = false) (enables : g.bit (NMU_CH c 0) 31 = true) :
    exec (.nmChannelEnable c v a) s = .next (s.withHw (g.nmEnter c nmReady)) := by
  subst e_g
  have sound : ¬ ((fld v.toNat 30 30 = 1 ∧ 11 < c.val) ∨
      (fld v.toNat 31 31 = 1 ∧ nmOnCan c ∧ !(s.hw.answer 0).nmObjOk c)) := by
    rintro (⟨isPartial, above⟩ | ⟨named, onCan, bad⟩)
    · exact absurd (partialOk isPartial) (Nat.not_le.mpr above)
    · simp [objectOk named onCan] at bad
  show execNmChannelEnable c v a s = _
  rw [execNmChannelEnable, State.run_busWrite_takes takes, if_neg clustered, if_neg sound]
  simp only [was, enables, Bool.false_and, Hw.raiseIf, Bool.not_false, Bool.and_self, if_true, Bool.false_eq_true, if_false]

/-- An NM frame that its channel reads credits its source and moves the channel on (R450, R451, R452). -/
theorem execNmFrameRx_credits {s : State} {c : Fin 24} {data : List Byte} {cbv w : Nat} {k g : Hw}
    (e_w : w = s.hw.rd (NMU_CH c 1)) (e_k : k = s.hw.kaCredit c (data.getD (fld w 22 20) 0).toNat cbv)
    (e_g : g = k.nmRestart c (s.hw.pnRequest c data)) (e_cbv : cbv = (data.getD (fld w 18 16) 0).toNat)
    (on : s.hw.pdOn 17 = true) (reads : s.hw.nmState c ≠ nmOff ∧ s.hw.nmState c ≠ nmSleep ∧ s.hw.nmState c ≠ nmPartial)
    (whole : max (max (fld w 22 20 + 1) (fld w 18 16 + 1)) (if fld w 10 8 = 0 then 0 else fld w 14 12 + fld w 10 8) ≤
      data.length) :
    exec (.nmFrameRx c data) s = .next (s.withHw (if s.hw.nmState c = nmCommit then g.nmWake 9 [c.val] c
      else if fld cbv 0 0 = 1 ∧ (s.hw.nmState c = nmAwake ∨ s.hw.nmState c = nmReady ∨ s.hw.nmState c = nmPrepare)
        then g.nmEnter c nmRepeat
      else if s.hw.nmState c = nmPrepare then g.nmEnter c nmReady else g)) := by
  subst e_cbv e_g e_k e_w
  obtain ⟨notOff, notSleep, notPartial⟩ := reads
  exact State.next_congr (if_neg (by simpa [on, notOff, notSleep, notPartial] using whole))

/-- A due NM frame of a channel in REPEAT or AWAKE is handed on: to its CAN object, or as an Ethernet frame (R455). -/
theorem execNmFrameSend_hands {s : State} {c : Fin 24} {g : Hw}
    (e_g : g = s.hw.setNmCh c { s.hw.nmCh c with due := false, nmAt := s.hw.now }) (due : (s.hw.nmCh c).due = true)
    (on : s.hw.pdOn 17 = true) (sends : s.hw.nmState c = nmRepeat ∨ s.hw.nmState c = nmAwake) :
    exec (.nmFrameSend c) s = .next (s.withHw (if nmOnCan c
      then g.canUpdate c (g.get (NMU_CH c 1) 6 0) true 8 (s.hw.nmData c)
      else g.hand 38 (padFrame (etherHead (2 ^ 32 * g.get NMU_DEST_HI 15 0 + g.rd NMU_DEST_LO)
        (2 ^ 32 * g.get RIO_MAC_HI 15 0 + g.rd RIO_MAC_LO) (some (6, g.get (NMU_CH c 2) 11 0)) (g.get NMU_ETYPE 15 0) ++
          s.hw.nmData c)))) := by
  subst e_g
  refine State.next_congr (if_neg ?_)
  obtain state | state := sends <;> simp [due, on, state]

/-! ## Sleep and wake -/

/-- A wake sequence of a sleeping channel whose domains are on wakes its LIN channels and links and enters REPEAT (R459). -/
theorem execWakeSequence_wakes {s : State} {c : Fin 24} {code : Nat} {ls : List Nat} {g x y : Hw}
    (e_ls : ls = (List.range 8).filter (fun l => s.hw.bit (NMU_CH c 0) l))
    (e_g : g = { s.hw with nmu := { s.hw.nmu with linAsleep := s.hw.nmu.linAsleep.filter (fun l => !ls.contains l) } })
    (e_y : y = (ls.filter g.linCommander).foldl (fun (h : Hw) l => h.calls (64 + l) 1) g)
    (e_x : x = each 24 (fun i (h : Hw) =>
      if h.bit (NMU_CH c 7) i && h.get (ETH_TC10 (i + 4)) 2 0 == 2 then h.wakeLink (i + 4) else h) y)
    (waking : (s.hw.nmCh c).waking = some code) (asleep : s.hw.nmState c = nmSleep)
    (powered : (s.hw.nmDomains c).all s.hw.pdOn = true) :
    exec (.wakeSequence c) s = .next (s.withHw
      ((x.setNmCh c { x.nmCh c with active := decide (6 ≤ code ∧ code ≤ 8) }).nmEnter c nmRepeat)) := by
  subst e_x e_y e_g e_ls
  show execWakeSequence c s = _
  rw [execWakeSequence, State.run]
  simp only [waking]
  exact State.next_congr (if_neg (by simp [asleep, powered]))

/-- A classical frame counts down the errors of a sleeping channel's filter, and wakes it where it matches (R458). -/
theorem execSelectiveWakeFrame_filters {s : State} {n : Fin 12} {f : CanFrame} {g : Hw}
    (e_g : g = { s.hw with nmu := { s.hw.nmu with swfErr := s.hw.nmu.swfErr.set n (s.hw.nmu.swfErr.get n - 1) } })
    (filtered : s.hw.bit (NMU_SWF n 0) 31 = true) (asleep : s.hw.nmState n = nmSleep ∨ s.hw.nmState n = nmPartial)
    (classical : f.fmt = 0) :
    exec (.selectiveWakeFrame n (some f)) s = .next (s.withHw (if g.swfMatch n f then g.nmWake 2 [n.val] n else g)) := by
  subst e_g
  have watches : ¬ ((!s.hw.bit (NMU_SWF n 0) 31 || (s.hw.nmState n != nmSleep && s.hw.nmState n != nmPartial)) = true) := by
    obtain state | state := asleep <;> simp [filtered, state]
  have good : ¬ ((f.fmt != 0) = true) := by simp [classical]
  exact State.next_congr ((if_neg watches).trans ((if_neg (by simp [classical])).trans (if_neg good)))

/-- An attempt to sleep that has lasted to its limit is reported once, with its longest sources first (R463). -/
theorem execKeepAwake_reports {s : State} {c : Fin 24} {t : Attempt} {top : List KaSource} {g r x : Hw}
    (e_g : g = s.hw.setNmCh c { s.hw.nmCh c with attempt := some { t with reported := true } })
    (e_r : r = g.wr (NMU_KA_REP 0) (2 ^ 31 + c.val * 2 ^ 24 + min 255 t.sources.length * 2 ^ 16 +
      (g.get (NMU_KA_REP 0) 15 0 + 1) % 0x1_0000))
    (e_x : x = ((r.wr (NMU_KA_REP 1) t.start).wr (NMU_KA_REP 2) (min 0xFFFF_FFFF (t.other / 1_200_000))).wr (NMU_KA_REP 3) 0)
    (e_top : top = ((t.sources.filter (fun z => !z.beyond)).foldl (fun l z => kaInsert z l) []).take 8)
    (trying : (s.hw.nmCh c).attempt = some t) (unreported : t.reported = false)
    (passed : s.hw.msSince t.at_ (1000 * s.hw.get NMU_KA_LIMIT 15 0) = true) :
    exec (.keepAwake c) s = .next (s.withHw ((each 8 (fun k (h : Hw) =>
      match top[k]? with
      | some z => (h.wr (NMU_KA_REP (4 + 2 * k)) (z.src * 2 ^ 24 + z.cbv * 2 ^ 16 + z.frames)).wr (NMU_KA_REP (5 + 2 * k))
          (min 0xFFFF_FFFF (z.credit / 1_200_000))
      | none => (h.wr (NMU_KA_REP (4 + 2 * k)) 0).wr (NMU_KA_REP (5 + 2 * k)) 0) x).raise pgNMU 4)) := by
  subst e_top e_x e_r e_g
  show execKeepAwake c s = _
  rw [execKeepAwake, State.run]
  simp only [trying]
  exact State.next_congr (if_neg (by simp [unreported, passed]))

/-! ## The statement -/

/-- Settles O14: each command of the network-management unit on the branch that its conditions name; an enabled channel by
`execNmChannelEnable_readies`, a frame by `execNmFrameRx_credits`, a wake by `execWakeSequence_wakes`. -/
theorem networkManagementCommandsComplete : Obligations.NetworkManagementCommandsComplete := by
  refine ⟨?nmChannelEnable, ?nmuVoteWrite, ?nmFrameRx, ?nmFrameSend, ?repeatTimeExpiry, ?nmTimeout, ?pnTimeout,
    ?waitSleepExpiry, ?commitWindowEnd, ?wake, ?wakeSequence, ?wakeInput, ?selectiveWakeFrame, ?keepAwake⟩
  case nmChannelEnable =>
    rintro s _ c v g a takes rfl e_g clustered partialOk objectOk was enables
    exact execNmChannelEnable_readies takes e_g clustered partialOk objectOk was enables
  case nmuVoteWrite =>
    rintro s _ v a takes rfl
    refine (State.run_busWrite_takes takes).trans (State.next_congr ?_)
    simp only [beq_iff_eq]
  case nmFrameRx =>
    rintro s _ c data cbv w k g rfl e_w e_k e_g e_cbv on reads whole
    exact execNmFrameRx_credits e_w e_k e_g e_cbv on reads whole
  case nmFrameSend =>
    rintro s _ c g rfl e_g due on sends
    exact execNmFrameSend_hands e_g due on sends
  case repeatTimeExpiry =>
    rintro s _ c rfl repeats passed
    exact State.next_congr (if_pos ⟨repeats, passed⟩)
  case nmTimeout =>
    rintro s _ c rfl ready passed
    exact State.next_congr (if_pos ⟨ready, passed⟩)
  case pnTimeout =>
    rintro s _ c rfl ready clustered unvoted passed
    exact State.next_congr (if_pos ⟨ready, clustered, by simp [unvoted], passed⟩)
  case waitSleepExpiry =>
    rintro s _ c rfl prepares passed
    exact State.next_congr (if_pos ⟨prepares, passed⟩)
  case commitWindowEnd =>
    rintro s _ c _ _ _ _ rfl rfl rfl rfl rfl commits passed
    exact State.next_congr (if_neg (by simp [commits, passed]))
  case wake =>
    rintro s _ unit rfl lt
    exact State.next_congr (if_neg (Nat.not_le.mpr lt))
  case wakeSequence =>
    rintro s _ c code ls g y x rfl e_ls e_g e_y e_x waking asleep powered
    exact execWakeSequence_wakes e_ls e_g e_y e_x waking asleep powered
  case wakeInput => rintro s _ n rfl; rfl
  case selectiveWakeFrame =>
    rintro s _ n f g rfl e_g filtered asleep classical
    exact execSelectiveWakeFrame_filters e_g filtered asleep classical
  case keepAwake =>
    rintro s _ c t top g r x rfl e_g e_r e_x e_top trying unreported passed
    exact execKeepAwake_reports e_g e_r e_x e_top trying unreported passed

end Sys2Proof.Machine

/-! # The Span bridge and DMA family

The commands of the Span bridge and of the DMA controllers: what a link that trains, an outbound access, a completion,
a start and a finished descriptor leave on the branch that their conditions name, and the statements on the commands.
-/

namespace Sys2Proof.Machine

/-! ## The Span link -/

/-- An accepted `SPN_CFG` is stored, and without `LINK_EN` no link stays up (R467, R486). -/
theorem Hw.spanCfgWrite_accepts {h : Hw} {v : Nat} {a : Attr} (accepted : h.spanCfgRefuses v = none) :
    h.spanCfgWrite v a = if (h.storeReg SPN_CFG v).bit SPN_CFG 31 then h.storeReg SPN_CFG v
      else (h.storeReg SPN_CFG v).spanDown := by
  simp only [Hw.spanCfgWrite, accepted]

section Outbound

variable {h : Hw} {addr o n w tag : Nat} {data : Option (List Byte)} {a : Attr} {credit : Bool}

/-- An outbound access that the region gate lets in goes to a bridge that has power and a clock (R469). -/
theorem execOutboundAccess_reaches {s : State} {o : BitVec 32} {n : Fin 65} {tag : Fin 64}
    (inside : s.hw.regionOk (0x01_0000_0000 + o.toNat) data.isSome a = true) (live : s.hw.live pgSPN = true) :
    exec (.outboundAccess o n data credit tag a) s =
      .next (s.withHw (s.hw.outbound (0x01_0000_0000 + o.toNat) o.toNat n data a credit tag)) :=
  State.next_congr ((if_neg (by simp [inside])).trans (if_neg (by simp [live])))

/-- A speculative access to a window without `SPEC_OK` is answered with an error and captured (R470). -/
theorem Hw.outbound_speculative (window : h.owOf o = some w) (speculative : a.spec = true)
    (forbidden : h.bit (SPN_OW w 0) 29 = false) :
    h.outbound addr o n data a credit tag =
      (h.capture pgSPN 0x0004 addr a).spanAnswer { addr := addr, attr := a, len := n } true [] := by
  simp only [Hw.outbound, window, speculative, forbidden, Bool.not_false, Bool.and_self, if_true]

end Outbound

section Completions

variable {s : State} {x : SpanOpen} {credit : Bool}

/-- A completion in time ends the open request of its tag and answers it by its status (R473, R474). -/
theorem execCompletionRx_ends {tag : Fin 256} {c : SpanCpl} {g : Hw}
    (e_g : g = ({ s.hw with span := { s.hw.span with open_ := s.hw.span.open_.erase x } } : Hw).spanSync)
    (opened : s.hw.span.open_.find? (fun x => x.tag == tag.val) = some x) (inTime : s.hw.cplLate x = false) :
    exec (.completionRx tag c credit) s = .next (s.withHw (Hw.spanPump (match c with
      | .success d => g.spanAnswer x.user false (slice d 0 x.user.len)
      | .unsupported => g.spanFails x 0x0110
      | .abort => g.spanFails x 0x0111
      | .poisoned => (g.spanFails x 0x0114).spanReport) credit x.tag)) := by
  subst e_g
  show execCompletionRx tag c credit s = _
  rw [execCompletionRx, State.run]
  simp only [opened, inTime, Bool.false_eq_true, if_false] <;> cases c <;> rfl

/-- A request whose time for completion is over ends without one (R475). -/
theorem execCompletionTimeout_ends {tag : Fin 64} (opened : s.hw.span.open_.find? (fun x => x.tag == tag.val) = some x)
    (late : s.hw.cplLate x = true) :
    exec (.completionTimeout tag credit) s = .next (s.withHw
      (((({ s.hw with span := { s.hw.span with open_ := s.hw.span.open_.erase x } } : Hw).spanSync).cplTimeout x).spanPump
        credit x.tag)) := by
  show execCompletionTimeout tag credit s = _
  rw [execCompletionTimeout, State.run]
  simp only [opened, late, if_true]

end Completions

/-- Settles O15: each command of the Span bridge on the branch that its conditions name; a completion by
`execCompletionRx_ends`, an outbound access by `execOutboundAccess_reaches`. -/
theorem spanCommandsComplete : Obligations.SpanCommandsComplete := by
  refine ⟨?spanLinkEnable, ?spanLinkUp, ?outboundAccess, ?spnFlush, ?completionRx, ?completionTimeout, ?inboundRequest,
    ?spanLinkDown, ?flr, ?vfChange, ?msixSend, ?spnElogRdWrite, ?spanPerstNChange⟩
  case spanLinkEnable =>
    rintro s _ v _ a takes rfl rfl accepted
    exact (State.run_busWrite_takes takes).trans (State.next_congr (Hw.spanCfgWrite_accepts accepted))
  case spanLinkUp =>
    rintro s _ speed lanes _ rfl rfl trains down speedOk lanesOk
    exact State.next_congr (if_neg (by simp [trains, down, Nat.not_lt.mpr speedOk, lanesOk]))
  case outboundAccess =>
    rintro s _ o n data credit tag a w rfl inside live _ _ _
    exact execOutboundAccess_reaches inside live
  case spnFlush =>
    rintro s _ w credit tag a takes rfl enabled _ _ _
    exact (State.run_busWrite_takes takes).trans (State.next_congr (if_pos enabled))
  case completionRx =>
    rintro s _ tag c credit x g rfl e_g opened inTime
    exact execCompletionRx_ends e_g opened inTime
  case completionTimeout =>
    rintro s _ tag credit x rfl opened late
    exact execCompletionTimeout_ends opened late
  case inboundRequest =>
    rintro s _ q base rid tag rfl up
    refine State.next_congr ((if_neg (by simp [up])).trans ?_)
    cases q <;> rfl
  case spanLinkDown => rintro s _ rfl _; rfl
  case flr =>
    rintro s _ v rfl live endpoint enabled present
    exact State.next_congr (if_pos (by simp [live, endpoint, enabled, present]))
  case vfChange =>
    rintro s _ en num _ rfl rfl live endpoint
    exact State.next_congr (if_neg (by simp [live, endpoint]))
  case msixSend =>
    rintro s _ v _ rfl rfl live endpoint enabled sees normal
    exact State.next_congr (if_pos (by simp only [live, endpoint, enabled, sees, normal]; decide))
  case spnElogRdWrite => rintro s _ v a takes rfl; exact State.run_busWrite_takes takes
  case spanPerstNChange => rintro s _ level _ rfl rfl; rfl

/-- Settles O48: the access reaches the bridge (`execOutboundAccess_reaches`), which refuses it (`Hw.outbound_speculative`). -/
theorem speculativeAccessStopsAtTheBridge : Obligations.SpeculativeAccessStopsAtTheBridge := by
  rintro s _ o n data credit tag a w _ rfl rfl inside live window speculative forbidden
  exact (execOutboundAccess_reaches inside live).trans
    (State.next_congr (Hw.outbound_speculative window speculative forbidden))

/-! ## DMA channels -/

/-- A trigger of a channel that is neither active nor parked starts it (R515). -/
theorem Hw.dmaTrigger_starts {h : Hw} {d c : Nat} (idle : ¬ (h.dmaState d c = 1 ∨ h.dmaState d c = 2)) :
    h.dmaTrigger d c = h.dmaStart d c := if_neg idle

/-- A descriptor all of whose bytes are moved is written back, and the channel ends or goes on to the next one (R517). -/
theorem execDescriptorDone_next {s : State} {d : Fin 4} {c : Fin 32} {w : DmaSeen} {ws : List Nat} {r : Option Nat × Hw}
    (e_r : r = s.hw.dmaWrite d c (s.hw.dmaCur d c) (leBytes 4 (setBit (ws.getD 0 0) 31 true)) w.fin)
    (fetched : (s.hw.dma d c).desc = some ws) (sound : (s.hw.dma d c).fault = none) (on : s.hw.dmaOn d = true)
    (active : s.hw.dmaState d c = 1) (moved : s.hw.rd (DMA_DONE d c) = descLen ws) (written : r.1 = none) :
    exec (.descriptorDone d c w) s = .next (s.withHw (r.2.dmaNext d c ws)) := by
  obtain ⟨_, g⟩ := r
  subst written
  show execDescriptorDone d c w s = _
  rw [execDescriptorDone, State.run]
  simp only [fetched, sound]
  exact State.next_congr ((if_neg (by simp [on, active, moved])).trans (by simp only [← e_r]))

/-- A channel whose earlier bursts have completed parks with its fault shown (R521). -/
theorem execDmaPark_parks {s : State} {d : Fin 4} {c : Fin 32} {f : DmaFault} (faulty : (s.hw.dma d c).fault = some f)
    (active : s.hw.dmaState d c = 1) (settled : (s.hw.dma d c).settled = true) :
    exec (.dmaPark d c) s = .next (s.withHw
      ((((s.hw.wrPair (DMA_FADDR_LO d c) (DMA_FADDR_HI d c) f.addr).wr (DMA_UNDEL d c) 0).dmaEnter d c 2 f.cause f.side).raise
        (pgDMA d) c)) := by
  show execDmaPark d c s = _
  rw [execDmaPark, State.run]
  simp only [faulty]
  exact State.next_congr (if_pos (by simp [active, settled]))

/-- Settles O17: each command of the DMA on the branch that its conditions name; a start by `Hw.dmaTrigger_starts`, a
finished descriptor by `execDescriptorDone_next`. -/
theorem dmaCommandsComplete : Obligations.DmaCommandsComplete := by
  refine ⟨?dmaGo, ?dmaTrig, ?dmaEventTrigger, ?burstGrant, ?descriptorDone, ?dmaPark, ?dmaResume, ?dmaAbort⟩
  case dmaGo =>
    rintro s _ d c a takes rfl enabled software idle
    exact (State.run_busWrite_takes takes).trans (State.next_congr ((if_neg (by simp [enabled])).trans
      ((if_pos software).trans (Hw.dmaTrigger_starts (by omega)))))
  case dmaTrig =>
    rintro s _ _ _ c v acts rfl rfl rfl on byCue notActive notParked
    exact (State.run_fireCue_acts acts).trans (State.next_congr ((if_pos (by simp only [on, byCue]; decide)).trans
      (Hw.dmaTrigger_starts (by omega))))
  case dmaEventTrigger =>
    rintro s _ e _ rfl rfl sees
    exact State.next_congr (if_pos sees)
  case burstGrant =>
    rintro s _ d rds w c ripe rfl on picked
    show execBurstGrant d rds w s = _
    rw [execBurstGrant, State.run, if_neg (by simp [on])]
    simp only [picked]
  case descriptorDone =>
    rintro s _ d c w ws r rfl e_r fetched sound on active moved written
    exact execDescriptorDone_next e_r fetched sound on active moved written
  case dmaPark =>
    rintro s _ d c f rfl faulty active settled
    exact execDmaPark_parks faulty active settled
  case dmaResume =>
    rintro s _ d c a takes rfl parked
    exact (State.run_busWrite_takes takes).trans (State.next_congr (if_pos parked))
  case dmaAbort =>
    rintro s _ d c a takes rfl running
    exact (State.run_busWrite_takes takes).trans (State.next_congr (if_pos running))

/-- Settles O49: no channel asks for a burst of a descriptor of length 0, and none is left to move before it completes
(`execDescriptorDone_next`). -/
theorem emptyDescriptorCompletes : Obligations.EmptyDescriptorCompletes := by
  refine ⟨?noAccess, ?completes⟩
  case noAccess =>
    rintro h d c ws fetched sound empty
    simp only [Hw.dmaReady, fetched, sound, empty, Nat.not_lt_zero, decide_false, Bool.and_false]
  case completes =>
    rintro s _ d c w ws r _ rfl e_r rfl fetched sound on active unmoved empty written
    exact execDescriptorDone_next e_r fetched sound on active (unmoved.trans empty.symm) written

end Sys2Proof.Machine

/-! # The virtual ports and worlds family

The commands of the virtual ports and of the world gate: what a doorbell, a frame, an entry word, a command of
`VPT_CMD`, a held request and a change of world leave on the branch that their conditions name, and the statements on
the commands. -/

namespace Sys2Proof.Machine

/-! ## Doorbells and frames of virtual ports -/

section Doorbells

variable {h : Hw} {n v : Nat} {far : List (Nat × Byte)}

/-- A transmit doorbell within the ring moves the tail (R536). -/
theorem Hw.vpDoorbell_tx (within : (v % 0x1_0000 + 0x1_0000 - h.get (VPT_TXDB n) 31 16) % 0x1_0000 ≤
    (if h.vpRing n = 0 then 0 else 2 ^ h.vpRing n)) : h.vpDoorbell n true v far = h.put (VPT_TXDB n) 15 0 v :=
  if_neg (Nat.not_lt.mpr within)

/-- A receive doorbell within the ring moves the tail, and frames that waited for buffers go into the ring (R536, R540). -/
theorem Hw.vpDoorbell_rx {g : Hw} (e_g : g = h.put (VPT_RXDB n) 15 0 v)
    (within : (v % 0x1_0000 + 0x1_0000 - h.get (VPT_RXDB n) 31 16) % 0x1_0000 ≤
      (if h.vpRing n = 0 then 0 else 2 ^ h.vpRing n)) :
    h.vpDoorbell n false v far = if g.vptOn then g.vpDrain n far (g.vp n).held.length else g := by
  subst e_g
  rw [Hw.vpDoorbell]
  simp only [Bool.false_eq_true, if_false, if_neg (Nat.not_lt.mpr within), Bool.false_or]
  cases ((h.put (VPT_RXDB n) 15 0 v).vptOn) <;> rfl

end Doorbells

/-- A waiting frame goes out once its bucket holds its length, and not before (R541). -/
theorem execTxBucketHoldsLength_waits {s : State} {n : Fin 1024} {far : List (Nat × Byte)} {w : TxWait}
    (waits : (s.hw.vp n).wait = some w) :
    exec (.txBucketHoldsLength n far) s = .next (s.withHw
      (if s.hw.vptOn && s.hw.vpHolds n 10 (w.bytes.length + 4) then s.hw.vpHandOn n w far else s.hw)) := by
  show execTxBucketHoldsLength n far s = _
  rw [execTxBucketHoldsLength, State.run]
  simp only [waits]

/-- A written entry word that starts its port (R534, R545). -/
theorem Hw.entryWrite_starts {h g : Hw} {n x v : Nat} {a : Attr} (e_n : n = h.get VPT_SEL 9 0) (e_x : x = v &&& vpWordMask 0)
    (e_g : g = { h with vpt := { h.vpt with words := h.vpt.words.set (16 * n) x } }) (sound : h.vpRefuses n 0 x = none)
    (off : (h.vp n).state = 0) (on : fld x 31 31 = 1 ∧ fld x 19 16 ≠ 0) :
    h.vpWrite_ 0 v a = g.setVp n { h.vp n with
      state := 1, cause := 0, side := 0, share := fld (g.vpWord n 12) 31 16,
      txTok := ((fld (g.vpWord n 10) 15 0 * 1024 * 9600 : Nat) : Int),
      rxTok := ((fld (g.vpWord n 11) 15 0 * 1024 * 9600 : Nat) : Int), tokAt := h.now } := by
  subst e_n e_x e_g
  have notRate : ¬ (0 = 10 ∨ 0 = 11) := by decide
  simp only [Hw.vpWrite_, sound, if_neg notRate, if_neg (fun q : 0 = 10 ∧ _ => absurd q.1 (by decide))]
  exact (if_pos trivial).trans ((if_pos off).trans (if_pos on))

/-- A written ring base of a port that is not off lets both rings start anew (R546). -/
theorem Hw.entryWrite_resizes {h : Hw} {n w x v : Nat} {a : Attr} (e_n : n = h.get VPT_SEL 9 0) (e_x : x = v &&& vpWordMask w)
    (base : 2 ≤ w ∧ w ≤ 5) (sound : h.vpRefuses n w x = none) (present : (h.vp n).state ≠ 0) :
    h.vpWrite_ w v a = ({ h with vpt := { h.vpt with words := h.vpt.words.set (16 * n + w) x } } : Hw).vpRingsZero n := by
  subst e_n e_x
  obtain ⟨lower, upper⟩ := base
  have notRate : ¬ (w = 10 ∨ w = 11) := by omega
  have notTx : ¬ (w = 10 ∧ (h.vp (h.get VPT_SEL 9 0)).wait.isSome = true) := by omega
  have notFirst : w ≠ 0 := by omega
  simp only [Hw.vpWrite_, sound, if_neg notRate, if_neg notTx, if_neg notFirst]
  exact if_pos ⟨lower, upper, present⟩

/-- A port that is leaving returns to off once its waiting frame, if it has one, is handed on (R545). -/
theorem execPortRemoved_leaves {s : State} {n : Fin 1024} {far : List (Nat × Byte)} {g x : Hw}
    (e_g : g = (match (s.hw.vp n).wait with | some w => s.hw.vpHandOn n w far | none => s.hw).vpDiscard n)
    (e_x : x = if (g.vp n).irq then g.vpNotify n else g) (leaving : (s.hw.vp n).leaving = true) :
    exec (.portRemoved n far) s = .next (s.withHw ((x.setVp n { x.vp n with
      state := 0, cause := 0, side := 0, leaving := false, oldRing := none, oldTx := none, share := 0, peak := 0,
      wait := none }).vpEvent n 4)) := by
  subst e_x e_g
  exact State.next_congr ((if_neg (by simp [leaving])).trans rfl)

/-! ## Commands of `VPT_CMD` -/

section VpCommands

variable {h g x : Hw} {s : State} {n : Nat} {v : Word} {a : Attr} {far : List (Nat × Byte)}

/-- An accepted command shows the result of its work in `RESULT` (R547). -/
theorem Hw.vpCommand_ends {op code : Nat} {f : Nat → Hw → Nat × Hw} (takes : h.takes VPT_CMD a = true)
    (e_n : n = fld v.toNat 9 0) (e_g : g = (h.answer 0).wr VPT_CMD (op * 2 ^ 28 + n)) (idle : h.bit VPT_CMD 27 = false)
    (work : f n g = (code, x)) : h.vpCommand op v a f = x.put VPT_CMD 26 24 code := by
  subst e_n
  rw [Hw.vpCommand_runs h op v a f g takes e_g idle, work]

/-- FREEZE of a running port: the frame at hand goes out first (R548, R550). -/
theorem execFreeze_freezes {gathering : Bool} (takes : s.hw.takes VPT_CMD a = true) (e_n : n = fld v.toNat 9 0)
    (e_g : g = (s.hw.answer 0).wr VPT_CMD (1 * 2 ^ 28 + n)) (idle : s.hw.bit VPT_CMD 27 = false)
    (e_x : x = match (g.vp n).wait with
      | some w => g.vpHandOn n w far
      | none => if gathering then g.vpGather n far true else g)
    (runs : (g.vp n).state = 1) (stays : (g.vp n).leaving = false) (still : (x.vp n).state = 1) :
    exec (.freeze v gathering far a) s = .next (s.withHw
      (((x.setVp n { x.vp n with state := 2, cause := 0 }).vpEvent n 0).put VPT_CMD 26 24 0)) := by
  subst e_x
  refine State.next_congr (Hw.vpCommand_ends takes e_n e_g idle ?_)
  exact (if_neg (by simp [runs, stays])).trans (if_neg (fun changed => changed still))

/-- SAVE of a frozen port whose block goes into memory (R551). -/
theorem execSave_saves {r : Bool × Hw} (takes : s.hw.takes VPT_CMD a = true) (e_n : n = fld v.toNat 9 0)
    (e_g : g = (s.hw.answer 0).wr VPT_CMD (3 * 2 ^ 28 + n)) (idle : s.hw.bit VPT_CMD 27 = false)
    (e_r : r = g.memWrite g.vpBlockAddr (g.vpBlock n) (vpBlockAttr a)) (frozen : (g.vp n).state = 2) (written : r.1 = true) :
    exec (.save v a) s = .next (s.withHw ((r.2.vpEvent n 2).put VPT_CMD 26 24 0)) := by
  obtain ⟨_, x⟩ := r
  subst written
  refine State.next_congr (Hw.vpCommand_ends takes e_n e_g idle ?_)
  exact (if_neg (by simp [frozen])).trans (by simp only [← e_r])

/-- RESTORE of a port that is off from a sound block (R552). -/
theorem execRestore_restores {b : List Byte} (takes : s.hw.takes VPT_CMD a = true) (e_n : n = fld v.toNat 9 0)
    (e_g : g = (s.hw.answer 0).wr VPT_CMD (4 * 2 ^ 28 + n)) (idle : s.hw.bit VPT_CMD 27 = false) (off : (g.vp n).state = 0)
    (block : g.memRead g.vpBlockAddr 256 (vpBlockAttr a) = (some b, x)) (magic : leNat (slice b 0 4) = 0x4253_5056)
    (version : fld (leNat (slice b 4 4)) 15 0 = 1) (crc : leNat (slice b 0xFC 4) = crc32 (b.take 0xFC))
    (fits : x.vpGuaranteed n + fld (leNat (slice b 0x40 4) &&& vpWordMask 12) 31 16 ≤ 15360) :
    exec (.restore v a) s = .next (s.withHw (((x.vpRestored n b).vpEvent n 3).put VPT_CMD 26 24 0)) := by
  refine State.next_congr (Hw.vpCommand_ends takes e_n e_g idle ?_)
  have sound : ¬ (leNat (slice b 0 4) ≠ 0x4253_5056 ∨ fld (leNat (slice b 4 4)) 15 0 ≠ 1 ∨
      leNat (slice b 0xFC 4) ≠ crc32 (b.take 0xFC)) := by
    rw [not_or, not_or, not_not, not_not, not_not]
    exact ⟨magic, version, crc⟩
  refine (if_neg (fun on => on off)).trans ?_
  simp only [block, if_neg sound, if_neg (Nat.not_lt.mpr fits)]

end VpCommands

/-- Settles O18: each command of the virtual ports on the branch that its conditions name; the commands of `VPT_CMD` by
`Hw.vpCommand_ends`, entry words by `Hw.entryWrite_starts` and `Hw.entryWrite_resizes`. -/
theorem virtualPortCommandsComplete : Obligations.VirtualPortCommandsComplete := by
  refine ⟨?txDoorbell, ?rxDoorbell, ?vpFrameGathered, ?txBucketHoldsLength, ?txBucketHoldsLength_early, ?vpDeliver,
    ?vpDeliver_nobody, ?vpNotify, ?portEnable, ?portRemoved, ?portRemoved_waiting, ?vpFault, ?freeze, ?freeze_gathered,
    ?freeze_waiting, ?thaw, ?save, ?restore, ?clearCounters, ?vpRingResize⟩
  case txDoorbell =>
    rintro s _ n v a takes rfl within
    exact (State.run_busWrite_takes takes).trans (State.next_congr (Hw.vpDoorbell_tx within))
  case rxDoorbell =>
    rintro s _ n v far _ a takes rfl e_g within
    exact (State.run_busWrite_takes takes).trans (State.next_congr (Hw.vpDoorbell_rx e_g within))
  case vpFrameGathered =>
    rintro s _ n far rfl on runs stays free
    exact State.next_congr (if_neg (by simp [on, runs, stays, free]))
  case txBucketHoldsLength =>
    rintro s _ n far w rfl on waits holds
    exact (execTxBucketHoldsLength_waits waits).trans (State.next_congr (if_pos (by simp only [on, holds]; decide)))
  case txBucketHoldsLength_early =>
    rintro s _ n far w rfl waits short
    exact (execTxBucketHoldsLength_waits waits).trans (State.next_congr (if_neg (by simp [short])))
  case vpDeliver =>
    rintro s _ host b far rfl on takers
    exact State.next_congr ((if_neg (by simp [on])).trans (if_neg (by simp [takers])))
  case vpDeliver_nobody =>
    rintro s _ host b far rfl on nobody
    exact State.next_congr ((if_neg (by simp [on])).trans (if_pos (by simp [nobody])))
  case vpNotify =>
    rintro s _ n rfl on rings
    exact State.next_congr (if_pos (by simp only [on, rings]; decide))
  case portEnable =>
    rintro s _ v _ _ _ a takes rfl rfl rfl rfl sound off on
    exact (State.run_busWrite_takes takes).trans (State.next_congr (Hw.entryWrite_starts rfl rfl rfl sound off on))
  case portRemoved =>
    rintro s _ n far _ _ rfl rfl rfl leaving free
    exact execPortRemoved_leaves (by simp only [free]) rfl leaving
  case portRemoved_waiting =>
    rintro s _ n far w _ _ rfl rfl rfl leaving waits
    exact execPortRemoved_leaves (by simp only [waits]) rfl leaving
  case vpFault =>
    rintro s _ n side addr _ rfl rfl runs
    exact State.next_congr (if_pos runs)
  case freeze =>
    rintro s _ v far _ _ a takes rfl e_n e_g idle runs stays free
    exact execFreeze_freezes takes e_n e_g idle (by simp only [free]; rfl) runs stays runs
  case freeze_gathered =>
    rintro s _ v far _ _ _ a takes rfl e_n e_g e_x idle runs stays free still
    exact execFreeze_freezes takes e_n e_g idle (by simp only [free, e_x]; rfl) runs stays still
  case freeze_waiting =>
    rintro s _ v gathering far w _ _ _ a takes rfl e_n e_g e_x idle runs stays waits still
    exact execFreeze_freezes takes e_n e_g idle (by simp only [waits, e_x]) runs stays still
  case thaw =>
    rintro s _ v far n g _ _ a takes rfl e_n e_g rfl rfl idle halted stays
    refine State.next_congr (Hw.vpCommand_ends takes e_n e_g idle (if_neg ?_))
    exact fun q => q.elim (fun ⟨running, sound⟩ => halted.elim running sound) (by simp [stays])
  case save =>
    rintro s _ v _ _ _ a takes rfl e_n e_g e_r idle frozen written
    exact execSave_saves takes e_n e_g idle e_r frozen written
  case restore =>
    rintro s _ v b x _ _ a takes rfl e_n e_g idle off block magic version crc fits
    exact execRestore_restores takes e_n e_g idle off block magic version crc fits
  case clearCounters =>
    rintro s _ v _ _ a takes rfl e_n e_g idle
    exact State.next_congr (Hw.vpCommand_ends takes e_n e_g idle rfl)
  case vpRingResize =>
    rintro s _ w v _ _ a takes rfl e_n e_x base sound present
    exact (State.run_busWrite_takes takes).trans (State.next_congr (Hw.entryWrite_resizes e_n e_x base sound present))

/-! ## Worlds -/

section Worlds

variable {h : Hw} {s : State} {r : PwrReq}

/-- A write of `WGT_LOCK` without ALL stores the lock bits set and locks no other page (R563). -/
theorem Hw.lockWrite_withoutAll (h : Hw) (p v : Nat) :
    h.lockWrite p (setBit v 2 false) = h.wr (LOCK p) (h.rd (LOCK p) ||| (setBit v 2 false &&& lockMask p)) := by
  have cleared : fld (setBit v 2 false) 2 2 ≠ 1 := by rw [setBit, fld_setFld_same _ _ (le_refl 2)]; decide
  exact if_neg fun all => cleared all.2

/-- A held request is refused once its time is over, and not before (R568). -/
theorem execHoldTimeout_held {clk : Bool} {target : Fin 1024} (held : s.hw.heldFor clk target = some r) :
    exec (.holdTimeout clk target) s = .next (s.withHw
      (if decide (s.hw.now < r.heldAt + s.hw.rd WGT_HOLD_TO * 1_200_000) then s.hw
        else (s.hw.refuseHeld r 1 (s.hw.tick32 0)).sleepCheck)) := by
  show execHoldTimeout clk target s = _
  rw [execHoldTimeout, State.run]
  simp only [held]

/-- `WGT_DENY` refuses the held request that it names (R568). -/
theorem execWgtDeny_denies {v : Word} {timeout : Bool} {a : Attr} (takes : s.hw.takes WGT_DENY a = true)
    (kind : fld v.toNat 31 30 = 1 ∨ fld v.toNat 31 30 = 2)
    (held : (s.hw.answer 0).heldFor (fld v.toNat 31 30 == 2) (fld v.toNat 9 0) = some r) :
    exec (.wgtDeny v timeout a) s = .next (s.withHw
      (((s.hw.answer 0).refuseHeld r 2 ((s.hw.answer 0).tick32 0)).sleepCheck)) := by
  refine (State.run_busWrite_takes takes).trans (State.next_congr ((if_neg (by omega)).trans ?_))
  simp only [held]

/-- A core in mode M of a domain that is on takes the world that it writes (R572, R573). -/
theorem execMworldWrite_machine {core : Fin 12} {v : Word} {dirty : List (BitVec 40 × List Byte)}
    (on : s.hw.pdOn (3 + core.val / 4) = true) :
    exec (.mworldWrite core v true dirty) s = .next (s.withHw ((s.hw.mworldWrite core v.toNat dirty).answer 0)) :=
  State.next_congr (if_pos (by simp [on]))

end Worlds

/-- Settles O19: each command of the world gate on the branch that its conditions name; a held request by
`execHoldTimeout_held` and `execWgtDeny_denies`. -/
theorem worldCommandsComplete : Obligations.WorldCommandsComplete := by
  refine ⟨?wgtLockAll, ?holdMarkWrite_domain, ?holdMarkWrite_page, ?holdTimeout, ?holdTimeout_early, ?wgtDeny, ?mworldWrite,
    ?mworldWrite_same⟩
  case wgtLockAll =>
    rintro s _ v _ a takes rfl rfl all
    refine (State.run_busWrite_takes takes).trans (State.next_congr ((if_pos all).trans ?_))
    rw [Hw.lockWrite_withoutAll, Hw.lockAll]
  case holdMarkWrite_domain => rintro s _ v a takes rfl; exact State.run_busWrite_takes takes
  case holdMarkWrite_page => rintro s _ m v a takes rfl; exact State.run_busWrite_takes takes
  case holdTimeout =>
    rintro s _ clk target r rfl held late
    exact (execHoldTimeout_held held).trans (State.next_congr (if_neg (by simpa using late)))
  case holdTimeout_early =>
    rintro s _ clk target r rfl held early
    exact (execHoldTimeout_held held).trans (State.next_congr (if_pos (by simpa using early)))
  case wgtDeny =>
    rintro s _ v timeout r a takes rfl kind held
    exact execWgtDeny_denies takes kind held
  case mworldWrite =>
    rintro s _ core v dirty _ rfl rfl on changes
    exact (execMworldWrite_machine on).trans
      (State.next_congr (congrArg (Hw.answer · 0) (if_neg (by simpa using changes))))
  case mworldWrite_same =>
    rintro s _ core v dirty rfl on same
    exact (execMworldWrite_machine on).trans
      (State.next_congr (congrArg (Hw.answer · 0) (if_pos (by simpa using same))))

end Sys2Proof.Machine

/-! # The keys family

The commands of the key unit: what a command of `KEY_CMD`, the root, the masks, the random source and the life cycle leave on the
branch that their conditions name, and the statements on them. -/

namespace Sys2Proof.Machine

/-- A register that takes a write opens for a read. -/
theorem Hw.opens_of_takes {h : Hw} {k : Nat} {a : Attr} (takes : h.takes k a = true) : h.opens k a = true :=
  (Bool.and_eq_true_iff.mp takes).1

/-! ## Commands of `KEY_CMD` -/

section KeyCommands

variable {h g x : Hw} {s : State} {v : Word} {a : Attr}

/-- An accepted command outside END ends with what its work answers (R584). -/
theorem Hw.keyCommand_ends {op : Nat} {f : Hw → Nat × Hw} {r : Nat × Hw} (takes : h.takes KEY_CMD a = true)
    (e_g : g = (h.answer 0).wr KEY_CMD (op * 2 ^ 28 + v.toNat % 2 ^ 24)) (idle : h.bit KEY_CMD 27 = false) (alive : g.lcs ≠ 4)
    (work : f g = r) : h.keyCommand op v a f = g.keyEnd r := by
  rw [Hw.keyCommand_runs h op v a f g takes e_g idle alive, work]

/-- Outside Hold a command that Hold would defer runs (R602). -/
theorem Hw.keyDefers_runs {op : Nat} {d : Deferred} {f : Hw → Nat × Hw} (supplied : h.inHold = false) :
    h.keyDefers op v a d f = h.keyCommand op v a f := if_neg (by simp [supplied])

/-- In Hold it waits, with `BUSY` set (R602). -/
theorem Hw.keyDefers_waits {op : Nat} {d : Deferred} {f : Hw → Nat × Hw} (takes : h.takes KEY_CMD a = true)
    (held : h.inHold = true) (idle : h.bit KEY_CMD 27 = false) :
    h.keyDefers op v a d f = ((h.answer 0).wr KEY_CMD (op * 2 ^ 28 + 2 ^ 27 + v.toNat % 2 ^ 24)).defer d :=
  (if_pos held).trans ((Hw.busWrite_takes _ _ _ _ takes).trans (if_neg (by simp [idle])))

/-- NARROW of a usable key whose staged word only narrows its attributes stores that word (R587). -/
theorem execNarrow_narrows {s : State} (takes : s.hw.takes KEY_CMD a = true)
    (e_g : g = (s.hw.answer 0).wr KEY_CMD (7 * 2 ^ 28 + v.toNat % 2 ^ 24)) (idle : s.hw.bit KEY_CMD 27 = false)
    (alive : g.lcs ≠ 4) (notRoot : g.cmdDst ≠ 0) (good : g.slotGood g.cmdDst = true)
    (subset : g.rd KEY_STAGE &&& g.rd (KEY_ATTR_W0 g.cmdDst) = g.rd KEY_STAGE)
    (state : fld (g.rd KEY_STAGE) 31 30 = fld (g.rd (KEY_ATTR_W0 g.cmdDst)) 31 30)
    (type : fld (g.rd KEY_STAGE) 26 24 = fld (g.rd (KEY_ATTR_W0 g.cmdDst)) 26 24)
    (e_x : x = (g.wr (KEY_ATTR_W0 g.cmdDst) (g.rd KEY_STAGE)).mirrorOdd g.cmdDst) :
    exec (.narrow v a) s = .next (s.withHw (g.keyEnd (0, { x with key := { x.key with fresh := false } }))) := by
  subst e_x
  refine State.next_congr (Hw.keyCommand_ends takes e_g idle alive ?_)
  exact (if_neg (by simp [notRoot, good])).trans (if_neg (by simp [subset, state, type]))

end KeyCommands

/-- Settles O20: each command of the key unit on the branch that its conditions name; the commands of `KEY_CMD` by
`Hw.keyCommand_ends`, those that Hold defers by `Hw.keyDefers_runs` and `Hw.keyDefers_waits`. -/
theorem keyCommandsComplete : Obligations.KeyCommandsComplete := by
  refine ⟨?generate, ?derive, ?keyImport, ?keyExport, ?clear, ?revoke, ?narrow, ?pubkey, ?persistSave, ?persistLoad,
    ?persistCheck, ?persistCheck_held, ?challenge, ?enrol, ?enrol_held, ?rootReconstruct, ?rootReconstruct_failed, ?remask,
    ?rngFail, ?rngRestart, ?keyRngRead, ?lcsAdvance⟩
  case generate =>
    rintro s _ v g _ a takes rfl e_g rfl idle alive stage free random
    refine State.next_congr (Hw.keyCommand_ends takes e_g idle alive ?_)
    exact (if_neg (by simp [stage])).trans ((if_neg (by simp [free])).trans (if_neg (by simp [random])))
  case derive =>
    rintro s _ v data x g a takes rfl e_g read idle alive stage some_ short rooted free good parent use
    refine State.next_congr (Hw.keyCommand_ends takes e_g idle alive ?_)
    refine (if_neg (by simp [stage, some_, short])).trans ((if_neg (by simp [rooted])).trans
      ((if_neg (by simp [free, good])).trans ((if_neg parent).trans ((if_neg (by simp [use])).trans ?_))))
    simp only [read]
  case keyImport =>
    rintro s _ v data k x g a takes rfl e_g read idle alive stage len rooted free good parent use unwrapped
    refine State.next_congr (Hw.keyCommand_ends takes e_g idle alive ?_)
    refine (if_neg (by simp [stage, len])).trans ((if_neg (by simp [rooted])).trans
      ((if_neg (by simp [free, good])).trans ((if_neg parent).trans ((if_neg (by simp [use])).trans ?_))))
    simp only [read, unwrapped]
  case keyExport =>
    rintro s _ v g a takes rfl e_g idle alive sizes rooted wrapRooted good wrapGood exportable allowed use
    refine State.next_congr (Hw.keyCommand_ends takes e_g idle alive ?_)
    exact (if_neg sizes).trans ((if_neg (by simp [rooted, wrapRooted])).trans ((if_neg (by simp [good, wrapGood])).trans
      (if_neg (by simp [exportable, allowed, use]))))
  case clear =>
    rintro s _ v g _ _ _ _ a takes rfl e_g rfl rfl rfl rfl idle alive notRoot valid single
    exact State.next_congr (Hw.keyCommand_ends takes e_g idle alive (if_neg (by simp [notRoot, valid, single])))
  case revoke =>
    rintro s _ v g _ a takes rfl e_g rfl idle alive notRoot good
    exact State.next_congr (Hw.keyCommand_ends takes e_g idle alive (if_neg (by simp [notRoot, good])))
  case narrow =>
    rintro s _ v g _ _ a takes rfl e_g rfl e_x idle alive notRoot good subset state type
    exact execNarrow_narrows takes e_g idle alive notRoot good subset state type e_x
  case pubkey =>
    rintro s _ v g _ a takes rfl e_g rfl idle alive rooted good curve allowed
    refine State.next_congr (Hw.keyCommand_ends takes e_g idle alive ?_)
    exact (if_neg (by simp [rooted])).trans ((if_neg (by simp [good])).trans ((if_neg (by omega)).trans
      (if_neg (by simp [allowed]))))
  case persistSave =>
    rintro s _ v g a takes rfl e_g idle alive few rooted
    refine State.next_congr (Hw.keyCommand_ends takes e_g idle alive ?_)
    exact (if_neg (Nat.not_lt.mpr few)).trans (if_neg (by simp [rooted]))
  case persistLoad =>
    rintro s _ v b1 b2 x y g _ a takes rfl e_g rfl idle alive rooted fresh first second
    refine State.next_congr (Hw.keyCommand_ends takes e_g idle alive ?_)
    refine (if_neg (by simp [rooted])).trans ((if_neg (by simp [fresh])).trans ?_)
    simp only [first, second] <;> rfl
  case persistCheck =>
    rintro s _ v g a takes rfl e_g supplied idle alive
    exact State.next_congr ((Hw.keyDefers_runs supplied).trans (Hw.keyCommand_ends takes e_g idle alive rfl))
  case persistCheck_held =>
    rintro s _ v a takes rfl held idle
    exact State.next_congr (Hw.keyDefers_waits takes held idle)
  case challenge =>
    rintro s _ v g _ a takes rfl e_g rfl idle alive random
    exact State.next_congr (Hw.keyCommand_ends takes e_g idle alive (if_neg (by simp [random])))
  case enrol =>
    rintro s _ v g a takes rfl e_g supplied idle virgin helperless
    have alive : g.lcs ≠ 4 := by omega
    refine State.next_congr ((Hw.keyDefers_runs supplied).trans (Hw.keyCommand_ends takes e_g idle alive ?_))
    exact (if_neg alive).trans ((if_neg (by simp [virgin])).trans (if_neg (by simp [helperless])))
  case enrol_held =>
    rintro s _ v a takes rfl held idle
    exact State.next_congr (Hw.keyDefers_waits takes held idle)
  case rootReconstruct =>
    rintro s _ pkBad _ rfl rfl on first helper alive
    exact State.next_congr ((if_neg (by simp [on, first])).trans
      (congrArg (Hw.raiseIf · pkBad pgKEY 7) (if_pos (by simp only [alive]; simp [helper]))))
  case rootReconstruct_failed =>
    rintro s _ pkBad _ rfl rfl on first
    exact State.next_congr ((if_neg (by simp [on, first])).trans rfl)
  case remask =>
    rintro s _ k _ _ _ rfl rfl rfl rfl due found
    refine State.next_congr ((if_neg (by simp [due])).trans ?_)
    simp only [found]
  case rngFail =>
    rintro s _ apt rfl on
    exact State.next_congr (if_neg (by simp [on]))
  case rngRestart =>
    rintro s _ v a takes rfl restart
    exact (State.run_busWrite_takes takes).trans (State.next_congr (if_pos restart))
  case keyRngRead =>
    rintro s _ _ a takes rfl rfl plain random
    exact State.next_congr ((Hw.access_opens _ _ _ _ (Hw.opens_of_takes takes)).trans
      ((if_neg (by simp [plain])).trans (if_neg (by simp [random]))))
  case lcsAdvance =>
    rintro s _ v _ a takes rfl rfl secure magic allowed supplied
    exact (State.run_busWrite_takes takes).trans (State.next_congr
      ((if_neg (by simp [secure, magic, allowed])).trans (if_neg (by simp [supplied]))))

/-- Settles O51: a word that only narrows is stored (`execNarrow_narrows`), another one is refused with result 7. -/
theorem narrowOnlyNarrows : Obligations.NarrowOnlyNarrows := by
  refine ⟨?accepted, ?refused⟩
  case accepted =>
    rintro s _ v g _ _ a takes rfl e_g rfl e_x idle alive notRoot good subset state type
    exact execNarrow_narrows takes e_g idle alive notRoot good subset state type e_x
  case refused =>
    rintro s _ v g _ a takes rfl e_g rfl idle alive notRoot good widens
    refine State.next_congr (Hw.keyCommand_ends takes e_g idle alive ?_)
    exact (if_neg (by simp [notRoot, good])).trans (if_pos widens)

/-! ## What keeps the attributes of keys -/

/-- The registers of the slots' attributes read in `g` as in `h`. -/
def Hw.AttrsAs (g h : Hw) : Prop := g.regsOk = true ∧ ∀ j, KEY_ATTR_W0 0 ≤ j → j < KEY_ATTR_W0 256 → g.rd j = h.rd j

namespace Hw.AttrsAs

variable {g h : Hw}

theorem of_regsOk (ok : h.regsOk = true) : h.AttrsAs h := ⟨ok, fun _ _ _ => rfl⟩

theorem wr {k v : Nat} (same : g.AttrsAs h) (outside : k < KEY_ATTR_W0 0 ∨ KEY_ATTR_W0 256 ≤ k) : (g.wr k v).AttrsAs h :=
  ⟨Hw.wr_regsOk g same.1 k v, fun j lo hi => (Hw.rd_wr_other same.1 v (by omega)).trans (same.2 j lo hi)⟩

theorem raise {page b : Nat} (same : g.AttrsAs h) (outside : EVT_RAW page < KEY_ATTR_W0 0 ∨ KEY_ATTR_W0 256 ≤ EVT_RAW page) :
    (g.raise page b).AttrsAs h :=
  ⟨Hw.raiseG_regsOk g same.1 page 0 b, fun j lo hi => (Hw.rd_raise_other same.1 b (by omega)).trans (same.2 j lo hi)⟩

theorem ite {c : Prop} {_ : Decidable c} {k : Hw} (yes : g.AttrsAs h) (no : k.AttrsAs h) : (if c then g else k).AttrsAs h := by
  split
  · exact yes
  · exact no

theorem foldl {α : Type} {l : List α} {f : Hw → α → Hw} (same : g.AttrsAs h)
    (kept : ∀ k, ∀ x ∈ l, k.AttrsAs h → (f k x).AttrsAs h) : (l.foldl f g).AttrsAs h :=
  List.foldlRecOn (motive := fun k => k.AttrsAs h) l f same fun k same x mem => kept k x mem same

theorem each {n : Nat} {f : Nat → Hw → Hw} (same : g.AttrsAs h) (kept : ∀ k, ∀ i < n, k.AttrsAs h → (f i k).AttrsAs h) :
    (each n f g).AttrsAs h :=
  same.foldl fun k i mem => kept k i (List.mem_range.mp mem)

/-- An object of a CAN controller loses its key in its own registers. -/
theorem objRevoked {n o : Nat} (same : g.AttrsAs h) (controller : n < 16) (object : o < 128) :
    (g.objRevoked n o).AttrsAs h := by
  have flags : CAN_OBJ n o 6 < KEY_ATTR_W0 0 := by simp only [CAN_OBJ, KEY_ATTR_W0, at_, pgCAN, pgKEY]; omega
  have pending : CAN_PENDING n (o / 32) < KEY_ATTR_W0 0 := by simp only [CAN_PENDING, KEY_ATTR_W0, at_, pgCAN, pgKEY]; omega
  have event : EVT_RAW (pgCAN n) < KEY_ATTR_W0 0 := by simp only [EVT_RAW, KEY_ATTR_W0, at_, pgCAN, pgKEY]; omega
  have unpended : (g.unpend n o).AttrsAs h := wr (wr (g := g.setCan n _) same (.inl flags)) (.inl pending)
  exact raise (wr (ite same unpended) (.inl flags)) (.inl event)

theorem canKeysRevoked {l : List Nat} (same : g.AttrsAs h) : (g.canKeysRevoked l).AttrsAs h :=
  same.each fun _ _ controller same => same.each fun _ _ object same => ite (same.objRevoked controller object) same

theorem msecKeysRevoked {l : List Nat} (same : g.AttrsAs h) : (g.msecKeysRevoked l).AttrsAs h :=
  ite same (raise (foldl same fun _ _ _ same => same) (.inl (by decide)))

theorem keyEnd {k : Hw} {r : Nat × Hw} (same : r.2.AttrsAs h) : (k.keyEnd r).AttrsAs h :=
  raise (wr (wr same (.inl (by decide))) (.inl (by decide))) (.inl (by decide))

theorem refuse {code : Nat} {a : Attr} (same : g.AttrsAs h) : (g.refuse KEY_CMD code a).AttrsAs h := by
  refine ite (wr same (.inl ?_)) (wr (wr (wr (wr same (.inl ?_)) (.inl ?_)) (.inl ?_)) (.inl ?_)) <;> decide

theorem rd_attrW0 {s : Nat} (same : g.AttrsAs h) (lt : s < 256) : g.rd (KEY_ATTR_W0 s) = h.rd (KEY_ATTR_W0 s) :=
  same.2 _ (by simp only [KEY_ATTR_W0, at_]; omega) (by simp only [KEY_ATTR_W0, at_]; omega)

theorem oddOfPair {d : Nat} (same : g.AttrsAs h) (small : d < 256) : g.oddOfPair d = h.oddOfPair d := by
  rw [Hw.oddOfPair, Hw.keyValid, Hw.keyType, Hw.bit, Hw.get, Hw.get, same.rd_attrW0 (by omega)]
  rfl

end Hw.AttrsAs

/-! ## Generations of keys -/

/-- The generation that word 1 of a slot without a parent shows (Table 16.2). -/
theorem fld_attrW1_orphan {gen : Nat} (gen_lt : gen < 256) : fld (gen * 2 ^ 16) 23 16 = gen := by
  rw [fld, Nat.shiftRight_eq_div_pow]
  omega

/-- The generation that word 1 of a slot with a parent shows (Table 16.2). -/
theorem fld_attrW1_child {p gen pgen depth : Nat} (gen_lt : gen < 256) (pgen_lt : pgen < 256) (shallow : depth < 7) :
    fld (p * 2 ^ 24 + gen * 2 ^ 16 + pgen * 2 ^ 8 + (depth + 1) * 2 ^ 5 + 16) 23 16 = gen := by
  rw [fld, Nat.shiftRight_eq_div_pow]
  omega

/-- The generation that follows another fits its field. -/
theorem nextGen_lt {gen : Nat} (gen_lt : gen < 256) : (if gen = 255 then 1 else gen + 1) < 256 := by
  split <;> omega

theorem Hw.get_lt (h : Hw) (k hi lo : Nat) : h.get k hi lo < 2 ^ (hi + 1 - lo) := Nat.mod_lt _ (Nat.two_pow_pos _)

/-- Free bytes are drawn from the random source and touch no register. -/
theorem Hw.freeBytes_regs (h : Hw) (n : Nat) : (h.freeBytes n).2.regs = h.regs := by
  induction n generalizing h with
  | zero => rfl
  | succ n ih => exact ih h.freeByte.2

/-- The odd partner of a slot shows its attributes; no other register changes. -/
theorem Hw.rd_mirrorOdd {h : Hw} {s j : Nat} (ok : h.regsOk = true)
    (apart : h.keyType s = 4 → s % 2 = 0 → j ≠ KEY_ATTR_W0 (s + 1) ∧ j ≠ KEY_ATTR_W1 (s + 1)) :
    (h.mirrorOdd s).rd j = h.rd j := by
  rw [Hw.mirrorOdd]
  split
  case isTrue pair =>
    obtain ⟨type, even⟩ := pair
    obtain ⟨word0, word1⟩ := apart type even
    rw [Hw.rd_wr_other (Hw.wr_regsOk _ ok _ _) _ word1, Hw.rd_wr_other ok _ word0]
  case isFalse => rfl

/-- The word 1 that is stored for a slot is what its attributes show. -/
theorem Hw.get_attrW1_stored {h : Hw} {d w0 w1 : Nat} (ok : h.regsOk = true) :
    (((h.wr (KEY_ATTR_W0 d) w0).wr (KEY_ATTR_W1 d) w1).mirrorOdd d).get (KEY_ATTR_W1 d) 23 16 = fld w1 23 16 := by
  have okW0 := Hw.wr_regsOk h ok (KEY_ATTR_W0 d) w0
  have apart : KEY_ATTR_W1 d ≠ KEY_ATTR_W0 (d + 1) ∧ KEY_ATTR_W1 d ≠ KEY_ATTR_W1 (d + 1) := by
    simp only [KEY_ATTR_W0, KEY_ATTR_W1, at_]; omega
  rw [Hw.get, Hw.rd_mirrorOdd (Hw.wr_regsOk _ okW0 _ _) fun _ _ => apart, Hw.rd_wr_same okW0, fld_mod_word _ _ (by omega)]

/-- A commit steps `GEN` of its slot from 255 to 1 (R583). -/
theorem Hw.commitKey_gen {h : Hw} {d w0 : Nat} {key : List Byte} {parent : Option Nat} (ok : h.regsOk = true)
    (depth : ∀ p, parent = some p → h.get (KEY_ATTR_W1 p) 7 5 < 7) :
    (h.commitKey d w0 key parent).get (KEY_ATTR_W1 d) 23 16 =
      (if h.get (KEY_ATTR_W1 d) 23 16 = 255 then 1 else h.get (KEY_ATTR_W1 d) 23 16 + 1) := by
  have drawn : (h.freeBytes key.length).2.regsOk = true := by rw [Hw.regsOk, Hw.freeBytes_regs]; exact ok
  have gen_lt := nextGen_lt (h.get_lt (KEY_ATTR_W1 d) 23 16)
  unfold Hw.commitKey
  dsimp only
  rw [Hw.get_attrW1_stored (by exact drawn)]
  cases parent with
  | none => exact fld_attrW1_orphan gen_lt
  | some p => exact fld_attrW1_child gen_lt (h.get_lt (KEY_ATTR_W1 p) 23 16) (depth p rfl)

/-- Word 1 of slot `d` reads in `g` as in `h`, and so does the type of the slot before an odd one, whose odd partner it may
be. -/
def Hw.GenAs (g h : Hw) (d : Nat) : Prop :=
  g.regsOk = true ∧ g.rd (KEY_ATTR_W1 d) = h.rd (KEY_ATTR_W1 d) ∧ (d % 2 = 1 → g.keyType (d - 1) = h.keyType (d - 1))

section Generations

variable {g h k : Hw} {d : Nat}

/-- A slot that is not the odd one of a pair keeps its word 1 while the slot before it is no valid P-384 key. -/
theorem Hw.pairs_apart {s : Nat} (single : h.oddOfPair d = false) (valid : h.keyValid s = true)
    (type : d % 2 = 1 → g.keyType (d - 1) = h.keyType (d - 1)) (pair : g.keyType s = 4) (even : s % 2 = 0) :
    d ≠ s + 1 := by
  rintro rfl
  have odd : (s + 1) % 2 = 1 := by omega
  have type4 : h.keyType s = 4 := (type odd).symm.trans pair
  simp [Hw.oddOfPair, odd, valid, type4] at single

theorem Hw.keyValid_of_slotGood {s : Nat} (good : h.slotGood s = true) : h.keyValid s = true :=
  (Bool.and_eq_true_iff.mp (Bool.and_eq_true_iff.mp good).1).1

namespace Hw.GenAs

theorem refl (ok : g.regsOk = true) : g.GenAs g d := ⟨ok, rfl, fun _ => rfl⟩

theorem of_attrs (small : d < 256) (same : g.AttrsAs h) : g.GenAs h d := by
  have word0 := same.rd_attrW0 (s := d - 1) (by omega)
  refine ⟨same.1, same.2 _ ?_ ?_, fun _ => by rw [Hw.keyType, Hw.get, word0]; rfl⟩
  · simp only [KEY_ATTR_W0, KEY_ATTR_W1, at_]; omega
  · simp only [KEY_ATTR_W0, KEY_ATTR_W1, at_]; omega

theorem frame (same : g.GenAs h d) (regs : k.regs = g.regs) : k.GenAs h d := by
  simpa only [Hw.GenAs, Hw.regsOk, Hw.keyType, Hw.get, Hw.rd, regs] using same

theorem trans (later : k.GenAs g d) (before : g.GenAs h d) : k.GenAs h d := by
  obtain ⟨ok, word1, type⟩ := later
  obtain ⟨_, word1', type'⟩ := before
  exact ⟨ok, word1.trans word1', fun odd => (type odd).trans (type' odd)⟩

/-- A write of word 0 of a slot that keeps its type. -/
theorem wrW0 {s v : Nat} (ok : g.regsOk = true) (type : fld v 26 24 = g.keyType s) : (g.wr (KEY_ATTR_W0 s) v).GenAs g d := by
  refine ⟨Hw.wr_regsOk g ok _ _, Hw.rd_wr_other ok _ ?_, fun _ => ?_⟩
  · simp only [KEY_ATTR_W0, KEY_ATTR_W1, at_]; omega
  · by_cases same : s = d - 1
    · rw [← same, Hw.keyType, Hw.get, Hw.rd_wr_same ok, fld_mod_word _ _ (by omega), type]
    · rw [Hw.keyType, Hw.get, Hw.rd_wr_other ok, Hw.keyType, Hw.get]
      simp only [KEY_ATTR_W0, at_]; omega

/-- The odd partner of a valid slot shows its attributes; a slot that is no odd partner keeps its word 1. -/
theorem mirrorOdd {s : Nat} (single : h.oddOfPair d = false) (valid : h.keyValid s = true) (same : g.GenAs h d) :
    (g.mirrorOdd s).GenAs h d := by
  obtain ⟨ok, word1, type⟩ := same
  refine ⟨?_, (Hw.rd_mirrorOdd ok fun pair even => ?_).trans word1, fun odd => ?_⟩
  · exact Hw.Canonical.mirrorOdd ok
  · have apart := Hw.pairs_apart single valid type pair even
    simp only [KEY_ATTR_W0, KEY_ATTR_W1, at_]; omega
  · rw [← type odd, Hw.keyType, Hw.get, Hw.rd_mirrorOdd ok fun _ even => ?_]; rfl
    simp only [KEY_ATTR_W0, KEY_ATTR_W1, at_]; omega

/-- Slots revoked keep their word 1, and so does a slot that is no odd partner (R593). -/
theorem revokeSlots {l : List Nat} (ok : g.regsOk = true) (single : g.oddOfPair d = false) (small : d < 256) :
    (g.revokeSlots l).GenAs g d := by
  have step : ∀ k : Hw, k.GenAs g d → ∀ s ∈ l.filter (fun s => g.keyValid s),
      ((k.putBit (KEY_ATTR_W0 s) 30 true).mirrorOdd s).GenAs g d := fun k same s mem =>
    mirrorOdd single (List.mem_filter.mp mem).2
      (trans (wrW0 same.1 (fld_setFld_apart _ _ (le_refl 30) (.inl (by decide)))) same)
  rw [Hw.revokeSlots]
  split
  · exact refl ok
  · have revoked := List.foldlRecOn (motive := fun k : Hw => k.GenAs g d) _ _ (refl ok) step
    refine trans (of_attrs small ?_) revoked
    have raised := Hw.AttrsAs.raise (page := pgKEY) (b := 2) (.of_regsOk revoked.1) (.inl (by decide))
    exact raised.canKeysRevoked.msecKeysRevoked

end Hw.GenAs

/-- A command whose work keeps word 1 of a slot keeps it, whether it is accepted or not. -/
theorem Hw.keyCommand_genAs {op : Nat} {v : Word} {a : Attr} {f : Hw → Nat × Hw} (ok : h.regsOk = true)
    (takes : h.takes KEY_CMD a = true) (small : d < 256) (single : h.oddOfPair d = false)
    (kept : ∀ g : Hw, g.regsOk = true → g.oddOfPair d = false → (f g).2.GenAs g d) : (h.keyCommand op v a f).GenAs h d := by
  have answered : (h.answer 0).AttrsAs h := .of_regsOk ok
  have taken : ((h.answer 0).wr KEY_CMD (op * 2 ^ 28 + v.toNat % 2 ^ 24)).AttrsAs h := answered.wr (.inl (by decide))
  rw [Hw.keyCommand, Hw.busWrite_takes _ _ _ _ takes]
  split
  · exact .of_attrs small answered.refuse
  · have worked := Hw.GenAs.of_attrs small taken
    generalize (h.answer 0).wr KEY_CMD (op * 2 ^ 28 + v.toNat % 2 ^ 24) = g at taken worked ⊢
    have done : (if g.lcs = 4 then (6, g) else f g).2.GenAs g d := by
      split
      · exact .refl taken.1
      · exact kept g taken.1 ((taken.oddOfPair small).trans single)
    exact .trans (.trans (.of_attrs small (.keyEnd (.of_regsOk done.1))) done) worked

/-- What keeps word 1 of a slot keeps its generation. -/
theorem Hw.GenAs.gen (same : g.GenAs h d) : g.get (KEY_ATTR_W1 d) 23 16 = h.get (KEY_ATTR_W1 d) 23 16 := by
  obtain ⟨_, word1, _⟩ := same
  rw [Hw.get, word1, Hw.get]

end Generations

theorem State.next_hw {s : State} {o : Host.Outcome State Fault Refusal} {g : Hw} {P : Hw → Prop}
    (run : o = .next (s.withHw g)) (reached : P g) : ∃ t : State, o = .next t ∧ P t.hw := ⟨s.withHw g, run, reached⟩

/-- A NARROW command keeps word 1 of a slot that is no odd partner. -/
theorem execNarrow_genAs {s : State} {v : Word} {a : Attr} {d : Nat} (ok : s.hw.regsOk = true)
    (takes : s.hw.takes KEY_CMD a = true) (small : d < 256) (single : s.hw.oddOfPair d = false) :
    ∃ t : State, exec (.narrow v a) s = .next t ∧ t.hw.GenAs s.hw d := by
  refine State.next_hw (g := s.hw.keyCommand 7 v a _) (P := (Hw.GenAs · s.hw d)) rfl
    (Hw.keyCommand_genAs ok takes small single ?_)
  intro g ok single
  dsimp only
  split
  · exact .refl ok
  next usable =>
    rw [not_or, Bool.not_eq_true, Bool.not_eq_false'] at usable
    obtain ⟨_, good⟩ := usable
    split
    · exact .refl ok
    next narrows =>
      rw [not_or, not_or, not_not, not_not, not_not] at narrows
      obtain ⟨_, _, type⟩ := narrows
      exact .frame (.mirrorOdd single (Hw.keyValid_of_slotGood good) (.wrW0 ok type)) rfl

/-- A REVOKE command keeps word 1 of a slot that is no odd partner. -/
theorem execRevoke_genAs {s : State} {v : Word} {a : Attr} {d : Nat} (ok : s.hw.regsOk = true)
    (takes : s.hw.takes KEY_CMD a = true) (small : d < 256) (single : s.hw.oddOfPair d = false) :
    ∃ t : State, exec (.revoke v a) s = .next t ∧ t.hw.GenAs s.hw d := by
  refine State.next_hw (g := s.hw.keyCommand 6 v a _) (P := (Hw.GenAs · s.hw d)) rfl
    (Hw.keyCommand_genAs ok takes small single ?_)
  intro g ok single
  dsimp only
  split
  · exact .refl ok
  · exact .frame (.revokeSlots ok single small) rfl

/-- Settles O50: a commit by `Hw.commitKey_gen`; NARROW and REVOKE write word 0 of slots, and both words of odd partners only. -/
theorem keyGenerations : Obligations.KeyGenerations := by
  refine ⟨?commit, ?attributes⟩
  case commit =>
    intro h d w0 key parent ok _ depth
    exact Hw.commitKey_gen ok fun p e => (depth p e).2
  case attributes =>
    rintro s v a c d ok takes (rfl | rfl) small single
    · obtain ⟨t, run, same⟩ := execNarrow_genAs (v := v) ok takes small single
      exact ⟨t, run, same.gen⟩
    · obtain ⟨t, run, same⟩ := execRevoke_genAs (v := v) ok takes small single
      exact ⟨t, run, same.gen⟩

end Sys2Proof.Machine

/-! # The crypto and check-value family

The jobs of the crypto accelerator and the commands of the check-value units: what a job whose checks hold and a write of a unit
leave, and the statements on them. -/

namespace Sys2Proof.Machine

/-! ## Jobs -/

section Jobs

variable {h g x : Hw} {j : Job}

/-- The front job of a queue completes with what its operation answers (R606, R608). -/
theorem Hw.runJob_ends {q op : Nat} {f : List Byte → Job → Hw → Nat × Hw} {d : List Byte} {r : Nat × Hw}
    (runs : h.jobRuns q op j d x) (known : 1 ≤ op ∧ op ≤ 8) (work : f d j x = r) :
    h.runJob q op f = r.2.jobDone q j d r.1 := by
  rw [Hw.runJob_runs h q op f j d x runs known, work]

/-- An operation goes on with the bytes that it reads. -/
theorem Hw.jobIn_read {addr n : Nat} {bs : List Byte} {f : List Byte → Hw → Nat × Hw}
    (read : h.memRead addr n j.attr = (some bs, g)) : h.jobIn addr n j f = f bs g := by
  simp only [Hw.jobIn, read]

end Jobs

/-! ## Check-value units -/

/-- `INIT` is in the register of a unit, and no byte has been fed to it (R610). -/
def Hw.cvuLoaded (h : Hw) (n : Nat) : Hw :=
  (h.setCvu n { h.cvu n with reg := h.rdPair (CVU_INIT_LO n) (CVU_INIT_HI n) % 2 ^ (h.cvuAlg n).width }).wr (CVU_LEN n) 0

/-- A unit whose run starts, with its alive counter stepped in generate mode (R610, R613). -/
def Hw.cvuStarted (h : Hw) (n : Nat) : Hw :=
  if (h.cvuLoaded n).get (CVU_CFG n) 17 16 = 1 then (h.cvuLoaded n).put (CVU_ALIVE_GEN n) 15 0
    (((h.cvuLoaded n).get (CVU_ALIVE_GEN n) 15 0 + 1) % (h.cvuLoaded n).aliveMod n)
  else h.cvuLoaded n

/-- A write of `CVU_START` with bit 0 set starts a run. -/
theorem execCvuStart_starts {s : State} {n : Fin 8} {v : Word} {a : Attr} (takes : s.hw.takes (CVU_START n) a = true)
    (start : fld v.toNat 0 0 ≠ 0) : exec (.cvuStart n v a) s = .next (s.withHw ((s.hw.answer 0).cvuStarted n)) :=
  (State.run_busWrite_takes takes).trans (State.next_congr (if_neg start))

/-- Settles O21: each job by `Hw.runJob_ends` and the bytes that it reads, each command of a check-value unit on the branch that
its conditions name. -/
theorem cryptoAndCheckValueCommandsComplete : Obligations.CryptoAndCheckValueCommandsComplete := by
  refine ⟨?jobSubmit, ?cryAes_ecb, ?cryAes_cbc, ?cryAes_ctr, ?cryAes_gcm_encrypt, ?cryAes_gcm_decrypt, ?crySha, ?cryHmac,
    ?cryCmac_generate, ?cryCmac_verify, ?ecdsaSign, ?ecdsaVerify, ?ed25519Sign, ?ed25519Verify, ?cvuCfgWrite, ?cvuStart,
    ?cvuData, ?cvuExpect, ?cvuAliveIn⟩
  case jobSubmit =>
    rintro s _ q v a takes rfl aligned room
    exact (State.run_busWrite_takes takes).trans (State.next_congr
      ((if_neg (not_not.mpr aligned)).trans (if_neg (Nat.not_le.mpr room))))
  case cryAes_ecb =>
    rintro s _ q j d x src y rfl runs mode some_ whole key read
    refine State.next_congr (Hw.runJob_ends runs (by decide) ((if_neg (by omega)).trans ?_))
    simp only [mode, OfNat.zero_ne_ofNat, if_false, key, Nat.zero_add, Hw.jobIn_read read, if_true, List.drop_zero]
  case cryAes_cbc =>
    rintro s _ q j d x src aux y z rfl runs mode some_ whole key read iv
    refine State.next_congr (Hw.runJob_ends runs (by decide) ((if_neg (by omega)).trans ?_))
    simp only [mode, OfNat.one_ne_ofNat, if_false, key, Nat.zero_add, Hw.jobIn_read read, one_ne_zero, Hw.jobIn_read iv,
      if_true, List.drop_zero]
  case cryAes_ctr =>
    rintro s _ q j d x src aux y z rfl runs mode some_ key read counter
    refine State.next_congr (Hw.runJob_ends runs (by decide) ((if_neg (by omega)).trans ?_))
    simp only [mode, Nat.reduceEqDiff, if_false, key, Nat.zero_add, Hw.jobIn_read read, OfNat.ofNat_ne_zero,
      OfNat.ofNat_ne_one, Hw.jobIn_read counter, if_true, List.drop_zero]
  case cryAes_gcm_encrypt =>
    rintro s _ q j d x src aux y z _ _ rfl runs rfl rfl mode encrypts key read iv
    refine State.next_congr (Hw.runJob_ends runs (by decide) ((if_neg (by omega)).trans ?_))
    simp only [mode, if_true, key, Hw.jobIn_read read, OfNat.ofNat_ne_zero, if_false, Hw.jobIn_read iv, OfNat.ofNat_ne_one,
      Nat.reduceEqDiff, encrypts]
  case cryAes_gcm_decrypt =>
    rintro s _ q j d x src aux y z _ rfl runs rfl mode decrypts key read iv
    refine State.next_congr (Hw.runJob_ends runs (by decide) ((if_neg (by omega)).trans ?_))
    simp only [mode, if_true, key, Hw.jobIn_read read, OfNat.ofNat_ne_zero, if_false, Hw.jobIn_read iv, OfNat.ofNat_ne_one,
      Nat.reduceEqDiff, decrypts, Bool.false_eq_true]
  case crySha =>
    rintro s _ q j d x src y rfl runs mode read
    refine State.next_congr (Hw.runJob_ends runs (by decide) ?_)
    exact (if_neg (Nat.not_lt.mpr mode)).trans (Hw.jobIn_read read)
  case cryHmac =>
    rintro s _ q j d x src y _ rfl runs rfl mode key read
    refine State.next_congr (Hw.runJob_ends runs (by decide) ((if_neg (Nat.not_lt.mpr mode)).trans ?_))
    simp only [key]
    exact Hw.jobIn_read read
  case cryCmac_generate =>
    rintro s _ q j d x src y rfl runs generates key read
    refine State.next_congr (Hw.runJob_ends runs (by decide) ?_)
    simp only [key]
    exact (Hw.jobIn_read read).trans (if_pos generates)
  case cryCmac_verify =>
    rintro s _ q j d x src tag y z rfl runs verifies key read given
    refine State.next_congr (Hw.runJob_ends runs (by decide) ?_)
    simp only [key]
    exact (Hw.jobIn_read read).trans ((if_neg (by simp [verifies])).trans (Hw.jobIn_read given))
  case ecdsaSign =>
    rintro s _ q j d x src y _ _ rfl runs rfl rfl mode len key random read
    refine State.next_congr (Hw.runJob_ends runs (by decide) ((if_neg (by simp [mode, len])).trans ?_))
    simp only [key]
    exact (if_neg (by simp [random])).trans (Hw.jobIn_read read)
  case ecdsaVerify =>
    rintro s _ q j d x src aux y z _ rfl runs rfl mode len read given
    refine State.next_congr (Hw.runJob_ends runs (by decide) ((if_neg (by simp [mode, len])).trans ?_))
    exact (Hw.jobIn_read read).trans (Hw.jobIn_read given)
  case ed25519Sign =>
    rintro s _ q j d x src y rfl runs some_ key random read
    refine State.next_congr (Hw.runJob_ends runs (by decide) ((if_neg some_).trans ?_))
    simp only [key]
    exact (if_neg (by simp [random])).trans (Hw.jobIn_read read)
  case ed25519Verify =>
    rintro s _ q j d x src aux y z rfl runs some_ read given
    refine State.next_congr (Hw.runJob_ends runs (by decide) ((if_neg some_).trans ?_))
    exact (Hw.jobIn_read read).trans (Hw.jobIn_read given)
  case cvuCfgWrite =>
    rintro s _ n v _ _ _ _ a takes rfl rfl rfl rfl rfl alg width mode dist
    refine (State.run_busWrite_takes takes).trans (State.next_congr (if_neg ?_))
    simp [alg, width, mode, dist]
  case cvuStart =>
    rintro s _ n v _ a takes rfl rfl start
    exact execCvuStart_starts takes start
  case cvuData => rintro s _ n w v _ a takes rfl rfl; exact State.run_busWrite_takes takes
  case cvuExpect => rintro s _ n v _ _ a takes rfl rfl rfl; exact State.run_busWrite_takes takes
  case cvuAliveIn =>
    rintro s _ n v _ _ _ _ _ _ a takes rfl rfl rfl rfl checks rfl rfl rfl
    exact (State.run_busWrite_takes takes).trans (State.next_congr (if_neg (by simp [checks])))

/-! ## What the start of a run leaves -/

theorem find?_file {α : Type} (l : List (Nat × α)) (k : Nat) (x : α) : find? (file l k x) k = some x := by
  induction l with
  | nil => exact if_pos rfl
  | cons p l ih =>
    obtain ⟨j, w⟩ := p
    rw [file]
    split
    · exact if_pos rfl
    split
    · exact if_pos rfl
    next ne => exact (if_neg (Ne.symm ne)).trans ih

theorem Hw.aliveMod_eq (h : Hw) (n : Nat) :
    h.aliveMod n = 2 ^ (match h.get (CVU_CFG n) 21 20 with | 0 => 4 | 1 => 8 | _ => 16) := by
  rw [Hw.aliveMod]
  generalize h.get (CVU_CFG n) 21 20 = width
  obtain _ | _ | _ := width <;> rfl

section Started

variable {h : Hw} (ok : h.regsOk = true) (n : Nat)

theorem Hw.cvuLoaded_reg :
    ((h.cvuLoaded n).cvu n).reg = h.rdPair (CVU_INIT_LO n) (CVU_INIT_HI n) % 2 ^ (h.cvuAlg n).width := by
  show ((find? (file h.cvus n _) n).getD {}).reg = _
  rw [find?_file]
  rfl

theorem Hw.cvuStarted_cvu : (h.cvuStarted n).cvu n = (h.cvuLoaded n).cvu n := by
  rw [Hw.cvuStarted]
  split <;> rfl

include ok

theorem Hw.cvuLoaded_regsOk : (h.cvuLoaded n).regsOk = true := Hw.wr_regsOk (h.setCvu n _) ok _ _

variable {n}

theorem Hw.rd_cvuLoaded_other (o : Nat) (len : o ≠ 0x12C) :
    (h.cvuLoaded n).rd (at_ (pgCVU n) o) = h.rd (at_ (pgCVU n) o) :=
  Hw.rd_wr_other (h := h.setCvu n _) ok _ (by simp only [CVU_LEN, at_]; omega)

/-- A start writes the length and the alive counter of its unit and no other register. -/
theorem Hw.rd_cvuStarted_other (o : Nat) (len : o ≠ 0x12C) (alive : o ≠ 0x150) :
    (h.cvuStarted n).rd (at_ (pgCVU n) o) = h.rd (at_ (pgCVU n) o) := by
  rw [Hw.cvuStarted, ← Hw.rd_cvuLoaded_other ok o len]
  split
  · exact Hw.rd_put_other (Hw.cvuLoaded_regsOk ok n) _ _ _ (by simp only [CVU_ALIVE_GEN, at_]; omega)
  · rfl

/-- A start sets the length to 0. -/
theorem Hw.rd_cvuStarted_len : (h.cvuStarted n).rd (CVU_LEN n) = 0 := by
  have loaded : (h.cvuLoaded n).rd (CVU_LEN n) = 0 := Hw.rd_wr_same (h := h.setCvu n _) ok _ _
  rw [Hw.cvuStarted]
  split
  · rw [Hw.rd_put_other (Hw.cvuLoaded_regsOk ok n) _ _ _ (by simp only [CVU_LEN, CVU_ALIVE_GEN, at_]; omega), loaded]
  · exact loaded

theorem Hw.cvuStarted_alg : (h.cvuStarted n).cvuAlg n = h.cvuAlg n := by
  rw [Hw.cvuAlg, Hw.get, Hw.rd_cvuStarted_other ok 0x100 (by decide) (by decide)]
  rfl

/-- The result reads `INIT` XOR `XOR` before the first byte (R610). -/
theorem Hw.cvuStarted_result : (h.cvuStarted n).cvuResult n =
    (h.rdPair (CVU_INIT_LO n) (CVU_INIT_HI n) ^^^ h.rdPair (CVU_XOR_LO n) (CVU_XOR_HI n)) % 2 ^ (h.cvuAlg n).width := by
  have mask : (h.cvuStarted n).rdPair (CVU_XOR_LO n) (CVU_XOR_HI n) = h.rdPair (CVU_XOR_LO n) (CVU_XOR_HI n) := by
    rw [Hw.rdPair, Hw.rd_cvuStarted_other ok 0x110 (by decide) (by decide),
      Hw.rd_cvuStarted_other ok 0x114 (by decide) (by decide)]
    rfl
  rw [Hw.cvuResult, Hw.cvuStarted_cvu, Hw.cvuLoaded_reg, mask, Hw.cvuStarted_alg ok, Nat.xor_mod_two_pow, Nat.mod_mod,
    ← Nat.xor_mod_two_pow]

/-- The alive counter steps under `ALIVE_W` in generate mode (R613). -/
theorem Hw.cvuStarted_alive : (h.cvuStarted n).get (CVU_ALIVE_GEN n) 15 0 =
    if h.get (CVU_CFG n) 17 16 = 1 then (h.get (CVU_ALIVE_GEN n) 15 0 + 1) % h.aliveMod n
    else h.get (CVU_ALIVE_GEN n) 15 0 := by
  have mode : (h.cvuLoaded n).get (CVU_CFG n) 17 16 = h.get (CVU_CFG n) 17 16 := by
    rw [Hw.get, Hw.rd_cvuLoaded_other ok 0x100 (by decide)]; rfl
  have alive : (h.cvuLoaded n).get (CVU_ALIVE_GEN n) 15 0 = h.get (CVU_ALIVE_GEN n) 15 0 := by
    rw [Hw.get, Hw.rd_cvuLoaded_other ok 0x150 (by decide)]; rfl
  have modulus : (h.cvuLoaded n).aliveMod n = h.aliveMod n := by
    rw [Hw.aliveMod, Hw.get, Hw.rd_cvuLoaded_other ok 0x100 (by decide)]; rfl
  rw [Hw.cvuStarted, mode, alive, modulus]
  split
  · rw [Hw.get_put_same (Hw.cvuLoaded_regsOk ok n) _ _ (by decide) (by decide)]
    refine Nat.mod_eq_of_lt ((Nat.mod_lt _ ?_).trans_le ?_)
    · rw [Hw.aliveMod]; split <;> decide
    · rw [Hw.aliveMod]; split <;> decide
  · exact alive

end Started

/-- The low half of a word merged under the mask of its written bits. -/
theorem fld_merged (old v : Nat) :
    fld ((((old &&& (0xFFFF_FFFF - 0xFFFF)) ||| (v &&& 0xFFFF)) ||| (v &&& 0)) &&& (0xFFFF_FFFF - (v &&& 0))) 15 0 =
      v % 2 ^ 16 := by
  show _ % 2 ^ 16 = _
  simp only [Nat.shiftRight_zero, Nat.and_zero, Nat.or_zero, Nat.sub_zero, Nat.and_mod_two_pow, Nat.or_mod_two_pow]
  simpa using (Nat.and_two_pow_sub_one_eq_mod (v % 65536) 16).trans (Nat.mod_mod v 65536)

/-- A write of `CVU_ALIVE_GEN` stores its low 16 bits (R613). -/
theorem Hw.get_storeReg_aliveGen {h : Hw} (ok : h.regsOk = true) (n : Fin 8) (v : Nat) :
    (h.storeReg (CVU_ALIVE_GEN n) v).get (CVU_ALIVE_GEN n) 15 0 = v % 2 ^ 16 := by
  have known : ∀ n : Fin 8, (rowAt (CVU_ALIVE_GEN n)).map (fun r => (r.rw, r.w1s, r.w1c)) = some (0xFFFF, 0, 0) := by decide
  obtain ⟨row, at_row, masks⟩ := Option.map_eq_some_iff.mp (known n)
  obtain ⟨rw_, w1s, w1c⟩ : row.rw = 0xFFFF ∧ row.w1s = 0 ∧ row.w1c = 0 := by simpa using masks
  rw [Hw.storeReg]
  simp only [at_row, rw_, w1s, w1c]
  rw [Hw.get, Hw.rd_wr_same ok, fld_mod_word _ _ (by decide)]
  exact fld_merged _ v

/-- A write that reaches `CVU_ALIVE_GEN` is stored. -/
theorem exec_registerWrite_aliveGen {s : State} {n : Fin 8} {v : Word} {a : Attr}
    (takes : s.hw.takes (CVU_ALIVE_GEN n) a = true) : exec (.registerWrite (0xF000_0000 + CVU_ALIVE_GEN n) 4 v a) s =
      .next (s.withHw ((s.hw.answer 0).storeReg (CVU_ALIVE_GEN n) v.toNat)) := by
  have lt : ∀ n : Fin 8, CVU_ALIVE_GEN n < 0x400_0000 := by decide
  have al : ∀ n : Fin 8, CVU_ALIVE_GEN n % 4 = 0 := by decide
  have offset : ∀ n : Fin 8, CVU_ALIVE_GEN n % 0x10000 = 0x150 := by decide
  have block : ∀ n : Fin 8, (pageRow (CVU_ALIVE_GEN n / 0x10000)).map (·.blk) = some .cvu := by decide
  obtain ⟨row, page, blk⟩ := Option.map_eq_some_iff.mp (block n)
  have plain : s.hw.writeAt (CVU_ALIVE_GEN n) v a = s.hw.plain (CVU_ALIVE_GEN n) v a := by
    simp only [Hw.writeAt, page, blk, offset n]
    rfl
  rw [exec_registerWrite, Hw.regWrite, Hw.regAccess_aligned _ _ _ (lt n) (al n), plain, Hw.plain,
    Hw.busWrite_takes _ _ _ _ takes]

/-- Settles O52: a start by the lemmas on `Hw.cvuStarted`, a written counter by `Hw.get_storeReg_aliveGen`. -/
theorem checkValueStart : Obligations.CheckValueStart := by
  refine ⟨?start, ?value⟩
  case start =>
    intro s n v a ok takes start
    have okA : (s.hw.answer 0).regsOk = true := ok
    refine ⟨_, execCvuStart_starts takes (by omega), ?reg, ?len, ?result, ?alive⟩
    case reg => exact (congrArg CvuSt.reg (Hw.cvuStarted_cvu n)).trans (Hw.cvuLoaded_reg n)
    case len => exact Hw.rd_cvuStarted_len okA
    case result => exact Hw.cvuStarted_result okA
    case alive =>
      refine (Hw.cvuStarted_alive okA).trans ?_
      rw [Hw.aliveMod_eq] <;> rfl
  case value =>
    intro s n v a ok takes
    exact ⟨_, exec_registerWrite_aliveGen takes, Hw.get_storeReg_aliveGen (h := s.hw.answer 0) ok n v.toNat⟩

end Sys2Proof.Machine

/-! # The twin family

The commands of the twin: what enabling, the frames of the partner, the times of the link and a declaration leave on
the branch that their conditions name, and the statements on them. -/

namespace Sys2Proof.Machine

/-! ## Frames of the partner -/

section Twin

variable {s : State}

/-- The outcome of a frame that is taken: its work on the module that shows what the frame says of the partner (R626, R628). -/
theorem State.run_exrexRx_takes {b : List Byte} {f : Exrex} {ok : Nat → Bool} {bad : Hw → Hw} {k : Exrex → Hw → Hw}
    (takes : s.hw.exrexTakes b f) (kind : ok f.typ = true) :
    s.run (fun h => h.exrexRx b ok bad k) = .next (s.withHw (k f (s.hw.peerSeen f))) := by
  rw [State.run, Hw.exrexRx_takes _ _ _ _ _ _ takes kind]

/-- A HELLO goes out once a millisecond (R631). -/
theorem execHelloSend_sends (live : s.hw.live pgTWN = true) (on : (s.hw.twState == twOff) = false)
    (due : ∀ t, s.hw.twn.helloAt = some t → t + 1_200_000 ≤ s.hw.now) :
    exec .helloSend s = .next (s.withHw (({ s.hw with twn := { s.hw.twn with helloAt := some s.hw.now } } : Hw).exrexSend 1 0 0
      (s.hw.tick32 0) 0 (leBytes 4 (Config.uid 0).toNat ++ leBytes 4 (Config.uid 1).toNat ++
        (List.range 8).flatMap (fun w => leBytes 4 (s.hw.rd (TWN_BUILD w)))))) := by
  refine State.next_congr (if_neg ?_)
  rw [live, on]
  cases e : s.hw.twn.helloAt with
  | none => simp
  | some t => simpa using due t e

/-- A STATE or DRAIN frame in SYNC goes on in SYNC (R633). -/
theorem execStateRx_sync {b : List Byte} {f : Exrex} {g : Hw} (takes : s.hw.exrexTakes b f) (kind : f.typ = 6 ∨ f.typ = 7)
    (e_g : g = s.hw.peerSeen f) (sync : g.twState = twSync) :
    exec (.stateRx b) s = .next (s.withHw
      (if f.typ = 7 then (drainRecords 342 f.payload).foldl (fun (h : Hw) r => h.twinWrite r.1 r.2) g
      else if f.part ≠ g.twn.nextSeg ∨ g.twn.synced = true then g
      else
        let x := g.twinWrite (f.part * 4096 % poolSize) f.payload
        { x with twn := { x.twn with nextSeg := x.twn.nextSeg + 1, synced := decide (fld f.flags 4 4 = 1) } })) := by
  subst e_g
  have stays : ¬ ((s.hw.peerSeen f).twState == twDiverged && !(s.hw.peerSeen f).bit TWN_STATE 3 && f.typ == 6 && f.part == 0 &&
      fld f.flags 0 0 == 1) = true := by simp [sync]
  refine (State.run_exrexRx_takes takes (by simpa using kind)).trans (State.next_congr ?_)
  dsimp only
  rw [if_neg stays]
  exact if_neg (by simp [sync])

end Twin

/-- Settles O22: each command of the twin on the branch that its conditions name; the frames of the partner by
`State.run_exrexRx_takes`. -/
theorem twinCommandsComplete : Obligations.TwinCommandsComplete := by
  refine ⟨?twnEnable, ?twnEnable_off, ?helloSend, ?helloRx, ?helloRx_alone, ?aloneTimeout, ?aloneTimeout_early, ?heartbeatSend,
    ?heartbeatRx, ?heartbeatMiss, ?imageSegmentRx, ?imageSegmentRx_complete, ?imageTimeout, ?signatureSend, ?signatureRx,
    ?signatureRx_first, ?signatureRx_unpaired, ?stateRx, ?stateRx_drain, ?twnDeclare_write, ?twnDeclare_condition, ?declareRx,
    ?ackRx, ?declareDeadline, ?twnResync, ?exrexLaneLoss_up, ?exrexLaneLoss_down, ?twnCntClr⟩
  case twnEnable =>
    rintro s _ v _ _ _ a takes rfl rfl rfl rfl off sound enables may
    refine (State.run_busWrite_takes takes).trans (State.next_congr ?_)
    exact (if_neg (by simp [off])).trans ((if_neg (by simp [sound])).trans ((if_pos (by simp only [enables, off]; decide)).trans
      (if_neg (by simp [may]))))
  case twnEnable_off =>
    rintro s _ v _ _ a takes rfl rfl rfl was same sound disables
    refine (State.run_busWrite_takes takes).trans (State.next_congr ?_)
    exact (if_neg (by simp only [same]; simp)).trans ((if_neg (by simp [sound])).trans ((if_neg (by simp [disables])).trans
      (if_pos (by simp only [was, disables]; decide))))
  case helloSend =>
    rintro s _ _ _ rfl rfl rfl live on due _
    exact execHelloSend_sends live on due
  case helloRx =>
    rintro s _ b f _ _ _ rfl takes typ rfl rfl rfl hello
    exact (State.run_exrexRx_takes takes (by simp [typ])).trans (State.next_congr (if_pos hello))
  case helloRx_alone =>
    rintro s _ b f _ _ rfl takes typ rfl rfl notHello alone
    exact (State.run_exrexRx_takes takes (by simp [typ])).trans
      (State.next_congr ((if_neg (by simp only [notHello]; decide)).trans (if_pos alone)))
  case aloneTimeout =>
    rintro s _ _ rfl rfl live hello late
    exact State.next_congr (if_neg (by rw [live, hello]; simpa using late))
  case aloneTimeout_early =>
    rintro s _ rfl early
    exact State.next_congr (if_pos (by simp [early]))
  case heartbeatSend =>
    rintro s _ _ _ rfl rfl rfl live on boundary new _
    exact State.next_congr (if_neg (by rw [live, on, boundary, new]; decide))
  case heartbeatRx =>
    rintro s _ b f _ _ _ rfl takes typ rfl rfl rfl
    exact State.run_exrexRx_takes takes (by simp [typ])
  case heartbeatMiss =>
    rintro s _ k _ _ rfl rfl rfl live on missed
    refine State.next_congr ((if_neg (by rw [live, on]; decide)).trans ?_)
    simp only [missed]
  case imageSegmentRx =>
    rintro s _ b f _ _ _ rfl takes typ rfl rfl rfl inStep standby twinned current released
    refine (State.run_exrexRx_takes takes (by simp [typ])).trans (State.next_congr ?_)
    refine (if_neg (by rw [inStep, standby, twinned]; decide)).trans ((if_neg (by rw [current]; decide)).trans ?_)
    simp only [released]
  case imageSegmentRx_complete =>
    rintro s _ b f _ bs _ _ _ rfl takes typ rfl rfl rfl rfl inStep standby twinned current waits whole
    refine (State.run_exrexRx_takes takes (by simp [typ])).trans (State.next_congr ?_)
    refine (if_neg (by rw [inStep, standby, twinned]; decide)).trans ((if_neg (by rw [current]; decide)).trans ?_)
    simp only [waits, whole]
  case imageTimeout =>
    rintro s _ c rfl live waits late
    exact State.next_congr (if_neg (by simp [live, waits, Nat.not_lt.mpr late]))
  case signatureSend =>
    rintro s _ c tick cycle sig _ rfl rfl toSend _
    show execSignatureSend c s = _
    rw [execSignatureSend, State.run]
    simp only [toSend]
  case signatureRx =>
    rintro s _ b f _ own _ rfl takes typ rfl rfl inStep twinned paired plain sent
    refine (State.run_exrexRx_takes takes (by simp [typ])).trans (State.next_congr ?_)
    refine (if_neg (by rw [inStep, twinned, paired]; decide)).trans ((if_neg plain).trans ?_)
    simp only [sent, if_true]
  case signatureRx_first =>
    rintro s _ b f _ _ rfl takes typ rfl rfl inStep twinned paired plain first
    refine (State.run_exrexRx_takes takes (by simp [typ])).trans (State.next_congr ?_)
    refine (if_neg (by rw [inStep, twinned, paired]; decide)).trans ((if_neg plain).trans ?_)
    simp only [first]
  case signatureRx_unpaired =>
    rintro s _ b f _ _ rfl takes typ rfl rfl inStep twinned paired partner
    exact (State.run_exrexRx_takes takes (by simp [typ])).trans (State.next_congr
      ((if_neg (by rw [inStep, twinned, paired]; decide)).trans (if_pos partner)))
  case stateRx =>
    rintro s _ b f _ _ rfl takes typ e_g rfl sync next more
    exact (execStateRx_sync takes (.inl typ) e_g sync).trans (State.next_congr
      ((if_neg (by simp [typ])).trans (if_neg (by simp [next, more]))))
  case stateRx_drain =>
    rintro s _ b f _ rfl takes typ e_g sync
    exact (execStateRx_sync takes (.inr typ) e_g sync).trans (State.next_congr (if_pos typ))
  case twnDeclare_write =>
    rintro s _ v a takes rfl go went
    refine (State.run_busWrite_takes takes).trans (State.next_congr ((if_neg go).trans ?_))
    generalize (s.hw.answer 0).declareFaulty 31 = r at went ⊢
    obtain ⟨_, g⟩ := r
    subst went
    rfl
  case twnDeclare_condition => rintro s _ k _ rfl rfl; rfl
  case declareRx =>
    rintro s _ b f _ _ _ rfl takes typ rfl rfl rfl
    exact State.run_exrexRx_takes takes (by simp [typ])
  case ackRx =>
    rintro s _ b f _ q rfl takes typ rfl declared answers acks
    refine (State.run_exrexRx_takes takes (by simp [typ])).trans (State.next_congr ?_)
    simp only [declared]
    exact if_neg (by simp [answers, acks])
  case declareDeadline =>
    rintro s _ rfl live past
    exact State.next_congr (if_pos (by rw [live, past]; rfl))
  case twnResync =>
    rintro s _ v a takes rfl go diverged holds
    exact (State.run_busWrite_takes takes).trans (State.next_congr
      ((if_neg go).trans (if_neg (by rw [diverged, holds]; decide))))
  case exrexLaneLoss_up =>
    rintro s _ lane _ _ rfl rfl rfl live down locks
    exact State.next_congr ((if_neg (by simp [live])).trans (if_pos (by rw [locks, down]; rfl)))
  case exrexLaneLoss_down =>
    rintro s _ lane _ _ rfl rfl rfl live up loses
    refine State.next_congr ((if_neg (by simp [live])).trans ?_)
    dsimp only
    rw [loses, up]
    rfl
  case twnCntClr =>
    rintro s _ v a takes rfl missed mismatched unpaired corrupt
    refine (State.run_busWrite_takes takes).trans (State.next_congr ?_)
    simp [each, List.range_succ, missed, mismatched, unpaired, corrupt]

end Sys2Proof.Machine

/-! # The health and Reel family

The commands of the health unit and of the Reel: what the rota, a test, the Dailies, a record, a trigger, a dump and a
Take leave on the branch that their conditions name, and the statements on them. -/

namespace Sys2Proof.Machine

/-! ## Health -/

/-- The rota puts the next spare under test (R619). -/
theorem execSpareRota_tests {s : State} {e : Nat} {x : Hw} (e_x : x = { s.hw with hlt := { s.hw.hlt with rotaAt := s.hw.now } })
    (live : s.hw.live pgHLT = true) (due : s.hw.hlt.rotaAt + 600_000_000 ≤ s.hw.now) (next : s.hw.rotaNext = some e)
    (free : s.hw.hlt.testing = none) (fresh : ¬ (e = s.hw.get HLT_ROTA 20 16 ∧ s.hw.hlt.passed = false)) :
    exec .spareRota s = .next (s.withHw
      (((({ x with hlt := { x.hlt with testing := some e, passed := false } } : Hw).setEngState e engSelftest).put HLT_ROTA 20 16
        e))) := by
  have next' : x.rotaNext = some e := by rw [e_x]; exact next
  subst e_x
  refine State.next_congr ((if_neg (by simp [live, Nat.not_lt.mpr due])).trans ?_)
  simp only [next']
  exact (if_neg (by simp [free])).trans (if_neg fresh)

/-- Settles O23: each command of the health unit on the branch that its conditions name. -/
theorem healthCommandsComplete : Obligations.HealthCommandsComplete := by
  refine ⟨?spareRota, ?startupTest, ?dailies⟩
  case spareRota =>
    rintro s _ e _ _ rfl e_x rfl live due next free fresh
    exact execSpareRota_tests e_x live due next free fresh
  case startupTest =>
    rintro s _ pd8 res _ rfl rfl on live
    exact State.next_congr (if_neg (by rw [on, live]; decide))
  case dailies =>
    rintro s _ x ws y g rfl e_x e_ws e_y e_g due
    subst e_g
    subst e_y
    subst e_ws
    subst e_x
    exact State.next_congr (if_neg (by simp [due]))

/-! ## The Reel -/

section Reel

variable {h : Hw} {s : State}

/-- A trigger in POST is recorded (R662). -/
theorem Hw.relTrigger_post {src : Nat} (live : h.live pgREL = true) (post : h.relState = 2) :
    h.relTrigger src = h.record 10 0 (leBytes 4 src ++ leBytes 4 (nowHi (h.slotVal 0))) :=
  (if_neg (by simp [live])).trans (if_pos post)

/-- A trigger in HELD, DUMPING or a Take state is counted (R662). -/
theorem Hw.relTrigger_lost {src : Nat} (live : h.live pgREL = true) (held : 3 ≤ h.relState) :
    h.relTrigger src = h.sat REL_TRIG_LOST :=
  (if_neg (by simp [live])).trans ((if_neg (by omega)).trans (if_pos held))

/-- Event lines that trigger the Reel act by their sources (R661). -/
theorem execTrigger_acts {lines : List (Fin 2048)} {es : List Nat} {src : Nat}
    (e_es : es = (lines.map Fin.val).filter (fun e => s.hw.seesEdge 2 e e && !s.hw.lineSecure e))
    (e_src : src = (List.range 4).foldl
      (fun x k => if s.hw.bit (REL_TRIG k) 31 && es.contains (s.hw.get (REL_TRIG k) 10 0) then x + 2 ^ k else x) 0)
    (hits : src ≠ 0) : exec (.trigger lines) s = .next (s.withHw
      (({ s.hw with took := es.map (fun e => (2, e)) ++ s.hw.took } : Hw).relTrigger src)) := by
  subst e_es e_src
  exact State.next_congr (if_neg hits)

theorem execRelTrigSw_acts {v : Word} {a : Attr} (takes : s.hw.takes REL_TRIG_SW a = true) (go : fld v.toNat 0 0 = 1) :
    exec (.relTrigSw v a) s = .next (s.withHw ((s.hw.answer 0).relTrigger 0x10)) :=
  (State.run_busWrite_takes takes).trans (State.next_congr (if_pos go))

theorem execRelRearm_begins {v : Word} {a : Attr} (takes : s.hw.takes REL_REARM a = true) (go : fld v.toNat 0 0 ≠ 0)
    (held : (s.hw.answer 0).relState = 3) :
    exec (.relRearm v a) s = .next (s.withHw ((s.hw.answer 0).relBegin (s.hw.answer 0).rel)) :=
  (State.run_busWrite_takes takes).trans (State.next_congr ((if_neg go).trans (if_neg (not_not.mpr held))))

end Reel

/-- Settles O24: each command of the Reel on the branch that its conditions name. -/
theorem reelCommandsComplete : Obligations.ReelCommandsComplete := by
  refine ⟨?slate, ?gap, ?snapshot, ?snapshot_wanted, ?snapEnd, ?trigger, ?relTrigSw, ?postEnd, ?relRearm, ?relEnable_on,
    ?relEnable_off, ?dump, ?dumpDone, ?takeGo, ?takeCycle_image, ?takeCycle_record, ?takeEnd, ?takeEnd_gap⟩
  case slate =>
    rintro s _ _ rfl rfl boundary new
    exact State.next_congr (if_neg (by rw [boundary, new]; decide))
  case gap =>
    rintro s _ _ _ rfl rfl rfl on room some_
    exact State.next_congr ((if_pos (by simp [on, room])).trans (if_neg some_))
  case snapshot =>
    rintro s _ rfl due
    exact State.next_congr (if_pos due)
  case snapshot_wanted =>
    rintro s _ rfl early
    exact State.next_congr (if_neg (by simp [early]))
  case snapEnd =>
    rintro s _ b _ rfl rfl copies on
    show execSnapEnd s = _
    rw [execSnapEnd, State.run]
    simp only [copies]
    exact State.next_congr (if_neg (by simp [on]))
  case trigger =>
    rintro s _ lines _ _ _ rfl e_es e_src rfl hits
    exact execTrigger_acts e_es e_src hits
  case relTrigSw =>
    rintro s _ v a takes rfl go _ _
    exact execRelTrigSw_acts takes go
  case postEnd =>
    rintro s _ rfl past
    exact State.next_congr (if_pos past)
  case relRearm =>
    rintro s _ v a takes rfl go held
    exact execRelRearm_begins takes go held
  case relEnable_on =>
    rintro s _ v _ a takes rfl rfl off on regions
    refine (State.run_busWrite_takes takes).trans (State.next_congr ?_)
    exact (if_neg (by simp only [off]; simp)).trans ((if_neg (by simp [regions])).trans
      (if_pos (by simp only [off, on]; decide)))
  case relEnable_off =>
    rintro s _ v _ a takes rfl rfl on same off
    refine (State.run_busWrite_takes takes).trans (State.next_congr ?_)
    exact (if_neg (by simp only [same]; simp)).trans ((if_neg (by simp [off])).trans
      ((if_neg (by simp [off])).trans (if_pos (by simp only [on, off]; decide))))
  case dump =>
    rintro s _ v _ _ _ a takes rfl rfl rfl rfl go held sound
    exact (State.run_busWrite_takes takes).trans (State.next_congr
      ((if_neg go).trans ((if_neg (not_not.mpr held)).trans (if_neg sound))))
  case dumpDone =>
    rintro s _ rfl live dumping out
    exact State.next_congr (if_neg (by rw [live, dumping, out]; decide))
  case takeGo =>
    rintro s _ v a takes rfl go opened stopped ready idle
    refine (State.run_busWrite_takes takes).trans (State.next_congr ?_)
    exact (if_neg go).trans ((if_neg (by rw [opened, stopped]; decide)).trans (if_neg (by simp [ready, idle])))
  case takeCycle_image =>
    rintro s _ x r rfl live array takes next
    show execTakeCycle s = _
    rw [execTakeCycle, State.run]
    simp only [live, array, Bool.and_self, if_true, takes, next]
  case takeCycle_record =>
    rintro s _ x r rest rfl live array takes none_ left kind
    show execTakeCycle s = _
    rw [execTakeCycle, State.run]
    simp only [live, array, Bool.and_self, if_true, takes, none_, left, if_neg kind]
  case takeEnd =>
    rintro s _ x rfl live takes left
    show execTakeEnd s = _
    rw [execTakeEnd, State.run]
    simp only [live, if_true, takes, left]
  case takeEnd_gap =>
    rintro s _ x r rest rfl live takes left kind
    show execTakeEnd s = _
    rw [execTakeEnd, State.run]
    simp only [live, if_true, takes, left, kind]

/-- Settles O53: a trigger by `Hw.relTrigger_post` and `Hw.relTrigger_lost`, a REARM by `execRelRearm_begins`. -/
theorem reelTriggers : Obligations.ReelTriggers := by
  refine ⟨?recorded, ?lost, ?softwareRecorded, ?softwareLost, ?rearmed⟩
  case recorded =>
    rintro s _ lines _ _ _ rfl e_es e_src rfl hits live post
    exact (execTrigger_acts e_es e_src hits).trans (State.next_congr (Hw.relTrigger_post live post))
  case lost =>
    rintro s _ lines _ _ _ rfl e_es e_src rfl hits live held
    exact (execTrigger_acts e_es e_src hits).trans (State.next_congr (Hw.relTrigger_lost live held))
  case softwareRecorded =>
    rintro s _ v a takes rfl go live post
    exact (execRelTrigSw_acts takes go).trans (State.next_congr (Hw.relTrigger_post live post))
  case softwareLost =>
    rintro s _ v a takes rfl go live held
    exact (execRelTrigSw_acts takes go).trans (State.next_congr (Hw.relTrigger_lost live held))
  case rearmed =>
    rintro s _ v _ a takes rfl rfl go held
    exact execRelRearm_begins takes (by omega) held

end Sys2Proof.Machine

/-! # The boot, update and supply family

The commands of boot, of the flash programmer, of update and recovery, of supply, resets and power domains: what each
leaves on the branch that its conditions name, and the statements on them. -/

namespace Sys2Proof.Machine

/-! ## Flash commands and updates -/

section Boot

variable {s : State} {h g x : Hw} {v : Nat} {a : Attr} {o n src : Nat}

/-- A flash command that is accepted makes the programmer busy with it (R672). -/
theorem Hw.flCommand_starts {op : Nat} (e_o : o = h.get BOOT_FL_OFS 29 0)
    (e_n : n = if op = 1 then 0x1_0000 else h.get BOOT_FL_LEN 24 0)
    (e_src : src = 2 ^ 32 * h.get BOOT_FL_SRC_HI 7 0 + h.rd BOOT_FL_SRC_LO)
    (e_g : g = (h.wr BOOT_FL_CMD (op * 2 ^ 28 + 2 ^ 27)).wr BOOT_FL_DONE 0) (e_x : x = g.putBit (STATUS pgBOOT) 0 true)
    (secure : a.secure = true) (idle : h.bit BOOT_FL_CMD 27 = false)
    (sound : ¬ (op = 0 ∨ 3 < op ∨ (op = 1 ∧ o % 0x1_0000 ≠ 0) ∨ o % 256 ≠ 0 ∨ n % 256 ≠ 0 ∨ n < 256 ∨
      0x100_0000 < n))
    (region : g.regionRefused op o n src = false) (supplied : x.inHold = false) :
    h.flCommand (setFld v 31 28 op) a =
      { x with boot := { x.boot with busy := some { op := op, ofs := o, len := n, src := src } } } := by
  have op_lt : op < 2 ^ 4 := by omega
  have op_eq : fld (setFld v 31 28 op) 31 28 = op := (fld_setFld_same v op (by decide)).trans (Nat.mod_eq_of_lt op_lt)
  subst e_x e_g e_src e_n e_o
  rw [Hw.flCommand]
  simp only [op_eq]
  exact (if_neg (by simp [secure])).trans ((if_neg (by simp [idle])).trans ((if_neg sound).trans
    ((if_neg (ne_true_of_eq_false region)).trans (if_neg (ne_true_of_eq_false supplied)))))

/-- The programmer's present command goes on outside Hold, and a failed one ends with result 2 (R673). -/
theorem execFlDone_busy {f : FlashOp} {ok : Bool} {pages : BitVec 17} (busy : s.hw.boot.busy = some f)
    (supplied : s.hw.inHold = false) : exec (.flDone ok pages) s = .next (s.withHw
      (if !ok then s.hw.flEnd 2
      else match f.op with
        | 1 => ((s.hw.flashErase f.ofs 0x1_0000).wr BOOT_FL_DONE 0x1_0000).flEnd 0
        | 2 => each pages.toNat (fun _ (h : Hw) => h.flPage) s.hw
        | _ => s.hw.flVerify f)) := by
  have same : ({ s.hw with boot := { s.hw.boot with busy := some f } } : Hw) = s.hw := by rw [← busy]
  show execFlDone ok pages s = _
  rw [execFlDone, State.run]
  simp only [busy, supplied, Bool.false_and, Bool.false_eq_true, if_false, same] <;> rfl

/-- An update that its checks let through erases the main region (R684). -/
theorem execUpdateGo_erases {v : Word} {head : List Byte} {len : Nat} {y z : Hw} (takes : s.hw.takes BOOT_UPD_CTRL a = true)
    (e_src : src = 2 ^ 32 * (s.hw.answer 0).get BOOT_UPD_SRC_HI 7 0 + (s.hw.answer 0).rd BOOT_UPD_SRC_LO)
    (e_len : len = (s.hw.answer 0).rd BOOT_UPD_LEN) (e_x : x = (s.hw.answer 0).putBit BOOT_ACT 31 false)
    (e_z : z = { y.wr BOOT_UPD_CTRL (2 ^ 31 + 1) with boot := { y.boot with update := some (src, len) } })
    (secure : a.secure = true) (go : ¬ fld v.toNat 31 31 = 0) (idle : ¬ (s.hw.answer 0).get BOOT_UPD_CTRL 2 0 = 1)
    (read : x.memRead src 256 (ownAttr 0x02) = (some head, y)) (sound : y.updRefuses head len = none)
    (supplied : z.inHold = false) : exec (.updateGo v a) s = .next (s.withHw z.updErase) := by
  subst e_z e_x e_len e_src
  refine (State.run_busWrite_takes takes).trans (State.next_congr
    ((if_neg (by simp [secure])).trans ((if_neg go).trans ((if_neg idle).trans ?_))))
  simp only [read, Option.getD_some, sound]
  exact if_neg (ne_true_of_eq_false supplied)

/-- An update whose writing ends well is complete (R685). -/
theorem execUpdDone_completes {len : Nat} {bs : List Byte} {y : Hw}
    (e_x : x = { s.hw with boot := { s.hw.boot with update := none } }) (update : s.hw.boot.update = some (src, len))
    (supplied : s.hw.inHold = false) (read : x.memRead src len (ownAttr 0x02) = (some bs, y)) :
    exec (.updDone true) s = .next (s.withHw (((y.flashProgram mainAt bs).wr BOOT_UPD_CTRL 2).raise pgBOOT 0)) := by
  subst e_x
  show execUpdDone true s = _
  rw [execUpdDone, State.run]
  simp only [update]
  refine State.next_congr ((if_neg (by simp [supplied])).trans ?_)
  simp only [read, if_true]

/-- A write of `BOOT_PK_REV` with its key (R680). -/
theorem execBootPkRev_keyed {v : Word} (takes : s.hw.takes BOOT_PK_REV a = true) (magic : fld v.toNat 31 16 = 0x5245) :
    exec (.bootPkRev v a) s = .next (s.withHw
      (if fld (fld v.toNat 3 0) (s.hw.answer 0).boot.key (s.hw.answer 0).boot.key = 1 then
        (s.hw.answer 0).refuse BOOT_PK_REV 0x0103 a
      else if (s.hw.answer 0).inHold then (s.hw.answer 0).defer (.pkRev (fld v.toNat 3 0))
      else (s.hw.answer 0).pkRevoke (fld v.toNat 3 0))) :=
  (State.run_busWrite_takes takes).trans (State.next_congr (if_neg (not_not.mpr magic)))

end Boot

/-- Settles O25: each command of boot, flash, update and recovery on the branch that its conditions name; a flash command by
`Hw.flCommand_starts`, its end by `execFlDone_busy`, an update by `execUpdateGo_erases` and `execUpdDone_completes`. -/
theorem bootAndUpdateCommandsComplete : Obligations.BootAndUpdateCommandsComplete := by
  refine ⟨?stageRom, ?loaderCheck_none, ?loaderCheck, ?imageCheck, ?unitReload, ?recoveryEntry, ?flashErase, ?flashProgram,
    ?flashVerify, ?flDone, ?flDone_pages, ?flDone_verify, ?flDone_failed, ?updateGo, ?updDone, ?actArm, ?activate, ?bootRecover,
    ?bootPkRev, ?query, ?data, ?recoveryCommit, ?bootRcvCommit⟩
  case stageRom =>
    rintro s _ rfl stage
    exact State.next_congr (if_pos stage)
  case loaderCheck_none =>
    rintro s _ rfl stage none_
    refine State.next_congr ((if_neg (by simp [stage])).trans ?_)
    simp only [none_]
  case loaderCheck =>
    rintro s _ rfl stage
    refine State.next_congr ((if_neg (by simp [stage])).trans ?_)
    generalize List.find? _ _ = good
    obtain _ | b := good
    · rfl
    generalize (s.hw.arbAdvance 2 (imgSvn b)).bootStage 2 = x
    cases x.boot.reason <;> rfl
  case imageCheck =>
    rintro s _ n b x rfl e_x stage e_n e_b
    refine State.next_congr ((if_neg (by simp [stage])).trans ?_)
    dsimp only
    rw [← e_n, ← e_b, ← e_x] <;> rfl
  case unitReload =>
    rintro s _ n b _ _ rfl rfl rfl stage image rfl
    show execUnitReload s = _
    rw [execUnitReload, State.run]
    simp only [stage, if_true, image] <;> rfl
  case recoveryEntry =>
    rintro s _ r rfl enters
    show execRecoveryEntry s = _
    rw [execRecoveryEntry, State.run]
    simp only [enters]
  case flashErase =>
    rintro s _ v _ _ _ _ a takes rfl e_o e_src e_g e_x secure idle aligned region supplied
    exact (State.run_busWrite_takes takes).trans (State.next_congr
      (Hw.flCommand_starts (op := 1) e_o (if_pos rfl).symm e_src e_g e_x secure idle (by omega) region supplied))
  case flashProgram =>
    rintro s _ v _ _ _ _ _ a takes rfl e_o e_n e_src e_g e_x secure idle sizes region supplied
    exact (State.run_busWrite_takes takes).trans (State.next_congr
      (Hw.flCommand_starts (op := 2) e_o (e_n.trans (if_neg (by decide)).symm) e_src e_g e_x secure idle (by omega) region
        supplied))
  case flashVerify =>
    rintro s _ v _ _ _ _ _ a takes rfl e_o e_n e_src e_g e_x secure idle sizes region supplied
    exact (State.run_busWrite_takes takes).trans (State.next_congr
      (Hw.flCommand_starts (op := 3) e_o (e_n.trans (if_neg (by decide)).symm) e_src e_g e_x secure idle (by omega) region
        supplied))
  case flDone =>
    rintro s _ pages o rfl busy supplied erase
    rw [execFlDone_busy busy supplied, erase]
    rfl
  case flDone_pages =>
    rintro s _ pages o rfl busy supplied program
    rw [execFlDone_busy busy supplied, program]
    rfl
  case flDone_verify =>
    rintro s _ pages o rfl busy supplied verify
    rw [execFlDone_busy busy supplied, verify]
    rfl
  case flDone_failed =>
    rintro s _ pages o rfl busy supplied
    exact execFlDone_busy busy supplied
  case updateGo =>
    rintro s _ v head y _ _ _ _ a takes rfl e_src e_len e_x e_z secure go idle read sound supplied
    exact execUpdateGo_erases takes e_src e_len e_x e_z secure go idle read sound supplied
  case updDone =>
    rintro s _ src len bs y _ rfl e_x update supplied read
    exact execUpdDone_completes e_x update supplied read
  case actArm =>
    rintro s _ v a takes rfl secure complete
    exact (State.run_busWrite_takes takes).trans (State.next_congr (if_neg (by simp only [secure, complete]; simp)))
  case activate =>
    rintro s _ c v acts rfl armed supplied
    exact (State.run_fireCue_acts acts).trans (State.next_congr
      ((if_neg (by simp [armed])).trans (if_neg (by simp [supplied]))))
  case bootRecover =>
    rintro s _ v _ a takes rfl rfl go reason
    exact (State.run_busWrite_takes takes).trans (State.next_congr ((if_neg go).trans (if_neg reason)))
  case bootPkRev =>
    rintro s _ v _ a takes rfl rfl magic other supplied
    exact (execBootPkRev_keyed takes magic).trans (State.next_congr ((if_neg other).trans (if_neg (by simp [supplied]))))
  case query =>
    rintro s _ p b x host rfl frame
    show execQuery p b s = _
    rw [execQuery, State.run]
    simp only [frame]
  case data =>
    rintro s _ p b x host rfl frame inside
    show execData p b s = _
    rw [execData, State.run]
    simp only [frame]
    exact State.next_congr (if_neg (Nat.not_lt.mpr inside))
  case recoveryCommit =>
    rintro s _ p b x host ok rfl frame
    show execRecoveryCommit p b ok s = _
    rw [execRecoveryCommit, State.run]
    simp only [frame]
  case bootRcvCommit =>
    rintro s _ v ok a takes rfl recovering method
    exact (State.run_busWrite_takes takes).trans (State.next_congr (if_pos (by rw [recovering, method]; rfl)))

/-- Settles O54: a keyed write by `execBootPkRev_keyed`. -/
theorem signingKeysAreRevokedForGood : Obligations.SigningKeysAreRevokedForGood := by
  refine ⟨?runningKey, ?revoked, ?inHold⟩
  case runningKey =>
    rintro s _ v a takes rfl magic running
    exact (execBootPkRev_keyed takes magic).trans (State.next_congr (if_pos running))
  case revoked =>
    rintro s _ v a takes rfl magic other supplied
    exact (execBootPkRev_keyed takes magic).trans (State.next_congr
      ((if_neg (by omega)).trans (if_neg (by simp [supplied]))))
  case inHold =>
    rintro s _ v a takes rfl magic other held
    exact (execBootPkRev_keyed takes magic).trans (State.next_congr ((if_neg (by omega)).trans (if_pos held)))

/-! ## Supply, resets and power domains -/

/-- A keyed Secure write of `SYS_RESET_REQ` resets the main logic (R699). -/
theorem execSysResetReq_resets {s : State} {v : Word} {a : Attr} (takes : s.hw.takes SYS_RESET_REQ a = true)
    (secure : a.secure = true) (magic : fld v.toNat 31 16 = 0x5253) (go : fld v.toNat 0 0 = 1) :
    exec (.sysResetReq v a) s = .next (s.withHw ((s.hw.answer 0).mainReset 5)) :=
  (State.run_busWrite_takes takes).trans (State.next_congr (if_neg (by simp [secure, magic, go])))

/-- The watchdog does not expire before its time (R700). -/
theorem Hw.wdogOver_early {h : Hw} (early : h.now < h.sys.wdogAt + h.get SYS_WDOG_CFG 9 0 * 1_200_000) : h.wdogOver = false := by
  simp [Hw.wdogOver, early]

/-- Settles O26: each command of supply, resets and power domains on the branch that its conditions name. -/
theorem supplyAndPowerCommandsComplete : Obligations.SupplyAndPowerCommandsComplete := by
  refine ⟨?holdEnter, ?holdExit, ?vbatHigh, ?in48Fault, ?vbatLoss, ?vbatPowerOn, ?mainLogicReset, ?resetN, ?resetRelease,
    ?sysResetReq, ?sysWdog, ?sysWdog_wrong, ?sysWdogExpiry, ?sysWdogExpiry_early, ?pwrOn, ?pwrOff, ?pwrClkOff, ?pwrClkOn, ?pdDone,
    ?moduleSleep, ?moduleWake, ?supCntClr⟩
  case holdEnter =>
    rintro s _ mv _ _ _ rfl rfl rfl running rfl below
    exact State.next_congr ((if_neg (by simp [running, below])).trans rfl)
  case holdExit =>
    rintro s _ mv ok _ _ _ rfl rfl rfl rfl held level late
    exact State.next_congr (if_neg (by rw [held, level]; simpa using late))
  case vbatHigh => rintro s _ mv _ rfl rfl; rfl
  case in48Fault => rintro s _ uv ov tens _ _ rfl rfl rfl; rfl
  case vbatLoss => rintro s _ rfl; rfl
  case vbatPowerOn =>
    rintro s _ mv _ rfl rfl off
    exact State.next_congr (if_neg (by simp [off]))
  case mainLogicReset =>
    rintro s _ mv _ rfl rfl low
    exact State.next_congr (if_neg (Nat.not_lt.mpr low))
  case resetN => rintro s _ low _ rfl rfl; rfl
  case resetRelease =>
    rintro s _ bootMode twinRole spanRole _ _ rfl rfl rfl due
    exact State.next_congr (if_neg (by simp [due]))
  case sysResetReq =>
    rintro s _ v a takes rfl secure magic go
    exact execSysResetReq_resets takes secure magic go
  case sysWdog =>
    rintro s _ v _ a takes rfl rfl next complement
    exact (State.run_busWrite_takes takes).trans (State.next_congr (if_pos ⟨next, complement⟩))
  case sysWdog_wrong =>
    rintro s _ v _ a takes rfl rfl wrong watched
    exact (State.run_busWrite_takes takes).trans (State.next_congr
      ((if_neg wrong).trans (if_neg (by rw [watched]; decide))))
  case sysWdogExpiry =>
    rintro s _ rfl past
    exact State.next_congr (if_pos past)
  case sysWdogExpiry_early =>
    rintro s _ rfl early
    exact State.next_congr (if_neg (ne_true_of_eq_false (Hw.wdogOver_early early)))
  case pwrOn => rintro s _ v a takes rfl; exact State.run_busWrite_takes takes
  case pwrOff => rintro s _ v a takes rfl; exact State.run_busWrite_takes takes
  case pwrClkOff => rintro s _ m v a takes rfl; exact State.run_busWrite_takes takes
  case pwrClkOn => rintro s _ m v a takes rfl; exact State.run_busWrite_takes takes
  case pdDone =>
    rintro s _ r _ _ _ rfl rfl rfl rfl active
    show execPdDone s = _
    rw [execPdDone, State.run]
    simp only [active]
  case moduleSleep =>
    rintro s _ _ _ rfl rfl rfl asked asleep awake idle
    exact State.next_congr (if_neg (by rw [asked, asleep, awake, idle]; decide))
  case moduleWake =>
    rintro s _ _ _ rfl rfl rfl sleeping woke
    have wakes : ¬ ((!s.hw.pwr.asleep && !s.hw.pwr.sleepSeq) || !s.hw.nmu.woke) = true := by
      rw [woke]
      obtain slept | falling := sleeping
      · simp [slept]
      · simp [falling]
    exact State.next_congr (if_neg wakes)
  case supCntClr =>
    rintro s _ v a takes rfl lowest highest holds last
    refine (State.run_busWrite_takes takes).trans (State.next_congr ?_)
    simp only [lowest, highest, holds, last, if_true]

/-- Settles O55: a keyed write resets (`execSysResetReq_resets`), another one is refused. -/
theorem resetRequestNeedsItsKey : Obligations.ResetRequestNeedsItsKey := by
  refine ⟨?accepted, ?refused⟩
  case accepted =>
    rintro s _ v a takes rfl secure magic go
    exact execSysResetReq_resets takes secure magic go
  case refused =>
    rintro s _ v a takes rfl wrong
    refine (State.run_busWrite_takes takes).trans (State.next_congr (if_pos ?_))
    obtain normal | magic | stays := wrong
    · simp [normal]
    · simp [magic]
    · simp [stays]

end Sys2Proof.Machine
